-- ==== Sys2Proof/Word.lean ====
section
/-! DEFINITION. The word types of the OS-8840: registers are 32 bits (R14), the timeline is 64 bits (R23). -/

namespace Sys2Proof

/-- A register word (R14). -/
abbrev Word := BitVec 32

/-- One byte of a port or of a frame. -/
abbrev Byte := BitVec 8

/-- The timeline count (R23). -/
abbrev Count := BitVec 64

end Sys2Proof
end

