-- ==== Sys2Proof/Config.lean ====
section
/-! DEFINITION. What an implementation fixes and the spec leaves open: constants without a body, so that no proof
can see a value of them. -/

namespace Sys2Proof.Config

/-- How many ticks the refill of a program row from the loader's copy takes (Table 7.10), by the elapsed tick of its error: the spec
gives no time. -/
opaque refillTicks : (at_ : Nat) → Nat

/-- The frequency in Hz that core `core` measures for a band of a sub-core (R120, R121) at the given elapsed tick:
analogue, not fixed by the spec. -/
opaque bandHz : (core sub band at_ : Nat) → Nat

/-- Where in its 1.5 ns range the repeat offset O of a lane falls (R387), in 0.01 ns, at the elapsed tick of the alignment. -/
opaque repeatOffset : (lane at_ : Nat) → Fin 151

/-- The dither d_k of a tick and a DITHER code, in units of 1/den (R115): a function of the two alone, with zero mean over every
2^15 ticks; the spec gives no values. -/
opaque dither : (tick code : Nat) → Int

/-- Where in its cycle the falling edge of a core lies, and which share of its cycle the doubler of an output is high (R324): analogue,
corrected by the calibrated duty trim, and not stated as a number. -/
opaque coreFall : (core : Nat) → Rat
opaque doublerFall : (out : Nat) → Rat

/-- Whether the current limit of an output's balls acts at an elapsed tick while its driver is on and no short has been stamped
(OUT_STAT.LIMIT): analogue, and no row of the operation table. -/
opaque limitActs : (out at_ : Nat) → Bool

/-- How many ticks of its tolerance the barrow's timer takes for the wake that follows an entry to DORMANT (R483). -/
opaque timerSkew : (entered : Nat) → Nat

/-- What a 32-bit register of 0.1 ps reads for a quantity it cannot hold: the spec states no reading. -/
opaque psOverflow : Int → Word

/-- Which calibration steps a run had completed when it ended without completing (R445, CAL_GSTAT.STEPS), by group and
elapsed tick: how far a measurement has come is not a happening of the operation table. -/
opaque stepsDone : (group at_ : Nat) → Nat

/-- The design coefficient of a calibration value word in the calibration engine's firmware (R442), by value word. -/
opaque designCoef : (kind item : Nat) → Word

/-- The coefficient of FMID of a sub-core taken from two measured runs (R442, Table 11.9), from their base temperatures and
band-table words: the spec does not say how one coefficient stands for 256 bands. -/
opaque fmidCoef : (t0 t1 : Int) → (a b : List Word) → Word

/-- What a model run makes of a value word whose coefficient no value word of the group holds (R442), from the group's kind,
the word, its number and the temperatures. -/
opaque modelWord : (kind item : Nat) → (base now : Int) → Word → Word

/-- The charge-pump current code of a band, computed from its tuning gain for a coded bandwidth (Table 11.2, CPCUR). -/
opaque chargePump : (gain bandwidth : Nat) → BitVec 7

/-- The device serial number DEVSER in OTP (Table 15.1): any 64-bit value, unique to the die. -/
opaque devSerial : BitVec 64

/-- The device key in OTP (Table 15.1), never readable. -/
opaque deviceKey : BitVec 256

/-- The SHA-384 of the image-signing public key in OTP (Table 15.1). -/
opaque keyHash : BitVec 384

/-- The nonce ND of the n-th OPEN (R576): fresh, and otherwise not fixed. -/
opaque nonce : Nat → BitVec 128

/-- What the running firmware makes of settings of another format (R600): the items of its own format, or none when it does not
convert them. -/
opaque convert : (from_ to_ : Nat) → List Word → Option (List Word)

end Sys2Proof.Config
end

