-- ==== Sys2Proof/Machine/Registers.lean ====
section
/-! DEFINITION. The register map of the OS-8840: one name per register of the register tables of spec/01 to
spec/16, with its address (R12, R632), the access code of each field (Table 0.3) and its reset value (R17).
A register that exists once per instance is one name with an instance count and a stride. -/

namespace Sys2Proof.Machine

/-- The registers of the address map (Table 16.5), each by its own name. -/
inductive RegName where
  | ANC_GLOBAL
  | ANC_STATUS
  | ANC_CMD
  | ANC_COREMAP
  | ANC_ALIGNCFG
  | ANC_ALIGN
  | ANC_XFERCNT
  | ANC_XFER_LO
  | ANC_XFER_HI
  | REF_CFG
  | REF_RATIO_NUM
  | REF_RATIO_DEN
  | REF_FWIN
  | REF_MONCFG
  | REF_STAT
  | REF_FOFFS
  | REF_DQCNT
  | ANC_CFG
  | ANC_INNER_N
  | ANC_INNER_NUM
  | ANC_INNER_DEN
  | ANC_LOCKCFG
  | ANC_SLEW
  | ANC_STEERLIM
  | ANC_STEER
  | ANC_PERR
  | ANC_BUILDOUT
  | ANC_STAT
  | ANC_TDCCFG
  | CORE_CFG
  | CORE_NUM_LO
  | CORE_DEN_LO
  | CORE_FRAC_HI
  | CORE_NBAND
  | CORE_LOCKCFG
  | CORE_CMD
  | CORE_STAT
  | CORE_PERR
  | CORE_LOCKTIME
  | CORE_LOLCNT
  | CORE_MARGIN
  | CORE_LOCKSUM
  | CORE_FENCESUM
  | CORE_SPAREMAP
  | CORE_WEARCFG
  | STN_CFG
  | STN_MAP
  | STN_OUTMASK
  | STN_STAT
  | STN_SWAPCNT
  | STN_COLDCNT
  | STN_GLIDECNT
  | STN_DROPCNT
  | STN_LASTHOP_LO
  | STN_LASTHOP_HI
  | PROF_DATA
  | PROF_ADDR
  | PROF_CMD
  | PROF_STAT
  | PROF_SHCNT
  | SEQ_BIND
  | SEQ_THREADS
  | SEQ_STATMAP
  | SEQ_EVDROP
  | SEQ_CTL
  | SEQ_START_LO
  | SEQ_START_HI
  | SEQ_STAT
  | TRIG_CFG
  | TRIG_LIMIT
  | TRIG_STAT
  | TRIG_CNT
  | PGM_ADDR
  | PGM_DATA
  | PGM_LOAD
  | PGM_CMD
  | PGM_STAT
  | PGM_SLACK
  | PGM_BLOCKS
  | PGM_MISPRED
  | PGM_SQUASH
  | OUT_CFG
  | OUT_DSET01
  | OUT_DSET23
  | OUT_DELAY
  | OUT_DRV
  | OUT_SYSREF
  | OUT_SYSPULSE
  | OUT_RBCFG
  | OUT_STAT
  | OUT_RBPHASE
  | OUT_RBCNT
  | OUT_EVCNT
  | RAS_CFG
  | RAS_OUTMASK
  | RAS_STG_NUM_LO
  | RAS_STG_DEN_LO
  | RAS_STG_FRAC_HI
  | RAS_STG_SET
  | RAS_STG_EXPECT
  | RAS_EXPECT
  | RAS_CTL
  | RAS_TEIVL
  | RAS_FCOUNT
  | RAS_CNT
  | LN_CFG
  | LN_STAT
  | LN_EQ
  | LN_MARGIN
  | LN_FECCNT
  | LN_DELAY
  | LN_ASYM
  | LN_OFFSET
  | LN_C0SRC
  | LN_C0LAT
  | LN_CNT
  | LN_TRAIN
  | LNG_DEVID
  | LNG_RCLK
  | LNG_TTCFG
  | LNG_TTSTAT
  | LNG_THETA
  | LNG_CMD
  | LNG_SPARE
  | LNG_C1STAT
  | LNG_C1WORD
  | LNG_C1TICK_LO
  | LNG_C1TICK_HI
  | LNG_C1INFO
  | FLOW_ADDR
  | FLOW_DATA
  | FLT_CFG
  | FLT_EPOCH
  | FLT_DIGEST
  | FLT_DGSTAT
  | FLT_MGR
  | FLT_ASOF_LO
  | FLT_ASOF_HI
  | FLT_EPTICK_LO
  | FLT_EPTICK_HI
  | FLT_EXPECT_LO
  | FLT_EXPECT_HI
  | FLT_RQ_CTL
  | FLT_RQ_DST
  | FLT_RQ_DATA
  | FLT_ARMSTAT
  | FLT_ARMNEXT_LO
  | FLT_ARMNEXT_HI
  | FLT_LOGCTL
  | FLT_LOG_ID
  | FLT_LOG_EPOCH
  | FLT_LOG_DG_LO
  | FLT_LOG_DG_HI
  | FLT_LOG_TICK
  | FLT_CNT
  | CAL_CFG
  | CAL_LIMITS
  | CAL_STEPEN
  | CAL_CMD
  | CAL_STAT
  | CAL_DUE_LO
  | CAL_DUE_HI
  | CAL_GSEL
  | CAL_GSTAT
  | CAL_GCOUNT
  | CAL_GSTAMP_LO
  | CAL_GSTAMP_HI
  | CAL_GTEMP
  | CAL_GSNAP0
  | CAL_GSNAP1
  | CAL_GSNAP2
  | CAL_TADDR
  | CAL_TDATA
  | CAL_IMGADDR
  | CAL_IMGDATA
  | CAL_IMGSTAT
  | CAL_SEQ
  | MON_CTL
  | MON_SCAN_LO
  | MON_SCAN_HI
  | MON_STAT
  | MON_INJCMD
  | MON_INJ_A
  | MON_INJ_B
  | MON_VTSEL
  | MON_CNT
  | MON_CHECK
  | MON_THR_CFG
  | MON_THR_STAT
  | MON_RES_A
  | MON_RES_B
  | PWR_STATE
  | PWR_CMD
  | PWR_DOMON
  | BAR_CFG
  | BAR_WAKEEN
  | BAR_INHIB
  | BAR_ALERTEN
  | BAR_WAKECAUSE
  | BAR_TIMER
  | BAR_LANEMASK
  | BAR_FWVER
  | BAR_IN_CFG
  | BAR_IN_STAT
  | STORE_CFG
  | STORE_CMD
  | STORE_STAT
  | STORE_NEXTSEQ
  | STORE_BASE
  | STORE_POOL
  | STORE_RING
  | STORE_START
  | STORE_REPLAY
  | STORE_FLASH
  | STORE_WEAR
  | STORE_COMMITS
  | STORE_LASTC_LO
  | STORE_LASTC_HI
  | STORE_FULLCNT
  | UPD_CFG
  | UPD_CMD
  | UPD_STAT
  | UPD_PROGRESS
  | UPD_ACTVER
  | UPD_ACTSVN01
  | UPD_ACTSVN23
  | UPD_FLOOR01
  | UPD_FLOOR23
  | UPD_FW
  | UPD_SETSTAT
  | UPD_SVCCNT
  | GLB_ID
  | GLB_SERIAL_LO
  | GLB_SERIAL_HI
  | GLB_SCRATCH
  | GLB_STATOUT
  | GLB_FLTSUM
  | GLB_FLTCORE
  | GLB_FLTOUT
  | GLB_FLTMISC
  | MBX_CTL
  | MBX_STAT
  | MBX_ARG
  | SCHED_ADDR
  | SCHED_DATA
  | SCHED_TICK_LO
  | SCHED_TICK_HI
  | SCHED_CTL
  | TIME_NOW_LO
  | TIME_NOW_HI
  | TIME_STATE
  | TIME_PRESET_LO
  | TIME_PRESET_HI
  | TIME_SYNCCFG_LO
  | TIME_SYNCCFG_HI
  | TIME_SYNCMASK
  | TIME_SYNCCMD
  | TIME_SYNCSTAMP_LO
  | TIME_SYNCSTAMP_HI
  | TIME_SYNCSTAT
  | TIME_LATEIN
  | TIME_HWREL_LO
  | TIME_HWREL_HI
  | TIME_LATECNT
  | HSPI_CFG
  | HSPI_STAT
  | HSPI_CNT
  | SVC_CFG
  deriving DecidableEq, Repr, Inhabited

/-- What a register table says of a register: place, instances, access masks and reset word.
`rw` is the union of its RW and WK fields, `sticky` of its one-bit W1C fields, `counts` lists its W1C
counters (low bit, width), cleared by a write of all ones to the field, `w1s` its W1S bits. -/
structure RegSpec where
  base : Nat
  stride : Nat
  count : Nat
  reset : Word
  rw : Word
  sticky : Word
  counts : List (Nat × Nat)
  w1s : Word
  wk : Bool
  deriving DecidableEq, Repr

/-- The register tables: base address, stride, instances, reset word, and the access masks. -/
def regSpec : RegName → RegSpec
  | .ANC_GLOBAL => ⟨0x0200, 0x0, 1, 0x00000002#32, 0x00000003#32, 0x00000000#32, [], 0x00000000#32, false⟩
  | .ANC_STATUS => ⟨0x0204, 0x0, 1, 0x00000000#32, 0x00000000#32, 0x00000000#32, [], 0x00000000#32, false⟩
  | .ANC_CMD => ⟨0x0208, 0x0, 1, 0x00000000#32, 0x00000000#32, 0x00000000#32, [], 0x00000007#32, false⟩
  | .ANC_COREMAP => ⟨0x020C, 0x0, 1, 0x00000000#32, 0x03FFFFFF#32, 0x00000000#32, [], 0x00000000#32, false⟩
  | .ANC_ALIGNCFG => ⟨0x0210, 0x0, 1, 0x000C1405#32, 0x001FFFFF#32, 0x00000000#32, [], 0x00000000#32, false⟩
  | .ANC_ALIGN => ⟨0x0214, 0x0, 1, 0x00000000#32, 0x00000000#32, 0x00000000#32, [], 0x00000000#32, false⟩
  | .ANC_XFERCNT => ⟨0x0218, 0x0, 1, 0x00000000#32, 0x00000000#32, 0x00000000#32, [(0, 32)], 0x00000000#32, false⟩
  | .ANC_XFER_LO => ⟨0x021C, 0x0, 1, 0x00000000#32, 0x00000000#32, 0x00000000#32, [], 0x00000000#32, false⟩
  | .ANC_XFER_HI => ⟨0x0220, 0x0, 1, 0x00000000#32, 0x00000000#32, 0x00000000#32, [], 0x00000000#32, false⟩
  | .REF_CFG => ⟨0x0280, 0x20, 5, 0x00000000#32, 0x000003F7#32, 0x00000000#32, [], 0x00000000#32, false⟩
  | .REF_RATIO_NUM => ⟨0x0284, 0x20, 5, 0x00000000#32, 0xFFFFFFFF#32, 0x00000000#32, [], 0x00000000#32, false⟩
  | .REF_RATIO_DEN => ⟨0x0288, 0x20, 5, 0x00000001#32, 0xFFFFFFFF#32, 0x00000000#32, [], 0x00000000#32, false⟩
  | .REF_FWIN => ⟨0x028C, 0x20, 5, 0x01F400C8#32, 0xFFFFFFFF#32, 0x00000000#32, [], 0x00000000#32, false⟩
  | .REF_MONCFG => ⟨0x0290, 0x20, 5, 0x00640043#32, 0x0FFFCFFF#32, 0x00000000#32, [], 0x00000000#32, false⟩
  | .REF_STAT => ⟨0x0294, 0x20, 5, 0x00000000#32, 0x00000000#32, 0x00000100#32, [], 0x00000000#32, false⟩
  | .REF_FOFFS => ⟨0x0298, 0x20, 5, 0x00000000#32, 0x00000000#32, 0x00000000#32, [], 0x00000000#32, false⟩
  | .REF_DQCNT => ⟨0x029C, 0x20, 5, 0x00000000#32, 0x00000000#32, 0x00000000#32, [(0, 32)], 0x00000000#32, false⟩
  | .ANC_CFG => ⟨0x0380, 0x40, 2, 0x00001C9E#32, 0x0003FFFF#32, 0x00000000#32, [], 0x00000000#32, false⟩
  | .ANC_INNER_N => ⟨0x0384, 0x40, 2, 0x00000050#32, 0x0000007F#32, 0x00000000#32, [], 0x00000000#32, false⟩
  | .ANC_INNER_NUM => ⟨0x0388, 0x40, 2, 0x00000000#32, 0x00FFFFFF#32, 0x00000000#32, [], 0x00000000#32, false⟩
  | .ANC_INNER_DEN => ⟨0x038C, 0x40, 2, 0x00000001#32, 0x00FFFFFF#32, 0x00000000#32, [], 0x00000000#32, false⟩
  | .ANC_LOCKCFG => ⟨0x0390, 0x40, 2, 0x100A1014#32, 0xFFFFFFFF#32, 0x00000000#32, [], 0x00000000#32, false⟩
  | .ANC_SLEW => ⟨0x0394, 0x40, 2, 0x000003E8#32, 0x0000FFFF#32, 0x00000000#32, [], 0x00000000#32, false⟩
  | .ANC_STEERLIM => ⟨0x0398, 0x40, 2, 0x000003E8#32, 0x0000FFFF#32, 0x00000000#32, [], 0x00000000#32, false⟩
  | .ANC_STEER => ⟨0x039C, 0x40, 2, 0x00000000#32, 0x00000000#32, 0x00000000#32, [], 0x00000000#32, false⟩
  | .ANC_PERR => ⟨0x03A0, 0x40, 2, 0x00000000#32, 0x00000000#32, 0x00000000#32, [], 0x00000000#32, false⟩
  | .ANC_BUILDOUT => ⟨0x03A8, 0x40, 2, 0x00000000#32, 0x00000000#32, 0x00000000#32, [], 0x00000000#32, false⟩
  | .ANC_STAT => ⟨0x03A4, 0x40, 2, 0x00000100#32, 0x00000000#32, 0x00000200#32, [], 0x00000000#32, false⟩
  | .ANC_TDCCFG => ⟨0x03AC, 0x40, 2, 0x00000014#32, 0x000000FF#32, 0x00000000#32, [], 0x00000000#32, false⟩
  | .CORE_CFG => ⟨0x0400, 0x40, 26, 0x08A8C452#32, 0xFFFFFFFF#32, 0x00000000#32, [], 0x00000000#32, false⟩
  | .CORE_NUM_LO => ⟨0x0404, 0x40, 26, 0x00000000#32, 0xFFFFFFFF#32, 0x00000000#32, [], 0x00000000#32, false⟩
  | .CORE_DEN_LO => ⟨0x0408, 0x40, 26, 0x00000001#32, 0xFFFFFFFF#32, 0x00000000#32, [], 0x00000000#32, false⟩
  | .CORE_FRAC_HI => ⟨0x040C, 0x40, 26, 0x00000000#32, 0xFFFFFFFF#32, 0x00000000#32, [], 0x00000000#32, false⟩
  | .CORE_NBAND => ⟨0x0410, 0x40, 26, 0x00018014#32, 0x0003FF1F#32, 0x00000000#32, [], 0x00000000#32, false⟩
  | .CORE_LOCKCFG => ⟨0x0414, 0x40, 26, 0x04000002#32, 0xFFFF03FF#32, 0x00000000#32, [], 0x00000000#32, false⟩
  | .CORE_CMD => ⟨0x0418, 0x40, 26, 0x00000000#32, 0x00000000#32, 0x00000000#32, [], 0x00000007#32, false⟩
  | .CORE_STAT => ⟨0x041C, 0x40, 26, 0x00000010#32, 0x00000000#32, 0x00000000#32, [], 0x00000000#32, false⟩
  | .CORE_PERR => ⟨0x0420, 0x40, 26, 0x00000000#32, 0x00000000#32, 0x00000000#32, [], 0x00000000#32, false⟩
  | .CORE_LOCKTIME => ⟨0x0424, 0x40, 26, 0x00000000#32, 0x00000000#32, 0x00000000#32, [], 0x00000000#32, false⟩
  | .CORE_LOLCNT => ⟨0x0428, 0x40, 26, 0x00000000#32, 0x00000000#32, 0x00000000#32, [(0, 32)], 0x00000000#32, false⟩
  | .CORE_MARGIN => ⟨0x042C, 0x40, 26, 0x00000000#32, 0x00000000#32, 0x00000000#32, [], 0x00000000#32, false⟩
  | .CORE_LOCKSUM => ⟨0x0A80, 0x0, 1, 0x00000000#32, 0x00000000#32, 0x00000000#32, [], 0x00000000#32, false⟩
  | .CORE_FENCESUM => ⟨0x0A84, 0x0, 1, 0x00000000#32, 0x00000000#32, 0x00000000#32, [], 0x00000000#32, false⟩
  | .CORE_SPAREMAP => ⟨0x0A88, 0x0, 1, 0x03000000#32, 0x03FFFFFF#32, 0x00000000#32, [], 0x00000000#32, false⟩
  | .CORE_WEARCFG => ⟨0x0A8C, 0x0, 1, 0x00000050#32, 0x00000FFF#32, 0x00000000#32, [], 0x00000000#32, false⟩
  | .STN_CFG => ⟨0x0B00, 0x40, 8, 0x17700000#32, 0xFFFF0003#32, 0x00000000#32, [], 0x00000000#32, false⟩
  | .STN_MAP => ⟨0x0B04, 0x40, 8, 0x00007FFF#32, 0x00007FFF#32, 0x00000000#32, [], 0x00000000#32, false⟩
  | .STN_OUTMASK => ⟨0x0B08, 0x40, 8, 0x00000000#32, 0xFFFFFFFF#32, 0x00000000#32, [], 0x00000000#32, false⟩
  | .STN_STAT => ⟨0x0B0C, 0x40, 8, 0x03000000#32, 0x00000000#32, 0x00000000#32, [], 0x00000000#32, false⟩
  | .STN_SWAPCNT => ⟨0x0B10, 0x40, 8, 0x00000000#32, 0x00000000#32, 0x00000000#32, [(0, 32)], 0x00000000#32, false⟩
  | .STN_COLDCNT => ⟨0x0B14, 0x40, 8, 0x00000000#32, 0x00000000#32, 0x00000000#32, [(0, 32)], 0x00000000#32, false⟩
  | .STN_GLIDECNT => ⟨0x0B18, 0x40, 8, 0x00000000#32, 0x00000000#32, 0x00000000#32, [(0, 32)], 0x00000000#32, false⟩
  | .STN_DROPCNT => ⟨0x0B1C, 0x40, 8, 0x00000000#32, 0x00000000#32, 0x00000000#32, [(0, 32)], 0x00000000#32, false⟩
  | .STN_LASTHOP_LO => ⟨0x0B20, 0x40, 8, 0x00000000#32, 0x00000000#32, 0x00000000#32, [], 0x00000000#32, false⟩
  | .STN_LASTHOP_HI => ⟨0x0B24, 0x40, 8, 0x00000000#32, 0x00000000#32, 0x00000000#32, [], 0x00000000#32, false⟩
  | .PROF_DATA => ⟨0x4000, 0x4, 8, 0x00000000#32, 0xFFFFFFFF#32, 0x00000000#32, [], 0x00000000#32, false⟩
  | .PROF_ADDR => ⟨0x4020, 0x0, 1, 0x00000000#32, 0x00000FFF#32, 0x00000000#32, [], 0x00000000#32, false⟩
  | .PROF_CMD => ⟨0x4024, 0x0, 1, 0x00000000#32, 0x00000000#32, 0x00000000#32, [], 0x00000003#32, false⟩
  | .PROF_STAT => ⟨0x4028, 0x0, 1, 0x00200000#32, 0x00000000#32, 0x00000000#32, [], 0x00000000#32, false⟩
  | .PROF_SHCNT => ⟨0x402C, 0x0, 1, 0x00000000#32, 0x00000000#32, 0x00000000#32, [(16, 16), (0, 16)], 0x00000000#32, false⟩
  | .SEQ_BIND => ⟨0x0D00, 0x0, 1, 0x76543210#32, 0x00000000#32, 0x00000000#32, [], 0x00000000#32, false⟩
  | .SEQ_THREADS => ⟨0x0D04, 0x0, 1, 0x00000300#32, 0x00000000#32, 0x00000000#32, [], 0x00000000#32, false⟩
  | .SEQ_STATMAP => ⟨0x0D08, 0x0, 1, 0xFFFFFFFF#32, 0xFFFFFFFF#32, 0x00000000#32, [], 0x00000000#32, false⟩
  | .SEQ_EVDROP => ⟨0x0D0C, 0x4, 4, 0x00000000#32, 0x00000000#32, 0x00000000#32, [(16, 16), (0, 16)], 0x00000000#32, false⟩
  | .SEQ_CTL => ⟨0x0D40, 0x10, 8, 0x00000000#32, 0x00000000#32, 0x00000000#32, [], 0x00000003#32, false⟩
  | .SEQ_START_LO => ⟨0x0D44, 0x10, 8, 0x00000000#32, 0xFFFFFFFF#32, 0x00000000#32, [], 0x00000000#32, false⟩
  | .SEQ_START_HI => ⟨0x0D48, 0x10, 8, 0x00000000#32, 0xFFFFFFFF#32, 0x00000000#32, [], 0x00000000#32, false⟩
  | .SEQ_STAT => ⟨0x0D4C, 0x10, 8, 0x00000000#32, 0x00000000#32, 0x00000000#32, [], 0x00000000#32, false⟩
  | .TRIG_CFG => ⟨0x0170, 0x10, 9, 0x80020010#32, 0xC0FFFFFF#32, 0x00000000#32, [], 0x00000000#32, false⟩
  | .TRIG_LIMIT => ⟨0x0174, 0x10, 9, 0x000003E8#32, 0x0000FFFF#32, 0x00000000#32, [], 0x00000000#32, false⟩
  | .TRIG_STAT => ⟨0x0178, 0x10, 9, 0x00000000#32, 0x00000000#32, 0x00000006#32, [], 0x80000000#32, false⟩
  | .TRIG_CNT => ⟨0x017C, 0x10, 9, 0x00000000#32, 0x00000000#32, 0x00000000#32, [(16, 16), (0, 16)], 0x00000000#32, false⟩
  | .PGM_ADDR => ⟨0x4040, 0x0, 1, 0x00000000#32, 0x80073FFF#32, 0x00000000#32, [], 0x00000000#32, false⟩
  | .PGM_DATA => ⟨0x4044, 0x0, 1, 0x00000000#32, 0xFFFFFFFF#32, 0x00000000#32, [], 0x00000000#32, false⟩
  | .PGM_LOAD => ⟨0x4048, 0x0, 1, 0x00000000#32, 0x00017FFF#32, 0x00000000#32, [], 0x00000000#32, false⟩
  | .PGM_CMD => ⟨0x404C, 0x0, 1, 0x00000000#32, 0x00000000#32, 0x00000000#32, [], 0x00000003#32, false⟩
  | .PGM_STAT => ⟨0x4050, 0x0, 1, 0x00000000#32, 0x00000000#32, 0x00000000#32, [], 0x00000000#32, false⟩
  | .PGM_SLACK => ⟨0x4054, 0x0, 1, 0x00000000#32, 0x00000000#32, 0x00000000#32, [], 0x00000000#32, false⟩
  | .PGM_BLOCKS => ⟨0x4058, 0x0, 1, 0x00000100#32, 0x00000000#32, 0x00000000#32, [], 0x00000000#32, false⟩
  | .PGM_MISPRED => ⟨0x405C, 0x0, 1, 0x00000000#32, 0x00000000#32, 0x00000000#32, [(0, 32)], 0x00000000#32, false⟩
  | .PGM_SQUASH => ⟨0x4060, 0x0, 1, 0x00000000#32, 0x00000000#32, 0x00000000#32, [(0, 32)], 0x00000000#32, false⟩
  | .OUT_CFG => ⟨0x1000, 0x40, 32, 0x001F0000#32, 0xC31F0000#32, 0x00000000#32, [], 0x00000000#32, false⟩
  | .OUT_DSET01 => ⟨0x1004, 0x40, 32, 0x00010001#32, 0x0FFF0FFF#32, 0x00000000#32, [], 0x00000000#32, false⟩
  | .OUT_DSET23 => ⟨0x1008, 0x40, 32, 0x00010001#32, 0x0FFF0FFF#32, 0x00000000#32, [], 0x00000000#32, false⟩
  | .OUT_DELAY => ⟨0x100C, 0x40, 32, 0x00000000#32, 0x07FF03FF#32, 0x00000000#32, [], 0x00000000#32, false⟩
  | .OUT_DRV => ⟨0x1010, 0x40, 32, 0x00440078#32, 0xFFFF03FF#32, 0x00000000#32, [], 0x00000000#32, false⟩
  | .OUT_SYSREF => ⟨0x1014, 0x40, 32, 0x00000001#32, 0x000300FF#32, 0x00000000#32, [], 0xE0000000#32, false⟩
  | .OUT_SYSPULSE => ⟨0x1018, 0x40, 32, 0x00000004#32, 0xFFFF0FFF#32, 0x00000000#32, [], 0x00000000#32, false⟩
  | .OUT_RBCFG => ⟨0x101C, 0x40, 32, 0x0A21000C#32, 0xFFFF001F#32, 0x00000000#32, [], 0x00000000#32, false⟩
  | .OUT_STAT => ⟨0x1020, 0x40, 32, 0x00010001#32, 0x00000000#32, 0x00000000#32, [], 0x80000000#32, false⟩
  | .OUT_RBPHASE => ⟨0x1024, 0x40, 32, 0x80000000#32, 0x00000000#32, 0x00000000#32, [], 0x00000000#32, false⟩
  | .OUT_RBCNT => ⟨0x1028, 0x40, 32, 0x00000000#32, 0x00000000#32, 0x00000000#32, [], 0x00000000#32, false⟩
  | .OUT_EVCNT => ⟨0x102C, 0x40, 32, 0x00000000#32, 0x00000000#32, 0x00000000#32, [(16, 16), (0, 16)], 0x00000000#32, false⟩
  | .RAS_CFG => ⟨0x0080, 0x40, 2, 0x1F320200#32, 0xFFFFFF00#32, 0x00000000#32, [], 0x00000000#32, false⟩
  | .RAS_OUTMASK => ⟨0x0084, 0x40, 2, 0x00000000#32, 0xFFFFFFFF#32, 0x00000000#32, [], 0x00000000#32, false⟩
  | .RAS_STG_NUM_LO => ⟨0x0088, 0x40, 2, 0x00000000#32, 0xFFFFFFFF#32, 0x00000000#32, [], 0x00000000#32, false⟩
  | .RAS_STG_DEN_LO => ⟨0x008C, 0x40, 2, 0x00000001#32, 0xFFFFFFFF#32, 0x00000000#32, [], 0x00000000#32, false⟩
  | .RAS_STG_FRAC_HI => ⟨0x0090, 0x40, 2, 0x00000000#32, 0xFFFFFFFF#32, 0x00000000#32, [], 0x00000000#32, false⟩
  | .RAS_STG_SET => ⟨0x0094, 0x40, 2, 0x03203014#32, 0xFFFFFFFF#32, 0x00000000#32, [], 0x00000000#32, false⟩
  | .RAS_STG_EXPECT => ⟨0x0098, 0x40, 2, 0xFFFFFFFF#32, 0xFFFFFFFF#32, 0x00000000#32, [], 0x00000000#32, false⟩
  | .RAS_EXPECT => ⟨0x009C, 0x40, 2, 0x00000000#32, 0xFFFFFFFF#32, 0x00000000#32, [], 0x00000000#32, false⟩
  | .RAS_CTL => ⟨0x00A0, 0x40, 2, 0x00000000#32, 0x00000000#32, 0x00000080#32, [], 0xC0000000#32, false⟩
  | .RAS_TEIVL => ⟨0x00A4, 0x40, 2, 0x00000000#32, 0x00000000#32, 0x00000000#32, [], 0x00000000#32, false⟩
  | .RAS_FCOUNT => ⟨0x00A8, 0x40, 2, 0x00000000#32, 0x00000000#32, 0x00000000#32, [], 0x00000000#32, false⟩
  | .RAS_CNT => ⟨0x00AC, 0x40, 2, 0x00000000#32, 0x00000000#32, 0x00000000#32, [(16, 16), (0, 16)], 0x00000000#32, false⟩
  | .LN_CFG => ⟨0x1800, 0x40, 16, 0x30000000#32, 0xF8FF0000#32, 0x00000000#32, [], 0x00000000#32, false⟩
  | .LN_STAT => ⟨0x1804, 0x40, 16, 0x00000000#32, 0x00000000#32, 0x00000000#32, [], 0x00000000#32, false⟩
  | .LN_EQ => ⟨0x1808, 0x40, 16, 0x00000000#32, 0x00000000#32, 0x00000000#32, [], 0x00000000#32, false⟩
  | .LN_MARGIN => ⟨0x180C, 0x40, 16, 0x0C000000#32, 0xFF000000#32, 0x00000000#32, [], 0x00000000#32, false⟩
  | .LN_FECCNT => ⟨0x1810, 0x40, 16, 0x00000000#32, 0x00000000#32, 0x00000000#32, [(16, 16), (0, 16)], 0x00000000#32, false⟩
  | .LN_DELAY => ⟨0x1814, 0x40, 16, 0x00000000#32, 0x00000000#32, 0x00000000#32, [], 0x00000000#32, false⟩
  | .LN_ASYM => ⟨0x1818, 0x40, 16, 0x00000000#32, 0xFFFFFFFF#32, 0x00000000#32, [], 0x00000000#32, false⟩
  | .LN_OFFSET => ⟨0x181C, 0x40, 16, 0x80000000#32, 0x00000000#32, 0x00000000#32, [], 0x00000000#32, false⟩
  | .LN_C0SRC => ⟨0x1820, 0x40, 16, 0x00000000#32, 0xFFFFFFFF#32, 0x00000000#32, [], 0x00000000#32, false⟩
  | .LN_C0LAT => ⟨0x1824, 0x40, 16, 0x00000000#32, 0x00000000#32, 0x00000000#32, [], 0x00000000#32, false⟩
  | .LN_CNT => ⟨0x1828, 0x40, 16, 0x00000000#32, 0x00000000#32, 0x00000000#32, [(16, 16), (8, 8), (0, 8)], 0x00000000#32, false⟩
  | .LN_TRAIN => ⟨0x182C, 0x40, 16, 0x00000201#32, 0x0000FFFF#32, 0x00000000#32, [(16, 16)], 0x00000000#32, false⟩
  | .LNG_DEVID => ⟨0x1CC0, 0x0, 1, 0x00000000#32, 0x0000FFFF#32, 0x00000000#32, [], 0x00000000#32, false⟩
  | .LNG_RCLK => ⟨0x1CC4, 0x0, 1, 0x00000000#32, 0xC00000FF#32, 0x00000000#32, [], 0x00000000#32, false⟩
  | .LNG_TTCFG => ⟨0x1CC8, 0x0, 1, 0x00060064#32, 0x800FFFFF#32, 0x00000000#32, [], 0x00000000#32, false⟩
  | .LNG_TTSTAT => ⟨0x1CCC, 0x0, 1, 0x20000000#32, 0x00000000#32, 0x00000000#32, [], 0x00000000#32, false⟩
  | .LNG_THETA => ⟨0x1CD0, 0x0, 1, 0x00000000#32, 0x00000000#32, 0x00000000#32, [], 0x00000000#32, false⟩
  | .LNG_CMD => ⟨0x1CD4, 0x0, 1, 0x00000000#32, 0x00000000#32, 0x00000000#32, [], 0xF0000000#32, false⟩
  | .LNG_SPARE => ⟨0x1CD8, 0x0, 1, 0x00001F1F#32, 0x00000000#32, 0x00000000#32, [], 0x00000000#32, false⟩
  | .LNG_C1STAT => ⟨0x1CDC, 0x0, 1, 0x00000000#32, 0x00000000#32, 0x00000000#32, [(16, 16)], 0x00000000#32, false⟩
  | .LNG_C1WORD => ⟨0x1CE0, 0x0, 1, 0x00000000#32, 0x00000000#32, 0x00000000#32, [], 0x00000000#32, false⟩
  | .LNG_C1TICK_LO => ⟨0x1CE4, 0x0, 1, 0x00000000#32, 0x00000000#32, 0x00000000#32, [], 0x00000000#32, false⟩
  | .LNG_C1TICK_HI => ⟨0x1CE8, 0x0, 1, 0x00000000#32, 0x00000000#32, 0x00000000#32, [], 0x00000000#32, false⟩
  | .LNG_C1INFO => ⟨0x1CEC, 0x0, 1, 0x00000000#32, 0x00000000#32, 0x00000000#32, [], 0x00000000#32, false⟩
  | .FLOW_ADDR => ⟨0x4080, 0x0, 1, 0x00000000#32, 0x801F0FFF#32, 0x00000000#32, [], 0x00000000#32, false⟩
  | .FLOW_DATA => ⟨0x4084, 0x0, 1, 0x00000000#32, 0xFFFFFFFF#32, 0x00000000#32, [], 0x00000000#32, false⟩
  | .FLT_CFG => ⟨0x1C00, 0x0, 1, 0x30000000#32, 0xF0FFFFFF#32, 0x00000000#32, [], 0x00000000#32, false⟩
  | .FLT_EPOCH => ⟨0x1C04, 0x0, 1, 0x00000000#32, 0x00000000#32, 0x00000000#32, [], 0x00000000#32, false⟩
  | .FLT_DIGEST => ⟨0x1C08, 0x4, 8, 0x00000000#32, 0x00000000#32, 0x00000000#32, [], 0x00000000#32, false⟩
  | .FLT_DGSTAT => ⟨0x1C28, 0x0, 1, 0x00000000#32, 0x20000000#32, 0x00000000#32, [], 0x00000000#32, false⟩
  | .FLT_MGR => ⟨0x1C2C, 0x0, 1, 0x00000000#32, 0x0000FFFF#32, 0x00000000#32, [], 0x00000000#32, false⟩
  | .FLT_ASOF_LO => ⟨0x1C40, 0x0, 1, 0x00000000#32, 0x00000000#32, 0x00000000#32, [], 0x00000000#32, false⟩
  | .FLT_ASOF_HI => ⟨0x1C44, 0x0, 1, 0x00000000#32, 0x00000000#32, 0x00000000#32, [], 0x00000000#32, false⟩
  | .FLT_EPTICK_LO => ⟨0x1C48, 0x0, 1, 0x00000000#32, 0x00000000#32, 0x00000000#32, [], 0x00000000#32, false⟩
  | .FLT_EPTICK_HI => ⟨0x1C4C, 0x0, 1, 0x00000000#32, 0x00000000#32, 0x00000000#32, [], 0x00000000#32, false⟩
  | .FLT_EXPECT_LO => ⟨0x1C50, 0x0, 1, 0x00000000#32, 0xFFFFFFFF#32, 0x00000000#32, [], 0x00000000#32, false⟩
  | .FLT_EXPECT_HI => ⟨0x1C54, 0x0, 1, 0x00000000#32, 0xFFFFFFFF#32, 0x00000000#32, [], 0x00000000#32, false⟩
  | .FLT_RQ_CTL => ⟨0x1C58, 0x0, 1, 0x1000000A#32, 0x30FFF0FF#32, 0x00000000#32, [], 0x80000000#32, false⟩
  | .FLT_RQ_DST => ⟨0x1C5C, 0x0, 1, 0x00000000#32, 0xFFFFFFFF#32, 0x00000000#32, [], 0x00000000#32, false⟩
  | .FLT_RQ_DATA => ⟨0x1C60, 0x0, 1, 0x00000000#32, 0xFFFFFFFF#32, 0x00000000#32, [], 0x00000000#32, false⟩
  | .FLT_ARMSTAT => ⟨0x1C64, 0x0, 1, 0x00000000#32, 0x00000000#32, 0x00000000#32, [], 0x00000000#32, false⟩
  | .FLT_ARMNEXT_LO => ⟨0x1C68, 0x0, 1, 0x00000000#32, 0x00000000#32, 0x00000000#32, [], 0x00000000#32, false⟩
  | .FLT_ARMNEXT_HI => ⟨0x1C6C, 0x0, 1, 0x00000000#32, 0x00000000#32, 0x00000000#32, [], 0x00000000#32, false⟩
  | .FLT_LOGCTL => ⟨0x1C70, 0x0, 1, 0x00000000#32, 0x00000000#32, 0x00000000#32, [(0, 16)], 0x80000000#32, false⟩
  | .FLT_LOG_ID => ⟨0x1C74, 0x0, 1, 0x00000000#32, 0x00000000#32, 0x00000000#32, [], 0x00000000#32, false⟩
  | .FLT_LOG_EPOCH => ⟨0x1C78, 0x0, 1, 0x00000000#32, 0x00000000#32, 0x00000000#32, [], 0x00000000#32, false⟩
  | .FLT_LOG_DG_LO => ⟨0x1C7C, 0x0, 1, 0x00000000#32, 0x00000000#32, 0x00000000#32, [], 0x00000000#32, false⟩
  | .FLT_LOG_DG_HI => ⟨0x1C80, 0x0, 1, 0x00000000#32, 0x00000000#32, 0x00000000#32, [], 0x00000000#32, false⟩
  | .FLT_LOG_TICK => ⟨0x1C84, 0x0, 1, 0x00000000#32, 0x00000000#32, 0x00000000#32, [], 0x00000000#32, false⟩
  | .FLT_CNT => ⟨0x1C88, 0x0, 1, 0x00000000#32, 0x00000000#32, 0x00000000#32, [(24, 8), (16, 8), (8, 8), (0, 8)], 0x00000000#32, false⟩
  | .CAL_CFG => ⟨0x1D00, 0x0, 1, 0x82006414#32, 0xEFC0FFFF#32, 0x00000000#32, [], 0x00000000#32, false⟩
  | .CAL_LIMITS => ⟨0x1D04, 0x0, 1, 0x320A0400#32, 0xFFFFFF00#32, 0x00000000#32, [], 0x00000000#32, false⟩
  | .CAL_STEPEN => ⟨0x1D08, 0x0, 1, 0x000001FF#32, 0x000001FF#32, 0x00000000#32, [], 0x00000000#32, false⟩
  | .CAL_CMD => ⟨0x1D0C, 0x0, 1, 0x00000000#32, 0x00000000#32, 0x00000000#32, [], 0xF8000000#32, false⟩
  | .CAL_STAT => ⟨0x1D10, 0x0, 1, 0x000000FF#32, 0x00000000#32, 0x00000000#32, [], 0x00000000#32, false⟩
  | .CAL_DUE_LO => ⟨0x1D14, 0x0, 1, 0xFFFFFFFF#32, 0x00000000#32, 0x00000000#32, [], 0x00000000#32, false⟩
  | .CAL_DUE_HI => ⟨0x1D18, 0x0, 1, 0x0FFFFFFF#32, 0x00000000#32, 0x00000000#32, [], 0x00000000#32, false⟩
  | .CAL_GSEL => ⟨0x1D1C, 0x0, 1, 0x00000000#32, 0x0000003F#32, 0x00000000#32, [], 0x00000000#32, false⟩
  | .CAL_GSTAT => ⟨0x1D20, 0x0, 1, 0x08000000#32, 0x00000000#32, 0x00000000#32, [], 0x00000000#32, false⟩
  | .CAL_GCOUNT => ⟨0x1D24, 0x0, 1, 0x00000000#32, 0x00000000#32, 0x00000000#32, [], 0x00000000#32, false⟩
  | .CAL_GSTAMP_LO => ⟨0x1D28, 0x0, 1, 0x00000000#32, 0x00000000#32, 0x00000000#32, [], 0x00000000#32, false⟩
  | .CAL_GSTAMP_HI => ⟨0x1D2C, 0x0, 1, 0x00000000#32, 0x00000000#32, 0x00000000#32, [], 0x00000000#32, false⟩
  | .CAL_GTEMP => ⟨0x1D40, 0x0, 1, 0x80000000#32, 0x00000000#32, 0x00000000#32, [], 0x00000000#32, false⟩
  | .CAL_GSNAP0 => ⟨0x1D44, 0x0, 1, 0x80000000#32, 0x00000000#32, 0x00000000#32, [], 0x00000000#32, false⟩
  | .CAL_GSNAP1 => ⟨0x1D48, 0x0, 1, 0x00000000#32, 0x00000000#32, 0x00000000#32, [], 0x00000000#32, false⟩
  | .CAL_GSNAP2 => ⟨0x1D4C, 0x0, 1, 0x00000000#32, 0x00000000#32, 0x00000000#32, [], 0x00000000#32, false⟩
  | .CAL_TADDR => ⟨0x1D50, 0x0, 1, 0x00000000#32, 0x803F07FF#32, 0x00000000#32, [], 0x00000000#32, false⟩
  | .CAL_TDATA => ⟨0x1D54, 0x0, 1, 0x00000000#32, 0xFFFFFFFF#32, 0x00000000#32, [], 0x00000000#32, false⟩
  | .CAL_IMGADDR => ⟨0x1D58, 0x0, 1, 0x00000000#32, 0x80007FFF#32, 0x00000000#32, [], 0x00000000#32, false⟩
  | .CAL_IMGDATA => ⟨0x1D5C, 0x0, 1, 0x00000000#32, 0xFFFFFFFF#32, 0x00000000#32, [], 0x00000000#32, false⟩
  | .CAL_IMGSTAT => ⟨0x1D60, 0x0, 1, 0x00000000#32, 0x00000000#32, 0x00000000#32, [], 0x00000000#32, false⟩
  | .CAL_SEQ => ⟨0x1D64, 0x0, 1, 0x00000000#32, 0x00000000#32, 0x00000000#32, [], 0x00000000#32, false⟩
  | .MON_CTL => ⟨0x1E00, 0x0, 1, 0x80000000#32, 0x80000000#32, 0x00000000#32, [], 0x00000000#32, false⟩
  | .MON_SCAN_LO => ⟨0x1E04, 0x0, 1, 0xFFFFFFFF#32, 0xFFFFFFFF#32, 0x00000000#32, [], 0x00000000#32, false⟩
  | .MON_SCAN_HI => ⟨0x1E08, 0x0, 1, 0x00000000#32, 0xFFFFFFFF#32, 0x00000000#32, [], 0x00000000#32, false⟩
  | .MON_STAT => ⟨0x1E0C, 0x0, 1, 0x00200000#32, 0x00000000#32, 0x00000000#32, [], 0x00000000#32, false⟩
  | .MON_INJCMD => ⟨0x1E10, 0x0, 1, 0x00000000#32, 0x0000003F#32, 0x00000000#32, [], 0x80000000#32, false⟩
  | .MON_INJ_A => ⟨0x1E14, 0x0, 1, 0x00000000#32, 0x00000000#32, 0x00000000#32, [], 0x00000000#32, false⟩
  | .MON_INJ_B => ⟨0x1E18, 0x0, 1, 0x00000000#32, 0x00000000#32, 0x00000000#32, [], 0x00000000#32, false⟩
  | .MON_VTSEL => ⟨0x1E1C, 0x0, 1, 0x00000000#32, 0x0000001F#32, 0x00000000#32, [], 0x00000000#32, false⟩
  | .MON_CNT => ⟨0x1E20, 0x0, 1, 0x00000000#32, 0x00000000#32, 0x00000000#32, [(16, 16), (0, 16)], 0x00000000#32, false⟩
  | .MON_CHECK => ⟨0x1E24, 0x0, 1, 0x00000000#32, 0x00000000#32, 0x00000000#32, [], 0x00000000#32, false⟩
  | .MON_THR_CFG => ⟨0x1E80, 0x8, 8, 0x00103FFF#32, 0xFFFF3FFF#32, 0x00000000#32, [], 0x00000000#32, false⟩
  | .MON_THR_STAT => ⟨0x1E84, 0x8, 8, 0x00000000#32, 0x00000000#32, 0x00000000#32, [(0, 16)], 0x00000000#32, false⟩
  | .MON_RES_A => ⟨0x1F00, 0x8, 32, 0x00000000#32, 0x00000000#32, 0x00000000#32, [], 0x00000000#32, false⟩
  | .MON_RES_B => ⟨0x1F04, 0x8, 32, 0x00000000#32, 0x00000000#32, 0x00000000#32, [], 0x00000000#32, false⟩
  | .PWR_STATE => ⟨0x2000, 0x0, 1, 0x00000002#32, 0x00000000#32, 0x00000000#32, [], 0x00000000#32, false⟩
  | .PWR_CMD => ⟨0x2004, 0x0, 1, 0x00000000#32, 0x00000003#32, 0x00000000#32, [], 0x00000000#32, true⟩
  | .PWR_DOMON => ⟨0x2008, 0x4, 4, 0x00000000#32, 0x00000000#32, 0x00000000#32, [], 0x00000000#32, false⟩
  | .BAR_CFG => ⟨0x2018, 0x0, 1, 0x0000000A#32, 0x000000FF#32, 0x00000000#32, [], 0x00000000#32, false⟩
  | .BAR_WAKEEN => ⟨0x201C, 0x0, 1, 0x00040000#32, 0x000FFFFF#32, 0x00000000#32, [], 0x00000000#32, false⟩
  | .BAR_INHIB => ⟨0x2020, 0x0, 1, 0x00000000#32, 0x000007FF#32, 0x00000000#32, [], 0x00000000#32, false⟩
  | .BAR_ALERTEN => ⟨0x2024, 0x0, 1, 0x000007FF#32, 0x000FFFFF#32, 0x00000000#32, [], 0x00000000#32, false⟩
  | .BAR_WAKECAUSE => ⟨0x2028, 0x0, 1, 0x00000000#32, 0x00000000#32, 0x00000000#32, [], 0x00000000#32, false⟩
  | .BAR_TIMER => ⟨0x202C, 0x0, 1, 0x00000000#32, 0x00FFFFFF#32, 0x00000000#32, [], 0x00000000#32, false⟩
  | .BAR_LANEMASK => ⟨0x2040, 0x0, 1, 0x0000FFFF#32, 0x0000FFFF#32, 0x00000000#32, [], 0x00000000#32, false⟩
  | .BAR_FWVER => ⟨0x2044, 0x0, 1, 0x00000000#32, 0x00000000#32, 0x00000000#32, [], 0x00000000#32, false⟩
  | .BAR_IN_CFG => ⟨0x2080, 0x8, 20, 0x00000000#32, 0xFFF0FFFF#32, 0x00000000#32, [], 0x00000000#32, false⟩
  | .BAR_IN_STAT => ⟨0x2084, 0x8, 20, 0x00000000#32, 0x00000000#32, 0x00000000#32, [], 0x00000000#32, false⟩
  | .STORE_CFG => ⟨0x2400, 0x0, 1, 0x00000018#32, 0x800000FF#32, 0x00000000#32, [], 0x00000000#32, false⟩
  | .STORE_CMD => ⟨0x2404, 0x0, 1, 0x00000000#32, 0x00000003#32, 0x00000000#32, [], 0x00000000#32, true⟩
  | .STORE_STAT => ⟨0x2408, 0x0, 1, 0x00000000#32, 0x00000000#32, 0x00000000#32, [], 0x00000000#32, false⟩
  | .STORE_NEXTSEQ => ⟨0x240C, 0x0, 1, 0x00000000#32, 0x00000000#32, 0x00000000#32, [], 0x00000000#32, false⟩
  | .STORE_BASE => ⟨0x2410, 0x0, 1, 0x00000000#32, 0x00000000#32, 0x00000000#32, [], 0x00000000#32, false⟩
  | .STORE_POOL => ⟨0x2414, 0x0, 1, 0x00000000#32, 0x00000000#32, 0x00000000#32, [], 0x00000000#32, false⟩
  | .STORE_RING => ⟨0x2418, 0x0, 1, 0x00000000#32, 0x00000000#32, 0x00000000#32, [], 0x00000000#32, false⟩
  | .STORE_START => ⟨0x241C, 0x0, 1, 0x00000000#32, 0x00000000#32, 0x00000000#32, [], 0x00000000#32, false⟩
  | .STORE_REPLAY => ⟨0x2420, 0x0, 1, 0x00000000#32, 0x00000000#32, 0x00000000#32, [], 0x00000000#32, false⟩
  | .STORE_FLASH => ⟨0x2424, 0x0, 1, 0x00000000#32, 0x00000000#32, 0x00000000#32, [], 0x00000000#32, false⟩
  | .STORE_WEAR => ⟨0x2428, 0x0, 1, 0x00000000#32, 0x00000000#32, 0x00000000#32, [], 0x00000000#32, false⟩
  | .STORE_COMMITS => ⟨0x242C, 0x0, 1, 0x00000000#32, 0x00000000#32, 0x00000000#32, [(0, 32)], 0x00000000#32, false⟩
  | .STORE_LASTC_LO => ⟨0x2440, 0x0, 1, 0x00000000#32, 0x00000000#32, 0x00000000#32, [], 0x00000000#32, false⟩
  | .STORE_LASTC_HI => ⟨0x2444, 0x0, 1, 0x00000000#32, 0x00000000#32, 0x00000000#32, [], 0x00000000#32, false⟩
  | .STORE_FULLCNT => ⟨0x2448, 0x0, 1, 0x00000000#32, 0x00000000#32, 0x00000000#32, [(0, 32)], 0x00000000#32, false⟩
  | .UPD_CFG => ⟨0x2480, 0x0, 1, 0x00000000#32, 0x8FFFFFFF#32, 0x00000000#32, [], 0x00000000#32, false⟩
  | .UPD_CMD => ⟨0x2484, 0x0, 1, 0x00000000#32, 0x00000007#32, 0x00000000#32, [], 0x00000000#32, true⟩
  | .UPD_STAT => ⟨0x2488, 0x0, 1, 0x00000000#32, 0x00000000#32, 0x00000000#32, [], 0x00000000#32, false⟩
  | .UPD_PROGRESS => ⟨0x248C, 0x0, 1, 0x00000000#32, 0x00000000#32, 0x00000000#32, [], 0x00000000#32, false⟩
  | .UPD_ACTVER => ⟨0x2490, 0x4, 4, 0x00000000#32, 0x00000000#32, 0x00000000#32, [], 0x00000000#32, false⟩
  | .UPD_ACTSVN01 => ⟨0x24A0, 0x0, 1, 0x00000000#32, 0x00000000#32, 0x00000000#32, [], 0x00000000#32, false⟩
  | .UPD_ACTSVN23 => ⟨0x24A4, 0x0, 1, 0x00000000#32, 0x00000000#32, 0x00000000#32, [], 0x00000000#32, false⟩
  | .UPD_FLOOR01 => ⟨0x24A8, 0x0, 1, 0x00000000#32, 0x00000000#32, 0x00000000#32, [], 0x00000000#32, false⟩
  | .UPD_FLOOR23 => ⟨0x24AC, 0x0, 1, 0x00000000#32, 0x00000000#32, 0x00000000#32, [], 0x00000000#32, false⟩
  | .UPD_FW => ⟨0x24B0, 0x0, 1, 0x00000000#32, 0x00000000#32, 0x00000000#32, [], 0x00000000#32, false⟩
  | .UPD_SETSTAT => ⟨0x24B4, 0x0, 1, 0x00000000#32, 0x00000000#32, 0x00000000#32, [], 0x00000000#32, false⟩
  | .UPD_SVCCNT => ⟨0x24B8, 0x0, 1, 0x00000000#32, 0x00000000#32, 0x00000000#32, [(16, 16), (0, 16)], 0x00000000#32, false⟩
  | .GLB_ID => ⟨0x0000, 0x0, 1, 0x88400100#32, 0x00000000#32, 0x00000000#32, [], 0x00000000#32, false⟩
  | .GLB_SERIAL_LO => ⟨0x0004, 0x0, 1, 0x00000000#32, 0x00000000#32, 0x00000000#32, [], 0x00000000#32, false⟩
  | .GLB_SERIAL_HI => ⟨0x0008, 0x0, 1, 0x00000000#32, 0x00000000#32, 0x00000000#32, [], 0x00000000#32, false⟩
  | .GLB_SCRATCH => ⟨0x000C, 0x0, 1, 0x00000000#32, 0xFFFFFFFF#32, 0x00000000#32, [], 0x00000000#32, false⟩
  | .GLB_STATOUT => ⟨0x0010, 0x0, 1, 0x00000000#32, 0x0000FFFF#32, 0x00000000#32, [], 0x00000000#32, false⟩
  | .GLB_FLTSUM => ⟨0x0014, 0x0, 1, 0x00000000#32, 0x00000000#32, 0x00000000#32, [], 0x00000000#32, false⟩
  | .GLB_FLTCORE => ⟨0x0018, 0x0, 1, 0x00000000#32, 0x00000000#32, 0x00000000#32, [], 0x00000000#32, false⟩
  | .GLB_FLTOUT => ⟨0x001C, 0x0, 1, 0x00000000#32, 0x00000000#32, 0x00000000#32, [], 0x00000000#32, false⟩
  | .GLB_FLTMISC => ⟨0x0020, 0x0, 1, 0x00000000#32, 0x00000000#32, 0x00000000#32, [], 0x00000000#32, false⟩
  | .MBX_CTL => ⟨0x0040, 0x0, 1, 0x00000000#32, 0x000000FF#32, 0x00000000#32, [], 0x80000000#32, false⟩
  | .MBX_STAT => ⟨0x0044, 0x0, 1, 0x00000000#32, 0x00000000#32, 0x40000000#32, [], 0x00000000#32, false⟩
  | .MBX_ARG => ⟨0x0048, 0x4, 8, 0x00000000#32, 0xFFFFFFFF#32, 0x00000000#32, [], 0x00000000#32, false⟩
  | .SCHED_ADDR => ⟨0x0068, 0x0, 1, 0x00000000#32, 0x0000FFFF#32, 0x00000000#32, [], 0x00000000#32, false⟩
  | .SCHED_DATA => ⟨0x006C, 0x0, 1, 0x00000000#32, 0xFFFFFFFF#32, 0x00000000#32, [], 0x00000000#32, false⟩
  | .SCHED_TICK_LO => ⟨0x0070, 0x0, 1, 0x00000000#32, 0xFFFFFFFF#32, 0x00000000#32, [], 0x00000000#32, false⟩
  | .SCHED_TICK_HI => ⟨0x0074, 0x0, 1, 0x00000000#32, 0xFFFFFFFF#32, 0x00000000#32, [], 0x00000000#32, false⟩
  | .SCHED_CTL => ⟨0x0078, 0x0, 1, 0x00000000#32, 0x00000000#32, 0x00000000#32, [(0, 16)], 0xC0000000#32, false⟩
  | .TIME_NOW_LO => ⟨0x0100, 0x0, 1, 0x00000000#32, 0x00000000#32, 0x00000000#32, [], 0x00000000#32, false⟩
  | .TIME_NOW_HI => ⟨0x0104, 0x0, 1, 0x00000000#32, 0x00000000#32, 0x00000000#32, [], 0x00000000#32, false⟩
  | .TIME_STATE => ⟨0x0108, 0x0, 1, 0x00000002#32, 0x00000000#32, 0x80000000#32, [], 0x00000000#32, false⟩
  | .TIME_PRESET_LO => ⟨0x010C, 0x0, 1, 0x00000000#32, 0xFFFFFFFF#32, 0x00000000#32, [], 0x00000000#32, false⟩
  | .TIME_PRESET_HI => ⟨0x0110, 0x0, 1, 0x00000000#32, 0xFFFFFFFF#32, 0x00000000#32, [], 0x00000000#32, false⟩
  | .TIME_SYNCCFG_LO => ⟨0x0114, 0x0, 1, 0x00400002#32, 0xFFFF00FF#32, 0x00000000#32, [], 0x00000000#32, false⟩
  | .TIME_SYNCCFG_HI => ⟨0x0118, 0x0, 1, 0x00000000#32, 0x0000FFFF#32, 0x00000000#32, [], 0x00000000#32, false⟩
  | .TIME_SYNCMASK => ⟨0x011C, 0x0, 1, 0x00000000#32, 0xFFFFFFFF#32, 0x00000000#32, [], 0x00000000#32, false⟩
  | .TIME_SYNCCMD => ⟨0x0120, 0x0, 1, 0x00000000#32, 0x00000000#32, 0x00000004#32, [], 0xE0000000#32, false⟩
  | .TIME_SYNCSTAMP_LO => ⟨0x0124, 0x0, 1, 0x00000000#32, 0x00000000#32, 0x00000000#32, [], 0x00000000#32, false⟩
  | .TIME_SYNCSTAMP_HI => ⟨0x0128, 0x0, 1, 0x00000000#32, 0x00000000#32, 0x00000000#32, [], 0x00000000#32, false⟩
  | .TIME_SYNCSTAT => ⟨0x012C, 0x0, 1, 0x00000000#32, 0x00000000#32, 0x00000000#32, [(16, 16), (0, 16)], 0x00000000#32, false⟩
  | .TIME_LATEIN => ⟨0x0140, 0x0, 1, 0x00000000#32, 0x00000000#32, 0x00000000#32, [(0, 32)], 0x00000000#32, false⟩
  | .TIME_HWREL_LO => ⟨0x0144, 0x0, 1, 0x00000000#32, 0x00000000#32, 0x00000000#32, [], 0x00000000#32, false⟩
  | .TIME_HWREL_HI => ⟨0x0148, 0x0, 1, 0x00000000#32, 0x00000000#32, 0x00000000#32, [], 0x00000000#32, false⟩
  | .TIME_LATECNT => ⟨0x014C, 0x4, 8, 0x00000000#32, 0x00000000#32, 0x00000000#32, [(0, 32)], 0x00000000#32, false⟩
  | .HSPI_CFG => ⟨0x2500, 0x0, 1, 0x00000003#32, 0x8000000F#32, 0x00000000#32, [], 0x00000000#32, false⟩
  | .HSPI_STAT => ⟨0x2504, 0x0, 1, 0x00000000#32, 0x00000000#32, 0x00000080#32, [], 0x00000000#32, false⟩
  | .HSPI_CNT => ⟨0x2508, 0x0, 1, 0x00000000#32, 0x00000000#32, 0x00000000#32, [(16, 16), (0, 16)], 0x00000000#32, false⟩
  | .SVC_CFG => ⟨0x250C, 0x0, 1, 0x80000001#32, 0x80000003#32, 0x00000000#32, [], 0x00000000#32, false⟩

/-- Register names, part 0 of the list. -/
def regNames0 : List RegName :=
  [.ANC_GLOBAL, .ANC_STATUS, .ANC_CMD, .ANC_COREMAP, .ANC_ALIGNCFG, .ANC_ALIGN, .ANC_XFERCNT, .ANC_XFER_LO, .ANC_XFER_HI, .REF_CFG, .REF_RATIO_NUM, .REF_RATIO_DEN, .REF_FWIN, .REF_MONCFG, .REF_STAT, .REF_FOFFS, .REF_DQCNT, .ANC_CFG, .ANC_INNER_N, .ANC_INNER_NUM, .ANC_INNER_DEN, .ANC_LOCKCFG, .ANC_SLEW, .ANC_STEERLIM, .ANC_STEER, .ANC_PERR, .ANC_BUILDOUT, .ANC_STAT, .ANC_TDCCFG, .CORE_CFG, .CORE_NUM_LO, .CORE_DEN_LO]

/-- Register names, part 1 of the list. -/
def regNames1 : List RegName :=
  [.CORE_FRAC_HI, .CORE_NBAND, .CORE_LOCKCFG, .CORE_CMD, .CORE_STAT, .CORE_PERR, .CORE_LOCKTIME, .CORE_LOLCNT, .CORE_MARGIN, .CORE_LOCKSUM, .CORE_FENCESUM, .CORE_SPAREMAP, .CORE_WEARCFG, .STN_CFG, .STN_MAP, .STN_OUTMASK, .STN_STAT, .STN_SWAPCNT, .STN_COLDCNT, .STN_GLIDECNT, .STN_DROPCNT, .STN_LASTHOP_LO, .STN_LASTHOP_HI, .PROF_DATA, .PROF_ADDR, .PROF_CMD, .PROF_STAT, .PROF_SHCNT, .SEQ_BIND, .SEQ_THREADS, .SEQ_STATMAP, .SEQ_EVDROP]

/-- Register names, part 2 of the list. -/
def regNames2 : List RegName :=
  [.SEQ_CTL, .SEQ_START_LO, .SEQ_START_HI, .SEQ_STAT, .TRIG_CFG, .TRIG_LIMIT, .TRIG_STAT, .TRIG_CNT, .PGM_ADDR, .PGM_DATA, .PGM_LOAD, .PGM_CMD, .PGM_STAT, .PGM_SLACK, .PGM_BLOCKS, .PGM_MISPRED, .PGM_SQUASH, .OUT_CFG, .OUT_DSET01, .OUT_DSET23, .OUT_DELAY, .OUT_DRV, .OUT_SYSREF, .OUT_SYSPULSE, .OUT_RBCFG, .OUT_STAT, .OUT_RBPHASE, .OUT_RBCNT, .OUT_EVCNT, .RAS_CFG, .RAS_OUTMASK, .RAS_STG_NUM_LO]

/-- Register names, part 3 of the list. -/
def regNames3 : List RegName :=
  [.RAS_STG_DEN_LO, .RAS_STG_FRAC_HI, .RAS_STG_SET, .RAS_STG_EXPECT, .RAS_EXPECT, .RAS_CTL, .RAS_TEIVL, .RAS_FCOUNT, .RAS_CNT, .LN_CFG, .LN_STAT, .LN_EQ, .LN_MARGIN, .LN_FECCNT, .LN_DELAY, .LN_ASYM, .LN_OFFSET, .LN_C0SRC, .LN_C0LAT, .LN_CNT, .LN_TRAIN, .LNG_DEVID, .LNG_RCLK, .LNG_TTCFG, .LNG_TTSTAT, .LNG_THETA, .LNG_CMD, .LNG_SPARE, .LNG_C1STAT, .LNG_C1WORD, .LNG_C1TICK_LO, .LNG_C1TICK_HI]

/-- Register names, part 4 of the list. -/
def regNames4 : List RegName :=
  [.LNG_C1INFO, .FLOW_ADDR, .FLOW_DATA, .FLT_CFG, .FLT_EPOCH, .FLT_DIGEST, .FLT_DGSTAT, .FLT_MGR, .FLT_ASOF_LO, .FLT_ASOF_HI, .FLT_EPTICK_LO, .FLT_EPTICK_HI, .FLT_EXPECT_LO, .FLT_EXPECT_HI, .FLT_RQ_CTL, .FLT_RQ_DST, .FLT_RQ_DATA, .FLT_ARMSTAT, .FLT_ARMNEXT_LO, .FLT_ARMNEXT_HI, .FLT_LOGCTL, .FLT_LOG_ID, .FLT_LOG_EPOCH, .FLT_LOG_DG_LO, .FLT_LOG_DG_HI, .FLT_LOG_TICK, .FLT_CNT, .CAL_CFG, .CAL_LIMITS, .CAL_STEPEN, .CAL_CMD, .CAL_STAT]

/-- Register names, part 5 of the list. -/
def regNames5 : List RegName :=
  [.CAL_DUE_LO, .CAL_DUE_HI, .CAL_GSEL, .CAL_GSTAT, .CAL_GCOUNT, .CAL_GSTAMP_LO, .CAL_GSTAMP_HI, .CAL_GTEMP, .CAL_GSNAP0, .CAL_GSNAP1, .CAL_GSNAP2, .CAL_TADDR, .CAL_TDATA, .CAL_IMGADDR, .CAL_IMGDATA, .CAL_IMGSTAT, .CAL_SEQ, .MON_CTL, .MON_SCAN_LO, .MON_SCAN_HI, .MON_STAT, .MON_INJCMD, .MON_INJ_A, .MON_INJ_B, .MON_VTSEL, .MON_CNT, .MON_CHECK, .MON_THR_CFG, .MON_THR_STAT, .MON_RES_A, .MON_RES_B, .PWR_STATE]

/-- Register names, part 6 of the list. -/
def regNames6 : List RegName :=
  [.PWR_CMD, .PWR_DOMON, .BAR_CFG, .BAR_WAKEEN, .BAR_INHIB, .BAR_ALERTEN, .BAR_WAKECAUSE, .BAR_TIMER, .BAR_LANEMASK, .BAR_FWVER, .BAR_IN_CFG, .BAR_IN_STAT, .STORE_CFG, .STORE_CMD, .STORE_STAT, .STORE_NEXTSEQ, .STORE_BASE, .STORE_POOL, .STORE_RING, .STORE_START, .STORE_REPLAY, .STORE_FLASH, .STORE_WEAR, .STORE_COMMITS, .STORE_LASTC_LO, .STORE_LASTC_HI, .STORE_FULLCNT, .UPD_CFG, .UPD_CMD, .UPD_STAT, .UPD_PROGRESS, .UPD_ACTVER]

/-- Register names, part 7 of the list. -/
def regNames7 : List RegName :=
  [.UPD_ACTSVN01, .UPD_ACTSVN23, .UPD_FLOOR01, .UPD_FLOOR23, .UPD_FW, .UPD_SETSTAT, .UPD_SVCCNT, .GLB_ID, .GLB_SERIAL_LO, .GLB_SERIAL_HI, .GLB_SCRATCH, .GLB_STATOUT, .GLB_FLTSUM, .GLB_FLTCORE, .GLB_FLTOUT, .GLB_FLTMISC, .MBX_CTL, .MBX_STAT, .MBX_ARG, .SCHED_ADDR, .SCHED_DATA, .SCHED_TICK_LO, .SCHED_TICK_HI, .SCHED_CTL, .TIME_NOW_LO, .TIME_NOW_HI, .TIME_STATE, .TIME_PRESET_LO, .TIME_PRESET_HI, .TIME_SYNCCFG_LO, .TIME_SYNCCFG_HI, .TIME_SYNCMASK]

/-- Register names, part 8 of the list. -/
def regNames8 : List RegName :=
  [.TIME_SYNCCMD, .TIME_SYNCSTAMP_LO, .TIME_SYNCSTAMP_HI, .TIME_SYNCSTAT, .TIME_LATEIN, .TIME_HWREL_LO, .TIME_HWREL_HI, .TIME_LATECNT, .HSPI_CFG, .HSPI_STAT, .HSPI_CNT, .SVC_CFG]

/-- Every register name, in the order of the chapters. -/
def allRegNames : List RegName :=
  regNames0 ++ regNames1 ++ regNames2 ++ regNames3 ++ regNames4 ++ regNames5 ++ regNames6 ++ regNames7 ++ regNames8

/-- A field of a register: its register, its lowest bit and its width. -/
structure Field where
  reg : RegName
  lo : Nat
  width : Nat
  deriving DecidableEq, Repr

namespace Fields

/-- ANC_GLOBAL.DUAL, RW. -/ def ANC_GLOBAL_DUAL : Field := ⟨.ANC_GLOBAL, 1, 1⟩
/-- ANC_GLOBAL.PRIMARY_INIT, RW. -/ def ANC_GLOBAL_PRIMARY_INIT : Field := ⟨.ANC_GLOBAL, 0, 1⟩
/-- ANC_STATUS.XFER_BUSY, RO. -/ def ANC_STATUS_XFER_BUSY : Field := ⟨.ANC_STATUS, 2, 1⟩
/-- ANC_STATUS.ALIGNED, RO. -/ def ANC_STATUS_ALIGNED : Field := ⟨.ANC_STATUS, 1, 1⟩
/-- ANC_STATUS.PRIMARY, RO. -/ def ANC_STATUS_PRIMARY : Field := ⟨.ANC_STATUS, 0, 1⟩
/-- ANC_CMD.REJOIN_B, W1S. -/ def ANC_CMD_REJOIN_B : Field := ⟨.ANC_CMD, 2, 1⟩
/-- ANC_CMD.REJOIN_A, W1S. -/ def ANC_CMD_REJOIN_A : Field := ⟨.ANC_CMD, 1, 1⟩
/-- ANC_CMD.SWAP, W1S. -/ def ANC_CMD_SWAP : Field := ⟨.ANC_CMD, 0, 1⟩
/-- ANC_COREMAP.ONB, RW. -/ def ANC_COREMAP_ONB : Field := ⟨.ANC_COREMAP, 0, 26⟩
/-- ANC_ALIGNCFG.BW, RW. -/ def ANC_ALIGNCFG_BW : Field := ⟨.ANC_ALIGNCFG, 16, 5⟩
/-- ANC_ALIGNCFG.TRIP, RW. -/ def ANC_ALIGNCFG_TRIP : Field := ⟨.ANC_ALIGNCFG, 8, 8⟩
/-- ANC_ALIGNCFG.WIN, RW. -/ def ANC_ALIGNCFG_WIN : Field := ⟨.ANC_ALIGNCFG, 0, 8⟩
/-- ANC_ALIGN.AMINUSB, RO. -/ def ANC_ALIGN_AMINUSB : Field := ⟨.ANC_ALIGN, 0, 32⟩
/-- ANC_XFERCNT.COUNT, W1C. -/ def ANC_XFERCNT_COUNT : Field := ⟨.ANC_XFERCNT, 0, 32⟩
/-- ANC_XFER_LO.STAMP_LO, RL. -/ def ANC_XFER_LO_STAMP_LO : Field := ⟨.ANC_XFER_LO, 0, 32⟩
/-- ANC_XFER_HI.STAMP_HI, RO. -/ def ANC_XFER_HI_STAMP_HI : Field := ⟨.ANC_XFER_HI, 0, 32⟩
/-- REF_CFG.PREDIV, RW. -/ def REF_CFG_PREDIV : Field := ⟨.REF_CFG, 4, 6⟩
/-- REF_CFG.MODE, RW. -/ def REF_CFG_MODE : Field := ⟨.REF_CFG, 1, 2⟩
/-- REF_CFG.EN, RW. -/ def REF_CFG_EN : Field := ⟨.REF_CFG, 0, 1⟩
/-- REF_RATIO_NUM.NUM, RW. -/ def REF_RATIO_NUM_NUM : Field := ⟨.REF_RATIO_NUM, 0, 32⟩
/-- REF_RATIO_DEN.DEN, RW. -/ def REF_RATIO_DEN_DEN : Field := ⟨.REF_RATIO_DEN, 0, 32⟩
/-- REF_FWIN.REJECT, RW. -/ def REF_FWIN_REJECT : Field := ⟨.REF_FWIN, 16, 16⟩
/-- REF_FWIN.ACCEPT, RW. -/ def REF_FWIN_ACCEPT : Field := ⟨.REF_FWIN, 0, 16⟩
/-- REF_MONCFG.QUAL, RW. -/ def REF_MONCFG_QUAL : Field := ⟨.REF_MONCFG, 16, 12⟩
/-- REF_MONCFG.TBASE, RW. -/ def REF_MONCFG_TBASE : Field := ⟨.REF_MONCFG, 14, 2⟩
/-- REF_MONCFG.MISS, RW. -/ def REF_MONCFG_MISS : Field := ⟨.REF_MONCFG, 4, 8⟩
/-- REF_MONCFG.GATE, RW. -/ def REF_MONCFG_GATE : Field := ⟨.REF_MONCFG, 0, 4⟩
/-- REF_STAT.DQ, W1C. -/ def REF_STAT_DQ : Field := ⟨.REF_STAT, 8, 1⟩
/-- REF_STAT.CFGERR, RO. -/ def REF_STAT_CFGERR : Field := ⟨.REF_STAT, 3, 1⟩
/-- REF_STAT.QUALIFIED, RO. -/ def REF_STAT_QUALIFIED : Field := ⟨.REF_STAT, 2, 1⟩
/-- REF_STAT.IN_ACCEPT, RO. -/ def REF_STAT_IN_ACCEPT : Field := ⟨.REF_STAT, 1, 1⟩
/-- REF_STAT.ACTIVE, RO. -/ def REF_STAT_ACTIVE : Field := ⟨.REF_STAT, 0, 1⟩
/-- REF_FOFFS.OFFSET, RO. -/ def REF_FOFFS_OFFSET : Field := ⟨.REF_FOFFS, 0, 32⟩
/-- REF_DQCNT.COUNT, W1C. -/ def REF_DQCNT_COUNT : Field := ⟨.REF_DQCNT, 0, 32⟩
/-- ANC_CFG.AUTOREJOIN, RW. -/ def ANC_CFG_AUTOREJOIN : Field := ⟨.ANC_CFG, 17, 1⟩
/-- ANC_CFG.BO_MODE, RW. -/ def ANC_CFG_BO_MODE : Field := ⟨.ANC_CFG, 16, 1⟩
/-- ANC_CFG.DAMP, RW. -/ def ANC_CFG_DAMP : Field := ⟨.ANC_CFG, 14, 2⟩
/-- ANC_CFG.ACQBW, RW. -/ def ANC_CFG_ACQBW : Field := ⟨.ANC_CFG, 9, 5⟩
/-- ANC_CFG.BW, RW. -/ def ANC_CFG_BW : Field := ⟨.ANC_CFG, 4, 5⟩
/-- ANC_CFG.REFSEL, RW. -/ def ANC_CFG_REFSEL : Field := ⟨.ANC_CFG, 1, 3⟩
/-- ANC_CFG.EN, RW. -/ def ANC_CFG_EN : Field := ⟨.ANC_CFG, 0, 1⟩
/-- ANC_INNER_N.N, RW. -/ def ANC_INNER_N_N : Field := ⟨.ANC_INNER_N, 0, 7⟩
/-- ANC_INNER_NUM.NUM, RW. -/ def ANC_INNER_NUM_NUM : Field := ⟨.ANC_INNER_NUM, 0, 24⟩
/-- ANC_INNER_DEN.DEN, RW. -/ def ANC_INNER_DEN_DEN : Field := ⟨.ANC_INNER_DEN, 0, 24⟩
/-- ANC_LOCKCFG.OCNT, RW. -/ def ANC_LOCKCFG_OCNT : Field := ⟨.ANC_LOCKCFG, 24, 8⟩
/-- ANC_LOCKCFG.OWIN, RW. -/ def ANC_LOCKCFG_OWIN : Field := ⟨.ANC_LOCKCFG, 16, 8⟩
/-- ANC_LOCKCFG.ICNT, RW. -/ def ANC_LOCKCFG_ICNT : Field := ⟨.ANC_LOCKCFG, 8, 8⟩
/-- ANC_LOCKCFG.IWIN, RW. -/ def ANC_LOCKCFG_IWIN : Field := ⟨.ANC_LOCKCFG, 0, 8⟩
/-- ANC_SLEW.RATE, RW. -/ def ANC_SLEW_RATE : Field := ⟨.ANC_SLEW, 0, 16⟩
/-- ANC_STEERLIM.LIMIT, RW. -/ def ANC_STEERLIM_LIMIT : Field := ⟨.ANC_STEERLIM, 0, 16⟩
/-- ANC_STEER.S, RO. -/ def ANC_STEER_S : Field := ⟨.ANC_STEER, 0, 32⟩
/-- ANC_PERR.ERR, RO. -/ def ANC_PERR_ERR : Field := ⟨.ANC_PERR, 0, 32⟩
/-- ANC_BUILDOUT.OFFSET, RO. -/ def ANC_BUILDOUT_OFFSET : Field := ⟨.ANC_BUILDOUT, 0, 32⟩
/-- ANC_STAT.CMDERR, W1C. -/ def ANC_STAT_CMDERR : Field := ⟨.ANC_STAT, 9, 1⟩
/-- ANC_STAT.GATED, RO. -/ def ANC_STAT_GATED : Field := ⟨.ANC_STAT, 8, 1⟩
/-- ANC_STAT.SPARE_IN, RO. -/ def ANC_STAT_SPARE_IN : Field := ⟨.ANC_STAT, 7, 1⟩
/-- ANC_STAT.READY, RO. -/ def ANC_STAT_READY : Field := ⟨.ANC_STAT, 6, 1⟩
/-- ANC_STAT.OUTER_LOCK, RO. -/ def ANC_STAT_OUTER_LOCK : Field := ⟨.ANC_STAT, 5, 1⟩
/-- ANC_STAT.INNER_LOCK, RO. -/ def ANC_STAT_INNER_LOCK : Field := ⟨.ANC_STAT, 4, 1⟩
/-- ANC_STAT.ROLE, RO. -/ def ANC_STAT_ROLE : Field := ⟨.ANC_STAT, 3, 1⟩
/-- ANC_STAT.STATE, RO. -/ def ANC_STAT_STATE : Field := ⟨.ANC_STAT, 0, 3⟩
/-- ANC_TDCCFG.XCHK, RW. -/ def ANC_TDCCFG_XCHK : Field := ⟨.ANC_TDCCFG, 0, 8⟩
/-- CORE_CFG.LOSS, RW. -/ def CORE_CFG_LOSS : Field := ⟨.CORE_CFG, 24, 8⟩
/-- CORE_CFG.AVG, RW. -/ def CORE_CFG_AVG : Field := ⟨.CORE_CFG, 20, 4⟩
/-- CORE_CFG.BW, RW. -/ def CORE_CFG_BW : Field := ⟨.CORE_CFG, 16, 4⟩
/-- CORE_CFG.FLTIME, RW. -/ def CORE_CFG_FLTIME : Field := ⟨.CORE_CFG, 12, 4⟩
/-- CORE_CFG.BANDMODE, RW. -/ def CORE_CFG_BANDMODE : Field := ⟨.CORE_CFG, 10, 2⟩
/-- CORE_CFG.DITHER, RW. -/ def CORE_CFG_DITHER : Field := ⟨.CORE_CFG, 8, 2⟩
/-- CORE_CFG.MASH3, RW. -/ def CORE_CFG_MASH3 : Field := ⟨.CORE_CFG, 7, 1⟩
/-- CORE_CFG.AUTORELOCK, RW. -/ def CORE_CFG_AUTORELOCK : Field := ⟨.CORE_CFG, 6, 1⟩
/-- CORE_CFG.UGHOLD, RW. -/ def CORE_CFG_UGHOLD : Field := ⟨.CORE_CFG, 2, 4⟩
/-- CORE_CFG.RACE, RW. -/ def CORE_CFG_RACE : Field := ⟨.CORE_CFG, 1, 1⟩
/-- CORE_CFG.EN, RW. -/ def CORE_CFG_EN : Field := ⟨.CORE_CFG, 0, 1⟩
/-- CORE_NUM_LO.NUM, RW. -/ def CORE_NUM_LO_NUM : Field := ⟨.CORE_NUM_LO, 0, 32⟩
/-- CORE_DEN_LO.DEN, RW. -/ def CORE_DEN_LO_DEN : Field := ⟨.CORE_DEN_LO, 0, 32⟩
/-- CORE_FRAC_HI.DEN_HI, RW. -/ def CORE_FRAC_HI_DEN_HI : Field := ⟨.CORE_FRAC_HI, 16, 16⟩
/-- CORE_FRAC_HI.NUM_HI, RW. -/ def CORE_FRAC_HI_NUM_HI : Field := ⟨.CORE_FRAC_HI, 0, 16⟩
/-- CORE_NBAND.SUB, RW. -/ def CORE_NBAND_SUB : Field := ⟨.CORE_NBAND, 16, 2⟩
/-- CORE_NBAND.BAND, RW. -/ def CORE_NBAND_BAND : Field := ⟨.CORE_NBAND, 8, 8⟩
/-- CORE_NBAND.N, RW. -/ def CORE_NBAND_N : Field := ⟨.CORE_NBAND, 0, 5⟩
/-- CORE_LOCKCFG.LCNT, RW. -/ def CORE_LOCKCFG_LCNT : Field := ⟨.CORE_LOCKCFG, 16, 16⟩
/-- CORE_LOCKCFG.WINDOW, RW. -/ def CORE_LOCKCFG_WINDOW : Field := ⟨.CORE_LOCKCFG, 0, 10⟩
/-- CORE_CMD.SEARCH, W1S. -/ def CORE_CMD_SEARCH : Field := ⟨.CORE_CMD, 2, 1⟩
/-- CORE_CMD.RELOCK, W1S. -/ def CORE_CMD_RELOCK : Field := ⟨.CORE_CMD, 1, 1⟩
/-- CORE_CMD.APPLY, W1S. -/ def CORE_CMD_APPLY : Field := ⟨.CORE_CMD, 0, 1⟩
/-- CORE_STAT.ANCHOR, RO. -/ def CORE_STAT_ANCHOR : Field := ⟨.CORE_STAT, 26, 1⟩
/-- CORE_STAT.SUB, RO. -/ def CORE_STAT_SUB : Field := ⟨.CORE_STAT, 24, 2⟩
/-- CORE_STAT.BAND, RO. -/ def CORE_STAT_BAND : Field := ⟨.CORE_STAT, 16, 8⟩
/-- CORE_STAT.ROLE, RO. -/ def CORE_STAT_ROLE : Field := ⟨.CORE_STAT, 10, 3⟩
/-- CORE_STAT.STATION, RO. -/ def CORE_STAT_STATION : Field := ⟨.CORE_STAT, 7, 3⟩
/-- CORE_STAT.PENDING, RO. -/ def CORE_STAT_PENDING : Field := ⟨.CORE_STAT, 6, 1⟩
/-- CORE_STAT.CFGERR, RO. -/ def CORE_STAT_CFGERR : Field := ⟨.CORE_STAT, 5, 1⟩
/-- CORE_STAT.GATED, RO. -/ def CORE_STAT_GATED : Field := ⟨.CORE_STAT, 4, 1⟩
/-- CORE_STAT.LOCK, RO. -/ def CORE_STAT_LOCK : Field := ⟨.CORE_STAT, 3, 1⟩
/-- CORE_STAT.STATE, RO. -/ def CORE_STAT_STATE : Field := ⟨.CORE_STAT, 0, 3⟩
/-- CORE_PERR.ERR, RO. -/ def CORE_PERR_ERR : Field := ⟨.CORE_PERR, 0, 32⟩
/-- CORE_LOCKTIME.STEPS, RO. -/ def CORE_LOCKTIME_STEPS : Field := ⟨.CORE_LOCKTIME, 24, 4⟩
/-- CORE_LOCKTIME.TICKS, RO. -/ def CORE_LOCKTIME_TICKS : Field := ⟨.CORE_LOCKTIME, 0, 24⟩
/-- CORE_LOLCNT.COUNT, W1C. -/ def CORE_LOLCNT_COUNT : Field := ⟨.CORE_LOLCNT, 0, 32⟩
/-- CORE_MARGIN.MARGIN, RO. -/ def CORE_MARGIN_MARGIN : Field := ⟨.CORE_MARGIN, 16, 12⟩
/-- CORE_MARGIN.VTUNE, RO. -/ def CORE_MARGIN_VTUNE : Field := ⟨.CORE_MARGIN, 0, 12⟩
/-- CORE_LOCKSUM.LOCKED, RO. -/ def CORE_LOCKSUM_LOCKED : Field := ⟨.CORE_LOCKSUM, 0, 26⟩
/-- CORE_FENCESUM.FENCED, RO. -/ def CORE_FENCESUM_FENCED : Field := ⟨.CORE_FENCESUM, 0, 26⟩
/-- CORE_SPAREMAP.SPARE, RW. -/ def CORE_SPAREMAP_SPARE : Field := ⟨.CORE_SPAREMAP, 0, 26⟩
/-- CORE_WEARCFG.MARGIN_MIN, RW. -/ def CORE_WEARCFG_MARGIN_MIN : Field := ⟨.CORE_WEARCFG, 0, 12⟩
/-- STN_CFG.COLDHOLD, RW. -/ def STN_CFG_COLDHOLD : Field := ⟨.STN_CFG, 16, 16⟩
/-- STN_CFG.MODE, RW. -/ def STN_CFG_MODE : Field := ⟨.STN_CFG, 0, 2⟩
/-- STN_MAP.SLOT2, RW. -/ def STN_MAP_SLOT2 : Field := ⟨.STN_MAP, 10, 5⟩
/-- STN_MAP.SLOT1, RW. -/ def STN_MAP_SLOT1 : Field := ⟨.STN_MAP, 5, 5⟩
/-- STN_MAP.SLOT0, RW. -/ def STN_MAP_SLOT0 : Field := ⟨.STN_MAP, 0, 5⟩
/-- STN_OUTMASK.MASK, RW. -/ def STN_OUTMASK_MASK : Field := ⟨.STN_OUTMASK, 0, 32⟩
/-- STN_STAT.RUN, RO. -/ def STN_STAT_RUN : Field := ⟨.STN_STAT, 29, 1⟩
/-- STN_STAT.GUARANTEED, RO. -/ def STN_STAT_GUARANTEED : Field := ⟨.STN_STAT, 28, 1⟩
/-- STN_STAT.LAPSED, RO. -/ def STN_STAT_LAPSED : Field := ⟨.STN_STAT, 27, 1⟩
/-- STN_STAT.DEGRADED, RO. -/ def STN_STAT_DEGRADED : Field := ⟨.STN_STAT, 26, 1⟩
/-- STN_STAT.LIVESLOT, RO. -/ def STN_STAT_LIVESLOT : Field := ⟨.STN_STAT, 24, 2⟩
/-- STN_STAT.LIVEPROF, RO. -/ def STN_STAT_LIVEPROF : Field := ⟨.STN_STAT, 12, 12⟩
/-- STN_STAT.GLIDING, RO. -/ def STN_STAT_GLIDING : Field := ⟨.STN_STAT, 8, 1⟩
/-- STN_STAT.CORES, RO. -/ def STN_STAT_CORES : Field := ⟨.STN_STAT, 0, 2⟩
/-- STN_SWAPCNT.COUNT, W1C. -/ def STN_SWAPCNT_COUNT : Field := ⟨.STN_SWAPCNT, 0, 32⟩
/-- STN_COLDCNT.COUNT, W1C. -/ def STN_COLDCNT_COUNT : Field := ⟨.STN_COLDCNT, 0, 32⟩
/-- STN_GLIDECNT.COUNT, W1C. -/ def STN_GLIDECNT_COUNT : Field := ⟨.STN_GLIDECNT, 0, 32⟩
/-- STN_DROPCNT.COUNT, W1C. -/ def STN_DROPCNT_COUNT : Field := ⟨.STN_DROPCNT, 0, 32⟩
/-- STN_LASTHOP_LO.STAMP_LO, RL. -/ def STN_LASTHOP_LO_STAMP_LO : Field := ⟨.STN_LASTHOP_LO, 0, 32⟩
/-- STN_LASTHOP_HI.STAMP_HI, RO. -/ def STN_LASTHOP_HI_STAMP_HI : Field := ⟨.STN_LASTHOP_HI, 0, 32⟩
/-- PROF_DATA.WORD, RW. -/ def PROF_DATA_WORD : Field := ⟨.PROF_DATA, 0, 32⟩
/-- PROF_ADDR.INDEX, RW. -/ def PROF_ADDR_INDEX : Field := ⟨.PROF_ADDR, 0, 12⟩
/-- PROF_CMD.READ, W1S. -/ def PROF_CMD_READ : Field := ⟨.PROF_CMD, 1, 1⟩
/-- PROF_CMD.WRITE, W1S. -/ def PROF_CMD_WRITE : Field := ⟨.PROF_CMD, 0, 1⟩
/-- PROF_STAT.SHFREE, RO. -/ def PROF_STAT_SHFREE : Field := ⟨.PROF_STAT, 16, 6⟩
/-- PROF_STAT.SHPEND, RO. -/ def PROF_STAT_SHPEND : Field := ⟨.PROF_STAT, 9, 1⟩
/-- PROF_STAT.RESULT, RO. -/ def PROF_STAT_RESULT : Field := ⟨.PROF_STAT, 0, 3⟩
/-- PROF_SHCNT.DISCARDED, W1C. -/ def PROF_SHCNT_DISCARDED : Field := ⟨.PROF_SHCNT, 16, 16⟩
/-- PROF_SHCNT.APPLIED, W1C. -/ def PROF_SHCNT_APPLIED : Field := ⟨.PROF_SHCNT, 0, 16⟩
/-- SEQ_BIND.THREAD, RO. -/ def SEQ_BIND_THREAD : Field := ⟨.SEQ_BIND, 0, 32⟩
/-- SEQ_THREADS.FENCED, RO. -/ def SEQ_THREADS_FENCED : Field := ⟨.SEQ_THREADS, 16, 10⟩
/-- SEQ_THREADS.SPARE, RO. -/ def SEQ_THREADS_SPARE : Field := ⟨.SEQ_THREADS, 0, 10⟩
/-- SEQ_STATMAP.PIN, RW. -/ def SEQ_STATMAP_PIN : Field := ⟨.SEQ_STATMAP, 0, 32⟩
/-- SEQ_EVDROP.ODD, W1C. -/ def SEQ_EVDROP_ODD : Field := ⟨.SEQ_EVDROP, 16, 16⟩
/-- SEQ_EVDROP.EVEN, W1C. -/ def SEQ_EVDROP_EVEN : Field := ⟨.SEQ_EVDROP, 0, 16⟩
/-- SEQ_CTL.STOP, W1S. -/ def SEQ_CTL_STOP : Field := ⟨.SEQ_CTL, 1, 1⟩
/-- SEQ_CTL.START, W1S. -/ def SEQ_CTL_START : Field := ⟨.SEQ_CTL, 0, 1⟩
/-- SEQ_START_LO.TICK_LO, RW. -/ def SEQ_START_LO_TICK_LO : Field := ⟨.SEQ_START_LO, 0, 32⟩
/-- SEQ_START_HI.TICK_HI, RW. -/ def SEQ_START_HI_TICK_HI : Field := ⟨.SEQ_START_HI, 0, 32⟩
/-- SEQ_STAT.EXC, RO. -/ def SEQ_STAT_EXC : Field := ⟨.SEQ_STAT, 28, 4⟩
/-- SEQ_STAT.THREAD, RO. -/ def SEQ_STAT_THREAD : Field := ⟨.SEQ_STAT, 24, 4⟩
/-- SEQ_STAT.STATE, RO. -/ def SEQ_STAT_STATE : Field := ⟨.SEQ_STAT, 16, 3⟩
/-- SEQ_STAT.EPC, RO. -/ def SEQ_STAT_EPC : Field := ⟨.SEQ_STAT, 0, 14⟩
/-- TRIG_CFG.EN, RW. -/ def TRIG_CFG_EN : Field := ⟨.TRIG_CFG, 31, 1⟩
/-- TRIG_CFG.POL, RW. -/ def TRIG_CFG_POL : Field := ⟨.TRIG_CFG, 30, 1⟩
/-- TRIG_CFG.MINW, RW. -/ def TRIG_CFG_MINW : Field := ⟨.TRIG_CFG, 16, 8⟩
/-- TRIG_CFG.SPACE, RW. -/ def TRIG_CFG_SPACE : Field := ⟨.TRIG_CFG, 0, 16⟩
/-- TRIG_LIMIT.STUCK, RW. -/ def TRIG_LIMIT_STUCK : Field := ⟨.TRIG_LIMIT, 0, 16⟩
/-- TRIG_STAT.REARM, W1S. -/ def TRIG_STAT_REARM : Field := ⟨.TRIG_STAT, 31, 1⟩
/-- TRIG_STAT.FENCED, RO. -/ def TRIG_STAT_FENCED : Field := ⟨.TRIG_STAT, 3, 1⟩
/-- TRIG_STAT.STUCKSEEN, W1C. -/ def TRIG_STAT_STUCKSEEN : Field := ⟨.TRIG_STAT, 2, 1⟩
/-- TRIG_STAT.OVERRUN, W1C. -/ def TRIG_STAT_OVERRUN : Field := ⟨.TRIG_STAT, 1, 1⟩
/-- TRIG_STAT.LEVEL, RO. -/ def TRIG_STAT_LEVEL : Field := ⟨.TRIG_STAT, 0, 1⟩
/-- TRIG_CNT.DROPPED, W1C. -/ def TRIG_CNT_DROPPED : Field := ⟨.TRIG_CNT, 16, 16⟩
/-- TRIG_CNT.RUNT, W1C. -/ def TRIG_CNT_RUNT : Field := ⟨.TRIG_CNT, 0, 16⟩
/-- PGM_ADDR.AUTOINC, RW. -/ def PGM_ADDR_AUTOINC : Field := ⟨.PGM_ADDR, 31, 1⟩
/-- PGM_ADDR.STATION, RW. -/ def PGM_ADDR_STATION : Field := ⟨.PGM_ADDR, 16, 3⟩
/-- PGM_ADDR.INDEX, RW. -/ def PGM_ADDR_INDEX : Field := ⟨.PGM_ADDR, 0, 14⟩
/-- PGM_DATA.WORD, RW. -/ def PGM_DATA_WORD : Field := ⟨.PGM_DATA, 0, 32⟩
/-- PGM_LOAD.MODE, RW. -/ def PGM_LOAD_MODE : Field := ⟨.PGM_LOAD, 16, 1⟩
/-- PGM_LOAD.KIND, RW. -/ def PGM_LOAD_KIND : Field := ⟨.PGM_LOAD, 14, 1⟩
/-- PGM_LOAD.ENTRY, RW. -/ def PGM_LOAD_ENTRY : Field := ⟨.PGM_LOAD, 0, 14⟩
/-- PGM_CMD.HANDOFF, W1S. -/ def PGM_CMD_HANDOFF : Field := ⟨.PGM_CMD, 1, 1⟩
/-- PGM_CMD.CHECK, W1S. -/ def PGM_CMD_CHECK : Field := ⟨.PGM_CMD, 0, 1⟩
/-- PGM_STAT.PENDING, RO. -/ def PGM_STAT_PENDING : Field := ⟨.PGM_STAT, 31, 1⟩
/-- PGM_STAT.INDEX, RO. -/ def PGM_STAT_INDEX : Field := ⟨.PGM_STAT, 16, 14⟩
/-- PGM_STAT.REASON, RO. -/ def PGM_STAT_REASON : Field := ⟨.PGM_STAT, 8, 4⟩
/-- PGM_STAT.RESULT, RO. -/ def PGM_STAT_RESULT : Field := ⟨.PGM_STAT, 0, 3⟩
/-- PGM_SLACK.SLACK, RO. -/ def PGM_SLACK_SLACK : Field := ⟨.PGM_SLACK, 0, 32⟩
/-- PGM_BLOCKS.USED, RO. -/ def PGM_BLOCKS_USED : Field := ⟨.PGM_BLOCKS, 16, 9⟩
/-- PGM_BLOCKS.FREE, RO. -/ def PGM_BLOCKS_FREE : Field := ⟨.PGM_BLOCKS, 0, 9⟩
/-- PGM_MISPRED.COUNT, W1C. -/ def PGM_MISPRED_COUNT : Field := ⟨.PGM_MISPRED, 0, 32⟩
/-- PGM_SQUASH.COUNT, W1C. -/ def PGM_SQUASH_COUNT : Field := ⟨.PGM_SQUASH, 0, 32⟩
/-- OUT_CFG.EN, RW. -/ def OUT_CFG_EN : Field := ⟨.OUT_CFG, 31, 1⟩
/-- OUT_CFG.HGATE, RW. -/ def OUT_CFG_HGATE : Field := ⟨.OUT_CFG, 30, 1⟩
/-- OUT_CFG.DSEL, RW. -/ def OUT_CFG_DSEL : Field := ⟨.OUT_CFG, 24, 2⟩
/-- OUT_CFG.SRC, RW. -/ def OUT_CFG_SRC : Field := ⟨.OUT_CFG, 16, 5⟩
/-- OUT_DSET01.DBL1, RW. -/ def OUT_DSET01_DBL1 : Field := ⟨.OUT_DSET01, 27, 1⟩
/-- OUT_DSET01.D1, RW. -/ def OUT_DSET01_D1 : Field := ⟨.OUT_DSET01, 16, 11⟩
/-- OUT_DSET01.DBL0, RW. -/ def OUT_DSET01_DBL0 : Field := ⟨.OUT_DSET01, 11, 1⟩
/-- OUT_DSET01.D0, RW. -/ def OUT_DSET01_D0 : Field := ⟨.OUT_DSET01, 0, 11⟩
/-- OUT_DSET23.DBL3, RW. -/ def OUT_DSET23_DBL3 : Field := ⟨.OUT_DSET23, 27, 1⟩
/-- OUT_DSET23.D3, RW. -/ def OUT_DSET23_D3 : Field := ⟨.OUT_DSET23, 16, 11⟩
/-- OUT_DSET23.DBL2, RW. -/ def OUT_DSET23_DBL2 : Field := ⟨.OUT_DSET23, 11, 1⟩
/-- OUT_DSET23.D2, RW. -/ def OUT_DSET23_D2 : Field := ⟨.OUT_DSET23, 0, 11⟩
/-- OUT_DELAY.COARSE, RW. -/ def OUT_DELAY_COARSE : Field := ⟨.OUT_DELAY, 16, 11⟩
/-- OUT_DELAY.FINE, RW. -/ def OUT_DELAY_FINE : Field := ⟨.OUT_DELAY, 0, 10⟩
/-- OUT_DRV.MINPER, RW. -/ def OUT_DRV_MINPER : Field := ⟨.OUT_DRV, 16, 16⟩
/-- OUT_DRV.GLVL, RW. -/ def OUT_DRV_GLVL : Field := ⟨.OUT_DRV, 9, 1⟩
/-- OUT_DRV.MODE, RW. -/ def OUT_DRV_MODE : Field := ⟨.OUT_DRV, 8, 1⟩
/-- OUT_DRV.AMP, RW. -/ def OUT_DRV_AMP : Field := ⟨.OUT_DRV, 0, 8⟩
/-- OUT_SYSREF.REQ, W1S. -/ def OUT_SYSREF_REQ : Field := ⟨.OUT_SYSREF, 31, 1⟩
/-- OUT_SYSREF.PER, W1S. -/ def OUT_SYSREF_PER : Field := ⟨.OUT_SYSREF, 30, 1⟩
/-- OUT_SYSREF.DIS, W1S. -/ def OUT_SYSREF_DIS : Field := ⟨.OUT_SYSREF, 29, 1⟩
/-- OUT_SYSREF.PERIODIC, RO. -/ def OUT_SYSREF_PERIODIC : Field := ⟨.OUT_SYSREF, 28, 1⟩
/-- OUT_SYSREF.BURST, RO. -/ def OUT_SYSREF_BURST : Field := ⟨.OUT_SYSREF, 27, 1⟩
/-- OUT_SYSREF.SMODE, RW. -/ def OUT_SYSREF_SMODE : Field := ⟨.OUT_SYSREF, 16, 2⟩
/-- OUT_SYSREF.COUNT, RW. -/ def OUT_SYSREF_COUNT : Field := ⟨.OUT_SYSREF, 0, 8⟩
/-- OUT_SYSPULSE.WIDTH, RW. -/ def OUT_SYSPULSE_WIDTH : Field := ⟨.OUT_SYSPULSE, 16, 16⟩
/-- OUT_SYSPULSE.P, RW. -/ def OUT_SYSPULSE_P : Field := ⟨.OUT_SYSPULSE, 0, 12⟩
/-- OUT_RBCFG.PHWIN, RW. -/ def OUT_RBCFG_PHWIN : Field := ⟨.OUT_RBCFG, 24, 8⟩
/-- OUT_RBCFG.MISS, RW. -/ def OUT_RBCFG_MISS : Field := ⟨.OUT_RBCFG, 20, 4⟩
/-- OUT_RBCFG.CTOL, RW. -/ def OUT_RBCFG_CTOL : Field := ⟨.OUT_RBCFG, 16, 4⟩
/-- OUT_RBCFG.WIN, RW. -/ def OUT_RBCFG_WIN : Field := ⟨.OUT_RBCFG, 0, 5⟩
/-- OUT_STAT.CLRSHORT, W1S. -/ def OUT_STAT_CLRSHORT : Field := ⟨.OUT_STAT, 31, 1⟩
/-- OUT_STAT.GATEWHY, RO. -/ def OUT_STAT_GATEWHY : Field := ⟨.OUT_STAT, 16, 9⟩
/-- OUT_STAT.RBPHASE_BAD, RO. -/ def OUT_STAT_RBPHASE_BAD : Field := ⟨.OUT_STAT, 4, 1⟩
/-- OUT_STAT.RBCOUNT_BAD, RO. -/ def OUT_STAT_RBCOUNT_BAD : Field := ⟨.OUT_STAT, 3, 1⟩
/-- OUT_STAT.LIMIT, RO. -/ def OUT_STAT_LIMIT : Field := ⟨.OUT_STAT, 2, 1⟩
/-- OUT_STAT.FENCED, RO. -/ def OUT_STAT_FENCED : Field := ⟨.OUT_STAT, 1, 1⟩
/-- OUT_STAT.GATED, RO. -/ def OUT_STAT_GATED : Field := ⟨.OUT_STAT, 0, 1⟩
/-- OUT_RBPHASE.ERR, RO. -/ def OUT_RBPHASE_ERR : Field := ⟨.OUT_RBPHASE, 0, 32⟩
/-- OUT_RBCNT.COUNT, RO. -/ def OUT_RBCNT_COUNT : Field := ⟨.OUT_RBCNT, 0, 32⟩
/-- OUT_EVCNT.GUARD, W1C. -/ def OUT_EVCNT_GUARD : Field := ⟨.OUT_EVCNT, 16, 16⟩
/-- OUT_EVCNT.SYSDROP, W1C. -/ def OUT_EVCNT_SYSDROP : Field := ⟨.OUT_EVCNT, 0, 16⟩
/-- RAS_CFG.EN, RW. -/ def RAS_CFG_EN : Field := ⟨.RAS_CFG, 31, 1⟩
/-- RAS_CFG.TEPOL, RW. -/ def RAS_CFG_TEPOL : Field := ⟨.RAS_CFG, 30, 1⟩
/-- RAS_CFG.POLICY, RW. -/ def RAS_CFG_POLICY : Field := ⟨.RAS_CFG, 29, 1⟩
/-- RAS_CFG.CORE, RW. -/ def RAS_CFG_CORE : Field := ⟨.RAS_CFG, 24, 5⟩
/-- RAS_CFG.TOMULT, RW. -/ def RAS_CFG_TOMULT : Field := ⟨.RAS_CFG, 20, 4⟩
/-- RAS_CFG.TOL, RW. -/ def RAS_CFG_TOL : Field := ⟨.RAS_CFG, 16, 4⟩
/-- RAS_CFG.TEMINW, RW. -/ def RAS_CFG_TEMINW : Field := ⟨.RAS_CFG, 8, 8⟩
/-- RAS_OUTMASK.MASK, RW. -/ def RAS_OUTMASK_MASK : Field := ⟨.RAS_OUTMASK, 0, 32⟩
/-- RAS_STG_NUM_LO.NUM, RW. -/ def RAS_STG_NUM_LO_NUM : Field := ⟨.RAS_STG_NUM_LO, 0, 32⟩
/-- RAS_STG_DEN_LO.DEN, RW. -/ def RAS_STG_DEN_LO_DEN : Field := ⟨.RAS_STG_DEN_LO, 0, 32⟩
/-- RAS_STG_FRAC_HI.DEN_HI, RW. -/ def RAS_STG_FRAC_HI_DEN_HI : Field := ⟨.RAS_STG_FRAC_HI, 16, 16⟩
/-- RAS_STG_FRAC_HI.NUM_HI, RW. -/ def RAS_STG_FRAC_HI_NUM_HI : Field := ⟨.RAS_STG_FRAC_HI, 0, 16⟩
/-- RAS_STG_SET.GTIME, RW. -/ def RAS_STG_SET_GTIME : Field := ⟨.RAS_STG_SET, 18, 14⟩
/-- RAS_STG_SET.FORCECOLD, RW. -/ def RAS_STG_SET_FORCECOLD : Field := ⟨.RAS_STG_SET, 17, 1⟩
/-- RAS_STG_SET.DSEL, RW. -/ def RAS_STG_SET_DSEL : Field := ⟨.RAS_STG_SET, 15, 2⟩
/-- RAS_STG_SET.SUB, RW. -/ def RAS_STG_SET_SUB : Field := ⟨.RAS_STG_SET, 13, 2⟩
/-- RAS_STG_SET.BAND, RW. -/ def RAS_STG_SET_BAND : Field := ⟨.RAS_STG_SET, 5, 8⟩
/-- RAS_STG_SET.N, RW. -/ def RAS_STG_SET_N : Field := ⟨.RAS_STG_SET, 0, 5⟩
/-- RAS_STG_EXPECT.COUNT, RW. -/ def RAS_STG_EXPECT_COUNT : Field := ⟨.RAS_STG_EXPECT, 0, 32⟩
/-- RAS_EXPECT.COUNT, RW. -/ def RAS_EXPECT_COUNT : Field := ⟨.RAS_EXPECT, 0, 32⟩
/-- RAS_CTL.STAGE, W1S. -/ def RAS_CTL_STAGE : Field := ⟨.RAS_CTL, 31, 1⟩
/-- RAS_CTL.CANCEL, W1S. -/ def RAS_CTL_CANCEL : Field := ⟨.RAS_CTL, 30, 1⟩
/-- RAS_CTL.TEMISSING, W1C. -/ def RAS_CTL_TEMISSING : Field := ⟨.RAS_CTL, 7, 1⟩
/-- RAS_CTL.HELD, RO. -/ def RAS_CTL_HELD : Field := ⟨.RAS_CTL, 6, 1⟩
/-- RAS_CTL.APPLYING, RO. -/ def RAS_CTL_APPLYING : Field := ⟨.RAS_CTL, 5, 1⟩
/-- RAS_CTL.PENDING, RO. -/ def RAS_CTL_PENDING : Field := ⟨.RAS_CTL, 4, 1⟩
/-- RAS_CTL.LASTKIND, RO. -/ def RAS_CTL_LASTKIND : Field := ⟨.RAS_CTL, 0, 2⟩
/-- RAS_TEIVL.TICKS, RO. -/ def RAS_TEIVL_TICKS : Field := ⟨.RAS_TEIVL, 0, 32⟩
/-- RAS_FCOUNT.COUNT, RO. -/ def RAS_FCOUNT_COUNT : Field := ⟨.RAS_FCOUNT, 0, 32⟩
/-- RAS_CNT.FRAMEERR, W1C. -/ def RAS_CNT_FRAMEERR : Field := ⟨.RAS_CNT, 16, 16⟩
/-- RAS_CNT.TIMEOUT, W1C. -/ def RAS_CNT_TIMEOUT : Field := ⟨.RAS_CNT, 0, 16⟩
/-- LN_CFG.EN, RW. -/ def LN_CFG_EN : Field := ⟨.LN_CFG, 31, 1⟩
/-- LN_CFG.ROLE, RW. -/ def LN_CFG_ROLE : Field := ⟨.LN_CFG, 29, 2⟩
/-- LN_CFG.FEC, RW. -/ def LN_CFG_FEC : Field := ⟨.LN_CFG, 28, 1⟩
/-- LN_CFG.AUTOSTEER, RW. -/ def LN_CFG_AUTOSTEER : Field := ⟨.LN_CFG, 27, 1⟩
/-- LN_CFG.C0EN, RW. -/ def LN_CFG_C0EN : Field := ⟨.LN_CFG, 16, 8⟩
/-- LN_STAT.STATE, RO. -/ def LN_STAT_STATE : Field := ⟨.LN_STAT, 28, 4⟩
/-- LN_STAT.SLICE, RO. -/ def LN_STAT_SLICE : Field := ⟨.LN_STAT, 23, 5⟩
/-- LN_STAT.FECON, RO. -/ def LN_STAT_FECON : Field := ⟨.LN_STAT, 22, 1⟩
/-- LN_STAT.FRAMELOCK, RO. -/ def LN_STAT_FRAMELOCK : Field := ⟨.LN_STAT, 21, 1⟩
/-- LN_STAT.PEERLANE, RO. -/ def LN_STAT_PEERLANE : Field := ⟨.LN_STAT, 16, 4⟩
/-- LN_STAT.PEERID, RO. -/ def LN_STAT_PEERID : Field := ⟨.LN_STAT, 0, 16⟩
/-- LN_EQ.TXPOST, RO. -/ def LN_EQ_TXPOST : Field := ⟨.LN_EQ, 24, 5⟩
/-- LN_EQ.TXPRE, RO. -/ def LN_EQ_TXPRE : Field := ⟨.LN_EQ, 16, 4⟩
/-- LN_EQ.CTLE, RO. -/ def LN_EQ_CTLE : Field := ⟨.LN_EQ, 8, 4⟩
/-- LN_MARGIN.MIN, RW. -/ def LN_MARGIN_MIN : Field := ⟨.LN_MARGIN, 24, 8⟩
/-- LN_MARGIN.EYE, RO. -/ def LN_MARGIN_EYE : Field := ⟨.LN_MARGIN, 0, 8⟩
/-- LN_FECCNT.UNCORR, W1C. -/ def LN_FECCNT_UNCORR : Field := ⟨.LN_FECCNT, 16, 16⟩
/-- LN_FECCNT.CORR, W1C. -/ def LN_FECCNT_CORR : Field := ⟨.LN_FECCNT, 0, 16⟩
/-- LN_DELAY.DELAY, RO. -/ def LN_DELAY_DELAY : Field := ⟨.LN_DELAY, 0, 32⟩
/-- LN_ASYM.ASYM, RW. -/ def LN_ASYM_ASYM : Field := ⟨.LN_ASYM, 0, 32⟩
/-- LN_OFFSET.THETA, RO. -/ def LN_OFFSET_THETA : Field := ⟨.LN_OFFSET, 0, 32⟩
/-- LN_C0SRC.SRC, RW. -/ def LN_C0SRC_SRC : Field := ⟨.LN_C0SRC, 0, 32⟩
/-- LN_C0LAT.O, RO. -/ def LN_C0LAT_O : Field := ⟨.LN_C0LAT, 0, 16⟩
/-- LN_CNT.C0DROP, W1C. -/ def LN_CNT_C0DROP : Field := ⟨.LN_CNT, 16, 16⟩
/-- LN_CNT.CDROP, W1C. -/ def LN_CNT_CDROP : Field := ⟨.LN_CNT, 8, 8⟩
/-- LN_CNT.C0CRC, W1C. -/ def LN_CNT_C0CRC : Field := ⟨.LN_CNT, 0, 8⟩
/-- LN_TRAIN.RETRAIN, W1C. -/ def LN_TRAIN_RETRAIN : Field := ⟨.LN_TRAIN, 16, 16⟩
/-- LN_TRAIN.C2MIN, RW. -/ def LN_TRAIN_C2MIN : Field := ⟨.LN_TRAIN, 8, 8⟩
/-- LN_TRAIN.C3MIN, RW. -/ def LN_TRAIN_C3MIN : Field := ⟨.LN_TRAIN, 0, 8⟩
/-- LNG_DEVID.ID, RW. -/ def LNG_DEVID_ID : Field := ⟨.LNG_DEVID, 0, 16⟩
/-- LNG_RCLK.EN1, RW. -/ def LNG_RCLK_EN1 : Field := ⟨.LNG_RCLK, 31, 1⟩
/-- LNG_RCLK.EN0, RW. -/ def LNG_RCLK_EN0 : Field := ⟨.LNG_RCLK, 30, 1⟩
/-- LNG_RCLK.SEL1, RW. -/ def LNG_RCLK_SEL1 : Field := ⟨.LNG_RCLK, 4, 4⟩
/-- LNG_RCLK.SEL0, RW. -/ def LNG_RCLK_SEL0 : Field := ⟨.LNG_RCLK, 0, 4⟩
/-- LNG_TTCFG.STEER, RW. -/ def LNG_TTCFG_STEER : Field := ⟨.LNG_TTCFG, 31, 1⟩
/-- LNG_TTCFG.AVG, RW. -/ def LNG_TTCFG_AVG : Field := ⟨.LNG_TTCFG, 16, 4⟩
/-- LNG_TTCFG.TRIP, RW. -/ def LNG_TTCFG_TRIP : Field := ⟨.LNG_TTCFG, 0, 16⟩
/-- LNG_TTSTAT.ALIGNED, RO. -/ def LNG_TTSTAT_ALIGNED : Field := ⟨.LNG_TTSTAT, 31, 1⟩
/-- LNG_TTSTAT.SETTLED, RO. -/ def LNG_TTSTAT_SETTLED : Field := ⟨.LNG_TTSTAT, 30, 1⟩
/-- LNG_TTSTAT.ROOT, RO. -/ def LNG_TTSTAT_ROOT : Field := ⟨.LNG_TTSTAT, 29, 1⟩
/-- LNG_TTSTAT.DEPTH, RO. -/ def LNG_TTSTAT_DEPTH : Field := ⟨.LNG_TTSTAT, 4, 4⟩
/-- LNG_TTSTAT.SRC, RO. -/ def LNG_TTSTAT_SRC : Field := ⟨.LNG_TTSTAT, 0, 4⟩
/-- LNG_THETA.THETAF, RO. -/ def LNG_THETA_THETAF : Field := ⟨.LNG_THETA, 0, 32⟩
/-- LNG_CMD.LOAD, W1S. -/ def LNG_CMD_LOAD : Field := ⟨.LNG_CMD, 31, 1⟩
/-- LNG_CMD.REALIGN, W1S. -/ def LNG_CMD_REALIGN : Field := ⟨.LNG_CMD, 30, 1⟩
/-- LNG_CMD.LOOPCAL, W1S. -/ def LNG_CMD_LOOPCAL : Field := ⟨.LNG_CMD, 29, 1⟩
/-- LNG_CMD.STEER, W1S. -/ def LNG_CMD_STEER : Field := ⟨.LNG_CMD, 28, 1⟩
/-- LNG_SPARE.WORD, RO. -/ def LNG_SPARE_WORD : Field := ⟨.LNG_SPARE, 0, 32⟩
/-- LNG_C1STAT.DROP, W1C. -/ def LNG_C1STAT_DROP : Field := ⟨.LNG_C1STAT, 16, 16⟩
/-- LNG_C1STAT.LEVEL, RO. -/ def LNG_C1STAT_LEVEL : Field := ⟨.LNG_C1STAT, 0, 9⟩
/-- LNG_C1WORD.WORD, RL. -/ def LNG_C1WORD_WORD : Field := ⟨.LNG_C1WORD, 0, 32⟩
/-- LNG_C1TICK_LO.TICK, RO. -/ def LNG_C1TICK_LO_TICK : Field := ⟨.LNG_C1TICK_LO, 0, 32⟩
/-- LNG_C1TICK_HI.TICK, RO. -/ def LNG_C1TICK_HI_TICK : Field := ⟨.LNG_C1TICK_HI, 0, 32⟩
/-- LNG_C1INFO.FLOW, RO. -/ def LNG_C1INFO_FLOW : Field := ⟨.LNG_C1INFO, 4, 12⟩
/-- LNG_C1INFO.LANE, RO. -/ def LNG_C1INFO_LANE : Field := ⟨.LNG_C1INFO, 0, 4⟩
/-- FLOW_ADDR.AUTOINC, RW. -/ def FLOW_ADDR_AUTOINC : Field := ⟨.FLOW_ADDR, 31, 1⟩
/-- FLOW_ADDR.SOURCE, RW. -/ def FLOW_ADDR_SOURCE : Field := ⟨.FLOW_ADDR, 16, 5⟩
/-- FLOW_ADDR.FLOW, RW. -/ def FLOW_ADDR_FLOW : Field := ⟨.FLOW_ADDR, 0, 12⟩
/-- FLOW_DATA.ENTRY, RW. -/ def FLOW_DATA_ENTRY : Field := ⟨.FLOW_DATA, 0, 32⟩
/-- FLT_CFG.REMOTE, RW. -/ def FLT_CFG_REMOTE : Field := ⟨.FLT_CFG, 31, 1⟩
/-- FLT_CFG.LATEPOL, RW. -/ def FLT_CFG_LATEPOL : Field := ⟨.FLT_CFG, 30, 1⟩
/-- FLT_CFG.DGEN, RW. -/ def FLT_CFG_DGEN : Field := ⟨.FLT_CFG, 29, 1⟩
/-- FLT_CFG.CMPEN, RW. -/ def FLT_CFG_CMPEN : Field := ⟨.FLT_CFG, 28, 1⟩
/-- FLT_CFG.RPTFLOW, RW. -/ def FLT_CFG_RPTFLOW : Field := ⟨.FLT_CFG, 12, 12⟩
/-- FLT_CFG.DGFLOW, RW. -/ def FLT_CFG_DGFLOW : Field := ⟨.FLT_CFG, 0, 12⟩
/-- FLT_EPOCH.EPOCH, RO. -/ def FLT_EPOCH_EPOCH : Field := ⟨.FLT_EPOCH, 0, 32⟩
/-- FLT_DIGEST.WORD, RO. -/ def FLT_DIGEST_WORD : Field := ⟨.FLT_DIGEST, 0, 32⟩
/-- FLT_DGSTAT.CURRENT, RO. -/ def FLT_DGSTAT_CURRENT : Field := ⟨.FLT_DGSTAT, 31, 1⟩
/-- FLT_DGSTAT.RUNNING, RO. -/ def FLT_DGSTAT_RUNNING : Field := ⟨.FLT_DGSTAT, 30, 1⟩
/-- FLT_DGSTAT.EXPECTV, RW. -/ def FLT_DGSTAT_EXPECTV : Field := ⟨.FLT_DGSTAT, 29, 1⟩
/-- FLT_MGR.ID, RW. -/ def FLT_MGR_ID : Field := ⟨.FLT_MGR, 0, 16⟩
/-- FLT_ASOF_LO.TICK, RL. -/ def FLT_ASOF_LO_TICK : Field := ⟨.FLT_ASOF_LO, 0, 32⟩
/-- FLT_ASOF_HI.TICK, RO. -/ def FLT_ASOF_HI_TICK : Field := ⟨.FLT_ASOF_HI, 0, 32⟩
/-- FLT_EPTICK_LO.TICK, RL. -/ def FLT_EPTICK_LO_TICK : Field := ⟨.FLT_EPTICK_LO, 0, 32⟩
/-- FLT_EPTICK_HI.TICK, RO. -/ def FLT_EPTICK_HI_TICK : Field := ⟨.FLT_EPTICK_HI, 0, 32⟩
/-- FLT_EXPECT_LO.EXP, RW. -/ def FLT_EXPECT_LO_EXP : Field := ⟨.FLT_EXPECT_LO, 0, 32⟩
/-- FLT_EXPECT_HI.EXP, RW. -/ def FLT_EXPECT_HI_EXP : Field := ⟨.FLT_EXPECT_HI, 0, 32⟩
/-- FLT_RQ_CTL.GO, W1S. -/ def FLT_RQ_CTL_GO : Field := ⟨.FLT_RQ_CTL, 31, 1⟩
/-- FLT_RQ_CTL.BUSY, RO. -/ def FLT_RQ_CTL_BUSY : Field := ⟨.FLT_RQ_CTL, 30, 1⟩
/-- FLT_RQ_CTL.KIND, RW. -/ def FLT_RQ_CTL_KIND : Field := ⟨.FLT_RQ_CTL, 28, 2⟩
/-- FLT_RQ_CTL.STATUS, RO. -/ def FLT_RQ_CTL_STATUS : Field := ⟨.FLT_RQ_CTL, 24, 4⟩
/-- FLT_RQ_CTL.FLOW, RW. -/ def FLT_RQ_CTL_FLOW : Field := ⟨.FLT_RQ_CTL, 12, 12⟩
/-- FLT_RQ_CTL.TIMEOUT, RW. -/ def FLT_RQ_CTL_TIMEOUT : Field := ⟨.FLT_RQ_CTL, 0, 8⟩
/-- FLT_RQ_DST.ADDR, RW. -/ def FLT_RQ_DST_ADDR : Field := ⟨.FLT_RQ_DST, 16, 16⟩
/-- FLT_RQ_DST.DST, RW. -/ def FLT_RQ_DST_DST : Field := ⟨.FLT_RQ_DST, 0, 16⟩
/-- FLT_RQ_DATA.VALUE, RW. -/ def FLT_RQ_DATA_VALUE : Field := ⟨.FLT_RQ_DATA, 0, 32⟩
/-- FLT_ARMSTAT.LASTSTATUS, RO. -/ def FLT_ARMSTAT_LASTSTATUS : Field := ⟨.FLT_ARMSTAT, 28, 4⟩
/-- FLT_ARMSTAT.ITEM, RO. -/ def FLT_ARMSTAT_ITEM : Field := ⟨.FLT_ARMSTAT, 16, 9⟩
/-- FLT_ARMSTAT.PENDING, RO. -/ def FLT_ARMSTAT_PENDING : Field := ⟨.FLT_ARMSTAT, 0, 3⟩
/-- FLT_ARMNEXT_LO.TICK, RL. -/ def FLT_ARMNEXT_LO_TICK : Field := ⟨.FLT_ARMNEXT_LO, 0, 32⟩
/-- FLT_ARMNEXT_HI.TICK, RO. -/ def FLT_ARMNEXT_HI_TICK : Field := ⟨.FLT_ARMNEXT_HI, 0, 32⟩
/-- FLT_LOGCTL.POP, W1S. -/ def FLT_LOGCTL_POP : Field := ⟨.FLT_LOGCTL, 31, 1⟩
/-- FLT_LOGCTL.LEVEL, RO. -/ def FLT_LOGCTL_LEVEL : Field := ⟨.FLT_LOGCTL, 16, 5⟩
/-- FLT_LOGCTL.OVERFLOW, W1C. -/ def FLT_LOGCTL_OVERFLOW : Field := ⟨.FLT_LOGCTL, 0, 16⟩
/-- FLT_LOG_ID.SUBJECT, RO. -/ def FLT_LOG_ID_SUBJECT : Field := ⟨.FLT_LOG_ID, 16, 16⟩
/-- FLT_LOG_ID.LANE, RO. -/ def FLT_LOG_ID_LANE : Field := ⟨.FLT_LOG_ID, 12, 4⟩
/-- FLT_LOG_ID.CAUSE, RO. -/ def FLT_LOG_ID_CAUSE : Field := ⟨.FLT_LOG_ID, 8, 4⟩
/-- FLT_LOG_EPOCH.EPOCH, RO. -/ def FLT_LOG_EPOCH_EPOCH : Field := ⟨.FLT_LOG_EPOCH, 0, 32⟩
/-- FLT_LOG_DG_LO.ACTUAL, RO. -/ def FLT_LOG_DG_LO_ACTUAL : Field := ⟨.FLT_LOG_DG_LO, 0, 32⟩
/-- FLT_LOG_DG_HI.ACTUAL, RO. -/ def FLT_LOG_DG_HI_ACTUAL : Field := ⟨.FLT_LOG_DG_HI, 0, 32⟩
/-- FLT_LOG_TICK.TICK, RO. -/ def FLT_LOG_TICK_TICK : Field := ⟨.FLT_LOG_TICK, 0, 32⟩
/-- FLT_CNT.MISADDR, W1C. -/ def FLT_CNT_MISADDR : Field := ⟨.FLT_CNT, 24, 8⟩
/-- FLT_CNT.MALFORMED, W1C. -/ def FLT_CNT_MALFORMED : Field := ⟨.FLT_CNT, 16, 8⟩
/-- FLT_CNT.RQDROP, W1C. -/ def FLT_CNT_RQDROP : Field := ⟨.FLT_CNT, 8, 8⟩
/-- FLT_CNT.DENIED, W1C. -/ def FLT_CNT_DENIED : Field := ⟨.FLT_CNT, 0, 8⟩
/-- CAL_CFG.EN, RW. -/ def CAL_CFG_EN : Field := ⟨.CAL_CFG, 31, 1⟩
/-- CAL_CFG.ANCMODE, RW. -/ def CAL_CFG_ANCMODE : Field := ⟨.CAL_CFG, 30, 1⟩
/-- CAL_CFG.HOSTNOW, RW. -/ def CAL_CFG_HOSTNOW : Field := ⟨.CAL_CFG, 29, 1⟩
/-- CAL_CFG.DT, RW. -/ def CAL_CFG_DT : Field := ⟨.CAL_CFG, 22, 6⟩
/-- CAL_CFG.STARVE, RW. -/ def CAL_CFG_STARVE : Field := ⟨.CAL_CFG, 8, 8⟩
/-- CAL_CFG.TRKSPAN, RW. -/ def CAL_CFG_TRKSPAN : Field := ⟨.CAL_CFG, 0, 8⟩
/-- CAL_LIMITS.REFTO, RW. -/ def CAL_LIMITS_REFTO : Field := ⟨.CAL_LIMITS, 24, 8⟩
/-- CAL_LIMITS.SMALLDLY, RW. -/ def CAL_LIMITS_SMALLDLY : Field := ⟨.CAL_LIMITS, 16, 8⟩
/-- CAL_LIMITS.SMALLICP, RW. -/ def CAL_LIMITS_SMALLICP : Field := ⟨.CAL_LIMITS, 8, 8⟩
/-- CAL_STEPEN.STEPS, RW. -/ def CAL_STEPEN_STEPS : Field := ⟨.CAL_STEPEN, 0, 9⟩
/-- CAL_CMD.RUN, W1S. -/ def CAL_CMD_RUN : Field := ⟨.CAL_CMD, 31, 1⟩
/-- CAL_CMD.EXPORT, W1S. -/ def CAL_CMD_EXPORT : Field := ⟨.CAL_CMD, 30, 1⟩
/-- CAL_CMD.IMPORT, W1S. -/ def CAL_CMD_IMPORT : Field := ⟨.CAL_CMD, 29, 1⟩
/-- CAL_CMD.COMMIT, W1S. -/ def CAL_CMD_COMMIT : Field := ⟨.CAL_CMD, 28, 1⟩
/-- CAL_CMD.ABORT, W1S. -/ def CAL_CMD_ABORT : Field := ⟨.CAL_CMD, 27, 1⟩
/-- CAL_STAT.ALLCURRENT, RO. -/ def CAL_STAT_ALLCURRENT : Field := ⟨.CAL_STAT, 31, 1⟩
/-- CAL_STAT.BUSY, RO. -/ def CAL_STAT_BUSY : Field := ⟨.CAL_STAT, 30, 1⟩
/-- CAL_STAT.RUNNING, RO. -/ def CAL_STAT_RUNNING : Field := ⟨.CAL_STAT, 0, 8⟩
/-- CAL_DUE_LO.DUE, RO. -/ def CAL_DUE_LO_DUE : Field := ⟨.CAL_DUE_LO, 0, 32⟩
/-- CAL_DUE_HI.DUE, RO. -/ def CAL_DUE_HI_DUE : Field := ⟨.CAL_DUE_HI, 0, 28⟩
/-- CAL_GSEL.GROUP, RW. -/ def CAL_GSEL_GROUP : Field := ⟨.CAL_GSEL, 0, 6⟩
/-- CAL_GSTAT.LASTKIND, RO. -/ def CAL_GSTAT_LASTKIND : Field := ⟨.CAL_GSTAT, 28, 4⟩
/-- CAL_GSTAT.DUE, RO. -/ def CAL_GSTAT_DUE : Field := ⟨.CAL_GSTAT, 27, 1⟩
/-- CAL_GSTAT.HASVAL, RO. -/ def CAL_GSTAT_HASVAL : Field := ⟨.CAL_GSTAT, 26, 1⟩
/-- CAL_GSTAT.IMPORTED, RO. -/ def CAL_GSTAT_IMPORTED : Field := ⟨.CAL_GSTAT, 25, 1⟩
/-- CAL_GSTAT.HOSTSET, RO. -/ def CAL_GSTAT_HOSTSET : Field := ⟨.CAL_GSTAT, 24, 1⟩
/-- CAL_GSTAT.RESULT, RO. -/ def CAL_GSTAT_RESULT : Field := ⟨.CAL_GSTAT, 20, 3⟩
/-- CAL_GSTAT.STEPS, RO. -/ def CAL_GSTAT_STEPS : Field := ⟨.CAL_GSTAT, 0, 9⟩
/-- CAL_GCOUNT.COUNT, RO. -/ def CAL_GCOUNT_COUNT : Field := ⟨.CAL_GCOUNT, 0, 32⟩
/-- CAL_GSTAMP_LO.TICK, RL. -/ def CAL_GSTAMP_LO_TICK : Field := ⟨.CAL_GSTAMP_LO, 0, 32⟩
/-- CAL_GSTAMP_HI.TICK, RO. -/ def CAL_GSTAMP_HI_TICK : Field := ⟨.CAL_GSTAMP_HI, 0, 32⟩
/-- CAL_GTEMP.BASE, RO. -/ def CAL_GTEMP_BASE : Field := ⟨.CAL_GTEMP, 16, 16⟩
/-- CAL_GTEMP.NOW, RO. -/ def CAL_GTEMP_NOW : Field := ⟨.CAL_GTEMP, 0, 16⟩
/-- CAL_GSNAP0.REFCALOFS, RO. -/ def CAL_GSNAP0_REFCALOFS : Field := ⟨.CAL_GSNAP0, 0, 32⟩
/-- CAL_GSNAP1.REFCALAMP, RO. -/ def CAL_GSNAP1_REFCALAMP : Field := ⟨.CAL_GSNAP1, 16, 16⟩
/-- CAL_GSNAP1.REFSEL, RO. -/ def CAL_GSNAP1_REFSEL : Field := ⟨.CAL_GSNAP1, 13, 3⟩
/-- CAL_GSNAP1.PRIMARY, RO. -/ def CAL_GSNAP1_PRIMARY : Field := ⟨.CAL_GSNAP1, 12, 1⟩
/-- CAL_GSNAP1.ANCSTATE, RO. -/ def CAL_GSNAP1_ANCSTATE : Field := ⟨.CAL_GSNAP1, 9, 3⟩
/-- CAL_GSNAP1.TBASE, RO. -/ def CAL_GSNAP1_TBASE : Field := ⟨.CAL_GSNAP1, 7, 2⟩
/-- CAL_GSNAP2.TANCHOR, RO. -/ def CAL_GSNAP2_TANCHOR : Field := ⟨.CAL_GSNAP2, 16, 16⟩
/-- CAL_GSNAP2.TDIE, RO. -/ def CAL_GSNAP2_TDIE : Field := ⟨.CAL_GSNAP2, 0, 16⟩
/-- CAL_TADDR.AUTOINC, RW. -/ def CAL_TADDR_AUTOINC : Field := ⟨.CAL_TADDR, 31, 1⟩
/-- CAL_TADDR.GROUP, RW. -/ def CAL_TADDR_GROUP : Field := ⟨.CAL_TADDR, 16, 6⟩
/-- CAL_TADDR.ITEM, RW. -/ def CAL_TADDR_ITEM : Field := ⟨.CAL_TADDR, 0, 11⟩
/-- CAL_TDATA.WORD, RW. -/ def CAL_TDATA_WORD : Field := ⟨.CAL_TDATA, 0, 32⟩
/-- CAL_IMGADDR.AUTOINC, RW. -/ def CAL_IMGADDR_AUTOINC : Field := ⟨.CAL_IMGADDR, 31, 1⟩
/-- CAL_IMGADDR.INDEX, RW. -/ def CAL_IMGADDR_INDEX : Field := ⟨.CAL_IMGADDR, 0, 15⟩
/-- CAL_IMGDATA.WORD, RW. -/ def CAL_IMGDATA_WORD : Field := ⟨.CAL_IMGDATA, 0, 32⟩
/-- CAL_IMGSTAT.BUSY, RO. -/ def CAL_IMGSTAT_BUSY : Field := ⟨.CAL_IMGSTAT, 31, 1⟩
/-- CAL_IMGSTAT.RESULT, RO. -/ def CAL_IMGSTAT_RESULT : Field := ⟨.CAL_IMGSTAT, 0, 4⟩
/-- CAL_SEQ.SEQ, RO. -/ def CAL_SEQ_SEQ : Field := ⟨.CAL_SEQ, 0, 32⟩
/-- MON_CTL.RUN, RW. -/ def MON_CTL_RUN : Field := ⟨.MON_CTL, 31, 1⟩
/-- MON_SCAN_LO.MASK, RW. -/ def MON_SCAN_LO_MASK : Field := ⟨.MON_SCAN_LO, 0, 32⟩
/-- MON_SCAN_HI.MASK, RW. -/ def MON_SCAN_HI_MASK : Field := ⟨.MON_SCAN_HI, 0, 32⟩
/-- MON_STAT.FENCED, RO. -/ def MON_STAT_FENCED : Field := ⟨.MON_STAT, 31, 1⟩
/-- MON_STAT.MASKPEND, RO. -/ def MON_STAT_MASKPEND : Field := ⟨.MON_STAT, 30, 1⟩
/-- MON_STAT.ENTRIES, RO. -/ def MON_STAT_ENTRIES : Field := ⟨.MON_STAT, 16, 6⟩
/-- MON_STAT.QLEVEL, RO. -/ def MON_STAT_QLEVEL : Field := ⟨.MON_STAT, 8, 2⟩
/-- MON_INJCMD.GO, W1S. -/ def MON_INJCMD_GO : Field := ⟨.MON_INJCMD, 31, 1⟩
/-- MON_INJCMD.RESULT, RO. -/ def MON_INJCMD_RESULT : Field := ⟨.MON_INJCMD, 24, 4⟩
/-- MON_INJCMD.CH, RW. -/ def MON_INJCMD_CH : Field := ⟨.MON_INJCMD, 0, 6⟩
/-- MON_INJ_A.VALUE, RL. -/ def MON_INJ_A_VALUE : Field := ⟨.MON_INJ_A, 16, 16⟩
/-- MON_INJ_A.CH, RO. -/ def MON_INJ_A_CH : Field := ⟨.MON_INJ_A, 10, 6⟩
/-- MON_INJ_A.COUNT, RO. -/ def MON_INJ_A_COUNT : Field := ⟨.MON_INJ_A, 0, 10⟩
/-- MON_INJ_B.STAMP, RO. -/ def MON_INJ_B_STAMP : Field := ⟨.MON_INJ_B, 0, 32⟩
/-- MON_VTSEL.CORE, RW. -/ def MON_VTSEL_CORE : Field := ⟨.MON_VTSEL, 0, 5⟩
/-- MON_CNT.INJREF, W1C. -/ def MON_CNT_INJREF : Field := ⟨.MON_CNT, 16, 16⟩
/-- MON_CNT.CHKFAIL, W1C. -/ def MON_CNT_CHKFAIL : Field := ⟨.MON_CNT, 0, 16⟩
/-- MON_CHECK.REF, RO. -/ def MON_CHECK_REF : Field := ⟨.MON_CHECK, 16, 14⟩
/-- MON_CHECK.ZERO, RO. -/ def MON_CHECK_ZERO : Field := ⟨.MON_CHECK, 0, 14⟩
/-- MON_THR_CFG.EN, RW. -/ def MON_THR_CFG_EN : Field := ⟨.MON_THR_CFG, 31, 1⟩
/-- MON_THR_CFG.DIR, RW. -/ def MON_THR_CFG_DIR : Field := ⟨.MON_THR_CFG, 30, 1⟩
/-- MON_THR_CFG.CH, RW. -/ def MON_THR_CFG_CH : Field := ⟨.MON_THR_CFG, 24, 6⟩
/-- MON_THR_CFG.HYST, RW. -/ def MON_THR_CFG_HYST : Field := ⟨.MON_THR_CFG, 16, 8⟩
/-- MON_THR_CFG.LEVEL, RW. -/ def MON_THR_CFG_LEVEL : Field := ⟨.MON_THR_CFG, 0, 14⟩
/-- MON_THR_STAT.ARMED, RO. -/ def MON_THR_STAT_ARMED : Field := ⟨.MON_THR_STAT, 31, 1⟩
/-- MON_THR_STAT.COUNT, W1C. -/ def MON_THR_STAT_COUNT : Field := ⟨.MON_THR_STAT, 0, 16⟩
/-- MON_RES_A.VALUE, RL. -/ def MON_RES_A_VALUE : Field := ⟨.MON_RES_A, 16, 16⟩
/-- MON_RES_A.COUNT, RO. -/ def MON_RES_A_COUNT : Field := ⟨.MON_RES_A, 0, 16⟩
/-- MON_RES_B.STAMP, RO. -/ def MON_RES_B_STAMP : Field := ⟨.MON_RES_B, 0, 32⟩
/-- PWR_STATE.RESULT, RO. -/ def PWR_STATE_RESULT : Field := ⟨.PWR_STATE, 8, 3⟩
/-- PWR_STATE.STATE, RO. -/ def PWR_STATE_STATE : Field := ⟨.PWR_STATE, 0, 3⟩
/-- PWR_CMD.KEY, WK. -/ def PWR_CMD_KEY : Field := ⟨.PWR_CMD, 24, 8⟩
/-- PWR_CMD.TARGET, WK. -/ def PWR_CMD_TARGET : Field := ⟨.PWR_CMD, 0, 2⟩
/-- PWR_DOMON.ON, RO. -/ def PWR_DOMON_ON : Field := ⟨.PWR_DOMON, 0, 32⟩
/-- BAR_CFG.PERIOD, RW. -/ def BAR_CFG_PERIOD : Field := ⟨.BAR_CFG, 0, 8⟩
/-- BAR_WAKEEN.EN, RW. -/ def BAR_WAKEEN_EN : Field := ⟨.BAR_WAKEEN, 0, 20⟩
/-- BAR_INHIB.EN, RW. -/ def BAR_INHIB_EN : Field := ⟨.BAR_INHIB, 0, 11⟩
/-- BAR_ALERTEN.EN, RW. -/ def BAR_ALERTEN_EN : Field := ⟨.BAR_ALERTEN, 0, 20⟩
/-- BAR_WAKECAUSE.KIND, RO. -/ def BAR_WAKECAUSE_KIND : Field := ⟨.BAR_WAKECAUSE, 30, 2⟩
/-- BAR_WAKECAUSE.INPUTS, RO. -/ def BAR_WAKECAUSE_INPUTS : Field := ⟨.BAR_WAKECAUSE, 0, 20⟩
/-- BAR_TIMER.SECONDS, RW. -/ def BAR_TIMER_SECONDS : Field := ⟨.BAR_TIMER, 0, 24⟩
/-- BAR_LANEMASK.MASK, RW. -/ def BAR_LANEMASK_MASK : Field := ⟨.BAR_LANEMASK, 0, 16⟩
/-- BAR_FWVER.VERSION, RO. -/ def BAR_FWVER_VERSION : Field := ⟨.BAR_FWVER, 0, 32⟩
/-- BAR_IN_CFG.DIR, RW. -/ def BAR_IN_CFG_DIR : Field := ⟨.BAR_IN_CFG, 31, 1⟩
/-- BAR_IN_CFG.K, RW. -/ def BAR_IN_CFG_K : Field := ⟨.BAR_IN_CFG, 28, 3⟩
/-- BAR_IN_CFG.HYST, RW. -/ def BAR_IN_CFG_HYST : Field := ⟨.BAR_IN_CFG, 20, 8⟩
/-- BAR_IN_CFG.LEVEL, RW. -/ def BAR_IN_CFG_LEVEL : Field := ⟨.BAR_IN_CFG, 0, 16⟩
/-- BAR_IN_STAT.COND, RO. -/ def BAR_IN_STAT_COND : Field := ⟨.BAR_IN_STAT, 31, 1⟩
/-- BAR_IN_STAT.FILT, RO. -/ def BAR_IN_STAT_FILT : Field := ⟨.BAR_IN_STAT, 0, 16⟩
/-- STORE_CFG.AUTOACTIVE, RW. -/ def STORE_CFG_AUTOACTIVE : Field := ⟨.STORE_CFG, 31, 1⟩
/-- STORE_CFG.FULLAT, RW. -/ def STORE_CFG_FULLAT : Field := ⟨.STORE_CFG, 0, 8⟩
/-- STORE_CMD.KEY, WK. -/ def STORE_CMD_KEY : Field := ⟨.STORE_CMD, 24, 8⟩
/-- STORE_CMD.FULL, WK. -/ def STORE_CMD_FULL : Field := ⟨.STORE_CMD, 1, 1⟩
/-- STORE_CMD.SAVE, WK. -/ def STORE_CMD_SAVE : Field := ⟨.STORE_CMD, 0, 1⟩
/-- STORE_STAT.READONLY, RO. -/ def STORE_STAT_READONLY : Field := ⟨.STORE_STAT, 31, 1⟩
/-- STORE_STAT.FULLING, RO. -/ def STORE_STAT_FULLING : Field := ⟨.STORE_STAT, 30, 1⟩
/-- STORE_STAT.WRITING, RO. -/ def STORE_STAT_WRITING : Field := ⟨.STORE_STAT, 29, 1⟩
/-- STORE_STAT.DIRTY, RO. -/ def STORE_STAT_DIRTY : Field := ⟨.STORE_STAT, 28, 1⟩
/-- STORE_STAT.QUEUED, RO. -/ def STORE_STAT_QUEUED : Field := ⟨.STORE_STAT, 24, 4⟩
/-- STORE_STAT.RESULT, RO. -/ def STORE_STAT_RESULT : Field := ⟨.STORE_STAT, 16, 3⟩
/-- STORE_NEXTSEQ.SEQ, RO. -/ def STORE_NEXTSEQ_SEQ : Field := ⟨.STORE_NEXTSEQ, 0, 32⟩
/-- STORE_BASE.LASTSEQ, RO. -/ def STORE_BASE_LASTSEQ : Field := ⟨.STORE_BASE, 0, 32⟩
/-- STORE_POOL.SPARES, RO. -/ def STORE_POOL_SPARES : Field := ⟨.STORE_POOL, 16, 16⟩
/-- STORE_POOL.RETIRED, RO. -/ def STORE_POOL_RETIRED : Field := ⟨.STORE_POOL, 0, 16⟩
/-- STORE_RING.FREE, RO. -/ def STORE_RING_FREE : Field := ⟨.STORE_RING, 16, 8⟩
/-- STORE_RING.USED, RO. -/ def STORE_RING_USED : Field := ⟨.STORE_RING, 0, 8⟩
/-- STORE_START.STAGE, RO. -/ def STORE_START_STAGE : Field := ⟨.STORE_START, 28, 4⟩
/-- STORE_START.KIND, RO. -/ def STORE_START_KIND : Field := ⟨.STORE_START, 26, 2⟩
/-- STORE_START.SETSRC, RO. -/ def STORE_START_SETSRC : Field := ⟨.STORE_START, 24, 2⟩
/-- STORE_START.SLOT, RO. -/ def STORE_START_SLOT : Field := ⟨.STORE_START, 22, 2⟩
/-- STORE_START.TORN, RO. -/ def STORE_START_TORN : Field := ⟨.STORE_START, 8, 8⟩
/-- STORE_START.REFUSED, RO. -/ def STORE_START_REFUSED : Field := ⟨.STORE_START, 0, 8⟩
/-- STORE_REPLAY.COUNT, RO. -/ def STORE_REPLAY_COUNT : Field := ⟨.STORE_REPLAY, 0, 32⟩
/-- STORE_FLASH.SIZE, RO. -/ def STORE_FLASH_SIZE : Field := ⟨.STORE_FLASH, 16, 16⟩
/-- STORE_FLASH.MODE, RO. -/ def STORE_FLASH_MODE : Field := ⟨.STORE_FLASH, 0, 4⟩
/-- STORE_WEAR.ERASES, RO. -/ def STORE_WEAR_ERASES : Field := ⟨.STORE_WEAR, 0, 32⟩
/-- STORE_COMMITS.COUNT, W1C. -/ def STORE_COMMITS_COUNT : Field := ⟨.STORE_COMMITS, 0, 32⟩
/-- STORE_LASTC_LO.TICK, RL. -/ def STORE_LASTC_LO_TICK : Field := ⟨.STORE_LASTC_LO, 0, 32⟩
/-- STORE_LASTC_HI.TICK, RO. -/ def STORE_LASTC_HI_TICK : Field := ⟨.STORE_LASTC_HI, 0, 32⟩
/-- STORE_FULLCNT.COUNT, W1C. -/ def STORE_FULLCNT_COUNT : Field := ⟨.STORE_FULLCNT, 0, 32⟩
/-- UPD_CFG.MODE, RW. -/ def UPD_CFG_MODE : Field := ⟨.UPD_CFG, 31, 1⟩
/-- UPD_CFG.C3FLOW, RW. -/ def UPD_CFG_C3FLOW : Field := ⟨.UPD_CFG, 16, 12⟩
/-- UPD_CFG.TRIALTO, RW. -/ def UPD_CFG_TRIALTO : Field := ⟨.UPD_CFG, 0, 16⟩
/-- UPD_CMD.KEY, WK. -/ def UPD_CMD_KEY : Field := ⟨.UPD_CMD, 24, 8⟩
/-- UPD_CMD.ACTIVATE, WK. -/ def UPD_CMD_ACTIVATE : Field := ⟨.UPD_CMD, 2, 1⟩
/-- UPD_CMD.CONFIRM, WK. -/ def UPD_CMD_CONFIRM : Field := ⟨.UPD_CMD, 1, 1⟩
/-- UPD_CMD.ABORT, WK. -/ def UPD_CMD_ABORT : Field := ⟨.UPD_CMD, 0, 1⟩
/-- UPD_STAT.STATE, RO. -/ def UPD_STAT_STATE : Field := ⟨.UPD_STAT, 28, 4⟩
/-- UPD_STAT.TRIALS, RO. -/ def UPD_STAT_TRIALS : Field := ⟨.UPD_STAT, 24, 4⟩
/-- UPD_STAT.FBVALID, RO. -/ def UPD_STAT_FBVALID : Field := ⟨.UPD_STAT, 23, 1⟩
/-- UPD_STAT.STVALID, RO. -/ def UPD_STAT_STVALID : Field := ⟨.UPD_STAT, 22, 1⟩
/-- UPD_STAT.SESSION, RO. -/ def UPD_STAT_SESSION : Field := ⟨.UPD_STAT, 21, 1⟩
/-- UPD_STAT.LANE, RO. -/ def UPD_STAT_LANE : Field := ⟨.UPD_STAT, 20, 1⟩
/-- UPD_STAT.RESULT, RO. -/ def UPD_STAT_RESULT : Field := ⟨.UPD_STAT, 16, 4⟩
/-- UPD_PROGRESS.DONE, RO. -/ def UPD_PROGRESS_DONE : Field := ⟨.UPD_PROGRESS, 16, 16⟩
/-- UPD_PROGRESS.TOTAL, RO. -/ def UPD_PROGRESS_TOTAL : Field := ⟨.UPD_PROGRESS, 0, 16⟩
/-- UPD_ACTVER.VERSION, RO. -/ def UPD_ACTVER_VERSION : Field := ⟨.UPD_ACTVER, 0, 32⟩
/-- UPD_ACTSVN01.SVN1, RO. -/ def UPD_ACTSVN01_SVN1 : Field := ⟨.UPD_ACTSVN01, 16, 16⟩
/-- UPD_ACTSVN01.SVN0, RO. -/ def UPD_ACTSVN01_SVN0 : Field := ⟨.UPD_ACTSVN01, 0, 16⟩
/-- UPD_ACTSVN23.SVN3, RO. -/ def UPD_ACTSVN23_SVN3 : Field := ⟨.UPD_ACTSVN23, 16, 16⟩
/-- UPD_ACTSVN23.SVN2, RO. -/ def UPD_ACTSVN23_SVN2 : Field := ⟨.UPD_ACTSVN23, 0, 16⟩
/-- UPD_FLOOR01.FLOOR1, RO. -/ def UPD_FLOOR01_FLOOR1 : Field := ⟨.UPD_FLOOR01, 16, 9⟩
/-- UPD_FLOOR01.FLOOR0, RO. -/ def UPD_FLOOR01_FLOOR0 : Field := ⟨.UPD_FLOOR01, 0, 9⟩
/-- UPD_FLOOR23.FLOOR3, RO. -/ def UPD_FLOOR23_FLOOR3 : Field := ⟨.UPD_FLOOR23, 16, 9⟩
/-- UPD_FLOOR23.FLOOR2, RO. -/ def UPD_FLOOR23_FLOOR2 : Field := ⟨.UPD_FLOOR23, 0, 9⟩
/-- UPD_FW.SETFMT, RO. -/ def UPD_FW_SETFMT : Field := ⟨.UPD_FW, 16, 16⟩
/-- UPD_FW.FBSETFMT, RO. -/ def UPD_FW_FBSETFMT : Field := ⟨.UPD_FW, 0, 16⟩
/-- UPD_SETSTAT.DEFAULTED, RO. -/ def UPD_SETSTAT_DEFAULTED : Field := ⟨.UPD_SETSTAT, 1, 1⟩
/-- UPD_SETSTAT.MIGRATED, RO. -/ def UPD_SETSTAT_MIGRATED : Field := ⟨.UPD_SETSTAT, 0, 1⟩
/-- UPD_SVCCNT.MACFAIL, W1C. -/ def UPD_SVCCNT_MACFAIL : Field := ⟨.UPD_SVCCNT, 16, 16⟩
/-- UPD_SVCCNT.AUTHFAIL, W1C. -/ def UPD_SVCCNT_AUTHFAIL : Field := ⟨.UPD_SVCCNT, 0, 16⟩
/-- GLB_ID.PART, RO. -/ def GLB_ID_PART : Field := ⟨.GLB_ID, 16, 16⟩
/-- GLB_ID.REVISION, RO. -/ def GLB_ID_REVISION : Field := ⟨.GLB_ID, 8, 8⟩
/-- GLB_SERIAL_LO.DEVSER, RO. -/ def GLB_SERIAL_LO_DEVSER : Field := ⟨.GLB_SERIAL_LO, 0, 32⟩
/-- GLB_SERIAL_HI.DEVSER, RO. -/ def GLB_SERIAL_HI_DEVSER : Field := ⟨.GLB_SERIAL_HI, 0, 32⟩
/-- GLB_SCRATCH.VALUE, RW. -/ def GLB_SCRATCH_VALUE : Field := ⟨.GLB_SCRATCH, 0, 32⟩
/-- GLB_STATOUT.OE, RW. -/ def GLB_STATOUT_OE : Field := ⟨.GLB_STATOUT, 8, 8⟩
/-- GLB_STATOUT.VALUE, RW. -/ def GLB_STATOUT_VALUE : Field := ⟨.GLB_STATOUT, 0, 8⟩
/-- GLB_FLTSUM.WINDOWS, RO. -/ def GLB_FLTSUM_WINDOWS : Field := ⟨.GLB_FLTSUM, 0, 18⟩
/-- GLB_FLTCORE.CORES, RO. -/ def GLB_FLTCORE_CORES : Field := ⟨.GLB_FLTCORE, 0, 26⟩
/-- GLB_FLTOUT.OUTPUTS, RO. -/ def GLB_FLTOUT_OUTPUTS : Field := ⟨.GLB_FLTOUT, 0, 32⟩
/-- GLB_FLTMISC.RASTER, RO. -/ def GLB_FLTMISC_RASTER : Field := ⟨.GLB_FLTMISC, 24, 2⟩
/-- GLB_FLTMISC.STATIONS, RO. -/ def GLB_FLTMISC_STATIONS : Field := ⟨.GLB_FLTMISC, 16, 8⟩
/-- GLB_FLTMISC.LANES, RO. -/ def GLB_FLTMISC_LANES : Field := ⟨.GLB_FLTMISC, 0, 16⟩
/-- MBX_CTL.GO, W1S. -/ def MBX_CTL_GO : Field := ⟨.MBX_CTL, 31, 1⟩
/-- MBX_CTL.CMD, RW. -/ def MBX_CTL_CMD : Field := ⟨.MBX_CTL, 0, 8⟩
/-- MBX_STAT.BUSY, RO. -/ def MBX_STAT_BUSY : Field := ⟨.MBX_STAT, 31, 1⟩
/-- MBX_STAT.DONE, W1C. -/ def MBX_STAT_DONE : Field := ⟨.MBX_STAT, 30, 1⟩
/-- MBX_STAT.STATUS, RO. -/ def MBX_STAT_STATUS : Field := ⟨.MBX_STAT, 16, 5⟩
/-- MBX_STAT.COUNT, RO. -/ def MBX_STAT_COUNT : Field := ⟨.MBX_STAT, 0, 16⟩
/-- MBX_ARG.WORD, RW. -/ def MBX_ARG_WORD : Field := ⟨.MBX_ARG, 0, 32⟩
/-- SCHED_ADDR.ADDR, RW. -/ def SCHED_ADDR_ADDR : Field := ⟨.SCHED_ADDR, 0, 16⟩
/-- SCHED_DATA.DATA, RW. -/ def SCHED_DATA_DATA : Field := ⟨.SCHED_DATA, 0, 32⟩
/-- SCHED_TICK_LO.TICK, RW. -/ def SCHED_TICK_LO_TICK : Field := ⟨.SCHED_TICK_LO, 0, 32⟩
/-- SCHED_TICK_HI.TICK, RW. -/ def SCHED_TICK_HI_TICK : Field := ⟨.SCHED_TICK_HI, 0, 32⟩
/-- SCHED_CTL.GO, W1S. -/ def SCHED_CTL_GO : Field := ⟨.SCHED_CTL, 31, 1⟩
/-- SCHED_CTL.FLUSH, W1S. -/ def SCHED_CTL_FLUSH : Field := ⟨.SCHED_CTL, 30, 1⟩
/-- SCHED_CTL.LEVEL, RO. -/ def SCHED_CTL_LEVEL : Field := ⟨.SCHED_CTL, 24, 4⟩
/-- SCHED_CTL.RESULT, RO. -/ def SCHED_CTL_RESULT : Field := ⟨.SCHED_CTL, 16, 3⟩
/-- SCHED_CTL.DROPPED, W1C. -/ def SCHED_CTL_DROPPED : Field := ⟨.SCHED_CTL, 0, 16⟩
/-- TIME_NOW_LO.COUNT, RL. -/ def TIME_NOW_LO_COUNT : Field := ⟨.TIME_NOW_LO, 0, 32⟩
/-- TIME_NOW_HI.COUNT, RO. -/ def TIME_NOW_HI_COUNT : Field := ⟨.TIME_NOW_HI, 0, 32⟩
/-- TIME_STATE.BROKEN, W1C. -/ def TIME_STATE_BROKEN : Field := ⟨.TIME_STATE, 31, 1⟩
/-- TIME_STATE.SRC, RO. -/ def TIME_STATE_SRC : Field := ⟨.TIME_STATE, 8, 8⟩
/-- TIME_STATE.COND, RO. -/ def TIME_STATE_COND : Field := ⟨.TIME_STATE, 0, 8⟩
/-- TIME_PRESET_LO.VALUE, RW. -/ def TIME_PRESET_LO_VALUE : Field := ⟨.TIME_PRESET_LO, 0, 32⟩
/-- TIME_PRESET_HI.VALUE, RW. -/ def TIME_PRESET_HI_VALUE : Field := ⟨.TIME_PRESET_HI, 0, 32⟩
/-- TIME_SYNCCFG_LO.LATENCY, RW. -/ def TIME_SYNCCFG_LO_LATENCY : Field := ⟨.TIME_SYNCCFG_LO, 16, 16⟩
/-- TIME_SYNCCFG_LO.MINW, RW. -/ def TIME_SYNCCFG_LO_MINW : Field := ⟨.TIME_SYNCCFG_LO, 0, 8⟩
/-- TIME_SYNCCFG_HI.WINDOW, RW. -/ def TIME_SYNCCFG_HI_WINDOW : Field := ⟨.TIME_SYNCCFG_HI, 0, 16⟩
/-- TIME_SYNCMASK.MASK, RW. -/ def TIME_SYNCMASK_MASK : Field := ⟨.TIME_SYNCMASK, 0, 32⟩
/-- TIME_SYNCCMD.ARM, W1S. -/ def TIME_SYNCCMD_ARM : Field := ⟨.TIME_SYNCCMD, 31, 1⟩
/-- TIME_SYNCCMD.LOAD, W1S. -/ def TIME_SYNCCMD_LOAD : Field := ⟨.TIME_SYNCCMD, 30, 1⟩
/-- TIME_SYNCCMD.CANCEL, W1S. -/ def TIME_SYNCCMD_CANCEL : Field := ⟨.TIME_SYNCCMD, 29, 1⟩
/-- TIME_SYNCCMD.LOADLOST, W1C. -/ def TIME_SYNCCMD_LOADLOST : Field := ⟨.TIME_SYNCCMD, 2, 1⟩
/-- TIME_SYNCCMD.LOADARMED, RO. -/ def TIME_SYNCCMD_LOADARMED : Field := ⟨.TIME_SYNCCMD, 1, 1⟩
/-- TIME_SYNCCMD.OPEN, RO. -/ def TIME_SYNCCMD_OPEN : Field := ⟨.TIME_SYNCCMD, 0, 1⟩
/-- TIME_SYNCSTAMP_LO.TICK, RL. -/ def TIME_SYNCSTAMP_LO_TICK : Field := ⟨.TIME_SYNCSTAMP_LO, 0, 32⟩
/-- TIME_SYNCSTAMP_HI.TICK, RO. -/ def TIME_SYNCSTAMP_HI_TICK : Field := ⟨.TIME_SYNCSTAMP_HI, 0, 32⟩
/-- TIME_SYNCSTAT.EXTRA, W1C. -/ def TIME_SYNCSTAT_EXTRA : Field := ⟨.TIME_SYNCSTAT, 16, 16⟩
/-- TIME_SYNCSTAT.SKIPPED, W1C. -/ def TIME_SYNCSTAT_SKIPPED : Field := ⟨.TIME_SYNCSTAT, 0, 16⟩
/-- TIME_LATEIN.COUNT, W1C. -/ def TIME_LATEIN_COUNT : Field := ⟨.TIME_LATEIN, 0, 32⟩
/-- TIME_HWREL_LO.TICK, RL. -/ def TIME_HWREL_LO_TICK : Field := ⟨.TIME_HWREL_LO, 0, 32⟩
/-- TIME_HWREL_HI.TICK, RO. -/ def TIME_HWREL_HI_TICK : Field := ⟨.TIME_HWREL_HI, 0, 32⟩
/-- TIME_LATECNT.COUNT, W1C. -/ def TIME_LATECNT_COUNT : Field := ⟨.TIME_LATECNT, 0, 32⟩
/-- HSPI_CFG.CRCREQ, RW. -/ def HSPI_CFG_CRCREQ : Field := ⟨.HSPI_CFG, 31, 1⟩
/-- HSPI_CFG.DUMMY, RW. -/ def HSPI_CFG_DUMMY : Field := ⟨.HSPI_CFG, 0, 4⟩
/-- HSPI_STAT.FIRSTADDR, RO. -/ def HSPI_STAT_FIRSTADDR : Field := ⟨.HSPI_STAT, 16, 16⟩
/-- HSPI_STAT.FIRSTERR, RO. -/ def HSPI_STAT_FIRSTERR : Field := ⟨.HSPI_STAT, 8, 4⟩
/-- HSPI_STAT.ERR, W1C. -/ def HSPI_STAT_ERR : Field := ⟨.HSPI_STAT, 7, 1⟩
/-- HSPI_STAT.QLEVEL, RO. -/ def HSPI_STAT_QLEVEL : Field := ⟨.HSPI_STAT, 4, 3⟩
/-- HSPI_STAT.LAST, RO. -/ def HSPI_STAT_LAST : Field := ⟨.HSPI_STAT, 0, 4⟩
/-- HSPI_CNT.CRCERR, W1C. -/ def HSPI_CNT_CRCERR : Field := ⟨.HSPI_CNT, 16, 16⟩
/-- HSPI_CNT.FRAMEERR, W1C. -/ def HSPI_CNT_FRAMEERR : Field := ⟨.HSPI_CNT, 0, 16⟩
/-- SVC_CFG.EN, RW. -/ def SVC_CFG_EN : Field := ⟨.SVC_CFG, 31, 1⟩
/-- SVC_CFG.DRV, RW. -/ def SVC_CFG_DRV : Field := ⟨.SVC_CFG, 0, 2⟩

end Fields

end Sys2Proof.Machine
end

