-- ==== Sys2Proof/Machine/Maps.lean ====
section
/-! DEFINITION. The two sparse maps of the state, each in one canonical form: the register file, keyed by register
name and instance, and word stores keyed by a plain number. An unlisted key reads its reset word; no entry equals
what an unlisted key reads, and keys rise strictly, so equal contents are equal lists. -/

namespace Sys2Proof.Machine

/-- One stored register: name, instance and word. -/
structure RegCell where
  reg : RegName
  inst : Nat
  val : Word
  deriving DecidableEq, Repr, Inhabited

/-- The register file: the registers whose word differs from its reset word. -/
abbrev RegFile := List RegCell

/-- A word store: the cells whose word is not 0, as (index, word), indices strictly rising. -/
abbrev WMap := List (Nat × Word)

/-- BAR_IN_CFG after power-on reset, by input (Table 12.4): DIR, K, HYST and LEVEL of the analogue inputs 0 to 10,
DEBOUNCE of the digital inputs 11 to 19. -/
def barInReset (i : Nat) : Word :=
  match i with
  | 4 => 0xA050017C#32 | 5 => 0xA05001DB#32 | 6 => 0xA050023A#32 | 7 => 0xA0500194#32
  | 8 => 0xA050023A#32 | 9 => 0xA0500357#32 | 10 => 0xA050017C#32
  | 18 => 1#32 | 19 => 1#32
  | _ => if i < 4 then 0x30A000DC#32 else 3#32

/-- The reset word of instance `i` of a register (the Reset columns; R17). OUT_DRV.MINPER and BAR_IN_CFG differ
between instances. -/
def resetWord (r : RegName) (i : Nat) : Word :=
  match r with
  | .OUT_DRV => if i < 8 then 0x00440078#32 else 0x008C0078#32
  | .BAR_IN_CFG => barInReset i
  | r => (regSpec r).reset

/-- The place of a register in the list of names: the order of the register file. -/
def regIndex (r : RegName) : Nat := r.ctorIdx

/-- Whether cell key (r, i) comes before (r', i'). -/
def regKeyLt (r : RegName) (i : Nat) (r' : RegName) (i' : Nat) : Bool :=
  decide (regIndex r < regIndex r') || (decide (r = r') && decide (i < i'))

/-- Read a register of the file. -/
def RegFile.get : RegFile → RegName → Nat → Word
  | [], r, i => resetWord r i
  | c :: f, r, i => if c.reg = r ∧ c.inst = i then c.val else RegFile.get f r i

/-- Drop a register from the file: it reads its reset word. -/
def RegFile.erase (f : RegFile) (r : RegName) (i : Nat) : RegFile :=
  f.filter fun c => !(decide (c.reg = r) && decide (c.inst = i))

/-- Put a cell before the first cell with a greater key. -/
def RegFile.insert : RegFile → RegCell → RegFile
  | [], c => [c]
  | d :: f, c => if regKeyLt c.reg c.inst d.reg d.inst then c :: d :: f else d :: RegFile.insert f c

/-- Write a register of the file, keeping its canonical form. -/
def RegFile.set (f : RegFile) (r : RegName) (i : Nat) (v : Word) : RegFile :=
  if v = resetWord r i then f.erase r i else (f.erase r i).insert ⟨r, i, v⟩

/-- Whether the keys of a file rise strictly. -/
def RegFile.rising : RegFile → Bool
  | [] => true
  | [_] => true
  | c :: d :: f => regKeyLt c.reg c.inst d.reg d.inst && RegFile.rising (d :: f)

/-- The canonical form of a register file. -/
def RegFile.wf (f : RegFile) : Bool :=
  f.rising && f.all fun c => c.val != resetWord c.reg c.inst

/-- Read a word of a store. -/
def WMap.get : WMap → Nat → Word
  | [], _ => 0
  | (k, v) :: m, i => if k = i then v else WMap.get m i

/-- Drop an index from a store: it reads 0. -/
def WMap.erase (m : WMap) (i : Nat) : WMap := m.filter fun c => !decide (c.1 = i)

/-- Put a cell before the first cell with a greater index. -/
def WMap.insert : WMap → Nat → Word → WMap
  | [], i, v => [(i, v)]
  | (k, w) :: m, i, v => if i < k then (i, v) :: (k, w) :: m else (k, w) :: WMap.insert m i v

/-- Write a word of a store, keeping its canonical form. -/
def WMap.set (m : WMap) (i : Nat) (v : Word) : WMap :=
  if v = 0 then m.erase i else (m.erase i).insert i v

/-- Whether the indices of a store rise strictly. -/
def WMap.rising : WMap → Bool
  | [] => true
  | [_] => true
  | a :: b :: m => decide (a.1 < b.1) && WMap.rising (b :: m)

/-- The canonical form of a word store. -/
def WMap.wf (m : WMap) : Bool := m.rising && m.all fun c => c.2 != 0

/-- The words of a store from index `i`, `n` of them. -/
def WMap.slice (m : WMap) (i n : Nat) : List Word := (List.range n).map fun k => m.get (i + k)

/-- Store a list of words from index `i` on. -/
def WMap.setMany (m : WMap) (i : Nat) : List Word → WMap
  | [] => m
  | w :: ws => (m.set i w).setMany (i + 1) ws

/-! ## Fields of a word -/

/-- Bits `lo` to `lo + width − 1` of a word, as a number. -/
def getBits (w : Word) (lo width : Nat) : Nat := (w.extractLsb' lo width).toNat

/-- The word with ones at bits `lo` to `lo + width − 1`. -/
def maskBits (lo width : Nat) : Word := BitVec.ofNat 32 ((2 ^ width - 1) * 2 ^ lo)

/-- A word with bits `lo` to `lo + width − 1` replaced by `v`. -/
def putBits (w : Word) (lo width v : Nat) : Word :=
  (w &&& ~~~ maskBits lo width) ||| (BitVec.ofNat 32 (v % 2 ^ width * 2 ^ lo))

/-- Bit `n` of a word. -/
def bitOf (w : Word) (n : Nat) : Bool := w.getLsbD n

/-- A word with bit `n` set to `b`. -/
def setBit (w : Word) (n : Nat) (b : Bool) : Word := putBits w n 1 b.toNat

/-- A signed number as a 32-bit two's complement word. -/
def wordOfInt (z : Int) : Word := BitVec.ofInt 32 z

/-- A word read as a signed number. -/
def intOfWord (w : Word) : Int := w.toInt

/-- The indices below `n` of the bits set in a word, in ascending order. -/
def bitsOf (w : Word) (n : Nat) : List Nat := (List.range n).filter fun i => bitOf w i

/-- The low and the high word of a 64-bit quantity (R15). -/
def loWord (n : Nat) : Word := BitVec.ofNat 32 n
def hiWord (n : Nat) : Word := BitVec.ofNat 32 (n / 2 ^ 32)

/-- A 64-bit quantity from its two words (R15). -/
def ofWords (lo hi : Word) : Nat := lo.toNat + hi.toNat * 2 ^ 32

/-- Saturating increment of a counter of `width` bits. -/
def satAdd (v width k : Nat) : Nat := min (v + k) (2 ^ width - 1)

end Sys2Proof.Machine
end

