-- ==== Sys2Proof/Machine/Quilvo.lean ====
section
/-! DEFINITION. The Quilvo instruction word (spec/06, R255 to R257, Tables 6.3 to 6.12): the instructions, their
encoding and their decoding. A word that no instruction encodes to is ILLEGAL. -/

namespace Sys2Proof.Machine

/-- The guard of an instruction (R256): it executes when the value of p_P exclusive-ORed with N is 1. -/
structure Guard where
  neg : Bool
  p : BitVec 2
  deriving DecidableEq, Repr, Inhabited

/-- The condition codes of CMP and CMPI. -/
inductive Cond where
  | eq | ne | lt | ge | ltu | geu
  deriving DecidableEq, Repr, Inhabited

/-- The condition codes TCMP admits: t registers compare unsigned (R246). -/
inductive TCond where
  | eq | ne | ltu | geu
  deriving DecidableEq, Repr, Inhabited

/-- FN of PLOG. -/
inductive LogFn where
  | and | or | xor
  deriving DecidableEq, Repr, Inhabited

/-- HINT of BR (R286). -/
inductive Hint where
  | none | taken | notTaken
  deriving DecidableEq, Repr, Inhabited

/-- SL, a slot of STN_MAP. -/
inductive Slot where
  | s0 | s1 | s2
  deriving DecidableEq, Repr, Inhabited

/-- The operation of SYSREF (Table 6.11). -/
inductive SysOp where
  | request | enable | disable
  deriving DecidableEq, Repr, Inhabited

/-- The profile of a hop: immediate (RP = 0) or a g register (RP = 1). -/
inductive ProfArg where
  | imm (p : BitVec 12)
  | reg (ra : BitVec 4)
  deriving DecidableEq, Repr, Inhabited

/-- The source of LDLC: immediate (RS = 0) or a g register (RS = 1). -/
inductive CountArg where
  | imm (n : BitVec 16)
  | reg (ra : BitVec 4)
  deriving DecidableEq, Repr, Inhabited

/-- The Quilvo operations (Tables 6.5 to 6.12), one constructor each, with their fields below GD. -/
inductive QOp where
  | nop
  | halt (tr : BitVec 2)
  | idle (tr : BitVec 2) (sl : Slot) (w : BitVec 16)
  | add (rd ra rb : BitVec 4)
  | sub (rd ra rb : BitVec 4)
  | and (rd ra rb : BitVec 4)
  | or (rd ra rb : BitVec 4)
  | xor (rd ra rb : BitVec 4)
  | shl (rd ra rb : BitVec 4)
  | shr (rd ra rb : BitVec 4)
  | addi (rd ra : BitVec 4) (imm : BitVec 15)
  | andi (rd ra : BitVec 4) (imm : BitVec 15)
  | ori (rd ra : BitVec 4) (imm : BitVec 15)
  | xori (rd ra : BitVec 4) (imm : BitVec 15)
  | shli (rd ra : BitVec 4) (sh : BitVec 5)
  | shri (rd ra : BitVec 4) (sh : BitVec 5)
  | ldi (rd : BitVec 4) (hi : Bool) (imm : BitVec 16)
  | cmp (pd : BitVec 2) (cc : Cond) (ra rb : BitVec 4)
  | cmpi (pd : BitVec 2) (cc : Cond) (ra : BitVec 4) (imm : BitVec 14)
  | plog (pd pa pb : BitVec 2) (na nb : Bool) (fn : LogFn)
  | taddi (td ts : BitVec 2) (imm : BitVec 19)
  | taddr (td ts : BitVec 2) (ra : BitVec 4) (sh : BitVec 5)
  | tset (td : BitVec 2) (ra rb : BitVec 4)
  | tget (rd : BitVec 4) (ts : BitVec 2) (hi : Bool)
  | tcmp (pd ta tb : BitVec 2) (cc : TCond)
  | evtst (pd tr : BitVec 2) (src : BitVec 7) (keep : Bool)
  | waite (pd td tr : BitVec 2) (src : BitVec 7) (keep : Bool)
  | evcnt (rd : BitVec 4) (tr : BitVec 2) (src : BitVec 7) (keep : Bool)
  | evdata (rd : BitVec 4) (src : BitVec 7)
  | br (hint : Hint) (tgt : BitVec 14)
  | call (tgt : BitVec 14)
  | ret
  | loop (lc : BitVec 1) (tgt : BitVec 14)
  | ldlc (lc : BitVec 1) (arg : CountArg)
  | lkmov (toLk : Bool) (rr : BitVec 4)
  | swap (tr : BitVec 2) (sl : Slot) (prof : ProfArg)
  | cold (tr : BitVec 2) (sl : Slot) (prof : ProfArg)
  | glide (tr : BitVec 2) (sl : Slot) (prof : ProfArg)
  | outg (tr : BitVec 2) (ra : BitVec 4) (ungate : Bool)
  | dset (tr : BitVec 2) (ra : BitVec 4) (set : BitVec 2)
  | divrst (tr : BitVec 2) (ra : BitVec 4)
  | sysref (tr : BitVec 2) (ra : BitVec 4) (op : SysOp)
  | stat (tr : BitVec 2) (mask value : BitVec 8)
  | send0 (tr : BitVec 2) (ra rb : BitVec 4) (tc : BitVec 2) (slot : BitVec 6)
  | send1 (tr : BitVec 2) (ra rb : BitVec 4) (tc : BitVec 2)
  deriving DecidableEq, Repr, Inhabited

/-- An instruction: its guard and its operation. -/
structure QInstr where
  guard : Guard
  op : QOp
  deriving DecidableEq, Repr, Inhabited

/-! ## Codes -/

def Cond.code : Cond → BitVec 3
  | .eq => 0 | .ne => 1 | .lt => 2 | .ge => 3 | .ltu => 4 | .geu => 5

def Cond.ofCode (c : BitVec 3) : Option Cond :=
  match c.toNat with
  | 0 => some .eq | 1 => some .ne | 2 => some .lt | 3 => some .ge | 4 => some .ltu | 5 => some .geu
  | _ => none

def TCond.code : TCond → BitVec 3
  | .eq => 0 | .ne => 1 | .ltu => 4 | .geu => 5

def TCond.ofCode (c : BitVec 3) : Option TCond :=
  match c.toNat with
  | 0 => some .eq | 1 => some .ne | 4 => some .ltu | 5 => some .geu
  | _ => none

def LogFn.code : LogFn → BitVec 2
  | .and => 0 | .or => 1 | .xor => 2

def LogFn.ofCode (c : BitVec 2) : Option LogFn :=
  match c.toNat with
  | 0 => some .and | 1 => some .or | 2 => some .xor
  | _ => none

def Hint.code : Hint → BitVec 2
  | .none => 0 | .taken => 1 | .notTaken => 2

def Hint.ofCode (c : BitVec 2) : Option Hint :=
  match c.toNat with
  | 0 => some .none | 1 => some .taken | 2 => some .notTaken
  | _ => Option.none

def Slot.code : Slot → BitVec 2
  | .s0 => 0 | .s1 => 1 | .s2 => 2

/-- SL = 3 is reserved in every instruction (R257). -/
def Slot.ofCode (c : BitVec 2) : Option Slot :=
  match c.toNat with
  | 0 => some .s0 | 1 => some .s1 | 2 => some .s2
  | _ => none

def Slot.index : Slot → Nat
  | .s0 => 0 | .s1 => 1 | .s2 => 2

def SysOp.code : SysOp → BitVec 2
  | .request => 0 | .enable => 1 | .disable => 2

def SysOp.ofCode (c : BitVec 2) : Option SysOp :=
  match c.toNat with
  | 0 => some .request | 1 => some .enable | 2 => some .disable
  | _ => none

def Guard.bits (g : Guard) : BitVec 3 := BitVec.ofBool g.neg ++ g.p

/-- GD = 0b100 is ILLEGAL (R256). -/
def Guard.ofBits (b : BitVec 3) : Option Guard := if b = 4#3 then none else some ⟨b.msb, b.extractLsb' 0 2⟩

/-- The opcodes OP (Table 6.4). -/
def QOp.opcode : QOp → BitVec 6
  | .nop => 0x01 | .halt .. => 0x02 | .idle .. => 0x03
  | .add .. => 0x04 | .sub .. => 0x05 | .and .. => 0x06 | .or .. => 0x07 | .xor .. => 0x08 | .shl .. => 0x09
  | .shr .. => 0x0A | .addi .. => 0x0B | .andi .. => 0x0C | .ori .. => 0x0D | .xori .. => 0x0E | .shli .. => 0x0F
  | .shri .. => 0x10 | .ldi .. => 0x11 | .cmp .. => 0x12 | .cmpi .. => 0x13 | .plog .. => 0x14
  | .taddi .. => 0x18 | .taddr .. => 0x19 | .tset .. => 0x1A | .tget .. => 0x1B | .tcmp .. => 0x1C
  | .evtst .. => 0x20 | .waite .. => 0x21 | .evcnt .. => 0x22 | .evdata .. => 0x23
  | .br .. => 0x28 | .call .. => 0x29 | .ret => 0x2A | .loop .. => 0x2B | .ldlc .. => 0x2C | .lkmov .. => 0x2D
  | .swap .. => 0x30 | .cold .. => 0x31 | .glide .. => 0x32
  | .outg .. => 0x34 | .dset .. => 0x35 | .divrst .. => 0x36 | .sysref .. => 0x37
  | .stat .. => 0x38 | .send0 .. => 0x3A | .send1 .. => 0x3B

/-! ## Encoding (Tables 6.3, 6.7 to 6.12) -/

/-- The fields of a hop (format H). -/
def hopBits (tr : BitVec 2) (sl : Slot) (prof : ProfArg) : BitVec 23 :=
  match prof with
  | .imm p => tr ++ sl.code ++ 0#1 ++ 0#4 ++ 0#2 ++ p
  | .reg ra => tr ++ sl.code ++ 1#1 ++ ra ++ 0#2 ++ 0#12

/-- Bits 22 to 0 of an instruction word. -/
def QOp.fields : QOp → BitVec 23
  | .nop => 0#23
  | .halt tr => tr ++ 0#21
  | .idle tr sl w => tr ++ sl.code ++ 0#3 ++ w
  | .add rd ra rb | .sub rd ra rb | .and rd ra rb | .or rd ra rb | .xor rd ra rb | .shl rd ra rb | .shr rd ra rb =>
    rd ++ ra ++ rb ++ 0#11
  | .addi rd ra imm | .andi rd ra imm | .ori rd ra imm | .xori rd ra imm => rd ++ ra ++ imm
  | .shli rd ra sh | .shri rd ra sh => rd ++ ra ++ 0#10 ++ sh
  | .ldi rd hi imm => rd ++ BitVec.ofBool hi ++ 0#2 ++ imm
  | .cmp pd cc ra rb => pd ++ cc.code ++ ra ++ rb ++ 0#10
  | .cmpi pd cc ra imm => pd ++ cc.code ++ ra ++ imm
  | .plog pd pa pb na nb fn => pd ++ pa ++ pb ++ BitVec.ofBool na ++ BitVec.ofBool nb ++ fn.code ++ 0#13
  | .taddi td ts imm => td ++ ts ++ imm
  | .taddr td ts ra sh => td ++ ts ++ ra ++ sh ++ 0#10
  | .tset td ra rb => td ++ 0#2 ++ ra ++ rb ++ 0#11
  | .tget rd ts hi => rd ++ ts ++ BitVec.ofBool hi ++ 0#16
  | .tcmp pd ta tb cc => pd ++ ta ++ tb ++ cc.code ++ 0#14
  | .evtst pd tr src keep => pd ++ tr ++ src ++ 0#4 ++ BitVec.ofBool keep ++ 0#7
  | .waite pd td tr src keep => pd ++ tr ++ src ++ td ++ 0#2 ++ BitVec.ofBool keep ++ 0#7
  | .evcnt rd tr src keep => 0#2 ++ tr ++ src ++ rd ++ BitVec.ofBool keep ++ 0#7
  | .evdata rd src => 0#4 ++ src ++ rd ++ 0#8
  | .br hint tgt => hint.code ++ 0#7 ++ tgt
  | .call tgt => 0#9 ++ tgt
  | .ret => 0#23
  | .loop lc tgt => lc ++ 0#8 ++ tgt
  | .ldlc lc arg =>
    match arg with
    | .imm n => lc ++ 0#1 ++ 0#4 ++ 0#1 ++ n
    | .reg ra => lc ++ 1#1 ++ ra ++ 0#1 ++ 0#16
  | .lkmov toLk rr => BitVec.ofBool toLk ++ rr ++ 0#18
  | .swap tr sl prof | .cold tr sl prof | .glide tr sl prof => hopBits tr sl prof
  | .outg tr ra ungate => tr ++ ra ++ 0#16 ++ BitVec.ofBool ungate
  | .dset tr ra set => tr ++ ra ++ 0#15 ++ set
  | .divrst tr ra => tr ++ ra ++ 0#17
  | .sysref tr ra op => tr ++ ra ++ 0#15 ++ op.code
  | .stat tr mask value => tr ++ 0#5 ++ mask ++ value
  | .send0 tr ra rb tc slot => tr ++ ra ++ rb ++ tc ++ 0#5 ++ slot
  | .send1 tr ra rb tc => tr ++ ra ++ rb ++ tc ++ 0#11

/-- The word of an instruction (R255). -/
def QInstr.encode (i : QInstr) : Word := i.op.opcode ++ i.guard.bits ++ i.op.fields

/-! ## Decoding -/

/-- Bits `lo` to `lo + n − 1` of the fields. -/
abbrev fldBits (f : BitVec 23) (lo n : Nat) : BitVec n := f.extractLsb' lo n

/-- One bit of the fields as a flag. -/
abbrev fldBit (f : BitVec 23) (lo : Nat) : Bool := f.getLsbD lo

/-- Keep an operation only when the fields marked 0 are 0 (R257). -/
def keepIf (b : Bool) (op : QOp) : Option QOp := if b then some op else none

/-- The event source of an event instruction is not reserved (R250). -/
def srcOk (src : BitVec 7) : Bool := decide (src.toNat < 95)

/-- The profile operand of a hop. -/
def decodeProf (f : BitVec 23) : Option ProfArg :=
  if fldBits f 12 2 = 0#2 then
    if fldBit f 18 then (if fldBits f 0 12 = 0#12 then some (.reg (fldBits f 14 4)) else none)
    else if fldBits f 14 4 = 0#4 then some (.imm (fldBits f 0 12)) else none
  else none

/-- A hop's fields. -/
def decodeHop (f : BitVec 23) (mk : BitVec 2 → Slot → ProfArg → QOp) : Option QOp :=
  match Slot.ofCode (fldBits f 19 2), decodeProf f with
  | some sl, some p => some (mk (fldBits f 21 2) sl p)
  | _, _ => none

/-- Format R. -/
def decodeR (f : BitVec 23) (mk : BitVec 4 → BitVec 4 → BitVec 4 → QOp) : Option QOp :=
  keepIf (fldBits f 0 11 == 0#11) (mk (fldBits f 19 4) (fldBits f 15 4) (fldBits f 11 4))

/-- Format I with a 15-bit immediate. -/
def decodeI (f : BitVec 23) (mk : BitVec 4 → BitVec 4 → BitVec 15 → QOp) : Option QOp :=
  some (mk (fldBits f 19 4) (fldBits f 15 4) (fldBits f 0 15))

/-- Format I with a 5-bit shift. -/
def decodeSh (f : BitVec 23) (mk : BitVec 4 → BitVec 4 → BitVec 5 → QOp) : Option QOp :=
  keepIf (fldBits f 5 10 == 0#10) (mk (fldBits f 19 4) (fldBits f 15 4) (fldBits f 0 5))

/-- The operation that an opcode and the fields below GD spell (R257). -/
def decodeOp (op : BitVec 6) (f : BitVec 23) : Option QOp :=
  match op.toNat with
  | 0x01 => keepIf (f == 0#23) .nop
  | 0x02 => keepIf (fldBits f 0 21 == 0#21) (.halt (fldBits f 21 2))
  | 0x03 =>
    match Slot.ofCode (fldBits f 19 2) with
    | some sl => keepIf (fldBits f 16 3 == 0#3 && fldBits f 0 16 != 0#16) (.idle (fldBits f 21 2) sl (fldBits f 0 16))
    | none => none
  | 0x04 => decodeR f .add
  | 0x05 => decodeR f .sub
  | 0x06 => decodeR f .and
  | 0x07 => decodeR f .or
  | 0x08 => decodeR f .xor
  | 0x09 => decodeR f .shl
  | 0x0A => decodeR f .shr
  | 0x0B => decodeI f .addi
  | 0x0C => decodeI f .andi
  | 0x0D => decodeI f .ori
  | 0x0E => decodeI f .xori
  | 0x0F => decodeSh f .shli
  | 0x10 => decodeSh f .shri
  | 0x11 => keepIf (fldBits f 16 2 == 0#2) (.ldi (fldBits f 19 4) (fldBit f 18) (fldBits f 0 16))
  | 0x12 =>
    match Cond.ofCode (fldBits f 18 3) with
    | some cc => keepIf (fldBits f 0 10 == 0#10) (.cmp (fldBits f 21 2) cc (fldBits f 14 4) (fldBits f 10 4))
    | none => none
  | 0x13 =>
    match Cond.ofCode (fldBits f 18 3) with
    | some cc => some (.cmpi (fldBits f 21 2) cc (fldBits f 14 4) (fldBits f 0 14))
    | none => none
  | 0x14 =>
    match LogFn.ofCode (fldBits f 13 2) with
    | some fn => keepIf (fldBits f 0 13 == 0#13)
        (.plog (fldBits f 21 2) (fldBits f 19 2) (fldBits f 17 2) (fldBit f 16) (fldBit f 15) fn)
    | none => none
  | 0x18 => some (.taddi (fldBits f 21 2) (fldBits f 19 2) (fldBits f 0 19))
  | 0x19 => keepIf (fldBits f 0 10 == 0#10)
      (.taddr (fldBits f 21 2) (fldBits f 19 2) (fldBits f 15 4) (fldBits f 10 5))
  | 0x1A => keepIf (fldBits f 19 2 == 0#2 && fldBits f 0 11 == 0#11)
      (.tset (fldBits f 21 2) (fldBits f 15 4) (fldBits f 11 4))
  | 0x1B => keepIf (fldBits f 0 16 == 0#16) (.tget (fldBits f 19 4) (fldBits f 17 2) (fldBit f 16))
  | 0x1C =>
    match TCond.ofCode (fldBits f 14 3) with
    | some cc => keepIf (fldBits f 0 14 == 0#14) (.tcmp (fldBits f 21 2) (fldBits f 19 2) (fldBits f 17 2) cc)
    | none => none
  | 0x20 => keepIf (srcOk (fldBits f 12 7) && fldBits f 8 4 == 0#4 && fldBits f 0 7 == 0#7)
      (.evtst (fldBits f 21 2) (fldBits f 19 2) (fldBits f 12 7) (fldBit f 7))
  | 0x21 => keepIf (srcOk (fldBits f 12 7) && fldBits f 8 2 == 0#2 && fldBits f 0 7 == 0#7)
      (.waite (fldBits f 21 2) (fldBits f 10 2) (fldBits f 19 2) (fldBits f 12 7) (fldBit f 7))
  | 0x22 => keepIf (srcOk (fldBits f 12 7) && fldBits f 21 2 == 0#2 && fldBits f 0 7 == 0#7)
      (.evcnt (fldBits f 8 4) (fldBits f 19 2) (fldBits f 12 7) (fldBit f 7))
  | 0x23 => keepIf (srcOk (fldBits f 12 7) && fldBits f 19 4 == 0#4 && fldBits f 0 8 == 0#8)
      (.evdata (fldBits f 8 4) (fldBits f 12 7))
  | 0x28 =>
    match Hint.ofCode (fldBits f 21 2) with
    | some h => keepIf (fldBits f 14 7 == 0#7) (.br h (fldBits f 0 14))
    | none => none
  | 0x29 => keepIf (fldBits f 14 9 == 0#9) (.call (fldBits f 0 14))
  | 0x2A => keepIf (f == 0#23) .ret
  | 0x2B => keepIf (fldBits f 14 8 == 0#8) (.loop (fldBits f 22 1) (fldBits f 0 14))
  | 0x2C =>
    if fldBits f 16 1 = 0#1 then
      if fldBit f 21 then keepIf (fldBits f 0 16 == 0#16) (.ldlc (fldBits f 22 1) (.reg (fldBits f 17 4)))
      else keepIf (fldBits f 17 4 == 0#4) (.ldlc (fldBits f 22 1) (.imm (fldBits f 0 16)))
    else none
  | 0x2D => keepIf (fldBits f 0 18 == 0#18) (.lkmov (fldBit f 22) (fldBits f 18 4))
  | 0x30 => decodeHop f .swap
  | 0x31 => decodeHop f .cold
  | 0x32 => decodeHop f .glide
  | 0x34 => keepIf (fldBits f 1 16 == 0#16) (.outg (fldBits f 21 2) (fldBits f 17 4) (fldBit f 0))
  | 0x35 => keepIf (fldBits f 2 15 == 0#15) (.dset (fldBits f 21 2) (fldBits f 17 4) (fldBits f 0 2))
  | 0x36 => keepIf (fldBits f 0 17 == 0#17) (.divrst (fldBits f 21 2) (fldBits f 17 4))
  | 0x37 =>
    match SysOp.ofCode (fldBits f 0 2) with
    | some o => keepIf (fldBits f 2 15 == 0#15) (.sysref (fldBits f 21 2) (fldBits f 17 4) o)
    | none => none
  | 0x38 => keepIf (fldBits f 16 5 == 0#5) (.stat (fldBits f 21 2) (fldBits f 8 8) (fldBits f 0 8))
  | 0x3A => keepIf (fldBits f 6 5 == 0#5)
      (.send0 (fldBits f 21 2) (fldBits f 17 4) (fldBits f 13 4) (fldBits f 11 2) (fldBits f 0 6))
  | 0x3B => keepIf (fldBits f 0 11 == 0#11)
      (.send1 (fldBits f 21 2) (fldBits f 17 4) (fldBits f 13 4) (fldBits f 11 2))
  | _ => none

/-- The instruction a word spells; none where the word is ILLEGAL by its encoding (R256, R257). -/
def decodeQ (w : Word) : Option QInstr :=
  match Guard.ofBits (w.extractLsb' 23 3), decodeOp (w.extractLsb' 26 6) (w.extractLsb' 0 23) with
  | some g, some op => some ⟨g, op⟩
  | _, _ => none

/-- An operation whose fields hold no reserved value (R250, Table 6.12). -/
def QOp.wf : QOp → Bool
  | .idle _ _ w => w != 0#16
  | .evtst _ _ src _ | .waite _ _ _ src _ | .evcnt _ _ src _ | .evdata _ src => srcOk src
  | _ => true

/-- A well-formed instruction: its guard is not 0b100 and its operation is well formed. -/
def QInstr.wf (i : QInstr) : Bool := !(i.guard.neg && i.guard.p == 0#2) && i.op.wf

end Sys2Proof.Machine
end

