-- ==== Sys2Proof/Machine/Sources.lean ====
section
/-! DEFINITION. The fault sources of the engine (R497, R498, Table 13.1): identifiers, default classes, which classes
are fixed, which sources are level sources (R500), and which take injection (Table 13.4). -/

namespace Sys2Proof.Machine

/-- A fault identifier: block code, instance and source bit (R497). -/
structure Fid where
  code : Nat
  inst : Nat
  bit : Nat
  deriving DecidableEq, Repr, Inhabited

/-- The 16 bits of a fault identifier (R497). -/
def fidBits (f : Fid) : Nat := f.code % 64 * 1024 + f.inst % 32 * 32 + f.bit % 32

/-- How many windows each block code has (Table 13.1). -/
def windowInstances (code : Nat) : Nat :=
  match code with
  | 3 => 26 | 4 => 8 | 6 => 32 | 7 => 16 | 14 => 2
  | _ => if code < 18 then 1 else 0

/-- The place of a block's first window among the 97 windows of Table 13.1, in the order of the table's codes. -/
def windowBase (code : Nat) : Nat :=
  match code with
  | 0 => 0 | 1 => 1 | 2 => 2 | 3 => 3 | 4 => 29 | 5 => 37 | 6 => 38 | 7 => 70 | 8 => 86 | 9 => 87 | 10 => 88
  | 11 => 89 | 12 => 90 | 13 => 91 | 14 => 92 | 15 => 94 | 16 => 95 | 17 => 96
  | _ => 97

/-- The window of instance `inst` of a block. -/
def windowIndex (code inst : Nat) : Nat := if inst < windowInstances code then windowBase code + inst else 97

/-- The block code and instance of a window. -/
def windowOf (w : Nat) : Nat × Nat :=
  if w < 3 then (w, 0) else if w < 29 then (3, w - 3) else if w < 37 then (4, w - 29) else if w < 38 then (5, 0)
  else if w < 70 then (6, w - 38) else if w < 86 then (7, w - 70) else if w < 92 then (w - 78, 0)
  else if w < 94 then (14, w - 92) else (w - 79, 0)

/-- The byte address at which a block's fault window starts (Table 13.1). -/
def windowAddr (code inst : Nat) : Nat :=
  match code with
  | 0 => 0x30 | 1 => 0x130 | 2 => 0x230 | 3 => 0x430 + inst * 0x40 | 4 => 0xB30 + inst * 0x40 | 5 => 0xD30
  | 6 => 0x1030 + inst * 0x40 | 7 => 0x1830 + inst * 0x40 | 8 => 0x1C30 | 9 => 0x1D30 | 10 => 0x1E30 | 11 => 0x2030
  | 12 => 0x2430 | 13 => 0x2530 | 14 => 0xB0 + inst * 0x40 | 15 => 0x4030 | 16 => 0x4070 | _ => 0x40B0

/-- The default classes of a window's sources 0 to 15 and 16 to 31, two bits each, by block code: the tables that
Table 13.1 names. -/
def defaultSev (code : Nat) : Word × Word :=
  match code with
  | 0 => (0x00000DFA#32, 0x00000000#32)
  | 1 => (0x00000054#32, 0xAAAA8000#32)
  | 2 => (0x5A5A0155#32, 0x00000000#32)
  | 3 => (0x00000A69#32, 0x00000000#32)
  | 4 => (0x00000515#32, 0x00000000#32)
  | 5 => (0x001AAAAA#32, 0x55555555#32)
  | 6 => (0x00000455#32, 0x00000000#32)
  | 7 => (0x00015955#32, 0x00000000#32)
  | 8 => (0x00000555#32, 0x00000000#32)
  | 9 => (0x00005554#32, 0x00000000#32)
  | 10 => (0x00000018#32, 0x00000000#32)
  | 11 => (0x00000045#32, 0x00000000#32)
  | 12 => (0x00015554#32, 0x00000000#32)
  | 13 => (0x00000010#32, 0x00000000#32)
  | 14 => (0x00000005#32, 0x00000000#32)
  | 15 => (0x00000148#32, 0x00000000#32)
  | 16 => (0x00000008#32, 0x00000000#32)
  | 17 => (0x00000008#32, 0x00000000#32)
  | _ => (0, 0)

/-- The sources of fixed class, by block code. -/
def fixedSources (code : Nat) : Word :=
  match code with
  | 0 => 0x0000001F#32
  | 1 => 0x00000000#32
  | 2 => 0x0000F300#32
  | 3 => 0x00000030#32
  | 4 => 0x00000000#32
  | 5 => 0x000003FF#32
  | 6 => 0x00000020#32
  | 7 => 0x00000020#32
  | 8 => 0x00000000#32
  | 9 => 0x00000080#32
  | 10 => 0x00000006#32
  | 11 => 0x00000008#32
  | 12 => 0x00000007#32
  | 13 => 0x00000000#32
  | 14 => 0x00000000#32
  | 15 => 0x00000003#32
  | 16 => 0x00000003#32
  | 17 => 0x00000003#32
  | _ => 0

/-- The level sources (R500), by block code. -/
def levelSources (code : Nat) : Word :=
  match code with
  | 0 => 0x00000020#32
  | 1 => 0x0000000E#32
  | 2 => 0x0000001F#32
  | 3 => 0x00000008#32
  | 4 => 0x00000010#32
  | 6 => 0x00000008#32
  | 7 => 0x00000091#32
  | 8 => 0x0000000F#32
  | 9 => 0x00000005#32
  | 11 => 0x00000003#32
  | 12 => 0x00000008#32
  | _ => 0

/-- The sources that take injection (Table 13.4), by block code. -/
def injectable (code : Nat) : Word :=
  match code with
  | 0 => 0x0000000D#32
  | 3 => 0x00000020#32
  | 5 => 0x000003FF#32
  | 6 => 0x00000020#32
  | 10 => 0x00000004#32
  | 12 => 0x00000003#32
  | 15 => 0x00000003#32
  | 16 => 0x00000003#32
  | 17 => 0x00000003#32
  | _ => 0

namespace Src

/-- MGMT_CHECK of block 0. -/ def glb_MGMT_CHECK : Fid := ⟨0, 0, 0⟩
/-- MGMT_WATCHDOG of block 0. -/ def glb_MGMT_WATCHDOG : Fid := ⟨0, 0, 1⟩
/-- CFG_PARITY of block 0. -/ def glb_CFG_PARITY : Fid := ⟨0, 0, 2⟩
/-- RELEASE_CHECK of block 0. -/ def glb_RELEASE_CHECK : Fid := ⟨0, 0, 3⟩
/-- LANECTL_CHECK of block 0. -/ def glb_LANECTL_CHECK : Fid := ⟨0, 0, 4⟩
/-- SUPPLY_UV of block 0. -/ def glb_SUPPLY_UV : Fid := ⟨0, 0, 5⟩
/-- KEYED_WRITE of block 0. -/ def glb_KEYED_WRITE : Fid := ⟨0, 0, 6⟩
/-- SCHED_REFUSED of block 0. -/ def glb_SCHED_REFUSED : Fid := ⟨0, 0, 7⟩
/-- LATE_IN of block 1. -/ def time_LATE_IN : Fid := ⟨1, 0, 0⟩
/-- BROKEN of block 1. -/ def time_BROKEN : Fid := ⟨1, 0, 1⟩
/-- UNSTEERED of block 1. -/ def time_UNSTEERED : Fid := ⟨1, 0, 2⟩
/-- STOPPED of block 1. -/ def time_STOPPED : Fid := ⟨1, 0, 3⟩
/-- SYNC_EXTRA of block 1. -/ def time_SYNC_EXTRA : Fid := ⟨1, 0, 4⟩
/-- SYNC_SKIPPED of block 1. -/ def time_SYNC_SKIPPED : Fid := ⟨1, 0, 5⟩
/-- TRIG0_OVERRUN of block 1. -/ def time_TRIG0_OVERRUN : Fid := ⟨1, 0, 14⟩
/-- TRIG1_OVERRUN of block 1. -/ def time_TRIG1_OVERRUN : Fid := ⟨1, 0, 15⟩
/-- TRIG2_OVERRUN of block 1. -/ def time_TRIG2_OVERRUN : Fid := ⟨1, 0, 16⟩
/-- TRIG3_OVERRUN of block 1. -/ def time_TRIG3_OVERRUN : Fid := ⟨1, 0, 17⟩
/-- TRIG4_OVERRUN of block 1. -/ def time_TRIG4_OVERRUN : Fid := ⟨1, 0, 18⟩
/-- TRIG5_OVERRUN of block 1. -/ def time_TRIG5_OVERRUN : Fid := ⟨1, 0, 19⟩
/-- TRIG6_OVERRUN of block 1. -/ def time_TRIG6_OVERRUN : Fid := ⟨1, 0, 20⟩
/-- TRIG7_OVERRUN of block 1. -/ def time_TRIG7_OVERRUN : Fid := ⟨1, 0, 21⟩
/-- SYNC_OVERRUN of block 1. -/ def time_SYNC_OVERRUN : Fid := ⟨1, 0, 22⟩
/-- TRIG0_STUCK of block 1. -/ def time_TRIG0_STUCK : Fid := ⟨1, 0, 23⟩
/-- TRIG1_STUCK of block 1. -/ def time_TRIG1_STUCK : Fid := ⟨1, 0, 24⟩
/-- TRIG2_STUCK of block 1. -/ def time_TRIG2_STUCK : Fid := ⟨1, 0, 25⟩
/-- TRIG3_STUCK of block 1. -/ def time_TRIG3_STUCK : Fid := ⟨1, 0, 26⟩
/-- TRIG4_STUCK of block 1. -/ def time_TRIG4_STUCK : Fid := ⟨1, 0, 27⟩
/-- TRIG5_STUCK of block 1. -/ def time_TRIG5_STUCK : Fid := ⟨1, 0, 28⟩
/-- TRIG6_STUCK of block 1. -/ def time_TRIG6_STUCK : Fid := ⟨1, 0, 29⟩
/-- TRIG7_STUCK of block 1. -/ def time_TRIG7_STUCK : Fid := ⟨1, 0, 30⟩
/-- SYNC_STUCK of block 1. -/ def time_SYNC_STUCK : Fid := ⟨1, 0, 31⟩
/-- REFA_DQ of block 2. -/ def anc_REFA_DQ : Fid := ⟨2, 0, 0⟩
/-- REFB_DQ of block 2. -/ def anc_REFB_DQ : Fid := ⟨2, 0, 1⟩
/-- REFC_DQ of block 2. -/ def anc_REFC_DQ : Fid := ⟨2, 0, 2⟩
/-- REFD_DQ of block 2. -/ def anc_REFD_DQ : Fid := ⟨2, 0, 3⟩
/-- REFCAL_DQ of block 2. -/ def anc_REFCAL_DQ : Fid := ⟨2, 0, 4⟩
/-- ANCA_INNER_LOST of block 2. -/ def anc_ANCA_INNER_LOST : Fid := ⟨2, 0, 8⟩
/-- ANCB_INNER_LOST of block 2. -/ def anc_ANCB_INNER_LOST : Fid := ⟨2, 0, 9⟩
/-- ANCA_OUTER_LOST of block 2. -/ def anc_ANCA_OUTER_LOST : Fid := ⟨2, 0, 10⟩
/-- ANCB_OUTER_LOST of block 2. -/ def anc_ANCB_OUTER_LOST : Fid := ⟨2, 0, 11⟩
/-- ALIGN_TRIP of block 2. -/ def anc_ALIGN_TRIP : Fid := ⟨2, 0, 12⟩
/-- COUNT_MISMATCH of block 2. -/ def anc_COUNT_MISMATCH : Fid := ⟨2, 0, 13⟩
/-- ANCA_TDC_FENCED of block 2. -/ def anc_ANCA_TDC_FENCED : Fid := ⟨2, 0, 14⟩
/-- ANCB_TDC_FENCED of block 2. -/ def anc_ANCB_TDC_FENCED : Fid := ⟨2, 0, 15⟩
/-- TRANSFER of block 2. -/ def anc_TRANSFER : Fid := ⟨2, 0, 16⟩
/-- LOCK_LOST of instance n of block 3. -/ def core_LOCK_LOST (n : Nat) : Fid := ⟨3, n, 0⟩
/-- NO_LOCK of instance n of block 3. -/ def core_NO_LOCK (n : Nat) : Fid := ⟨3, n, 1⟩
/-- BAND_RANGE of instance n of block 3. -/ def core_BAND_RANGE (n : Nat) : Fid := ⟨3, n, 2⟩
/-- MARGIN_LOW of instance n of block 3. -/ def core_MARGIN_LOW (n : Nat) : Fid := ⟨3, n, 3⟩
/-- TDC_CHECK of instance n of block 3. -/ def core_TDC_CHECK (n : Nat) : Fid := ⟨3, n, 4⟩
/-- STATE_PARITY of instance n of block 3. -/ def core_STATE_PARITY (n : Nat) : Fid := ⟨3, n, 5⟩
/-- LATE_RELEASE of instance n of block 4. -/ def stn_LATE_RELEASE (n : Nat) : Fid := ⟨4, n, 0⟩
/-- BAD_PROFILE of instance n of block 4. -/ def stn_BAD_PROFILE (n : Nat) : Fid := ⟨4, n, 1⟩
/-- GUARD_PLAN of instance n of block 4. -/ def stn_GUARD_PLAN (n : Nat) : Fid := ⟨4, n, 2⟩
/-- OUTSET_MASKED of instance n of block 4. -/ def stn_OUTSET_MASKED (n : Nat) : Fid := ⟨4, n, 3⟩
/-- DEGRADED of instance n of block 4. -/ def stn_DEGRADED (n : Nat) : Fid := ⟨4, n, 4⟩
/-- GLIDE_RANGE of instance n of block 4. -/ def stn_GLIDE_RANGE (n : Nat) : Fid := ⟨4, n, 5⟩
/-- THREAD0_CHECK of block 5. -/ def seq_THREAD0_CHECK : Fid := ⟨5, 0, 0⟩
/-- THREAD1_CHECK of block 5. -/ def seq_THREAD1_CHECK : Fid := ⟨5, 0, 1⟩
/-- THREAD2_CHECK of block 5. -/ def seq_THREAD2_CHECK : Fid := ⟨5, 0, 2⟩
/-- THREAD3_CHECK of block 5. -/ def seq_THREAD3_CHECK : Fid := ⟨5, 0, 3⟩
/-- THREAD4_CHECK of block 5. -/ def seq_THREAD4_CHECK : Fid := ⟨5, 0, 4⟩
/-- THREAD5_CHECK of block 5. -/ def seq_THREAD5_CHECK : Fid := ⟨5, 0, 5⟩
/-- THREAD6_CHECK of block 5. -/ def seq_THREAD6_CHECK : Fid := ⟨5, 0, 6⟩
/-- THREAD7_CHECK of block 5. -/ def seq_THREAD7_CHECK : Fid := ⟨5, 0, 7⟩
/-- THREAD8_CHECK of block 5. -/ def seq_THREAD8_CHECK : Fid := ⟨5, 0, 8⟩
/-- THREAD9_CHECK of block 5. -/ def seq_THREAD9_CHECK : Fid := ⟨5, 0, 9⟩
/-- NO_SPARE_THREAD of block 5. -/ def seq_NO_SPARE_THREAD : Fid := ⟨5, 0, 10⟩
/-- EXCEPTION0 of block 5. -/ def seq_EXCEPTION0 : Fid := ⟨5, 0, 16⟩
/-- EXCEPTION1 of block 5. -/ def seq_EXCEPTION1 : Fid := ⟨5, 0, 17⟩
/-- EXCEPTION2 of block 5. -/ def seq_EXCEPTION2 : Fid := ⟨5, 0, 18⟩
/-- EXCEPTION3 of block 5. -/ def seq_EXCEPTION3 : Fid := ⟨5, 0, 19⟩
/-- EXCEPTION4 of block 5. -/ def seq_EXCEPTION4 : Fid := ⟨5, 0, 20⟩
/-- EXCEPTION5 of block 5. -/ def seq_EXCEPTION5 : Fid := ⟨5, 0, 21⟩
/-- EXCEPTION6 of block 5. -/ def seq_EXCEPTION6 : Fid := ⟨5, 0, 22⟩
/-- EXCEPTION7 of block 5. -/ def seq_EXCEPTION7 : Fid := ⟨5, 0, 23⟩
/-- EV_OVERFLOW0 of block 5. -/ def seq_EV_OVERFLOW0 : Fid := ⟨5, 0, 24⟩
/-- EV_OVERFLOW1 of block 5. -/ def seq_EV_OVERFLOW1 : Fid := ⟨5, 0, 25⟩
/-- EV_OVERFLOW2 of block 5. -/ def seq_EV_OVERFLOW2 : Fid := ⟨5, 0, 26⟩
/-- EV_OVERFLOW3 of block 5. -/ def seq_EV_OVERFLOW3 : Fid := ⟨5, 0, 27⟩
/-- EV_OVERFLOW4 of block 5. -/ def seq_EV_OVERFLOW4 : Fid := ⟨5, 0, 28⟩
/-- EV_OVERFLOW5 of block 5. -/ def seq_EV_OVERFLOW5 : Fid := ⟨5, 0, 29⟩
/-- EV_OVERFLOW6 of block 5. -/ def seq_EV_OVERFLOW6 : Fid := ⟨5, 0, 30⟩
/-- EV_OVERFLOW7 of block 5. -/ def seq_EV_OVERFLOW7 : Fid := ⟨5, 0, 31⟩
/-- GUARD_HIT of instance n of block 6. -/ def out_GUARD_HIT (n : Nat) : Fid := ⟨6, n, 0⟩
/-- RB_COUNT of instance n of block 6. -/ def out_RB_COUNT (n : Nat) : Fid := ⟨6, n, 1⟩
/-- RB_PHASE of instance n of block 6. -/ def out_RB_PHASE (n : Nat) : Fid := ⟨6, n, 2⟩
/-- SHORT of instance n of block 6. -/ def out_SHORT (n : Nat) : Fid := ⟨6, n, 3⟩
/-- SYSREF_DROP of instance n of block 6. -/ def out_SYSREF_DROP (n : Nat) : Fid := ⟨6, n, 4⟩
/-- DIV_PARITY of instance n of block 6. -/ def out_DIV_PARITY (n : Nat) : Fid := ⟨6, n, 5⟩
/-- LOS of instance n of block 7. -/ def lane_LOS (n : Nat) : Fid := ⟨7, n, 0⟩
/-- TRAIN_FAIL of instance n of block 7. -/ def lane_TRAIN_FAIL (n : Nat) : Fid := ⟨7, n, 1⟩
/-- PEER_ROLE of instance n of block 7. -/ def lane_PEER_ROLE (n : Nat) : Fid := ⟨7, n, 2⟩
/-- PEER_DEPTH of instance n of block 7. -/ def lane_PEER_DEPTH (n : Nat) : Fid := ⟨7, n, 3⟩
/-- EYE_LOW of instance n of block 7. -/ def lane_EYE_LOW (n : Nat) : Fid := ⟨7, n, 4⟩
/-- SLICE_CHECK of instance n of block 7. -/ def lane_SLICE_CHECK (n : Nat) : Fid := ⟨7, n, 5⟩
/-- NO_SPARE_SLICE of instance n of block 7. -/ def lane_NO_SPARE_SLICE (n : Nat) : Fid := ⟨7, n, 6⟩
/-- TT_TRIP of instance n of block 7. -/ def lane_TT_TRIP (n : Nat) : Fid := ⟨7, n, 7⟩
/-- C0_DROP of instance n of block 7. -/ def lane_C0_DROP (n : Nat) : Fid := ⟨7, n, 8⟩
/-- FEC_UNCORR of instance n of block 7. -/ def lane_FEC_UNCORR (n : Nat) : Fid := ⟨7, n, 9⟩
/-- DIGEST_MISMATCH of block 8. -/ def fleet_DIGEST_MISMATCH : Fid := ⟨8, 0, 0⟩
/-- EPOCH_MISMATCH of block 8. -/ def fleet_EPOCH_MISMATCH : Fid := ⟨8, 0, 1⟩
/-- SILENT of block 8. -/ def fleet_SILENT : Fid := ⟨8, 0, 2⟩
/-- STALE of block 8. -/ def fleet_STALE : Fid := ⟨8, 0, 3⟩
/-- ARM_REFUSED of block 8. -/ def fleet_ARM_REFUSED : Fid := ⟨8, 0, 4⟩
/-- ARM_LATE of block 8. -/ def fleet_ARM_LATE : Fid := ⟨8, 0, 5⟩
/-- RQ_TIMEOUT of block 8. -/ def fleet_RQ_TIMEOUT : Fid := ⟨8, 0, 6⟩
/-- LOG_OVERFLOW of block 8. -/ def fleet_LOG_OVERFLOW : Fid := ⟨8, 0, 7⟩
/-- CAL_DUE of block 9. -/ def cal_CAL_DUE : Fid := ⟨9, 0, 0⟩
/-- REF_TIMEOUT of block 9. -/ def cal_REF_TIMEOUT : Fid := ⟨9, 0, 1⟩
/-- STARVED of block 9. -/ def cal_STARVED : Fid := ⟨9, 0, 2⟩
/-- TRIM_LIMIT of block 9. -/ def cal_TRIM_LIMIT : Fid := ⟨9, 0, 3⟩
/-- NO_MODEL of block 9. -/ def cal_NO_MODEL : Fid := ⟨9, 0, 4⟩
/-- IMPORT_REJECT of block 9. -/ def cal_IMPORT_REJECT : Fid := ⟨9, 0, 5⟩
/-- COMMIT_FAIL of block 9. -/ def cal_COMMIT_FAIL : Fid := ⟨9, 0, 6⟩
/-- ENGINE_CHECK of block 9. -/ def cal_ENGINE_CHECK : Fid := ⟨9, 0, 7⟩
/-- INJ_REFUSED of block 10. -/ def mon_INJ_REFUSED : Fid := ⟨10, 0, 0⟩
/-- ADC_CHECK of block 10. -/ def mon_ADC_CHECK : Fid := ⟨10, 0, 1⟩
/-- RES_PARITY of block 10. -/ def mon_RES_PARITY : Fid := ⟨10, 0, 2⟩
/-- TEMP_ALERT of block 11. -/ def bar_TEMP_ALERT : Fid := ⟨11, 0, 0⟩
/-- SUPPLY_ALERT of block 11. -/ def bar_SUPPLY_ALERT : Fid := ⟨11, 0, 1⟩
/-- ACTIVITY_ALERT of block 11. -/ def bar_ACTIVITY_ALERT : Fid := ⟨11, 0, 2⟩
/-- FW_CHECK of block 11. -/ def bar_FW_CHECK : Fid := ⟨11, 0, 3⟩
/-- FLASH_CORR of block 12. -/ def store_FLASH_CORR : Fid := ⟨12, 0, 0⟩
/-- FLASH_UNCORR of block 12. -/ def store_FLASH_UNCORR : Fid := ⟨12, 0, 1⟩
/-- ERASE_FAIL of block 12. -/ def store_ERASE_FAIL : Fid := ⟨12, 0, 2⟩
/-- LEDGER_READONLY of block 12. -/ def store_LEDGER_READONLY : Fid := ⟨12, 0, 3⟩
/-- IMAGE_REJECT of block 12. -/ def store_IMAGE_REJECT : Fid := ⟨12, 0, 4⟩
/-- TRIAL_REVERT of block 12. -/ def store_TRIAL_REVERT : Fid := ⟨12, 0, 5⟩
/-- SETTINGS_DEFAULTED of block 12. -/ def store_SETTINGS_DEFAULTED : Fid := ⟨12, 0, 6⟩
/-- FUSE_EXHAUSTED of block 12. -/ def store_FUSE_EXHAUSTED : Fid := ⟨12, 0, 7⟩
/-- FLASH_TIMEOUT of block 12. -/ def store_FLASH_TIMEOUT : Fid := ⟨12, 0, 8⟩
/-- HSPI_CRC of block 13. -/ def port_HSPI_CRC : Fid := ⟨13, 0, 0⟩
/-- HSPI_FRAME of block 13. -/ def port_HSPI_FRAME : Fid := ⟨13, 0, 1⟩
/-- SVC_AUTH of block 13. -/ def port_SVC_AUTH : Fid := ⟨13, 0, 2⟩
/-- SVC_FRAME of block 13. -/ def port_SVC_FRAME : Fid := ⟨13, 0, 3⟩
/-- MAILBOX_ERR of block 13. -/ def port_MAILBOX_ERR : Fid := ⟨13, 0, 4⟩
/-- TE_LOST of instance n of block 14. -/ def ras_TE_LOST (n : Nat) : Fid := ⟨14, n, 0⟩
/-- FRAME_ERR of instance n of block 14. -/ def ras_FRAME_ERR (n : Nat) : Fid := ⟨14, n, 1⟩
/-- RAS_FORCED of instance n of block 14. -/ def ras_RAS_FORCED (n : Nat) : Fid := ⟨14, n, 2⟩
/-- ECC_CORR of block 15. -/ def prof_ECC_CORR : Fid := ⟨15, 0, 0⟩
/-- ECC_UNCORR of block 15. -/ def prof_ECC_UNCORR : Fid := ⟨15, 0, 1⟩
/-- SHADOW_APPLIED of block 15. -/ def prof_SHADOW_APPLIED : Fid := ⟨15, 0, 2⟩
/-- SHADOW_DISCARDED of block 15. -/ def prof_SHADOW_DISCARDED : Fid := ⟨15, 0, 3⟩
/-- SHADOW_FULL of block 15. -/ def prof_SHADOW_FULL : Fid := ⟨15, 0, 4⟩
/-- ECC_CORR of block 16. -/ def pgm_ECC_CORR : Fid := ⟨16, 0, 0⟩
/-- ECC_UNCORR of block 16. -/ def pgm_ECC_UNCORR : Fid := ⟨16, 0, 1⟩
/-- ECC_CORR of block 17. -/ def flow_ECC_CORR : Fid := ⟨17, 0, 0⟩
/-- ECC_UNCORR of block 17. -/ def flow_ECC_UNCORR : Fid := ⟨17, 0, 1⟩

end Src

end Sys2Proof.Machine
end

