-- ==== Sys2Proof/Syntax.lean ====
section
/-! DEFINITION. The commands of the OS-8840: one constructor per row of the operation table (spec/opcode_table.json).
Each docstring gives the row's own name and rule. Operands that a pin, a detector or another device supplies (a
measured offset, a received message) are the command's operands; the rest is read from the state. -/

namespace Sys2Proof

/-- What a core shows of one tick while its loop is closed: the time of its feedback edge against the tick edge in 0.1 ps (at a
multiple of 512 ticks, that of the delay reference against its calibrated value, R140), and how many feedback cycles the tick
held (R164; one once the core is locked). -/
structure CoreEdge where
  time : Int
  cycles : Nat
  deriving DecidableEq, Repr

/-- A reference input and the time since its last edge in picoseconds (R63). -/
structure RefQuiet where
  ref : Fin 5
  quiet : Nat
  deriving DecidableEq, Repr

/-- What an anchor's lock detector has seen (R74, R75): how many consecutive XO cycles, or outer comparisons, end now, and the largest
phase error among them where it declares lock, the least where it declares loss, in 0.1 ps. -/
structure AncSeen where
  anc : Fin 2
  number : Nat
  error : Nat
  deriving DecidableEq, Repr

/-- Edges that reach the guard of an output at one distance from each other, in femtoseconds; `moved` marks the first edge after a change
of what the output follows (R337). -/
structure EdgeRun where
  gap : Nat
  count : Nat
  moved : Bool
  deriving DecidableEq, Repr

/-- The commands and happenings of the operation table. -/
inductive Instr where
  /-- TICK (R23): At each rising edge of the 500 MHz tick the timeline count increases by one and the event board closes tick X − 2. -/
  | tick (align : Int) (upset : Count) (steerA steerB perrA perrB : Int) (edges : List CoreEdge)
  /-- EFFECT_RELEASE (R38): At its named tick the release stage applies each ready effect in the order of Table 1.3. -/
  | effectRelease
  /-- LATE_EFFECT (R49): An effect not ready for its named tick is applied at the first tick for which it is ready and counted as late. -/
  | lateEffect (st : Fin 8)
  /-- COLD_UNGATE (R225): At the cold hop's release tick plus COLDHOLD the outputs in OUTSET ungate under R189. -/
  | coldUngate (st : Fin 8)
  /-- GLIDE_END (R160): At k_e the glide ends on the target setting and θ_eff is recomputed exactly. -/
  | glideEnd (core : Fin 26)
  /-- IDLE_END (R267): A declared idle of a core ends at Y + W. -/
  | idleEnd (core : Fin 26)
  /-- HOST_WRITE (R57): An unscheduled host write to a register without a row of its own is checked and released at the first ready tick. -/
  | hostWrite (addr : BitVec 16) (data : Word)
  /-- TIME_NOW_READ (R25): A read of TIME_NOW_LO returns the count and latches TIME_NOW_HI. -/
  | timeNowRead
  /-- SYNC_ARM (R177): A write of TIME_SYNCCMD.ARM opens the SYNC_IN arming window at its release. -/
  | syncArm
  /-- SYNC_LOAD (R30): A write of TIME_SYNCCMD.LOAD arms a timeline load by SYNC_IN, checked against R28. -/
  | syncLoad
  /-- SYNC_CANCEL (R30): A write of TIME_SYNCCMD.CANCEL closes an open arming window. -/
  | syncCancel
  /-- SYNC_IN_EDGE (R178): A qualified SYNC_IN edge is stamped; the first inside an open window counts, others add to EXTRA. -/
  | syncInEdge (width : Nat)
  /-- SYNC_WINDOW_CLOSE (R177): The arming window closes at k_a + 1,000·w with no counted edge, clearing LOADARMED. -/
  | syncWindowClose
  /-- SYNC_RESTART (R180): At n + SYNC_LATENCY each masked output takes the new divider reference tick and restarts. -/
  | syncRestart
  /-- TIMELINE_LOAD_SYNC (R29): At n + SYNC_LATENCY the count takes TIME_PRESET, or the load is abandoned with LOADLOST. -/
  | timelineLoadSync
  /-- SCHED_GO (R618): A write of SCHED_CTL.GO offers a scheduled write to the eight-entry queue. -/
  | schedGo
  /-- SCHED_FLUSH (R620): A write of SCHED_CTL.FLUSH discards every queued entry named for its release tick or later. -/
  | schedFlush
  /-- SCHED_RELEASE (R619): At its named tick a scheduled write is released, or dropped when refused. -/
  | schedRelease
  /-- TRIG_EDGE (R306): A trigger input's leading edge is qualified over MINW samples and stamped, or dropped as a runt or overrun. -/
  | trigEdge (inp : Fin 8) (width : Nat)
  /-- TRIG_STUCK (R308): An input active for 1,024 × STUCK ticks raises STUCK and is fenced. -/
  | trigStuck (inp : Fin 9)
  /-- TRIG_REARM (R309): A write of TRIG_STAT.REARM asks to end a trigger input's fence. -/
  | trigRearm (inp : Fin 9)
  /-- TRIG_FENCE_END (R309): A rearmed input's fence ends after 64 consecutive inactive samples. -/
  | trigFenceEnd (inp : Fin 9)
  /-- REF_MISSING_EDGE (R63): No reference edge for MISS nominal periods stamps a missing-edge event and disqualifies the reference. -/
  | refMissingEdge (at_ : RefQuiet)
  /-- REF_GATE_END (R64): At the end of a frequency-window gate the reference is disqualified, kept, or requalified. -/
  | refGateEnd (ref : Fin 5) (offset : Int)
  /-- ANC_INNER_LOCK (R74): An anchor declares inner lock; its tick starts and, first at start, it becomes primary and starts the count. -/
  | ancInnerLock (seen : AncSeen)
  /-- ANC_INNER_LOSS (R74): An anchor loses inner lock and the engine reacts as Table 2.4 gives. -/
  | ancInnerLoss (seen : AncSeen)
  /-- ANC_OUTER_LOCK (R75): An anchor declares outer lock and switches to its tracking bandwidth. -/
  | ancOuterLock (seen : AncSeen)
  /-- ANC_OUTER_LOSS (R75): An anchor loses outer lock, or reaches its steering limit, and the engine reacts as Table 2.4 gives. -/
  | ancOuterLoss (seen : AncSeen)
  /-- PRIMARY_INIT_EXCHANGE (R80): At the first tick the secondary is ready, the roles are exchanged once to honour PRIMARY_INIT. -/
  | primaryInitExchange
  /-- ALIGN_EXCEEDED (R85): Alignment exceeds TRIP and the secondary freezes its steering. -/
  | alignExceeded
  /-- ALIGN_TRIP (R84): With no lock or reference event within 1,000 ticks, ALIGN_TRIP is stamped and the secondary goes to FAILED. -/
  | alignTrip
  /-- ANC_SWAP (R99): A write of ANC_CMD.SWAP exchanges primary and secondary, or sets CMDERR when the secondary is not ready. -/
  | ancSwap
  /-- ANC_REJOIN (R95): A write of REJOIN_A or REJOIN_B returns a FAILED anchor as secondary. -/
  | ancRejoin (anc : Fin 2)
  /-- ANC_AUTOREJOIN (R95): With AUTOREJOIN set, a FAILED anchor returns once inner lock holds and its reference is qualified. -/
  | ancAutorejoin (anc : Fin 2)
  /-- ANC_ENABLE (R101): A write of ANC_CFG.EN = 1 powers an anchor, which acquires inner lock. -/
  | ancEnable (anc : Fin 2)
  /-- ANC_DISABLE (R101): A write of ANC_CFG.EN = 0 moves the anchor's role and cores away and takes it to OFF. -/
  | ancDisable (anc : Fin 2)
  /-- ANC_COREMAP_WRITE (R97): A write to ANC_COREMAP switches cores between anchors, with or without gating. -/
  | ancCoremapWrite (data : Word)
  /-- ANC_TDC_XCHECK_FAIL (R102): Active and spare outer TDCs differ on 4 consecutive checks; steering freezes and a check starts. -/
  | ancTdcXcheckFail (anc : Fin 2)
  /-- ANC_TDC_CHECK_DONE (R102): The check against the delay reference ends, fencing the failing TDC or both. -/
  | ancTdcCheckDone (anc : Fin 2) (activeBad spareBad : Bool)
  /-- ANC_TDC_SINGLE_FAIL (R657): The only remaining outer TDC fails its reference check 4 times; it is fenced and outer lock is lost. -/
  | ancTdcSingleFail (anc : Fin 2)
  /-- CORE_APPLY (R142): A write of CORE_CMD.APPLY checks the staged setting, gates the outputs and starts an acquisition. -/
  | coreApply (core : Fin 26)
  /-- CORE_RELOCK (R144): A write of CORE_CMD.RELOCK starts a warm or cold acquisition. -/
  | coreRelock (core : Fin 26)
  /-- CORE_SEARCH (R144): A write of CORE_CMD.SEARCH starts a cold acquisition in SEARCH mode. -/
  | coreSearch (core : Fin 26)
  /-- CORE_SPAREMAP_WRITE (R107): A write to CORE_SPAREMAP names the spare cores while no station runs. -/
  | coreSparemapWrite (data : Word)
  /-- BAND_SELECT_DONE (R121): Band selection ends, the loop closes on the chosen band and the modulator seed is loaded. -/
  | bandSelectDone (core : Fin 26)
  /-- FASTLOCK_END (R119): After FLTIME × 128 ns the loop returns to its coded bandwidth and the lock count starts. -/
  | fastlockEnd (core : Fin 26)
  /-- CORE_LOCK (R126): The lock count reaches LCNT; the core declares lock and stamps a lock event. -/
  | coreLock (core : Fin 26) (vtune : BitVec 12)
  /-- CORE_LOCK_LOSS (R126): The loss count reaches M; the core declares loss, gates its outputs and may relock and race a spare. -/
  | coreLockLoss (core : Fin 26)
  /-- ACQ_TIMEOUT (R131): An acquisition without lock after 32,768 ticks restarts in SEARCH mode or raises NO_LOCK. -/
  | acqTimeout (core : Fin 26)
  /-- RACE_TIMEOUT (R134): A racing spare reaches 32,768 ticks without lock and returns to IDLE. -/
  | raceTimeout (core : Fin 26)
  /-- UNGATE_HOLD_END (R129): The ungate hold after lock ends and the outputs ungate on their grid. -/
  | ungateHoldEnd (core : Fin 26)
  /-- TDC_CHECK (R140): The core TDC fails its delay-reference check twice and TDC_CHECK is raised. -/
  | tdcCheck (core : Fin 26)
  /-- STATE_PARITY (R152): A parity error in a modulator accumulator or applied setting raises STATE_PARITY. -/
  | stateParity (core : Fin 26)
  /-- SPARE_REASSIGN_DONE (R148): The reassignment of a spare completes and the spare starts a cold acquisition on the fenced core's setting. -/
  | spareReassignDone (core : Fin 26)
  /-- STN_MAP_WRITE (R197): A write to STN_MAP gives the named cores their roles and returns a loaded station to EMPTY. -/
  | stnMapWrite (st : Fin 8) (data : Word)
  /-- STN_CFG_WRITE (R195): A write to STN_CFG sets the station mode and COLDHOLD. -/
  | stnCfgWrite (st : Fin 8) (data : Word)
  /-- STN_OUTMASK_WRITE (R198): A write to STN_OUTMASK names the outputs the station may drive. -/
  | stnOutmaskWrite (st : Fin 8) (data : Word)
  /-- PROF_WRITE (R237): A write of PROF_CMD.WRITE stores a profile whole, or into a shadow when it is referenced. -/
  | profWrite
  /-- PROF_READ (R204): A write of PROF_CMD.READ loads PROF_DATA with the profile content in force. -/
  | profRead
  /-- SHADOW_APPLY (R238): A pending shadow takes effect at the first tick no reference to its profile remains. -/
  | shadowApply (prof : Fin 4096)
  /-- PREP_START (R211): The station starts preparing a blocking core for a swap once a core is free. -/
  | prepStart (st : Fin 8) (slot : Fin 3)
  /-- PREP_SETTLED (R208): A prepared blocking core becomes settled for its swap. -/
  | prepSettled (st : Fin 8) (slot : Fin 3)
  /-- ADD (R258): g[rd] := g[ra] + g[rb]. -/
  | addR (st : Fin 8) (path : Fin 3)
  /-- SUB (R258): g[rd] := g[ra] − g[rb]. -/
  | subR (st : Fin 8) (path : Fin 3)
  /-- AND (R258): g[rd] := g[ra] and g[rb]. -/
  | andR (st : Fin 8) (path : Fin 3)
  /-- OR (R258): g[rd] := g[ra] or g[rb]. -/
  | orR (st : Fin 8) (path : Fin 3)
  /-- XOR (R258): g[rd] := g[ra] xor g[rb]. -/
  | xorR (st : Fin 8) (path : Fin 3)
  /-- SHL (R258): g[rd] := g[ra] shifted left by g[rb][4:0]. -/
  | shl (st : Fin 8) (path : Fin 3)
  /-- SHR (R258): g[rd] := g[ra] shifted right by g[rb][4:0]. -/
  | shr (st : Fin 8) (path : Fin 3)
  /-- ADDI (R258): g[rd] := g[ra] + sign-extended IMM15. -/
  | addi (st : Fin 8) (path : Fin 3)
  /-- ANDI (R258): g[rd] := g[ra] and zero-extended IMM15. -/
  | andi (st : Fin 8) (path : Fin 3)
  /-- ORI (R258): g[rd] := g[ra] or zero-extended IMM15. -/
  | ori (st : Fin 8) (path : Fin 3)
  /-- XORI (R258): g[rd] := g[ra] xor zero-extended IMM15. -/
  | xori (st : Fin 8) (path : Fin 3)
  /-- SHLI (R258): g[rd] := g[ra] shifted left by IMM15[4:0]. -/
  | shli (st : Fin 8) (path : Fin 3)
  /-- SHRI (R258): g[rd] := g[ra] shifted right by IMM15[4:0]. -/
  | shri (st : Fin 8) (path : Fin 3)
  /-- LDI (R258): Loads IMM16 into the low or high half of g[rd]. -/
  | ldi (st : Fin 8) (path : Fin 3)
  /-- CMP (R258): p[pd] := g[ra] CC g[rb]. -/
  | cmp (st : Fin 8) (path : Fin 3)
  /-- CMPI (R258): p[pd] := g[ra] CC sign-extended IMM14. -/
  | cmpi (st : Fin 8) (path : Fin 3)
  /-- PLOG (R258): p[pd] := a logic function of two possibly inverted predicates. -/
  | plog (st : Fin 8) (path : Fin 3)
  /-- TADDI (R259): t[td] := t[ts] + IMM19. -/
  | taddi (st : Fin 8) (path : Fin 3)
  /-- TADDR (R259): t[td] := t[ts] + g[ra] shifted left by SH. -/
  | taddr (st : Fin 8) (path : Fin 3)
  /-- TSET (R259): t[td] := g[rb] × 2^32 + g[ra]. -/
  | tset (st : Fin 8) (path : Fin 3)
  /-- TGET (R259): g[rd] := low or high word of t[ts]. -/
  | tget (st : Fin 8) (path : Fin 3)
  /-- TCMP (R259): p[pd] := t[ta] CC t[tb]. -/
  | tcmp (st : Fin 8) (path : Fin 3)
  /-- EVTST (R260): Tests whether an event of SRC is stamped in (m, X] once the board has closed X. -/
  | evtst (st : Fin 8) (path : Fin 3)
  /-- WAITE (R260): Takes the first event of SRC in (m, X] with its stamp, or X when none. -/
  | waite (st : Fin 8) (path : Fin 3)
  /-- EVCNT (R260): Counts the queued events of SRC in (m, X]. -/
  | evcnt (st : Fin 8) (path : Fin 3)
  /-- EVDATA (R260): Returns the payload of the latest event removed for SRC. -/
  | evdata (st : Fin 8) (path : Fin 3)
  /-- BR (R261): Branches to TGT, predicted when its guard is pending. -/
  | br (st : Fin 8) (path : Fin 3)
  /-- CALL (R261): Saves pc + 1 in lk and branches to TGT. -/
  | callI (st : Fin 8) (path : Fin 3)
  /-- RET (R261): Branches to the link register. -/
  | retI (st : Fin 8) (path : Fin 3)
  /-- LOOP (R261): Decrements a loop counter and branches while it is not zero. -/
  | loopI (st : Fin 8) (path : Fin 3)
  /-- LDLC (R261): Loads a loop counter from IMM16 or a g register. -/
  | ldlc (st : Fin 8) (path : Fin 3)
  /-- LKMOV (R261): Moves the link register to or from a g register. -/
  | lkmov (st : Fin 8) (path : Fin 3)
  /-- SWAP (R263): Names a swap to a profile at the tick in t[tr]. -/
  | swapI (st : Fin 8) (path : Fin 3)
  /-- COLD (R263): Names a cold hop on the live or slotted core at the tick in t[tr]. -/
  | coldI (st : Fin 8) (path : Fin 3)
  /-- GLIDE (R263): Names a glide on the live or slotted core at the tick in t[tr]. -/
  | glideI (st : Fin 8) (path : Fin 3)
  /-- OUTG (R263): Names a gating or ungating of outputs at the tick in t[tr]. -/
  | outg (st : Fin 8) (path : Fin 3)
  /-- DSET (R263): Names a change of divider set for outputs at the tick in t[tr]. -/
  | dset (st : Fin 8) (path : Fin 3)
  /-- DIVRST (R263): Names a divider restart for outputs at the tick in t[tr]. -/
  | divrst (st : Fin 8) (path : Fin 3)
  /-- SYSREF (R263): Names a SYSREF request, enable or disable at the tick in t[tr]. -/
  | sysref (st : Fin 8) (path : Fin 3)
  /-- STAT (R263): Names new levels for mapped STAT pins at the tick in t[tr]. -/
  | statI (st : Fin 8) (path : Fin 3)
  /-- SEND0 (R263): Names the sending of a class-0 message at the tick in t[tr]. -/
  | send0 (st : Fin 8) (path : Fin 3)
  /-- SEND1 (R263): Names the sending of a class-1 control word at the tick in t[tr]. -/
  | send1 (st : Fin 8) (path : Fin 3)
  /-- NOP (R258): Does nothing. -/
  | nopI (st : Fin 8) (path : Fin 3)
  /-- HALT (R263): Names the station's stop at the tick in t[tr]. -/
  | haltI (st : Fin 8) (path : Fin 3)
  /-- IDLE (R267): Declares a core quiet from the tick in t[tr] for W ticks. -/
  | idleI (st : Fin 8) (path : Fin 3)
  /-- INSTR_COMMIT (R280): An executed instruction commits in program order and its effect enters the holding queue. -/
  | instrCommit (st : Fin 8)
  /-- DECISION_RESOLVE (R281): An event instruction evaluates once its tick has closed, confirming or squashing the predicted path. -/
  | decisionResolve (st : Fin 8) (index : Nat)
  /-- SEQ_START (R271): A write of SEQ_CTL.START arms the station for T_s and starts its thread. -/
  | seqStart (st : Fin 8)
  /-- STATION_RUN_BEGIN (R272): At T_s the station becomes RUNNING and gates its outputs. -/
  | stationRunBegin (st : Fin 8)
  /-- SEQ_STOP (R273): A write of SEQ_CTL.STOP discards effects named for its release or later and stops the station. -/
  | seqStop (st : Fin 8)
  /-- EXC_STOP (R269): After an exception, the station stops at the tick after its last queued effect releases. -/
  | excStop (st : Fin 8)
  /-- THREAD_CHECK_FAIL (R276): A thread's parity or duplicate check mismatches and the thread is fenced. -/
  | threadCheckFail (thread : Fin 10)
  /-- THREAD_RESUME (R276): A spare thread takes the station binding and resumes from the committed state. -/
  | threadResume (st : Fin 8)
  /-- PGM_DATA_WRITE (R312): A write of PGM_DATA stores an instruction word, or is refused in a running reach set. -/
  | pgmDataWrite (data : Word)
  /-- PGM_CHECK (R313): A write of PGM_CMD.CHECK starts the lead check for a fresh load or a handoff. -/
  | pgmCheck
  /-- PGM_CHECK_DONE (R302): The loader finishes the lead check and accepts or refuses the program. -/
  | pgmCheckDone
  /-- PGM_HANDOFF (R315): A write of PGM_CMD.HANDOFF arms a handoff to the pending program at H. -/
  | pgmHandoff
  /-- HANDOFF_AT_H (R316): At tick H the old program's later work is discarded and the thread starts the new program. -/
  | handoffAtH (st : Fin 8)
  /-- OUT_SRC_WRITE (R328): A host write of OUT_CFG.SRC moves an output to another core. -/
  | outSrcWrite (out : Fin 32) (src : BitVec 5)
  /-- OUT_ENABLE (R335): A write of OUT_CFG.EN switches an output's power domain on or off. -/
  | outEnable (out : Fin 32) (en : Bool)
  /-- OUT_DOMAIN_READY (R335): An output's domain becomes ready and reason OFF ends. -/
  | outDomainReady (out : Fin 32)
  /-- OUT_DELAY_WRITE (R331): A change of OUT_DELAY realigns the output after the cycle in progress. -/
  | outDelayWrite (out : Fin 32) (data : Word)
  /-- OUT_DSET_WRITE (R323): A write of OUT_DSET01 or OUT_DSET23 sets divider sets, changing D or M when in force. -/
  | outDsetWrite (out : Fin 32) (upper : Bool) (data : Word)
  /-- OUT_SHORT (R347): A ball's current limit acts for 1 µs; SHORT is stamped and the output gated with its driver off. -/
  | outShort (out : Fin 32)
  /-- OUT_CLRSHORT (R347): A write of OUT_STAT.CLRSHORT turns the driver on again. -/
  | outClrshort (out : Fin 32)
  /-- OUT_SYSREF_REQ (R344): A write of OUT_SYSREF.REQ requests a SYSREF burst. -/
  | outSysrefReq (out : Fin 32)
  /-- OUT_SYSREF_PER (R344): A write of OUT_SYSREF.PER enables periodic SYSREF. -/
  | outSysrefPer (out : Fin 32)
  /-- OUT_SYSREF_DIS (R344): A write of OUT_SYSREF.DIS disables SYSREF pulses. -/
  | outSysrefDis (out : Fin 32)
  /-- RB_WINDOW_END (R348): A read-back window ends; counts and phase are compared and RB_COUNT, RB_PHASE or GUARD_HIT may be raised. -/
  | rbWindowEnd (out : Fin 32) (counted : Nat) (edges : List EdgeRun) (measured : Bool) (phase : Int)
  /-- DIV_PARITY (R361): A divider-state parity error is detected and the divider is reloaded at the next tick. -/
  | divParity (out : Fin 32)
  /-- RAS_ENABLE (R351): A write of RAS_CFG.EN = 1 binds a core and outputs to a raster channel. -/
  | rasEnable (ras : Fin 2) (data : Word)
  /-- RAS_DISABLE (R352): A write of RAS_CFG.EN = 0 unbinds a raster channel. -/
  | rasDisable (ras : Fin 2)
  /-- RAS_STAGE (R355): A write of RAS_CTL.STAGE takes the staged setting as the channel's pending change. -/
  | rasStage (ras : Fin 2)
  /-- RAS_CANCEL (R355): A write of RAS_CTL.CANCEL discards the pending change. -/
  | rasCancel (ras : Fin 2)
  /-- TE_EDGE (R354): A TE edge is qualified and stamped, and the frame count is checked. -/
  | teEdge (ras : Fin 2) (width edges : Nat) (gatedIn : Bool)
  /-- RAS_APPLY (R356): At s + 2 the pending raster change is applied as a divider, glide or cold change. -/
  | rasApply (ras : Fin 2)
  /-- TE_TIMEOUT (R358): No TE edge for TOMULT frame times raises TE_LOST and may force the pending change. -/
  | teTimeout (ras : Fin 2)
  /-- LANE_ENABLE (R372): A write of LN_CFG.EN turns a lane on into QUIET, or off. -/
  | laneEnable (lane : Fin 16) (en : Bool)
  /-- LANE_QUIET_END (R372): After 1 ms in QUIET the lane goes to WAIT_SIG. -/
  | laneQuietEnd (lane : Fin 16)
  /-- LANE_SIGNAL_DETECT (R372): Signal is detected and the lane enters CDR. -/
  | laneSignalDetect (lane : Fin 16)
  /-- LANE_CDR_LOCK (R372): The lane recovers the peer's symbol clock and enters EQ. -/
  | laneCdrLock (lane : Fin 16)
  /-- LANE_EQ_DONE (R374): Both ends are ready and roles pair, so the lane enters FRAME, or PEER_ROLE is raised. -/
  | laneEqDone (lane : Fin 16) (peer : Word) (pre : Fin 16) (post : Fin 32) (ctle : Fin 16)
  /-- LANE_FRAME_LOCK (R371): Four good frames give frame lock and the lane becomes LINKED. -/
  | laneFrameLock (lane : Fin 16)
  /-- LANE_FRAME_LOSS (R371): Four bad frames lose frame lock and the lane retrains. -/
  | laneFrameLoss (lane : Fin 16)
  /-- LANE_TRAIN_TIMEOUT (R372): A training state's timeout expires; the lane returns to WAIT_SIG and raises TRAIN_FAIL. -/
  | laneTrainTimeout (lane : Fin 16)
  /-- LOS (R410): Signal detect is lost in LINKED or TIMED. -/
  | los (lane : Fin 16)
  /-- EYE_LOW (R405): The eye margin falls below MIN, raising EYE_LOW and maybe a planned move. -/
  | eyeLow (lane : Fin 16) (eye : BitVec 8)
  /-- C0_MESSAGE_RX (R380): A class-0 message arrives and is forwarded, delivered to the event board, or discarded. -/
  | c0MessageRx (lane : Fin 16) (slot : Fin 8) (msg : BitVec 128) (code : Fin 3)
  /-- CELL_RX (R380): A class 1–3 message arrives and is forwarded, delivered locally or discarded. -/
  | cellRx (lane : Fin 16) (cells : List (BitVec 128)) (code : Fin 3)
  /-- C0_TRANSMIT (R383): A locally originated class-0 message leaves in the first slot of its lane open to local origination. -/
  | c0Transmit (lane : Fin 16) (slot : Fin 8)
  /-- C1WORD_READ (R385): A read of LNG_C1WORD removes the oldest class-1 word and latches its tick and info. -/
  | c1wordRead
  /-- FLOW_DATA_WRITE (R380): A write of FLOW_DATA sets a flow-table entry. -/
  | flowDataWrite (data : Word)
  /-- TT_RESULT (R396): At a superframe end with a complete record, the lane computes θ and delay and may become TIMED. -/
  | ttResult (lane : Fin 16) (w0 w1 w2 : BitVec 108) (t2 t3 : Int) (held : Bool)
  /-- LANE_LOAD (R398): A write of LNG_CMD.LOAD steps the count by −q from the timing source. -/
  | laneLoad
  /-- LANE_REALIGN (R403): A write of LNG_CMD.REALIGN restarts the frames of every transmitting lane at the source phase. -/
  | laneRealign
  /-- LANE_LOOPCAL (R394): A write of LNG_CMD.LOOPCAL calibrates the insertion delays of idle lanes. -/
  | laneLoopcal
  /-- LANE_STEER (R405): A write of LNG_CMD.STEER starts a planned move of a lane to its spare slice. -/
  | laneSteer (lane : Fin 16)
  /-- LANE_STEER_DONE (R405): The spare slice takes over the lane at a superframe marker. -/
  | laneSteerDone (lane : Fin 16)
  /-- SLICE_CHECK (R406): A slice fails its self-check, is fenced, and the spare takes the lane. -/
  | sliceCheck (lane : Fin 16)
  /-- READ (R414): A remote READ is served as a host-port read and answered with a RESP. -/
  | remRead
  /-- WRITE (R414): A remote WRITE is served as a host-port write and answered with a RESP. -/
  | remWrite
  /-- RESP (R417): A RESP with the outstanding TAG completes a register request. -/
  | remResp
  /-- DIGEST (R423): A received DIGEST is compared and may begin mismatch causes. -/
  | digestMsg
  /-- REPORT (R424): A REPORT addressed to the device enters its log. -/
  | reportMsg
  /-- ARM_BEGIN (R425): An ARM_BEGIN opens the assembly of an armed stream. -/
  | armBegin
  /-- ARM_REG (R425): An ARM_REG item joins the stream in assembly. -/
  | armReg
  /-- ARM_PROF (R425): An ARM_PROF item joins the stream in assembly. -/
  | armProf
  /-- ARM_END (R426): An ARM_END checks the stream and makes it a pending change or refuses it. -/
  | armEnd
  /-- ARM_STREAM_TIMEOUT (R425): A stream whose next message does not arrive within 10 ms is discarded. -/
  | armStreamTimeout
  /-- ARMED_CHANGE_APPLY (R427): At RELTICK a pending change applies whole or not at all and sets the epoch. -/
  | armedChangeApply
  /-- RQ_GO (R417): A write of FLT_RQ_CTL.GO sends a remote READ or WRITE. -/
  | rqGo
  /-- RQ_TIMEOUT (R417): No RESP arrives within TIMEOUT × 100 µs; STATUS becomes TIMEOUT. -/
  | rqTimeout
  /-- DIGEST_COMPUTE_DONE (R420): A digest computation completes and updates FLT_DIGEST. -/
  | digestComputeDone
  /-- DIGEST_SEND (R422): At each multiple of 500,000 ticks the device sends its DIGEST upstream. -/
  | digestSend
  /-- SILENT (R423): No DIGEST arrives on a downstream lane for 4 ms. -/
  | silent (lane : Fin 16)
  /-- STALE (R423): Every DIGEST on a lane for 10 ms carried CURRENT = 0. -/
  | stale (lane : Fin 16)
  /-- LOG_POP (R424): A write of FLT_LOGCTL.POP removes the oldest log entry. -/
  | logPop
  /-- CAL_TEMP_INJECT (R439): Every 10 ms the calibration engine injects a conversion of a group's unscanned temperature channel. -/
  | calTempInject (group : Fin 60)
  /-- CAL_RUN_START (R443): For a due group the engine starts a measured run when the unit is available, otherwise a model run. -/
  | calRunStart (group : Fin 60)
  /-- CAL_RUN_COMPLETE (R445): A measured run completes and its scratch values replace the group's values. -/
  | calRunComplete (group : Fin 60) (meas : List Int)
  /-- CAL_VALUES_APPLY (R448): New trim values take effect in a unit at its next boundary. -/
  | calValuesApply (group : Fin 60)
  /-- CAL_REF_TIMEOUT (R436): REFCAL stays unqualified for REFTO × 10 ms; the run ends NOREF. -/
  | calRefTimeout (group : Fin 60)
  /-- CAL_STARVED (R447): A group stays due for STARVE × 10 ms and STARVED is raised. -/
  | calStarved (group : Fin 60)
  /-- CAL_RUN (R433): A write of CAL_CMD.RUN requests a measured run of the selected group. -/
  | calRun
  /-- CAL_EXPORT (R459): A write of CAL_CMD.EXPORT fills the image buffer. -/
  | calExport
  /-- CAL_IMPORT (R460): A write of CAL_CMD.IMPORT checks and takes the image in the buffer. -/
  | calImport
  /-- CAL_COMMIT (R462): A write of CAL_CMD.COMMIT commits a calibration image to the ledger. -/
  | calCommit
  /-- CAL_ABORT (R445): A write of CAL_CMD.ABORT abandons the selected group's run. -/
  | calAbort
  /-- CAL_TDATA_WRITE (R456): A host write of CAL_TDATA sets a trim value word and HOSTSET. -/
  | calTdataWrite (data : Word)
  /-- MON_CONVERSION (R469): A converter slot ends, completing one conversion with its stamp. -/
  | monConversion (code : BitVec 14)
  /-- MON_INJECT (R477): A write of MON_INJCMD.GO queues an injected conversion, or is refused FULL. -/
  | monInject (ch : BitVec 6)
  /-- MON_SCAN_WRITE (R471): A write of MON_SCAN_LO or MON_SCAN_HI offers a new scan mask. -/
  | monScanWrite (hi : Bool) (data : Word)
  /-- MON_SCAN_APPLY (R473): The new scan mask takes effect at the end of the scan in progress. -/
  | monScanApply
  /-- MON_RES_READ (R475): A read of RES_k_A returns a result and latches its stamp. -/
  | monResRead (index : Fin 32)
  /-- MON_INJ_READ (R475): A read of MON_INJ_A returns the injection result and latches its stamp. -/
  | monInjRead
  /-- BARROW_SAMPLE (R486): The barrow samples and filters its inputs and decides on wake and alerts. -/
  | barrowSample (analogue : List Int) (refs : BitVec 4) (xo : BitVec 2) (lanes : BitVec 16) (svc : Bool)
  /-- PWR_ACTIVE (R490): A PWR_CMD with TARGET 3 switches the ACTIVE domains on. -/
  | pwrActive
  /-- PWR_STANDBY (R490): A PWR_CMD with TARGET 2 gates the outputs and switches the ACTIVE-only domains off. -/
  | pwrStandby
  /-- PWR_DORMANT (R491): A PWR_CMD with TARGET 1 gates, squelches and switches every domain but the barrow off. -/
  | pwrDormant
  /-- PWR_DOMAINS_READY (R490): The last domain switched on becomes ready and PWR_STATE becomes ACTIVE. -/
  | pwrDomainsReady
  /-- FAULT_REACTION (R508): At the tick after a raise's stamp the fault takes the reaction of its effective class. -/
  | faultReaction
  /-- GRACE_EXPIRE (R515): An unacknowledged GRACE fault's timer expires and the fault becomes class 2. -/
  | graceExpire
  /-- CWIN_END (R519): A consequence window ends and suppressed level sources still live raise. -/
  | cwinEnd
  /-- FAULT_ACK (R512): A W1C write of FLT_STAT acknowledges the fault of each bit written. -/
  | faultAck (win : Fin 97) (data : Word)
  /-- FLT_FORCE_WRITE (R505): An armed write of FLT_FORCE makes detectors read as asserting. -/
  | fltForceWrite (win : Fin 97) (data : Word)
  /-- FLT_INJ_WRITE (R506): An armed write of FLT_INJ inverts check bits at the source's next check. -/
  | fltInjWrite (win : Fin 97) (data : Word)
  /-- INJECTED_CHECK (R506): The next check of an injected source uses inverted check bits and raises its fault. -/
  | injectedCheck (win : Fin 97) (bit : Fin 32) (entries : List Nat) (store : Fin 8)
  /-- TALLY_READ (R527): A read of word 0 of a tally entry latches words 1–3. -/
  | tallyRead (win : Fin 97)
  /-- MGMT_CHECK (R531): The management processor's duplicate execution mismatches and it restarts. -/
  | mgmtCheck
  /-- MGMT_WATCHDOG (R531): The management firmware does not serve its watchdog for 100 ms and the processor restarts. -/
  | mgmtWatchdog
  /-- RELOAD_DONE (R509): A reset or reload of a processor completes and a RELOAD record is written. -/
  | reloadDone (unit : Fin 4)
  /-- SUPPLY_UV (R531): A rail lies below 92 % of nominal for 1 µs. -/
  | supplyUv (low : Bool)
  /-- CFG_PARITY (R531): A parity error is found in a configuration register or fault window. -/
  | cfgParity
  /-- RELEASE_CHECK (R531): The release stage's duplicate check mismatches. -/
  | releaseCheck
  /-- ECC_UNCORR (R509): An uncorrectable error in a store row replaces the row with a spare row. -/
  | eccUncorr (store : Fin 10) (entries : List Nat)
  /-- VDD_AON_RISE (R536): VDD_AON rises through 0.6 V after lying below 0.3 V and a power-on start begins. -/
  | vddAonRise (porLow testMode : Bool)
  /-- VDD_AON_FALL (R641): VDD_AON falls below 0.6 V; every domain switches off and the device is inert. -/
  | vddAonFall
  /-- POR_N_ASSERT (R536): POR_N is asserted and a power-on reset start begins. -/
  | porNAssert
  /-- RESET_N_ASSERT (R536): RESET_N is asserted outside HALTED and a start begins. -/
  | resetNAssert
  /-- START_STAGE_DONE (R539): A start stage completes and the next stage of Table 14.1 begins. -/
  | startStageDone (ok : Bool)
  /-- STORE_SAVE (R553): A keyed write of STORE_CMD.SAVE captures changed settings as a settings record. -/
  | storeSave
  /-- STORE_FULL (R562): A keyed write of STORE_CMD.FULL starts fulling. -/
  | storeFull
  /-- RECORD_COMMIT_DONE (R555): A ledger record's COMMIT word is programmed and the record is committed. -/
  | recordCommitDone
  /-- FULLING_DONE (R562): Fulling commits a new base copy and erases folded ring blocks. -/
  | fullingDone
  /-- ERASE_FAIL (R550): A pool erase or program fails and the block is retired. -/
  | eraseFail (block : Fin 128)
  /-- FLASH_TIMEOUT (R544): The flash does not answer within its timeout. -/
  | flashTimeout
  /-- SVC_READ (R573): An SVC read transaction returns the pending Plipo response or 0x00. -/
  | svcRead
  /-- OPEN (R576): A Plipo OPEN returns DEVSER and a fresh nonce. -/
  | svcOpen (frame : Option (List Byte))
  /-- AUTH (R576): A Plipo AUTH verifies the tool's proof and opens a session. -/
  | svcAuth (frame : Option (List Byte))
  /-- CLOSE (R580): A Plipo CLOSE ends the session. -/
  | svcClose (frame : Option (List Byte))
  /-- STATUS (R582): A Plipo STATUS returns the update registers. -/
  | svcStatus (frame : Option (List Byte))
  /-- PLIPO_READ (R582): A Plipo READ returns up to 255 register words. -/
  | plipoRead (frame : Option (List Byte))
  /-- PLIPO_WRITE (R582): A Plipo WRITE writes one register as the host port would. -/
  | plipoWrite (frame : Option (List Byte))
  /-- UPD_BEGIN (R585): A Plipo UPD_BEGIN checks an image header and prepares staging. -/
  | updBegin (frame : Option (List Byte))
  /-- UPD_DATA (R586): A Plipo UPD_DATA programs image bytes into staging. -/
  | updData (frame : Option (List Byte))
  /-- UPD_END (R587): A Plipo UPD_END verifies staging and commits VERIFIED or IDLE. -/
  | updEnd (frame : Option (List Byte))
  /-- UPD_ACTIVATE (R588): A Plipo UPD_ACTIVATE commits ARMED, optionally followed by a start. -/
  | updActivate (frame : Option (List Byte))
  /-- UPD_ABORT (R588): A Plipo UPD_ABORT steps the update state back. -/
  | updAbort (frame : Option (List Byte))
  /-- RESTART (R582): A Plipo RESTART begins a start as by RESET_N after the response is read. -/
  | restart (frame : Option (List Byte))
  /-- SESSION_TIMEOUT (R580): A session ends after 10 s without a valid request. -/
  | sessionTimeout
  /-- AUTH_LOCKOUT_END (R577): The 1 s refusal of OPEN after four failed AUTHs ends. -/
  | authLockoutEnd
  /-- UPD_CMD_ACTIVATE (R588): A keyed write of UPD_CMD.ACTIVATE commits ARMED from VERIFIED. -/
  | updCmdActivate
  /-- UPD_CONFIRM (R595): A keyed write of UPD_CMD.CONFIRM confirms a trial image. -/
  | updConfirm
  /-- UPD_CMD_ABORT (R588): A keyed write of UPD_CMD.ABORT steps the update state back. -/
  | updCmdAbort
  /-- COPY_BLOCK_DONE (R590): One 64 KiB block of an activation or reversion copy is written, checked and journalled. -/
  | copyBlockDone
  /-- TRIAL_TIMEOUT (R594): TRIALTO seconds pass in TRIAL without confirmation and a start begins. -/
  | trialTimeout
  /-- HSPI_WRITE (R610): A complete HSPI WRITE transaction joins the write queue or is discarded. -/
  | hspiWrite (bytes : List Byte)
  /-- HSPI_WRITE_HANDLED (R659): A queued HSPI write is checked and refused or released, updating LASTW. -/
  | hspiWriteHandled
  /-- HSPI_READ (R611): An HSPI READ returns STATUS and DATA once earlier writes are handled. -/
  | hspiRead (bytes : List Byte) (ready : Bool)
  /-- HSPI_REPEAT (R612): An HSPI REPEAT returns the previous READ's response with no side effect. -/
  | hspiRepeat (bytes : List Byte)
  /-- MBX_INFO (R624): Mailbox INFO returns the part, serial and version. -/
  | mbxInfo
  /-- MBX_ANCHOR_SET (R624): Mailbox ANCHOR_SET computes and writes an anchor's ratios and enables it. -/
  | mbxAnchorSet
  /-- MBX_OUT_FREQ (R625): Mailbox OUT_FREQ sets an output to a frequency on a free core. -/
  | mbxOutFreq
  /-- MBX_OUT_PHASE (R626): Mailbox OUT_PHASE sets an output's phase through its delays. -/
  | mbxOutPhase
  /-- MBX_OUT_LEVEL (R624): Mailbox OUT_LEVEL sets an output's driver mode, swing and guard. -/
  | mbxOutLevel
  /-- MBX_OUT_OFF (R624): Mailbox OUT_OFF disables the outputs in a mask. -/
  | mbxOutOff
  /-- MBX_SYSREF (R624): Mailbox SYSREF configures an output's SYSREF and performs an operation. -/
  | mbxSysref
  /-- MBX_SYNC_ARM (R624): Mailbox SYNC_ARM configures and arms a SYNC_IN restart and optional load. -/
  | mbxSyncArm
  /-- MBX_SWEEP (R627): Mailbox SWEEP writes profiles and a program and starts a stepped sweep. -/
  | mbxSweep
  /-- MBX_STATION_RUN (R624): Mailbox STATION_RUN checks the stored program and starts the station. -/
  | mbxStationRun
  /-- MBX_STATION_STOP (R624): Mailbox STATION_STOP stops a station. -/
  | mbxStationStop
  /-- MBX_LANE_SET (R624): Mailbox LANE_SET writes a lane's configuration. -/
  | mbxLaneSet
  /-- MBX_CAL (R624): Mailbox CAL runs, exports, imports or commits calibration. -/
  | mbxCal
  /-- MBX_SAVE (R624): Mailbox SAVE requests a settings SAVE. -/
  | mbxSave
  /-- MBX_POWER (R624): Mailbox POWER writes PWR_CMD with a target state. -/
  | mbxPower
  /-- LANE_CDR_LOSS (R391): A lane loses CDR lock on the peer's symbol clock; its RCLK output stops at once and the lane returns to WAIT_SIG. -/
  | laneCdrLoss (lane : Fin 16)
  /-- ENGINE_CHECK (R466): The calibration engine fails its self-check, its runs are abandoned and the management processor reloads it. -/
  | engineCheck
  /-- LANECTL_CHECK (R531): A lane controller fails its self-check and is reloaded by the management processor. -/
  | lanectlCheck
  /-- FW_CHECK (R496): The barrow fails its self-check and the management processor reloads it under R487. -/
  | fwCheck
  /-- RESET_N_RELEASE (R539): RESET_N is released, ending stage RESET of a start so that stage FLASH may begin. -/
  | resetNRelease
  /-- POR_N_RELEASE (R539): POR_N is released, ending stage RESET of a power-on start. -/
  | porNRelease (railsGood : Bool)
  /-- EXTEST (R637): With TRST_N high, a boundary-scan EXTEST instruction takes the balls from their functions at once. -/
  | extest
  deriving DecidableEq, Repr

end Sys2Proof
end

