-- ==== Sys2Proof/Machine/State.lean ====
section
/-! DEFINITION. The state of the OS-8840 as plain data, the reasons a step can stop, and the state after power-on
reset. Registers live in the register file `regs` (one home per stored field of the register tables); what the spec
gives the machine beside them lives in the structures below. Times called `…At`, `…Until` and `due` count elapsed
ticks of 2 ns since power-on unless said otherwise; ticks of the timeline are numbers below 2^64. -/

namespace Sys2Proof.Machine

/-! ## Exact settings and hops -/

/-- A frequency setting: the core runs at 500 MHz × (n + num/den) (R109). -/
structure Setting where
  n : Nat
  num : Nat
  den : Nat
  deriving DecidableEq, Repr, Inhabited

/-- A glide in progress on a core (R160, R228): from tick `ks` over `gtime` ticks from the ratio `r0` in force at `ks`
to the setting `dst`, with the core's predicted phase `phi0` at `ks`. -/
structure Glide where
  ks : Nat
  gtime : Nat
  r0 : Rat
  dst : Setting
  phi0 : Rat
  deriving DecidableEq, Repr, Inhabited

/-! ## Faults (spec/13) -/

/-- One tally entry (Table 13.7). -/
structure TallyEntry where
  stamp : Nat
  kind : Nat
  cls : Nat
  ecls : Nat
  forced : Bool
  injected : Bool
  escalated : Bool
  grace : Bool
  noSpare : Bool
  seq : Nat
  bit : Nat
  arg : Word
  deriving DecidableEq, Repr, Inhabited

/-- What ends a lapse (R522): the acknowledgement of its fault, the ungating of a core, the anchors being locked
again, a calibration group being current again, a spare thread taking a station, a spare that takes its role at once, or
nothing before power-on reset. -/
inductive LapseEnd where
  | ack | core (n : Nat) | trig (n : Nat) | anchor | cal (g : Nat) | thread (n : Nat) | spare | never
  deriving DecidableEq, Repr, Inhabited

/-- A raise that awaits its reaction at the tick after its stamp (R501, R508). `at_` is the elapsed tick of the raise and
`cls` the class FLT_SEV held then; `grace` marks a fault whose grace timer expired, `noSpare` that its row found no spare,
`lapse` the stations whose promise lapses with it and what ends that lapse. `made` is the tick at which the detector stamped
it (R43), `owner` the station that owned the core then (R504), and `lane` the lane of a fleet cause (Table 13.5). -/
structure Raise where
  fid : Fid
  at_ : Nat
  stamp : Nat
  arg : Word
  forced : Bool
  injected : Bool
  cls : Nat
  grace : Bool
  noSpare : Bool
  lapse : Option (Word × LapseEnd)
  made : Nat
  owner : Option Nat
  lane : Option Nat
  deriving DecidableEq, Repr, Inhabited

/-- A grace timer (R515): its source bit, the elapsed tick of its expiry, and the raise that started it. -/
structure GraceTimer where
  bit : Nat
  due : Nat
  raise : Raise
  deriving DecidableEq, Repr, Inhabited

/-- A suppression of one source bit by a consequence window (R517, R520); with `lane`, of what one lane raises alone (Table 13.5). -/
structure Suppression where
  bit : Nat
  from_ : Nat
  until_ : Nat
  cause : Fid
  lane : Option Nat
  deriving DecidableEq, Repr, Inhabited

/-- One fault window: its registers and items (R499, Table 13.11). `fresh` holds the FLT_STAT bits set at the elapsed tick
`freshAt`, which a write released at that tick does not clear (Table 13.9). `pendMinor` and `pendSerious` hold the bits with a pending fault
of effective class 1 and of class 2 (R513): a source may have both, and FLT_ECLS shows the latest alone. -/
structure FaultWindow where
  live : Word
  stat : Word
  sel : Word
  sev0 : Word
  sev1 : Word
  force : Word
  inj : Word
  irq : Word
  grace : Word
  ctrl : Word
  ecls0 : Word
  ecls1 : Word
  pend : Word
  pendMinor : Word
  pendSerious : Word
  supp : List Suppression
  graceTimers : List GraceTimer
  freshAt : Nat
  fresh : Word
  overflow : Nat
  newSeq : Nat
  tally : List TallyEntry
  latch1 : Word
  latch2 : Word
  latch3 : Word
  deriving DecidableEq, Repr, Inhabited

/-- A lapse of the promise in progress (R4, R522): the source that began it, its stations (bit n for Sn), what ends it, and
whether that has come while another condition of a station still fails. -/
structure Lapse where
  fid : Fid
  stations : Word
  ends : LapseEnd
  over_ : Bool
  deriving DecidableEq, Repr, Inhabited

/-! ## The timeline (spec/01, spec/04) -/

/-- A trigger input's qualifier, or SYNC_IN's (R305 to R311): the elapsed tick of the last write that enabled it, that of its last event's stamp, a REARM that
waits for its inactive samples, the elapsed tick of the first inactive sample after its last leading edge, and whether it is
stuck active with no such tick known. -/
structure Trig where
  since : Nat
  lastAt : Option Nat
  rearm : Bool
  activeTo : Nat
  held : Bool
  deriving DecidableEq, Repr, Inhabited

/-- The SYNC_IN arming window and what an edge counted in it will do (R177 to R182, R30). -/
structure SyncWindow where
  closesAt : Option Nat
  counted : Bool
  restart : Bool
  load : Bool
  deriving DecidableEq, Repr, Inhabited

/-- A counted SYNC_IN edge whose restart or load is due at the tick `due` of the count (R180, R29). -/
structure SyncDue where
  stamp : Nat
  due : Nat
  restart : Bool
  load : Bool
  deriving DecidableEq, Repr, Inhabited

/-- A scheduled write in its queue (R54). `seq` is its place in the order of acceptance, which scheduled writes share with
armed changes (Table 1.3). -/
structure SchedWrite where
  addr : Nat
  data : Word
  tick : Nat
  seq : Nat
  deriving DecidableEq, Repr, Inhabited

/-! ## Anchors and references (spec/02) -/

/-- Anchor states (Table 2.3). -/
inductive AncState where
  | off | innerAcq | innerLocked | outerAcq | steered | following | failed
  deriving DecidableEq, Repr, Inhabited

/-- A reference input (R62 to R68). Times are in elapsed ticks; `lostAt` is that of its last disqualification. -/
structure RefInput where
  qualified : Bool
  active : Bool
  inAccept : Bool
  qualFrom : Option Nat
  gateBase : Nat
  held : Bool
  lostAt : Nat
  deriving DecidableEq, Repr, Inhabited

/-- An anchor (R69 to R105). `copy` is its count copy (R77), `tdcActive` and `tdcSpare` say which outer TDCs are in
service, `tdcChecking` that the check of R102 runs. `aim` is the outer phase error, in 0.1 ps, at which the outer loop holds
the anchor, and `slewing` says that it moves to zero (R90, R91). `loopBw` in 0.01 Hz, `loopDamp` in tenths and `loopSlew` in ps/s are what the outer loop used at its
last comparison (R71 to R73). -/
structure Anchor where
  state : AncState
  inner : Bool
  outer : Bool
  secondary : Bool
  hasTick : Bool
  copy : Count
  tdcActive : Bool
  tdcSpare : Bool
  spareIn : Bool
  tdcChecking : Bool
  aim : Rat
  slewing : Bool
  loopBw : Nat
  loopDamp : Nat
  loopSlew : Nat
  deriving DecidableEq, Repr, Inhabited

/-- What a detector's stamp releases at the next tick (R42, R132, R86, R347): the gating and reacquisition of a core that lost
lock (and whether the loss is consequential), the rows of Table 2.4 for a primary that is no longer steered and for an
anchor that lost inner lock, with what the event found (R84: the secondary ready, the secondary following), and the gating of
a shorted output. -/
inductive Later where
  | core (c : Nat) (conseq : Bool)
  | unsteered (a : Nat) (cause : Fid) (ready : Bool)
  | inner (a : Nat) (ready follows : Bool)
  | short (o : Nat)
  deriving DecidableEq, Repr, Inhabited

/-- A transfer or core move in progress (R86, R93): the anchor moved from and the cores moved. -/
structure Transfer where
  failed : Nat
  cores : List Nat
  deriving DecidableEq, Repr, Inhabited

/-! ## Cores (spec/03) -/

/-- Core states (Table 3.7). -/
inductive CoreSt where
  | off | idle | select | acquire | locked | lost | fenced
  deriving DecidableEq, Repr, Inhabited

/-- Core roles (Table 3.1). -/
inductive CoreRole where
  | unassigned | live | blocking | split | spare | fenced
  deriving DecidableEq, Repr, Inhabited

/-- Band selection modes (R121). -/
inductive BandMode where
  | forced | table | search
  deriving DecidableEq, Repr, Inhabited

/-- What CORE_STAT, CORE_PERR, CORE_LOCKTIME, CORE_MARGIN, CORE_LOCKSUM and CORE_LOLCNT show of a blocking core: the
values they had when it last left the live or split role (R215). -/
structure CoreView where
  stat : Word
  perr : Word
  lockTime : Word
  margin : Word
  locked : Bool
  lolCnt : Nat
  deriving DecidableEq, Repr, Inhabited

/-- A core's modulator (R112 to R115): the residues of its accumulators as fractions of den, accumulator 1 first, and the carries of the last
feedback cycles, the latest first: one of accumulator 1, two of 2, three of 3 and four of 4. -/
structure Modulator where
  a1 : Rat
  a2 : Rat
  a3 : Rat
  a4 : Rat
  c1 : Bool
  c2 : Vector Bool 2
  c3 : Vector Bool 3
  c4 : Vector Bool 4
  deriving DecidableEq, Repr, Inhabited

/-- A synthesis core. Times named `…At` are in elapsed ticks; `seedTick` is a tick of the count (R163). `vcoOn` says that sub-core
`sub` is powered (R120). `boundary` is the elapsed tick of the last happening of Table 11.5 at which waiting trim values may take effect. `inWin`
and `outWin` are the counters c and m of R126, `errSum` and `errN` the sum and number of the phase errors of the present
block of R139, `tdcFails` the consecutive failed checks of R140, `bw` the loop bandwidth in kHz used at the last comparison
(R118), `raceDue` that a spare may start to race for the core at the end of this tick (R134). -/
structure Core where
  state : CoreSt
  role : CoreRole
  station : Nat
  applied : Setting
  appliedSub : Nat
  appliedBand : Nat
  appliedMode : BandMode
  sub : Nat
  band : Nat
  vcoOn : Bool
  theta : Rat
  seed : Nat
  seedTick : Nat
  cfgErr : Bool
  acqMode : BandMode
  acqRestarted : Bool
  bandChosen : Bool
  acqAt : Nat
  fastUntil : Option Nat
  countFrom : Option Nat
  lockAt : Option Nat
  wasLocked : Bool
  holdDone : Bool
  mash3 : Bool
  dither : Nat
  racingFor : Option Nat
  steps : Nat
  consequential : Bool
  glide : Option Glide
  trim : Int
  ancTerm : Int
  idleUntil : Option Nat
  reassign : Option Nat
  fencedRole : CoreRole
  waitTick : Bool
  raceDue : Bool
  glideRelock : Bool
  lastView : CoreView
  boundary : Option Nat
  modl : Modulator
  inWin : Nat
  outWin : Nat
  errSum : Rat
  errN : Nat
  tdcFails : Nat
  bw : Nat
  deriving DecidableEq, Repr, Inhabited

/-! ## Outputs and raster channels (spec/08) -/

/-- A SYSREF burst running on an output (R184): the first grid index, the pulses asked for, and the elapsed tick at which its grid
was last set. -/
structure Burst where
  first : Int
  count : Nat
  at_ : Nat
  deriving DecidableEq, Repr, Inhabited

/-- What the divider of an output follows (R155, R183): a core's phase, the divider reference index, D and M, the delays in half
cycles and quarter picoseconds, SMODE with the grid period and pulse width in core cycles, and the swing code. -/
structure Wave where
  core : Nat
  theta : Rat
  applied : Setting
  glide : Option Glide
  psi : Int
  d : Nat
  m : Nat
  half : Nat
  fine : Nat
  smode : Nat
  period : Nat
  width : Nat
  amp : Nat
  deriving DecidableEq, Repr, Inhabited

/-- One cycle or pulse of an output: the instants, in ticks, at which its rising edge, its falling edge and its end leave the divider,
and its delay to the ball. -/
structure Cycle where
  rise : Rat
  fall : Rat
  end_ : Rat
  tau : Rat
  deriving DecidableEq, Repr, Inhabited

/-- An output. `kr` and `psi` are its divider reference tick and index (R167); `boundary` as of a core. `periodic` is the grid index
from which periodic pulses fall, while they run (R184). `wave` is what its divider follows since the end of the last tick, none
while it is gated; `tail` is the last cycle of what it followed before, `opens` the instant before which no rising edge leaves the
divider, and `load` the count loaded into the divider then (R169). Until `ampAt` the swing is `ampWas` (R345). `movedAt` is the
elapsed tick of the last change of what it follows, `sinceEdge` the femtoseconds from the last edge the guard emitted to the last
that reached it, `rbAt` the elapsed tick of the last end of a read-back window, `shortAt` that of the gating of a short, `driveAt` that at which its driver last
switched on (R347). `readyAt` is the elapsed tick at which reason OFF ends (R335). -/
structure Output where
  kr : Nat
  psi : Int
  domainOn : Bool
  readyAt : Option Nat
  progGate : Bool
  rasterGate : Bool
  rasterHold : Bool
  shorted : Bool
  fenced : Bool
  amp : Nat
  guardPlan : Bool
  burst : Option Burst
  periodic : Option Int
  wave : Option Wave
  tail : Option Cycle
  opens : Rat
  load : Nat
  ampWas : Nat
  ampAt : Rat
  movedAt : Option Nat
  sinceEdge : Nat
  rbAt : Option Nat
  shortAt : Option Nat
  driveAt : Nat
  rbMiss : Nat
  rbPhaseRun : Nat
  rbCountBad : Bool
  rbPhaseBad : Bool
  boundary : Option Nat
  deriving DecidableEq, Repr, Inhabited

/-- A raster change staged by RAS_CTL.STAGE (R355). -/
structure RasChange where
  setting : Setting
  sub : Nat
  band : Nat
  dsel : Nat
  forceCold : Bool
  gtime : Nat
  expect : Word
  deriving DecidableEq, Repr, Inhabited

/-- A raster channel (R351 to R359). `applyAt` is the tick a = s + 2 of R356; `lost` says that TE_LOST has been raised for the present
absence of TE, `timedOut` that the timeout has run out since the last edge and STAGE (R358). -/
structure Raster where
  bound : Bool
  pending : Option RasChange
  applyAt : Option Nat
  applying : Bool
  held : Bool
  lastKind : Nat
  lastTe : Option Nat
  prevTe : Bool
  since : Nat
  lost : Bool
  timedOut : Bool
  tainted : Bool
  deriving DecidableEq, Repr, Inhabited

/-! ## Stations and sequencer threads (spec/05 to spec/07) -/

/-- Station states (SEQ_STAT.STATE). -/
inductive RunState where
  | empty | loaded | armed | running | stopped | exception
  deriving DecidableEq, Repr, Inhabited

/-- An event on a station's queue of the event board (R43, R252 to R254). -/
structure Event where
  src : Nat
  stamp : Nat
  payload : Word
  deriving DecidableEq, Repr, Inhabited

/-- A value of a thread (R247, R282). `dec` is its decision tick. While `base` names an event instruction that has not
evaluated the value is pending: a t register then holds the offset from that instruction's tick in `val`. -/
structure Tracked (α : Type) where
  val : α
  dec : Option Nat
  base : Option Nat
  deriving DecidableEq, Repr, Inhabited

/-- The registers of a thread (Table 6.1) and its path tick (R248). -/
structure QRegs where
  g : Vector (Tracked Word) 16
  t : Vector (Tracked Count) 4
  p : Vector (Tracked Bool) 4
  lc : Vector (Tracked (BitVec 16)) 2
  lk : Tracked (BitVec 14)
  pc : BitVec 14
  path : Option Nat
  deriving DecidableEq, Repr, Inhabited

/-- A station's mark for an event source, and the payload of the latest event a take of it removed, with the decision
tick of that take (Table 6.8). -/
structure Mark where
  src : Nat
  at_ : Nat
  payload : Word
  dec : Option Nat
  deriving DecidableEq, Repr, Inhabited

/-- What an event instruction answered (Table 6.8): predicate, count or payload, tick, decision tick, the mark after it,
and the payload of the latest event it removes. -/
structure EvRes where
  flag : Bool
  value : Word
  tick : Nat
  dec : Option Nat
  mark : Nat
  taken : Option Word
  deriving DecidableEq, Repr, Inhabited

/-- The question an executed event instruction asks: its source, its tick X, K, and its answer once it has evaluated. -/
structure EvAsk where
  src : Nat
  x : Nat
  keep : Bool
  res : Option EvRes
  deriving DecidableEq, Repr, Inhabited

/-- An instruction that has executed and not committed (R279). `guardBase` is the event instruction its guard waits for
(a candidate effect, R283); `off` says its guard is false; `exc` is the exception it raises when it commits; `hop` is
the profile a hop refers to and `tick` the named tick of an effect. -/
structure Exec where
  id : Nat
  pc : BitVec 14
  ins : QInstr
  guardBase : Option Nat
  off : Bool
  exc : Nat
  hop : Option Nat
  tick : Tracked Count
  ask : Option EvAsk
  deriving DecidableEq, Repr, Inhabited

/-- An unresolved two-way decision (R285): the branch's number, the event instruction its guard waits for, the outcome
predicted, and the alternate path with its registers. -/
structure Fork where
  id : Nat
  base : Nat
  taken : Bool
  alt : List Exec
  regs : QRegs
  deriving DecidableEq, Repr, Inhabited

/-- The speculative work of a station's thread (Table 7.1): registers on the followed path, executed instructions oldest
first, unresolved decisions oldest first, and the prediction counters (R286). -/
structure Thread where
  regs : QRegs
  insts : List Exec
  forks : List Fork
  ctr : Vector (Fin 4) 64
  nextId : Nat
  ended : Bool
  deriving DecidableEq, Repr, Inhabited

/-- What an effect does at its release (Tables 6.10 to 6.12). -/
inductive Act where
  | swap (prof : Nat)
  | cold (slot prof : Nat)
  | glide (slot prof : Nat)
  | outg (ungate : Bool) (outs : Word)
  | dset (set : Nat) (outs : Word)
  | divrst (outs : Word)
  | sysref (op : SysOp) (outs : Word)
  | stat (mask value : BitVec 8)
  | send0 (payload : Word) (carried : Nat) (slot flow : Nat)
  | send1 (word : Word) (tick : Nat) (flow : Nat)
  | halt
  | idle (slot w : Nat)
  deriving DecidableEq, Repr, Inhabited

/-- An effect in a station's holding queue (R263, R265): its named tick, its decision tick (R249) and the tick at which
it entered the queue. -/
structure Effect where
  id : Nat
  pc : BitVec 14
  act : Act
  tick : Nat
  dec : Option Nat
  entered : Nat
  deriving DecidableEq, Repr, Inhabited

/-- A preparation of a blocking core (R208, R209): the number of the hop it serves (0 while a thread that resumes on a
spare has not reached it again, R276), its profile and content, and the named tick a
continuous hop was seeded for. -/
structure Prep where
  hop : Nat
  prof : Nat
  words : List Word
  forTick : Option Nat
  deriving DecidableEq, Repr, Inhabited

/-- A slot of a station's map: the elapsed tick from which its core is free (R210), its preparation, the elapsed tick from
which the core is settled (R208), and the profile it holds by a coherent load with no glide, rewrite or loss of lock
since (R214). -/
structure SlotSt where
  freeAt : Nat
  prep : Option Prep
  settled : Option Nat
  holds : Option Nat
  deriving DecidableEq, Repr, Inhabited

/-- A cold hop's ungating (R225): its slot, its named tick and its outputs. -/
structure ColdWait where
  slot : Nat
  named : Nat
  outs : Word
  deriving DecidableEq, Repr, Inhabited

/-- What the loader keeps of a handoff program it has accepted (R314): its entry, mode, reach set, event sources and the
profiles it names by an immediate. -/
structure Handoff where
  entry : BitVec 14
  guaranteed : Bool
  reach : List Nat
  srcs : List Nat
  profs : List Nat
  deriving DecidableEq, Repr, Inhabited

/-- A CHECK the loader works on (R313, R314). -/
structure CheckJob where
  station : Nat
  handoff : Bool
  entry : BitVec 14
  maySlip : Bool
  deriving DecidableEq, Repr, Inhabited

/-- A station. `accepted` is the mode of the program last accepted, `guaranteed` that of the program running or last run
(R304); `reach` and `srcs` are the accepted program's reach set and event sources; `comm` and `marks` are the committed
state (R275); `threadDown` is the elapsed tick of a fence of its thread until the spare `spareThread` resumes (R276); `endedAt` is the
tick of an exception's commit or of the last effect released after it (R269); `lastHop` the
tick of its last hop; `named` are the outputs that a hop of this run has named (R199), and `kept` the contents that hops, by their
numbers, keep of profiles that an armed change has replaced since their named ticks (R205); `uses` are the calibration groups
it used at the last tick of a run (R432). -/
structure Station where
  run : RunState
  accepted : Bool
  guaranteed : Bool
  events : List Event
  enabled : List Nat
  srcs : List Nat
  marks : List Mark
  startTick : Nat
  reach : List Nat
  handoff : Option Handoff
  handoffAt : Option Nat
  comm : QRegs
  thread : Thread
  queue : List Effect
  exc : Nat
  epc : BitVec 14
  endedAt : Option Nat
  threadDown : Option Nat
  spareThread : Option Nat
  liveSlot : Nat
  liveProf : Nat
  lastHop : Nat
  lastSwap : Option Nat
  slots : Vector SlotSt 3
  colds : List ColdWait
  mispred : Nat
  squashed : Nat
  named : Word
  kept : List (Nat × List Word)
  uses : List Nat
  deriving DecidableEq, Repr, Inhabited


/-! ## Lanes (spec/09) -/

/-- Lane states (Table 9.3). -/
inductive LaneSt where
  | off | quiet | waitSig | cdr | eq | frame | linked | timed | steering
  deriving DecidableEq, Repr, Inhabited

/-- A class-0 message (Table 9.6) without its CRC: receiver's flow and event slot, repeaters passed, carried tick [47:0]
and payload. -/
structure C0Msg where
  flow : Nat
  slot : Nat
  hop : Nat
  stamp : Nat
  payload : Word
  deriving DecidableEq, Repr, Inhabited

/-- A locally originated class-0 message in its lane's queue (R383), with the elapsed tick at which it entered. -/
structure C0Wait where
  msg : C0Msg
  at_ : Nat
  deriving DecidableEq, Repr, Inhabited

/-- A cell of classes 1 to 3 (Table 9.7) without its CRC, in a lane's queue of its class (R379). -/
structure Cell where
  flow : Nat
  pos : Nat
  data : BitVec 96
  deriving DecidableEq, Repr, Inhabited

/-- A class-1 word delivered locally (R385). -/
structure C1Word where
  word : Word
  tick : Nat
  flow : Nat
  lane : Nat
  deriving DecidableEq, Repr, Inhabited

/-- A slice change in progress (R405, R406): the slice to take over, whether it is a planned move, the state the lane
returns to, and whether LNG_CMD.STEER started it. -/
structure SliceMove where
  slice : Nat
  planned : Bool
  back : LaneSt
  cmd : Bool
  deriving DecidableEq, Repr, Inhabited

/-- A lane. `since` is the elapsed tick of entry into `state`; `cdr` says that the receiver holds the peer's symbol clock;
`thetas` are the valid time-transfer results, newest first, in 0.1 ps, and `valid` counts consecutive valid ones; `own` is
the queue of locally originated class-0 messages, `sent` the message last placed in each outgoing class-0 slot and `sentIn` the outgoing frame it leaves in, `cells` the
queues of classes 1 to 3 with the flow last served; `heardAt` is the elapsed tick of the last DIGEST, `freshAt` of the last
with CURRENT = 1, or since when the lane is watched. `causes` holds the mismatch causes in force (Table 10.5), `lastEpoch` and `lastActual` what the last DIGEST carried. -/
structure Lane where
  state : LaneSt
  since : Nat
  slice : Nat
  fecOn : Bool
  frameLock : Bool
  cdr : Bool
  fast : Bool
  peerLane : Nat
  peerId : Nat
  peerDepth : Nat
  roleRaised : Bool
  move : Option SliceMove
  thetas : List Rat
  valid : Nat
  loopCal : Bool
  own : List C0Wait
  sent : Vector (BitVec 128) 8
  sentIn : Vector Nat 8
  cells : Vector (List Cell) 3
  served : Vector Nat 3
  heardAt : Nat
  freshAt : Nat
  causes : List Nat
  lastEpoch : Word
  lastActual : BitVec 64
  deriving DecidableEq, Repr, Inhabited

/-- What the lanes share: slices out of service, the flow tables, the class-1 words, whether a timing source has set the
frame phase and the elapsed tick at which a superframe of it began (R387), the shift of the primary's outer phase target
and what is still to steer out and still to move after a LOAD, in 0.1 ps (R397, R398), whether a LOAD settles, and the timing source of the last tick. -/
structure LaneGroup where
  sliceFenced : BitVec 18
  flows : WMap
  words : List C1Word
  framed : Bool
  framePhase : Nat
  target : Rat
  toSteer : Rat
  toMove : Rat
  settling : Bool
  source : Option Nat
  deriving DecidableEq, Repr, Inhabited

/-! ## Fleet (spec/10) -/

/-- A class-2 or class-3 message body: the DATA fields of its cells, first cell first (R412). -/
abbrev Body := List (BitVec 96)

/-- A management message delivered to the device: its arrival lane and its body. -/
structure Delivery where
  lane : Nat
  body : Body
  deriving DecidableEq, Repr, Inhabited

/-- An outstanding register request (R417). -/
structure Request where
  tag : Nat
  dst : Nat
  addr : Nat
  read : Bool
  dueAt : Nat
  deriving DecidableEq, Repr, Inhabited

/-- An entry of the fleet log (R424). -/
structure LogEntry where
  subject : Nat
  lane : Nat
  cause : Nat
  epoch : Word
  actual : BitVec 64
  tick : Word
  deriving DecidableEq, Repr, Inhabited

/-- An item of an armed stream (Table 10.2). -/
inductive ArmItem where
  | reg (addr : Nat) (value : Word)
  | prof (index : Nat) (words : List Word)
  deriving DecidableEq, Repr, Inhabited

/-- An armed stream in assembly (R425); `bodies` are its item bodies in order, for the CRC of Table 10.6. -/
structure Stream where
  src : Nat
  dst : Nat
  tag : Nat
  lane : Nat
  epoch : Word
  relTick : Nat
  count : Nat
  expectV : Bool
  expect : BitVec 64
  items : List ArmItem
  bodies : List Body
  lastAt : Nat
  deriving DecidableEq, Repr, Inhabited

/-- A pending change (R426, R427). `general` says that it was received with DST = 0. -/
structure Change where
  seq : Nat
  general : Bool
  epoch : Word
  relTick : Nat
  items : List ArmItem
  expectV : Bool
  expect : BitVec 64
  deriving DecidableEq, Repr, Inhabited

/-- The fleet block. `inbox` holds the management messages delivered and not yet handled, oldest first; `set` the registers
of sections 3 and 4 of the consistency set (R419); `digest` the last completed result, `current` FLT_DGSTAT.CURRENT,
`running` the start tick of a computation under way, `started` that of the last completed one. -/
structure Fleet where
  inbox : List Delivery
  request : Option Request
  nextTag : Nat
  set : RegFile
  digest : BitVec 256
  current : Bool
  running : Option Nat
  started : Option Nat
  epTick : Nat
  log : List LogEntry
  streams : List Stream
  changes : List Change
  deriving DecidableEq, Repr, Inhabited


/-! ## Calibration (spec/11) -/

/-- Values that wait to take effect in a unit (R448): the value words, the base temperature they were taken at, the kind of
the run (1 measured, 2 model) and the elapsed tick at which they were ready. -/
structure CalWait where
  words : WMap
  base : Int
  kind : Nat
  readyAt : Nat
  deriving DecidableEq, Repr, Inhabited

/-- A completed measured run (R442): its base temperature in 1/16 °C and its value words. -/
structure CalPast where
  base : Int
  words : WMap
  deriving DecidableEq, Repr, Inhabited

/-- A calibration group (R432, the CAL_G registers). `past` holds the measured runs behind the coefficients, newest first;
`wanted` a RUN that waits for the unit; `retryAt` the elapsed tick before which no run starts after NOREF; `paused` the
start temperature of a run that gave way to a preparation or a transfer, and `pausedDone` the steps it had completed (R446). -/
structure CalGroup where
  hasVal : Bool
  base : Option Int
  past : List CalPast
  lastKind : Nat
  imported : Bool
  hostSet : Bool
  result : Nat
  steps : Nat
  count : Nat
  stamp : Nat
  snap0 : Word
  snap1 : Word
  snap2 : Word
  due : Bool
  dueSince : Nat
  starved : Bool
  usedDue : Bool
  wanted : Bool
  retryAt : Nat
  paused : Option Int
  pausedDone : Nat
  waiting : Option CalWait
  deriving DecidableEq, Repr, Inhabited

/-- The measured run in progress (R443 to R446): its group, the elapsed tick of its start, its start and end temperatures
once sampled, and the steps enabled. `asked` says that a sample is asked for and not yet converted; `done` are the steps that a paused
run had completed before this one resumed it. -/
structure CalRun where
  group : Nat
  startedAt : Nat
  t0 : Option Int
  t1 : Option Int
  steps : Nat
  asked : Bool
  done : Nat
  deriving DecidableEq, Repr, Inhabited

/-- The calibration engine: its groups, its run, the image buffer (R458) and the elapsed tick of the last injection for a
group whose channel is not scanned (R439). -/
structure Cal where
  groups : Vector CalGroup 60
  run : Option CalRun
  img : WMap
  injectedAt : Vector Nat 60
  deriving DecidableEq, Repr, Inhabited

/-! ## The monitor converter (spec/12) -/

/-- What a slot converts (R470); entry 32 is that of no entry, of a scan whose mask has been replaced. -/
inductive MonUse where
  | check (ch : Nat) | scan (entry ch : Nat) | host (ch : Nat) | cal (group ch : Nat) | none
  deriving DecidableEq, Repr, Inhabited

/-- An injected request (R477): its channel, the calibration group that asks (none: the host), and its tick of acceptance. -/
structure MonReq where
  ch : Nat
  group : Option Nat
  at_ : Nat
  deriving DecidableEq, Repr, Inhabited

/-- The monitor converter. `slot` is the slot in progress and `use` what it converts; `mask` the scan mask in force and
`next` the scan entry that comes next; `maskDue` says that the scan has ended and a pending mask is to be taken. `latest`
holds each channel's latest value (R476), `stamps` the stamp of each result pair, `fails` the consecutive failed checks of
channels 60 and 61, `armed` the thresholds. -/
structure Mon where
  slot : Option Nat
  use : MonUse
  mask : BitVec 64
  next : Nat
  maskDue : Bool
  queue : List MonReq
  latest : Vector (Option Nat) 64
  stamps : Vector Nat 32
  injStamp : Nat
  fails : Vector Nat 2
  deriving DecidableEq, Repr, Inhabited

/-! ## The barrow and power (spec/12) -/

/-- A barrow input: its filtered value with 8 fractional bits (R484), its run of samples with or without activity, its
condition and whether it has alerted (R485, R486). -/
structure BarIn where
  y : Int
  active : Bool
  run : Nat
  cond : Bool
  alerted : Bool
  deriving DecidableEq, Repr, Inhabited

/-- The barrow: its inputs, whether a sample was taken since power-on reset, the elapsed tick from which its next period
runs, and that of entry to DORMANT. -/
structure Barrow where
  ins : Vector BarIn 20
  sampled : Bool
  periodFrom : Nat
  dormantAt : Nat
  deriving DecidableEq, Repr, Inhabited

/-! ## The store and the update logic (spec/14, spec/15) -/

/-- The role of a pool block (Table 14.4). -/
inductive PoolRole where
  | baseA (i : Nat) | baseB (i : Nat) | ring (i : Nat) | spare | retired | blank | other
  deriving DecidableEq, Repr, Inhabited

/-- A pool block of the flash: what its header names, and its erase count. -/
structure PoolBlock where
  role : PoolRole
  erases : Nat
  deriving DecidableEq, Repr, Inhabited

/-- What the COMMIT word of a record reads (R559): committed, void, or neither. -/
inductive Commit where
  | whole | void | torn
  deriving DecidableEq, Repr, Inhabited

/-- A ledger record on the flash (Table 14.7): its kind, sequence number, settings format, payload words, COMMIT, and the
ring block, counted from the store's initialisation, in which it begins and ends. -/
structure Record where
  kind : Nat
  seq : Nat
  format : Nat
  payload : List Word
  commit : Commit
  first : Nat
  last : Nat
  deriving DecidableEq, Repr, Inhabited

/-- A section of a base copy (Table 14.8): its kind, format and body. -/
structure Section where
  kind : Nat
  format : Nat
  body : List Word
  deriving DecidableEq, Repr, Inhabited

/-- A base copy (R560, R561). -/
structure BaseCopy where
  valid : Bool
  lastSeq : Nat
  sections : List Section
  deriving DecidableEq, Repr, Inhabited

/-- Update states (Table 15.9). -/
inductive UpdState where
  | idle | receiving | verifying | verified | armed | activating | trial | reverting
  deriving DecidableEq, Repr, Inhabited

/-- A slot-table entry (Table 15.10). -/
structure SlotEntry where
  state : UpdState
  trials : Nat
  nofb : Bool
  delta : Bool
  fbValid : Bool
  stValid : Bool
  seq : Nat
  actHash : List Byte
  fbHash : List Byte
  stHash : List Byte
  jblock : Nat
  deriving DecidableEq, Repr, Inhabited

/-- A DONE entry of the update journal (Table 15.12). -/
structure JournalEntry where
  op : Nat
  block : Nat
  seq : Nat
  deriving DecidableEq, Repr, Inhabited

/-- The external flash device, what it keeps without power. `answers`, `octal` and `mib` are what it is; the slots hold
their bytes; `table_` is the newest committed slot-table entry; `journal` the entries of the journal block in use; `ring`
the ledger records in ring order and `ringBlock`, `ringWord` the write point: a ring block counted from initialisation and
the word in it. -/
structure Flash where
  answers : Bool
  octal : Bool
  mib : Nat
  pool : List PoolBlock
  baseA : BaseCopy
  baseB : BaseCopy
  ring : List Record
  ringHead : Nat
  ringBlock : Nat
  ringWord : Nat
  active : List Byte
  fallback : List Byte
  staging : List Byte
  table_ : Option SlotEntry
  tableSeq : Nat
  journal : List JournalEntry
  deriving DecidableEq, Repr, Inhabited

/-- The OTP of the die (Table 15.1): the floors of the image types, the device key, the SHA-384 of the signing key, and
DEVSER. -/
structure Otp where
  floors : Vector Nat 4
  deviceKey : BitVec 256
  keyHash : BitVec 384
  serial : BitVec 64
  deriving DecidableEq, Repr, Inhabited

/-- A commit queued by the store (R557): its kind and its payload. -/
structure Queued where
  kind : Nat
  payload : List Word
  deriving DecidableEq, Repr, Inhabited

/-- The store engine (R551 to R567): the queue of commits, the record being written, whether fulling runs and the SEQ up to
which it folds, whether the ledger is read-only, which base copy is in use, the values last written to the saved registers
outside the consistency set (R551), the committed settings (fault items as their difference from Reset), the format of the
settings found at the start, the update events to be recorded at DONE (R602), and the tick of the last commit. -/
structure Store where
  queue : List Queued
  writing : Option Record
  fulling : Option Nat
  readOnly : Bool
  useB : Bool
  present : RegFile
  saved : RegFile
  savedProfs : WMap
  savedPgm : WMap
  savedFlows : WMap
  savedFaults : WMap
  updEvents : List Nat
  lastCommit : Nat
  deriving DecidableEq, Repr, Inhabited

/-- A copy of the update logic under way (R590): its operation (1 activation, 3 reversion), phase, block and the blocks of
each phase. -/
structure Copy where
  revert : Bool
  noFb : Bool
  phase : Nat
  block : Nat
  blocks1 : Nat
  blocks2 : Nat
  deriving DecidableEq, Repr, Inhabited

/-- A Plipo session (R576 to R580): its key, whether it runs over the lanes and for which device, the last SEQ and the
elapsed tick of the last valid request. -/
structure Session where
  key : List Byte
  lane : Bool
  peer : Nat
  seq : Nat
  heardAt : Nat
  deriving DecidableEq, Repr, Inhabited

/-- The service port and its sessions: the nonce given by the last OPEN and not yet used, how many nonces were drawn, the
open session, consecutive failed AUTHs and the elapsed tick until which OPEN is refused, the response that waits to be read,
the bytes last returned on SVC_MISO, the response last sent in the session, frames delivered by the lanes with their senders,
and a start that follows once the response is read. -/
structure Svc where
  nonce : Option (List Byte)
  drawn : Nat
  session : Option Session
  fails : Nat
  lockUntil : Option Nat
  resp : List Byte
  miso : List Byte
  last : List Byte
  inbox : List (Nat × List Byte)
  restart : Bool
  deriving DecidableEq, Repr, Inhabited

/-- Start and update: why the start in progress began (0 power-on, 1 barrow wake, 2 RESET_N), which image runs, why the
device is in RECOVERY (0 not, 1 flash, 2 no image, 3 a copy), the copy under way, the bytes received into staging, and the
elapsed tick of DONE in TRIAL. -/
structure Boot where
  kind : Nat
  image : List Byte
  fallbackRuns : Bool
  recovery : Nat
  copy : Option Copy
  length : Nat
  doneAt : Option Nat
  deriving DecidableEq, Repr, Inhabited

/-! ## The ports (spec/16) -/

/-- A WRITE in the HSPI queue (R610), with the elapsed tick at which it joined. -/
structure HspiWrite where
  addr : Nat
  data : Word
  at_ : Nat
  deriving DecidableEq, Repr, Inhabited

/-- The HSPI port: its queue, the status of the most recently handled write, the response of the last READ (status, data),
and the bytes last sent on HSPI_MISO. -/
structure Hspi where
  queue : List HspiWrite
  lastw : Nat
  read : Option (Nat × Word)
  miso : List Byte
  deriving DecidableEq, Repr, Inhabited

/-- The mailbox (R621, R622): the command that runs, how far it is, and the ticks it has named. -/
structure Mailbox where
  busy : Bool
  stage : Nat
  tick : Nat
  deriving DecidableEq, Repr, Inhabited

/-- The balls and rails the commands act on (spec/17): VDD_AON above 0.6 V, RESET_N and POR_N held low from outside,
TESTMODE, and EXTEST in force. -/
structure Pins where
  aon : Bool
  resetLow : Bool
  porLow : Bool
  testMode : Bool
  extest : Bool
  deriving DecidableEq, Repr, Inhabited

/-! ## The machine -/

/-- A one-bit W1C field that hardware has set (R19): its register, instance and bit, and the elapsed tick of the set. -/
structure Stick where
  reg : RegName
  inst : Nat
  bit : Nat
  at_ : Nat
  deriving DecidableEq, Repr, Inhabited

/-- The state of the machine.

`pending` are the commands that wait; `count` is the timeline count (R23) and `elapsed` the ticks since power-on. `raises`
wait for their reactions, `sticks` are the last sets of sticky bits, `lapses` are in progress. `syncStamp` is the stamp of the last counted SYNC_IN edge, `hwRel` the
release tick of the last unscheduled host write, `sched` the scheduled writes in order of acceptance, `acceptSeq` how many
scheduled writes and armed changes have been accepted. `stepped` says that the sequencer effects of the present tick have
been applied (Table 1.3), `heldWrites` are host writes that came after them and wait for the next tick. `primary` is the anchor
that carries the timeline and `primaryAt` when it took it; `alignRun` counts ticks of alignment, `alignOver` is the elapsed
tick at which it exceeded TRIP, `ancEventAt` that of the last lock or reference event of an anchor; `xferStamp` is the tick of the last transfer, `later` what the next tick releases (R42). `pgm` holds the program stores (station ×
16,384 + index), `profs` the profiles (8 × profile + word), `shadows` pending profile writes, `check` the CHECK that runs.
`statPins` are the levels that stations drive on the STAT pins. `spareRows` counts the spare rows of the profile store, the
eight program stores and the flow tables; `fencedEntries` are entries of rows fenced for want of one, and `refills` the program words
(station × 16,384 + index) of rows being refilled, each with the elapsed tick at which the refill completes. `powering` says that
PWR_CMD ACTIVE awaits its domains, `reloads` names the processors under reset or reload (0 management processor, 1 lane
controllers, 2 calibration engine, 3 barrow), `halted` that the device is HALTED. `calVals` holds the trim value words
(group × 2,048 + item). `readData` is the model's own: the word the last read returned, where a reader would see it. -/
structure State where
  pending : List Instr
  count : Count
  elapsed : Nat
  regs : RegFile
  windows : Vector FaultWindow 97
  raises : List Raise
  sticks : List Stick
  lapses : List Lapse
  sync : Option SyncWindow
  syncDue : List SyncDue
  syncStamp : Nat
  trigs : Vector Trig 9
  hwRel : Nat
  sched : List SchedWrite
  acceptSeq : Nat
  stepped : Bool
  heldWrites : List (Nat × Word)
  refs : Vector RefInput 5
  anchors : Vector Anchor 2
  primary : Option Nat
  primaryAt : Nat
  initDone : Bool
  alignRun : Nat
  alignOver : Option Nat
  ancEventAt : Option Nat
  xferStamp : Nat
  transfer : Option Transfer
  later : List Later
  cores : Vector Core 26
  outs : Vector Output 32
  ras : Vector Raster 2
  stations : Vector Station 8
  pgm : WMap
  profs : WMap
  shadows : List (Nat × List Word)
  check : Option CheckJob
  statPins : Vector (Option Bool) 8
  lanes : Vector Lane 16
  lng : LaneGroup
  fleet : Fleet
  spareRows : Vector Nat 10
  fencedEntries : List (Nat × Nat)
  refills : List (Nat × Nat)
  cal : Cal
  mon : Mon
  bar : Barrow
  flash : Flash
  otp : Otp
  store : Store
  boot : Boot
  svc : Svc
  hspi : Hspi
  mbx : Mailbox
  pins : Pins
  powering : Bool
  reloads : List Nat
  readData : Word
  halted : Bool
  calVals : WMap
  deriving DecidableEq, Repr

/-! ## Reasons to stop -/

/-- Why a command ends in a fault. -/
inductive Fault where
  /-- POR_N_RELEASE raises it, safe: a rail lies outside Table 17.3 when POR_N is released, and the spec defines no outcome
  of the start that follows (Table 17.12, R639). -/
  | railsOutOfRange
  deriving DecidableEq, Repr

/-- Why a command is refused. -/
inductive Refusal where
  /-- Dispatch raises it, safe: the command has no meaning in this model. -/
  | notModelled (mnemonic : String)
  deriving DecidableEq, Repr

/-! ## Power-on reset -/

/-- A fault window after power-on reset: the Reset values of its items (R530). -/
def FaultWindow.reset (code : Nat) : FaultWindow :=
  { live := 0, stat := 0, sel := 0, sev0 := (defaultSev code).1, sev1 := (defaultSev code).2, force := 0, inj := 0
    irq := 0xFFFFFFFF#32, grace := 0, ctrl := 0x032003E8#32, ecls0 := 0, ecls1 := 0, pend := 0, pendMinor := 0
    pendSerious := 0, supp := [], graceTimers := [], freshAt := 0, fresh := 0
    overflow := 0, newSeq := 0, tally := [], latch1 := 0, latch2 := 0, latch3 := 0 }

/-- The setting a core holds at power-on reset: the Reset values of its staged setting. -/
def Setting.reset : Setting := ⟨20, 0, 1⟩

/-- The quiet trigger input. -/
def Trig.reset : Trig := ⟨0, none, false, 0, false⟩

/-- A reference input at power-on reset: not qualified. -/
def RefInput.reset : RefInput := ⟨false, false, false, none, 0, false, 0⟩

/-- An anchor at power-on reset: OFF, both outer TDCs in service. -/
def Anchor.reset : Anchor :=
  { state := .off, inner := false, outer := false, secondary := false, hasTick := false, copy := 0
    tdcActive := true, tdcSpare := true, spareIn := false, tdcChecking := false, aim := 0, slewing := false, loopBw := 50000, loopDamp := 7
    loopSlew := 1000 }

/-- A modulator with every accumulator at zero. -/
def Modulator.zero : Modulator := ⟨0, 0, 0, 0, false, Vector.replicate 2 false, Vector.replicate 3 false, Vector.replicate 4 false⟩

/-- A core at power-on reset: OFF, C24 and C25 spares (R107). -/
def Core.reset (c : Nat) : Core :=
  { state := .off, role := if 24 ≤ c then .spare else .unassigned, station := 0, applied := Setting.reset, appliedSub := 1
    appliedBand := 128, appliedMode := .table, sub := 0, band := 0, vcoOn := false, theta := 0, seed := 0, seedTick := 0, cfgErr := false
    acqMode := .table, acqRestarted := false, bandChosen := false, acqAt := 0, fastUntil := none, countFrom := none
    lockAt := none, wasLocked := false, holdDone := false, mash3 := false, dither := 0, racingFor := none, steps := 0
    consequential := false, glide := none, trim := 0, ancTerm := 0, idleUntil := none, reassign := none
    fencedRole := .unassigned, waitTick := false, raceDue := false, glideRelock := false, lastView := ⟨0x10#32, 0, 0, 0, false, 0⟩, boundary := none
    modl := Modulator.zero, inWin := 0, outWin := 0, errSum := 0, errN := 0, tdcFails := 0, bw := 1000 }

/-- An output at power-on reset: its domain off. -/
def Output.reset : Output :=
  { kr := 0, psi := 0, domainOn := false, readyAt := none, progGate := false, rasterGate := false, rasterHold := false
    shorted := false, fenced := false, amp := 120, guardPlan := false, burst := none, periodic := none, rbMiss := 0
    wave := none, tail := none, opens := 0, load := 0, ampWas := 120, ampAt := 0, movedAt := none, sinceEdge := 0, rbAt := none
    shortAt := none, driveAt := 0
    rbPhaseRun := 0, rbCountBad := false, rbPhaseBad := false, boundary := none }

/-- A raster channel at power-on reset. -/
def Raster.reset : Raster :=
  { bound := false, pending := none, applyAt := none, applying := false, held := false, lastKind := 0, lastTe := none
    prevTe := false, since := 0, lost := false, timedOut := false, tainted := false }

/-- Registers of a thread that has not run. -/
def QRegs.reset : QRegs :=
  { g := Vector.replicate 16 ⟨0, none, none⟩, t := Vector.replicate 4 ⟨0, none, none⟩
    p := #v[⟨true, none, none⟩, ⟨false, none, none⟩, ⟨false, none, none⟩, ⟨false, none, none⟩]
    lc := Vector.replicate 2 ⟨0, none, none⟩, lk := ⟨0, none, none⟩, pc := 0#14, path := none }

/-- A station at power-on reset: EMPTY. -/
def Station.reset : Station :=
  { run := .empty, accepted := false, guaranteed := false, events := [], enabled := [], srcs := [], marks := [], startTick := 0
    reach := [], handoff := none, handoffAt := none, comm := QRegs.reset
    thread := ⟨QRegs.reset, [], [], Vector.replicate 64 1, 1, false⟩, queue := [], exc := 0, epc := 0#14, endedAt := none
    threadDown := none, spareThread := none, liveSlot := 0, liveProf := 0, lastHop := 0, lastSwap := none, slots := Vector.replicate 3 ⟨0, none, none, none⟩
    colds := [], mispred := 0, squashed := 0, named := 0, kept := [], uses := [] }

/-- A lane at power-on reset: OFF, on the slice of its number. -/
def Lane.reset (n : Nat) : Lane :=
  { state := .off, since := 0, slice := n, fecOn := false, frameLock := false, cdr := false, fast := false, peerLane := 0
    peerId := 0, peerDepth := 15, roleRaised := false, move := none, thetas := [], valid := 0, loopCal := false, own := []
    sent := Vector.replicate 8 0, sentIn := Vector.replicate 8 0, cells := Vector.replicate 3 [], served := Vector.replicate 3 0, heardAt := 0, freshAt := 0
    causes := [], lastEpoch := 0, lastActual := 0 }

/-- What the lanes share, at power-on reset. -/
def LaneGroup.reset : LaneGroup := ⟨0, [], [], false, 0, 0, 0, 0, false, none⟩

/-- The fleet block at power-on reset. -/
def Fleet.reset : Fleet :=
  { inbox := [], request := none, nextTag := 0, set := [], digest := 0, current := false, running := none, started := none
    epTick := 0, log := [], streams := [], changes := [] }

/-- A calibration group that holds no values: due (R441). -/
def CalGroup.reset : CalGroup :=
  { hasVal := false, base := none, past := [], lastKind := 0, imported := false, hostSet := false, result := 0, steps := 0
    count := 0, stamp := 0, snap0 := 0x80000000#32, snap1 := 0, snap2 := 0, due := true, dueSince := 0, starved := false
    usedDue := false, wanted := false, retryAt := 0, paused := none, pausedDone := 0, waiting := none }

/-- The calibration engine at power-on reset. -/
def Cal.reset : Cal := ⟨Vector.replicate 60 CalGroup.reset, none, [], Vector.replicate 60 0⟩

/-- The monitor converter at power-on reset: channels 0 to 31 in the scan. -/
def Mon.reset : Mon :=
  { slot := none, use := .none, mask := 0xFFFFFFFF#64, next := 0, maskDue := false, queue := []
    latest := Vector.replicate 64 none, stamps := Vector.replicate 32 0, injStamp := 0, fails := Vector.replicate 2 0 }

/-- The barrow at power-on reset. -/
def Barrow.reset : Barrow := ⟨Vector.replicate 20 ⟨0, false, 0, false, false⟩, false, 0, 0⟩

/-- The ring and copies of an erased pool. -/
def BaseCopy.none : BaseCopy := ⟨false, 0, []⟩

/-- A 64 MiB flash device that has been erased, in 1S-1S-1S mode: its pool has 250 blocks (R546). -/
def Flash.erased : Flash :=
  { answers := true, octal := false, mib := 64, pool := List.replicate 250 ⟨.blank, 0⟩, baseA := BaseCopy.none
    baseB := BaseCopy.none, ring := [], ringHead := 0, ringBlock := 0, ringWord := 0, active := [], fallback := []
    staging := [], table_ := Option.none, tableSeq := 0, journal := [] }

/-- The store engine before stage STORE. -/
def Store.reset : Store :=
  { queue := [], writing := none, fulling := none, readOnly := false, useB := false, present := [], saved := []
    savedProfs := [], savedPgm := [], savedFlows := [], savedFaults := [], updEvents := [], lastCommit := 0 }

/-- A start that has just begun, of a kind (0 power-on, 1 barrow wake, 2 RESET_N). -/
def Boot.reset (kind : Nat) : Boot :=
  { kind := kind, image := [], fallbackRuns := false, recovery := 0, copy := none, length := 0, doneAt := none }

/-- The service port without a session. -/
def Svc.reset : Svc :=
  { nonce := none, drawn := 0, session := none, fails := 0, lockUntil := none, resp := [], miso := [], last := []
    inbox := [], restart := false }

/-- The HSPI port after a start: LASTW reads OK. -/
def Hspi.reset : Hspi := ⟨[], 0, none, []⟩

/-- The machine right after power-on reset: every register and item at its Reset value, stage RESET of a start begun, both
reset pins released, the flash erased. -/
def State.reset : State :=
  { pending := [], count := 0, elapsed := 0
    regs := [⟨.CORE_CFG, 24, resetWord .CORE_CFG 24 ||| 1⟩, ⟨.CORE_CFG, 25, resetWord .CORE_CFG 25 ||| 1⟩]
    windows := Vector.ofFn fun w => FaultWindow.reset (windowOf w.val).1, raises := [], sticks := [], lapses := [], sync := none
    syncDue := [], syncStamp := 0, trigs := Vector.replicate 9 Trig.reset, hwRel := 0, sched := [], acceptSeq := 0
    stepped := false, heldWrites := []
    refs := Vector.replicate 5 RefInput.reset, anchors := Vector.replicate 2 Anchor.reset, primary := none, primaryAt := 0
    initDone := false, alignRun := 0, alignOver := none, ancEventAt := none, xferStamp := 0, transfer := none, later := []
    cores := Vector.ofFn fun c => Core.reset c.val, outs := Vector.replicate 32 Output.reset
    ras := Vector.replicate 2 Raster.reset, stations := Vector.replicate 8 Station.reset, pgm := [], profs := [], shadows := []
    check := none, statPins := Vector.replicate 8 none, lanes := Vector.ofFn fun n => Lane.reset n.val, lng := LaneGroup.reset
    fleet := Fleet.reset, spareRows := Vector.replicate 10 4, fencedEntries := [], refills := [], cal := Cal.reset, mon := Mon.reset
    bar := Barrow.reset, flash := Flash.erased
    otp := ⟨Vector.replicate 4 0, Config.deviceKey, Config.keyHash, Config.devSerial⟩, store := Store.reset
    boot := Boot.reset 0, svc := Svc.reset, hspi := Hspi.reset, mbx := ⟨false, 0, 0⟩
    pins := ⟨true, false, false, false, false⟩, powering := false, reloads := [], readData := 0, halted := false, calVals := [] }


end Sys2Proof.Machine
end

