-- ==== Sys2Proof/Machine/Ops.lean ====
section
/-! DEFINITION. The named operations over the state that every block shares: register and field access, instance
access, ticks, the event board, raising a fault, consequence windows, tallies, ownership and gating. -/

namespace Sys2Proof.Machine

/-! ## Registers -/

/-- The stored word of instance `i` of a register. -/
def State.reg (s : State) (r : RegName) (i : Nat) : Word := s.regs.get r i

/-- Store a word in instance `i` of a register. -/
def State.setReg (s : State) (r : RegName) (i : Nat) (v : Word) : State := { s with regs := s.regs.set r i v }

/-- A field of instance `i` of its register, as a number. -/
def State.fld (s : State) (f : Field) (i : Nat) : Nat := getBits (s.reg f.reg i) f.lo f.width

/-- Store a field of instance `i` of its register. -/
def State.setFld (s : State) (f : Field) (i v : Nat) : State :=
  s.setReg f.reg i (putBits (s.reg f.reg i) f.lo f.width v)

/-- A one-bit field. -/
def State.flag (s : State) (f : Field) (i : Nat) : Bool := s.fld f i == 1

/-- Hardware sets a sticky one-bit W1C field; a W1C write released at the same tick does not clear it (R19). -/
def State.stick (s : State) (f : Field) (i : Nat) : State :=
  let s := s.setFld f i 1
  { s with sticks := ⟨f.reg, i, f.lo, s.elapsed⟩ :: s.sticks.filter fun x => !(x.reg == f.reg && x.inst == i && x.bit == f.lo) }

/-- The bits of a register that hardware has set at the present tick. -/
def State.stuckNow (s : State) (r : RegName) (i : Nat) : Word :=
  s.sticks.foldl (fun w x => if x.reg == r && x.inst == i && decide (x.at_ = s.elapsed) then w ||| BitVec.ofNat 32 (2 ^ x.bit) else w) 0

/-- Add `k` to a counter field, saturating at all ones. -/
def State.bump (s : State) (f : Field) (i k : Nat) : State := s.setFld f i (satAdd (s.fld f i) f.width k)

/-- A field whose value 0 is taken as 1. -/
def State.fld1 (s : State) (f : Field) (i : Nat) : Nat := max 1 (s.fld f i)

/-! ## Ticks -/

/-- The present tick of the timeline. -/
def State.now (s : State) : Nat := s.count.toNat

/-- Ticks of 2 ns in a number of microseconds. -/
def usTicks (us : Nat) : Nat := us * 500

/-- TIME_STATE.COND reads STEERED, UNSTEERED or STOPPED as 0, 1 or 2 (R630). -/
def State.cond (s : State) : Nat := s.fld Fields.TIME_STATE_COND 0

/-- TIME_STATE.SRC (R630): 0 none yet, 1 LOCAL, 2 SYNC, 3 LANE. -/
def State.timeSrc (s : State) : Nat := s.fld Fields.TIME_STATE_SRC 0

/-- Whether the count runs: it has started and is not STOPPED (R33, Table 1.1). -/
def State.counting (s : State) : Bool := s.timeSrc != 0 && s.cond != 2

/-- PWR_STATE.STATE (Table 12.5): 0 OFF, 1 DORMANT, 2 STANDBY, 3 ACTIVE, 4 RECOVERY, 5 HALTED. -/
def State.power (s : State) : Nat := s.fld Fields.PWR_STATE_STATE 0

/-- The device is ACTIVE: the domains of cores, outputs, lanes and threads may be on. -/
def State.active (s : State) : Bool := s.power == 3

/-! ## Instances -/

def State.core (s : State) (n : Nat) : Core := s.cores[n]?.getD default
def State.setCore (s : State) (n : Nat) (c : Core) : State := { s with cores := s.cores.setIfInBounds n c }
def State.modCore (s : State) (n : Nat) (f : Core → Core) : State := s.setCore n (f (s.core n))
def State.out (s : State) (n : Nat) : Output := s.outs[n]?.getD default
def State.setOut (s : State) (n : Nat) (o : Output) : State := { s with outs := s.outs.setIfInBounds n o }
def State.modOut (s : State) (n : Nat) (f : Output → Output) : State := s.setOut n (f (s.out n))
def State.anc (s : State) (n : Nat) : Anchor := s.anchors[n]?.getD default
def State.setAnc (s : State) (n : Nat) (a : Anchor) : State := { s with anchors := s.anchors.setIfInBounds n a }
def State.modAnc (s : State) (n : Nat) (f : Anchor → Anchor) : State := s.setAnc n (f (s.anc n))
def State.ref (s : State) (n : Nat) : RefInput := s.refs[n]?.getD default
def State.setRef (s : State) (n : Nat) (r : RefInput) : State := { s with refs := s.refs.setIfInBounds n r }
def State.modRef (s : State) (n : Nat) (f : RefInput → RefInput) : State := s.setRef n (f (s.ref n))
def State.rasCh (s : State) (n : Nat) : Raster := s.ras[n]?.getD default
def State.setRas (s : State) (n : Nat) (r : Raster) : State := { s with ras := s.ras.setIfInBounds n r }
def State.modRas (s : State) (n : Nat) (f : Raster → Raster) : State := s.setRas n (f (s.rasCh n))
def State.stn (s : State) (n : Nat) : Station := s.stations[n]?.getD default
def State.setStn (s : State) (n : Nat) (t : Station) : State := { s with stations := s.stations.setIfInBounds n t }
def State.modStn (s : State) (n : Nat) (f : Station → Station) : State := s.setStn n (f (s.stn n))
def State.win (s : State) (w : Nat) : FaultWindow := s.windows[w]?.getD default
def State.setWin (s : State) (w : Nat) (x : FaultWindow) : State := { s with windows := s.windows.setIfInBounds w x }
def State.modWin (s : State) (w : Nat) (f : FaultWindow → FaultWindow) : State := s.setWin w (f (s.win w))

/-- Do something for each number of a list in turn. -/
def State.each (s : State) : List Nat → (State → Nat → State) → State
  | [], _ => s
  | n :: ns, f => (f s n).each ns f

/-! ## Stations and ownership -/

/-- A station counts as running from the acceptance of START to its stop (R658). -/
def Station.running (t : Station) : Bool := t.run == .armed || t.run == .running

/-- Whether any station runs. -/
def State.anyRunning (s : State) : Bool := (List.range 8).any fun n => (s.stn n).running

/-- Whether station `n` runs a program accepted in guaranteed mode. -/
def State.guaranteedRun (s : State) (n : Nat) : Bool := (s.stn n).running && (s.stn n).guaranteed

/-- A slot of a station's map: a core number, or none (STN_MAP: 26 to 31 are empty). -/
def State.slot (s : State) (n k : Nat) : Option Nat :=
  let c := getBits (s.reg .STN_MAP n) (5 * k) 5
  if c < 26 then some c else none

/-- The cores of a station's map, slot 0 first. -/
def State.stationCores (s : State) (n : Nat) : List Nat := (List.range 3).filterMap fun k => s.slot n k

/-- The station whose map names a core. -/
def State.mapOwner (s : State) (c : Nat) : Option Nat :=
  (List.range 8).find? fun n => (s.stationCores n).contains c

/-- The station whose STN_OUTMASK names an output (R198). -/
def State.outOwner (s : State) (o : Nat) : Option Nat :=
  (List.range 8).find? fun n => bitOf (s.reg .STN_OUTMASK n) o

/-- The enabled raster channel that binds a core (R351). -/
def State.rasOfCore (s : State) (c : Nat) : Option Nat :=
  (List.range 2).find? fun r => (s.rasCh r).bound && s.fld Fields.RAS_CFG_CORE r == c

/-- The enabled raster channel that binds an output. -/
def State.rasOfOut (s : State) (o : Nat) : Option Nat :=
  (List.range 2).find? fun r => (s.rasCh r).bound && bitOf (s.reg .RAS_OUTMASK r) o

/-- The station that owns a core: its role is live, blocking or split (Table 3.1). -/
def State.coreOwner (s : State) (c : Nat) : Option Nat :=
  match (s.core c).role with
  | .live | .blocking | .split => some (s.core c).station
  | _ => none

/-- A core is owned by a running station in guaranteed mode (R58). -/
def State.coreOwned (s : State) (c : Nat) : Bool :=
  match s.coreOwner c with
  | some n => s.guaranteedRun n
  | none => false

/-- An output is owned by a running station in guaranteed mode (R58, R327). -/
def State.outOwned (s : State) (o : Nat) : Bool :=
  match s.outOwner o with
  | some n => s.guaranteedRun n
  | none => false

/-- The core an output follows: OUT_CFG.SRC, 31 none (R326). -/
def State.srcOf (s : State) (o : Nat) : Option Nat :=
  let c := s.fld Fields.OUT_CFG_SRC o
  if c < 26 then some c else none

/-- The outputs that follow a core. -/
def State.outsOf (s : State) (c : Nat) : List Nat := (List.range 32).filter fun o => s.srcOf o == some c

/-- The slot state of slot `k` of station `n`. -/
def State.slotSt (s : State) (n k : Nat) : SlotSt := (s.stn n).slots[k]?.getD default
def State.modSlot (s : State) (n k : Nat) (f : SlotSt → SlotSt) : State :=
  s.modStn n fun t => { t with slots := t.slots.setIfInBounds k (f (t.slots[k]?.getD default)) }

/-- A core is no longer settled, nor kept settled, in its station (R136, R148, R214, R218). -/
def State.unsettle (s : State) (c : Nat) : State :=
  s.each (List.range 8) fun s n => s.each (List.range 3) fun s k =>
    if s.slot n k == some c then s.modSlot n k fun x => { x with settled := none, holds := none } else s

/-- An entry of a fenced store row (Table 13.3): code 15 a profile, 16 a word of a program store (station × 16,384 + index),
17 a flow-table entry (source × 4,096 + flow). -/
def State.fencedEntry (s : State) (code i : Nat) : Bool := s.fencedEntries.contains (code, i)

/-- Word with bit n set for each station n of a list. -/
def stationMask (l : List Nat) : Word := l.foldl (fun w n => setBit w n true) 0

/-! ## Calibration happenings (R446, R448, R465) -/

/-- A boundary of Table 11.5 for a core: waiting trim values may take effect at this tick. -/
def State.coreBoundary (s : State) (c : Nat) : State := s.modCore c fun x => { x with boundary := some s.elapsed }

/-- A boundary of Table 11.5 for an output. -/
def State.outBoundary (s : State) (o : Nat) : State := s.modOut o fun x => { x with boundary := some s.elapsed }

def State.grp (s : State) (g : Nat) : CalGroup := s.cal.groups[g]?.getD default
def State.modGrp (s : State) (g : Nat) (f : CalGroup → CalGroup) : State :=
  { s with cal := { s.cal with groups := s.cal.groups.setIfInBounds g (f (s.grp g)) } }

/-- The steps that the run in progress has completed so far; which ones, is a free value. -/
def State.calDone (s : State) (r : CalRun) : Nat := (r.done ||| Config.stepsDone r.group s.elapsed) &&& r.steps

/-- The measured run of a group gives way and may resume (R446, Table 11.11). -/
def State.calPause (s : State) (g : Nat) : State :=
  match s.cal.run with
  | some r =>
    if r.group = g then
      { s with cal := { s.cal with run := none } }.modGrp g fun x => { x with paused := r.t0, pausedDone := s.calDone r }
    else s
  | none => s

/-- The measured run of a group, or one that waits, is abandoned (R445): every old value stays. -/
def State.calAbandon (s : State) (g : Nat) : State :=
  match s.cal.run with
  | some r =>
    if r.group = g then
      { s with cal := { s.cal with run := none } }.modGrp g fun x =>
        { x with result := 3, steps := s.calDone r, paused := none }
    else s.modGrp g fun x => { x with paused := none }
  | none => s.modGrp g fun x => { x with paused := none }

/-! ## The event board (R43 to R47, R250 to R254) -/

/-- The last tick the board has closed: tick X closes at X + 2 (R45). -/
def State.closedTick (s : State) : Option Nat := if s.now < 2 then none else some (s.now - 2)

/-- Whether the board has closed a tick. -/
def State.closed (s : State) (x : Nat) : Bool := decide (x + 2 ≤ s.now)

/-- The station's mark for a source: the stamp up to which it has taken events. -/
def Station.mark (t : Station) (src : Nat) : Nat :=
  match t.marks.find? fun p => p.src == src with
  | some p => p.at_
  | none => t.startTick

/-- Insert an event in stamp order behind those of the same or an earlier stamp. -/
def insertEvent (e : Event) : List Event → List Event
  | [] => [e]
  | d :: l => if e.stamp < d.stamp then e :: d :: l else d :: insertEvent e l

/-- Add one to SEQ_EVDROP of a station: the low half for an even number, the high half for an odd one. -/
def State.bumpEvDrop (s : State) (n : Nat) : State :=
  s.bump (if n % 2 = 0 then Fields.SEQ_EVDROP_EVEN else Fields.SEQ_EVDROP_ODD) (n / 2) 1

/-! ## Raising a fault (R500, R501) -/

/-- Whether a source is a level source (R500). -/
def isLevel (f : Fid) : Bool := bitOf (levelSources f.code) f.bit

/-- The class FLT_SEV holds for a source bit of a window. -/
def FaultWindow.classOf (w : FaultWindow) (bit : Nat) : Nat :=
  if bit < 16 then getBits w.sev0 (2 * bit) 2 else getBits w.sev1 (2 * (bit - 16)) 2

/-- The effective class FLT_ECLS holds for a source bit of a window. -/
def FaultWindow.eclsOf (w : FaultWindow) (bit : Nat) : Nat :=
  if bit < 16 then getBits w.ecls0 (2 * bit) 2 else getBits w.ecls1 (2 * (bit - 16)) 2

/-- A window holds a pending fault of effective class 1 or 2, those that R513 counts. -/
def FaultWindow.pendsClass (w : FaultWindow) (c : Nat) : Bool :=
  match c with
  | 1 => w.pendMinor != 0
  | 2 => w.pendSerious != 0
  | _ => false

/-- The effective class of a raise (R513): one more when a fault of its class is pending in its window. -/
def FaultWindow.effective (w : FaultWindow) (r : Raise) : Nat :=
  if r.grace then 2
  else if (r.cls = 1 ∨ r.cls = 2) ∧ w.pendsClass r.cls then r.cls + 1 else r.cls

/-- Store the effective class of a source bit (FLT_ECLS). -/
def FaultWindow.setEcls (w : FaultWindow) (bit c : Nat) : FaultWindow :=
  if bit < 16 then { w with ecls0 := putBits w.ecls0 (2 * bit) 2 c }
  else { w with ecls1 := putBits w.ecls1 (2 * (bit - 16)) 2 c }

/-- A unit that is fenced raises nothing further (R503): cores, outputs, sequencer threads, trigger inputs, SYNC_IN,
the monitor converter, and an anchor in FAILED. -/
def State.unitFenced (s : State) (f : Fid) : Bool :=
  match f.code with
  | 1 => if 14 ≤ f.bit ∧ f.bit ≤ 22 then s.flag Fields.TRIG_STAT_FENCED (f.bit - 14)
         else if 23 ≤ f.bit then s.flag Fields.TRIG_STAT_FENCED (f.bit - 23) else false
  | 2 => if f.bit = 8 ∨ f.bit = 10 then (s.anc 0).state == .failed
         else if f.bit = 9 ∨ f.bit = 11 then (s.anc 1).state == .failed else false
  | 3 => (s.core f.inst).role == .fenced
  | 5 => if f.bit < 10 then bitOf (s.reg .SEQ_THREADS 0) (16 + f.bit) else false
  | 6 => (s.out f.inst).fenced
  | 10 => s.flag Fields.MON_STAT_FENCED 0
  | _ => false

/-- Record a raise with its stamp; its reaction follows at the next tick (R501, R508). -/
def State.raiseAs (s : State) (f : Fid) (stamp : Nat) (arg : Word) (forced injected : Bool) : State :=
  if s.unitFenced f then s
  else { s with raises := s.raises ++
    [⟨f, s.elapsed, stamp, arg, forced, injected, (s.win (windowIndex f.code f.inst)).classOf f.bit, false, false, none, s.now,
      if f.code = 3 then s.coreOwner f.inst else none, none⟩] }

/-- An event source raises at the present tick. -/
def State.raiseEvent (s : State) (f : Fid) (arg : Word) : State := s.raiseAs f s.now arg false false

/-- Whether the detector of a level source reads live: its condition holds, or FLT_FORCE holds it (R505). -/
def State.isLive (s : State) (f : Fid) : Bool :=
  let w := s.win (windowIndex f.code f.inst)
  bitOf w.live f.bit || (isLevel f && bitOf w.force f.bit)

/-- A level source becomes live; the change from not live to live is the raise (R501). -/
def State.beginLevel (s : State) (f : Fid) (arg : Word) : State :=
  if s.unitFenced f then s
  else
    let s' := s.modWin (windowIndex f.code f.inst) fun w => { w with live := setBit w.live f.bit true }
    if s.isLive f then s' else s'.raiseEvent f arg

/-- A level source stops being live (R502). -/
def State.endLevel (s : State) (f : Fid) : State :=
  s.modWin (windowIndex f.code f.inst) fun w => { w with live := setBit w.live f.bit false }

/-- Make a level source live or not as a condition says. -/
def State.setLevel (s : State) (f : Fid) (arg : Word) (b : Bool) : State :=
  if b then s.beginLevel f arg else s.endLevel f

/-! ## Tallies (R525, Table 13.7) -/

/-- Enter an entry in a window's tally: newest first, sixteen held, the oldest discarded and counted. -/
def FaultWindow.addEntry (w : FaultWindow) (e : TallyEntry) : FaultWindow :=
  let seq := (w.newSeq + 1) % 256
  let full := decide (16 ≤ w.tally.length)
  { w with newSeq := seq
           tally := { e with seq := seq } :: w.tally.take 15
           overflow := if full then satAdd w.overflow 16 1 else w.overflow }

/-- The words of a tally entry (Table 13.7). -/
def TallyEntry.word (e : TallyEntry) (k : Nat) : Word :=
  match k with
  | 0 => loWord e.stamp
  | 1 => hiWord e.stamp
  | 2 => BitVec.ofNat 32 (e.kind % 16 * 2 ^ 28 + e.cls % 4 * 2 ^ 26 + e.ecls % 4 * 2 ^ 24 + e.forced.toNat * 2 ^ 23
      + e.injected.toNat * 2 ^ 22 + e.escalated.toNat * 2 ^ 21 + e.grace.toNat * 2 ^ 20 + e.noSpare.toNat * 2 ^ 19
      + e.seq % 256 * 256 + e.bit % 32)
  | _ => e.arg

/-- A record entry (KIND 2) of a block's window with a record code, a stamp and an argument (Table 13.8). -/
def State.record (s : State) (code inst rec : Nat) (stamp : Nat) (arg : Word) : State :=
  s.modWin (windowIndex code inst) fun w =>
    w.addEntry ⟨stamp, 2, 0, 0, false, false, false, false, false, 0, rec, arg⟩

/-- A lapse entry of the window of the source that began it: KIND 3 begins, KIND 4 ends (R522). -/
def State.lapseEntry (s : State) (f : Fid) (kind stamp : Nat) (stations : Word) : State :=
  s.modWin (windowIndex f.code f.inst) fun w =>
    w.addEntry ⟨stamp, kind, 0, 0, false, false, false, false, false, 0, f.bit, stations⟩

/-- The stations of a mask that carry the promise: they run a program accepted in guaranteed mode (R1, R7). -/
def State.promised (s : State) (w : Word) : Word := stationMask ((bitsOf w 8).filter s.guaranteedRun)

/-- The promise lapses for some stations from a tick (R4, R522). -/
def State.beginLapse (s : State) (f : Fid) (stamp : Nat) (stations : Word) (ends : LapseEnd) : State :=
  if stations = 0 then s
  else { s.lapseEntry f 3 stamp stations with lapses := s.lapses ++ [⟨f, stations, ends, false⟩] }

/-- Attach a lapse to the newest raise of a source at an elapsed tick that carries none. -/
def attachLapse (f : Fid) (at_ : Nat) (x : Word × LapseEnd) : List Raise → Option (List Raise)
  | [] => none
  | r :: rs =>
    match attachLapse f at_ x rs with
    | some rs' => some (r :: rs')
    | none => if r.fid = f ∧ r.at_ = at_ ∧ r.lapse = none then some ({ r with lapse := some x } :: rs) else none

/-- The promise of stations lapses with the raise of a source at the present tick: its entry follows the entry of the
raise. A lapse of the same source that is in progress goes on. -/
def State.lapseWith (s : State) (f : Fid) (stations : Word) (ends : LapseEnd) : State :=
  let w := s.promised stations
  if w = 0 || s.lapses.any fun l => l.fid == f && l.ends == ends && !l.over_ && (w &&& ~~~l.stations) == 0 then s
  else
    match attachLapse f s.elapsed (w, ends) s.raises with
    | some rs => { s with raises := rs }
    | none => s.beginLapse f s.now w ends

/-- What ends the lapses that a condition picks has come. A lapse of a condition of Table 0.1 ends once no other condition
fails for its stations (R4); one that acknowledgement ends does so at once (R52, R254). Each gets its LAPSE_END entry. -/
def State.endLapses (s : State) (p : Lapse → Bool) : State :=
  let ls := s.lapses.map fun l => if p l then { l with over_ := true } else l
  let fails (w : Word) : Bool := ls.any fun l => l.ends != .ack && !l.over_ && (l.stations &&& w) != 0
  let closes (l : Lapse) : Bool := l.over_ && (l.ends == .ack || !fails l.stations)
  let s := (ls.filter closes).foldl (fun (s : State) l => s.lapseEntry l.fid 4 s.now l.stations) s
  { s with lapses := ls.filter fun l => !closes l }

/-! ## Consequence windows (R517 to R520) -/

/-- The length of a consequence window: FLT_CTRL.CWIN microseconds of the fenced unit's window. -/
def FaultWindow.cwin (w : FaultWindow) : Nat := usTicks (max 1 (getBits w.ctrl 20 10))

/-- The grace time of a window: FLT_CTRL.GTIME microseconds (R515). -/
def FaultWindow.gtime (w : FaultWindow) : Nat := usTicks (min 1000000 (max 1 (getBits w.ctrl 0 20)))

/-- Suppress one detector until an elapsed tick, for a cause. -/
def State.suppress (s : State) (until_ : Nat) (cause f : Fid) : State :=
  s.modWin (windowIndex f.code f.inst) fun w => { w with supp := ⟨f.bit, s.elapsed, until_, cause, none⟩ :: w.supp }

/-- Suppress a list of detectors for the consequence window of the unit whose window is (code, inst). -/
def State.openWindow (s : State) (code inst : Nat) (cause : Fid) (fed : List Fid) : State :=
  let until_ := s.elapsed + (s.win (windowIndex code inst)).cwin
  fed.foldl (fun (s : State) f => s.suppress until_ cause f) s

/-- Suppress what a lane raises of SILENT and STALE for the consequence window of its slice (Table 13.5). -/
def State.openLaneWindow (s : State) (n : Nat) (cause : Fid) : State :=
  let until_ := s.elapsed + (s.win (windowIndex 7 n)).cwin
  [Src.fleet_SILENT, Src.fleet_STALE].foldl (fun (s : State) f => s.modWin (windowIndex f.code f.inst) fun w =>
    { w with supp := ⟨f.bit, s.elapsed, until_, cause, some n⟩ :: w.supp }) s

/-- The cause under which a raise is suppressed: that of the window opened most recently. -/
def FaultWindow.suppresses (w : FaultWindow) (r : Raise) : Option Fid :=
  (w.supp.find? fun x => decide (x.bit = r.fid.bit) && decide (x.from_ ≤ r.at_) && decide (r.at_ < x.until_)
    && (x.lane.isNone || x.lane == r.lane)).map (·.cause)

/-- The cause under which a source is suppressed at an elapsed tick: that of the window opened most recently. -/
def FaultWindow.suppressedBy (w : FaultWindow) (bit at_ : Nat) : Option Fid :=
  (w.supp.find? fun x => decide (x.bit = bit) && decide (x.from_ ≤ at_) && decide (at_ < x.until_)).map (·.cause)

/-- The detectors a core feeds (Table 13.5): its outputs, its station, its raster channel, and calibration. -/
def State.fedByCore (s : State) (c : Nat) : List Fid :=
  ((s.outsOf c).map fun o => [Src.out_GUARD_HIT o, Src.out_RB_COUNT o, Src.out_RB_PHASE o]).flatten
  ++ (match s.coreOwner c with
      | some n => [Src.stn_LATE_RELEASE n, Src.stn_DEGRADED n, Src.stn_BAD_PROFILE n]
      | none => [])
  ++ (match s.rasOfCore c with
      | some r => [Src.ras_FRAME_ERR r]
      | none => [])
  ++ [Src.cal_STARVED, Src.cal_NO_MODEL]

/-! ## Events -/

/-- Put an event on a station's queue (R251 to R254). `live` says whether R251 admits it. An event of a source not
enabled, or stamped at or before the mark, is not queued, nor one of a tick that the board has closed (R45); two of one source and stamp are held as one with the lower
payload; a seventeenth is dropped and counted, and raises EV_OVERFLOW in guaranteed mode. -/
def State.postEvent (s : State) (n : Nat) (e : Event) : State :=
  let t := s.stn n
  if !(t.running && t.enabled.contains e.src && decide (t.mark e.src < e.stamp)) || s.closed e.stamp then s
  else if t.events.any fun d => d.src == e.src && d.stamp == e.stamp then
    let merge (d : Event) : Event :=
      if d.src == e.src && d.stamp == e.stamp && decide (e.payload.toNat < d.payload.toNat) then e else d
    (s.setStn n { t with events := t.events.map merge }).bumpEvDrop n
  else if 16 ≤ (t.events.filter fun d => d.src == e.src).length then
    let s := s.bumpEvDrop n
    if t.guaranteed then
      let f : Fid := ⟨5, 0, 24 + n⟩
      (s.raiseAs f e.stamp 0 false false).lapseWith f (stationMask [n]) .ack
    else s
  else s.setStn n { t with events := insertEvent e t.events }

/-- A core's lock (88) or loss (91) event reaches its station while the core is live or split (R251). -/
def State.postCoreEvent (s : State) (c base : Nat) : State :=
  match (s.core c).role with
  | .live | .split =>
    let n := (s.core c).station
    match (List.range 3).find? fun k => s.slot n k == some c with
    | some k => s.postEvent n ⟨base + k, s.now, 0⟩
    | none => s
  | _ => s

/-! ## Gating (R333, Table 8.2) -/

/-- The anchor that ANC_COREMAP assigns to a core: 0 A, 1 B (R83). -/
def State.ancOf (s : State) (c : Nat) : Nat := (bitOf (s.reg .ANC_COREMAP 0) c).toNat

/-- An anchor's state lets its cores drive outputs (Table 2.3). -/
def AncState.drives : AncState → Bool
  | .steered | .following => true
  | _ => false

/-- An anchor without a role: DUAL = 0 and another is primary (R80). -/
def State.roleless (s : State) (a : Nat) : Bool := !s.flag Fields.ANC_GLOBAL_DUAL 0 && s.primary != some a

/-- Reason ANCHOR: the anchor feeding the core gates its cores or has no role, or no anchor is locked to a reference (Table 1.1). -/
def State.anchorGates (s : State) (c : Nat) : Bool :=
  s.cond != 0 || !(s.anc (s.ancOf c)).state.drives || s.roleless (s.ancOf c)

/-- Reason CORE: the core is not LOCKED, is within its ungate hold, or is fenced (R129). -/
def Core.gates (c : Core) : Bool := c.state != .locked || !c.holdDone || c.role == .fenced

/-- The gating reasons of an output, bit r for reason r (Table 8.2). A disabled output reports OFF alone, and FENCE. -/
def State.gateWhy (s : State) (o : Nat) : Nat :=
  let x := s.out o
  if !s.flag Fields.OUT_CFG_EN o then 1 + x.fenced.toNat * 256
  else
    let off := x.readyAt.isSome || !x.domainOn
    let src := s.srcOf o
    let nosrc := src.isNone || x.rasterHold
    let core := match src with | some c => (s.core c).gates | none => false
    let anc := match src with | some c => s.anchorGates c | none => false
    off.toNat + nosrc.toNat * 2 + core.toNat * 4 + anc.toNat * 8 + x.progGate.toNat * 16
      + (s.fld Fields.OUT_CFG_HGATE o) * 32 + x.rasterGate.toNat * 64 + x.shorted.toNat * 128 + x.fenced.toNat * 256

/-- An output is gated while any reason holds (R333); in HALTED every output is gated (R523). -/
def State.gated (s : State) (o : Nat) : Bool := s.gateWhy o != 0 || s.halted

/-- Every output is gated. -/
def State.allGated (s : State) : Bool := (List.range 32).all fun o => s.gated o

/-- A timeline load is admitted only while no station runs and every output is gated (R28). -/
def State.loadAllowed (s : State) : Bool := !s.anyRunning && s.allGated

/-! ## Host statuses (Table 16.3) -/

/-- The statuses of a host write and of a register request (Tables 10.3 and 16.3). -/
inductive WStatus where
  | ok | busy | owned | range | late | full | state | keyerr | broken | denied
  deriving DecidableEq, Repr, Inhabited

/-- The code of a status (Table 16.3; 9 is DENIED of Table 10.3). -/
def WStatus.code : WStatus → Nat
  | .ok => 0 | .busy => 1 | .owned => 2 | .range => 3 | .late => 4 | .full => 5 | .state => 6 | .keyerr => 7
  | .broken => 8 | .denied => 9

/-- A write's status and the state it leaves. -/
abbrev WRes := WStatus × State

end Sys2Proof.Machine
end

