-- ==== Sys2Proof/Machine/Address.lean ====
section
/-! DEFINITION. The address map (R12, R13, R613, R632): which register, fault-window word or hole a byte address names. -/

namespace Sys2Proof.Machine

/-- The instance of a register at a byte address, if it has one there. -/
def instanceAt (sp : RegSpec) (addr : Nat) : Option Nat :=
  if addr < sp.base then none
  else if sp.stride = 0 then (if addr = sp.base then some 0 else none)
  else if (addr - sp.base) % sp.stride = 0 ∧ (addr - sp.base) / sp.stride < sp.count then some ((addr - sp.base) / sp.stride)
  else none

/-- The register at a byte address among a list of names. -/
def findReg (addr : Nat) : List RegName → Option (RegName × Nat)
  | [] => none
  | r :: rs =>
    match instanceAt (regSpec r) addr with
    | some i => some (r, i)
    | none => findReg addr rs

/-- The register at a byte address. -/
def regAt (addr : Nat) : Option (RegName × Nat) := findReg addr allRegNames

/-- The fault window whose 16 bytes hold a byte address, and the word in it: 0 FLT_LIVE, 1 FLT_STAT, 2 FLT_SEL,
3 FLT_DATA (R499). -/
def faultAt (addr : Nat) : Option (Nat × Nat) :=
  match (List.range 97).find? fun w =>
      let (c, i) := windowOf w
      decide (windowAddr c i ≤ addr) && decide (addr < windowAddr c i + 16) with
  | some w =>
    let (c, i) := windowOf w
    some (w, (addr - windowAddr c i) / 4)
  | none => none

/-- A byte address lies in a block window of Table 16.5 (a hole inside one reads 0; outside is RANGE, R613). -/
def inBlock (addr : Nat) : Bool :=
  decide (addr < 0x0A90) || (decide (0x0B00 ≤ addr) && decide (addr < 0x2600))
    || (decide (0x4000 ≤ addr) && decide (addr < 0x40C0))

/-- Whether a register has a field that a host write can act on: access RW, W1C, W1S or WK (R618). -/
def RegSpec.writable (sp : RegSpec) : Bool :=
  sp.rw != 0 || sp.sticky != 0 || sp.w1s != 0 || sp.wk || !sp.counts.isEmpty

/-- Whether an address names something a scheduled write may write (R618): not beyond 0x3FFF, not the mailbox and
scheduler, not the store, update and port blocks, and a writable register or fault-window word. -/
def schedulable (addr : Nat) : Bool :=
  decide (addr % 4 = 0) && decide (addr < 0x4000) && !(decide (0x40 ≤ addr) && decide (addr < 0x80))
    && !(decide (0x2400 ≤ addr) && decide (addr < 0x2600))
    && (match faultAt addr with
        | some (_, k) => k != 0
        | none =>
          match regAt addr with
          | some (r, _) => (regSpec r).writable
          | none => false)

/-- Whether a write misses the key a WK register asks for (R22). -/
def keyMissing (addr : Nat) (w : Word) : Bool :=
  match regAt addr with
  | some (r, _) => (regSpec r).wk && getBits w 24 8 != 0xA5
  | none => false

end Sys2Proof.Machine
end

