-- ==== Sys2Proof/Machine/Phase.lean ====
section
/-! DEFINITION. Phase on the timeline (spec/04): settings, predicted phase, offsets, seeds, divider references and
SYSREF grids, in exact integer and rational arithmetic (R157). -/

namespace Sys2Proof.Machine

/-- N + num/den, the core's ratio to 500 MHz (R109). -/
def Setting.ratio (x : Setting) : Rat := (x.n : Rat) + mkRat x.num x.den

/-- A setting is valid (R110). -/
def Setting.valid (x : Setting) : Bool :=
  decide (14 ≤ x.n) && decide (x.n ≤ 28) && decide (1 ≤ x.den) && decide (x.den ≤ 2 ^ 48 - 1) && decide (x.num < x.den)
    && (decide (x.n < 28) || x.num == 0)

/-- Two settings give one frequency (R111): cross-multiplied comparison of their ratios. -/
def Setting.sameFreq (x y : Setting) : Bool := (x.n * x.den + x.num) * y.den == (y.n * y.den + y.num) * x.den

/-- The ceiling of a rational. -/
def ratCeil (q : Rat) : Int := -((-q).floor)

/-- Rounding to the nearest integer, a value exactly midway upward (R159, R162). -/
def ratRound (q : Rat) : Int := (q + 1 / 2).floor

/-- The predicted phase of a core at tick k, not gliding (R153). -/
def phaseAt (theta : Rat) (x : Setting) (k : Nat) : Rat := theta + k * x.ratio

/-- The offset of a coherent profile: PHASE × 2^-32 (R158). -/
def profileTheta (phase : Nat) : Rat := mkRat phase (2 ^ 32)

/-- The offset of a continuous hop released at k_h (R159): the fraction rounded to a multiple of 2^-32, the integer part
kept. `theta`, `old` belong to the setting that drives the outputs before the hop. -/
def contTheta (theta : Rat) (old new : Setting) (kh phase : Nat) : Rat :=
  let x := theta + kh * (old.ratio - new.ratio) + profileTheta phase
  let fl := x.floor
  fl + mkRat (ratRound ((x - fl) * 2 ^ 32)) (2 ^ 32)

/-- The seed offset σ (R162, R166). -/
def seedSigma (theta : Rat) (x : Setting) : Nat :=
  if x.num = 0 then 0 else (ratRound (theta * x.den) % x.den).toNat

/-- The remainder ρ, in cycles (R162, R166). -/
def seedRho (theta : Rat) (x : Setting) : Rat :=
  if x.num = 0 then theta - ratRound theta else (theta * x.den - ratRound (theta * x.den)) / x.den

/-- The seed S loaded into accumulator 1 at tick k_S (R163). -/
def seedAt (theta : Rat) (x : Setting) (ks : Nat) : Nat :=
  if x.den = 0 then 0 else (ks * x.num + seedSigma theta x) % x.den

/-- Accumulator 1 at tick k from a seed S loaded at k_S (R113). -/
def accAt (x : Setting) (seed ks k : Nat) : Nat := if x.den = 0 then 0 else (seed + (k - ks) * x.num) % x.den

/-- The ratio in force at tick k_s + j of a glide (R228). -/
def glideRatio (g : Glide) (j : Nat) : Rat :=
  if j < g.gtime then g.r0 + (g.dst.ratio - g.r0) * mkRat (j + 1) g.gtime else g.dst.ratio

/-- The core's phase advance over the first j ticks of a glide, j ≤ G: the sum of the ratios in force (R160). -/
def glideAdvance (g : Glide) (j : Nat) : Rat := j * g.r0 + (g.dst.ratio - g.r0) * mkRat (j * (j + 1)) (2 * g.gtime)

/-- θ_eff after a glide that ends at k_e (R160). -/
def glideTheta (g : Glide) : Rat := g.phi0 + glideAdvance g g.gtime - (g.ks + g.gtime : Nat) * g.dst.ratio

/-- The predicted phase of a core at tick k (R153, R160). -/
def Core.phase (c : Core) (k : Nat) : Rat :=
  match c.glide with
  | some g =>
    if k ≤ g.ks then g.phi0 - ((g.ks - k : Nat) : Rat) * g.r0
    else if k < g.ks + g.gtime then g.phi0 + glideAdvance g (k - g.ks)
    else phaseAt (glideTheta g) g.dst k
  | none => phaseAt c.theta c.applied k

/-- A glide of a core runs at tick k. -/
def Core.gliding (c : Core) (k : Nat) : Bool :=
  match c.glide with
  | some g => decide (k < g.ks + g.gtime)
  | none => false

/-- The ratio in force on a core at tick k. -/
def Core.ratioAt (c : Core) (k : Nat) : Rat :=
  match c.glide with
  | some g => if k < g.ks then g.r0 else glideRatio g (k - g.ks)
  | none => c.applied.ratio

/-- The predicted phase of a core at an instant in ticks from tick 0: between two ticks it advances by the ratio in force. -/
def Core.phaseAtTime (c : Core) (t : Rat) : Rat :=
  let k := t.floor.toNat
  c.phase k + (t - k) * c.ratioAt k

/-! ## The modulator (R111 to R115, R163 to R166, Table 3.2) -/

/-- The fraction of a rational. -/
def fracOf (q : Rat) : Rat := q - q.floor

/-- The carry of an accumulator, and the carries kept of it, the latest first. -/
def carryOf (sum : Rat) : Bool := decide (1 ≤ sum)

/-- One feedback cycle of the modulator: accumulator 1 adds the fraction num/den, each later one the residue of the one before it,
the last of them the dither too. The residues are in cycles, as fractions of den. With `third` accumulator 4 is left out; while
num = 0 every accumulator is held at zero (R112). -/
def Modulator.step (m : Modulator) (frac : Rat) (held third : Bool) (d : Rat) : Modulator :=
  if held then Modulator.zero
  else
    let s1 := m.a1 + frac
    let s2 := m.a2 + fracOf s1
    let s3 := m.a3 + fracOf s2 + if third then d else 0
    let s4 := if third then 0 else m.a4 + fracOf s3 + d
    { a1 := fracOf s1, a2 := fracOf s2, a3 := fracOf s3, a4 := fracOf s4, c1 := carryOf s1
      c2 := #v[carryOf s2, m.c2[0]], c3 := #v[carryOf s3, m.c3[0], m.c3[1]]
      c4 := #v[carryOf s4, m.c4[0], m.c4[1], m.c4[2]] }

/-- The divider offset y = c1 + (1 − z⁻¹)·c2 + (1 − z⁻¹)²·c3 + (1 − z⁻¹)³·c4 (R114). -/
def Modulator.y (m : Modulator) : Int :=
  let n (b : Bool) : Int := b.toNat
  n m.c1 + (n m.c2[0] - n m.c2[1]) + (n m.c3[0] - 2 * n m.c3[1] + n m.c3[2])
    + (n m.c4[0] - 3 * n m.c4[1] + 3 * n m.c4[2] - n m.c4[3])

/-- The quantisation that displaces the feedback edge, in VCO cycles, as the core computes it from its modulator state (Q_k of
R126). DEDUCED (log entry 80): counted from accumulator 1 at zero, so that the seed sets the phase as R163 says. -/
def Modulator.quant (m : Modulator) : Rat :=
  let n (b : Bool) : Rat := (b.toNat : Rat)
  n m.c2[0] + (n m.c3[0] - n m.c3[1]) + (n m.c4[0] - 2 * n m.c4[1] + n m.c4[2]) - m.a1

/-- `n` feedback cycles. -/
def Modulator.run (m : Modulator) (frac : Rat) (held third : Bool) (d : Rat) : Nat → Modulator
  | 0 => m
  | n + 1 => (m.step frac held third d).run frac held third d n

/-- The modulator with the seed of a core's phase at tick k in accumulator 1 and the others clear (R163). During a glide accumulator 1
holds the whole fraction of the phase. -/
def Core.seeded (c : Core) (k : Nat) : Modulator :=
  { Modulator.zero with
    a1 := if c.gliding k then fracOf (c.phase k) else mkRat (seedAt c.theta c.applied k) c.applied.den }

/-- The modulator of a core whose loop is closed runs through the tick that ends at tick k, with `n` feedback cycles: for each cycle
gained on the ticks num is taken from accumulator 1, for each one lost it is added (R164). -/
def Core.modulate (c : Core) (k n : Nat) : Core :=
  let ratio := c.ratioAt (k - 1)
  let frac := fracOf ratio
  let d : Rat := if c.dither = 0 then 0 else mkRat (Config.dither k c.dither) c.applied.den
  let m := c.modl.run frac (!c.gliding (k - 1) && c.applied.num == 0) c.mash3 d n
  { c with modl := { m with a1 := fracOf (m.a1 - ((n : Rat) - 1) * frac) } }

/-- The ratio of a core's feedback divider in the cycle of tick k: N + y (R112, R114). -/
def Core.feedbackRatio (c : Core) (k : Nat) : Int := (c.ratioAt k).floor + c.modl.y

/-- The commanded time offset ρ/f in 0.1 ps; positive advances the core's edges (R165). During a glide there is none. -/
def Core.offset (c : Core) (k : Nat) : Rat :=
  if c.gliding k then 0 else seedRho c.theta c.applied * 20000 / c.applied.ratio

/-- The error e_k of a comparison at tick k, in 0.1 ps, from the time of the feedback edge against the tick edge: measured within
±1.2 ns, without the quantisation, against the tick edge advanced by the commanded offset and the anchor term (R126, R138, R165). -/
def Core.error (c : Core) (k : Nat) (time : Int) : Rat :=
  (max (-12000) (min 12000 time) : Int) - c.modl.quant * 20000 / c.ratioAt k + c.offset k + c.ancTerm

/-- The divider reference index Ψ for a reference tick (R167). -/
def Core.psiAt (c : Core) (kr : Nat) : Int := ratCeil (c.phase kr)

/-- Fixed insertion delay in picoseconds (R156). -/
def tau0 : Rat := 1600

/-- The frequency of a core in cycles per picosecond. -/
def coreFreq (x : Setting) : Rat := x.ratio / 2000


/-! ## Output dividers (R167 to R171, Table 4.2) -/

/-- D of a divider set of an output. -/
def State.dsetD (s : State) (o set : Nat) : Nat :=
  match set with
  | 0 => s.fld Fields.OUT_DSET01_D0 o
  | 1 => s.fld Fields.OUT_DSET01_D1 o
  | 2 => s.fld Fields.OUT_DSET23_D2 o
  | _ => s.fld Fields.OUT_DSET23_D3 o

/-- DBL of a divider set of an output. -/
def State.dsetDbl (s : State) (o set : Nat) : Bool :=
  match set with
  | 0 => s.flag Fields.OUT_DSET01_DBL0 o
  | 1 => s.flag Fields.OUT_DSET01_DBL1 o
  | 2 => s.flag Fields.OUT_DSET23_DBL2 o
  | _ => s.flag Fields.OUT_DSET23_DBL3 o

/-- The divider set in force (R330). -/
def State.dsel (s : State) (o : Nat) : Nat := s.fld Fields.OUT_CFG_DSEL o

/-- SMODE of an output: 0 clock, 1 gapped, 2 one-shot; 3 is taken as 0 (R341). -/
def State.smode (s : State) (o : Nat) : Nat :=
  let m := s.fld Fields.OUT_SYSREF_SMODE o
  if m = 3 then 0 else m

/-- D_o, the divider in force. -/
def State.divOf (s : State) (o : Nat) : Nat := s.dsetD o (s.dsel o)

/-- M, 2 when the doubler of the set in force is on and the output is in clock mode (R341). -/
def State.mulOf (s : State) (o : Nat) : Nat := if s.dsetDbl o (s.dsel o) && s.smode o == 0 then 2 else 1

/-- Recompute Ψ of an output from its reference tick and the core it follows (R167). -/
def State.recomputePsi (s : State) (o : Nat) : State :=
  match s.srcOf o with
  | some c => s.modOut o fun x => { x with psi := (s.core c).psiAt x.kr }
  | none => s

/-- The delay term τ_o of an output in ticks at an instant (R156): half cycles of the core at the ratio in force. -/
def State.tauOf (s : State) (o c : Nat) (t : Rat) : Rat :=
  (tau0 + mkRat (min (s.fld Fields.OUT_DELAY_FINE o) 800) 4) / 2000
    + (s.fld Fields.OUT_DELAY_COARSE o : Rat) / (2 * (s.core c).ratioAt t.floor.toNat)

/-- The predicted phase of an output at its ball, in its own cycles, at an instant in ticks (R155): that of the core it follows, τ_o
earlier. -/
def State.outPhase (s : State) (o : Nat) (t : Rat) : Option Rat :=
  (s.srcOf o).map fun c =>
    s.mulOf o * ((s.core c).phaseAtTime (t - s.tauOf o c t) - (s.out o).psi) / s.divOf o

/-- P of an output: 2 to 4,096; 0 is 4,096 and 1 is taken as 2. -/
def State.sysP (s : State) (o : Nat) : Nat :=
  match s.fld Fields.OUT_SYSPULSE_P o with
  | 0 => 4096
  | 1 => 2
  | p => p

/-- The grid period of a SYSREF output in core cycles (R183). -/
def State.gridPeriod (s : State) (o : Nat) : Nat := s.divOf o * s.sysP o

/-- The pulse width in core cycles (R342). -/
def State.pulseWidth (s : State) (o : Nat) : Nat :=
  let w := s.fld Fields.OUT_SYSPULSE_WIDTH o
  let g := s.gridPeriod o
  if w = 0 then g / 2 else if g ≤ w then g - 1 else w

/-- The first grid point at or after a phase (R183, R184). -/
def firstGrid (phi : Rat) (psi : Int) (period : Nat) : Int :=
  let j := ratCeil phi
  j + (psi - j) % (period : Int)

/-- The first grid point of an output at or after the rising edge of a tick. -/
def State.gridFrom (s : State) (o k : Nat) : Int :=
  match s.srcOf o with
  | some c => firstGrid ((s.core c).phase k) (s.out o).psi (s.gridPeriod o)
  | none => 0

/-- Pulses of a burst that rise at or before core edge `e`: at its first index and at each period after it. -/
def risen (first : Int) (period count : Nat) (e : Int) : Nat :=
  if e < first then 0 else min count ((e - first).toNat / period + 1)

/-- The core edge at which the last pulse of a burst ends (R342). -/
def Burst.endAt (b : Burst) (period width : Nat) : Int := b.first + (b.count - 1 : Nat) * period + width

/-- A burst of an output still runs at a tick: its last pulse has not ended (R185, R342). -/
def State.burstRunning (s : State) (o k : Nat) : Bool :=
  match (s.out o).burst, s.srcOf o with
  | some b, some c =>
    if b.count = 0 then (match (s.out o).tail with | some t => decide ((k : Rat) < t.end_) | none => false)
    else decide ((s.core c).phase k < (b.endAt (s.gridPeriod o) (s.pulseWidth o) : Rat))
  | _, _ => false

/-- The grid point from which a periodic output runs when it is enabled at tick k (R184): the first at or after it, and after the end of
the last pulse of a burst that runs (Table 8.4). -/
def State.periodicFrom (s : State) (o k : Nat) : Int :=
  match (s.out o).burst with
  | some b =>
    if s.burstRunning o k && b.count != 0 then
      firstGrid (b.endAt (s.gridPeriod o) (s.pulseWidth o) : Rat) (s.out o).psi (s.gridPeriod o)
    else s.gridFrom o k
  | none => s.gridFrom o k

/-- Restart an output at a tick: k_r := the tick, Ψ recomputed (Table 4.2). -/
def State.restartOut (s : State) (o kr : Nat) : State :=
  (s.modOut o fun x => { x with kr := kr, boundary := some s.elapsed }).recomputePsi o

/-! ## Periods and the guard (R325, R338, R345) -/

/-- The effective minimum period of an output in half picoseconds (R338, R325). -/
def State.minPeriod (s : State) (o : Nat) : Nat :=
  let floor := if o < 8 then 68 else 140
  let m := max (s.fld Fields.OUT_DRV_MINPER o) floor
  if s.flag Fields.OUT_DRV_MODE o then max m 1250 else m

/-- The predicted period of an output in half picoseconds, for a core setting, divider and doubler. -/
def predPeriod (x : Setting) (d m : Nat) : Rat := 4000 * d / (m * x.ratio)

end Sys2Proof.Machine
end

