-- ==== Sys2Proof/Machine/Cores.lean ====
section
/-! DEFINITION. Synthesis cores (spec/03): settings, band selection, acquisition, lock, races, spares and fences. -/

namespace Sys2Proof.Machine

/-! ## Settings -/

/-- The staged setting of a core (R141). -/
def State.staged (s : State) (c : Nat) : Setting :=
  ⟨s.fld Fields.CORE_NBAND_N c, s.fld Fields.CORE_NUM_LO_NUM c + s.fld Fields.CORE_FRAC_HI_NUM_HI c * 2 ^ 32,
    s.fld Fields.CORE_DEN_LO_DEN c + s.fld Fields.CORE_FRAC_HI_DEN_HI c * 2 ^ 32⟩

/-- Write a setting and its hint into the staged registers, as a station's profile load does. -/
def State.stage (s : State) (c : Nat) (x : Setting) (sub band : Nat) : State :=
  let s := s.setReg .CORE_NUM_LO c (loWord x.num)
  let s := s.setReg .CORE_DEN_LO c (loWord x.den)
  let s := s.setReg .CORE_FRAC_HI c (BitVec.ofNat 32 (x.den / 2 ^ 32 % 2 ^ 16 * 2 ^ 16 + x.num / 2 ^ 32 % 2 ^ 16))
  s.setReg .CORE_NBAND c (BitVec.ofNat 32 (sub % 4 * 2 ^ 16 + band % 256 * 2 ^ 8 + x.n % 32))

/-- CORE_CFG.BANDMODE: 3 is taken as TABLE (R121). -/
def bandModeOf (code : Nat) : BandMode :=
  match code with
  | 0 => .forced
  | 2 => .search
  | _ => .table

/-- A core has a band table: some band word of its calibration values is present. -/
def State.hasBandTable (s : State) (c : Nat) : Bool :=
  s.calVals.any fun p => decide (c * 2048 ≤ p.1) && decide (p.1 < c * 2048 + 1024)

/-- The band mode of a core's acquisitions: SEARCH without a band table, whatever BANDMODE holds (R441). -/
def State.bandMode (s : State) (c : Nat) : BandMode :=
  if s.hasBandTable c then bandModeOf (s.fld Fields.CORE_CFG_BANDMODE c) else .search

/-- CORE_STAT.PENDING: the staged setting differs from the applied one (R141). -/
def State.stagedPending (s : State) (c : Nat) : Bool :=
  let x := s.core c
  s.staged c != x.applied || s.fld Fields.CORE_NBAND_SUB c != x.appliedSub || s.fld Fields.CORE_NBAND_BAND c != x.appliedBand

/-! ## Band selection (R120 to R122) -/

/-- Lower edges of the sub-cores in Hz (Table 3.5). -/
def subLo (k : Nat) : Nat :=
  match k with
  | 0 => 7000000000
  | 1 => 8600000000
  | 2 => 10400000000
  | _ => 12200000000

/-- Upper edges of the sub-cores in Hz (Table 3.5). -/
def subHi (k : Nat) : Nat :=
  match k with
  | 0 => 8800000000
  | 1 => 10600000000
  | 2 => 12400000000
  | _ => 14000000000

/-- The frequency of a setting in Hz (R109). -/
def Setting.hz (x : Setting) : Rat := 500000000 * x.ratio

/-- The sub-cores whose range contains a frequency. -/
def subCandidates (f : Rat) : List Nat :=
  (List.range 4).filter fun k => decide ((subLo k : Rat) ≤ f) && decide (f ≤ (subHi k : Rat))

/-- The distance of a frequency from the nearer edge of a sub-core. -/
def edgeDist (f : Rat) (k : Nat) : Rat := min (f - subLo k) (subHi k - f)

/-- choose_subcore of R121. -/
def chooseSub (f : Rat) (mode : BandMode) (hint : Nat) : Nat :=
  let cs := subCandidates f
  if mode = .table ∧ cs.contains hint then hint
  else
    match cs with
    | [] => hint
    | [k] => k
    | k :: k' :: _ => if edgeDist f k' ≤ edgeDist f k then k else k'

/-- A band measured in this selection costs a step once (R121). -/
def noteBand (memo : List Nat) (b : Nat) : List Nat := if memo.contains b then memo else b :: memo

/-- The distance of a measurement from the frequency asked for. -/
def offBy (f : Rat) (m : Nat) : Rat := if f ≤ m then m - f else f - m

/-- The successive approximation of R121, bits from the first of the list on. -/
def sarBands (hz : Nat → Nat) (f : Rat) : List Nat → Nat → List Nat → Nat × List Nat
  | [], b, memo => (b, memo)
  | p :: ps, b, memo =>
    let t := b + 2 ^ p
    sarBands hz f ps (if (hz t : Rat) ≤ f then t else b) (noteBand memo t)

/-- The search half of select_band on one sub-core: the band and the bands measured. -/
def searchBand (hz : Nat → Nat) (f : Rat) (memo : List Nat) : Nat × List Nat :=
  let (b, memo) := sarBands hz f [7, 6, 5, 4, 3, 2, 1, 0] 0 memo
  if b < 255 then
    let memo := noteBand (noteBand memo (b + 1)) b
    if offBy f (hz (b + 1)) < offBy f (hz b) then (b + 1, memo) else (b, memo)
  else (b, memo)

/-- select_band of R121: sub-core, band and steps taken. `hz sub band` is the measurement, `step` the band step of the
hint from the band table. -/
def selectBand (hz : Nat → Nat → Nat) (f : Rat) (mode : BandMode) (hintSub hintBand : Nat) (step : Rat) :
    Nat × Nat × Nat :=
  if mode = .forced then (hintSub, hintBand, 0)
  else
    let sub := chooseSub f mode hintSub
    if mode = .table ∧ sub = hintSub ∧ offBy f (hz sub hintBand) ≤ step / 2 then (sub, hintBand, 1)
    else
      let memo := if mode = .table ∧ sub = hintSub then [hintBand] else []
      let (b, memo) := searchBand (hz sub) f memo
      (sub, b, memo.length)

/-- A band measures within 0.25 % of the frequency (R122). -/
def bandFits (f : Rat) (m : Nat) : Bool := decide (offBy f m * 400 ≤ f)

/-- Band selection with the repeat of R122 on the other candidate sub-core: sub-core and band, if any fits, and the
steps taken, and the sub-core tried first. -/
def selectWithRepeat (hz : Nat → Nat → Nat) (f : Rat) (mode : BandMode) (hintSub hintBand : Nat) (step : Rat) :
    Option (Nat × Nat) × Nat × Nat :=
  let (sub, b, n) := selectBand hz f mode hintSub hintBand step
  if mode = .forced ∨ bandFits f (hz sub b) then (some (sub, b), n, sub)
  else
    match (subCandidates f).filter (· != sub) with
    | [] => (none, n, sub)
    | k :: _ =>
      let (b', memo) := searchBand (hz k) f []
      (if bandFits f (hz k b') then some (k, b') else none, n + memo.length, sub)

/-- The mid-rail frequency a core's band table holds, in Hz (Table 11.9). -/
def State.bandMid (s : State) (c sub b : Nat) : Nat :=
  subLo sub - 400000000 + getBits (s.calVals.get (c * 2048 + 256 * sub + b)) 17 15 * 100000

/-- The band step of the table at a band: the distance of its mid-rail frequency to the next band's, or from the one
below at band 255. -/
def State.bandStep (s : State) (c sub b : Nat) : Rat :=
  if b < 255 then (s.bandMid c sub (b + 1) : Rat) - s.bandMid c sub b
  else (s.bandMid c sub b : Rat) - s.bandMid c sub (b - 1)

/-! ## The lock detector and the loop (R117 to R119, R126) -/

/-- The lock count L and the loss count M of R126, and the lock window W in 0.1 ps. -/
def State.lockCount (s : State) (c : Nat) : Nat := max 16 (s.fld Fields.CORE_LOCKCFG_LCNT c)
def State.lossCount (s : State) (c : Nat) : Nat := s.fld1 Fields.CORE_CFG_LOSS c
def State.lockWindow (s : State) (c : Nat) : Nat := min 1000 (s.fld1 Fields.CORE_LOCKCFG_WINDOW c) * 10

/-- The bandwidth of a CORE_CFG.BW code in kHz (Table 3.4). -/
def coreBwOf (code : Nat) : Nat :=
  [100, 150, 200, 300, 400, 500, 600, 800, 1000, 1200, 1500, 2000, 2500, 3000, 3500, 4000].getD code 4000

/-- The bandwidth of a core's loop: four times the coded value during fast-lock (R117, R119). -/
def State.coreBw (s : State) (c : Nat) : Nat :=
  coreBwOf (s.fld Fields.CORE_CFG_BW c) * if (s.core c).fastUntil.isSome then 4 else 1

/-! ## Acquisition (R116, R119, R125, R128, R163) -/

/-- Close a core's loop at an elapsed tick: the seed is loaded (R163), fast-lock starts (R119), and the lock count
starts when it ends or at once (R126). -/
def State.closeLoop (s : State) (c at_ : Nat) : State :=
  let fl := s.fld Fields.CORE_CFG_FLTIME c
  let k := s.now + (at_ - s.elapsed)
  s.modCore c fun x =>
    { x with state := .acquire, bandChosen := true, vcoOn := true, seedTick := k, seed := seedAt x.theta x.applied k
             modl := x.seeded k
             fastUntil := if fl = 0 then none else some (at_ + fl * 64)
             countFrom := if fl = 0 then some at_ else none }

/-- Start an acquisition at an elapsed tick: cold runs a band selection, warm keeps sub-core and band. MASH3 and DITHER
written since take effect (R116); FORCED mode closes the loop without measuring (R122), once a changed sub-core oscillates
(R120). -/
def State.startAcq (s : State) (c : Nat) (cold : Bool) (mode : BandMode) (at_ : Nat) : State :=
  let x := s.core c
  let on := x.vcoOn && x.state != .off && x.state != .idle
  let power := if on && x.appliedSub == x.sub then 0 else 200
  let s := s.modCore c fun x =>
    { x with state := .select, vcoOn := on, acqMode := mode, acqRestarted := false, bandChosen := !cold, acqAt := at_
             fastUntil := none, countFrom := none, lockAt := none
             wasLocked := x.state == .locked && decide (s.lossCount c ≤ x.outWin), inWin := 0, outWin := 0, errSum := 0, errN := 0
             tdcFails := 0, holdDone := false, waitTick := false
             mash3 := s.flag Fields.CORE_CFG_MASH3 c
             dither := (if s.fld Fields.CORE_CFG_DITHER c = 3 then 0 else s.fld Fields.CORE_CFG_DITHER c)
             sub := if cold && mode == .forced then x.appliedSub else x.sub
             band := if cold && mode == .forced then x.appliedBand else x.band
             steps := 0 }
  if cold && mode != .forced then s else s.closeLoop c (if cold then at_ + power else at_)

/-- End the race that a spare runs for a core: the spare returns to IDLE (R134). -/
def State.endRace (s : State) (c : Nat) : State :=
  match (List.range 26).find? fun k => (s.core k).racingFor == some c with
  | some k => s.modCore k fun x => { x with state := .idle, racingFor := none, fastUntil := none, countFrom := none, lockAt := none }
  | none => s.modCore c fun x => { x with raceDue := false }

/-- The spare racing for a core. -/
def State.racer (s : State) (c : Nat) : Option Nat := (List.range 26).find? fun k => (s.core k).racingFor == some c

/-- The lowest-numbered spare in IDLE, not racing and not being reassigned (R134, R148). -/
def State.idleSpare (s : State) : Option Nat :=
  (List.range 26).find? fun k =>
    bitOf (s.reg .CORE_SPAREMAP 0) k && (s.core k).state == .idle && (s.core k).racingFor.isNone && (s.core k).reassign.isNone

/-- Recompute the divider reference of every output that follows a core (Table 4.2). -/
def State.recomputePsiOf (s : State) (c : Nat) : State := s.each (s.outsOf c) State.recomputePsi

/-- A profile load leaves the divider references of the outputs that follow the core in continuous mode, and recomputes them in coherent mode
(Table 4.2). -/
def State.loadPsi (s : State) (c : Nat) (cont : Bool) : State := if cont then s else s.recomputePsiOf c

/-- An acquisition of a new setting is warm (R125). -/
def State.warmFor (s : State) (c : Nat) (x : Setting) (sub band : Nat) : Bool :=
  let k := s.core c
  (k.state == .locked || k.state == .lost) && x.sameFreq k.applied
    && !(s.bandMode c == .forced && (sub != k.sub || band != k.band))

/-- Load a setting, hint and offset into a core and start its acquisition at the present tick (a profile load, a cold
hop, a raster cold change or an APPLY). A race for the core ends. A fenced core takes nothing (R151). -/
def State.loadCore (s : State) (c : Nat) (x : Setting) (sub band : Nat) (theta : Rat) (mode : BandMode) : State :=
  if (s.core c).role == .fenced then s
  else
  let warm := s.warmFor c x sub band
  let s := s.endRace c
  let s := s.modCore c fun k =>
    { k with applied := x, appliedSub := sub, appliedBand := band, appliedMode := mode, theta := theta, glide := none, glideRelock := false
             raceDue := false }
  s.startAcq c (!warm) mode s.elapsed

/-- An APPLY or RELOCK is a boundary for the trim values of an unassigned core (Table 11.5). -/
def State.hostBoundary (s : State) (c : Nat) : State := if (s.core c).role == .unassigned then s.coreBoundary c else s

/-- A write of CORE_CMD.APPLY released at the present tick (R110, R142, R143, R161). -/
def State.coreApply (s : State) (c : Nat) : WRes :=
  let x := s.staged c
  if (s.core c).role == .fenced then (.ok, s)
  else if !x.valid then (.range, s.modCore c fun k => { k with cfgErr := true })
  else
    let sub := s.fld Fields.CORE_NBAND_SUB c
    let band := s.fld Fields.CORE_NBAND_BAND c
    let mode := bandModeOf (s.fld Fields.CORE_CFG_BANDMODE c)
    let s := s.modCore c fun k => { k with cfgErr := false }
    let k := s.core c
    if x.sameFreq k.applied && sub == k.appliedSub && band == k.appliedBand && mode == k.appliedMode then (.ok, s)
    else if !s.flag Fields.CORE_CFG_EN c then
      (.ok, (s.modCore c fun k =>
        { k with applied := x, appliedSub := sub, appliedBand := band, appliedMode := mode, theta := 0 }).recomputePsiOf c)
    else
      let eff := s.bandMode c
      let s := (s.loadCore c x sub band 0 eff).hostBoundary c
      (.ok, (s.modCore c fun k => { k with appliedMode := mode }).recomputePsiOf c)

/-- A write of CORE_CMD.RELOCK (R144): warm from LOCKED or LOST, cold from IDLE, without effect while an acquisition
runs (R21) or while the core is off or fenced. -/
def State.coreRelock (s : State) (c : Nat) : State :=
  if !s.flag Fields.CORE_CFG_EN c then s
  else
    match (s.core c).state with
    | .locked | .lost => (s.startAcq c false (s.bandMode c) s.elapsed).hostBoundary c
    | .idle => (s.startAcq c true (s.bandMode c) s.elapsed).hostBoundary c
    | _ => s

/-- A write of CORE_CMD.SEARCH (R144): a cold acquisition in SEARCH mode. -/
def State.coreSearch (s : State) (c : Nat) : State :=
  if !s.flag Fields.CORE_CFG_EN c then s
  else
    match (s.core c).state with
    | .locked | .lost | .idle => s.startAcq c true .search s.elapsed
    | _ => s

/-- A write of CORE_CMD with several bits acts bit by bit, APPLY first. -/
def State.coreCmd (s : State) (c : Nat) (w : Word) : WRes :=
  let r := if bitOf w 0 then s.coreApply c else (.ok, s)
  let s := if bitOf w 1 then r.2.coreRelock c else r.2
  let s := if bitOf w 2 then s.coreSearch c else s
  (r.1, s)

/-- CORE_CFG.EN takes effect on the core's state (R108); in STANDBY it is only stored (R489). -/
def State.coreEnable (s : State) (c : Nat) (en : Bool) : State :=
  let k := s.core c
  if k.role == .fenced then s
  else if en then (if k.state == .off && s.active then s.modCore c fun k => { k with state := .idle } else s)
  else
    let s := s.endRace c
    s.modCore c fun k =>
      { k with state := .off, fastUntil := none, countFrom := none, lockAt := none, holdDone := false, glide := none }

/-- A write to CORE_SPAREMAP (R107, Table 3.9). -/
def State.writeSpareMap (s : State) (w : Word) : WRes :=
  let old := s.reg .CORE_SPAREMAP 0
  if s.anyRunning then (.busy, s)
  else if (bitsOf w 26).any fun c => (s.mapOwner c).isSome || (s.core c).role == .fenced then (.range, s)
  else if (bitsOf old 26).any fun c => !bitOf w c && ((s.core c).racingFor.isSome || (s.core c).reassign.isSome) then (.busy, s)
  else
    let s := s.setReg .CORE_SPAREMAP 0 (w &&& 0x3FFFFFF#32)
    let s := s.each ((bitsOf old 26).filter fun c => !bitOf w c) fun s c =>
      s.modCore c fun k => { k with role := .unassigned }
    (.ok, s.each ((bitsOf w 26).filter fun c => !bitOf old c) fun s c =>
      (s.setFld Fields.CORE_CFG_EN c 1).modCore c fun k => { k with role := .spare, state := if s.active then .idle else .off, lockAt := none, holdDone := false })

/-! ## Fences and spares (R134, R148, R151, R329, R353) -/

/-- Fence a core: its setting and a glide that runs stay, for a spare to take over (R149); FENCED until power-on reset, its spare bit cleared and its fence bit set (R151). -/
def State.fenceCore (s : State) (c : Nat) : State :=
  let s := s.setReg .CORE_SPAREMAP 0 (setBit (s.reg .CORE_SPAREMAP 0) c false)
  let s := s.setReg .CORE_FENCESUM 0 (setBit (s.reg .CORE_FENCESUM 0) c true)
  let s := s.modWin (windowIndex 3 c) fun w => { w with inj := 0, live := 0 }
  ((s.unsettle c).calAbandon c).modCore c fun k =>
    { k with state := .fenced, vcoOn := false, role := .fenced, fencedRole := k.role, holdDone := false, lockAt := none
             racingFor := none, reassign := none, waitTick := false, raceDue := false }

/-- A fenced core that no spare replaces gives up its preparation, and the station's other blocking cores give up those for
later swaps, so that they take the preparations in program order (Table 5.7). -/
def State.dropPrep (s : State) (c : Nat) : State :=
  s.each (List.range 8) fun s n => s.each (List.range 3) fun s k =>
    match s.slot n k, (s.slotSt n k).prep with
    | some d, some p =>
      if d = c then
        (s.each (List.range 3) fun s j => s.modSlot n j fun x =>
          if (match x.prep with | some q => decide (p.hop < q.hop) | none => false) then { x with prep := none, settled := none } else x).modSlot n k fun x => { x with prep := none }
      else s
    | _, _ => s

/-- Spare `k` takes the place of core `c`: role, station, routing, map slot and raster binding, its offset and setting
(R148, R190, R329, R353), with its SPARE_IN record (Table 13.8). `role` and `station` are those `c` held. -/
def State.takeOver (s : State) (c k : Nat) (role : CoreRole) (station : Nat) : State :=
  let old := s.core c
  let s := s.setReg .CORE_SPAREMAP 0 (setBit (s.reg .CORE_SPAREMAP 0) k false)
  let s := s.setReg .ANC_COREMAP 0 (setBit (s.reg .ANC_COREMAP 0) k (bitOf (s.reg .ANC_COREMAP 0) c))
  let s := s.modCore k fun x =>
    { x with role := role, station := station, racingFor := none, reassign := none, applied := old.applied
             appliedSub := old.appliedSub, appliedBand := old.appliedBand, appliedMode := old.appliedMode
             theta := old.theta, glide := old.glide, idleUntil := old.idleUntil }
  let s := s.each (s.outsOf c) fun s o => s.setFld Fields.OUT_CFG_SRC o k
  let s := s.each (List.range 8) fun s n => s.each (List.range 3) fun s j =>
    if s.slot n j == some c then s.setReg .STN_MAP n (putBits (s.reg .STN_MAP n) (5 * j) 5 k) else s
  let s := match s.rasOfCore c with
    | some r => s.setFld Fields.RAS_CFG_CORE r k
    | none => s
  let s := s.unsettle k
  let s := s.record 3 c 2 s.now (BitVec.ofNat 32 (fidBits ⟨3, c, 0⟩ * 2 ^ 16 + fidBits ⟨3, k, 0⟩))
  { s with lapses := s.lapses.map fun l => if l.ends == .core c then { l with ends := .core k } else l }

/-! ## Lock and loss (R126 to R137) -/

/-- A loss of lock is consequential to an anchor event: a transfer moves the core, or its LOCK_LOST is suppressed for
an anchor (R137, Table 13.5). -/
def State.ancConsequential (s : State) (c : Nat) : Bool :=
  (match s.transfer with | some t => t.cores.contains c | none => false)
  || (match (s.win (windowIndex 3 c)).suppressedBy 0 s.elapsed with | some f => f.code == 2 | none => false)

/-- A live or split core races (R134); one bound to a raster channel counts as split (R353). -/
def State.races (s : State) (c : Nat) : Bool :=
  ((s.core c).role == .live || (s.core c).role == .split || (s.rasOfCore c).isSome) && s.flag Fields.CORE_CFG_RACE c

/-- Start the race of a spare for a core at the tick after the loss stamp (R134). -/
def State.startRace (s : State) (c k : Nat) : State :=
  let old := s.core c
  let s := s.setReg .ANC_COREMAP 0 (setBit (s.reg .ANC_COREMAP 0) k (bitOf (s.reg .ANC_COREMAP 0) c))
  let s := s.modCore k fun x =>
    { x with racingFor := some c, applied := old.applied, appliedSub := old.appliedSub, appliedBand := old.appliedBand
             appliedMode := old.appliedMode, theta := old.theta, glide := old.glide }
  s.startAcq k true (if s.hasBandTable k then .table else .search) s.elapsed

/-- A core declares loss of lock (R126, R127, R132 to R137). -/
def State.coreLoss (s : State) (c : Nat) : State :=
  let x := s.core c
  let s := s.bump Fields.CORE_LOLCNT_COUNT c 1
  let conseq := s.ancConsequential c
  let s := s.raiseEvent (Src.core_LOCK_LOST c) 0
  let s := match conseq, s.coreOwner c with
    | false, some n => s.lapseWith (Src.core_LOCK_LOST c) (stationMask [n]) (.core c)
    | _, _ => s
  let s := s.postCoreEvent c 91
  if x.state != .locked then s else { s with later := s.later ++ [.core c conseq] }

/-- At the tick after its loss stamp a core is LOST and gates its outputs (R132), and the warm acquisition starts (R133); a spare starts to race for it at the end
of the tick, unless a hop has made it a blocking core meanwhile (R134, Table 5.7). -/
def State.coreLost (s : State) (c : Nat) (conseq : Bool) : State :=
  let x := s.core c
  if x.state != .locked then s
  else
    let s := (s.unsettle c).modCore c fun k =>
      { k with state := .lost, holdDone := false, lockAt := none, consequential := conseq }
    if x.racingFor.isSome then s.modCore c fun k => { k with state := .idle, racingFor := none }
    else if conseq then
      (if (s.anc (s.ancOf c)).hasTick then s.startAcq c false (s.bandMode c) s.elapsed
       else s.modCore c fun k => { k with waitTick := true })
    else
      let s := s.modCore c fun k => { k with raceDue := true }
      if s.flag Fields.CORE_CFG_AUTORELOCK c then
        s.startAcq c false (s.bandMode c) s.elapsed
      else s

/-- At the end of the tick at which a core lost lock the lowest-numbered spare in IDLE starts to race for it (R134): not where an APPLY
or a hop has given the core another setting meanwhile (Table 3.9). -/
def State.startRaces (s : State) : State :=
  s.each ((List.range 26).filter fun c => (s.core c).raceDue) fun s c =>
    let s' := s.modCore c fun k => { k with raceDue := false }
    if (s.core c).state == .fenced || !s.races c then s'
    else match s.idleSpare with
      | some k => s'.startRace c k
      | none => s'

/-- Whether CORE_LOCK_LOSS may be stamped: the loss count of a LOCKED core has completed (R126), or had when an APPLY of this very
tick restarted the core (Table 3.9). -/
def State.lossAdmitted (s : State) (c : Nat) : Bool :=
  let x := s.core c
  (x.state == .locked && decide (s.lossCount c ≤ x.outWin) && !s.later.contains (.core c true) && !s.later.contains (.core c false))
    || ((x.state == .select || x.state == .acquire) && x.wasLocked && x.acqAt == s.elapsed)

/-- The lock count has completed (R126), on an anchor that ticks; not before the end of a glide that was released while the core
acquired (Table 5.7). -/
def State.lockAdmitted (s : State) (c : Nat) : Bool :=
  (s.core c).state == .acquire && !(s.core c).glideRelock && (s.anc (s.ancOf c)).hasTick && decide (s.lockCount c ≤ (s.core c).inWin)

/-- The margin of a tuning voltage to the nearer usable rail in mV (R147). DESIGN CHOICE (log entry 84): outside the usable range the
spec gives no reading; the margin is 0 there. -/
def marginOf (v : Nat) : Nat := min (v - 150) (850 - v)

/-- A racing spare has locked first: it takes the failing core's role and routing, and the failing core is fenced
with the source NO_LOCK (R134, R135), unless another fault has fenced it (R511). -/
def State.raceWon (s : State) (c k : Nat) : State :=
  let old := s.core c
  if old.role == .fenced then s.takeOver c k old.fencedRole old.station
  else
    let s := s.raiseEvent (Src.core_NO_LOCK c) 0
    let s := s.fenceCore c
    let s := s.openWindow 3 c (Src.core_NO_LOCK c) (s.fedByCore c)
    s.takeOver c k old.role old.station

/-- A core declares lock (R126, R127, R147, R134): a spare that declares it at the same tick as the core it races for returns to
IDLE. -/
def State.coreLock (s : State) (c vtune : Nat) : State :=
  let x := s.core c
  let s := s.modCore c fun k =>
    { k with state := .locked, lockAt := some s.elapsed, holdDone := false, countFrom := none, consequential := false
             outWin := 0, errSum := 0, errN := 0 }
  let s := s.setReg .CORE_PERR c 0
  let m := marginOf vtune
  let s := s.setReg .CORE_MARGIN c (BitVec.ofNat 32 (m % 4096 * 2 ^ 16 + vtune % 4096))
  let s := s.setReg .CORE_LOCKTIME c
    (BitVec.ofNat 32 (min x.steps 15 * 2 ^ 24 + min (s.elapsed - x.acqAt) 0xFFFFFF))
  let min_ := s.fld Fields.CORE_WEARCFG_MARGIN_MIN 0
  let s := s.setLevel (Src.core_MARGIN_LOW c) 0 (decide (m < min_))
  let s := s.postCoreEvent c 88
  match x.racingFor with
  | some n => if s.lockAdmitted n then s.endRace n else s.raceWon n c
  | none => s.endRace c

/-- Band selection ends (R121, R122): the loop closes on the chosen band, or BAND_RANGE is raised. -/
def State.bandDone (s : State) (c : Nat) : State :=
  let x := s.core c
  let (res, n, first) := selectWithRepeat (fun sub b => Config.bandHz c sub b s.elapsed) x.applied.hz x.acqMode x.appliedSub
    x.appliedBand (s.bandStep c x.appliedSub x.appliedBand)
  let s := s.modCore c fun k => { k with steps := n }
  match res with
  | some (sub, b) =>
    let due := x.acqAt + n * 228 + (if x.vcoOn && first == x.sub then 0 else 200) + (if sub = first then 0 else 200)
    if s.elapsed < due then s.modCore c fun k => { k with steps := x.steps }
    else (s.modCore c fun k => { k with sub := sub, band := b }).closeLoop c s.elapsed
  | none => s.raiseEvent (Src.core_BAND_RANGE c) 0

/-- An acquisition has run 32,768 ticks without lock (R131): one restart in SEARCH mode after a first attempt in TABLE
mode, else NO_LOCK and LOST. -/
def State.acqTimeout (s : State) (c : Nat) : State :=
  let x := s.core c
  if x.acqMode == .table && !x.acqRestarted then
    (s.startAcq c true .search s.elapsed).modCore c fun k => { k with acqRestarted := true }
  else
    (s.raiseEvent (Src.core_NO_LOCK c) 0).modCore c fun k =>
      { k with state := .lost, fastUntil := none, countFrom := none }

/-- An acquisition is due to time out: not a racing spare, not one left in SELECT by BAND_RANGE. -/
def State.timeoutAdmitted (s : State) (c : Nat) : Bool :=
  let x := s.core c
  (x.state == .select || x.state == .acquire) && x.racingFor.isNone && !x.glideRelock && decide (x.acqAt + 32768 ≤ s.elapsed)
    && !(x.state == .select && decide (0 < x.steps))

/-! ## Status registers (R106, R215, Table 3.7) -/

/-- Codes of the core states (Table 3.7). -/
def CoreSt.code : CoreSt → Nat
  | .off => 0 | .idle => 1 | .select => 2 | .acquire => 3 | .locked => 4 | .lost => 5 | .fenced => 6

/-- Codes of the roles (Table 3.1). -/
def CoreRole.code : CoreRole → Nat
  | .unassigned => 0 | .live => 1 | .blocking => 2 | .split => 3 | .spare => 4 | .fenced => 5

/-- The core's own CORE_STAT word, whatever its role. -/
def State.coreStatOwn (s : State) (c : Nat) : Word :=
  let x := s.core c
  BitVec.ofNat 32 (s.ancOf c * 2 ^ 26 + x.sub % 4 * 2 ^ 24 + x.band % 256 * 2 ^ 16 + x.role.code * 2 ^ 10
    + (match x.role with | .live | .blocking | .split => x.station % 8 * 2 ^ 7 | _ => 0)
    + (s.stagedPending c).toNat * 2 ^ 6 + x.cfgErr.toNat * 2 ^ 5 + x.gates.toNat * 2 ^ 4
    + (x.state == .locked).toNat * 2 ^ 3 + x.state.code)

/-- What a read of CORE_STAT shows: SUB, BAND, PENDING, LOCK and STATE of a blocking core keep the values they had when
it last left the live or split role, and so does GATED, since no register shows a preparation (R215). -/
def State.coreStat (s : State) (c : Nat) : Word :=
  let own := s.coreStatOwn c
  if (s.core c).role == .blocking then
    let keep := 0x03FF005F#32
    (own &&& ~~~keep) ||| ((s.core c).lastView.stat &&& keep)
  else own

/-- CORE_PERR of a core: 0 while it is not LOCKED (R139). -/
def State.corePerr (s : State) (c : Nat) : Word := if (s.core c).state == .locked then s.reg .CORE_PERR c else 0

/-- What the registers of R215 show of a core now. -/
def State.coreView (s : State) (c : Nat) : CoreView :=
  ⟨s.coreStatOwn c, s.corePerr c, s.reg .CORE_LOCKTIME c, s.reg .CORE_MARGIN c, (s.core c).state == .locked,
    s.fld Fields.CORE_LOLCNT_COUNT c⟩

/-- A core takes a role in a station. Leaving the live or split role keeps what R215 shows. -/
def State.setRole (s : State) (c : Nat) (role : CoreRole) (n : Nat) : State :=
  let v := s.coreView c
  s.modCore c fun x =>
    if x.role == .fenced then x
    else
      { x with role := role, station := n
               lastView := if x.role == .live || x.role == .split then v else x.lastView }

end Sys2Proof.Machine
end

