-- ==== Sys2Proof/Machine/Anchors.lean ====
section
/-! DEFINITION. References, anchors, the timeline's condition and transfers (spec/01 Table 1.1, spec/02). -/

namespace Sys2Proof.Machine

/-! ## TIME_STATE (R33 to R35, R630) -/

/-- Set TIME_STATE.SRC and COND. A change is entered in the timeline's tally once the count has started (R35); leaving
STOPPED after the start sets BROKEN (R34); UNSTEERED, STOPPED and BROKEN are level sources (R656). -/
def State.setTime (s : State) (src cond : Nat) : State :=
  let src0 := s.timeSrc
  let cond0 := s.cond
  if src = src0 ∧ cond = cond0 then s
  else
    let s := (s.setFld Fields.TIME_STATE_SRC 0 src).setFld Fields.TIME_STATE_COND 0 cond
    if src = 0 then s
    else
      let s := s.record 1 0 0 s.now (BitVec.ofNat 32 (src * 256 + cond))
      let s := if cond0 = 2 ∧ src0 ≠ 0 ∧ cond ≠ 2 then
          (s.stick Fields.TIME_STATE_BROKEN 0).beginLevel Src.time_BROKEN 0 else s
      let s := s.setLevel Src.time_UNSTEERED 0 (cond == 1)
      s.setLevel Src.time_STOPPED 0 (cond == 2)

/-- The anchor that carries the timeline, if its inner lock holds. -/
def State.carrier (s : State) : Option Nat :=
  match s.primary with
  | some p => if (s.anc p).inner then some p else none
  | none => none

/-- Table 1.1 for the present anchors: STEERED while the primary is steered, UNSTEERED while it only ticks, STOPPED while it
has no tick. -/
def State.condOf (s : State) : Nat :=
  match s.primary with
  | some p => if !(s.anc p).hasTick then 2 else if (s.anc p).state == .steered then 0 else 1
  | none => 2

/-- Bring TIME_STATE.COND up to date with the anchors. -/
def State.updateCond (s : State) : State := s.setTime s.timeSrc s.condOf

/-! ## References (R62 to R68) -/

/-- The reference an anchor selects: while it is enabled and not OFF (R68). -/
def State.selRef (s : State) (a : Nat) : Option Nat :=
  let r := s.fld Fields.ANC_CFG_REFSEL a
  if s.flag Fields.ANC_CFG_EN a && (s.anc a).state != .off && decide (r < 4) then some r else none

/-- REF_RATIO_DEN: 0 is taken as 1. -/
def State.refDen (s : State) (r : Nat) : Nat := s.fld1 Fields.REF_RATIO_DEN_DEN r

/-- The nominal frequency of a reference in Hz times NUM: 8 GHz × PREDIV × DEN; the frequency is this over NUM (R62). -/
def State.refTop (s : State) (r : Nat) : Nat := 8000000000 * (s.fld Fields.REF_CFG_PREDIV r + 1) * s.refDen r

/-- R62 for the ratio registers: nominal frequency within Table 2.1 and, for REFA to REFD, 40 ≤ NUM/DEN ≤ 8,000. -/
def State.refRatioOk (s : State) (r : Nat) : Bool :=
  let num := s.fld Fields.REF_RATIO_NUM_NUM r
  let hi := if r = 4 then 250000000 else 1600000000
  decide (0 < num) && decide (1000000 * num ≤ s.refTop r) && decide (s.refTop r ≤ hi * num)
    && (r == 4 || (decide (40 * s.refDen r ≤ num) && decide (num ≤ 8000 * s.refDen r)))

/-- REF_STAT.CFGERR: evaluated only while the input is enabled (R62). -/
def State.refCfgErr (s : State) (r : Nat) : Bool := s.flag Fields.REF_CFG_EN r && !s.refRatioOk r

/-- The time base of a reference's gate: 2 only for REFCAL or an idle reference, else taken as XOA (R68); 3 is taken as
XOA. -/
def State.gateBase (s : State) (r : Nat) : Nat :=
  match s.fld Fields.REF_MONCFG_TBASE r with
  | 1 => 1
  | 2 => if r = 4 ∨ (s.selRef 0 ≠ some r ∧ s.selRef 1 ≠ some r) then 2 else 0
  | _ => 0

/-- Whether a reference is qualified. -/
def State.refOk (s : State) (r : Option Nat) : Bool :=
  match r with
  | some r => (s.ref r).qualified
  | none => false

/-! ## Roles and readiness (R80 to R82) -/

/-- ANC_GLOBAL.DUAL. -/
def State.dual (s : State) : Bool := s.flag Fields.ANC_GLOBAL_DUAL 0

/-- The other anchor. -/
def otherAnc (a : Nat) : Nat := 1 - a

/-- An anchor has an outer TDC in service (R103). -/
def Anchor.tdc (x : Anchor) : Bool := x.tdcActive || x.tdcSpare

/-- The secondary in FOLLOWING, if there is one. -/
def State.follower (s : State) : Option Nat :=
  match s.primary with
  | some p => if s.dual && (s.anc (otherAnc p)).state == .following then some (otherAnc p) else none
  | none => none

/-- The steering of an anchor is frozen: its TDC check runs (R102, R104), or it follows while an alignment beyond TRIP is not
settled (R85). -/
def State.frozen (s : State) (a : Nat) : Bool :=
  (s.anc a).tdcChecking || ((s.alignOver.isSome || s.raises.any fun r => r.fid == Src.anc_ALIGN_TRIP) && s.follower == some a)

/-- The secondary is ready (R82): following, aligned for 1,024 ticks, its standby reference qualified and not the
primary's, with an outer TDC in service (R103). -/
def State.ancReady (s : State) (a : Nat) : Bool :=
  let x := s.anc a
  s.dual && s.primary == some (otherAnc a) && x.state == .following && x.inner && decide (1024 ≤ s.alignRun)
    && s.refOk (s.selRef a) && s.selRef a != s.selRef (otherAnc a) && x.tdc

/-- An anchor with inner lock may acquire its reference: it is qualified and an outer TDC is in service (Table 2.3, R103). -/
def State.mayAcquire (s : State) (a : Nat) : Bool := s.refOk (s.selRef a) && (s.anc a).tdc

/-- A role with inner lock held: OUTER_ACQ when the reference may be acquired, with no build-out, else INNER_LOCKED. -/
def State.acquireRef (s : State) (a : Nat) : State :=
  s.modAnc a fun x => { x with state := if s.mayAcquire a then .outerAcq else .innerLocked, aim := 0, slewing := false }

/-! ## The outer loop (R70 to R73, R90, R91) -/

/-- The bandwidth of a code of Table 2.2, in 0.01 Hz. -/
def loopBwOf (code : Nat) : Nat :=
  [1, 2, 5, 10, 20, 50, 100, 200, 500, 1000, 2000, 5000, 10000, 20000, 50000, 100000, 200000, 500000].getD code 500000

/-- The damping of an ANC_CFG.DAMP code in tenths; 3 is taken as 0. -/
def loopDampOf (code : Nat) : Nat :=
  match code with
  | 1 => 10
  | 2 => 30
  | _ => 7

/-- The bandwidth of the loop that steers an anchor (R71, R73): ANC_ALIGNCFG.BW for the secondary that follows, BW once outer
lock is declared, ACQBW while it acquires unless that is below BW. -/
def State.loopBw (s : State) (a : Nat) : Nat :=
  let bw := loopBwOf (s.fld Fields.ANC_CFG_BW a)
  if s.follower = some a then loopBwOf (s.fld Fields.ANC_ALIGNCFG_BW 0)
  else if (s.anc a).outer then bw else max bw (loopBwOf (s.fld Fields.ANC_CFG_ACQBW a))

/-- ANC_STEERLIM in the units of ANC_STEER: 0.1 ppm steps, at most 2,000, in 2^-40 (R70). -/
def State.steerLimit (s : State) (a : Nat) : Nat := min 2000 (s.fld Fields.ANC_STEERLIM_LIMIT a) * 2 ^ 40 / 10 ^ 7

/-- The steering value has reached its limit (R70). -/
def State.atSteerLimit (s : State) (a : Nat) : Bool := decide (s.steerLimit a ≤ (intOfWord (s.reg .ANC_STEER a)).natAbs)

/-- A value moved towards zero by at most a step. -/
def towardZero (x step : Rat) : Rat := if 0 ≤ x then max 0 (x - step) else min 0 (x + step)

/-- One tick of an anchor that slews onto its reference: at most ANC_SLEW ps/s, 0 taken as 1 (R91). A frozen anchor does not
move. -/
def Anchor.slew (x : Anchor) (frozen : Bool) : Anchor :=
  if x.slewing && !frozen then { x with aim := towardZero x.aim (mkRat x.loopSlew 50000000) } else x

/-- The outer phase error to which the outer loop of an anchor steers, in 0.1 ps: its build-out (R90, R91), and on the primary the shift
by which the lanes remove θ_f (R397, R398). -/
def State.outerTarget (s : State) (a : Nat) : Rat := (s.anc a).aim + if s.primary = some a then s.lng.target else 0

/-- How far the outer phase error of an anchor lies from that. -/
def State.outerDistance (s : State) (a : Nat) : Rat :=
  let d := intOfWord (s.reg .ANC_PERR a) - s.outerTarget a
  max d (-d)

/-- The outer-loop readings of a ticking anchor are taken into its registers, the steering within its limit (R70); it holds
while it is frozen, and when no outer TDC measures for an anchor that does not follow (R102, R103). The bandwidth, damping and
slew rate written last take effect on this comparison (R72). -/
def State.outerLoopRead (s : State) (a : Nat) (steer perr : Int) : State :=
  let x := s.anc a
  let lim : Int := s.steerLimit a
  let froze := s.frozen a
  if !x.hasTick then s
  else
    let s := if !froze && (s.follower == some a || x.tdc) then
        s.setReg .ANC_STEER a (wordOfInt (max (-lim) (min lim steer))) else s
    let bw := s.loopBw a
    (s.setReg .ANC_PERR a (wordOfInt perr)).modAnc a fun x =>
      { x with loopBw := bw, loopDamp := loopDampOf (s.fld Fields.ANC_CFG_DAMP a), loopSlew := s.fld1 Fields.ANC_SLEW_RATE a }.slew froze

/-- Reduce a phase error in 0.1 ps by whole compared periods to within half a period (R90). The compared period is
NUM/DEN anchor cycles of 125 ps. -/
def State.reducePhase (s : State) (r : Nat) (e : Int) : Int :=
  let p : Rat := mkRat (1250 * s.fld Fields.REF_RATIO_NUM_NUM r) (s.refDen r)
  if p = 0 then e else ratRound ((e : Rat) - p * ratRound ((e : Rat) / p))

/-- The timing source of the device (R392): the lane that feeds the primary anchor's recovered clock. -/
def State.timingLane (s : State) : Option Nat :=
  match s.primary with
  | some 0 => if s.flag Fields.LNG_RCLK_EN0 0 then some (s.fld Fields.LNG_RCLK_SEL0 0) else none
  | some _ => if s.flag Fields.LNG_RCLK_EN1 0 then some (s.fld Fields.LNG_RCLK_SEL1 0) else none
  | none => none

/-- After a change of the timing source from `old`, ALIGNED is clear (R402). -/
def State.noteSource (s : State) (old : Option Nat) : State :=
  if s.timingLane = old then s else s.setFld Fields.LNG_TTSTAT_ALIGNED 0 0

/-- The difference between an anchor's phase and its own reference, in 0.1 ps (R90). -/
def State.buildOut (s : State) (a : Nat) : Int :=
  match s.selRef a with
  | some r => s.reducePhase r (intOfWord (s.reg .ANC_PERR a))
  | none => 0

/-- An anchor takes over as primary, steered or at INNER_LOCKED: the count continues from its copy (R89). With BO_MODE = HOLD it
records its build-out and holds it; with SLEW it moves onto its reference from there (R90, R91). -/
def State.becomePrimary (s : State) (a : Nat) (steered : Bool) : State :=
  let s := { s with primary := some a, primaryAt := s.elapsed, count := (s.anc a).copy }.noteSource s.timingLane
  let slew := s.flag Fields.ANC_CFG_BO_MODE a
  let d := s.buildOut a
  let s := if slew || (s.selRef a).isNone then s else s.setReg .ANC_BUILDOUT a (wordOfInt d)
  (s.setFld Fields.ANC_STATUS_PRIMARY 0 a).modAnc a fun x =>
    { x with state := if steered then .steered else .innerLocked, outer := steered, secondary := false, aim := d, slewing := slew }

/-- The anchor terms of the cores of a list follow the anchors that now feed them (R191): zero on the primary, the lateness of the
secondary's tick by ANC_ALIGN on the secondary, held while its steering is frozen (R173). -/
def State.ancTermOf (s : State) (c : Nat) : Int :=
  let align := intOfWord (s.reg .ANC_ALIGN 0)
  match s.primary with
  | some p =>
    let a := s.ancOf c
    if a = p then 0 else if s.frozen a then (s.core c).ancTerm else if p = 0 then align else -align
  | none => 0

def State.ancTerms (s : State) (cs : List Nat) : State :=
  s.each cs fun s c => s.modCore c fun k => { k with ancTerm := s.ancTermOf c }

/-- Primary and secondary exchange roles without gating (R99). -/
def State.swapRoles (s : State) : State :=
  match s.primary with
  | some p =>
    let s := s.becomePrimary (otherAnc p) true
    let s := s.modAnc p fun x => { x with state := .following, secondary := true, aim := 0, slewing := false }
    (s.updateCond).ancTerms (List.range 26)
  | none => s

/-! ## Transfers (R86 to R94) -/

/-- The cores that ANC_COREMAP assigns to an anchor. -/
def State.ancCores (s : State) (a : Nat) : List Nat := (List.range 26).filter fun c => s.ancOf c == a

/-- The detectors an anchor feeds (Table 13.5). -/
def State.fedByAnchor (s : State) (a : Nat) : List Fid :=
  ((s.ancCores a).map fun c => [Src.core_LOCK_LOST c, Src.core_NO_LOCK c] ++ s.fedByCore c).flatten
  ++ (List.range 16).map Src.lane_TT_TRIP

/-- A core re-acquires on a new anchor: warm when a band had been chosen, cold otherwise (R86, R137, Table 3.9); with no
tick there it stays LOST until one exists (R97). -/
def State.reacquire (s : State) (c a : Nat) : State :=
  let x := s.core c
  match x.state with
  | .off | .idle | .fenced => s
  | _ =>
    if (s.anc a).hasTick then s.startAcq c (x.state == .select && !x.bandChosen) (s.bandMode c) s.elapsed
    else s.modCore c fun k => { k with state := .lost, holdDone := false, lockAt := none, waitTick := true }

/-- The promise of the stations that some anchors feed lapses with a raise: the lock condition of Table 0.1 fails until the
anchor and their cores are locked again. -/
def State.anchorLapse (s : State) (as : List Nat) (cause : Fid) : State :=
  let fed := (List.range 8).filter fun n => (s.stationCores n).any fun c => as.contains (s.ancOf c)
  s.lapseWith cause (stationMask fed) .anchor

/-- The lock condition of Table 0.1 holds for a station: the timeline is steered, and every core it drives outputs with is
locked, past its ungate hold, on an anchor that drives. -/
def State.lockHolds (s : State) (n : Nat) : Bool :=
  s.cond == 0 && (s.stationCores n).all fun c =>
    match (s.core c).role with
    | .live | .split => !(s.core c).gates && !s.anchorGates c
    | _ => true

/-- End the lapses that an anchor began once the lock condition holds for their stations. -/
def State.endAnchorLapses (s : State) : State :=
  s.endLapses fun l => l.ends == .anchor && (bitsOf l.stations 8).all fun n => s.lockHolds n

/-- Move the cores of an anchor to the other one with gating (R86): they are reassigned and re-acquire. The consequence
window is the anchor's and covers what it fed before the move (R517). -/
def State.moveCores (s : State) (from_ : Nat) (cause : Fid) : State :=
  let dest := otherAnc from_
  let cs := s.ancCores from_
  let s := s.openWindow 2 0 cause (s.fedByAnchor from_)
  let s := s.each cs fun s c => s.setReg .ANC_COREMAP 0 (setBit (s.reg .ANC_COREMAP 0) c (dest == 1))
  let s := (s.each cs fun s c => s.reacquire c dest).ancTerms cs
  let s := (s.calPause 58).calPause 59
  { s.bump Fields.ANC_XFERCNT_COUNT 0 1 with transfer := some ⟨from_, cs⟩, xferStamp := s.now }

/-- A transfer has ended once no output it moved is still gated by its core or anchor (R93): the source TRANSFER is
raised. DESIGN CHOICE (log entry 79): R93 does not say whether a moved core that is IDLE or OFF with an enabled output keeps the
transfer in progress; here it does, until that output ungates. -/
def State.finishTransfer (s : State) : State :=
  match s.transfer with
  | some t =>
    if t.cores.all fun c => (s.outsOf c).all fun o =>
        !((s.core c).role != .fenced && ((s.core c).gates || s.anchorGates c) && s.flag Fields.OUT_CFG_EN o) then
      { s with transfer := none }.raiseEvent Src.anc_TRANSFER 0
    else s
  | none => s

/-- An anchor goes to FAILED: it drives nothing; its inner loop stays on its XO (R95). No alignment is left to be judged. -/
def State.failAnchor (s : State) (a : Nat) : State :=
  { s.modAnc a fun x => { x with state := .failed, outer := false, hasTick := false, secondary := true, aim := 0, slewing := false } with
    alignOver := none }

/-- A lock or reference event of an anchor, which settles the case of an alignment beyond TRIP (Table 2.4, R85). -/
def State.settleAlign (s : State) : State := { s with alignOver := none, ancEventAt := some s.elapsed }

/-- The source ANCx_INNER_LOST or ANCx_OUTER_LOST of an anchor. -/
def innerLost (a : Nat) : Fid := if a = 0 then Src.anc_ANCA_INNER_LOST else Src.anc_ANCB_INNER_LOST
def outerLost (a : Nat) : Fid := if a = 0 then Src.anc_ANCA_OUTER_LOST else Src.anc_ANCB_OUTER_LOST
def tdcFenced (a : Nat) : Fid := if a = 0 then Src.anc_ANCA_TDC_FENCED else Src.anc_ANCB_TDC_FENCED

/-- The primary's reference is disqualified or it loses outer lock (Table 2.4, first rows and last row): a transfer when
the event found the secondary ready and its inner lock has held since, else the primary drops to INNER_LOCKED and keeps the
timeline. -/
def State.primaryUnsteered (s : State) (p : Nat) (cause : Fid) (ready : Bool) : State :=
  if ready && (s.anc (otherAnc p)).inner then
    let s := (s.anchorLapse [p] cause).failAnchor p
    ((s.becomePrimary (otherAnc p) true).moveCores p cause).updateCond
  else if (s.anc p).state == .steered || (s.anc p).state == .outerAcq then
    let s := s.anchorLapse [0, 1] cause
    (s.modAnc p fun x => { x with state := .innerLocked, outer := false }).updateCond
  else s

/-- The primary loses inner lock (Table 2.4): `ready` and `follows` say what the event found of the secondary, whose inner lock
must have held since. -/
def State.primaryInnerLost (s : State) (p : Nat) (cause : Fid) (ready follows : Bool) : State :=
  let q := otherAnc p
  let s := if ready then s.anchorLapse [p] cause else s.anchorLapse [0, 1] cause
  if follows && (s.anc q).inner && (s.anc q).hasTick then
    (((s.failAnchor p).becomePrimary q ready).moveCores p cause).updateCond
  else
    (s.modAnc p fun x => { x with state := .innerAcq, outer := false, hasTick := false }).updateCond

/-- The secondary fails: it goes to FAILED and its cores move to the primary (Table 2.4). -/
def State.secondaryFails (s : State) (a : Nat) (cause : Fid) : State :=
  ((s.anchorLapse [a] cause).failAnchor a).moveCores a cause

/-- An anchor loses inner lock (R74, Table 2.4). In FAILED only its detector moves. -/
def State.ancInnerLoss (s : State) (a : Nat) : State :=
  let x := s.anc a
  if x.state == .failed then s.modAnc a fun x => { x with inner := false }
  else if !x.inner then s
  else
    let s := s.raiseEvent (innerLost a) 0
    let l : Later := .inner a (s.ancReady (otherAnc a)) (s.follower == some (otherAnc a))
    let s := (s.modAnc a fun x => { x with inner := false }).settleAlign
    { s with later := s.later ++ [l] }

/-- At the tick after the stamp of an inner lock lost, the rows of Table 2.4 apply, unless the anchor has been disabled since. -/
def State.innerGone (s : State) (a : Nat) (ready follows : Bool) : State :=
  if (s.anc a).state == .off || (s.anc a).state == .failed then s
  else if s.primary == some a then s.primaryInnerLost a (innerLost a) ready follows
  else if (s.anc a).secondary && s.dual then s.secondaryFails a (innerLost a)
  else (s.modAnc a fun x => { x with state := .innerAcq, hasTick := false }).updateCond

/-- An anchor loses outer lock (R70, R75, R103, Table 2.4): only an anchor that holds it has it to lose. -/
def State.ancOuterLoss (s : State) (a : Nat) : State :=
  if !(s.anc a).outer then s
  else
    let l : Later := .unsteered a (outerLost a) (s.ancReady (otherAnc a))
    let s := ((s.raiseEvent (outerLost a) 0).settleAlign).modAnc a fun x => { x with outer := false }
    if s.primary == some a then { s with later := s.later ++ [l] } else s

/-- Cores waiting for a tick of an anchor acquire warm once it exists (R97). -/
def State.wakeCores (s : State) (a : Nat) : State :=
  s.each ((s.ancCores a).filter fun c => (s.core c).waitTick) fun s c => s.startAcq c false (s.bandMode c) s.elapsed

/-- May an anchor become primary when none carries the timeline (R80)? With DUAL = 0 only the one PRIMARY_INIT names,
or the other when that one is not enabled. -/
def State.mayLead (s : State) (a : Nat) : Bool :=
  let p := s.fld Fields.ANC_GLOBAL_PRIMARY_INIT 0
  s.dual || a == p || !s.flag Fields.ANC_CFG_EN p

/-- An anchor with inner lock becomes primary (R80). Its tick, and with it the count, starts at the next tick edge (R76). -/
def State.lead (s : State) (a : Nat) : State :=
  let p := s.fld Fields.ANC_GLOBAL_PRIMARY_INIT 0
  let s := { s with primary := some a, primaryAt := s.elapsed, initDone := s.initDone || !s.dual || a == p }
  ((s.setFld Fields.ANC_STATUS_PRIMARY 0 a).modAnc a fun x => { x with secondary := false }).acquireRef a

/-- The role of an anchor whose inner lock has just been declared (R80): primary when no anchor carries the timeline and R80 admits
it, also when it was primary before; else secondary in FOLLOWING with DUAL = 1, else no role. When both declare inner lock at one
tick at start, the anchor that PRIMARY_INIT names leads. -/
def State.takeRole (s : State) (a : Nat) : State :=
  let follow (s : State) (a : Nat) : State := s.modAnc a fun x => { x with state := .following, secondary := true }
  match s.carrier with
  | none => if s.mayLead a then s.lead a else s.modAnc a fun x => { x with state := .innerLocked, secondary := true }
  | some p =>
    if p = a then s
    else if !s.dual then s.modAnc a fun x => { x with state := .innerLocked, secondary := true }
    else if s.primaryAt = s.elapsed ∧ !s.initDone ∧ a = s.fld Fields.ANC_GLOBAL_PRIMARY_INIT 0 then follow (s.lead a) p
    else follow s a

/-- An anchor declares inner lock (R74, R80). In FAILED only its detector moves. -/
def State.ancInnerLock (s : State) (a : Nat) : State :=
  if (s.anc a).state == .failed then s.modAnc a fun x => { x with inner := true }
  else ((s.takeRole a).modAnc a fun x => { x with inner := true }).settleAlign

/-- An anchor's tick starts at this edge (R76): inner lock has been declared. One back from FAILED with inner lock held takes its
role first (R95). The first primary at start starts the count at 0 with SRC LOCAL (R27), a later one carries the held count on
(R34), and cores that waited for the tick acquire (R97). -/
def State.beginTick (s : State) (a : Nat) : State :=
  let x := s.anc a
  if !x.inner || x.hasTick || x.state == .off || x.state == .failed then s
  else
    let s := if x.state == .innerAcq then
        (s.modAnc a fun x => { x with inner := false }).takeRole a |>.modAnc a fun x => { x with inner := true } else s
    let s := s.modAnc a fun x => { x with hasTick := true }
    let s := if s.primary = some a then
        (if s.timeSrc = 0 then { s with count := 0 }.setTime 1 s.condOf else s.updateCond) else s
    (s.modAnc a fun x => { x with copy := s.count }).wakeCores a

/-- An anchor declares outer lock (R75, R71): the primary is STEERED; a secondary goes on following. -/
def State.ancOuterLock (s : State) (a : Nat) : State :=
  if s.primary != some a then s.modAnc a fun x => { x with outer := true }
  else (((s.modAnc a fun x => { x with state := .steered, outer := true }).settleAlign).updateCond).endAnchorLapses

/-! ## Reference events (R63 to R66) -/

/-- A reference disqualifies (R64): with `counted`, its sticky bit, count and level source. -/
def State.refDisqualify (s : State) (r : Nat) (level : Bool) : State :=
  let x := s.ref r
  let s := s.modRef r fun x => { x with qualified := false, qualFrom := some s.elapsed, lostAt := s.elapsed }
  if !x.qualified then s
  else
    let s := (s.stick Fields.REF_STAT_DQ r).bump Fields.REF_DQCNT_COUNT r 1
    let s := if level then s.beginLevel ⟨2, 0, r⟩ 0 else s.endLevel ⟨2, 0, r⟩
    let s := if [0, 1].any fun a => s.selRef a == some r then s.settleAlign else s
    match s.primary with
    | some p =>
      if s.selRef p == some r then
        { s with later := s.later ++ [.unsteered p ⟨2, 0, r⟩ (s.ancReady (otherAnc p))] } else s
    | none => s

/-- The primary at INNER_LOCKED that selects a qualified reference starts to acquire it (Table 2.3, R103). -/
def State.acquireQualified (s : State) (r : Nat) : State :=
  match s.primary with
  | some p => if s.selRef p == some r && (s.anc p).state == .innerLocked then s.acquireRef p else s
  | none => s

/-- A reference requalifies (R65). -/
def State.refQualify (s : State) (r : Nat) : State :=
  ((s.modRef r fun x => { x with qualified := true }).endLevel ⟨2, 0, r⟩).acquireQualified r

/-- The qualification time in ticks: QUAL × 10 ms, 0 taken as 1 (R65). -/
def State.qualTicks (s : State) (r : Nat) : Nat := s.fld1 Fields.REF_MONCFG_QUAL r * 5000000

/-- REF_MONCFG.MISS: 0 and 1 are taken as 2. -/
def State.missLimit (s : State) (r : Nat) : Nat := max 2 (s.fld Fields.REF_MONCFG_MISS r)

/-- A silence of an input in picoseconds has lasted MISS nominal periods, of 125 ps × NUM / (PREDIV × DEN) each (R62, R63). -/
def State.edgeMissing (s : State) (r quiet : Nat) : Bool :=
  decide (s.missLimit r * (125 * s.fld Fields.REF_RATIO_NUM_NUM r) ≤ quiet * ((s.fld Fields.REF_CFG_PREDIV r + 1) * s.refDen r))

/-- No edge of a reference within its missing-edge limit (R63, R64). -/
def State.refMissing (s : State) (r : Nat) : State :=
  (s.modRef r fun x => { x with active := false }).refDisqualify r true

/-- A frequency-window gate ends with an offset in 0.01 ppm (R64 to R66). A gate outside ACCEPT restarts the
qualification time; one that ends during a fault hold does not count (Table 13.3). -/
def State.refGate (s : State) (r : Nat) (off : Int) : State :=
  let accept := s.fld Fields.REF_FWIN_ACCEPT r * 10
  let reject := s.fld Fields.REF_FWIN_REJECT r * 10
  let inA := decide (off.natAbs ≤ accept)
  let s := s.setReg .REF_FOFFS r (wordOfInt off)
  let s := s.modRef r fun x => { x with inAccept := inA, active := true, gateBase := s.gateBase r }
  if reject < off.natAbs then s.refDisqualify r true
  else if (s.ref r).qualified then s.acquireQualified r
  else if (s.ref r).held then s
  else if !inA then s.modRef r fun x => { x with qualFrom := some s.elapsed }
  else
    match (s.ref r).qualFrom with
    | some t => if t + s.qualTicks r ≤ s.elapsed ∧ s.refRatioOk r then s.refQualify r else s
    | none => s.modRef r fun x => { x with qualFrom := some s.elapsed }

/-- REF_CFG.EN takes effect (R62, R656): enabling starts the qualification time; disabling disqualifies without a raise. -/
def State.refEnable (s : State) (r : Nat) (en : Bool) : State :=
  if en then s.modRef r fun x => { x with qualFrom := some s.elapsed, gateBase := s.gateBase r }
  else (s.refDisqualify r false).modRef r fun x => { x with active := false, inAccept := false }

/-! ## Alignment (R82, R85, Table 2.4) -/

/-- The alignment trip and window in 0.1 ps; 0 is taken as 1 ps. -/
def State.alignTrip (s : State) : Nat := s.fld1 Fields.ANC_ALIGNCFG_TRIP 0 * 10
def State.alignWin (s : State) : Nat := s.fld1 Fields.ANC_ALIGNCFG_WIN 0 * 10

/-! ## Commands to the anchors (R93 to R101) -/

/-- A rejoin from FAILED: the anchor returns through INNER_ACQ as secondary (R95, R96). -/
def State.rejoin (s : State) (a : Nat) : State :=
  if (s.anc a).state == .failed then s.modAnc a fun x => { x with state := .innerAcq, secondary := true } else s

/-- ANC_CFG.EN written 1 to an anchor in OFF (R69, R101). -/
def State.ancPowerUp (s : State) (a : Nat) : State :=
  if (s.anc a).state == .off then
    s.modAnc a fun x => { x with state := .innerAcq, inner := false, outer := false, secondary := s.carrier.isSome }
  else s

/-- ANC_CFG.EN written 0 (R101). -/
def State.ancPowerDown (s : State) (a : Nat) : State :=
  let x := s.anc a
  let off (s : State) : State := { s.modAnc a fun x =>
    { x with state := .off, inner := false, outer := false, hasTick := false, tdcChecking := false, aim := 0, slewing := false } with
    alignOver := none }.updateCond
  if x.state == .off || x.state == .failed then off s
  else if s.primary == some a && x.inner then
    if s.ancReady (otherAnc a) then
      let s := s.swapRoles
      let s := s.each (s.ancCores a) fun s c => s.setReg .ANC_COREMAP 0 (setBit (s.reg .ANC_COREMAP 0) c (a == 0))
      off (s.ancTerms (List.range 26))
    else off (s.primaryInnerLost a (innerLost a) false (s.follower == some (otherAnc a)))
  else if s.dual && s.carrier.isSome then off (s.secondaryFails a (innerLost a))
  else off s

/-- A write to ANC_COREMAP (R93, R97, R98). -/
def State.writeCoreMap (s : State) (w : Word) : WRes :=
  let moved := (List.range 26).filter fun c => bitOf w c != bitOf (s.reg .ANC_COREMAP 0) c
  if s.transfer.isSome then (.busy, s)
  else if moved.any fun c => s.coreOwned c then (.owned, s)
  else
    let free := (s.anc 0).state.drives && (s.anc 1).state.drives
    let s := (s.setReg .ANC_COREMAP 0 (w &&& 0x3FFFFFF#32)).ancTerms moved
    if free then (.ok, s) else (.ok, s.each moved fun s c => s.reacquire c (s.ancOf c))

/-- A write to ANC_CMD (R93, R95, R99). -/
def State.writeAncCmd (s : State) (w : Word) : WRes :=
  if s.transfer.isSome then (.busy, s)
  else
    let s := if bitOf w 0 then
        match s.primary with
        | some p => if s.ancReady (otherAnc p) then s.swapRoles else s.stick Fields.ANC_STAT_CMDERR p
        | none => s
      else s
    let s := if bitOf w 1 then s.rejoin 0 else s
    (.ok, if bitOf w 2 then s.rejoin 1 else s)

/-! ## The spare TDC (R102 to R105, R657) -/

/-- No outer TDC of an anchor is left (R103): it loses outer lock, and one that acquired its reference goes to INNER_LOCKED. -/
def State.tdcLost (s : State) (a : Nat) : State :=
  let s := s.ancOuterLoss a
  if (s.anc a).state == .outerAcq then s.acquireRef a else s

/-- The check of R102 ends with the verdict on each outer TDC. -/
def State.tdcCheckDone (s : State) (a : Nat) (activeBad spareBad : Bool) : State :=
  let s := s.modAnc a fun x =>
    { x with tdcChecking := false, tdcActive := x.tdcActive && !activeBad, tdcSpare := x.tdcSpare && !spareBad
             spareIn := x.spareIn || (activeBad && !spareBad && x.tdcSpare) }
  let s := if activeBad != spareBad then s.raiseEvent (tdcFenced a) 0 else s
  if (s.anc a).tdc then s else s.tdcLost a

/-- The only remaining outer TDC fails its checks (R657). -/
def State.tdcSingleFail (s : State) (a : Nat) : State :=
  let s := s.modAnc a fun x => { x with tdcActive := false, tdcSpare := false }
  (s.raiseEvent (tdcFenced a) 0).tdcLost a

end Sys2Proof.Machine
end

