-- ==== Sys2Proof/Machine/Timeline.lean ====
section
/-! DEFINITION. The timeline (spec/01, spec/04 SYNC_IN): the tick, timeline loads, SYNC_IN, trigger qualifiers
(spec/07) and the queue of scheduled writes. -/

namespace Sys2Proof.Machine

/-! ## The comparisons of a core (R126, R138 to R140, R165, R172 to R174) -/

/-- The calibration base of a core's phase-trim DAC in 0.05 ps (Table 11.9). -/
def State.cpBase (s : State) (c : Nat) : Int :=
  (BitVec.ofNat 16 (getBits (s.calVals.get (c * 2048 + 1056)) 0 16)).toInt

/-- The sum that the phase-trim DAC must hold, and its setting within ±100 ps, in 0.05 ps (R174): base, servo, commanded offset and
anchor term. What lies beyond the span appears in e_k. -/
def State.trimSum (s : State) (c : Nat) : Rat :=
  let x := s.core c
  s.cpBase c + x.trim + 2 * x.offset s.now + 2 * x.ancTerm
def State.trimDac (s : State) (c : Nat) : Rat := max (-2000) (min 2000 (s.trimSum c))

/-- A block of 2^AVG comparisons is complete (R139): CORE_PERR takes their mean, the phase trim moves by a quarter of it in steps of
0.05 ps (R172), and the anchor term follows ANC_ALIGN (R173). DESIGN CHOICE (log entries 81, 82): blocks are counted from the lock
declaration and leave out the comparisons of R140; the mean is rounded to the nearest 0.1 ps and the quarter downward. -/
def State.perrUpdate (s : State) (c : Nat) : State :=
  let x := s.core c
  if x.errN ≠ 2 ^ s.fld Fields.CORE_CFG_AVG c then s
  else
    let e : Int := max (-12000) (min 12000 (ratRound (x.errSum / x.errN)))
    (s.setReg .CORE_PERR c (wordOfInt e)).modCore c fun k =>
      { k with trim := max (-2000) (min 2000 (k.trim - e / 2)), ancTerm := s.ancTermOf c, errSum := 0, errN := 0 }

/-- The lock detector and the phase-error mean take one comparison (R126, R139). -/
def State.compare (s : State) (c : Nat) (e : Rat) : State :=
  let x := s.core c
  let inside := decide (e ≤ s.lockWindow c) && decide (-(s.lockWindow c : Rat) ≤ e)
  if x.state == .locked then
    (s.modCore c fun x => { x with outWin := if inside then 0 else x.outWin + 1, errSum := x.errSum + e, errN := x.errN + 1 }).perrUpdate c
  else if (match x.countFrom with | some t => decide (t ≤ s.elapsed) | none => false) then
    s.modCore c fun x => { x with inWin := if inside then x.inWin + 1 else 0 }
  else s

/-- One tick of a core whose loop is closed on an anchor that ticks: its modulator runs on, and its TDC measures the feedback edge or,
at a multiple of 512 ticks, the delay reference, which must lie within ±2 ps of its calibrated value (R140). A core without an edge
in the tick makes no comparison. -/
def State.coreTick (s : State) (c : Nat) (e : Option CoreEdge) : State :=
  let x := s.core c
  let k := s.now
  if !(x.state == .acquire || x.state == .locked) || !(s.anc (s.ancOf c)).hasTick || decide (k ≤ x.seedTick) then s
  else
    let n := if x.state == .locked then 1 else (e.map CoreEdge.cycles).getD 1
    let s := (s.setCore c (x.modulate k n)).modCore c fun x => { x with bw := s.coreBw c }
    match e with
    | none => s
    | some e =>
      if k % 512 = 0 then s.modCore c fun x => { x with tdcFails := if 20 < e.time.natAbs then min 2 (x.tdcFails + 1) else 0 }
      else s.compare c ((s.core c).error k e.time)

/-! ## The tick of the count -/

/-- An anchor's count copy advances with its tick (R77); `upset` flips bits of it. -/
def Anchor.tick (a : Anchor) (upset : Count) : Anchor :=
  if a.hasTick then { a with copy := (a.copy + 1) ^^^ upset } else a

/-- Both anchors tick and may carry the timeline, so their count copies are compared (R78, R80). -/
def State.copiesCompared (s : State) : Bool :=
  s.dual && (s.anc 0).hasTick && (s.anc 1).hasTick && s.counting

/-- One tick of 2 ns (R23). While the count runs it increases by one on the primary's copy and every ticking anchor's
copy follows; the copies are compared (R78). Anchors whose inner lock was declared start to tick (R76). The alignment reading and
the outer-loop readings of the tick are taken into their registers, and the cores make their comparisons. -/
def State.tick (s : State) (align : Int) (upset : Count) (steerA steerB perrA perrB : Int) (edges : List CoreEdge) : State :=
  let s := { s with elapsed := s.elapsed + 1, stepped := false }
  let both := (s.anc 0).hasTick && (s.anc 1).hasTick
  let align := if both then align else 0
  let s := s.setReg .ANC_ALIGN 0 (wordOfInt align)
  let run := if both && decide (align.natAbs ≤ s.alignWin) then s.alignRun + 1 else 0
  let s := { s with alignRun := run }.setFld Fields.ANC_STATUS_ALIGNED 0 (decide (1024 ≤ run)).toNat
  let s := (s.outerLoopRead 0 steerA perrA).outerLoopRead 1 steerB perrB
  let s :=
    if s.counting then
      let sec := match s.primary with | some p => otherAnc p | none => 2
      let s := { s with count := s.count + 1 }
      let s := s.modAnc 0 fun a => a.tick (if sec = 0 then upset else 0)
      let s := s.modAnc 1 fun a => a.tick (if sec = 1 then upset else 0)
      let s := if s.copiesCompared && (s.anc 0).copy != (s.anc 1).copy then s.raiseEvent Src.anc_COUNT_MISMATCH 0 else s
      match s.primary with
      | some p => s.modAnc p fun a => { a with copy := s.count }
      | none => s
    else s
  let s := if s.counting then s.each (List.range 26) fun s c => s.coreTick c edges[c]? else s
  ((s.beginTick 0).beginTick 1).finishTransfer

/-! ## Timeline loads (R28 to R32, R182) -/

/-- The count takes a value (R29, R31, Table 4.2): the source is recorded, BROKEN clears, every output takes the loaded
count `kr` as its divider reference tick; `v` is the present one where the load follows its tick. Edges counted before it keep their distance in ticks. -/
def State.loadCount (s : State) (v : Count) (kr src : Nat) : State :=
  let old := s.now
  let s := { s with count := v, syncDue := s.syncDue.map fun (d : SyncDue) => { d with due := d.due - old + v.toNat } }
  let s := s.each [0, 1] fun s a => s.modAnc a fun x => if x.hasTick then { x with copy := v } else x
  let s := (s.setFld Fields.TIME_STATE_BROKEN 0 0).endLevel Src.time_BROKEN
  let s := s.each (List.range 32) fun s o => (s.restartOut o kr).modOut o fun x => { x with tail := none }
  s.setTime src s.cond

/-- TIME_PRESET. -/
def State.preset (s : State) : Count :=
  BitVec.ofNat 64 (ofWords (s.reg .TIME_PRESET_LO 0) (s.reg .TIME_PRESET_HI 0))

/-! ## SYNC_IN (R176 to R182, R30) -/

/-- SYNC_LATENCY: values below 16 are taken as 16 (Table 4.4). -/
def State.syncLatency (s : State) : Nat := max 16 (s.fld Fields.TIME_SYNCCFG_LO_LATENCY 0)

/-- A timeline load is armed: in an open window, or by an edge counted whose load is due. -/
def State.loadArmed (s : State) : Bool :=
  (match s.sync with | some w => w.load | none => false) || s.syncDue.any SyncDue.load

/-- Open the arming window at the present tick (R177). -/
def State.openSync (s : State) (restart load : Bool) : State :=
  let w := s.fld Fields.TIME_SYNCCFG_HI_WINDOW 0
  { s with sync := some ⟨if w = 0 then none else some (s.elapsed + 1000 * w), false, restart, load⟩ }

/-- A write of TIME_SYNCCMD at its release (R30, R177, R179): CANCEL acts first, as a write of its own, then ARM and LOAD. DESIGN
CHOICE (log entry 83): the spec does not say what becomes of a LOAD that joins a window whose edge has already been counted; it is
armed, no edge serves it, and LOADARMED reads 1 until the window closes. -/
def State.writeSyncCmd (s : State) (w : Word) : WRes :=
  let s' := if bitOf w 29 then { s with sync := none } else s
  let arm := bitOf w 31
  let load := bitOf w 30
  if arm && s'.sync.isSome then (.busy, s')
  else if load && s'.loadArmed then (.busy, s')
  else if load && !s'.loadAllowed then (.busy, s')
  else
    let s' := if bitOf w 2 && !bitOf (s.stuckNow .TIME_SYNCCMD 0) 2 then s'.setFld Fields.TIME_SYNCCMD_LOADLOST 0 0 else s'
    match s'.sync with
    | some x => (.ok, if load then { s' with sync := some { x with load := true } } else s')
    | none => (.ok, if arm || load then s'.openSync arm load else s')

/-- A qualified SYNC_IN edge is stamped now (R178): the first inside an open window counts, others add to EXTRA. -/
def State.syncEdge (s : State) : State :=
  match s.sync with
  | some w =>
    if !w.counted && (match w.closesAt with | some t => decide (s.elapsed < t) | none => true) then
      let s := { s with syncStamp := s.now
                        syncDue := s.syncDue ++ [⟨s.now, s.now + s.syncLatency, w.restart, w.load⟩]
                        sync := match w.closesAt with
                          | some _ => some { w with counted := true, load := false }
                          | none => none }
      s
    else (s.bump Fields.TIME_SYNCSTAT_EXTRA 0 1).raiseEvent Src.time_SYNC_EXTRA 0
  | none => (s.bump Fields.TIME_SYNCSTAT_EXTRA 0 1).raiseEvent Src.time_SYNC_EXTRA 0

/-- What a counted edge still has to do replaces an entry; one with nothing left goes. -/
def State.setDue (s : State) (d d' : SyncDue) : State :=
  { s with syncDue := (s.syncDue.map fun x => if x = d then d' else x).filter fun x => x.restart || x.load }

/-- The restart of a counted edge (R180, R181): each masked output not owned by a running guaranteed station takes the
edge's tick as its divider reference tick; the others are counted as skipped. -/
def State.syncRestart (s : State) (d : SyncDue) : State :=
  let s := s.setDue d { d with restart := false }
  let named := bitsOf (s.reg .TIME_SYNCMASK 0) 32
  let skipped := named.filter fun o => s.outOwned o
  let s := s.each (named.filter fun o => !s.outOwned o) fun s o => s.restartOut o d.due
  let s := s.bump Fields.TIME_SYNCSTAT_SKIPPED 0 skipped.length
  if skipped.isEmpty then s else s.raiseEvent Src.time_SYNC_SKIPPED 0

/-- The load of a counted edge (R29, R30): R28 is checked again at its tick, and a load it does not admit is abandoned. -/
def State.syncLoad (s : State) (d : SyncDue) : State :=
  let s := s.setDue d { d with load := false }
  if s.loadAllowed then s.loadCount (s.preset + BitVec.ofNat 64 (s.now - d.due)) s.preset.toNat 2
  else s.stick Fields.TIME_SYNCCMD_LOADLOST 0

/-- The counted edge whose restart or load is due (R29, R180): while the count runs, the first whose tick has come. -/
def State.dueEdge (s : State) (p : SyncDue → Bool) : Option SyncDue :=
  if s.counting then s.syncDue.find? fun d => p d && decide (d.due ≤ s.now) else none

/-- The restart of a counted SYNC_IN edge is due (R180). -/
def State.syncRestartDue (s : State) : State :=
  match s.dueEdge SyncDue.restart with
  | some d => s.syncRestart d
  | none => s

/-- The load of a counted SYNC_IN edge is due (R29); the restart of the same edge comes first. -/
def State.syncLoadDue (s : State) : State :=
  match s.dueEdge fun d => d.load && !d.restart with
  | some d => s.syncLoad d
  | none => s

/-- Every restart and load due now (Table 1.3). -/
def State.syncAll (s : State) : State := s.syncDue.foldl (fun s _ => s.syncRestartDue.syncLoadDue) s

/-! ## Trigger qualifiers (R305 to R311) -/

def State.trig (s : State) (n : Nat) : Trig := s.trigs[n]?.getD default
def State.modTrig (s : State) (n : Nat) (f : Trig → Trig) : State :=
  { s with trigs := s.trigs.setIfInBounds n (f (s.trig n)) }

/-- The minimum width of an input: TRIG_CFG.MINW, for SYNC_IN (8) TIME_SYNCCFG.MINW; 0 is taken as 1 (R311). -/
def State.minWidth (s : State) (n : Nat) : Nat :=
  if n = 8 then s.fld1 Fields.TIME_SYNCCFG_LO_MINW 0 else s.fld1 Fields.TRIG_CFG_MINW n

/-- An input is enabled and not fenced (R308, R310). -/
def State.trigOn (s : State) (n : Nat) : Bool := s.flag Fields.TRIG_CFG_EN n && !s.flag Fields.TRIG_STAT_FENCED n

/-- The OVERRUN and STUCK sources of an input (Table 7.9). -/
def trigOverrun (n : Nat) : Fid := ⟨1, 0, 14 + n⟩
def trigStuck (n : Nat) : Fid := ⟨1, 0, 23 + n⟩

/-- The last sample of an input, its polarity applied (TRIG_STAT.LEVEL). -/
def State.trigLevel (s : State) (n : Nat) : Bool := (s.trig n).held || decide (s.elapsed < (s.trig n).activeTo)

/-- What a qualifier makes of a leading edge whose active samples numbered `width`: a runt, an overrun, or an event
stamped now (R306, R307). `ev` is what an event does. The edge lies MINW ticks before its stamp, and a runt's at its first active sample;
an input that is disabled there yields nothing (R310), a fenced one no event (R308). -/
def State.qualify (s : State) (n width : Nat) (ev : State → State) : State :=
  let edge := s.elapsed - min width (s.minWidth n)
  let s := s.modTrig n fun t => { t with activeTo := edge + width, held := false }
  if !s.flag Fields.TRIG_CFG_EN n || decide (edge < (s.trig n).since) then s
  else
    if width < s.minWidth n then s.bump Fields.TRIG_CNT_RUNT n 1
    else if !s.trigOn n then s
    else
      let space := s.fld Fields.TRIG_CFG_SPACE n
      let early := match (s.trig n).lastAt with
        | some t => decide (s.elapsed - t < space)
        | none => false
      if early then
        ((s.bump Fields.TRIG_CNT_DROPPED n 1).stick Fields.TRIG_STAT_OVERRUN n).raiseEvent (trigOverrun n) 0
      else ev (s.modTrig n fun t => { t with lastAt := some s.elapsed })

/-- An input has been active for 1,024 × STUCK ticks (R308): it raises STUCK and is fenced. -/
def State.trigStuck (s : State) (n : Nat) : State :=
  if !s.trigOn n || s.fld Fields.TRIG_LIMIT_STUCK n == 0 then s
  else
    let s := (s.stick Fields.TRIG_STAT_STUCKSEEN n).modTrig n fun t => { t with held := true }
    (s.raiseEvent (Sys2Proof.Machine.trigStuck n) 0).setFld Fields.TRIG_STAT_FENCED n 1

/-! ## Scheduled writes (R54 to R56, R618, R620) -/

/-- A write of SCHED_CTL.GO: the checks of R618, R55 and R56 in turn, with RESULT and SCHED_REFUSED. -/
def State.schedGo (s : State) : WRes :=
  let addr := s.fld Fields.SCHED_ADDR_ADDR 0
  let data := s.reg .SCHED_DATA 0
  let tick := ofWords (s.reg .SCHED_TICK_LO 0) (s.reg .SCHED_TICK_HI 0)
  if !schedulable addr then (.range, s.setFld Fields.SCHED_CTL_RESULT 0 3)
  else if keyMissing addr data then (.keyerr, s.setFld Fields.SCHED_CTL_RESULT 0 4)
  else if tick < s.now + 16 then (.late, (s.setFld Fields.SCHED_CTL_RESULT 0 1).raiseEvent Src.glb_SCHED_REFUSED 0)
  else if 8 ≤ s.sched.length then (.full, (s.setFld Fields.SCHED_CTL_RESULT 0 2).raiseEvent Src.glb_SCHED_REFUSED 0)
  else (.ok, { s.setFld Fields.SCHED_CTL_RESULT 0 0 with sched := s.sched ++ [⟨addr, data, tick, s.acceptSeq⟩]
                                                         acceptSeq := s.acceptSeq + 1 })

/-- A write of SCHED_CTL.FLUSH released now discards every entry named for now or later (R620). -/
def State.schedFlush (s : State) : State := { s with sched := s.sched.filter fun e => decide (e.tick < s.now) }

/-- A write of SCHED_CTL: FLUSH, then GO, and the W1C counter. -/
def State.writeSchedCtl (s : State) (w : Word) : WRes :=
  let s := if getBits w 0 16 = 0xFFFF then s.setFld Fields.SCHED_CTL_DROPPED 0 0 else s
  let s := if bitOf w 30 then s.schedFlush else s
  if bitOf w 31 then s.schedGo else (.ok, s)

end Sys2Proof.Machine
end

