-- ==== Sys2Proof/Machine/Wave.lean ====
section
/-! DEFINITION. What an output emits (spec/04 R169, R170, R184 to R189; spec/05 R219 to R221; spec/08 R324, R331 to R334, R343,
R345): the predicted edges of its divider, the last cycle before a change and the first edge after it, and the level at its ball. Instants
are in ticks from tick 0 and stand at the divider unless said otherwise; a cycle reaches the ball its delay later (R332). -/

namespace Sys2Proof.Machine

/-! ## Edges of a prediction -/

/-- The instant at which a core's predicted phase passes `x`, searched from tick `k`: within a glide tick by tick, and on one ratio
outside it. -/
def Core.timeFrom (c : Core) (x : Rat) : (fuel k : Nat) → Rat
  | 0, k => k + (x - c.phase k) / c.ratioAt k
  | fuel + 1, k =>
    if c.gliding k && decide (c.phase (k + 1) ≤ x) then c.timeFrom x fuel (k + 1) else k + (x - c.phase k) / c.ratioAt k

/-- The core of a wave, as far as its phase goes. -/
def Wave.motion (w : Wave) : Core := { Core.reset w.core with theta := w.theta, applied := w.applied, glide := w.glide }

/-- The instant of a phase, from 80 ticks before tick `k`: the longest output cycle is shorter than that. -/
def Wave.timeOf (w : Wave) (k : Nat) (x : Rat) : Rat :=
  w.motion.timeFrom x (match w.glide with | some g => g.ks + g.gtime - (k - 80) | none => 0) (k - 80)

/-- The phase of the wave's core at an instant. -/
def Wave.phase (w : Wave) (t : Rat) : Rat := w.motion.phaseAtTime t

/-- Core cycles from one rising edge of a clock output to the next: D/M. -/
def Wave.cycles (w : Wave) : Rat := mkRat w.d w.m

/-- Core cycles from the rising edge of a clock output to its falling edge (R324): D/2 for an even D; for an odd D (D − 1)/2 and on to
the core's falling edge; with the doubler as the doubler has it. -/
def Wave.high (w : Wave) (o : Nat) : Rat :=
  if w.m = 2 then Config.doublerFall o / 2
  else if w.d % 2 = 0 then mkRat w.d 2
  else ((w.d - 1) / 2 : Nat) + Config.coreFall w.core

/-- The delay term τ_o of a wave in ticks for an edge at the divider (R156). DEDUCED (log entry 86): during a glide the half cycles of
the coarse delay are those of the ratio in force in the tick of that edge. -/
def Wave.tau (w : Wave) (t : Rat) : Rat :=
  (tau0 + mkRat w.fine 4) / 2000 + (w.half : Rat) / (2 * w.motion.ratioAt t.floor.toNat)

/-- A cycle of a wave from the phase of its rising edge, with its lengths in core cycles. -/
def Wave.cycleAt (w : Wave) (k : Nat) (x high cycles : Rat) : Cycle :=
  let rise := w.timeOf k x
  ⟨rise, w.timeOf k (x + high), w.timeOf k (x + cycles), w.tau rise⟩

/-- Cycle `i` of a clock output, counted from Ψ. -/
def Wave.clock (w : Wave) (o k : Nat) (i : Int) : Cycle := w.cycleAt k (w.psi + i * w.cycles) (w.high o) w.cycles

/-- The pulse of a SYSREF output at a grid point (R342). -/
def Wave.pulse (w : Wave) (k : Nat) (j : Int) : Cycle := w.cycleAt k j w.width w.width

/-- Output cycles from Ψ to a phase of the core (R155). -/
def Wave.index (w : Wave) (phi : Rat) : Rat := (phi - w.psi) / w.cycles

/-- The last pulse of an output at or before core edge `e`, of its burst or of its periodic pulses. -/
def Output.lastPulse (x : Output) (period : Nat) (e : Int) : Option Int :=
  let b := match x.burst with
    | some b =>
      let n := risen b.first period b.count e
      if n = 0 then none else some (b.first + (n - 1 : Nat) * period)
    | none => none
  let p := match x.periodic with
    | some j => if e < j then none else some (j + (e - j) / period * period)
    | none => none
  match b, p with
  | some i, some j => some (max i j)
  | some i, none => some i
  | none, p => p

/-- The last cycle of a wave whose rising edge leaves the divider before the rising edge of tick `k` (R332), or the last of what the
output followed before, where the wave has emitted none yet. -/
def Output.cut (x : Output) (w : Wave) (o k : Nat) : Option Cycle :=
  let c := if w.smode = 0 then some (w.clock o k (ratCeil (w.index (w.phase k)) - 1)) else (x.lastPulse w.period (ratCeil (w.phase k) - 1)).map (w.pulse k)
  match c with
  | some c => if x.opens ≤ c.rise then some c else x.tail
  | none => x.tail

/-- The cycle in which a wave stands at its ball at the rising edge of tick `k` (R331), or the last one before it. -/
def Output.atBall (x : Output) (w : Wave) (o k : Nat) : Option Cycle :=
  let phi := w.phase (k - w.tau k)
  let c := if w.smode = 0 then some (w.clock o k (w.index phi).floor) else (x.lastPulse w.period phi.floor).map (w.pulse k)
  match c with
  | some c => if x.opens ≤ c.rise then some c else x.tail
  | none => x.tail

/-- The instant at which a cycle before a change ends. -/
def endOf (t : Option Cycle) (k : Rat) : Rat :=
  match t with
  | some c => max k c.end_
  | none => k

/-- The first rising edge of a clock wave at or after an instant. -/
def Wave.firstRise (w : Wave) (k : Nat) (t : Rat) : Rat := w.timeOf k (w.psi + ratCeil (w.index (w.phase t)) * w.cycles)

/-- The first core edge at or after an instant at which an ungating output begins (R189): (j − Ψ) mod D = 0. -/
def Wave.firstUngated (w : Wave) (k : Nat) (t : Rat) : Rat := w.timeOf k (firstGrid (w.phase t) w.psi w.d)

/-- The count loaded into the divider for the first core edge it counts, the first at or after an instant (R169). -/
def Wave.loadAt (w : Wave) (t : Rat) : Nat := ((ratCeil (w.phase t) - w.psi) % (w.d : Int)).toNat

/-! ## Changes of what an output follows -/

/-- The wave of an output now: none while it is gated. -/
def State.waveOf (s : State) (o : Nat) : Option Wave :=
  if s.gated o then none
  else
    (s.srcOf o).map fun c =>
      let k := s.core c
      { core := c, theta := k.theta, applied := k.applied, glide := k.glide, psi := (s.out o).psi, d := s.divOf o, m := s.mulOf o
        half := s.fld Fields.OUT_DELAY_COARSE o, fine := min (s.fld Fields.OUT_DELAY_FINE o) 800, smode := s.smode o
        period := if s.smode o = 0 then 0 else s.gridPeriod o, width := if s.smode o = 0 then 0 else s.pulseWidth o
        amp := (s.out o).amp }

/-- The output moved at the present tick in a swap of its station (R219, R220). -/
def State.swapped (s : State) (o : Nat) (w w' : Wave) : Bool :=
  w.core != w'.core && match s.outOwner o with
    | some n => (s.stn n).lastSwap == some s.now && s.slot n (s.stn n).liveSlot == some w'.core
    | none => false

/-- The output follows the same edges, whatever its core's setting does: a glide begins or ends (R160). -/
def Wave.sameEdges (w w' : Wave) : Bool :=
  w.core == w'.core && w.psi == w'.psi && w.d == w'.d && w.m == w'.m && w.half == w'.half && w.fine == w'.fine
    && w.smode == w'.smode && w.period == w'.period && w.width == w'.width

/-- Nothing but the delays differs. -/
def Wave.delayOnly (w w' : Wave) : Bool := w.sameEdges { w' with half := w.half, fine := w.fine }

/-- How an output passes from one wave to another at tick `k`: its last old cycle, and the instant from which the new edges are
taken. At a swap the old output emits no edge from its switch point b on and the new one takes over there (R219); a restart keeps
the old cycles that end by the first new edge (R170); a change of delay ends with the cycle in progress at the ball (R331); where
SYSREF pulses or a change of SMODE are concerned, the pulse or cycle in progress completes (R187, R343). -/
def Output.pass (x : Output) (o k : Nat) (w w' : Wave) (swap : Bool) : Option Cycle × Rat :=
  if w.delayOnly w' then
    let c := x.atBall w o k
    (c, match c with
      | some c => c.end_ + c.tau - w'.tau k
      | none => k)
  else if w.smode ≠ 0 ∨ w'.smode ≠ 0 then
    let c := x.cut w o k
    (c, endOf c k)
  else if swap then (x.cut w o k, max x.opens (w.firstRise k k))
  else
    let first := w'.firstRise k k
    let c := w.clock o k ((w.index (w.phase first)).floor - 1)
    let c := if x.opens ≤ c.rise then some c else x.tail
    (c, endOf c k)

/-- The instant from which the swing of a new code acts (R345): the first low phase at or after tick `k` at the ball, at a swap the switch
point. -/
def Output.swingFrom (x : Output) (w : Wave) (o k : Nat) (swap : Bool) : Rat :=
  if swap then w.firstRise k k + w.tau k
  else match x.atBall w o k with
    | some c => max k (c.fall + c.tau)
    | none => k

/-- SYSREF pulses on a new grid from an instant (R187): the pulses that rose before count as emitted, the rest fall from the first
point of the new grid; a burst asked for in this very tick stands on the new grid already. Periodic pulses go on likewise, after the
burst. -/
def Output.regrid (x : Output) (w' : Wave) (from_ : Rat) (n k elapsed : Nat) : Output :=
  let first := firstGrid (w'.phase from_) w'.psi w'.period
  let b := x.burst.map fun b => ⟨first, b.count - n, elapsed⟩
  let b := match b with
    | some b => if b.count = 0 && decide (from_ ≤ k) then none else some b
    | none => none
  let after := match b with
    | some b => if b.count = 0 then first else firstGrid (b.endAt w'.period w'.width) w'.psi w'.period
    | none => first
  { x with burst := b, periodic := x.periodic.map fun _ => after }

/-- At the end of tick `k` an output that is now gated emits no cycle whose rising edge leaves the divider at or after the tick's rising edge
(R332), and its burst is over (R186). -/
def Output.close (x : Output) (w : Wave) (o k elapsed : Nat) : Output :=
  { x with wave := none, tail := x.cut w o k, burst := none, movedAt := some elapsed, ampWas := w.amp, ampAt := k }

/-- At the end of tick `k` an output ungates (R189): at the first core edge on its grid, the divider loaded for it (R169); a periodic
SYSREF output resumes at its first grid point (R186). -/
def Output.open_ (x : Output) (w : Wave) (k elapsed : Nat) : Output :=
  let t := endOf x.tail k
  { x with wave := some w, opens := if w.smode = 0 then w.firstUngated k t else t, load := w.loadAt t, movedAt := some elapsed
           periodic := x.periodic.map fun _ => firstGrid (w.phase t) w.psi w.period, ampWas := w.amp, ampAt := k }

/-- At the end of tick `k` an output that runs follows another wave. -/
def Output.move (x : Output) (w w' : Wave) (o k elapsed : Nat) (swap : Bool) : Output :=
  let x := if w.amp = w'.amp then x else { x with ampWas := w.amp, ampAt := x.swingFrom w o k swap }
  if w.sameEdges w' then { x with wave := some w' }
  else
    let (c, t) := x.pass o k w w' swap
    let n := match x.burst with
      | some b => if b.at_ = elapsed then 0 else risen b.first w.period b.count (ratCeil (w.phase k) - 1)
      | none => 0
    let y := { x with wave := some w', tail := c, load := w'.loadAt (if swap then t else k), movedAt := some elapsed
                      opens := if w'.smode = 0 then (if w.smode = 0 then w'.firstRise k t else w'.firstUngated k t) else t }
    if w'.smode ≠ 0 && !w.delayOnly w' then y.regrid w' t n k elapsed else y

/-- At the end of the present tick an output takes what it follows from the next on (Table 1.3: the gatings of step 4 end in force), and
a burst whose last pulse has ended is over. -/
def State.settleOut (s : State) (o : Nat) : State :=
  let x := s.out o
  let s := match x.wave, s.waveOf o with
    | none, none => s
    | some w, none => s.modOut o fun x => x.close w o s.now s.elapsed
    | none, some w => s.modOut o fun x => x.open_ w s.now s.elapsed
    | some w, some w' => if w = w' then s else s.modOut o fun x => x.move w w' o s.now s.elapsed (s.swapped o w w')
  if (s.out o).burst.isSome && !s.burstRunning o s.now then s.modOut o fun x => { x with burst := none } else s

/-! ## The ball -/

/-- The level at a pair of balls. -/
inductive BallLevel where
  | high | low | common | off
  deriving DecidableEq, Repr

/-- The driver of an output is off, both balls at high impedance (R335, R336, R347). -/
def State.driverOff (s : State) (o : Nat) : Bool :=
  let x := s.out o
  !s.flag Fields.OUT_CFG_EN o || !x.domainOn || x.fenced || x.shorted

/-- The level of a wave's divider at an instant, from the first edge on. -/
def Output.levelOf (x : Output) (w : Wave) (o : Nat) (u : Rat) : Bool :=
  decide (x.opens ≤ u) &&
    if w.smode = 0 then decide ((w.index (w.phase u) - (w.index (w.phase u)).floor) * w.cycles < w.high o)
    else match x.lastPulse w.period (w.phase u).floor with
      | some j => decide (w.phase u < ((j + w.width : Int) : Rat))
      | none => false

/-- The level at the ball at an instant at or after the end of the last tick (R324, R332, R334): the last cycle before a change completes;
a gated output then holds the level of GLVL. -/
def State.ball (s : State) (o : Nat) (t : Rat) : BallLevel :=
  let x := s.out o
  let idle : BallLevel := if s.flag Fields.OUT_DRV_GLVL o then .common else .low
  if s.driverOff o then .off
  else
    match x.tail.filter fun c => decide (t < c.end_ + c.tau) with
    | some c => if decide (c.rise + c.tau ≤ t) && decide (t < c.fall + c.tau) then .high else .low
    | none =>
      match x.wave with
      | none => idle
      | some w => if x.levelOf w o (t - w.tau t) then .high else .low

/-- The swing code in force at the ball at an instant (R345). -/
def State.swingAt (s : State) (o : Nat) (t : Rat) : Nat := if t < (s.out o).ampAt then (s.out o).ampWas else (s.out o).amp

/-! ## Periods and the guard (R325, R337 to R340) -/

/-- The guard judges an edge that reaches it `since` femtoseconds after the last it emitted (R337): whether it is emitted, and the time
to the next edge's reckoning. Where `clear` holds none is swallowed (R339). -/
def guardEdge (min : Nat) (clear : Bool) (since : Nat) : Bool × Nat :=
  if clear || decide (min ≤ since) then (true, 0) else (false, since)

/-- `n` edges at one distance from each other: how many are emitted and swallowed, and the time since the last emitted. -/
def guardEdges (min gap : Nat) (clear : Bool) : (n emitted swallowed since : Nat) → Nat × Nat × Nat
  | 0, e, w, since => (e, w, since)
  | n + 1, e, w, since =>
    match guardEdge min clear (since + gap) with
    | (true, since) => guardEdges min gap clear n (e + 1) w since
    | (false, since) => guardEdges min gap clear n e (w + 1) since

/-- The edges of a window through the guard of an output. `clear` are the conditions of R339; the first edges after a change are judged all
the same (R337). -/
def guardRuns (min : Nat) (clear : Bool) (runs : List EdgeRun) (since : Nat) : Nat × Nat × Nat :=
  runs.foldl (fun (e, w, since) r => guardEdges min r.gap (clear && !r.moved) r.count e w since) (0, 0, since)

/-- The core is LOCKED and the predicted period exceeds the effective minimum by 1 ps or more (R339). -/
def State.guardClear (s : State) (o : Nat) : Bool :=
  match s.srcOf o with
  | some c =>
    (s.core c).state == .locked
      && decide ((s.minPeriod o : Rat) + 2 ≤ 4000 * s.divOf o / (s.mulOf o * (s.core c).ratioAt s.now))
  | none => false

end Sys2Proof.Machine
end

