-- ==== Sys2Proof/Machine/Outputs.lean ====
section
/-! DEFINITION. Outputs and read-back (spec/08): crossbar, divider sets, SYSREF operations, drivers, shorts and the
read-back monitor. -/

namespace Sys2Proof.Machine

/-! ## Crossbar, divider sets, enables (R323, R328, R330, R335) -/

/-- A host write of OUT_CFG.SRC names 31, an Unassigned core no channel binds, or a live or split core of a station
whose STN_OUTMASK names the output (R328). -/
def State.srcAllowed (s : State) (o v : Nat) : Bool :=
  v == 31 || (decide (v < 26) &&
    (match (s.core v).role with
     | .unassigned => (s.rasOfCore v).isNone
     | .live | .split => bitOf (s.reg .STN_OUTMASK (s.core v).station) o
     | _ => false))

/-- The output follows another core from now on (Table 4.2): its divider reference is recomputed. -/
def State.moveOut (s : State) (o v : Nat) : State :=
  (s.setFld Fields.OUT_CFG_SRC o v).recomputePsi o

/-- Another divider set comes into force: a change of D or M (R330, Table 4.2). -/
def State.selectDset (s : State) (o d : Nat) : State :=
  if s.dsel o = d then s else (s.setFld Fields.OUT_CFG_DSEL o d).restartOut o s.now

/-- An output's domain is switched on or off (R335): reason OFF ends the tick after it is ready, which takes 2,000 ticks at most; in
STANDBY an enable is only stored (R489). -/
def State.outEnable (s : State) (o : Nat) (en : Bool) : State :=
  if en then (if s.active && !(s.out o).fenced then s.modOut o fun x => { x with readyAt := some (s.elapsed + 2001) } else s)
  else (s.modOut o fun x => { x with domainOn := false, readyAt := none, rbMiss := 0, rbPhaseRun := 0 }).setReg
    .OUT_RBPHASE o 0x80000000#32

/-- A host write of OUT_CFG (R328, R330, R335): EN, HGATE, DSEL and SRC each act where they change. -/
def State.writeOutCfg (s : State) (o : Nat) (w : Word) : WRes :=
  let src := getBits w 16 5
  if src != s.fld Fields.OUT_CFG_SRC o && !s.srcAllowed o src then (.range, s)
  else
    let en := bitOf w 31
    let s := if en != s.flag Fields.OUT_CFG_EN o then (s.setFld Fields.OUT_CFG_EN o en.toNat).outEnable o en else s
    let s := s.setFld Fields.OUT_CFG_HGATE o (bitOf w 30).toNat
    let s := if src != s.fld Fields.OUT_CFG_SRC o then (s.moveOut o src).modOut o fun x => { x with rasterHold := false } else s
    (.ok, s.selectDset o (getBits w 24 2))

/-- A divider set value is in range (R323): D from 1 to 1,024, DBL only on OUT0 to OUT7 and only with D = 1. -/
def dsetOk (o d : Nat) (dbl : Bool) : Bool :=
  decide (1 ≤ d) && decide (d ≤ 1024) && !(dbl && (decide (8 ≤ o) || d != 1))

/-- A host write of OUT_DSET01 or OUT_DSET23 (R323, R330): a change of the contents of the set in force restarts. -/
def State.writeDset (s : State) (o : Nat) (r : RegName) (w : Word) : WRes :=
  if dsetOk o (getBits w 0 11) (bitOf w 11) && dsetOk o (getBits w 16 11) (bitOf w 27) then
    let d := s.divOf o
    let m := s.dsetDbl o (s.dsel o)
    let s := s.setReg r o (w &&& 0x0FFF0FFF#32)
    (.ok, if d != s.divOf o || m != s.dsetDbl o (s.dsel o) then s.restartOut o s.now else s)
  else (.range, s)

/-- A host write of OUT_DRV (R325, R345). -/
def State.writeDrv (s : State) (o : Nat) (w : Word) : WRes :=
  if 240 < getBits w 0 8 ∨ (bitOf w 8 ∧ o < 8) then (.range, s)
  else (.ok, (s.setReg .OUT_DRV o (w &&& 0xFFFF03FF#32)).modOut o fun x => { x with amp := getBits w 0 8 })

/-! ## SYSREF (R184 to R187, R344, Table 8.4) -/

/-- A request is dropped and counted (R185, R186). -/
def State.sysDrop (s : State) (o : Nat) : State :=
  (s.bump Fields.OUT_EVCNT_SYSDROP o 1).raiseEvent (Src.out_SYSREF_DROP o) 0

/-- SYSREF is disabled at tick `k` (Tables 4.6 and 8.4): a pulse that is high completes and none rises at or after the tick. -/
def Output.sysStop (x : Output) (o k elapsed : Nat) : Output :=
  match x.wave with
  | none => { x with burst := none, periodic := none }
  | some w =>
    let n := match x.burst with
      | some b => if b.at_ = elapsed then 0 else risen b.first w.period b.count (ratCeil (w.phase k) - 1)
      | none => 0
    { x with tail := if x.periodic.isSome then x.cut w o k else x.tail, periodic := none
             burst := if n = 0 then none else x.burst.map fun b => { b with count := n } }

/-- A SYSREF operation released now: 0 request, 1 enable periodic, 2 disable (R344, Table 8.4). -/
def State.sysOp (s : State) (o op : Nat) : State :=
  let x := s.out o
  let running := s.burstRunning o s.now
  if s.smode o = 0 then s
  else
    match op with
    | 0 =>
      if s.gated o || running || x.periodic.isSome then s.sysDrop o
      else
        let n := if s.smode o = 1 then s.fld1 Fields.OUT_SYSREF_COUNT o else 1
        s.modOut o fun x => { x with burst := some ⟨s.gridFrom o s.now, n, s.elapsed⟩ }
    | 1 => if x.periodic.isSome then s else s.modOut o fun x => { x with periodic := some (s.periodicFrom o s.now) }
    | _ => s.modOut o fun x => x.sysStop o s.now s.elapsed

/-- An output leaves SYSREF mode at tick `k` (R343): a pulse that is high completes. -/
def Output.sysEnd (x : Output) (o k : Nat) : Output :=
  { x with burst := none, periodic := none
           tail := match x.wave with
             | some w => if w.smode = 0 then x.tail else x.cut w o k
             | none => x.tail }

/-- A host write of OUT_SYSREF: SMODE and COUNT (R343), then REQ, PER and DIS. A burst does not outlast a change to
clock mode. DESIGN CHOICE (log entry 110): several operations in one write act in the order REQ, PER, DIS. -/
def State.writeSysref (s : State) (o : Nat) (w : Word) : WRes :=
  let s := s.setReg .OUT_SYSREF o (w &&& 0x000300FF#32)
  let s := if s.smode o = 0 then s.modOut o fun x => x.sysEnd o s.now else s
  let s := if bitOf w 31 then s.sysOp o 0 else s
  let s := if bitOf w 30 then s.sysOp o 1 else s
  (.ok, if bitOf w 29 then s.sysOp o 2 else s)

/-! ## Shorts and read-back (R347 to R350) -/

/-- A ball's current limit has acted for 500 ticks (R347): SHORT is stamped, the driver goes off. -/
def State.outShort (s : State) (o : Nat) : State :=
  let s := s.beginLevel (Src.out_SHORT o) 0
  { s with later := s.later ++ [.short o] }

/-- A write of OUT_STAT.CLRSHORT (R347): the driver is on again. The gating of a short released at this tick comes after it (step 4 of
Table 1.3). -/
def State.clrShort (s : State) (o : Nat) : State :=
  if !(s.out o).shorted || (s.out o).shortAt == some s.elapsed then s
  else (s.endLevel (Src.out_SHORT o)).modOut o fun x => { x with shorted := false, driveAt := s.elapsed }

/-- The length of a read-back window in ticks (R348): WIN below 8 is taken as 8, above 20 as 20. -/
def State.rbTicks (s : State) (o : Nat) : Nat := 2 ^ max 8 (min 20 (s.fld Fields.OUT_RBCFG_WIN o))

/-- A read-back window of an output ends in the present tick: the count is a multiple of 2^WIN and the monitor runs (R348, R350). -/
def State.rbEnds (s : State) (o : Nat) : Bool :=
  (s.out o).domainOn && s.flag Fields.OUT_CFG_EN o && decide (s.now % s.rbTicks o = 0) && (s.out o).rbAt != some s.elapsed

/-- A read-back window ends (R337, R340, R348, R349): `counted` edges at the pad, `edges` those that reached the guard, which emits or
swallows each, and the phase of the first edge in 0.1 ps. The window is measured when the guard emitted an edge and no change of the
output fell in it. -/
def State.rbWindow (s : State) (o counted : Nat) (edges : List EdgeRun) (phase : Option Int) : State :=
  let (emitted, swallowed, since) := guardRuns (s.minPeriod o * 500) (s.guardClear o) edges (s.out o).sinceEdge
  let moved := match (s.out o).movedAt with | some t => decide (s.elapsed ≤ t + s.rbTicks o) | none => false
  let phase := if emitted == 0 || moved then none else phase
  let s := s.modOut o fun x => { x with sinceEdge := since, rbAt := some s.elapsed }
  let s := s.setReg .OUT_RBCNT o (BitVec.ofNat 32 counted)
  let s := s.bump Fields.OUT_EVCNT_GUARD o swallowed
  let s := if 0 < swallowed ∧ !(s.out o).guardPlan then s.raiseEvent (Src.out_GUARD_HIT o) 0 else s
  let bad := decide (s.fld Fields.OUT_RBCFG_CTOL o < max counted emitted - min counted emitted)
  let run := if bad then (s.out o).rbMiss + 1 else 0
  let s := s.modOut o fun x => { x with rbCountBad := bad, rbMiss := run }
  let s := if bad && run == s.fld1 Fields.OUT_RBCFG_MISS o then s.raiseEvent (Src.out_RB_COUNT o) 0 else s
  match phase with
  | some e =>
    let bad := decide (s.fld1 Fields.OUT_RBCFG_PHWIN o * 10 < e.natAbs)
    let run := if bad then (s.out o).rbPhaseRun + 1 else 0
    let s := (s.setReg .OUT_RBPHASE o (wordOfInt e)).modOut o fun x => { x with rbPhaseBad := bad, rbPhaseRun := run }
    if bad && run == 2 then s.raiseEvent (Src.out_RB_PHASE o) 0 else s
  | none => s

/-! ## Raster channels (R351 to R359) -/

/-- The setting that RAS_STG_* holds (R355). -/
def State.rasStaged (s : State) (r : Nat) : RasChange :=
  ⟨⟨s.fld Fields.RAS_STG_SET_N r, s.fld Fields.RAS_STG_NUM_LO_NUM r + s.fld Fields.RAS_STG_FRAC_HI_NUM_HI r * 2 ^ 32,
    s.fld Fields.RAS_STG_DEN_LO_DEN r + s.fld Fields.RAS_STG_FRAC_HI_DEN_HI r * 2 ^ 32⟩,
   s.fld Fields.RAS_STG_SET_SUB r, s.fld Fields.RAS_STG_SET_BAND r, s.fld Fields.RAS_STG_SET_DSEL r,
   s.flag Fields.RAS_STG_SET_FORCECOLD r, s.fld Fields.RAS_STG_SET_GTIME r, s.reg .RAS_STG_EXPECT r⟩

/-- The outputs a channel binds. -/
def State.rasOuts (s : State) (r : Nat) : List Nat := bitsOf (s.reg .RAS_OUTMASK r) 32

/-- A write of RAS_CFG (R351, R352). -/
def State.writeRasCfg (s : State) (r : Nat) (w : Word) : WRes :=
  let x := s.rasCh r
  let w := w &&& 0xFFFFFF00#32
  if x.bound then
    if bitOf w 31 then (.busy, s)
    else if x.applying then (.busy, s)
    else (.ok, (s.setReg .RAS_CFG r w).setRas r { x with bound := false, pending := none, applyAt := none, held := false })
  else if !bitOf w 31 then (.ok, s.setReg .RAS_CFG r w)
  else
    let c := getBits w 24 5
    let o := s.reg .RAS_OUTMASK r
    if 26 ≤ c ∨ (s.core c).role ≠ .unassigned ∨ (s.rasOfCore c).isSome ∨ (s.mapOwner c).isSome
        ∨ (o &&& s.reg .RAS_OUTMASK (1 - r)) ≠ 0 ∨ (bitsOf o 32).any (fun k => (s.outOwner k).isSome) then (.range, s)
    else
      let s := (s.setReg .RAS_CFG r w).setRas r
        ⟨true, none, none, false, false, (x.lastKind), none, false, s.elapsed, false, false, false⟩
      let s := (s.setFld Fields.CORE_CFG_EN c 1).coreEnable c true
      (.ok, s.each (bitsOf o 32) fun s k => (s.moveOut k c).modOut k fun y => { y with rasterHold := true })

/-- A write of RAS_CTL (R355): STAGE, CANCEL and the sticky TEMISSING. -/
def State.writeRasCtl (s : State) (r : Nat) (w : Word) : WRes :=
  let x := s.rasCh r
  let g := s.rasStaged r
  if bitOf w 31 && x.applying then (.busy, s)
  else if bitOf w 31 && (!g.setting.valid || decide (g.gtime < 200)) then (.range, s)
  else
    let s := if bitOf w 7 && !bitOf (s.stuckNow .RAS_CTL r) 7 then s.setFld Fields.RAS_CTL_TEMISSING r 0 else s
    let s := if bitOf w 30 && !x.applying then s.modRas r fun x => { x with pending := none, applyAt := none, held := false } else s
    (.ok, if bitOf w 31 then
        s.modRas r fun x => { x with pending := some g, applyAt := none, held := false, since := s.elapsed, timedOut := false }
      else s)

/-- R229 for a core at a tick: the ratio moves by at most 0.4 % and the new frequency lies in the sub-core in use. -/
def Core.glideOk (k : Core) (x : Setting) (tick : Nat) : Bool :=
  let r0 := k.ratioAt tick
  let d := if r0 ≤ x.ratio then x.ratio - r0 else r0 - x.ratio
  decide (d * 1000 ≤ 4 * r0) && decide ((subLo k.sub : Rat) ≤ x.hz) && decide (x.hz ≤ (subHi k.sub : Rat))
def State.glideOk (s : State) (c : Nat) (x : Setting) : Bool := (s.core c).glideOk x s.now

/-- A glide starts on a core at the present tick (R228, R232); a race for the core ends (R134). -/
def State.startGlide (s : State) (c : Nat) (x : Setting) (gtime : Nat) : State :=
  (s.endRace c).modCore c fun k =>
    { k with glide := some ⟨s.now, gtime, k.ratioAt s.now, x, k.phase s.now⟩ }

/-- A glide starts on a core; one that is not LOCKED restarts its acquisition on the target when the glide ends (Table 5.7). -/
def State.glideOn (s : State) (c : Nat) (x : Setting) (gtime : Nat) : State :=
  let locked := (s.core c).state == .locked
  let s := s.startGlide c x gtime
  if locked then s else s.modCore c fun k => { k with glideRelock := true, countFrom := none, fastUntil := none }

/-- A core on the target of a glide at its end: accumulator 1 holds the seed offset of the new θ_eff, the rest the commanded time
offset (R160, R165). -/
def Core.glideDone (k : Core) (g : Glide) : Core :=
  let k := { k with glide := none, applied := g.dst, theta := glideTheta g, glideRelock := false }
  { k with modl := { k.modl with a1 := (k.seeded (g.ks + g.gtime)).a1 } }

/-- A glide ends on the target setting, on the core and on a spare that races for it (R149, R160); the divider references of its outputs are kept (R168). A core that was not
LOCKED when the glide was released restarts its acquisition warm on the target (Table 5.7). -/
def State.endGlide (s : State) (c : Nat) : State :=
  match (s.core c).glide with
  | some g =>
    let relock := (s.core c).glideRelock
    let s := s.modCore c (·.glideDone g)
    let s := match s.racer c with
      | some k => s.modCore k (·.glideDone g)
      | none => s
    let s := s.coreBoundary c
    let s := if relock then s.startAcq c false (s.bandMode c) s.elapsed else s
    match s.rasOfCore c with
    | some r => s.modRas r fun x => if x.applying && x.lastKind == 1 then { x with applying := false, pending := none } else x
    | none => s
  | none => s

/-- The output whose read-back monitor counts the frames of a channel is gated now (R359). -/
def State.rasGated (s : State) (r : Nat) : Bool :=
  match (s.rasOuts r).head? with
  | some o => s.gated o
  | none => false

/-- At the end of a tick: a gating of the monitored output spoils the present interval (R359). -/
def State.rasWatch (s : State) (r : Nat) : State :=
  if (s.rasCh r).bound && s.rasGated r then s.modRas r fun x => { x with tainted := true } else s

/-- A TE edge is accepted (R354, R357, R359). `edges` is the read-back count since the last one, `gatedIn` whether the monitor saw that
output gated in the interval. -/
def State.teEdge (s : State) (r width edges : Nat) (gatedIn : Bool) : State :=
  let x := s.rasCh r
  if !x.bound || decide (width < s.fld1 Fields.RAS_CFG_TEMINW r) then s
  else
    let s := match x.lastTe with
      | some t =>
        let s := (s.setReg .RAS_TEIVL r (BitVec.ofNat 32 (min (s.elapsed - t) 0xFFFFFFFF))).setReg .RAS_FCOUNT r (BitVec.ofNat 32 edges)
        let e := (s.reg .RAS_EXPECT r).toNat
        if e ≠ 0 ∧ !x.tainted ∧ !gatedIn ∧ !s.rasGated r ∧ s.fld Fields.RAS_CFG_TOL r < max edges e - min edges e then
          (s.raiseEvent (Src.ras_FRAME_ERR r) 0).bump Fields.RAS_CNT_FRAMEERR r 1
        else s
      | none => s
    s.modRas r fun y =>
      { y with lastTe := some s.elapsed, prevTe := y.lastTe.isSome || y.prevTe, lost := false, timedOut := false, tainted := false, held := false
               applyAt := if y.pending.isSome && !y.applying && y.applyAt.isNone then some (s.elapsed + 2) else y.applyAt }

/-- The pending change of a channel is applied at tick a (R356, Table 8.5). While the channel's core is fenced it waits for the
spare that takes the core's place (DESIGN CHOICE, log entry 97). -/
def State.rasApply (s : State) (r : Nat) : State :=
  match (s.rasCh r).pending with
  | none => s
  | some g =>
    let c := s.fld Fields.RAS_CFG_CORE r
    if (s.core c).role == .fenced then s
    else
    let outs := s.rasOuts r
    let s := if g.expect = 0xFFFFFFFF#32 then s else s.setReg .RAS_EXPECT r g.expect
    let s := s.each outs fun s o => s.modOut o fun x => { x with rasterHold := false }
    let s := s.modRas r fun x => { x with applyAt := none, held := false, tainted := true }
    if g.setting.sameFreq (s.core c).applied then
      (s.each outs fun s o => (s.setFld Fields.OUT_CFG_DSEL o g.dsel).restartOut o s.now).modRas r fun x =>
        { x with pending := none, lastKind := 3 }
    else if !g.forceCold && (s.core c).state != .off && (s.core c).state != .idle && s.glideOk c g.setting then
      let s := s.glideOn c g.setting g.gtime
      (s.each outs fun s o => s.selectDset o g.dsel).modRas r fun x => { x with applying := true, lastKind := 1 }
    else
      let s := s.each outs fun s o => s.modOut o fun x => { x with rasterGate := true }
      let s := s.stage c g.setting g.sub g.band
      let s := s.loadCore c g.setting g.sub g.band 0 (if s.hasBandTable c then .table else .search)
      (s.each outs fun s o => (s.setFld Fields.OUT_CFG_DSEL o g.dsel).restartOut o s.now).modRas r fun x =>
        { x with applying := true, lastKind := 2 }

/-- A raster cold change ends when its core's ungate hold ends: reason RASTER ends and the change is no longer pending. -/
def State.rasColdEnd (s : State) (c : Nat) : State :=
  match s.rasOfCore c with
  | some r =>
    if (s.rasCh r).applying && (s.rasCh r).lastKind == 2 then
      (s.each (s.rasOuts r) fun s o => s.modOut o fun x => { x with rasterGate := false }).modRas r fun x =>
        { x with applying := false, pending := none }
    else s
  | none => s

/-- The timeout of a channel in ticks: TOMULT × F (R358). -/
def State.teTimeout (s : State) (r : Nat) : Nat :=
  s.fld1 Fields.RAS_CFG_TOMULT r * (if (s.rasCh r).prevTe then (s.reg .RAS_TEIVL r).toNat else 2 ^ 24)

/-- A TE timeout is due. -/
def State.teTimeoutDue (s : State) (r : Nat) : Bool :=
  let x := s.rasCh r
  x.bound && !x.timedOut && decide (max x.since (x.lastTe.getD 0) + s.teTimeout r ≤ s.elapsed)

/-- No TE edge for TOMULT frame times (R358): TEMISSING and the count, TE_LOST once for each absence; a pending change is forced or held. -/
def State.teLost (s : State) (r : Nat) : State :=
  let x := s.rasCh r
  let s := if x.lost then s else s.raiseEvent (Src.ras_TE_LOST r) 0
  let s := ((s.stick Fields.RAS_CTL_TEMISSING r).bump Fields.RAS_CNT_TIMEOUT r 1).modRas r
    fun y => { y with lost := true, timedOut := true, tainted := true }
  if x.pending.isSome && !x.applying && x.applyAt.isNone then
    if s.flag Fields.RAS_CFG_POLICY r then
      (s.raiseEvent (Src.ras_RAS_FORCED r) 0).modRas r fun y => { y with applyAt := some (s.elapsed + 2) }
    else s.modRas r fun y => { y with held := true }
  else s

end Sys2Proof.Machine
end

