-- ==== Sys2Proof/Machine/Flags.lean ====
section
/-! DEFINITION. The predicate computations of Quilvo (spec/06, Tables 6.5 to 6.7): condition codes, predicate logic and
guards. -/

namespace Sys2Proof.Machine

/-- The condition codes of CMP and CMPI: 0 EQ, 1 NE, 2 LT and 3 GE signed, 4 LTU and 5 GEU unsigned. -/
def Cond.holds (cc : Cond) (a b : Word) : Bool :=
  match cc with
  | .eq => a == b
  | .ne => a != b
  | .lt => a.slt b
  | .ge => !a.slt b
  | .ltu => a.ult b
  | .geu => !a.ult b

/-- The condition codes of TCMP, unsigned on 64 bits (R246). -/
def TCond.holds (cc : TCond) (a b : Count) : Bool :=
  match cc with
  | .eq => a == b
  | .ne => a != b
  | .ltu => a.ult b
  | .geu => !a.ult b

/-- FN of PLOG: 0 and, 1 or, 2 xor (Table 6.6). -/
def LogFn.eval (fn : LogFn) (a b : Bool) : Bool :=
  match fn with
  | .and => a && b
  | .or => a || b
  | .xor => a ^^ b

/-- An instruction executes when p_P exclusive-ORed with N is 1 (R256). -/
def Guard.passes (g : Guard) (p : Bool) : Bool := p ^^ g.neg

end Sys2Proof.Machine
end

