-- ==== Sys2Proof/Machine/Operands.lean ====
section
/-! DEFINITION. Operands of Quilvo instructions (spec/06, spec/07): tracked register reads and writes, what each
operation computes, what makes it wait, the exceptions it raises and the effect it names. -/

namespace Sys2Proof.Machine

/-! ## Decision ticks (R247) -/

/-- The later of two decision ticks. -/
def latest : Option Nat → Option Nat → Option Nat
  | none, b => b
  | a, none => a
  | some a, some b => some (max a b)

/-- A value with a decision tick and nothing pending. -/
def Tracked.known {α : Type} (v : α) (d : Option Nat) : Tracked α := ⟨v, d, none⟩

/-! ## Registers (Table 6.1) -/

/-- g0 reads 0. -/
def QRegs.gv (r : QRegs) (i : BitVec 4) : Tracked Word := if i = 0 then .known 0 none else r.g[i.toNat]?.getD default
/-- A t register. -/
def QRegs.tv (r : QRegs) (i : BitVec 2) : Tracked Count := r.t[i.toNat]?.getD default
/-- p0 reads 1. -/
def QRegs.pv (r : QRegs) (i : BitVec 2) : Tracked Bool := if i = 0 then .known true none else r.p[i.toNat]?.getD default
/-- A loop counter. -/
def QRegs.lcv (r : QRegs) (i : BitVec 1) : Tracked (BitVec 16) := r.lc[i.toNat]?.getD default

/-- Writes to g0 are discarded. -/
def QRegs.setG (r : QRegs) (i : BitVec 4) (v : Tracked Word) : QRegs :=
  if i = 0 then r else { r with g := r.g.setIfInBounds i.toNat v }
def QRegs.setT (r : QRegs) (i : BitVec 2) (v : Tracked Count) : QRegs := { r with t := r.t.setIfInBounds i.toNat v }
/-- Writes to p0 are discarded. -/
def QRegs.setP (r : QRegs) (i : BitVec 2) (v : Tracked Bool) : QRegs :=
  if i = 0 then r else { r with p := r.p.setIfInBounds i.toNat v }
def QRegs.setLc (r : QRegs) (i : BitVec 1) (v : Tracked (BitVec 16)) : QRegs :=
  { r with lc := r.lc.setIfInBounds i.toNat v }

/-- The registers at the acceptance of START or at a handoff (R245, R316): every t register holds the start tick. -/
def QRegs.initial (ts : Nat) (pc : BitVec 14) : QRegs :=
  { g := Vector.replicate 16 (.known 0 none), t := Vector.replicate 4 (.known (BitVec.ofNat 64 ts) none)
    p := #v[.known true none, .known false none, .known false none, .known false none]
    lc := Vector.replicate 2 (.known 0 none), lk := .known 0 none, pc := pc, path := none }

/-! ## What each operation computes (Tables 6.5 to 6.9) -/

/-- g[rd] := f(g[ra], g[rb]), with the decision tick of R247. -/
def QRegs.alu (r : QRegs) (d : Option Nat) (rd ra rb : BitVec 4) (f : Word → Word → Word) : QRegs :=
  let a := r.gv ra
  let b := r.gv rb
  r.setG rd (.known (f a.val b.val) (latest d (latest a.dec b.dec)))

/-- g[rd] := f(g[ra]) for an immediate form. -/
def QRegs.alui (r : QRegs) (d : Option Nat) (rd ra : BitVec 4) (f : Word → Word) : QRegs :=
  let a := r.gv ra
  r.setG rd (.known (f a.val) (latest d a.dec))

/-- LDI (Table 6.5): H = 0 loads the zero-extended immediate, H = 1 replaces the upper half. -/
def QRegs.ldi (r : QRegs) (d : Option Nat) (rd : BitVec 4) (hi : Bool) (imm : BitVec 16) : QRegs :=
  if hi then
    let a := r.gv rd
    r.setG rd (.known (imm ++ a.val.extractLsb' 0 16) (latest d a.dec))
  else r.setG rd (.known (imm.setWidth 32) d)

/-- t[td] := t[ts] + n; a pending base stays pending and the constant joins its offset (R282). -/
def QRegs.tadd (r : QRegs) (d : Option Nat) (td ts : BitVec 2) (n : Count) (nd : Option Nat) : QRegs :=
  let t := r.tv ts
  r.setT td ⟨t.val + n, latest d (latest t.dec nd), t.base⟩

/-- The registers after an operation that executes, but for pc and the path tick; `id` numbers an event instruction,
whose results are pending on it (R282). -/
def QOp.apply (op : QOp) (id : Nat) (d : Option Nat) (r : QRegs) : QRegs :=
  match op with
  | .add rd ra rb => r.alu d rd ra rb (· + ·)
  | .sub rd ra rb => r.alu d rd ra rb (· - ·)
  | .and rd ra rb => r.alu d rd ra rb (· &&& ·)
  | .or rd ra rb => r.alu d rd ra rb (· ||| ·)
  | .xor rd ra rb => r.alu d rd ra rb (· ^^^ ·)
  | .shl rd ra rb => r.alu d rd ra rb fun a b => a <<< (b.toNat % 32)
  | .shr rd ra rb => r.alu d rd ra rb fun a b => a >>> (b.toNat % 32)
  | .addi rd ra imm => r.alui d rd ra (· + imm.signExtend 32)
  | .andi rd ra imm => r.alui d rd ra (· &&& imm.setWidth 32)
  | .ori rd ra imm => r.alui d rd ra (· ||| imm.setWidth 32)
  | .xori rd ra imm => r.alui d rd ra (· ^^^ imm.setWidth 32)
  | .shli rd ra sh => r.alui d rd ra (· <<< sh.toNat)
  | .shri rd ra sh => r.alui d rd ra (· >>> sh.toNat)
  | .ldi rd hi imm => r.ldi d rd hi imm
  | .cmp pd cc ra rb =>
    let a := r.gv ra
    let b := r.gv rb
    r.setP pd (.known (cc.holds a.val b.val) (latest d (latest a.dec b.dec)))
  | .cmpi pd cc ra imm =>
    let a := r.gv ra
    r.setP pd (.known (cc.holds a.val (imm.signExtend 32)) (latest d a.dec))
  | .plog pd pa pb na nb fn =>
    let a := r.pv pa
    let b := r.pv pb
    r.setP pd (.known (fn.eval (a.val ^^ na) (b.val ^^ nb)) (latest d (latest a.dec b.dec)))
  | .taddi td ts imm => r.tadd d td ts (imm.setWidth 64) none
  | .taddr td ts ra sh => r.tadd d td ts ((r.gv ra).val.setWidth 64 <<< sh.toNat) (r.gv ra).dec
  | .tset td ra rb =>
    let a := r.gv ra
    let b := r.gv rb
    r.setT td (.known (b.val ++ a.val) (latest d (latest a.dec b.dec)))
  | .tget rd ts hi =>
    let t := r.tv ts
    r.setG rd (.known (if hi then t.val.extractLsb' 32 32 else t.val.extractLsb' 0 32) (latest d t.dec))
  | .tcmp pd ta tb cc =>
    let a := r.tv ta
    let b := r.tv tb
    r.setP pd (.known (cc.holds a.val b.val) (latest d (latest a.dec b.dec)))
  | .evtst pd tr _ _ => r.setP pd ⟨false, latest d (r.tv tr).dec, some id⟩
  | .waite pd td tr _ _ =>
    let dd := latest d (r.tv tr).dec
    (r.setP pd ⟨false, dd, some id⟩).setT td ⟨0, dd, some id⟩
  | .evcnt rd tr _ _ => r.setG rd ⟨0, latest d (r.tv tr).dec, some id⟩
  | .evdata rd _ => r.setG rd ⟨0, d, some id⟩
  | .call _ => { r with lk := .known (r.pc + 1) d }
  | .loop lc _ =>
    let c := r.lcv lc
    if c.val = 0 then r else r.setLc lc (.known (c.val - 1) (latest d c.dec))
  | .ldlc lc arg =>
    match arg with
    | .imm n => r.setLc lc (.known n d)
    | .reg ra => r.setLc lc (.known ((r.gv ra).val.setWidth 16) (latest d (r.gv ra).dec))
  | .lkmov toLk rr =>
    if toLk then { r with lk := .known ((r.gv rr).val.setWidth 14) (latest d (r.gv rr).dec) }
    else r.setG rr (.known (r.lk.val.setWidth 32) (latest d r.lk.dec))
  | .nop | .halt .. | .idle .. | .br .. | .ret | .swap .. | .cold .. | .glide .. | .outg .. | .dset .. | .divrst ..
  | .sysref .. | .stat .. | .send0 .. | .send1 .. => r

/-! ## Kinds -/

/-- An instruction that names an effect (R263, Table 6.12). -/
def QOp.isEffect : QOp → Bool
  | .swap .. | .cold .. | .glide .. | .outg .. | .dset .. | .divrst .. | .sysref .. | .stat .. | .send0 .. | .send1 ..
  | .halt .. | .idle .. => true
  | _ => false

/-- A hop instruction (Table 6.10). -/
def QOp.isHop : QOp → Bool
  | .swap .. | .cold .. | .glide .. => true
  | _ => false

def QOp.isSwap : QOp → Bool
  | .swap .. => true
  | _ => false

def QOp.isHalt : QOp → Bool
  | .halt .. => true
  | _ => false

/-- An instruction that may be predicted on a pending guard (R283). -/
def QOp.isBranch : QOp → Bool
  | .br .. | .call .. => true
  | _ => false

/-- The question of an event instruction (Table 6.8). -/
def QOp.ask (op : QOp) (r : QRegs) : Option EvAsk :=
  match op with
  | .evtst _ tr src keep | .waite _ _ tr src keep | .evcnt _ tr src keep =>
    some ⟨src.toNat, (r.tv tr).val.toNat, keep, none⟩
  | .evdata _ src => some ⟨src.toNat, 0, true, none⟩
  | _ => none

/-- The event source an instruction names (R252). -/
def QOp.source : QOp → Option Nat
  | .evtst _ _ src _ | .waite _ _ _ src _ | .evcnt _ _ src _ | .evdata _ src => some src.toNat
  | _ => none

/-! ## Waiting (R283) -/

/-- The instruction would read a pending value that it has to wait for. The tick of an effect, and the base of TADDI and
TADDR, may be pending. No loop counter is ever pending, since LDLC waits for its source. -/
def QOp.waits (op : QOp) (r : QRegs) : Bool :=
  let g (i : BitVec 4) := (r.gv i).base.isSome
  let t (i : BitVec 2) := (r.tv i).base.isSome
  let p (i : BitVec 2) := (r.pv i).base.isSome
  match op with
  | .add _ ra rb | .sub _ ra rb | .and _ ra rb | .or _ ra rb | .xor _ ra rb | .shl _ ra rb | .shr _ ra rb => g ra || g rb
  | .addi _ ra _ | .andi _ ra _ | .ori _ ra _ | .xori _ ra _ => g ra
  | .shli _ ra _ | .shri _ ra _ => g ra
  | .ldi rd hi _ => hi && g rd
  | .cmp _ _ ra rb => g ra || g rb
  | .cmpi _ _ ra _ => g ra
  | .plog _ pa pb _ _ _ => p pa || p pb
  | .taddr _ _ ra _ => g ra
  | .tset _ ra rb => g ra || g rb
  | .tget _ ts _ => t ts
  | .tcmp _ ta tb _ => t ta || t tb
  | .evtst _ tr _ _ | .waite _ _ tr _ _ | .evcnt _ tr _ _ => t tr
  | .ret => r.lk.base.isSome
  | .loop lc _ => (r.lcv lc).base.isSome
  | .ldlc _ arg => (match arg with | .reg ra => g ra | .imm _ => false)
  | .lkmov toLk rr => if toLk then g rr else r.lk.base.isSome
  | .swap _ _ prof | .cold _ _ prof | .glide _ _ prof => (match prof with | .reg ra => g ra | .imm _ => false)
  | .outg _ ra _ | .dset _ ra _ | .divrst _ ra | .sysref _ ra _ => g ra
  | .send0 _ ra rb tc _ | .send1 _ ra rb tc => g ra || g rb || t tc
  | .nop | .halt _ | .idle .. | .taddi .. | .evdata .. | .br .. | .call _ | .stat .. => false

/-! ## Exceptions (Table 6.13) -/

/-- SL of an instruction that carries it. -/
def QOp.slot? : QOp → Option Slot
  | .swap _ sl _ | .cold _ sl _ | .glide _ sl _ | .idle _ sl _ => some sl
  | _ => none

/-- In ganged mode SL other than 0 is ILLEGAL, whatever the guard (Table 6.13, R257). -/
def QOp.slotIllegal (op : QOp) (ganged : Bool) : Bool :=
  ganged && (match op.slot? with | some sl => sl != .s0 | none => false)

/-- The profile index a hop names. -/
def ProfArg.index (p : ProfArg) (r : QRegs) : Nat :=
  match p with
  | .imm p => p.toNat
  | .reg ra => (r.gv ra).val.toNat

/-- The profile operand of a hop. -/
def QOp.prof? : QOp → Option ProfArg
  | .swap _ _ p | .cold _ _ p | .glide _ _ p => some p
  | _ => none

/-- The exception an executing instruction raises: 2 MODE for SWAP in a split station, 3 SLOT for an empty slot in a
split station, 4 RANGE for a profile or flow of 4,096 or more; 0 none. -/
def QOp.exception (op : QOp) (ganged : Bool) (empty : Slot → Bool) (r : QRegs) : Nat :=
  let range := match op with
    | .swap _ _ p | .cold _ _ p | .glide _ _ p => decide (4096 ≤ p.index r)
    | .send0 _ _ rb _ _ | .send1 _ _ rb _ => decide (4096 ≤ (r.gv rb).val.toNat)
    | _ => false
  match op with
  | .swap .. => if !ganged then 2 else if range then 4 else 0
  | .cold _ sl _ | .glide _ sl _ | .idle _ sl _ => if !ganged && empty sl then 3 else if range then 4 else 0
  | _ => if range then 4 else 0

/-- The last instruction index. -/
def lastPc : BitVec 14 := 16383#14

/-! ## Flow (R248, R261, Table 6.9) -/

/-- Where pc goes after an instruction whose guard has the value `g`; none raises END. HALT ends the program. -/
def QOp.nextPc (op : QOp) (g : Bool) (r : QRegs) : Option (BitVec 14) :=
  let seq := if r.pc = lastPc then none else some (r.pc + 1)
  if !g then seq
  else
    match op with
    | .br _ tgt => some tgt
    | .call tgt => if r.pc = lastPc then none else some tgt
    | .ret => some r.lk.val
    | .loop lc tgt => if (r.lcv lc).val = 0 ∨ (r.lcv lc).val = 1 then seq else some tgt
    | .halt _ => some r.pc
    | _ => seq

/-- The path tick after an instruction (R248). `gd` is the decision tick of its guard. -/
def QOp.pathTick (op : QOp) (g : Bool) (gd : Option Nat) (r : QRegs) : Option Nat :=
  match op with
  | .br .. | .call _ => latest r.path gd
  | .loop lc _ => if g then latest r.path (latest gd (r.lcv lc).dec) else latest r.path gd
  | .ret => if g then latest r.path (latest gd r.lk.dec) else latest r.path gd
  | _ => r.path

/-! ## Effects (R249, R263) -/

/-- The t register that names an effect's release tick. -/
def QOp.tickReg : QOp → Option (BitVec 2)
  | .swap tr _ _ | .cold tr _ _ | .glide tr _ _ | .outg tr _ _ | .dset tr _ _ | .divrst tr _ | .sysref tr _ _
  | .stat tr _ _ | .send0 tr _ _ _ _ | .send1 tr _ _ _ | .halt tr | .idle tr _ _ => some tr
  | _ => none

/-- What an effect instruction asks for, with its register operands read. -/
def QOp.act (op : QOp) (r : QRegs) : Option Act :=
  match op with
  | .swap _ _ p => some (.swap (p.index r))
  | .cold _ sl p => some (.cold sl.index (p.index r))
  | .glide _ sl p => some (.glide sl.index (p.index r))
  | .outg _ ra u => some (.outg u (r.gv ra).val)
  | .dset _ ra set => some (.dset set.toNat (r.gv ra).val)
  | .divrst _ ra => some (.divrst (r.gv ra).val)
  | .sysref _ ra o => some (.sysref o (r.gv ra).val)
  | .stat _ mask value => some (.stat mask value)
  | .send0 _ ra rb tc slot => some (.send0 (r.gv ra).val (r.tv tc).val.toNat slot.toNat (r.gv rb).val.toNat)
  | .send1 _ ra rb tc => some (.send1 (r.gv ra).val (r.tv tc).val.toNat (r.gv rb).val.toNat)
  | .halt _ => some .halt
  | .idle _ sl w => some (.idle sl.index w.toNat)
  | _ => none

/-- The decision tick of the register operands of an effect (R249). -/
def QOp.operandDec (op : QOp) (r : QRegs) : Option Nat :=
  match op with
  | .swap _ _ p | .cold _ _ p | .glide _ _ p => (match p with | .reg ra => (r.gv ra).dec | .imm _ => none)
  | .outg _ ra _ | .dset _ ra _ | .divrst _ ra | .sysref _ ra _ => (r.gv ra).dec
  | .send0 _ ra rb tc _ | .send1 _ ra rb tc => latest (r.gv ra).dec (latest (r.gv rb).dec (r.tv tc).dec)
  | _ => none

/-! ## Resolution (R282) -/

/-- A predicate, count or tick that waited for event instruction `id` takes its value. -/
def Tracked.resolve {α : Type} (x : Tracked α) (id : Nat) (d : Option Nat) (f : α → α) : Tracked α :=
  if x.base = some id then ⟨f x.val, latest x.dec d, none⟩ else x

/-- Every register that waited for event instruction `id` takes its value. -/
def QRegs.resolve (r : QRegs) (id : Nat) (e : EvRes) : QRegs :=
  { r with g := r.g.map fun x => x.resolve id e.dec fun _ => e.value
           t := r.t.map fun x => x.resolve id e.dec fun off => BitVec.ofNat 64 e.tick + off
           p := r.p.map fun x => x.resolve id e.dec fun _ => e.flag }

end Sys2Proof.Machine
end

