-- ==== Sys2Proof/Machine/Thread.lean ====
section
/-! DEFINITION. Sequencer threads (spec/06, spec/07): execution on the followed path and on alternate paths,
prediction, evaluation of event instructions, squash and commit. -/

namespace Sys2Proof.Machine

/-! ## Station modes and the program store -/

/-- The mode of a station: 0 off, 1 ganged, 2 split; 3 is taken as off (Table 5.1). -/
def State.stnMode (s : State) (n : Nat) : Nat :=
  let m := s.fld Fields.STN_CFG_MODE n
  if m = 3 then 0 else m

/-- The word at an index of a station's program store (R246). -/
def State.pgmWord (s : State) (n : Nat) (i : BitVec 14) : Word := s.pgm.get (n * 16384 + i.toNat)

/-- A station's mark record for a source. -/
def Station.markOf (t : Station) (src : Nat) : Mark :=
  match t.marks.find? fun p => p.src == src with
  | some p => p
  | none => ⟨src, t.startTick, 0, none⟩

/-- Store a mark record. -/
def Station.setMark (t : Station) (m : Mark) : Station :=
  { t with marks := m :: t.marks.filter fun p => p.src != m.src }

/-! ## Executing one instruction -/

/-- What an attempt to execute an instruction gives: it waits, it becomes a two-way decision that waits for an event
instruction, or it executes with its entry and the registers after it. -/
inductive StepRes where
  | wait
  | fork (base : Nat)
  | done (e : Exec) (r : QRegs)

/-- Registers with pc and path tick after an instruction, and whether it raises END. -/
def QInstr.advance (i : QInstr) (g : Bool) (gd : Option Nat) (old r : QRegs) : QRegs × Bool :=
  let path := i.op.pathTick g gd old
  match i.op.nextPc g old with
  | some pc => ({ r with pc := pc, path := path }, false)
  | none => ({ r with path := path }, true)

/-- Execute instruction `i` as number `id` on a path whose registers are `r` (R247 to R262, R282, R283). -/
def QInstr.execute (i : QInstr) (id : Nat) (ganged : Bool) (empty : Slot → Bool) (r : QRegs) : StepRes :=
  let e : Exec := ⟨id, r.pc, i, none, false, 0, none, .known 0 none, none⟩
  let gp := r.pv i.guard.p
  if i.op.slotIllegal ganged then .done { e with exc := 1 } r
  else
    match gp.base with
    | some b =>
      if i.op.isBranch then .fork b
      else if i.op.isEffect then
        if i.op.waits r then .wait
        else
          let (r', ends) := i.advance false gp.dec r r
          let exc := i.op.exception ganged empty r
          .done { e with guardBase := some b, exc := if exc = 0 ∧ ends then 5 else exc
                         hop := (i.op.prof?).map fun p => p.index r
                         tick := (match i.op.tickReg with | some tr => r.tv tr | none => .known 0 none) } r'
      else .wait
    | none =>
      let gd := if i.guard.p = 0 then none else gp.dec
      if !i.guard.passes gp.val then
        let (r', ends) := i.advance false gd r r
        .done { e with off := true, exc := if ends then 5 else 0 } r'
      else if i.op.waits r then .wait
      else
        let exc := i.op.exception ganged empty r
        if exc ≠ 0 then .done { e with exc := exc } r
        else
          let ends := (i.op.nextPc true r).isNone
          let noLk := match i.op with | .call _ => ends | _ => false
          let r1 := if noLk then r else i.op.apply id (latest r.path gd) r
          let (r', ends) := i.advance true gd r r1
          .done { e with exc := if ends then 5 else 0
                         hop := (i.op.prof?).map fun p => p.index r
                         tick := (match i.op.tickReg with | some tr => r.tv tr | none => .known 0 none)
                         ask := i.op.ask r } r'

/-- An entry past which nothing executes: an exception that will be raised, a HALT that is performed, or a candidate at the last index. -/
def Exec.stops (e : Exec) : Bool :=
  e.exc == 5 || (e.guardBase.isSome && e.pc == lastPc)
    || (e.guardBase.isNone && (e.exc != 0 || (e.ins.op.isHalt && !e.off)))

/-- An entry of a hop that is performed or may be. -/
def Exec.isHop (e : Exec) : Bool := e.hop.isSome && !e.off && (e.exc == 0 || e.exc == 5)

/-- Whether a slot of a station's map is empty. -/
def State.slotEmpty (s : State) (n : Nat) (sl : Slot) : Bool := (s.slot n sl.index).isNone

/-- Executed and uncommitted instructions of a thread, on the followed path and all alternate paths (Table 7.2). -/
def Thread.inWindow (th : Thread) : Nat := th.insts.length + (th.forks.map fun f => f.alt.length).sum

/-- Hops executed on the followed path whose effect has not released or been dropped (Table 7.2). -/
def Station.openHops (t : Station) : Nat :=
  (t.thread.insts.filter Exec.isHop).length + (t.queue.filter fun e =>
    match e.act with | .swap _ | .cold .. | .glide .. => true | _ => false).length

/-- The thread may execute at all: the station runs, its thread is not fenced, and its program has not ended. -/
def Station.mayExecute (t : Station) : Bool :=
  t.running && t.threadDown.isNone && !t.thread.ended && !(t.thread.insts.any Exec.stops)

/-- The predicted outcome of a branch (R286): its hint, or the counter of pc[5:0]. -/
def Thread.predict (th : Thread) (i : QInstr) (pc : BitVec 14) : Bool :=
  match i.op with
  | .br .taken _ => true
  | .br .notTaken _ => false
  | _ => decide (2 ≤ (th.ctr[pc.toNat % 64]?.getD 1).val)

/-- The exception that a predicted branch raises on one outcome: END at the last index when it does not branch, and for a CALL whatever its
outcome (R261, Table 6.9). -/
def QInstr.branchExc (i : QInstr) (taken : Bool) (pc : BitVec 14) : Nat :=
  if pc = lastPc && (!taken || match i.op with | .call _ => true | _ => false) then 5 else 0

/-- The registers on one outcome of a branch. -/
def QInstr.outcome (i : QInstr) (taken : Bool) (r : QRegs) : QRegs :=
  match taken, i.op with
  | true, .br _ tgt => { r with pc := tgt }
  | true, .call tgt => { r with lk := .known (r.pc + 1) r.path, pc := tgt }
  | _, _ => { r with pc := r.pc + 1 }

/-- A preparation kept for a thread that resumes on a spare (R276) is taken by the swap that names its profile. -/
def Station.rebind (t : Station) (e : Exec) : Station :=
  if e.ins.op.isSwap && e.isHop then
    match t.slots.toList.findIdx? fun x => match x.prep with
        | some p => p.hop == 0 && some p.prof == e.hop
        | none => false with
    | some k =>
      let x := t.slots[k]?.getD default
      { t with slots := t.slots.setIfInBounds k { x with prep := x.prep.map fun p => { p with hop := e.id } } }
    | none => t
  else t

/-- The followed path executes its next instruction (R284, R285). A hop whose guard is known false names no effect and counts against no
limit of hops. -/
def State.stepFollowed (s : State) (n : Nat) (i : QInstr) : State :=
  let t := s.stn n
  let th := t.thread
  let off := (th.regs.pv i.guard.p).base.isNone && !i.guard.passes (th.regs.pv i.guard.p).val
  if !t.mayExecute || decide (64 ≤ th.inWindow) || (i.op.isHop && !off && decide (3 ≤ t.openHops)) then s
  else
    match i.execute th.nextId (s.stnMode n == 1) (s.slotEmpty n) th.regs with
    | .wait => s
    | .fork b =>
      if 2 ≤ th.forks.length then s
      else
        let pred := th.predict i th.regs.pc
        let e : Exec := ⟨th.nextId, th.regs.pc, i, none, false, i.branchExc pred th.regs.pc, none, .known 0 none, none⟩
        s.setStn n { t with thread := { th with
          insts := th.insts ++ [e]
          forks := th.forks ++ [⟨th.nextId, b, pred, [], i.outcome (!pred) th.regs⟩]
          regs := i.outcome pred th.regs
          nextId := th.nextId + 1 } }
    | .done e r =>
      s.setStn n (({ t with thread := { th with insts := th.insts ++ [e], regs := r, nextId := th.nextId + 1 } } : Station).rebind e)

/-- A two-way decision although its guard is known: a BR or an effect whose guard carries a decision tick (R262). -/
def QInstr.decides (i : QInstr) (r : QRegs) : Bool :=
  (match i.op with | .br .. => true | op => op.isEffect) && i.guard.p != 0 && (r.pv i.guard.p).dec.isSome

/-- The alternate path of decision `k` executes its next instruction, unless R287 stops it there. -/
def State.stepAlternate (s : State) (n k : Nat) (i : QInstr) : State :=
  let t := s.stn n
  let th := t.thread
  match th.forks[k]? with
  | none => s
  | some f =>
    if !t.running || t.threadDown.isSome || th.ended || decide (64 ≤ th.inWindow) || decide (16 ≤ f.alt.length)
        || f.alt.any (fun e => e.ins.op.isHop || e.stops) || i.op.isHalt || i.decides f.regs || (f.regs.pv i.guard.p).base.isSome
        || (match th.insts.find? fun e => e.id == f.id with | some b => b.ins.branchExc (!f.taken) b.pc != 0 | none => false) then s
    else
      match i.execute th.nextId (s.stnMode n == 1) (s.slotEmpty n) f.regs with
      | .done e r =>
        s.setStn n { t with thread := { th with
          forks := th.forks.set k { f with alt := f.alt ++ [e], regs := r }, nextId := th.nextId + 1 } }
      | _ => s

/-- The row of a program word is being refilled, and fetches from it wait (Table 7.10). -/
def State.refilling (s : State) (n : Nat) (i : BitVec 14) : Bool :=
  s.refills.any fun r => r.1 == n * 16384 + i.toNat && decide (s.elapsed < r.2)

/-- The thread of a station executes the instruction at the pc of a path, when it is one of opcode `op`: path 0 is the
followed path, path k + 1 the alternate path of the k-th unresolved decision. -/
def State.runInstr (s : State) (n path : Nat) (op : BitVec 6) : State :=
  let th := (s.stn n).thread
  let regs := if path = 0 then some th.regs else (th.forks[path - 1]?).map fun f => f.regs
  match regs with
  | some r =>
    match decodeQ (s.pgmWord n r.pc) with
    | some i =>
      if s.refilling n r.pc then s
      else if i.op.opcode = op then (if path = 0 then s.stepFollowed n i else s.stepAlternate n (path - 1) i) else s
    | none => s
  | none => s

/-! ## Preparations and references -/

/-- The numbers of a station's hops that are not released, dropped or squashed. -/
def Station.hopIds (t : Station) : List Nat :=
  (t.queue.filter fun e => match e.act with | .swap _ | .cold .. | .glide .. => true | _ => false).map Effect.id
  ++ (t.thread.insts.filter Exec.isHop).map Exec.id
  ++ (t.thread.forks.map fun f => (f.alt.filter Exec.isHop).map Exec.id).flatten

/-- A profile's MODE is coherent (Table 5.2): bit 30 of word 5 is 0. -/
def coherentWords (ws : List Word) : Bool := !bitOf (ws.getD 5 0) 30

/-- DESIGN CHOICE (log entry 90): the spec says of an abandoned preparation no more than that; its core's acquisition runs on. A preparation whose hop is gone is abandoned and its core is free from now on; a core already settled for a coherent
swap stays settled for that profile (R210, R214, R290). -/
def SlotSt.reap (x : SlotSt) (live : List Nat) (at_ : Nat) : SlotSt :=
  match x.prep with
  | some p =>
    if p.hop = 0 ∨ live.contains p.hop then x
    else
      let keep := x.settled.isSome && coherentWords p.words
      { x with prep := none, freeAt := max x.freeAt at_, settled := if keep then x.settled else none
               holds := if keep then some p.prof else none }
  | none => x

/-- Abandon the preparations of a station whose hops are gone. -/
def State.reap (s : State) (n : Nat) : State :=
  s.modStn n fun t => { t with slots := t.slots.map fun x => x.reap t.hopIds s.elapsed
                               kept := t.kept.filter fun x => t.hopIds.contains x.1 }

/-- A profile is referenced (R236): a hop that names it is in a run-ahead window or a holding queue, or a core is being prepared for one. -/
def State.referenced (s : State) (p : Nat) : Bool :=
  (List.range 8).any fun n =>
    let t := s.stn n
    (t.queue.any fun e => match e.act with | .swap q | .cold _ q | .glide _ q => q == p | _ => false)
    || (t.thread.insts.any fun e => e.isHop && e.hop == some p)
    || (t.thread.forks.any fun f => f.alt.any fun e => e.isHop && e.hop == some p)
    || (t.slots.toList.any fun x => match x.prep with | some q => q.prof == p | none => false)

/-! ## Evaluating event instructions (R260, R281, Table 6.8) -/

/-- The queued events of a source stamped in (m, X], in stamp order. -/
def Station.inInterval (t : Station) (src m x : Nat) : List Event :=
  t.events.filter fun e => e.src == src && decide (m < e.stamp) && decide (e.stamp ≤ x)

/-- The mark and payload of a source as earlier entries of the path leave them; none while an earlier take has not
evaluated. -/
def markAfter (m : Mark) : List Exec → Option Mark
  | [] => some m
  | e :: es =>
    match e.ask with
    | some a =>
      if a.src != m.src || a.keep || e.off then markAfter m es
      else
        match a.res with
        | some r => markAfter { m with at_ := r.mark, payload := r.taken.getD m.payload
                                       dec := if r.taken.isSome then r.dec else m.dec } es
        | none => none
    | none => markAfter m es

/-- The answer of an event instruction, once its tick has closed. -/
def State.evaluate (s : State) (n : Nat) (op : QOp) (a : EvAsk) (m : Mark) : Option EvRes :=
  let t := s.stn n
  let evs := t.inInterval a.src m.at_ a.x
  let mark := if a.keep then m.at_ else max m.at_ a.x
  let last := if a.keep then none else evs.getLast?.map Event.payload
  match op with
  | .evtst .. => if s.closed a.x then some ⟨!evs.isEmpty, 0, 0, some a.x, mark, last⟩ else none
  | .evcnt .. => if s.closed a.x then some ⟨false, BitVec.ofNat 32 evs.length, 0, some a.x, mark, last⟩ else none
  | .waite .. =>
    match evs with
    | e :: _ =>
      if s.closed e.stamp then
        some ⟨true, 0, e.stamp, some e.stamp, if a.keep then m.at_ else e.stamp, if a.keep then none else some e.payload⟩
      else none
    | [] => if s.closed a.x then some ⟨false, 0, a.x, some a.x, mark, none⟩ else none
  | _ => some ⟨false, m.payload, 0, m.dec, m.at_, none⟩

/-! ## Resolution and squash (R286 to R290) -/

/-- An entry after event instruction `id` has evaluated. -/
def Exec.resolve (e : Exec) (id : Nat) (r : EvRes) : Exec :=
  let e : Exec := { e with tick := e.tick.resolve id r.dec fun off => BitVec.ofNat 64 r.tick + off }
  let e : Exec := if e.id = id then { e with ask := e.ask.map fun a => { a with res := some r } } else e
  if e.guardBase = some id then
    if e.ins.guard.passes r.flag then { e with guardBase := none }
    else { e with guardBase := none, off := true, exc := if e.pc = lastPc then 5 else 0 }
  else e

/-- Cut a path behind the first entry past which nothing executes. -/
def cutAfterStop : List Exec → List Exec
  | [] => []
  | e :: es => if e.stops then [e] else e :: cutAfterStop es

/-- One step of a prediction counter towards an outcome (R286). -/
def ctrStep (c : Fin 4) (taken : Bool) : Fin 4 :=
  match c, taken with
  | 0, true => 1 | 1, true => 2 | 2, true => 3 | 3, true => 3
  | 0, false => 0 | 1, false => 0 | 2, false => 1 | 3, false => 2

/-- The guard's outcome at the branch of a decision. -/
def Thread.branchOf (th : Thread) (f : Fork) : Option Exec := th.insts.find? fun e => e.id == f.id

/-- Settle the decisions that waited for event instruction `id`, oldest first: a decision that went as predicted drops its
alternate path (R288); one that did not squashes the followed path from it and continues on the alternate (R289). The
numbers of mispredictions and of squashed instructions are added up. DESIGN CHOICES (log entries 92, 93): a decision with a HINT moves its
counter too, and the instructions of an alternate path that is dropped are not counted as squashed. -/
def settleForks (id : Nat) (flag : Bool) : Nat → Thread → Nat × Nat × Thread
  | 0, th => (0, 0, th)
  | fuel + 1, th =>
    match th.forks.find? fun f => f.base == id with
    | none => (0, 0, th)
    | some f =>
      match th.branchOf f with
      | none => (0, 0, { th with forks := th.forks.filter fun x => x.id != f.id })
      | some b =>
        let actual := b.ins.guard.passes flag
        let k := b.pc.toNat % 64
        let th := { th with
          ctr := th.ctr.setIfInBounds k (ctrStep (th.ctr[k]?.getD 1) actual)
          insts := th.insts.map fun (e : Exec) => if e.id = b.id then { e with exc := b.ins.branchExc actual b.pc } else e }
        if actual = f.taken then
          settleForks id flag fuel { th with forks := th.forks.filter fun x => x.id != f.id }
        else
          let i := th.insts.findIdx fun e => e.id == f.id
          let kept := th.insts.take (i + 1)
          (1, th.insts.length - kept.length,
            { th with insts := kept ++ f.alt, regs := f.regs, forks := th.forks.takeWhile fun x => x.id != f.id })

/-- A thread after event instruction `id` has evaluated (R282, R288, R289). -/
def Thread.resolve (th : Thread) (id : Nat) (r : EvRes) : Nat × Nat × Thread :=
  let th := { th with
    regs := th.regs.resolve id r
    insts := th.insts.map fun e => e.resolve id r
    forks := th.forks.map fun f => { f with regs := f.regs.resolve id r, alt := f.alt.map fun e => e.resolve id r } }
  let (m, q, th) := settleForks id r.flag 3 th
  let insts := cutAfterStop th.insts
  (m, q, { th with insts := insts, forks := th.forks.filter fun f => insts.any fun e => e.id == f.id })

/-- Event instruction number `i` of the followed path evaluates once its tick has closed, and what waited for it goes on
(R281 to R291). -/
def State.decisionResolve (s : State) (n i : Nat) : State :=
  let t := s.stn n
  match t.thread.insts[i]? with
  | some e =>
    match e.ask with
    | some a =>
      if a.res.isSome || t.threadDown.isSome || !t.running then s
      else
        match markAfter (t.markOf a.src) (t.thread.insts.take i) with
        | some m =>
          match s.evaluate n e.ins.op a m with
          | some r =>
            let (mis, sq, th) := t.thread.resolve e.id r
            (s.setStn n { t with thread := th, mispred := satAdd t.mispred 32 mis, squashed := satAdd t.squashed 32 sq }).reap n
          | none => s
        | none => s
    | none => s
  | none => s

/-! ## Commit (R269, R280) -/

/-- A committing instruction raises an exception: the thread stops and its station stops after its last effect (R269). -/
def State.exception (s : State) (n code : Nat) (pc : BitVec 14) : State :=
  let t := s.stn n
  let s := s.setStn n { t with
    thread := { t.thread with insts := [], forks := [], ended := true }, exc := code, epc := pc
    endedAt := some s.now }
  (s.raiseEvent ⟨5, 0, 16 + n⟩ (BitVec.ofNat 32 (code * 2 ^ 28 + pc.toNat))).reap n

/-- Whether an entry may commit: its guard and tick are known, it has evaluated, and it is no open decision (R280). -/
def Exec.mayCommit (e : Exec) (forks : List Fork) : Bool :=
  e.guardBase.isNone && (e.off || e.tick.base.isNone) && !(forks.any fun f => f.id == e.id)
    && (match e.ask with | some a => e.off || a.res.isSome | none => true)

/-- The committed registers after an entry: the instruction is applied to them with every input known. -/
def Exec.commitRegs (e : Exec) (r : QRegs) : QRegs :=
  let gp := r.pv e.ins.guard.p
  let gd := if e.ins.guard.p = 0 then none else gp.dec
  let g := e.ins.guard.passes gp.val
  let ends := (e.ins.op.nextPc g r).isNone
  let skip := !g || (match e.ins.op with | .call _ => ends | _ => false)
  let r1 := if skip then r else e.ins.op.apply e.id (latest r.path gd) r
  let r2 := match e.ask with
    | some a => (match a.res with | some x => r1.resolve e.id x | none => r1)
    | none => r1
  (e.ins.advance g gd r r2).1

/-- The effect a committing instruction names (R249, R263). -/
def Exec.effect (e : Exec) (r : QRegs) (at_ : Nat) : Option Effect :=
  if e.off then none
  else
    match e.ins.op.act r, e.ins.op.tickReg with
    | some act, some tr =>
      let gd := if e.ins.guard.p = 0 then none else (r.pv e.ins.guard.p).dec
      let d := latest r.path (latest gd (latest (r.tv tr).dec (e.ins.op.operandDec r)))
      some ⟨e.id, e.pc, act, (r.tv tr).val.toNat, d, at_⟩
    | _, _ => none

/-- A committed take removes the events it examined and moves the mark (R260, R290). -/
def Station.commitTake (t : Station) (e : Exec) : Station :=
  match e.ask with
  | some a =>
    match a.res with
    | some r =>
      if a.keep || e.off then t
      else
        let m := t.markOf a.src
        { t.setMark ⟨a.src, r.mark, r.taken.getD m.payload, if r.taken.isSome then r.dec else m.dec⟩ with
          events := t.events.filter fun x => !(x.src == a.src && decide (x.stamp ≤ r.mark)) }
    | none => t
  | none => t

/-- The oldest executed instruction of a station commits (R280), while the holding queue has room (R265, Table 6.15). With nothing
executed, an ILLEGAL word at the pc raises its exception. -/
def State.instrCommit (s : State) (n : Nat) : State :=
  let t := s.stn n
  if !t.running || t.threadDown.isSome || t.thread.ended || decide (32 ≤ t.queue.length) then s
  else
    match t.thread.insts with
    | [] =>
      match decodeQ (s.pgmWord n t.comm.pc) with
      | none => if s.refilling n t.comm.pc then s else s.exception n 1 t.comm.pc
      | some _ => s
    | e :: rest =>
      if !e.mayCommit t.thread.forks then s
      else if e.exc ≠ 0 ∧ e.exc ≠ 5 then s.exception n e.exc e.pc
      else
        let halts := e.ins.op.isHalt && !e.off
        let t' := { t.commitTake e with
          comm := e.commitRegs t.comm
          queue := t.queue ++ (e.effect t.comm s.now).toList
          thread := { t.thread with insts := if halts then [] else rest
                                    forks := if halts then [] else t.thread.forks
                                    ended := halts } }
        let s := s.setStn n t'
        if e.exc = 5 then s.exception n 5 e.pc else s

end Sys2Proof.Machine
end

