-- ==== Sys2Proof/Machine/Profiles.lean ====
section
/-! DEFINITION. The profile store (spec/05, R201 to R206, R236 to R241): profiles, shadows and the profile window. -/

namespace Sys2Proof.Machine

/-- A profile, decoded from its eight words (Table 5.2). -/
structure Profile where
  setting : Setting
  phase : Nat
  outset : Word
  valid : Bool
  cont : Bool
  divsel : Nat
  sub : Nat
  band : Nat
  amp : Nat
  gtime : Nat
  deriving DecidableEq, Repr, Inhabited

/-- The profile that eight words hold (Table 5.2). -/
def profileOf (ws : List Word) : Profile :=
  let w (k : Nat) : Word := ws.getD k 0
  ⟨⟨getBits (w 5) 8 5, (w 0).toNat + getBits (w 2) 0 16 * 2 ^ 32, (w 1).toNat + getBits (w 2) 16 16 * 2 ^ 32⟩,
   (w 3).toNat, w 4, bitOf (w 5) 31, bitOf (w 5) 30, getBits (w 5) 28 2, getBits (w 5) 24 2, getBits (w 5) 16 8,
   getBits (w 5) 0 8, getBits (w 6) 0 16⟩

/-- The words of a profile in force. -/
def State.profWords (s : State) (p : Nat) : List Word := s.profs.slice (p * 8) 8

/-- The profile in force (R205). -/
def State.prof (s : State) (p : Nat) : Profile := profileOf (s.profWords p)

/-- A profile with VALID = 1 may be stored (R203). -/
def profileOk (ws : List Word) : Bool :=
  let p := profileOf ws
  !p.valid || (p.setting.valid && (decide (p.amp ≤ 240) || p.amp == 255) && decide (200 ≤ p.gtime))

/-- The words a store keeps of a profile: reserved bits read 0. -/
def maskProfile (ws : List Word) : List Word :=
  (List.range 8).map fun k =>
    let w := ws.getD k 0
    match k with
    | 5 => w &&& 0xF3FF1FFF#32
    | 6 => w &&& 0x0000FFFF#32
    | _ => w

/-- A write takes effect on a profile (R241): its content changes whole, and no core stays settled for it under R214. A
profile of a fenced row ignores it (Table 13.3). -/
def State.putProfile (s : State) (p : Nat) (ws : List Word) : State :=
  let s := if s.fencedEntry 15 p then s else { s with profs := s.profs.setMany (p * 8) (maskProfile ws) }
  s.each (List.range 8) fun s n => s.each (List.range 3) fun s k =>
    if (s.slotSt n k).holds == some p then s.modSlot n k fun x => { x with holds := none } else s

/-- A profile has a pending shadow. -/
def State.shadowOf (s : State) (p : Nat) : Option (List Word) := (s.shadows.find? fun x => x.1 == p).map (·.2)

/-- A host write of a profile (R203, R237, R239): its status and PROF_STAT.RESULT. -/
def State.profWrite (s : State) (p : Nat) (ws : List Word) : WRes × Nat :=
  if !profileOk ws then ((.range, s), 3)
  else if (s.shadowOf p).isSome then
    ((.ok, { s with shadows := s.shadows.map fun x => if x.1 = p then (p, ws) else x }), 1)
  else if s.referenced p then
    if 32 ≤ s.shadows.length then ((.full, s.raiseEvent Src.prof_SHADOW_FULL (BitVec.ofNat 32 p)), 2)
    else ((.ok, { s with shadows := s.shadows ++ [(p, ws)] }), 1)
  else ((.ok, s.putProfile p ws), 0)

/-- The words in PROF_DATA0 to PROF_DATA7. -/
def State.profData (s : State) : List Word := (List.range 8).map fun k => s.reg .PROF_DATA k

/-- PROF_CMD.WRITE: profile INDEX takes the words of the window (R204). -/
def State.profCmdWrite (s : State) : WRes :=
  let (r, res) := s.profWrite (s.fld Fields.PROF_ADDR_INDEX 0) s.profData
  (r.1, r.2.setFld Fields.PROF_STAT_RESULT 0 res)

/-- PROF_CMD.READ: PROF_DATA takes the content in force of profile INDEX; a pending shadow is not shown. -/
def State.profCmdRead (s : State) : State :=
  let ws := s.profWords (s.fld Fields.PROF_ADDR_INDEX 0)
  s.each (List.range 8) fun s k => s.setReg .PROF_DATA k (ws.getD k 0)

/-- A write of PROF_CMD: WRITE first, then READ. RESULT reports the WRITE; a READ alone reports OK. -/
def State.writeProfCmd (s : State) (w : Word) : WRes :=
  let r : WRes := if bitOf w 0 then s.profCmdWrite
    else if bitOf w 1 then (.ok, s.setFld Fields.PROF_STAT_RESULT 0 0) else (.ok, s)
  (r.1, if bitOf w 1 then r.2.profCmdRead else r.2)

/-- A pending shadow takes effect once no reference to its profile remains (R238). -/
def State.shadowApply (s : State) (p : Nat) : State :=
  match s.shadowOf p with
  | some ws =>
    if s.referenced p then s
    else
      let s := { s with shadows := s.shadows.filter fun x => x.1 != p }.putProfile p ws
      (s.raiseEvent Src.prof_SHADOW_APPLIED (BitVec.ofNat 32 p)).bump Fields.PROF_SHCNT_APPLIED 0 1
  | none => s

/-- The numbers of a station's hops to a profile whose named tick lies before `now`. -/
def Station.lateHops (t : Station) (p now : Nat) : List Nat :=
  (t.queue.filter fun e => decide (e.tick < now) && match e.act with | .swap q | .cold _ q | .glide _ q => q == p | _ => false).map Effect.id
  ++ (t.thread.insts.filter fun e =>
      e.isHop && e.hop == some p && e.tick.base.isNone && decide (e.tick.val.toNat < now)).map Exec.id

/-- The content of profile `p` for hop `id` of a station (R205): what an armed change has replaced since the hop's named tick, or what is
in force. -/
def State.wordsFor (s : State) (n id p : Nat) : List Word :=
  match (s.stn n).kept.find? fun x => x.1 == id with
  | some x => x.2
  | none => s.profWords p

/-- An armed change takes effect on a profile at its release tick, referenced or not (R240): a pending shadow is
discarded, and preparations made from the old content for hops named at or after the tick are made again. Hops named before it keep the old content
(R205). -/
def State.armedProfile (s : State) (p : Nat) (ws : List Word) : State :=
  let s := if (s.shadowOf p).isSome then
      ({ s with shadows := s.shadows.filter fun x => x.1 != p }.raiseEvent Src.prof_SHADOW_DISCARDED
        (BitVec.ofNat 32 p)).bump Fields.PROF_SHCNT_DISCARDED 0 1
    else s
  let old := s.profWords p
  let s := s.putProfile p ws
  s.each (List.range 8) fun s n => s.modStn n fun t =>
    { t with
      kept := t.kept ++ ((t.lateHops p s.now).filter fun i => !t.kept.any fun x => x.1 == i).map fun i => (i, old)
      slots := t.slots.map fun x =>
        match x.prep with
        | some q => if q.prof = p && !(t.queue.any fun e => e.id == q.hop && decide (e.tick < s.now)) then { x with prep := none, settled := none, freeAt := max x.freeAt s.elapsed } else x
        | none => x }

end Sys2Proof.Machine
end

