-- ==== Sys2Proof/Machine/Stations.lean ====
section
/-! DEFINITION. Stations (spec/05, spec/06): the station map and roles, starting and stopping, preparation of blocking
cores, and the hops as they release. -/

namespace Sys2Proof.Machine

/-! ## Map, mode and outputs (R194 to R198) -/

/-- The role Table 5.1 gives the core in slot `k` of a station. -/
def State.roleFor (s : State) (n k : Nat) : CoreRole :=
  match s.stnMode n with
  | 1 => if k = (s.stn n).liveSlot then .live else .blocking
  | 2 => .split
  | _ => .unassigned

/-- The cores of a station's map take their roles (R194, R197). -/
def State.assignRoles (s : State) (n : Nat) : State :=
  s.each [0, 1, 2] fun s k =>
    match s.slot n k with
    | some c => s.setRole c (s.roleFor n k) n
    | none => s

/-- A station that holds an accepted program returns to EMPTY (R195, R312). -/
def State.unload (s : State) (n : Nat) : State :=
  match (s.stn n).run with
  | .loaded | .stopped | .exception => s.modStn n fun t => { t with run := .empty, reach := [], srcs := [] }
  | _ => s

/-- The cores a word of STN_MAP names, slot 0 first. -/
def mapCores (w : Word) : List Nat := ([0, 5, 10].map fun lo => getBits w lo 5).filter (· < 26)

/-- A host write of STN_MAP (R195, R197): a core it removes drives no output of the station any more. -/
def State.writeStnMap (s : State) (n : Nat) (w : Word) : WRes :=
  let cs := mapCores w
  let taken := cs.any fun c =>
    (match s.mapOwner c with | some m => m != n | none => false) || bitOf (s.reg .CORE_SPAREMAP 0) c
      || (s.core c).role == .fenced
  if (s.stn n).running then (.busy, s)
  else if !cs.Nodup ∨ taken then (.range, s)
  else
    let gone := (s.stationCores n).filter fun c => !cs.contains c
    let s := s.setReg .STN_MAP n (w &&& 0x7FFF#32)
    let s := s.each gone fun s c => s.setRole c .unassigned 0
    let s := s.each ((bitsOf (s.reg .STN_OUTMASK n) 32).filter fun o => match s.srcOf o with | some c => gone.contains c | none => false)
      fun s o => s.modOut o fun x => { x with progGate := true }
    let s := s.modStn n fun t => { t with liveSlot := 0, slots := Vector.replicate 3 ⟨0, none, none, none⟩ }
    let s := s.assignRoles n
    let s := s.each cs fun s c => (s.setFld Fields.CORE_CFG_EN c 1).coreEnable c true
    (.ok, (s.endLevel (Src.stn_DEGRADED n)).unload n)

/-- A host write of STN_CFG (R195). -/
def State.writeStnCfg (s : State) (n : Nat) (w : Word) : WRes :=
  if (s.stn n).running then (.busy, s)
  else
    let s := s.setReg .STN_CFG n (w &&& 0xFFFF0003#32)
    (.ok, (s.assignRoles n).unload n)

/-- A host write of STN_OUTMASK (R195, R198). -/
def State.writeStnOutmask (s : State) (n : Nat) (w : Word) : WRes :=
  if (s.stn n).running then (.busy, s)
  else if (List.range 8).any fun m => m != n && (w &&& s.reg .STN_OUTMASK m) != 0 then (.range, s)
  else (.ok, s.setReg .STN_OUTMASK n w)

/-- The station's map meets Table 5.1 for its mode (R196). -/
def State.mapMeets (s : State) (n : Nat) : Bool :=
  let k := (s.stationCores n).length
  match s.stnMode n with
  | 1 => (s.slot n 0).isSome && decide (2 ≤ k)
  | 2 => decide (1 ≤ k)
  | _ => false

/-- The slots of a station whose cores are in service. -/
def State.inService (s : State) (n : Nat) : List Nat :=
  [0, 1, 2].filter fun k => match s.slot n k with | some c => (s.core c).role != .fenced | none => false

/-- A spare is on its way for a fenced core. -/
def State.spareComing (s : State) (c : Nat) : Bool :=
  (List.range 26).any fun k => (s.core k).reassign == some c || (s.core k).racingFor == some c

/-- STN_STAT.DEGRADED: fewer cores in service than STN_MAP names, and no spare on its way for one of them (R227,
Table 5.7). -/
def State.degraded (s : State) (n : Nat) : Bool :=
  (s.stationCores n).any fun c => (s.core c).role == .fenced && !s.spareComing c

/-- The core in the live slot of a ganged station. -/
def State.liveCore (s : State) (n : Nat) : Option Nat := if s.stnMode n = 1 then s.slot n (s.stn n).liveSlot else none

/-- A ganged station has a blocking core left in service, or a spare on its way for one (R227, Table 5.7). -/
def State.hasBlocking (s : State) (n : Nat) : Bool :=
  [0, 1, 2].any fun k => k != (s.stn n).liveSlot
    && match s.slot n k with | some c => (s.core c).role != .fenced || s.spareComing c | none => false

/-! ## Starting and stopping (R199, R200, R271 to R274, R316) -/

/-- The thread of a station at START or at a handoff: registers of Table 6.1, every prediction counter 1 (R286). -/
def Thread.fresh (ts : Nat) (pc : BitVec 14) : Thread :=
  ⟨QRegs.initial ts pc, [], [], Vector.replicate 64 1, 1, false⟩

/-- The start tick that SEQ_START names. -/
def State.seqStartTick (s : State) (n : Nat) : Nat := ofWords (s.reg .SEQ_START_LO n) (s.reg .SEQ_START_HI n)

/-- A core of a station still drives an output of it that is not gated. -/
def State.drivesMasked (s : State) (n c : Nat) : Bool :=
  (s.outsOf c).any fun o => bitOf (s.reg .STN_OUTMASK n) o && !s.gated o

/-- The station at the acceptance of START (R245, R272, R274). -/
def Station.begin (t : Station) (ts : Nat) (slots : Vector SlotSt 3) : Station :=
  let t := { t with run := .armed, guaranteed := t.accepted, events := [], enabled := t.srcs, marks := [], startTick := ts }
  let t := { t with comm := QRegs.initial ts 0, thread := Thread.fresh ts 0, queue := [], exc := 0, epc := 0#14 }
  { t with endedAt := none, liveSlot := 0, lastSwap := none, slots := slots, colds := [], named := 0, kept := [] }

/-- The slot of a station at START (R210, R272). -/
def State.slotAtStart (s : State) (n k ts : Nat) : SlotSt :=
  match s.slot n k with
  | some c => ⟨if k ≠ 0 ∧ s.drivesMasked n c then s.elapsed + (ts - s.now) + 75 else s.elapsed, none, none, none⟩
  | none => ⟨0, none, none, none⟩

/-- A write of SEQ_CTL.START (R271, R272, R274). -/
def State.seqStart (s : State) (n : Nat) : WRes :=
  let t := s.stn n
  let ts := s.seqStartTick n
  if !(t.run == .loaded || t.run == .stopped || t.run == .exception) then (.busy, s)
  else if !s.mapMeets n then (.range, s)
  else if ts < s.now + 64 then (.late, s)
  else if t.accepted && s.flag Fields.TIME_STATE_BROKEN 0 then (.broken, s)
  else
    let slots := #v[s.slotAtStart n 0 ts, s.slotAtStart n 1 ts, s.slotAtStart n 2 ts]
    let s := s.setStn n (t.begin ts slots)
    (.ok, s.assignRoles n)

/-- At T_s an ARMED station becomes RUNNING and every output of its mask is gated (R199, R272). -/
def State.runBegin (s : State) (n : Nat) : State :=
  if (s.stn n).run == .armed && decide ((s.stn n).startTick ≤ s.now) then
    let s := s.modStn n fun t => { t with run := .running }
    s.each (bitsOf (s.reg .STN_OUTMASK n) 32) fun s o => s.modOut o fun x => { x with progGate := true }
  else s

/-- A station stops (R200): its outputs keep their last released state, its cores keep running, and its unreleased work,
preparations and accepted handoff are given up. -/
def State.stopStation (s : State) (n : Nat) (run : RunState) : State :=
  s.modStn n fun t => { t with
    run := run, events := [], enabled := [], queue := [], handoffAt := none
    thread := { t.thread with insts := [], forks := [], ended := true }
    slots := t.slots.map fun x => { x with prep := none, settled := if x.prep.isSome then none else x.settled }
    colds := [], endedAt := none, kept := [] }

/-- A write of SEQ_CTL.STOP (R273, Tables 6.15 and 7.8). -/
def State.seqStop (s : State) (n : Nat) : State :=
  let t := s.stn n
  if !t.running then s
  else
    let s := s.stopStation n (if t.endedAt.isSome then .exception else .stopped)
    if t.handoffAt.isSome then s.modStn n fun t => { t with handoff := none } else s

/-- A write of SEQ_CTL: STOP, then START. -/
def State.writeSeqCtl (s : State) (n : Nat) (w : Word) : WRes :=
  let s := if bitOf w 1 then s.seqStop n else s
  if bitOf w 0 then s.seqStart n else (.ok, s)

/-- After an exception the station stops at the tick after its last queued effect releases (R269). -/
def State.excStop (s : State) (n : Nat) : State :=
  let t := s.stn n
  match t.endedAt with
  | some k => if t.running && t.queue.isEmpty && decide (k < s.now) then s.stopStation n .exception else s
  | none => s

/-- A write of SEQ_STATMAP: refused when it moves a pin from or to a running station. A pin that moves is not driven until
its program drives it. -/
def State.writeStatMap (s : State) (w : Word) : WRes :=
  let old := s.reg .SEQ_STATMAP 0
  let moved := (List.range 8).filter fun k => getBits old (4 * k) 4 != getBits w (4 * k) 4
  let runs (v : Nat) : Bool := decide (v < 8) && (s.stn v).running
  if moved.any fun k => runs (getBits old (4 * k) 4) || runs (getBits w (4 * k) 4) then (.busy, s)
  else
    let s := s.setReg .SEQ_STATMAP 0 w
    (.ok, { s with statPins := moved.foldl (fun v k => v.setIfInBounds k none) s.statPins })

/-- The level that STATn drives, none at high impedance (R629): that of its station's program, or that of GLB_STATOUT when SEQ_STATMAP
maps the pin to no station. -/
def State.statPin (s : State) (n : Nat) : Option Bool :=
  if getBits (s.reg .SEQ_STATMAP 0) (4 * n) 4 < 8 then (s.statPins[n]?).getD none
  else if bitOf (s.reg .GLB_STATOUT 0) (8 + n) then some (bitOf (s.reg .GLB_STATOUT 0) n)
  else none

/-- At tick H the old program's unreleased work is discarded and the thread starts the new program (R316, R317), or the spare that
resumes does (R276, Table 7.8). -/
def State.handoffGo (s : State) (n : Nat) : State :=
  let t := s.stn n
  match t.handoffAt, t.handoff with
  | some h, some p =>
    if t.run == .running && t.endedAt.isNone && decide (h ≤ s.now) then
      s.setStn n { t with
        guaranteed := p.guaranteed, accepted := p.guaranteed, events := [], enabled := p.srcs, srcs := p.srcs, marks := []
        startTick := h, reach := p.reach, handoff := none, handoffAt := none
        comm := QRegs.initial h p.entry, thread := Thread.fresh h p.entry
        queue := [], colds := t.colds.filter fun c => decide (c.named < h), kept := []
        slots := #v[(t.slots[0]?.getD default), (t.slots[1]?.getD default), (t.slots[2]?.getD default)].map fun x =>
          { x with prep := none, settled := if x.prep.isSome then none else x.settled } }
    else s
  | _, _ => s

/-! ## Preparation (R208 to R214) -/

/-- A hop that run-ahead has reached, in program order; `sure` says that its guard is known. -/
structure PHop where
  id : Nat
  swap : Bool
  glide : Bool
  sure : Bool
  prof : Nat
  tick : Option Nat
  deriving DecidableEq, Repr, Inhabited

/-- The hop of a queued effect. -/
def Effect.pHop (e : Effect) : Option PHop :=
  match e.act with
  | .swap p => some ⟨e.id, true, false, true, p, some e.tick⟩
  | .cold _ p => some ⟨e.id, false, false, true, p, some e.tick⟩
  | .glide _ p => some ⟨e.id, false, true, true, p, some e.tick⟩
  | _ => none

/-- The hop of an executed instruction. -/
def Exec.pHop (e : Exec) : Option PHop :=
  if e.isHop then
    some ⟨e.id, e.ins.op.isSwap, match e.ins.op with | .glide .. => true | _ => false, e.guardBase.isNone, e.hop.getD 0, if e.tick.base.isSome then none else some e.tick.val.toNat⟩
  else none

/-- What the station's plan knows at a point of the followed path: the live slot, the profile each slot will hold by
R214, the slots that serve a swap ahead without preparation, and the phase of the core that will drive the outputs, while every hop
ahead that it depends on is known. -/
structure Plan where
  live : Nat
  drive : Option Core
  holds : List (Option Nat)
  reused : List Nat
  deriving DecidableEq, Repr, Inhabited

/-- The slot that serves a swap: the one prepared for it, or one that will hold its coherent profile (R214). -/
def State.server (s : State) (n : Nat) (pl : Plan) (h : PHop) : Option (Nat × Bool) :=
  let t := s.stn n
  match t.slots.toList.findIdx? fun x => match x.prep with | some p => p.hop == h.id | none => false with
  | some k => some (k, false)
  | none =>
    if (s.prof h.prof).cont then none
    else ([0, 1, 2].find? fun k => k != pl.live && pl.holds.getD k none == some h.prof).map fun k => (k, true)

/-- The offset of a continuous load (R159, R233): `phi` is the predicted phase at the hop's named tick of the core that
drives the outputs before it. -/
def contOffset (phi : Rat) (x : Setting) (kh phase : Nat) : Rat :=
  let y := phi - kh * x.ratio + profileTheta phase
  let fl := y.floor
  fl + mkRat (ratRound ((y - fl) * 2 ^ 32)) (2 ^ 32)

/-- The offset that a load of a profile at tick `kh` gives (R158, R159), from the core that drives the outputs before it. -/
def Core.loadTheta (c : Core) (p : Profile) (kh : Nat) : Rat :=
  if p.cont then contOffset (c.phase kh) p.setting kh p.phase else profileTheta p.phase

/-- The phase of the driving core after a hop ahead, where it can be known: a glide and a continuous load need their tick. -/
def Core.afterHop (c : Core) (h : PHop) (p : Profile) : Option Core :=
  if !h.sure then none
  else if h.glide then
    h.tick.map fun k => if c.glideOk p.setting k then { c with glide := some ⟨k, p.gtime, c.ratioAt k, p.setting, c.phase k⟩ } else c
  else match p.cont, h.tick with
    | true, none => none
    | _, k => some { c with applied := p.setting, theta := c.loadTheta p (k.getD 0), glide := none }

/-- The plan after a hop that is served by a slot, or a cold hop or glide of a ganged station. -/
def State.planAfter (s : State) (n : Nat) (pl : Plan) (h : PHop) (srv : Option (Nat × Bool)) : Plan :=
  let p := profileOf (s.wordsFor n h.id h.prof)
  let base := if h.sure && !h.glide && !p.cont then (s.slot n pl.live).map s.core else pl.drive
  let pl := { pl with drive := if p.valid then base.bind fun c => c.afterHop h p else pl.drive }
  match srv with
  | some (k, re) =>
    { pl with live := k
              holds := pl.holds.set k (if p.cont then none else some h.prof)
              reused := if re then k :: pl.reused else pl.reused }
  | none => if p.valid then { pl with holds := pl.holds.set pl.live (if h.glide || p.cont then none else some h.prof) } else pl

/-- The tick as of which a decision is taken. -/
def Thread.asOf (th : Thread) (f : Fork) : Nat :=
  match th.insts.find? fun e => e.id == f.base with
  | some e => (match e.ask with | some a => a.x | none => 0)
  | none => 0

/-- The alternate outcome's next hop, where it is a swap to a valid profile. -/
def State.altSwap (s : State) (f : Fork) : Option PHop :=
  match f.alt.findSome? Exec.pHop with
  | some h => if h.swap && (s.prof h.prof).valid then some h else none
  | none => none

/-- The run-ahead has executed everything on the followed path: a HALT, or an instruction that raises an exception, is the
last. -/
def Thread.readOut (th : Thread) : Bool :=
  th.ended || (match th.insts.getLast? with
    | some e => e.exc != 0 || (match e.ins.op with | .halt _ => true | _ => false)
    | none => false)

/-- R212: as many cores count as free by the decision's tick as its outcomes need. `earlier` are the swaps ahead of the
decision on the followed path, `next` the predicted outcome's next swap; while the run-ahead has not reached the next hop
(`unread`) it counts as one swap. -/
def State.bothOutcomes (s : State) (n : Nat) (pl : Plan) (f : Fork) (earlier : List PHop) (next : Option PHop)
    (unread : Bool) : Bool :=
  let t := s.stn n
  let x := t.thread.asOf f
  let after := (earlier.filter fun h => h.swap && (match h.tick with | some k => decide (x < k) | none => true)).length
  let alts := (t.thread.forks.filter fun g =>
    decide (g.id < f.id) && decide (x < t.thread.asOf g + 6)
      && (match s.altSwap g with
          | some h => t.slots.any fun y => match y.prep with | some p => p.hop == h.id | none => false
          | none => false)).length
  let reuse (h : PHop) : Bool := match s.server n pl h with | some (_, re) => re | none => false
  let need := 1 + (match next with | some h => (!reuse h).toNat | none => unread.toNat)
  decide (need + after + alts + 1 ≤ (s.inService n).length)

/-- A point of the followed path: a hop, or an undecided branch. -/
inductive PathItem where
  | hop (h : PHop)
  | branch (f : Fork)
  deriving Inhabited

/-- The hops and undecided branches of a station's followed path in program order. -/
def Station.path (t : Station) : List PathItem :=
  t.queue.filterMap (fun e => e.pHop.map PathItem.hop)
  ++ t.thread.insts.filterMap fun e =>
      match t.thread.forks.find? fun f => f.id == e.id with
      | some f => some (.branch f)
      | none => e.pHop.map PathItem.hop

/-- The first alternate swap of decisions passed that R212 allows and nothing serves. -/
def State.wantedAlt (s : State) (n : Nat) (next : Option PHop) (unread : Bool) :
    List (Fork × Plan × List PHop) → Option (PHop × Plan)
  | [] => none
  | (f, pl, earlier) :: rest =>
    match s.altSwap f with
    | some h =>
      if (s.server n pl h).isNone && s.bothOutcomes n pl f earlier next unread then some (h, pl) else s.wantedAlt n next unread rest
    | none => s.wantedAlt n next unread rest

/-- The next swap in program order that waits for a core (R211 to R213), with the plan at it. -/
def State.wanted (s : State) (n : Nat) : List PathItem → Plan → List PHop → List (Fork × Plan × List PHop) →
    Option (PHop × Plan)
  | [], _, _, opened => s.wantedAlt n none (!(s.stn n).thread.readOut) opened
  | .branch f :: rest, pl, earlier, opened => s.wanted n rest pl earlier (opened ++ [(f, pl, earlier)])
  | .hop h :: rest, pl, earlier, opened =>
    if !h.swap then
      match s.wantedAlt n none false opened with
      | some w => some w
      | none => s.wanted n rest (s.planAfter n pl h none) (earlier ++ [h]) []
    else if !(s.prof h.prof).valid then s.wanted n rest pl earlier opened
    else
      match s.server n pl h with
      | none => some (h, pl)
      | some k =>
        match s.wantedAlt n (some h) false opened with
        | some w => some w
        | none => s.wanted n rest (s.planAfter n pl h (some k)) (earlier ++ [h]) []

/-- The plan of a station now. -/
def State.planNow (s : State) (n : Nat) : Plan :=
  let t := s.stn n
  ⟨t.liveSlot, (s.slot n t.liveSlot).map s.core, t.slots.toList.map SlotSt.holds, []⟩

/-- A slot's core is blocking, in service and free (R210), with no preparation that is still needed. -/
def State.slotFree (s : State) (n k : Nat) : Bool :=
  let x := s.slotSt n k
  match s.slot n k with
  | some c =>
    (s.core c).role == .blocking && decide (x.freeAt ≤ s.elapsed)
      && (match x.prep with | some p => p.hop == 0 | none => true)
  | none => false

/-- The slot may be taken for a preparation: a core that holds a profile or a preparation kept for a resumed thread is
taken only when no other is free, and never one that serves a swap ahead. -/
def State.slotUsable (s : State) (n k : Nat) (pl : Plan) : Bool :=
  let kept (j : Nat) : Bool := (s.slotSt n j).holds.isSome || (s.slotSt n j).prep.isSome
  s.slotFree n k && !pl.reused.contains k
    && (!kept k || !([0, 1, 2].any fun j => j != k && s.slotFree n j && !kept j && !pl.reused.contains j))

/-- The station starts preparing the core in slot `k` for the next swap that waits for one (R209, R211). A continuous swap
is prepared once its named tick and the phase of the core that will drive the outputs then are known, seeded for it (R163). -/
def State.prepStart (s : State) (n k : Nat) : State :=
  let t := s.stn n
  if !t.running || s.stnMode n != 1 then s
  else
    match s.wanted n t.path (s.planNow n) [] [] with
    | none => s
    | some (h, pl) =>
      if !s.slotUsable n k pl then s
      else
        match s.slot n k with
        | some c =>
          let ws := s.wordsFor n h.id h.prof
          let p := profileOf ws
          let theta := if p.cont then h.tick.bind fun kh => pl.drive.map fun d => d.loadTheta p kh else some (profileTheta p.phase)
          match theta with
          | none => s
          | some theta =>
            let s := ((s.loadCore c p.setting p.sub p.band theta (s.bandMode c)).loadPsi c p.cont).coreBoundary c
            (s.calPause c).modSlot n k fun x =>
              { x with prep := some ⟨h.id, h.prof, ws, if p.cont then h.tick else none⟩, settled := none, holds := none }
        | none => s

/-- A prepared core is LOCKED and its ungate hold is over: it is settled for its swap (R208). -/
def State.prepSettled (s : State) (n k : Nat) : State :=
  match s.slot n k, (s.slotSt n k).prep with
  | some c, some _ =>
    match (s.core c).lockAt with
    | some l =>
      if (s.core c).state == .locked && (s.slotSt n k).settled.isNone
          && decide (l + s.fld Fields.CORE_CFG_UGHOLD c * 64 ≤ s.elapsed) then
        (s.modSlot n k fun x => { x with settled := some s.elapsed }).modCore c fun x => { x with holdDone := true }
      else s
    | none => s
  | _, _ => s

/-! ## Hops as they release (R205 to R207, R218 to R235) -/

/-- A fault of a core stamped before the present tick fences the core in this tick's reaction (R218, R504). -/
def State.fenceStamped (s : State) (c : Nat) : Bool :=
  let w := s.win (windowIndex 3 c)
  s.raises.any fun r => r.fid.code == 3 && r.fid.inst == c && decide (r.at_ < s.elapsed)
    && (r.grace || (w.suppresses r).isNone) && w.effective r == 2

/-- The slot a swap released now may move to (R208, R218): prepared for it, or holding its coherent profile, settled
by two ticks ago, and not fenced by a fault stamped at the tick before. -/
def State.target (s : State) (n : Nat) (e : Effect) (prof : Nat) : Option Nat :=
  let t := s.stn n
  [0, 1, 2].find? fun k =>
    let x := s.slotSt n k
    k != t.liveSlot
      && (match s.slot n k with
          | some c => (s.core c).state == .locked && (s.core c).role == .blocking && !s.fenceStamped c
          | none => false)
      && (match x.settled with | some a => decide (a + 2 ≤ s.elapsed) | none => false)
      && ((match x.prep with
           | some p => p.hop == e.id && (match p.forTick with | some kt => kt == e.tick | none => true)
           | none => false)
          || (x.prep.isNone && x.holds == some prof && !(s.prof prof).cont))

/-- A swap is ready to be applied now (R206, R218, R224, R227). -/
def State.swapReady (s : State) (n : Nat) (e : Effect) (prof : Nat) : Bool :=
  !(profileOf (s.wordsFor n e.id prof)).valid || !s.hasBlocking n
    || ((match (s.stn n).lastSwap with | some k => decide (k + 16 ≤ s.now) | none => true) && (s.target n e prof).isSome)

/-- The predicted period of an output on a setting and divider set lies below its guard minimum (R235). -/
def State.planShort (s : State) (o : Nat) (x : Setting) (set : Nat) : Bool :=
  let m := if s.dsetDbl o set && s.smode o == 0 then 2 else 1
  decide (predPeriod x (s.dsetD o set) m < (s.minPeriod o : Rat))

/-- GUARD_PLAN of a hop (R235): noted on each output of the set, raised once. -/
def State.guardPlan (s : State) (n : Nat) (outs : List Nat) (x : Setting) (set : Nat) : State :=
  let bad := outs.any fun o => s.planShort o x set
  let s := s.each outs fun s o => s.modOut o fun y => { y with guardPlan := s.planShort o x set }
  if bad then s.raiseEvent (Src.stn_GUARD_PLAN n) 0 else s

/-- A bit of an output set outside STN_OUTMASK is ignored and raises OUTSET_MASKED (R220, R266). -/
def State.masked (s : State) (n : Nat) (outs : Word) : State :=
  if outs &&& ~~~ s.reg .STN_OUTMASK n = 0 then s
  else s.raiseEvent (Src.stn_OUTSET_MASKED n) 0

/-- The outputs of a set that the station may drive. -/
def State.ownOuts (s : State) (n : Nat) (outs : Word) : List Nat := bitsOf (outs &&& s.reg .STN_OUTMASK n) 32

/-- A hop moves an output to core `c` (R221, Table 4.2): crossbar, divider set and swing. Ψ is kept at a continuous hop of
an output that followed the driving core and keeps D and M, unless a restart of this tick has just moved k_r (Table 4.8). DESIGN
CHOICE (log entry 89): where D or M changes, k_r is the tick of release, which Table 4.2 gives beside k_h, also for a late hop. -/
def State.hopOutput (s : State) (o c : Nat) (p : Profile) (followed : Bool) : State :=
  let d := s.divOf o
  let m := s.mulOf o
  let s := s.outBoundary o
  let s := (s.setFld Fields.OUT_CFG_SRC o c).setFld Fields.OUT_CFG_DSEL o p.divsel
  let s := if p.amp = 255 then s else (s.setFld Fields.OUT_DRV_AMP o p.amp).modOut o fun x => { x with amp := p.amp }
  if d != s.divOf o || m != s.mulOf o then s.restartOut o s.now
  else if p.cont && followed && (s.out o).kr != s.now then s
  else s.recomputePsi o

/-- The released hop is counted and stamped, its outputs are noted (R199), and an idle of its core ends (R267). -/
def State.hopDone (s : State) (n c prof : Nat) (outs : Word) (cnt : Field) : State :=
  let s := s.bump cnt n 1
  let s := s.modStn n fun t => { t with lastHop := s.now, named := t.named ||| outs }
  let s := s.modCore c fun x => { x with idleUntil := none }
  let shown := s.liveCore n == some c || (s.stnMode n == 2 && s.slot n 0 == some c)
  if shown then s.modStn n fun t => { t with liveProf := prof } else s

/-- A hop that names a profile with VALID = 0, or a glide out of range, is dropped (R206, R229). -/
def State.dropHop (s : State) (n : Nat) (f : Fid) : State :=
  (s.raiseEvent f 0).bump Fields.STN_DROPCNT_COUNT n 1

/-- Ticks from now to the first tick after the switch point of an output that follows the live core (R210, R219), or after the end of a
SYSREF pulse that is high. -/
def State.switchTicks (s : State) (o : Nat) : Nat :=
  match s.waveOf o with
  | none => 0
  | some w =>
    let x := s.out o
    let b := if w.smode = 0 then max x.opens (w.firstRise s.now s.now)
      else match x.lastPulse w.period (ratCeil (w.phase s.now) - 1) with
        | some j => max s.now (w.pulse s.now j).end_
        | none => s.now
    (b.floor + 1 - s.now).toNat

/-- The ticks after a swap from which the core that leaves the live role is free (R210): after the last switch point,
never before Y + 2. -/
def State.freeTicks (s : State) (c : Nat) : Nat :=
  (s.outsOf c).foldl (fun m o => max m (s.switchTicks o)) 2

/-- An effect on outputs ends the declared idle of the cores that drive them (R267). -/
def State.endIdleOf (s : State) (outs : List Nat) : State :=
  s.each outs fun s o => match s.srcOf o with
    | some c => s.modCore c fun x => { x with idleUntil := none }
    | none => s

/-- A cold hop released now on the core `c` of slot `k` (R225 to R227): hop `id`, named for tick `kh`, for which a continuous offset is
taken even when the hop is late (R163, Table 4.8). DEDUCED (log entry 88). -/
def State.coldRelease (s : State) (n k c prof id kh : Nat) : State :=
  let p := profileOf (s.wordsFor n id prof)
  let t := s.stn n
  let s := s.masked n p.outset
  let outs := s.ownOuts n p.outset
  let fed := s.outsOf c
  let s := s.each (fed ++ outs) fun s o => s.modOut o fun x => { x with progGate := true }
  let s := s.endIdleOf (fed ++ outs)
  let x := s.core c
  let theta := x.loadTheta p kh
  let s := if x.role == .fenced then s
    else (if x.role == .split then (s.loadCore c p.setting p.sub p.band theta (s.bandMode c)).coreBoundary c
      else s.loadCore c p.setting p.sub p.band theta (s.bandMode c)).stage c p.setting p.sub p.band
  let s := s.loadPsi c p.cont
  let s := s.each outs fun s o => s.hopOutput o c p (fed.contains o)
  let hold := s.fld Fields.STN_CFG_COLDHOLD n
  let hold := if t.guaranteed then max hold 6000 else hold
  let s := s.modSlot n k fun y => { y with prep := none, settled := none, holds := if p.cont then none else some prof }
  let s := s.modStn n fun t =>
    { t with colds := t.colds.filter (fun w => w.slot != k)
        ++ (if hold = 0 then [] else [⟨k, s.now + hold, p.outset &&& s.reg .STN_OUTMASK n⟩]) }
  let s := if hold = 0 then s.each outs fun s o => s.modOut o fun x => { x with progGate := false } else s
  (s.guardPlan n outs p.setting p.divsel).hopDone n c prof (p.outset &&& s.reg .STN_OUTMASK n) Fields.STN_COLDCNT_COUNT

/-- The ticks from which a core that leaves the live role is settled for the profile it holds (R208, R214): its ungate hold is over. -/
def State.settledFrom (s : State) (c : Nat) : Option Nat :=
  match (s.core c).lockAt with
  | some l =>
    let t := l + s.fld Fields.CORE_CFG_UGHOLD c * 64
    if (s.core c).state == .locked && decide (t ≤ s.elapsed) then some t else none
  | none => none

/-- The settled core of slot `k` takes the outputs of the live core `c0` at the present tick (R219 to R223). A continuous swap keeps the
offset its core was seeded with, late or not (Table 4.8). A core that a spare is to replace comes back blocking (Table 5.7). -/
def State.swapTo (s : State) (n k c0 c : Nat) (e : Effect) (prof : Nat) : State :=
  let x := s.slotSt n k
  let ws := match x.prep with | some p => p.words | none => s.wordsFor n e.id prof
  let p := profileOf ws
  let t := s.stn n
  let old := s.core c0
  let free := s.freeTicks c0
  let s := s.masked n p.outset
  let outs := s.ownOuts n p.outset
  let fed := s.outsOf c0
  let s := if old.role == .fenced then s else s.endRace c0
  let s := s.stage c p.setting p.sub p.band
  let s := s.each outs fun s o => (s.hopOutput o c p (fed.contains o)).modOut o fun y => { y with progGate := false }
  let s := s.each (fed.filter fun o => !outs.contains o) fun s o => s.modOut o fun y => { y with progGate := true }
  let cold := t.colds.any fun w => w.slot == t.liveSlot
  let from_ := s.settledFrom c0
  let s := (s.setRole c .live n).setRole c0 .blocking n
  let s := s.modCore c0 fun y => { y with glide := none, fencedRole := if y.role == .fenced then .blocking else y.fencedRole }
  let s := s.modSlot n t.liveSlot fun y =>
    { y with prep := none, freeAt := s.elapsed + free, holds := if cold || old.glide.isSome then none else y.holds
             settled := if cold || old.glide.isSome || y.holds.isNone then none else from_ }
  let s := s.modSlot n k fun y => { y with prep := none, holds := if p.cont then none else some prof }
  let s := s.modStn n fun t =>
    { t with liveSlot := k, lastSwap := some s.now, colds := t.colds.filter fun w => w.slot != t.liveSlot }
  let s := s.guardPlan n outs p.setting p.divsel
  ((s.modCore c0 fun y => { y with idleUntil := none }).coreBoundary c0).hopDone n c prof (p.outset &&& s.reg .STN_OUTMASK n) Fields.STN_SWAPCNT_COUNT

/-- A swap released now (R206, R218 to R227). -/
def State.swapRelease (s : State) (n : Nat) (e : Effect) (prof : Nat) : State :=
  let t := s.stn n
  if !(profileOf (s.wordsFor n e.id prof)).valid then s.dropHop n (Src.stn_BAD_PROFILE n)
  else
    match s.slot n t.liveSlot with
    | none => s
    | some c0 =>
      if !s.hasBlocking n then (s.beginLevel (Src.stn_DEGRADED n) 0).coldRelease n t.liveSlot c0 prof e.id e.tick
      else
        match s.target n e prof with
        | some k => (match s.slot n k with | some c => s.swapTo n k c0 c e prof | none => s)
        | none => s

/-- The slot a cold hop, glide or idle acts on: the live slot of a ganged station, the named slot of a split one. -/
def State.hopSlot (s : State) (n slot : Nat) : Nat := if s.stnMode n = 1 then (s.stn n).liveSlot else slot

/-- A cold hop released now. -/
def State.coldHop (s : State) (n slot prof id kh : Nat) : State :=
  let k := s.hopSlot n slot
  if !(profileOf (s.wordsFor n id prof)).valid then s.dropHop n (Src.stn_BAD_PROFILE n)
  else match s.slot n k with | some c => s.coldRelease n k c prof id kh | none => s

/-- GUARD_PLAN of a glide (R235), on the outputs of its set that follow the core, with the divider sets in force. -/
def State.guardPlanGlide (s : State) (n : Nat) (outs : List Nat) (x : Setting) : State :=
  let bad := outs.any fun o => s.planShort o x (s.dsel o)
  let s := s.each outs fun s o => s.modOut o fun y => { y with guardPlan := s.planShort o x (s.dsel o) }
  if bad then s.raiseEvent (Src.stn_GUARD_PLAN n) 0 else s

/-- A glide released now (R228 to R232). A core that is not LOCKED restarts its acquisition on the target when the glide
ends (Table 5.7). -/
def State.glideRelease (s : State) (n slot prof id : Nat) : State :=
  let k := s.hopSlot n slot
  let p := profileOf (s.wordsFor n id prof)
  if !p.valid then s.dropHop n (Src.stn_BAD_PROFILE n)
  else
    match s.slot n k with
    | none => s
    | some c =>
      if (s.core c).role == .fenced then s
      else if !s.glideOk c p.setting then s.dropHop n (Src.stn_GLIDE_RANGE n)
      else
        let s := s.glideOn c p.setting p.gtime
        let s := s.stage c p.setting (s.fld Fields.CORE_NBAND_SUB c) (s.fld Fields.CORE_NBAND_BAND c)
        let s := s.modSlot n k fun y => { y with holds := none }
        let outs := (s.ownOuts n p.outset).filter fun o => s.srcOf o == some c
        (s.guardPlanGlide n outs p.setting).hopDone n c prof 0 Fields.STN_GLIDECNT_COUNT

end Sys2Proof.Machine
end

