-- ==== Sys2Proof/Machine/LeadCheck.lean ====
section
/-! DEFINITION. The lead check (spec/07, R292 to R301). A program is followed on every path with abstract values. A time
is a base plus a constant: base 0 is the start tick of R299, every later base the tick of an event instruction, known only
within its bounds. What can be the latest of several times is kept as the list of them. -/

namespace Sys2Proof.Machine

/-! ## Times on bases -/

/-- A base plus a constant. -/
structure LcTm where
  base : Nat
  off : Int
  deriving DecidableEq, Repr, Inhabited

/-- The latest of the listed times; nothing when empty. -/
abbrev LcBd := List LcTm

/-- Decision ticks and resolution ticks a value depends on (R247, R281). -/
structure LcDep where
  xs : LcBd
  rs : LcBd
  deriving DecidableEq, Repr, Inhabited

/-- A value: known or not, with what it depends on; `pend` marks a value an event instruction has yet to give (R282). -/
structure LcVal (α : Type) where
  val : Option α
  dep : LcDep
  pend : Bool
  deriving DecidableEq, Repr, Inhabited

/-- A core that is not live: free for preparation from `free`, counted as free for a decision as of `due` or later (R212),
and kept settled for a profile (R214). -/
structure LcCore where
  slot : Nat
  free : LcBd
  due : LcBd
  kept : Option Nat
  deriving DecidableEq, Repr, Inhabited

/-- An outcome followed before its decision resolves (R287, R297): the decision, and the instructions left to its stop. -/
structure LcAlt where
  dep : LcDep
  left : Nat
  deriving DecidableEq, Repr, Inhabited

/-- A state of the model. `low` holds, for bases i and j, the greatest known lower bound of i less j; `latest` is the base of
the last event instruction, `far` a base all of whose values are far. `hops` and `effs` are the named ticks of effects that
may hold the thread, newest last; `window` the event instructions that may not have committed, with the instructions since. `pdec` marks the predicates that
carry a decision tick (R247). -/
structure LcState where
  pc : Nat
  g : List (LcVal Word)
  t : List (LcVal LcTm)
  p : List (LcVal Bool)
  pdec : List Bool
  lc : List (LcVal (BitVec 16))
  lk : LcVal (BitVec 14)
  path : LcDep
  w : LcBd
  alt : Option LcAlt
  low : List (List (Option Int))
  latest : Nat
  far : Option Nat
  marks : List (Nat × LcTm)
  takes : List (Nat × LcDep)
  last : LcTm
  hasLast : Bool
  lastSwap : Option LcTm
  hops : LcBd
  effs : LcBd
  window : List (Nat × LcBd)
  cores : List LcCore
  liveKept : Option Nat
  liveSlot : Nat
  deriving DecidableEq, Repr, Inhabited

/-- Offsets from the latest base beyond this are far. -/
def lcFar : Int := 1048576

/-- The greatest known lower bound of base `i` less base `j`. -/
def LcState.lowOf (s : LcState) (i j : Nat) : Option Int :=
  if i = j then some 0 else (s.low.getD i []).getD j none

/-- The least value `a` less `b` can have, where one is known. -/
def LcState.margin (s : LcState) (a b : LcTm) : Option Int := (s.lowOf a.base b.base).map fun d => d + a.off - b.off

/-- `a` is at or before `b`, for every position of the bases. -/
def LcState.le (s : LcState) (a b : LcTm) : Bool :=
  match s.margin b a with
  | some d => decide (0 ≤ d)
  | none => false

def LcTm.add (a : LcTm) (k : Int) : LcTm := { a with off := a.off + k }
def bdAdd (b : LcBd) (k : Int) : LcBd := b.map (·.add k)

/-- A time in base order. -/
def bdInsert (e : LcTm) : LcBd → LcBd
  | [] => [e]
  | x :: xs => if e.base < x.base || (e.base == x.base && e.off < x.off) then e :: x :: xs else x :: bdInsert e xs

/-- One more time among those of which the latest counts; times known to be no later than another drop out. -/
def LcState.bdPut (s : LcState) (b : LcBd) (e : LcTm) : LcBd :=
  if b.any (s.le e ·) then b else bdInsert e (b.filter fun x => !s.le x e)

def LcState.join (s : LcState) (a b : LcBd) : LcBd := b.foldl s.bdPut a
def LcState.joinDep (s : LcState) (a b : LcDep) : LcDep := ⟨s.join a.xs b.xs, s.join a.rs b.rs⟩

/-- Every time of `a` is known to be at or before one of `b`. -/
def LcState.bdLe (s : LcState) (a b : LcBd) : Bool := a.all fun x => b.any (s.le x ·)

/-- A t value is far: its offset from the latest base exceeds 1,048,576 ticks. -/
def LcState.isFar (s : LcState) (y : LcTm) : Bool :=
  s.far == some y.base || (match s.margin y ⟨s.latest, 0⟩ with | some d => decide (lcFar < d) | none => false)

/-- A new base with its bounds: `lows j` is a lower bound of it less base j, `ups j` of base j less it. -/
def LcState.newBase (s : LcState) (lows ups : Nat → Option Int) : Nat × LcState :=
  let n := s.low.length
  (n, { s with low := (s.low.zipIdx.map fun (row, j) => row ++ [ups j]) ++ [((List.range n).map lows) ++ [some 0]] })

/-! ## Registers -/

def noDep : LcDep := ⟨[], []⟩
def LcVal.known {α : Type} (v : α) : LcVal α := ⟨some v, noDep, false⟩

def LcState.gv (s : LcState) (i : BitVec 4) : LcVal Word := if i = 0 then .known 0 else s.g.getD i.toNat (.known 0)
def LcState.tv (s : LcState) (i : BitVec 2) : LcVal LcTm := s.t.getD i.toNat default
def LcState.pv (s : LcState) (i : BitVec 2) : LcVal Bool := if i = 0 then .known true else s.p.getD i.toNat (.known false)
def LcState.lcv (s : LcState) (i : BitVec 1) : LcVal (BitVec 16) := s.lc.getD i.toNat (.known 0)
def LcState.setG (s : LcState) (i : BitVec 4) (v : LcVal Word) : LcState := if i = 0 then s else { s with g := s.g.set i.toNat v }
def LcState.setT (s : LcState) (i : BitVec 2) (v : LcVal LcTm) : LcState := { s with t := s.t.set i.toNat v }
def LcState.setP (s : LcState) (i : BitVec 2) (v : LcVal Bool) : LcState := if i = 0 then s else { s with p := s.p.set i.toNat v, pdec := s.pdec.set i.toNat (!v.dep.xs.isEmpty) }
def LcState.setLc (s : LcState) (i : BitVec 1) (v : LcVal (BitVec 16)) : LcState := { s with lc := s.lc.set i.toNat v }

/-- The g registers an instruction reads. -/
def QOp.gReads : QOp → List (BitVec 4)
  | .add _ a b | .sub _ a b | .and _ a b | .or _ a b | .xor _ a b | .shl _ a b | .shr _ a b | .cmp _ _ a b | .tset _ a b => [a, b]
  | .addi _ a _ | .andi _ a _ | .ori _ a _ | .xori _ a _ | .cmpi _ _ a _ | .taddr _ _ a _ => [a]
  | .shli _ a _ | .shri _ a _ => [a]
  | .ldi rd hi _ => if hi then [rd] else []
  | .ldlc _ arg => (match arg with | .reg a => [a] | .imm _ => [])
  | .lkmov toLk rr => if toLk then [rr] else []
  | .swap _ _ p | .cold _ _ p | .glide _ _ p => (match p with | .reg a => [a] | .imm _ => [])
  | .outg _ a _ | .dset _ a _ | .divrst _ a | .sysref _ a _ => [a]
  | .send0 _ a b _ _ | .send1 _ a b _ => [a, b]
  | _ => []

/-- The t registers an instruction reads other than as the tick it names or as the base of TADDI and TADDR. -/
def QOp.tReads : QOp → List (BitVec 2)
  | .tget _ ts _ => [ts]
  | .tcmp _ a b _ => [a, b]
  | .evtst _ tr _ _ | .waite _ _ tr _ _ | .evcnt _ tr _ _ => [tr]
  | .send0 _ _ _ tc _ | .send1 _ _ _ tc => [tc]
  | _ => []

/-- The predicates an instruction reads beside its guard. -/
def QOp.pReads : QOp → List (BitVec 2)
  | .plog _ a b _ _ _ => [a, b]
  | _ => []

/-- What an instruction's register operands depend on. -/
def LcState.operands (s : LcState) (op : QOp) : LcDep :=
  let d := op.gReads.foldl (fun d i => s.joinDep d (s.gv i).dep) noDep
  let d := op.tReads.foldl (fun d i => s.joinDep d (s.tv i).dep) d
  op.pReads.foldl (fun d i => s.joinDep d (s.pv i).dep) d

/-- The resolution ticks an instruction waits for (R283); none where it reads nothing pending. -/
def LcState.waitsFor (s : LcState) (op : QOp) : Option LcBd :=
  let ds := (op.gReads.filterMap fun i => if (s.gv i).pend then some (s.gv i).dep.rs else none)
    ++ (op.tReads.filterMap fun i => if (s.tv i).pend then some (s.tv i).dep.rs else none)
    ++ (op.pReads.filterMap fun i => if (s.pv i).pend then some (s.pv i).dep.rs else none)
  if ds.isEmpty then none else some (ds.foldl s.join [])

/-! ## Reach times (R297) -/

/-- An outcome followed early stops: what follows it waits for the decision to resolve (R287). -/
def LcState.stopAlt (s : LcState) : LcState :=
  match s.alt with
  | some a => { s with w := s.join s.w a.dep.rs, alt := none }
  | none => s

/-- An instruction that waits for a pending value stops an alternate path before it. -/
def LcState.waitUntil (s : LcState) (r : Option LcBd) : LcState :=
  match r with
  | some rs => let s := s.stopAlt
               { s with w := s.join s.w rs }
  | none => s

/-- The 64-instruction limit: the 64th instruction after an event instruction waits for it to commit (Table 7.2, R280). -/
def LcState.enter (s : LcState) : LcState :=
  let win := s.window.map fun (k, r) => (k + 1, r)
  { s with w := (win.filter fun x => decide (64 ≤ x.1)).foldl (fun b x => s.join b x.2) s.w
           window := win.filter fun x => decide (x.1 < 64) }

/-- An instruction has executed: its worst-corner time passes, and an alternate path has one instruction less to its stop. -/
def LcState.leave (s : LcState) (cost : Int) (stops : Bool) : LcState :=
  let s := { s with w := bdAdd s.w cost }
  match s.alt with
  | some a => if stops || a.left ≤ 1 then s.stopAlt else { s with alt := some { a with left := a.left - 1 } }
  | none => s

/-! ## Instructions that name no effect -/

/-- g[rd] := f of known operands, unknown otherwise. -/
def LcState.alu (s : LcState) (d : LcDep) (rd ra rb : BitVec 4) (f : Word → Word → Word) : LcState :=
  let v := match (s.gv ra).val, (s.gv rb).val with
    | some a, some b => some (f a b)
    | _, _ => none
  s.setG rd ⟨v, d, false⟩

def LcState.alui (s : LcState) (d : LcDep) (rd ra : BitVec 4) (f : Word → Word) : LcState :=
  s.setG rd ⟨(s.gv ra).val.map f, d, false⟩

/-- TCMP of two times, where every position of their bases gives one answer. -/
def LcState.tcmp (s : LcState) (cc : TCond) (a b : LcTm) : Option Bool :=
  let lt := match s.margin b a with | some d => decide (0 < d) | none => false
  let gt := match s.margin a b with | some d => decide (0 < d) | none => false
  let eq := a == b
  let ge := s.le b a
  match cc with
  | .eq => if eq then some true else if lt || gt then some false else none
  | .ne => if eq then some false else if lt || gt then some true else none
  | .ltu => if lt then some true else if ge then some false else none
  | .geu => if ge then some true else if lt then some false else none

/-- The mark of a source: the base, unless an instruction moved it. The mark kept is never later than the true one. -/
def LcState.mark (s : LcState) (src : Nat) : LcTm := ((s.marks.find? fun x => x.1 == src).map (·.2)).getD ⟨0, 0⟩

def LcState.setMark (s : LcState) (src : Nat) (m : LcTm) : LcState :=
  { s with marks := (s.marks.filter fun x => decide (x.1 < src)) ++ [(src, m)] ++ (s.marks.filter fun x => decide (src < x.1)) }

/-- A take of a source: what EVDATA returns depends on it. -/
def LcState.addTake (s : LcState) (src : Nat) (d : LcDep) : LcState :=
  let d := match s.takes.find? fun x => x.1 == src with | some x => s.joinDep x.2 d | none => d
  { s with takes := (s.takes.filter fun x => decide (x.1 < src)) ++ [(src, d)] ++ (s.takes.filter fun x => decide (src < x.1)) }

/-- The tick an event instruction asks about; a tick that is no base plus a constant becomes a base without bounds. -/
def LcState.askTick (s : LcState) (tr : BitVec 2) : LcTm × LcState :=
  match (s.tv tr).val with
  | some x => (x, s)
  | none =>
    let (n, s) := s.newBase (fun _ => none) (fun _ => none)
    (⟨n, 0⟩, s)

/-- What the results of an event instruction as of `x` depend on (R247, R281), reached at `s.w`. -/
def LcState.eventDep (s : LcState) (d : LcDep) (x : LcTm) : LcDep :=
  ⟨s.bdPut d.xs x, s.join (s.bdPut d.rs (x.add 6)) (bdAdd s.w 4)⟩

/-- The commit of an event instruction may hold the 64-instruction window. -/
def LcState.holdWindow (s : LcState) (d : LcDep) : LcState := { s with window := s.window ++ [(0, d.rs)] }

/-- EVTST and EVCNT take (m, X]: with K = 0 the mark moves to X. `empty` tells that the interval is known to be empty. -/
def LcState.takeAll (s : LcState) (src : Nat) (keep : Bool) (x : LcTm) (d : LcDep) : LcState :=
  if keep then s
  else
    let m := s.mark src
    let s := s.addTake src d
    if s.le x m then s else if s.le m x then s.setMark src x else s

/-- WAITE (R260): its tick is a new base in (m, X], or X where the interval is known to be empty. -/
def LcState.waite (s : LcState) (d : LcDep) (pd td tr : BitVec 2) (src : Nat) (keep : Bool) : LcState :=
  let (x, s) := s.askTick tr
  let m := s.mark src
  if s.le x m then
    let d := s.eventDep d x
    (((s.holdWindow d).setP pd ⟨some false, d, true⟩).setT td ⟨some x, d, true⟩)
  else
    let after := s.le (m.add 1) x
    let lows (j : Nat) : Option Int :=
      let a := s.margin (m.add 1) ⟨j, 0⟩
      if after then a
      else
        match a, s.margin x ⟨j, 0⟩ with
        | some a, some b => some (min a b)
        | _, _ => none
    let ups (j : Nat) : Option Int := s.margin ⟨j, 0⟩ x
    let known := s.le m x
    let (n, s) := s.newBase lows ups
    let s := { s with latest := n, far := none }
    let y : LcTm := ⟨n, 0⟩
    let d := s.eventDep d y
    let s := (((s.holdWindow d).setP pd ⟨none, d, true⟩).setT td ⟨some y, d, true⟩)
    if keep then s
    else
      let s := s.addTake src d
      if known then s.setMark src y else s

/-- An instruction that names no effect and does not branch, with its guard true; `d` is what its operands, its guard and
the path depend on. -/
def LcState.plain (s : LcState) (op : QOp) (d : LcDep) : LcState :=
  match op with
  | .add rd ra rb => s.alu d rd ra rb (· + ·)
  | .sub rd ra rb => s.alu d rd ra rb (· - ·)
  | .and rd ra rb => s.alu d rd ra rb (· &&& ·)
  | .or rd ra rb => s.alu d rd ra rb (· ||| ·)
  | .xor rd ra rb => s.alu d rd ra rb (· ^^^ ·)
  | .shl rd ra rb => s.alu d rd ra rb fun a b => a <<< (b.toNat % 32)
  | .shr rd ra rb => s.alu d rd ra rb fun a b => a >>> (b.toNat % 32)
  | .addi rd ra imm => s.alui d rd ra (· + imm.signExtend 32)
  | .andi rd ra imm => s.alui d rd ra (· &&& imm.setWidth 32)
  | .ori rd ra imm => s.alui d rd ra (· ||| imm.setWidth 32)
  | .xori rd ra imm => s.alui d rd ra (· ^^^ imm.setWidth 32)
  | .shli rd ra sh => s.alui d rd ra (· <<< sh.toNat)
  | .shri rd ra sh => s.alui d rd ra (· >>> sh.toNat)
  | .ldi rd hi imm =>
    if hi then s.alui d rd rd fun a => imm ++ a.extractLsb' 0 16 else s.setG rd ⟨some (imm.setWidth 32), d, false⟩
  | .cmp pd cc ra rb =>
    let v := match (s.gv ra).val, (s.gv rb).val with
      | some a, some b => some (cc.holds a b)
      | _, _ => none
    s.setP pd ⟨v, d, false⟩
  | .cmpi pd cc ra imm => s.setP pd ⟨(s.gv ra).val.map fun a => cc.holds a (imm.signExtend 32), d, false⟩
  | .plog pd pa pb na nb fn =>
    let v := match (s.pv pa).val, (s.pv pb).val with
      | some a, some b => some (fn.eval (a ^^ na) (b ^^ nb))
      | _, _ => none
    s.setP pd ⟨v, d, false⟩
  | .taddi td ts imm =>
    let t := s.tv ts
    s.setT td ⟨t.val.map (·.add imm.toNat), s.joinDep d t.dep, t.pend⟩
  | .taddr td ts ra sh =>
    let t := s.tv ts
    let v := match t.val, (s.gv ra).val with
      | some a, some n => some (a.add ((n.setWidth 64 : BitVec 64) <<< sh.toNat).toNat)
      | _, _ => none
    s.setT td ⟨v, s.joinDep d t.dep, t.pend⟩
  | .tset td _ _ => s.setT td ⟨none, d, false⟩
  | .tget rd _ _ => s.setG rd ⟨none, d, false⟩
  | .tcmp pd ta tb cc =>
    let v := match (s.tv ta).val, (s.tv tb).val with
      | some a, some b => s.tcmp cc a b
      | _, _ => none
    s.setP pd ⟨v, d, false⟩
  | .evtst pd tr src keep =>
    let (x, s) := s.askTick tr
    let d := s.eventDep d x
    let v := if s.le x (s.mark src.toNat) then some false else none
    ((s.holdWindow d).setP pd ⟨v, d, true⟩).takeAll src.toNat keep x d
  | .waite pd td tr src keep => s.waite d pd td tr src.toNat keep
  | .evcnt rd tr src keep =>
    let (x, s) := s.askTick tr
    let d := s.eventDep d x
    let v := if s.le x (s.mark src.toNat) then some 0 else none
    ((s.holdWindow d).setG rd ⟨v, d, true⟩).takeAll src.toNat keep x d
  | .evdata rd src =>
    match s.takes.find? fun x => x.1 == src.toNat with
    | some x => s.setG rd ⟨none, s.joinDep d x.2, true⟩
    | none => s.setG rd ⟨some 0, d, false⟩
  | .ldlc lc arg =>
    match arg with
    | .imm n => s.setLc lc ⟨some n, d, false⟩
    | .reg ra => s.setLc lc ⟨(s.gv ra).val.map (·.setWidth 16), d, false⟩
  | .lkmov toLk rr =>
    if toLk then { s with lk := ⟨(s.gv rr).val.map (·.setWidth 14), d, false⟩ }
    else s.setG rr ⟨s.lk.val.map (·.setWidth 32), s.joinDep d s.lk.dep, s.lk.pend⟩
  | _ => s

/-! ## The program and the station under check (Table 7.4) -/

/-- What the check reads: program words, mode, empty slots, the preparation bound, whether COLDHOLD covers it, and the
profiles that are valid and coherent, which it asks of those an immediate names only (R293). -/
structure LcEnv where
  word : Nat → Word
  ganged : Bool
  empty : Slot → Bool
  bound : Int
  coldOk : Bool
  coherent : Nat → Bool

/-- Checks of one instance: code and margin. -/
abbrev LcChecks := List (Nat × Int)

/-- The margin of `y` over `a + k`; −1 where the positions of the bases leave none. -/
def LcState.over_ (s : LcState) (y : LcTm) (k : Int) (a : LcTm) : Int :=
  match s.margin y a with
  | some d => d - k
  | none => -1

/-- ORDER, DECISION, REACH and SPACING of an effect named for `y` (Table 7.5); `w` is its reach time. -/
def LcState.effectChecks (s : LcState) (y : LcTm) (d : LcDep) (w : LcBd) (swap : Bool) : LcChecks :=
  if s.isFar y then
    (if !s.hasLast then [] else if s.last.base == y.base then [(1, y.off - s.last.off)] else [(11, -1)])
    ++ (match swap, s.lastSwap with
        | true, some z => if z.base == y.base then [(6, y.off - z.off - 16)] else [(11, -1)]
        | _, _ => [])
  else
    [(1, s.over_ y 0 s.last)] ++ d.xs.map (fun x => (2, s.over_ y 8 x))
    ++ (s.join w d.rs).map (fun r => (3, s.over_ y 2 r))
    ++ (match swap, s.lastSwap with
        | true, some z => [(6, s.over_ y 16 z)]
        | _, _ => [])

/-! ## Cores (R209 to R214, R298, R299) -/

/-- The better of two cores for a preparation that can start at `w`: the one free first, then one that is not kept. -/
def LcState.better (s : LcState) (w : LcBd) (a b : LcCore) : Bool :=
  let fa := s.join w a.free
  let fb := s.join w b.free
  let ab := s.bdLe fa fb
  if ab && s.bdLe fb fa then a.kept.isNone || b.kept.isSome else ab

/-- The core a preparation takes among those listed. -/
def LcState.pick (s : LcState) (w : LcBd) (cs : List LcCore) : Option LcCore :=
  cs.foldl (fun best c => match best with
    | none => some c
    | some b => if s.better w b c then some b else some c) none

/-- A core that counts as free by a decision (R212). -/
def LcState.countsFree (s : LcState) (xs : LcBd) (c : LcCore) : Bool := s.bdLe c.due xs

/-- The core kept settled for a profile (R214). -/
def LcState.keptFor (s : LcState) (prof : Option Nat) : Option LcCore :=
  match prof with
  | some p => s.cores.find? fun c => c.kept == some p
  | none => none

/-- The profile a hop loads its core for, where R214 can keep the core settled for it: one an immediate names, valid and
coherent. MODE and VALID of a profile that a g register names are no input of the check (R293), so its core keeps none. -/
def LcEnv.keep (env : LcEnv) : ProfArg → Option Nat
  | .imm p => if env.coherent p.toNat then some p.toNat else none
  | .reg _ => none

/-- A swap that the other outcome of a decision leads to as its next hop, and what its core would be kept for. -/
structure LcDemand where
  prof : Option Nat
  keep : Option Nat
  reach : LcBd

/-- The other outcome's swap takes a core before the decision resolves; the core is free again from the squash, and stays
settled for a coherent profile whose preparation was complete by the decision (R210, R212 to R214). -/
def LcState.yieldCore (s : LcState) (env : LcEnv) (dec : LcDep) (d : Option LcDemand) : LcState :=
  match d with
  | none => s
  | some d =>
    if (s.keptFor d.prof).isSome then s
    else
      match s.pick d.reach (s.cores.filter (s.countsFree dec.xs)) with
      | none => s
      | some c =>
        let start := s.join c.free d.reach
        let kept := if s.bdLe (bdAdd start env.bound) dec.xs then d.keep else none
        let c' : LcCore := { c with free := s.join c.free dec.rs, due := bdAdd dec.xs 6, kept := kept }
        { s with cores := s.cores.map fun x => if x.slot == c.slot then c' else x }

/-- The checks of a swap's preparation and the slot it moves to. `ctx` is the undecided decision it is reached under. -/
def LcState.prepare (s : LcState) (env : LcEnv) (y : LcTm) (prof : Option Nat) (d : LcDep) (w : LcBd) (ctx : Option LcBd) :
    LcChecks × Option LcCore :=
  match s.keptFor prof with
  | some c => ([], some c)
  | none =>
    let all := match ctx with
      | some xs => s.cores.filter (s.countsFree xs)
      | none => s.cores
    let far := s.isFar y
    match prof.isSome, s.pick w all with
    | true, some c =>
      (if far then [] else (s.join w c.free).map fun f => (4, s.over_ y (env.bound + 2) f), some c)
    | _, _ =>
      match s.pick [] s.cores with
      | none => ([(5, -1)], none)
      | some c =>
        let free := if prof.isSome then c.free else s.join c.free d.rs
        (if far then [] else
          d.xs.map (fun x => (5, s.over_ y 6000 x)) ++ free.map (fun f => (5, s.over_ y (env.bound + 2) f)), some c)

/-- Roles exchange at a swap named for `y`: the old live core is free from Y + 75 and counts as free from Y (R210). -/
def LcState.exchange (s : LcState) (c : LcCore) (y : LcTm) (keep : Option Nat) : LcState :=
  { s with cores := s.cores.map (fun x => if x.slot == c.slot then ⟨s.liveSlot, [y.add 75], [y], s.liveKept⟩ else x)
           liveSlot := c.slot, liveKept := keep }

/-! ## Effects -/

/-- The profile a hop names, where it is known. -/
def LcState.profOf (s : LcState) (a : ProfArg) : Option Nat :=
  match a with
  | .imm p => some p.toNat
  | .reg ra => (s.gv ra).val.map (·.toNat)

/-- A profile or flow known to be 4,096 or more raises RANGE: the instruction names no effect and the path ends. -/
def LcState.outOfRange (s : LcState) (op : QOp) : Bool :=
  let big (v : Option Nat) : Bool := match v with | some n => decide (4096 ≤ n) | none => false
  match op with
  | .swap _ _ a | .cold _ _ a | .glide _ _ a => big (s.profOf a)
  | .send0 _ _ rb _ _ | .send1 _ _ rb _ => big ((s.gv rb).val.map (·.toNat))
  | _ => false

/-- The limits of Table 7.2 on hops and on the holding queue: the effect `n` effects ago has released. -/
def LcState.release (s : LcState) (ys : LcBd) (n : Nat) : LcState :=
  { s with w := s.join s.w (ys.take (ys.length + 1 - n)) }

/-- An effect instruction, with its guard true: its checks and the state after it, none where the path ends. -/
def LcState.effect (s : LcState) (env : LcEnv) (op : QOp) (guard : LcDep) (cand : Option LcBd) : LcChecks × Option LcState :=
  match op.tickReg with
  | none => ([], some s)
  | some tr =>
    let s := s.release s.effs 32
    let s := if op.isHop && s.alt.isNone then s.release s.hops 3 else s
    let t := s.tv tr
    let d := s.joinDep (s.joinDep s.path guard) (s.joinDep t.dep (s.operands op))
    let w := bdAdd s.w 6
    let ctx := match cand with | some xs => some xs | none => s.alt.map fun a => a.dep.xs
    let next (s : LcState) : Option LcState := if op.isHalt then none else some s
    match t.val with
    | none => ([(8, -1)], next s)
    | some y =>
      let cks := s.effectChecks y d w op.isSwap
      let far := s.isFar y
      let (more, s) := match op with
        | .swap _ _ a =>
          let (m, c) := s.prepare env y (s.profOf a) d w ctx
          (m, match c with
              | some c => { s.exchange c y (env.keep a) with lastSwap := some y }
              | none => { s with lastSwap := some y })
        | .cold _ _ a =>
          (if far || env.coldOk then [] else [(7, -1)], if env.ganged then { s with liveKept := env.keep a } else s)
        | .glide .. => ([], { s with liveKept := none })
        | _ => ([], s)
      let s := { s with last := y, hasLast := true, effs := (s.effs ++ [y]).drop (s.effs.length + 1 - 32) }
      let s := if op.isHop then { s with hops := (s.hops ++ [y]).drop (s.hops.length + 1 - 3) } else s
      (cks ++ more, next s)

/-! ## One instruction -/

/-- What following one instruction gives: the checks of its instance, and the states after it. -/
structure LcOut where
  checks : LcChecks
  next : List LcState

/-- The pc after an instruction that does not branch; past the last index END is raised and the path ends. -/
def LcState.seq (s : LcState) : List LcState := if s.pc < 16383 then [{ s with pc := s.pc + 1 }] else []

def LcState.goto (s : LcState) (k : Nat) : List LcState := [{ s with pc := k }]

def LcState.steer (s : LcState) (d : LcDep) : LcState := { s with path := s.joinDep s.path d }

/-- The states after BR, CALL, RET or LOOP, its guard true (R261); `d` is what its guard depends on. -/
def LcState.branch (s : LcState) (op : QOp) (d : LcDep) : List LcState :=
  match op with
  | .br _ tgt => ((s.steer d).leave 6 false).goto tgt.toNat
  | .call tgt =>
    if s.pc < 16383 then
      let s := s.steer d
      (({ s with lk := ⟨some (BitVec.ofNat 14 (s.pc + 1)), s.path, false⟩ } : LcState).leave 6 false).goto tgt.toNat
    else []
  | .ret =>
    let s := (s.steer (s.joinDep d s.lk.dep)).leave 6 false
    match s.lk.val with
    | some k => s.goto k.toNat
    | none => (List.range 16384).flatMap s.goto
  | .loop lc tgt =>
    let c := s.lcv lc
    let s := s.steer (s.joinDep d c.dep)
    let put (v : Option (BitVec 16)) := s.setLc lc ⟨v, s.joinDep c.dep s.path, false⟩
    match c.val with
    | some n =>
      if n = 0 then (s.leave 4 false).seq
      else if n = 1 then ((put (some 0)).leave 4 false).seq
      else ((put (some (n - 1))).leave 6 false).goto tgt.toNat
    | none => ((put (some 0)).leave 4 false).seq ++ ((put none).leave 6 false).goto tgt.toNat
  | _ => s.seq

def QOp.isFlow : QOp → Bool
  | .br .. | .call .. | .ret | .loop .. => true
  | _ => false

/-- The instruction's guard does not let it execute. Its time is that of its class, a branch not taken a simple one. An
alternate path stops at a hop and before a HALT all the same (R287). -/
def LcState.skip (s : LcState) (op : QOp) (gd : LcDep) : List LcState :=
  let s := if op.isHalt then s.stopAlt else s
  let s := if op.isFlow then s.steer gd else s
  (s.leave (if op.isEffect then 6 else 4) op.isHop).seq

/-- The instruction executes, its guard true. -/
def LcState.run (s : LcState) (env : LcEnv) (i : QInstr) (gd : LcDep) (cand : Option LcBd) : LcOut :=
  let op := i.op
  let s := if op.isHalt then s.stopAlt else s
  let s := s.waitUntil (s.waitsFor op)
  let s := match op with
    | .ret => if s.lk.pend then s.waitUntil (some s.lk.dep.rs) else s
    | _ => s
  let form : Bool := !env.ganged && (match op with
    | .swap .. => true
    | .cold _ sl _ | .glide _ sl _ | .idle _ sl _ => env.empty sl
    | _ => false)
  if form then ⟨[(10, -1)], []⟩
  else if op.isFlow then ⟨[], s.branch op gd⟩
  else if op.isEffect then
    if s.outOfRange op then ⟨[], []⟩
    else
      let (cks, s') := s.effect env op gd cand
      ⟨cks, match s' with
            | some s => (s.leave 6 op.isHop).seq
            | none => []⟩
  else
    let d := s.joinDep (s.joinDep s.path gd) (s.operands op)
    ⟨[], ((s.plain op d).leave 4 false).seq⟩

/-- A predicate whose value an outcome gives. -/
def LcState.refine (s : LcState) (p : BitVec 2) (v : Bool) : LcState :=
  if p = 0 then s else { s with p := s.p.set p.toNat { s.pv p with val := some v } }

/-- A two-way decision although its guard is known: a BR or an effect whose guard carries a decision tick (R262). -/
def LcState.decides (s : LcState) (i : QInstr) : Bool :=
  (match i.op with | .br .. => true | op => op.isEffect) && s.pdec.getD i.guard.p.toNat false

/-- The instruction at the pc, when the path through it is the only one and it is no two-way decision. -/
def LcState.single (s : LcState) (env : LcEnv) : Option (QInstr × LcDep × LcState) :=
  match decodeQ (env.word s.pc) with
  | none => none
  | some i =>
    let gp := s.pv i.guard.p
    if i.op.slotIllegal env.ganged || gp.pend || s.decides i || i.op.isHalt || (s.waitsFor i.op).isSome then none
    else if gp.val.isSome then some (i, gp.dep, s)
    else none

/-- The swap an outcome leads to as its next hop before its alternate path stops (R212, R287). -/
def LcState.peek (env : LcEnv) : Nat → LcState → Option LcDemand
  | 0, _ => none
  | fuel + 1, s =>
    match s.single env with
    | none => none
    | some (i, gd, s) =>
      let s := s.enter
      if i.guard.passes ((s.pv i.guard.p).val.getD true) then
        if i.op.isHop then
          match i.op with
          | .swap _ _ a => some ⟨s.profOf a, env.keep a, bdAdd s.w 6⟩
          | _ => none
        else
          match (s.run env i gd none).next with
          | [s] => if s.alt.isNone then none else peek env fuel s
          | _ => none
      else
        match s.skip i.op gd with
        | [s] => if s.alt.isNone then none else peek env fuel s
        | _ => none

/-- Follow the instruction at the pc (R297): every outcome of a decision, each as though it were mispredicted, also where
the path fixes the outcome. -/
def LcState.follow (s : LcState) (env : LcEnv) : LcOut :=
  match decodeQ (env.word s.pc) with
  | none => ⟨[(10, -1)], []⟩
  | some i =>
    let gp := s.pv i.guard.p
    let open_ := gp.pend && (i.op.isBranch || i.op.isEffect)
    let s := s.enter
    let s := if open_ || s.decides i then s.stopAlt else if gp.pend then s.waitUntil (some gp.dep.rs) else s
    if i.op.slotIllegal env.ganged then ⟨[(10, -1)], []⟩
    else
      let early := open_ && !s.bdLe gp.dep.rs s.w
      let fork (s : LcState) : LcState := if early && i.op.isBranch then { s with alt := some ⟨gp.dep, 17⟩ } else s
      let look (s : LcState) : LcState := { s with alt := some ⟨gp.dep, 16⟩ }
      let can (side : Bool) : Bool := match gp.val with | some v => i.guard.passes v == side | none => true
      let yes := s.refine i.guard.p (!i.guard.neg)
      let no := s.refine i.guard.p i.guard.neg
      let cand := if early && i.op.isEffect then some gp.dep.xs else none
      let demandOf (l : List LcState) : Option LcDemand :=
        match l with
        | [s] => s.peek env 16
        | _ => none
      if !early then
        let out : LcOut := if can true then yes.run env i gp.dep cand else ⟨[], []⟩
        ⟨out.checks, out.next ++ (if can false then no.skip i.op gp.dep else [])⟩
      else if i.op.isBranch then
        let taken := ((fork yes).run env i gp.dep none).next
        let fallen := (fork no).skip i.op gp.dep
        ⟨[], (if can true then taken.map (·.yieldCore env gp.dep (demandOf fallen)) else [])
          ++ (if can false then fallen.map (·.yieldCore env gp.dep (demandOf taken)) else [])⟩
      else
        let mine : Option LcDemand := match i.op with
          | .swap _ _ p => some ⟨yes.profOf p, env.keep p, bdAdd yes.w 6⟩
          | _ => none
        let other := demandOf ((no.skip i.op gp.dep).map look)
        let out : LcOut := if can true then (yes.yieldCore env gp.dep other).run env i gp.dep cand else ⟨[], []⟩
        ⟨out.checks, out.next ++ (if can false then (no.yieldCore env gp.dep mine).skip i.op gp.dep else [])⟩

/-! ## Equal states (Table 7.5, code 11) -/

/-- Every time of a state, changed. -/
def LcState.mapTm (s : LcState) (f : LcTm → LcTm) : LcState :=
  let b (l : LcBd) : LcBd := (l.map f).foldl (fun acc e => bdInsert e acc) []
  let d (x : LcDep) : LcDep := ⟨b x.xs, b x.rs⟩
  { s with
    g := s.g.map fun v => { v with dep := d v.dep }
    t := s.t.map fun v => { v with val := v.val.map f, dep := d v.dep }
    p := s.p.map fun v => { v with dep := d v.dep }
    lc := s.lc.map fun v => { v with dep := d v.dep }
    lk := { s.lk with dep := d s.lk.dep }
    path := d s.path
    w := b s.w
    alt := s.alt.map fun a => { a with dep := d a.dep }
    marks := s.marks.map fun (k, m) => (k, f m)
    takes := s.takes.map fun (k, x) => (k, d x)
    last := f s.last
    lastSwap := s.lastSwap.map f
    hops := s.hops.map f
    effs := s.effs.map f
    window := s.window.map fun (k, r) => (k, b r)
    cores := s.cores.map fun c => { c with free := b c.free, due := b c.due } }

/-- The bases a state's times stand on. -/
def LcState.bases (s : LcState) : List Nat :=
  let b (l : LcBd) : List Nat := l.map (·.base)
  let d (x : LcDep) : List Nat := b x.xs ++ b x.rs
  s.g.flatMap (fun v => d v.dep) ++ s.t.flatMap (fun v => (v.val.map (·.base)).toList ++ d v.dep)
  ++ s.p.flatMap (fun v => d v.dep) ++ s.lc.flatMap (fun v => d v.dep) ++ d s.lk.dep ++ d s.path ++ b s.w
  ++ (match s.alt with | some a => d a.dep | none => []) ++ s.marks.map (fun x => x.2.base)
  ++ s.takes.flatMap (fun x => d x.2) ++ [s.last.base] ++ (s.lastSwap.map (·.base)).toList ++ b s.hops ++ b s.effs
  ++ s.window.flatMap (fun x => b x.2) ++ s.cores.flatMap fun c => b c.free ++ b c.due

/-- Drop what no later check can tell: dependencies the path tick covers, releases and commits that are past at the reach
time, and times from which a core has been free for a whole preparation. -/
def LcState.prune (s : LcState) (env : LcEnv) : LcState :=
  let past (e : LcTm) : Bool := s.w.any (s.le e ·)
  let old (e : LcTm) : Bool := s.w.any (s.le (e.add env.bound) ·)
  let cover (d : LcDep) : LcDep := if s.bdLe d.xs s.path.xs && s.bdLe d.rs s.path.rs then noDep else d
  let v {α : Type} (x : LcVal α) : LcVal α := if x.pend || x.val.isNone then x else { x with dep := cover x.dep }
  { s with
    g := s.g.map v, t := s.t.map v, p := s.p.map v, lc := s.lc.map v, lk := v s.lk
    hops := s.hops.filter (!past ·), effs := s.effs.filter (!past ·)
    window := s.window.filter fun x => !s.bdLe x.2 s.w
    cores := s.cores.map fun c => { c with free := c.free.filter (!old ·), due := c.due.filter (!old ·) } }

/-- Once the last effect is far, the times near it stand on a base of their own, at its named tick. -/
def LcState.rebase (s : LcState) : LcState :=
  if !s.hasLast || !s.isFar s.last || (s.far == some s.last.base && s.last.off == 0) then s
  else
    let y := s.last
    let old := s
    let (n, s) := s.newBase (fun j => old.margin y ⟨j, 0⟩) (fun _ => none)
    let all := s.far == some y.base
    let s := s.mapTm fun e => if e.base = y.base && (all || decide (y.off - lcFar < e.off)) then ⟨n, e.off - y.off⟩ else e
    { s with far := some n }

/-- The bound of a difference that is kept. -/
def clipLow (d : Option Int) : Option Int :=
  match d with
  | some d => if lcFar + 1 < d then some (lcFar + 1) else if d < -(lcFar + 1) then none else some d
  | none => none

/-- Bases that nothing stands on go; the others are numbered anew in their order. Base 0 and the latest one stay. -/
def LcState.renumber (s : LcState) : LcState :=
  if s.low.length = 1 then s
  else
  let used := s.bases
  let keep := (List.range s.low.length).filter fun i => i == 0 || i == s.latest || used.contains i
  let idx (i : Nat) : Nat := (keep.findIdx? (· == i)).getD 0
  let s' := s.mapTm fun e => { e with base := idx e.base }
  { s' with
    low := keep.map fun i => keep.map fun j => clipLow (s.lowOf i j)
    latest := idx s.latest
    far := match s.far with | some f => if keep.contains f then some (idx f) else none | none => none }

def LcState.canon (s : LcState) (env : LcEnv) : LcState := ((s.prune env).rebase).renumber

/-! ## The whole program -/

/-- The instance with the least slack (R301). -/
structure LcBest where
  slack : Int
  index : Nat
  reason : Nat
  deriving DecidableEq, Repr, Inhabited

/-- One more instance: the least slack counts, then the lowest index, then the first check that fails. -/
def LcBest.note (b : LcBest) (idx : Nat) (cks : LcChecks) : LcBest :=
  match cks with
  | [] => b
  | c :: cs =>
    let sl := cs.foldl (fun m x => min m x.2) c.2
    let bad := (c :: cs).filter fun x => decide (x.2 < 0)
    let r := bad.foldl (fun m x => if m = 0 then x.1 else min m x.1) 0
    if sl < b.slack || (sl == b.slack && idx < b.index)
        || (sl == b.slack && idx == b.index && r != 0 && (b.reason == 0 || r < b.reason)) then ⟨sl, idx, r⟩
    else b

/-- The bucket of a state among those already followed. -/
def LcState.bucket (s : LcState) : Nat :=
  let g := s.g.foldl (fun h v => h * 31 + (match v.val with | some w => w.toNat % 65536 | none => 7)) 0
  let k := s.cores.foldl (fun h c => h * 31 + (match c.kept with | some p => p + 2 | none => c.slot)) (g % 65521)
  (s.pc * 7919 + k * 31 + 131 * s.last.off.toNat + 17 * (s.w.foldl (fun h x => h + x.off.toNat) 0)
    + (s.lc.foldl (fun h v => h * 257 + (match v.val with | some w => w.toNat | none => 3)) 0)) % 65521

/-- The states already followed, by bucket, and the instruction indices reached. -/
structure LcSeen where
  states : Array (List LcState)
  pcs : Array Bool

def LcSeen.has (x : LcSeen) (s : LcState) : Bool := (x.states.getD s.bucket []).contains s
def LcSeen.add (x : LcSeen) (s : LcState) : LcSeen :=
  ⟨x.states.setIfInBounds s.bucket (s :: x.states.getD s.bucket []), x.pcs.setIfInBounds s.pc true⟩

def LcSeen.empty : LcSeen := ⟨Array.replicate 65521 [], Array.replicate 16384 false⟩

/-- The states after an instruction that have not been followed yet join those to follow. -/
def lcPush (env : LcEnv) (acc : List LcState × LcSeen) (s : LcState) : List LcState × LcSeen :=
  let s := s.canon env
  if acc.2.has s then acc else (s :: acc.1, acc.2.add s)

/-- Follow every state once; false is answered when 2^20 steps are not enough. -/
def lcExplore (env : LcEnv) : Nat → List LcState → LcSeen → LcBest → Bool × LcSeen × LcBest
  | _, [], seen, b => (true, seen, b)
  | 0, _ :: _, seen, b => (false, seen, b)
  | fuel + 1, s :: rest, seen, b =>
    let out := s.follow env
    let b := b.note s.pc out.checks
    let r := out.next.foldl (lcPush env) (rest, seen)
    lcExplore env fuel r.1 r.2 b

/-- The indices an instruction may continue at, without following its values. -/
def flowTargets (w : Word) (pc : Nat) (returns : List Nat) : List Nat :=
  match decodeQ w with
  | none => []
  | some i =>
    let seq := if pc < 16383 then [pc + 1] else []
    let always := i.guard.bits = 0#3
    match i.op with
    | .br _ tgt | .call tgt => if always then [tgt.toNat] else tgt.toNat :: seq
    | .loop _ tgt => tgt.toNat :: seq
    | .ret => if always then returns else returns ++ seq
    | .halt _ => if always then [] else seq
    | _ => seq

/-- The indices a program can reach when its values are not followed. -/
def flowReach (word : Nat → Word) (returns : List Nat) : Nat → List Nat → Array Bool → Array Bool
  | 0, _, seen => seen
  | _, [], seen => seen
  | fuel + 1, pc :: rest, seen =>
    let (todo, seen) := (flowTargets (word pc) pc returns).foldl (fun (acc : List Nat × Array Bool) k =>
      if acc.2.getD k true then acc else (k :: acc.1, acc.2.setIfInBounds k true)) (rest, seen)
    flowReach word returns fuel todo seen

/-- The indices a RET can return to when links are not followed: index 0 and after every CALL, or anywhere after LKMOV. -/
def flowReturns (word : Nat → Word) : List Nat :=
  let ops := (List.range 16384).filterMap fun k => (decodeQ (word k)).map fun i => (k, i.op)
  if ops.any fun x => match x.2 with | .lkmov toLk _ => toLk | _ => false then List.range 16384
  else 0 :: ops.filterMap fun x => match x.2 with | .call _ => some (x.1 + 1) | _ => none

/-! ## Inputs -/

/-- Loop bandwidth in kHz by code (Table 3.4). -/
def bandwidthKHz (code : Nat) : Nat :=
  [100, 150, 200, 300, 400, 500, 600, 800, 1000, 1200, 1500, 2000, 2500, 3000, 3500, 4000].getD code 1000

/-- The preparation bound of one core (R294); a part of a tick counts as a whole one. -/
def State.prepBound (s : State) (c : Nat) : Nat :=
  let bw := bandwidthKHz (s.fld Fields.CORE_CFG_BW c)
  2620 + max 2000 ((2000000 + bw - 1) / bw) + max 16 (s.fld Fields.CORE_LOCKCFG_LCNT c) + 64 * s.fld Fields.CORE_CFG_UGHOLD c

/-- R295 fails for a core. -/
def State.coreCfgBad (s : State) (c : Nat) : Bool :=
  s.fld Fields.CORE_CFG_FLTIME c != 12 || decide (4 < s.fld Fields.CORE_LOCKCFG_WINDOW c) || decide (s.fld Fields.CORE_CFG_UGHOLD c < 4)

/-- The model at the base (R299): after a fresh load slots 1 and 2 are free, and count as free, from T_s + 75 only. -/
def lcInitial (entry : Nat) (handoff : Bool) (slots : List Nat) (live : Nat) : LcState :=
  { pc := entry, g := List.replicate 16 (.known 0), t := List.replicate 4 (.known ⟨0, 0⟩), p := List.replicate 4 (.known false), pdec := List.replicate 4 false
    lc := List.replicate 2 (.known 0), lk := .known 0, path := noDep, w := [⟨0, 0⟩], alt := none, low := [[some 0]]
    latest := 0, far := none, marks := [], takes := [], last := ⟨0, 0⟩, hasLast := false, lastSwap := none, hops := []
    effs := [], window := []
    cores := (slots.filter (· != live)).map fun k =>
      let free : LcBd := [⟨0, if handoff then 0 else 75⟩]
      ⟨k, free, free, none⟩
    liveKept := none, liveSlot := live }

/-- The loader's verdict on a program (R301): check code, instruction index, slack, reach set, event sources and profiles
named by an immediate. -/
structure Verdict where
  reason : Nat
  index : Nat
  slack : Int
  reach : List Nat
  srcs : List Nat
  profs : List Nat
  deriving DecidableEq, Repr, Inhabited

/-- The lead check of a CHECK (R292 to R301), which takes COLDHOLD as guaranteed mode does, whichever mode is asked for
(R303). Checks of the station or the program as a whole report index 0. -/
def State.leadCheck (s : State) (j : CheckJob) : Verdict :=
  let n := j.station
  let word (i : Nat) : Word := s.pgmWord n (BitVec.ofNat 14 i)
  let cores := s.stationCores n
  let ganged := s.stnMode n == 1
  let bound : Nat := (cores.map s.prepBound).foldl max 0
  let hold := max 6000 (s.fld Fields.STN_CFG_COLDHOLD n)
  let env : LcEnv := ⟨word, ganged, fun sl => s.slotEmpty n sl, bound, decide (bound + 2 ≤ hold),
    fun p => (s.prof p).valid && !(s.prof p).cont⟩
  let slots := [0, 1, 2].filter fun k => (s.slot n k).isSome
  let live := if j.handoff then (s.stn n).liveSlot else 0
  let s0 := lcInitial j.entry.toNat j.handoff slots live
  let best : LcBest := ⟨0x7FFFFFFF, 0, 0⟩
  let best := if cores.any s.coreCfgBad then best.note 0 [(9, -1)] else best
  let (done, seen, best) := lcExplore env 1048576 [s0] (LcSeen.empty.add s0) best
  let best := if done then best else best.note 0 [(11, -1)]
  let flat := flowReach word (flowReturns word) 16385 [s0.pc] ((Array.replicate 16384 false).setIfInBounds s0.pc true)
  let pcs := (List.range 16384).filter fun k => (if done then seen.pcs else flat).getD k false
  let reach := (List.range 256).filter fun b => pcs.any fun k => k / 64 == b
  let best := if j.handoff && reach.any (s.stn n).reach.contains then best.note 0 [(12, -1)] else best
  let ops := pcs.filterMap fun k => (decodeQ (word k)).map (·.op)
  { reason := best.reason, index := best.index, slack := min best.slack 0x7FFFFFFF, reach := reach
    srcs := (ops.filterMap QOp.source).eraseDups
    profs := (ops.filterMap fun op => match op.prof? with | some (.imm p) => some p.toNat | _ => none).eraseDups }

end Sys2Proof.Machine
end

