-- ==== Sys2Proof/Machine/Program.lean ====
section
/-! DEFINITION. Program stores, loading and handing over (spec/07, R312 to R318), and sequencer threads taken out of
service (R276). -/

namespace Sys2Proof.Machine

/-! ## The program window (R312) -/

/-- The station and index PGM_ADDR names. -/
def State.pgmStation (s : State) : Nat := s.fld Fields.PGM_ADDR_STATION 0
def State.pgmIndex (s : State) : Nat := s.fld Fields.PGM_ADDR_INDEX 0

/-- INDEX increases after each PGM_DATA access when AUTOINC is set, wrapping from 16,383 to 0. -/
def State.pgmNext (s : State) : State :=
  if s.flag Fields.PGM_ADDR_AUTOINC 0 then s.setFld Fields.PGM_ADDR_INDEX 0 ((s.pgmIndex + 1) % 16384) else s

/-- A write of PGM_DATA (R312). -/
def State.writePgmData (s : State) (w : Word) : WRes :=
  let n := s.pgmStation
  let i := s.pgmIndex
  let t := s.stn n
  let hit := t.reach.contains (i / 64)
  let pend := match t.handoff with | some h => h.reach.contains (i / 64) | none => false
  if (t.running && hit) || pend then (.busy, s.pgmNext)
  else
    let s := if hit then s.unload n else s
    let s := if s.fencedEntry 16 (n * 16384 + i) then s else { s with pgm := s.pgm.set (n * 16384 + i) w }
    (.ok, s.pgmNext)

/-- A read of PGM_DATA: the word at INDEX. -/
def State.readPgmData (s : State) : Word × State := (s.pgm.get (s.pgmStation * 16384 + s.pgmIndex), s.pgmNext)

/-! ## CHECK (R302, R303, R313, R314) -/

/-- PGM_STAT.RESULT. -/
def State.pgmResult (s : State) (k : Nat) : State := s.setFld Fields.PGM_STAT_RESULT 0 k

/-- A write of PGM_CMD.CHECK: a fresh load is checked from index 0, a handoff from PGM_LOAD.ENTRY (R313, R314). -/
def State.pgmCheck (s : State) : WRes :=
  let n := s.pgmStation
  let hand := s.flag Fields.PGM_LOAD_KIND 0
  if s.check.isSome then (.busy, s.pgmResult 2)
  else
    let run := (s.stn n).run
    if (if hand then run == .running else run == .empty || run == .loaded || run == .stopped || run == .exception) then
      (.ok, { s with check := some ⟨n, hand, if hand then BitVec.ofNat 14 (s.fld Fields.PGM_LOAD_ENTRY 0) else 0, s.flag Fields.PGM_LOAD_MODE 0⟩ })
    else (.state, s.pgmResult 3)

/-- The loader finishes the lead check and accepts or refuses the program (R301 to R303). -/
def State.pgmCheckDone (s : State) : State :=
  match s.check with
  | none => s
  | some j =>
    let v := s.leadCheck j
    let s := { s with check := none }
    let s := (s.setFld Fields.PGM_STAT_INDEX 0 v.index).setFld Fields.PGM_STAT_REASON 0 v.reason
    let s := s.setReg .PGM_SLACK 0 (wordOfInt v.slack)
    let ok := v.reason = 0 || j.maySlip
    let s := s.pgmResult (if ok then 0 else 1)
    let t := s.stn j.station
    if j.handoff then
      if ok && t.run == .running then
        s.setStn j.station { t with handoff := some ⟨j.entry, !j.maySlip, v.reach, v.srcs, v.profs⟩, handoffAt := none }
      else s.setStn j.station { t with handoff := none, handoffAt := none }
    else if ok && !t.running then
      s.setStn j.station { t with run := .loaded, accepted := !j.maySlip, reach := v.reach, srcs := v.srcs }
    else s

/-! ## HANDOFF (R315, R318) -/

/-- A write of PGM_CMD.HANDOFF: the conditions of R315 in the order listed; without effect while a handoff is in progress (R21). -/
def State.pgmHandoff (s : State) : WRes :=
  let n := s.pgmStation
  let t := s.stn n
  let h := s.seqStartTick n
  match t.handoff with
  | none => (.state, s.pgmResult 3)
  | some p =>
    if t.handoffAt.isSome then (.ok, s)
    else if t.run != .running then (.state, s.pgmResult 3)
    else if h < s.now + 64 then (.late, s.pgmResult 4)
    else if p.guaranteed && s.flag Fields.TIME_STATE_BROKEN 0 then (.broken, s.pgmResult 5)
    else (.ok, (s.setStn n { t with handoffAt := some h }).pgmResult 0)

/-- A write of PGM_CMD: CHECK, then HANDOFF. -/
def State.writePgmCmd (s : State) (w : Word) : WRes :=
  let r : WRes := if bitOf w 0 then s.pgmCheck else (.ok, s)
  if bitOf w 1 then
    let r' := r.2.pgmHandoff
    (if r.1 = .ok then r'.1 else r.1, r'.2)
  else r

/-- An armed change to a profile that a pending program names changes the inputs of its check: PENDING clears (Table 7.8). -/
def State.dropHandoffs (s : State) (p : Nat) : State :=
  s.each (List.range 8) fun s n => s.modStn n fun t =>
    match t.handoff with
    | some h => if h.profs.contains p then { t with handoff := none, handoffAt := none } else t
    | none => t

/-- Blocks of the selected store in use, and outside every reach set (PGM_BLOCKS). -/
def State.pgmBlocks (s : State) : Word :=
  let t := s.stn s.pgmStation
  let used := ((List.range 256).filter fun b =>
    t.reach.contains b || (match t.handoff with | some h => h.reach.contains b | none => false)).length
  BitVec.ofNat 32 (used * 2 ^ 16 + (256 - used))

/-! ## Threads (R275, R276) -/

/-- The station a thread is bound to (SEQ_BIND). -/
def State.boundTo (s : State) (th : Nat) : Option Nat :=
  (List.range 8).find? fun n => getBits (s.reg .SEQ_BIND 0) (4 * n) 4 == th

/-- The thread bound to a station. -/
def State.threadOf (s : State) (n : Nat) : Nat := getBits (s.reg .SEQ_BIND 0) (4 * n) 4

/-- From a thread's fence until its spare resumes nothing of the station executes or commits. Work not committed is
discarded; preparations started stand (R276). -/
def State.threadDown (s : State) (n : Nat) : State :=
  let t := s.stn n
  if t.threadDown.isSome then s
  else if !t.running then s.modStn n fun t => { t with threadDown := some s.elapsed }
  else
    s.setStn n { t with
      threadDown := some s.elapsed
      thread := { t.thread with regs := t.comm, insts := [], forks := [] }
      slots := t.slots.map fun x =>
        { x with prep := x.prep.map fun p =>
            if t.queue.any fun e => e.id == p.hop then p else { p with hop := 0 } } }

/-- A parity or duplicate-check mismatch in thread `k` (R276): its check source raises and its station's work pauses. -/
def State.threadCheckFail (s : State) (k : Nat) : State :=
  if bitOf (s.reg .SEQ_THREADS 0) (16 + k) then s
  else
    let s := s.raiseEvent ⟨5, 0, k⟩ 0
    match s.boundTo k with
    | some n => s.threadDown n
    | none => s

/-- The spare threads that no station has been given yet, lowest first. -/
def State.freeThread (s : State) : Option Nat :=
  (List.range 10).find? fun j => bitOf (s.reg .SEQ_THREADS 0) j && !(s.stations.toList.any fun t => t.spareThread == some j)

/-- The station a thread is bound to, or is to take. -/
def State.servedBy (s : State) (k : Nat) : Option Nat :=
  match (List.range 8).find? fun n => (s.stn n).spareThread == some k with
  | some n => some n
  | none => s.boundTo k

/-- A thread is fenced (R276): the lowest-numbered spare will take its station, or with none left the station stops and
NO_SPARE_THREAD is raised. Whether a spare was found is answered. -/
def State.fenceThread (s : State) (k : Nat) : Bool × State :=
  let s := s.setReg .SEQ_THREADS 0 (setBit (setBit (s.reg .SEQ_THREADS 0) (16 + k) true) k false)
  let s := s.modWin (windowIndex 5 0) fun w => { w with inj := setBit w.inj k false, live := setBit w.live k false }
  match s.servedBy k with
  | none => (true, s)
  | some n =>
    let s := s.threadDown n
    match s.freeThread with
    | some j => (true, s.modStn n fun t => { t with spareThread := some j })
    | none =>
      let s := s.raiseEvent Src.seq_NO_SPARE_THREAD 0
      let s := s.modStn n fun t => { t with spareThread := none }
      (false, if (s.stn n).running then s.stopStation n .stopped else s)

/-- A spare thread takes the binding of a station and resumes it from its committed state (R276), with its SPARE_IN record;
the lapse of the fence ends (R522). -/
def State.threadResume (s : State) (n : Nat) : State :=
  match (s.stn n).spareThread with
  | none => s
  | some j =>
    let k := s.threadOf n
    let s := (s.setReg .SEQ_THREADS 0 (setBit (s.reg .SEQ_THREADS 0) j false)).setReg .SEQ_BIND 0
      (putBits (s.reg .SEQ_BIND 0) (4 * n) 4 j)
    let s := s.modStn n fun t => { t with spareThread := none, threadDown := none }
    let s := s.record 5 0 2 s.now (BitVec.ofNat 32 (fidBits ⟨5, k, 0⟩ * 2 ^ 16 + fidBits ⟨5, j, 0⟩))
    s.endLapses fun l => l.ends == .thread n

end Sys2Proof.Machine
end

