-- ==== Sys2Proof/Machine/Lanes.lean ====
section
/-! DEFINITION. Nosuden lanes (spec/09): training, message formats, routing by flow, time transfer, spare slices, and
the lane common registers. -/

namespace Sys2Proof.Machine

/-! ## Access -/

def State.lane (s : State) (n : Nat) : Lane := s.lanes[n]?.getD default
def State.setLane (s : State) (n : Nat) (l : Lane) : State := { s with lanes := s.lanes.setIfInBounds n l }
def State.modLane (s : State) (n : Nat) (f : Lane → Lane) : State := s.setLane n (f (s.lane n))
def State.modLng (s : State) (f : LaneGroup → LaneGroup) : State := { s with lng := f s.lng }

/-- A lane carries its classes: LINKED or TIMED, or in a planned move, which loses no frame (R405). -/
def Lane.carries (l : Lane) : Bool :=
  match l.state with
  | .linked | .timed => true
  | .steering => match l.move with | some m => m.planned | none => false
  | _ => false

/-- A lane is TIMED (Table 9.3); a planned move keeps it. -/
def Lane.isTimed (l : Lane) : Bool :=
  l.state == .timed || (l.state == .steering && (match l.move with | some m => m.planned && m.back == .timed | none => false))

/-- A lane is past EQ (LNG_DEVID). -/
def Lane.pastEq (l : Lane) : Bool :=
  match l.state with
  | .frame | .linked | .timed | .steering => true
  | _ => false

/-- A lane is upstream-facing: LN_CFG.ROLE 2; 0 and 3 are taken as 1 (R390). -/
def State.upstream (s : State) (n : Nat) : Bool := s.fld Fields.LN_CFG_ROLE n == 2

/-- The code of a lane state (Table 9.3). -/
def LaneSt.code : LaneSt → Nat
  | .off => 0 | .quiet => 1 | .waitSig => 2 | .cdr => 3 | .eq => 4 | .frame => 5 | .linked => 6 | .timed => 7
  | .steering => 8

/-- Enter a state of Table 9.3 at the present tick. -/
def State.laneTo (s : State) (n : Nat) (st : LaneSt) : State := s.modLane n fun l => { l with state := st, since := s.elapsed }

/-! ## CRC (R368, R376) -/

/-- One bit through a CRC register of `w` bits, most significant first, with no reflection. -/
def crcBit (w poly reg : Nat) (b : Bool) : Nat :=
  let top := decide (2 ^ (w - 1) ≤ reg)
  let r := reg * 2 % 2 ^ w
  if top != b then r ^^^ poly else r

/-- A CRC over bits, first bit first. -/
def crc (w poly init : Nat) (bits : List Bool) : Nat := bits.foldl (crcBit w poly) init

/-- Bits `lo` to `lo + n − 1` of a number, most significant first. -/
def bitsDown (v lo n : Nat) : List Bool := (List.range n).map fun i => v.testBit (lo + (n - 1 - i))

/-- The CRC-16 of R376 over bits [127:16] of a message or cell. -/
def crc16 (v : BitVec 128) : Nat := crc 16 0x1021 0xFFFF (bitsDown v.toNat 16 112)

/-- The CRC of a message or cell holds. -/
def crcHolds (v : BitVec 128) : Bool := crc16 v == v.toNat % 65536

/-- The CRC-8 of R368 over bits [107:8] of a time-transfer word (Table 9.8). -/
def ttCrcHolds (w : BitVec 108) : Bool := crc 8 0x07 0 (bitsDown w.toNat 8 100) == w.toNat % 256

/-- A 128-bit message or cell with its CRC filled in. -/
def sealed128 (v : Nat) : BitVec 128 :=
  let b : BitVec 128 := BitVec.ofNat 128 v
  BitVec.ofNat 128 (v + crc16 b)

/-! ## Message formats (Tables 9.6 and 9.7) -/

/-- The words of a class-0 message, KIND event. -/
def C0Msg.encode (m : C0Msg) : BitVec 128 :=
  sealed128 (2 ^ 124 + m.flow % 4096 * 2 ^ 112 + m.slot % 64 * 2 ^ 106 + m.hop % 8 * 2 ^ 103 + m.stamp % 2 ^ 48 * 2 ^ 48
    + m.payload.toNat * 2 ^ 16)

/-- KIND of a class-0 message. -/
def c0Kind (v : BitVec 128) : Nat := (v.extractLsb' 124 4).toNat

/-- The fields of a class-0 message. -/
def c0Decode (v : BitVec 128) : C0Msg :=
  ⟨(v.extractLsb' 112 12).toNat, (v.extractLsb' 106 6).toNat, (v.extractLsb' 103 3).toNat, (v.extractLsb' 48 48).toNat,
   v.extractLsb' 16 32⟩

/-- CLASS and FLOW of a cell, and the cell. -/
def cellClass (v : BitVec 128) : Nat := (v.extractLsb' 126 2).toNat
def cellDecode (v : BitVec 128) : Cell :=
  ⟨(v.extractLsb' 114 12).toNat, (v.extractLsb' 112 2).toNat, v.extractLsb' 16 96⟩

/-- The 128 bits of a cell of a class. -/
def Cell.encode (c : Cell) (cls : Nat) : BitVec 128 :=
  sealed128 (cls % 4 * 2 ^ 126 + c.flow % 4096 * 2 ^ 114 + c.pos % 4 * 2 ^ 112 + c.data.toNat * 2 ^ 16)

/-- POS of cell `i` of a message of `n` cells. -/
def posOf (i n : Nat) : Nat := if n = 1 then 0 else if i = 0 then 1 else if i + 1 = n then 3 else 2

/-- The cells of a body on a flow. -/
def bodyCells (flow : Nat) (b : Body) : List Cell := b.zipIdx.map fun (d, i) => ⟨flow, posOf i b.length, d⟩

/-- The tick nearest the count whose low 48 bits equal a carried stamp (R377). -/
def widen (now stamp : Nat) : Int :=
  let d : Int := ((stamp : Int) - now) % 2 ^ 48
  if d ≤ 2 ^ 47 then now + d else now + d - 2 ^ 48

/-- The content of a class-1 cell (R378). -/
def c1Data (word : Word) (tick : Nat) : BitVec 96 := BitVec.ofNat 96 (word.toNat * 2 ^ 64 + tick % 2 ^ 48 * 2 ^ 16)

/-! ## Slices (R404 to R407) -/

/-- The spare slice of a lane's group. -/
def spareOf (n : Nat) : Nat := if n < 8 then 16 else 17

/-- The lane a slice serves. -/
def State.laneOn (s : State) (sl : Nat) : Option Nat := (List.range 16).find? fun n => (s.lane n).slice == sl

/-- A slice is out of service. -/
def State.sliceBad (s : State) (sl : Nat) : Bool := s.lng.sliceFenced.getLsbD sl

/-- A spare is free: not fenced, serving no lane and no move under way to it. -/
def State.spareFree (s : State) (sp : Nat) : Bool :=
  !s.sliceBad sp && (s.laneOn sp).isNone
    && (List.range 16).all fun n => match (s.lane n).move with | some m => m.slice != sp | none => true

/-- The ticks since the phase of the device's frames (R387). -/
def State.frameTicks (s : State) : Nat := if s.lng.framed then s.elapsed - s.lng.framePhase else s.now

/-- A planned move is due on a lane that carries (R405, R407): the spare starts to take over, or NO_SPARE_SLICE is raised. -/
def State.planMove (s : State) (n : Nat) (cmd : Bool) : State :=
  let sp := spareOf n
  if s.spareFree sp then
    let back := (s.lane n).state
    (s.laneTo n .steering).modLane n fun l => { l with move := some ⟨sp, true, back, cmd⟩ }
  else s.raiseEvent (Src.lane_NO_SPARE_SLICE n) 0

/-- The spare takes over a lane, in a planned move at the start of a superframe (R405, R406). -/
def State.steerDone (s : State) (n : Nat) : State :=
  match (s.lane n).state, (s.lane n).move with
  | .steering, some m =>
    if m.planned then
      if s.frameTicks % 43520 ≠ 0 then s
      else (s.laneTo n m.back).modLane n fun l => { l with slice := m.slice, move := none }
    else (s.laneTo n .linked).modLane n fun l =>
      { l with move := none, frameLock := true, cdr := true, fast := false, valid := 0, heardAt := s.elapsed, freshAt := s.elapsed }
  | _, _ => s

/-- The lane leaves its frames: ALIGNED is clear when it was the timing source (R403). -/
def State.dropAligned (s : State) (n : Nat) : State :=
  if s.timingLane = some n then s.setFld Fields.LNG_TTSTAT_ALIGNED 0 0 else s

/-- The slice that serves a lane is fenced (Table 13.3, R406, R407): the group's spare takes the lane, which passes through
STEERING with a fast retrain; without a free spare the lane is left in OFF. Whether a spare took over is answered. -/
def State.fenceSlice (s : State) (n : Nat) : Bool × State :=
  let l := s.lane n
  let sp := match l.move with | some m => if m.planned then m.slice else spareOf n | none => spareOf n
  let free := s.spareFree sp || (match l.move with | some m => m.planned | none => false)
  let s := (s.dropAligned n).modLng fun g => { g with sliceFenced := g.sliceFenced ||| (BitVec.ofNat 18 (2 ^ l.slice)) }
  if free && l.slice != sp then
    let s := s.modLane n fun l => { l with slice := sp, frameLock := false, cdr := false, fast := true, valid := 0 }
    if l.state == .off then (true, s)
    else (true, (s.laneTo n .steering).modLane n fun l => { l with move := some ⟨sp, false, .linked, false⟩ })
  else
    let s := s.raiseEvent (Src.lane_NO_SPARE_SLICE n) 0
    (false, (s.laneTo n .off).modLane n fun l => { l with frameLock := false, cdr := false, move := none, valid := 0 })

/-! ## Training (R371 to R374) -/

/-- A timeout or a loss of a lock returns a lane to WAIT_SIG (R372). -/
def State.retrain (s : State) (n : Nat) (keepCdr : Bool) : State :=
  let s := (s.dropAligned n).bump Fields.LN_TRAIN_RETRAIN n 1
  let s := s.raiseEvent (Src.lane_TRAIN_FAIL n) 0
  (s.laneTo n .waitSig).modLane n fun l =>
    { l with frameLock := false, cdr := l.cdr && keepCdr, move := none, fast := false, valid := 0 }

/-- At most two lanes are upstream-facing (R390). -/
def State.thirdUpstream (s : State) (n : Nat) (w : Word) : Bool :=
  getBits w 29 2 == 2 && decide (2 ≤ ((List.range 16).filter fun m => m != n && s.upstream m).length)

/-- A lane turns on into QUIET, unless its slice is fenced. -/
def State.laneOn_ (s : State) (n : Nat) : State :=
  if s.sliceBad (s.lane n).slice then s else (s.laneTo n .quiet).modLane n fun l => { l with roleRaised := false }

/-- A lane turns off. -/
def State.laneOff (s : State) (n : Nat) : State :=
  let s := ((s.dropAligned n).laneTo n .off).modLane n fun l =>
    { l with frameLock := false, cdr := false, move := none, fast := false, valid := 0 }
  (s.endLevel (Src.lane_LOS n)).endLevel (Src.lane_EYE_LOW n)

/-- A host write of LN_CFG (R372, R390): EN turns the lane on into QUIET, or off. In STANDBY it is only stored (R489). -/
def State.writeLaneCfg (s : State) (n : Nat) (w : Word) : WRes :=
  if s.thirdUpstream n w then (.range, s)
  else
    let was := s.flag Fields.LN_CFG_EN n
    let s := s.setReg .LN_CFG n (w &&& 0xF8FF0000#32)
    if !s.active || bitOf w 31 == was then (.ok, s)
    else (.ok, if was then s.laneOff n else s.laneOn_ n)

/-- QUIET has lasted 1 ms. -/
def State.quietEnd (s : State) (n : Nat) : State :=
  if (s.lane n).state == .quiet && decide ((s.lane n).since + usTicks 1000 ≤ s.elapsed) then s.laneTo n .waitSig else s

/-- Signal is detected in WAIT_SIG. -/
def State.signalDetect (s : State) (n : Nat) : State :=
  if (s.lane n).state == .waitSig then (s.endLevel (Src.lane_LOS n)).laneTo n .cdr else s

/-- The peer's symbol clock is recovered: in CDR, or in the fast retrain of a slice change. -/
def State.cdrLock (s : State) (n : Nat) : State :=
  let l := s.lane n
  let fast := l.state == .steering && (match l.move with | some m => !m.planned | none => false)
  if l.state == .cdr || fast then
    (s.laneTo n .eq).modLane n fun l => { l with cdr := true, fast := fast, move := none, roleRaised := false }
  else s

/-- CDR lock is lost in a state that depends on it. -/
def State.cdrLoss (s : State) (n : Nat) : State :=
  match (s.lane n).state with
  | .eq | .frame | .linked | .timed => s.retrain n false
  | .steering => if (s.lane n).carries then s.retrain n false else s
  | _ => s.modLane n fun l => { l with cdr := false }

/-- Both ends of a link are ready (Table 9.4, R370, R374): `peer` is the control word last received. Without a device ID the
lane stays in EQ; when the roles do not pair it stays and raises PEER_ROLE once. -/
def State.eqDone (s : State) (n : Nat) (peer : Word) (pre post ctle : Nat) : State :=
  if (s.lane n).state != .eq || !bitOf peer 23 then s
  else
    let s := ((s.setFld Fields.LN_EQ_TXPRE n pre).setFld Fields.LN_EQ_TXPOST n post).setFld Fields.LN_EQ_CTLE n ctle
    let s := s.modLane n fun l => { l with peerLane := getBits peer 16 4, peerId := getBits peer 0 16 }
    let pairs := s.upstream n != (getBits peer 20 2 == 2)
    if !pairs then
      if (s.lane n).roleRaised then s
      else (s.raiseEvent (Src.lane_PEER_ROLE n) 0).modLane n fun l => { l with roleRaised := true }
    else if s.fld Fields.LNG_DEVID_ID 0 == 0 then s
    else (s.laneTo n .frame).modLane n fun l => { l with fecOn := s.flag Fields.LN_CFG_FEC n || bitOf peer 22 }

/-- The timeout of a lane's state in ticks (Table 9.3). -/
def Lane.timeout (l : Lane) : Option Nat :=
  match l.state with
  | .cdr | .frame => some (usTicks 1000)
  | .eq => some (if l.fast then usTicks 1000 else usTicks 100000)
  | .steering => some (usTicks 2000)
  | _ => none

/-- A training state's timeout expires. -/
def State.trainTimeout (s : State) (n : Nat) : State :=
  match (s.lane n).timeout with
  | some t => if (s.lane n).since + t ≤ s.elapsed then s.retrain n true else s
  | none => s

/-- The repeat offset O of a lane in 0.01 ns (R387), within the limits the rule gives. -/
def State.repeatOffset (s : State) (n : Nat) (fec : Bool) : Nat :=
  (if fec then 6850 else 2250) + (Config.repeatOffset n s.elapsed).val

/-- The frames of every transmitting lane take the phase of the timing source `src` (R387, R403). DESIGN CHOICE (log entry 107): no row
brings the arrival of the source's frame 0, so the phase is counted from this tick. -/
def State.frameTo (s : State) (src : Nat) : State :=
  let fec := (s.lane src).fecOn
  let s := s.modLng fun g => { g with framed := true, framePhase := s.elapsed }
  let s := s.setFld Fields.LNG_TTSTAT_ALIGNED 0 1
  s.each (List.range 16) fun s n => s.setFld Fields.LN_C0LAT_O n (s.repeatOffset n fec)

/-- Four good frames give frame lock (R371): the lane is LINKED, and a timing source LINKED for the first time sets the
frame phase of the device. -/
def State.frameLock (s : State) (n : Nat) : State :=
  if (s.lane n).state != .frame then s
  else
    let s := (s.laneTo n .linked).modLane n fun l =>
      { l with frameLock := true, fast := false, valid := 0, heardAt := s.elapsed, freshAt := s.elapsed }
    if s.timingLane = some n && !s.lng.framed then s.frameTo n else s

/-- Four bad frames lose frame lock (R371): the lane retrains; the recovered clock goes on (R403). -/
def State.frameLoss (s : State) (n : Nat) : State := if (s.lane n).carries then s.retrain n true else s

/-- Signal detect is lost (R410): LOS in LINKED or TIMED, and the lane returns to WAIT_SIG. -/
def State.signalLoss (s : State) (n : Nat) : State :=
  if (s.lane n).carries then (s.beginLevel (Src.lane_LOS n) 0).retrain n false
  else match (s.lane n).state with
    | .cdr | .eq | .frame => s.retrain n false
    | _ => s

/-- A reading of the eye margin (R405, R410). -/
def State.eyeReading (s : State) (n eye : Nat) : State :=
  let s := s.setFld Fields.LN_MARGIN_EYE n eye
  let low := decide (eye < s.fld Fields.LN_MARGIN_MIN n)
  let fresh := low && !s.isLive (Src.lane_EYE_LOW n)
  let s := s.setLevel (Src.lane_EYE_LOW n) 0 low
  if fresh && s.flag Fields.LN_CFG_AUTOSTEER n && ((s.lane n).state == .linked || (s.lane n).state == .timed) then s.planMove n false
  else s

/-! ## Routing (R379 to R386) -/

/-- The entry of a flow table: source 0 to 15 a lane, 16 local origination (R380). -/
def State.flowEntry (s : State) (src flow : Nat) : Word := s.lng.flows.get (src * 4096 + flow % 4096)

/-- The lanes an entry names that carry (R380). -/
def State.lanesOf (s : State) (e : Word) : List Nat := (bitsOf e 16).filter fun n => (s.lane n).carries

/-- A class-0 message is dropped on account of a lane. -/
def State.c0Drop (s : State) (n : Nat) : State := (s.bump Fields.LN_CNT_C0DROP n 1).raiseEvent (Src.lane_C0_DROP n) 0

/-- Slot `k` of a lane is enabled and its LN_C0SRC names `src` (R382). -/
def State.slotFrom (s : State) (n k src : Nat) : Bool :=
  bitOf (s.reg .LN_CFG n) (16 + k) && getBits (s.reg .LN_C0SRC n) (4 * k) 4 == src

/-- A class-0 message reaches the event board of every station (R385, R47): a carried tick already closed is restamped with
the first tick still open, counted and entered. -/
def State.deliverC0 (s : State) (m : C0Msg) : State :=
  let x := widen s.now m.stamp
  let late := decide (x + 2 ≤ s.now)
  let stamp := if late then s.now - 1 else x.toNat
  let s := if late then
      (s.bump Fields.TIME_LATEIN_COUNT 0 1).raiseAs Src.time_LATE_IN stamp (BitVec.ofNat 32 m.stamp) false false
    else s
  s.each (List.range 8) fun s n => s.postEvent n ⟨8 + m.slot, stamp, m.payload⟩

/-- The outgoing frame, counted from the frame phase, in which a message of lane `i` leaves lane `j` (R388): the one that begins
O after its incoming frame on an aligned repeat, otherwise the first that begins once the codeword has been received and
checked. A frame is 2,176/45 ticks long, and O is held in 0.01 ns. -/
def State.repeatFrame (s : State) (i j : Nat) : Nat :=
  if s.timingLane = some i && s.flag Fields.LNG_TTSTAT_ALIGNED 0 then
    45 * (200 * s.frameTicks + s.fld Fields.LN_C0LAT_O j) / (200 * 2176)
  else (45 * s.frameTicks + 2175) / 2176

/-- A class-0 message from lane `i` in slot `k` is forwarded on lane `j` (R382, R384, R388). -/
def State.forwardC0 (s : State) (i k : Nat) (m : C0Msg) (flow j : Nat) : State :=
  if j = i ∨ !s.slotFrom j k i ∨ m.hop = 7 then s.c0Drop j
  else
    let f := s.repeatFrame i j
    s.modLane j fun l =>
      { l with sent := l.sent.setIfInBounds k { m with flow := flow, hop := m.hop + 1 }.encode, sentIn := l.sentIn.setIfInBounds k f }

/-- The codeword of a frame: 1 corrected, 2 uncorrectable (R370). -/
def State.codeword (s : State) (n code : Nat) : State :=
  if !(s.lane n).fecOn then s
  else if code = 1 then s.bump Fields.LN_FECCNT_CORR n 1
  else if code = 2 then (s.bump Fields.LN_FECCNT_UNCORR n 1).raiseEvent (Src.lane_FEC_UNCORR n) 0
  else s

/-- A class-0 message arrives on lane `i` in slot `k` (R376, R380 to R386). -/
def State.c0Receive (s : State) (i k : Nat) (v : BitVec 128) (code : Nat) : State :=
  if !(s.lane i).carries then s
  else
    let s := s.codeword i code
    if !crcHolds v then s.bump Fields.LN_CNT_C0CRC i 1
    else if c0Kind v != 1 then s
    else
      let m := c0Decode v
      let e := s.flowEntry i m.flow
      if !bitOf e 31 then s.c0Drop i
      else
        let s := s.each (s.lanesOf e) fun s j => s.forwardC0 i k m (getBits e 16 12) j
        if bitOf e 30 then s.deliverC0 m else s

/-- Put the cells of a message on a lane's queue of its class, or drop the message whole (R379). -/
def State.queueCells (s : State) (cls : Nat) (cs : List Cell) (n : Nat) : State :=
  let q := (s.lane n).cells[cls - 1]?.getD []
  if 256 < q.length + cs.length then s.bump Fields.LN_CNT_CDROP n 1
  else s.modLane n fun l => { l with cells := l.cells.setIfInBounds (cls - 1) (q ++ cs) }

/-- A class-1 word delivered locally (R385). -/
def State.deliverC1 (s : State) (i flow : Nat) (d : BitVec 96) : State :=
  if 256 ≤ s.lng.words.length then s.bump Fields.LNG_C1STAT_DROP 0 1
  else
    let t := (widen s.now (d.extractLsb' 16 48).toNat % 2 ^ 64).toNat
    s.modLng fun g => { g with words := g.words ++ [⟨d.extractLsb' 64 32, t, flow, i⟩] }

/-- A message of class 1 to 3 arrives on lane `i` as its cells; `local_` takes a delivered body of class 2 or 3 (R380, R385,
R386). A message with a cell whose CRC fails is discarded. -/
def State.cellReceive (s : State) (i : Nat) (vs : List (BitVec 128)) (code : Nat)
    (local_ : State → Nat → Body → State) : State :=
  match vs with
  | [] => s
  | v :: _ =>
    let cls := cellClass v
    if !(s.lane i).carries || cls == 0 then s
    else
      let s := s.codeword i code
      if !vs.all crcHolds then s
      else
        let flow := (cellDecode v).flow
        let body := vs.map fun u => (cellDecode u).data
        let e := s.flowEntry i flow
        if !bitOf e 31 then s.bump Fields.LN_CNT_CDROP i 1
        else
          let s := s.each (s.lanesOf e) (State.queueCells · cls (bodyCells (getBits e 16 12) body))
          if !bitOf e 30 then s
          else if cls = 1 then body.foldl (fun (s : State) d => s.deliverC1 i flow d) s
          else local_ s cls body

/-- A message of class 1 to 3 originates locally on an entry of table 16 (R381). -/
def State.sendCells (s : State) (cls flow : Nat) (body : Body) : State :=
  let e := s.flowEntry 16 flow
  if !bitOf e 31 then s
  else s.each (s.lanesOf e) (State.queueCells · cls (bodyCells (getBits e 16 12) body))

/-- A SEND0 released now (R381, R383): the message waits in the queue of each lane its entry names. -/
def State.send0 (s : State) (payload : Word) (carried slot flow : Nat) : State :=
  let e := s.flowEntry 16 flow
  if !bitOf e 31 then s
  else
    let m : C0Msg := ⟨getBits e 16 12, slot, 0, carried % 2 ^ 48, payload⟩
    s.each (s.lanesOf e) fun s n =>
      if 16 ≤ (s.lane n).own.length then s.c0Drop n
      else s.modLane n fun l => { l with own := l.own ++ [⟨m, s.elapsed⟩] }

/-- A SEND1 released now (R378, R381). -/
def State.send1 (s : State) (word : Word) (tick flow : Nat) : State := s.sendCells 1 flow [c1Data word tick]

/-- The tick `t` of the frame phase in 1/225 ticks, from the start of slot `k` of frame 0: a frame is 10,880 of them long, and slot k
starts at its bit 4,116 + 128 k, a bit being 2 of them (R363, R367). -/
def slotTime (t k : Nat) : Int := 225 * t + 224 - 2 * (4116 + 128 * k)

/-- Class-0 slot `k` of a frame starts at the ball in the present tick, and which frame that is. -/
def State.slotFrame (s : State) (k : Nat) : Option Nat :=
  let d := slotTime s.frameTicks k
  if 0 ≤ d ∧ d % 10880 < 225 then some (d / 10880).toNat else none

/-- A slot open to local origination starts at the ball at least 4 ns after the oldest waiting message's tick: it takes the
message (R383). -/
def State.c0Transmit (s : State) (n k : Nat) : State :=
  match (s.lane n).own, s.slotFrame k with
  | m :: rest, some f =>
    if (s.lane n).carries && s.slotFrom n k n && decide (m.at_ + 2 ≤ s.elapsed) then
      s.modLane n fun l =>
        { l with own := rest, sent := l.sent.setIfInBounds k m.msg.encode, sentIn := l.sentIn.setIfInBounds k f }
    else s
  | _, _ => s

/-- The next cell of a class in round-robin order of flows, after the flow last served. -/
def nextCell (served : Nat) (q : List Cell) : Option Cell :=
  let flows := q.map Cell.flow
  let above := flows.filter (served < ·)
  let f := match above.min? with | some f => some f | none => flows.min?
  match f with
  | some f => q.find? fun c => c.flow == f
  | none => none

/-- Send up to `k` cells of a class from a lane; `n` cells stay unsent of the frame. -/
def Lane.sendClass (l : Lane) (cls : Nat) : Nat → Nat → Nat × Lane
  | 0, n => (n, l)
  | k + 1, n =>
    if n = 0 then (0, l)
    else
      let q := l.cells[cls]?.getD []
      match nextCell (l.served[cls]?.getD 0) q with
      | some c =>
        Lane.sendClass { l with cells := l.cells.setIfInBounds cls (q.erase c), served := l.served.setIfInBounds cls c.flow }
          cls k (n - 1)
      | none => (n, l)

/-- The 31 cells of a frame leave a lane (R367, R379). -/
def Lane.sendFrame (l : Lane) (c2 c3 : Nat) : Lane :=
  let (n, l) := l.sendClass 1 c2 31
  let (n, l) := l.sendClass 2 c3 n
  let (n, l) := l.sendClass 0 31 n
  let (n, l) := l.sendClass 1 31 n
  (l.sendClass 2 31 n).2

/-- A frame begins at the present tick: 45 frames last 2,176 ticks (R367, R387). -/
def State.frameStarts (s : State) : Bool :=
  decide (45 * s.frameTicks % 2176 < 45)

/-! ## Time transfer (R392 to R399) -/

/-- The timing source sends no usable depth (R393). -/
def State.badDepth (s : State) (n : Nat) : Bool := decide (8 ≤ (s.lane n).peerDepth)

/-- The device's own timing depth (R392, R393). -/
def State.ownDepth (s : State) : Nat :=
  match s.timingLane with
  | some n => if s.badDepth n then 15 else (s.lane n).peerDepth + 1
  | none => 0

/-- 2^AVG results; AVG above 10 is taken as 10. -/
def State.avgCount (s : State) : Nat := 2 ^ min 10 (s.fld Fields.LNG_TTCFG_AVG 0)

/-- θ_f of a lane: the mean of its last 2^AVG valid results (R396). -/
def State.thetaF (s : State) (n : Nat) : Rat :=
  let l := (s.lane n).thetas.take s.avgCount
  if l.isEmpty then 0 else l.foldl (· + ·) 0 / l.length

/-- A signed quantity of 0.1 ps as its register shows it; outside 32 bits the spec states no reading. -/
def psWord (q : Rat) : Word :=
  let z := ratRound q
  if -2147483648 < z ∧ z < 2147483648 then wordOfInt z else Config.psOverflow z

/-- A stamp of 2^-16 tick in 0.1 ps (R394). -/
def stampPs (z : Int) : Rat := (z : Rat) * 20000 / 65536

/-- θ_f of the timing source is renewed: LNG_THETA, what is to be steered out beside the rest of a LOAD, SETTLED (R398) and TT_TRIP
(R399). -/
def State.thetaUpdate (s : State) (n : Nat) : State :=
  let f := s.thetaF n
  let s := s.setReg .LNG_THETA 0 (psWord f)
  let s := s.modLng fun g => { g with toSteer := f - g.toMove }
  let small := decide (-20 ≤ f) && decide (f ≤ 20)
  let s := if s.lng.settling && small then
      (s.setFld Fields.LNG_TTSTAT_SETTLED 0 1).modLng fun g => { g with settling := false }
    else s
  let trip : Rat := s.fld Fields.LNG_TTCFG_TRIP 0 * 10
  s.setLevel (Src.lane_TT_TRIP n) 0 (s.timeSrc == 3 && (decide (trip < f) || decide (f < -trip)))

/-- A superframe with a complete record ends on a lane (R393, R395, R396). `w0` to `w2` are the record's TT fields; `t2` and
`t3` the lane's own stamps of the peer's marker SFN_T1 and of its own marker SFN_T4 in 2^-16 tick, and `held` says that this
end still holds t3. -/
def State.ttResult (s : State) (n : Nat) (w0 w1 w2 : BitVec 108) (t2 t3 : Int) (held : Bool) : State :=
  if !(s.lane n).carries then s
  else if !(ttCrcHolds w0 && ttCrcHolds w1 && ttCrcHolds w2 && held) then s.modLane n fun l => { l with valid := 0 }
  else
    let t1 : Int := (w0.extractLsb' 8 80).toNat
    let t4 : Int := (w1.extractLsb' 8 80).toNat
    let asym : Rat := intOfWord (s.reg .LN_ASYM n)
    let a : Rat := if s.upstream n then asym else -asym
    let theta := (stampPs ((t2 - t1) - (t4 - t3)) + a) / 2
    let rtt := stampPs ((t2 - t1) + (t4 - t3))
    let s := (s.setReg .LN_OFFSET n (psWord theta)).setReg .LN_DELAY n (psWord ((rtt - a) / 2))
    let was := s.badDepth n
    let s := s.modLane n fun l =>
      { l with thetas := theta :: l.thetas.take 1023, valid := l.valid + 1, peerDepth := (w2.extractLsb' 84 4).toNat }
    let s := if (s.lane n).state == .linked && decide (s.avgCount ≤ (s.lane n).valid) then s.laneTo n .timed else s
    if s.timingLane = some n then
      let s := if s.badDepth n && !(was && (s.lane n).valid != 1) then s.raiseEvent (Src.lane_PEER_DEPTH n) 0 else s
      s.thetaUpdate n
    else s

/-- Move a rest of phase by at most `step`: what moves now and what remains. -/
def moveBy (rest step : Rat) : Rat × Rat :=
  let d := if step < rest then step else if rest < -step then -step else rest
  (d, rest - d)

/-- One tick of steering (R397, R398): θ_f is removed at no more than ANC_SLEW of the primary, and the rest of a LOAD at
1 ps/µs. -/
def State.steerTick (s : State) : State :=
  match s.timingLane, s.primary with
  | some n, some p =>
    let g := s.lng
    let slew : Rat := (s.fld1 Fields.ANC_SLEW_RATE p : Rat) / 50000000
    let (d, rest) := if s.flag Fields.LNG_TTCFG_STEER 0 && (s.lane n).isTimed && !s.badDepth n then moveBy g.toSteer slew
      else (0, g.toSteer)
    let (e, more) := moveBy g.toMove (1 / 50)
    if d = 0 ∧ e = 0 then s
    else s.modLng fun g => { g with target := g.target - d - e, toSteer := rest, toMove := more }
  | _, _ => s

/-- The timing source has changed since the last tick: the device goes on with the new one's θ_f (R401), and takes no time from one of
DEPTH 8 or 15 (R393). TT_TRIP of a lane ends when it is no longer the source or TIME_STATE.SRC is no longer LANE (R399). -/
def State.sourceTick (s : State) : State :=
  let s := s.each ((List.range 16).filter fun n => s.isLive (Src.lane_TT_TRIP n) && !(s.timingLane == some n && s.timeSrc == 3)) fun s n =>
    s.endLevel (Src.lane_TT_TRIP n)
  if s.timingLane = s.lng.source then s
  else
    let s := s.modLng fun g => { g with source := s.timingLane }
    match s.timingLane with
    | some n =>
      let s := if s.badDepth n && !(s.lane n).thetas.isEmpty then s.raiseEvent (Src.lane_PEER_DEPTH n) 0 else s
      s.thetaUpdate n
    | none => s

/-- What a tick does on the lanes: a frame's cells leave, and the outer phase target moves. -/
def State.lanesTick (s : State) : State :=
  let s := if s.frameStarts then
      s.each ((List.range 16).filter fun n => (s.lane n).carries) fun s n =>
        s.modLane n fun l => l.sendFrame (s.fld Fields.LN_TRAIN_C2MIN n) (s.fld Fields.LN_TRAIN_C3MIN n)
    else s
  s.sourceTick.steerTick

/-! ## The lane common registers (R398, R403, R405, R409) -/

/-- LNG_CMD.LOAD (R398): the count steps by −q, q being θ_f in whole ticks; the rest moves the outer phase target. -/
def State.laneLoad (s : State) : WRes :=
  if !s.loadAllowed || s.transfer.isSome then (.busy, s)
  else
    match s.timingLane with
    | some n =>
      if !(s.lane n).isTimed then (.state, s)
      else
        let f := s.thetaF n
        let q := ratRound (f / 20000)
        let v := s.count - BitVec.ofInt 64 q
        let s := s.loadCount v v.toNat 3
        let s := s.each (List.range 16) fun s n => s.modLane n fun l => { l with thetas := l.thetas.map fun t => t - q * 20000 }
        let s := (s.modLng fun g => { g with toMove := f - q * 20000, settling := true }).setFld Fields.LNG_TTSTAT_SETTLED 0 0
        (.ok, s.thetaUpdate n)
    | none => (.state, s)

/-- LNG_CMD.REALIGN (R403). -/
def State.realign (s : State) : WRes :=
  match s.timingLane with
  | some n => if (s.lane n).carries then (.ok, s.frameTo n) else (.state, s)
  | none => (.state, s)

/-- LNG_CMD.LOOPCAL: the insertion delays of every lane in OFF or WAIT_SIG are calibrated (R394). -/
def State.loopCal (s : State) : State :=
  s.each (List.range 16) fun s n => s.modLane n fun l =>
    if l.state == .off || l.state == .waitSig then { l with loopCal := true } else l

/-- A planned move of a lane runs. -/
def Lane.moving (l : Lane) : Bool := match l.move with | some m => m.planned | none => false

/-- LNG_CMD.STEER (R405, R407, Table 9.13): without effect while a planned move of the lane runs (R21). -/
def State.laneSteer (s : State) (n : Nat) : WRes :=
  if (s.lane n).moving then (.ok, s)
  else if (s.lane n).state == .linked || (s.lane n).state == .timed then (.ok, s.planMove n true) else (.state, s)

/-- LNG_CMD: STEER reads 1 while a move that it started runs (R654). -/
def State.lngCmdRead (s : State) : Word :=
  setBit (s.reg .LNG_CMD 0) 28 (s.lanes.any fun l => match l.move with | some m => m.planned && m.cmd | none => false)

/-- A write of LNG_CMD: LOAD, REALIGN, LOOPCAL and STEER in turn; a write that any of them refuses changes nothing. -/
def State.writeLngCmd (s : State) (w : Word) : WRes :=
  let step (r : WRes) (b : Nat) (f : State → WRes) : WRes :=
    match r with
    | (.ok, t) => if bitOf w b then f t else (.ok, t)
    | r => r
  let r := step (.ok, s) 31 State.laneLoad
  let r := step r 30 State.realign
  let r := step r 29 fun t => (.ok, t.loopCal)
  let r := step r 28 fun t => t.laneSteer (getBits w 0 4)
  match r with
  | (.ok, t) => (.ok, t)
  | (e, _) => (e, s)

/-- A write of LNG_DEVID: refused while any lane is past EQ. -/
def State.writeDevId (s : State) (w : Word) : WRes :=
  if (List.range 16).any fun n => (s.lane n).pastEq then (.busy, s) else (.ok, s.setReg .LNG_DEVID 0 (w &&& 0xFFFF#32))

/-- A write of LNG_RCLK (R391, R392). -/
def State.writeRclk (s : State) (w : Word) : WRes :=
  (.ok, (s.setReg .LNG_RCLK 0 (w &&& 0xC00000FF#32)).noteSource s.timingLane)

/-- A recovered-clock output runs (R391): enabled, its lane upstream-facing and holding the peer's symbol clock. -/
def State.rclkRuns (s : State) (k : Nat) : Bool :=
  let en := s.flag (if k = 0 then Fields.LNG_RCLK_EN0 else Fields.LNG_RCLK_EN1) 0
  let n := s.fld (if k = 0 then Fields.LNG_RCLK_SEL0 else Fields.LNG_RCLK_SEL1) 0
  en && s.upstream n && (s.lane n).cdr

/-- A read of LNG_C1WORD: the oldest word leaves and its tick, flow and lane are latched (R385). -/
def State.readC1 (s : State) : Word × State :=
  match s.lng.words with
  | [] => (0, s)
  | x :: rest =>
    let s := s.modLng fun g => { g with words := rest }
    let s := (s.setReg .LNG_C1TICK_LO 0 (loWord x.tick)).setReg .LNG_C1TICK_HI 0 (hiWord x.tick)
    (x.word, s.setReg .LNG_C1INFO 0 (BitVec.ofNat 32 (x.flow % 4096 * 16 + x.lane % 16)))

/-- LN_STAT as read. -/
def State.laneStat (s : State) (n : Nat) : Word :=
  let l := s.lane n
  BitVec.ofNat 32 (l.state.code * 2 ^ 28 + l.slice % 32 * 2 ^ 23 + l.fecOn.toNat * 2 ^ 22 + l.frameLock.toNat * 2 ^ 21
    + l.peerLane % 16 * 2 ^ 16 + l.peerId % 65536)

/-- LNG_SPARE as read. -/
def State.laneSpare (s : State) : Word :=
  let on (sl : Nat) : Nat := (s.laneOn sl).getD 31
  BitVec.ofNat 32 ((s.sliceBad 17).toNat * 2 ^ 14 + (s.sliceBad 16).toNat * 2 ^ 13 + on 17 * 2 ^ 8 + on 16)

/-- LNG_TTSTAT as read. -/
def State.ttStat (s : State) : Word :=
  let w := s.reg .LNG_TTSTAT 0 &&& 0xC0000000#32
  w ||| BitVec.ofNat 32 (s.timingLane.isNone.toNat * 2 ^ 29 + s.ownDepth * 16 + s.timingLane.getD 0)

/-! ## The flow-table window (Table 9.9) -/

/-- The entry FLOW_ADDR names. -/
def State.flowIndex (s : State) : Nat := s.fld Fields.FLOW_ADDR_SOURCE 0 * 4096 + s.fld Fields.FLOW_ADDR_FLOW 0

/-- FLOW increases by one after each FLOW_DATA access when AUTOINC is set. -/
def State.flowNext (s : State) : State :=
  if s.flag Fields.FLOW_ADDR_AUTOINC 0 then s.setFld Fields.FLOW_ADDR_FLOW 0 (s.fld Fields.FLOW_ADDR_FLOW 0 + 1) else s

/-- A write of FLOW_ADDR: sources 17 to 31 are refused. -/
def State.writeFlowAddr (s : State) (w : Word) : WRes :=
  if 16 < getBits w 16 5 then (.range, s) else (.ok, s.setReg .FLOW_ADDR 0 (w &&& 0x801F0FFF#32))

/-- A write of FLOW_DATA; an entry of a fenced row ignores it (Table 13.3). -/
def State.writeFlowData (s : State) (w : Word) : WRes :=
  let s' := if s.fencedEntry 17 s.flowIndex then s
    else s.modLng fun g => { g with flows := g.flows.set s.flowIndex (w &&& 0xCFFFFFFF#32) }
  (.ok, s'.flowNext)

/-- A read of FLOW_DATA. -/
def State.readFlowData (s : State) : Word × State := (s.lng.flows.get s.flowIndex, s.flowNext)

end Sys2Proof.Machine
end

