-- ==== Sys2Proof/Machine/Release.lean ====
section
/-! DEFINITION. The release stage (spec/01 R37 to R53, spec/06 R263 to R267): effects at their named ticks, late effects,
the ungating of cold hops, and declared idles. -/

namespace Sys2Proof.Machine

/-- The code of a SYSREF operation (Table 6.11). -/
def SysOp.num : SysOp → Nat
  | .request => 0
  | .enable => 1
  | .disable => 2

/-- OUTG (Table 6.11): gating acts on every output of the set, ungating on those that follow a core of the station and that a hop of the
run has named (R199). -/
def State.outg (s : State) (n : Nat) (ungate : Bool) (outs : List Nat) : State :=
  let own := s.stationCores n
  s.each outs fun s o =>
    if !ungate then s.modOut o fun x => { x with progGate := true }
    else
      match s.srcOf o with
      | some c => if own.contains c && bitOf (s.stn n).named o then (s.modOut o fun x => { x with progGate := false }).outBoundary o else s
      | none => s

/-- STAT (Table 6.11): pins mapped to the station in SEQ_STATMAP take their bits. -/
def State.statEffect (s : State) (n : Nat) (mask value : BitVec 8) : State :=
  s.each (List.range 8) fun s k =>
    if mask.getLsbD k && getBits (s.reg .SEQ_STATMAP 0) (4 * k) 4 == n then
      { s with statPins := s.statPins.setIfInBounds k (some (value.getLsbD k)) }
    else s

/-- An effect on a set of outputs: bits outside STN_OUTMASK are ignored (R266), and a declared idle ends (R267). -/
def State.onOuts (s : State) (n : Nat) (outs : Word) (f : State → List Nat → State) : State :=
  let own := s.ownOuts n outs
  f ((s.masked n outs).endIdleOf own) own

/-- An effect is applied at the present tick (Tables 6.10 to 6.12). -/
def State.applyAct (s : State) (n : Nat) (e : Effect) : State :=
  match e.act with
  | .swap p => s.swapRelease n e p
  | .cold k p => s.coldHop n k p e.id e.tick
  | .glide k p => s.glideRelease n k p e.id
  | .outg u outs => s.onOuts n outs fun s l => s.outg n u l
  | .dset d outs => s.onOuts n outs fun s l => s.each l fun s o => (s.setFld Fields.OUT_CFG_DSEL o d).restartOut o s.now
  | .divrst outs => s.onOuts n outs fun s l => s.each l fun s o => s.restartOut o s.now
  | .sysref op outs => s.onOuts n outs fun s l => s.each l fun s o => s.sysOp o op.num
  | .stat m v => s.statEffect n m v
  | .send0 p t k f => s.send0 p t k f
  | .send1 w t f => s.send1 w t f
  | .halt => s.stopStation n .stopped
  | .idle k w =>
    match s.slot n (s.hopSlot n k) with
    | some c => ((s.modCore c fun x => { x with idleUntil := some (s.elapsed + w) }).coreBoundary c).each (s.outsOf c) State.outBoundary
    | none => s

/-- An effect is ready for the present tick (R38, R48, R218, R224). -/
def State.effectReady (s : State) (n : Nat) (e : Effect) : Bool :=
  decide (e.entered + 2 ≤ s.now)
    && (match e.dec with | some x => decide (x + 8 ≤ s.now) | none => true)
    && (match e.act with | .swap p => s.swapReady n e p | _ => true)

/-- The front effect of a station leaves the queue and is applied; a preparation for it that did not serve it ends (R210), and a thread
that has ended counts from its last effect (R269). -/
def State.releaseFront (s : State) (n : Nat) (e : Effect) : State :=
  let s := s.modStn n fun t => { t with queue := t.queue.drop 1 }
  let s := (s.applyAct n e).reap n
  s.modStn n fun t => { t with endedAt := if t.endedAt.isSome && t.queue.isEmpty then some s.now else t.endedAt }

/-- Release the effects of station `n` named for now, in program order, while each is ready; none in STOPPED (Table 1.1). -/
def State.releaseNow (s : State) (n : Nat) : Nat → State
  | 0 => s
  | k + 1 =>
    match (s.stn n).queue with
    | e :: _ =>
      if s.counting && (s.stn n).run == .running && decide (e.tick = s.now) && s.effectReady n e then
        (s.releaseFront n e).releaseNow n k
      else s
    | [] => s

/-- The effects named for the present tick are released by station, S0 first, and within a station in program order
(Table 1.3). -/
def State.releaseAll (s : State) : State := s.each (List.range 8) fun s n => s.releaseNow n (s.stn n).queue.length

/-- A late effect is recorded (R49, R52): named tick and tick of application, the station's count, and in guaranteed mode
LATE_RELEASE with its lapse. -/
def State.noteLate (s : State) (n tick : Nat) : State :=
  let s := s.bump Fields.TIME_LATECNT_COUNT n 1
  if (s.stn n).guaranteed then
    (s.raiseAs (Src.stn_LATE_RELEASE n) tick (loWord s.now) false false).lapseWith (Src.stn_LATE_RELEASE n) (stationMask [n]) .ack
  else s.record 4 n 1 tick (loWord s.now)

/-- The front effect of a station, whose named tick has passed, is applied at the first tick for which it is ready (R49,
R50, R264). -/
def State.lateEffect (s : State) (n : Nat) : State :=
  match (s.stn n).queue with
  | e :: _ =>
    if s.counting && (s.stn n).run == .running && decide (e.tick < s.now) && s.effectReady n e then
      (s.noteLate n e.tick).releaseFront n e
    else s
  | [] => s

/-- A cold hop's outputs may ungate (R225): the named tick has come, the core is LOCKED and its ungate hold is over. -/
def State.coldDue (s : State) (n : Nat) (w : ColdWait) : Bool :=
  match s.slot n w.slot with
  | some c =>
    let x := s.core c
    decide (w.named ≤ s.now) && x.state == .locked
      && (match x.lockAt with | some l => decide (l + s.fld Fields.CORE_CFG_UGHOLD c * 64 ≤ s.elapsed) | none => false)
  | none => false

/-- The named ungating of cold hops of a station (R225, R226): late when it follows the named tick. -/
def State.coldUngate (s : State) (n : Nat) : State :=
  let due := (s.stn n).colds.filter fun w => s.counting && s.coldDue n w
  let s := s.modStn n fun t => { t with colds := t.colds.filter fun w => !due.contains w }
  due.foldl (fun (s : State) w =>
    let s := s.each (bitsOf w.outs 32) fun s o => (s.modOut o fun x => { x with progGate := false }).outBoundary o
    if w.named < s.now then s.noteLate n w.named else s) s

/-- A declared idle of a core ends (R267). -/
def State.idleEnd (s : State) (c : Nat) : State :=
  match (s.core c).idleUntil with
  | some t => if t ≤ s.elapsed then s.modCore c fun x => { x with idleUntil := none } else s
  | none => s

/-- A glide has run its time (R160). -/
def State.glideDue (s : State) (c : Nat) : State :=
  match (s.core c).glide with
  | some g => if g.ks + g.gtime ≤ s.now then s.endGlide c else s
  | none => s

end Sys2Proof.Machine
end

