-- ==== Sys2Proof/Machine/Sha.lean ====
section
/-! DEFINITION. SHA-256 of FIPS 180-4 over 32-bit words (R420), HMAC over it, and the CRC-32 of IEEE 802.3 (Table 10.6). -/

namespace Sys2Proof.Machine

/-- The 64 round constants of SHA-256. -/
def shaK : List Word :=
  [0x428a2f98#32, 0x71374491#32, 0xb5c0fbcf#32, 0xe9b5dba5#32, 0x3956c25b#32, 0x59f111f1#32, 0x923f82a4#32, 0xab1c5ed5#32,
   0xd807aa98#32, 0x12835b01#32, 0x243185be#32, 0x550c7dc3#32, 0x72be5d74#32, 0x80deb1fe#32, 0x9bdc06a7#32, 0xc19bf174#32,
   0xe49b69c1#32, 0xefbe4786#32, 0x0fc19dc6#32, 0x240ca1cc#32, 0x2de92c6f#32, 0x4a7484aa#32, 0x5cb0a9dc#32, 0x76f988da#32,
   0x983e5152#32, 0xa831c66d#32, 0xb00327c8#32, 0xbf597fc7#32, 0xc6e00bf3#32, 0xd5a79147#32, 0x06ca6351#32, 0x14292967#32]
  ++
  [0x27b70a85#32, 0x2e1b2138#32, 0x4d2c6dfc#32, 0x53380d13#32, 0x650a7354#32, 0x766a0abb#32, 0x81c2c92e#32, 0x92722c85#32,
   0xa2bfe8a1#32, 0xa81a664b#32, 0xc24b8b70#32, 0xc76c51a3#32, 0xd192e819#32, 0xd6990624#32, 0xf40e3585#32, 0x106aa070#32,
   0x19a4c116#32, 0x1e376c08#32, 0x2748774c#32, 0x34b0bcb5#32, 0x391c0cb3#32, 0x4ed8aa4a#32, 0x5b9cca4f#32, 0x682e6ff3#32,
   0x748f82ee#32, 0x78a5636f#32, 0x84c87814#32, 0x8cc70208#32, 0x90befffa#32, 0xa4506ceb#32, 0xbef9a3f7#32, 0xc67178f2#32]

/-- The initial hash value of SHA-256. -/
def shaInit : List Word :=
  [0x6a09e667#32, 0xbb67ae85#32, 0x3c6ef372#32, 0xa54ff53a#32, 0x510e527f#32, 0x9b05688c#32, 0x1f83d9ab#32, 0x5be0cd19#32]

/-- The message schedule of one block: the sixteen latest words, newest first, extended by `k` words; oldest first. -/
def shaExtend : Nat → List Word → List Word
  | 0, ws => ws.reverse
  | k + 1, ws =>
    let w (i : Nat) : Word := ws.getD (i - 1) 0
    let s0 := (w 15).rotateRight 7 ^^^ (w 15).rotateRight 18 ^^^ ((w 15) >>> 3)
    let s1 := (w 2).rotateRight 17 ^^^ (w 2).rotateRight 19 ^^^ ((w 2) >>> 10)
    shaExtend k ((w 16 + s0 + w 7 + s1) :: ws)

/-- One round on the eight working words. -/
def shaRound (v : List Word) (k w : Word) : List Word :=
  match v with
  | [a, b, c, d, e, f, g, h] =>
    let t1 := h + (e.rotateRight 6 ^^^ e.rotateRight 11 ^^^ e.rotateRight 25) + ((e &&& f) ^^^ (~~~e &&& g)) + k + w
    let t2 := (a.rotateRight 2 ^^^ a.rotateRight 13 ^^^ a.rotateRight 22) + ((a &&& b) ^^^ (a &&& c) ^^^ (b &&& c))
    [t1 + t2, a, b, c, d + t1, e, f, g]
  | v => v

/-- One block of sixteen words. -/
def shaBlock (h : List Word) (block : List Word) : List Word :=
  let v := (shaK.zip (shaExtend 48 block.reverse)).foldl (fun v (k, w) => shaRound v k w) h
  (h.zip v).map fun (a, b) => a + b

/-- All blocks of a padded message; `n` bounds their number. -/
def shaBlocks : Nat → List Word → List Word → List Word
  | 0, h, _ => h
  | _, h, [] => h
  | n + 1, h, ws => shaBlocks n (shaBlock h (ws.take 16)) (ws.drop 16)

/-- Pad a message of whole words: a one bit, zeros, and its length in bits. -/
def shaPad (ws : List Word) : List Word :=
  let n := ws.length
  let zeros := (16 - (n + 3) % 16) % 16
  ws ++ [0x80000000#32] ++ List.replicate zeros 0#32 ++ [hiWord (32 * n), loWord (32 * n)]

/-- The eight words of SHA-256 over a message of whole words. -/
def sha256 (ws : List Word) : List Word := let p := shaPad ws; shaBlocks p.length shaInit p

/-- Eight words as 256 bits, first word most significant. -/
def digestOf (ws : List Word) : BitVec 256 :=
  BitVec.ofNat 256 (ws.foldl (fun n w => n * 2 ^ 32 + w.toNat) 0)

/-- One bit of the reflected CRC-32 of IEEE 802.3. -/
def crc32Bit (c : Word) : Word := if c.getLsbD 0 then (c >>> 1) ^^^ 0xEDB88320#32 else c >>> 1

/-- One byte through the CRC-32 register. -/
def crc32Byte (c : Word) (b : Nat) : Word :=
  (List.range 8).foldl (fun c _ => crc32Bit c) (c ^^^ BitVec.ofNat 32 (b % 256))

/-- The CRC-32 of IEEE 802.3 over bytes. -/
def crc32 (bs : List Nat) : Word := ~~~ (bs.foldl crc32Byte 0xFFFFFFFF#32)

/-- The bytes of a number of `n` bytes, most significant first. -/
def bytesOf (n v : Nat) : List Nat := (List.range n).map fun i => v / 256 ^ (n - 1 - i) % 256

end Sys2Proof.Machine
end

