-- ==== Sys2Proof/Machine/Fleet.lean ====
section
/-! DEFINITION. The fleet block (spec/10): management messages, register requests, the consistency set and its digest,
mismatch causes, the log and reports. Streams and remote writes stand in Remote. -/

namespace Sys2Proof.Machine

def State.modFleet (s : State) (f : Fleet → Fleet) : State := { s with fleet := f s.fleet }

/-- The device's own ID and the manager's (LNG_DEVID, FLT_MGR). -/
def State.devId (s : State) : Nat := s.fld Fields.LNG_DEVID_ID 0
def State.mgrId (s : State) : Nat := s.fld Fields.FLT_MGR_ID 0

/-! ## Bodies (R412, Tables 10.1 and 10.2) -/

/-- A field of a body: `off` bits from its top, `w` bits wide. -/
def bodyField (b : Body) (off w : Nat) : Nat :=
  let n := b.foldl (fun n d => n * 2 ^ 96 + d.toNat) 0
  n / 2 ^ (96 * b.length - off - w) % 2 ^ w

/-- The body of `cells` cells that lists of (value, width) fill from the top; the rest is 0. -/
def mkBody (cells : Nat) (fs : List (Nat × Nat)) : Body :=
  let n := fs.foldl (fun n (v, w) => n * 2 ^ w + v % 2 ^ w) 0
  let used := fs.foldl (fun n (_, w) => n + w) 0
  let n := n * 2 ^ (96 * cells - used)
  (List.range cells).map fun i => BitVec.ofNat 96 (n / 2 ^ (96 * (cells - 1 - i)))

def bodyKind (b : Body) : Nat := bodyField b 0 4
def bodyStatus (b : Body) : Nat := bodyField b 4 4
def bodyDst (b : Body) : Nat := bodyField b 8 16
def bodySrc (b : Body) : Nat := bodyField b 24 16
def bodyTag (b : Body) : Nat := bodyField b 40 8

/-- The cells of a kind (Table 10.2); 0 for a reserved kind. -/
def kindCells (k : Nat) : Nat :=
  match k with
  | 1 | 2 | 3 | 7 | 9 => 1
  | 4 | 6 => 3
  | 5 => 2
  | 8 => 4
  | _ => 0

/-- DST 0 is allowed for a kind (Table 10.2). -/
def kindBroadcast (k : Nat) : Bool := k == 4 || (decide (6 ≤ k) && decide (k ≤ 9))

/-- The header of a message (Table 10.1). -/
def State.header (s : State) (kind status dst tag : Nat) : List (Nat × Nat) :=
  [(kind, 4), (status, 4), (dst, 16), (s.devId, 16), (tag, 8)]

/-- A class-2 message leaves on an entry of table 16. -/
def State.sendMgmt (s : State) (flow : Nat) (b : Body) : State := s.sendCells 2 flow b

/-- A body delivered on a lane (R413, R416): refused by kind or cell count, then by address, then when 32 requests are held;
otherwise it waits to be handled. -/
def State.mgmtReceive (s : State) (lane : Nat) (b : Body) : State :=
  let k := bodyKind b
  if kindCells k = 0 ∨ kindCells k ≠ b.length then s.bump Fields.FLT_CNT_MALFORMED 0 1
  else if !((bodyDst b == s.devId && s.devId != 0) || (bodyDst b == 0 && kindBroadcast k)) then
    s.bump Fields.FLT_CNT_MISADDR 0 1
  else if (k == 1 || k == 2) && decide (32 ≤ (s.fleet.inbox.filter fun d => bodyKind d.body == 1 || bodyKind d.body == 2).length) then
    s.bump Fields.FLT_CNT_RQDROP 0 1
  else s.modFleet fun f => { f with inbox := f.inbox ++ [⟨lane, b⟩] }

/-- Handle the oldest message waiting when it is of a kind. -/
def State.handle (s : State) (kind : Nat) (f : State → Delivery → State) : State :=
  match s.fleet.inbox with
  | d :: rest => if bodyKind d.body = kind then f (s.modFleet fun g => { g with inbox := rest }) d else s
  | [] => s

/-! ## The consistency set and its digest (R418 to R422) -/

/-- A release changed the set: a computation starts at the next tick, and one that runs is abandoned (R420, R421). -/
def State.setChanged (s : State) : State :=
  s.modFleet fun f => { f with current := false, running := some (s.now + 1) }

/-- What a release changed is compared with the state before it. -/
def State.noteSet (s old : State) : State :=
  if s.profs = old.profs ∧ s.pgm = old.pgm ∧ s.fleet.set = old.fleet.set then s else s.setChanged

/-- The registers of sections 3 and 4 of Table 10.4 and what of them enters the set. -/
def setMask (r : RegName) : Option Word :=
  match r with
  | .STN_CFG => some 0xFFFF0003#32
  | .STN_MAP => some 0x00007FFF#32
  | .STN_OUTMASK => some 0xFFFFFFFF#32
  | .OUT_CFG => some (regSpec .OUT_CFG).rw
  | .OUT_DSET01 | .OUT_DSET23 => some 0x0FFF0FFF#32
  | .OUT_DELAY => some (regSpec .OUT_DELAY).rw
  | .OUT_DRV => some (regSpec .OUT_DRV).rw
  | .OUT_SYSREF => some 0x000300FF#32
  | .OUT_SYSPULSE => some (regSpec .OUT_SYSPULSE).rw
  | .OUT_RBCFG => some (regSpec .OUT_RBCFG).rw
  | _ => none

/-- A register takes a value by a host write, a remote WRITE or an armed change (R419). -/
def State.setEnter (s : State) (r : RegName) (i : Nat) (w : Word) : State :=
  match setMask r with
  | some m => s.modFleet fun f => { f with set := f.set.set r i (w &&& m) }
  | none => s

/-- The serialisation of the consistency set, word by word (Table 10.4). -/
def State.serialised (s : State) : List Word :=
  let reg (r : RegName) (i : Nat) : Word := s.fleet.set.get r i
  s.profs.slice 0 32768 ++ s.pgm.slice 0 131072
    ++ ((List.range 8).map fun n => [reg .STN_CFG n, reg .STN_MAP n, reg .STN_OUTMASK n]).flatten
    ++ ((List.range 32).map fun o =>
        [reg .OUT_CFG o, reg .OUT_DSET01 o, reg .OUT_DSET23 o, reg .OUT_DELAY o, reg .OUT_DRV o,
         reg .OUT_SYSREF o &&& 0x000300FF#32, reg .OUT_SYSPULSE o, reg .OUT_RBCFG o]).flatten

/-- A computation completes (R420, R421). -/
def State.digestDone (s : State) : State :=
  match s.fleet.running with
  | some t =>
    if t ≤ s.now then
      let d := digestOf (sha256 s.serialised)
      s.modFleet fun f => { f with digest := d, current := true, running := none, started := some t }
    else s
  | none => s

/-- ASOF (R421). -/
def State.asOf (s : State) : Nat := if s.fleet.current then s.now else s.fleet.started.getD 0

/-- The leading 64 bits of the digest. -/
def State.actual (s : State) : BitVec 64 := s.fleet.digest.extractLsb' 192 64

/-- FLT_EXPECT. -/
def State.expect (s : State) : BitVec 64 :=
  BitVec.ofNat 64 (ofWords (s.reg .FLT_EXPECT_LO 0) (s.reg .FLT_EXPECT_HI 0))

/-- The DIGEST message of the present tick (R422). -/
def State.digestBody (s : State) : Body :=
  mkBody 3 (s.header 4 0 0 0 ++
    [((s.reg .FLT_EPOCH 0).toNat, 32), (s.actual.toNat, 64), (s.expect.toNat, 64), (s.asOf, 48),
     (s.fleet.current.toNat, 1), (s.fld Fields.FLT_DGSTAT_EXPECTV 0, 1), (0, 30)])

/-- At every multiple of 500,000 ticks a device with DGEN = 1 and an upstream-facing lane up sends its DIGEST (R422). -/
def State.digestSend (s : State) : State :=
  if s.counting && s.now % 500000 == 0 && s.flag Fields.FLT_CFG_DGEN 0 && s.fleet.started.isSome
      && (List.range 16).any fun n => s.upstream n && (s.lane n).carries then
    s.sendMgmt (s.fld Fields.FLT_CFG_DGFLOW 0) s.digestBody
  else s

/-! ## The log, causes and reports (R423, R424) -/

/-- Enter an entry in the log, which holds 16 (R424). -/
def State.logEnter (s : State) (e : LogEntry) : State :=
  if 16 ≤ s.fleet.log.length then (s.bump Fields.FLT_LOGCTL_OVERFLOW 0 1).raiseEvent Src.fleet_LOG_OVERFLOW 0
  else s.modFleet fun f => { f with log := f.log ++ [e] }

/-- A REPORT to the manager on the RPTFLOW entry (R424). -/
def State.report (s : State) (e : LogEntry) : State :=
  if s.mgrId = 0 then s
  else s.sendMgmt (s.fld Fields.FLT_CFG_RPTFLOW 0)
    (mkBody 2 (s.header 5 0 s.mgrId 0 ++
      [(e.subject, 16), (e.lane, 4), (e.cause, 4), (e.epoch.toNat, 32), (e.actual.toNat, 64), (0, 24)]))

/-- A cause holds on some lane. -/
def State.causeHolds (s : State) (c : Nat) : Bool := (List.range 16).any fun n => (s.lane n).causes.contains c

/-- The source a cause of a lane raises (Table 10.5). -/
def causeSource (c : Nat) : Fid := ⟨8, 0, c - 1⟩

/-- A lane's causes become `cs` (R424): each that begins is logged, raised and reported; when the last ends, CAUSE 0 is
logged. -/
def State.setCauses (s : State) (n subject : Nat) (cs : List Nat) : State :=
  let l := s.lane n
  let s := s.modLane n fun l => { l with causes := cs }
  let k := s.raises.length
  let s := [1, 2, 3, 4].foldl (fun (s : State) c => s.setLevel (causeSource c) 0 (s.causeHolds c)) s
  let s := { s with raises := s.raises.take k ++ (s.raises.drop k).map fun r => { r with lane := some n } }
  let entry (c : Nat) : LogEntry := ⟨subject, n, c, l.lastEpoch, l.lastActual, loWord s.now⟩
  let s := (cs.filter fun c => !l.causes.contains c).foldl (fun (s : State) c => (s.logEnter (entry c)).report (entry c)) s
  if cs.isEmpty && !l.causes.isEmpty then s.logEnter (entry 0) else s

/-- What a device reports about itself (causes 5 and 6). -/
def State.ownCause (s : State) (c : Nat) (epoch : Word) : State :=
  let e : LogEntry := ⟨s.devId, 0, c, epoch, s.actual, loWord s.now⟩
  (s.logEnter e).report e

/-- A lane is watched for digests (R423). -/
def State.watched (s : State) (n : Nat) : Bool := s.flag Fields.FLT_CFG_CMPEN 0 && !s.upstream n && (s.lane n).carries

/-- A DIGEST is received on a lane (R423, Table 10.5). -/
def State.digestReceive (s : State) (d : Delivery) : State :=
  let n := d.lane
  if !(s.flag Fields.FLT_CFG_CMPEN 0) || s.upstream n then s
  else
    let b := d.body
    let epoch : Word := BitVec.ofNat 32 (bodyField b 48 32)
    let actual : BitVec 64 := BitVec.ofNat 64 (bodyField b 80 64)
    let expect : BitVec 64 := BitVec.ofNat 64 (bodyField b 144 64)
    let asOf := widen s.now (bodyField b 208 48)
    let current := bodyField b 256 1 == 1
    let s := s.modLane n fun l =>
      { l with heardAt := s.elapsed, freshAt := if current then s.elapsed else l.freshAt, lastEpoch := epoch, lastActual := actual }
    let old := (s.lane n).causes.filter (· != 3)
    if !current then s.setCauses n (bodySrc b) old
    else
      let c1 := bodyField b 257 1 == 1 && actual != expect
      let c2 := epoch != s.reg .FLT_EPOCH 0 && decide ((s.fleet.epTick : Int) ≤ asOf)
      s.setCauses n (bodySrc b) ((if c1 then [1] else []) ++ (if c2 then [2] else []))

/-- No DIGEST for 2,000,000 ticks on a watched lane (cause 3). -/
def State.silent (s : State) (n : Nat) : State :=
  let l := s.lane n
  if s.watched n && decide (l.heardAt + 2000000 ≤ s.elapsed) && !l.causes.contains 3 then
    s.setCauses n l.peerId (l.causes ++ [3])
  else s

/-- Every DIGEST for 5,000,000 ticks on a watched lane carried CURRENT = 0 (cause 4). -/
def State.stale (s : State) (n : Nat) : State :=
  let l := s.lane n
  if s.watched n && decide (l.freshAt + 5000000 ≤ s.elapsed) && decide (l.freshAt < l.heardAt) && !l.causes.contains 4 then
    s.setCauses n l.peerId (l.causes ++ [4])
  else s

/-- A REPORT addressed to the device enters its log as carried (R424). -/
def State.reportReceive (s : State) (d : Delivery) : State :=
  let b := d.body
  s.logEnter ⟨bodyField b 48 16, bodyField b 64 4, bodyField b 68 4, BitVec.ofNat 32 (bodyField b 72 32),
    BitVec.ofNat 64 (bodyField b 104 64), loWord s.now⟩

/-- FLT_LOGCTL.POP removes the oldest entry. -/
def State.logPop (s : State) : State := s.modFleet fun f => { f with log := f.log.drop 1 }

/-- A write of FLT_LOGCTL. -/
def State.writeLogCtl (s : State) (w : Word) : WRes :=
  let s := if getBits w 0 16 = 0xFFFF then s.setFld Fields.FLT_LOGCTL_OVERFLOW 0 0 else s
  (.ok, if bitOf w 31 then s.logPop else s)

/-! ## Register requests (R417) -/

/-- A write of FLT_RQ_CTL: with GO set the request is sent on the table-16 entry FLOW with the next TAG. -/
def State.writeRqCtl (s : State) (w : Word) : WRes :=
  let dst := s.fld Fields.FLT_RQ_DST_DST 0
  let kind := getBits w 28 2
  let keep := s.reg .FLT_RQ_CTL 0 &&& 0x0F000000#32
  if !bitOf w 31 then (.ok, s.setReg .FLT_RQ_CTL 0 ((w &&& 0x30FFF0FF#32) ||| keep))
  else if s.fleet.request.isSome then (.busy, s)
  else if dst = 0 ∨ dst = s.devId ∨ !(kind == 1 || kind == 2) then (.range, s)
  else
    let s := s.setReg .FLT_RQ_CTL 0 ((w &&& 0x30FFF0FF#32) ||| keep)
    let tag := s.fleet.nextTag
    let addr := s.fld Fields.FLT_RQ_DST_ADDR 0
    let value := if kind = 2 then (s.reg .FLT_RQ_DATA 0).toNat else 0
    let s := s.sendMgmt (getBits w 12 12) (mkBody 1 (s.header kind 0 dst tag ++ [(addr, 16), (value, 32)]))
    let due := s.elapsed + usTicks (100 * s.fld1 Fields.FLT_RQ_CTL_TIMEOUT 0)
    (.ok, s.modFleet fun f => { f with request := some ⟨tag, dst, addr, kind == 1, due⟩, nextTag := (tag + 1) % 256 })

/-- A RESP is delivered (R417): one that does not answer the outstanding request is discarded. -/
def State.respReceive (s : State) (d : Delivery) : State :=
  match s.fleet.request with
  | some q =>
    if bodyTag d.body = q.tag ∧ bodySrc d.body = q.dst then
      let s := s.setFld Fields.FLT_RQ_CTL_STATUS 0 (bodyStatus d.body)
      let s := if q.read then s.setReg .FLT_RQ_DATA 0 (BitVec.ofNat 32 (bodyField d.body 64 32)) else s
      s.modFleet fun f => { f with request := none }
    else s
  | none => s

/-- No RESP has arrived within TIMEOUT × 100 µs (R417). -/
def State.rqTimeout (s : State) : State :=
  match s.fleet.request with
  | some q =>
    if q.dueAt ≤ s.elapsed then
      ((s.setFld Fields.FLT_RQ_CTL_STATUS 0 12).modFleet fun f => { f with request := none }).raiseEvent Src.fleet_RQ_TIMEOUT 0
    else s
  | none => s

/-- A RESP to a request (R414): DST is the requester, TAG and ADDR the request's. -/
def State.respond (s : State) (dst tag addr status : Nat) (value : Word) : State :=
  s.sendMgmt (s.fld Fields.FLT_CFG_RPTFLOW 0) (mkBody 1 (s.header 3 status dst tag ++ [(addr, 16), (value.toNat, 32)]))

/-! ## Registers as read -/

/-- FLT_DGSTAT as read. -/
def State.dgStat (s : State) : Word :=
  BitVec.ofNat 32 (s.fleet.current.toNat * 2 ^ 31 + s.fleet.running.isSome.toNat * 2 ^ 30
    + s.fld Fields.FLT_DGSTAT_EXPECTV 0 * 2 ^ 29)

/-- RELTICK of the earliest pending change; 0 when none. -/
def State.armNext (s : State) : Nat := ((s.fleet.changes.map Change.relTick).min?).getD 0

/-- FLT_ARMSTAT as read. -/
def State.armStat (s : State) : Word :=
  (s.reg .FLT_ARMSTAT 0 &&& 0xF1FF0000#32) ||| BitVec.ofNat 32 s.fleet.changes.length

/-- FLT_LOGCTL and the oldest entry of the log as read. -/
def State.logCtl (s : State) : Word := (s.reg .FLT_LOGCTL 0 &&& 0xFFFF#32) ||| BitVec.ofNat 32 (s.fleet.log.length * 2 ^ 16)

def State.logWord (s : State) (r : RegName) : Word :=
  match s.fleet.log with
  | [] => 0
  | e :: _ =>
    match r with
    | .FLT_LOG_ID => BitVec.ofNat 32 (e.subject * 2 ^ 16 + e.lane * 2 ^ 12 + e.cause * 2 ^ 8)
    | .FLT_LOG_EPOCH => e.epoch
    | .FLT_LOG_DG_LO => e.actual.extractLsb' 0 32
    | .FLT_LOG_DG_HI => e.actual.extractLsb' 32 32
    | _ => e.tick

end Sys2Proof.Machine
end

