-- ==== Sys2Proof/Machine/Monitor.lean ====
section
/-! DEFINITION. The monitor converter (spec/12, R467 to R481, R494): slots, the scan, injected conversions, thresholds and
the self-check. -/

namespace Sys2Proof.Machine

def State.modMon (s : State) (f : Mon → Mon) : State := { s with mon := f s.mon }

/-- The channel that gives a calibration group its temperature (Table 11.1). -/
def calChannel (g : Nat) : Nat := if g < 26 then g else if g < 58 then 28 + (g - 26) / 4 else 26 + (g - 58)

/-- The enabled channels of a mask, ascending: the entries of a scan (R472). -/
def scanList (m : BitVec 64) : List Nat := (List.range 64).filter fun c => m.getLsbD c

/-- The mask that MON_SCAN_LO and MON_SCAN_HI hold. -/
def State.scanWritten (s : State) : BitVec 64 := s.reg .MON_SCAN_HI 0 ++ s.reg .MON_SCAN_LO 0

/-- A result of a temperature channel in 1/16 °C (Table 12.2). -/
def tempOf (code : Nat) : Int := code - 4096

/-- The present temperature of a calibration group (R439, R476): none before the first conversion and while the converter
is fenced (R481). -/
def State.groupTemp (s : State) (g : Nat) : Option Int :=
  if s.flag Fields.MON_STAT_FENCED 0 then none
  else ((s.mon.latest[calChannel g]?).getD none).map tempOf

/-! ## Injected requests (R477, R478) -/

/-- What became of an injected request: MON_INJCMD.RESULT. -/
inductive InjRes where
  | queued | full | fenced
  deriving DecidableEq, Repr, Inhabited

def InjRes.code : InjRes → Nat
  | .queued => 0
  | .full => 1
  | .fenced => 2

/-- MON_STAT.QLEVEL shows how many requests wait. -/
def State.noteQueue (s : State) : State := s.setFld Fields.MON_STAT_QLEVEL 0 s.mon.queue.length

/-- A request joins the queue, two deep, or is refused. -/
def State.inject (s : State) (ch : Nat) (group : Option Nat) : InjRes × State :=
  if s.flag Fields.MON_STAT_FENCED 0 then (.fenced, s)
  else if 2 ≤ s.mon.queue.length then (.full, (s.bump Fields.MON_CNT_INJREF 0 1).raiseEvent Src.mon_INJ_REFUSED 0)
  else (.queued, (s.modMon fun m => { m with queue := m.queue ++ [⟨ch, group, s.now⟩] }).noteQueue)

/-- A write of MON_INJCMD: CH is stored and GO injects it. -/
def State.writeInjCmd (s : State) (w : Word) : WRes :=
  let s := s.setFld Fields.MON_INJCMD_CH 0 (getBits w 0 6)
  if bitOf w 31 then
    let (r, s) := s.inject (getBits w 0 6) none
    (if r = .full then .full else .ok, s.setFld Fields.MON_INJCMD_RESULT 0 r.code)
  else (.ok, s)

/-! ## The scan (R471 to R474) -/

/-- The written mask takes effect (R473): results clear and the next scan begins at entry 0. A scan conversion in progress goes on (R470),
and belongs to no entry of the new scan. -/
def State.applyMask (s : State) : State :=
  let m := s.scanWritten
  let s := (s.setFld Fields.MON_STAT_MASKPEND 0 0).setFld Fields.MON_STAT_ENTRIES 0 (scanList m).length
  let s := s.each (List.range 32) fun s k => (s.setReg .MON_RES_A k 0).setReg .MON_RES_B k 0
  s.modMon fun x => { x with mask := m, next := 0, maskDue := false, stamps := Vector.replicate 32 0
                             use := match x.use with | .scan _ ch => .scan 32 ch | u => u }

/-- A write to MON_SCAN_LO or MON_SCAN_HI (R471, R473): refused when more than 32 channels would be enabled. -/
def State.writeScan (s : State) (hi : Bool) (w : Word) : WRes :=
  let s' := s.setReg (if hi then .MON_SCAN_HI else .MON_SCAN_LO) 0 w
  if 32 < (scanList s'.scanWritten).length then (.range, s)
  else if !s.flag Fields.MON_CTL_RUN 0 || (scanList s.mon.mask).isEmpty then (.ok, s'.applyMask)
  else (.ok, s'.setFld Fields.MON_STAT_MASKPEND 0 1)

/-- Slot i is given the next scan entry while RUN = 1, otherwise nothing. -/
def State.pickScan (s : State) (i : Nat) : State :=
  let l := scanList s.mon.mask
  s.modMon fun m =>
    { m with slot := some i
             use := if s.flag Fields.MON_CTL_RUN 0 then
                 (match l[m.next]? with | some ch => .scan m.next ch | none => .none)
               else .none }

/-- Slot i, which begins now, is given its conversion (R470). -/
def State.pickSlot (s : State) : State :=
  let i := s.now / 500
  let give (s : State) (u : MonUse) : State := s.modMon fun m => { m with slot := some i, use := u }
  if s.flag Fields.MON_STAT_FENCED 0 then give s .none
  else if i % 1024 = 0 then give s (.check (60 + i / 1024 % 2))
  else
    match s.mon.queue with
    | q :: rest =>
      if q.at_ < s.now then
        (give (s.modMon fun m => { m with queue := rest })
          (match q.group with | some g => .cal g q.ch | none => .host q.ch)).noteQueue
      else s.pickScan i
    | [] => s.pickScan i
/-! ## Thresholds (R480) -/

/-- A threshold is evaluated at a conversion of its channel. -/
def State.threshold (s : State) (code stamp n : Nat) : State :=
  let level := s.fld Fields.MON_THR_CFG_LEVEL n
  let hyst := s.fld Fields.MON_THR_CFG_HYST n
  let down := s.flag Fields.MON_THR_CFG_DIR n
  if s.flag Fields.MON_THR_STAT_ARMED n then
    if (if down then decide (code ≤ level) else decide (level ≤ code)) then
      let s := (s.setFld Fields.MON_THR_STAT_ARMED n 0).bump Fields.MON_THR_STAT_COUNT n 1
      s.each (List.range 8) fun s k => s.postEvent k ⟨72 + n, stamp, BitVec.ofNat 32 code⟩
    else s
  else if (if down then decide (level + hyst < code) else decide (code + hyst < level)) then
    s.setFld Fields.MON_THR_STAT_ARMED n 1
  else s

/-- A conversion of a channel that is no check conversion: its latest value and its thresholds (R476, R479, R480). -/
def State.converted (s : State) (ch code stamp : Nat) : State :=
  let s := s.modMon fun m => { m with latest := m.latest.setIfInBounds ch (some code) }
  s.each ((List.range 16).filter fun n => s.flag Fields.MON_THR_CFG_EN n && s.fld Fields.MON_THR_CFG_CH n == ch) fun s n =>
    s.threshold code stamp n

/-- A write of MON_THR_CFG: a threshold is armed when EN is set. -/
def State.writeThreshold (s : State) (n : Nat) (w : Word) : State :=
  let was := s.flag Fields.MON_THR_CFG_EN n
  let s := s.setReg .MON_THR_CFG n (w &&& (regSpec .MON_THR_CFG).rw)
  let on := s.flag Fields.MON_THR_CFG_EN n
  s.setFld Fields.MON_THR_STAT_ARMED n (if on then (if was then s.fld Fields.MON_THR_STAT_ARMED n else 1) else 0)

/-! ## Conversions (R469, R474, R475, R481) -/

/-- The expected code of a check channel. -/
def checkCode (ch : Nat) : Nat := if ch = 60 then 8000 else 0

/-- A check conversion ends (R481): two failed ones in a row of the same channel raise ADC_CHECK. -/
def State.checkConverted (s : State) (ch code : Nat) : State :=
  let s := s.setFld (if ch = 60 then Fields.MON_CHECK_REF else Fields.MON_CHECK_ZERO) 0 code
  let bad := decide (64 < max code (checkCode ch) - min code (checkCode ch))
  let n := if bad then (s.mon.fails[ch - 60]?).getD 0 + 1 else 0
  let s := s.modMon fun m => { m with fails := m.fails.setIfInBounds (ch - 60) n }
  if !bad then s
  else
    let s := s.bump Fields.MON_CNT_CHKFAIL 0 1
    if 2 ≤ n then s.raiseEvent Src.mon_ADC_CHECK 0 else s

/-- A scan entry's conversion ends (R472 to R474). After the last entry the scan wraps, and a written mask is taken. -/
def State.scanConverted (s : State) (k code stamp : Nat) : State :=
  let s := if 32 ≤ k then s
    else (s.setFld Fields.MON_RES_A_VALUE k code).setFld Fields.MON_RES_A_COUNT k (s.fld Fields.MON_RES_A_COUNT k + 1)
  let last := decide ((scanList s.mon.mask).length ≤ k + 1)
  s.modMon fun m =>
    { m with stamps := m.stamps.setIfInBounds k stamp, next := if last then 0 else k + 1
             maskDue := last && s.flag Fields.MON_STAT_MASKPEND 0 }

/-- A host injection's conversion ends (R475, R479). -/
def State.hostConverted (s : State) (ch code stamp : Nat) : State :=
  let s := (s.setFld Fields.MON_INJ_A_VALUE 0 code).setFld Fields.MON_INJ_A_CH 0 ch
  (s.setFld Fields.MON_INJ_A_COUNT 0 (s.fld Fields.MON_INJ_A_COUNT 0 + 1)).modMon fun m => { m with injStamp := stamp }

/-- A calibration sample arrives: the start or the end temperature of the run that asked for it (R444). -/
def State.calSample (s : State) (g code : Nat) : State :=
  match s.cal.run with
  | some r =>
    if r.group = g ∧ r.asked then
      let r := { r with asked := false }
      { s with cal := { s.cal with run := some (if r.t0.isNone then { r with t0 := some (tempOf code) }
                                                else { r with t1 := some (tempOf code) }) } }
    else s
  | none => s

/-- The conversion of the slot that ends now. -/
def State.slotDone (s : State) (i code : Nat) : State :=
  let stamp := 500 * (i + 1)
  match s.mon.use with
  | .check ch => s.checkConverted ch code
  | .scan k ch => let code := if 62 ≤ ch then 0 else code; (s.scanConverted k code stamp).converted ch code stamp
  | .host ch => let code := if 62 ≤ ch then 0 else code; (s.hostConverted ch code stamp).converted ch code stamp
  | .cal g ch => (s.converted ch code stamp).calSample g code
  | .none => s

/-- A slot boundary (R469): the conversion in progress ends with its code, and the slot that begins is given its own,
unless a new mask is to be taken first (R473). -/
def State.slotBoundary (s : State) (code : Nat) : State :=
  if !s.counting || decide (s.now % 500 ≠ 0) || s.mon.maskDue then s
  else
    match s.mon.slot with
    | some i =>
      if s.now < 500 * (i + 1) then s
      else
        let s := if s.flag Fields.MON_STAT_FENCED 0 then s else s.slotDone i code
        let s := s.modMon fun m => { m with slot := none, use := .none }
        if s.mon.maskDue then s else s.pickSlot
    | none => s.pickSlot

/-- The new mask takes effect at the end of the scan in progress (R473), and the slot that begins is given its
conversion. -/
def State.maskBoundary (s : State) : State := if s.mon.maskDue then s.applyMask.pickSlot else s

/-- A read of RES_k_A returns the result and latches its stamp (R475). -/
def State.readResult (s : State) (k : Nat) : State :=
  s.setReg .MON_RES_B k (loWord ((s.mon.stamps[k]?).getD 0))

/-- A read of MON_INJ_A latches MON_INJ_B. -/
def State.readInjection (s : State) : State := s.setReg .MON_INJ_B 0 (loWord s.mon.injStamp)

/-- The converter is fenced until power-on reset (R481): queued requests are refused FENCED. -/
def State.fenceConverter (s : State) : State :=
  let host := s.mon.queue.any fun q => q.group.isNone
  let s := s.setFld Fields.MON_STAT_FENCED 0 1
  let s := if host then s.setFld Fields.MON_INJCMD_RESULT 0 2 else s
  let s := (s.modMon fun m => { m with queue := [], use := .none }).noteQueue
  match s.cal.run with
  | some r => s.calAbandon r.group
  | none => s

end Sys2Proof.Machine
end

