-- ==== Sys2Proof/Machine/Store.lean ====
section
/-! DEFINITION. The store (spec/14, R547 to R566): settings items, the ledger, the pool, fulling and the committed
settings. The start that reads them back stands in Start. -/

namespace Sys2Proof.Machine

def State.modStore (s : State) (f : Store → Store) : State := { s with store := f s.store }
def State.modFlash (s : State) (f : Flash → Flash) : State := { s with flash := f s.flash }

/-! ## Saved settings (R551, R552) -/

/-- The saved registers outside the consistency set (Table 14.5). -/
def savedRegs : List RegName :=
  [.ANC_GLOBAL, .ANC_COREMAP, .ANC_ALIGNCFG, .REF_CFG, .REF_RATIO_NUM, .REF_RATIO_DEN, .REF_FWIN, .REF_MONCFG, .ANC_CFG,
   .ANC_INNER_N, .ANC_INNER_NUM, .ANC_INNER_DEN, .ANC_LOCKCFG, .ANC_SLEW, .ANC_STEERLIM, .ANC_TDCCFG, .TIME_SYNCCFG_LO,
   .TIME_SYNCCFG_HI, .TIME_SYNCMASK, .TRIG_CFG, .TRIG_LIMIT, .CORE_CFG, .CORE_LOCKCFG, .CORE_SPAREMAP, .CORE_WEARCFG,
   .SEQ_STATMAP, .GLB_STATOUT, .RAS_CFG, .RAS_OUTMASK, .RAS_EXPECT, .LN_CFG, .LN_MARGIN, .LN_ASYM, .LN_C0SRC, .LN_TRAIN,
   .LNG_DEVID, .LNG_RCLK, .LNG_TTCFG, .FLT_CFG, .FLT_MGR, .CAL_CFG, .CAL_LIMITS, .CAL_STEPEN, .MON_CTL, .MON_SCAN_LO,
   .MON_SCAN_HI, .MON_VTSEL, .MON_THR_CFG, .BAR_CFG, .BAR_WAKEEN, .BAR_INHIB, .BAR_ALERTEN, .BAR_TIMER, .BAR_LANEMASK,
   .BAR_IN_CFG, .STORE_CFG, .HSPI_CFG, .SVC_CFG]

/-- The registers of sections 3 and 4 of the consistency set (Table 10.4). -/
def setRegs : List RegName :=
  [.STN_CFG, .STN_MAP, .STN_OUTMASK, .OUT_CFG, .OUT_DSET01, .OUT_DSET23, .OUT_DELAY, .OUT_DRV, .OUT_SYSREF, .OUT_SYSPULSE,
   .OUT_RBCFG]

/-- The bits of a register that are saved: its RW fields (R551). -/
def savedMask (r : RegName) : Word := (setMask r).getD (regSpec r).rw

/-- The byte address of a register's instance. -/
def regAddr (r : RegName) (i : Nat) : Nat := (regSpec r).base + (regSpec r).stride * i

/-- A register takes a value by a host write, a remote WRITE or an armed change: what is saved of it (R419, R551). -/
def State.enterSaved (s : State) (r : RegName) (i : Nat) (w : Word) : State :=
  if (setMask r).isSome then s.setEnter r i w
  else if savedRegs.contains r then s.modStore fun x => { x with present := x.present.set r i (w &&& (regSpec r).rw) }
  else s

/-- The present value of a saved register, and its committed value. -/
def State.presentReg (s : State) (r : RegName) (i : Nat) : Word :=
  (if (setMask r).isSome then s.fleet.set.get r i else s.store.present.get r i) &&& savedMask r
def State.committedReg (s : State) (r : RegName) (i : Nat) : Word := s.store.saved.get r i &&& savedMask r

/-- A fault-window item after power-on reset, of those saved: FLT_SEV, FLT_IRQ, FLT_GRACE, FLT_CTRL (Table 13.11). -/
def faultItemReset (code item : Nat) : Word :=
  match item with
  | 0 => (defaultSev code).1
  | 1 => (defaultSev code).2
  | 4 => 0xFFFFFFFF#32
  | 6 => 0x032003E8#32
  | _ => 0

/-- A saved fault-window item as it stands. -/
def FaultWindow.savedItem (w : FaultWindow) (item : Nat) : Word :=
  match item with
  | 0 => w.sev0
  | 1 => w.sev1
  | 4 => w.irq
  | 5 => w.grace
  | _ => w.ctrl

/-- The items of fault windows that are saved. -/
def savedItems : List Nat := [0, 1, 4, 5, 6]

/-- The committed value of a saved fault item. -/
def State.committedItem (s : State) (w item : Nat) : Word :=
  faultItemReset (windowOf w).1 item ^^^ s.store.savedFaults.get (w * 16 + item)

/-- A settings item (Table 14.6). -/
inductive SetItem where
  | reg (addr : Nat) (value : Word)
  | prof (index : Nat) (words : List Word)
  | block (station blk : Nat) (words : List Word)
  | flow (table_ flow : Nat) (entry : Word)
  | fault (code inst item : Nat) (value : Word)
  deriving DecidableEq, Repr, Inhabited

/-- The words of a settings item (Table 14.6). -/
def SetItem.words : SetItem → List Word
  | .reg a v => [BitVec.ofNat 32 (1 * 2 ^ 28 + a % 2 ^ 16), v]
  | .prof i ws => BitVec.ofNat 32 (2 * 2 ^ 28 + i % 2 ^ 12) :: ws
  | .block n b ws => BitVec.ofNat 32 (3 * 2 ^ 28 + n % 8 * 2 ^ 16 + b % 2 ^ 8) :: ws
  | .flow t f e => [BitVec.ofNat 32 (4 * 2 ^ 28 + t % 32 * 2 ^ 16 + f % 2 ^ 12), e]
  | .fault c i k v => [BitVec.ofNat 32 (5 * 2 ^ 28 + c % 64 * 2 ^ 16 + i % 32 * 2 ^ 11 + k % 128), v]

/-- The first item of a payload and the words after it. -/
def nextItem (ws : List Word) : Option (SetItem × List Word) :=
  match ws with
  | [] => none
  | h :: t =>
    match getBits h 28 4 with
    | 1 => match t with | v :: t => some (.reg (getBits h 0 16) v, t) | [] => none
    | 2 => some (.prof (getBits h 0 12) (t.take 8), t.drop 8)
    | 3 => some (.block (getBits h 16 3) (getBits h 0 8) (t.take 64), t.drop 64)
    | 4 => match t with | v :: t => some (.flow (getBits h 16 5) (getBits h 0 12) v, t) | [] => none
    | 5 => match t with | v :: t => some (.fault (getBits h 16 6) (getBits h 11 5) (getBits h 0 7) v, t) | [] => none
    | _ => none

/-- The items of a settings payload, of at most `fuel` words. -/
def itemsOf : (fuel : Nat) → List Word → List SetItem
  | 0, _ => []
  | n + 1, ws =>
    match nextItem ws with
    | some (i, t) => i :: itemsOf n t
    | none => []

/-- Every saved register and instance, ascending within a register. -/
def savedInstances : List (RegName × Nat) :=
  ((setRegs ++ savedRegs).map fun r => (List.range (regSpec r).count).map fun i => (r, i)).flatten

/-- Keys at which two word stores differ, ascending and without repeats. -/
def WMap.differ (a b : WMap) : List Nat :=
  let keys := (a.filter fun c => b.get c.1 != c.2).map (·.1) ++ (b.filter fun c => a.get c.1 != c.2).map (·.1)
  keys.foldl (fun l k => if l.contains k then l else l ++ [k]) []

/-- Keys grouped by a divisor, without repeats. -/
def groupsOf (d : Nat) (ks : List Nat) : List Nat :=
  ks.foldl (fun l k => if l.contains (k / d) then l else l ++ [k / d]) []

/-- The saved settings whose present value differs from the committed value, as items (R553). -/
def State.dirtyItems (s : State) : List SetItem :=
  (savedInstances.filterMap fun (r, i) =>
      if s.presentReg r i = s.committedReg r i then none else some (.reg (regAddr r i) (s.presentReg r i)))
  ++ ((groupsOf 8 (s.profs.differ s.store.savedProfs)).map fun p => .prof p (s.profs.slice (p * 8) 8))
  ++ ((groupsOf 64 (s.pgm.differ s.store.savedPgm)).map fun b => .block (b / 256) (b % 256) (s.pgm.slice (b * 64) 64))
  ++ ((s.lng.flows.differ s.store.savedFlows).map fun k => .flow (k / 4096) (k % 4096) (s.lng.flows.get k))
  ++ ((List.range 97).map fun w => savedItems.filterMap fun k =>
        let (c, i) := windowOf w
        if (s.win w).savedItem k = s.committedItem w k then none else some (.fault c i k ((s.win w).savedItem k))).flatten

/-- STORE_STAT.DIRTY (R553). -/
def State.dirty (s : State) : Bool := !s.dirtyItems.isEmpty

/-- An item becomes the committed value of its setting. -/
def Store.commitItem (x : Store) (i : SetItem) : Store :=
  match i with
  | .reg a v => match regAt a with | some (r, k) => { x with saved := x.saved.set r k v } | none => x
  | .prof p ws => { x with savedProfs := x.savedProfs.setMany (p * 8) ws }
  | .block n b ws => { x with savedPgm := x.savedPgm.setMany (n * 16384 + b * 64) ws }
  | .flow t f e => { x with savedFlows := x.savedFlows.set (t * 4096 + f) e }
  | .fault c n k v => { x with savedFaults := x.savedFaults.set (windowIndex c n * 16 + k) (v ^^^ faultItemReset c k) }

def Store.commitItems (x : Store) (l : List SetItem) : Store := l.foldl Store.commitItem x

/-- The committed settings that differ from their Reset values, as items: a settings section (Table 14.8). -/
def Store.items (x : Store) : List SetItem :=
  (savedInstances.filterMap fun (r, i) =>
      let v := x.saved.get r i &&& savedMask r
      if v = resetWord r i &&& savedMask r then none else some (.reg (regAddr r i) v))
  ++ ((groupsOf 8 (x.savedProfs.map (·.1))).map fun p => .prof p (x.savedProfs.slice (p * 8) 8))
  ++ ((groupsOf 64 (x.savedPgm.map (·.1))).map fun b => .block (b / 256) (b % 256) (x.savedPgm.slice (b * 64) 64))
  ++ (x.savedFlows.map fun (k, v) => .flow (k / 4096) (k % 4096) v)
  ++ (x.savedFaults.map fun (k, v) =>
        let (c, i) := windowOf (k / 16)
        .fault c i (k % 16) (v ^^^ faultItemReset c (k % 16)))

/-- The items of a list as one payload. -/
def itemWords (l : List SetItem) : List Word := (l.map SetItem.words).flatten

/-! ## Words on the flash (Tables 14.4, 14.7, 14.8) -/

/-- The bytes of words, most significant first. -/
def wordBytes (ws : List Word) : List Nat := (ws.map fun w => bytesOf 4 w.toNat).flatten

/-- The CRC-32 of IEEE 802.3 over words. -/
def crcWords (ws : List Word) : Word := crc32 (wordBytes ws)

/-- The COMMIT word of a committed record, and of a void one. -/
def commitWord : Word := 0xC3A55A3C#32

/-- A record without its COMMIT word (Table 14.7). -/
def Record.body (r : Record) : List Word :=
  let h : List Word :=
    [BitVec.ofNat 32 (0xB7 * 2 ^ 24 + r.kind % 16 * 2 ^ 20 + r.payload.length % 2 ^ 20), BitVec.ofNat 32 r.seq,
     BitVec.ofNat 32 (r.format % 2 ^ 16 * 2 ^ 16)]
  let ws := h ++ [crcWords h] ++ r.payload
  ws ++ [crcWords ws]

/-- The words of a record on the flash; a torn one reads neither marker. -/
def Record.words (r : Record) : List Word :=
  r.body ++ [match r.commit with | .whole => commitWord | .void => 0 | .torn => 0xFFFFFFFF#32]

/-- Words a record takes: 6 and its payload. -/
def recordLength (payload : List Word) : Nat := payload.length + 6

/-- The header of a pool block (Table 14.4). -/
def poolHeader (role index erases firstSeq : Nat) : List Word :=
  let h : List Word := [BitVec.ofNat 32 (0x57B0 * 2 ^ 16 + role % 256 * 256 + index % 256), BitVec.ofNat 32 erases]
  h ++ [BitVec.ofNat 32 firstSeq, crcWords h, 0, 0, 0, 0]

/-- The words of a base copy (Table 14.8). -/
def BaseCopy.words (b : BaseCopy) : List Word :=
  let sec := (b.sections.map fun x =>
    [BitVec.ofNat 32 (x.kind % 16 * 2 ^ 28 + x.format % 2 ^ 16), BitVec.ofNat 32 x.body.length] ++ x.body).flatten
  let h : List Word := [0xBA5E0000#32, BitVec.ofNat 32 b.lastSeq, BitVec.ofNat 32 sec.length]
  let ws := h ++ [crcWords h] ++ sec
  ws ++ [crcWords ws, commitWord]

/-! ## Sequence numbers and the ring (R556, R562) -/

/-- A sequence number is newer than another (R556). -/
def newer (a b : Nat) : Bool :=
  let d := (a + 2 ^ 32 - b) % 2 ^ 32
  decide (1 ≤ d) && decide (d ≤ 2 ^ 31 - 1)

/-- Ring words in a block: its usable space of 65,504 bytes (R547). -/
def blockWords : Nat := 16376

/-- Ring blocks that hold records, and those free ahead of the write point. -/
def Flash.ringUsed (f : Flash) : Nat := f.ringBlock - f.ringHead + (if f.ringWord = 0 then 0 else 1)
def Flash.ringFree (f : Flash) : Nat := 96 - f.ringUsed

/-- Whether a record of `n` words fits ahead of the write point. -/
def Flash.fits (f : Flash) (n : Nat) : Bool :=
  decide (n ≤ blockWords - f.ringWord + blockWords * (f.ringHead + 95 - f.ringBlock))

/-- The write point after `n` more words. -/
def Flash.advance (f : Flash) (n : Nat) : Flash :=
  let w := f.ringWord + n
  { f with ringBlock := f.ringBlock + w / blockWords, ringWord := w % blockWords }

/-- The committed records, oldest first. -/
def Flash.wholeRecords (f : Flash) : List Record := f.ring.filter fun r => r.commit == .whole

/-- The base copy in use. -/
def State.base (s : State) : BaseCopy := if s.store.useB then s.flash.baseB else s.flash.baseA

/-- SEQ of the newest committed record, or LASTSEQ of the base copy in use. -/
def State.newestSeq (s : State) : Nat :=
  s.flash.wholeRecords.foldl (fun m r => if newer r.seq m then r.seq else m) s.base.lastSeq

/-- The running firmware's settings format (UPD_FW.SETFMT). -/
def State.setFmt (s : State) : Nat := s.fld Fields.UPD_FW_SETFMT 0

/-- The fulling threshold in ring blocks (STORE_CFG.FULLAT, 8 to 64). -/
def State.fullAt (s : State) : Nat := min 64 (max 8 (s.fld Fields.STORE_CFG_FULLAT 0))

/-! ## The pool (R547 to R550, R566) -/

/-- The number of pool blocks of a role. -/
def Flash.countRole (f : Flash) (r : PoolRole) : Nat := (f.pool.filter fun b => b.role == r).length

/-- Highest ERASES in the pool (STORE_WEAR). -/
def Flash.wear (f : Flash) : Nat := f.pool.foldl (fun m b => max m b.erases) 0

/-- The roles that a store has. -/
def poolRoles : List PoolRole :=
  (List.range 48).map PoolRole.baseA ++ (List.range 48).map PoolRole.baseB ++ (List.range 96).map PoolRole.ring

/-- The place of the spare with the fewest erases, the lowest-numbered of several. -/
def Flash.bestSpare (f : Flash) : Option Nat :=
  let spares := f.pool.zipIdx.filter fun (b, _) => b.role == .spare
  match spares with
  | [] => none
  | (b, i) :: rest => some (rest.foldl (fun (m : PoolBlock × Nat) x => if x.1.erases < m.1.erases then x else m) (b, i)).2

/-- A spare is erased and takes a role; none when there is no spare. -/
def Flash.fillRole (f : Flash) (r : PoolRole) : Option Flash :=
  f.bestSpare.map fun i =>
    { f with pool := f.pool.modify i fun b => { role := r, erases := b.erases + 1 } }

/-- Erase the blocks of some roles once. -/
def Flash.eraseRoles (f : Flash) (p : PoolRole → Bool) : Flash :=
  { f with pool := f.pool.map fun b => if p b.role then { b with erases := b.erases + 1 } else b }

/-- The ledger turns read-only (R566): fulling in progress is abandoned, the commits that wait are refused with READONLY, as R462 says for
one of calibration, and the level source is live. -/
def State.turnReadOnly (s : State) : State :=
  let has (k : Nat) : Bool := s.store.queue.any fun q => q.kind == k
  let (save, cal) := (has 1, has 2)
  let s := s.modStore fun x => { x with readOnly := true, fulling := none, queue := [] }
  let s := if save then s.setFld Fields.STORE_STAT_RESULT 0 1 else s
  let s := if cal then (s.setFld Fields.CAL_IMGSTAT_RESULT 0 7).raiseEvent Src.cal_COMMIT_FAIL 0 else s
  s.beginLevel Src.store_LEDGER_READONLY 0

/-- A pool block fails an erase or a program (R550, R566): it is retired and a spare takes its role and index. -/
def State.poolFails (s : State) (i : Nat) : State :=
  match s.flash.pool[i]? with
  | none => s
  | some b =>
    if b.role == .retired then s
    else
      let s := (s.modFlash fun f => { f with pool := f.pool.modify i fun b => { b with role := .retired } }).raiseEvent
        Src.store_ERASE_FAIL 0
      if b.role == .spare || b.role == .blank || b.role == .other then s
      else
        match s.flash.fillRole b.role with
        | some f => { s with flash := f }
        | none => s.turnReadOnly

/-! ## Commits (R555 to R558) -/

/-- Later items replace earlier ones of the same setting. -/
def mergeItems (old new : List SetItem) : List SetItem :=
  let head (i : SetItem) : Option Word := i.words.head?
  old.filter (fun i => !new.any fun j => head j == head i) ++ new

/-- A request merges into a queued commit of its own kind (R557): the newer capture, image or epoch words; the union of the
items of epoch commits; update events one after the other. -/
def Queued.merge (q : Queued) (payload : List Word) : Queued :=
  match q.kind with
  | 3 =>
    { q with payload := payload.take 6
        ++ itemWords (mergeItems (itemsOf q.payload.length (q.payload.drop 6)) (itemsOf payload.length (payload.drop 6))) }
  | 4 => { q with payload := q.payload ++ payload }
  | _ => { q with payload := payload }

/-- Start fulling up to the newest committed record (R562). -/
def State.startFulling (s : State) : State :=
  if s.store.readOnly || s.store.fulling.isSome then s
  else
    let n := s.newestSeq
    let useB := s.store.useB
    let s := s.modStore fun x => { x with fulling := some n }
    s.modFlash fun f =>
      let f := f.eraseRoles fun r => match r with | .baseA _ => useB | .baseB _ => !useB | _ => false
      if useB then { f with baseA := { f.baseA with valid := false } } else { f with baseB := { f.baseB with valid := false } }

/-- Fulling starts when STORE_CFG.FULLAT or fewer ring blocks lie ahead of the write point (R562). -/
def State.fullingDue (s : State) : State := if s.flash.ringFree ≤ s.fullAt then s.startFulling else s

/-- The front commit starts to be written when no record is being written and the ring has room (R556, R557, R562). -/
def State.storeKick (s : State) : State :=
  if s.store.writing.isSome || s.store.readOnly then s
  else
    match s.store.queue with
    | [] => s
    | q :: rest =>
      if !s.flash.fits (recordLength q.payload) then s
      else
        let seq := (s.reg .STORE_NEXTSEQ 0).toNat
        let first := s.flash.ringBlock
        let s := s.modFlash fun f => f.advance (recordLength q.payload)
        let s := s.setReg .STORE_NEXTSEQ 0 (BitVec.ofNat 32 (seq + 1))
        s.modStore fun x =>
          { x with queue := rest
                   writing := some ⟨q.kind, seq, s.setFmt, q.payload, .torn, first, s.flash.ringBlock⟩ }

/-- A commit is requested (R557). The caller has refused it when the ledger is read-only. -/
def State.requestCommit (s : State) (kind : Nat) (payload : List Word) : State :=
  let s := s.modStore fun x =>
    if x.queue.any fun q => q.kind == kind then
      { x with queue := x.queue.map fun q => if q.kind == kind then q.merge payload else q }
    else { x with queue := x.queue ++ [⟨kind, payload⟩] }
  s.storeKick

/-- Items of a committed record become committed values (R551, R558). -/
def State.takeRecord (s : State) (r : Record) : State :=
  match r.kind with
  | 1 => if r.format = s.setFmt then s.modStore fun x => x.commitItems (itemsOf r.payload.length r.payload) else s
  | 3 => s.modStore fun x => x.commitItems (itemsOf r.payload.length (r.payload.drop 6))
  | _ => s

/-- A record's COMMIT word is programmed (R555): it is committed, the next one starts, and fulling starts when the ring runs
short (R562). -/
def State.recordCommitted (s : State) : State :=
  match s.store.writing with
  | none => s
  | some r =>
    let r := { r with commit := .whole }
    let s := (s.modFlash fun f => { f with ring := f.ring ++ [r] }).modStore fun x => { x with writing := none }
    let s := (s.bump Fields.STORE_COMMITS_COUNT 0 1).modStore fun x => { x with lastCommit := s.now }
    let s := s.takeRecord r
    s.storeKick.fullingDue

/-- A SAVE released at the present tick (R553, R557, R566). -/
def State.storeSave (s : State) : State :=
  let result (s : State) (n : Nat) : State := s.setFld Fields.STORE_STAT_RESULT 0 n
  if s.store.readOnly then result s 1
  else
    let items := s.dirtyItems
    if items.isEmpty then result s 2
    else (result s 0).requestCommit 1 (itemWords items)

/-- STORE_CMD.FULL (R562). -/
def State.storeFull (s : State) : State :=
  let result (s : State) (n : Nat) : State := s.setFld Fields.STORE_STAT_RESULT 0 n
  if s.store.readOnly then result s 1
  else if s.store.fulling.isSome then result s 3
  else (result s 0).startFulling

/-- A write of STORE_CMD with its key: SAVE, then FULL. -/
def State.writeStoreCmd (s : State) (w : Word) : State :=
  let s := if bitOf w 0 then s.storeSave else s
  if bitOf w 1 then s.storeFull else s

/-! ## Fulling (R562, R601) -/

/-- The newest body of a kind among the base copy in use and the records not newer than `upTo`. -/
def State.newestBody (s : State) (kind upTo : Nat) : Option (List Word) :=
  let base := (s.base.sections.find? fun x => x.kind == kind).map (·.body)
  (s.flash.wholeRecords.filter fun r => r.kind == kind && !newer r.seq upTo && newer r.seq s.base.lastSeq).foldl
    (fun _ r => some r.payload) base

/-- The committed settings of a format as of a sequence number: the base section of that format, then its records. -/
def State.settingsAt (s : State) (fmt upTo : Nat) : Store :=
  let clean : Store := { s.store with saved := [], savedProfs := [], savedPgm := [], savedFlows := [], savedFaults := [] }
  let x := (s.base.sections.filter fun x => x.kind == 1 && x.format == fmt).foldl
    (fun x sec => x.commitItems (itemsOf sec.body.length sec.body)) clean
  (s.flash.wholeRecords.filter fun r => !newer r.seq upTo && newer r.seq s.base.lastSeq).foldl
    (fun x r =>
      if r.kind = 1 ∧ r.format = fmt then x.commitItems (itemsOf r.payload.length r.payload)
      else if r.kind = 3 then x.commitItems (itemsOf r.payload.length (r.payload.drop 6)) else x) x

/-- The words of one update record: EVENT, tick, VERSIONs and SVNs (R602). -/
def updateWords : Nat := 9

/-- The newest 16 update records as one body (R602). -/
def State.updateBody (s : State) (upTo : Nat) : List Word :=
  let base := ((s.base.sections.find? fun x => x.kind == 4).map (·.body)).getD []
  let all := (s.flash.wholeRecords.filter fun r => r.kind == 4 && !newer r.seq upTo && newer r.seq s.base.lastSeq).foldl
    (fun l r => l ++ r.payload) base
  all.drop (all.length - 16 * updateWords)

/-- The formats the store holds (R601): the running firmware's and, in TRIAL, the fallback image's. -/
def State.heldFormats (s : State) : List Nat :=
  let own := s.setFmt
  match s.flash.table_ with
  | some e => if e.state == .trial && s.fld Fields.UPD_FW_FBSETFMT 0 != own then [own, s.fld Fields.UPD_FW_FBSETFMT 0] else [own]
  | none => [own]

/-- The base copy that fulling writes, as of a sequence number. -/
def State.foldedBase (s : State) (upTo : Nat) : BaseCopy :=
  let opt (kind : Nat) (b : Option (List Word)) : List Section :=
    match b with
    | some ws => if ws.isEmpty then [] else [⟨kind, s.setFmt, ws⟩]
    | none => []
  ⟨true, upTo,
    (s.heldFormats.map fun f => ⟨1, f, itemWords (s.settingsAt f upTo).items⟩)
      ++ opt 2 (s.newestBody 2 upTo) ++ opt 3 ((s.newestBody 3 upTo).map fun ws => ws.take 6) ++ opt 4 (some (s.updateBody upTo))⟩

/-- Fulling completes (R562): the other copy is in use and the ring blocks it covers are erased. -/
def State.fullingDone (s : State) : State :=
  match s.store.fulling with
  | none => s
  | some n =>
    let b := s.foldedBase n
    let useB := !s.store.useB
    let keep := s.flash.ring.dropWhile fun r => !newer r.seq n
    let head := match keep.head?, s.store.writing with
      | some r, _ => r.first
      | none, some r => r.first
      | none, none => s.flash.ringBlock
    let freed := head - s.flash.ringHead
    let old := s.flash.ringHead
    let s := s.modFlash fun f =>
      let f := f.eraseRoles fun r => match r with
        | .ring i => decide ((i + 96 - old % 96) % 96 < freed)
        | _ => false
      let f := { f with ring := keep, ringHead := head }
      if useB then { f with baseB := b } else { f with baseA := b }
    let s := (s.modStore fun x => { x with fulling := none, useB := useB }).bump Fields.STORE_FULLCNT_COUNT 0 1
    (s.setReg .STORE_BASE 0 (BitVec.ofNat 32 n)).storeKick

/-! ## What power takes with it (R565) -/

/-- A power loss, a start or a class-3 fault ends the store's work: a record being written stays torn on the flash, and a
copy being written stays invalid (Table 14.9). -/
def State.storeCut (s : State) : State :=
  let s := match s.store.writing with
    | some r => s.modFlash fun f => { f with ring := f.ring ++ [r] }
    | none => s
  s.modStore fun x => { x with queue := [], writing := none, fulling := none }

/-- STORE_STAT, but for what its register holds. -/
def State.storeStat (s : State) : Word :=
  let has (k : Nat) : Nat := (s.store.queue.any fun q => q.kind == k).toNat
  BitVec.ofNat 32 (s.store.readOnly.toNat * 2 ^ 31 + s.store.fulling.isSome.toNat * 2 ^ 30
    + s.store.writing.isSome.toNat * 2 ^ 29 + s.dirty.toNat * 2 ^ 28 + has 4 * 2 ^ 27 + has 3 * 2 ^ 26 + has 2 * 2 ^ 25
    + has 1 * 2 ^ 24 + s.fld Fields.STORE_STAT_RESULT 0 * 2 ^ 16)

end Sys2Proof.Machine
end

