-- ==== Sys2Proof/Machine/Calibration.lean ====
section
/-! DEFINITION. Calibration (spec/11): groups, measured and model runs, when values take effect, images. -/

namespace Sys2Proof.Machine

/-! ## Groups (R432, R433, R438, Table 11.9) -/

/-- The kind of a group (Table 11.8): 0 core, 1 output, 2 anchor. -/
def calKind (g : Nat) : Nat := if g < 26 then 0 else if g < 58 then 1 else 2

/-- The value words of a group (Table 11.8). -/
def calWords (g : Nat) : Nat :=
  match calKind g with
  | 0 => 1072
  | 1 => 16
  | _ => 4

/-- A value word of a group as it stands. -/
def State.calWord (s : State) (g item : Nat) : Word := s.calVals.get (g * 2048 + item)
def State.setCalWord (s : State) (g item : Nat) (w : Word) : State :=
  { s with calVals := s.calVals.set (g * 2048 + item) w }

/-- The value words of a group that differ from 0. -/
def State.groupWords (s : State) (g : Nat) : WMap :=
  (s.calVals.filter fun c => decide (g * 2048 ≤ c.1) && decide (c.1 < g * 2048 + 2048)).map fun c => (c.1 - g * 2048, c.2)

/-- The steps of a group's kind (Table 11.2). -/
def calSteps (g : Nat) : Nat :=
  match calKind g with
  | 0 => 0x07E
  | 1 => 0x180
  | _ => 0x001

/-- ΔT in 1/16 °C: CAL_CFG.DT × 0.5 °C, 1 to 40. -/
def State.calDT (s : State) : Nat := min 40 (s.fld1 Fields.CAL_CFG_DT 0) * 8

/-- The model span in 1/16 °C (CAL_CFG.TRKSPAN, 2 to 60 °C). -/
def State.calSpan (s : State) : Nat := min 60 (max 2 (s.fld Fields.CAL_CFG_TRKSPAN 0)) * 16

/-- A group is current (R438). -/
def State.calCurrent (s : State) (g : Nat) : Bool :=
  let x := s.grp g
  x.hasVal && (match x.base, s.groupTemp g with
    | some b, some t => decide ((t - b).natAbs ≤ s.calDT)
    | _, _ => false)

/-- The cores of a station in service: those of its map that are not fenced. -/
def State.usedCores (s : State) (n : Nat) : List Nat := (s.stationCores n).filter fun c => (s.core c).role != .fenced

/-- The groups that a station uses (R432). -/
def State.groupsUsed (s : State) (n : Nat) : List Nat :=
  let cs := s.usedCores n
  cs ++ ((bitsOf (s.reg .STN_OUTMASK n) 32).filter fun o => s.flag Fields.OUT_CFG_EN o).map (26 + ·)
    ++ ((List.range 2).filter fun a => cs.any fun c => s.ancOf c == a).map (58 + ·)

/-- The running stations that use a group. -/
def State.stationsUsing (s : State) (g : Nat) : List Nat :=
  (List.range 8).filter fun n => (s.stn n).running && (s.groupsUsed n).contains g

/-- Take note of whether one group is due (R438, R440): a group that a running station uses and that becomes due raises
CAL_DUE and lapses the promise; when it is current again the record is made and the lapse ends. -/
def State.calNote (s : State) (g : Nat) : State :=
  let x := s.grp g
  let due := !s.calCurrent g
  let using_ := s.stationsUsing g
  let s := s.modGrp g fun x => { x with due := due, dueSince := if due && !x.due then s.elapsed else x.dueSince }
  if due && !x.due && !using_.isEmpty then
    let s := s.beginLevel Src.cal_CAL_DUE (BitVec.ofNat 32 g)
    (s.lapseWith Src.cal_CAL_DUE (stationMask using_) (.cal g)).modGrp g fun x => { x with usedDue := true }
  else if !due && x.due then
    let s := s.modGrp g fun x => { x with starved := false, usedDue := false }
    if x.usedDue then (s.record 9 0 3 s.now (BitVec.ofNat 32 g)).endLapses fun l => l.ends == LapseEnd.cal g else s
  else s

/-- A station no longer uses a group: its own part of a lapse for that group ends (R4, R432). -/
def State.calLeft (s : State) (n g : Nat) : State :=
  let me := stationMask [n]
  let s := { s with lapses := s.lapses.flatMap fun (l : Lapse) =>
    if l.ends == LapseEnd.cal g && (l.stations &&& me) != 0 && l.stations != me then
      [{ l with stations := l.stations &&& me }, { l with stations := l.stations &&& ~~~me }]
    else [l] }
  let s := if (s.stationsUsing g).isEmpty then s.modGrp g fun x => { x with usedDue := false } else s
  let s := s.endLapses fun l => l.ends == LapseEnd.cal g && l.stations == me
  if (List.range 60).any fun g => (s.grp g).usedDue then s else s.endLevel Src.cal_CAL_DUE

/-- What a running station uses has changed since the last tick (a spare in a core's place, a core moved to the other anchor):
the promise lapses for it where a group it now uses is due, and it is done with those it uses no longer (R4, R432). The groups
in use when its run began are only taken note of. -/
def State.calUses (s : State) (n : Nat) : State :=
  let old := (s.stn n).uses
  let u := if (s.stn n).running then s.groupsUsed n else []
  if u = old then s
  else
    let s := s.modStn n fun t => { t with uses := u }
    if u = [] || old = [] then s
    else
      let s := s.each (u.filter fun g => !old.contains g && (s.grp g).due) fun s g =>
        (s.lapseWith Src.cal_CAL_DUE (stationMask [n]) (.cal g)).modGrp g fun x => { x with usedDue := true }
      s.each (old.filter fun g => !u.contains g) fun s g => s.calLeft n g

/-- Take note of every group, and of the level sources that depend on them (R440, R447). -/
def State.calRefresh (s : State) : State :=
  let s := s.each (List.range 60) State.calNote
  let s := if (List.range 60).any fun g => (s.grp g).usedDue then s else s.endLevel Src.cal_CAL_DUE
  if (List.range 60).any fun g => (s.grp g).starved then s else s.endLevel Src.cal_STARVED

/-- A group has been due for STARVE × 10 ms (R447). -/
def State.calStarved (s : State) (g : Nat) : State :=
  let x := s.grp g
  if x.due && !x.starved && decide (x.dueSince + s.fld1 Fields.CAL_CFG_STARVE 0 * 5000000 ≤ s.elapsed) then
    (s.modGrp g fun x => { x with starved := true }).beginLevel Src.cal_STARVED 0
  else s

/-! ## Availability and the conditions of a run (Table 11.4, R455) -/

/-- The slot of a station in which a core stands. -/
def State.slotOf (s : State) (c : Nat) : Option (Nat × Nat) :=
  match s.mapOwner c with
  | some n => ((List.range 3).find? fun k => s.slot n k == some c).map fun k => (n, k)
  | none => none

/-- A unit is available for a measured run (Table 11.4). -/
def State.calAvailable (s : State) (g : Nat) : Bool :=
  if g < 26 then
    let x := s.core g
    match x.role with
    | .blocking =>
      match s.slotOf g with
      | some (n, k) => decide ((s.slotSt n k).freeAt ≤ s.elapsed) && (s.slotSt n k).prep.isNone
      | none => false
    | .spare => x.state == .idle && x.racingFor.isNone
    | .unassigned => (s.outsOf g).isEmpty && (s.rasOfCore g).isNone
    | _ => false
  else if g < 58 then
    let o := g - 26
    !s.gated o && (match s.srcOf o with | some c => (s.core c).state == .locked | none => false)
  else (s.anc (g - 58)).state.drives && (s.ref 4).qualified

/-- The code of an anchor state (Table 2.3). -/
def AncState.num : AncState → Nat
  | .off => 0 | .innerAcq => 1 | .innerLocked => 2 | .outerAcq => 3 | .steered => 4 | .following => 5 | .failed => 6

/-- The latest code of a channel, 0 before its first conversion. -/
def State.latestCode (s : State) (ch : Nat) : Nat := ((s.mon.latest[ch]?).getD none).getD 0

/-- A temperature in the signed 16 bits of a register. -/
def temp16 (t : Int) : Nat := (t % 65536).toNat

/-- The mean of the die points, in 1/16 °C (CAL_GSNAP2.TDIE), toward minus infinity. -/
def State.dieMean (s : State) : Int := ((List.range 8).foldl (fun (z : Int) i => z + tempOf (s.latestCode (28 + i))) 0) / 8

/-- The condition snapshot taken at a run's start (R455). -/
def State.snapshot (s : State) (g : Nat) : State :=
  let p := s.primary.getD 0
  s.modGrp g fun x =>
    { x with snap0 := s.reg .REF_FOFFS 4
             snap1 := BitVec.ofNat 32 (s.latestCode 56 / 8 * 2 ^ 16 + s.fld Fields.ANC_CFG_REFSEL p * 2 ^ 13 + p * 2 ^ 12
               + (s.anc p).state.num * 2 ^ 9 + s.fld Fields.REF_MONCFG_TBASE 4 * 2 ^ 7)
             snap2 := BitVec.ofNat 32 (temp16 (tempOf (s.latestCode (26 + p))) * 2 ^ 16 + temp16 s.dieMean) }

/-! ## Coefficients and model runs (R442, R443) -/

/-- A value brought into the range of its trim, and whether it lay outside (R434). -/
def clampTo (lo hi z : Int) : Int × Bool := (max lo (min hi z), decide (z < lo) || decide (hi < z))

/-- A signed 16-bit value in the low half of a word, and a word that holds a signed number. -/
def low16 (w : Word) : Int := (w.extractLsb' 0 16).toInt
def word16 (z : Int) : Word := (BitVec.ofInt 16 z).setWidth 32

/-- The value words that a coefficient word scales (Table 11.9): per kind, the coefficient's word, the value's word and how
many units of the value one unit of the coefficient moves it per 1/16 °C, as a fraction. FMID has its own rule. -/
def calPairs (kind : Nat) : List (Nat × Nat × Rat) :=
  match kind with
  | 0 => [(1062, 1056, mkRat 1 800), (1067, 1058, mkRat 32768 1600000), (1068, 1059, mkRat 32768 1600000),
          (1069, 1060, mkRat 32768 1600000), (1070, 1061, mkRat 32768 1600000)]
  | 1 => [(7, 0, mkRat 1 800), (8, 1, mkRat 1 160)]
  | _ => [(3, 0, mkRat (2 ^ 40) 16000000000)]

/-- Whether a value is held in 16 signed bits, and its reading. -/
def calValue (kind : Nat) (w : Word) : Int := if kind = 0 then low16 w else w.toInt
def calStore (kind : Nat) (z : Int) : Word := if kind = 0 then word16 z else wordOfInt z

/-- MODGAIN is unsigned. -/
def calRead (kind item : Nat) (w : Word) : Int :=
  if kind = 0 ∧ 1058 ≤ item ∧ item ≤ 1061 then getBits w 0 16 else calValue kind w

/-- The coefficient words of a group after a measured run (R442): from the two runs whose base temperatures differ by 2 °C
or more, otherwise the design coefficients. -/
def calCoefs (g : Nat) (new : CalPast) (old : Option CalPast) : List (Nat × Word) :=
  let kind := calKind g
  let pairs := (calPairs kind).map fun (ci, vi, per) =>
    match old with
    | some o =>
      let dv : Rat := calRead kind vi (new.words.get vi) - calRead kind vi (o.words.get vi)
      (ci, wordOfInt (ratRound (dv / (per * ((new.base - o.base : Int) : Rat)))))
    | none => (ci, Config.designCoef kind ci)
  let fmid := if kind = 0 then (List.range 4).map fun k =>
      match old with
      | some o => (1063 + k, Config.fmidCoef o.base new.base (o.words.slice (256 * k) 256) (new.words.slice (256 * k) 256))
      | none => (1063 + k, Config.designCoef kind (1063 + k))
    else []
  pairs ++ fmid

/-- A band word moved by a temperature change with its sub-core's coefficient, 0.1 ppm/°C (Table 11.9). -/
def modelBand (w : Word) (sub : Nat) (coef : Int) (dT : Int) : Word :=
  let base : Nat := subLo sub - 400000000
  let f : Rat := base + getBits w 17 15 * 100000
  let f' := f * (1 + mkRat (coef * dT) 160000000)
  putBits w 17 15 (min 32767 (ratRound ((f' - base) / 100000)).toNat)

/-- The range of a trim that a coefficient moves (Table 11.2, R434). -/
def calRange (kind item : Nat) : Int × Int :=
  match kind, item with
  | 0, 1056 => (-160, 160)
  | 0, _ => (0, 65535)
  | 1, 0 => (-800, 800)
  | 1, _ => (-300, 300)
  | _, _ => (-219902325, 219902325)

/-- A value that a coefficient word moves, at a temperature `dT` from its base, not yet brought into the range of its trim. -/
def State.modelValue (s : State) (g : Nat) (dT : Int) (ci item : Nat) (per : Rat) (w : Word) : Int :=
  let c : Rat := (s.calWord g ci).toInt
  calRead (calKind g) item w + ratRound (c * per * (dT : Rat))

/-- The value words of a model run at a temperature, each trim within its range (R434, R442, R443). -/
def State.modelWords (s : State) (g : Nat) (t : Int) : WMap :=
  let kind := calKind g
  let b := (s.grp g).base.getD t
  let dT := t - b
  let coefItems := (calPairs kind).map (·.1) ++ (if kind = 0 then [1063, 1064, 1065, 1066] else [])
  (s.groupWords g).foldl (fun (m : WMap) (i, w) =>
    if coefItems.contains i ∨ (kind = 2 ∧ i ≠ 0) ∨ (kind = 1 ∧ 9 ≤ i) ∨ (kind = 0 ∧ i = 1071) then m.set i w
    else
      match (calPairs kind).find? fun p => p.2.1 == i with
      | some (ci, _, per) =>
        let (lo, hi) := calRange kind i
        m.set i (calStore kind (clampTo lo hi (s.modelValue g dT ci i per w)).1)
      | none =>
        if kind = 0 ∧ i < 1024 then m.set i (modelBand w (i / 256) (s.calWord g (1063 + i / 256)).toInt dT)
        else m.set i (Config.modelWord kind i b t w)) []

/-- A model run finds a trim beyond its range (R434). -/
def State.modelLimited (s : State) (g : Nat) (t : Int) : Bool :=
  (calPairs (calKind g)).any fun (ci, vi, per) =>
    let (lo, hi) := calRange (calKind g) vi
    (clampTo lo hi (s.modelValue g (t - (s.grp g).base.getD t) ci vi per (s.calWord g vi))).2

/-- A model run (R443): refused NOMODEL when no values are held, or when the temperature lies outside the span of every
measured run. -/
def State.modelRun (s : State) (g : Nat) : State :=
  let x := s.grp g
  match s.groupTemp g with
  | none => s
  | some t =>
    let far := x.past.all fun p => decide (s.calSpan < (t - p.base).natAbs)
    if !x.hasVal || far then (s.modGrp g fun x => { x with result := 4 }).raiseEvent Src.cal_NO_MODEL 0
    else
      let limited := s.modelLimited g t
      let s := s.modGrp g fun x => { x with result := if limited then 2 else 0, waiting := some ⟨s.modelWords g t, t, 2, s.elapsed⟩ }
      if limited then s.raiseEvent Src.cal_TRIM_LIMIT 0 else s

/-! ## Measured runs (R443 to R446) -/

/-- A due group's run starts (R443): measured when its unit is available, otherwise from the model. A RUN command waits for
the unit (Table 11.11), and a due group takes its values from the model meanwhile. A paused run resumes while its temperature has moved by no more than ΔT/2 (R446). -/
def State.calRunStart (s : State) (g : Nat) : State :=
  let x := s.grp g
  let auto := x.due && s.flag Fields.CAL_CFG_EN 0
  if !(auto || x.wanted) || s.flag Fields.MON_STAT_FENCED 0 || s.cal.run.isSome || decide (s.elapsed < x.retryAt) then s
  else if s.calAvailable g then
    let steps := s.fld Fields.CAL_STEPEN_STEPS 0 &&& calSteps g
    let resume := match x.paused, s.groupTemp g with
      | some t0, some t => decide (2 * (t - t0).natAbs ≤ s.calDT)
      | _, _ => false
    if resume then
      { s with cal := { s.cal with run := some ⟨g, s.elapsed, x.paused, none, steps, false, x.pausedDone &&& steps⟩ } }.modGrp g fun x =>
        { x with paused := none }
    else
      let s := s.snapshot g
      let (r, s) := s.inject (calChannel g) (some g)
      { s with cal := { s.cal with run := some ⟨g, s.elapsed, none, none, steps, decide (r = InjRes.queued), 0⟩ } }.modGrp g fun x =>
        { x with paused := none }
  else if auto then s.modelRun g
  else s

/-- The periodic injection for a group whose channel is not in the scan (R439). -/
def State.calInjectIdle (s : State) (g : Nat) : State :=
  let last := (s.cal.injectedAt[g]?).getD 0
  if s.mon.mask.getLsbD (calChannel g) || decide (s.elapsed < last + 5000000) then s
  else
    let s := (s.inject (calChannel g) (some g)).2
    { s with cal := { s.cal with injectedAt := s.cal.injectedAt.setIfInBounds g s.elapsed } }

/-- The engine asks for a conversion (R439, R444): the start or end sample of the run in progress, or, every 10 ms, one of a
group whose channel is not in the scan. -/
def State.calInject (s : State) (g : Nat) : State :=
  match s.cal.run with
  | some r =>
    if r.group = g then
      if r.asked || r.t1.isSome then s
      else
        let (q, s) := s.inject (calChannel g) (some g)
        { s with cal := { s.cal with run := some { r with asked := decide (q = InjRes.queued) } } }
    else s.calInjectIdle g
  | none => s.calInjectIdle g

/-- A step that is still to be done needs REFCAL (R436). -/
def CalRun.needsRef (r : CalRun) : Bool := (r.steps &&& 3) &&& (511 - r.done % 512) != 0

/-- REFCAL has not been qualified for REFTO × 10 ms (R436, R437): the run ends NOREF and is retried after as long again. -/
def State.calRefTimeout (s : State) (g : Nat) : State :=
  match s.cal.run with
  | some r =>
    let wait := s.fld1 Fields.CAL_LIMITS_REFTO 0 * 5000000
    let from_ := max r.startedAt (s.ref 4).lostAt
    if r.group = g ∧ r.needsRef = true ∧ !(s.ref 4).qualified ∧ from_ + wait ≤ s.elapsed then
      ({ s with cal := { s.cal with run := none } }.modGrp g fun x =>
        { x with result := 1, steps := s.calDone r, retryAt := s.elapsed + wait }).raiseEvent Src.cal_REF_TIMEOUT 0
    else s
  | none => s

/-! ### Measured values (Table 11.2, Table 11.9, R434) -/

/-- The bits of a value word that a step sets: its number, the word, the place and width of the bits and the measured value,
already clamped; and whether any was clamped. -/
structure CalSet where
  item : Nat
  lo : Nat
  width : Nat
  value : Int
  limited : Bool
  deriving DecidableEq, Repr, Inhabited

/-- A measured quantity in the bits of its word. -/
def calSet (item lo width : Nat) (min_ max_ z : Int) : CalSet :=
  let (v, b) := clampTo min_ max_ z
  ⟨item, lo, width, v, b⟩

/-- What each step of a core's run sets, from the measured quantities `q`: 0 to 1,023 FMID × 256 + gain of each band,
1,024 to 1,087 the TDC segments, 1,088 CPBASE, 1,089 DELREF, 1,090 to 1,093 MODGAIN. `kv` is each band's tuning gain. -/
def coreSets (bw : Nat) (kv : Nat → Nat) (q : Nat → Int) (step : Nat) : List CalSet :=
  match step with
  | 1 => (List.range 64).map fun k => calSet (1024 + k / 2) (16 * (1 - k % 2)) 16 (-32767) 32767 (q (1024 + k))
  | 2 => [calSet 1057 0 32 0 4294967295 (q 1089)]
  | 3 => ((List.range 1024).map fun b =>
      [calSet b 17 15 0 32767 (q b / 256), calSet b 9 8 0 255 (q b % 256), calSet b 0 1 0 1 1]).flatten
  | 4 => (List.range 1024).map fun b => calSet b 2 7 0 127 (Config.chargePump (kv b) bw).toNat
  | 5 => [calSet 1056 0 16 (-160) 160 (q 1088)]
  | 6 => (List.range 4).map fun k => calSet (1058 + k) 0 16 0 65535 (q (1090 + k))
  | _ => []

/-- What each step of an output's run sets: quantity 0 the delay trim, 1 and 2 the duty trims, 3 to 18 the segments. -/
def outSets (o : Nat) (q : Nat → Int) (step : Nat) : List CalSet :=
  match step with
  | 7 => calSet 0 0 32 (-800) 800 (q 0)
      :: (List.range 16).map fun k => calSet (3 + k / 4) (8 * (3 - k % 4)) 8 (-128) 127 (q (3 + k))
  | 8 => [calSet 1 0 32 (-300) 300 (q 1), calSet 2 0 32 (-300) 300 (if o < 8 then q 2 else 0)]
  | _ => []

/-- What ANCRATIO sets (R452, R453), from the measured error e in 2^-40: the trim t or c, the mode, and e in 0.001 ppm. DEDUCED (log
entry 123): t and c scale the ratio as it stands, a trim of the same mode included, since e and s are measured with it in force. -/
def State.ancSets (s : State) (a : Nat) (q : Nat → Int) (step : Nat) : List CalSet :=
  if step ≠ 0 then []
  else
    let e := q 0
    let trace := s.flag Fields.CAL_CFG_ANCMODE 0 && s.flag Fields.LNG_TTSTAT_ROOT 0
    let step : Rat := if trace then mkRat (-e) (2 ^ 40 + e).toNat else mkRat (-(e - intOfWord (s.reg .ANC_STEER a))) (2 ^ 40)
    let held : Rat := if s.calWord (58 + a) 1 = BitVec.ofNat 32 trace.toNat then mkRat (s.calWord (58 + a) 0).toInt (2 ^ 40) else 0
    [calSet 0 0 32 (-219902325) 219902325 (ratRound (((1 + held) * (1 + step) - 1) * 2 ^ 40)), calSet 1 0 32 0 1 trace.toNat,
     calSet 2 0 32 (-2147483648) 2147483647 (ratRound (mkRat (e * 1000000000) (2 ^ 40)))]

/-- Everything a run of a group sets. -/
def State.runSets (s : State) (g : Nat) (steps : Nat) (q : Nat → Int) : List CalSet :=
  (((List.range 9).filter fun k => steps.testBit k).map fun k =>
    match calKind g with
    | 0 => coreSets (s.fld Fields.CORE_CFG_BW g)
        (fun b => if steps.testBit 3 then (q b % 256).toNat else getBits (s.calWord g b) 9 8) q k
    | 1 => outSets (g - 26) q k
    | _ => s.ancSets (g - 58) q k).flatten

/-- Set bits of a value word. -/
def calPut (m : WMap) (x : CalSet) : WMap :=
  if x.width = 32 then m.set x.item (wordOfInt x.value)
  else m.set x.item (putBits (m.get x.item) x.lo x.width (x.value % (2 ^ x.width : Nat)).toNat)

/-- The older measured run behind the coefficients (R442): the newest one whose base differs by 2 °C or more. -/
def otherRun (base : Int) (past : List CalPast) : Option CalPast := past.find? fun p => decide (32 ≤ (base - p.base).natAbs)

/-- The measured runs kept after a new one: it, and the run 2 °C or more from it; where there is none, it and the two runs that the
coefficients rest on. -/
def keepRuns (new : CalPast) (past : List CalPast) : List CalPast :=
  match otherRun new.base past with
  | some o => [new, o]
  | none => new :: if past.length ≤ 1 then [] else past.drop (past.length - 2)

/-- The value words of a completed measured run, its coefficients included (R442, R445). -/
def State.measuredWords (s : State) (g : Nat) (base : Int) (sets : List CalSet) : WMap :=
  let x := s.grp g
  let ws := sets.foldl calPut (s.groupWords g)
  match otherRun base x.past with
  | some o =>
    if o.words.isEmpty then ws
    else (calCoefs g ⟨base, ws⟩ (some o)).foldl (fun m (i, w) => m.set i w) ws
  | none => if 2 ≤ x.past.length then ws else (calCoefs g ⟨base, ws⟩ none).foldl (fun m (i, w) => m.set i w) ws

/-- A measured run ends with the quantities its steps measured (R434, R444, R445): repeated when the temperature moved by
more than ΔT/2, otherwise its values wait to take effect. -/
def State.calRunComplete (s : State) (g : Nat) (meas : List Int) : State :=
  match s.cal.run with
  | none => s
  | some r =>
    match r.t0, r.t1 with
    | some t0, some t1 =>
      if r.group ≠ g ∨ (r.needsRef = true ∧ !(s.ref 4).qualified) then s
      else if s.calDT < 2 * (t1 - t0).natAbs then
        let s := s.snapshot g
        let (q, s) := s.inject (calChannel g) (some g)
        { s with cal := { s.cal with run := some ⟨g, s.elapsed, none, none, r.steps, decide (q = InjRes.queued), 0⟩ } }
      else
        let base := (t0 + t1) / 2
        let sets := s.runSets g r.steps fun k => meas.getD k 0
        let limited := sets.any (·.limited)
        let ws := s.measuredWords g base sets
        let s := { s with cal := { s.cal with run := none } }
        let s := s.modGrp g fun x =>
          { x with result := if limited then 2 else 0, steps := r.steps, wanted := false
                   waiting := some ⟨ws, base, 1, s.elapsed⟩ }
        if limited then s.raiseEvent Src.cal_TRIM_LIMIT 0 else s
    | _, _ => s

/-! ## When values take effect (R448 to R451) -/

/-- A boundary of Table 11.5 lies at the present tick, and the values were ready two ticks before it (R448). -/
def State.atBoundary (s : State) (b : Option Nat) (readyAt : Nat) : Bool :=
  b == some s.elapsed && decide (readyAt + 2 ≤ s.elapsed)

/-- The tick s + 2 of an accepted TE edge of a raster channel. -/
def State.rasBoundary (s : State) (r readyAt : Nat) : Bool := s.atBoundary ((s.rasCh r).lastTe.map (· + 2)) readyAt

/-- Waiting values of a core may take effect now (Table 11.5): not while an acquisition that began before runs (Tables 3.9, 11.11). -/
def State.coreTakes (s : State) (c readyAt : Nat) : Bool :=
  let x := s.core c
  let busy := (x.state == .select || x.state == .acquire) && x.acqAt != s.elapsed
  !busy && match s.rasOfCore c with
  | some r => s.rasBoundary r readyAt
  | none =>
    match x.role with
    | .blocking =>
      match s.slotOf c with
      | some (n, k) =>
        let y := s.slotSt n k
        s.atBoundary x.boundary readyAt || !(y.prep.isSome && y.settled.isNone)
      | none => true
    | .spare => true
    | .live | .split => s.atBoundary x.boundary readyAt
    | .unassigned =>
      (s.outsOf c).isEmpty || s.flag Fields.CAL_CFG_HOSTNOW 0 || s.atBoundary x.boundary readyAt
    | .fenced => false

/-- Waiting values of an output may take effect now. -/
def State.outTakes (s : State) (o readyAt : Nat) : Bool :=
  if s.gated o then false
  else
    match s.rasOfOut o with
    | some r => s.rasBoundary r readyAt
    | none => if (s.outOwner o).isSome then s.atBoundary (s.out o).boundary readyAt else true

/-- Waiting values of a group may take effect now. -/
def State.calTakes (s : State) (g readyAt : Nat) : Bool :=
  if g < 26 then s.coreTakes g readyAt else if g < 58 then s.outTakes (g - 26) readyAt else true

/-- A number moved toward another by no more than a step. -/
def toward (step from_ goal : Int) : Int := max (from_ - step) (min (from_ + step) goal)

/-- What of a value word may change at one boundary (R449). -/
def limitWord (small icp kind item : Nat) (old new : Word) : Word :=
  let rel (v : Nat) : Int := max 1 (v * icp / 200)
  if kind = 0 ∧ item < 1024 then
    putBits new 2 7 (toward (rel (getBits old 2 7)) (getBits old 2 7) (getBits new 2 7)).toNat
  else if kind = 0 ∧ item = 1056 then word16 (toward small (low16 old) (low16 new))
  else if kind = 0 ∧ 1058 ≤ item ∧ item ≤ 1061 then
    BitVec.ofInt 32 (toward (rel (getBits old 0 16)) (getBits old 0 16) (getBits new 0 16))
  else if kind = 1 ∧ item = 0 then wordOfInt (toward small old.toInt new.toInt)
  else if kind = 1 ∧ 3 ≤ item ∧ item ≤ 6 then
    (List.range 4).foldl (fun w k =>
      let a := (old.extractLsb' (8 * k) 8).toInt
      let b := (new.extractLsb' (8 * k) 8).toInt
      putBits w (8 * k) 8 (toward (5 * small) a b % 256).toNat) 0
  else new

/-- The inner ratio at which an anchor runs: N + NUM/DEN, scaled by the trim t of mode 0 (R69, R452). -/
def State.innerRatio (s : State) (a : Nat) : Rat :=
  let n : Rat := s.fld Fields.ANC_INNER_N_N a
  let frac := mkRat (s.fld Fields.ANC_INNER_NUM_NUM a) (max 1 (s.fld Fields.ANC_INNER_DEN_DEN a))
  (n + frac) * if s.calWord (58 + a) 1 = 0 then 1 + mkRat (s.calWord (58 + a) 0).toInt (2 ^ 40) else 1

/-- Waiting values take effect, as far as one boundary allows (R448, R449); when the last has, the run is completed (R450).
Mode 0 of ANCRATIO moves what it adds to the inner ratio out of the steering (R452). -/
def State.calApply (s : State) (g : Nat) : State :=
  let x := s.grp g
  match x.waiting with
  | none => s
  | some w =>
    if !s.calTakes g w.readyAt then s
    else
      let small := s.fld1 Fields.CAL_LIMITS_SMALLDLY 0
      let icp := s.fld1 Fields.CAL_LIMITS_SMALLICP 0
      let was := s.innerRatio (g - 58)
      let items := (w.words.map (·.1)) ++ ((s.groupWords g).map (·.1)).filter fun i => w.words.get i == 0
      let s := s.each items fun s i =>
        let new := w.words.get i
        s.setCalWord g i (if x.hasVal then limitWord small icp (calKind g) i (s.calWord g i) new else new)
      if items.any fun i => s.calWord g i != w.words.get i then s
      else
        let s := s.modGrp g fun x =>
          { x with hasVal := true, base := some w.base, lastKind := w.kind, hostSet := false, waiting := none
                   count := min (x.count + 1) 0xFFFFFFFF, stamp := s.now
                   past := if w.kind = 1 then keepRuns ⟨w.base, w.words⟩ x.past else x.past }
        let s := if 58 ≤ g ∧ w.kind = 1 ∧ s.calWord g 1 = 0 then
            s.setReg .ANC_STEER (g - 58) (s.reg .ANC_STEER (g - 58) - wordOfInt (ratRound ((s.innerRatio (g - 58) / was - 1) * 2 ^ 40)))
          else s
        s.calRefresh

/-- The scale of the outer loop's target ratio: 1 + c of mode 1 on a root, otherwise 1 (R452, R453). -/
def State.targetScale (s : State) (a : Nat) : Rat :=
  if s.calWord (58 + a) 1 ≠ 0 ∧ s.flag Fields.LNG_TTSTAT_ROOT 0 then 1 + mkRat (s.calWord (58 + a) 0).toInt (2 ^ 40) else 1

/-! ## Images (R458 to R464) -/

/-- The record of a group in an image (Table 11.8). -/
def State.imageRecord (s : State) (g : Nat) : List Word :=
  let x := s.grp g
  let tmeas := match x.past with | _ :: l => (match l.getLast? with | some o => temp16 o.base | none => 0x8000) | [] => 0x8000
  [BitVec.ofNat 32 (g * 2 ^ 24 + calKind g * 2 ^ 20 + calWords g), BitVec.ofNat 32 x.count, loWord x.stamp, hiWord x.stamp,
   BitVec.ofNat 32 (temp16 (x.base.getD 0) * 2 ^ 16 + tmeas), x.snap0, x.snap1, x.snap2]
  ++ (List.range (calWords g)).map fun i => s.calWord g i

/-- A calibration image of every group that holds values (R458, R459). -/
def State.imageWords (s : State) (seq : Nat) : List Word :=
  let gs := (List.range 60).filter fun g => (s.grp g).hasVal
  let recs := (gs.map s.imageRecord).flatten
  let mask : Nat := gs.foldl (fun m g => m + 2 ^ g) 0
  let ser := s.otp.serial.toNat
  let h : List Word :=
    [0xCA1B0001#32, BitVec.ofNat 32 (16 + recs.length + 1), BitVec.ofNat 32 seq, loWord ser, hiWord ser, loWord s.now, hiWord s.now,
     loWord mask, hiWord mask,
     BitVec.ofNat 32 (s.fld Fields.CAL_CFG_DT 0 * 2 ^ 24 + s.fld Fields.CAL_CFG_ANCMODE 0 * 2 ^ 23), 0, 0, 0, 0, 0, 0]
  let ws := h ++ recs
  ws ++ [crcWords ws]

/-- The groups an image names, and the length that implies (Table 11.10). -/
def imageGroups (ws : List Word) : List Nat := bitsOf (ws.getD 7 0) 32 ++ (bitsOf (ws.getD 8 0) 28).map (32 + ·)
def impliedLength (gs : List Nat) : Nat := 17 + (gs.map fun g => 8 + calWords g).sum

/-- The records of an image with their groups, in order. -/
def imageRecords : List Nat → List Word → List (Nat × List Word)
  | [], _ => []
  | g :: gs, ws => (g, ws.take (8 + calWords g)) :: imageRecords gs (ws.drop (8 + calWords g))

/-- The result of the checks of Table 11.10 from row 2 on, for the device serial number `ser`: 0 OK, 2 FORMAT, 3 LENGTH, 4 CRC, 5 DEVICE, 6 RECORD. -/
def imageCheck (ser : Nat) (ws : List Word) : Nat :=
  let len := (ws.getD 1 0).toNat
  let gs := imageGroups ws
  let body := ws.take (len - 1)
  if ws.getD 0 0 ≠ 0xCA1B0001#32 then 2
  else if len ≠ impliedLength gs ∨ ws.length < len ∨ 32768 < len then 3
  else if ws.getD (len - 1) 0 ≠ crcWords body then 4
  else if ws.getD 3 0 ≠ loWord ser ∨ ws.getD 4 0 ≠ hiWord ser then 5
  else if (imageRecords gs (body.drop 16)).any fun (g, r) =>
      (r.headD 0) != BitVec.ofNat 32 (g * 2 ^ 24 + calKind g * 2 ^ 20 + calWords g) then 6
  else 0

/-- A temperature field of an image. -/
def tempField (w : Word) (lo : Nat) : Int := (w.extractLsb' lo 16).toInt

/-- A record of an image becomes its group's own (R460). -/
def State.takeImageRecord (s : State) (g : Nat) (r : List Word) : State :=
  let vals := r.drop 8
  let s := s.each (List.range (calWords g)) fun s i => s.setCalWord g i (vals.getD i 0)
  let base := tempField (r.getD 4 0) 16
  let other := tempField (r.getD 4 0) 0
  s.modGrp g fun x =>
    { x with hasVal := true, base := some base, lastKind := 3, imported := true, waiting := none
             past := ⟨base, s.groupWords g⟩ :: (if other = -32768 then [] else [⟨other, []⟩])
             snap0 := r.getD 5 0, snap1 := r.getD 6 0, snap2 := r.getD 7 0 }

/-- An image that passed its checks is taken. -/
def State.takeImage (s : State) (ws : List Word) : State :=
  let gs := imageGroups ws
  let s := (imageRecords gs (ws.drop 16)).foldl (fun (s : State) (g, r) => s.takeImageRecord g r) s
  s.calRefresh

/-- CAL_SEQ increases by one at every export and commit (R461). -/
def State.nextImageSeq (s : State) : State := s.setReg .CAL_SEQ 0 (s.reg .CAL_SEQ 0 + 1)

/-- CAL_CMD.EXPORT (R459). -/
def State.calExport (s : State) : State :=
  let s := s.nextImageSeq
  let ws := s.imageWords (s.reg .CAL_SEQ 0).toNat
  ({ s with cal := { s.cal with img := WMap.setMany [] 0 ws } }).setFld Fields.CAL_IMGSTAT_RESULT 0 0

/-- CAL_CMD.IMPORT (R460, Table 11.10). -/
def State.calImport (s : State) : State :=
  let ws := s.cal.img.slice 0 (min 32768 (s.cal.img.get 1).toNat)
  let busy := s.anyRunning || (List.range 2).any (fun r => s.flag Fields.RAS_CFG_EN r) || s.cal.run.isSome
  let r := if busy then 1 else
    (if s.cal.img.get 0 ≠ 0xCA1B0001#32 then 2 else if (s.cal.img.get 1).toNat > 32768 then 3 else imageCheck s.otp.serial.toNat ws)
  let s := s.setFld Fields.CAL_IMGSTAT_RESULT 0 r
  if r = 0 then s.takeImage ws else s.raiseEvent Src.cal_IMPORT_REJECT 0

/-- A calibration commit waits or is being written (CAL_IMGSTAT.BUSY, CAL_CMD.COMMIT). -/
def State.calCommitting (s : State) : Bool :=
  (s.store.queue.any fun q => q.kind == 2) || (match s.store.writing with | some r => r.kind == 2 | none => false)

/-- CAL_CMD.COMMIT (R462): without effect while a commit waits or is being written (R21). -/
def State.calCommit (s : State) : State :=
  if s.calCommitting then s
  else if s.store.readOnly then (s.setFld Fields.CAL_IMGSTAT_RESULT 0 7).raiseEvent Src.cal_COMMIT_FAIL 0
  else
    let s := s.nextImageSeq
    (s.setFld Fields.CAL_IMGSTAT_RESULT 0 0).requestCommit 2 (s.imageWords (s.reg .CAL_SEQ 0).toNat)

/-- The group that CAL_GSEL selects. -/
def State.gsel (s : State) : Nat := s.fld Fields.CAL_GSEL_GROUP 0

/-- CAL_CMD.RUN asks for a measured run of the selected group; ABORT abandons it (R445, Table 11.11). -/
def State.calRun (s : State) : State := s.modGrp s.gsel fun x => { x with wanted := true }
def State.calAbort (s : State) : State :=
  let g := s.gsel
  let held := (s.grp g).wanted || (s.grp g).paused.isSome
  let s := (s.calAbandon g).modGrp g fun x => { x with wanted := false }
  if held then s.modGrp g fun x => { x with result := 3 } else s

/-- A write of CAL_CMD, bit by bit from the highest. -/
def State.writeCalCmd (s : State) (w : Word) : State :=
  let s := if bitOf w 31 then s.calRun else s
  let s := if bitOf w 30 then s.calExport else s
  let s := if bitOf w 29 then s.calImport else s
  let s := if bitOf w 28 then s.calCommit else s
  if bitOf w 27 then s.calAbort else s

/-! ## Host access (R456, R457) -/

/-- The unit of a group is owned by a running station in guaranteed mode, or bound to an enabled raster channel. -/
def State.calOwned (s : State) (g : Nat) : Bool :=
  if g < 26 then s.coreOwned g || (s.rasOfCore g).isSome
  else if g < 58 then s.outOwned (g - 26) || (s.rasOfOut (g - 26)).isSome
  else false

/-- CAL_TADDR.ITEM steps after an access when AUTOINC is set. -/
def State.stepItem (s : State) : State :=
  if s.flag Fields.CAL_TADDR_AUTOINC 0 then s.setFld Fields.CAL_TADDR_ITEM 0 (s.fld Fields.CAL_TADDR_ITEM 0 + 1) else s

/-- A write of CAL_TDATA (R456). -/
def State.writeTData (s : State) (w : Word) : WRes :=
  let g := s.fld Fields.CAL_TADDR_GROUP 0
  let i := s.fld Fields.CAL_TADDR_ITEM 0
  if 60 ≤ g ∨ calWords g ≤ i then (.range, s)
  else if s.calOwned g then (.owned, s)
  else (.ok, ((s.setCalWord g i w).modGrp g fun x => { x with hostSet := true }).stepItem)

/-- What CAL_TDATA reads. -/
def State.readTData (s : State) : Word :=
  let g := s.fld Fields.CAL_TADDR_GROUP 0
  let i := s.fld Fields.CAL_TADDR_ITEM 0
  if 60 ≤ g ∨ calWords g ≤ i then 0 else s.calWord g i

/-- CAL_IMGADDR.INDEX steps after an access when AUTOINC is set. -/
def State.stepImage (s : State) : State :=
  if s.flag Fields.CAL_IMGADDR_AUTOINC 0 then s.setFld Fields.CAL_IMGADDR_INDEX 0 (s.fld Fields.CAL_IMGADDR_INDEX 0 + 1) else s

/-- A write of CAL_IMGDATA. -/
def State.writeImage (s : State) (w : Word) : State :=
  ({ s with cal := { s.cal with img := s.cal.img.set (s.fld Fields.CAL_IMGADDR_INDEX 0) w } }).stepImage

/-- What CAL_IMGDATA reads. -/
def State.readImage (s : State) : Word := s.cal.img.get (s.fld Fields.CAL_IMGADDR_INDEX 0)

/-- CAL_STAT. ALLCURRENT reads 0 while no station runs, as its Reset value does. -/
def State.calStat (s : State) : Word :=
  let used := ((List.range 8).filter fun n => (s.stn n).running).map s.groupsUsed
  let all := used.flatten.all fun g => s.calCurrent g
  BitVec.ofNat 32 ((s.anyRunning && all).toNat * 2 ^ 31 + s.cal.run.isSome.toNat * 2 ^ 30 + (match s.cal.run with | some r => r.group | none => 0xFF))

/-- Bit n: group `from_` + n is due. -/
def State.calDueWord (s : State) (from_ n : Nat) : Word :=
  (List.range n).foldl (fun w k => setBit w k (!s.calCurrent (from_ + k))) 0

/-- CAL_GSTAT of the selected group. -/
def State.calGStat (s : State) : Word :=
  let x := s.grp s.gsel
  BitVec.ofNat 32 (x.lastKind * 2 ^ 28 + (!s.calCurrent s.gsel).toNat * 2 ^ 27 + x.hasVal.toNat * 2 ^ 26 + x.imported.toNat * 2 ^ 25
    + x.hostSet.toNat * 2 ^ 24 + x.result % 8 * 2 ^ 20 + x.steps % 512)

/-- CAL_GTEMP of the selected group. -/
def State.calGTemp (s : State) : Word :=
  BitVec.ofNat 32 ((match (s.grp s.gsel).base with | some b => temp16 b | none => 0x8000) * 2 ^ 16
    + temp16 ((s.groupTemp s.gsel).getD 0))

/-- The calibration engine fails its self-check (R466, Table 11.11): runs in progress are abandoned. -/
def State.engineCheck (s : State) : State :=
  let s := match s.cal.run with
    | some r => s.calAbandon r.group
    | none => s
  s.raiseEvent Src.cal_ENGINE_CHECK 0

end Sys2Proof.Machine
end

