-- ==== Sys2Proof/Machine/Power.lean ====
section
/-! DEFINITION. Power states and domains (spec/12 R488 to R491): what switching units off and on does, PWR_CMD, and which
domains are on. -/

namespace Sys2Proof.Machine

/-! ## Switching units off and on (R488, R490) -/

/-- A core's VCO and divider domains switch off: OFF, unless it is fenced. -/
def State.coreOff (s : State) (c : Nat) : State :=
  let s := s.calAbandon c
  s.modCore c fun k =>
    if k.role == .fenced then k
    else { k with state := .off, fastUntil := none, countFrom := none, lockAt := none, holdDone := false, glide := none
                  racingFor := none, reassign := none, idleUntil := none, waitTick := false, wasLocked := false }

/-- An output's domain switches off. -/
def State.outOff (s : State) (o : Nat) : State :=
  (s.calAbandon (26 + o)).modOut o fun x =>
    { x with domainOn := false, readyAt := none, burst := none, periodic := none, rbMiss := 0, rbPhaseRun := 0 }

/-- The domains that only ACTIVE has on switch off: cores, outputs, lanes, threads and lane steering. -/
def State.activeOff (s : State) : State :=
  let s := s.each (List.range 32) State.outOff
  let s := s.each (List.range 26) State.coreOff
  let s := s.each (List.range 16) State.laneOff
  { s with transfer := none }

/-- The domains of ACTIVE are ready: each core, output and lane that its enable bit turns on starts (R490, R489). -/
def State.activeOn (s : State) : State :=
  let s := s.each ((List.range 26).filter fun c =>
      (s.core c).role != .fenced && (s.flag Fields.CORE_CFG_EN c || bitOf (s.reg .CORE_SPAREMAP 0) c)) fun s c =>
    s.modCore c fun k => if k.state == .off then { k with state := .idle } else k
  let s := s.each ((List.range 32).filter fun o => s.flag Fields.OUT_CFG_EN o && !(s.out o).fenced) fun s o =>
    (s.modOut o fun x => { x with domainOn := true, readyAt := none, driveAt := s.elapsed }).outBoundary o
  s.each ((List.range 16).filter fun n => s.flag Fields.LN_CFG_EN n) State.laneOn_

/-! ## PWR_CMD (R490) -/

/-- PWR_STATE.RESULT of a PWR_CMD, and its status. -/
def State.pwrResult (s : State) (st : WStatus) : WRes :=
  (st, s.setFld Fields.PWR_STATE_RESULT 0 (match st with | .ok => 0 | .busy => 1 | .range => 2 | _ => 3))

/-- A ledger commit or an update is in progress: a commit queued or being written, RECEIVING or VERIFYING, or a copy. -/
def State.storeBusy (s : State) : Bool :=
  s.store.writing.isSome || !s.store.queue.isEmpty || s.boot.copy.isSome
    || (match s.flash.table_ with | some e => e.state == .receiving || e.state == .verifying | none => false)

/-- An accepted DORMANT command (R491): everything outside the barrow's domain is lost; the barrow's next sample comes one
PERIOD later. -/
def State.enterDormant (s : State) : State :=
  let keep (s' : State) (r : RegName) (i : Nat) : State := s'.setReg r i (s.reg r i)
  let s' : State := { State.reset with
    pending := s.pending, elapsed := s.elapsed, flash := s.storeCut.flash, otp := s.otp, pins := s.pins
    bar := { s.bar with periodFrom := s.elapsed, dormantAt := s.elapsed } }
  let s' := [RegName.BAR_CFG, .BAR_WAKEEN, .BAR_INHIB, .BAR_ALERTEN, .BAR_WAKECAUSE, .BAR_TIMER, .BAR_LANEMASK, .BAR_FWVER].foldl
    (fun s' r => keep s' r 0) s'
  let s' := s'.each (List.range 20) fun s' i => keep (keep s' .BAR_IN_CFG i) .BAR_IN_STAT i
  (s'.setFld Fields.PWR_STATE_STATE 0 1).setFld Fields.PWR_STATE_RESULT 0 0

/-- PWR_CMD.TARGET takes effect (R490), its key having been checked. -/
def State.pwrTarget (s : State) (t : Nat) : WRes :=
  if s.power ≠ 2 ∧ s.power ≠ 3 then s.pwrResult .state
  else if t = 0 ∨ t = s.power then s.pwrResult .range
  else
    match t with
    | 3 => { s with powering := true }.pwrResult .ok
    | 2 =>
      if s.anyRunning || (List.range 2).any fun r => (s.rasCh r).bound then s.pwrResult .busy
      else (s.activeOff.setFld Fields.PWR_STATE_STATE 0 2).pwrResult .ok
    | _ => if s.anyRunning || s.storeBusy then s.pwrResult .busy else (.ok, s.enterDormant)

/-- The last domain switched on is ready (R490): the device is ACTIVE. -/
def State.domainsReady (s : State) : State :=
  if s.powering && s.power == 2 then
    ({ s with powering := false }.setFld Fields.PWR_STATE_STATE 0 3).activeOn
  else s

/-! ## PWR_DOMON (Tables 12.5 and 12.6) -/

/-- Whether a domain is on. The VCO domain of a core (0 to 25) is off in IDLE, its divider domain (26 to 51) is on (R108). -/
def State.domainOn (s : State) (d : Nat) : Bool :=
  let p := s.power
  let up := p == 2 || p == 3
  if d < 52 then
    let c := if d < 26 then d else d - 26
    p == 3 && (s.core c).role != .fenced && (s.core c).state != .off && (26 ≤ d || (s.core c).state != .idle)
  else if d < 84 then p == 3 && ((s.out (d - 52)).domainOn || (s.out (d - 52)).readyAt.isSome)
  else if d < 100 then p == 3 && (s.lane (d - 84)).state != .off
  else if d < 102 then up && s.flag Fields.ANC_CFG_EN (d - 100)
  else if d < 104 then p == 3
  else
    match d with
    | 108 | 110 => up || p == 4 || p == 5
    | 112 => p != 0
    | 113 | 115 => up || p == 4
    | 114 => up || p == 4 || p == 5
    | 117 => p == 3
    | _ => up

/-- PWR_DOMON0 to PWR_DOMON3. -/
def State.domonWord (s : State) (m : Nat) : Word :=
  BitVec.ofNat 32 (((List.range 32).filter fun b => decide (32 * m + b < 118) && s.domainOn (32 * m + b)).map (2 ^ ·)).sum

end Sys2Proof.Machine
end

