-- ==== Sys2Proof/Machine/Faults.lean ====
section
/-! DEFINITION. Faults and reactions (spec/13): the reaction to a raise, fences and spares, grave faults, acknowledgement,
grace timers, consequence windows, and the lines of the fault windows. -/

namespace Sys2Proof.Machine

/-! ## What a program uses (Table 0.1, Table 13.3) -/

/-- Whether an instruction in the reach set of a station's program has a property. -/
def State.programHas (s : State) (n : Nat) (p : QInstr → Bool) : Bool :=
  (s.stn n).reach.any fun b => (List.range 64).any fun i =>
    match decodeQ (s.pgm.get (n * 16384 + b * 64 + i)) with
    | some q => p q
    | none => false

/-- A program sends messages. -/
def State.sends (s : State) (n : Nat) : Bool :=
  s.programHas n fun q => match q.op with | .send0 .. | .send1 .. => true | _ => false

/-- A program may hop to a profile of a list: it names one by an immediate, or one by a register. -/
def State.hopsTo (s : State) (n : Nat) (ps : List Nat) : Bool :=
  s.programHas n fun q => match q.op.prof? with
    | some (.imm p) => ps.contains p.toNat
    | some (.reg _) => true
    | none => false

/-- The running stations that a condition picks, as a mask. -/
def State.runningWith (s : State) (p : Nat → Bool) : Word :=
  stationMask ((List.range 8).filter fun n => (s.stn n).running && p n)

/-! ## Fences (R509, R510, Tables 13.3 and 13.5) -/

/-- What a fence did: whether no spare was found, the stations whose program uses the unit, what ends their lapse, and the
state after it. -/
structure Fenced where
  noSpare : Bool
  stations : Word
  ends : LapseEnd
  after : State
  deriving DecidableEq, Repr

/-- Bring in a spare for a core that was just fenced (R148, R150): the racing spare, or the lowest-numbered one in IDLE. -/
def State.bringSpare (s : State) (c : Nat) : Bool × State :=
  if (s.racer c).isSome then (false, s)
  else
    match s.idleSpare with
    | some k => (false, s.modCore k fun x => { x with reassign := some c })
    | none => (true, s)

/-- Fence a core for a fault (R148, R150, R151, R511). A fenced spare gives the core it was to replace to another spare. A
station is degraded once no spare comes. -/
def State.fenceForCore (s : State) (c : Nat) (f : Fid) : Fenced :=
  let x := s.core c
  let st := match s.coreOwner c with | some n => s.promised (stationMask [n]) | none => 0
  let s := (s.openWindow 3 c f (s.fedByCore c)).fenceCore c
  let served := if x.role == .spare then x.reassign <|> x.racingFor else some c
  let (bad, s) : Bool × State := match served with
    | some d => if (s.core d).role == .fenced then s.bringSpare d else (false, s)
    | none => (false, s)
  let s := match bad, served.bind s.mapOwner with
    | true, some n => (s.dropPrep (served.getD c)).beginLevel (Src.stn_DEGRADED n) 0
    | _, _ => s
  ⟨bad, st, if bad then .never else .core c, s⟩

/-- Fence a sequencer thread (R276). -/
def State.fenceForThread (s : State) (k : Nat) (f : Fid) : Fenced :=
  match s.servedBy k with
  | some n =>
    let st := s.promised (stationMask [n])
    let s := s.openWindow 5 0 f [Src.stn_LATE_RELEASE n, ⟨5, 0, 24 + n⟩]
    let (ok, s) := s.fenceThread k
    ⟨!ok, st, if ok then .thread n else .never, s⟩
  | none => ⟨false, 0, .never, (s.fenceThread k).2⟩

/-- Fence a station: it stops (Table 13.3). The lapse lasts until the fault is acknowledged (DESIGN CHOICE, log entry 19). -/
def State.fenceForStation (s : State) (n : Nat) : Fenced :=
  let st := s.promised (stationMask [n])
  ⟨false, st, .ack, if (s.stn n).running then s.stopStation n (if (s.stn n).endedAt.isSome then .exception else .stopped) else s⟩

/-- Fence the slice that serves a lane (R406, R407), with the record of the spare that takes it. -/
def State.fenceForLane (s : State) (n : Nat) (f : Fid) : Fenced :=
  let st := s.promised (s.runningWith fun k => s.sends k || (s.stn k).srcs.any fun e => decide (8 ≤ e) && decide (e < 72))
  let s := (s.openWindow 7 n f [Src.lane_LOS n, Src.lane_TRAIN_FAIL n, Src.lane_EYE_LOW n, Src.lane_TT_TRIP n,
    Src.lane_C0_DROP n, Src.lane_FEC_UNCORR n]).openLaneWindow n f
  let old := (s.lane n).slice
  let (ok, s) := s.fenceSlice n
  let s := if ok then s.record 7 n 2 s.now (BitVec.ofNat 32 (fidBits ⟨7, old, 0⟩ * 2 ^ 16 + fidBits ⟨7, (s.lane n).slice, 0⟩)) else s
  ⟨!ok, st, if ok then .spare else .never, s⟩

/-- Fence an output: reason FENCE, its domain off (R336). -/
def State.fenceForOut (s : State) (o : Nat) (f : Fid) : Fenced :=
  let st := match s.outOwner o with | some n => s.promised (stationMask [n]) | none => 0
  let fed := ((List.range 2).filter fun r => (s.rasCh r).bound && (s.rasOuts r).head? == some o).map Src.ras_FRAME_ERR
  let s := ((s.openWindow 6 o f fed).outOff o).modOut o fun x => { x with fenced := true }
  ⟨false, st, .never, s.modWin (windowIndex 6 o) fun w => { w with live := 0, inj := 0 }⟩

/-- Disable a raster channel; its outputs are gated with reason NOSRC (Table 13.3). -/
def State.fenceForRaster (s : State) (r : Nat) : Fenced :=
  let outs := if (s.rasCh r).bound then s.rasOuts r else []
  let s := (s.setFld Fields.RAS_CFG_EN r 0).modRas r fun x =>
    { x with bound := false, pending := none, applyAt := none, applying := false, held := false }
  ⟨false, 0, .never, s.each outs fun s o => s.modOut o fun x => { x with rasterHold := true }⟩

/-- An anchor at fault goes to FAILED with the reaction of Table 2.4; with no other anchor the table's rows for that case
hold. -/
def State.fenceForAnchor (s : State) (a : Nat) (f : Fid) : Fenced :=
  let x := s.anc a
  let s :=
    if x.state == .failed || x.state == .off then s
    else if s.primary == some a then s.primaryUnsteered a f (s.ancReady (otherAnc a))
    else if x.secondary && s.dual then (s.secondaryFails a f).updateCond
    else s
  ⟨false, 0, .never, s⟩

/-- Hold a reference disqualified until its fault is acknowledged (Table 13.3). -/
def State.fenceForRef (s : State) (r : Nat) (f : Fid) : Fenced :=
  let s := s.openWindow 2 0 f (([0, 1].filter fun a => s.selRef a == some r).map outerLost)
  ⟨false, 0, .never, (s.refDisqualify r true).modRef r fun x => { x with held := true }⟩

/-- Fence a trigger input, or SYNC_IN (8), as under R308. -/
def State.fenceForTrig (s : State) (n : Nat) : Fenced :=
  let st := if n < 8 then s.promised (s.runningWith fun k => (s.stn k).srcs.contains n) else 0
  ⟨false, st, .trig n, s.setFld Fields.TRIG_STAT_FENCED n 1⟩

/-- A store row was replaced, or fenced for want of a spare row, when its error was found; what hops, sends or runs from it
is disturbed (Table 13.5). A station whose reach set holds a fenced program word stops. -/
def State.fenceForRow (s : State) (code : Nat) (f : Fid) (noSpare : Bool) : Fenced :=
  let s := s.openWindow code 0 f ((List.range 8).map fun n => Src.stn_BAD_PROFILE n)
  let s := s.openWindow code 0 f ((List.range 8).map fun n => Src.stn_LATE_RELEASE n)
  let hit (n : Nat) : Bool := s.fencedEntries.any fun e =>
    e.1 == 16 && e.2 / 16384 == n && (s.stn n).reach.contains (e.2 % 16384 / 64)
  let st := match code with
    | 15 => s.promised (s.runningWith fun n => s.hopsTo n (List.range 4096))
    | 16 => s.promised (s.runningWith fun n => !noSpare || hit n)
    | _ => s.promised (s.runningWith s.sends)
  let s := if code = 16 ∧ noSpare then
      s.each ((List.range 8).filter fun n => (s.stn n).running && hit n) fun s n => s.stopStation n .stopped
    else s
  ⟨noSpare, st, if noSpare then .never else .spare, s⟩

/-- Fence the monitor converter (R481). -/
def State.fenceForMon (s : State) (f : Fid) : Fenced :=
  let st := s.promised (s.runningWith fun _ => true)
  let s := (s.openWindow 10 0 f [Src.cal_STARVED, Src.cal_NO_MODEL]).fenceConverter
  ⟨false, st, .never, s.modWin (windowIndex 10 0) fun w => { w with live := 0, inj := 0 }⟩

/-- The secondary anchor. -/
def State.secondaryAnc (s : State) : Option Nat := s.primary.map otherAnc

/-- The fence of a class-2 fault, if its source names a unit (Table 13.3). -/
def State.fenceUnit (s : State) (f : Fid) (noSpare : Bool) : Option Fenced :=
  match f.code with
  | 1 => if 14 ≤ f.bit ∧ f.bit ≤ 22 then some (s.fenceForTrig (f.bit - 14))
         else if 23 ≤ f.bit then some (s.fenceForTrig (f.bit - 23)) else none
  | 2 => if f.bit < 5 then some (s.fenceForRef f.bit f)
         else if f.bit = 8 ∨ f.bit = 10 ∨ f.bit = 14 then some (s.fenceForAnchor 0 f)
         else if f.bit = 9 ∨ f.bit = 11 ∨ f.bit = 15 then some (s.fenceForAnchor 1 f)
         else if f.bit = 12 ∨ f.bit = 13 then s.secondaryAnc.map fun a => s.fenceForAnchor a f else none
  | 3 => if (s.core f.inst).role == .fenced then none else some (s.fenceForCore f.inst f)
  | 4 => some (s.fenceForStation f.inst)
  | 5 => if f.bit < 10 then some (s.fenceForThread f.bit f)
         else if 16 ≤ f.bit ∧ f.bit < 24 then some (s.fenceForStation (f.bit - 16))
         else if 24 ≤ f.bit then some (s.fenceForStation (f.bit - 24)) else none
  | 6 => some (s.fenceForOut f.inst f)
  | 7 => some (s.fenceForLane f.inst f)
  | 10 => if f.bit = 1 ∨ f.bit = 2 then some (s.fenceForMon f) else none
  | 14 => some (s.fenceForRaster f.inst)
  | 15 | 16 | 17 => if f.bit = 1 then some (s.fenceForRow f.code f noSpare) else none
  | _ => none

/-- The mailbox command ends: STATUS takes its outcome, DONE is set and the commands ended are counted; a status other than
OK raises MAILBOX_ERR (R621, R623). -/
def State.mbxEnd (s : State) (status : Nat) : State :=
  let s := { s with mbx := { s.mbx with busy := false, stage := 0 } }
  let s := ((s.setFld Fields.MBX_STAT_BUSY 0 0).stick Fields.MBX_STAT_DONE 0).setFld Fields.MBX_STAT_STATUS 0 status
  let s := s.setFld Fields.MBX_STAT_COUNT 0 (s.fld Fields.MBX_STAT_COUNT 0 + 1)
  if status = 0 then s else s.raiseEvent Src.port_MAILBOX_ERR 0

/-- A unit that its own rule resets, whatever the class: its consequence window opens (R517, Table 13.5), and the restart of the
management processor ends a mailbox command in progress with ABORTED (R531, R623). -/
def State.resetWindow (s : State) (f : Fid) : State :=
  if f = Src.glb_MGMT_CHECK ∨ f = Src.glb_MGMT_WATCHDOG then
    let s := s.openWindow 0 0 f [Src.fleet_RQ_TIMEOUT, Src.port_MAILBOX_ERR]
    if s.mbx.busy then s.mbxEnd 18 else s
  else if f = Src.glb_LANECTL_CHECK then
    s.openWindow 0 0 f (((List.range 16).map Src.lane_LOS) ++ ((List.range 16).map Src.lane_TRAIN_FAIL))
  else s

/-! ## Grave faults (R523) -/

/-- A class-3 fault: every output is gated, every station stops, every lane is silent, the domains that HALTED does not keep
switch off, and armed changes and scheduled writes are lost. -/
def State.graveHalt (s : State) : State :=
  let s := s.each ((List.range 8).filter fun n => (s.stn n).running) fun s n => s.stopStation n .stopped
  let s := s.activeOff.storeCut
  let s := s.each [0, 1] fun s a => s.modAnc a fun x => { x with state := .off, inner := false, outer := false, hasTick := false }
  let s := { s with sched := [], halted := true, powering := false, check := none, syncDue := [], sync := none, heldWrites := [] }
  let s := s.modFleet fun x => { x with changes := [], streams := [], request := none, running := none }
  let s := { s with mbx := { s.mbx with busy := false }, cal := { s.cal with run := none }
                    mon := { s.mon with slot := none, queue := [] }, svc := { s.svc with session := none } }
  s.setFld Fields.PWR_STATE_STATE 0 5

/-! ## The reaction (R501, R504, R508 to R520) -/

/-- Set a bit of FLT_STAT and FLT_PEND with its effective class, at an elapsed tick. -/
def FaultWindow.takes (w : FaultWindow) (at_ bit ecls : Nat) : FaultWindow :=
  { w with stat := setBit w.stat bit true, pend := setBit w.pend bit true, freshAt := at_
           pendMinor := if ecls = 1 then setBit w.pendMinor bit true else w.pendMinor
           pendSerious := if ecls = 2 then setBit w.pendSerious bit true else w.pendSerious
           fresh := setBit (if w.freshAt = at_ then w.fresh else 0) bit true }.setEcls bit ecls

/-- The tally entry of a raise. -/
def Raise.entry (r : Raise) (ecls : Nat) (noSpare : Bool) : TallyEntry :=
  { stamp := r.stamp, kind := 0, cls := r.cls, ecls := ecls, forced := r.forced, injected := r.injected
    escalated := decide (r.cls < ecls) && !r.grace, grace := r.grace, noSpare := noSpare, seq := 0, bit := r.fid.bit, arg := r.arg }

/-- A consequential raise (R518): an entry with the cause, and nothing else. -/
def Raise.consequential (r : Raise) (cause : Fid) : TallyEntry :=
  { r.entry 0 false with kind := 1, escalated := false, grace := false, arg := BitVec.ofNat 32 (fidBits cause) }

/-- Mark the newest fault entry of a window as having found no spare. -/
def markNoSpare : List TallyEntry → List TallyEntry
  | [] => []
  | e :: es => if e.kind = 0 then { e with noSpare := true } :: es else e :: markNoSpare es

/-- SRC 94, stamped with the detector's tick (R43), for the stations that R504 names: the one that owned the core at the raise. -/
def State.postFault (s : State) (r : Raise) : State :=
  let e : Event := ⟨94, r.made, BitVec.ofNat 32 (fidBits r.fid)⟩
  match r.fid.code with
  | 4 => s.postEvent r.fid.inst e
  | 3 => match r.owner with
    | some n => s.postEvent n e
    | none => s
  | _ => s

/-- Begin the lapse of a raise, if it has one; one that a spare has already ended gets both entries. -/
def State.raiseLapse (s : State) (r : Raise) (stations : Word) (ends : LapseEnd) : State :=
  let s := s.beginLapse r.fid r.stamp stations ends
  if ends = .spare then s.endLapses fun l => l.ends == .spare else s

/-- The reaction to a raise that is not consequential, with its effective class (Table 13.2). -/
def State.takeFault (s : State) (r : Raise) (ecls : Nat) : State :=
  let wi := windowIndex r.fid.code r.fid.inst
  let s := if 1 ≤ ecls && !r.grace then s.postFault r else s
  let s := s.modWin wi fun w => (w.addEntry (r.entry ecls r.noSpare)).takes s.elapsed r.fid.bit ecls
  let timed := bitOf (s.win wi).grace r.fid.bit && r.cls == 1 && ecls == 1 && !bitOf (fixedSources r.fid.code) r.fid.bit
  let s := if timed then s.modWin wi fun w =>
      { w with graceTimers := w.graceTimers ++ [⟨r.fid.bit, s.elapsed + w.gtime, r⟩] } else s
  let s := s.resetWindow r.fid
  match ecls with
  | 3 => (s.beginLapse r.fid r.stamp (s.promised (s.runningWith fun _ => true)) .never).graveHalt
  | 2 =>
    match s.fenceUnit r.fid r.noSpare with
    | some x =>
      let s := if x.noSpare then x.after.modWin wi fun w => { w with tally := markNoSpare w.tally } else x.after
      match r.lapse with
      | some l => s.raiseLapse r (l.1 ||| x.stations) (if x.stations = 0 then l.2 else x.ends)
      | none => s.raiseLapse r x.stations x.ends
    | none => match r.lapse with
      | some l => s.raiseLapse r l.1 l.2
      | none => s
  | _ => match r.lapse with
    | some l => s.raiseLapse r l.1 l.2
    | none => s

/-- The reaction to one raise. -/
def State.react (s : State) (r : Raise) : State :=
  let wi := windowIndex r.fid.code r.fid.inst
  let w := s.win wi
  match w.suppresses r, r.grace with
  | some cause, false =>
    let s := s.modWin wi fun w => w.addEntry (r.consequential cause)
    match r.lapse with
    | some l => s.raiseLapse r l.1 l.2
    | none => s
  | _, _ => s.takeFault r (w.effective r)

/-- The order of raises: by tick, then by fault identifier (R510, R513). -/
def Raise.before (a b : Raise) : Bool :=
  decide (a.at_ < b.at_) || (a.at_ == b.at_ && decide (fidBits a.fid ≤ fidBits b.fid))

/-- Insert a raise in order. -/
def insertRaise (r : Raise) : List Raise → List Raise
  | [] => [r]
  | x :: l => if r.before x then r :: x :: l else x :: insertRaise r l

/-- Raises in the order they are taken. -/
def sortRaises : List Raise → List Raise
  | [] => []
  | r :: l => insertRaise r (sortRaises l)

/-- FAULT_REACTION: every raise stamped before the present tick takes its reaction. -/
def State.faultReaction (s : State) : State :=
  let due := sortRaises (s.raises.filter fun r => decide (r.at_ < s.elapsed))
  let s := { s with raises := s.raises.filter fun r => !decide (r.at_ < s.elapsed) }
  due.foldl State.react s

/-! ## Acknowledgement (R512, R20, Table 13.9) -/

/-- A W1C write of FLT_STAT. A bit set at this very tick ends set, and its fault stays pending; a live level source sets its
bit again at once. The timer of a fault raised at this very tick runs on. A reference held for its fault starts to qualify again. -/
def State.faultAck (s : State) (code inst : Nat) (data : Word) : State :=
  let wi := windowIndex code inst
  let w := s.win wi
  let eff := data &&& ~~~(if w.freshAt = s.elapsed then w.fresh else 0)
  let live := bitsOf eff 32 |>.filter fun b => s.isLive ⟨code, inst, b⟩
  let s := s.modWin wi fun w =>
    { w with stat := live.foldl (fun x b => setBit x b true) (w.stat &&& ~~~eff), pend := w.pend &&& ~~~eff
             pendMinor := w.pendMinor &&& ~~~eff, pendSerious := w.pendSerious &&& ~~~eff
             graceTimers := w.graceTimers.filter fun t => !bitOf data t.bit || (!bitOf eff t.bit && t.raise.at_ + 1 == s.elapsed) }
  let s := s.endLapses fun l => l.ends == .ack && l.fid.code == code && l.fid.inst == inst && bitOf eff l.fid.bit
  if code = 2 then
    s.each ((List.range 5).filter fun r => bitOf eff r && (s.ref r).held) fun s r =>
      s.modRef r fun x => { x with held := false, qualFrom := some s.elapsed }
  else s

/-! ## Grace timers (R515) -/

/-- A window's expired timers: the faults become class 2 and take that reaction at the next tick. -/
def State.graceExpireWin (s : State) (wi : Nat) : State :=
  let done := (s.win wi).graceTimers.filter fun t => decide (t.due ≤ s.elapsed)
  let s := s.modWin wi fun w =>
    done.foldl (fun w t => { w.setEcls t.bit 2 with
      pendMinor := setBit w.pendMinor t.bit false, pendSerious := setBit w.pendSerious t.bit true }) { w with graceTimers := w.graceTimers.filter fun t => !decide (t.due ≤ s.elapsed) }
  { s with raises := s.raises ++ done.map fun t => { t.raise with at_ := s.elapsed, grace := true, lapse := none, made := s.now } }

/-- GRACE_EXPIRE. -/
def State.graceExpire (s : State) : State := s.each (List.range 97) State.graceExpireWin

/-! ## The end of consequence windows (R519) -/

/-- The bits of a window whose suppressions have all ended. -/
def FaultWindow.released (w : FaultWindow) (now : Nat) : List Nat :=
  (List.range 32).filter fun b =>
    (w.supp.any fun x => x.bit == b) && !(w.supp.any fun x => x.bit == b && decide (now < x.until_))

/-- Sources whose suppression has ended and that are level and live raise now. -/
def State.cwinEndWin (s : State) (wi : Nat) : State :=
  let bits := (s.win wi).released s.elapsed
  let (code, inst) := windowOf wi
  let s := s.modWin wi fun w => { w with supp := w.supp.filter fun x => !bits.contains x.bit }
  s.each bits fun s b => if isLevel ⟨code, inst, b⟩ && s.isLive ⟨code, inst, b⟩ then s.raiseEvent ⟨code, inst, b⟩ 0 else s

/-- CWIN_END. -/
def State.cwinEnd (s : State) : State := s.each (List.range 97) State.cwinEndWin

/-- FLT_SUPP of a window. -/
def FaultWindow.suppWord (w : FaultWindow) (now : Nat) : Word :=
  BitVec.ofNat 32 (((List.range 32).filter fun b => w.supp.any fun x => x.bit == b && decide (now < x.until_)).map (2 ^ ·)).sum

/-! ## Lines (R508, R515, R628) -/

/-- A window's interrupt line: a FLT_STAT bit with its FLT_IRQ bit whose last fault was of effective class 1 or above, or a
grace timer running. -/
def FaultWindow.line (w : FaultWindow) : Bool :=
  !w.graceTimers.isEmpty || (bitsOf (w.stat &&& w.irq) 32).any fun b => decide (1 ≤ w.eclsOf b)

/-- FAULT_N is driven low. -/
def State.faultN (s : State) : Bool := s.halted || s.windows.toList.any FaultWindow.line

/-- GLB_FLTSUM. -/
def State.fltSum (s : State) : Word :=
  BitVec.ofNat 32 (((List.range 18).filter fun c => (List.range (windowInstances c)).any fun i =>
    (s.win (windowIndex c i)).line).map (2 ^ ·)).sum

/-- The instances of a block whose windows assert. -/
def State.fltInst (s : State) (code : Nat) : Nat :=
  (((List.range (windowInstances code)).filter fun i => (s.win (windowIndex code i)).line).map (2 ^ ·)).sum

end Sys2Proof.Machine
end

