-- ==== Sys2Proof/Machine/Items.lean ====
section
/-! DEFINITION. The registers and items of the fault windows (R499, R505 to R507, R527, R529, R530), forcing and injection,
and the detectors of the global and store-row sources (R531, Table 13.4). -/

namespace Sys2Proof.Machine

/-! ## Which sources exist -/

/-- The sources a window has, by block code (Table 13.1). -/
def usedSources (code : Nat) : Word :=
  match code with
  | 0 => 0x000000FF#32
  | 1 => 0xFFFFC03F#32
  | 2 => 0x0001FF1F#32
  | 3 => 0x0000003F#32
  | 4 => 0x0000003F#32
  | 5 => 0xFFFF07FF#32
  | 6 => 0x0000003F#32
  | 7 => 0x000003FF#32
  | 8 => 0x000000FF#32
  | 9 => 0x000000FF#32
  | 10 => 0x00000007#32
  | 11 => 0x0000000F#32
  | 12 => 0x000001FF#32
  | 13 => 0x0000001F#32
  | 14 => 0x00000007#32
  | 15 => 0x0000001F#32
  | 16 => 0x00000003#32
  | 17 => 0x00000003#32
  | _ => 0

/-- The bits of FLT_SEV that host software may write: two for each programmable source of item 0 or 1. -/
def sevMask (code : Nat) (hi : Bool) : Word :=
  let w := usedSources code &&& ~~~(fixedSources code)
  (List.range 16).foldl (fun m k => if bitOf w (k + if hi then 16 else 0) then putBits m (2 * k) 2 3 else m) 0

/-! ## Detectors of the global window (R531) -/

/-- A unit is reset or reloaded by the management processor (Table 13.3). -/
def State.beginReload (s : State) (u : Nat) : State :=
  if s.reloads.contains u then s else { s with reloads := s.reloads ++ [u] }

/-- The management processor restarts from its image. The reaction ends a mailbox command in progress (State.resetWindow). -/
def State.mgmtRestart (s : State) (f : Fid) : State :=
  (s.raiseEvent f 0).beginReload 0

/-- The FID under which a reset or reload is recorded, and the window that records it: the unit's block with bit 0. -/
def reloadFid (u : Nat) : Fid :=
  match u with
  | 0 => ⟨0, 0, 0⟩
  | 1 => ⟨7, 0, 0⟩
  | 2 => ⟨9, 0, 0⟩
  | _ => ⟨11, 0, 0⟩

/-- The window that holds a unit's check source. -/
def reloadWindow (u : Nat) : Nat :=
  match u with
  | 0 | 1 => 0
  | 2 => 9
  | _ => 11

/-- A reset or reload completes (Table 13.8 record 4). The barrow's next sample follows one PERIOD later (R487). -/
def State.reloadDone (s : State) (u : Nat) : State :=
  if !s.reloads.contains u then s
  else
    let s := { s with reloads := s.reloads.filter (· != u) }
    let s := s.record (reloadWindow u) 0 4 s.now (BitVec.ofNat 32 (fidBits (reloadFid u)))
    if u = 3 then { s with bar := { s.bar with periodFrom := s.elapsed } } else s

/-- A row of the profile store (0), of a station's program store (1 to 8) or of the flow tables (9) has an uncorrectable
error; `entries` are the entries the row holds. A spare row replaces it: profiles and flow entries in it read VALID = 0
until rewritten, program words are refilled and wait for that. Without a spare row the entries are fenced (Tables 5.7, 7.10, 9.15, 13.3). -/
def State.eccUncorr (s : State) (store : Nat) (entries : List Nat) : State :=
  let left := (s.spareRows[store]?).getD 0
  let f := if store = 0 then Src.prof_ECC_UNCORR else if store = 9 then Src.flow_ECC_UNCORR else Src.pgm_ECC_UNCORR
  let clear (s : State) : State :=
    if store = 0 then
      { s with profs := entries.foldl (fun m p => m.set (p * 8 + 5) (m.get (p * 8 + 5) &&& 0x7FFFFFFF#32)) s.profs }
    else if store = 9 then
      s.modLng fun g => { g with flows := entries.foldl (fun m e => m.set e (m.get e &&& 0x7FFFFFFF#32)) g.flows }
    else s
  if 0 < left then
    let s := clear { s with spareRows := s.spareRows.setIfInBounds store (left - 1) }
    let s := if store = 0 ∨ store = 9 then s
      else { s with refills := (s.refills.filter fun r => decide (s.elapsed < r.2))
               ++ entries.map fun e => ((store - 1) * 16384 + e, s.elapsed + Config.refillTicks s.elapsed) }
    s.raiseEvent f (BitVec.ofNat 32 (left - 1))
  else
    let code := if store = 0 then 15 else if store = 9 then 17 else 16
    let place (e : Nat) : Nat := if store = 0 ∨ store = 9 then e else (store - 1) * 16384 + e
    let s := clear { s with fencedEntries := s.fencedEntries ++ entries.map fun e => (code, place e) }
    let s := s.raiseEvent f 0
    { s with raises := s.raises.map fun r => if r.fid = f ∧ r.at_ = s.elapsed then { r with noSpare := true } else r }

/-- A parity error in a result pair or a latest value: the pair reads zero until its entry is converted again (Table 12.8). -/
def State.resParity (s : State) (k : Nat) : State :=
  ((s.setReg .MON_RES_A k 0).modMon fun m => { m with stamps := m.stamps.setIfInBounds k 0 }).raiseEvent Src.mon_RES_PARITY 0

/-- A parity error in an output's divider state: the divider is reloaded at the next tick with Ψ_o unchanged. -/
def State.divParity (s : State) (o : Nat) : State :=
  let s := s.raiseEvent (Src.out_DIV_PARITY o) 0
  match s.waveOf o with
  | some w => s.modOut o fun x => { x with load := w.loadAt (s.now + 1 : Nat) }
  | none => s

/-! ## Forcing (R505, R533) -/

/-- What the block's own rule does when the detector of a source asserts, for the sources whose rule does more than raise. -/
def State.detect (s : State) (f : Fid) : State :=
  match f.code with
  | 0 => if f.bit < 2 then s.mgmtRestart f else if f.bit = 4 then (s.raiseEvent f 0).beginReload 1 else s
  | 1 => if 23 ≤ f.bit then s.trigStuck (f.bit - 23) else s
  | 2 => if f.bit < 5 then s.refDisqualify f.bit true
         else if f.bit = 8 ∨ f.bit = 9 then s.ancInnerLoss (f.bit - 8)
         else if f.bit = 10 ∨ f.bit = 11 then s.ancOuterLoss (f.bit - 10) else s
  | 3 => if f.bit = 0 ∧ (s.core f.inst).state = .locked then s.coreLoss f.inst else s
  | 5 => if f.bit < 10 then s.threadCheckFail f.bit else s
  | 6 => if f.bit = 3 then s.outShort f.inst else s
  | 7 => if f.bit = 0 then s.signalLoss f.inst else s
  | 9 => if f.bit = 7 then s.engineCheck.beginReload 2 else s
  | 11 => if f.bit = 3 then (s.raiseEvent f 0).beginReload 3 else s
  | _ => s

/-- Mark the raises of a source at the present tick as forced, or as injected. -/
def State.markRaise (s : State) (f : Fid) (injected : Bool) : State :=
  { s with raises := s.raises.map fun r =>
      if r.fid = f ∧ r.at_ = s.elapsed then (if injected then { r with injected := true } else { r with forced := true }) else r }

/-- A bit of FLT_FORCE is set: the detector reads as asserting, the block's own rule follows it, and the source raises unless
it was live already. -/
def State.forceOn (s : State) (f : Fid) : State :=
  if s.unitFenced f || !bitOf (usedSources f.code) f.bit then s
  else
    let wi := windowIndex f.code f.inst
    let was := s.isLive f
    let n := s.raises.length
    let s := s.detect f
    let raised := (s.raises.drop n).any fun r => r.fid == f
    let s := if was || raised then s else s.raiseAs f s.now 0 true false
    (s.markRaise f false).modWin wi fun w => { w with force := setBit w.force f.bit true }

/-- A write of FLT_FORCE under R507. -/
def State.writeForce (s : State) (code inst : Nat) (w : Word) : State :=
  let wi := windowIndex code inst
  let old := (s.win wi).force
  let s := s.modWin wi fun x => { x with force := x.force &&& w }
  let s := s.each ((bitsOf w 32).filter fun b => !bitOf old b) fun s b => s.forceOn ⟨code, inst, b⟩
  s.modWin wi fun x => { x with force := w }

/-- A write of FLT_INJ under R507: only sources of Table 13.4 take it, and not those of a fenced unit (R506). -/
def State.writeInj (s : State) (code inst : Nat) (w : Word) : State :=
  let w := w &&& injectable code
  let w := (bitsOf w 32).foldl (fun x b => if s.unitFenced ⟨code, inst, b⟩ then setBit x b false else x) w
  s.modWin (windowIndex code inst) fun x => { x with inj := w }

/-! ## Injection (R506) -/

/-- The unit of an injectable source runs, so that its checker makes checks. -/
def State.checkerRuns (s : State) (f : Fid) : Bool :=
  match f.code with
  | 3 => (s.core f.inst).state != .off && (s.core f.inst).state != .idle
  | 5 => (match s.boundTo f.bit with | some n => (s.stn n).running | none => false)
  | 6 => s.flag Fields.OUT_CFG_EN f.inst && (s.srcOf f.inst).isSome && (s.out f.inst).domainOn
  | 10 => s.mon.slot.isSome
  | _ => true

/-- The check that an injected bit spoils finds its fault. -/
def State.injectedFault (s : State) (f : Fid) (entries : List Nat) (store : Nat) : State :=
  match f.code with
  | 0 => if f.bit = 0 then s.mgmtRestart f else s.raiseEvent f 0
  | 5 => s.threadCheckFail f.bit
  | 10 => s.resParity (entries.headD 0)
  | 15 | 16 | 17 => if f.bit = 1 then
      s.eccUncorr (if f.code = 15 then 0 else if f.code = 17 then 9 else 1 + store % 8) entries
    else s.raiseEvent f 0
  | _ => s.raiseEvent f 0

/-- INJECTED_CHECK: the next check of an injected source. While its unit does not run the bit waits; a unit fenced before it
clears the bit with nothing raised. -/
def State.injectedCheck (s : State) (f : Fid) (entries : List Nat) (store : Nat) : State :=
  let wi := windowIndex f.code f.inst
  if !bitOf (s.win wi).inj f.bit then s
  else
    let off (s : State) : State := s.modWin wi fun w => { w with inj := setBit w.inj f.bit false }
    if s.unitFenced f then off s
    else if !s.checkerRuns f then s
    else ((off s).injectedFault f entries store).markRaise f true

/-! ## Items (R529, Table 13.11) -/

/-- FLT_TALLYCNT. -/
def FaultWindow.tallyCnt (w : FaultWindow) : Word :=
  BitVec.ofNat 32 (w.overflow % 2 ^ 16 * 2 ^ 16 + w.tally.length % 32 * 2 ^ 8 + w.newSeq % 256)

/-- A word of a tally entry: word 0 as it stands, words 1 to 3 as latched (R527). -/
def FaultWindow.tallyWord (w : FaultWindow) (e k : Nat) : Word :=
  match k with
  | 0 => match w.tally[e]? with | some x => x.word 0 | none => 0
  | 1 => w.latch1
  | 2 => w.latch2
  | _ => w.latch3

/-- Latch words 1 to 3 of a tally entry; an entry that is not held reads 0. -/
def FaultWindow.latchTally (w : FaultWindow) (e : Nat) : FaultWindow :=
  match w.tally[e]? with
  | some x => { w with latch1 := x.word 1, latch2 := x.word 2, latch3 := x.word 3 }
  | none => { w with latch1 := 0, latch2 := 0, latch3 := 0 }

/-- The word an item reads. -/
def FaultWindow.item (w : FaultWindow) (now i : Nat) : Word :=
  match i with
  | 0 => w.sev0
  | 1 => w.sev1
  | 2 => w.force
  | 3 => w.inj
  | 4 => w.irq
  | 5 => w.grace
  | 6 => w.ctrl
  | 7 => w.ecls0
  | 8 => w.ecls1
  | 9 => w.pend
  | 10 => w.suppWord now
  | 11 => w.tallyCnt
  | _ => if 16 ≤ i ∧ i < 80 then w.tallyWord ((i - 16) / 4) ((i - 16) % 4) else 0

/-- FLT_SEL.ITEM of a window. -/
def FaultWindow.selItem (w : FaultWindow) : Nat := getBits w.sel 0 7

/-- ITEM after an access of FLT_DATA: one more with AUTOINC, wrapping from 127 to 0. -/
def FaultWindow.nextItem (w : FaultWindow) : FaultWindow :=
  if bitOf w.sel 7 then { w with sel := putBits w.sel 0 7 ((w.selItem + 1) % 128) } else w

/-- A read of FLT_DATA. -/
def State.readFltData (s : State) (wi : Nat) : Word × State :=
  let w := s.win wi
  let i := w.selItem
  let v := w.item s.elapsed i
  let w := if 16 ≤ i ∧ i < 80 ∧ (i - 16) % 4 = 0 then w.latchTally ((i - 16) / 4) else w
  (v, s.setWin wi w.nextItem)

/-- A write of an item. -/
def State.writeItem (s : State) (code inst i : Nat) (d : Word) : State :=
  let wi := windowIndex code inst
  match i with
  | 0 => s.modWin wi fun w => { w with sev0 := (w.sev0 &&& ~~~(sevMask code false)) ||| (d &&& sevMask code false) }
  | 1 => s.modWin wi fun w => { w with sev1 := (w.sev1 &&& ~~~(sevMask code true)) ||| (d &&& sevMask code true) }
  | 2 => s.writeForce code inst d
  | 3 => s.writeInj code inst d
  | 4 => s.modWin wi fun w => { w with irq := d }
  | 5 => s.modWin wi fun w => { w with grace := d }
  | 6 => s.modWin wi fun w => { w with ctrl := d &&& 0x3FFFFFFF#32 }
  | 11 => if getBits d 16 16 = 0xFFFF then s.modWin wi fun w => { w with overflow := 0 } else s
  | _ => s

/-- A write of FLT_DATA (R507, R529): FLT_FORCE and FLT_INJ need ARM = 0xA5; every write returns ARM to 0. -/
def State.writeFltData (s : State) (code inst : Nat) (d : Word) : WRes :=
  let wi := windowIndex code inst
  let w := s.win wi
  let i := w.selItem
  let s := s.setWin wi { w with sel := putBits w.sel 24 8 0 }.nextItem
  if (i = 2 ∨ i = 3) ∧ getBits w.sel 24 8 ≠ 0xA5 then (.state, s) else (.ok, s.writeItem code inst i d)

/-- FLT_LIVE as it reads: the live level sources, and the event sources that raise at this tick; 0 for a fenced unit. -/
def State.liveWord (s : State) (code inst : Nat) : Word :=
  BitVec.ofNat 32 (((bitsOf (usedSources code) 32).filter fun b =>
    !s.unitFenced ⟨code, inst, b⟩ && (s.isLive ⟨code, inst, b⟩
      || s.raises.any fun r => r.fid == ⟨code, inst, b⟩ && r.at_ == s.elapsed)).map (2 ^ ·)).sum

/-- A read of a register of a fault window by its offset (R499). -/
def State.readFlt (s : State) (code inst off : Nat) : Word × State :=
  let wi := windowIndex code inst
  match off with
  | 0 => (s.liveWord code inst, s)
  | 4 => ((s.win wi).stat, s)
  | 8 => ((s.win wi).sel, s)
  | _ => s.readFltData wi

/-- A write of a register of a fault window by its offset. FLT_LIVE ignores writes. -/
def State.writeFlt (s : State) (code inst off : Nat) (d : Word) : WRes :=
  match off with
  | 0 => (.ok, s)
  | 4 => (.ok, s.faultAck code inst d)
  | 8 => (.ok, s.modWin (windowIndex code inst) fun w => { w with sel := d &&& 0xFF0000FF#32 })
  | _ => s.writeFltData code inst d

end Sys2Proof.Machine
end

