-- ==== Sys2Proof/Machine/Crypto.lean ====
section
/-! DEFINITION. Hashes and signatures over bytes that the update logic uses (spec/15): SHA-256 and SHA-384 of FIPS 180-4,
HMAC-SHA-256, and the verification of an ECDSA P-384 signature. -/

namespace Sys2Proof.Machine

/-! ## Bytes -/

/-- The bytes of a number, most significant first. -/
def beBytes (n v : Nat) : List Byte := (bytesOf n v).map (BitVec.ofNat 8)

/-- The number that bytes spell, most significant first. -/
def beNat (l : List Byte) : Nat := l.foldl (fun a b => a * 256 + b.toNat) 0

/-- Bytes `i` to `i + n − 1` of a list as a number. -/
def field (l : List Byte) (i n : Nat) : Nat := beNat ((l.drop i).take n)

/-- Groups of `n` bytes as numbers; `fuel` bounds their count. -/
def groupBytes (n : Nat) : (fuel : Nat) → List Byte → List Nat
  | 0, _ => []
  | k + 1, l => if l.isEmpty then [] else beNat (l.take n) :: groupBytes n k (l.drop n)

/-- Pad a message to whole blocks of `b` bytes: a one bit, zeros, and its length in bits in `b / 8` bytes. -/
def padBytes (b : Nat) (l : List Byte) : List Byte :=
  let n := l.length
  let zeros := (b - (n + 1 + b / 8) % b) % b
  l ++ [0x80#8] ++ List.replicate zeros 0#8 ++ beBytes (b / 8) (8 * n)

/-- SHA-256 over bytes. -/
def sha256Bytes (l : List Byte) : List Byte :=
  let ws := (groupBytes 4 (l.length + 72) (padBytes 64 l)).map (BitVec.ofNat 32)
  ((shaBlocks ws.length shaInit ws).map fun w => beBytes 4 w.toNat).flatten

/-- HMAC-SHA-256 with a key of at most 64 bytes. -/
def hmac (key msg : List Byte) : List Byte :=
  let k := key ++ List.replicate (64 - key.length) 0#8
  sha256Bytes (k.map (· ^^^ 0x5C#8) ++ sha256Bytes (k.map (· ^^^ 0x36#8) ++ msg))

/-! ## SHA-384 -/

/-- The 80 round constants of SHA-384. -/
def sha384K : List (BitVec 64) :=
  [0x428a2f98d728ae22#64, 0x7137449123ef65cd#64, 0xb5c0fbcfec4d3b2f#64, 0xe9b5dba58189dbbc#64,
   0x3956c25bf348b538#64, 0x59f111f1b605d019#64, 0x923f82a4af194f9b#64, 0xab1c5ed5da6d8118#64,
   0xd807aa98a3030242#64, 0x12835b0145706fbe#64, 0x243185be4ee4b28c#64, 0x550c7dc3d5ffb4e2#64,
   0x72be5d74f27b896f#64, 0x80deb1fe3b1696b1#64, 0x9bdc06a725c71235#64, 0xc19bf174cf692694#64,
   0xe49b69c19ef14ad2#64, 0xefbe4786384f25e3#64, 0x0fc19dc68b8cd5b5#64, 0x240ca1cc77ac9c65#64,
   0x2de92c6f592b0275#64, 0x4a7484aa6ea6e483#64, 0x5cb0a9dcbd41fbd4#64, 0x76f988da831153b5#64,
   0x983e5152ee66dfab#64, 0xa831c66d2db43210#64, 0xb00327c898fb213f#64, 0xbf597fc7beef0ee4#64,
   0xc6e00bf33da88fc2#64, 0xd5a79147930aa725#64, 0x06ca6351e003826f#64, 0x142929670a0e6e70#64,
   0x27b70a8546d22ffc#64, 0x2e1b21385c26c926#64, 0x4d2c6dfc5ac42aed#64, 0x53380d139d95b3df#64,
   0x650a73548baf63de#64, 0x766a0abb3c77b2a8#64, 0x81c2c92e47edaee6#64, 0x92722c851482353b#64]
  ++
  [0xa2bfe8a14cf10364#64, 0xa81a664bbc423001#64, 0xc24b8b70d0f89791#64, 0xc76c51a30654be30#64,
   0xd192e819d6ef5218#64, 0xd69906245565a910#64, 0xf40e35855771202a#64, 0x106aa07032bbd1b8#64,
   0x19a4c116b8d2d0c8#64, 0x1e376c085141ab53#64, 0x2748774cdf8eeb99#64, 0x34b0bcb5e19b48a8#64,
   0x391c0cb3c5c95a63#64, 0x4ed8aa4ae3418acb#64, 0x5b9cca4f7763e373#64, 0x682e6ff3d6b2b8a3#64,
   0x748f82ee5defb2fc#64, 0x78a5636f43172f60#64, 0x84c87814a1f0ab72#64, 0x8cc702081a6439ec#64,
   0x90befffa23631e28#64, 0xa4506cebde82bde9#64, 0xbef9a3f7b2c67915#64, 0xc67178f2e372532b#64,
   0xca273eceea26619c#64, 0xd186b8c721c0c207#64, 0xeada7dd6cde0eb1e#64, 0xf57d4f7fee6ed178#64,
   0x06f067aa72176fba#64, 0x0a637dc5a2c898a6#64, 0x113f9804bef90dae#64, 0x1b710b35131c471b#64,
   0x28db77f523047d84#64, 0x32caab7b40c72493#64, 0x3c9ebe0a15c9bebc#64, 0x431d67c49c100d4c#64,
   0x4cc5d4becb3e42b6#64, 0x597f299cfc657e2a#64, 0x5fcb6fab3ad6faec#64, 0x6c44198c4a475817#64]

/-- The initial hash value of SHA-384. -/
def sha384Init : List (BitVec 64) :=
  [0xcbbb9d5dc1059ed8#64, 0x629a292a367cd507#64, 0x9159015a3070dd17#64, 0x152fecd8f70e5939#64,
   0x67332667ffc00b31#64, 0x8eb44a8768581511#64, 0xdb0c2e0d64f98fa7#64, 0x47b5481dbefa4fa4#64]

/-- The message schedule of one block, as for SHA-256. -/
def sha384Extend : Nat → List (BitVec 64) → List (BitVec 64)
  | 0, ws => ws.reverse
  | k + 1, ws =>
    let w (i : Nat) : BitVec 64 := ws.getD (i - 1) 0
    let s0 := (w 15).rotateRight 1 ^^^ (w 15).rotateRight 8 ^^^ ((w 15) >>> 7)
    let s1 := (w 2).rotateRight 19 ^^^ (w 2).rotateRight 61 ^^^ ((w 2) >>> 6)
    sha384Extend k ((w 16 + s0 + w 7 + s1) :: ws)

/-- One round on the eight working words. -/
def sha384Round (v : List (BitVec 64)) (k w : BitVec 64) : List (BitVec 64) :=
  match v with
  | [a, b, c, d, e, f, g, h] =>
    let t1 := h + (e.rotateRight 14 ^^^ e.rotateRight 18 ^^^ e.rotateRight 41) + ((e &&& f) ^^^ (~~~e &&& g)) + k + w
    let t2 := (a.rotateRight 28 ^^^ a.rotateRight 34 ^^^ a.rotateRight 39) + ((a &&& b) ^^^ (a &&& c) ^^^ (b &&& c))
    [t1 + t2, a, b, c, d + t1, e, f, g]
  | v => v

/-- One block of sixteen words. -/
def sha384Block (h block : List (BitVec 64)) : List (BitVec 64) :=
  let v := (sha384K.zip (sha384Extend 64 block.reverse)).foldl (fun v (k, w) => sha384Round v k w) h
  (h.zip v).map fun (a, b) => a + b

/-- All blocks of a padded message; `n` bounds their number. -/
def sha384Blocks : Nat → List (BitVec 64) → List (BitVec 64) → List (BitVec 64)
  | 0, h, _ => h
  | _, h, [] => h
  | n + 1, h, ws => sha384Blocks n (sha384Block h (ws.take 16)) (ws.drop 16)

/-- SHA-384 over bytes. -/
def sha384 (l : List Byte) : List Byte :=
  let ws := (groupBytes 8 (l.length + 144) (padBytes 128 l)).map (BitVec.ofNat 64)
  (((sha384Blocks ws.length sha384Init ws).take 6).map fun w => beBytes 8 w.toNat).flatten

/-! ## ECDSA over P-384 -/

/-- The prime of P-384. -/
def p384P : Nat := 0xfffffffffffffffffffffffffffffffffffffffffffffffffffffffffffffffeffffffff0000000000000000ffffffff

/-- The order of P-384. -/
def p384N : Nat :=
  0xffffffffffffffffffffffffffffffffffffffffffffffffc7634d81f4372ddf581a0db248b0a77aecec196accc52973

/-- The coefficient b of P-384 (a is −3). -/
def p384B : Nat :=
  0xb3312fa7e23ee7e4988e056be3f82d19181d9c6efe8141120314088f5013875ac656398d8a2ed19d2a85c8edd3ec2aef

/-- The base point of P-384. -/
def p384G : Nat × Nat :=
  (0xaa87ca22be8b05378eb1c71ef320ad746e1d3b628ba79b9859f741e082542a385502f25dbf55296c3a545e3872760ab7,
   0x3617de4a96262c6f5d9e98bf9292dc29f8f41dbd289a147ce9da3113b5f0b8c00a60b1ce1d7e819d7a431d7c90ea0e5f)

/-- A power modulo `m`; `fuel` bounds the bits of the exponent. -/
def powMod (m : Nat) : (fuel : Nat) → (b e : Nat) → Nat
  | 0, _, _ => 1 % m
  | k + 1, b, e =>
    let r := powMod m k (b * b % m) (e / 2)
    if e % 2 = 1 then r * b % m else r

/-- The inverse modulo a prime below 2^384. -/
def invMod (m a : Nat) : Nat := powMod m 384 (a % m) (m - 2)

/-- A point in Jacobian coordinates; z = 0 is the point at infinity. -/
structure JPoint where
  x : Nat
  y : Nat
  z : Nat
  deriving DecidableEq, Repr, Inhabited

/-- Subtraction modulo the prime. -/
def p384Sub (a b : Nat) : Nat := (a + (p384P - b % p384P)) % p384P

/-- A point doubled. -/
def JPoint.double (p : JPoint) : JPoint :=
  if p.z = 0 ∨ p.y = 0 then ⟨1, 1, 0⟩
  else
    let zz := p.z * p.z % p384P
    let m := 3 * (p384Sub p.x zz * (p.x + zz) % p384P) % p384P
    let yy := p.y * p.y % p384P
    let s := 4 * p.x * yy % p384P
    let x := p384Sub (m * m % p384P) (2 * s)
    ⟨x, p384Sub (m * p384Sub s x) (8 * (yy * yy % p384P)), 2 * p.y * p.z % p384P⟩

/-- The sum of two points. -/
def JPoint.add (p q : JPoint) : JPoint :=
  if p.z = 0 then q
  else if q.z = 0 then p
  else
    let zp := p.z * p.z % p384P
    let zq := q.z * q.z % p384P
    let u1 := p.x * zq % p384P
    let u2 := q.x * zp % p384P
    let s1 := p.y * (zq * q.z % p384P) % p384P
    let s2 := q.y * (zp * p.z % p384P) % p384P
    if u1 = u2 then (if s1 = s2 then p.double else ⟨1, 1, 0⟩)
    else
      let h := p384Sub u2 u1
      let r := p384Sub s2 s1
      let hh := h * h % p384P
      let hhh := h * hh % p384P
      let v := u1 * hh % p384P
      let x := p384Sub (p384Sub (r * r) hhh) (2 * v)
      ⟨x, p384Sub (r * p384Sub v x) (s1 * hhh), p.z * q.z % p384P * h % p384P⟩

/-- A multiple of a point; `fuel` bounds the bits of the factor. -/
def JPoint.mul (p : JPoint) : (fuel k : Nat) → JPoint
  | 0, _ => ⟨1, 1, 0⟩
  | n + 1, k =>
    let r := (p.mul n (k / 2)).double
    if k % 2 = 1 then r.add p else r

/-- ECDSA P-384: whether (r, s) signs a message hash under the public key (x, y). -/
def ecdsaVerify (hash : List Byte) (x y r s : Nat) : Bool :=
  let onCurve := decide (x < p384P) && decide (y < p384P)
    && (y * y) % p384P == (x * x % p384P * x + p384P * 3 - 3 * x + p384B) % p384P
  if !onCurve || r = 0 || s = 0 || p384N ≤ r || p384N ≤ s then false
  else
    let w := invMod p384N s
    let u1 := beNat hash * w % p384N
    let u2 := r * w % p384N
    let p := (JPoint.mul ⟨p384G.1, p384G.2, 1⟩ 384 u1).add (JPoint.mul ⟨x, y, 1⟩ 384 u2)
    if p.z = 0 then false
    else
      let zi := invMod p384P p.z
      (p.x * (zi * zi % p384P)) % p384P % p384N == r

end Sys2Proof.Machine
end

