-- ==== Sys2Proof/Machine/Update.lean ====
section
/-! DEFINITION. The update logic (spec/15 R568 to R597): image headers and their checks, the slot table, deltas, download,
activation requests, confirmation, and the rollback floors. -/

namespace Sys2Proof.Machine

/-! ## Image headers (R570, R571, Tables 15.2 and 15.3) -/

/-- KIND: 1 full image, 2 delta. -/
def imgKind (h : List Byte) : Nat := field h 6 2
/-- LENGTH in bytes. -/
def imgLength (h : List Byte) : Nat := field h 8 4
/-- SETFMT. -/
def imgSetfmt (h : List Byte) : Nat := field h 12 2

/-- A component entry: type, SVN, VERSION, offset and size. -/
structure Component where
  type : Nat
  svn : Nat
  version : Nat
  offset : Nat
  size : Nat
  deriving DecidableEq, Repr, Inhabited

/-- The four component entries of a header. -/
def components (h : List Byte) : List Component :=
  (List.range 4).map fun j =>
    let o := 16 + 16 * j
    ⟨field h o 1, field h (o + 2) 2, field h (o + 4) 4, field h (o + 8) 4, field h (o + 12) 4⟩

/-- The component of a type. -/
def component (h : List Byte) (t : Nat) : Component := ((components h).find? fun c => c.type == t).getD default

/-- The header hash of an image: SHA-384 of its bytes 0 to 367. -/
def headerHash (img : List Byte) : List Byte := sha384 (img.take 368)

/-- Blocks of 64 KiB that a number of bytes takes. -/
def blocksOf (n : Nat) : Nat := (n + 65535) / 65536

/-- Two components do not share a byte. -/
def Component.apart (a b : Component) : Bool := decide (a.offset + a.size ≤ b.offset) || decide (b.offset + b.size ≤ a.offset)

/-- Statuses of Table 15.8. -/
inductive UStatus where
  | ok | busy | auth | range | state | format | sig | rollback | base | digest | flash | seq
  deriving DecidableEq, Repr, Inhabited

/-- The code of a status (Table 15.8). -/
def UStatus.code : UStatus → Nat
  | .ok => 0 | .busy => 1 | .auth => 2 | .range => 3 | .state => 4 | .format => 5 | .sig => 6 | .rollback => 7 | .base => 8
  | .digest => 9 | .flash => 10 | .seq => 11

/-- The first status of a list that is not OK. -/
def firstBad : List UStatus → UStatus
  | [] => .ok
  | .ok :: l => firstBad l
  | x :: _ => x

/-- OK, or a status when a check fails. -/
def checked (b : Bool) (st : UStatus) : UStatus := if b then .ok else st

/-- Check 1: MAGIC, FORMAT, KIND and LENGTH. -/
def checkFormat (h : List Byte) (delta : Bool) : UStatus :=
  checked (field h 0 4 == 0x0C588840 && field h 4 2 == 1 && (imgKind h == 1 || (delta && imgKind h == 2))
    && decide (1024 ≤ imgLength h) && decide (imgLength h ≤ 16777216) && decide (512 ≤ h.length)) .format

/-- Checks 2 and 3: the key is the one whose hash OTP holds, and it signed bytes 0 to 271. -/
def checkSig (otp : Otp) (h : List Byte) : UStatus :=
  checked (beNat (sha384 ((h.drop 176).take 96)) == otp.keyHash.toNat
    && ecdsaVerify (sha384 (h.take 272)) (field h 176 48) (field h 224 48) (field h 272 48) (field h 320 48)) .sig

/-- Check 4: each type once, and components within the body that do not overlap. The entries of a delta are those of its
target, whose length its header does not hold. -/
def checkComps (h : List Byte) : UStatus :=
  let cs := components h
  let once := (List.range 4).all fun t => (cs.filter fun c => c.type == t).length == 1
  let inside := cs.all fun c => decide (512 ≤ c.offset) && (imgKind h == 2 || decide (c.offset + c.size ≤ imgLength h))
  let apart := (List.range 4).all fun i => (List.range i).all fun j => (cs.getD i default).apart (cs.getD j default)
  checked (once && inside && apart) .format

/-- Check 5: no SVN below the floor of its type. -/
def checkFloors (otp : Otp) (h : List Byte) : UStatus :=
  checked ((List.range 4).all fun t => decide ((otp.floors[t]?).getD 0 ≤ (component h t).svn)) .rollback

/-- Check 6: no VERSION below that of the reference image. -/
def checkVersions (h : List Byte) (ref : Option (List Byte)) : UStatus :=
  match ref with
  | some r => checked ((List.range 4).all fun t => decide ((component r t).version ≤ (component h t).version)) .rollback
  | none => .ok

/-- Check 8: DIGEST is the SHA-384 of the body. -/
def checkDigest (img : List Byte) : UStatus :=
  checked (sha384 ((img.take (imgLength img)).drop 512) == (img.drop 80).take 48 && decide (imgLength img ≤ img.length)) .digest

/-- Checks 1 to 5 and 8 of a full image: what stage IMAGE asks (Table 15.5). -/
def imageStarts (otp : Otp) (img : List Byte) : UStatus :=
  firstBad [checkFormat img false, checkSig otp img, checkComps img, checkFloors otp img, checkDigest img]

/-- In recovery mode the reference image is the first of active and fallback that could start; else the active image. -/
def State.referenceImage (s : State) : Option (List Byte) :=
  if s.boot.recovery = 0 then some s.flash.active
  else if imageStarts s.otp s.flash.active = .ok then some s.flash.active
  else if imageStarts s.otp s.flash.fallback = .ok then some s.flash.fallback
  else none

/-- Checks 1 to 7 of a header, at UPD_BEGIN. -/
def State.checkHeader (s : State) (h : List Byte) : UStatus :=
  firstBad [checkFormat h (s.flag Fields.UPD_CFG_MODE 0), checkSig s.otp h, checkComps h, checkFloors s.otp h,
    checkVersions h s.referenceImage,
    checked (imgKind h == 1 || (h.drop 128).take 48 == headerHash s.flash.active) .base]

/-- Checks 8 and 9 of the staged image, at UPD_END. The target header of a delta passes checks 1 to 6 as a full image. -/
def State.checkStaged (s : State) (img : List Byte) : UStatus :=
  let target := (img.drop 512).take 512
  firstBad ([checkDigest img] ++ if imgKind img = 2 then
      [checkFormat target false, checkSig s.otp target, checkComps target, checkFloors s.otp target,
       checkVersions target s.referenceImage]
    else [])

/-! ## Deltas (R571, Table 15.4) -/

/-- The operations of an output block from an offset of the body on: bytes until `want` are produced; `fuel` bounds the
operations. -/
def deltaOps (body fallback : List Byte) : (fuel at_ want : Nat) → List Byte
  | 0, _, _ => []
  | k + 1, at_, want =>
    if want = 0 then []
    else
      let n := min want (field body (at_ + 1) 3)
      match field body at_ 1 with
      | 0x10 => (fallback.drop (field body (at_ + 4) 4)).take n ++ deltaOps body fallback k (at_ + 8) (want - n)
      | 0x20 => (body.drop (at_ + 4)).take n ++ deltaOps body fallback k (at_ + 4 + (n + 3) / 4 * 4) (want - n)
      | _ => []

/-- The length of the image an update leads to: for a delta, its target's. -/
def targetLength (img : List Byte) : Nat := if imgKind img = 2 then imgLength (img.drop 512) else imgLength img

/-- Output block `i` of the target of a delta. -/
def deltaBlock (img fallback : List Byte) (i : Nat) : List Byte :=
  let body := img.drop 512
  let off := field body (512 + 4 * i) 4
  if off = 0xFFFFFFFF then [] else deltaOps body fallback 65536 off (min 65536 (targetLength img - i * 65536))

/-! ## The slot table (R583, R584) -/

/-- The entry in force; with none committed, the state is IDLE and active alone holds an image. -/
def State.entry (s : State) : SlotEntry :=
  s.flash.table_.getD
    { state := .idle, trials := 0, nofb := false, delta := false, fbValid := false, stValid := false, seq := 0
      actHash := List.replicate 48 0#8, fbHash := List.replicate 48 0#8, stHash := List.replicate 48 0#8, jblock := 3 }

/-- Commit an entry: the present one changed, with the next sequence number. -/
def State.commitSlot (s : State) (f : SlotEntry → SlotEntry) : State :=
  let e := { f s.entry with seq := (s.entry.seq + 1) % 2 ^ 32 }
  s.modFlash fun x => { x with table_ := some e, tableSeq := e.seq }

/-- The codes of the update states (Table 15.9). -/
def UpdState.code : UpdState → Nat
  | .idle => 0 | .receiving => 1 | .verifying => 2 | .verified => 3 | .armed => 4 | .activating => 5 | .trial => 6 | .reverting => 7

/-- A session ends, or a start finds RECEIVING: IDLE is committed and staging ignored. -/
def State.dropReceiving (s : State) : State :=
  if s.entry.state = .receiving then s.commitSlot fun e => { e with state := .idle, stValid := false } else s

/-- UPD_STAT.RESULT takes the outcome of an update command. -/
def State.updResult (s : State) (st : UStatus) : UStatus × State := (st, s.setFld Fields.UPD_STAT_RESULT 0 st.code)

/-- In recovery for want of a flash, or during a copy, a download is refused (Table 15.13). -/
def State.downloadRefused (s : State) : Option UStatus :=
  match s.boot.recovery with
  | 1 => some .flash
  | 3 => some .busy
  | _ => none

/-- UPD_BEGIN (R585): the header is checked and programmed, and RECEIVING committed. -/
def State.updBegin (s : State) (h : List Byte) : UStatus × State :=
  match s.downloadRefused with
  | some st => s.updResult st
  | none =>
    if s.entry.state ≠ .idle then s.updResult .state
    else
      match s.checkHeader h with
      | .ok =>
        let s := s.modFlash fun f => { f with staging := h.take 512 }
        let s := s.commitSlot fun e => { e with state := .receiving, stValid := false, delta := decide (imgKind h = 2) }
        { s with boot := { s.boot with length := 512 } }.updResult .ok
      | st => s.updResult st

/-- UPD_DATA (R586). -/
def State.updData (s : State) (offset : Nat) (data : List Byte) : UStatus × State :=
  match s.downloadRefused with
  | some st => s.updResult st
  | none =>
    if s.entry.state ≠ .receiving then s.updResult .state
    else if offset ≠ s.boot.length ∨ imgLength s.flash.staging < offset + data.length ∨ data = [] then s.updResult .range
    else
      let s := s.modFlash fun f => { f with staging := f.staging ++ data }
      { s with boot := { s.boot with length := offset + data.length } }.updResult .ok

/-- The staged image is verified (R587, Table 15.14): VERIFIED, or IDLE with IMAGE_REJECT. -/
def State.verifyStaged (s : State) : UStatus × State :=
  let img := s.flash.staging
  match s.checkStaged img with
  | .ok =>
    (.ok, s.commitSlot fun e =>
      { e with state := .verified, stValid := true, stHash := headerHash (if imgKind img = 2 then img.drop 512 else img) })
  | st => (st, (s.commitSlot fun e => { e with state := .idle, stValid := false }).raiseEvent Src.store_IMAGE_REJECT 0)

/-- UPD_END (R587). -/
def State.updEnd (s : State) : UStatus × State :=
  match s.downloadRefused with
  | some st => s.updResult st
  | none =>
    if s.entry.state ≠ .receiving ∨ s.boot.length ≠ imgLength s.flash.staging then s.updResult .state
    else
      let (st, s) := (s.commitSlot fun e => { e with state := .verifying }).verifyStaged
      s.updResult st

/-- Begin a copy without a fallback copy, at once, in recovery mode for want of an image (Table 15.13). -/
def State.beginNoFb (s : State) : State :=
  let s := s.commitSlot fun e => { e with state := .activating, nofb := true, jblock := (e.jblock + 1) % 4 }
  let n := blocksOf (targetLength s.flash.staging)
  let s := (s.setFld Fields.UPD_PROGRESS_DONE 0 0).setFld Fields.UPD_PROGRESS_TOTAL 0 n
  { s.modFlash fun f => { f with journal := [] } with
      boot := { s.boot with copy := some ⟨false, true, 2, 0, 0, n⟩ } }

/-- UPD_ACTIVATE and UPD_CMD.ACTIVATE (R588): ARMED from VERIFIED; in recovery mode for want of an image the copy begins. -/
def State.updActivate (s : State) : UStatus × State :=
  match s.downloadRefused with
  | some st => s.updResult st
  | none =>
    if s.entry.state ≠ .verified then s.updResult .state
    else if s.boot.recovery = 2 then s.beginNoFb.updResult .ok
    else (s.commitSlot fun e => { e with state := .armed }).updResult .ok

/-- UPD_ABORT and UPD_CMD.ABORT (R588). -/
def State.updAbort (s : State) : UStatus × State :=
  match s.downloadRefused with
  | some st => s.updResult st
  | none =>
    match s.entry.state with
    | .receiving | .verified => (s.commitSlot fun e => { e with state := .idle, stValid := false }).updResult .ok
    | .armed => (s.commitSlot fun e => { e with state := .verified }).updResult .ok
    | .trial => (s.commitSlot fun e => { e with state := .reverting }).updResult .ok
    | _ => s.updResult .state

/-! ## Floors and update records (R595 to R597, R602) -/

/-- Raise the floors toward the SVNs of the active image (R596); a floor that reaches 256 raises FUSE_EXHAUSTED (R597). -/
def State.raiseFloors (s : State) : State :=
  let new (t : Nat) : Nat := max ((s.otp.floors[t]?).getD 0) (min 256 (component s.flash.active t).svn)
  let full := (List.range 4).any fun t => decide ((s.otp.floors[t]?).getD 0 < 256) && decide (256 ≤ new t)
  let s := { s with otp := { s.otp with floors := Vector.ofFn fun t => new t.val } }
  if full then s.raiseEvent Src.store_FUSE_EXHAUSTED 0 else s

/-- A floor stands at 256. -/
def State.fuseFull (s : State) : Bool := (List.range 4).any fun t => decide (256 ≤ (s.otp.floors[t]?).getD 0)

/-- The payload of an update record for an event (R602): EVENT, tick, VERSIONs and SVNs of the running image. -/
def State.updateRecord (s : State) (event : Nat) : List Word :=
  let c (t : Nat) := component s.boot.image t
  [BitVec.ofNat 32 event, loWord s.now, hiWord s.now] ++ ((List.range 4).map fun t => BitVec.ofNat 32 (c t).version)
    ++ [BitVec.ofNat 32 ((c 0).svn * 2 ^ 16 + (c 1).svn), BitVec.ofNat 32 ((c 2).svn * 2 ^ 16 + (c 3).svn)]

/-- Commit an update record (R602); a read-only ledger takes none. -/
def State.commitUpdate (s : State) (event : Nat) : State :=
  if s.store.readOnly then s else s.requestCommit 4 (s.updateRecord event)

/-- STORE_START.STAGE. -/
def State.startStage (s : State) : Nat := s.fld Fields.STORE_START_STAGE 0

/-- UPD_CMD.CONFIRM (R595): only in TRIAL at DONE. -/
def State.updConfirm (s : State) : UStatus × State :=
  if s.entry.state ≠ .trial ∨ s.startStage ≠ 6 then s.updResult .state
  else
    let s := s.commitSlot fun e => { e with state := .idle, trials := 0 }
    (s.raiseFloors.commitUpdate 2).updResult .ok

/-- A write of UPD_CMD with its key: ABORT, CONFIRM, then ACTIVATE. -/
def State.writeUpdCmd (s : State) (w : Word) : WRes :=
  let act (r : UStatus × State) (b : Bool) (f : State → UStatus × State) : UStatus × State :=
    if b then (let r' := f r.2; (if r.1 = .ok then r'.1 else r.1, r'.2)) else r
  let r := act (act (act (.ok, s) (bitOf w 0) State.updAbort) (bitOf w 1) State.updConfirm) (bitOf w 2) State.updActivate
  (match r.1 with | .ok => .ok | .busy => .busy | .range => .range | _ => .state, r.2)

/-! ## What the update registers read -/

/-- UPD_STAT. -/
def State.updStat (s : State) : Word :=
  let e := s.entry
  let lane := match s.svc.session with | some x => x.lane | none => false
  BitVec.ofNat 32 (e.state.code * 2 ^ 28 + e.trials % 16 * 2 ^ 24 + e.fbValid.toNat * 2 ^ 23 + e.stValid.toNat * 2 ^ 22
    + s.svc.session.isSome.toNat * 2 ^ 21 + lane.toNat * 2 ^ 20 + s.fld Fields.UPD_STAT_RESULT 0 * 2 ^ 16)

/-- UPD_FLOOR01 and UPD_FLOOR23. -/
def State.floorWord (s : State) (k : Nat) : Word :=
  BitVec.ofNat 32 ((s.otp.floors[k + 1]?).getD 0 % 512 * 2 ^ 16 + (s.otp.floors[k]?).getD 0 % 512)

/-- UPD_ACTVER and UPD_ACTSVN: of the active image, once stage IMAGE has read it. -/
def State.noteActive (s : State) : State :=
  let c (t : Nat) := component s.flash.active t
  let s := s.each (List.range 4) fun s t => s.setReg .UPD_ACTVER t (BitVec.ofNat 32 (c t).version)
  let s := s.setReg .UPD_ACTSVN01 0 (BitVec.ofNat 32 ((c 1).svn * 2 ^ 16 + (c 0).svn))
  s.setReg .UPD_ACTSVN23 0 (BitVec.ofNat 32 ((c 3).svn * 2 ^ 16 + (c 2).svn))

end Sys2Proof.Machine
end

