-- ==== Sys2Proof/Machine/Read.lean ====
section
/-! DEFINITION. What a read returns: the word of every register (Table 0.3, the register tables), the effects a read has (R25,
R475, R612), and reads by address (R499, R613). -/

namespace Sys2Proof.Machine

/-- A word from flags and numbers placed at bit positions. -/
def packed (l : List (Nat × Nat)) : Word := BitVec.ofNat 32 ((l.map fun (v, lo) => v * 2 ^ lo).sum)

/-! ## Status words -/

/-- Whether an output's domain is off: a status field then reads its reset value (R489). -/
def State.outDomainOff (s : State) (o : Nat) : Bool := !(s.out o).domainOn && (s.out o).readyAt.isNone

/-- Whether the unit whose status a register shows has its domain off (R489). -/
def State.unitOff (s : State) (r : RegName) (i : Nat) : Bool :=
  match r with
  | .CORE_PERR | .CORE_LOCKTIME | .CORE_MARGIN => (s.core i).state == .off
  | .OUT_RBPHASE | .OUT_RBCNT => s.outDomainOff i
  | .ANC_STEER | .ANC_PERR | .ANC_BUILDOUT => (s.anc i).state == .off
  | .LN_EQ | .LN_DELAY | .LN_OFFSET | .LN_C0LAT => (s.lane i).state == .off
  | _ => false

/-- REF_STAT. -/
def State.refStat (s : State) (r : Nat) : Word :=
  let x := s.ref r
  (s.reg .REF_STAT r &&& 0x100#32)
    ||| packed [((s.refCfgErr r).toNat, 3), (x.qualified.toNat, 2), (x.inAccept.toNat, 1), (x.active.toNat, 0)]

/-- The state that ANC_STAT shows: with DUAL = 0 an anchor that is not primary does not follow; it stays in INNER_LOCKED (R80). -/
def State.ancShown (s : State) (a : Nat) : AncState :=
  if s.roleless a && (s.anc a).state == .following then .innerLocked else (s.anc a).state

/-- ANC_STAT. -/
def State.ancStat (s : State) (a : Nat) : Word :=
  let x := s.anc a
  let err := s.reg .ANC_STAT a &&& 0x200#32
  if x.state == .off then err ||| 0x100#32
  else
    let gates := s.cond != 0 || !x.state.drives || s.roleless a
    err ||| packed [(gates.toNat, 8), (x.spareIn.toNat, 7), ((s.ancReady a).toNat, 6), (x.outer.toNat, 5),
      (x.inner.toNat, 4), (x.secondary.toNat, 3), ((s.ancShown a).num, 0)]

/-- CORE_STAT as read: the reset value while the core's domains are off (R489), else as R215 shows it. -/
def State.coreStatRead (s : State) (c : Nat) : Word :=
  if (s.core c).state == .off then packed [(1, 4), (if (s.core c).role == .spare then 4 else 0, 10)] else s.coreStat c

/-- CORE_CMD: RELOCK and SEARCH read 1 while the core is in SELECT or ACQUIRE, whatever started the acquisition (R654), in the blocking
role too: R215 does not list them. -/
def State.coreCmdRead (s : State) (c : Nat) : Word :=
  if (s.core c).state == .select || (s.core c).state == .acquire then 6 else 0

/-- A register of R215: a blocking core shows the value it had when it last left the live or split role. -/
def State.viewed (s : State) (c : Nat) (shown own : Word) : Word := if (s.core c).role == .blocking then shown else own

/-- CORE_LOCKSUM. -/
def State.lockSum (s : State) : Word :=
  (List.range 26).foldl (fun w c =>
    let x := s.core c
    setBit w c (if x.role == .blocking then x.lastView.locked else x.state == .locked)) 0

/-- A station's promise has lapsed (R4, R52). -/
def State.lapsed (s : State) (n : Nat) : Bool := s.lapses.any fun l => bitOf l.stations n

/-- STN_STAT. -/
def State.stnStat (s : State) (n : Nat) : Word :=
  let t := s.stn n
  let glides (c : Nat) : Bool := (s.core c).glide.isSome && ((s.core c).role == .live || (s.core c).role == .split)
  packed [((t.run == .running).toNat, 29), (t.guaranteed.toNat, 28), ((s.lapsed n).toNat, 27), ((s.degraded n).toNat, 26),
    (if s.stnMode n = 1 then t.liveSlot % 4 else 3, 24), (t.liveProf % 4096, 12),
    (((s.stationCores n).any glides).toNat, 8), ((s.inService n).length % 4, 0)]

/-- The codes of SEQ_STAT.STATE. -/
def RunState.code : RunState → Nat
  | .empty => 0 | .loaded => 1 | .armed => 2 | .running => 3 | .stopped => 4 | .exception => 5

/-- SEQ_STAT. -/
def State.seqStat (s : State) (n : Nat) : Word :=
  let t := s.stn n
  packed [(t.exc % 16, 28), (s.threadOf n, 24), (t.run.code, 16), (t.epc.toNat, 0)]

/-- PROF_STAT: the result of the last command, whether INDEX has a pending shadow, and the shadows free (R239). -/
def State.profStat (s : State) : Word :=
  packed [(32 - s.shadows.length, 16), ((s.shadowOf (s.fld Fields.PROF_ADDR_INDEX 0)).isSome.toNat, 9),
    (s.fld Fields.PROF_STAT_RESULT 0, 0)]

/-- PGM_STAT. -/
def State.pgmStat (s : State) : Word :=
  setBit (s.reg .PGM_STAT 0) 31 (s.stn s.pgmStation).handoff.isSome

/-- PGM_CMD: CHECK reads 1 while the loader works, HANDOFF until the handover. -/
def State.pgmCmdRead (s : State) : Word :=
  packed [((s.stn s.pgmStation).handoffAt.isSome.toNat, 1), (s.check.isSome.toNat, 0)]

/-- OUT_STAT: while the domain is off, OFF and FENCE alone (R333, R489). LIMIT reads 0 while the driver is off, 1 when
a short has been stamped, and is a free value else. -/
def State.outStat (s : State) (o : Nat) : Word :=
  let x := s.out o
  let why := if s.outDomainOff o then 1 + x.fenced.toNat * 256 else s.gateWhy o
  packed [(why, 16), (x.rbPhaseBad.toNat, 4), (x.rbCountBad.toNat, 3), ((!s.driverOff o && (s.later.contains (.short o) || Config.limitActs o s.elapsed)).toNat, 2), (x.fenced.toNat, 1),
    ((why != 0 || s.halted).toNat, 0)]

/-- OUT_SYSREF: a W1S bit whose action is complete at its release reads 0 (R654). -/
def State.sysrefRead (s : State) (o : Nat) : Word :=
  s.reg .OUT_SYSREF o ||| packed [((s.out o).periodic.isSome.toNat, 28), ((s.burstRunning o s.now).toNat, 27)]

/-- RAS_CTL. -/
def State.rasCtl (s : State) (r : Nat) : Word :=
  let x := s.rasCh r
  (s.reg .RAS_CTL r &&& 0x80#32)
    ||| packed [(x.held.toNat, 6), (x.applying.toNat, 5), (x.pending.isSome.toNat, 4), (x.lastKind % 4, 0)]

/-- TIME_SYNCCMD: a load armed and a window open. -/
def State.syncCmdRead (s : State) : Word :=
  s.reg .TIME_SYNCCMD 0 ||| packed [(s.loadArmed.toNat, 1), (s.sync.isSome.toNat, 0)]

/-- CAL_CMD: RUN reads 1 while the selected group's run is asked for, in progress or paused; COMMIT until its record is
committed. -/
def State.calCmdRead (s : State) : Word :=
  let x := s.grp s.gsel
  let runs := x.wanted || x.paused.isSome || (match s.cal.run with | some r => r.group == s.gsel | none => false)
  packed [(runs.toNat, 31), (s.calCommitting.toNat, 28)]

/-- MON_INJCMD: GO reads 1 while a host request is queued or being converted. -/
def State.injCmdRead (s : State) : Word :=
  let runs := (s.mon.queue.any fun q => q.group.isNone) || (match s.mon.use with | .host _ => true | _ => false)
  setBit (s.reg .MON_INJCMD 0) 31 runs

/-- HSPI_STAT. -/
def State.hspiStat (s : State) : Word :=
  (s.reg .HSPI_STAT 0 &&& 0xFFFF0F80#32) ||| packed [(s.hspi.queue.length % 8, 4), (s.hspi.lastw % 16, 0)]

/-- BAR_IN_STAT: the condition, and the filtered value rounded or the run count (R484, R485). -/
def State.barInStat (s : State) (i : Nat) : Word :=
  let x := (s.bar.ins[i]?).getD default
  let v := if i < 11 then ((x.y + 128) / 256 % 65536).toNat else x.run % 65536
  packed [(x.cond.toNat, 31), (v, 0)]

/-! ## Registers by name -/

/-- The word a read of instance `i` of a register returns. A register without an arm reads its stored word. -/
def State.readWord (s : State) (r : RegName) (i : Nat) : Word :=
  if s.unitOff r i then resetWord r i
  else
    match r with
    | .GLB_SERIAL_LO => s.otp.serial.extractLsb' 0 32
    | .GLB_SERIAL_HI => s.otp.serial.extractLsb' 32 32
    | .GLB_FLTSUM => s.fltSum
    | .GLB_FLTCORE => BitVec.ofNat 32 (s.fltInst 3)
    | .GLB_FLTOUT => BitVec.ofNat 32 (s.fltInst 6)
    | .GLB_FLTMISC => packed [(s.fltInst 14, 24), (s.fltInst 4, 16), (s.fltInst 7, 0)]
    | .MBX_CTL => setBit (s.reg .MBX_CTL 0) 31 s.mbx.busy
    | .SCHED_CTL => s.reg .SCHED_CTL 0 ||| packed [(s.sched.length % 16, 24)]
    | .TIME_NOW_LO => loWord s.now
    | .TIME_SYNCCMD => s.syncCmdRead
    | .TIME_SYNCSTAMP_LO => loWord s.syncStamp
    | .TIME_HWREL_LO => loWord s.hwRel
    | .TRIG_STAT => setBit (setBit (s.reg .TRIG_STAT i) 31 (s.trig i).rearm) 0 (s.trigLevel i)
    | .ANC_STATUS => s.reg .ANC_STATUS 0 ||| packed [(s.transfer.isSome.toNat, 2)]
    | .ANC_XFER_LO => loWord s.xferStamp
    | .REF_STAT => s.refStat i
    | .ANC_STAT => s.ancStat i
    | .CORE_CMD => s.coreCmdRead i
    | .CORE_STAT => s.coreStatRead i
    | .CORE_PERR => s.viewed i (s.core i).lastView.perr (s.corePerr i)
    | .CORE_LOCKTIME => s.viewed i (s.core i).lastView.lockTime (s.reg .CORE_LOCKTIME i)
    | .CORE_MARGIN => s.viewed i (s.core i).lastView.margin (s.reg .CORE_MARGIN i)
    | .CORE_LOLCNT => s.viewed i (BitVec.ofNat 32 (s.core i).lastView.lolCnt) (s.reg .CORE_LOLCNT i)
    | .CORE_LOCKSUM => s.lockSum
    | .STN_STAT => s.stnStat i
    | .STN_LASTHOP_LO => loWord (s.stn i).lastHop
    | .PROF_STAT => s.profStat
    | .SEQ_STAT => s.seqStat i
    | .PGM_DATA => s.readPgmData.1
    | .PGM_CMD => s.pgmCmdRead
    | .PGM_STAT => s.pgmStat
    | .PGM_BLOCKS => s.pgmBlocks
    | .PGM_MISPRED => BitVec.ofNat 32 (s.stn s.pgmStation).mispred
    | .PGM_SQUASH => BitVec.ofNat 32 (s.stn s.pgmStation).squashed
    | .OUT_SYSREF => s.sysrefRead i
    | .OUT_STAT => s.outStat i
    | .RAS_CTL => s.rasCtl i
    | .LN_STAT => s.laneStat i
    | .LN_MARGIN => if (s.lane i).state == .off then s.reg .LN_MARGIN i &&& 0xFF000000#32 else s.reg .LN_MARGIN i
    | .LNG_CMD => s.lngCmdRead
    | .LNG_TTSTAT => s.ttStat
    | .LNG_SPARE => s.laneSpare
    | .LNG_C1STAT => s.reg .LNG_C1STAT 0 ||| packed [(s.lng.words.length % 512, 0)]
    | .LNG_C1WORD => s.readC1.1
    | .FLOW_DATA => s.readFlowData.1
    | .FLT_DIGEST => s.fleet.digest.extractLsb' (224 - 32 * i) 32
    | .FLT_DGSTAT => s.dgStat
    | .FLT_ASOF_LO => loWord s.asOf
    | .FLT_EPTICK_LO => loWord s.fleet.epTick
    | .FLT_RQ_CTL => (s.reg .FLT_RQ_CTL 0 &&& 0x3FFFFFFF#32)
        ||| packed [(s.fleet.request.isSome.toNat, 31), (s.fleet.request.isSome.toNat, 30)]
    | .FLT_ARMSTAT => s.armStat
    | .FLT_ARMNEXT_LO => loWord s.armNext
    | .FLT_LOGCTL => s.logCtl
    | .FLT_LOG_ID | .FLT_LOG_EPOCH | .FLT_LOG_DG_LO | .FLT_LOG_DG_HI | .FLT_LOG_TICK => s.logWord r
    | .CAL_CMD => s.calCmdRead
    | .CAL_STAT => s.calStat
    | .CAL_DUE_LO => s.calDueWord 0 32
    | .CAL_DUE_HI => s.calDueWord 32 28
    | .CAL_GSTAT => s.calGStat
    | .CAL_GCOUNT => BitVec.ofNat 32 (s.grp s.gsel).count
    | .CAL_GSTAMP_LO => loWord (s.grp s.gsel).stamp
    | .CAL_GTEMP => s.calGTemp
    | .CAL_GSNAP0 => (s.grp s.gsel).snap0
    | .CAL_GSNAP1 => (s.grp s.gsel).snap1
    | .CAL_GSNAP2 => (s.grp s.gsel).snap2
    | .CAL_TDATA => s.readTData
    | .CAL_IMGDATA => s.readImage
    | .CAL_IMGSTAT => setBit (s.reg .CAL_IMGSTAT 0) 31 s.calCommitting
    | .MON_INJCMD => s.injCmdRead
    | .PWR_DOMON => s.domonWord i
    | .BAR_IN_STAT => s.barInStat i
    | .STORE_STAT => s.storeStat
    | .STORE_POOL => packed [(s.flash.countRole .spare % 65536, 16), (s.flash.countRole .retired % 65536, 0)]
    | .STORE_RING => packed [(s.flash.ringFree % 256, 16), (s.flash.ringUsed % 256, 0)]
    | .STORE_WEAR => BitVec.ofNat 32 s.flash.wear
    | .STORE_LASTC_LO => loWord s.store.lastCommit
    | .UPD_STAT => s.updStat
    | .UPD_FLOOR01 => s.floorWord 0
    | .UPD_FLOOR23 => s.floorWord 2
    | .HSPI_STAT => s.hspiStat
    | _ => s.reg r i

/-- What a read of a register changes: partners latched under RL (R18), words removed from queues, and indices that step. -/
def State.readEffect (s : State) (r : RegName) (i : Nat) : State :=
  match r with
  | .TIME_NOW_LO => s.setReg .TIME_NOW_HI 0 (hiWord s.now)
  | .TIME_SYNCSTAMP_LO => s.setReg .TIME_SYNCSTAMP_HI 0 (hiWord s.syncStamp)
  | .TIME_HWREL_LO => s.setReg .TIME_HWREL_HI 0 (hiWord s.hwRel)
  | .ANC_XFER_LO => s.setReg .ANC_XFER_HI 0 (hiWord s.xferStamp)
  | .STN_LASTHOP_LO => s.setReg .STN_LASTHOP_HI i (hiWord (s.stn i).lastHop)
  | .PGM_DATA => s.readPgmData.2
  | .LNG_C1WORD => s.readC1.2
  | .FLOW_DATA => s.readFlowData.2
  | .FLT_ASOF_LO => s.setReg .FLT_ASOF_HI 0 (hiWord s.asOf)
  | .FLT_EPTICK_LO => s.setReg .FLT_EPTICK_HI 0 (hiWord s.fleet.epTick)
  | .FLT_ARMNEXT_LO => s.setReg .FLT_ARMNEXT_HI 0 (hiWord s.armNext)
  | .CAL_GSTAMP_LO => s.setReg .CAL_GSTAMP_HI 0 (hiWord (s.grp s.gsel).stamp)
  | .CAL_TDATA => s.stepItem
  | .CAL_IMGDATA => s.stepImage
  | .MON_RES_A => s.readResult i
  | .MON_INJ_A => s.readInjection
  | .STORE_LASTC_LO => s.setReg .STORE_LASTC_HI 0 (hiWord s.store.lastCommit)
  | _ => s

/-! ## Reads by address (R499, R599, R613) -/

/-- A read of a byte address by the host port or a remote READ: its status, its word and what the read leaves. A hole in a
block reads 0; an address outside the blocks or not on a word is RANGE; RECOVERY serves the store block alone. -/
def State.readAddr (s : State) (addr : Nat) : WStatus × Word × State :=
  if s.power = 4 ∧ ¬(0x2400 ≤ addr ∧ addr < 0x2600) then (.state, 0, s)
  else if addr % 4 ≠ 0 ∨ inBlock addr = false then (.range, 0, s)
  else
    match faultAt addr with
    | some (w, k) =>
      let (c, i) := windowOf w
      let x := s.readFlt c i (4 * k)
      (.ok, x.1, x.2)
    | none =>
      match regAt addr with
      | some (r, i) => (.ok, s.readWord r i, s.readEffect r i)
      | none => (.ok, 0, s)

end Sys2Proof.Machine
end

