-- ==== Sys2Proof/Machine/Access.lean ====
section
/-! DEFINITION. What a write does at its release: by access code (Table 0.3), by register, and by address with every refusal
(R22, R58, R489, R524, R540, R613, R614). Host, mailbox, scheduled and remote writes and armed changes all go through here. -/

namespace Sys2Proof.Machine

/-! ## Access codes -/

/-- What a register holds after a write by its access codes (R16, R18): RW and WK fields take the value, a W1C bit written one
clears unless `fresh` has it, a W1C counter clears on all ones. -/
def RegSpec.merge (sp : RegSpec) (fresh old w : Word) : Word :=
  let v := (old &&& ~~~sp.rw) ||| (w &&& sp.rw)
  let v := v &&& ~~~(w &&& sp.sticky &&& ~~~fresh)
  sp.counts.foldl (fun v (lo, width) => if getBits w lo width = 2 ^ width - 1 then putBits v lo width 0 else v) v

/-- A write whose only effect is on the register itself. -/
def State.plainWrite (s : State) (r : RegName) (i : Nat) (w : Word) : State :=
  s.setReg r i ((regSpec r).merge (s.stuckNow r i) (s.reg r i) w)

/-- An accepted plain write. -/
def State.plain (s : State) (r : RegName) (i : Nat) (w : Word) : WRes := (.ok, s.plainWrite r i w)

/-- A write that a check refuses with a status, and otherwise performs. -/
def State.unless (s : State) (bad : Bool) (st : WStatus) (go : WRes) : WRes := if bad then (st, s) else go

/-! ## Anchors and references -/

/-- An anchor is in a state in which R100 protects its reference. -/
def AncState.fixed : AncState → Bool
  | .outerAcq | .steered | .following => true
  | _ => false

/-- A reference is selected by an anchor in such a state (R68, R100). -/
def State.refFixed (s : State) (r : Nat) : Bool :=
  [0, 1].any fun a => (s.anc a).state.fixed && s.selRef a == some r

/-- A reference whose ratio no longer meets R62 stops being qualified. -/
def State.refCheck (s : State) (r : Nat) : State :=
  if s.refCfgErr r && (s.ref r).qualified then s.refDisqualify r false else s

/-- A write of REF_CFG (R62, R100). -/
def State.writeRefCfg (s : State) (r : Nat) (w : Word) : WRes :=
  let was := s.flag Fields.REF_CFG_EN r
  s.unless (getBits w 4 6 != s.fld Fields.REF_CFG_PREDIV r && s.refFixed r) .busy
    (let s := s.plainWrite .REF_CFG r w
     let s := if bitOf w 0 != was then s.refEnable r (bitOf w 0) else s
     (.ok, s.refCheck r))

/-- A write of REF_RATIO_NUM or REF_RATIO_DEN (R100). -/
def State.writeRefRatio (s : State) (rn : RegName) (r : Nat) (w : Word) : WRes :=
  s.unless (s.refFixed r) .busy (.ok, (s.plainWrite rn r w).refCheck r)

/-- NUM is below DEN, a DEN of 0 being taken as 1 (R69). -/
def State.innerOk (s : State) (a : Nat) : Bool := decide (s.fld Fields.ANC_INNER_NUM_NUM a < s.fld1 Fields.ANC_INNER_DEN_DEN a)

/-- A write of ANC_CFG (R69, R93, R100, R101). -/
def State.writeAncCfg (s : State) (a : Nat) (w : Word) : WRes :=
  let was := s.flag Fields.ANC_CFG_EN a
  let st := (s.anc a).state
  if s.transfer.isSome then (.busy, s)
  else if getBits w 1 3 ≠ s.fld Fields.ANC_CFG_REFSEL a ∧ st.fixed then (.busy, s)
  else if bitOf w 0 && st == .off && !s.innerOk a then (.range, s)
  else
    let s := s.plainWrite .ANC_CFG a w
    (.ok, if bitOf w 0 && !was then s.ancPowerUp a else if !bitOf w 0 && was then s.ancPowerDown a else s)

/-- A write of ANC_INNER_N, ANC_INNER_NUM or ANC_INNER_DEN (R69, R93, R100). -/
def State.writeInner (s : State) (r : RegName) (a : Nat) (w : Word) : WRes :=
  let s' := s.plainWrite r a w
  if s.transfer.isSome || (s.anc a).state.fixed then (.busy, s)
  else if r = .ANC_INNER_N ∧ ¬(50 ≤ getBits w 0 7 ∧ getBits w 0 7 ≤ 100) then (.range, s)
  else if r ≠ .ANC_INNER_N ∧ (s.anc a).state ≠ .off ∧ s'.innerOk a = false then (.range, s)
  else (.ok, s')

/-! ## Cores -/

/-- A running station in guaranteed mode has the core in its map (R296). -/
def State.mapGuaranteed (s : State) (c : Nat) : Bool :=
  match s.mapOwner c with
  | some n => s.guaranteedRun n
  | none => false

/-- A running station owns the core (Table 3.9). -/
def State.ownerRuns (s : State) (c : Nat) : Bool :=
  match s.coreOwner c with
  | some n => (s.stn n).running
  | none => false

/-- A write of CORE_CFG (R108, R296, Table 3.9). -/
def State.writeCoreCfg (s : State) (c : Nat) (w : Word) : WRes :=
  let was := s.flag Fields.CORE_CFG_EN c
  if s.mapGuaranteed c || s.coreOwned c then (.owned, s)
  else if was && !bitOf w 0 && s.ownerRuns c then (.owned, s)
  else if !bitOf w 0 && bitOf (s.reg .CORE_SPAREMAP 0) c then (.busy, s)
  else
    let s := s.plainWrite .CORE_CFG c w
    (.ok, if bitOf w 0 != was then s.coreEnable c (bitOf w 0) else s)

/-- The staged setting and the commands of a core belong to a running station in guaranteed mode (R58, R145) or to a raster
channel (R352). -/
def State.settingOwned (s : State) (c : Nat) : Bool := s.coreOwned c || (s.rasOfCore c).isSome

/-- A write of CORE_CMD (R145, R489). DESIGN CHOICE (log entry 91): the spec does not say what a command on a core of CORE_SPAREMAP does;
it is accepted and takes the spare out of IDLE. -/
def State.writeCoreCmd (s : State) (c : Nat) (w : Word) : WRes :=
  if s.settingOwned c then (.owned, s)
  else if !s.active && w &&& 7#32 != 0 then (.state, s)
  else s.coreCmd c w

/-- A write of CORE_WEARCFG: with MARGIN_MIN = 0 no margin is below it, so MARGIN_LOW is no longer live. -/
def State.writeWear (s : State) (w : Word) : State :=
  let s := s.plainWrite .CORE_WEARCFG 0 w
  if s.fld Fields.CORE_WEARCFG_MARGIN_MIN 0 = 0 then s.each (List.range 26) fun s c => s.endLevel (Src.core_MARGIN_LOW c) else s

/-! ## Outputs -/

/-- An output is owned by a running station in guaranteed mode or bound to an enabled raster channel (R327, R352). -/
def State.outTaken (s : State) (o : Nat) : Bool := s.outOwned o || (s.rasOfOut o).isSome

/-- A write of OUT_SYSPULSE (R58, R342): a burst that runs continues on the new grid (R187). -/
def State.writeSyspulse (s : State) (o : Nat) (w : Word) : WRes :=
  s.unless (s.outOwned o) .owned (.ok, s.plainWrite .OUT_SYSPULSE o w)

/-- A write of OUT_STAT: CLRSHORT (R58, R347, R489). -/
def State.writeOutStat (s : State) (o : Nat) (w : Word) : WRes :=
  if !bitOf w 31 then (.ok, s)
  else if s.outOwned o then (.owned, s)
  else s.unless (s.outDomainOff o) .state (.ok, s.clrShort o)

/-! ## Other blocks -/

/-- A write of TIME_STATE: BROKEN clears (R34). -/
def State.writeTimeState (s : State) (w : Word) : State :=
  let s := s.plainWrite .TIME_STATE 0 w
  if s.flag Fields.TIME_STATE_BROKEN 0 then s else s.endLevel Src.time_BROKEN

/-- A write of TRIG_CFG: an input that it enables yields events of edges from now on (R306, R310). -/
def State.writeTrigCfg (s : State) (n : Nat) (w : Word) : State :=
  let was := s.flag Fields.TRIG_CFG_EN n
  let s := s.plainWrite .TRIG_CFG n w
  if bitOf w 31 && !was then s.modTrig n fun t => { t with since := s.elapsed } else s

/-- A write of TRIG_STAT: sticky bits, and REARM of a fenced input (R309). -/
def State.writeTrigStat (s : State) (n : Nat) (w : Word) : State :=
  let s := s.plainWrite .TRIG_STAT n w
  if bitOf w 31 && s.flag Fields.TRIG_STAT_FENCED n then s.modTrig n fun t => { t with rearm := true } else s

/-- A write of FLT_CFG: while CMPEN turns on, each lane is watched from now (R422). -/
def State.writeFltCfg (s : State) (w : Word) : State :=
  let was := s.flag Fields.FLT_CFG_CMPEN 0
  let s := s.plainWrite .FLT_CFG 0 w
  if s.flag Fields.FLT_CFG_CMPEN 0 && !was then
    s.each (List.range 16) fun s n => s.modLane n fun l => { l with heardAt := s.elapsed, freshAt := s.elapsed }
  else s

/-- A write of HSPI_STAT: clearing ERR clears FIRSTADDR and FIRSTERR. -/
def State.writeHspiStat (s : State) (w : Word) : State :=
  let s := s.plainWrite .HSPI_STAT 0 w
  if s.flag Fields.HSPI_STAT_ERR 0 then s
  else (s.setFld Fields.HSPI_STAT_FIRSTADDR 0 0).setFld Fields.HSPI_STAT_FIRSTERR 0 0

/-- A write of PWR_CMD (R490): the stored TARGET and its effect. -/
def State.writePwrCmd (s : State) (w : Word) : WRes :=
  match s.pwrTarget (getBits w 0 2) with
  | (.ok, s') => (.ok, if s'.power = 1 then s' else s'.plainWrite .PWR_CMD 0 w)
  | x => x

/-- A write of UPD_CMD: the stored bits and their effect. -/
def State.writeUpd (s : State) (w : Word) : WRes :=
  match s.writeUpdCmd w with
  | (.ok, s') => (.ok, s'.plainWrite .UPD_CMD 0 w)
  | x => x

/-- GO of a mailbox command (R621, R624): refused while one runs; a reserved CMD ends at once with RANGE; any other starts and
its row of the operation table carries it out. -/
def State.writeMbxCtl (s : State) (w : Word) : WRes :=
  if bitOf w 31 && s.mbx.busy then (.busy, s)
  else
    let s := s.plainWrite .MBX_CTL 0 w
    if !bitOf w 31 then (.ok, s)
    else if 1 ≤ getBits w 0 8 ∧ getBits w 0 8 ≤ 15 then
      (.ok, { s with mbx := ⟨true, 0, 0⟩ }.setFld Fields.MBX_STAT_BUSY 0 1)
    else (.ok, s.mbxEnd 3)

/-! ## Registers by name -/

/-- A write to instance `i` of a register, released now. A register without an arm is written by its access codes alone. -/
def State.writeReg (s : State) (r : RegName) (i : Nat) (w : Word) : WRes :=
  match r with
  | .ANC_CMD => s.writeAncCmd w
  | .ANC_COREMAP => s.writeCoreMap w
  | .REF_CFG => s.writeRefCfg i w
  | .REF_RATIO_NUM | .REF_RATIO_DEN => s.writeRefRatio r i w
  | .REF_FWIN => s.unless (decide (getBits w 16 16 ≤ getBits w 0 16)) .range (s.plain r i w)
  | .ANC_CFG => s.writeAncCfg i w
  | .ANC_INNER_N | .ANC_INNER_NUM | .ANC_INNER_DEN => s.writeInner r i w
  | .ANC_LOCKCFG | .ANC_SLEW | .ANC_STEERLIM | .ANC_TDCCFG => s.unless s.transfer.isSome .busy (s.plain r i w)
  | .CORE_CFG => s.writeCoreCfg i w
  | .CORE_LOCKCFG => s.unless (s.mapGuaranteed i || s.coreOwned i) .owned (s.plain r i w)
  | .CORE_NUM_LO | .CORE_DEN_LO | .CORE_FRAC_HI | .CORE_NBAND => s.unless (s.settingOwned i) .owned (s.plain r i w)
  | .CORE_CMD => s.writeCoreCmd i w
  | .CORE_SPAREMAP => s.writeSpareMap w
  | .CORE_WEARCFG => (.ok, s.writeWear w)
  | .STN_CFG => s.writeStnCfg i w
  | .STN_MAP => s.writeStnMap i w
  | .STN_OUTMASK => s.writeStnOutmask i w
  | .PROF_CMD => s.writeProfCmd w
  | .SEQ_STATMAP => s.writeStatMap w
  | .SEQ_CTL => s.unless (!s.active && bitOf w 0) .state (s.writeSeqCtl i w)
  | .TRIG_CFG => (.ok, s.writeTrigCfg i w)
  | .TRIG_STAT => (.ok, s.writeTrigStat i w)
  | .PGM_DATA => s.writePgmData w
  | .PGM_CMD => s.writePgmCmd w
  | .PGM_MISPRED => (.ok, if w = 0xFFFFFFFF#32 then s.modStn s.pgmStation fun t => { t with mispred := 0 } else s)
  | .PGM_SQUASH => (.ok, if w = 0xFFFFFFFF#32 then s.modStn s.pgmStation fun t => { t with squashed := 0 } else s)
  | .OUT_CFG => s.unless (s.outTaken i) .owned (s.writeOutCfg i w)
  | .OUT_DSET01 | .OUT_DSET23 => s.unless (s.outTaken i) .owned (s.writeDset i r w)
  | .OUT_DELAY => s.unless (s.outOwned i) .owned (s.plain r i w)
  | .OUT_DRV => s.unless (s.outOwned i) .owned (s.writeDrv i w)
  | .OUT_SYSREF =>
    if s.outOwned i then (.owned, s) else s.unless (w &&& 0xE0000000#32 != 0 && s.outDomainOff i) .state (s.writeSysref i w)
  | .OUT_SYSPULSE => s.writeSyspulse i w
  | .OUT_STAT => s.writeOutStat i w
  | .RAS_CFG => s.writeRasCfg i w
  | .RAS_OUTMASK => s.unless (s.rasCh i).bound .busy (s.plain r i w)
  | .RAS_EXPECT => s.unless (s.rasCh i).pending.isSome .busy (s.plain r i w)
  | .RAS_CTL => s.writeRasCtl i w
  | .LN_CFG => s.writeLaneCfg i w
  | .LNG_DEVID => s.writeDevId w
  | .LNG_RCLK => s.writeRclk w
  | .LNG_CMD => s.unless (!s.active && w &&& 0xF0000000#32 != 0) .state (s.writeLngCmd w)
  | .FLOW_ADDR => s.writeFlowAddr w
  | .FLOW_DATA => s.writeFlowData w
  | .FLT_CFG => (.ok, s.writeFltCfg w)
  | .FLT_RQ_CTL => s.writeRqCtl w
  | .FLT_LOGCTL => s.writeLogCtl w
  | .CAL_CFG => (.ok, (s.plainWrite r i w).calRefresh)
  | .CAL_CMD => (.ok, s.writeCalCmd w)
  | .CAL_GSEL => s.unless (decide (60 ≤ getBits w 0 6)) .range (s.plain r i w)
  | .CAL_TDATA => s.writeTData w
  | .CAL_IMGDATA => (.ok, s.writeImage w)
  | .MON_SCAN_LO => s.writeScan false w
  | .MON_SCAN_HI => s.writeScan true w
  | .MON_INJCMD => s.writeInjCmd w
  | .MON_VTSEL => s.unless (decide (26 ≤ getBits w 0 5)) .range (s.plain r i w)
  | .MON_THR_CFG => (.ok, s.writeThreshold i w)
  | .PWR_CMD => s.writePwrCmd w
  | .STORE_CFG => (.ok, if s.startStage = 6 then (s.plainWrite r i w).fullingDue else s.plainWrite r i w)
  | .STORE_CMD => (.ok, (s.plainWrite r i w).writeStoreCmd w)
  | .UPD_CMD => s.writeUpd w
  | .MBX_CTL => s.writeMbxCtl w
  | .SCHED_CTL => s.writeSchedCtl w
  | .TIME_STATE => (.ok, s.writeTimeState w)
  | .TIME_SYNCCMD => s.writeSyncCmd w
  | .HSPI_STAT => (.ok, s.writeHspiStat w)
  | _ => s.plain r i w

/-! ## Writes by address -/

/-- Writes to registers are refused as a whole: HALTED but for FLT_SEL and FLT_STAT (R524), a start before DONE (R540), and
RECOVERY (R599). -/
def State.writesRefused (s : State) (addr : Nat) : Bool :=
  if s.halted then (match faultAt addr with | some (_, k) => k != 1 && k != 2 | none => true)
  else s.startStage != 6 || s.power == 4

/-- A write to a byte address, at its release, without the records of R514 and R614. -/
def State.writeAt (s : State) (addr : Nat) (w : Word) : WRes :=
  if s.writesRefused addr then (.state, s)
  else if addr % 4 ≠ 0 ∨ inBlock addr = false then (.range, s)
  else
    match faultAt addr with
    | some (wi, k) =>
      let (c, i) := windowOf wi
      s.writeFlt c i (4 * k) w
    | none =>
      match regAt addr with
      | some (r, i) =>
        if keyMissing addr w then (.keyerr, s)
        else
          match s.writeReg r i w with
          | (.ok, s') => (.ok, s'.enterSaved r i w)
          | x => x
      | none => (.range, s)

/-- A write to a byte address, at its release. A key error raises KEYED_WRITE (R614); a change of the consistency set makes
the digest out of date (R421). -/
def State.writeAddr (s : State) (addr : Nat) (w : Word) : WRes :=
  let r := s.writeAt addr w
  match r.1 with
  | .keyerr => (.keyerr, r.2.raiseEvent Src.glb_KEYED_WRITE 0)
  | .ok => (.ok, r.2.noteSet s)
  | st => (st, r.2)

/-- An unscheduled host, mailbox or remote write (R57, R616): its release tick is recorded in TIME_HWREL. -/
def State.hostWrite (s : State) (addr : Nat) (w : Word) : WRes :=
  match s.writeAddr addr w with
  | (.ok, s') => (.ok, { s' with hwRel := s.now })
  | x => x

end Sys2Proof.Machine
end

