-- ==== Sys2Proof/Machine/Start.lean ====
section
/-! DEFINITION. Starts (spec/14 R536 to R543, R548, R549, R559 to R564): what begins one and what it keeps, its stages, the
copies of the update logic at stage IMAGE (spec/15 R589 to R594, R598 to R600), and the barrow's samples (spec/12). -/

namespace Sys2Proof.Machine

/-! ## What a start keeps (R530, R537) -/

/-- Registers of domain 112 (R489). -/
def barrowRegs : List RegName :=
  [.BAR_CFG, .BAR_WAKEEN, .BAR_INHIB, .BAR_ALERTEN, .BAR_WAKECAUSE, .BAR_TIMER, .BAR_LANEMASK, .BAR_FWVER, .BAR_IN_CFG]

/-- Registers that RESET_N leaves (their Meaning columns, R151). -/
def keptRegs : List RegName :=
  [.ANC_XFERCNT, .REF_DQCNT, .CORE_LOLCNT, .CORE_FENCESUM, .CORE_SPAREMAP, .STORE_COMMITS, .STORE_FULLCNT]

/-- Every instance of a register takes its word in another state. -/
def State.copyReg (s old : State) (r : RegName) : State :=
  s.each (List.range (regSpec r).count) fun s i => s.setReg r i (old.reg r i)

/-- What a fault window keeps over RESET_N (R530), with the level sources that stay live. -/
def FaultWindow.afterReset (w : FaultWindow) (live : Word) : FaultWindow :=
  { w with live := live, sel := 0, force := 0, inj := 0, pend := 0, pendMinor := 0, pendSerious := 0, graceTimers := [] }

/-- A core after RESET_N: fenced as before (R151), or a spare when CORE_SPAREMAP still names it. -/
def State.coreAfterReset (s : State) (c : Nat) : Core :=
  if (s.core c).role == .fenced then { Core.reset c with role := .fenced, state := .fenced }
  else { Core.reset c with role := if bitOf (s.reg .CORE_SPAREMAP 0) c then .spare else .unassigned }

/-- A lane after RESET_N: on the slice of its number, or where a fence has taken it. -/
def State.laneAfterReset (s : State) (n : Nat) : Lane :=
  { Lane.reset n with slice := if s.lng.sliceFenced.getLsbD n then (s.lane n).slice else n }

/-- A raise that awaits its reaction when RESET_N comes gets its entry and its FLT_STAT bit. -/
def State.settleRaise (s : State) (r : Raise) : State :=
  let wi := windowIndex r.fid.code r.fid.inst
  s.modWin wi fun w => (w.addEntry (r.entry (w.effective r) r.noSpare)).takes s.elapsed r.fid.bit (w.effective r)

/-- The state a power-on reset leaves: what the device keeps without power, and its pins. -/
def State.powerOn (s : State) : State :=
  { State.reset with
    pending := s.pending, elapsed := s.elapsed, flash := s.storeCut.flash, otp := s.otp, pins := s.pins
    svc := { Svc.reset with drawn := s.svc.drawn }, bar := { Barrow.reset with periodFrom := s.elapsed } }

/-- Domain 112 keeps its content (R489). -/
def State.keepBarrow (s old : State) : State :=
  let s := barrowRegs.foldl (fun s r => s.copyReg old r) s
  { s with bar := old.bar }

/-- What RESET_N keeps beside domain 112; the barrow's alerts, whose conditions it keeps, stay live. The engine has set CORE_CFG.EN for the cores that CORE_SPAREMAP names (R108). -/
def State.keepReset (s old : State) : State :=
  let s := keptRegs.foldl (fun s r => s.copyReg old r) s
  let s := s.each (List.range 26) fun s c => s.setFld Fields.CORE_CFG_EN c (bitOf (s.reg .CORE_SPAREMAP 0) c).toNat
  let s := s.setFld Fields.SEQ_THREADS_FENCED 0 (old.fld Fields.SEQ_THREADS_FENCED 0)
  let s := s.setFld Fields.MON_STAT_FENCED 0 (old.fld Fields.MON_STAT_FENCED 0)
  { s with
    windows := ((sortRaises old.raises).foldl State.settleRaise old).windows.mapIdx fun i w =>
      w.afterReset (if i = windowIndex 11 0 then w.live else 0)
    cores := Vector.ofFn fun c => old.coreAfterReset c.val
    outs := Vector.ofFn fun o => { Output.reset with fenced := (old.out o.val).fenced }
    anchors := Vector.ofFn fun a =>
      { Anchor.reset with
        tdcActive := (old.anc a.val).tdcActive, tdcSpare := (old.anc a.val).tdcSpare, spareIn := (old.anc a.val).spareIn }
    lanes := Vector.ofFn fun n => old.laneAfterReset n.val
    lng := { LaneGroup.reset with sliceFenced := old.lng.sliceFenced }
    cal := { Cal.reset with groups := Cal.reset.groups.zipWith (fun x g => { x with count := g.count }) old.cal.groups }
    spareRows := old.spareRows, fencedEntries := old.fencedEntries }

/-- A start of a kind begins (R536, R537): 0 power-on reset, 1 barrow wake, 2 RESET_N. -/
def State.restart (s : State) (kind : Nat) : State :=
  let p := s.powerOn
  let p := if kind = 1 then p.keepBarrow s else if kind = 2 then (p.keepBarrow s).keepReset s else p
  let p := { p with boot := Boot.reset kind }
  (p.setFld Fields.STORE_START_KIND 0 kind).setFld Fields.BAR_WAKECAUSE_KIND 0 kind

/-! ## Pins and supplies (R536, R539, R639, R641) -/

/-- VDD_AON falls below 0.6 V: every domain switches off and the device is inert. -/
def State.aonFall (s : State) : State :=
  let p := { s.powerOn with pins := { s.pins with aon := false } }
  p.setFld Fields.PWR_STATE_STATE 0 0

/-- VDD_AON rises through 0.6 V, with POR_N and TESTMODE as given. -/
def State.aonRise (s : State) (porLow testMode : Bool) : State :=
  if s.pins.aon then s
  else { s with pins := { s.pins with aon := true, porLow := porLow, testMode := testMode } }.restart 0

/-- POR_N is asserted; ignored in HALTED (R524). -/
def State.porAssert (s : State) : State :=
  let s := { s with pins := { s.pins with porLow := true } }
  if s.halted || !s.pins.aon then s else s.restart 0

/-- The engine drives RESET_N low, until stage FLASH of a power-on start begins (R637). -/
def State.drivesReset (s : State) : Bool := s.startStage == 0 && s.boot.kind == 0 && s.power == 2

/-- RESET_N is asserted; ignored in HALTED, and while the engine drives it. -/
def State.resetAssert (s : State) : State :=
  let s := { s with pins := { s.pins with resetLow := true } }
  if s.halted || !s.pins.aon || s.drivesReset then s else s.restart 2

/-! ## Recovery and copies (R589 to R593, R599) -/

def State.toStage (s : State) (n : Nat) : State := s.setFld Fields.STORE_START_STAGE 0 n

def State.modBoot (s : State) (f : Boot → Boot) : State := { s with boot := f s.boot }

/-- The device enters RECOVERY for a purpose of Table 15.13: 1 the flash, 2 no image, 3 a copy. -/
def State.enterRecovery (s : State) (purpose : Nat) : State :=
  (s.modBoot fun b => { b with recovery := purpose }).setFld Fields.PWR_STATE_STATE 0 4

/-- Blocks of a slot that an image of a length takes. -/
def slotBlocks (n : Nat) : Nat := min 256 (blocksOf n)

/-- Whether the journal holds a DONE entry of an operation and block for the present SEQ. -/
def State.journalled (s : State) (op i : Nat) : Bool :=
  s.flash.journal.any fun e => e.op == op && e.block == i && e.seq == s.entry.seq

/-- The operation of a copy's phase (Table 15.12). -/
def Copy.op (c : Copy) : Nat := if c.revert then 3 else c.phase

/-- Blocks of the copy's present phase. -/
def Copy.blocks (c : Copy) : Nat := if c.phase = 1 then c.blocks1 else c.blocks2

/-- The first block of an operation from `i` on, below `n`, without its DONE entry. -/
def State.firstOpen (s : State) (op n : Nat) : Option Nat := (List.range n).find? fun i => !s.journalled op i

/-- The copy that the slot table and the journal call for (R590): the first block of the first phase that is not done. Once the active
slot has taken a block, the length of what it held is read from its copy in the fallback slot. -/
def State.plannedCopy (s : State) : Copy :=
  let e := s.entry
  if e.state == .reverting then
    let n := slotBlocks (imgLength s.flash.fallback)
    ⟨true, false, 2, (s.firstOpen 3 n).getD n, 0, n⟩
  else
    let second := s.flash.journal.any fun j => j.op == 2 && j.seq == e.seq
    let n1 := if e.nofb then 0 else slotBlocks (imgLength (if second then s.flash.fallback else s.flash.active))
    let n2 := slotBlocks (targetLength s.flash.staging)
    match s.firstOpen 1 n1 with
    | some i => ⟨false, e.nofb, 1, i, n1, n2⟩
    | none => ⟨false, e.nofb, 2, (s.firstOpen 2 n2).getD n2, n1, n2⟩

/-- UPD_PROGRESS: the blocks done and the blocks of the copy (R591). -/
def State.noteProgress (s : State) (c : Copy) : State :=
  let done := if c.phase = 1 then c.block else c.blocks1 + c.block
  (s.setFld Fields.UPD_PROGRESS_DONE 0 done).setFld Fields.UPD_PROGRESS_TOTAL 0 (c.blocks1 + c.blocks2)

/-- The copy is complete (R592): the active slot is checked after an activation, and the slot table says what follows. DEDUCED (log
entry 118): an activation that fails its check has filled the fallback slot, so the entry says that it holds an image. A new start
begins, of the kind of the one that was ended (R589). -/
def State.finishCopy (s : State) (c : Copy) : State :=
  let kind := s.boot.kind
  let again (s : State) (events : List Nat) : State :=
    (s.restart kind).modStore fun x => { x with updEvents := events }
  if c.revert then
    again (s.commitSlot fun e => { e with state := .idle, trials := 0, actHash := e.fbHash, stValid := false }) [3]
  else if imageStarts s.otp s.flash.active = .ok then
    again (s.commitSlot fun e =>
      { e with state := .trial, trials := 0, stValid := false, actHash := headerHash s.flash.active
               fbValid := e.fbValid || !c.noFb, fbHash := if c.noFb then e.fbHash else headerHash s.flash.fallback }) []
  else again ((s.commitSlot fun e =>
      { e with state := .reverting, fbValid := e.fbValid || !c.noFb
               fbHash := if c.noFb then e.fbHash else headerHash s.flash.fallback }).raiseEvent Src.store_IMAGE_REJECT 0) []

/-- A copy begins or resumes (R590): the device is in RECOVERY, and the journal block is erased unless it holds an entry of the
present SEQ. -/
def State.runCopy (s : State) : State :=
  let seq := s.entry.seq
  let s := if s.flash.journal.any fun e => e.seq == seq then s else s.modFlash fun f => { f with journal := [] }
  let c := s.plannedCopy
  let s := ((s.enterRecovery 3).modBoot fun b => { b with copy := some c }).noteProgress c
  if c.blocks ≤ c.block then s.finishCopy c else s

/-- Block `i` of a slot is erased and takes 64 KiB, the rest of it reading erased. -/
def putBlock (slot : List Byte) (i : Nat) (data : List Byte) : List Byte :=
  let pad (n : Nat) (l : List Byte) : List Byte := l ++ List.replicate (n - l.length) 0xFF#8
  pad (65536 * i) (slot.take (65536 * i)) ++ pad 65536 (data.take 65536) ++ slot.drop (65536 * (i + 1))

/-- The bytes that a block of the copy takes (Table 15.11). -/
def State.copySource (s : State) (c : Copy) : List Byte :=
  let of (l : List Byte) : List Byte := (l.drop (65536 * c.block)).take 65536
  if c.revert then of s.flash.fallback
  else if c.phase = 1 then of s.flash.active
  else if imgKind s.flash.staging = 2 then deltaBlock s.flash.staging s.flash.fallback c.block
  else of s.flash.staging

/-- A block of the copy is written, checked and journalled (R590), and the next begins. -/
def State.copyBlockDone (s : State) : State :=
  match s.boot.copy with
  | none => s
  | some c =>
    let data := s.copySource c
    let s := s.modFlash fun f =>
      { f with journal := f.journal ++ [⟨c.op, c.block, s.entry.seq⟩]
               fallback := if c.phase = 1 then putBlock f.fallback c.block data else f.fallback
               active := if c.phase = 1 then f.active else putBlock f.active c.block data }
    let c := { c with block := c.block + 1 }
    let s := s.noteProgress c
    if c.block < c.blocks then s.modBoot fun b => { b with copy := some c }
    else if c.phase = 1 ∧ 0 < c.blocks2 then s.modBoot fun b => { b with copy := some { c with phase := 2, block := 0 } }
    else s.finishCopy c

/-- An erase or a program of a block fails: in a copy the device stays in RECOVERY (R593), in the pool the block is retired
(R550). -/
def State.eraseFail (s : State) (block : Nat) : State :=
  if s.boot.copy.isSome then
    ((s.raiseEvent Src.store_ERASE_FAIL 0).modBoot fun b => { b with copy := none }).setFld Fields.UPD_STAT_RESULT 0
      UStatus.flash.code
  else s.poolFails block

/-! ## Stages FLASH, IMAGE and LOAD (R541, R543, R545, R589, R594, R598) -/

/-- Stage FLASH ends: the mode and the capacity in use, or RECOVERY. -/
def State.stageFlash (s : State) (ok : Bool) : State :=
  if ok && s.flash.answers && decide (64 ≤ s.flash.mib) then
    ((s.setFld Fields.STORE_FLASH_MODE 0 (if s.flash.octal then 2 else 1)).setFld Fields.STORE_FLASH_SIZE 0
      (min 512 s.flash.mib)).toStage 2
  else s.enterRecovery 1

/-- The image that runs is chosen. -/
def State.chooseImage (s : State) (img : List Byte) (fallback : Bool) : State :=
  let s := s.modBoot fun b => { b with image := img, fallbackRuns := fallback }
  (s.setFld Fields.STORE_START_SLOT 0 fallback.toNat).toStage 3

/-- The active slot failed, or no image is there: the fallback image runs, or the device enters RECOVERY (R598, R543). -/
def State.chooseFallback (s : State) : State :=
  let s := s.raiseEvent Src.store_IMAGE_REJECT 0
  if s.entry.fbValid && imageStarts s.otp s.flash.fallback = .ok then
    (s.chooseImage s.flash.fallback true).modStore fun x => { x with updEvents := x.updEvents ++ [6] }
  else (s.setFld Fields.STORE_START_SLOT 0 2).enterRecovery 2

/-- The active image failed at stage IMAGE or LOAD: a trial reverts (R594), otherwise the fallback runs. -/
def State.activeFails (s : State) : State :=
  if s.entry.state = .trial then
    let s := s.commitSlot fun e => { e with state := .reverting, jblock := (e.jblock + 1) % 4 }
    if s.entry.fbValid then s.runCopy
    else ((s.commitSlot fun e => { e with state := .idle }).setFld Fields.STORE_START_SLOT 0 2).enterRecovery 2
  else s.chooseFallback

/-- Stage IMAGE ends (R572, R589, R594, R598). `ok` says that the active slot could be read. -/
def State.stageImage (s : State) (ok : Bool) : State :=
  let s := s.dropReceiving
  let e := s.entry
  match e.state with
  | .armed =>
    (s.commitSlot fun e => { e with state := .activating, nofb := false, jblock := (e.jblock + 1) % 4 }).runCopy
  | .activating => s.runCopy
  | .reverting =>
    if e.fbValid then s.runCopy
    else ((s.commitSlot fun e => { e with state := .idle }).setFld Fields.STORE_START_SLOT 0 2).enterRecovery 2
  | .trial =>
    if 3 ≤ e.trials then (s.raiseEvent Src.store_TRIAL_REVERT 0).activeFails
    else
      let s := s.commitSlot fun e => { e with trials := e.trials + 1 }
      if ok && imageStarts s.otp s.flash.active = .ok then (s.chooseImage s.flash.active false).noteActive
      else s.activeFails
  | _ =>
    if ok && imageStarts s.otp s.flash.active = .ok then (s.chooseImage s.flash.active false).noteActive else s.activeFails

/-- Stage LOAD ends (R541): every processor runs the firmware of the bundle; the barrow's next sample follows one PERIOD later
(R487). -/
def State.stageLoad (s : State) (ok : Bool) : State :=
  if !ok then
    if s.boot.fallbackRuns then
      ((s.raiseEvent Src.store_IMAGE_REJECT 0).setFld Fields.STORE_START_SLOT 0 2).enterRecovery 2
    else s.activeFails
  else
    let s := s.setFld Fields.UPD_FW_SETFMT 0 (imgSetfmt s.boot.image)
    let s := s.setFld Fields.UPD_FW_FBSETFMT 0 (if s.entry.fbValid then imgSetfmt s.flash.fallback else 0)
    let s := s.setReg .BAR_FWVER 0 (BitVec.ofNat 32 (component s.boot.image 3).version)
    { s with bar := { s.bar with periodFrom := s.elapsed } }.toStage 4

/-! ## Stage STORE (R548, R549, R559, R561) -/

/-- A role of the store. -/
def PoolRole.serves : PoolRole → Bool
  | .baseA _ | .baseB _ | .ring _ => true
  | _ => false

/-- The first block that claims a role and index keeps it; the others are erased as spares. -/
def dropDuplicates : List PoolRole → List PoolBlock → List PoolBlock
  | _, [] => []
  | seen, b :: l =>
    if b.role.serves && seen.contains b.role then ⟨.spare, b.erases + 1⟩ :: dropDuplicates seen l
    else b :: dropDuplicates (b.role :: seen) l

/-- Each pool block is classified (R548). -/
def Flash.classify (f : Flash) : Flash :=
  { f with pool := dropDuplicates [] (f.pool.map fun b =>
      match b.role with
      | .blank => ⟨.spare, b.erases⟩
      | .other => ⟨.spare, b.erases + 1⟩
      | _ => b) }

/-- Every role index that no block holds is filled from the spares; with none left the ledger turns read-only (R548, R566). -/
def State.fillPool (s : State) : State :=
  (poolRoles.filter fun r => s.flash.countRole r == 0).foldl
    (fun (s : State) r => match s.flash.fillRole r with
      | some f => { s with flash := f }
      | none => if s.store.readOnly then s else s.turnReadOnly) s

/-- Roles in block order after an initialisation; a retired block stays retired. -/
def poolInit : List PoolRole → List PoolBlock → List PoolBlock
  | _, [] => []
  | rs, b :: l =>
    let e := if b.role == .blank then b.erases else b.erases + 1
    if b.role == .retired then b :: poolInit rs l
    else
      match rs with
      | r :: rs => ⟨r, e⟩ :: poolInit rs l
      | [] => ⟨.spare, e⟩ :: poolInit [] l

/-- The store is initialised (R549). -/
def State.initStore (s : State) : State :=
  let s := s.modFlash fun f =>
    { f with pool := poolInit poolRoles f.pool, baseA := ⟨true, 0, []⟩, baseB := BaseCopy.none, ring := [], ringHead := 0
             ringBlock := 0, ringWord := 0 }
  let s := (s.modStore fun x => { x with useB := false }).fillPool
  ((s.setReg .STORE_NEXTSEQ 0 1#32).setReg .STORE_BASE 0 0).setFld Fields.STORE_START_SETSRC 0 3

/-- Torn records are voided and counted (R559). -/
def State.voidTorn (s : State) : State :=
  let n := (s.flash.ring.filter fun r => r.commit == .torn).length
  (s.modFlash fun f => { f with ring := f.ring.map fun r => if r.commit == .torn then { r with commit := .void } else r }).setFld
    Fields.STORE_START_TORN 0 (min 255 n)

/-- A base copy is in use, and NEXTSEQ follows the newest record (R559, R561). -/
def State.useBase (s : State) (b : Bool) : State :=
  let s := s.modStore fun x => { x with useB := b }
  let s := s.setReg .STORE_NEXTSEQ 0 (BitVec.ofNat 32 (s.newestSeq + 1))
  (s.setReg .STORE_BASE 0 (BitVec.ofNat 32 s.base.lastSeq)).setFld Fields.STORE_START_SETSRC 0 b.toNat

/-- The store is lost: defaults hold and no record is applied (R561). -/
def State.storeLost (s : State) : State :=
  let n := (s.flash.wholeRecords.foldl (fun m r => match m with
    | some m => some (if newer r.seq m then r.seq else m)
    | none => some r.seq) none).getD 0
  let s := s.modFlash fun f => { f with baseA := ⟨false, n, []⟩, baseB := ⟨false, n, []⟩ }
  let s := (s.modStore fun x => { x with useB := false }).setReg .STORE_NEXTSEQ 0 (BitVec.ofNat 32 (n + 1))
  (s.setReg .STORE_BASE 0 0).setFld Fields.STORE_START_SETSRC 0 2

/-- Stage STORE ends. -/
def State.stageStore (s : State) (ok : Bool) : State :=
  let s :=
    if !(s.flash.pool.any fun b => b.role.serves) then s.initStore
    else
      let s := ({ s with flash := s.flash.classify }.fillPool).voidTorn
      let a := s.flash.baseA
      let b := s.flash.baseB
      if !ok then s.storeLost
      else if a.valid && b.valid then s.useBase (newer b.lastSeq a.lastSeq)
      else if a.valid || b.valid then s.useBase b.valid
      else if s.flash.wholeRecords.isEmpty then s.initStore
      else s.storeLost.raiseEvent Src.store_FLASH_UNCORR 0
  s.toStage 5

/-! ## Stage RESTORE (R563, R564, R600) -/

/-- The format of the newest settings in the store; a tie goes to the running firmware's own (R600). -/
def State.sourceFormat (s : State) : Nat :=
  let own := s.setFmt
  let recs := s.flash.wholeRecords.filter fun r => r.kind == 1 && newer r.seq s.base.lastSeq
  match recs.foldl (fun (m : Option Record) r => match m with
      | some x => some (if newer r.seq x.seq then r else x)
      | none => some r) none with
  | some r => r.format
  | none =>
    let fs := (s.base.sections.filter fun x => x.kind == 1).map (·.format)
    if fs.contains own then own else fs.headD own

/-- Settings items in ascending address. -/
def insertByAddr (x : Nat × RegName × Nat × Word) : List (Nat × RegName × Nat × Word) → List (Nat × RegName × Nat × Word)
  | [] => [x]
  | y :: l => if x.1 ≤ y.1 then x :: y :: l else y :: insertByAddr x l

/-- The committed registers with their addresses, in ascending address. -/
def Store.registers (x : Store) : List (Nat × RegName × Nat × Word) :=
  x.saved.foldl (fun l c => insertByAddr (regAddr c.reg c.inst, c.reg, c.inst, c.val) l) []

/-- The enable field that the first pass holds at 0 (R564). -/
def heldEnable : RegName → Option Field
  | .ANC_CFG => some Fields.ANC_CFG_EN
  | .REF_CFG => some Fields.REF_CFG_EN
  | .OUT_CFG => some Fields.OUT_CFG_EN
  | .RAS_CFG => some Fields.RAS_CFG_EN
  | .LN_CFG => some Fields.LN_CFG_EN
  | _ => none

/-- One value is restored as a host write would write it; a refused one is counted. -/
def State.restoreReg (s : State) (r : RegName) (i : Nat) (w : Word) : State :=
  match s.writeReg r i w with
  | (.ok, s') => s'
  | _ => s.bump Fields.STORE_START_REFUSED 0 1

/-- One profile, as PROF_CMD.WRITE would. -/
def State.restoreProf (s : State) (p : Nat) (ws : List Word) : State :=
  match s.profWrite p ws with
  | ((.ok, s'), _) => s'
  | _ => s.bump Fields.STORE_START_REFUSED 0 1

/-- Saved registers that the start has left away from their Reset values and that have no committed value: those that RESET_N and a barrow
wake leave, which take their defaults as well (R563). -/
def State.keptDefaults (s : State) : List (Nat × RegName × Nat × Word) :=
  (savedInstances.filter fun c => barrowRegs.contains c.1 || keptRegs.contains c.1).filterMap fun (r, i) =>
    if s.reg r i = resetWord r i || s.store.saved.any fun c => c.reg == r && c.inst == i then none
    else some (regAddr r i, r, i, resetWord r i)

/-- The committed settings are restored (R564). -/
def State.applySettings (s : State) : State :=
  let x := s.store
  let regs := s.keptDefaults.foldl (fun l c => insertByAddr c l) x.registers
  let s := regs.foldl (fun (s : State) (_, r, i, w) =>
    s.restoreReg r i (match heldEnable r with | some f => putBits w f.lo 1 0 | none => w)) s
  let s := s.each (groupsOf 8 (x.savedProfs.map (·.1))) fun s p => s.restoreProf p (x.savedProfs.slice (p * 8) 8)
  let s := { s with pgm := x.savedPgm.filter fun c => !s.fencedEntry 16 c.1 }
  let s := s.modLng fun g => { g with flows := x.savedFlows.filter fun c => !s.fencedEntry 17 c.1 }
  let s := s.each (List.range 97) fun s w => s.each savedItems fun s k =>
    let (c, i) := windowOf w
    s.writeItem c i k (s.committedItem w k)
  let s := regs.foldl (fun (s : State) (_, r, i, w) =>
    match heldEnable r with
    | some f => if getBits w f.lo 1 = 1 then s.restoreReg r i w else s
    | none => s) s
  let s := s.modStore fun y => { y with present := x.saved.filter fun c => (setMask c.reg).isNone }
  (s.modFleet fun f => { f with set := x.saved.filter fun c => (setMask c.reg).isSome }).setChanged

/-- The settings of the source format become the committed settings (R600). -/
def State.takeSettings (s : State) : State :=
  let own := s.setFmt
  let src := s.sourceFormat
  let note (s : State) (e : Nat) : State := s.modStore fun x => { x with updEvents := x.updEvents ++ [e] }
  let stored := s.settingsAt src s.newestSeq
  if src = own then { s with store := stored }
  else
    let clean : Store := { s.store with saved := [], savedProfs := [], savedPgm := [], savedFlows := [], savedFaults := [] }
    match Config.convert src own (itemWords stored.items) with
    | some ws =>
      let s := { s with store := clean.commitItems (itemsOf ws.length ws) }.setFld Fields.UPD_SETSTAT_MIGRATED 0 1
      note (if s.store.readOnly then s else s.requestCommit 1 (itemWords s.store.items)) 4
    | none =>
      note (({ s with store := clean }.setFld Fields.UPD_SETSTAT_DEFAULTED 0 1).raiseEvent Src.store_SETTINGS_DEFAULTED 0) 5

/-- Calibration is restored from the newest image found (R464). -/
def State.restoreCal (s : State) : State :=
  match s.newestBody 2 s.newestSeq with
  | some ws => if imageCheck s.otp.serial.toNat ws = 0 then s.takeImage ws else s.raiseEvent Src.cal_IMPORT_REJECT 0
  | none => s

/-- The epoch is restored from the newest one found (R429, R558). -/
def State.restoreEpoch (s : State) : State :=
  match s.newestBody 3 s.newestSeq with
  | some ws =>
    let w (k : Nat) : Word := ws.getD k 0
    let s := (s.setReg .FLT_EPOCH 0 (w 0)).modFleet fun f => { f with epTick := ofWords (w 1) (w 2) }
    ((s.setReg .FLT_EXPECT_LO 0 (w 3)).setReg .FLT_EXPECT_HI 0 (w 4)).setFld Fields.FLT_DGSTAT_EXPECTV 0 (bitOf (w 5) 0).toNat
  | none => s

/-- Records applied at the start (STORE_REPLAY): whole, newer than LASTSEQ, and of the source format when they hold settings. -/
def State.replayed (s : State) : Nat :=
  (s.flash.wholeRecords.filter fun r => newer r.seq s.base.lastSeq && (r.kind != 1 || r.format == s.sourceFormat)).length

/-- Ring blocks whose records are all folded in are erased after DONE (Table 14.9). -/
def State.dropFolded (s : State) : State :=
  let keep := s.flash.ring.dropWhile fun r => !newer r.seq s.base.lastSeq
  let head := match keep.head? with | some r => r.first | none => s.flash.ringBlock
  let freed := head - s.flash.ringHead
  let old := s.flash.ringHead
  s.modFlash fun f =>
    { f.eraseRoles fun r => match r with | .ring i => decide ((i + 96 - old % 96) % 96 < freed) | _ => false with
      ring := keep, ringHead := head }

/-- DONE (R539, R542, R594 to R597, R602, R603). -/
def State.startDone (s : State) : State :=
  let s := (s.toStage 6).modBoot fun b => { b with doneAt := some s.elapsed }
  let trial := decide (s.entry.state = .trial)
  let s := if s.fuseFull then s.raiseEvent Src.store_FUSE_EXHAUSTED 0 else s
  let s := if trial then s else s.raiseFloors
  let events := s.store.updEvents ++ if trial ∧ s.entry.trials = 1 then [1] else []
  let s := events.foldl State.commitUpdate (s.modStore fun x => { x with updEvents := [] })
  let s := if s.entry.state = .verifying then s.verifyStaged.2 else s
  let s := s.dropFolded
  let s := s.fullingDue
  if s.flag Fields.STORE_CFG_AUTOACTIVE 0 then (s.pwrTarget 3).2 else s

/-- Stage RESTORE ends, and the start is DONE. -/
def State.stageRestore (s : State) : State :=
  let s := s.setReg .STORE_REPLAY 0 (BitVec.ofNat 32 s.replayed)
  ((s.takeSettings.applySettings).restoreCal.restoreEpoch).startDone

/-- Stage RESET ends: it holds while POR_N or, but for a power-on start, RESET_N is asserted, or the pins are in test mode. A RESET_N
that is low when stage FLASH of a power-on start would begin begins a start of its own. -/
def State.stageReset (s : State) : State :=
  if s.pins.porLow || s.pins.testMode || (s.pins.resetLow && s.boot.kind != 0) then s
  else if s.pins.resetLow then s.restart 2
  else s.toStage 1

/-- A start stage completes (R539). `ok` says that the work of the stage succeeded where the table gives a failure. -/
def State.stageDone (s : State) (ok : Bool) : State :=
  if s.halted || s.power ≠ 2 || !s.pins.aon then s
  else
    match s.startStage with
    | 0 => s.stageReset
    | 1 => s.stageFlash ok
    | 2 => s.stageImage ok
    | 3 => s.stageLoad ok
    | 4 => s.stageStore ok
    | 5 => s.stageRestore
    | _ => s

/-- The flash does not answer within its timeout (R544): during stage FLASH it fails Table 14.2. -/
def State.flashTimeout (s : State) : State :=
  let s := s.raiseEvent Src.store_FLASH_TIMEOUT 0
  if s.startStage = 1 ∧ s.power = 2 then s.enterRecovery 1 else s

/-- TRIALTO seconds have passed since DONE in TRIAL without a confirmation (R594). A confirmation released at the tick at which they have
passed still stands (Table 15.16), so the start begins at the tick after it. -/
def State.trialTimeout (s : State) : State :=
  match s.boot.doneAt with
  | some t =>
    let n := s.fld Fields.UPD_CFG_TRIALTO 0
    if n ≠ 0 ∧ s.entry.state = .trial ∧ t + 500000000 * n < s.elapsed then s.restart 2 else s
  | none => s

/-! ## The barrow (R483 to R486, R493) -/

def State.barIn (s : State) (i : Nat) : BarIn := (s.bar.ins[i]?).getD default

/-- An analogue input after a sample `x` in its units (R484, R485). -/
def State.barAnalogue (s : State) (i : Nat) (x : Int) : BarIn :=
  let b := s.barIn i
  let cfg := s.reg .BAR_IN_CFG i
  let y := if s.bar.sampled then b.y + (x * 256 - b.y) / 2 ^ getBits cfg 28 3 else x * 256
  let level : Int := (cfg.extractLsb' 0 16).toInt * 256
  let hyst : Int := (getBits cfg 20 8 : Nat) * 256
  let cond :=
    if bitOf cfg 31 then (if y ≤ level then true else if level + hyst < y then false else b.cond)
    else if level ≤ y then true else if y < level - hyst then false else b.cond
  { b with y := y, cond := cond }

/-- A digital input after a sample (R485). -/
def State.barDigital (s : State) (i : Nat) (active : Bool) : BarIn :=
  let b := s.barIn i
  let run := if b.active = active then min 65535 (b.run + 1) else 1
  let n := max 1 (getBits (s.reg .BAR_IN_CFG i) 0 8)
  { b with active := active, run := run, cond := if n ≤ run then active else b.cond }

/-- BAR_TIMER seconds have passed since entry to DORMANT, by an oscillator that holds to ±10 % (R483): the free value lies in that range. -/
def State.barTimer (s : State) : Bool :=
  let n := s.fld Fields.BAR_TIMER_SECONDS 0
  s.power == 1 && n != 0 && decide (s.bar.dormantAt + 450000000 * n + Config.timerSkew s.bar.dormantAt % (100000000 * n + 1) ≤ s.elapsed)

/-- The alert source of an input (Table 12.9). -/
def barAlert (i : Nat) : Fid :=
  if i < 4 then Src.bar_TEMP_ALERT else if i < 11 then Src.bar_SUPPLY_ALERT else Src.bar_ACTIVITY_ALERT

/-- One input raises its alert (R486): TEMP_ALERT and SUPPLY_ALERT are level sources, which are live while an alerted input of their kind
holds its condition (R500, R501). -/
def State.raiseAlert (s : State) (i : Nat) : State :=
  if i < 11 then s.beginLevel (barAlert i) 0 else s.raiseEvent (barAlert i) 0

/-- Alerts of a sample taken outside DORMANT (R486). -/
def State.barAlerts (s : State) : State :=
  let s := s.each (List.range 20) fun s i =>
    let b := s.barIn i
    let put (s : State) (v : Bool) : State :=
      { s with bar := { s.bar with ins := s.bar.ins.setIfInBounds i { b with alerted := v } } }
    if !b.cond then put s false
    else if bitOf (s.reg .BAR_ALERTEN 0) i && !b.alerted then (put s true).raiseAlert i
    else s
  [[0, 1, 2, 3], [4, 5, 6, 7, 8, 9, 10]].foldl (fun (s : State) is =>
    if is.any fun i => (s.barIn i).alerted then s else s.endLevel (barAlert (is.headD 0))) s

/-- The barrow has its firmware and samples: in DORMANT, and outside a start, recovery and HALTED; not while it is reloaded. -/
def State.barSamples (s : State) : Bool :=
  s.pins.aon && !s.halted && !s.reloads.contains 3
    && (s.power == 1 || ((s.power == 2 || s.power == 3) && decide (4 ≤ s.startStage)))

/-- A sample of the barrow (R483 to R486): the analogue readings of inputs 0 to 10, activity on REFA to REFD, XOA and XOB,
signal on the lanes, and whether SVC was selected. -/
def State.barrowSample (s : State) (analogue : List Int) (refs : BitVec 4) (xo : BitVec 2) (lanes : BitVec 16) (svc : Bool) : State :=
  let period := max 1 (s.fld Fields.BAR_CFG_PERIOD 0)
  if !s.barSamples || decide (s.elapsed < s.bar.periodFrom + period * 450000) then s
  else
    let digital (i : Nat) : Bool :=
      if i < 15 then refs.getLsbD (i - 11)
      else if i < 17 then xo.getLsbD (i - 15)
      else if i = 17 then lanes &&& BitVec.ofNat 16 (s.fld Fields.BAR_LANEMASK_MASK 0) != 0
      else if i = 18 then svc else s.barTimer
    let ins : Vector BarIn 20 := Vector.ofFn fun i =>
      if i.val < 11 then s.barAnalogue i.val (analogue.getD i.val 0) else s.barDigital i.val (digital i.val)
    let s := { s with bar := { s.bar with ins := ins, sampled := true, periodFrom := s.elapsed } }
    let on (r : RegName) : List Nat := (List.range 20).filter fun i => (s.barIn i).cond && bitOf (s.reg r 0) i
    let wake := on .BAR_WAKEEN
    let inhibit := (on .BAR_INHIB).filter fun i => i ≤ 10
    if s.power = 1 then
      if wake.isEmpty || !inhibit.isEmpty then s
      else (s.restart 1).setFld Fields.BAR_WAKECAUSE_INPUTS 0 (wake.map (2 ^ ·)).sum
    else s.barAlerts

end Sys2Proof.Machine
end

