-- ==== Sys2Proof/Machine/Remote.lean ====
section
/-! DEFINITION. Remote accesses and armed changes (spec/10 R414 to R429), and the release of scheduled writes (R619). -/

namespace Sys2Proof.Machine

/-- One more refusal by R415 (FLT_CNT.DENIED). -/
def State.denied (s : State) : State := s.bump Fields.FLT_CNT_DENIED 0 1

/-- Addresses that no remote party reaches (R415). -/
def neverRemote (addr : Nat) : Bool := decide (0x2400 ≤ addr) && decide (addr < 0x2600)

/-- A device lets a sender write: REMOTE, and the sender is the manager (R415). -/
def State.admits (s : State) (src : Nat) : Bool := s.flag Fields.FLT_CFG_REMOTE 0 && src == s.mgrId && s.mgrId != 0

/-! ## READ (R414) -/

/-- A remote READ is served and answered. -/
def State.remoteRead (s : State) (d : Delivery) : State :=
  let addr := bodyField d.body 48 16
  let answer (s : State) (st : WStatus) (w : Word) : State := s.respond (bodySrc d.body) (bodyTag d.body) addr st.code w
  if neverRemote addr then answer s.denied .denied 0
  else
    let (st, w, s) := s.readAddr addr
    answer s st (if st = .ok then w else 0)

/-! ## Streams in assembly (R425) -/

/-- A stream is that of a message: the same SRC, DST and TAG. -/
def Stream.hears (x : Stream) (b : Body) : Bool := x.src == bodySrc b && x.dst == bodyDst b && x.tag == bodyTag b

/-- A stream's answer (R426): ADDR 0 and VALUE EPOCH. One sent to every device is answered only when its status is not OK. -/
def State.armRespond (s : State) (dst src tag : Nat) (status : Nat) (epoch : Word) : State :=
  if dst = 0 ∧ status = 0 then s else s.respond src tag 0 status epoch

/-- An ARM_BEGIN opens a stream; a fifth is refused with FULL. -/
def State.armBegin (s : State) (d : Delivery) : State :=
  let b := d.body
  let epoch : Word := BitVec.ofNat 32 (bodyField b 48 32)
  let others := s.fleet.streams.filter fun x => !x.hears b
  if 4 ≤ others.length then s.armRespond (bodyDst b) (bodySrc b) (bodyTag b) WStatus.full.code epoch
  else
    let x : Stream :=
      { src := bodySrc b, dst := bodyDst b, tag := bodyTag b, lane := d.lane, epoch := epoch
        relTick := (widen s.now (bodyField b 80 48)).toNat, count := bodyField b 128 16, expectV := bodyField b 144 1 == 1
        expect := BitVec.ofNat 64 (bodyField b 152 64), items := [], bodies := [], lastAt := s.elapsed }
    s.modFleet fun f => { f with streams := others ++ [x] }

/-- An item joins its stream. -/
def State.armItem (s : State) (b : Body) (i : ArmItem) : State :=
  let add (x : Stream) : Stream := { x with items := x.items ++ [i], bodies := x.bodies ++ [b], lastAt := s.elapsed }
  s.modFleet fun f => { f with streams := f.streams.map fun x => if x.hears b then add x else x }

/-- An ARM_REG item. -/
def State.armReg (s : State) (d : Delivery) : State :=
  s.armItem d.body (.reg (bodyField d.body 48 16) (BitVec.ofNat 32 (bodyField d.body 64 32)))

/-- An ARM_PROF item. -/
def State.armProf (s : State) (d : Delivery) : State :=
  s.armItem d.body (.prof (bodyField d.body 48 12)
    ((List.range 8).map fun k => BitVec.ofNat 32 (bodyField d.body (64 + 32 * k) 32)))

/-- A stream whose next message has not arrived within 10 ms is discarded and counted. -/
def State.armTimeout (s : State) : State :=
  let stale (x : Stream) : Bool := decide (x.lastAt + 5000000 ≤ s.elapsed)
  let n := (s.fleet.streams.filter stale).length
  (s.modFleet fun f => { f with streams := f.streams.filter fun x => !stale x }).bump Fields.FLT_CNT_MALFORMED 0 n

/-! ## Acceptance (R426, R428, Table 10.6) -/

/-- The CRC-32 over item bodies in order. -/
def bodiesCrc (bs : List Body) : Word :=
  crc32 ((bs.map fun b => (b.map fun d => bytesOf 12 d.toNat).flatten).flatten)

/-- A value passes the static checks of its register: those that no state of the device bears on. -/
def staticOk (addr : Nat) (w : Word) : Bool :=
  if addr % 4 ≠ 0 ∨ keyMissing addr w then false
  else
    match faultAt addr with
    | some _ => true
    | none =>
      match regAt addr with
      | some (.REF_FWIN, _) => decide (getBits w 0 16 < getBits w 16 16)
      | some (.ANC_INNER_N, _) => decide (50 ≤ getBits w 0 7) && decide (getBits w 0 7 ≤ 100)
      | some (.CAL_GSEL, _) => decide (getBits w 0 6 < 60)
      | some (.MON_VTSEL, _) => decide (getBits w 0 5 < 26)
      | some (.FLOW_ADDR, _) => decide (getBits w 16 5 ≤ 16)
      | some (.OUT_DSET01, o) | some (.OUT_DSET23, o) =>
        dsetOk o (getBits w 0 11) (bitOf w 11) && dsetOk o (getBits w 16 11) (bitOf w 27)
      | some (.OUT_DRV, o) => decide (getBits w 0 8 ≤ 240) && !(bitOf w 8 && decide (o < 8))
      | some (.PGM_CMD, _) => getBits w 0 2 == 2
      | some _ => true
      | none => false

/-- Row 3 for an item. -/
def ArmItem.admissible : ArmItem → Bool
  | .reg a w => (decide (a < 0x4000) || a == 0x4040 || a == 0x404C) && staticOk a w
  | .prof _ ws => profileOk ws

/-- Row 1 for an item: no ARM_REG where R415 denies it. -/
def ArmItem.denied : ArmItem → Bool
  | .reg a _ => neverRemote a
  | .prof .. => false

def ArmItem.isReg : ArmItem → Bool
  | .reg .. => true
  | .prof .. => false

/-- The pending change that a stream replaces: one of its epoch received with DST = 0, when the stream is the device's own. -/
def State.replacesChange (_s : State) (x : Stream) (c : Change) : Bool := x.dst != 0 && c.general && c.epoch == x.epoch

/-- The status of a stream by Table 10.6; `crc` is that of its ARM_END. -/
def State.streamStatus (s : State) (x : Stream) (crc : Word) : Nat :=
  let cs := s.fleet.changes
  let later := newer x.epoch.toNat (s.reg .FLT_EPOCH 0).toNat
    && cs.all fun c => newer x.epoch.toNat c.epoch.toNat && decide (c.relTick < x.relTick)
  if !s.admits x.src || x.items.any ArmItem.denied then 9
  else if x.items.length ≠ x.count ∨ bodiesCrc x.bodies ≠ crc then 10
  else if !x.items.all ArmItem.admissible then 3
  else if !(later || cs.any (s.replacesChange x)) then 6
  else if 3 < cs.length ∨ 256 < (x.items.filter ArmItem.isReg).length
      ∨ 64 < (x.items.filter fun i => !i.isReg).length then 5
  else if x.relTick < s.now + 64 then (if s.flag Fields.FLT_CFG_LATEPOL 0 then 11 else 4)
  else 0

/-- One more scheduled write or armed change has been accepted. -/
def State.accept (s : State) : State := { s with acceptSeq := s.acceptSeq + 1 }

/-- An ARM_END checks its stream and makes it a pending change, or refuses it (R426, R428). A late one is reported with its RELTICK
in the tally. -/
def State.armEnd (s : State) (d : Delivery) : State :=
  match s.fleet.streams.find? fun x => x.hears d.body with
  | none => s
  | some x =>
    let st := s.streamStatus x (BitVec.ofNat 32 (bodyField d.body 48 32))
    let s := s.modFleet fun f => { f with streams := f.streams.filter fun y => !y.hears d.body }
    let tick := if st = 11 then s.now + 64 else x.relTick
    let s := if st = 0 ∨ st = 11 then
        (s.modFleet fun f =>
          { f with changes := f.changes.filter (fun c => !s.replacesChange x c)
              ++ [⟨s.acceptSeq, x.dst == 0, x.epoch, tick, x.items, x.expectV, x.expect⟩] }).accept
      else if st = 9 then s.denied else s
    let s := s.setFld Fields.FLT_ARMSTAT_LASTSTATUS 0 st
    let s := if st = 4 ∨ st = 11 then (s.raiseEvent Src.fleet_ARM_LATE (loWord x.relTick)).ownCause 6 x.epoch else s
    s.armRespond x.dst x.src x.tag st x.epoch

/-! ## Release (R427) -/

/-- An item is released as step 1 of Table 1.3 releases it; none when it would be refused. -/
def State.releaseItem (s : State) (i : ArmItem) : Option State :=
  match i with
  | .reg a w =>
    match s.writeAddr a w with
    | (.ok, s') => some s'
    | _ => none
  | .prof p ws => if profileOk ws then some ((s.armedProfile p ws).dropHandoffs p) else none

/-- The items of a change in order: the state after them, or the number of the first one refused. -/
def State.releaseItems (s : State) : (n : Nat) → List ArmItem → Nat ⊕ State
  | _, [] => .inr s
  | n, i :: l =>
    match s.releaseItem i with
    | some s' => s'.releaseItems (n + 1) l
    | none => .inl n

/-- The settings items of applied items (R558). -/
def armSettings (l : List ArmItem) : List SetItem :=
  l.filterMap fun i => match i with
    | .reg a w => match regAt a with
      | some (r, _) => if (setMask r).isSome || savedRegs.contains r then some (.reg a (w &&& savedMask r)) else none
      | none => none
    | .prof p ws => some (.prof p (maskProfile ws))

/-- The words of the epoch in an epoch record (R558). -/
def State.epochWords (s : State) : List Word :=
  [s.reg .FLT_EPOCH 0, loWord s.fleet.epTick, hiWord s.fleet.epTick, s.reg .FLT_EXPECT_LO 0, s.reg .FLT_EXPECT_HI 0,
   BitVec.ofNat 32 (s.fld Fields.FLT_DGSTAT_EXPECTV 0)]

/-- A change has applied: the epoch, the expected digest, and an epoch commit unless the ledger is read-only. -/
def State.changeApplied (s : State) (c : Change) : State :=
  let s := (s.setReg .FLT_EPOCH 0 c.epoch).modFleet fun f => { f with epTick := c.relTick }
  let s := if c.expectV then
      ((s.setReg .FLT_EXPECT_LO 0 (c.expect.extractLsb' 0 32)).setReg .FLT_EXPECT_HI 0 (c.expect.extractLsb' 32 32)).setFld
        Fields.FLT_DGSTAT_EXPECTV 0 1
    else s
  if s.store.readOnly then s else s.requestCommit 3 (s.epochWords ++ itemWords (mergeItems [] (armSettings c.items)))

/-- At RELTICK a pending change applies whole, or not at all (R427). -/
def State.applyChange (s : State) (c : Change) : State :=
  let s := s.modFleet fun f => { f with changes := f.changes.filter (· != c) }
  match s.releaseItems 0 c.items with
  | .inr s' => (s'.noteSet s).changeApplied c
  | .inl n => ((s.setFld Fields.FLT_ARMSTAT_ITEM 0 n).raiseEvent Src.fleet_ARM_REFUSED 0).ownCause 5 c.epoch

/-! ## Step 1 of Table 1.3 (R41, R54, R619) -/

/-- A scheduled write meets what an unscheduled one would meet now; a refused one is dropped and counted. -/
def State.releaseSched (s : State) (e : SchedWrite) : State :=
  let s := { s with sched := s.sched.filter (· != e) }
  match s.writeAddr e.addr e.data with
  | (.ok, s') => s'
  | (_, s') => s'.bump Fields.SCHED_CTL_DROPPED 0 1

/-- A scheduled write or an armed change that is due. -/
inductive DueWrite where
  | sched (e : SchedWrite) | change (c : Change)

/-- Its place in the order of acceptance. -/
def DueWrite.seq : DueWrite → Nat
  | .sched e => e.seq
  | .change c => c.seq

/-- It is released. -/
def State.releaseDue (s : State) : DueWrite → State
  | .sched e => s.releaseSched e
  | .change c => s.applyChange c

/-- Insert a due write in order of acceptance. -/
def insertDue (d : DueWrite) : List DueWrite → List DueWrite
  | [] => [d]
  | x :: l => if d.seq ≤ x.seq then d :: x :: l else x :: insertDue d l

/-- The scheduled writes and armed changes whose tick has come, in order of acceptance. -/
def State.dueWrites (s : State) : List DueWrite :=
  ((s.sched.filter fun e => decide (e.tick ≤ s.now)).map DueWrite.sched
    ++ (s.fleet.changes.filter fun c => decide (c.relTick ≤ s.now)).map DueWrite.change).foldr insertDue []

/-- What is due of step 1: SYNC_IN restarts and loads, then scheduled writes and armed changes in order of acceptance. Nothing is
released while the count does not run (Table 1.1) or in HALTED (R523). -/
def State.stepOne (s : State) : State :=
  if s.counting && !s.halted then
    let s := s.syncAll
    s.dueWrites.foldl State.releaseDue s
  else s

/-- A host write that comes now waits for the next tick: the effects of the present one have been released (R41). In HALTED nothing
is released that it could wait for. -/
def State.holdsWrites (s : State) : Bool := s.stepped && !s.halted

/-- A host write may be released at the present tick with nothing of step 1 due before it: no sequencer effect of the tick has
been released, and no SYNC_IN load or restart, scheduled write or armed change waits for its release (R41, Table 1.3). -/
def State.itsTurn (s : State) : Bool :=
  !s.stepped && (!s.counting || (s.syncDue.all (fun d => decide (s.now < d.due)) && s.dueWrites.isEmpty))

/-! ## WRITE (R414) -/

/-- A remote WRITE is served and answered: a host write of its tick (R414). -/
def State.remoteWrite (s : State) (d : Delivery) : State :=
  let addr := bodyField d.body 48 16
  let answer (s : State) (st : WStatus) : State := s.respond (bodySrc d.body) (bodyTag d.body) addr st.code 0
  if !s.admits (bodySrc d.body) || neverRemote addr then answer s.denied .denied
  else
    let (st, s) := s.hostWrite addr (BitVec.ofNat 32 (bodyField d.body 64 32))
    answer s st

end Sys2Proof.Machine
end

