-- ==== Sys2Proof/Machine/Svc.lean ====
section
/-! DEFINITION. The service port and Plipo (spec/15 R573 to R582): frames, sessions, and the commands. -/

namespace Sys2Proof.Machine

def State.modSvc (s : State) (f : Svc → Svc) : State := { s with svc := f s.svc }

/-! ## Frames (R574, Table 15.6) -/

/-- A request as a frame carries it. `signed` are the bytes its MAC covers. -/
structure PlipoReq where
  cmd : Nat
  seq : Nat
  payload : List Byte
  mac : Option (List Byte)
  signed : List Byte
  deriving DecidableEq, Repr, Inhabited

/-- LEN of a frame. -/
def plipoLen (l : List Byte) : Nat := field l 2 2

/-- A MAC is present. -/
def plipoMac (l : List Byte) : Bool := (l.getD 1 0#8).getLsbD 2

/-- Bytes of a frame by its LEN and FLAGS. -/
def plipoSize (l : List Byte) : Nat := 12 + plipoLen l + if plipoMac l then 16 else 0

/-- A request whose SOF, version, LEN, length and CRC hold (R575). -/
def plipoParse (l : List Byte) : Option PlipoReq :=
  let n := plipoLen l
  let body := l.take (l.length - 4)
  if l.length < 12 ∨ field l 0 1 ≠ 0xA7 ∨ field l 1 1 / 16 ≠ 1 ∨ 1024 < n ∨ l.length ≠ plipoSize l
      ∨ field l (l.length - 4) 4 ≠ (crc32 (body.map BitVec.toNat)).toNat then none
  else some ⟨field l 4 1, field l 6 2, (l.drop 8).take n, if plipoMac l then some ((l.drop (8 + n)).take 16) else none,
    l.take (8 + n)⟩

/-- A response frame, with a MAC under a session key. -/
def plipoFrame (cmd status seq : Nat) (payload : List Byte) (key : Option (List Byte)) : List Byte :=
  let head := beBytes 1 0xA7 ++ beBytes 1 (0x18 + if key.isSome then 4 else 0) ++ beBytes 2 payload.length ++ beBytes 1 cmd
    ++ beBytes 1 status ++ beBytes 2 seq ++ payload
  let l := match key with | some k => head ++ (hmac k head).take 16 | none => head
  l ++ beBytes 4 (crc32 (l.map BitVec.toNat)).toNat

/-- Where a request came from and its answer goes: SVC, or the device with an ID over the lanes (R581). -/
inductive PlipoPort where
  | svc | lane (peer : Nat)
  deriving DecidableEq, Repr, Inhabited

/-- The cells of class 3 that carry bytes. -/
def bytesBody (l : List Byte) : Body :=
  (List.range ((l.length + 11) / 12)).map fun i =>
    BitVec.ofNat 96 (beNat ((l.drop (12 * i)).take 12 ++ List.replicate (12 - ((l.drop (12 * i)).take 12).length) 0#8))

/-- A response waits on SVC, or leaves on the table-16 entry UPD_CFG.C3FLOW (R573, R581). -/
def State.plipoSend (s : State) (port : PlipoPort) (l : List Byte) : State :=
  match port with
  | .svc => s.modSvc fun x => { x with resp := l }
  | .lane peer =>
    s.sendCells 3 (s.fld Fields.UPD_CFG_C3FLOW 0) (bytesBody (beBytes 2 peer ++ beBytes 2 s.devId ++ l))

/-- A class-3 body delivered by the lanes: kept when DST is the device's own ID (R581). -/
def State.class3Receive (s : State) (b : Body) : State :=
  let l := (b.map fun d => beBytes 12 d.toNat).flatten
  if field l 0 2 ≠ s.devId ∨ s.devId = 0 then s
  else s.modSvc fun x => { x with inbox := x.inbox ++ [(field l 2 2, l.drop 4)] }

/-! ## Sessions (R576 to R580) -/

/-- The device key as bytes. -/
def State.keyBytes (s : State) : List Byte := beBytes 32 s.otp.deviceKey.toNat

/-- DEVSER as bytes. -/
def State.serialBytes (s : State) : List Byte := beBytes 8 s.otp.serial.toNat

/-- A tag of R576 and R578. -/
def asciiTag (a b c d : Nat) : List Byte := [a, b, c, d].map (BitVec.ofNat 8)

/-- A session ends: the update state leaves RECEIVING (R580, R583). -/
def State.endSession (s : State) : State :=
  if s.svc.session.isSome then (s.modSvc fun x => { x with session := none }).dropReceiving else s

/-- The open session, when it is that of a port. -/
def State.sessionOf (s : State) (port : PlipoPort) : Option Session :=
  match s.svc.session, port with
  | some x, .svc => if x.lane then none else some x
  | some x, .lane p => if x.lane && x.peer == p then some x else none
  | none, _ => none

/-- A session is open on another port. -/
def State.sessionElsewhere (s : State) (port : PlipoPort) : Bool := s.svc.session.isSome && (s.sessionOf port).isNone

/-- OPEN is refused after four failed AUTHs until the elapsed tick of the lockout has come (R577). -/
def State.lockedOut (s : State) : Bool :=
  match s.svc.lockUntil with
  | some t => decide (s.elapsed < t)
  | none => false

/-- What a command answers: its status, its payload and the state it leaves. -/
abbrev PlipoRes := UStatus × List Byte × State

/-- OPEN (R576, R577, R580). -/
def State.plipoOpen (s : State) (port : PlipoPort) (r : PlipoReq) : PlipoRes :=
  if r.payload ≠ [] then (.range, [], s)
  else if s.lockedOut || s.sessionElsewhere port then (.busy, [], s)
  else
    let nd := beBytes 16 (Config.nonce s.svc.drawn).toNat
    (.ok, s.serialBytes ++ nd ++ beBytes 1 (s.power == 4).toNat ++ beBytes 1 s.entry.state.code,
      s.modSvc fun x => { x with nonce := some nd, drawn := x.drawn + 1 })

/-- An AUTH fails: SVC_AUTH, and the fourth in a row refuses OPEN for 1 s (R577). -/
def State.authFails (s : State) : State :=
  let s := (s.raiseEvent Src.port_SVC_AUTH 0).bump Fields.UPD_SVCCNT_AUTHFAIL 0 1
  s.modSvc fun x =>
    if 4 ≤ x.fails + 1 then { x with fails := 0, lockUntil := some (s.elapsed + 500000000) } else { x with fails := x.fails + 1 }

/-- AUTH (R576 to R578): the nonce is used up whatever its outcome. -/
def State.plipoAuth (s : State) (port : PlipoPort) (r : PlipoReq) : PlipoRes :=
  if r.payload.length ≠ 48 then (.range, [], s)
  else if s.sessionElsewhere port then (.busy, [], s)
  else
    match s.svc.nonce with
    | none => (.auth, [], s.authFails)
    | some nd =>
      let s := s.modSvc fun x => { x with nonce := none }
      let nt := r.payload.take 16
      let k := s.keyBytes
      if hmac k (asciiTag 0x50 0x4C 0x41 0x31 ++ s.serialBytes ++ nd ++ nt) = r.payload.drop 16 then
        let ks := hmac k (asciiTag 0x50 0x4C 0x4B 0x31 ++ nd ++ nt)
        let x : Session := match port with
          | .svc => ⟨ks, false, 0, 0, s.elapsed⟩
          | .lane p => ⟨ks, true, p, 0, s.elapsed⟩
        (.ok, hmac k (asciiTag 0x50 0x4C 0x41 0x32 ++ s.serialBytes ++ nd ++ nt),
          s.modSvc fun y => { y with session := some x, fails := 0 })
      else (.auth, [], s.authFails)

/-! ## Commands within a session (Table 15.7) -/

/-- The status of Table 15.8 for a status of Table 16.3. -/
def WStatus.plipo : WStatus → UStatus
  | .ok => .ok
  | .range | .keyerr | .late => .range
  | .state | .broken | .denied => .state
  | .busy | .owned | .full => .busy

/-- STATUS. -/
def State.statusBytes (s : State) : List Byte :=
  let w (r : RegName) (i : Nat) : List Byte := beBytes 4 (s.readWord r i).toNat
  w .UPD_STAT 0 ++ w .UPD_PROGRESS 0 ++ ((List.range 4).map fun t => w .UPD_ACTVER t).flatten ++ w .UPD_ACTSVN01 0
    ++ w .UPD_ACTSVN23 0 ++ w .UPD_FLOOR01 0 ++ w .UPD_FLOOR23 0

/-- READ of words from an address on: the first refusal refuses the whole. -/
def State.readMany (s : State) : (n : Nat) → (addr : Nat) → UStatus × List Byte × State
  | 0, _ => (.ok, [], s)
  | n + 1, addr =>
    let (st, w, s') := s.readAddr addr
    match st with
    | .ok =>
      let (st, l, s'') := s'.readMany n (addr + 4)
      (st, beBytes 4 w.toNat ++ l, s'')
    | st => (st.plipo, [], s)

def State.plipoRead (s : State) (r : PlipoReq) : PlipoRes :=
  let n := field r.payload 2 2
  if r.payload.length ≠ 4 ∨ n = 0 ∨ 255 < n then (.range, [], s)
  else
    match s.readMany n (field r.payload 0 2) with
    | (.ok, l, s') => (.ok, l, s')
    | (st, _, _) => (st, [], s)

/-- WRITE: the rules of a host-port write; UPD_CMD, and recovery mode, refuse it with STATE. DESIGN CHOICE (log entry 98): one that comes after
the sequencer effects of its tick is released in that tick, after them. -/
def State.plipoWrite (s : State) (r : PlipoReq) : PlipoRes :=
  let addr := field r.payload 0 2
  if r.payload.length ≠ 6 then (.range, [], s)
  else if s.power = 4 ∨ addr = 0x2484 then (.state, [], s)
  else
    let (st, s) := s.stepOne.hostWrite addr (BitVec.ofNat 32 (field r.payload 2 4))
    (st.plipo, [], s)

/-- An update command answers its status and nothing else. -/
def updRes (r : UStatus × State) : PlipoRes := (r.1, [], r.2)

/-- UPD_ACTIVATE: with RESTART = 1 a start follows once the response is read. -/
def State.plipoActivate (s : State) (r : PlipoReq) : PlipoRes :=
  if r.payload.length ≠ 1 ∨ 1 < field r.payload 0 1 then (.range, [], s)
  else
    let (st, s) := s.updActivate
    (st, [], if st = .ok ∧ field r.payload 0 1 = 1 then s.modSvc fun x => { x with restart := true } else s)

/-- The commands of Table 15.7. -/
inductive PlipoCmd where
  | open_ | auth | close | status | read | write | updBegin | updData | updEnd | updActivate | updAbort | restart
  deriving DecidableEq, Repr, Inhabited

/-- CMD of a command. -/
def PlipoCmd.code : PlipoCmd → Nat
  | .open_ => 0x01 | .auth => 0x02 | .close => 0x03 | .status => 0x04 | .read => 0x10 | .write => 0x11 | .updBegin => 0x20
  | .updData => 0x21 | .updEnd => 0x22 | .updActivate => 0x23 | .updAbort => 0x24 | .restart => 0x25

/-- A CMD that Table 15.7 reserves. -/
def reservedCmd (c : Nat) : Bool :=
  !([0x01, 0x02, 0x03, 0x04, 0x10, 0x11, 0x20, 0x21, 0x22, 0x23, 0x24, 0x25].contains c)

/-- What a command does within a session. A payload it does not have is RANGE, as is a reserved CMD (R582). -/
def State.plipoCommand (s : State) (r : PlipoReq) : PlipoRes :=
  let bare (x : PlipoRes) : PlipoRes := if r.payload = [] then x else (.range, [], s)
  match r.cmd with
  | 0x03 => bare (.ok, [], s.endSession)
  | 0x04 => bare (.ok, s.statusBytes, s)
  | 0x10 => s.plipoRead r
  | 0x11 => s.plipoWrite r
  | 0x20 => if r.payload.length = 512 then updRes (s.updBegin r.payload) else (.range, [], s)
  | 0x21 => if 5 ≤ r.payload.length then updRes (s.updData (field r.payload 0 4) (r.payload.drop 4)) else (.range, [], s)
  | 0x22 => bare (updRes s.updEnd)
  | 0x23 => s.plipoActivate r
  | 0x24 => bare (updRes s.updAbort)
  | 0x25 => bare (.ok, [], s.modSvc fun x => { x with restart := true })
  | _ => (.range, [], s)

/-- A request within a session: its MAC, its SEQ, then the command (R578 to R580). -/
def State.plipoSession (s : State) (port : PlipoPort) (x : Session) (r : PlipoReq) : State :=
  if r.mac ≠ some ((hmac x.key r.signed).take 16) then
    (s.bump Fields.UPD_SVCCNT_MACFAIL 0 1).plipoSend port (plipoFrame r.cmd UStatus.auth.code r.seq [] none)
  else if r.seq = x.seq then (s.modSvc fun y => { y with session := some { x with heardAt := s.elapsed } }).plipoSend port s.svc.last
  else if r.seq ≠ (x.seq + 1) % 65536 then s.plipoSend port (plipoFrame r.cmd UStatus.seq.code r.seq [] (some x.key))
  else
    let s := s.modSvc fun y => { y with session := some { x with seq := r.seq, heardAt := s.elapsed } }
    let (st, l, s) := s.plipoCommand r
    let resp := plipoFrame r.cmd st.code r.seq l (some x.key)
    (s.modSvc fun y => { y with last := resp }).plipoSend port resp

/-- An AUTH that repeats the one that opened the session of its port: nothing has come since, and no new nonce was given (R579). -/
def State.repeatsAuth (s : State) (port : PlipoPort) (r : PlipoReq) : Bool :=
  r.cmd == 2 && r.seq == 0 && s.svc.nonce.isNone && (s.sessionOf port).any fun x => x.seq == 0

/-- A request that passed its frame checks is answered. -/
def State.plipoAnswer (s : State) (port : PlipoPort) (r : PlipoReq) : State :=
  if s.repeatsAuth port r then s.plipoSend port s.svc.last
  else if r.cmd = 0x01 ∨ r.cmd = 0x02 then
    let (st, l, s) := if r.seq ≠ 0 then (UStatus.seq, [], s) else if r.cmd = 0x01 then s.plipoOpen port r else s.plipoAuth port r
    let resp := plipoFrame r.cmd st.code r.seq l none
    (if r.cmd = 0x02 ∧ st = .ok then s.modSvc fun y => { y with last := resp } else s).plipoSend port resp
  else
    match s.sessionOf port with
    | some x => s.plipoSession port x r
    | none => s.plipoSend port (plipoFrame r.cmd UStatus.auth.code r.seq [] none)

/-- The service port serves: its domain is on, and SVC_CFG.EN holds or the device is in RECOVERY (R599, R631). -/
def State.svcServes (s : State) : Bool :=
  s.pins.aon && (s.power == 4 || ((s.power == 2 || s.power == 3) && s.flag Fields.SVC_CFG_EN 0))

/-- A frame reaches the row of a command: one that fails its checks is discarded with SVC_FRAME (R575); one of another command
is not this row's. -/
def State.plipoTake (s : State) (c : PlipoCmd) (port : PlipoPort) (l : List Byte) (drop : State → State) : State :=
  match plipoParse l with
  | none => (drop s).raiseEvent Src.port_SVC_FRAME 0
  | some r => if r.cmd = c.code ∨ reservedCmd r.cmd then (drop s).plipoAnswer port r else s

/-- A row of Table 15.7: its frame written on SVC, or the oldest that the lanes have delivered. -/
def State.plipo (s : State) (c : PlipoCmd) (frame : Option (List Byte)) : State :=
  match frame with
  | some l => if s.svcServes then s.plipoTake c .svc l id else s
  | none =>
    match s.svc.inbox with
    | (src, l) :: rest =>
      s.plipoTake c (.lane src) (l.take (plipoSize l)) fun s => s.modSvc fun x => { x with inbox := rest }
    | [] => s

/-- An SVC read transaction returns the response that waits, or 0x00 (R573); a start that waited for it follows. -/
def State.svcRead (s : State) : State :=
  if !s.svcServes then s
  else if s.svc.resp.isEmpty then s.modSvc fun x => { x with miso := [0#8] }
  else
    let s := s.modSvc fun x => { x with miso := x.resp, resp := [] }
    if s.svc.restart then s.restart 2 else s

/-- A start that waits for a response carried by the lanes follows when its cells have left. -/
def State.laneRestart (s : State) : State :=
  let lane := match s.svc.session with | some x => x.lane | none => false
  if !s.halted && s.svc.restart && lane && (List.range 16).all fun n => ((s.lane n).cells[2]?.getD []).isEmpty then s.restart 2 else s

/-- A session ends after 10 s without a valid request (R580). -/
def State.sessionTimeout (s : State) : State :=
  match s.svc.session with
  | some x => if x.heardAt + 5000000000 ≤ s.elapsed then s.endSession else s
  | none => s

/-- The refusal of OPEN ends (R577). -/
def State.lockoutEnd (s : State) : State :=
  match s.svc.lockUntil with
  | some t => if t ≤ s.elapsed then s.modSvc fun x => { x with lockUntil := none } else s
  | none => s

end Sys2Proof.Machine
end

