-- ==== Sys2Proof/Machine/Ports.lean ====
section
/-! DEFINITION. The host port HSPI and the mailbox (spec/16). -/

namespace Sys2Proof.Machine

/-! ## HSPI (R607 to R614) -/

def State.modHspi (s : State) (f : Hspi → Hspi) : State := { s with hspi := f s.hspi }

/-- The host port answers: its domain is on (Table 12.5). -/
def State.hostServes (s : State) : Bool := s.pins.aon && s.power != 0 && s.power != 1

/-- One byte through the CRC-8 of polynomial 0x07 (R608). -/
def crc8Byte (c : Byte) (b : Byte) : Byte :=
  (List.range 8).foldl (fun (c : Byte) _ => if c.getLsbD 7 then (c <<< 1) ^^^ 0x07#8 else c <<< 1) (c ^^^ b)

/-- CRC-8 over bytes. -/
def crc8 (l : List Byte) : Byte := l.foldl crc8Byte 0#8

/-- LASTW: PENDING while a write is queued, else the status of the write handled last (R610). -/
def State.lastW (s : State) : Nat := if s.hspi.queue.isEmpty then s.hspi.lastw else 15

/-- CRCREQ is in effect (R608): not before a start is DONE. -/
def State.crcRequired (s : State) : Bool := s.flag Fields.HSPI_CFG_CRCREQ 0 && s.startStage == 6

/-- A write was refused, or a transaction discarded: the first while ERR was clear is recorded. -/
def State.hspiError (s : State) (addr code : Nat) : State :=
  let s := if s.flag Fields.HSPI_STAT_ERR 0 then s
    else (s.setFld Fields.HSPI_STAT_FIRSTADDR 0 addr).setFld Fields.HSPI_STAT_FIRSTERR 0 code
  s.stick Fields.HSPI_STAT_ERR 0

/-- A transaction is discarded for its length or its OP. -/
def State.hspiFrame (s : State) : State :=
  ((s.raiseEvent Src.port_HSPI_FRAME 0).bump Fields.HSPI_CNT_FRAMEERR 0 1).hspiError 0 13

/-- A transaction is discarded for its CRC, failed or missing. -/
def State.hspiCrc (s : State) : State :=
  ((s.raiseEvent Src.port_HSPI_CRC 0).bump Fields.HSPI_CNT_CRCERR 0 1).hspiError 0 10

/-- An OP of Table 16.2. -/
def knownOp (op : Nat) : Bool := [0x02, 0x82, 0x03, 0x83, 0x0B, 0x8B].contains op

/-- The bytes the engine sends, the transaction ending after `n`. -/
def State.hspiSend (s : State) (n : Nat) (l : List Byte) : State :=
  s.modHspi fun x => { x with miso := (l ++ List.replicate (n - l.length) 0xFF#8).take n }

/-- Byte 0 of every transaction. -/
def State.lastByte (s : State) : Byte := BitVec.ofNat 8 s.lastW

/-- A host write is refused or released (R57, R610): LASTW takes its status and HSPI_STAT a refusal. What else is due of step 1 of
Table 1.3 was accepted before it and is released first; a write that comes after step 2 is released at the next tick (R41). -/
def State.portWrite (s : State) (addr : Nat) (w : Word) : State :=
  if !s.hostServes then s
  else if s.holdsWrites then { s with heldWrites := s.heldWrites ++ [(addr, w)] }
  else
    let (st, s) := s.stepOne.hostWrite addr w
    let s := s.modHspi fun x => { x with lastw := st.code }
    if st = .ok then s else s.hspiError addr st.code

/-- A read by the host port outside a transaction of its own: the word read, and the read's effects. -/
def State.portRead (s : State) (addr : Nat) : State :=
  if !s.hostServes then s
  else
    let (_, w, s) := s.readAddr addr
    { s with readData := w }

/-- A transaction whose OP is that of a WRITE (R607 to R610): it joins the queue, or is discarded. -/
def State.hspiWrite (s : State) (l : List Byte) : State :=
  let op := field l 0 1
  if !s.hostServes || (knownOp op && op != 0x02 && op != 0x82) then s
  else
    let s := s.hspiSend l.length [s.lastByte]
    if !knownOp op || l.length ≠ (if op = 0x02 then 7 else 8) then s.hspiFrame
    else if (if op = 0x02 then s.crcRequired else crc8 (l.take 7) != l.getD 7 0#8) then
      s.hspiCrc.modHspi fun x => { x with lastw := 10 }
    else if 4 ≤ s.hspi.queue.length then (s.hspiError (field l 1 2) 1).modHspi fun x => { x with lastw := 1 }
    else s.modHspi fun x => { x with queue := x.queue ++ [⟨field l 1 2, BitVec.ofNat 32 (field l 3 4), s.elapsed⟩] }

/-- The oldest queued write is checked and refused or released (R610, R659): at a tick for which it is ready, two ticks or more
after it was complete (R38, R57), and before the sequencer effects of that tick. -/
def State.hspiHandled (s : State) : State :=
  match s.hspi.queue with
  | w :: rest =>
    if w.at_ + 2 ≤ s.elapsed ∧ s.holdsWrites = false then (s.modHspi fun x => { x with queue := rest }).portWrite w.addr w.data else s
  | [] => s

/-- The bytes of a status and a word, with DCRC in a transaction with CRC. -/
def answerBytes (crc : Bool) (st : Nat) (w : Word) : List Byte :=
  let l := beBytes 1 st ++ beBytes 4 w.toNat
  if crc then l ++ [crc8 l] else l

/-- A transaction whose OP is that of a READ (R607, R609, R611). `ready` says that the value is there by the STATUS byte; a READ
that ends after STATUS has taken effect whatever its length. -/
def State.hspiRead (s : State) (l : List Byte) (ready : Bool) : State :=
  let op := field l 0 1
  if !s.hostServes || !(op == 0x03 || op == 0x83) then s
  else
    let crc := op == 0x83
    let head := 3 + crc.toNat + s.fld Fields.HSPI_CFG_DUMMY 0
    let size := head + 5 + crc.toNat
    let pre := s.lastByte :: List.replicate (head - 1) 0xFF#8
    let bad := if crc then decide (4 ≤ l.length) && crc8 (l.take 3) != l.getD 3 0#8 else s.crcRequired
    if bad then (s.hspiSend l.length [s.lastByte]).hspiCrc
    else if l.length ≤ head then (s.hspiSend l.length [s.lastByte]).hspiFrame
    else
      let (st, w, s) := if ready && s.hspi.queue.isEmpty then
          (let r := s.readAddr (field l 1 2)
           (r.1.code, (if r.1 = .ok then r.2.1 else 0), r.2.2))
        else (14, 0, s)
      let s := { s with readData := w }.modHspi fun x => { x with read := some (st, w) }
      let s := s.hspiSend l.length (pre ++ answerBytes crc st w)
      if l.length = size then s else s.hspiFrame

/-- A transaction whose OP is that of a REPEAT (R612): the response of the previous READ, with no side effect. -/
def State.hspiRepeat (s : State) (l : List Byte) : State :=
  let op := field l 0 1
  if !s.hostServes || !(op == 0x0B || op == 0x8B) then s
  else
    let crc := op == 0x8B
    let (st, w) := s.hspi.read.getD (0, 0)
    let sent := s.hspiSend l.length ([s.lastByte] ++ (if crc then [0xFF#8] else []) ++ answerBytes crc st w)
    if crc && decide (2 ≤ l.length) && crc8 (l.take 1) != l.getD 1 0#8 then (s.hspiSend l.length [s.lastByte]).hspiCrc
    else if l.length ≠ (if crc then 8 else 6) then sent.hspiFrame
    else { sent with readData := w }

/-! ## The mailbox (R621 to R624) -/

/-- The statuses of Table 16.3 that only the mailbox has. -/
def mbxNoCore : Nat := 16
def mbxNoFit : Nat := 17

/-- Argument words, and two of them as one value. -/
def State.arg (s : State) (k : Nat) : Word := s.reg .MBX_ARG k
def State.arg64 (s : State) (k : Nat) : Nat := ofWords (s.arg k) (s.arg (k + 1))

/-- Results replace arguments from word `k` on. -/
def State.results (s : State) (k : Nat) : List Word → State
  | [] => s
  | w :: l => (s.setReg .MBX_ARG k w).results (k + 1) l

/-- The expert writes of a command, each once the one before it has been handled; the first refusal ends them (R622). -/
def State.expertWrites (s : State) : List (Nat × Word) → WStatus × State
  | [] => (.ok, s)
  | (a, w) :: l =>
    match s.hostWrite a w with
    | (.ok, s') => s'.expertWrites l
    | r => r

/-- A command makes its writes and ends: with the results, or with the status of a refused write. A device that has gone to
DORMANT has no command left. -/
def State.mbxDo (s : State) (ws : List (Nat × Word)) (res : State → List Word) : State :=
  match s.expertWrites ws with
  | (.ok, s') => if s'.power = 1 then s' else (s'.results 0 (res s')).mbxEnd 0
  | (st, s') => s'.mbxEnd st.code

/-- A command of the mailbox runs: its code is the one started, and the management processor is not restarting. Its writes have
their place in step 1 of their tick (R41). -/
def State.mbxRuns (s : State) (cmd stage : Nat) : Bool :=
  s.mbx.busy && s.itsTurn && s.mbx.stage == stage && s.fld Fields.MBX_CTL_CMD 0 == cmd && !s.reloads.contains 0 && !s.halted

def State.mbxRun (s : State) (cmd : Nat) (f : State → State) : State := if s.mbxRuns cmd 0 then f s else s

/-- A register's word with some fields replaced. -/
def State.withFields (s : State) (r : RegName) (i : Nat) (fs : List (Field × Nat)) : Word :=
  fs.foldl (fun w (f, v) => putBits w f.lo f.width v) (s.reg r i)

/-- INFO. -/
def State.mbxInfo (s : State) : State :=
  s.mbxDo [] fun s =>
    [s.readWord .GLB_ID 0, s.otp.serial.extractLsb' 0 32, s.otp.serial.extractLsb' 32 32, s.readWord .UPD_ACTVER 0,
     s.readWord .UPD_FW 0]

/-- A ratio meets R62 with a pre-divider `p` (NUM/DEN = 8 GHz × p / f). -/
def ratioMeets (f p : Nat) : Bool :=
  let g := Nat.gcd (8000000000 * p) f
  decide (1000000 ≤ f) && decide (f ≤ 1600000000) && decide (40 * f ≤ 8000000000 * p) && decide (8000000000 * p ≤ 8000 * f)
    && decide (8000000000 * p / g < 2 ^ 32) && decide (f / g < 2 ^ 32)

/-- ANCHOR_SET. -/
def State.mbxAnchorSet (s : State) : State :=
  let w := s.arg 0
  let a := (bitOf w 0).toNat
  let r := getBits w 1 3
  let fx := (s.arg 1).toNat
  let fr := (s.arg 2).toNat
  let st := (s.anc a).state
  let n := 8000000000 / fx
  let g := Nat.gcd (8000000000 % fx) fx
  if 3 < r then s.mbxEnd 3
  else if !(st == .off || st == .failed) then s.mbxEnd 6
  else if fx = 0 ∨ n < 50 ∨ 100 < n ∨ 2 ^ 24 ≤ fx / g then s.mbxEnd mbxNoFit
  else
    match (List.range 64).find? fun p => ratioMeets fr (p + 1) with
    | none => s.mbxEnd mbxNoFit
    | some p =>
      let num := 8000000000 % fx / g
      let top := 8000000000 * (p + 1)
      let h := Nat.gcd top fr
      let word (v : Nat) : Word := BitVec.ofNat 32 v
      s.mbxDo
        [(regAddr .REF_CFG r, s.withFields .REF_CFG r [(Fields.REF_CFG_PREDIV, p), (Fields.REF_CFG_EN, 1)]),
         (regAddr .REF_RATIO_NUM r, word (top / h)), (regAddr .REF_RATIO_DEN r, word (fr / h)),
         (regAddr .ANC_INNER_N a, word n), (regAddr .ANC_INNER_NUM a, word num), (regAddr .ANC_INNER_DEN a, word (fx / g)),
         (regAddr .ANC_CFG a, s.withFields .ANC_CFG a
           [(Fields.ANC_CFG_REFSEL, r), (Fields.ANC_CFG_BW, getBits w 4 5), (Fields.ANC_CFG_EN, 1)])]
        fun _ => [word n, word num, word (fx / g), word p, word (top / h), word (fr / h)]

/-! ### OUT_FREQ (R625) -/

/-- The least divider that places every frequency of a list, in mHz, between 7 and 14 GHz at the core. -/
def leastDiv (m : Nat) (fs : List Nat) : Option Nat :=
  ((List.range 1024).map (· + 1)).find? fun d =>
    fs.all fun f => decide (7000000000000 * m ≤ f * d) && decide (f * d ≤ 14000000000000 * m)

/-- The core setting of a frequency in mHz with a divider and doubler. -/
def settingOf (f d m : Nat) : Setting :=
  let num := f * d
  let den := m * 500000000000
  let g := Nat.gcd (num % den) den
  ⟨num / den, num % den / g, den / g⟩

/-- SUB and BAND of a setting from a core's band table: the sub-core that SEARCH would choose, and the band whose mid-rail
frequency lies nearest. -/
def State.tableBand (s : State) (c : Nat) (x : Setting) : Nat × Nat :=
  let k := chooseSub x.hz .search 0
  (k, (List.range 255).foldl (fun b i =>
    if offBy x.hz (s.bandMid c k (i + 1)) < offBy x.hz (s.bandMid c k b) then i + 1 else b) 0)

/-- A core that OUT_FREQ may take for an output. -/
def State.coreFree (s : State) (c o : Nat) : Bool :=
  (s.core c).role == .unassigned && (s.rasOfCore c).isNone && (s.outsOf c).all (· == o)

/-- The core of OUT_FREQ: the one the output follows, or the lowest-numbered free one. -/
def State.freqCore (s : State) (o : Nat) : Option Nat :=
  match s.srcOf o with
  | some c => if s.coreFree c o then some c else (List.range 26).find? fun c => s.coreFree c o && (s.outsOf c).isEmpty
  | none => (List.range 26).find? fun c => s.coreFree c o && (s.outsOf c).isEmpty

/-- An output is named in a STN_OUTMASK or a RAS_OUTMASK. -/
def State.outMasked (s : State) (o : Nat) : Bool :=
  (s.outOwner o).isSome || (List.range 2).any fun r => bitOf (s.reg .RAS_OUTMASK r) o

def State.mbxOutFreq (s : State) : State :=
  let o := (s.arg 0).toNat
  let f := s.arg64 1
  let m := if o ≤ 7 ∧ 14000000000000 < f then 2 else 1
  if 32 ≤ o then s.mbxEnd 3
  else if s.outMasked o then s.mbxEnd 2
  else if s.flag Fields.OUT_DRV_MODE o ∧ 1600000000000 < f then s.mbxEnd 3
  else
    match leastDiv m [f] with
    | none => s.mbxEnd mbxNoFit
    | some d =>
      if m = 2 ∧ d ≠ 1 then s.mbxEnd mbxNoFit
      else if 2000000000000000 < (s.minPeriod o + 2) * f then s.mbxEnd 3
      else
        match s.freqCore o with
        | none => s.mbxEnd mbxNoCore
        | some c =>
          let x := settingOf f d m
          let (sub, band) := s.tableBand c x
          let hi := BitVec.ofNat 32 (x.den / 2 ^ 32 * 2 ^ 16 + x.num / 2 ^ 32)
          let word (v : Nat) : Word := BitVec.ofNat 32 v
          s.mbxDo
            [(regAddr .OUT_DSET01 o, s.withFields .OUT_DSET01 o [(Fields.OUT_DSET01_D0, d), (Fields.OUT_DSET01_DBL0, m - 1)]),
             (regAddr .OUT_CFG o, s.withFields .OUT_CFG o [(Fields.OUT_CFG_EN, 1), (Fields.OUT_CFG_HGATE, 0),
               (Fields.OUT_CFG_DSEL, 0), (Fields.OUT_CFG_SRC, c)]),
             (regAddr .CORE_CFG c, s.withFields .CORE_CFG c [(Fields.CORE_CFG_EN, 1)]),
             (regAddr .CORE_NUM_LO c, word x.num), (regAddr .CORE_DEN_LO c, word x.den), (regAddr .CORE_FRAC_HI c, hi),
             (regAddr .CORE_NBAND c, word (sub * 2 ^ 16 + band * 2 ^ 8 + x.n)), (regAddr .CORE_CMD c, 1#32)]
            fun s => [word c, word (d + (m - 1) * 2 ^ 11), word x.n, word x.num, word x.den, hi, loWord s.hwRel]

/-! ### OUT_PHASE to LANE_SET -/

/-- The nearest integer to a non-negative fraction, a half going up. -/
def nearest (q : Rat) : Nat := (q + 1 / 2).floor.toNat

/-- OUT_PHASE (R626): the core half cycles and quarter picoseconds of a delay, and the phase they realise. -/
def State.mbxOutPhase (s : State) : State :=
  let o := (s.arg 0).toNat
  if 32 ≤ o then s.mbxEnd 3
  else if s.outTaken o then s.mbxEnd 2
  else
    match s.srcOf o with
    | none => s.mbxEnd 6
    | some c =>
      if (s.core c).state ≠ .locked then s.mbxEnd 6
      else
        let f := (s.core c).applied.hz
        let fo : Rat := f * s.mulOf o / s.divOf o
        let tau : Rat := ((s.arg 1).toNat : Rat) / (2 ^ 32 * fo)
        let coarse := (2 * f * tau).floor.toNat
        let fine := nearest ((tau - coarse / (2 * f)) * 4000000000000)
        let got : Rat := coarse / (2 * f) + (fine : Rat) / 4000000000000
        if 2047 < coarse then s.mbxEnd 3
        else
          s.mbxDo [(regAddr .OUT_DELAY o, BitVec.ofNat 32 (coarse * 2 ^ 16 + fine))] fun _ =>
            [BitVec.ofNat 32 coarse, BitVec.ofNat 32 fine, BitVec.ofNat 32 (nearest (got * fo * 2 ^ 32))]

/-- OUT_LEVEL. -/
def State.mbxOutLevel (s : State) : State :=
  let o := (s.arg 0).toNat
  let v (k : Nat) : Nat := (s.arg k).toNat
  if 32 ≤ o ∨ 1 < v 1 ∨ 240 < v 2 ∨ 65535 < v 3 then s.mbxEnd 3
  else
    s.mbxDo [(regAddr .OUT_DRV o, s.withFields .OUT_DRV o
      [(Fields.OUT_DRV_MODE, v 1), (Fields.OUT_DRV_AMP, v 2), (Fields.OUT_DRV_MINPER, v 3)])] fun _ => []

/-- OUT_OFF. -/
def State.mbxOutOff (s : State) : State :=
  let os := bitsOf (s.arg 0) 32
  if os.any s.outTaken then s.mbxEnd 2
  else s.mbxDo (os.map fun o => (regAddr .OUT_CFG o, s.withFields .OUT_CFG o [(Fields.OUT_CFG_EN, 0)])) fun _ => []

/-- SYSREF. -/
def State.mbxSysref (s : State) : State :=
  let o := (s.arg 0).toNat
  let v (k : Nat) : Nat := (s.arg k).toNat
  if 32 ≤ o ∨ v 2 < 2 ∨ 4096 < v 2 ∨ 65535 < v 3 ∨ 3 < v 4 then s.mbxEnd 3
  else if s.outTaken o then s.mbxEnd 2
  else
    let base := BitVec.ofNat 32 (getBits (s.arg 1) 0 2 * 2 ^ 16 + getBits (s.arg 1) 2 8)
    let op : List (Nat × Word) := if v 4 = 3 then []
      else [(regAddr .OUT_SYSREF o, base ||| BitVec.ofNat 32 (2 ^ (31 - v 4)))]
    s.mbxDo ([(regAddr .OUT_SYSPULSE o, BitVec.ofNat 32 (v 3 * 2 ^ 16 + v 2 % 4096)), (regAddr .OUT_SYSREF o, base)] ++ op)
      fun _ => []

/-- SYNC_ARM. -/
def State.mbxSyncArm (s : State) : State :=
  let load := bitOf (s.arg 2) 0
  if s.sync.isSome || (load && (s.loadArmed || !s.loadAllowed)) then s.mbxEnd 1
  else
    let preset : List (Nat × Word) := if load then
        [(regAddr .TIME_PRESET_LO 0, s.arg 3), (regAddr .TIME_PRESET_HI 0, s.arg 4)] else []
    s.mbxDo ([(regAddr .TIME_SYNCCFG_LO 0, s.withFields .TIME_SYNCCFG_LO 0
        [(Fields.TIME_SYNCCFG_LO_LATENCY, getBits (s.arg 1) 16 16)]),
      (regAddr .TIME_SYNCCFG_HI 0, s.withFields .TIME_SYNCCFG_HI 0 [(Fields.TIME_SYNCCFG_HI_WINDOW, getBits (s.arg 1) 0 16)]),
      (regAddr .TIME_SYNCMASK 0, s.arg 0)] ++ preset
      ++ [(regAddr .TIME_SYNCCMD 0, if load then 0xC0000000#32 else 0x80000000#32)]) fun _ => []

/-- LANE_SET. -/
def State.mbxLaneSet (s : State) : State :=
  let n := (s.arg 0).toNat
  let w := s.arg 1
  if 16 ≤ n then s.mbxEnd 3
  else
    s.mbxDo [(regAddr .LN_CFG n, s.withFields .LN_CFG n
      [(Fields.LN_CFG_ROLE, getBits w 0 2), (Fields.LN_CFG_FEC, getBits w 2 1), (Fields.LN_CFG_C0EN, getBits w 3 8),
       (Fields.LN_CFG_EN, getBits w 11 1)])] fun _ => []

/-! ### Stations (R624, R627) -/

/-- A station has no program that runs. -/
def State.stationIdle (s : State) (n : Nat) : Bool :=
  let r := (s.stn n).run
  r == .empty || r == .loaded || r == .stopped || r == .exception

/-- The program check of a command has begun: its outcome follows at PGM_CHECK_DONE. -/
def State.mbxCheck (s : State) (ws : List (Nat × Word)) : State :=
  match s.expertWrites ws with
  | (.ok, s') => { s' with mbx := { s'.mbx with stage := 1 } }
  | (st, s') => s'.mbxEnd st.code

/-- The check that a mailbox command waits for has ended now. -/
def State.mbxChecked (s : State) : State :=
  if s.mbx.busy && s.mbx.stage == 1 then { s with mbx := { s.mbx with stage := 2, tick := s.now } } else s

/-- After its check a command starts the station `lead` ticks on, or ends with STATE when the program was refused. -/
def State.mbxStart (s : State) (n lead : Nat) (res : State → Nat → List Word) : State :=
  if s.fld Fields.PGM_STAT_RESULT 0 ≠ 0 then (s.results 0 (res s 0)).mbxEnd 6
  else
    let t := s.mbx.tick + lead
    s.mbxDo [(regAddr .SEQ_START_LO n, loWord t), (regAddr .SEQ_START_HI n, hiWord t), (regAddr .SEQ_CTL n, 1#32)] fun s => res s t

/-- STATION_RUN. -/
def State.mbxStationRun (s : State) : State :=
  let n := getBits (s.arg 0) 0 3
  let lead := (s.arg 1).toNat
  if s.mbxRuns 0x0A 2 then
    s.mbxStart n lead fun s t => [loWord t, hiWord t, s.readWord .PGM_SLACK 0, s.readWord .PGM_STAT 0]
  else
    s.mbxRun 0x0A fun s =>
      if lead < 64 then s.mbxEnd 3
      else if !s.stationIdle n then s.mbxEnd 6
      else
        s.mbxCheck [(regAddr .PGM_ADDR 0, s.withFields .PGM_ADDR 0 [(Fields.PGM_ADDR_STATION, n)]),
          (regAddr .PGM_LOAD 0, s.withFields .PGM_LOAD 0
            [(Fields.PGM_LOAD_MODE, getBits (s.arg 0) 8 1), (Fields.PGM_LOAD_KIND, 0)]),
          (regAddr .PGM_CMD 0, 1#32)]

/-- STATION_STOP. -/
def State.mbxStationStop (s : State) : State :=
  let n := (s.arg 0).toNat
  if 8 ≤ n then s.mbxEnd 3
  else s.mbxDo [(regAddr .SEQ_CTL n, 2#32)] fun s => [loWord s.now, hiWord s.now]

/-- The program of SWEEP: `count` hops from profile `b`, a dwell apart, `repeats` times or without end; HALT one dwell after the
last (R627). -/
def sweepProgram (b count repeats dwell : Nat) : List Word :=
  let i (op : QOp) : Word := QInstr.encode ⟨⟨false, 0#2⟩, op⟩
  let body : List QOp :=
    [.ldi 1#4 false (BitVec.ofNat 16 b), .ldlc 0#1 (.imm (BitVec.ofNat 16 count)), .swap 1#2 .s0 (.reg 1#4),
     .addi 1#4 1#4 1#15, .taddi 1#2 1#2 (BitVec.ofNat 19 dwell), .loop 0#1 4#14]
  let ops : List QOp := [.taddi 1#2 0#2 6000#19, .ldlc 1#1 (.imm (BitVec.ofNat 16 repeats))] ++ body
    ++ (if repeats = 0 then [.br .taken 2#14] else [.loop 1#1 2#14, .halt 1#2])
  ops.map i

/-- The words of a profile of SWEEP: coherent, at a setting, for the outputs of a mask. -/
def State.sweepProfile (s : State) (c : Nat) (x : Setting) (mask : Word) : List Word :=
  let (sub, band) := s.tableBand c x
  [BitVec.ofNat 32 x.num, BitVec.ofNat 32 x.den, BitVec.ofNat 32 (x.den / 2 ^ 32 * 2 ^ 16 + x.num / 2 ^ 32), 0, mask,
   BitVec.ofNat 32 (2 ^ 31 + sub * 2 ^ 24 + band * 2 ^ 16 + x.n * 2 ^ 8 + 255), 200#32, 0]

/-- The writes that store a profile (R204). -/
def profileWrites (p : Nat) (ws : List Word) : List (Nat × Word) :=
  [(regAddr .PROF_ADDR 0, BitVec.ofNat 32 p)] ++ (ws.zipIdx.map fun (w, k) => (regAddr .PROF_DATA k, w))
    ++ [(regAddr .PROF_CMD 0, 1#32)]

/-- The expert writes of SWEEP before its check (R627): the divider of each output, a profile for each frequency, the program, and
the check. -/
def State.sweepWrites (s : State) (n c d b : Nat) (fs : List Int) (mask : Word) (dwell repeats : Nat) : List (Nat × Word) :=
  let dsets := (bitsOf mask 32).map fun o =>
    (regAddr .OUT_DSET01 o, s.withFields .OUT_DSET01 o [(Fields.OUT_DSET01_D0, d), (Fields.OUT_DSET01_DBL0, 0)])
  let profs := (fs.zipIdx.map fun (f, k) =>
    profileWrites (b + k) (s.sweepProfile c (settingOf f.toNat d 1) mask)).flatten
  let prog := (regAddr .PGM_ADDR 0, BitVec.ofNat 32 (2 ^ 31 + n * 2 ^ 16))
    :: (sweepProgram b fs.length repeats dwell).map fun w => (regAddr .PGM_DATA 0, w)
  dsets ++ profs ++ prog ++ [(regAddr .PGM_LOAD 0, 0#32), (regAddr .PGM_CMD 0, 1#32)]

/-- SWEEP (R627). -/
def State.mbxSweep (s : State) : State :=
  let n := getBits (s.arg 0) 24 3
  let count := if getBits (s.arg 0) 0 12 = 0 then 4096 else getBits (s.arg 0) 0 12
  let mask := s.arg 1
  let first : Int := s.arg64 2
  let step : Int := (BitVec.ofNat 64 (s.arg64 4)).toInt
  let dwell := (s.arg 6).toNat
  let repeats := getBits (s.arg 7) 16 16
  let b := getBits (s.arg 7) 0 12
  let fs : List Int := (List.range count).map fun (k : Nat) => first + step * k
  let d? := if fs.all fun f => decide (0 < f) then leastDiv 1 (fs.map Int.toNat) else none
  let result (d : Nat) (t : Nat) : List Word := [loWord t, hiWord t, BitVec.ofNat 32 d, BitVec.ofNat 32 (b + count - 1)]
  if s.mbxRuns 0x09 2 then s.mbxStart n 64 fun _ t => result (d?.getD 0) t
  else
    s.mbxRun 0x09 fun s =>
      if dwell < 3000 ∨ 524287 < dwell ∨ 4095 < b + count - 1 then s.mbxEnd 3
      else if s.stnMode n ≠ 1 ∨ s.mapMeets n = false ∨ mask &&& ~~~(s.reg .STN_OUTMASK n) ≠ 0 then s.mbxEnd 3
      else if !s.stationIdle n then s.mbxEnd 6
      else if (List.range count).any fun k => s.referenced (b + k) then s.mbxEnd 1
      else
        match d?, s.slot n 0 with
        | some d, some c => s.mbxCheck (s.sweepWrites n c d b fs mask dwell repeats)
        | _, _ => s.mbxEnd mbxNoFit

/-! ### CAL, SAVE and POWER -/

/-- CAL: 0 run, 1 export, 2 import, 3 commit. -/
def State.mbxCal (s : State) : State :=
  let op := (s.arg 0).toNat
  let g := (s.arg 1).toNat
  let cmd (w : Word) : Nat × Word := (regAddr .CAL_CMD 0, w)
  let run (k : Nat) : List (Nat × Word) := [(regAddr .CAL_GSEL 0, BitVec.ofNat 32 k), cmd 0x80000000#32]
  let ends (w : Word) : State :=
    match s.expertWrites [cmd w] with
    | (.ok, s') =>
      let r := s'.fld Fields.CAL_IMGSTAT_RESULT 0
      (s'.results 0 [s'.readWord .CAL_IMGSTAT 0]).mbxEnd (if r = 0 then 0 else if r = 1 then 1 else 6)
    | (st, s') => s'.mbxEnd st.code
  match op with
  | 0 =>
    if g = 255 then
      s.mbxDo (((List.range 60).filter fun k => (s.grp k).due).map run).flatten fun s => [s.readWord .CAL_GSTAT 0]
    else if 60 ≤ g then s.mbxEnd 3
    else s.mbxDo (run g) fun s => [s.readWord .CAL_GSTAT 0]
  | 1 => ends 0x40000000#32
  | 2 => ends 0x20000000#32
  | 3 => ends 0x10000000#32
  | _ => s.mbxEnd 3

/-- SAVE. -/
def State.mbxSave (s : State) : State := s.mbxDo [(regAddr .STORE_CMD 0, 0xA5000001#32)] fun s => [s.readWord .STORE_STAT 0]

/-- POWER. -/
def State.mbxPower (s : State) : State :=
  let t := (s.arg 0).toNat
  if 3 < t then s.mbxEnd 3
  else s.mbxDo [(regAddr .PWR_CMD 0, 0xA5000000#32 ||| BitVec.ofNat 32 t)] fun s => [s.readWord .PWR_STATE 0]

/-! ## Boundary scan (R637) -/

/-- Bits [31:12] of the IDCODE that boundary scan reads: GLB_ID.REVISION and 0x8840 (spec/17); the spec does not give bits [11:0]. -/
def State.idcode (s : State) : BitVec 20 := BitVec.ofNat 20 (getBits (s.readWord .GLB_ID 0) Fields.GLB_ID_REVISION.lo 4 * 2 ^ 16 + 0x8840)

/-- EXTEST takes the balls from their functions, with TRST_N high. -/
def State.extest (s : State) : State := { s with pins := { s.pins with extest := true } }

end Sys2Proof.Machine
end

