-- ==== Sys2Proof/Machine/Admit.lean ====
section
/-! DEFINITION. When the rows of the operation table are admitted, and the happenings of detectors that no other file
holds. A command that its guard does not admit leaves the state unchanged. -/

namespace Sys2Proof.Machine

/-! ## Admission -/

/-- The device runs: powered, started, and not HALTED (R490, R523, R539). -/
def State.up (s : State) : Bool := s.pins.aon && !s.halted && (s.power == 2 || s.power == 3) && s.startStage == 6

/-- What a detector or a timed happening does while the device runs. -/
def State.detector (s : State) (f : State → State) : State := if s.up then f s else s

/-- Fault windows react: from STANDBY on, starts and RECOVERY included (R501, R523, Table 12.5). -/
def State.reacts (s : State) : Bool := s.pins.aon && !s.halted && decide (2 ≤ s.power)

/-- The management processor runs: it is not under reset or reload (R509). -/
def State.mgmtRuns (s : State) : Bool := s.reacts && !s.reloads.contains 0

/-- What the calibration engine does while it is not being reloaded (R466). -/
def State.engine (s : State) (f : State → State) : State := if s.up && !s.reloads.contains 2 then f s else s

/-- A command register's bit, and a keyed command word (R22). -/
def cmdBit (n : Nat) : Word := BitVec.ofNat 32 (2 ^ n)
def keyed (n : Nat) : Word := BitVec.ofNat 32 (0xA5000000 + n)

/-- The address of a word of a fault window. -/
def fltAddr (w off : Nat) : Nat := windowAddr (windowOf w).1 (windowOf w).2 + off

/-! ## The timeline -/

/-- What a stamp of the tick before releases now (R42). -/
def State.applyLater (s : State) (l : Later) : State :=
  match l with
  | .core c q => s.coreLost c q
  | .unsteered a f r => if s.primary == some a then s.primaryUnsteered a f r else s
  | .inner a r f => s.innerGone a r f
  | .short o => s.modOut o fun x => { x with shorted := true, shortAt := some s.elapsed }

/-- Everything that the stamps of the tick before release, in the order of the stamps. -/
def State.applyLaters (s : State) : State :=
  let l := s.later
  let s := { s with later := [] }
  if s.up then l.foldl State.applyLater s else s

/-- The host writes that came after the sequencer effects of the tick before are released (R57). -/
def State.releaseHeld (s : State) : State :=
  s.heldWrites.foldl (fun s (addr, w) => s.portWrite addr w) { s with heldWrites := [] }

/-- Reason OFF of an output ends at the tick after its domain is ready (Table 8.2). -/
def State.outOn (s : State) (o : Nat) : State :=
  match (s.out o).readyAt with
  | some t =>
    if t ≤ s.elapsed then (s.modOut o fun x => { x with domainOn := true, readyAt := none, driveAt := s.elapsed }).outBoundary o else s
  | none => s

/-- The end of a tick: races start, outputs take what they follow, raster channels watch their monitored outputs, and the
calibration groups in use are noted. -/
def State.settle (s : State) : State :=
  ((s.startRaces.each (List.range 32) State.settleOut).each [0, 1] State.rasWatch).each (List.range 8) State.calUses

/-- What the tick moves (R23, R42, R379, R405), once the outputs have taken what they follow: nothing while VDD_AON is down. -/
def State.clock (s : State) (align : Int) (upset : Count) (steerA steerB perrA perrB : Int) (edges : List CoreEdge) : State :=
  if s.pins.aon then
    let s := s.settle.tick align upset steerA steerB perrA perrB edges
    (((s.each (List.range 32) State.outOn).applyLaters.releaseHeld).lanesTick).laneRestart
  else s

/-- The arming window closes at k_a + 1,000·w (R177). -/
def State.syncWindowClose (s : State) : State :=
  match s.sync with
  | some w =>
    match w.closesAt with
    | some t => if t ≤ s.elapsed then { s with sync := none } else s
    | none => s
  | none => s

/-- An edge of a trigger input (R306, R307): its event goes to every station that enables the source (R252). -/
def State.trigEdge (s : State) (n width : Nat) : State :=
  s.detector fun s => s.qualify n width fun s => s.each (List.range 8) fun s k => s.postEvent k ⟨n, s.now, 0⟩

/-- The fence of a rearmed input ends (R309). -/
def State.trigFenceEnd (s : State) (n : Nat) : State :=
  s.detector fun s =>
    if (s.trig n).rearm then
      ((s.modTrig n fun t => { t with rearm := false, lastAt := none, activeTo := 0, held := false }).setFld
        Fields.TRIG_STAT_FENCED n 0).endLapses fun l => l.ends == .trig n
    else s

/-! ## Anchors -/

/-- ANC_LOCKCFG: the inner window in 0.1 ps and the inner lock count in XO cycles, the outer window in 0.1 ps and the outer lock
count in comparisons; 0 is taken as 1. -/
def State.innerWindow (s : State) (a : Nat) : Nat := s.fld1 Fields.ANC_LOCKCFG_IWIN a * 10
def State.innerCount (s : State) (a : Nat) : Nat := s.fld1 Fields.ANC_LOCKCFG_ICNT a * 64
def State.outerWindow (s : State) (a : Nat) : Nat := s.fld1 Fields.ANC_LOCKCFG_OWIN a * 100
def State.outerCount (s : State) (a : Nat) : Nat := s.fld1 Fields.ANC_LOCKCFG_OCNT a * 1024

/-- An anchor declares inner lock (R74, R95): it acquires, or its detector runs in FAILED, and over the last `cycles` XO cycles the
inner phase error was never above `worst` 0.1 ps. -/
def State.innerLockAdmitted (s : State) (a cycles worst : Nat) : Bool :=
  ((s.anc a).state == .innerAcq || (s.anc a).state == .failed) && !(s.anc a).inner
    && decide (worst ≤ s.innerWindow a) && decide (s.innerCount a ≤ cycles)

/-- An anchor loses inner lock (R74): over the last `cycles` XO cycles the inner phase error was never below `least` 0.1 ps. -/
def State.innerLossAdmitted (s : State) (a cycles least : Nat) : Bool :=
  decide (s.innerWindow a < least) && decide (8 ≤ cycles)

/-- An anchor declares outer lock (R71, R75, R103): the primary in OUTER_ACQ or the secondary against its standby reference, that
reference qualified, with a TDC, its steering short of the limit, and over the last `comparisons`, of which ANC_PERR holds the last, the outer
phase error never more than `worst` 0.1 ps from the phase it steers to. -/
def State.outerLockAdmitted (s : State) (a comparisons worst : Nat) : Bool :=
  let x := s.anc a
  ((s.primary == some a && x.state == .outerAcq) || (x.state == .following && !x.outer)) && s.mayAcquire a
    && !s.atSteerLimit a && decide (worst ≤ s.outerWindow a) && decide (s.outerDistance a ≤ worst) && decide (s.outerCount a ≤ comparisons)

/-- An anchor loses outer lock (R70, R75): its steering is at the limit, or over the last `comparisons` the outer phase error was
never less than `least` 0.1 ps from the phase it steers to. -/
def State.outerLossAdmitted (s : State) (a comparisons least : Nat) : Bool :=
  s.atSteerLimit a || (decide (s.outerWindow a < least) && decide (least ≤ s.outerDistance a) && decide (16 ≤ comparisons))

/-- The one exchange at start that honours PRIMARY_INIT (R80). -/
def State.primaryInitExchange (s : State) : State :=
  match s.primary with
  | some p =>
    if s.dual && !s.initDone && p != s.fld Fields.ANC_GLOBAL_PRIMARY_INIT 0 && s.ancReady (otherAnc p) then
      { s.swapRoles with initDone := true }
    else s
  | none => s

/-- The alignment exceeds TRIP (R85): the secondary freezes its steering until the case is settled; a lock or reference event of
the same tick settles it at once (Table 2.4). -/
def State.alignExceeded (s : State) : State :=
  match s.follower, s.alignOver with
  | some _, none =>
    if s.alignTrip < (intOfWord (s.reg .ANC_ALIGN 0)).natAbs && s.ancEventAt != some s.elapsed then
      { s with alignOver := some s.elapsed }
    else s
  | _, _ => s

/-- 1,000 ticks after that with no lock or reference event, ALIGN_TRIP is stamped (Table 2.4); its reaction fails the secondary. -/
def State.alignTripped (s : State) : State :=
  match s.alignOver with
  | some t => if t + 1000 ≤ s.elapsed then { s with alignOver := none }.raiseEvent Src.anc_ALIGN_TRIP 0 else s
  | none => s

/-- The automatic return of a FAILED anchor is due (R95); it waits for the end of a transfer (R93). -/
def State.autoRejoinDue (s : State) (a : Nat) : Bool :=
  s.flag Fields.ANC_CFG_AUTOREJOIN a && (s.anc a).state == .failed && (s.anc a).inner && s.refOk (s.selRef a)
    && s.transfer.isNone

/-- The two outer TDCs of an anchor differ on 4 consecutive checks (R102, R104): steering freezes and the check starts. -/
def State.tdcXcheckFail (s : State) (a : Nat) : State :=
  let x := s.anc a
  if x.hasTick && x.tdcActive && x.tdcSpare && !x.tdcChecking then
    s.modAnc a fun x => { x with tdcChecking := true }
  else s

/-! ## Cores -/

/-- Band selection of a core may end: it is in SELECT, was not left there by BAND_RANGE, and its anchor ticks. -/
def State.bandAdmitted (s : State) (c : Nat) : Bool :=
  (s.core c).state == .select && (s.core c).steps == 0 && (s.anc (s.ancOf c)).hasTick

/-- Fast lock ends: the loop returns to its coded bandwidth and the lock count starts (R119). -/
def State.fastLockEnd (s : State) (c : Nat) : State :=
  match (s.core c).fastUntil with
  | some t =>
    if (s.core c).state == .acquire && decide (t ≤ s.elapsed) then
      s.modCore c fun x => { x with fastUntil := none, countFrom := some t }
    else s
  | none => s

/-- A racing spare has run 32,768 ticks without lock and returns to IDLE (R134). DESIGN CHOICE (log entry 85): no row of Table 3.9
says what follows when its failing core has been fenced meanwhile; no spare comes in, and nothing is raised for it. -/
def State.raceTimeout (s : State) (c : Nat) : State :=
  match (s.core c).racingFor with
  | some n => if (s.core c).state != .locked && decide ((s.core c).acqAt + 32768 ≤ s.elapsed) then s.endRace n else s
  | none => s

/-- The ungate hold after lock ends (R129): the outputs of the core ungate on their grid, a raster cold change ends, and so do
the lapses and the transfer that waited for the core (R4, R87). -/
def State.ungateHoldEnd (s : State) (c : Nat) : State :=
  match (s.core c).lockAt with
  | some t =>
    if (s.core c).state == .locked && !(s.core c).holdDone && decide (t + s.fld Fields.CORE_CFG_UGHOLD c * 64 ≤ s.elapsed) then
      let s := s.modCore c fun x => { x with holdDone := true }
      let s := ((s.endLapses fun l => l.ends == .core c).endAnchorLapses).rasColdEnd c
      (s.each (s.outsOf c) State.outBoundary).finishTransfer
    else s
  | none => s

/-- The core TDC has failed two checks in a row while its loop is closed (R140). -/
def State.coreTdcCheck (s : State) (c : Nat) : State :=
  if ((s.core c).state == .acquire || (s.core c).state == .locked) && decide (2 ≤ (s.core c).tdcFails) then
    (s.raiseEvent (Src.core_TDC_CHECK c) 0).modCore c fun x => { x with tdcFails := 1 }
  else s

/-- A parity error in a core's modulator accumulator or applied setting (Table 3.10). -/
def State.coreParity (s : State) (c : Nat) : State :=
  if (s.core c).state == .off || (s.core c).state == .fenced then s else s.raiseEvent (Src.core_STATE_PARITY c) 0

/-- The reassignment of a spare completes (R148): it takes the fenced core's place and acquires cold in TABLE mode from the
next tick. -/
def State.reassignDone (s : State) (k : Nat) : State :=
  match (s.core k).reassign with
  | some c =>
    (s.takeOver c k (s.core c).fencedRole (s.core c).station).startAcq k true .table (s.elapsed + 1)
  | none => s

/-! ## Outputs -/

/-- An output's domain becomes ready (R335): reason OFF ends at the next tick. -/
def State.outReady (s : State) (o : Nat) : State :=
  match (s.out o).readyAt with
  | some t => s.modOut o fun x => { x with readyAt := some (min t (s.elapsed + 1)) }
  | none => s

/-- The pending change of a raster channel is due (R356). -/
def State.rasApplyDue (s : State) (r : Nat) : State :=
  match (s.rasCh r).applyAt with
  | some t => if t ≤ s.elapsed then s.rasApply r else s
  | none => s

/-! ## Lanes -/

/-- A message of class 2 or 3 delivered locally (R413, R575). -/
def State.localMessage (lane : Nat) (s : State) (cls : Nat) (b : Body) : State :=
  if cls = 2 then s.mgmtReceive lane b else s.class3Receive b

/-- The slice that serves a lane fails its self-check (R406). -/
def State.sliceCheck (s : State) (n : Nat) : State :=
  if (s.lane n).state == .off then s else s.raiseEvent (Src.lane_SLICE_CHECK n) 0

/-! ## Fault windows -/

/-- A write of FLT_DATA while FLT_SEL names an item. -/
def State.fltItemWrite (s : State) (w item : Nat) (d : Word) : State :=
  if (s.win w).selItem = item then s.portWrite (fltAddr w 12) d else s

/-- A read of FLT_DATA while FLT_SEL names word 0 of a tally entry (R527). -/
def State.tallyRead (s : State) (w : Nat) : State :=
  let i := (s.win w).selItem
  if 16 ≤ i ∧ i < 80 ∧ (i - 16) % 4 = 0 then s.portRead (fltAddr w 12) else s

end Sys2Proof.Machine
end

