-- ==== Sys2Proof/Machine/AnchorRows.lean ====
section
/-! DEFINITION. The rows of the operation table for references and anchors (spec/02). -/

namespace Sys2Proof.Machine

/-- REF_MISSING_EDGE (R63): No reference edge for MISS nominal periods stamps a missing-edge event and disqualifies the reference. -/
def execRefMissingEdge (at_ : RefQuiet) (s : State) : Host.Outcome State Fault Refusal :=
  .next (s.detector fun s => if s.flag Fields.REF_CFG_EN at_.ref.val && s.edgeMissing at_.ref.val at_.quiet then s.refMissing at_.ref.val else s)

/-- REF_GATE_END (R64): At the end of a frequency-window gate the reference is disqualified, kept, or requalified. `offset` is the measured frequency offset in 0.01 ppm. -/
def execRefGateEnd (ref : Fin 5) (offset : Int) (s : State) : Host.Outcome State Fault Refusal :=
  .next (s.detector fun s => if s.flag Fields.REF_CFG_EN ref.val then s.refGate ref.val offset else s)

/-- ANC_INNER_LOCK (R74): An anchor declares inner lock; its tick starts and, first at start, it becomes primary and starts the count. The error is the inner phase error. -/
def execAncInnerLock (seen : AncSeen) (s : State) : Host.Outcome State Fault Refusal :=
  .next (s.detector fun s => if s.innerLockAdmitted seen.anc.val seen.number seen.error then s.ancInnerLock seen.anc.val else s)

/-- ANC_INNER_LOSS (R74): An anchor loses inner lock and the engine reacts as Table 2.4 gives. The error is the inner phase error. -/
def execAncInnerLoss (seen : AncSeen) (s : State) : Host.Outcome State Fault Refusal :=
  .next (s.detector fun s => if s.innerLossAdmitted seen.anc.val seen.number seen.error then s.ancInnerLoss seen.anc.val else s)

/-- ANC_OUTER_LOCK (R75): An anchor declares outer lock and switches to its tracking bandwidth. The error is the distance of the outer phase error from the phase steered to. -/
def execAncOuterLock (seen : AncSeen) (s : State) : Host.Outcome State Fault Refusal :=
  .next (s.detector fun s => if s.outerLockAdmitted seen.anc.val seen.number seen.error then s.ancOuterLock seen.anc.val else s)

/-- ANC_OUTER_LOSS (R75): An anchor loses outer lock, or reaches its steering limit, and the engine reacts as Table 2.4 gives. The error is the distance of the outer phase error from the phase steered to. -/
def execAncOuterLoss (seen : AncSeen) (s : State) : Host.Outcome State Fault Refusal :=
  .next (s.detector fun s => if s.outerLossAdmitted seen.anc.val seen.number seen.error then s.ancOuterLoss seen.anc.val else s)

/-- PRIMARY_INIT_EXCHANGE (R80): At the first tick the secondary is ready, the roles are exchanged once to honour PRIMARY_INIT. -/
def execPrimaryInitExchange (s : State) : Host.Outcome State Fault Refusal :=
  .next (s.detector State.primaryInitExchange)

/-- ALIGN_EXCEEDED (R85): Alignment exceeds TRIP and the secondary freezes its steering. -/
def execAlignExceeded (s : State) : Host.Outcome State Fault Refusal :=
  .next (s.detector State.alignExceeded)

/-- ALIGN_TRIP (R84): With no lock or reference event within 1,000 ticks, ALIGN_TRIP is stamped and the secondary goes to FAILED. -/
def execAlignTrip (s : State) : Host.Outcome State Fault Refusal :=
  .next (s.detector State.alignTripped)

/-- ANC_SWAP (R99): A write of ANC_CMD.SWAP exchanges primary and secondary, or sets CMDERR when the secondary is not ready. -/
def execAncSwap (s : State) : Host.Outcome State Fault Refusal :=
  .next (s.portWrite (regAddr .ANC_CMD 0) (cmdBit 0))

/-- ANC_REJOIN (R95): A write of REJOIN_A or REJOIN_B returns a FAILED anchor as secondary. -/
def execAncRejoin (anc : Fin 2) (s : State) : Host.Outcome State Fault Refusal :=
  .next (s.portWrite (regAddr .ANC_CMD 0) (cmdBit (1 + anc.val)))

/-- ANC_AUTOREJOIN (R95): With AUTOREJOIN set, a FAILED anchor returns once inner lock holds and its reference is qualified. -/
def execAncAutorejoin (anc : Fin 2) (s : State) : Host.Outcome State Fault Refusal :=
  .next (s.detector fun s => if s.autoRejoinDue anc.val then s.rejoin anc.val else s)

/-- ANC_ENABLE (R101): A write of ANC_CFG.EN = 1 powers an anchor, which acquires inner lock. -/
def execAncEnable (anc : Fin 2) (s : State) : Host.Outcome State Fault Refusal :=
  .next (s.portWrite (regAddr .ANC_CFG anc.val) (setBit (s.reg .ANC_CFG anc.val) 0 true))

/-- ANC_DISABLE (R101): A write of ANC_CFG.EN = 0 moves the anchor's role and cores away and takes it to OFF. -/
def execAncDisable (anc : Fin 2) (s : State) : Host.Outcome State Fault Refusal :=
  .next (s.portWrite (regAddr .ANC_CFG anc.val) (setBit (s.reg .ANC_CFG anc.val) 0 false))

/-- ANC_COREMAP_WRITE (R97): A write to ANC_COREMAP switches cores between anchors, with or without gating. -/
def execAncCoremapWrite (data : Word) (s : State) : Host.Outcome State Fault Refusal :=
  .next (s.portWrite (regAddr .ANC_COREMAP 0) data)

/-- ANC_TDC_XCHECK_FAIL (R102): Active and spare outer TDCs differ on 4 consecutive checks; steering freezes and a check starts. -/
def execAncTdcXcheckFail (anc : Fin 2) (s : State) : Host.Outcome State Fault Refusal :=
  .next (s.detector fun s => s.tdcXcheckFail anc.val)

/-- ANC_TDC_CHECK_DONE (R102): The check against the delay reference ends, fencing the failing TDC or both. -/
def execAncTdcCheckDone (anc : Fin 2) (activeBad spareBad : Bool) (s : State) : Host.Outcome State Fault Refusal :=
  .next (s.detector fun s => if (s.anc anc.val).tdcChecking then s.tdcCheckDone anc.val activeBad spareBad else s)

/-- ANC_TDC_SINGLE_FAIL (R657): The only remaining outer TDC fails its reference check 4 times; it is fenced and outer lock is lost. -/
def execAncTdcSingleFail (anc : Fin 2) (s : State) : Host.Outcome State Fault Refusal :=
  .next (s.detector fun s => if (s.anc anc.val).tdcActive != (s.anc anc.val).tdcSpare then s.tdcSingleFail anc.val else s)

end Sys2Proof.Machine
end

