-- ==== Sys2Proof/Machine/CalRows.lean ====
section
/-! DEFINITION. The rows of the operation table for calibration (spec/11). -/

namespace Sys2Proof.Machine

/-- CAL_TEMP_INJECT (R439): Every 10 ms the calibration engine injects a conversion of a group's unscanned temperature channel. -/
def execCalTempInject (group : Fin 60) (s : State) : Host.Outcome State Fault Refusal :=
  .next (s.engine fun s => s.calInject group.val)

/-- CAL_RUN_START (R443): For a due group the engine starts a measured run when the unit is available, otherwise a model run. -/
def execCalRunStart (group : Fin 60) (s : State) : Host.Outcome State Fault Refusal :=
  .next (s.engine fun s => s.calRunStart group.val)

/-- CAL_RUN_COMPLETE (R445): A measured run completes and its scratch values replace the group's values. `meas` are the quantities the run measured, in the units of Table 11.2. -/
def execCalRunComplete (group : Fin 60) (meas : List Int) (s : State) : Host.Outcome State Fault Refusal :=
  .next (s.engine fun s => s.calRunComplete group.val meas)

/-- CAL_VALUES_APPLY (R448): New trim values take effect in a unit at its next boundary. -/
def execCalValuesApply (group : Fin 60) (s : State) : Host.Outcome State Fault Refusal :=
  .next (s.engine fun s => s.calApply group.val)

/-- CAL_REF_TIMEOUT (R436): REFCAL stays unqualified for REFTO × 10 ms; the run ends NOREF. -/
def execCalRefTimeout (group : Fin 60) (s : State) : Host.Outcome State Fault Refusal :=
  .next (s.engine fun s => s.calRefTimeout group.val)

/-- CAL_STARVED (R447): A group stays due for STARVE × 10 ms and STARVED is raised. -/
def execCalStarved (group : Fin 60) (s : State) : Host.Outcome State Fault Refusal :=
  .next (s.engine fun s => s.calStarved group.val)

/-- CAL_RUN (R433): A write of CAL_CMD.RUN requests a measured run of the selected group. -/
def execCalRun (s : State) : Host.Outcome State Fault Refusal :=
  .next (s.portWrite (regAddr .CAL_CMD 0) (cmdBit 31))

/-- CAL_EXPORT (R459): A write of CAL_CMD.EXPORT fills the image buffer. -/
def execCalExport (s : State) : Host.Outcome State Fault Refusal :=
  .next (s.portWrite (regAddr .CAL_CMD 0) (cmdBit 30))

/-- CAL_IMPORT (R460): A write of CAL_CMD.IMPORT checks and takes the image in the buffer. -/
def execCalImport (s : State) : Host.Outcome State Fault Refusal :=
  .next (s.portWrite (regAddr .CAL_CMD 0) (cmdBit 29))

/-- CAL_COMMIT (R462): A write of CAL_CMD.COMMIT commits a calibration image to the ledger. -/
def execCalCommit (s : State) : Host.Outcome State Fault Refusal :=
  .next (s.portWrite (regAddr .CAL_CMD 0) (cmdBit 28))

/-- CAL_ABORT (R445): A write of CAL_CMD.ABORT abandons the selected group's run. -/
def execCalAbort (s : State) : Host.Outcome State Fault Refusal :=
  .next (s.portWrite (regAddr .CAL_CMD 0) (cmdBit 27))

/-- CAL_TDATA_WRITE (R456): A host write of CAL_TDATA sets a trim value word and HOSTSET. -/
def execCalTdataWrite (data : Word) (s : State) : Host.Outcome State Fault Refusal :=
  .next (s.portWrite (regAddr .CAL_TDATA 0) data)

/-- ENGINE_CHECK (R466): The calibration engine fails its self-check, its runs are abandoned and the management processor reloads it. -/
def execEngineCheck (s : State) : Host.Outcome State Fault Refusal :=
  .next (s.engine fun s => s.engineCheck.beginReload 2)

end Sys2Proof.Machine
end

