-- ==== Sys2Proof/Machine/CoreRows.lean ====
section
/-! DEFINITION. The rows of the operation table for the synthesis cores (spec/03). -/

namespace Sys2Proof.Machine

/-- CORE_APPLY (R142): A write of CORE_CMD.APPLY checks the staged setting, gates the outputs and starts an acquisition. -/
def execCoreApply (core : Fin 26) (s : State) : Host.Outcome State Fault Refusal :=
  .next (s.portWrite (regAddr .CORE_CMD core.val) (cmdBit 0))

/-- CORE_RELOCK (R144): A write of CORE_CMD.RELOCK starts a warm or cold acquisition. -/
def execCoreRelock (core : Fin 26) (s : State) : Host.Outcome State Fault Refusal :=
  .next (s.portWrite (regAddr .CORE_CMD core.val) (cmdBit 1))

/-- CORE_SEARCH (R144): A write of CORE_CMD.SEARCH starts a cold acquisition in SEARCH mode. -/
def execCoreSearch (core : Fin 26) (s : State) : Host.Outcome State Fault Refusal :=
  .next (s.portWrite (regAddr .CORE_CMD core.val) (cmdBit 2))

/-- CORE_SPAREMAP_WRITE (R107): A write to CORE_SPAREMAP names the spare cores while no station runs. -/
def execCoreSparemapWrite (data : Word) (s : State) : Host.Outcome State Fault Refusal :=
  .next (s.portWrite (regAddr .CORE_SPAREMAP 0) data)

/-- BAND_SELECT_DONE (R121): Band selection ends, the loop closes on the chosen band and the modulator seed is loaded. -/
def execBandSelectDone (core : Fin 26) (s : State) : Host.Outcome State Fault Refusal :=
  .next (s.detector fun s => if s.bandAdmitted core.val then s.bandDone core.val else s)

/-- FASTLOCK_END (R119): After FLTIME × 128 ns the loop returns to its coded bandwidth and the lock count starts. -/
def execFastlockEnd (core : Fin 26) (s : State) : Host.Outcome State Fault Refusal :=
  .next (s.detector fun s => s.fastLockEnd core.val)

/-- CORE_LOCK (R126): The lock count reaches LCNT; the core declares lock and stamps a lock event. `vtune` is the tuning voltage in mV at lock. -/
def execCoreLock (core : Fin 26) (vtune : BitVec 12) (s : State) : Host.Outcome State Fault Refusal :=
  .next (s.detector fun s => if s.lockAdmitted core.val then s.coreLock core.val vtune.toNat else s)

/-- CORE_LOCK_LOSS (R126): The loss count reaches M; the core declares loss, gates its outputs and may relock and race a spare. -/
def execCoreLockLoss (core : Fin 26) (s : State) : Host.Outcome State Fault Refusal :=
  .next (s.detector fun s => if s.lossAdmitted core.val then s.coreLoss core.val else s)

/-- ACQ_TIMEOUT (R131): An acquisition without lock after 32,768 ticks restarts in SEARCH mode or raises NO_LOCK. -/
def execAcqTimeout (core : Fin 26) (s : State) : Host.Outcome State Fault Refusal :=
  .next (s.detector fun s => if s.timeoutAdmitted core.val then s.acqTimeout core.val else s)

/-- RACE_TIMEOUT (R134): A racing spare reaches 32,768 ticks without lock and returns to IDLE. `core` is the racing spare. -/
def execRaceTimeout (core : Fin 26) (s : State) : Host.Outcome State Fault Refusal :=
  .next (s.detector fun s => s.raceTimeout core.val)

/-- UNGATE_HOLD_END (R129): The ungate hold after lock ends and the outputs ungate on their grid. -/
def execUngateHoldEnd (core : Fin 26) (s : State) : Host.Outcome State Fault Refusal :=
  .next (s.detector fun s => s.ungateHoldEnd core.val)

/-- TDC_CHECK (R140): The core TDC fails its delay-reference check twice and TDC_CHECK is raised. -/
def execTdcCheck (core : Fin 26) (s : State) : Host.Outcome State Fault Refusal :=
  .next (s.detector fun s => s.coreTdcCheck core.val)

/-- STATE_PARITY (R152): A parity error in a modulator accumulator or applied setting raises STATE_PARITY. -/
def execStateParity (core : Fin 26) (s : State) : Host.Outcome State Fault Refusal :=
  .next (s.detector fun s => s.coreParity core.val)

/-- SPARE_REASSIGN_DONE (R148): The reassignment of a spare completes and the spare starts a cold acquisition on the fenced core's setting. `core` is the spare. -/
def execSpareReassignDone (core : Fin 26) (s : State) : Host.Outcome State Fault Refusal :=
  .next (s.detector fun s => s.reassignDone core.val)

end Sys2Proof.Machine
end

