-- ==== Sys2Proof/Machine/FaultRows.lean ====
section
/-! DEFINITION. The rows of the operation table for faults (spec/13). -/

namespace Sys2Proof.Machine

/-- FAULT_REACTION (R508): At the tick after a raise's stamp the fault takes the reaction of its effective class. Every raise stamped before the present tick takes its reaction, in the order of R508. -/
def execFaultReaction (s : State) : Host.Outcome State Fault Refusal :=
  .next (if s.reacts then s.faultReaction else s)

/-- GRACE_EXPIRE (R515): An unacknowledged GRACE fault's timer expires and the fault becomes class 2. -/
def execGraceExpire (s : State) : Host.Outcome State Fault Refusal :=
  .next (if s.reacts then s.graceExpire else s)

/-- CWIN_END (R519): A consequence window ends and suppressed level sources still live raise. -/
def execCwinEnd (s : State) : Host.Outcome State Fault Refusal :=
  .next (if s.reacts then s.cwinEnd else s)

/-- FAULT_ACK (R512): A W1C write of FLT_STAT acknowledges the fault of each bit written. -/
def execFaultAck (win : Fin 97) (data : Word) (s : State) : Host.Outcome State Fault Refusal :=
  .next (s.portWrite (fltAddr win.val 4) data)

/-- FLT_FORCE_WRITE (R505): An armed write of FLT_FORCE makes detectors read as asserting. -/
def execFltForceWrite (win : Fin 97) (data : Word) (s : State) : Host.Outcome State Fault Refusal :=
  .next (s.fltItemWrite win.val 2 data)

/-- FLT_INJ_WRITE (R506): An armed write of FLT_INJ inverts check bits at the source's next check. -/
def execFltInjWrite (win : Fin 97) (data : Word) (s : State) : Host.Outcome State Fault Refusal :=
  .next (s.fltItemWrite win.val 3 data)

/-- INJECTED_CHECK (R506): The next check of an injected source uses inverted check bits and raises its fault. `entries` are what the checked row or result holds, `store` the station of a program store. -/
def execInjectedCheck (win : Fin 97) (bit : Fin 32) (entries : List Nat) (store : Fin 8) (s : State) : Host.Outcome State Fault Refusal :=
  .next (if s.reacts then s.injectedCheck ⟨(windowOf win.val).1, (windowOf win.val).2, bit.val⟩ entries store.val else s)

/-- TALLY_READ (R527): A read of word 0 of a tally entry latches words 1–3. -/
def execTallyRead (win : Fin 97) (s : State) : Host.Outcome State Fault Refusal :=
  .next (s.tallyRead win.val)

/-- MGMT_CHECK (R531): The management processor's duplicate execution mismatches and it restarts. -/
def execMgmtCheck (s : State) : Host.Outcome State Fault Refusal :=
  .next (if s.reacts && s.mgmtRuns then s.mgmtRestart Src.glb_MGMT_CHECK else s)

/-- MGMT_WATCHDOG (R531): The management firmware does not serve its watchdog for 100 ms and the processor restarts. -/
def execMgmtWatchdog (s : State) : Host.Outcome State Fault Refusal :=
  .next (if s.reacts && s.mgmtRuns then s.mgmtRestart Src.glb_MGMT_WATCHDOG else s)

/-- RELOAD_DONE (R509): A reset or reload of a processor completes and a RELOAD record is written. 0 management processor, 1 lane controllers, 2 calibration engine, 3 barrow. -/
def execReloadDone (unit : Fin 4) (s : State) : Host.Outcome State Fault Refusal :=
  .next (if s.reacts then s.reloadDone unit.val else s)

/-- SUPPLY_UV (R531): A rail lies below 92 % of nominal for 1 µs. `low` tells whether a rail lies below the limit. -/
def execSupplyUv (low : Bool) (s : State) : Host.Outcome State Fault Refusal :=
  .next (if s.reacts then s.setLevel Src.glb_SUPPLY_UV 0 low else s)

/-- CFG_PARITY (R531): A parity error is found in a configuration register or fault window. -/
def execCfgParity (s : State) : Host.Outcome State Fault Refusal :=
  .next (if s.reacts then s.raiseEvent Src.glb_CFG_PARITY 0 else s)

/-- RELEASE_CHECK (R531): The release stage's duplicate check mismatches. -/
def execReleaseCheck (s : State) : Host.Outcome State Fault Refusal :=
  .next (s.detector fun s => s.raiseEvent Src.glb_RELEASE_CHECK 0)

/-- ECC_UNCORR (R509): An uncorrectable error in a store row replaces the row with a spare row. `store` is 0 for the profile store, 1 to 8 for a station's program store, 9 for the flow tables; `entries` are what the row holds. -/
def execEccUncorr (store : Fin 10) (entries : List Nat) (s : State) : Host.Outcome State Fault Refusal :=
  .next (if s.reacts then s.eccUncorr store.val entries else s)

/-- LANECTL_CHECK (R531): A lane controller fails its self-check and is reloaded by the management processor. -/
def execLanectlCheck (s : State) : Host.Outcome State Fault Refusal :=
  .next (s.detector fun s => (s.raiseEvent Src.glb_LANECTL_CHECK 0).beginReload 1)

/-- FW_CHECK (R496): The barrow fails its self-check and the management processor reloads it under R487. -/
def execFwCheck (s : State) : Host.Outcome State Fault Refusal :=
  .next (if s.reacts then (s.raiseEvent Src.bar_FW_CHECK 0).beginReload 3 else s)

end Sys2Proof.Machine
end

