-- ==== Sys2Proof/Machine/FleetRows.lean ====
section
/-! DEFINITION. The rows of the operation table for fleet consistency (spec/10). -/

namespace Sys2Proof.Machine

/-- READ (R414): A remote READ is served as a host-port read and answered with a RESP. The message is the oldest delivered to the management processor. -/
def execRemRead (s : State) : Host.Outcome State Fault Refusal :=
  .next (if s.mgmtRuns then s.handle 1 State.remoteRead else s)

/-- WRITE (R414): A remote WRITE is served as a host-port write and answered with a RESP. It is handled in its place in step 1 of its tick (R41). -/
def execRemWrite (s : State) : Host.Outcome State Fault Refusal :=
  .next (if s.mgmtRuns && s.itsTurn then s.handle 2 State.remoteWrite else s)

/-- RESP (R417): A RESP with the outstanding TAG completes a register request. -/
def execRemResp (s : State) : Host.Outcome State Fault Refusal :=
  .next (if s.mgmtRuns then s.handle 3 State.respReceive else s)

/-- DIGEST (R423): A received DIGEST is compared and may begin mismatch causes. -/
def execDigestMsg (s : State) : Host.Outcome State Fault Refusal :=
  .next (if s.mgmtRuns then s.handle 4 State.digestReceive else s)

/-- REPORT (R424): A REPORT addressed to the device enters its log. -/
def execReportMsg (s : State) : Host.Outcome State Fault Refusal :=
  .next (if s.mgmtRuns then s.handle 5 State.reportReceive else s)

/-- ARM_BEGIN (R425): An ARM_BEGIN opens the assembly of an armed stream. -/
def execArmBegin (s : State) : Host.Outcome State Fault Refusal :=
  .next (if s.mgmtRuns then s.handle 6 State.armBegin else s)

/-- ARM_REG (R425): An ARM_REG item joins the stream in assembly. -/
def execArmReg (s : State) : Host.Outcome State Fault Refusal :=
  .next (if s.mgmtRuns then s.handle 7 State.armReg else s)

/-- ARM_PROF (R425): An ARM_PROF item joins the stream in assembly. -/
def execArmProf (s : State) : Host.Outcome State Fault Refusal :=
  .next (if s.mgmtRuns then s.handle 8 State.armProf else s)

/-- ARM_END (R426): An ARM_END checks the stream and makes it a pending change or refuses it. -/
def execArmEnd (s : State) : Host.Outcome State Fault Refusal :=
  .next (if s.mgmtRuns then s.handle 9 State.armEnd else s)

/-- ARM_STREAM_TIMEOUT (R425): A stream whose next message does not arrive within 10 ms is discarded. -/
def execArmStreamTimeout (s : State) : Host.Outcome State Fault Refusal :=
  .next (if s.mgmtRuns then s.armTimeout else s)

/-- ARMED_CHANGE_APPLY (R427): At RELTICK a pending change applies whole or not at all and sets the epoch. -/
def execArmedChangeApply (s : State) : Host.Outcome State Fault Refusal :=
  .next (s.detector State.stepOne)

/-- RQ_GO (R417): A write of FLT_RQ_CTL.GO sends a remote READ or WRITE. -/
def execRqGo (s : State) : Host.Outcome State Fault Refusal :=
  .next (s.portWrite (regAddr .FLT_RQ_CTL 0) (setBit (s.reg .FLT_RQ_CTL 0) 31 true))

/-- RQ_TIMEOUT (R417): No RESP arrives within TIMEOUT × 100 µs; STATUS becomes TIMEOUT. -/
def execRqTimeout (s : State) : Host.Outcome State Fault Refusal :=
  .next (s.detector State.rqTimeout)

/-- DIGEST_COMPUTE_DONE (R420): A digest computation completes and updates FLT_DIGEST. -/
def execDigestComputeDone (s : State) : Host.Outcome State Fault Refusal :=
  .next (if s.mgmtRuns then s.digestDone else s)

/-- DIGEST_SEND (R422): At each multiple of 500,000 ticks the device sends its DIGEST upstream. -/
def execDigestSend (s : State) : Host.Outcome State Fault Refusal :=
  .next (if s.mgmtRuns then s.digestSend else s)

/-- SILENT (R423): No DIGEST arrives on a downstream lane for 4 ms. -/
def execSilent (lane : Fin 16) (s : State) : Host.Outcome State Fault Refusal :=
  .next (s.detector fun s => s.silent lane.val)

/-- STALE (R423): Every DIGEST on a lane for 10 ms carried CURRENT = 0. -/
def execStale (lane : Fin 16) (s : State) : Host.Outcome State Fault Refusal :=
  .next (s.detector fun s => s.stale lane.val)

/-- LOG_POP (R424): A write of FLT_LOGCTL.POP removes the oldest log entry. -/
def execLogPop (s : State) : Host.Outcome State Fault Refusal :=
  .next (s.portWrite (regAddr .FLT_LOGCTL 0) (cmdBit 31))

end Sys2Proof.Machine
end

