-- ==== Sys2Proof/Machine/LaneRows.lean ====
section
/-! DEFINITION. The rows of the operation table for the Nosuden lanes (spec/09). -/

namespace Sys2Proof.Machine

/-- LANE_ENABLE (R372): A write of LN_CFG.EN turns a lane on into QUIET, or off. -/
def execLaneEnable (lane : Fin 16) (en : Bool) (s : State) : Host.Outcome State Fault Refusal :=
  .next (s.portWrite (regAddr .LN_CFG lane.val) (setBit (s.reg .LN_CFG lane.val) 31 en))

/-- LANE_QUIET_END (R372): After 1 ms in QUIET the lane goes to WAIT_SIG. -/
def execLaneQuietEnd (lane : Fin 16) (s : State) : Host.Outcome State Fault Refusal :=
  .next (s.detector fun s => s.quietEnd lane.val)

/-- LANE_SIGNAL_DETECT (R372): Signal is detected and the lane enters CDR. -/
def execLaneSignalDetect (lane : Fin 16) (s : State) : Host.Outcome State Fault Refusal :=
  .next (s.detector fun s => s.signalDetect lane.val)

/-- LANE_CDR_LOCK (R372): The lane recovers the peer's symbol clock and enters EQ. -/
def execLaneCdrLock (lane : Fin 16) (s : State) : Host.Outcome State Fault Refusal :=
  .next (s.detector fun s => s.cdrLock lane.val)

/-- LANE_EQ_DONE (R374): Both ends are ready and roles pair, so the lane enters FRAME, or PEER_ROLE is raised. `peer` is the control word last received; the rest are the tap and equaliser settings that training found. -/
def execLaneEqDone (lane : Fin 16) (peer : Word) (pre : Fin 16) (post : Fin 32) (ctle : Fin 16) (s : State) : Host.Outcome State Fault Refusal :=
  .next (s.detector fun s => s.eqDone lane.val peer pre.val post.val ctle.val)

/-- LANE_FRAME_LOCK (R371): Four good frames give frame lock and the lane becomes LINKED. -/
def execLaneFrameLock (lane : Fin 16) (s : State) : Host.Outcome State Fault Refusal :=
  .next (s.detector fun s => s.frameLock lane.val)

/-- LANE_FRAME_LOSS (R371): Four bad frames lose frame lock and the lane retrains. -/
def execLaneFrameLoss (lane : Fin 16) (s : State) : Host.Outcome State Fault Refusal :=
  .next (s.detector fun s => s.frameLoss lane.val)

/-- LANE_TRAIN_TIMEOUT (R372): A training state's timeout expires; the lane returns to WAIT_SIG and raises TRAIN_FAIL. -/
def execLaneTrainTimeout (lane : Fin 16) (s : State) : Host.Outcome State Fault Refusal :=
  .next (s.detector fun s => s.trainTimeout lane.val)

/-- LOS (R410): Signal detect is lost in LINKED or TIMED. -/
def execLos (lane : Fin 16) (s : State) : Host.Outcome State Fault Refusal :=
  .next (s.detector fun s => s.signalLoss lane.val)

/-- EYE_LOW (R405): The eye margin falls below MIN, raising EYE_LOW and maybe a planned move. `eye` is a reading of the eye margin. -/
def execEyeLow (lane : Fin 16) (eye : BitVec 8) (s : State) : Host.Outcome State Fault Refusal :=
  .next (s.detector fun s => if (s.lane lane.val).carries then s.eyeReading lane.val eye.toNat else s)

/-- C0_MESSAGE_RX (R380): A class-0 message arrives and is forwarded, delivered to the event board, or discarded. `code` is what the codeword check found: 0 clean, 1 corrected, 2 uncorrectable. -/
def execC0MessageRx (lane : Fin 16) (slot : Fin 8) (msg : BitVec 128) (code : Fin 3) (s : State) : Host.Outcome State Fault Refusal :=
  .next (s.detector fun s => s.c0Receive lane.val slot.val msg code.val)

/-- CELL_RX (R380): A class 1–3 message arrives and is forwarded, delivered locally or discarded. `cells` are the cells of one whole message. -/
def execCellRx (lane : Fin 16) (cells : List (BitVec 128)) (code : Fin 3) (s : State) : Host.Outcome State Fault Refusal :=
  .next (s.detector fun s => s.cellReceive lane.val cells code.val (State.localMessage lane.val))

/-- C0_TRANSMIT (R383): A locally originated class-0 message leaves in the first slot of its lane open to local origination. -/
def execC0Transmit (lane : Fin 16) (slot : Fin 8) (s : State) : Host.Outcome State Fault Refusal :=
  .next (s.detector fun s => s.c0Transmit lane.val slot.val)

/-- C1WORD_READ (R385): A read of LNG_C1WORD removes the oldest class-1 word and latches its tick and info. -/
def execC1wordRead (s : State) : Host.Outcome State Fault Refusal :=
  .next (s.portRead (regAddr .LNG_C1WORD 0))

/-- FLOW_DATA_WRITE (R380): A write of FLOW_DATA sets a flow-table entry. -/
def execFlowDataWrite (data : Word) (s : State) : Host.Outcome State Fault Refusal :=
  .next (s.portWrite (regAddr .FLOW_DATA 0) data)

/-- TT_RESULT (R396): At a superframe end with a complete record, the lane computes θ and delay and may become TIMED. The operands are the record's three words, the own stamps in 2^-16 ticks and whether this end still holds t3. -/
def execTtResult (lane : Fin 16) (w0 w1 w2 : BitVec 108) (t2 t3 : Int) (held : Bool) (s : State) : Host.Outcome State Fault Refusal :=
  .next (s.detector fun s => s.ttResult lane.val w0 w1 w2 t2 t3 held)

/-- LANE_LOAD (R398): A write of LNG_CMD.LOAD steps the count by −q from the timing source. -/
def execLaneLoad (s : State) : Host.Outcome State Fault Refusal :=
  .next (s.portWrite (regAddr .LNG_CMD 0) (cmdBit 31))

/-- LANE_REALIGN (R403): A write of LNG_CMD.REALIGN restarts the frames of every transmitting lane at the source phase. -/
def execLaneRealign (s : State) : Host.Outcome State Fault Refusal :=
  .next (s.portWrite (regAddr .LNG_CMD 0) (cmdBit 30))

/-- LANE_LOOPCAL (R394): A write of LNG_CMD.LOOPCAL calibrates the insertion delays of idle lanes. -/
def execLaneLoopcal (s : State) : Host.Outcome State Fault Refusal :=
  .next (s.portWrite (regAddr .LNG_CMD 0) (cmdBit 29))

/-- LANE_STEER (R405): A write of LNG_CMD.STEER starts a planned move of a lane to its spare slice. -/
def execLaneSteer (lane : Fin 16) (s : State) : Host.Outcome State Fault Refusal :=
  .next (s.portWrite (regAddr .LNG_CMD 0) (cmdBit 28 ||| BitVec.ofNat 32 lane.val))

/-- LANE_STEER_DONE (R405): The spare slice takes over the lane at a superframe marker. -/
def execLaneSteerDone (lane : Fin 16) (s : State) : Host.Outcome State Fault Refusal :=
  .next (s.detector fun s => s.steerDone lane.val)

/-- SLICE_CHECK (R406): A slice fails its self-check, is fenced, and the spare takes the lane. -/
def execSliceCheck (lane : Fin 16) (s : State) : Host.Outcome State Fault Refusal :=
  .next (s.detector fun s => s.sliceCheck lane.val)

/-- LANE_CDR_LOSS (R391): A lane loses CDR lock on the peer's symbol clock; its RCLK output stops at once and the lane returns to WAIT_SIG. -/
def execLaneCdrLoss (lane : Fin 16) (s : State) : Host.Outcome State Fault Refusal :=
  .next (s.detector fun s => s.cdrLoss lane.val)

end Sys2Proof.Machine
end

