-- ==== Sys2Proof/Machine/MonRows.lean ====
section
/-! DEFINITION. The rows of the operation table for the monitor converter and the barrow (spec/12). -/

namespace Sys2Proof.Machine

/-- MON_CONVERSION (R469): A converter slot ends, completing one conversion with its stamp. `code` is what the converter reads. -/
def execMonConversion (code : BitVec 14) (s : State) : Host.Outcome State Fault Refusal :=
  .next (s.detector fun s => (s.slotBoundary code.toNat).calRefresh)

/-- MON_INJECT (R477): A write of MON_INJCMD.GO queues an injected conversion, or is refused FULL. -/
def execMonInject (ch : BitVec 6) (s : State) : Host.Outcome State Fault Refusal :=
  .next (s.portWrite (regAddr .MON_INJCMD 0) (cmdBit 31 ||| ch.setWidth 32))

/-- MON_SCAN_WRITE (R471): A write of MON_SCAN_LO or MON_SCAN_HI offers a new scan mask. -/
def execMonScanWrite (hi : Bool) (data : Word) (s : State) : Host.Outcome State Fault Refusal :=
  .next (if hi then s.portWrite (regAddr .MON_SCAN_HI 0) data else s.portWrite (regAddr .MON_SCAN_LO 0) data)

/-- MON_SCAN_APPLY (R473): The new scan mask takes effect at the end of the scan in progress. -/
def execMonScanApply (s : State) : Host.Outcome State Fault Refusal :=
  .next (s.detector State.maskBoundary)

/-- MON_RES_READ (R475): A read of RES_k_A returns a result and latches its stamp. -/
def execMonResRead (index : Fin 32) (s : State) : Host.Outcome State Fault Refusal :=
  .next (s.portRead (regAddr .MON_RES_A index.val))

/-- MON_INJ_READ (R475): A read of MON_INJ_A returns the injection result and latches its stamp. -/
def execMonInjRead (s : State) : Host.Outcome State Fault Refusal :=
  .next (s.portRead (regAddr .MON_INJ_A 0))

/-- BARROW_SAMPLE (R486): The barrow samples and filters its inputs and decides on wake and alerts. The operands are the samples of the analogue inputs in the units of Table 12.7, and the activity of references, XOs, lanes and the SVC port. -/
def execBarrowSample (analogue : List Int) (refs : BitVec 4) (xo : BitVec 2) (lanes : BitVec 16) (svc : Bool) (s : State) : Host.Outcome State Fault Refusal :=
  .next (if s.pins.aon && !s.reloads.contains 3 then s.barrowSample analogue refs xo lanes svc else s)

end Sys2Proof.Machine
end

