-- ==== Sys2Proof/Machine/OutputRows.lean ====
section
/-! DEFINITION. The rows of the operation table for outputs, read-back and raster channels (spec/08). -/

namespace Sys2Proof.Machine

/-- OUT_SRC_WRITE (R328): A host write of OUT_CFG.SRC moves an output to another core. -/
def execOutSrcWrite (out : Fin 32) (src : BitVec 5) (s : State) : Host.Outcome State Fault Refusal :=
  .next (s.portWrite (regAddr .OUT_CFG out.val) (putBits (s.reg .OUT_CFG out.val) 16 5 src.toNat))

/-- OUT_ENABLE (R335): A write of OUT_CFG.EN switches an output's power domain on or off. -/
def execOutEnable (out : Fin 32) (en : Bool) (s : State) : Host.Outcome State Fault Refusal :=
  .next (s.portWrite (regAddr .OUT_CFG out.val) (setBit (s.reg .OUT_CFG out.val) 31 en))

/-- OUT_DOMAIN_READY (R335): An output's domain becomes ready and reason OFF ends. -/
def execOutDomainReady (out : Fin 32) (s : State) : Host.Outcome State Fault Refusal :=
  .next (s.detector fun s => s.outReady out.val)

/-- OUT_DELAY_WRITE (R331): A change of OUT_DELAY realigns the output after the cycle in progress. -/
def execOutDelayWrite (out : Fin 32) (data : Word) (s : State) : Host.Outcome State Fault Refusal :=
  .next (s.portWrite (regAddr .OUT_DELAY out.val) data)

/-- OUT_DSET_WRITE (R323): A write of OUT_DSET01 or OUT_DSET23 sets divider sets, changing D or M when in force. `upper` selects OUT_DSET23. -/
def execOutDsetWrite (out : Fin 32) (upper : Bool) (data : Word) (s : State) : Host.Outcome State Fault Refusal :=
  .next (if upper then s.portWrite (regAddr .OUT_DSET23 out.val) data else s.portWrite (regAddr .OUT_DSET01 out.val) data)

/-- OUT_SHORT (R347): A ball's current limit acts for 1 µs; SHORT is stamped and the output gated with its driver off. The driver has been on for those 500 ticks. -/
def execOutShort (out : Fin 32) (s : State) : Host.Outcome State Fault Refusal :=
  .next (s.detector fun s => if !s.driverOff out.val && decide ((s.out out.val).driveAt + 500 ≤ s.elapsed) then s.outShort out.val else s)

/-- OUT_CLRSHORT (R347): A write of OUT_STAT.CLRSHORT turns the driver on again. -/
def execOutClrshort (out : Fin 32) (s : State) : Host.Outcome State Fault Refusal :=
  .next (s.portWrite (regAddr .OUT_STAT out.val) (cmdBit 31))

/-- OUT_SYSREF_REQ (R344): A write of OUT_SYSREF.REQ requests a SYSREF burst. -/
def execOutSysrefReq (out : Fin 32) (s : State) : Host.Outcome State Fault Refusal :=
  .next (s.portWrite (regAddr .OUT_SYSREF out.val) (setBit (s.reg .OUT_SYSREF out.val &&& 0x000300FF#32) 31 true))

/-- OUT_SYSREF_PER (R344): A write of OUT_SYSREF.PER enables periodic SYSREF. -/
def execOutSysrefPer (out : Fin 32) (s : State) : Host.Outcome State Fault Refusal :=
  .next (s.portWrite (regAddr .OUT_SYSREF out.val) (setBit (s.reg .OUT_SYSREF out.val &&& 0x000300FF#32) 30 true))

/-- OUT_SYSREF_DIS (R344): A write of OUT_SYSREF.DIS disables SYSREF pulses. -/
def execOutSysrefDis (out : Fin 32) (s : State) : Host.Outcome State Fault Refusal :=
  .next (s.portWrite (regAddr .OUT_SYSREF out.val) (setBit (s.reg .OUT_SYSREF out.val &&& 0x000300FF#32) 29 true))

/-- RB_WINDOW_END (R348): A read-back window ends; counts and phase are compared and RB_COUNT, RB_PHASE or GUARD_HIT may be raised. The operands are the edges counted at the pad, those that reached the guard, and the phase of the first edge in 0.1 ps where the monitor `measured` it; the command stands at the tick whose rising edge the window's end follows by τ_0. -/
def execRbWindowEnd (out : Fin 32) (counted : Nat) (edges : List EdgeRun) (measured : Bool) (phase : Int) (s : State) : Host.Outcome State Fault Refusal :=
  .next (s.detector fun s => if s.rbEnds out.val then s.rbWindow out.val counted edges (if measured then some phase else none) else s)

/-- DIV_PARITY (R361): A divider-state parity error is detected and the divider is reloaded at the next tick. -/
def execDivParity (out : Fin 32) (s : State) : Host.Outcome State Fault Refusal :=
  .next (s.detector fun s => if (s.out out.val).domainOn && !(s.out out.val).fenced then s.divParity out.val else s)

/-- RAS_ENABLE (R351): A write of RAS_CFG.EN = 1 binds a core and outputs to a raster channel. `data` is the word written, with EN = 1. -/
def execRasEnable (ras : Fin 2) (data : Word) (s : State) : Host.Outcome State Fault Refusal :=
  .next (s.portWrite (regAddr .RAS_CFG ras.val) (setBit data 31 true))

/-- RAS_DISABLE (R352): A write of RAS_CFG.EN = 0 unbinds a raster channel. -/
def execRasDisable (ras : Fin 2) (s : State) : Host.Outcome State Fault Refusal :=
  .next (s.portWrite (regAddr .RAS_CFG ras.val) (setBit (s.reg .RAS_CFG ras.val) 31 false))

/-- RAS_STAGE (R355): A write of RAS_CTL.STAGE takes the staged setting as the channel's pending change. -/
def execRasStage (ras : Fin 2) (s : State) : Host.Outcome State Fault Refusal :=
  .next (s.portWrite (regAddr .RAS_CTL ras.val) (cmdBit 31))

/-- RAS_CANCEL (R355): A write of RAS_CTL.CANCEL discards the pending change. -/
def execRasCancel (ras : Fin 2) (s : State) : Host.Outcome State Fault Refusal :=
  .next (s.portWrite (regAddr .RAS_CTL ras.val) (cmdBit 30))

/-- TE_EDGE (R354): A TE edge is qualified and stamped, and the frame count is checked. `edges` is the read-back count since the last edge, `gatedIn` whether the output was gated in that time. -/
def execTeEdge (ras : Fin 2) (width edges : Nat) (gatedIn : Bool) (s : State) : Host.Outcome State Fault Refusal :=
  .next (s.detector fun s => s.teEdge ras.val width edges gatedIn)

/-- RAS_APPLY (R356): At s + 2 the pending raster change is applied as a divider, glide or cold change. -/
def execRasApply (ras : Fin 2) (s : State) : Host.Outcome State Fault Refusal :=
  .next (s.detector fun s => s.rasApplyDue ras.val)

/-- TE_TIMEOUT (R358): No TE edge for TOMULT frame times raises TE_LOST and may force the pending change. -/
def execTeTimeout (ras : Fin 2) (s : State) : Host.Outcome State Fault Refusal :=
  .next (s.detector fun s => if s.teTimeoutDue ras.val then s.teLost ras.val else s)

end Sys2Proof.Machine
end

