-- ==== Sys2Proof/Machine/PortRows.lean ====
section
/-! DEFINITION. The rows of the operation table for the host port, the mailbox and boundary scan (spec/16, spec/17). -/

namespace Sys2Proof.Machine

/-- HSPI_WRITE (R610): A complete HSPI WRITE transaction joins the write queue or is discarded. -/
def execHspiWrite (bytes : List Byte) (s : State) : Host.Outcome State Fault Refusal :=
  .next (s.hspiWrite bytes)

/-- HSPI_WRITE_HANDLED (R659): A queued HSPI write is checked and refused or released, updating LASTW. -/
def execHspiWriteHandled (s : State) : Host.Outcome State Fault Refusal :=
  .next (s.hspiHandled)

/-- HSPI_READ (R611): An HSPI READ returns STATUS and DATA once earlier writes are handled. `ready` tells whether the read was done by the time its response is due. -/
def execHspiRead (bytes : List Byte) (ready : Bool) (s : State) : Host.Outcome State Fault Refusal :=
  .next (s.hspiRead bytes ready)

/-- HSPI_REPEAT (R612): An HSPI REPEAT returns the previous READ's response with no side effect. -/
def execHspiRepeat (bytes : List Byte) (s : State) : Host.Outcome State Fault Refusal :=
  .next (s.hspiRepeat bytes)

/-- MBX_INFO (R624): Mailbox INFO returns the part, serial and version. -/
def execMbxInfo (s : State) : Host.Outcome State Fault Refusal :=
  .next (s.mbxRun 1 State.mbxInfo)

/-- MBX_ANCHOR_SET (R624): Mailbox ANCHOR_SET computes and writes an anchor's ratios and enables it. -/
def execMbxAnchorSet (s : State) : Host.Outcome State Fault Refusal :=
  .next (s.mbxRun 2 State.mbxAnchorSet)

/-- MBX_OUT_FREQ (R625): Mailbox OUT_FREQ sets an output to a frequency on a free core. -/
def execMbxOutFreq (s : State) : Host.Outcome State Fault Refusal :=
  .next (s.mbxRun 3 State.mbxOutFreq)

/-- MBX_OUT_PHASE (R626): Mailbox OUT_PHASE sets an output's phase through its delays. -/
def execMbxOutPhase (s : State) : Host.Outcome State Fault Refusal :=
  .next (s.mbxRun 4 State.mbxOutPhase)

/-- MBX_OUT_LEVEL (R624): Mailbox OUT_LEVEL sets an output's driver mode, swing and guard. -/
def execMbxOutLevel (s : State) : Host.Outcome State Fault Refusal :=
  .next (s.mbxRun 5 State.mbxOutLevel)

/-- MBX_OUT_OFF (R624): Mailbox OUT_OFF disables the outputs in a mask. -/
def execMbxOutOff (s : State) : Host.Outcome State Fault Refusal :=
  .next (s.mbxRun 6 State.mbxOutOff)

/-- MBX_SYSREF (R624): Mailbox SYSREF configures an output's SYSREF and performs an operation. -/
def execMbxSysref (s : State) : Host.Outcome State Fault Refusal :=
  .next (s.mbxRun 7 State.mbxSysref)

/-- MBX_SYNC_ARM (R624): Mailbox SYNC_ARM configures and arms a SYNC_IN restart and optional load. -/
def execMbxSyncArm (s : State) : Host.Outcome State Fault Refusal :=
  .next (s.mbxRun 8 State.mbxSyncArm)

/-- MBX_SWEEP (R627): Mailbox SWEEP writes profiles and a program and starts a stepped sweep. -/
def execMbxSweep (s : State) : Host.Outcome State Fault Refusal :=
  .next (s.mbxSweep)

/-- MBX_STATION_RUN (R624): Mailbox STATION_RUN checks the stored program and starts the station. -/
def execMbxStationRun (s : State) : Host.Outcome State Fault Refusal :=
  .next (s.mbxStationRun)

/-- MBX_STATION_STOP (R624): Mailbox STATION_STOP stops a station. -/
def execMbxStationStop (s : State) : Host.Outcome State Fault Refusal :=
  .next (s.mbxRun 11 State.mbxStationStop)

/-- MBX_LANE_SET (R624): Mailbox LANE_SET writes a lane's configuration. -/
def execMbxLaneSet (s : State) : Host.Outcome State Fault Refusal :=
  .next (s.mbxRun 12 State.mbxLaneSet)

/-- MBX_CAL (R624): Mailbox CAL runs, exports, imports or commits calibration. -/
def execMbxCal (s : State) : Host.Outcome State Fault Refusal :=
  .next (s.mbxRun 13 State.mbxCal)

/-- MBX_SAVE (R624): Mailbox SAVE requests a settings SAVE. -/
def execMbxSave (s : State) : Host.Outcome State Fault Refusal :=
  .next (s.mbxRun 14 State.mbxSave)

/-- MBX_POWER (R624): Mailbox POWER writes PWR_CMD with a target state. -/
def execMbxPower (s : State) : Host.Outcome State Fault Refusal :=
  .next (s.mbxRun 15 State.mbxPower)

/-- EXTEST (R637): With TRST_N high, a boundary-scan EXTEST instruction takes the balls from their functions at once. -/
def execExtest (s : State) : Host.Outcome State Fault Refusal :=
  .next (s.extest)

end Sys2Proof.Machine
end

