-- ==== Sys2Proof/Machine/PowerRows.lean ====
section
/-! DEFINITION. The rows of the operation table for power commands (spec/12). -/

namespace Sys2Proof.Machine

/-- PWR_ACTIVE (R490): A PWR_CMD with TARGET 3 switches the ACTIVE domains on. -/
def execPwrActive (s : State) : Host.Outcome State Fault Refusal :=
  .next (s.portWrite (regAddr .PWR_CMD 0) (keyed 3))

/-- PWR_STANDBY (R490): A PWR_CMD with TARGET 2 gates the outputs and switches the ACTIVE-only domains off. -/
def execPwrStandby (s : State) : Host.Outcome State Fault Refusal :=
  .next (s.portWrite (regAddr .PWR_CMD 0) (keyed 2))

/-- PWR_DORMANT (R491): A PWR_CMD with TARGET 1 gates, squelches and switches every domain but the barrow off. -/
def execPwrDormant (s : State) : Host.Outcome State Fault Refusal :=
  .next (s.portWrite (regAddr .PWR_CMD 0) (keyed 1))

/-- PWR_DOMAINS_READY (R490): The last domain switched on becomes ready and PWR_STATE becomes ACTIVE. -/
def execPwrDomainsReady (s : State) : Host.Outcome State Fault Refusal :=
  .next (if s.halted then s else s.domainsReady)

end Sys2Proof.Machine
end

