-- ==== Sys2Proof/Machine/QuilvoRows.lean ====
section
/-! DEFINITION. The rows of the operation table for the instructions of a station's thread (spec/06, spec/07). Each executes the instruction at the pc of a path of the thread: path 0 is the followed path, 1 and 2 the alternate paths of its unresolved decisions. -/

namespace Sys2Proof.Machine

/-- ADD (R258): g[rd] := g[ra] + g[rb]. -/
def execAddR (st : Fin 8) (path : Fin 3) (s : State) : Host.Outcome State Fault Refusal :=
  .next (s.runInstr st.val path.val 0x04#6)

/-- SUB (R258): g[rd] := g[ra] − g[rb]. -/
def execSubR (st : Fin 8) (path : Fin 3) (s : State) : Host.Outcome State Fault Refusal :=
  .next (s.runInstr st.val path.val 0x05#6)

/-- AND (R258): g[rd] := g[ra] and g[rb]. -/
def execAndR (st : Fin 8) (path : Fin 3) (s : State) : Host.Outcome State Fault Refusal :=
  .next (s.runInstr st.val path.val 0x06#6)

/-- OR (R258): g[rd] := g[ra] or g[rb]. -/
def execOrR (st : Fin 8) (path : Fin 3) (s : State) : Host.Outcome State Fault Refusal :=
  .next (s.runInstr st.val path.val 0x07#6)

/-- XOR (R258): g[rd] := g[ra] xor g[rb]. -/
def execXorR (st : Fin 8) (path : Fin 3) (s : State) : Host.Outcome State Fault Refusal :=
  .next (s.runInstr st.val path.val 0x08#6)

/-- SHL (R258): g[rd] := g[ra] shifted left by g[rb][4:0]. -/
def execShl (st : Fin 8) (path : Fin 3) (s : State) : Host.Outcome State Fault Refusal :=
  .next (s.runInstr st.val path.val 0x09#6)

/-- SHR (R258): g[rd] := g[ra] shifted right by g[rb][4:0]. -/
def execShr (st : Fin 8) (path : Fin 3) (s : State) : Host.Outcome State Fault Refusal :=
  .next (s.runInstr st.val path.val 0x0A#6)

/-- ADDI (R258): g[rd] := g[ra] + sign-extended IMM15. -/
def execAddi (st : Fin 8) (path : Fin 3) (s : State) : Host.Outcome State Fault Refusal :=
  .next (s.runInstr st.val path.val 0x0B#6)

/-- ANDI (R258): g[rd] := g[ra] and zero-extended IMM15. -/
def execAndi (st : Fin 8) (path : Fin 3) (s : State) : Host.Outcome State Fault Refusal :=
  .next (s.runInstr st.val path.val 0x0C#6)

/-- ORI (R258): g[rd] := g[ra] or zero-extended IMM15. -/
def execOri (st : Fin 8) (path : Fin 3) (s : State) : Host.Outcome State Fault Refusal :=
  .next (s.runInstr st.val path.val 0x0D#6)

/-- XORI (R258): g[rd] := g[ra] xor zero-extended IMM15. -/
def execXori (st : Fin 8) (path : Fin 3) (s : State) : Host.Outcome State Fault Refusal :=
  .next (s.runInstr st.val path.val 0x0E#6)

/-- SHLI (R258): g[rd] := g[ra] shifted left by IMM15[4:0]. -/
def execShli (st : Fin 8) (path : Fin 3) (s : State) : Host.Outcome State Fault Refusal :=
  .next (s.runInstr st.val path.val 0x0F#6)

/-- SHRI (R258): g[rd] := g[ra] shifted right by IMM15[4:0]. -/
def execShri (st : Fin 8) (path : Fin 3) (s : State) : Host.Outcome State Fault Refusal :=
  .next (s.runInstr st.val path.val 0x10#6)

/-- LDI (R258): Loads IMM16 into the low or high half of g[rd]. -/
def execLdi (st : Fin 8) (path : Fin 3) (s : State) : Host.Outcome State Fault Refusal :=
  .next (s.runInstr st.val path.val 0x11#6)

/-- CMP (R258): p[pd] := g[ra] CC g[rb]. -/
def execCmp (st : Fin 8) (path : Fin 3) (s : State) : Host.Outcome State Fault Refusal :=
  .next (s.runInstr st.val path.val 0x12#6)

/-- CMPI (R258): p[pd] := g[ra] CC sign-extended IMM14. -/
def execCmpi (st : Fin 8) (path : Fin 3) (s : State) : Host.Outcome State Fault Refusal :=
  .next (s.runInstr st.val path.val 0x13#6)

/-- PLOG (R258): p[pd] := a logic function of two possibly inverted predicates. -/
def execPlog (st : Fin 8) (path : Fin 3) (s : State) : Host.Outcome State Fault Refusal :=
  .next (s.runInstr st.val path.val 0x14#6)

/-- TADDI (R259): t[td] := t[ts] + IMM19. -/
def execTaddi (st : Fin 8) (path : Fin 3) (s : State) : Host.Outcome State Fault Refusal :=
  .next (s.runInstr st.val path.val 0x18#6)

/-- TADDR (R259): t[td] := t[ts] + g[ra] shifted left by SH. -/
def execTaddr (st : Fin 8) (path : Fin 3) (s : State) : Host.Outcome State Fault Refusal :=
  .next (s.runInstr st.val path.val 0x19#6)

/-- TSET (R259): t[td] := g[rb] × 2^32 + g[ra]. -/
def execTset (st : Fin 8) (path : Fin 3) (s : State) : Host.Outcome State Fault Refusal :=
  .next (s.runInstr st.val path.val 0x1A#6)

/-- TGET (R259): g[rd] := low or high word of t[ts]. -/
def execTget (st : Fin 8) (path : Fin 3) (s : State) : Host.Outcome State Fault Refusal :=
  .next (s.runInstr st.val path.val 0x1B#6)

/-- TCMP (R259): p[pd] := t[ta] CC t[tb]. -/
def execTcmp (st : Fin 8) (path : Fin 3) (s : State) : Host.Outcome State Fault Refusal :=
  .next (s.runInstr st.val path.val 0x1C#6)

/-- EVTST (R260): Tests whether an event of SRC is stamped in (m, X] once the board has closed X. -/
def execEvtst (st : Fin 8) (path : Fin 3) (s : State) : Host.Outcome State Fault Refusal :=
  .next (s.runInstr st.val path.val 0x20#6)

/-- WAITE (R260): Takes the first event of SRC in (m, X] with its stamp, or X when none. -/
def execWaite (st : Fin 8) (path : Fin 3) (s : State) : Host.Outcome State Fault Refusal :=
  .next (s.runInstr st.val path.val 0x21#6)

/-- EVCNT (R260): Counts the queued events of SRC in (m, X]. -/
def execEvcnt (st : Fin 8) (path : Fin 3) (s : State) : Host.Outcome State Fault Refusal :=
  .next (s.runInstr st.val path.val 0x22#6)

/-- EVDATA (R260): Returns the payload of the latest event removed for SRC. -/
def execEvdata (st : Fin 8) (path : Fin 3) (s : State) : Host.Outcome State Fault Refusal :=
  .next (s.runInstr st.val path.val 0x23#6)

/-- BR (R261): Branches to TGT, predicted when its guard is pending. -/
def execBr (st : Fin 8) (path : Fin 3) (s : State) : Host.Outcome State Fault Refusal :=
  .next (s.runInstr st.val path.val 0x28#6)

/-- CALL (R261): Saves pc + 1 in lk and branches to TGT. -/
def execCallI (st : Fin 8) (path : Fin 3) (s : State) : Host.Outcome State Fault Refusal :=
  .next (s.runInstr st.val path.val 0x29#6)

/-- RET (R261): Branches to the link register. -/
def execRetI (st : Fin 8) (path : Fin 3) (s : State) : Host.Outcome State Fault Refusal :=
  .next (s.runInstr st.val path.val 0x2A#6)

/-- LOOP (R261): Decrements a loop counter and branches while it is not zero. -/
def execLoopI (st : Fin 8) (path : Fin 3) (s : State) : Host.Outcome State Fault Refusal :=
  .next (s.runInstr st.val path.val 0x2B#6)

/-- LDLC (R261): Loads a loop counter from IMM16 or a g register. -/
def execLdlc (st : Fin 8) (path : Fin 3) (s : State) : Host.Outcome State Fault Refusal :=
  .next (s.runInstr st.val path.val 0x2C#6)

/-- LKMOV (R261): Moves the link register to or from a g register. -/
def execLkmov (st : Fin 8) (path : Fin 3) (s : State) : Host.Outcome State Fault Refusal :=
  .next (s.runInstr st.val path.val 0x2D#6)

/-- SWAP (R263): Names a swap to a profile at the tick in t[tr]. -/
def execSwapI (st : Fin 8) (path : Fin 3) (s : State) : Host.Outcome State Fault Refusal :=
  .next (s.runInstr st.val path.val 0x30#6)

/-- COLD (R263): Names a cold hop on the live or slotted core at the tick in t[tr]. -/
def execColdI (st : Fin 8) (path : Fin 3) (s : State) : Host.Outcome State Fault Refusal :=
  .next (s.runInstr st.val path.val 0x31#6)

/-- GLIDE (R263): Names a glide on the live or slotted core at the tick in t[tr]. -/
def execGlideI (st : Fin 8) (path : Fin 3) (s : State) : Host.Outcome State Fault Refusal :=
  .next (s.runInstr st.val path.val 0x32#6)

/-- OUTG (R263): Names a gating or ungating of outputs at the tick in t[tr]. -/
def execOutg (st : Fin 8) (path : Fin 3) (s : State) : Host.Outcome State Fault Refusal :=
  .next (s.runInstr st.val path.val 0x34#6)

/-- DSET (R263): Names a change of divider set for outputs at the tick in t[tr]. -/
def execDset (st : Fin 8) (path : Fin 3) (s : State) : Host.Outcome State Fault Refusal :=
  .next (s.runInstr st.val path.val 0x35#6)

/-- DIVRST (R263): Names a divider restart for outputs at the tick in t[tr]. -/
def execDivrst (st : Fin 8) (path : Fin 3) (s : State) : Host.Outcome State Fault Refusal :=
  .next (s.runInstr st.val path.val 0x36#6)

/-- SYSREF (R263): Names a SYSREF request, enable or disable at the tick in t[tr]. -/
def execSysref (st : Fin 8) (path : Fin 3) (s : State) : Host.Outcome State Fault Refusal :=
  .next (s.runInstr st.val path.val 0x37#6)

/-- STAT (R263): Names new levels for mapped STAT pins at the tick in t[tr]. -/
def execStatI (st : Fin 8) (path : Fin 3) (s : State) : Host.Outcome State Fault Refusal :=
  .next (s.runInstr st.val path.val 0x38#6)

/-- SEND0 (R263): Names the sending of a class-0 message at the tick in t[tr]. -/
def execSend0 (st : Fin 8) (path : Fin 3) (s : State) : Host.Outcome State Fault Refusal :=
  .next (s.runInstr st.val path.val 0x3A#6)

/-- SEND1 (R263): Names the sending of a class-1 control word at the tick in t[tr]. -/
def execSend1 (st : Fin 8) (path : Fin 3) (s : State) : Host.Outcome State Fault Refusal :=
  .next (s.runInstr st.val path.val 0x3B#6)

/-- NOP (R258): Does nothing. -/
def execNopI (st : Fin 8) (path : Fin 3) (s : State) : Host.Outcome State Fault Refusal :=
  .next (s.runInstr st.val path.val 0x01#6)

/-- HALT (R263): Names the station's stop at the tick in t[tr]. -/
def execHaltI (st : Fin 8) (path : Fin 3) (s : State) : Host.Outcome State Fault Refusal :=
  .next (s.runInstr st.val path.val 0x02#6)

/-- IDLE (R267): Declares a core quiet from the tick in t[tr] for W ticks. -/
def execIdleI (st : Fin 8) (path : Fin 3) (s : State) : Host.Outcome State Fault Refusal :=
  .next (s.runInstr st.val path.val 0x03#6)

end Sys2Proof.Machine
end

