-- ==== Sys2Proof/Machine/SequencerRows.lean ====
section
/-! DEFINITION. The rows of the operation table for commit, decisions, starting and stopping, and program stores (spec/06, spec/07). -/

namespace Sys2Proof.Machine

/-- INSTR_COMMIT (R280): An executed instruction commits in program order and its effect enters the holding queue. -/
def execInstrCommit (st : Fin 8) (s : State) : Host.Outcome State Fault Refusal :=
  .next (s.instrCommit st.val)

/-- DECISION_RESOLVE (R281): An event instruction evaluates once its tick has closed, confirming or squashing the predicted path. `index` is the place of the event instruction among those executed and not committed. -/
def execDecisionResolve (st : Fin 8) (index : Nat) (s : State) : Host.Outcome State Fault Refusal :=
  .next (s.decisionResolve st.val index)

/-- SEQ_START (R271): A write of SEQ_CTL.START arms the station for T_s and starts its thread. -/
def execSeqStart (st : Fin 8) (s : State) : Host.Outcome State Fault Refusal :=
  .next (s.portWrite (regAddr .SEQ_CTL st.val) (cmdBit 0))

/-- STATION_RUN_BEGIN (R272): At T_s the station becomes RUNNING and gates its outputs. -/
def execStationRunBegin (st : Fin 8) (s : State) : Host.Outcome State Fault Refusal :=
  .next (s.runBegin st.val)

/-- SEQ_STOP (R273): A write of SEQ_CTL.STOP discards effects named for its release or later and stops the station. -/
def execSeqStop (st : Fin 8) (s : State) : Host.Outcome State Fault Refusal :=
  .next (s.portWrite (regAddr .SEQ_CTL st.val) (cmdBit 1))

/-- EXC_STOP (R269): After an exception, the station stops at the tick after its last queued effect releases. -/
def execExcStop (st : Fin 8) (s : State) : Host.Outcome State Fault Refusal :=
  .next (s.excStop st.val)

/-- THREAD_CHECK_FAIL (R276): A thread's parity or duplicate check mismatches and the thread is fenced. -/
def execThreadCheckFail (thread : Fin 10) (s : State) : Host.Outcome State Fault Refusal :=
  .next (s.detector fun s => s.threadCheckFail thread.val)

/-- THREAD_RESUME (R276): A spare thread takes the station binding and resumes from the committed state. -/
def execThreadResume (st : Fin 8) (s : State) : Host.Outcome State Fault Refusal :=
  .next (s.threadResume st.val)

/-- PGM_DATA_WRITE (R312): A write of PGM_DATA stores an instruction word, or is refused in a running reach set. -/
def execPgmDataWrite (data : Word) (s : State) : Host.Outcome State Fault Refusal :=
  .next (s.portWrite (regAddr .PGM_DATA 0) data)

/-- PGM_CHECK (R313): A write of PGM_CMD.CHECK starts the lead check for a fresh load or a handoff. -/
def execPgmCheck (s : State) : Host.Outcome State Fault Refusal :=
  .next (s.portWrite (regAddr .PGM_CMD 0) (cmdBit 0))

/-- PGM_CHECK_DONE (R302): The loader finishes the lead check and accepts or refuses the program. -/
def execPgmCheckDone (s : State) : Host.Outcome State Fault Refusal :=
  .next (if s.mgmtRuns then s.pgmCheckDone.mbxChecked else s)

/-- PGM_HANDOFF (R315): A write of PGM_CMD.HANDOFF arms a handoff to the pending program at H. -/
def execPgmHandoff (s : State) : Host.Outcome State Fault Refusal :=
  .next (s.portWrite (regAddr .PGM_CMD 0) (cmdBit 1))

/-- HANDOFF_AT_H (R316): At tick H the old program's later work is discarded and the thread starts the new program. -/
def execHandoffAtH (st : Fin 8) (s : State) : Host.Outcome State Fault Refusal :=
  .next (s.handoffGo st.val)

end Sys2Proof.Machine
end

