-- ==== Sys2Proof/Machine/StartRows.lean ====
section
/-! DEFINITION. The rows of the operation table for resets, starts and the ledger (spec/14). -/

namespace Sys2Proof.Machine

/-- VDD_AON_RISE (R536): VDD_AON rises through 0.6 V after lying below 0.3 V and a power-on start begins. -/
def execVddAonRise (porLow testMode : Bool) (s : State) : Host.Outcome State Fault Refusal :=
  .next (s.aonRise porLow testMode)

/-- VDD_AON_FALL (R641): VDD_AON falls below 0.6 V; every domain switches off and the device is inert. -/
def execVddAonFall (s : State) : Host.Outcome State Fault Refusal :=
  .next (s.aonFall)

/-- POR_N_ASSERT (R536): POR_N is asserted and a power-on reset start begins. -/
def execPorNAssert (s : State) : Host.Outcome State Fault Refusal :=
  .next (s.porAssert)

/-- RESET_N_ASSERT (R536): RESET_N is asserted outside HALTED and a start begins. -/
def execResetNAssert (s : State) : Host.Outcome State Fault Refusal :=
  .next (s.resetAssert)

/-- START_STAGE_DONE (R539): A start stage completes and the next stage of Table 14.1 begins. `ok` tells whether the stage found what Table 14.1 asks of it. -/
def execStartStageDone (ok : Bool) (s : State) : Host.Outcome State Fault Refusal :=
  .next (s.stageDone ok)

/-- STORE_SAVE (R553): A keyed write of STORE_CMD.SAVE captures changed settings as a settings record. -/
def execStoreSave (s : State) : Host.Outcome State Fault Refusal :=
  .next (s.portWrite (regAddr .STORE_CMD 0) (keyed 1))

/-- STORE_FULL (R562): A keyed write of STORE_CMD.FULL starts fulling. -/
def execStoreFull (s : State) : Host.Outcome State Fault Refusal :=
  .next (s.portWrite (regAddr .STORE_CMD 0) (keyed 2))

/-- RECORD_COMMIT_DONE (R555): A ledger record's COMMIT word is programmed and the record is committed. -/
def execRecordCommitDone (s : State) : Host.Outcome State Fault Refusal :=
  .next (if s.halted then s else s.recordCommitted)

/-- FULLING_DONE (R562): Fulling commits a new base copy and erases folded ring blocks. -/
def execFullingDone (s : State) : Host.Outcome State Fault Refusal :=
  .next (if s.halted then s else s.fullingDone)

/-- ERASE_FAIL (R550): A pool erase or program fails and the block is retired. `block` is the pool block. -/
def execEraseFail (block : Fin 128) (s : State) : Host.Outcome State Fault Refusal :=
  .next (if s.halted then s else s.eraseFail block.val)

/-- FLASH_TIMEOUT (R544): The flash does not answer within its timeout. -/
def execFlashTimeout (s : State) : Host.Outcome State Fault Refusal :=
  .next (if s.reacts then s.flashTimeout else s)

/-- RESET_N_RELEASE (R539): RESET_N is released, ending stage RESET of a start so that stage FLASH may begin. -/
def execResetNRelease (s : State) : Host.Outcome State Fault Refusal :=
  .next ({ s with pins := { s.pins with resetLow := false } })

/-- POR_N_RELEASE (R539): POR_N is released, ending stage RESET of a power-on start. `railsGood` tells whether every rail is within Table 17.3; Table 17.12 leaves the start undefined where one is not. -/
def execPorNRelease (railsGood : Bool) (s : State) : Host.Outcome State Fault Refusal :=
  if s.pins.porLow && !railsGood then .fault .railsOutOfRange else .next { s with pins := { s.pins with porLow := false } }

end Sys2Proof.Machine
end

