-- ==== Sys2Proof/Machine/StationRows.lean ====
section
/-! DEFINITION. The rows of the operation table for stations, profiles and preparation (spec/05). -/

namespace Sys2Proof.Machine

/-- STN_MAP_WRITE (R197): A write to STN_MAP gives the named cores their roles and returns a loaded station to EMPTY. -/
def execStnMapWrite (st : Fin 8) (data : Word) (s : State) : Host.Outcome State Fault Refusal :=
  .next (s.portWrite (regAddr .STN_MAP st.val) data)

/-- STN_CFG_WRITE (R195): A write to STN_CFG sets the station mode and COLDHOLD. -/
def execStnCfgWrite (st : Fin 8) (data : Word) (s : State) : Host.Outcome State Fault Refusal :=
  .next (s.portWrite (regAddr .STN_CFG st.val) data)

/-- STN_OUTMASK_WRITE (R198): A write to STN_OUTMASK names the outputs the station may drive. -/
def execStnOutmaskWrite (st : Fin 8) (data : Word) (s : State) : Host.Outcome State Fault Refusal :=
  .next (s.portWrite (regAddr .STN_OUTMASK st.val) data)

/-- PROF_WRITE (R237): A write of PROF_CMD.WRITE stores a profile whole, or into a shadow when it is referenced. -/
def execProfWrite (s : State) : Host.Outcome State Fault Refusal :=
  .next (s.portWrite (regAddr .PROF_CMD 0) (cmdBit 0))

/-- PROF_READ (R204): A write of PROF_CMD.READ loads PROF_DATA with the profile content in force. -/
def execProfRead (s : State) : Host.Outcome State Fault Refusal :=
  .next (s.portWrite (regAddr .PROF_CMD 0) (cmdBit 1))

/-- SHADOW_APPLY (R238): A pending shadow takes effect at the first tick no reference to its profile remains; the
consistency set takes the content in force (R419, R420). -/
def execShadowApply (prof : Fin 4096) (s : State) : Host.Outcome State Fault Refusal :=
  .next ((s.shadowApply prof.val).noteSet s)

/-- PREP_START (R211): The station starts preparing a blocking core for a swap once a core is free. -/
def execPrepStart (st : Fin 8) (slot : Fin 3) (s : State) : Host.Outcome State Fault Refusal :=
  .next (s.prepStart st.val slot.val)

/-- PREP_SETTLED (R208): A prepared blocking core becomes settled for its swap. -/
def execPrepSettled (st : Fin 8) (slot : Fin 3) (s : State) : Host.Outcome State Fault Refusal :=
  .next (s.prepSettled st.val slot.val)

end Sys2Proof.Machine
end

