-- ==== Sys2Proof/Machine/TimelineRows.lean ====
section
/-! DEFINITION. The rows of the operation table for the tick, the release of effects, host writes, SYNC_IN and the trigger inputs (spec/01, spec/04, spec/07). -/

namespace Sys2Proof.Machine

/-- TICK (R23): At each rising edge of the 500 MHz tick the timeline count increases by one and the event board closes tick X − 2. The operands are what the analogue parts show at this tick: the alignment, a corruption of the secondary count copy, the steering and phase error of each anchor in the units of their registers, and the feedback edge of each core. -/
def execTick (align : Int) (upset : Count) (steerA steerB perrA perrB : Int) (edges : List CoreEdge) (s : State) : Host.Outcome State Fault Refusal :=
  .next (s.clock align upset steerA steerB perrA perrB edges)

/-- EFFECT_RELEASE (R38): At its named tick the release stage applies each ready effect in the order of Table 1.3. What is due of step 1 comes first; then every station releases, in the order of its queue. -/
def execEffectRelease (s : State) : Host.Outcome State Fault Refusal :=
  .next (if s.halted then s else { s.stepOne.releaseAll with stepped := true })

/-- LATE_EFFECT (R49): An effect not ready for its named tick is applied at the first tick for which it is ready and counted as late. -/
def execLateEffect (st : Fin 8) (s : State) : Host.Outcome State Fault Refusal :=
  .next { s.lateEffect st.val with stepped := true }

/-- COLD_UNGATE (R225): At the cold hop's release tick plus COLDHOLD the outputs in OUTSET ungate under R189. -/
def execColdUngate (st : Fin 8) (s : State) : Host.Outcome State Fault Refusal :=
  .next { s.coldUngate st.val with stepped := true }

/-- GLIDE_END (R160): At k_e the glide ends on the target setting and θ_eff is recomputed exactly. -/
def execGlideEnd (core : Fin 26) (s : State) : Host.Outcome State Fault Refusal :=
  .next (s.glideDue core.val)

/-- IDLE_END (R267): A declared idle of a core ends at Y + W. -/
def execIdleEnd (core : Fin 26) (s : State) : Host.Outcome State Fault Refusal :=
  .next (s.idleEnd core.val)

/-- HOST_WRITE (R57): An unscheduled host write to a register without a row of its own is checked and released at the first ready tick. -/
def execHostWrite (addr : BitVec 16) (data : Word) (s : State) : Host.Outcome State Fault Refusal :=
  .next (s.portWrite addr.toNat data)

/-- TIME_NOW_READ (R25): A read of TIME_NOW_LO returns the count and latches TIME_NOW_HI. -/
def execTimeNowRead (s : State) : Host.Outcome State Fault Refusal :=
  .next (s.portRead (regAddr .TIME_NOW_LO 0))

/-- SYNC_ARM (R177): A write of TIME_SYNCCMD.ARM opens the SYNC_IN arming window at its release. -/
def execSyncArm (s : State) : Host.Outcome State Fault Refusal :=
  .next (s.portWrite (regAddr .TIME_SYNCCMD 0) (cmdBit 31))

/-- SYNC_LOAD (R30): A write of TIME_SYNCCMD.LOAD arms a timeline load by SYNC_IN, checked against R28. -/
def execSyncLoad (s : State) : Host.Outcome State Fault Refusal :=
  .next (s.portWrite (regAddr .TIME_SYNCCMD 0) (cmdBit 30))

/-- SYNC_CANCEL (R30): A write of TIME_SYNCCMD.CANCEL closes an open arming window. -/
def execSyncCancel (s : State) : Host.Outcome State Fault Refusal :=
  .next (s.portWrite (regAddr .TIME_SYNCCMD 0) (cmdBit 29))

/-- SYNC_IN_EDGE (R178): A qualified SYNC_IN edge is stamped; the first inside an open window counts, others add to EXTRA. `width` is the number of active samples of the edge; the command stands at the tick of the stamp. -/
def execSyncInEdge (width : Nat) (s : State) : Host.Outcome State Fault Refusal :=
  .next (s.detector fun s => s.qualify 8 width State.syncEdge)

/-- SYNC_WINDOW_CLOSE (R177): The arming window closes at k_a + 1,000·w with no counted edge, clearing LOADARMED. -/
def execSyncWindowClose (s : State) : Host.Outcome State Fault Refusal :=
  .next (s.syncWindowClose)

/-- SYNC_RESTART (R180): At n + SYNC_LATENCY each masked output takes the new divider reference tick and restarts. -/
def execSyncRestart (s : State) : Host.Outcome State Fault Refusal :=
  .next (s.syncRestartDue)

/-- TIMELINE_LOAD_SYNC (R29): At n + SYNC_LATENCY the count takes TIME_PRESET, or the load is abandoned with LOADLOST. -/
def execTimelineLoadSync (s : State) : Host.Outcome State Fault Refusal :=
  .next (s.syncLoadDue)

/-- SCHED_GO (R618): A write of SCHED_CTL.GO offers a scheduled write to the eight-entry queue. -/
def execSchedGo (s : State) : Host.Outcome State Fault Refusal :=
  .next (s.portWrite (regAddr .SCHED_CTL 0) (cmdBit 31))

/-- SCHED_FLUSH (R620): A write of SCHED_CTL.FLUSH discards every queued entry named for its release tick or later. -/
def execSchedFlush (s : State) : Host.Outcome State Fault Refusal :=
  .next (s.portWrite (regAddr .SCHED_CTL 0) (cmdBit 30))

/-- SCHED_RELEASE (R619): At its named tick a scheduled write is released, or dropped when refused. -/
def execSchedRelease (s : State) : Host.Outcome State Fault Refusal :=
  .next s.stepOne

/-- TRIG_EDGE (R306): A trigger input's leading edge is qualified over MINW samples and stamped, or dropped as a runt or overrun. -/
def execTrigEdge (inp : Fin 8) (width : Nat) (s : State) : Host.Outcome State Fault Refusal :=
  .next (s.trigEdge inp.val width)

/-- TRIG_STUCK (R308): An input active for 1,024 × STUCK ticks raises STUCK and is fenced. Input 8 is SYNC_IN. -/
def execTrigStuck (inp : Fin 9) (s : State) : Host.Outcome State Fault Refusal :=
  .next (s.detector fun s => s.trigStuck inp.val)

/-- TRIG_REARM (R309): A write of TRIG_STAT.REARM asks to end a trigger input's fence. -/
def execTrigRearm (inp : Fin 9) (s : State) : Host.Outcome State Fault Refusal :=
  .next (s.portWrite (regAddr .TRIG_STAT inp.val) (cmdBit 31))

/-- TRIG_FENCE_END (R309): A rearmed input's fence ends after 64 consecutive inactive samples. -/
def execTrigFenceEnd (inp : Fin 9) (s : State) : Host.Outcome State Fault Refusal :=
  .next (s.trigFenceEnd inp.val)

end Sys2Proof.Machine
end

