-- ==== Sys2Proof/Machine/UpdateRows.lean ====
section
/-! DEFINITION. The rows of the operation table for the service port and field update (spec/15). -/

namespace Sys2Proof.Machine

/-- SVC_READ (R573): An SVC read transaction returns the pending Plipo response or 0x00. -/
def execSvcRead (s : State) : Host.Outcome State Fault Refusal :=
  .next (s.svcRead)

/-- OPEN (R576): A Plipo OPEN returns DEVSER and a fresh nonce. `frame` is the frame the SVC port received, or none for the oldest that the lanes delivered. -/
def execSvcOpen (frame : Option (List Byte)) (s : State) : Host.Outcome State Fault Refusal :=
  .next (if s.mgmtRuns then s.plipo .open_ frame else s)

/-- AUTH (R576): A Plipo AUTH verifies the tool's proof and opens a session. -/
def execSvcAuth (frame : Option (List Byte)) (s : State) : Host.Outcome State Fault Refusal :=
  .next (if s.mgmtRuns then s.plipo .auth frame else s)

/-- CLOSE (R580): A Plipo CLOSE ends the session. -/
def execSvcClose (frame : Option (List Byte)) (s : State) : Host.Outcome State Fault Refusal :=
  .next (if s.mgmtRuns then s.plipo .close frame else s)

/-- STATUS (R582): A Plipo STATUS returns the update registers. -/
def execSvcStatus (frame : Option (List Byte)) (s : State) : Host.Outcome State Fault Refusal :=
  .next (if s.mgmtRuns then s.plipo .status frame else s)

/-- PLIPO_READ (R582): A Plipo READ returns up to 255 register words. -/
def execPlipoRead (frame : Option (List Byte)) (s : State) : Host.Outcome State Fault Refusal :=
  .next (if s.mgmtRuns then s.plipo .read frame else s)

/-- PLIPO_WRITE (R582): A Plipo WRITE writes one register as the host port would. -/
def execPlipoWrite (frame : Option (List Byte)) (s : State) : Host.Outcome State Fault Refusal :=
  .next (if s.mgmtRuns then s.plipo .write frame else s)

/-- UPD_BEGIN (R585): A Plipo UPD_BEGIN checks an image header and prepares staging. -/
def execUpdBegin (frame : Option (List Byte)) (s : State) : Host.Outcome State Fault Refusal :=
  .next (if s.mgmtRuns then s.plipo .updBegin frame else s)

/-- UPD_DATA (R586): A Plipo UPD_DATA programs image bytes into staging. -/
def execUpdData (frame : Option (List Byte)) (s : State) : Host.Outcome State Fault Refusal :=
  .next (if s.mgmtRuns then s.plipo .updData frame else s)

/-- UPD_END (R587): A Plipo UPD_END verifies staging and commits VERIFIED or IDLE. -/
def execUpdEnd (frame : Option (List Byte)) (s : State) : Host.Outcome State Fault Refusal :=
  .next (if s.mgmtRuns then s.plipo .updEnd frame else s)

/-- UPD_ACTIVATE (R588): A Plipo UPD_ACTIVATE commits ARMED, optionally followed by a start. -/
def execUpdActivate (frame : Option (List Byte)) (s : State) : Host.Outcome State Fault Refusal :=
  .next (if s.mgmtRuns then s.plipo .updActivate frame else s)

/-- UPD_ABORT (R588): A Plipo UPD_ABORT steps the update state back. -/
def execUpdAbort (frame : Option (List Byte)) (s : State) : Host.Outcome State Fault Refusal :=
  .next (if s.mgmtRuns then s.plipo .updAbort frame else s)

/-- RESTART (R582): A Plipo RESTART begins a start as by RESET_N after the response is read. -/
def execRestart (frame : Option (List Byte)) (s : State) : Host.Outcome State Fault Refusal :=
  .next (if s.mgmtRuns then s.plipo .restart frame else s)

/-- SESSION_TIMEOUT (R580): A session ends after 10 s without a valid request. -/
def execSessionTimeout (s : State) : Host.Outcome State Fault Refusal :=
  .next (s.sessionTimeout)

/-- AUTH_LOCKOUT_END (R577): The 1 s refusal of OPEN after four failed AUTHs ends. -/
def execAuthLockoutEnd (s : State) : Host.Outcome State Fault Refusal :=
  .next (s.lockoutEnd)

/-- UPD_CMD_ACTIVATE (R588): A keyed write of UPD_CMD.ACTIVATE commits ARMED from VERIFIED. -/
def execUpdCmdActivate (s : State) : Host.Outcome State Fault Refusal :=
  .next (s.portWrite (regAddr .UPD_CMD 0) (keyed 4))

/-- UPD_CONFIRM (R595): A keyed write of UPD_CMD.CONFIRM confirms a trial image. -/
def execUpdConfirm (s : State) : Host.Outcome State Fault Refusal :=
  .next (s.portWrite (regAddr .UPD_CMD 0) (keyed 2))

/-- UPD_CMD_ABORT (R588): A keyed write of UPD_CMD.ABORT steps the update state back. -/
def execUpdCmdAbort (s : State) : Host.Outcome State Fault Refusal :=
  .next (s.portWrite (regAddr .UPD_CMD 0) (keyed 1))

/-- COPY_BLOCK_DONE (R590): One 64 KiB block of an activation or reversion copy is written, checked and journalled. -/
def execCopyBlockDone (s : State) : Host.Outcome State Fault Refusal :=
  .next (if s.halted then s else s.copyBlockDone)

/-- TRIAL_TIMEOUT (R594): TRIALTO seconds pass in TRIAL without confirmation and a start begins. -/
def execTrialTimeout (s : State) : Host.Outcome State Fault Refusal :=
  .next (s.detector State.trialTimeout)

end Sys2Proof.Machine
end

