-- ==== Sys2Proof/Machine/Dispatch.lean ====
section
/-! DEFINITION. The meaning of each command: one arm per constructor, one definition per arm. -/

namespace Sys2Proof.Machine

/-- What a command does to the state, its queue apart. -/
def exec (i : Instr) (s : State) : Host.Outcome State Fault Refusal :=
  match i with
  | .tick align upset steerA steerB perrA perrB edges => Sys2Proof.Machine.execTick align upset steerA steerB perrA perrB edges s
  | .effectRelease => Sys2Proof.Machine.execEffectRelease s
  | .lateEffect st => Sys2Proof.Machine.execLateEffect st s
  | .coldUngate st => Sys2Proof.Machine.execColdUngate st s
  | .glideEnd core => Sys2Proof.Machine.execGlideEnd core s
  | .idleEnd core => Sys2Proof.Machine.execIdleEnd core s
  | .hostWrite addr data => Sys2Proof.Machine.execHostWrite addr data s
  | .timeNowRead => Sys2Proof.Machine.execTimeNowRead s
  | .syncArm => Sys2Proof.Machine.execSyncArm s
  | .syncLoad => Sys2Proof.Machine.execSyncLoad s
  | .syncCancel => Sys2Proof.Machine.execSyncCancel s
  | .syncInEdge width => Sys2Proof.Machine.execSyncInEdge width s
  | .syncWindowClose => Sys2Proof.Machine.execSyncWindowClose s
  | .syncRestart => Sys2Proof.Machine.execSyncRestart s
  | .timelineLoadSync => Sys2Proof.Machine.execTimelineLoadSync s
  | .schedGo => Sys2Proof.Machine.execSchedGo s
  | .schedFlush => Sys2Proof.Machine.execSchedFlush s
  | .schedRelease => Sys2Proof.Machine.execSchedRelease s
  | .trigEdge inp width => Sys2Proof.Machine.execTrigEdge inp width s
  | .trigStuck inp => Sys2Proof.Machine.execTrigStuck inp s
  | .trigRearm inp => Sys2Proof.Machine.execTrigRearm inp s
  | .trigFenceEnd inp => Sys2Proof.Machine.execTrigFenceEnd inp s
  | .refMissingEdge at_ => Sys2Proof.Machine.execRefMissingEdge at_ s
  | .refGateEnd ref offset => Sys2Proof.Machine.execRefGateEnd ref offset s
  | .ancInnerLock seen => Sys2Proof.Machine.execAncInnerLock seen s
  | .ancInnerLoss seen => Sys2Proof.Machine.execAncInnerLoss seen s
  | .ancOuterLock seen => Sys2Proof.Machine.execAncOuterLock seen s
  | .ancOuterLoss seen => Sys2Proof.Machine.execAncOuterLoss seen s
  | .primaryInitExchange => Sys2Proof.Machine.execPrimaryInitExchange s
  | .alignExceeded => Sys2Proof.Machine.execAlignExceeded s
  | .alignTrip => Sys2Proof.Machine.execAlignTrip s
  | .ancSwap => Sys2Proof.Machine.execAncSwap s
  | .ancRejoin anc => Sys2Proof.Machine.execAncRejoin anc s
  | .ancAutorejoin anc => Sys2Proof.Machine.execAncAutorejoin anc s
  | .ancEnable anc => Sys2Proof.Machine.execAncEnable anc s
  | .ancDisable anc => Sys2Proof.Machine.execAncDisable anc s
  | .ancCoremapWrite data => Sys2Proof.Machine.execAncCoremapWrite data s
  | .ancTdcXcheckFail anc => Sys2Proof.Machine.execAncTdcXcheckFail anc s
  | .ancTdcCheckDone anc activeBad spareBad => Sys2Proof.Machine.execAncTdcCheckDone anc activeBad spareBad s
  | .ancTdcSingleFail anc => Sys2Proof.Machine.execAncTdcSingleFail anc s
  | .coreApply core => Sys2Proof.Machine.execCoreApply core s
  | .coreRelock core => Sys2Proof.Machine.execCoreRelock core s
  | .coreSearch core => Sys2Proof.Machine.execCoreSearch core s
  | .coreSparemapWrite data => Sys2Proof.Machine.execCoreSparemapWrite data s
  | .bandSelectDone core => Sys2Proof.Machine.execBandSelectDone core s
  | .fastlockEnd core => Sys2Proof.Machine.execFastlockEnd core s
  | .coreLock core vtune => Sys2Proof.Machine.execCoreLock core vtune s
  | .coreLockLoss core => Sys2Proof.Machine.execCoreLockLoss core s
  | .acqTimeout core => Sys2Proof.Machine.execAcqTimeout core s
  | .raceTimeout core => Sys2Proof.Machine.execRaceTimeout core s
  | .ungateHoldEnd core => Sys2Proof.Machine.execUngateHoldEnd core s
  | .tdcCheck core => Sys2Proof.Machine.execTdcCheck core s
  | .stateParity core => Sys2Proof.Machine.execStateParity core s
  | .spareReassignDone core => Sys2Proof.Machine.execSpareReassignDone core s
  | .stnMapWrite st data => Sys2Proof.Machine.execStnMapWrite st data s
  | .stnCfgWrite st data => Sys2Proof.Machine.execStnCfgWrite st data s
  | .stnOutmaskWrite st data => Sys2Proof.Machine.execStnOutmaskWrite st data s
  | .profWrite => Sys2Proof.Machine.execProfWrite s
  | .profRead => Sys2Proof.Machine.execProfRead s
  | .shadowApply prof => Sys2Proof.Machine.execShadowApply prof s
  | .prepStart st slot => Sys2Proof.Machine.execPrepStart st slot s
  | .prepSettled st slot => Sys2Proof.Machine.execPrepSettled st slot s
  | .addR st path => Sys2Proof.Machine.execAddR st path s
  | .subR st path => Sys2Proof.Machine.execSubR st path s
  | .andR st path => Sys2Proof.Machine.execAndR st path s
  | .orR st path => Sys2Proof.Machine.execOrR st path s
  | .xorR st path => Sys2Proof.Machine.execXorR st path s
  | .shl st path => Sys2Proof.Machine.execShl st path s
  | .shr st path => Sys2Proof.Machine.execShr st path s
  | .addi st path => Sys2Proof.Machine.execAddi st path s
  | .andi st path => Sys2Proof.Machine.execAndi st path s
  | .ori st path => Sys2Proof.Machine.execOri st path s
  | .xori st path => Sys2Proof.Machine.execXori st path s
  | .shli st path => Sys2Proof.Machine.execShli st path s
  | .shri st path => Sys2Proof.Machine.execShri st path s
  | .ldi st path => Sys2Proof.Machine.execLdi st path s
  | .cmp st path => Sys2Proof.Machine.execCmp st path s
  | .cmpi st path => Sys2Proof.Machine.execCmpi st path s
  | .plog st path => Sys2Proof.Machine.execPlog st path s
  | .taddi st path => Sys2Proof.Machine.execTaddi st path s
  | .taddr st path => Sys2Proof.Machine.execTaddr st path s
  | .tset st path => Sys2Proof.Machine.execTset st path s
  | .tget st path => Sys2Proof.Machine.execTget st path s
  | .tcmp st path => Sys2Proof.Machine.execTcmp st path s
  | .evtst st path => Sys2Proof.Machine.execEvtst st path s
  | .waite st path => Sys2Proof.Machine.execWaite st path s
  | .evcnt st path => Sys2Proof.Machine.execEvcnt st path s
  | .evdata st path => Sys2Proof.Machine.execEvdata st path s
  | .br st path => Sys2Proof.Machine.execBr st path s
  | .callI st path => Sys2Proof.Machine.execCallI st path s
  | .retI st path => Sys2Proof.Machine.execRetI st path s
  | .loopI st path => Sys2Proof.Machine.execLoopI st path s
  | .ldlc st path => Sys2Proof.Machine.execLdlc st path s
  | .lkmov st path => Sys2Proof.Machine.execLkmov st path s
  | .swapI st path => Sys2Proof.Machine.execSwapI st path s
  | .coldI st path => Sys2Proof.Machine.execColdI st path s
  | .glideI st path => Sys2Proof.Machine.execGlideI st path s
  | .outg st path => Sys2Proof.Machine.execOutg st path s
  | .dset st path => Sys2Proof.Machine.execDset st path s
  | .divrst st path => Sys2Proof.Machine.execDivrst st path s
  | .sysref st path => Sys2Proof.Machine.execSysref st path s
  | .statI st path => Sys2Proof.Machine.execStatI st path s
  | .send0 st path => Sys2Proof.Machine.execSend0 st path s
  | .send1 st path => Sys2Proof.Machine.execSend1 st path s
  | .nopI st path => Sys2Proof.Machine.execNopI st path s
  | .haltI st path => Sys2Proof.Machine.execHaltI st path s
  | .idleI st path => Sys2Proof.Machine.execIdleI st path s
  | .instrCommit st => Sys2Proof.Machine.execInstrCommit st s
  | .decisionResolve st index => Sys2Proof.Machine.execDecisionResolve st index s
  | .seqStart st => Sys2Proof.Machine.execSeqStart st s
  | .stationRunBegin st => Sys2Proof.Machine.execStationRunBegin st s
  | .seqStop st => Sys2Proof.Machine.execSeqStop st s
  | .excStop st => Sys2Proof.Machine.execExcStop st s
  | .threadCheckFail thread => Sys2Proof.Machine.execThreadCheckFail thread s
  | .threadResume st => Sys2Proof.Machine.execThreadResume st s
  | .pgmDataWrite data => Sys2Proof.Machine.execPgmDataWrite data s
  | .pgmCheck => Sys2Proof.Machine.execPgmCheck s
  | .pgmCheckDone => Sys2Proof.Machine.execPgmCheckDone s
  | .pgmHandoff => Sys2Proof.Machine.execPgmHandoff s
  | .handoffAtH st => Sys2Proof.Machine.execHandoffAtH st s
  | .outSrcWrite out src => Sys2Proof.Machine.execOutSrcWrite out src s
  | .outEnable out en => Sys2Proof.Machine.execOutEnable out en s
  | .outDomainReady out => Sys2Proof.Machine.execOutDomainReady out s
  | .outDelayWrite out data => Sys2Proof.Machine.execOutDelayWrite out data s
  | .outDsetWrite out upper data => Sys2Proof.Machine.execOutDsetWrite out upper data s
  | .outShort out => Sys2Proof.Machine.execOutShort out s
  | .outClrshort out => Sys2Proof.Machine.execOutClrshort out s
  | .outSysrefReq out => Sys2Proof.Machine.execOutSysrefReq out s
  | .outSysrefPer out => Sys2Proof.Machine.execOutSysrefPer out s
  | .outSysrefDis out => Sys2Proof.Machine.execOutSysrefDis out s
  | .rbWindowEnd out counted edges measured phase => Sys2Proof.Machine.execRbWindowEnd out counted edges measured phase s
  | .divParity out => Sys2Proof.Machine.execDivParity out s
  | .rasEnable ras data => Sys2Proof.Machine.execRasEnable ras data s
  | .rasDisable ras => Sys2Proof.Machine.execRasDisable ras s
  | .rasStage ras => Sys2Proof.Machine.execRasStage ras s
  | .rasCancel ras => Sys2Proof.Machine.execRasCancel ras s
  | .teEdge ras width edges gatedIn => Sys2Proof.Machine.execTeEdge ras width edges gatedIn s
  | .rasApply ras => Sys2Proof.Machine.execRasApply ras s
  | .teTimeout ras => Sys2Proof.Machine.execTeTimeout ras s
  | .laneEnable lane en => Sys2Proof.Machine.execLaneEnable lane en s
  | .laneQuietEnd lane => Sys2Proof.Machine.execLaneQuietEnd lane s
  | .laneSignalDetect lane => Sys2Proof.Machine.execLaneSignalDetect lane s
  | .laneCdrLock lane => Sys2Proof.Machine.execLaneCdrLock lane s
  | .laneEqDone lane peer pre post ctle => Sys2Proof.Machine.execLaneEqDone lane peer pre post ctle s
  | .laneFrameLock lane => Sys2Proof.Machine.execLaneFrameLock lane s
  | .laneFrameLoss lane => Sys2Proof.Machine.execLaneFrameLoss lane s
  | .laneTrainTimeout lane => Sys2Proof.Machine.execLaneTrainTimeout lane s
  | .los lane => Sys2Proof.Machine.execLos lane s
  | .eyeLow lane eye => Sys2Proof.Machine.execEyeLow lane eye s
  | .c0MessageRx lane slot msg code => Sys2Proof.Machine.execC0MessageRx lane slot msg code s
  | .cellRx lane cells code => Sys2Proof.Machine.execCellRx lane cells code s
  | .c0Transmit lane slot => Sys2Proof.Machine.execC0Transmit lane slot s
  | .c1wordRead => Sys2Proof.Machine.execC1wordRead s
  | .flowDataWrite data => Sys2Proof.Machine.execFlowDataWrite data s
  | .ttResult lane w0 w1 w2 t2 t3 held => Sys2Proof.Machine.execTtResult lane w0 w1 w2 t2 t3 held s
  | .laneLoad => Sys2Proof.Machine.execLaneLoad s
  | .laneRealign => Sys2Proof.Machine.execLaneRealign s
  | .laneLoopcal => Sys2Proof.Machine.execLaneLoopcal s
  | .laneSteer lane => Sys2Proof.Machine.execLaneSteer lane s
  | .laneSteerDone lane => Sys2Proof.Machine.execLaneSteerDone lane s
  | .sliceCheck lane => Sys2Proof.Machine.execSliceCheck lane s
  | .remRead => Sys2Proof.Machine.execRemRead s
  | .remWrite => Sys2Proof.Machine.execRemWrite s
  | .remResp => Sys2Proof.Machine.execRemResp s
  | .digestMsg => Sys2Proof.Machine.execDigestMsg s
  | .reportMsg => Sys2Proof.Machine.execReportMsg s
  | .armBegin => Sys2Proof.Machine.execArmBegin s
  | .armReg => Sys2Proof.Machine.execArmReg s
  | .armProf => Sys2Proof.Machine.execArmProf s
  | .armEnd => Sys2Proof.Machine.execArmEnd s
  | .armStreamTimeout => Sys2Proof.Machine.execArmStreamTimeout s
  | .armedChangeApply => Sys2Proof.Machine.execArmedChangeApply s
  | .rqGo => Sys2Proof.Machine.execRqGo s
  | .rqTimeout => Sys2Proof.Machine.execRqTimeout s
  | .digestComputeDone => Sys2Proof.Machine.execDigestComputeDone s
  | .digestSend => Sys2Proof.Machine.execDigestSend s
  | .silent lane => Sys2Proof.Machine.execSilent lane s
  | .stale lane => Sys2Proof.Machine.execStale lane s
  | .logPop => Sys2Proof.Machine.execLogPop s
  | .calTempInject group => Sys2Proof.Machine.execCalTempInject group s
  | .calRunStart group => Sys2Proof.Machine.execCalRunStart group s
  | .calRunComplete group meas => Sys2Proof.Machine.execCalRunComplete group meas s
  | .calValuesApply group => Sys2Proof.Machine.execCalValuesApply group s
  | .calRefTimeout group => Sys2Proof.Machine.execCalRefTimeout group s
  | .calStarved group => Sys2Proof.Machine.execCalStarved group s
  | .calRun => Sys2Proof.Machine.execCalRun s
  | .calExport => Sys2Proof.Machine.execCalExport s
  | .calImport => Sys2Proof.Machine.execCalImport s
  | .calCommit => Sys2Proof.Machine.execCalCommit s
  | .calAbort => Sys2Proof.Machine.execCalAbort s
  | .calTdataWrite data => Sys2Proof.Machine.execCalTdataWrite data s
  | .monConversion code => Sys2Proof.Machine.execMonConversion code s
  | .monInject ch => Sys2Proof.Machine.execMonInject ch s
  | .monScanWrite hi data => Sys2Proof.Machine.execMonScanWrite hi data s
  | .monScanApply => Sys2Proof.Machine.execMonScanApply s
  | .monResRead index => Sys2Proof.Machine.execMonResRead index s
  | .monInjRead => Sys2Proof.Machine.execMonInjRead s
  | .barrowSample analogue refs xo lanes svc => Sys2Proof.Machine.execBarrowSample analogue refs xo lanes svc s
  | .pwrActive => Sys2Proof.Machine.execPwrActive s
  | .pwrStandby => Sys2Proof.Machine.execPwrStandby s
  | .pwrDormant => Sys2Proof.Machine.execPwrDormant s
  | .pwrDomainsReady => Sys2Proof.Machine.execPwrDomainsReady s
  | .faultReaction => Sys2Proof.Machine.execFaultReaction s
  | .graceExpire => Sys2Proof.Machine.execGraceExpire s
  | .cwinEnd => Sys2Proof.Machine.execCwinEnd s
  | .faultAck win data => Sys2Proof.Machine.execFaultAck win data s
  | .fltForceWrite win data => Sys2Proof.Machine.execFltForceWrite win data s
  | .fltInjWrite win data => Sys2Proof.Machine.execFltInjWrite win data s
  | .injectedCheck win bit entries store => Sys2Proof.Machine.execInjectedCheck win bit entries store s
  | .tallyRead win => Sys2Proof.Machine.execTallyRead win s
  | .mgmtCheck => Sys2Proof.Machine.execMgmtCheck s
  | .mgmtWatchdog => Sys2Proof.Machine.execMgmtWatchdog s
  | .reloadDone unit => Sys2Proof.Machine.execReloadDone unit s
  | .supplyUv low => Sys2Proof.Machine.execSupplyUv low s
  | .cfgParity => Sys2Proof.Machine.execCfgParity s
  | .releaseCheck => Sys2Proof.Machine.execReleaseCheck s
  | .eccUncorr store entries => Sys2Proof.Machine.execEccUncorr store entries s
  | .vddAonRise porLow testMode => Sys2Proof.Machine.execVddAonRise porLow testMode s
  | .vddAonFall => Sys2Proof.Machine.execVddAonFall s
  | .porNAssert => Sys2Proof.Machine.execPorNAssert s
  | .resetNAssert => Sys2Proof.Machine.execResetNAssert s
  | .startStageDone ok => Sys2Proof.Machine.execStartStageDone ok s
  | .storeSave => Sys2Proof.Machine.execStoreSave s
  | .storeFull => Sys2Proof.Machine.execStoreFull s
  | .recordCommitDone => Sys2Proof.Machine.execRecordCommitDone s
  | .fullingDone => Sys2Proof.Machine.execFullingDone s
  | .eraseFail block => Sys2Proof.Machine.execEraseFail block s
  | .flashTimeout => Sys2Proof.Machine.execFlashTimeout s
  | .svcRead => Sys2Proof.Machine.execSvcRead s
  | .svcOpen frame => Sys2Proof.Machine.execSvcOpen frame s
  | .svcAuth frame => Sys2Proof.Machine.execSvcAuth frame s
  | .svcClose frame => Sys2Proof.Machine.execSvcClose frame s
  | .svcStatus frame => Sys2Proof.Machine.execSvcStatus frame s
  | .plipoRead frame => Sys2Proof.Machine.execPlipoRead frame s
  | .plipoWrite frame => Sys2Proof.Machine.execPlipoWrite frame s
  | .updBegin frame => Sys2Proof.Machine.execUpdBegin frame s
  | .updData frame => Sys2Proof.Machine.execUpdData frame s
  | .updEnd frame => Sys2Proof.Machine.execUpdEnd frame s
  | .updActivate frame => Sys2Proof.Machine.execUpdActivate frame s
  | .updAbort frame => Sys2Proof.Machine.execUpdAbort frame s
  | .restart frame => Sys2Proof.Machine.execRestart frame s
  | .sessionTimeout => Sys2Proof.Machine.execSessionTimeout s
  | .authLockoutEnd => Sys2Proof.Machine.execAuthLockoutEnd s
  | .updCmdActivate => Sys2Proof.Machine.execUpdCmdActivate s
  | .updConfirm => Sys2Proof.Machine.execUpdConfirm s
  | .updCmdAbort => Sys2Proof.Machine.execUpdCmdAbort s
  | .copyBlockDone => Sys2Proof.Machine.execCopyBlockDone s
  | .trialTimeout => Sys2Proof.Machine.execTrialTimeout s
  | .hspiWrite bytes => Sys2Proof.Machine.execHspiWrite bytes s
  | .hspiWriteHandled => Sys2Proof.Machine.execHspiWriteHandled s
  | .hspiRead bytes ready => Sys2Proof.Machine.execHspiRead bytes ready s
  | .hspiRepeat bytes => Sys2Proof.Machine.execHspiRepeat bytes s
  | .mbxInfo => Sys2Proof.Machine.execMbxInfo s
  | .mbxAnchorSet => Sys2Proof.Machine.execMbxAnchorSet s
  | .mbxOutFreq => Sys2Proof.Machine.execMbxOutFreq s
  | .mbxOutPhase => Sys2Proof.Machine.execMbxOutPhase s
  | .mbxOutLevel => Sys2Proof.Machine.execMbxOutLevel s
  | .mbxOutOff => Sys2Proof.Machine.execMbxOutOff s
  | .mbxSysref => Sys2Proof.Machine.execMbxSysref s
  | .mbxSyncArm => Sys2Proof.Machine.execMbxSyncArm s
  | .mbxSweep => Sys2Proof.Machine.execMbxSweep s
  | .mbxStationRun => Sys2Proof.Machine.execMbxStationRun s
  | .mbxStationStop => Sys2Proof.Machine.execMbxStationStop s
  | .mbxLaneSet => Sys2Proof.Machine.execMbxLaneSet s
  | .mbxCal => Sys2Proof.Machine.execMbxCal s
  | .mbxSave => Sys2Proof.Machine.execMbxSave s
  | .mbxPower => Sys2Proof.Machine.execMbxPower s
  | .laneCdrLoss lane => Sys2Proof.Machine.execLaneCdrLoss lane s
  | .engineCheck => Sys2Proof.Machine.execEngineCheck s
  | .lanectlCheck => Sys2Proof.Machine.execLanectlCheck s
  | .fwCheck => Sys2Proof.Machine.execFwCheck s
  | .resetNRelease => Sys2Proof.Machine.execResetNRelease s
  | .porNRelease railsGood => Sys2Proof.Machine.execPorNRelease railsGood s
  | .extest => Sys2Proof.Machine.execExtest s

end Sys2Proof.Machine
end

