-- ==== Sys2Proof/Safety.lean ====
section
/-! DEFINITION. What counts as a safe run, in the terms the statements use. -/

namespace Sys2Proof.Machine

/-- Every store and register file of the state is in its canonical form: keys rise strictly, and no cell holds what an
unlisted key reads as. Equal contents are then equal data. -/
def State.mapsWf (s : State) : Bool :=
  s.regs.wf && s.pgm.wf && s.profs.wf && s.calVals.wf && s.lng.flows.wf && s.store.present.wf && s.store.saved.wf
    && s.store.savedProfs.wf && s.store.savedPgm.wf && s.store.savedFlows.wf && s.store.savedFaults.wf

/-- A run of a list of commands that meets no fault and no refusal, and the state it ends in. -/
def runs (s : State) : List Instr → State → Prop
  | [], t => t = s
  | c :: cs, t => ∃ u, exec c s = .next u ∧ runs u cs t

/-- A command answers a next state, and that state meets a condition. -/
def completes (c : Instr) (s : State) (P : State → Prop) : Prop := ∃ t, exec c s = .next t ∧ P t

/-- The host port takes register writes: its domain is on, the last start is done, the device is neither HALTED nor in
RECOVERY (R524, R540, R599, Table 12.5), and a write may be released at once. -/
def State.serves (s : State) : Bool := s.hostServes && !s.halted && s.startStage == 6 && s.power != 4 && s.itsTurn

/-- What the host port leaves after a write that was released (R57, R610): status OK in LASTW and the release tick in
TIME_HWREL. -/
def State.wrote (s t : State) : Prop := t.hspi.lastw = 0 ∧ t.hwRel = s.now

/-- What the host port leaves after a write that was refused (R610, R614): the status in LASTW, and the error bit of
HSPI_STAT set. -/
def State.refusedWith (t : State) (st : WStatus) : Prop := t.hspi.lastw = st.code ∧ t.flag Fields.HSPI_STAT_ERR 0 = true

/-- The thread of station `n` may execute instruction `i` at the pc of its followed path, with nothing it has to wait for: the
station runs, the limits of Table 7.2 hold, the row of the word is not being refilled, the guard is known and passes, no operand is pending, and it raises no exception
(R256, R283, R284, Table 6.13). -/
def State.mayRun (s : State) (n : Nat) (i : QInstr) : Prop :=
  let t := s.stn n
  let r := t.thread.regs
  t.mayExecute = true ∧ t.thread.inWindow < 64 ∧ (i.op.isHop = true → t.openHops < 3) ∧
  decodeQ (s.pgmWord n r.pc) = some i ∧ s.refilling n r.pc = false ∧ i.op.slotIllegal (s.stnMode n == 1) = false ∧ (r.pv i.guard.p).base = none ∧
  i.guard.passes (r.pv i.guard.p).val = true ∧ i.op.waits r = false ∧
  i.op.exception (s.stnMode n == 1) (s.slotEmpty n) r = 0 ∧ (i.op.nextPc true r).isSome = true

/-- Of all the state, one station has changed. -/
def State.onlyStation (s t : State) (n : Nat) : Prop := t = s.setStn n (t.stn n)

/-- The thread of station `n` has written `v` to a general register, gone on to the next instruction, and changed nothing
else; g0 discards the write. -/
def State.wroteG (s t : State) (n : Nat) (rd : BitVec 4) (v : Word) : Prop :=
  let r := (s.stn n).thread.regs
  let r' := (t.stn n).thread.regs
  (r'.gv rd).val = (if rd = 0 then 0 else v) ∧ (∀ j, j ≠ rd → r'.gv j = r.gv j) ∧ r'.t = r.t ∧ r'.p = r.p ∧ r'.lc = r.lc ∧
  r'.lk = r.lk ∧ r'.pc = r.pc + 1 ∧ s.onlyStation t n

/-- The thread of station `n` has written `v` to a predicate, gone on to the next instruction, and changed nothing else; p0
discards the write. -/
def State.wroteP (s t : State) (n : Nat) (pd : BitVec 2) (v : Bool) : Prop :=
  let r := (s.stn n).thread.regs
  let r' := (t.stn n).thread.regs
  (r'.pv pd).val = (if pd = 0 then true else v) ∧ (∀ j, j ≠ pd → r'.pv j = r.pv j) ∧ r'.g = r.g ∧ r'.t = r.t ∧ r'.lc = r.lc ∧
  r'.lk = r.lk ∧ r'.pc = r.pc + 1 ∧ s.onlyStation t n

/-- The thread of station `n` has written `v` to a tick register, gone on to the next instruction, and changed nothing
else. -/
def State.wroteT (s t : State) (n : Nat) (td : BitVec 2) (v : Count) : Prop :=
  let r := (s.stn n).thread.regs
  let r' := (t.stn n).thread.regs
  (r'.tv td).val = v ∧ (∀ j, j ≠ td → r'.tv j = r.tv j) ∧ r'.g = r.g ∧ r'.p = r.p ∧ r'.lc = r.lc ∧ r'.lk = r.lk ∧
  r'.pc = r.pc + 1 ∧ s.onlyStation t n

/-- The thread of station `n` has gone to `pc`, and its general, tick and predicate registers are as before. -/
def State.wentTo (s t : State) (n : Nat) (pc : BitVec 14) : Prop :=
  let r := (s.stn n).thread.regs
  let r' := (t.stn n).thread.regs
  r'.pc = pc ∧ r'.g = r.g ∧ r'.t = r.t ∧ r'.p = r.p ∧ s.onlyStation t n

/-- The thread of station `n` has executed effect instruction `i`: its entry waits to commit, with the tick that `tr` holds as
its release tick, and no register but pc has changed (R249, R263). -/
def State.named (s t : State) (n : Nat) (i : QInstr) (tr : BitVec 2) (pc : BitVec 14) : Prop :=
  let r := (s.stn n).thread.regs
  (∃ e : Exec, (t.stn n).thread.insts = (s.stn n).thread.insts ++ [e] ∧ e.ins = i ∧ e.off = false ∧ e.exc = 0 ∧
    e.tick = r.tv tr ∧ e.guardBase = none) ∧
  (t.stn n).thread.regs = { r with pc := pc } ∧ (t.stn n).queue = (s.stn n).queue ∧ s.onlyStation t n

/-- A request that a session on SVC accepts: its frame and MAC hold and its SEQ is the next one (R575, R578, R579). -/
def State.accepted (s : State) (l : List Byte) (r : PlipoReq) (x : Session) (c : Nat) : Prop :=
  s.mgmtRuns = true ∧ s.svcServes = true ∧ plipoParse l = some r ∧ r.cmd = c ∧ s.svc.session = some x ∧ x.lane = false ∧
  r.mac = some ((hmac x.key r.signed).take 16) ∧ r.seq = (x.seq + 1) % 65536 ∧ r.seq ≠ x.seq

/-- What an accepted request makes of the state before its command acts: the session takes its SEQ and its tick (R579, R580). -/
def State.heard (s : State) (x : Session) (r : PlipoReq) : State :=
  { s with svc := { s.svc with session := some { x with seq := r.seq, heardAt := s.elapsed } } }

/-- The response to an accepted request waits to be read, and is kept for a request that comes again (R573, R579). -/
def State.answered (s : State) (resp : List Byte) : State := { s with svc := { s.svc with last := resp, resp := resp } }

/-- The rows of the commands that act within a session, for a frame written on SVC, with their CMD (Table 15.7). -/
def sessionRows (l : List Byte) : List (Instr × Nat) :=
  [(.svcClose (some l), 0x03), (.svcStatus (some l), 0x04), (.plipoRead (some l), 0x10), (.plipoWrite (some l), 0x11),
   (.updBegin (some l), 0x20), (.updData (some l), 0x21), (.updEnd (some l), 0x22), (.updActivate (some l), 0x23),
   (.updAbort (some l), 0x24), (.restart (some l), 0x25)]

/-- A mailbox command has ended with a status (R621, R623). -/
def State.mbxDone (t : State) (st : Nat) : Prop :=
  t.mbx.busy = false ∧ t.fld Fields.MBX_STAT_BUSY 0 = 0 ∧ t.fld Fields.MBX_STAT_DONE 0 = 1 ∧ t.fld Fields.MBX_STAT_STATUS 0 = st

/-- The rows of the mailbox with their CMD (Table 16.6). -/
def mbxRows : List (Instr × Nat) :=
  [(.mbxInfo, 1), (.mbxAnchorSet, 2), (.mbxOutFreq, 3), (.mbxOutPhase, 4), (.mbxOutLevel, 5), (.mbxOutOff, 6), (.mbxSysref, 7),
   (.mbxSyncArm, 8), (.mbxSweep, 9), (.mbxStationRun, 10), (.mbxStationStop, 11), (.mbxLaneSet, 12), (.mbxCal, 13),
   (.mbxSave, 14), (.mbxPower, 15)]

/-- Registers that a host write changes by their access codes alone. -/
def plainRegs : List RegName :=
  [.ANC_GLOBAL, .ANC_ALIGNCFG, .REF_MONCFG, .REF_STAT, .ANC_STAT, .PROF_DATA, .PROF_ADDR, .SEQ_START_LO, .SEQ_START_HI,
   .TRIG_CFG, .TRIG_LIMIT, .PGM_ADDR, .PGM_LOAD, .OUT_RBCFG, .RAS_STG_NUM_LO, .RAS_STG_DEN_LO, .RAS_STG_FRAC_HI,
   .RAS_STG_SET, .RAS_STG_EXPECT, .LN_MARGIN, .LN_ASYM, .LN_C0SRC, .LN_TRAIN, .LNG_TTCFG, .FLT_DGSTAT, .FLT_MGR,
   .FLT_EXPECT_LO, .FLT_EXPECT_HI, .FLT_RQ_DST, .FLT_RQ_DATA]
  ++ [.CAL_LIMITS, .CAL_STEPEN, .CAL_TADDR, .CAL_IMGADDR, .MON_CTL, .BAR_CFG, .BAR_WAKEEN, .BAR_INHIB, .BAR_ALERTEN,
   .BAR_TIMER, .BAR_LANEMASK, .BAR_IN_CFG, .UPD_CFG, .GLB_SCRATCH, .GLB_STATOUT, .MBX_STAT, .MBX_ARG,
   .SCHED_ADDR, .SCHED_DATA, .SCHED_TICK_LO, .SCHED_TICK_HI, .TIME_PRESET_LO, .TIME_PRESET_HI, .TIME_SYNCCFG_LO,
   .TIME_SYNCCFG_HI, .TIME_SYNCMASK, .HSPI_CFG, .SVC_CFG]

end Sys2Proof.Machine
end

