-- ==== Sys2Proof/WellFormed.lean ====
section
/-! DEFINITION. When a command is well formed: what the types of its operands do not already say. Every command has a
meaning for every operand; a command that is not well formed is one that no pin, detector or port of the device gives. -/

namespace Sys2Proof

/-- A reading that its signed 32-bit register holds (Tables 2.13, 3.17). -/
def isReading (z : Int) : Bool := decide (-2147483648 ≤ z) && decide (z < 2147483648)

/-- Entries of a store, each named once, in ascending order, at least one (R526). -/
def isEntries : List Nat → Bool
  | [] => false
  | [_] => true
  | a :: b :: l => decide (a < b) && isEntries (b :: l)

/-- A command is well formed: readings fit their registers, a tick brings at most one edge for each core, an active level
lasts at least one sample, a message has a cell, a checked store names its entries, and a barrow sample covers the eleven
analogue inputs (Table 12.4). -/
def Instr.wf : Instr → Bool
  | .tick align _ steerA steerB perrA perrB edges =>
    isReading align && isReading steerA && isReading steerB && isReading perrA && isReading perrB
      && decide (edges.length ≤ 26) && edges.all fun e => isReading e.time
  | .refGateEnd _ offset => isReading offset
  | .syncInEdge width => decide (0 < width)
  | .trigEdge _ width => decide (0 < width)
  | .teEdge _ width _ _ => decide (0 < width)
  | .rbWindowEnd _ _ _ _ phase => isReading phase
  | .cellRx _ cells _ => decide (0 < cells.length)
  | .ttResult _ _ _ _ t2 t3 _ => isReading t2 && isReading t3
  | .eccUncorr _ entries => isEntries entries
  | .injectedCheck _ _ entries _ => entries.isEmpty || isEntries entries
  | .barrowSample analogue _ _ _ _ => decide (analogue.length = 11)
  | _ => true

end Sys2Proof
end

