-- ==== Sys2Proof/Certificates/Slice0/Obligations.lean ====
section
/-! DEFINITION. The statements for the provers. Each is one proposition named after what it says; `completes c s P` says that
command `c` answers a next state from `s` and that the next state meets `P`. -/

open Sys2Proof Sys2Proof.Machine

/-! ## The queue and reset -/

/-- A step takes the command at the front of the queue and runs exec on it with the queue's rest; on an empty queue the block
idles. -/
def Obligations.StepRunsFrontCommand : Prop :=
  (∀ (s : State) (c : Instr) (q : List Instr), step { s with pending := c :: q } = exec c { s with pending := q }) ∧
  (∀ s : State, s.pending = [] → step s = .next s)

/-! ## The timeline (spec/01, spec/04) -/

/-- R23: TICK advances the count by one while the count runs, and holds it else, with no stamp of the tick before to release,
no host write held and no anchor whose tick begins. R27, R76: where the tick of the first primary begins at it, the count
starts at 0 with SRC LOCAL. While VDD_AON is down nothing moves. R160: GLIDE_END ends a glide whose time has run, on its
target setting. R267: IDLE_END ends a declared idle at its tick, and leaves all but the cores alone. -/
def Obligations.TicksAdvanceAndTimesRunOut : Prop :=
  (∀ (s : State) (al : Int) (u : Count) (sa sb pa pb : Int) (es : List CoreEdge),
    (s.pins.aon = true → s.svc.restart = false → s.later = [] → s.heldWrites = [] →
      (∀ a : Fin 2, (s.anc a).inner = false ∨ (s.anc a).hasTick = true ∨ (s.anc a).state = .off ∨ (s.anc a).state = .failed) →
      completes (.tick al u sa sb pa pb es) s fun t =>
        t.count = (if s.counting then s.count + 1 else s.count) ∧ t.elapsed = s.elapsed + 1 ∧ t.pending = s.pending) ∧
    (∀ a b : Fin 2, s.pins.aon = true → s.svc.restart = false → s.later = [] → s.heldWrites = [] → a ≠ b →
      (s.anc b).inner = false → s.primary = some a.val → s.timeSrc = 0 → (s.anc a).inner = true → (s.anc a).hasTick = false →
      ((s.anc a).state = .innerLocked ∨ (s.anc a).state = .outerAcq) →
      completes (.tick al u sa sb pa pb es) s fun t =>
        t.count = 0 ∧ t.timeSrc = 1 ∧ (t.anc a).hasTick = true ∧ t.elapsed = s.elapsed + 1) ∧
    (s.pins.aon = false → completes (.tick al u sa sb pa pb es) s fun t => t = s)) ∧
  (∀ (s : State) (c : Fin 26) (g : Glide), (s.core c).glide = some g → g.ks + g.gtime ≤ s.now →
    completes (.glideEnd c) s fun t => (t.core c).glide = none ∧ (t.core c).applied = g.dst ∧ (t.core c).theta = glideTheta g) ∧
  (∀ (s : State) (c : Fin 26) (k : Nat), (s.core c).idleUntil = some k → k ≤ s.elapsed →
    completes (.idleEnd c) s fun t => t = s.modCore c fun x => { x with idleUntil := none }) ∧
  (∀ (s : State) (c : Fin 26) (k : Nat), (s.core c).idleUntil = some k → s.elapsed < k → completes (.idleEnd c) s fun t => t = s)

/-- R38, R40, R41: EFFECT_RELEASE releases what is due of step 1 of Table 1.3, then applies the effect a station has named
for the present tick, when it is ready, and takes it out of the holding queue; a station whose first effect is named for a
later tick keeps its queue. R49, R52: LATE_EFFECT applies an effect whose named tick has passed and counts it. R225:
COLD_UNGATE ungates the outputs of a cold hop whose named tick has come. R263, Tables 6.11 and 6.12: what a released effect
does to the outputs and pins of its station. OUTG gates, or ungates, the outputs named in it that the station may drive and
that it need not mask; STAT sets the pins mapped to the station; HALT stops the station; an output that the station may not
drive, and a pin mapped elsewhere, are left alone (R266). -/
def Obligations.EffectsAreReleased : Prop :=
  (∀ (s u : State) (n : Fin 8) (e : Effect), s.halted = false → s.stepOne = u → u.counting = true →
    (∀ m : Fin 8, m ≠ n → (u.stn m).queue = []) →
    (u.stn n).queue = [e] → (u.stn n).run = .running → e.tick = u.now → u.effectReady n e = true →
    completes .effectRelease s fun t => t = { u.releaseFront n e with stepped := true } ∧ (t.stn n).queue = []) ∧
  (∀ s u : State, s.halted = false → s.stepOne = u →
    (∀ (m : Fin 8) (e : Effect) (l : List Effect), (u.stn m).queue = e :: l → u.now < e.tick) →
    completes .effectRelease s fun t => t = { u with stepped := true }) ∧
  (∀ (s : State) (n : Fin 8) (e : Effect) (l : List Effect), s.counting = true → (s.stn n).queue = e :: l →
    (s.stn n).run = .running → e.tick < s.now → s.effectReady n e = true →
    completes (.lateEffect n) s fun t => t = { (s.noteLate n e.tick).releaseFront n e with stepped := true } ∧
      (s.noteLate n e.tick).fld Fields.TIME_LATECNT_COUNT n = satAdd (s.fld Fields.TIME_LATECNT_COUNT n) 32 1) ∧
  (∀ (s : State) (n : Fin 8) (w : ColdWait), s.counting = true → (s.stn n).colds = [w] → s.coldDue n w = true →
    completes (.coldUngate n) s fun t => (t.stn n).colds = [] ∧
      ∀ o : Fin 32, (t.out o).progGate = if bitOf w.outs o then false else (s.out o).progGate) ∧
  (∀ (s : State) (n : Fin 8) (e : Effect) (outs : Word), e.act = .outg false outs →
    ∀ o : Fin 32, ((s.applyAct n e).out o).progGate =
      if bitOf outs o && bitOf (s.reg .STN_OUTMASK n) o then true else (s.out o).progGate) ∧
  (∀ (s : State) (n : Fin 8) (e : Effect) (m v : BitVec 8), e.act = .stat m v →
    ∀ k : Fin 8, (s.applyAct n e).statPins[k] =
      if m.getLsbD k && getBits (s.reg .SEQ_STATMAP 0) (4 * k) 4 == n then some (v.getLsbD k) else s.statPins[k]) ∧
  (∀ (s : State) (n : Fin 8) (e : Effect), e.act = .halt →
    ((s.applyAct n e).stn n).run = .stopped ∧ ((s.applyAct n e).stn n).queue = [])

/-- R16, R18, R57, R610: HOST_WRITE to a register that has no rule of its own changes it by its access codes: RW fields take
the value, sticky W1C bits written one clear, the rest stays. The write's release tick and status are recorded, and no other
register changes. R613, R614: a host write that is not aligned, or that lies outside every block, is refused with RANGE and
changes no register but HSPI_STAT; a write to a keyed register without the key is refused with KEYERR and raises
KEYED_WRITE. A port whose domain is off answers nothing. R41, R57: a host write that comes after the sequencer effects of
its tick waits for the next tick. R15, R25: TIME_NOW_READ returns the low word of the count and latches the high word. -/
def Obligations.HostAccesses : Prop :=
  (∀ (s : State) (r : RegName) (i : Nat) (w : Word), s.serves = true → r ∈ plainRegs → i < (regSpec r).count →
    completes (.hostWrite (BitVec.ofNat 16 (regAddr r i)) w) s fun t =>
      t.reg r i = (regSpec r).merge (s.stuckNow r i) (s.reg r i) w ∧ s.wrote t ∧
      ∀ (r' : RegName) (j : Nat), ¬(r = r' ∧ i = j) → t.reg r' j = s.reg r' j) ∧
  (∀ (s : State) (a : BitVec 16) (w : Word), s.serves = true → (a.toNat % 4 ≠ 0 ∨ inBlock a.toNat = false) →
    completes (.hostWrite a w) s fun t => t.refusedWith .range ∧
      ∀ (r : RegName) (j : Nat), r ≠ .HSPI_STAT → t.reg r j = s.reg r j) ∧
  (∀ (s : State) (w : Word), s.serves = true → getBits w 24 8 ≠ 0xA5 →
    completes (.hostWrite (BitVec.ofNat 16 (regAddr .STORE_CMD 0)) w) s fun t => t.refusedWith .keyerr ∧ t.store = s.store ∧
      ∃ r : Raise, t.raises = s.raises ++ [r] ∧ r.fid = Src.glb_KEYED_WRITE) ∧
  (∀ (s : State) (a : BitVec 16) (w : Word), s.hostServes = false → completes (.hostWrite a w) s fun t => t = s) ∧
  (∀ (s : State) (a : BitVec 16) (w : Word), s.hostServes = true → s.stepped = true → s.halted = false →
    completes (.hostWrite a w) s fun t => t = { s with heldWrites := s.heldWrites ++ [(a.toNat, w)] }) ∧
  (∀ s : State, s.hostServes = true → s.power ≠ 4 → completes .timeNowRead s fun t =>
    t.readData = loWord s.now ∧ t.reg .TIME_NOW_HI 0 = hiWord s.now ∧ t.count = s.count) ∧
  (∀ s : State, s.power ≠ 4 → s.readAddr (regAddr .TIME_NOW_HI 0) = (.ok, s.reg .TIME_NOW_HI 0, s))

/-- R177, R30: SYNC_ARM opens the arming window when none is open and is refused with BUSY when one is; SYNC_LOAD arms a load
in it when R28 admits one and none is armed, and is refused with BUSY else; SYNC_CANCEL closes it. SYNC_WINDOW_CLOSE closes
a window whose time is over, and no other. R178, R306: a qualified SYNC_IN edge inside an open window that has counted none
is stamped, and its restart and load become due SYNC_LATENCY later, beside those of earlier edges; any other qualified edge
adds to EXTRA and raises SYNC_EXTRA. R180, R181: at that tick SYNC_RESTART gives every masked output that no guaranteed
program owns the edge's tick as its divider reference. R29: TIMELINE_LOAD_SYNC then loads the count from TIME_PRESET, or
sets LOADLOST when R28 no longer admits the load. -/
def Obligations.SyncWindowAndEdge : Prop :=
  (∀ s : State, s.serves = true → s.sync = none → completes .syncArm s fun t =>
    t.sync = some ⟨if s.fld Fields.TIME_SYNCCFG_HI_WINDOW 0 = 0 then none
      else some (s.elapsed + 1000 * s.fld Fields.TIME_SYNCCFG_HI_WINDOW 0), false, true, false⟩ ∧ s.wrote t) ∧
  (∀ s : State, s.serves = true → s.sync.isSome = true → completes .syncArm s fun t => t.refusedWith .busy ∧ t.sync = s.sync) ∧
  (∀ (s : State) (x : SyncWindow), s.serves = true → s.sync = some x → s.loadArmed = false → s.loadAllowed = true →
    completes .syncLoad s fun t => t.sync = some { x with load := true } ∧ s.wrote t) ∧
  (∀ s : State, s.serves = true → s.sync = none → s.loadArmed = false → s.loadAllowed = true →
    completes .syncLoad s fun t => (∃ k, t.sync = some ⟨k, false, false, true⟩) ∧ s.wrote t) ∧
  (∀ s : State, s.serves = true → (s.loadArmed = true ∨ s.loadAllowed = false) →
    completes .syncLoad s fun t => t.refusedWith .busy ∧ t.sync = s.sync) ∧
  (∀ s : State, s.serves = true → completes .syncCancel s fun t => t.sync = none ∧ s.wrote t) ∧
  (∀ (s : State) (x : SyncWindow) (k : Nat), s.sync = some x → x.closesAt = some k → k ≤ s.elapsed →
    completes .syncWindowClose s fun t => t = { s with sync := none }) ∧
  (∀ (s : State) (x : SyncWindow), s.sync = some x → (∀ k, x.closesAt = some k → s.elapsed < k) →
    completes .syncWindowClose s fun t => t = s) ∧
  (∀ (s : State) (width : Nat) (x : SyncWindow), s.up = true → s.trigOn 8 = true → s.minWidth 8 ≤ width →
    (s.trig 8).since + s.minWidth 8 ≤ s.elapsed → (s.trig 8).lastAt = none → s.sync = some x → x.counted = false →
    (∀ k, x.closesAt = some k → s.elapsed < k) →
    completes (.syncInEdge width) s fun t => t.syncStamp = s.now ∧
      t.syncDue = s.syncDue ++ [⟨s.now, s.now + s.syncLatency, x.restart, x.load⟩] ∧ t.count = s.count) ∧
  (∀ (s : State) (width : Nat), s.up = true → s.trigOn 8 = true → s.minWidth 8 ≤ width →
    (s.trig 8).since + s.minWidth 8 ≤ s.elapsed → (s.trig 8).lastAt = none → s.sync = none → completes (.syncInEdge width) s fun t => t.syncDue = s.syncDue ∧
      t.fld Fields.TIME_SYNCSTAT_EXTRA 0 = satAdd (s.fld Fields.TIME_SYNCSTAT_EXTRA 0) Fields.TIME_SYNCSTAT_EXTRA.width 1) ∧
  (∀ (s : State) (d : SyncDue), s.dueEdge SyncDue.restart = some d → s.anyRunning = false →
    completes .syncRestart s fun t => (∀ o : Fin 32,
      (t.out o).kr = if bitOf (s.reg .TIME_SYNCMASK 0) o then d.due else (s.out o).kr) ∧ t.count = s.count) ∧
  (∀ (s : State) (d : SyncDue), s.dueEdge (fun d => d.load && !d.restart) = some d → s.loadAllowed = true →
    completes .timelineLoadSync s fun t => t.count = s.preset + BitVec.ofNat 64 (s.now - d.due) ∧
      ∀ o : Fin 32, (t.out o).kr = s.preset.toNat) ∧
  (∀ (s : State) (d : SyncDue), s.dueEdge (fun d => d.load && !d.restart) = some d → s.loadAllowed = false →
    completes .timelineLoadSync s fun t => t.count = s.count ∧ t.flag Fields.TIME_SYNCCMD_LOADLOST 0 = true)

/-- R618: SCHED_GO queues the write that SCHED_ADDR, SCHED_DATA and SCHED_TICK describe, unless its register may not be
written so (RANGE), its tick is less than 16 ticks away (LATE), or eight wait (FULL). R620: SCHED_FLUSH discards what is
named for now or later. R41, R619: SCHED_RELEASE releases what is due of step 1, a scheduled write among it, and leaves the
rest queued. -/
def Obligations.ScheduledWrites : Prop :=
  (∀ s : State, s.serves = true → schedulable (s.fld Fields.SCHED_ADDR_ADDR 0) = true →
    keyMissing (s.fld Fields.SCHED_ADDR_ADDR 0) (s.reg .SCHED_DATA 0) = false →
    s.now + 16 ≤ ofWords (s.reg .SCHED_TICK_LO 0) (s.reg .SCHED_TICK_HI 0) → s.sched.length < 8 →
    completes .schedGo s fun t => t.sched = s.sched ++ [⟨s.fld Fields.SCHED_ADDR_ADDR 0, s.reg .SCHED_DATA 0,
      ofWords (s.reg .SCHED_TICK_LO 0) (s.reg .SCHED_TICK_HI 0), s.acceptSeq⟩] ∧ t.acceptSeq = s.acceptSeq + 1 ∧ s.wrote t) ∧
  (∀ s : State, s.serves = true → schedulable (s.fld Fields.SCHED_ADDR_ADDR 0) = false →
    completes .schedGo s fun t => t.refusedWith .range ∧ t.sched = s.sched) ∧
  (∀ s : State, s.serves = true → schedulable (s.fld Fields.SCHED_ADDR_ADDR 0) = true →
    keyMissing (s.fld Fields.SCHED_ADDR_ADDR 0) (s.reg .SCHED_DATA 0) = false →
    ofWords (s.reg .SCHED_TICK_LO 0) (s.reg .SCHED_TICK_HI 0) < s.now + 16 →
    completes .schedGo s fun t => t.refusedWith .late ∧ t.sched = s.sched) ∧
  (∀ s : State, s.serves = true → schedulable (s.fld Fields.SCHED_ADDR_ADDR 0) = true →
    keyMissing (s.fld Fields.SCHED_ADDR_ADDR 0) (s.reg .SCHED_DATA 0) = false →
    s.now + 16 ≤ ofWords (s.reg .SCHED_TICK_LO 0) (s.reg .SCHED_TICK_HI 0) → 8 ≤ s.sched.length →
    completes .schedGo s fun t => t.refusedWith .full ∧ t.sched = s.sched) ∧
  (∀ s : State, s.serves = true → completes .schedFlush s fun t =>
    t.sched = s.sched.filter (fun e => decide (e.tick < s.now)) ∧ s.wrote t) ∧
  (∀ (s : State) (e : SchedWrite) (u : State), s.counting = true → s.halted = false → s.syncDue = [] → s.dueWrites = [.sched e] →
    ({ s with sched := s.sched.filter (· != e) } : State).writeAddr e.addr e.data = (.ok, u) →
    completes .schedRelease s fun t => t = u) ∧
  (∀ s : State, s.syncDue = [] → (∀ x ∈ s.sched, s.now < x.tick) → (∀ x ∈ s.fleet.changes, s.now < x.relTick) →
    completes .schedRelease s fun t => t = s) ∧
  (∀ s : State, (s.counting = false ∨ s.halted = true) → completes .schedRelease s fun t => t = s)

/-- R306, R307: TRIG_EDGE stamps an edge whose active samples number MINW or more, and posts it to every station that enables
the source; a shorter one is a runt and only counts; one that comes less than SPACE ticks after the last event is dropped,
counted, and raises OVERRUN. R308: TRIG_STUCK fences the input. R309: TRIG_REARM asks for the end of the fence, and
TRIG_FENCE_END ends it. -/
def Obligations.TriggerQualifier : Prop :=
  (∀ (s : State) (n : Fin 8) (width : Nat), s.up = true → s.trigOn n = true → s.minWidth n ≤ width →
    (s.trig n).since + s.minWidth n ≤ s.elapsed → (s.trig n).lastAt = none → s.anyRunning = false → completes (.trigEdge n width) s fun t => (t.trig n).lastAt = some s.elapsed ∧
      t.stations = s.stations ∧ t.raises = s.raises) ∧
  (∀ (s : State) (n : Fin 8) (k : Fin 8) (width : Nat), s.up = true → s.trigOn n = true → s.minWidth n ≤ width →
    (s.trig n).since + s.minWidth n ≤ s.elapsed → (s.trig n).lastAt = none → (s.stn k).running = true → (s.stn k).enabled.contains n.val = true → (s.stn k).events = [] →
    (s.stn k).mark n < s.now → completes (.trigEdge n width) s fun t => (t.stn k).events = [⟨n, s.now, 0⟩]) ∧
  (∀ (s : State) (n : Fin 8) (width : Nat), s.up = true → s.flag Fields.TRIG_CFG_EN n = true → width < s.minWidth n →
    (s.trig n).since + width ≤ s.elapsed →
    completes (.trigEdge n width) s fun t => t.stations = s.stations ∧ (t.trig n).lastAt = (s.trig n).lastAt ∧
      t.fld Fields.TRIG_CNT_RUNT n = satAdd (s.fld Fields.TRIG_CNT_RUNT n) Fields.TRIG_CNT_RUNT.width 1) ∧
  (∀ (s : State) (n : Fin 8) (width k : Nat), s.up = true → s.trigOn n = true → s.minWidth n ≤ width →
    (s.trig n).since + s.minWidth n ≤ s.elapsed → (s.trig n).lastAt = some k → s.elapsed - k < s.fld Fields.TRIG_CFG_SPACE n →
    completes (.trigEdge n width) s fun t => t.stations = s.stations ∧ (t.trig n).lastAt = some k ∧
      t.flag Fields.TRIG_STAT_OVERRUN n = true ∧ ∃ r : Raise, t.raises = s.raises ++ [r] ∧ r.fid = trigOverrun n) ∧
  (∀ (s : State) (n : Fin 9), s.up = true → s.trigOn n = true → s.fld Fields.TRIG_LIMIT_STUCK n ≠ 0 →
    completes (.trigStuck n) s fun t => t.flag Fields.TRIG_STAT_FENCED n = true ∧ t.flag Fields.TRIG_STAT_STUCKSEEN n = true ∧
      ∃ r : Raise, t.raises = s.raises ++ [r] ∧ r.fid = trigStuck n ∧ r.stamp = s.now) ∧
  (∀ (s : State) (n : Fin 9), s.serves = true → s.flag Fields.TRIG_STAT_FENCED n = true →
    completes (.trigRearm n) s fun t => (t.trig n).rearm = true ∧ t.flag Fields.TRIG_STAT_FENCED n = true ∧ s.wrote t) ∧
  (∀ (s : State) (n : Fin 9), s.up = true → (s.trig n).rearm = true →
    completes (.trigFenceEnd n) s fun t => t.flag Fields.TRIG_STAT_FENCED n = false ∧ (t.trig n).rearm = false)

/-! ## References and anchors (spec/02) -/

/-- R63, R64: a silence of MISS nominal periods, or a gate whose offset exceeds REJECT, disqualifies an enabled reference
that was qualified: DQ is set and DQCNT counts. R65, R66: a gate inside ACCEPT qualifies one whose qualification time is
over, and a gate outside ACCEPT restarts that time. REF_FOFFS takes the offset; no other reference changes. -/
def Obligations.ReferenceQualification : Prop :=
  (∀ (s : State) (r : Fin 5) (quiet : Nat), s.up = true → s.flag Fields.REF_CFG_EN r = true → (s.ref r).qualified = true →
    s.edgeMissing r quiet = true →
    completes (.refMissingEdge ⟨r, quiet⟩) s fun t => (t.ref r).qualified = false ∧ (t.ref r).active = false ∧
      t.flag Fields.REF_STAT_DQ r = true ∧
      t.fld Fields.REF_DQCNT_COUNT r = satAdd (s.fld Fields.REF_DQCNT_COUNT r) Fields.REF_DQCNT_COUNT.width 1 ∧
      t.cores = s.cores ∧ t.outs = s.outs ∧ ∀ q : Fin 5, q ≠ r → t.ref q = s.ref q) ∧
  (∀ (s : State) (r : Fin 5) (off : Int), s.up = true → s.flag Fields.REF_CFG_EN r = true → (s.ref r).qualified = true →
    s.fld Fields.REF_FWIN_REJECT r * 10 < off.natAbs →
    completes (.refGateEnd r off) s fun t => (t.ref r).qualified = false ∧ t.reg .REF_FOFFS r = wordOfInt off ∧
      t.flag Fields.REF_STAT_DQ r = true ∧ ∀ q : Fin 5, q ≠ r → t.ref q = s.ref q) ∧
  (∀ (s : State) (r : Fin 5) (off : Int) (k : Nat), s.up = true → s.flag Fields.REF_CFG_EN r = true →
    (s.ref r).qualified = false → (s.ref r).held = false → off.natAbs ≤ s.fld Fields.REF_FWIN_ACCEPT r * 10 →
    off.natAbs ≤ s.fld Fields.REF_FWIN_REJECT r * 10 → (s.ref r).qualFrom = some k → k + s.qualTicks r ≤ s.elapsed →
    s.refRatioOk r = true →
    completes (.refGateEnd r off) s fun t => (t.ref r).qualified = true ∧ t.reg .REF_FOFFS r = wordOfInt off ∧
      ∀ q : Fin 5, q ≠ r → t.ref q = s.ref q) ∧
  (∀ (s : State) (r : Fin 5) (off : Int), s.up = true → s.flag Fields.REF_CFG_EN r = true →
    (s.ref r).qualified = false → (s.ref r).held = false → s.fld Fields.REF_FWIN_ACCEPT r * 10 < off.natAbs →
    off.natAbs ≤ s.fld Fields.REF_FWIN_REJECT r * 10 →
    completes (.refGateEnd r off) s fun t => (t.ref r).qualified = false ∧ (t.ref r).qualFrom = some s.elapsed ∧
      t.anchors = s.anchors)

/-- R74 to R80, R95: inner and outer lock of an anchor, declared and lost when its phase error has been within, or beyond,
the window for the count that the rules give, the outer one also at the steering limit (R70). The first anchor with inner
lock becomes primary, its tick not begun; a later one follows; in FAILED only the detector moves. Table 2.4, R42: a loss is
stamped with its raise, and what it brings about, by what the event found of the secondary (R84), waits for the next tick. -/
def Obligations.AnchorLocksAndLosses : Prop :=
  (∀ (s : State) (a : Fin 2) (k worst : Nat), s.up = true → (s.anc a).state = .failed → (s.anc a).inner = false →
    worst ≤ s.innerWindow a → s.innerCount a ≤ k →
    completes (.ancInnerLock ⟨a, k, worst⟩) s fun t => t = s.modAnc a fun x => { x with inner := true }) ∧
  (∀ (s : State) (a : Fin 2) (k worst : Nat), s.up = true → (s.anc a).state = .innerAcq → (s.anc a).inner = false →
    worst ≤ s.innerWindow a → s.innerCount a ≤ k → s.primary = none → s.mayLead a = true →
    completes (.ancInnerLock ⟨a, k, worst⟩) s fun t => t.primary = some a.val ∧ t.count = s.count ∧
      (t.anc a).inner = true ∧ (t.anc a).hasTick = (s.anc a).hasTick ∧ (t.anc a).secondary = false ∧
      (t.anc a).state = if s.mayAcquire a then .outerAcq else .innerLocked) ∧
  (∀ (s : State) (a : Fin 2) (k worst : Nat), s.up = true → s.innerWindow a < worst →
    completes (.ancInnerLock ⟨a, k, worst⟩) s fun t => t = s) ∧
  (∀ (s : State) (a : Fin 2) (k worst p : Nat), s.up = true → (s.anc a).state = .innerAcq → (s.anc a).inner = false →
    worst ≤ s.innerWindow a → s.innerCount a ≤ k → s.carrier = some p → p ≠ a.val → s.dual = true → s.initDone = true →
    completes (.ancInnerLock ⟨a, k, worst⟩) s fun t => (t.anc a).state = .following ∧ (t.anc a).secondary = true ∧
      (t.anc a).inner = true ∧ t.primary = s.primary ∧ t.count = s.count) ∧
  (∀ (s : State) (a : Fin 2) (k least : Nat), s.up = true → (s.anc a).state ≠ .failed → (s.anc a).inner = true →
    s.innerWindow a < least → 8 ≤ k →
    completes (.ancInnerLoss ⟨a, k, least⟩) s fun t => (t.anc a).inner = false ∧
      t.later = s.later ++ [.inner a (s.ancReady (otherAnc a)) (s.follower == some (otherAnc a))] ∧
      (∃ r : Raise, t.raises = s.raises ++ [r] ∧ r.fid = innerLost a ∧ r.stamp = s.now) ∧ t.cores = s.cores ∧ t.regs = s.regs) ∧
  (∀ (s : State) (a : Fin 2) (k worst : Nat), s.up = true → s.primary = some a.val → (s.anc a).state = .outerAcq →
    s.mayAcquire a = true → s.atSteerLimit a = false → worst ≤ s.outerWindow a → s.outerDistance a ≤ worst → s.outerCount a ≤ k →
    completes (.ancOuterLock ⟨a, k, worst⟩) s fun t =>
      (t.anc a).state = .steered ∧ (t.anc a).outer = true ∧ t.primary = s.primary) ∧
  (∀ (s : State) (a : Fin 2) (k worst : Nat), s.up = true → s.primary ≠ some a.val → (s.anc a).state = .following →
    (s.anc a).outer = false → s.mayAcquire a = true → s.atSteerLimit a = false → worst ≤ s.outerWindow a →
    s.outerDistance a ≤ worst → s.outerCount a ≤ k →
    completes (.ancOuterLock ⟨a, k, worst⟩) s fun t => t = s.modAnc a fun x => { x with outer := true }) ∧
  (∀ (s : State) (a : Fin 2) (k least : Nat), s.up = true → (s.anc a).outer = true →
    (s.atSteerLimit a = true ∨ (s.outerWindow a < least ∧ (least : Rat) ≤ s.outerDistance a ∧ 16 ≤ k)) →
    completes (.ancOuterLoss ⟨a, k, least⟩) s fun t => (t.anc a).outer = false ∧
      t.later = (if s.primary = some a.val then s.later ++ [.unsteered a (outerLost a) (s.ancReady (otherAnc a))]
        else s.later) ∧
      (∃ r : Raise, t.raises = s.raises ++ [r] ∧ r.fid = outerLost a ∧ r.stamp = s.now) ∧ t.cores = s.cores ∧ t.regs = s.regs) ∧
  (∀ (s : State) (a : Fin 2) (k least : Nat), s.up = true → (s.anc a).outer = false →
    completes (.ancOuterLoss ⟨a, k, least⟩) s fun t => t = s)

/-- R80, R99: the roles of the anchors are exchanged when the secondary is ready, once at the start to honour PRIMARY_INIT
and at ANC_CMD.SWAP, and the count goes on from the new primary's copy (R89); of the cores only the anchor term changes
(R191). A SWAP with a secondary that is not ready sets CMDERR. R93: a command to the anchors is refused with BUSY while a
transfer runs. R95: a FAILED anchor rejoins as secondary through INNER_ACQ. R101: EN = 1 powers an anchor in OFF, which
acquires inner lock; EN = 0 takes it to OFF. R97, R98: ANC_COREMAP assigns the cores; with both anchors driving, no core is
disturbed but for its anchor term (R191). -/
def Obligations.AnchorRolesAndEnables : Prop :=
  (∀ (s : State) (p : Fin 2), s.up = true → s.primary = some p.val → s.dual = true → s.initDone = false →
    p.val ≠ s.fld Fields.ANC_GLOBAL_PRIMARY_INIT 0 → s.ancReady (otherAnc p) = true →
    completes .primaryInitExchange s fun t => t.primary = some (otherAnc p) ∧ t.initDone = true ∧
      t.count = (s.anc (otherAnc p)).copy ∧ (t.anc (otherAnc p)).state = .steered ∧ (t.anc p).state = .following ∧
      ∀ c : Fin 26, { t.core c with ancTerm := 0 } = { s.core c with ancTerm := 0 }) ∧
  (∀ (s : State) (p : Fin 2), s.serves = true → s.transfer = none → s.primary = some p.val → s.ancReady (otherAnc p) = true →
    completes .ancSwap s fun t => t.primary = some (otherAnc p) ∧ (t.anc (otherAnc p)).state = .steered ∧
      t.count = (s.anc (otherAnc p)).copy ∧ (t.anc p).state = .following ∧ (t.anc p).secondary = true ∧
      (∀ c : Fin 26, { t.core c with ancTerm := 0 } = { s.core c with ancTerm := 0 }) ∧ s.wrote t) ∧
  (∀ (s : State) (p : Fin 2), s.serves = true → s.transfer = none → s.primary = some p.val → s.ancReady (otherAnc p) = false →
    completes .ancSwap s fun t => t.flag Fields.ANC_STAT_CMDERR p = true ∧ t.primary = s.primary ∧ t.anchors = s.anchors) ∧
  (∀ s : State, s.serves = true → s.transfer.isSome = true →
    completes .ancSwap s fun t => t.refusedWith .busy ∧ t.anchors = s.anchors ∧ t.primary = s.primary) ∧
  (∀ (s : State) (a : Fin 2), s.serves = true → s.transfer = none → (s.anc a).state = .failed →
    completes (.ancRejoin a) s fun t => (t.anc a).state = .innerAcq ∧ (t.anc a).secondary = true ∧ s.wrote t) ∧
  (∀ (s : State) (a : Fin 2), s.up = true → s.autoRejoinDue a = true →
    completes (.ancAutorejoin a) s fun t => t = s.modAnc a fun x => { x with state := .innerAcq, secondary := true }) ∧
  (∀ (s : State) (a : Fin 2), s.serves = true → s.transfer = none → s.flag Fields.ANC_CFG_EN a = false →
    (s.anc a).state = .off → s.innerOk a = true →
    completes (.ancEnable a) s fun t => (t.anc a).state = .innerAcq ∧ t.flag Fields.ANC_CFG_EN a = true ∧ s.wrote t) ∧
  (∀ (s : State) (a : Fin 2), s.serves = true → s.transfer = none → s.flag Fields.ANC_CFG_EN a = true →
    completes (.ancDisable a) s fun t => (t.anc a).state = .off ∧ (t.anc a).inner = false ∧ (t.anc a).hasTick = false ∧
      s.wrote t) ∧
  (∀ (s : State) (w : Word), s.serves = true → s.transfer = none → (∀ c : Fin 26, s.coreOwned c = false) →
    (s.anc 0).state.drives = true → (s.anc 1).state.drives = true →
    completes (.ancCoremapWrite w) s fun t => t.reg .ANC_COREMAP 0 = w &&& 0x3FFFFFF#32 ∧
      (∀ c : Fin 26, { t.core c with ancTerm := 0 } = { s.core c with ancTerm := 0 }) ∧ t.anchors = s.anchors ∧ s.wrote t) ∧
  (∀ (s : State) (w : Word) (c : Fin 26), s.serves = true → s.transfer = none → s.coreOwned c = true →
    bitOf w c ≠ bitOf (s.reg .ANC_COREMAP 0) c →
    completes (.ancCoremapWrite w) s fun t => t.refusedWith .owned ∧ t.reg .ANC_COREMAP 0 = s.reg .ANC_COREMAP 0)

/-- R85, Table 2.4: an alignment beyond TRIP, with no lock or reference event at its tick, freezes the secondary's steering,
and 1,000 ticks later with the case not settled ALIGN_TRIP is stamped. R102, R103, R657: the two outer TDCs of an anchor are
checked, and fenced, on its own word. -/
def Obligations.AlignmentAndTdcChecks : Prop :=
  (∀ (s : State) (a : Fin 2), s.up = true → s.follower = some a.val → s.alignOver = none →
    s.alignTrip < (intOfWord (s.reg .ANC_ALIGN 0)).natAbs → s.ancEventAt ≠ some s.elapsed →
    completes .alignExceeded s fun t => t = { s with alignOver := some s.elapsed } ∧ t.frozen a = true) ∧
  (∀ s : State, s.up = true → s.ancEventAt = some s.elapsed → completes .alignExceeded s fun t => t = s) ∧
  (∀ (s : State) (k : Nat), s.up = true → s.alignOver = some k → k + 1000 ≤ s.elapsed →
    completes .alignTrip s fun t => t.alignOver = none ∧
      ∃ r : Raise, t.raises = s.raises ++ [r] ∧ r.fid = Src.anc_ALIGN_TRIP ∧ r.stamp = s.now) ∧
  (∀ (s : State) (a : Fin 2), s.up = true → (s.anc a).hasTick = true → (s.anc a).tdcActive = true →
    (s.anc a).tdcSpare = true → (s.anc a).tdcChecking = false →
    completes (.ancTdcXcheckFail a) s fun t => t = s.modAnc a (fun x => { x with tdcChecking := true }) ∧ t.frozen a = true) ∧
  (∀ (s : State) (a : Fin 2) (x y : Bool), s.up = true → (s.anc a).tdcChecking = true →
    completes (.ancTdcCheckDone a x y) s fun t => (t.anc a).tdcChecking = false ∧
      (t.anc a).tdcActive = ((s.anc a).tdcActive && !x) ∧ (t.anc a).tdcSpare = ((s.anc a).tdcSpare && !y) ∧
      (x ≠ y → ∃ r : Raise, r ∈ t.raises ∧ r.fid = tdcFenced a ∧ r.stamp = s.now) ∧
      (t.anc a).spareIn = ((s.anc a).spareIn || (x && !y && (s.anc a).tdcSpare)) ∧ t.regs = s.regs) ∧
  (∀ (s : State) (a : Fin 2), s.up = true → (s.anc a).tdcActive ≠ (s.anc a).tdcSpare →
    completes (.ancTdcSingleFail a) s fun t => (t.anc a).tdcActive = false ∧ (t.anc a).tdcSpare = false ∧
      (t.anc a).outer = false ∧ ∃ r : Raise, r ∈ t.raises ∧ r.fid = tdcFenced a ∧ r.stamp = s.now)

/-! ## Synthesis cores (spec/03) -/

/-- R110, R142, R58, R489: CORE_APPLY takes the staged setting, hint and a zero offset into an enabled core, which gates its
outputs and starts an acquisition; a setting outside R110 is refused with RANGE and sets CFGERR; the command is refused with
OWNED on a core that a guaranteed program or a raster channel owns, and with STATE outside ACTIVE. R144, R21: CORE_RELOCK
acquires warm from LOCKED or LOST and cold from IDLE; CORE_SEARCH acquires cold in SEARCH mode; neither touches the applied
setting, and a RELOCK while an acquisition runs does nothing. R107: CORE_SPAREMAP_WRITE names the spares, while no station
runs. -/
def Obligations.CoreCommands : Prop :=
  (∀ (s : State) (c : Fin 26), s.serves = true → s.active = true → s.settingOwned c = false → (s.core c).role ≠ .fenced →
    (s.staged c).valid = true → s.flag Fields.CORE_CFG_EN c = true → (s.staged c).sameFreq (s.core c).applied = false →
    completes (.coreApply c) s fun t => (t.core c).applied = s.staged c ∧ (t.core c).theta = 0 ∧
      (t.core c).appliedSub = s.fld Fields.CORE_NBAND_SUB c ∧ (t.core c).appliedBand = s.fld Fields.CORE_NBAND_BAND c ∧
      ((t.core c).state = .select ∨ (t.core c).state = .acquire) ∧ (t.core c).gates = true ∧ (t.core c).cfgErr = false ∧ s.wrote t) ∧
  (∀ (s : State) (c : Fin 26), s.serves = true → s.active = true → s.settingOwned c = false → (s.core c).role ≠ .fenced →
    (s.staged c).valid = false →
    completes (.coreApply c) s fun t => t.refusedWith .range ∧ t.core c = { s.core c with cfgErr := true } ∧ t.outs = s.outs) ∧
  (∀ (s : State) (c : Fin 26), s.serves = true → s.settingOwned c = true →
    completes (.coreApply c) s fun t => t.refusedWith .owned ∧ t.cores = s.cores ∧ t.outs = s.outs) ∧
  (∀ (s : State) (c : Fin 26), s.serves = true → s.settingOwned c = false → s.active = false →
    completes (.coreApply c) s fun t => t.refusedWith .state ∧ t.cores = s.cores ∧ t.outs = s.outs) ∧
  (∀ (s : State) (c : Fin 26), s.serves = true → s.active = true → s.settingOwned c = false →
    s.flag Fields.CORE_CFG_EN c = true → ((s.core c).state = .locked ∨ (s.core c).state = .lost) →
    completes (.coreRelock c) s fun t => (t.core c).state = .acquire ∧ (t.core c).bandChosen = true ∧
      (t.core c).band = (s.core c).band ∧ (t.core c).sub = (s.core c).sub ∧ (t.core c).applied = (s.core c).applied ∧ s.wrote t) ∧
  (∀ (s : State) (c : Fin 26), s.serves = true → s.active = true → s.settingOwned c = false →
    s.flag Fields.CORE_CFG_EN c = true → (s.core c).state = .idle → s.bandMode c ≠ .forced →
    completes (.coreRelock c) s fun t => (t.core c).state = .select ∧ (t.core c).acqMode = s.bandMode c ∧
      (t.core c).applied = (s.core c).applied ∧ s.wrote t) ∧
  (∀ (s : State) (c : Fin 26), s.serves = true → s.active = true → s.settingOwned c = false →
    ((s.core c).state = .select ∨ (s.core c).state = .acquire) →
    completes (.coreRelock c) s fun t => t.cores = s.cores ∧ s.wrote t) ∧
  (∀ (s : State) (c : Fin 26), s.serves = true → s.active = true → s.settingOwned c = false →
    s.flag Fields.CORE_CFG_EN c = true →
    ((s.core c).state = .locked ∨ (s.core c).state = .lost ∨ (s.core c).state = .idle) →
    completes (.coreSearch c) s fun t => (t.core c).state = .select ∧ (t.core c).acqMode = .search ∧
      (t.core c).applied = (s.core c).applied ∧ s.wrote t) ∧
  (∀ (s : State) (w : Word), s.serves = true → s.anyRunning = false →
    (∀ c : Fin 26, bitOf w c = true → s.mapOwner c = none ∧ (s.core c).role ≠ .fenced) →
    (∀ c : Fin 26, (s.core c).racingFor = none ∧ (s.core c).reassign = none) →
    completes (.coreSparemapWrite w) s fun t => t.reg .CORE_SPAREMAP 0 = w &&& 0x3FFFFFF#32 ∧ s.wrote t ∧
      ∀ c : Fin 26, (t.core c).role =
        if bitOf (s.reg .CORE_SPAREMAP 0) c = bitOf w c then (s.core c).role else if bitOf w c then .spare else .unassigned) ∧
  (∀ (s : State) (w : Word), s.serves = true → s.anyRunning = true →
    completes (.coreSparemapWrite w) s fun t => t.refusedWith .busy ∧ t.cores = s.cores)

/-- R119, R121, R126, R129, R131, R134: an acquisition in its order. BAND_SELECT_DONE closes the loop on the band chosen, or
raises BAND_RANGE; FASTLOCK_END starts the lock count; CORE_LOCK declares lock and keeps the outputs gated; UNGATE_HOLD_END
lets them go; ACQ_TIMEOUT tries once more in SEARCH mode and then raises NO_LOCK; RACE_TIMEOUT returns a racing spare to
IDLE. -/
def Obligations.AcquisitionRuns : Prop :=
  (∀ (s : State) (c : Fin 26), s.up = true → s.bandAdmitted c = true → (s.core c).role ≠ .fenced →
    completes (.bandSelectDone c) s fun t =>
      match selectWithRepeat (fun sub b => Config.bandHz c sub b s.elapsed) (s.core c).applied.hz (s.core c).acqMode
          (s.core c).appliedSub (s.core c).appliedBand (s.bandStep c (s.core c).appliedSub (s.core c).appliedBand) with
      | (some (sub, b), n, _) => (s.core c).acqAt + n * 228 + 400 ≤ s.elapsed →
        (t.core c).state = .acquire ∧ (t.core c).sub = sub ∧ (t.core c).band = b ∧ (t.core c).bandChosen = true ∧
        (t.core c).seed = seedAt (s.core c).theta (s.core c).applied s.now ∧ t.raises = s.raises
      | (none, _, _) => (t.core c).state = .select ∧
        ∃ r : Raise, t.raises = s.raises ++ [r] ∧ r.fid = Src.core_BAND_RANGE c) ∧
  (∀ (s : State) (c : Fin 26) (k : Nat), s.up = true → (s.core c).fastUntil = some k → (s.core c).state = .acquire →
    k ≤ s.elapsed → completes (.fastlockEnd c) s fun t => t = s.modCore c fun x => { x with fastUntil := none, countFrom := some k }) ∧
  (∀ (s : State) (c : Fin 26) (v : BitVec 12), s.up = true → s.lockAdmitted c = true → (s.core c).racingFor = none →
    completes (.coreLock c v) s fun t => (t.core c).state = .locked ∧ (t.core c).lockAt = some s.elapsed ∧
      (t.core c).gates = true ∧
      t.reg .CORE_MARGIN c = BitVec.ofNat 32 (marginOf v.toNat % 4096 * 2 ^ 16 + v.toNat)) ∧
  (∀ (s : State) (c : Fin 26) (k : Nat), s.up = true → (s.core c).lockAt = some k → (s.core c).state = .locked →
    (s.core c).holdDone = false → (s.core c).role ≠ .fenced → k + s.fld Fields.CORE_CFG_UGHOLD c * 64 ≤ s.elapsed →
    completes (.ungateHoldEnd c) s fun t => (t.core c).holdDone = true ∧ (t.core c).gates = false ∧
      ∀ d : Fin 26, d ≠ c → t.core d = s.core d) ∧
  (∀ (s : State) (c : Fin 26), s.up = true → s.timeoutAdmitted c = true → (s.core c).acqMode = .table →
    (s.core c).acqRestarted = false →
    completes (.acqTimeout c) s fun t => (t.core c).state = .select ∧ (t.core c).acqMode = .search ∧
      (t.core c).acqRestarted = true ∧ t.raises = s.raises) ∧
  (∀ (s : State) (c : Fin 26), s.up = true → s.timeoutAdmitted c = true → (s.core c).role ≠ .fenced →
    ((s.core c).acqMode ≠ .table ∨ (s.core c).acqRestarted = true) →
    completes (.acqTimeout c) s fun t => (t.core c).state = .lost ∧
      ∃ r : Raise, t.raises = s.raises ++ [r] ∧ r.fid = Src.core_NO_LOCK c) ∧
  (∀ (s : State) (c d : Fin 26), s.up = true → (s.core c).racingFor = some d.val → s.racer d = some c.val →
    (s.core c).state ≠ .locked → (s.core c).acqAt + 32768 ≤ s.elapsed →
    completes (.raceTimeout c) s fun t => (t.core c).state = .idle ∧ (t.core c).racingFor = none)

/-- R126, R132, R42: a loss of lock is stamped, counted and raised; the core is LOST and its outputs gate at the next tick.
R140, R152: two failed TDC checks in a row and a parity error raise their sources. R148: when the reassignment of a spare
completes, it takes the fenced core's setting, role, station and outputs, leaves the spare map, and acquires cold. -/
def Obligations.CoreLossAndSpares : Prop :=
  (∀ (s : State) (c : Fin 26), s.up = true → (s.core c).state = .locked → (s.core c).role ≠ .fenced →
    s.lossCount c ≤ (s.core c).outWin → s.later.contains (.core c true) = false → s.later.contains (.core c false) = false →
    completes (.coreLockLoss c) s fun t => t.cores = s.cores ∧ (∃ q : Bool, t.later = s.later ++ [.core c q]) ∧
      t.fld Fields.CORE_LOLCNT_COUNT c = satAdd (s.fld Fields.CORE_LOLCNT_COUNT c) Fields.CORE_LOLCNT_COUNT.width 1 ∧
      ∃ r ∈ t.raises, r.fid = Src.core_LOCK_LOST c ∧ r.stamp = s.now) ∧
  (∀ (s : State) (c : Fin 26) (q : Bool), (s.core c).state = .locked →
    ((s.applyLater (.core c q)).core c).state ≠ .locked ∧ ((s.applyLater (.core c q)).core c).gates = true) ∧
  (∀ (s : State) (c : Fin 26), s.up = true → ((s.core c).state = .acquire ∨ (s.core c).state = .locked) →
    (s.core c).role ≠ .fenced → 2 ≤ (s.core c).tdcFails →
    completes (.tdcCheck c) s fun t => t.core c = { s.core c with tdcFails := 1 } ∧ (∀ d : Fin 26, d ≠ c → t.core d = s.core d) ∧
      t.regs = s.regs ∧ ∃ r : Raise, t.raises = s.raises ++ [r] ∧ r.fid = Src.core_TDC_CHECK c ∧ r.stamp = s.now) ∧
  (∀ (s : State) (c : Fin 26), s.up = true → (s.core c).state ≠ .off → (s.core c).state ≠ .fenced →
    (s.core c).role ≠ .fenced →
    completes (.stateParity c) s fun t => t.cores = s.cores ∧ t.regs = s.regs ∧
      ∃ r : Raise, t.raises = s.raises ++ [r] ∧ r.fid = Src.core_STATE_PARITY c ∧ r.stamp = s.now) ∧
  (∀ (s : State) (k c : Fin 26), s.up = true → (s.core k).reassign = some c.val → k ≠ c →
    completes (.spareReassignDone k) s fun t => (t.core k).state = .select ∧ (t.core k).acqMode = .table ∧
      (t.core k).role = (s.core c).fencedRole ∧ (t.core k).station = (s.core c).station ∧
      (t.core k).applied = (s.core c).applied ∧ (t.core k).theta = (s.core c).theta ∧
      bitOf (t.reg .CORE_SPAREMAP 0) k = false ∧
      ∀ o : Fin 32, s.srcOf o = some c.val → t.srcOf o = some k.val)

/-! ## Quilvo (spec/06, spec/07) -/

/-- R255 to R257: decoding the word of a well-formed instruction gives that instruction, guard and every operand. -/
def Obligations.QuilvoDecodeOfEncode : Prop :=
∀ i : QInstr, i.wf = true → decodeQ i.encode = some i

/-- R258, Table 6.5: the arithmetic, logic and shift instructions of the general registers, and LDI. Each writes its result
to rd and changes nothing else; g0 discards the write. -/
def Obligations.QuilvoArithmetic : Prop :=
  ∀ (s : State) (n : Fin 8) (gd : Guard) (rd ra rb : BitVec 4),
    (let a := ((s.stn n).thread.regs.gv ra).val
     let b := ((s.stn n).thread.regs.gv rb).val
     (s.mayRun n ⟨gd, .add rd ra rb⟩ → completes (.addR n 0) s fun t => s.wroteG t n rd (a + b)) ∧
     (s.mayRun n ⟨gd, .sub rd ra rb⟩ → completes (.subR n 0) s fun t => s.wroteG t n rd (a - b)) ∧
     (s.mayRun n ⟨gd, .and rd ra rb⟩ → completes (.andR n 0) s fun t => s.wroteG t n rd (a &&& b)) ∧
     (s.mayRun n ⟨gd, .or rd ra rb⟩ → completes (.orR n 0) s fun t => s.wroteG t n rd (a ||| b)) ∧
     (s.mayRun n ⟨gd, .xor rd ra rb⟩ → completes (.xorR n 0) s fun t => s.wroteG t n rd (a ^^^ b)) ∧
     (s.mayRun n ⟨gd, .shl rd ra rb⟩ → completes (.shl n 0) s fun t => s.wroteG t n rd (a <<< (b.extractLsb' 0 5).toNat)) ∧
     (s.mayRun n ⟨gd, .shr rd ra rb⟩ → completes (.shr n 0) s fun t => s.wroteG t n rd (a >>> (b.extractLsb' 0 5).toNat))) ∧
    (∀ imm : BitVec 15,
      let a := ((s.stn n).thread.regs.gv ra).val
      (s.mayRun n ⟨gd, .addi rd ra imm⟩ → completes (.addi n 0) s fun t => s.wroteG t n rd (a + imm.signExtend 32)) ∧
      (s.mayRun n ⟨gd, .andi rd ra imm⟩ → completes (.andi n 0) s fun t => s.wroteG t n rd (a &&& (0#17 ++ imm))) ∧
      (s.mayRun n ⟨gd, .ori rd ra imm⟩ → completes (.ori n 0) s fun t => s.wroteG t n rd (a ||| (0#17 ++ imm))) ∧
      (s.mayRun n ⟨gd, .xori rd ra imm⟩ → completes (.xori n 0) s fun t => s.wroteG t n rd (a ^^^ (0#17 ++ imm)))) ∧
    (∀ sh : BitVec 5,
      let a := ((s.stn n).thread.regs.gv ra).val
      (s.mayRun n ⟨gd, .shli rd ra sh⟩ → completes (.shli n 0) s fun t => s.wroteG t n rd (a <<< sh.toNat)) ∧
      (s.mayRun n ⟨gd, .shri rd ra sh⟩ → completes (.shri n 0) s fun t => s.wroteG t n rd (a >>> sh.toNat))) ∧
    (∀ imm : BitVec 16,
      (s.mayRun n ⟨gd, .ldi rd false imm⟩ → completes (.ldi n 0) s fun t => s.wroteG t n rd (0#16 ++ imm)) ∧
      (s.mayRun n ⟨gd, .ldi rd true imm⟩ → completes (.ldi n 0) s fun t =>
        s.wroteG t n rd (imm ++ ((s.stn n).thread.regs.gv rd).val.extractLsb' 0 16)))

/-- R258, R259, Tables 6.5 to 6.7: the compares and the predicate logic write one predicate; TADDI, TADDR and TSET write one
tick register; TGET writes one general register; t registers compare unsigned on 64 bits (R246). -/
def Obligations.QuilvoPredicatesAndTicks : Prop :=
  ∀ (s : State) (n : Fin 8) (gd : Guard) (rd ra rb : BitVec 4) (p x y : BitVec 2),
    let r := (s.stn n).thread.regs
    (∀ cc : Cond, s.mayRun n ⟨gd, .cmp p cc ra rb⟩ → completes (.cmp n 0) s fun t =>
      s.wroteP t n p (match cc with
        | .eq => (r.gv ra).val == (r.gv rb).val
        | .ne => (r.gv ra).val != (r.gv rb).val
        | .lt => decide ((r.gv ra).val.toInt < (r.gv rb).val.toInt)
        | .ge => decide ((r.gv rb).val.toInt ≤ (r.gv ra).val.toInt)
        | .ltu => decide ((r.gv ra).val.toNat < (r.gv rb).val.toNat)
        | .geu => decide ((r.gv rb).val.toNat ≤ (r.gv ra).val.toNat))) ∧
    (∀ (cc : Cond) (imm : BitVec 14), s.mayRun n ⟨gd, .cmpi p cc ra imm⟩ → completes (.cmpi n 0) s fun t =>
      s.wroteP t n p (match cc with
        | .eq => decide ((r.gv ra).val.toInt = imm.toInt)
        | .ne => decide ((r.gv ra).val.toInt ≠ imm.toInt)
        | .lt => decide ((r.gv ra).val.toInt < imm.toInt)
        | .ge => decide (imm.toInt ≤ (r.gv ra).val.toInt)
        | .ltu => decide ((r.gv ra).val.toNat < (imm.signExtend 32).toNat)
        | .geu => decide ((imm.signExtend 32).toNat ≤ (r.gv ra).val.toNat))) ∧
    (∀ (na nb : Bool) (fn : LogFn), s.mayRun n ⟨gd, .plog p x y na nb fn⟩ → completes (.plog n 0) s fun t =>
      s.wroteP t n p (match fn with
        | .and => ((r.pv x).val != na) && ((r.pv y).val != nb)
        | .or => ((r.pv x).val != na) || ((r.pv y).val != nb)
        | .xor => ((r.pv x).val != na) != ((r.pv y).val != nb))) ∧
    (∀ imm : BitVec 19, s.mayRun n ⟨gd, .taddi p x imm⟩ → completes (.taddi n 0) s fun t =>
      s.wroteT t n p ((r.tv x).val + BitVec.ofNat 64 imm.toNat)) ∧
    (∀ sh : BitVec 5, s.mayRun n ⟨gd, .taddr p x ra sh⟩ → completes (.taddr n 0) s fun t =>
      s.wroteT t n p ((r.tv x).val + BitVec.ofNat 64 ((r.gv ra).val.toNat * 2 ^ sh.toNat))) ∧
    (s.mayRun n ⟨gd, .tset p ra rb⟩ → completes (.tset n 0) s fun t =>
      s.wroteT t n p (BitVec.ofNat 64 ((r.gv rb).val.toNat * 2 ^ 32 + (r.gv ra).val.toNat))) ∧
    (s.mayRun n ⟨gd, .tget rd x false⟩ → completes (.tget n 0) s fun t => s.wroteG t n rd ((r.tv x).val.extractLsb' 0 32)) ∧
    (s.mayRun n ⟨gd, .tget rd x true⟩ → completes (.tget n 0) s fun t => s.wroteG t n rd ((r.tv x).val.extractLsb' 32 32)) ∧
    (∀ cc : TCond, s.mayRun n ⟨gd, .tcmp p x y cc⟩ → completes (.tcmp n 0) s fun t =>
      s.wroteP t n p (match cc with
        | .eq => (r.tv x).val == (r.tv y).val
        | .ne => (r.tv x).val != (r.tv y).val
        | .ltu => decide ((r.tv x).val.toNat < (r.tv y).val.toNat)
        | .geu => decide ((r.tv y).val.toNat ≤ (r.tv x).val.toNat)))

/-- R261, Table 6.9, R258: BR, CALL, RET and LOOP move pc as the table states and leave the general, tick and predicate
registers; CALL links; LOOP and LDLC write a loop counter; LKMOV moves the link register; NOP only goes on. A guarded
instruction whose guard fails only goes on (R256). -/
def Obligations.QuilvoFlow : Prop :=
  ∀ (s : State) (n : Fin 8) (gd : Guard) (ra : BitVec 4) (lc : BitVec 1) (tgt : BitVec 14),
    let r := (s.stn n).thread.regs
    (s.mayRun n ⟨gd, .nop⟩ → completes (.nopI n 0) s fun t => s.wentTo t n (r.pc + 1) ∧ (t.stn n).thread.regs.lk = r.lk) ∧
    (∀ h : Hint, s.mayRun n ⟨gd, .br h tgt⟩ → completes (.br n 0) s fun t => s.wentTo t n tgt ∧ (t.stn n).thread.regs.lk = r.lk) ∧
    (s.mayRun n ⟨gd, .call tgt⟩ → completes (.callI n 0) s fun t => s.wentTo t n tgt ∧
      (t.stn n).thread.regs.lk.val = r.pc + 1) ∧
    (s.mayRun n ⟨gd, .ret⟩ → completes (.retI n 0) s fun t => s.wentTo t n r.lk.val ∧ (t.stn n).thread.regs.lk = r.lk) ∧
    (s.mayRun n ⟨gd, .loop lc tgt⟩ → (r.lcv lc).val.toNat ≤ 1 → completes (.loopI n 0) s fun t =>
      s.wentTo t n (r.pc + 1) ∧ ((t.stn n).thread.regs.lcv lc).val = 0) ∧
    (s.mayRun n ⟨gd, .loop lc tgt⟩ → 1 < (r.lcv lc).val.toNat → completes (.loopI n 0) s fun t =>
      s.wentTo t n tgt ∧ ((t.stn n).thread.regs.lcv lc).val = (r.lcv lc).val - 1) ∧
    (∀ k : BitVec 16, s.mayRun n ⟨gd, .ldlc lc (.imm k)⟩ → completes (.ldlc n 0) s fun t =>
      s.wentTo t n (r.pc + 1) ∧ ((t.stn n).thread.regs.lcv lc).val = k) ∧
    (s.mayRun n ⟨gd, .ldlc lc (.reg ra)⟩ → completes (.ldlc n 0) s fun t =>
      s.wentTo t n (r.pc + 1) ∧ ((t.stn n).thread.regs.lcv lc).val = (r.gv ra).val.extractLsb' 0 16) ∧
    (s.mayRun n ⟨gd, .lkmov true ra⟩ → completes (.lkmov n 0) s fun t =>
      s.wentTo t n (r.pc + 1) ∧ (t.stn n).thread.regs.lk.val = (r.gv ra).val.extractLsb' 0 14) ∧
    (s.mayRun n ⟨gd, .lkmov false ra⟩ → completes (.lkmov n 0) s fun t => s.wroteG t n ra (0#18 ++ r.lk.val)) ∧
    (∀ rd rb : BitVec 4, (s.stn n).mayExecute = true → (s.stn n).thread.inWindow < 64 →
      decodeQ (s.pgmWord n r.pc) = some ⟨gd, .add rd ra rb⟩ → (r.pv gd.p).base = none →
      gd.passes (r.pv gd.p).val = false → r.pc ≠ lastPc → s.refilling n r.pc = false →
      completes (.addR n 0) s fun t => s.wentTo t n (r.pc + 1) ∧ (t.stn n).thread.regs.lk = r.lk)

/-- R249, R263, R267: an effect instruction names its effect with the tick that t[tr] holds. Executing it changes no register
but pc; HALT keeps pc. -/
def Obligations.QuilvoEffectsAreNamed : Prop :=
  ∀ (s : State) (n : Fin 8) (gd : Guard) (tr tc : BitVec 2) (ra rb : BitVec 4) (sl : Slot) (pr : ProfArg),
    let next := (s.stn n).thread.regs.pc + 1
    (s.mayRun n ⟨gd, .swap tr sl pr⟩ → completes (.swapI n 0) s fun t =>
      (∃ e : Exec, (t.stn n).thread.insts = (s.stn n).thread.insts ++ [e] ∧ e.ins = ⟨gd, .swap tr sl pr⟩ ∧ e.off = false ∧ e.exc = 0 ∧
        e.tick = (s.stn n).thread.regs.tv tr ∧ e.hop = some (pr.index (s.stn n).thread.regs)) ∧ s.onlyStation t n) ∧
    (s.mayRun n ⟨gd, .cold tr sl pr⟩ → completes (.coldI n 0) s fun t => s.named t n ⟨gd, .cold tr sl pr⟩ tr next) ∧
    (s.mayRun n ⟨gd, .glide tr sl pr⟩ → completes (.glideI n 0) s fun t => s.named t n ⟨gd, .glide tr sl pr⟩ tr next) ∧
    (∀ u : Bool, s.mayRun n ⟨gd, .outg tr ra u⟩ → completes (.outg n 0) s fun t => s.named t n ⟨gd, .outg tr ra u⟩ tr next) ∧
    (∀ d : BitVec 2, s.mayRun n ⟨gd, .dset tr ra d⟩ → completes (.dset n 0) s fun t => s.named t n ⟨gd, .dset tr ra d⟩ tr next) ∧
    (s.mayRun n ⟨gd, .divrst tr ra⟩ → completes (.divrst n 0) s fun t => s.named t n ⟨gd, .divrst tr ra⟩ tr next) ∧
    (∀ o : SysOp, s.mayRun n ⟨gd, .sysref tr ra o⟩ → completes (.sysref n 0) s fun t =>
      s.named t n ⟨gd, .sysref tr ra o⟩ tr next) ∧
    (∀ m v : BitVec 8, s.mayRun n ⟨gd, .stat tr m v⟩ → completes (.statI n 0) s fun t => s.named t n ⟨gd, .stat tr m v⟩ tr next) ∧
    (∀ sl0 : BitVec 6, s.mayRun n ⟨gd, .send0 tr ra rb tc sl0⟩ → completes (.send0 n 0) s fun t =>
      s.named t n ⟨gd, .send0 tr ra rb tc sl0⟩ tr next) ∧
    (s.mayRun n ⟨gd, .send1 tr ra rb tc⟩ → completes (.send1 n 0) s fun t => s.named t n ⟨gd, .send1 tr ra rb tc⟩ tr next) ∧
    (s.mayRun n ⟨gd, .halt tr⟩ → completes (.haltI n 0) s fun t => s.named t n ⟨gd, .halt tr⟩ tr (s.stn n).thread.regs.pc) ∧
    (∀ w : BitVec 16, s.mayRun n ⟨gd, .idle tr sl w⟩ → completes (.idleI n 0) s fun t => s.named t n ⟨gd, .idle tr sl w⟩ tr next)

/-- R260, R282, Table 6.8: EVTST, WAITE, EVCNT and EVDATA execute and complete: each enters the window with its result
pending on its own evaluation and with its question, the events of SRC up to the tick that t[tr] holds, and goes on to the
next instruction. p0 and g0 take nothing. R263, R265, R269, R280: the oldest executed instruction commits when its guard,
tick and decisions are settled: its effect enters the holding queue and its results the committed registers (an ADD its sum,
a STAT its effect with the tick that t[tr] holds). With the queue full it waits. END is raised after the instruction at the
last index has committed. An exception stops the thread and is raised with its code and index; an ILLEGAL word at the pc
raises one. -/
def Obligations.EventsArePendingUntilCommit : Prop :=
  (∀ (s : State) (n : Fin 8) (gd : Guard) (rd : BitVec 4) (pd td tr : BitVec 2) (src : BitVec 7) (k : Bool),
    let th := (s.stn n).thread
    let x := (th.regs.tv tr).val.toNat
    (s.mayRun n ⟨gd, .evtst pd tr src k⟩ → completes (.evtst n 0) s fun t =>
      (pd ≠ 0 → ((t.stn n).thread.regs.pv pd).base = some th.nextId) ∧ (∀ q, q ≠ pd → (t.stn n).thread.regs.pv q = th.regs.pv q) ∧
      (t.stn n).thread.regs.g = th.regs.g ∧ (t.stn n).thread.regs.t = th.regs.t ∧ (t.stn n).thread.regs.pc = th.regs.pc + 1 ∧
      (∃ e : Exec, (t.stn n).thread.insts = th.insts ++ [e] ∧ e.id = th.nextId ∧ e.ask = some ⟨src.toNat, x, k, none⟩) ∧ s.onlyStation t n) ∧
    (s.mayRun n ⟨gd, .waite pd td tr src k⟩ → completes (.waite n 0) s fun t =>
      (pd ≠ 0 → ((t.stn n).thread.regs.pv pd).base = some th.nextId) ∧ ((t.stn n).thread.regs.tv td).base = some th.nextId ∧
      (∀ q, q ≠ td → (t.stn n).thread.regs.tv q = th.regs.tv q) ∧
      (t.stn n).thread.regs.g = th.regs.g ∧ (t.stn n).thread.regs.pc = th.regs.pc + 1 ∧
      (∃ e : Exec, (t.stn n).thread.insts = th.insts ++ [e] ∧ e.id = th.nextId ∧ e.ask = some ⟨src.toNat, x, k, none⟩) ∧ s.onlyStation t n) ∧
    (s.mayRun n ⟨gd, .evcnt rd tr src k⟩ → completes (.evcnt n 0) s fun t =>
      (rd ≠ 0 → ((t.stn n).thread.regs.gv rd).base = some th.nextId) ∧ (∀ q, q ≠ rd → (t.stn n).thread.regs.gv q = th.regs.gv q) ∧
      (t.stn n).thread.regs.t = th.regs.t ∧ (t.stn n).thread.regs.p = th.regs.p ∧ (t.stn n).thread.regs.pc = th.regs.pc + 1 ∧
      (∃ e : Exec, (t.stn n).thread.insts = th.insts ++ [e] ∧ e.id = th.nextId ∧ e.ask = some ⟨src.toNat, x, k, none⟩) ∧ s.onlyStation t n) ∧
    (s.mayRun n ⟨gd, .evdata rd src⟩ → completes (.evdata n 0) s fun t =>
      (rd ≠ 0 → ((t.stn n).thread.regs.gv rd).base = some th.nextId) ∧ (∀ q, q ≠ rd → (t.stn n).thread.regs.gv q = th.regs.gv q) ∧
      (t.stn n).thread.regs.t = th.regs.t ∧ (t.stn n).thread.regs.p = th.regs.p ∧ (t.stn n).thread.regs.pc = th.regs.pc + 1 ∧
      (∃ e : Exec, (t.stn n).thread.insts = th.insts ++ [e] ∧ e.id = th.nextId ∧ e.ask = some ⟨src.toNat, 0, true, none⟩) ∧ s.onlyStation t n)) ∧
  (∀ (s : State) (n : Fin 8) (e : Exec) (l : List Exec), (s.stn n).running = true → (s.stn n).threadDown = none →
    (s.stn n).thread.ended = false → (s.stn n).thread.insts = e :: l → e.mayCommit (s.stn n).thread.forks = true → e.exc = 0 →
    (s.stn n).queue.length < 32 →
    completes (.instrCommit n) s fun t => (t.stn n).queue = (s.stn n).queue ++ (e.effect (s.stn n).comm s.now).toList ∧
      (t.stn n).comm = e.commitRegs (s.stn n).comm ∧
      (t.stn n).thread.insts = (if e.ins.op.isHalt && !e.off then [] else l) ∧ s.onlyStation t n) ∧
  (∀ (s : State) (n : Fin 8) (e : Exec) (l : List Exec) (gd : Guard), (s.stn n).running = true → (s.stn n).threadDown = none →
    (s.stn n).thread.ended = false → (s.stn n).thread.insts = e :: l → e.mayCommit (s.stn n).thread.forks = true → e.exc = 0 →
    e.off = false → e.ask = none → (s.stn n).queue.length < 32 → gd.passes ((s.stn n).comm.pv gd.p).val = true →
    (s.stn n).comm.pc ≠ lastPc →
    (∀ rd ra rb : BitVec 4, e.ins = ⟨gd, .add rd ra rb⟩ → completes (.instrCommit n) s fun t =>
      ((t.stn n).comm.gv rd).val = (if rd = 0 then 0 else ((s.stn n).comm.gv ra).val + ((s.stn n).comm.gv rb).val) ∧
      (t.stn n).comm.pc = (s.stn n).comm.pc + 1 ∧ (t.stn n).thread.insts = l ∧ (t.stn n).queue = (s.stn n).queue ∧ s.onlyStation t n) ∧
    (∀ (tr : BitVec 2) (m v : BitVec 8), e.ins = ⟨gd, .stat tr m v⟩ → completes (.instrCommit n) s fun t =>
      (∃ x : Effect, (t.stn n).queue = (s.stn n).queue ++ [x] ∧ x.act = .stat m v ∧ x.tick = ((s.stn n).comm.tv tr).val.toNat) ∧
      (t.stn n).comm.pc = (s.stn n).comm.pc + 1 ∧ (t.stn n).thread.insts = l ∧ s.onlyStation t n)) ∧
  (∀ (s : State) (n : Fin 8), 32 ≤ (s.stn n).queue.length →
    completes (.instrCommit n) s fun t => t = s) ∧
  (∀ (s : State) (n : Fin 8) (e : Exec) (l : List Exec), (s.stn n).running = true → (s.stn n).threadDown = none →
    (s.stn n).thread.ended = false → (s.stn n).thread.insts = e :: l → e.mayCommit (s.stn n).thread.forks = true → e.exc ≠ 0 →
    e.exc ≠ 5 → (s.stn n).queue.length < 32 →
    completes (.instrCommit n) s fun t => (t.stn n).exc = e.exc ∧ (t.stn n).epc = e.pc ∧ (t.stn n).endedAt = some s.now ∧
      (t.stn n).thread.ended = true ∧ (t.stn n).queue = (s.stn n).queue ∧
      ∃ r : Raise, t.raises = s.raises ++ [r] ∧ r.fid = ⟨5, 0, 16 + n.val⟩) ∧
  (∀ (s : State) (n : Fin 8) (e : Exec) (l : List Exec), (s.stn n).running = true → (s.stn n).threadDown = none →
    (s.stn n).thread.ended = false → (s.stn n).thread.insts = e :: l → e.mayCommit (s.stn n).thread.forks = true → e.exc = 5 →
    (s.stn n).queue.length < 32 →
    completes (.instrCommit n) s fun t => (t.stn n).exc = 5 ∧ (t.stn n).epc = e.pc ∧ (t.stn n).thread.ended = true ∧
      (t.stn n).queue = (s.stn n).queue ++ (e.effect (s.stn n).comm s.now).toList ∧
      ∃ r : Raise, t.raises = s.raises ++ [r] ∧ r.fid = ⟨5, 0, 16 + n.val⟩) ∧
  (∀ (s : State) (n : Fin 8), (s.stn n).running = true → (s.stn n).threadDown = none → (s.stn n).thread.ended = false →
    (s.stn n).queue.length < 32 → s.refilling n (s.stn n).comm.pc = false → (s.stn n).thread.insts = [] → decodeQ (s.pgmWord n (s.stn n).comm.pc) = none →
    completes (.instrCommit n) s fun t => (t.stn n).exc = 1 ∧ (t.stn n).epc = (s.stn n).comm.pc ∧ (t.stn n).thread.ended = true)

/-- R262, R285 to R287: a BR whose guard is pending becomes a two-way decision: the thread goes on along the predicted
outcome, and the other begins as the alternate path; HINT 1 predicts taken and HINT 2 not taken. An alternate path executes
an instruction as the followed path would, on its own registers, and leaves the followed path alone. R260, R281, R282:
DECISION_RESOLVE evaluates an event instruction once the board has closed its tick, gives the registers that waited for it
their values, and leaves the rest of the state; before that it does nothing. EVTST finds whether an event of the source is
stamped in (m, X], EVCNT how many are; WAITE finds the first of them and its stamp, or none and X; EVDATA gives the payload
of the event that was last removed. -/
def Obligations.DecisionsForkAndResolve : Prop :=
  (∀ (s : State) (n : Fin 8) (gd : Guard) (h : Hint) (tgt : BitVec 14) (b : Nat),
    (s.stn n).mayExecute = true → (s.stn n).thread.inWindow < 64 → (s.stn n).thread.forks.length < 2 →
    decodeQ (s.pgmWord n (s.stn n).thread.regs.pc) = some ⟨gd, .br h tgt⟩ →
    ((s.stn n).thread.regs.pv gd.p).base = some b → s.refilling n (s.stn n).thread.regs.pc = false →
    completes (.br n 0) s fun t => ∃ f : Fork, (t.stn n).thread.forks = (s.stn n).thread.forks ++ [f] ∧ f.base = b ∧ f.alt = [] ∧
      (t.stn n).thread.regs.pc = (if f.taken then tgt else (s.stn n).thread.regs.pc + 1) ∧
      f.regs.pc = (if f.taken then (s.stn n).thread.regs.pc + 1 else tgt) ∧
      (h = .taken → f.taken = true) ∧ (h = .notTaken → f.taken = false) ∧ s.onlyStation t n) ∧
  (∀ (s : State) (n : Fin 8) (gd : Guard) (rd ra rb : BitVec 4) (f : Fork) (k : Fin 2),
    (s.stn n).running = true → (s.stn n).threadDown = none → (s.stn n).thread.ended = false → (s.stn n).thread.inWindow < 64 →
    (s.stn n).thread.forks[k.val]? = some f → f.alt.length < 16 → (f.alt.any fun e => e.ins.op.isHop || e.stops) = false →
    decodeQ (s.pgmWord n f.regs.pc) = some ⟨gd, .add rd ra rb⟩ → (f.regs.pv gd.p).base = none →
    gd.passes (f.regs.pv gd.p).val = true → (f.regs.gv ra).base = none → (f.regs.gv rb).base = none → f.regs.pc ≠ lastPc →
    s.refilling n f.regs.pc = false → (∀ b, (s.stn n).thread.branchOf f = some b → b.ins.branchExc (!f.taken) b.pc = 0) →
    completes (.addR n (if k = 0 then 1 else 2)) s fun t => ∃ f' : Fork, (t.stn n).thread.forks[k.val]? = some f' ∧
      (f'.regs.gv rd).val = (if rd = 0 then 0 else (f.regs.gv ra).val + (f.regs.gv rb).val) ∧ f'.regs.pc = f.regs.pc + 1 ∧
      (t.stn n).thread.regs = (s.stn n).thread.regs ∧ (t.stn n).thread.insts = (s.stn n).thread.insts ∧ s.onlyStation t n) ∧
  (∀ (s : State) (n : Fin 8) (e : Exec) (a : EvAsk), (s.stn n).running = true → (s.stn n).threadDown = none →
    (s.stn n).thread.insts = [e] → (s.stn n).thread.forks = [] → e.ask = some a → a.res = none → e.stops = false →
    s.closed a.x = true → (∀ pd tr src k, e.ins.op = .evtst pd tr src k →
      completes (.decisionResolve n 0) s fun t =>
        ∀ q : BitVec 2, q ≠ 0 → ((s.stn n).thread.regs.pv q).base = some e.id →
          ((t.stn n).thread.regs.pv q).val = !((s.stn n).inInterval a.src ((s.stn n).markOf a.src).at_ a.x).isEmpty ∧
          ((t.stn n).thread.regs.pv q).base = none) ∧
    (∀ rd tr src k, e.ins.op = .evcnt rd tr src k →
      completes (.decisionResolve n 0) s fun t =>
        ∀ q : BitVec 4, q ≠ 0 → ((s.stn n).thread.regs.gv q).base = some e.id →
          ((t.stn n).thread.regs.gv q).val =
            BitVec.ofNat 32 ((s.stn n).inInterval a.src ((s.stn n).markOf a.src).at_ a.x).length ∧
          ((t.stn n).thread.regs.gv q).base = none) ∧
    (∀ rd src, e.ins.op = .evdata rd src →
      completes (.decisionResolve n 0) s fun t =>
        ∀ q : BitVec 4, q ≠ 0 → ((s.stn n).thread.regs.gv q).base = some e.id →
          ((t.stn n).thread.regs.gv q).val = ((s.stn n).markOf a.src).payload ∧ ((t.stn n).thread.regs.gv q).base = none) ∧
    (∀ pd td tr src k, e.ins.op = .waite pd td tr src k →
      let evs := (s.stn n).inInterval a.src ((s.stn n).markOf a.src).at_ a.x
      (∀ f, evs.head? = some f → s.closed f.stamp = true) →
      completes (.decisionResolve n 0) s fun t =>
        (∀ q : BitVec 2, q ≠ 0 → ((s.stn n).thread.regs.pv q).base = some e.id →
          ((t.stn n).thread.regs.pv q).val = !evs.isEmpty ∧ ((t.stn n).thread.regs.pv q).base = none) ∧
        (∀ q : BitVec 2, ((s.stn n).thread.regs.tv q).base = some e.id →
          ((t.stn n).thread.regs.tv q).val = BitVec.ofNat 64 (match evs with | f :: _ => f.stamp | [] => a.x) +
            ((s.stn n).thread.regs.tv q).val ∧ ((t.stn n).thread.regs.tv q).base = none))) ∧
  (∀ (s : State) (n : Fin 8) (e : Exec) (a : EvAsk) (pd tr : BitVec 2) (src : BitVec 7) (k : Bool),
    (s.stn n).thread.insts = [e] → e.ask = some a → e.ins.op = .evtst pd tr src k → s.closed a.x = false →
    completes (.decisionResolve n 0) s fun t => t = s) ∧
  (∀ (s : State) (n : Fin 8) (i : Nat), completes (.decisionResolve n i) s fun t => s.onlyStation t n)

/-! ## Stations, profiles and programs (spec/05 to spec/07) -/

/-- R195, R197, R198: the station registers are written while the station does not run, and refused with BUSY while it does.
A map names cores that no other station names; they take the roles of Table 5.1 and power on; a loaded station returns to
EMPTY. -/
def Obligations.StationRegisters : Prop :=
  (∀ (s : State) (n : Fin 8) (w : Word), s.serves = true → (s.stn n).running = false → (mapCores w).Nodup →
    (∀ c ∈ mapCores w, (s.mapOwner c = none ∨ s.mapOwner c = some n.val) ∧ bitOf (s.reg .CORE_SPAREMAP 0) c = false ∧
      (s.core c).role ≠ .fenced) →
    completes (.stnMapWrite n w) s fun t => t.reg .STN_MAP n = w &&& 0x7FFF#32 ∧ s.wrote t ∧
      (∀ m : Fin 8, m ≠ n → t.reg .STN_MAP m = s.reg .STN_MAP m) ∧
      ((s.stn n).run = .loaded → (t.stn n).run = .empty) ∧
      ∀ c ∈ mapCores w, t.flag Fields.CORE_CFG_EN c = true) ∧
  (∀ (s : State) (n : Fin 8) (w : Word) (c : Nat), s.serves = true → (s.stn n).running = false → c ∈ mapCores w →
    (s.core c).role = .fenced →
    completes (.stnMapWrite n w) s fun t => t.refusedWith .range ∧ t.reg .STN_MAP n = s.reg .STN_MAP n) ∧
  (∀ (s : State) (n : Fin 8) (w : Word), s.serves = true → (s.stn n).running = false →
    completes (.stnCfgWrite n w) s fun t => t.reg .STN_CFG n = w &&& 0xFFFF0003#32 ∧ s.wrote t ∧
      ((s.stn n).run = .loaded → (t.stn n).run = .empty)) ∧
  (∀ (s : State) (n : Fin 8) (w : Word), s.serves = true → (s.stn n).running = false →
    (∀ m : Fin 8, m ≠ n → w &&& s.reg .STN_OUTMASK m = 0) →
    completes (.stnOutmaskWrite n w) s fun t => t.reg .STN_OUTMASK n = w ∧ s.wrote t) ∧
  (∀ (s : State) (n m : Fin 8) (w : Word), s.serves = true → (s.stn n).running = false → m ≠ n →
    w &&& s.reg .STN_OUTMASK m ≠ 0 →
    completes (.stnOutmaskWrite n w) s fun t => t.refusedWith .range ∧ t.reg .STN_OUTMASK n = s.reg .STN_OUTMASK n) ∧
  (∀ (s : State) (n : Fin 8) (w : Word), s.serves = true → (s.stn n).running = true →
    (completes (.stnMapWrite n w) s fun t => t.refusedWith .busy ∧ t.stations = s.stations ∧ t.cores = s.cores) ∧
    (completes (.stnCfgWrite n w) s fun t => t.refusedWith .busy ∧ t.stations = s.stations ∧ t.cores = s.cores) ∧
    (completes (.stnOutmaskWrite n w) s fun t => t.refusedWith .busy ∧ t.stations = s.stations ∧ t.cores = s.cores))

/-- R203, R204, R237 to R239: PROF_WRITE stores a valid profile whole, as a shadow when a hop that names it is in flight; an
invalid one is refused with RANGE. PROF_READ shows the profile in force in PROF_DATA. SHADOW_APPLY makes a shadow take
effect once nothing refers to its profile. R208, R209, R211: PREP_START loads the profile of the next swap that waits for a
core into a free blocking core of the station, which acquires; PREP_SETTLED settles it once it is LOCKED and its ungate hold
is over. -/
def Obligations.ProfilesAndPreparations : Prop :=
  (∀ s : State, s.serves = true → profileOk s.profData = true → s.shadowOf (s.fld Fields.PROF_ADDR_INDEX 0) = none →
    s.referenced (s.fld Fields.PROF_ADDR_INDEX 0) = false → s.fencedEntry 15 (s.fld Fields.PROF_ADDR_INDEX 0) = false →
    completes .profWrite s fun t => t.profWords (s.fld Fields.PROF_ADDR_INDEX 0) = maskProfile s.profData ∧ s.wrote t ∧
      t.shadows = s.shadows ∧
      ∀ p : Fin 4096, p.val ≠ s.fld Fields.PROF_ADDR_INDEX 0 → t.profWords p = s.profWords p) ∧
  (∀ s : State, s.serves = true → profileOk s.profData = true → s.shadowOf (s.fld Fields.PROF_ADDR_INDEX 0) = none →
    s.referenced (s.fld Fields.PROF_ADDR_INDEX 0) = true → s.shadows.length < 32 →
    completes .profWrite s fun t => t.profs = s.profs ∧ s.wrote t ∧
      t.shadows = s.shadows ++ [(s.fld Fields.PROF_ADDR_INDEX 0, s.profData)]) ∧
  (∀ s : State, s.serves = true → profileOk s.profData = false →
    completes .profWrite s fun t => t.refusedWith .range ∧ t.profs = s.profs ∧ t.shadows = s.shadows) ∧
  (∀ s : State, s.serves = true → completes .profRead s fun t => s.wrote t ∧ t.profs = s.profs ∧
    ∀ k : Fin 8, t.reg .PROF_DATA k = s.profs.get (s.fld Fields.PROF_ADDR_INDEX 0 * 8 + k)) ∧
  (∀ (s : State) (p : Fin 4096) (ws : List Word), s.shadowOf p = some ws → s.referenced p = false →
    s.fencedEntry 15 p = false →
    completes (.shadowApply p) s fun t => t.profWords p = maskProfile ws ∧ t.shadowOf p = none ∧
      ∃ r : Raise, t.raises = s.raises ++ [r] ∧ r.fid = Src.prof_SHADOW_APPLIED) ∧
  (∀ (s : State) (p : Fin 4096), s.referenced p = true → completes (.shadowApply p) s fun t => t = s) ∧
  (∀ (s : State) (n : Fin 8) (k : Fin 3) (h : PHop) (pl : Plan) (c : Fin 26), (s.stn n).running = true → s.stnMode n = 1 →
    s.wanted n (s.stn n).path (s.planNow n) [] [] = some (h, pl) → s.slotUsable n k pl = true → s.slot n k = some c.val →
    (profileOf (s.wordsFor n h.id h.prof)).cont = false →
    completes (.prepStart n k) s fun t => (t.core c).applied = (profileOf (s.wordsFor n h.id h.prof)).setting ∧
      (t.core c).theta = profileTheta (profileOf (s.wordsFor n h.id h.prof)).phase ∧ ((t.core c).state = .select ∨ (t.core c).state = .acquire) ∧
      (t.slotSt n k).prep = some ⟨h.id, h.prof, s.wordsFor n h.id h.prof, none⟩ ∧ (t.slotSt n k).settled = none) ∧
  (∀ (s : State) (n : Fin 8) (k : Fin 3) (c : Fin 26) (p : Prep) (l : Nat), s.slot n k = some c.val →
    (s.slotSt n k).prep = some p → (s.core c).lockAt = some l → (s.core c).state = .locked → (s.slotSt n k).settled = none →
    l + s.fld Fields.CORE_CFG_UGHOLD c * 64 ≤ s.elapsed →
    completes (.prepSettled n k) s fun t => (t.slotSt n k).settled = some s.elapsed ∧ (t.slotSt n k).prep = some p ∧
      (t.core c).holdDone = true) ∧
  (∀ (s : State) (n : Fin 8) (k : Fin 3), (s.slotSt n k).prep = none → completes (.prepSettled n k) s fun t => t = s)

/-- R271 to R274, R199, R200: SEQ_START arms a loaded station whose start tick is 64 ticks away or more, with its thread at
index 0 and every t register at the start tick; it is refused with BUSY, RANGE, LATE or BROKEN in that order. At T_s
STATION_RUN_BEGIN makes it RUNNING and gates its outputs. SEQ_STOP stops it; EXC_STOP stops it after an exception. R276: a
failed check of a thread raises its source and pauses its station: work not committed is discarded and nothing more
executes, while the holding queue stands. THREAD_RESUME binds the spare thread and lets the station go on. -/
def Obligations.StationsRun : Prop :=
  (∀ (s : State) (n : Fin 8), s.serves = true → s.active = true → (s.stn n).run = .loaded → s.mapMeets n = true →
    s.now + 64 ≤ s.seqStartTick n → s.flag Fields.TIME_STATE_BROKEN 0 = false →
    completes (.seqStart n) s fun t => (t.stn n).run = .armed ∧ (t.stn n).startTick = s.seqStartTick n ∧
      (t.stn n).guaranteed = (s.stn n).accepted ∧ (t.stn n).thread.regs = QRegs.initial (s.seqStartTick n) 0 ∧
      (t.stn n).queue = [] ∧ (t.stn n).exc = 0 ∧ s.wrote t) ∧
  (∀ (s : State) (n : Fin 8), s.serves = true → s.active = true → (s.stn n).run = .empty →
    completes (.seqStart n) s fun t => t.refusedWith .busy ∧ t.stations = s.stations) ∧
  (∀ (s : State) (n : Fin 8), s.serves = true → s.active = true → (s.stn n).run = .loaded → s.mapMeets n = true →
    s.seqStartTick n < s.now + 64 →
    completes (.seqStart n) s fun t => t.refusedWith .late ∧ t.stations = s.stations) ∧
  (∀ (s : State) (n : Fin 8), s.serves = true → s.active = true → (s.stn n).run = .loaded → s.mapMeets n = true →
    s.now + 64 ≤ s.seqStartTick n → (s.stn n).accepted = true → s.flag Fields.TIME_STATE_BROKEN 0 = true →
    completes (.seqStart n) s fun t => t.refusedWith .broken ∧ t.stations = s.stations) ∧
  (∀ (s : State) (n : Fin 8), (s.stn n).run = .armed → (s.stn n).startTick ≤ s.now →
    completes (.stationRunBegin n) s fun t => (t.stn n).run = .running ∧
      ∀ o : Fin 32, (t.out o).progGate = if bitOf (s.reg .STN_OUTMASK n) o then true else (s.out o).progGate) ∧
  (∀ (s : State) (n : Fin 8), s.serves = true → (s.stn n).running = true → (s.stn n).endedAt = none →
    completes (.seqStop n) s fun t => (t.stn n).run = .stopped ∧ (t.stn n).queue = [] ∧ (t.stn n).thread.insts = [] ∧
      t.outs = s.outs ∧ t.cores = s.cores ∧ s.wrote t) ∧
  (∀ (s : State) (n : Fin 8), s.serves = true → (s.stn n).running = true → (s.stn n).endedAt.isSome = true →
    completes (.seqStop n) s fun t => (t.stn n).run = .exception ∧ (t.stn n).queue = [] ∧ t.outs = s.outs ∧ t.cores = s.cores ∧
      s.wrote t) ∧
  (∀ (s : State) (n : Fin 8), s.serves = true → (s.stn n).running = false →
    completes (.seqStop n) s fun t => t.stations = s.stations ∧ t.outs = s.outs ∧ s.wrote t) ∧
  (∀ (s : State) (n : Fin 8) (k : Nat), (s.stn n).running = true → (s.stn n).endedAt = some k → (s.stn n).queue = [] → k < s.now →
    completes (.excStop n) s fun t => (t.stn n).run = .exception ∧ t.outs = s.outs ∧ t.cores = s.cores) ∧
  (∀ (s : State) (n : Fin 8) (k : Nat), (s.stn n).endedAt = some k → s.now ≤ k → completes (.excStop n) s fun t => t = s) ∧
  (∀ (s : State) (k : Fin 10) (n : Fin 8), s.up = true → bitOf (s.reg .SEQ_THREADS 0) (16 + k) = false →
    s.boundTo k = some n.val → (s.stn n).running = true → (s.stn n).threadDown = none →
    completes (.threadCheckFail k) s fun t => (t.stn n).threadDown = some s.elapsed ∧ (t.stn n).mayExecute = false ∧
      (t.stn n).thread.insts = [] ∧ (t.stn n).thread.regs = (s.stn n).comm ∧ (t.stn n).queue = (s.stn n).queue ∧
      ∃ r : Raise, t.raises = s.raises ++ [r] ∧ r.fid = ⟨5, 0, k.val⟩) ∧
  (∀ (s : State) (n : Fin 8) (j : Fin 10), (s.stn n).spareThread = some j.val →
    completes (.threadResume n) s fun t => (t.stn n).threadDown = none ∧ (t.stn n).spareThread = none ∧ t.threadOf n = j ∧
      bitOf (t.reg .SEQ_THREADS 0) j = false ∧ (t.stn n).comm = (s.stn n).comm ∧ (t.stn n).queue = (s.stn n).queue)

/-- R312: PGM_DATA_WRITE stores a word at INDEX of the selected store, and is refused with BUSY in the reach set of a running
program or of a pending handoff; INDEX advances when AUTOINC is set. R302, R303, R313 to R318: PGM_CHECK starts the lead
check of a fresh load at index 0, or is refused; PGM_CHECK_DONE reports its reason and loads the station when the check
passed or the program may slip; PGM_HANDOFF names the tick of a handoff whose check has passed, and does nothing while one
is in progress (R21); HANDOFF_AT_H then drops what the old program has not released and starts the new one at its entry. -/
def Obligations.ProgramsAreLoaded : Prop :=
  (∀ (s : State) (w : Word), s.serves = true → (s.stn s.pgmStation).reach.contains (s.pgmIndex / 64) = false →
    (s.stn s.pgmStation).handoff = none → s.fencedEntry 16 (s.pgmStation * 16384 + s.pgmIndex) = false →
    completes (.pgmDataWrite w) s fun t => t.pgm.get (s.pgmStation * 16384 + s.pgmIndex) = w ∧ s.wrote t ∧
      (∀ a, a ≠ s.pgmStation * 16384 + s.pgmIndex → t.pgm.get a = s.pgm.get a) ∧ t.profs = s.profs ∧
      (s.flag Fields.PGM_ADDR_AUTOINC 0 = true → t.fld Fields.PGM_ADDR_INDEX 0 = (s.pgmIndex + 1) % 16384) ∧
      (s.flag Fields.PGM_ADDR_AUTOINC 0 = false → t.fld Fields.PGM_ADDR_INDEX 0 = s.pgmIndex)) ∧
  (∀ (s : State) (w : Word), s.serves = true → (s.stn s.pgmStation).running = true →
    (s.stn s.pgmStation).reach.contains (s.pgmIndex / 64) = true →
    completes (.pgmDataWrite w) s fun t => t.refusedWith .busy ∧ t.pgm = s.pgm) ∧
  (∀ s : State, s.serves = true → s.check = none → s.flag Fields.PGM_LOAD_KIND 0 = false → (s.stn s.pgmStation).run = .empty →
    completes .pgmCheck s fun t => t.check = some ⟨s.pgmStation, false, 0,
      s.flag Fields.PGM_LOAD_MODE 0⟩ ∧ s.wrote t ∧ t.stations = s.stations) ∧
  (∀ s : State, s.serves = true → s.check.isSome = true →
    completes .pgmCheck s fun t => t.refusedWith .busy ∧ t.check = s.check) ∧
  (∀ (s : State) (j : CheckJob), s.mgmtRuns = true → s.mbx.busy = false → s.check = some j → j.handoff = false → j.station < 8 →
    (s.stn j.station).running = false → (s.leadCheck j).reason = 0 →
    completes .pgmCheckDone s fun t => t.check = none ∧ (t.stn j.station).run = .loaded ∧
      (t.stn j.station).accepted = !j.maySlip ∧ (t.stn j.station).reach = (s.leadCheck j).reach ∧
      t.fld Fields.PGM_STAT_RESULT 0 = 0 ∧ t.fld Fields.PGM_STAT_REASON 0 = 0) ∧
  (∀ (s : State) (j : CheckJob), s.mgmtRuns = true → s.mbx.busy = false → s.check = some j → j.handoff = false →
    j.maySlip = false → (s.leadCheck j).reason ≠ 0 →
    completes .pgmCheckDone s fun t => t.check = none ∧ t.stations = s.stations ∧ t.fld Fields.PGM_STAT_RESULT 0 = 1) ∧
  (∀ (s : State) (p : Handoff), s.serves = true → s.pgmStation < 8 → (s.stn s.pgmStation).handoff = some p →
    (s.stn s.pgmStation).handoffAt = none → (s.stn s.pgmStation).run = .running → s.now + 64 ≤ s.seqStartTick s.pgmStation → s.flag Fields.TIME_STATE_BROKEN 0 = false →
    completes .pgmHandoff s fun t => (t.stn s.pgmStation).handoffAt = some (s.seqStartTick s.pgmStation) ∧ s.wrote t) ∧
  (∀ s : State, s.serves = true → (s.stn s.pgmStation).handoff.isSome = true → (s.stn s.pgmStation).handoffAt.isSome = true →
    completes .pgmHandoff s fun t => t.stations = s.stations ∧ s.wrote t) ∧
  (∀ (s : State) (n : Fin 8) (h : Nat) (p : Handoff), (s.stn n).handoffAt = some h → (s.stn n).handoff = some p →
    (s.stn n).run = .running → (s.stn n).endedAt = none → h ≤ s.now →
    completes (.handoffAtH n) s fun t => (t.stn n).thread.regs = QRegs.initial h p.entry ∧ (t.stn n).handoffAt = none ∧
      (t.stn n).queue = [] ∧ (t.stn n).reach = p.reach ∧
      (t.stn n).guaranteed = p.guaranteed ∧ (t.stn n).run = .running ∧ s.onlyStation t n)

/-! ## Outputs and raster channels (spec/08) -/

/-- R328, R58: OUT_SRC_WRITE makes an output follow another core that it may follow; its divider index is taken from that
core's phase at its reference tick, which stays. A core that it may not follow is refused with RANGE, and an output that a
guaranteed program or a raster channel owns with OWNED. R335: OUT_ENABLE starts the output's domain, or takes it down with
its read-back results; reason OFF ends at the tick after OUT_DOMAIN_READY, and by 2,001 ticks after the write at the latest
(Table 8.2). -/
def Obligations.OutputsFollowAndSwitch : Prop :=
  (∀ (s : State) (o : Fin 32) (v : BitVec 5), s.serves = true → s.outTaken o = false → s.srcAllowed o v.toNat = true →
    completes (.outSrcWrite o v) s fun t => t.fld Fields.OUT_CFG_SRC o = v.toNat ∧ (t.out o).kr = (s.out o).kr ∧
      (v.toNat ≠ s.fld Fields.OUT_CFG_SRC o → v.toNat < 26 → (t.out o).psi = (s.core v.toNat).psiAt (s.out o).kr) ∧
      t.flag Fields.OUT_CFG_EN o = s.flag Fields.OUT_CFG_EN o ∧ s.wrote t ∧
      ∀ p : Fin 32, p ≠ o → t.out p = s.out p ∧ t.reg .OUT_CFG p = s.reg .OUT_CFG p) ∧
  (∀ (s : State) (o : Fin 32) (v : BitVec 5), s.serves = true → s.outTaken o = false → s.srcAllowed o v.toNat = false →
    v.toNat ≠ s.fld Fields.OUT_CFG_SRC o →
    completes (.outSrcWrite o v) s fun t => t.refusedWith .range ∧ t.outs = s.outs ∧ t.reg .OUT_CFG o = s.reg .OUT_CFG o) ∧
  (∀ (s : State) (o : Fin 32) (v : BitVec 5) (en : Bool), s.serves = true → s.outTaken o = true →
    (completes (.outSrcWrite o v) s fun t => t.refusedWith .owned ∧ t.outs = s.outs) ∧
    (completes (.outEnable o en) s fun t => t.refusedWith .owned ∧ t.outs = s.outs)) ∧
  (∀ (s : State) (o : Fin 32), s.serves = true → s.active = true → s.outTaken o = false → (s.out o).fenced = false →
    s.flag Fields.OUT_CFG_EN o = false →
    completes (.outEnable o true) s fun t => (t.out o).readyAt = some (s.elapsed + 2001) ∧ s.wrote t ∧
      t.flag Fields.OUT_CFG_EN o = true ∧ (t.out o).domainOn = (s.out o).domainOn) ∧
  (∀ (s : State) (o : Fin 32), s.serves = true → s.outTaken o = false → s.flag Fields.OUT_CFG_EN o = true →
    completes (.outEnable o false) s fun t => (t.out o).domainOn = false ∧ (t.out o).readyAt = none ∧
      t.flag Fields.OUT_CFG_EN o = false ∧ t.reg .OUT_RBPHASE o = 0x80000000#32 ∧ s.wrote t) ∧
  (∀ (s : State) (o : Fin 32) (k : Nat), s.up = true → (s.out o).readyAt = some k →
    completes (.outDomainReady o) s fun t => (t.out o).readyAt = some (min k (s.elapsed + 1)) ∧
      (t.out o).domainOn = (s.out o).domainOn ∧ t.regs = s.regs ∧ ∀ p : Fin 32, p ≠ o → t.out p = s.out p) ∧
  (∀ (s : State) (o : Fin 32), (s.out o).readyAt = none → completes (.outDomainReady o) s fun t => t = s) ∧
  (∀ (s : State) (o : Fin 32) (k : Nat), (s.out o).readyAt = some k →
    (k ≤ s.elapsed → ((s.outOn o).out o).domainOn = true ∧ ((s.outOn o).out o).readyAt = none) ∧
    (s.elapsed < k → s.outOn o = s))

/-- R323, R330, R331, R361: OUT_DSET_WRITE stores two divider sets whose D is 1 to 1,024, and restarts the output's divider
at the present tick when it changes the set in force, and only then; sets out of range are refused with RANGE.
OUT_DELAY_WRITE stores the delay of an output that no guaranteed program owns. DIV_PARITY raises DIV_PARITY, loads the
divider of an output that runs for its first edge at or after the next tick, and leaves Ψ as it was. R347: OUT_SHORT stamps
SHORT, a level, and the next tick gates the output; OUT_CLRSHORT turns the driver on again and ends the level, is refused
with OWNED where a guaranteed program owns the output, and does nothing to an output with no short. R337, R339, R348, R349:
at RB_WINDOW_END the guard judges each edge against the last it emitted, and swallows none while the core is LOCKED, the
predicted period clears the minimum by 1 ps and no change moves the edges; the counted edges are kept; a count off by more
than CTOL in MISS windows running raises RB_COUNT, and one within CTOL starts the run again; edges that the guard swallowed
are counted and raise GUARD_HIT where no plan foresaw them. -/
def Obligations.DividersShortsAndReadBack : Prop :=
  (∀ (s : State) (o : Fin 32) (up : Bool) (w : Word), s.serves = true → s.outTaken o = false →
    dsetOk o (getBits w 0 11) (bitOf w 11) = true → dsetOk o (getBits w 16 11) (bitOf w 27) = true →
    completes (.outDsetWrite o up w) s fun t =>
      t.reg (if up then .OUT_DSET23 else .OUT_DSET01) o = w &&& 0x0FFF0FFF#32 ∧ s.wrote t ∧
      (t.out o).kr = (if t.divOf o ≠ s.divOf o ∨ t.dsetDbl o (t.dsel o) ≠ s.dsetDbl o (s.dsel o) then s.now else (s.out o).kr) ∧
      ∀ p : Fin 32, p ≠ o → t.out p = s.out p) ∧
  (∀ (s : State) (o : Fin 32) (up : Bool) (w : Word), s.serves = true → s.outTaken o = false →
    (dsetOk o (getBits w 0 11) (bitOf w 11) = false ∨ dsetOk o (getBits w 16 11) (bitOf w 27) = false) →
    completes (.outDsetWrite o up w) s fun t => t.refusedWith .range ∧ t.outs = s.outs ∧
      t.reg .OUT_DSET01 o = s.reg .OUT_DSET01 o ∧ t.reg .OUT_DSET23 o = s.reg .OUT_DSET23 o) ∧
  (∀ (s : State) (o : Fin 32) (w : Word), s.serves = true → s.outOwned o = false →
    completes (.outDelayWrite o w) s fun t => t.reg .OUT_DELAY o = w &&& 0x07FF03FF#32 ||| (s.reg .OUT_DELAY o &&& ~~~0x07FF03FF#32) ∧
      t.outs = s.outs ∧ s.wrote t) ∧
  (∀ (s : State) (o : Fin 32) (w : Word), s.serves = true → s.outOwned o = true →
    completes (.outDelayWrite o w) s fun t => t.refusedWith .owned ∧ t.reg .OUT_DELAY o = s.reg .OUT_DELAY o) ∧
  (∀ (s : State) (o : Fin 32), s.up = true → (s.out o).domainOn = true → (s.out o).fenced = false →
    completes (.divParity o) s fun t => (∃ r : Raise, t.raises = s.raises ++ [r] ∧ r.fid = Src.out_DIV_PARITY o ∧
      r.stamp = s.now) ∧ (t.out o).psi = (s.out o).psi ∧ (t.out o).kr = (s.out o).kr ∧ t.regs = s.regs ∧
      (∀ w, s.waveOf o = some w → (t.out o).load = w.loadAt (s.now + 1 : Nat)) ∧ ∀ p : Fin 32, p ≠ o → t.out p = s.out p) ∧
  (∀ (s : State) (o : Fin 32), s.up = true → s.driverOff o = false → (s.out o).driveAt + 500 ≤ s.elapsed →
    s.isLive (Src.out_SHORT o) = false →
    completes (.outShort o) s fun t => t.later = s.later ++ [.short o] ∧ t.isLive (Src.out_SHORT o) = true ∧
      (t.out o).shorted = (s.out o).shorted ∧ ∃ r : Raise, t.raises = s.raises ++ [r] ∧ r.fid = Src.out_SHORT o ∧ r.stamp = s.now) ∧
  (∀ (s : State) (o : Fin 32), (s.applyLater (.short o)).out o = { s.out o with shorted := true, shortAt := some s.elapsed }) ∧
  (∀ (s : State) (o : Fin 32), s.serves = true → s.outOwned o = false → s.outDomainOff o = false → (s.out o).shorted = true →
    (s.out o).shortAt ≠ some s.elapsed →
    completes (.outClrshort o) s fun t => (t.out o).shorted = false ∧ s.wrote t ∧
      bitOf (t.win (windowIndex 6 o)).live 3 = false) ∧
  (∀ (s : State) (o : Fin 32), s.serves = true → s.outOwned o = false → s.outDomainOff o = false → (s.out o).shorted = false →
    completes (.outClrshort o) s fun t => t.outs = s.outs ∧ s.wrote t) ∧
  (∀ (s : State) (o : Fin 32), s.serves = true → s.outOwned o = true →
    completes (.outClrshort o) s fun t => t.refusedWith .owned ∧ t.outs = s.outs) ∧
  (∀ (s : State) (o : Fin 32) (n : Nat) (edges : List EdgeRun) (m : Bool) (phase : Int), s.up = true → s.rbEnds o = true →
    s.guardClear o = true → (edges.all fun e => !e.moved) = true →
    completes (.rbWindowEnd o n edges m phase) s fun t => t.fld Fields.OUT_EVCNT_GUARD o = s.fld Fields.OUT_EVCNT_GUARD o) ∧
  (∀ (s : State) (o : Fin 32) (n : Nat) (edges : List EdgeRun) (e : Int), s.up = true → s.rbEnds o = true →
    let g := guardRuns (s.minPeriod o * 500) (s.guardClear o) edges (s.out o).sinceEdge
    (g.2.1 = 0 → max n g.1 - min n g.1 ≤ s.fld Fields.OUT_RBCFG_CTOL o →
      completes (.rbWindowEnd o n edges false e) s fun t => t.reg .OUT_RBCNT o = BitVec.ofNat 32 n ∧ (t.out o).rbMiss = 0 ∧
        (t.out o).rbCountBad = false ∧ (t.out o).sinceEdge = g.2.2 ∧ t.raises = s.raises) ∧
    (g.2.1 = 0 → (s.out o).fenced = false → s.fld Fields.OUT_RBCFG_CTOL o < max n g.1 - min n g.1 →
      (s.out o).rbMiss + 1 = s.fld1 Fields.OUT_RBCFG_MISS o →
      completes (.rbWindowEnd o n edges false e) s fun t => (t.out o).rbMiss = (s.out o).rbMiss + 1 ∧ (t.out o).rbCountBad = true ∧
        ∃ r : Raise, t.raises = s.raises ++ [r] ∧ r.fid = Src.out_RB_COUNT o) ∧
    (0 < g.2.1 → (s.out o).fenced = false → (s.out o).guardPlan = false →
      max n g.1 - min n g.1 ≤ s.fld Fields.OUT_RBCFG_CTOL o →
      completes (.rbWindowEnd o n edges false e) s fun t =>
        t.fld Fields.OUT_EVCNT_GUARD o = satAdd (s.fld Fields.OUT_EVCNT_GUARD o) Fields.OUT_EVCNT_GUARD.width g.2.1 ∧
        ∃ r : Raise, t.raises = s.raises ++ [r] ∧ r.fid = Src.out_GUARD_HIT o)) ∧
  (∀ (s : State) (o : Fin 32) (n : Nat) (edges : List EdgeRun) (m : Bool) (phase : Int), s.rbEnds o = false →
    completes (.rbWindowEnd o n edges m phase) s fun t => t = s)

/-- R184 to R186, R344, Table 8.4: OUT_SYSREF_REQ starts a burst on the grid, of COUNT pulses in gapped mode and of one in
one-shot mode, or is dropped, counted and raised while the output is gated, a burst runs or periodic SYSREF is enabled;
OUT_SYSREF_PER enables periodic SYSREF from the first grid point at or after its tick, or after a burst that runs, and
OUT_SYSREF_DIS disables it. An output that a guaranteed program owns refuses all three. -/
def Obligations.SysrefOperations : Prop :=
  (∀ (s : State) (o : Fin 32), s.serves = true → s.outOwned o = false → s.outDomainOff o = false → s.smode o ≠ 0 →
    s.gated o = false → s.burstRunning o s.now = false → (s.out o).periodic = none →
    completes (.outSysrefReq o) s fun t => s.wrote t ∧ t.raises = s.raises ∧ (t.out o).burst =
      some ⟨s.gridFrom o s.now, if s.smode o = 1 then s.fld1 Fields.OUT_SYSREF_COUNT o else 1, s.elapsed⟩) ∧
  (∀ (s : State) (o : Fin 32), s.serves = true → s.outOwned o = false → s.outDomainOff o = false → s.smode o ≠ 0 →
    (s.gated o = true ∨ s.burstRunning o s.now = true ∨ (s.out o).periodic.isSome = true) → (s.out o).fenced = false →
    completes (.outSysrefReq o) s fun t => s.wrote t ∧ (t.out o).burst = (s.out o).burst ∧
      t.fld Fields.OUT_EVCNT_SYSDROP o = satAdd (s.fld Fields.OUT_EVCNT_SYSDROP o) Fields.OUT_EVCNT_SYSDROP.width 1 ∧
      ∃ r : Raise, t.raises = s.raises ++ [r] ∧ r.fid = Src.out_SYSREF_DROP o) ∧
  (∀ (s : State) (o : Fin 32), s.serves = true → s.outOwned o = false → s.outDomainOff o = false → s.smode o ≠ 0 →
    (completes (.outSysrefPer o) s fun t => s.wrote t ∧
      (t.out o).periodic = some ((s.out o).periodic.getD (s.periodicFrom o s.now)) ∧ (t.out o).burst = (s.out o).burst) ∧
    (completes (.outSysrefDis o) s fun t => s.wrote t ∧ (t.out o).periodic = none ∧
      ((s.out o).burst = none → (t.out o).burst = none))) ∧
  (∀ (s : State) (o : Fin 32), s.serves = true → s.outOwned o = true →
    (completes (.outSysrefReq o) s fun t => t.refusedWith .owned ∧ t.outs = s.outs) ∧
    (completes (.outSysrefPer o) s fun t => t.refusedWith .owned ∧ t.outs = s.outs) ∧
    (completes (.outSysrefDis o) s fun t => t.refusedWith .owned ∧ t.outs = s.outs))

/-- R351, R352: RAS_ENABLE binds a free Unassigned core and the outputs of RAS_OUTMASK, which follow it and stay gated until
the first change; a core or output that a station or the other channel has is refused with RANGE. RAS_DISABLE unbinds them,
and is refused with BUSY while a change is applied. R355: RAS_STAGE takes the staged setting as the pending change, or is
refused; RAS_CANCEL discards it. R354, R357: TE_EDGE stamps a qualified edge, which schedules the pending change two ticks
later, and checks the frame count. R358: TE_TIMEOUT raises TE_LOST and forces or holds the pending change, by POLICY. -/
def Obligations.RasterChangesAreBoundAndStaged : Prop :=
  (∀ (s : State) (r : Fin 2) (w : Word), s.serves = true → (s.rasCh r).bound = false → getBits w 24 5 < 26 →
    (s.core (getBits w 24 5)).role = .unassigned → s.rasOfCore (getBits w 24 5) = none → s.mapOwner (getBits w 24 5) = none →
    s.reg .RAS_OUTMASK r &&& s.reg .RAS_OUTMASK (1 - r.val) = 0 →
    (∀ o : Fin 32, bitOf (s.reg .RAS_OUTMASK r) o = true → s.outOwner o = none) →
    completes (.rasEnable r w) s fun t => (t.rasCh r).bound = true ∧ (t.rasCh r).pending = none ∧ s.wrote t ∧
      t.fld Fields.RAS_CFG_CORE r = getBits w 24 5 ∧ t.flag Fields.CORE_CFG_EN (getBits w 24 5) = true ∧
      ∀ o : Fin 32, bitOf (s.reg .RAS_OUTMASK r) o = true →
        t.fld Fields.OUT_CFG_SRC o = getBits w 24 5 ∧ (t.out o).rasterHold = true) ∧
  (∀ (s : State) (r : Fin 2) (w : Word), s.serves = true → (s.rasCh r).bound = false → getBits w 24 5 < 26 →
    (s.core (getBits w 24 5)).role ≠ .unassigned →
    completes (.rasEnable r w) s fun t => t.refusedWith .range ∧ t.ras = s.ras ∧ t.outs = s.outs) ∧
  (∀ (s : State) (r : Fin 2), s.serves = true → (s.rasCh r).bound = true → (s.rasCh r).applying = false →
    completes (.rasDisable r) s fun t => (t.rasCh r).bound = false ∧ (t.rasCh r).pending = none ∧
      t.flag Fields.RAS_CFG_EN r = false ∧ t.outs = s.outs ∧ s.wrote t) ∧
  (∀ (s : State) (r : Fin 2), s.serves = true → (s.rasCh r).bound = true → (s.rasCh r).applying = true →
    completes (.rasDisable r) s fun t => t.refusedWith .busy ∧ t.ras = s.ras) ∧
  (∀ (s : State) (r : Fin 2), s.serves = true → (s.rasCh r).applying = false → (s.rasStaged r).setting.valid = true →
    200 ≤ (s.rasStaged r).gtime →
    completes (.rasStage r) s fun t => (t.rasCh r).pending = some (s.rasStaged r) ∧ (t.rasCh r).applyAt = none ∧ s.wrote t) ∧
  (∀ (s : State) (r : Fin 2), s.serves = true → (s.rasCh r).applying = false →
    ((s.rasStaged r).setting.valid = false ∨ (s.rasStaged r).gtime < 200) →
    completes (.rasStage r) s fun t => t.refusedWith .range ∧ t.ras = s.ras) ∧
  (∀ (s : State) (r : Fin 2), s.serves = true → (s.rasCh r).applying = false →
    completes (.rasCancel r) s fun t => (t.rasCh r).pending = none ∧ (t.rasCh r).applyAt = none ∧ s.wrote t) ∧
  (∀ (s : State) (r : Fin 2) (width edges : Nat) (g : Bool), s.up = true → (s.rasCh r).bound = true →
    s.fld1 Fields.RAS_CFG_TEMINW r ≤ width → (s.rasCh r).pending.isSome = true → (s.rasCh r).applying = false →
    (s.rasCh r).applyAt = none →
    completes (.teEdge r width edges g) s fun t => (t.rasCh r).applyAt = some (s.elapsed + 2) ∧
      (t.rasCh r).lastTe = some s.elapsed ∧ (t.rasCh r).pending = (s.rasCh r).pending ∧
      ∀ k, (s.rasCh r).lastTe = some k → t.reg .RAS_TEIVL r = BitVec.ofNat 32 (min (s.elapsed - k) 0xFFFFFFFF)) ∧
  (∀ (s : State) (r : Fin 2) (width edges : Nat) (g : Bool), width < s.fld1 Fields.RAS_CFG_TEMINW r →
    completes (.teEdge r width edges g) s fun t => t = s) ∧
  (∀ (s : State) (r : Fin 2) (width edges k : Nat), s.up = true → (s.rasCh r).bound = true →
    s.fld1 Fields.RAS_CFG_TEMINW r ≤ width → (s.rasCh r).lastTe = some k → s.reg .RAS_EXPECT r ≠ 0 →
    (s.rasCh r).tainted = false → s.rasGated r = false →
    s.fld Fields.RAS_CFG_TOL r < max edges (s.reg .RAS_EXPECT r).toNat - min edges (s.reg .RAS_EXPECT r).toNat →
    completes (.teEdge r width edges false) s fun t => ∃ x : Raise, t.raises = s.raises ++ [x] ∧ x.fid = Src.ras_FRAME_ERR r) ∧
  (∀ (s : State) (r : Fin 2), s.up = true → s.teTimeoutDue r = true → (s.rasCh r).lost = false →
    (s.rasCh r).pending.isSome = true → (s.rasCh r).applying = false → (s.rasCh r).applyAt = none →
    completes (.teTimeout r) s fun t => t.flag Fields.RAS_CTL_TEMISSING r = true ∧ (t.rasCh r).timedOut = true ∧
      (s.flag Fields.RAS_CFG_POLICY r = true → (t.rasCh r).applyAt = some (s.elapsed + 2) ∧
        ∃ x y : Raise, t.raises = s.raises ++ [x, y] ∧ x.fid = Src.ras_TE_LOST r ∧ y.fid = Src.ras_RAS_FORCED r) ∧
      (s.flag Fields.RAS_CFG_POLICY r = false → (t.rasCh r).held = true ∧ (t.rasCh r).applyAt = none ∧
        ∃ x : Raise, t.raises = s.raises ++ [x] ∧ x.fid = Src.ras_TE_LOST r)) ∧
  (∀ (s : State) (r : Fin 2), s.teTimeoutDue r = false → completes (.teTimeout r) s fun t => t = s)

/-- R356, Table 8.5: RAS_APPLY applies a pending change whose tick has come. At the frequency in force it is a divider change
at this tick; else a glide of the core when it is allowed and FORCECOLD is 0; else a cold change with the outputs gated. -/
def Obligations.RasterChangesAreApplied : Prop :=
  (∀ (s : State) (r : Fin 2) (k : Nat) (g : RasChange), s.up = true → (s.rasCh r).applyAt = some k → k ≤ s.elapsed →
    (s.rasCh r).pending = some g → g.setting.sameFreq (s.core (s.fld Fields.RAS_CFG_CORE r)).applied = true →
    (s.core (s.fld Fields.RAS_CFG_CORE r)).role ≠ .fenced →
    completes (.rasApply r) s fun t => (t.rasCh r).pending = none ∧ (t.rasCh r).lastKind = 3 ∧ t.cores = s.cores ∧
      ∀ o : Fin 32, bitOf (s.reg .RAS_OUTMASK r) o = true → t.dsel o = g.dsel % 4 ∧ (t.out o).kr = s.now) ∧
  (∀ (s : State) (r : Fin 2) (k : Nat) (g : RasChange), s.up = true → (s.rasCh r).applyAt = some k → k ≤ s.elapsed →
    (s.rasCh r).pending = some g → g.setting.sameFreq (s.core (s.fld Fields.RAS_CFG_CORE r)).applied = false →
    g.forceCold = false → (s.core (s.fld Fields.RAS_CFG_CORE r)).role ≠ .fenced → (s.core (s.fld Fields.RAS_CFG_CORE r)).state = .locked →
    s.glideOk (s.fld Fields.RAS_CFG_CORE r) g.setting = true →
    completes (.rasApply r) s fun t => (t.rasCh r).applying = true ∧ (t.rasCh r).lastKind = 1 ∧
      (t.core (s.fld Fields.RAS_CFG_CORE r)).glide = some ⟨s.now, g.gtime, (s.core (s.fld Fields.RAS_CFG_CORE r)).ratioAt s.now,
        g.setting, (s.core (s.fld Fields.RAS_CFG_CORE r)).phase s.now⟩) ∧
  (∀ (s : State) (r : Fin 2) (k : Nat) (g : RasChange), s.up = true → (s.rasCh r).applyAt = some k → k ≤ s.elapsed →
    (s.rasCh r).pending = some g → s.fld Fields.RAS_CFG_CORE r < 26 → (s.core (s.fld Fields.RAS_CFG_CORE r)).role ≠ .fenced →
    g.setting.sameFreq (s.core (s.fld Fields.RAS_CFG_CORE r)).applied = false → g.forceCold = true →
    completes (.rasApply r) s fun t => (t.rasCh r).applying = true ∧ (t.rasCh r).lastKind = 2 ∧
      (t.core (s.fld Fields.RAS_CFG_CORE r)).applied = g.setting ∧
      ∀ o : Fin 32, bitOf (s.reg .RAS_OUTMASK r) o = true → (t.out o).rasterGate = true ∧ t.dsel o = g.dsel % 4) ∧
  (∀ (s : State) (r : Fin 2) (k : Nat), (s.rasCh r).applyAt = some k → s.elapsed < k → completes (.rasApply r) s fun t => t = s)

/-! ## Lanes (spec/09) -/

/-- R371 to R374, Table 9.3: how a lane trains. LANE_ENABLE turns it on into QUIET, or off; QUIET_END, SIGNAL_DETECT and
CDR_LOCK take it through WAIT_SIG and CDR to EQ; with both ends ready, roles that pair and a device ID, EQ_DONE takes it to
FRAME, and roles that do not pair raise PEER_ROLE; frame lock makes it LINKED. R371, R372, R410: a loss of frame lock, of
CDR lock, of signal, or the timeout of a training state returns a lane to WAIT_SIG, counts a retraining and raises
TRAIN_FAIL; the recovered clock outlives a loss of frame lock alone. LOS of a lane that carries raises LOS before it. -/
def Obligations.LanesTrainAndRetrain : Prop :=
  (∀ (s : State) (n : Fin 16), s.serves = true → s.active = true → s.thirdUpstream n (s.reg .LN_CFG n) = false →
    s.flag Fields.LN_CFG_EN n = false → s.sliceBad (s.lane n).slice = false →
    completes (.laneEnable n true) s fun t => (t.lane n).state = .quiet ∧ (t.lane n).since = s.elapsed ∧
      t.flag Fields.LN_CFG_EN n = true ∧ s.wrote t ∧ ∀ m : Fin 16, m ≠ n → t.lane m = s.lane m) ∧
  (∀ (s : State) (n : Fin 16), s.serves = true → s.active = true → s.thirdUpstream n (s.reg .LN_CFG n) = false →
    s.flag Fields.LN_CFG_EN n = true →
    completes (.laneEnable n false) s fun t => (t.lane n).state = .off ∧ (t.lane n).frameLock = false ∧
      t.flag Fields.LN_CFG_EN n = false ∧ s.wrote t) ∧
  (∀ (s : State) (n : Fin 16), s.up = true → (s.lane n).state = .quiet → (s.lane n).since + usTicks 1000 ≤ s.elapsed →
    completes (.laneQuietEnd n) s fun t => t = s.laneTo n .waitSig) ∧
  (∀ (s : State) (n : Fin 16), (s.lane n).state = .quiet → s.elapsed < (s.lane n).since + usTicks 1000 →
    completes (.laneQuietEnd n) s fun t => t = s) ∧
  (∀ (s : State) (n : Fin 16), s.up = true → (s.lane n).state = .waitSig →
    completes (.laneSignalDetect n) s fun t => (t.lane n).state = .cdr ∧ (t.lane n).since = s.elapsed ∧
      bitOf (t.win (windowIndex 7 n)).live 0 = false ∧ t.regs = s.regs) ∧
  (∀ (s : State) (n : Fin 16), s.up = true → (s.lane n).state = .cdr →
    completes (.laneCdrLock n) s fun t => (t.lane n).state = .eq ∧ (t.lane n).cdr = true ∧ t.regs = s.regs ∧ t.raises = s.raises) ∧
  (∀ (s : State) (n : Fin 16) (peer : Word) (pre ctle : Fin 16) (post : Fin 32), s.up = true → (s.lane n).state = .eq →
    bitOf peer 23 = true → (s.upstream n = true ↔ getBits peer 20 2 ≠ 2) → s.fld Fields.LNG_DEVID_ID 0 ≠ 0 →
    completes (.laneEqDone n peer pre post ctle) s fun t => (t.lane n).state = .frame ∧
      (t.lane n).peerLane = getBits peer 16 4 ∧ (t.lane n).peerId = getBits peer 0 16 ∧
      (t.lane n).fecOn = (s.flag Fields.LN_CFG_FEC n || bitOf peer 22) ∧ t.fld Fields.LN_EQ_TXPRE n = pre.val ∧
      t.fld Fields.LN_EQ_TXPOST n = post.val ∧ t.fld Fields.LN_EQ_CTLE n = ctle.val ∧ t.raises = s.raises) ∧
  (∀ (s : State) (n : Fin 16) (peer : Word) (pre ctle : Fin 16) (post : Fin 32), s.up = true → (s.lane n).state = .eq →
    bitOf peer 23 = true → (s.upstream n = true ↔ getBits peer 20 2 = 2) → (s.lane n).roleRaised = false →
    completes (.laneEqDone n peer pre post ctle) s fun t => (t.lane n).state = .eq ∧ (t.lane n).roleRaised = true ∧
      ∃ r : Raise, t.raises = s.raises ++ [r] ∧ r.fid = Src.lane_PEER_ROLE n) ∧
  (∀ (s : State) (n : Fin 16), s.up = true → (s.lane n).state = .frame →
    completes (.laneFrameLock n) s fun t => (t.lane n).state = .linked ∧ (t.lane n).frameLock = true ∧ t.raises = s.raises ∧
      (s.timingLane = some n.val → t.lng.framed = true)) ∧
  (∀ (s : State) (n : Fin 16), s.up = true → (s.lane n).carries = true →
    completes (.laneFrameLoss n) s fun t => (t.lane n).state = .waitSig ∧ (t.lane n).frameLock = false ∧
      (t.lane n).cdr = (s.lane n).cdr ∧
      t.fld Fields.LN_TRAIN_RETRAIN n = satAdd (s.fld Fields.LN_TRAIN_RETRAIN n) Fields.LN_TRAIN_RETRAIN.width 1 ∧
      ∃ r : Raise, t.raises = s.raises ++ [r] ∧ r.fid = Src.lane_TRAIN_FAIL n) ∧
  (∀ (s : State) (n : Fin 16) (k : Nat), s.up = true → (s.lane n).timeout = some k → (s.lane n).since + k ≤ s.elapsed →
    completes (.laneTrainTimeout n) s fun t => (t.lane n).state = .waitSig ∧ (t.lane n).since = s.elapsed ∧
      ∃ r : Raise, t.raises = s.raises ++ [r] ∧ r.fid = Src.lane_TRAIN_FAIL n) ∧
  (∀ (s : State) (n : Fin 16), (s.lane n).timeout = none → completes (.laneTrainTimeout n) s fun t => t = s) ∧
  (∀ (s : State) (n : Fin 16), s.up = true → ((s.lane n).state = .eq ∨ (s.lane n).state = .frame ∨ (s.lane n).carries = true) →
    completes (.laneCdrLoss n) s fun t => (t.lane n).state = .waitSig ∧ (t.lane n).cdr = false ∧
      ∃ r : Raise, t.raises = s.raises ++ [r] ∧ r.fid = Src.lane_TRAIN_FAIL n) ∧
  (∀ (s : State) (n : Fin 16), s.up = true → (s.lane n).carries = true → s.isLive (Src.lane_LOS n) = false →
    completes (.los n) s fun t => (t.lane n).state = .waitSig ∧ t.isLive (Src.lane_LOS n) = true ∧
      ∃ x y : Raise, t.raises = s.raises ++ [x, y] ∧ x.fid = Src.lane_LOS n ∧ x.stamp = s.now ∧ y.fid = Src.lane_TRAIN_FAIL n)

/-- R404 to R407: EYE_LOW keeps the reading; one below MIN makes EYE_LOW live, and with AUTOSTEER starts a planned move to
the group's free spare slice. LANE_STEER starts one on command, does nothing while one runs (R21), and is refused with STATE
on a lane that is neither LINKED nor TIMED. At LANE_STEER_DONE the spare has the lane, which returns to the state it had.
SLICE_CHECK raises SLICE_CHECK. -/
def Obligations.SlicesMove : Prop :=
  (∀ (s : State) (n : Fin 16) (eye : BitVec 8), s.up = true → (s.lane n).carries = true →
    s.fld Fields.LN_MARGIN_MIN n ≤ eye.toNat →
    completes (.eyeLow n eye) s fun t => t.fld Fields.LN_MARGIN_EYE n = eye.toNat ∧ t.raises = s.raises ∧ t.lanes = s.lanes) ∧
  (∀ (s : State) (n : Fin 16) (eye : BitVec 8), s.up = true → (s.lane n).carries = true →
    eye.toNat < s.fld Fields.LN_MARGIN_MIN n → s.isLive (Src.lane_EYE_LOW n) = false →
    s.flag Fields.LN_CFG_AUTOSTEER n = false →
    completes (.eyeLow n eye) s fun t => t.isLive (Src.lane_EYE_LOW n) = true ∧ t.lanes = s.lanes ∧
      ∃ r : Raise, t.raises = s.raises ++ [r] ∧ r.fid = Src.lane_EYE_LOW n) ∧
  (∀ (s : State) (n : Fin 16) (eye : BitVec 8), s.up = true → (s.lane n).state = .linked →
    eye.toNat < s.fld Fields.LN_MARGIN_MIN n → s.isLive (Src.lane_EYE_LOW n) = false →
    s.flag Fields.LN_CFG_AUTOSTEER n = true → s.spareFree (spareOf n) = true →
    completes (.eyeLow n eye) s fun t => (t.lane n).state = .steering ∧
      (t.lane n).move = some ⟨spareOf n, true, .linked, false⟩) ∧
  (∀ (s : State) (n : Fin 16), s.serves = true → s.active = true → ((s.lane n).state = .linked ∨ (s.lane n).state = .timed) →
    (s.lane n).moving = false → s.spareFree (spareOf n) = true →
    completes (.laneSteer n) s fun t => (t.lane n).state = .steering ∧
      (t.lane n).move = some ⟨spareOf n, true, (s.lane n).state, true⟩ ∧ (t.lane n).slice = (s.lane n).slice ∧ bitOf t.lngCmdRead 28 = true ∧ s.wrote t) ∧
  (∀ (s : State) (n : Fin 16), s.serves = true → s.active = true → (s.lane n).moving = true →
    completes (.laneSteer n) s fun t => t.lanes = s.lanes ∧ s.wrote t) ∧
  (∀ (s : State) (n : Fin 16), s.serves = true → s.active = true → (s.lane n).moving = false → (s.lane n).state ≠ .linked →
    (s.lane n).state ≠ .timed →
    completes (.laneSteer n) s fun t => t.refusedWith .state ∧ t.lanes = s.lanes) ∧
  (∀ (s : State) (n : Fin 16) (m : SliceMove), s.up = true → (s.lane n).state = .steering → (s.lane n).move = some m →
    m.planned = true → s.frameTicks % 43520 = 0 →
    completes (.laneSteerDone n) s fun t => (t.lane n).state = m.back ∧ (t.lane n).slice = m.slice ∧ (t.lane n).move = none ∧
      t.regs = s.regs ∧ ∀ k : Fin 16, k ≠ n → t.lane k = s.lane k) ∧
  (∀ (s : State) (n : Fin 16) (m : SliceMove), s.up = true → (s.lane n).state = .steering → (s.lane n).move = some m →
    m.planned = false →
    completes (.laneSteerDone n) s fun t => (t.lane n).state = .linked ∧ (t.lane n).slice = (s.lane n).slice ∧
      (t.lane n).move = none ∧ (t.lane n).frameLock = true ∧ t.regs = s.regs ∧ ∀ k : Fin 16, k ≠ n → t.lane k = s.lane k) ∧
  (∀ (s : State) (n : Fin 16), (s.lane n).state ≠ .steering ∨ ((s.lane n).moving = true ∧ s.frameTicks % 43520 ≠ 0) →
    completes (.laneSteerDone n) s fun t => t = s) ∧
  (∀ (s : State) (n : Fin 16), s.up = true → (s.lane n).state ≠ .off →
    completes (.sliceCheck n) s fun t => t.lanes = s.lanes ∧
      ∃ r : Raise, t.raises = s.raises ++ [r] ∧ r.fid = Src.lane_SLICE_CHECK n ∧ r.stamp = s.now)

/-- R376, R380 to R385, R388: a class-0 message whose CRC fails is counted and discarded; one whose flow has no valid entry
is dropped, counted and raises C0_DROP; one whose entry says so reaches the event board of a station that has enabled its
source, with its carried tick; one is forwarded in the same slot of a lane its entry names, with HOP one more and the
entry's flow, in the frame that R388 gives. LNG_C1WORD and the cells: a class-1 cell delivered locally joins the word queue,
from which C1WORD_READ takes the oldest. R380, R383: FLOW_DATA_WRITE stores the entry that FLOW_ADDR names and no other.
C0_TRANSMIT sends the oldest waiting message of a lane in a slot that is open to local origination, two ticks or more after
the message's own; before that nothing leaves. -/
def Obligations.MessagesAreRoutedAndOriginated : Prop :=
  (∀ (s : State) (i : Fin 16) (k : Fin 8) (v : BitVec 128) (code : Fin 3), s.up = true → (s.lane i).carries = true →
    (s.lane i).fecOn = false → crcHolds v = false →
    completes (.c0MessageRx i k v code) s fun t => t = s.bump Fields.LN_CNT_C0CRC i 1) ∧
  (∀ (s : State) (i : Fin 16) (k : Fin 8) (v : BitVec 128) (code : Fin 3), s.up = true → (s.lane i).carries = true →
    (s.lane i).fecOn = false → crcHolds v = true → c0Kind v = 1 → bitOf (s.flowEntry i (c0Decode v).flow) 31 = false →
    completes (.c0MessageRx i k v code) s fun t => t.lanes = s.lanes ∧ t.stations = s.stations ∧
      t.fld Fields.LN_CNT_C0DROP i = satAdd (s.fld Fields.LN_CNT_C0DROP i) Fields.LN_CNT_C0DROP.width 1 ∧
      ∃ r : Raise, t.raises = s.raises ++ [r] ∧ r.fid = Src.lane_C0_DROP i) ∧
  (∀ (s : State) (i : Fin 16) (k : Fin 8) (v : BitVec 128) (code : Fin 3) (n : Fin 8), s.up = true → (s.lane i).carries = true →
    (s.lane i).fecOn = false → crcHolds v = true → c0Kind v = 1 → bitOf (s.flowEntry i (c0Decode v).flow) 31 = true →
    bitOf (s.flowEntry i (c0Decode v).flow) 30 = true → s.lanesOf (s.flowEntry i (c0Decode v).flow) = [] →
    (s.now : Int) < widen s.now (c0Decode v).stamp + 2 → (s.stn n).running = true → (s.stn n).events = [] →
    (s.stn n).enabled.contains (8 + (c0Decode v).slot) = true →
    (s.stn n).mark (8 + (c0Decode v).slot) < (widen s.now (c0Decode v).stamp).toNat →
    completes (.c0MessageRx i k v code) s fun t =>
      (t.stn n).events = [⟨8 + (c0Decode v).slot, (widen s.now (c0Decode v).stamp).toNat, (c0Decode v).payload⟩] ∧
      t.lanes = s.lanes) ∧
  (∀ (s : State) (i j : Fin 16) (k : Fin 8) (v : BitVec 128) (code : Fin 3), s.up = true → (s.lane i).carries = true →
    (s.lane i).fecOn = false → crcHolds v = true → c0Kind v = 1 → bitOf (s.flowEntry i (c0Decode v).flow) 31 = true →
    bitOf (s.flowEntry i (c0Decode v).flow) 30 = false → s.lanesOf (s.flowEntry i (c0Decode v).flow) = [j.val] → j ≠ i →
    s.slotFrom j k i = true → (c0Decode v).hop ≠ 7 →
    completes (.c0MessageRx i k v code) s fun t => t.stations = s.stations ∧ t.raises = s.raises ∧
      (t.lane j).sent[k] = { c0Decode v with
        flow := getBits (s.flowEntry i (c0Decode v).flow) 16 12, hop := (c0Decode v).hop + 1 }.encode ∧
      (t.lane j).sentIn[k] = s.repeatFrame i j) ∧
  (∀ (s : State) (i : Fin 16) (v : BitVec 128) (code : Fin 3), s.up = true → (s.lane i).carries = true →
    (s.lane i).fecOn = false → crcHolds v = true → cellClass v = 1 → bitOf (s.flowEntry i (cellDecode v).flow) 31 = true →
    bitOf (s.flowEntry i (cellDecode v).flow) 30 = true → s.lanesOf (s.flowEntry i (cellDecode v).flow) = [] →
    s.lng.words.length < 256 →
    completes (.cellRx i [v] code) s fun t => ∃ x : C1Word, t.lng.words = s.lng.words ++ [x] ∧
      x.word = (cellDecode v).data.extractLsb' 64 32 ∧ x.flow = (cellDecode v).flow ∧ x.lane = i.val) ∧
  (∀ (s : State) (i : Fin 16) (v : BitVec 128) (code : Fin 3), s.up = true → (s.lane i).carries = true →
    (s.lane i).fecOn = false → crcHolds v = true → cellClass v ≠ 0 → bitOf (s.flowEntry i (cellDecode v).flow) 31 = false →
    completes (.cellRx i [v] code) s fun t => t = s.bump Fields.LN_CNT_CDROP i 1) ∧
  (∀ (s : State) (x : C1Word) (l : List C1Word), s.hostServes = true → s.power ≠ 4 → s.lng.words = x :: l →
    completes .c1wordRead s fun t => t.readData = x.word ∧ t.lng.words = l ∧ t.reg .LNG_C1TICK_LO 0 = loWord x.tick ∧
      t.reg .LNG_C1TICK_HI 0 = hiWord x.tick ∧ t.reg .LNG_C1INFO 0 = BitVec.ofNat 32 (x.flow % 4096 * 16 + x.lane % 16)) ∧
  (∀ (s : State) (w : Word), s.serves = true → s.fencedEntry 17 s.flowIndex = false →
    completes (.flowDataWrite w) s fun t => t.lng.flows.get s.flowIndex = w &&& 0xCFFFFFFF#32 ∧ s.wrote t ∧
      (∀ a, a ≠ s.flowIndex → t.lng.flows.get a = s.lng.flows.get a) ∧
      t.fld Fields.FLOW_ADDR_FLOW 0 =
        (if s.flag Fields.FLOW_ADDR_AUTOINC 0 then (s.fld Fields.FLOW_ADDR_FLOW 0 + 1) % 4096 else s.fld Fields.FLOW_ADDR_FLOW 0)) ∧
  (∀ (s : State) (n : Fin 16) (k : Fin 8) (m : C0Wait) (l : List C0Wait), s.up = true → (s.lane n).own = m :: l →
    (s.lane n).carries = true → s.slotFrom n k n = true → m.at_ + 2 ≤ s.elapsed → ∀ f : Nat, s.slotFrame k = some f →
    completes (.c0Transmit n k) s fun t => (t.lane n).own = l ∧ (t.lane n).sent[k] = m.msg.encode ∧
      (t.lane n).sentIn[k] = f ∧ t.regs = s.regs ∧
      ∀ j : Fin 16, j ≠ n → t.lane j = s.lane j) ∧
  (∀ (s : State) (n : Fin 16) (k : Fin 8) (m : C0Wait) (l : List C0Wait), (s.lane n).own = m :: l →
    s.elapsed < m.at_ + 2 ∨ s.slotFrame k = none → completes (.c0Transmit n k) s fun t => t = s)

/-- R394 to R396: a complete record gives the lane's offset θ and delay from the four stamps, with ASYM; a record that is not
whole starts the run of valid ones again. 2^AVG valid results running make a LINKED lane TIMED. R398: LANE_LOAD steps the
count by −q, q being θ_f of a TIMED source in whole ticks; it is refused with BUSY while R28 bars a load, and with STATE
without a source. R403: LANE_REALIGN takes the frame phase of a source that carries. R394: LANE_LOOPCAL calibrates the idle
lanes. -/
def Obligations.TimeTransfer : Prop :=
  (∀ (s : State) (n : Fin 16) (w0 w1 w2 : BitVec 108) (t2 t3 : Int), s.up = true → (s.lane n).carries = true →
    (ttCrcHolds w0 && ttCrcHolds w1 && ttCrcHolds w2) = false →
    completes (.ttResult n w0 w1 w2 t2 t3 true) s fun t => t = s.modLane n fun l => { l with valid := 0 }) ∧
  (∀ (s : State) (n : Fin 16) (w0 w1 w2 : BitVec 108) (t1 t2 t3 t4 : Int) (a : Rat), s.up = true → (s.lane n).carries = true →
    ttCrcHolds w0 = true → ttCrcHolds w1 = true → ttCrcHolds w2 = true → t1 = (w0.extractLsb' 8 80).toNat →
    t4 = (w1.extractLsb' 8 80).toNat →
    a = (if s.upstream n then (intOfWord (s.reg .LN_ASYM n) : Rat) else -(intOfWord (s.reg .LN_ASYM n) : Rat)) →
    completes (.ttResult n w0 w1 w2 t2 t3 true) s fun t =>
      t.reg .LN_OFFSET n = psWord ((stampPs ((t2 - t1) - (t4 - t3)) + a) / 2) ∧
      t.reg .LN_DELAY n = psWord ((stampPs ((t2 - t1) + (t4 - t3)) - a) / 2) ∧ (t.lane n).valid = (s.lane n).valid + 1 ∧
      (t.lane n).thetas = ((stampPs ((t2 - t1) - (t4 - t3)) + a) / 2) :: (s.lane n).thetas.take 1023 ∧
      ((s.lane n).state = .linked → s.avgCount ≤ (s.lane n).valid + 1 → (t.lane n).state = .timed) ∧
      (s.timingLane ≠ some n.val → t.raises = s.raises ∧ t.lng = s.lng) ∧
      (s.timingLane = some n.val → t.reg .LNG_THETA 0 = psWord (t.thetaF n))) ∧
  (∀ (s : State) (n : Fin 16), s.serves = true → s.active = true → s.loadAllowed = true → s.transfer = none →
    s.timingLane = some n.val → (s.lane n).isTimed = true →
    completes .laneLoad s fun t => t.count = s.count - BitVec.ofInt 64 (ratRound (s.thetaF n / 20000)) ∧ s.wrote t ∧
      t.timeSrc = 3) ∧
  (∀ s : State, s.serves = true → s.active = true → s.loadAllowed = false →
    completes .laneLoad s fun t => t.refusedWith .busy ∧ t.count = s.count) ∧
  (∀ s : State, s.serves = true → s.active = true → s.loadAllowed = true → s.transfer = none → s.timingLane = none →
    completes .laneLoad s fun t => t.refusedWith .state ∧ t.count = s.count) ∧
  (∀ (s : State) (n : Fin 16), s.serves = true → s.active = true → s.timingLane = some n.val → (s.lane n).carries = true →
    completes .laneRealign s fun t => t.lng.framed = true ∧ t.lng.framePhase = s.elapsed ∧ s.wrote t ∧
      t.flag Fields.LNG_TTSTAT_ALIGNED 0 = true ∧ t.lanes = s.lanes) ∧
  (∀ s : State, s.serves = true → s.active = true → s.timingLane = none →
    completes .laneRealign s fun t => t.refusedWith .state ∧ t.lng = s.lng) ∧
  (∀ s : State, s.serves = true → s.active = true → completes .laneLoopcal s fun t => s.wrote t ∧ ∀ n : Fin 16,
    t.lane n = if (s.lane n).state = .off ∨ (s.lane n).state = .waitSig then { s.lane n with loopCal := true } else s.lane n)

/-! ## Fleet consistency (spec/10) -/

/-- R413, R414, R415: the oldest delivered READ or WRITE is served as a host access and answered by a RESP with its status
and value on the RPTFLOW entry; a WRITE from a device that is not the manager, or with REMOTE = 0, changes no register and
is counted as denied. A message of another kind waits. R417: RQ_GO sends a request with the next TAG to another device, and
waits for its RESP; it is refused with BUSY while one waits and with RANGE for DST 0. The RESP with its TAG and SRC
completes it, and any other is discarded; without one RQ_TIMEOUT ends it. -/
def Obligations.RemoteAccessesAndRequests : Prop :=
  (∀ (s : State) (d : Delivery) (l : List Delivery), s.mgmtRuns = true → s.power ≠ 4 → s.fleet.inbox = d :: l →
    bodyKind d.body = 1 → bodyField d.body 48 16 = regAddr .GLB_SCRATCH 0 →
    completes .remRead s fun t => t = { s with fleet := { s.fleet with inbox := l } }.respond (bodySrc d.body) (bodyTag d.body)
      (regAddr .GLB_SCRATCH 0) 0 (s.reg .GLB_SCRATCH 0)) ∧
  (∀ (s : State) (d : Delivery) (l : List Delivery), s.mgmtRuns = true → s.fleet.inbox = d :: l → bodyKind d.body = 1 →
    neverRemote (bodyField d.body 48 16) = true →
    completes .remRead s fun t => t.fleet.inbox = l ∧
      t.fld Fields.FLT_CNT_DENIED 0 = satAdd (s.fld Fields.FLT_CNT_DENIED 0) Fields.FLT_CNT_DENIED.width 1) ∧
  (∀ (s : State) (d : Delivery) (l : List Delivery), s.mgmtRuns = true → s.serves = true → s.fleet.inbox = d :: l →
    bodyKind d.body = 2 → s.admits (bodySrc d.body) = true → bodyField d.body 48 16 = regAddr .GLB_SCRATCH 0 →
    completes .remWrite s fun t => t.reg .GLB_SCRATCH 0 = BitVec.ofNat 32 (bodyField d.body 64 32) ∧ t.hwRel = s.now ∧
      t.fleet.inbox = l) ∧
  (∀ (s : State) (d : Delivery) (l : List Delivery), s.mgmtRuns = true → s.itsTurn = true → s.fleet.inbox = d :: l →
    bodyKind d.body = 2 → s.admits (bodySrc d.body) = false →
    completes .remWrite s fun t => t.fleet.inbox = l ∧ t.profs = s.profs ∧ t.pgm = s.pgm ∧ t.stations = s.stations ∧
      t.reg .GLB_SCRATCH 0 = s.reg .GLB_SCRATCH 0 ∧
      t.fld Fields.FLT_CNT_DENIED 0 = satAdd (s.fld Fields.FLT_CNT_DENIED 0) Fields.FLT_CNT_DENIED.width 1) ∧
  (∀ (s : State) (dst tag addr st : Nat) (v : Word) (j : Fin 16),
    bitOf (s.flowEntry 16 (s.fld Fields.FLT_CFG_RPTFLOW 0)) 31 = true →
    s.lanesOf (s.flowEntry 16 (s.fld Fields.FLT_CFG_RPTFLOW 0)) = [j.val] → (s.lane j).cells[1].length ≤ 255 →
    ((s.respond dst tag addr st v).lane j).cells[1] = (s.lane j).cells[1] ++
      bodyCells (getBits (s.flowEntry 16 (s.fld Fields.FLT_CFG_RPTFLOW 0)) 16 12)
        (mkBody 1 (s.header 3 st dst tag ++ [(addr, 16), (v.toNat, 32)]))) ∧
  (∀ (s : State) (d : Delivery) (l : List Delivery), s.fleet.inbox = d :: l → bodyKind d.body ≠ 1 →
    completes .remRead s fun t => t = s) ∧
  (∀ s : State, s.serves = true → s.fleet.request = none → s.fld Fields.FLT_RQ_DST_DST 0 ≠ 0 →
    s.fld Fields.FLT_RQ_DST_DST 0 ≠ s.devId →
    (getBits (s.reg .FLT_RQ_CTL 0) 28 2 = 1 ∨ getBits (s.reg .FLT_RQ_CTL 0) 28 2 = 2) →
    completes .rqGo s fun t => s.wrote t ∧ t.fleet.nextTag = (s.fleet.nextTag + 1) % 256 ∧
      t.fleet.request = some ⟨s.fleet.nextTag, s.fld Fields.FLT_RQ_DST_DST 0, s.fld Fields.FLT_RQ_DST_ADDR 0,
        getBits (s.reg .FLT_RQ_CTL 0) 28 2 == 1, s.elapsed + usTicks (100 * s.fld1 Fields.FLT_RQ_CTL_TIMEOUT 0)⟩) ∧
  (∀ s : State, s.serves = true → s.fleet.request.isSome = true →
    completes .rqGo s fun t => t.refusedWith .busy ∧ t.fleet.request = s.fleet.request ∧ t.lanes = s.lanes) ∧
  (∀ s : State, s.serves = true → s.fleet.request = none → s.fld Fields.FLT_RQ_DST_DST 0 = 0 →
    completes .rqGo s fun t => t.refusedWith .range ∧ t.fleet.request = none ∧ t.lanes = s.lanes) ∧
  (∀ (s : State) (d : Delivery) (l : List Delivery) (q : Request), s.mgmtRuns = true → s.fleet.inbox = d :: l →
    bodyKind d.body = 3 → s.fleet.request = some q → bodyTag d.body = q.tag → bodySrc d.body = q.dst →
    completes .remResp s fun t => t.fleet.request = none ∧ t.fleet.inbox = l ∧
      t.fld Fields.FLT_RQ_CTL_STATUS 0 = bodyStatus d.body ∧
      t.reg .FLT_RQ_DATA 0 = (if q.read then BitVec.ofNat 32 (bodyField d.body 64 32) else s.reg .FLT_RQ_DATA 0)) ∧
  (∀ (s : State) (d : Delivery) (l : List Delivery) (q : Request), s.mgmtRuns = true → s.fleet.inbox = d :: l →
    bodyKind d.body = 3 → s.fleet.request = some q → bodyTag d.body ≠ q.tag →
    completes .remResp s fun t => t = { s with fleet := { s.fleet with inbox := l } }) ∧
  (∀ (s : State) (q : Request), s.up = true → s.fleet.request = some q → q.dueAt ≤ s.elapsed →
    completes .rqTimeout s fun t => t.fleet.request = none ∧ t.fld Fields.FLT_RQ_CTL_STATUS 0 = 12 ∧
      ∃ r : Raise, t.raises = s.raises ++ [r] ∧ r.fid = Src.fleet_RQ_TIMEOUT) ∧
  (∀ (s : State) (q : Request), s.fleet.request = some q → s.elapsed < q.dueAt → completes .rqTimeout s fun t => t = s)

/-- R425: ARM_BEGIN opens a stream, at most four; ARM_REG and ARM_PROF add their items to the stream of their SRC, DST and
TAG; one that hears nothing for 10 ms is discarded and counted. R426: ARM_END closes its stream: with status OK its change
waits for RELTICK, and with another status nothing of it stays. R427: at RELTICK a pending change applies whole and sets the
epoch and its tick; one of whose items would be refused changes nothing but ITEM of FLT_ARMSTAT, and raises ARM_REFUSED;
before RELTICK nothing happens. Nothing else of step 1 of the tick is due here. -/
def Obligations.ArmedStreamsAndChanges : Prop :=
  (∀ (s : State) (d : Delivery) (l : List Delivery), s.mgmtRuns = true → s.fleet.inbox = d :: l → bodyKind d.body = 6 →
    s.fleet.streams = [] →
    completes .armBegin s fun t => t.fleet.inbox = l ∧ t.fleet.changes = s.fleet.changes ∧ ∃ x : Stream, t.fleet.streams = [x] ∧
      x.src = bodySrc d.body ∧ x.dst = bodyDst d.body ∧ x.tag = bodyTag d.body ∧
      x.epoch = BitVec.ofNat 32 (bodyField d.body 48 32) ∧ x.relTick = (widen s.now (bodyField d.body 80 48)).toNat ∧
      x.count = bodyField d.body 128 16 ∧ x.items = [] ∧ x.lastAt = s.elapsed) ∧
  (∀ (s : State) (d : Delivery) (l : List Delivery), s.mgmtRuns = true → s.fleet.inbox = d :: l → bodyKind d.body = 6 →
    s.fleet.streams.length = 4 → (∀ x ∈ s.fleet.streams, x.hears d.body = false) →
    completes .armBegin s fun t => t.fleet.streams = s.fleet.streams ∧ t.fleet.inbox = l) ∧
  (∀ (s : State) (d : Delivery) (l : List Delivery) (x : Stream), s.mgmtRuns = true → s.fleet.inbox = d :: l →
    bodyKind d.body = 7 → s.fleet.streams = [x] → x.hears d.body = true →
    completes .armReg s fun t => t.fleet.streams = [{ x with
      items := x.items ++ [.reg (bodyField d.body 48 16) (BitVec.ofNat 32 (bodyField d.body 64 32))]
      bodies := x.bodies ++ [d.body], lastAt := s.elapsed }] ∧ t.regs = s.regs) ∧
  (∀ (s : State) (d : Delivery) (l : List Delivery) (x : Stream), s.mgmtRuns = true → s.fleet.inbox = d :: l →
    bodyKind d.body = 8 → s.fleet.streams = [x] → x.hears d.body = true →
    completes .armProf s fun t => t.profs = s.profs ∧ t.fleet.streams = [{ x with
      items := x.items ++ [.prof (bodyField d.body 48 12)
        ((List.range 8).map fun k => BitVec.ofNat 32 (bodyField d.body (64 + 32 * k) 32))]
      bodies := x.bodies ++ [d.body], lastAt := s.elapsed }]) ∧
  (∀ (s : State) (d : Delivery) (l : List Delivery) (x : Stream), s.mgmtRuns = true → s.fleet.inbox = d :: l →
    bodyKind d.body = 9 → s.fleet.streams = [x] → x.hears d.body = true →
    s.streamStatus x (BitVec.ofNat 32 (bodyField d.body 48 32)) = 0 →
    completes .armEnd s fun t => t.fleet.streams = [] ∧ t.fld Fields.FLT_ARMSTAT_LASTSTATUS 0 = 0 ∧
      t.fleet.changes = s.fleet.changes.filter (fun c => !s.replacesChange x c) ++
        [⟨s.acceptSeq, x.dst == 0, x.epoch, x.relTick, x.items, x.expectV, x.expect⟩] ∧ t.profs = s.profs ∧ t.raises = s.raises) ∧
  (∀ (s : State) (d : Delivery) (l : List Delivery) (x : Stream), s.mgmtRuns = true → s.fleet.inbox = d :: l →
    bodyKind d.body = 9 → s.fleet.streams = [x] → x.hears d.body = true → s.admits x.src = false →
    completes .armEnd s fun t => t.fleet.streams = [] ∧ t.fleet.changes = s.fleet.changes ∧
      t.fld Fields.FLT_ARMSTAT_LASTSTATUS 0 = 9 ∧
      t.fld Fields.FLT_CNT_DENIED 0 = satAdd (s.fld Fields.FLT_CNT_DENIED 0) Fields.FLT_CNT_DENIED.width 1) ∧
  (∀ s : State, s.mgmtRuns = true → completes .armStreamTimeout s fun t =>
    t.fleet.streams = s.fleet.streams.filter (fun x => decide (s.elapsed < x.lastAt + 5000000)) ∧
    t.fld Fields.FLT_CNT_MALFORMED 0 = satAdd (s.fld Fields.FLT_CNT_MALFORMED 0) Fields.FLT_CNT_MALFORMED.width
      (s.fleet.streams.filter (fun x => decide (x.lastAt + 5000000 ≤ s.elapsed))).length ∧ t.raises = s.raises) ∧
  (∀ (s : State) (c : Change) (u : State), s.up = true → s.counting = true → (s.syncDue.all fun d => decide (s.now < d.due)) = true →
    (∀ e ∈ s.sched, s.now < e.tick) → s.fleet.changes = [c] → c.relTick ≤ s.now →
    ({ s with fleet := { s.fleet with changes := [] } } : State).releaseItems 0 c.items = .inr u →
    completes .armedChangeApply s fun t => t.reg .FLT_EPOCH 0 = c.epoch ∧ t.fleet.epTick = c.relTick ∧
      t.profs = u.profs ∧ t.pgm = u.pgm ∧ t.stations = u.stations ∧ t.outs = u.outs ∧
      (c.expectV = true → t.reg .FLT_EXPECT_LO 0 = c.expect.extractLsb' 0 32 ∧
        t.reg .FLT_EXPECT_HI 0 = c.expect.extractLsb' 32 32)) ∧
  (∀ (s : State) (c : Change) (n : Nat), s.up = true → s.counting = true → (s.syncDue.all fun d => decide (s.now < d.due)) = true →
    (∀ e ∈ s.sched, s.now < e.tick) → s.fleet.changes = [c] → c.relTick ≤ s.now →
    s.fleet.log.length < 16 →
    ({ s with fleet := { s.fleet with changes := [] } } : State).releaseItems 0 c.items = .inl n →
    completes .armedChangeApply s fun t => t.reg .FLT_EPOCH 0 = s.reg .FLT_EPOCH 0 ∧ t.fleet.changes = [] ∧
      t.profs = s.profs ∧ t.pgm = s.pgm ∧ t.stations = s.stations ∧ t.outs = s.outs ∧
      t.fld Fields.FLT_ARMSTAT_ITEM 0 = n % 2 ^ Fields.FLT_ARMSTAT_ITEM.width ∧
      ∃ r : Raise, t.raises = s.raises ++ [r] ∧ r.fid = Src.fleet_ARM_REFUSED) ∧
  (∀ s : State, (s.syncDue.all fun d => decide (s.now < d.due)) = true → (∀ e ∈ s.sched, s.now < e.tick) →
    (∀ c ∈ s.fleet.changes, s.now < c.relTick) → completes .armedChangeApply s fun t => t = s)

/-- R420 to R424: a digest computation ends with the SHA-256 of the serialised set; at each multiple of 500,000 ticks the
DIGEST is sent, and at no other. A DIGEST that is current and agrees leaves its lane without a cause; one whose digest is
not the one expected begins cause 1, in the log; a lane that hears none for 4 ms, or only stale ones for 10 ms, gets cause
3, or 4. A REPORT enters the log; LOG_POP drops the oldest entry. -/
def Obligations.DigestsAndTheLog : Prop :=
  (∀ (s : State) (k : Nat), s.mgmtRuns = true → s.fleet.running = some k → k ≤ s.now →
    completes .digestComputeDone s fun t => t = { s with fleet := { s.fleet with
      digest := digestOf (sha256 s.serialised), current := true, running := none, started := some k } }) ∧
  (∀ s : State, s.mgmtRuns = true → s.fleet.running = none → completes .digestComputeDone s fun t => t = s) ∧
  (∀ (s : State) (n : Fin 16), s.mgmtRuns = true → s.counting = true → s.now % 500000 = 0 →
    s.flag Fields.FLT_CFG_DGEN 0 = true → s.fleet.started.isSome = true → s.upstream n = true → (s.lane n).carries = true →
    completes .digestSend s fun t => t = s.sendMgmt (s.fld Fields.FLT_CFG_DGFLOW 0) s.digestBody) ∧
  (∀ s : State, s.now % 500000 ≠ 0 → completes .digestSend s fun t => t = s) ∧
  (∀ (s : State) (d : Delivery) (l : List Delivery) (n : Fin 16), s.mgmtRuns = true → s.fleet.inbox = d :: l →
    bodyKind d.body = 4 → d.lane = n.val → s.flag Fields.FLT_CFG_CMPEN 0 = true → s.upstream n = false →
    bodyField d.body 256 1 = 1 → bodyField d.body 257 1 = 0 →
    BitVec.ofNat 32 (bodyField d.body 48 32) = s.reg .FLT_EPOCH 0 →
    completes .digestMsg s fun t => (t.lane n).causes = [] ∧ (t.lane n).heardAt = s.elapsed ∧ (t.lane n).freshAt = s.elapsed ∧
      (t.lane n).lastActual = BitVec.ofNat 64 (bodyField d.body 80 64) ∧ t.fleet.inbox = l ∧
      ((s.lane n).causes = [] → t.fleet.log = s.fleet.log)) ∧
  (∀ (s : State) (d : Delivery) (l : List Delivery) (n : Fin 16), s.mgmtRuns = true → s.fleet.inbox = d :: l →
    bodyKind d.body = 4 → d.lane = n.val → s.flag Fields.FLT_CFG_CMPEN 0 = true → s.upstream n = false →
    bodyField d.body 256 1 = 1 → bodyField d.body 257 1 = 1 → bodyField d.body 80 64 ≠ bodyField d.body 144 64 →
    BitVec.ofNat 32 (bodyField d.body 48 32) = s.reg .FLT_EPOCH 0 → (s.lane n).causes = [] → s.fleet.log.length < 16 →
    completes .digestMsg s fun t => (t.lane n).causes = [1] ∧ t.isLive (causeSource 1) = true ∧
      t.fleet.log = s.fleet.log ++ [⟨bodySrc d.body, n.val, 1, s.reg .FLT_EPOCH 0,
        BitVec.ofNat 64 (bodyField d.body 80 64), loWord s.now⟩]) ∧
  (∀ (s : State) (d : Delivery) (l : List Delivery), s.mgmtRuns = true → s.fleet.inbox = d :: l → bodyKind d.body = 5 →
    s.fleet.log.length < 16 →
    completes .reportMsg s fun t => t.fleet.inbox = l ∧ t.raises = s.raises ∧ t.fleet.log = s.fleet.log ++
      [⟨bodyField d.body 48 16, bodyField d.body 64 4, bodyField d.body 68 4, BitVec.ofNat 32 (bodyField d.body 72 32),
        BitVec.ofNat 64 (bodyField d.body 104 64), loWord s.now⟩]) ∧
  (∀ (s : State) (n : Fin 16), s.up = true → s.watched n = true → (s.lane n).heardAt + 2000000 ≤ s.elapsed →
    (s.lane n).causes.contains 3 = false →
    completes (.silent n) s fun t => (t.lane n).causes = (s.lane n).causes ++ [3] ∧ t.isLive (causeSource 3) = true) ∧
  (∀ (s : State) (n : Fin 16), s.elapsed < (s.lane n).heardAt + 2000000 → completes (.silent n) s fun t => t = s) ∧
  (∀ (s : State) (n : Fin 16), s.up = true → s.watched n = true → (s.lane n).freshAt + 5000000 ≤ s.elapsed →
    (s.lane n).freshAt < (s.lane n).heardAt → (s.lane n).causes.contains 4 = false →
    completes (.stale n) s fun t => (t.lane n).causes = (s.lane n).causes ++ [4] ∧ t.isLive (causeSource 4) = true) ∧
  (∀ (s : State) (n : Fin 16), s.elapsed < (s.lane n).freshAt + 5000000 → completes (.stale n) s fun t => t = s) ∧
  (∀ s : State, s.serves = true → completes .logPop s fun t => t.fleet.log = s.fleet.log.drop 1 ∧ s.wrote t)

/-! ## Calibration (spec/11) -/

/-- R439, R443, R444: the engine asks for the start temperature of the run in progress, and every 10 ms for one of a group
whose channel the scan does not hold. A due group whose unit is available starts a measured run, with the steps that are
enabled; one whose unit is not takes its values from the model, with TRIM_LIMIT where one lay beyond its range (R434), or
ends NOMODEL when it holds none; a paused run resumes with what it had done (R446). R436, R445, R447, R466: REF_TIMEOUT ends
a run that needs REFCAL and has waited too long; a group that stays due makes STARVED live; the engine's check abandons its
run and has it reloaded; CAL_RUN asks for a run of the selected group and CAL_ABORT abandons it. -/
def Obligations.CalibrationRuns : Prop :=
  (∀ (s : State) (g : Fin 60) (r : CalRun), s.up = true → s.reloads.contains 2 = false → s.cal.run = some r → r.group = g.val →
    r.asked = false → r.t1 = none → s.flag Fields.MON_STAT_FENCED 0 = false → s.mon.queue.length < 2 →
    completes (.calTempInject g) s fun t => t.mon.queue = s.mon.queue ++ [⟨calChannel g, some g.val, s.now⟩] ∧
      t.cal.run = some { r with asked := true }) ∧
  (∀ (s : State) (g : Fin 60), s.cal.run = none → s.mon.mask.getLsbD (calChannel g) = true →
    completes (.calTempInject g) s fun t => t = s) ∧
  (∀ (s : State) (g : Fin 60), s.up = true → s.reloads.contains 2 = false → s.cal.run = none →
    s.mon.mask.getLsbD (calChannel g) = false → s.cal.injectedAt[g] + 5000000 ≤ s.elapsed →
    s.flag Fields.MON_STAT_FENCED 0 = false → s.mon.queue.length < 2 →
    completes (.calTempInject g) s fun t => t.mon.queue = s.mon.queue ++ [⟨calChannel g, some g.val, s.now⟩] ∧ t.cal.run = none ∧
      t.cal.injectedAt[g] = s.elapsed) ∧
  (∀ (s : State) (g : Fin 60), s.up = true → s.reloads.contains 2 = false → (s.grp g).due = true →
    s.flag Fields.CAL_CFG_EN 0 = true → s.flag Fields.MON_STAT_FENCED 0 = false → s.cal.run = none →
    (s.grp g).retryAt ≤ s.elapsed → s.calAvailable g = true → (s.grp g).paused = none → s.mon.queue.length < 2 →
    completes (.calRunStart g) s fun t => t.calVals = s.calVals ∧
      t.cal.run = some ⟨g.val, s.elapsed, none, none, s.fld Fields.CAL_STEPEN_STEPS 0 &&& calSteps g, true, 0⟩ ∧
      t.mon.queue = s.mon.queue ++ [⟨calChannel g, some g.val, s.now⟩]) ∧
  (∀ (s : State) (g : Fin 60) (t0 x : Int), s.up = true → s.reloads.contains 2 = false → (s.grp g).due = true →
    s.flag Fields.CAL_CFG_EN 0 = true → s.flag Fields.MON_STAT_FENCED 0 = false → s.cal.run = none →
    (s.grp g).retryAt ≤ s.elapsed → s.calAvailable g = true → (s.grp g).paused = some t0 → s.groupTemp g = some x →
    2 * (x - t0).natAbs ≤ s.calDT →
    completes (.calRunStart g) s fun t => t.calVals = s.calVals ∧ (t.grp g).paused = none ∧ t.mon = s.mon ∧
      t.cal.run = some ⟨g.val, s.elapsed, some t0, none, s.fld Fields.CAL_STEPEN_STEPS 0 &&& calSteps g, false,
        (s.grp g).pausedDone &&& (s.fld Fields.CAL_STEPEN_STEPS 0 &&& calSteps g)⟩) ∧
  (∀ (s : State) (g : Fin 60) (x : Int), s.up = true → s.reloads.contains 2 = false → (s.grp g).due = true →
    s.flag Fields.CAL_CFG_EN 0 = true → s.flag Fields.MON_STAT_FENCED 0 = false → s.cal.run = none →
    (s.grp g).retryAt ≤ s.elapsed → s.calAvailable g = false → s.groupTemp g = some x →
    completes (.calRunStart g) s fun t => t.cal.run = none ∧ t.calVals = s.calVals ∧
      ((s.grp g).hasVal = false → (t.grp g).result = 4 ∧ (t.grp g).waiting = (s.grp g).waiting ∧
        ∃ r : Raise, t.raises = s.raises ++ [r] ∧ r.fid = Src.cal_NO_MODEL) ∧
      ((s.grp g).hasVal = true → (∃ p ∈ (s.grp g).past, (x - p.base).natAbs ≤ s.calSpan) →
        (t.grp g).waiting = some ⟨s.modelWords g x, x, 2, s.elapsed⟩ ∧
        (s.modelLimited g x = false → (t.grp g).result = 0 ∧ t.raises = s.raises) ∧
        (s.modelLimited g x = true → (t.grp g).result = 2 ∧
          ∃ r : Raise, t.raises = s.raises ++ [r] ∧ r.fid = Src.cal_TRIM_LIMIT))) ∧
  (∀ (s : State) (g : Fin 60), s.cal.run.isSome = true → completes (.calRunStart g) s fun t => t = s) ∧
  (∀ (s : State) (g : Fin 60) (r : CalRun), s.up = true → s.reloads.contains 2 = false → s.cal.run = some r → r.group = g.val →
    r.needsRef = true → (s.ref 4).qualified = false →
    max r.startedAt (s.ref 4).lostAt + s.fld1 Fields.CAL_LIMITS_REFTO 0 * 5000000 ≤ s.elapsed →
    completes (.calRefTimeout g) s fun t => t.cal.run = none ∧ (t.grp g).result = 1 ∧ t.calVals = s.calVals ∧
      (t.grp g).retryAt = s.elapsed + s.fld1 Fields.CAL_LIMITS_REFTO 0 * 5000000 ∧
      ∃ x : Raise, t.raises = s.raises ++ [x] ∧ x.fid = Src.cal_REF_TIMEOUT) ∧
  (∀ (s : State) (g : Fin 60), s.up = true → s.reloads.contains 2 = false → (s.grp g).due = true → (s.grp g).starved = false →
    (s.grp g).dueSince + s.fld1 Fields.CAL_CFG_STARVE 0 * 5000000 ≤ s.elapsed →
    completes (.calStarved g) s fun t => (t.grp g).starved = true ∧ t.isLive Src.cal_STARVED = true ∧
      (s.isLive Src.cal_STARVED = false → ∃ x : Raise, t.raises = s.raises ++ [x] ∧ x.fid = Src.cal_STARVED)) ∧
  (∀ (s : State) (g : Fin 60), (s.grp g).due = false → completes (.calStarved g) s fun t => t = s) ∧
  (∀ s : State, s.up = true → s.reloads.contains 2 = false →
    completes .engineCheck s fun t => t.cal.run = none ∧ t.reloads = s.reloads ++ [2] ∧ t.calVals = s.calVals ∧
      ∃ x : Raise, t.raises = s.raises ++ [x] ∧ x.fid = Src.cal_ENGINE_CHECK) ∧
  (∀ s : State, s.serves = true → s.gsel < 60 →
    completes .calRun s fun t => (t.grp s.gsel).wanted = true ∧ t.cal.run = s.cal.run ∧ t.calVals = s.calVals ∧ s.wrote t) ∧
  (∀ (s : State) (r : CalRun), s.serves = true → s.gsel < 60 → s.cal.run = some r → r.group = s.gsel →
    completes .calAbort s fun t => t.cal.run = none ∧ (t.grp s.gsel).result = 3 ∧ (t.grp s.gsel).wanted = false ∧
      t.calVals = s.calVals ∧ s.wrote t)

/-- R445, R446, R448 to R450: a measured run whose temperature moved by no more than half of ΔT leaves its values waiting,
and one whose temperature moved more starts again. Waiting values take effect whole on a unit that held none, and on no unit
before a tick at which it may take them. -/
def Obligations.CalibrationValuesTakeEffect : Prop :=
  (∀ (s : State) (g : Fin 60) (meas : List Int) (r : CalRun) (t0 t1 : Int), s.up = true → s.reloads.contains 2 = false →
    s.cal.run = some r → r.group = g.val → r.t0 = some t0 → r.t1 = some t1 → (r.needsRef = false ∨ (s.ref 4).qualified = true) →
    2 * (t1 - t0).natAbs ≤ s.calDT →
    completes (.calRunComplete g meas) s fun t => t.cal.run = none ∧ t.calVals = s.calVals ∧ (t.grp g).steps = r.steps ∧
      ∃ w : CalWait, (t.grp g).waiting = some w ∧ w.base = (t0 + t1) / 2 ∧ w.kind = 1 ∧ w.readyAt = s.elapsed) ∧
  (∀ (s : State) (g : Fin 60) (meas : List Int) (r : CalRun) (t0 t1 : Int), s.up = true → s.reloads.contains 2 = false →
    s.cal.run = some r → r.group = g.val → r.t0 = some t0 → r.t1 = some t1 → (r.needsRef = false ∨ (s.ref 4).qualified = true) →
    s.calDT < 2 * (t1 - t0).natAbs → s.flag Fields.MON_STAT_FENCED 0 = false → s.mon.queue.length < 2 →
    completes (.calRunComplete g meas) s fun t => t.calVals = s.calVals ∧
      t.cal.run = some ⟨g.val, s.elapsed, none, none, r.steps, true, 0⟩ ∧ (t.grp g).waiting = (s.grp g).waiting) ∧
  (∀ (s : State) (g : Fin 60) (meas : List Int), s.cal.run = none → completes (.calRunComplete g meas) s fun t => t = s) ∧
  (∀ (s : State) (g : Fin 60) (w : CalWait), s.up = true → s.reloads.contains 2 = false → (s.grp g).waiting = some w →
    (s.grp g).hasVal = false → s.calTakes g w.readyAt = true →
    completes (.calValuesApply g) s fun t => (t.grp g).waiting = none ∧ (t.grp g).hasVal = true ∧ (t.grp g).base = some w.base ∧
      (t.grp g).lastKind = w.kind ∧ (t.grp g).stamp = s.now ∧ ∀ i : Fin 2048, t.calWord g i = w.words.get i) ∧
  (∀ (s : State) (g : Fin 60) (w : CalWait), (s.grp g).waiting = some w → s.calTakes g w.readyAt = false →
    completes (.calValuesApply g) s fun t => t = s)

/-- R456, R459 to R462: CAL_TDATA_WRITE sets one value word of a group that no guaranteed program owns, and marks it;
CAL_EXPORT serialises the groups with the next CAL_SEQ; CAL_IMPORT takes an image that passes every check, and refuses one
while a station runs; CAL_COMMIT hands an image to the ledger, does nothing while a commit runs (R21), and fails when the
ledger is read-only. -/
def Obligations.CalibrationImages : Prop :=
  (∀ (s : State) (w : Word), s.serves = true → s.fld Fields.CAL_TADDR_GROUP 0 < 60 →
    s.fld Fields.CAL_TADDR_ITEM 0 < calWords (s.fld Fields.CAL_TADDR_GROUP 0) →
    s.calOwned (s.fld Fields.CAL_TADDR_GROUP 0) = false →
    completes (.calTdataWrite w) s fun t => s.wrote t ∧
      t.calWord (s.fld Fields.CAL_TADDR_GROUP 0) (s.fld Fields.CAL_TADDR_ITEM 0) = w ∧
      (t.grp (s.fld Fields.CAL_TADDR_GROUP 0)).hostSet = true ∧
      ∀ a, a ≠ s.fld Fields.CAL_TADDR_GROUP 0 * 2048 + s.fld Fields.CAL_TADDR_ITEM 0 → t.calVals.get a = s.calVals.get a) ∧
  (∀ (s : State) (w : Word), s.serves = true →
    (60 ≤ s.fld Fields.CAL_TADDR_GROUP 0 ∨ calWords (s.fld Fields.CAL_TADDR_GROUP 0) ≤ s.fld Fields.CAL_TADDR_ITEM 0) →
    completes (.calTdataWrite w) s fun t => t.refusedWith .range ∧ t.calVals = s.calVals) ∧
  (∀ s : State, s.serves = true → completes .calExport s fun t => t.reg .CAL_SEQ 0 = s.reg .CAL_SEQ 0 + 1 ∧
    t.fld Fields.CAL_IMGSTAT_RESULT 0 = 0 ∧ t.calVals = s.calVals ∧ s.wrote t ∧
    t.cal.img = WMap.setMany [] 0 (s.imageWords (s.reg .CAL_SEQ 0 + 1).toNat)) ∧
  (∀ s : State, s.serves = true → s.anyRunning = true →
    completes .calImport s fun t => t.fld Fields.CAL_IMGSTAT_RESULT 0 = 1 ∧ t.cal = s.cal ∧ t.calVals = s.calVals ∧
      ∃ x : Raise, t.raises = s.raises ++ [x] ∧ x.fid = Src.cal_IMPORT_REJECT) ∧
  (∀ s : State, s.serves = true → s.anyRunning = false → (∀ r : Fin 2, s.flag Fields.RAS_CFG_EN r = false) → s.cal.run = none →
    s.cal.img.get 0 = 0xCA1B0001#32 → (s.cal.img.get 1).toNat ≤ 32768 →
    let ws := s.cal.img.slice 0 (min 32768 (s.cal.img.get 1).toNat)
    let r := imageCheck s.otp.serial.toNat ws
    completes .calImport s fun t => t.fld Fields.CAL_IMGSTAT_RESULT 0 = r ∧ s.wrote t ∧
      (r = 0 → ∀ g ∈ imageGroups ws, (t.grp g).hasVal = true ∧ (t.grp g).lastKind = 3 ∧ (t.grp g).imported = true) ∧
      (r ≠ 0 → t.cal = s.cal ∧ t.calVals = s.calVals ∧ ∃ x : Raise, t.raises = s.raises ++ [x] ∧ x.fid = Src.cal_IMPORT_REJECT)) ∧
  (∀ s : State, s.serves = true → s.calCommitting = true →
    completes .calCommit s fun t => t.reg .CAL_SEQ 0 = s.reg .CAL_SEQ 0 ∧ t.store = s.store ∧ t.cal = s.cal ∧ s.wrote t) ∧
  (∀ s : State, s.serves = true → s.calCommitting = false → s.store.readOnly = false →
    completes .calCommit s fun t => t.reg .CAL_SEQ 0 = s.reg .CAL_SEQ 0 + 1 ∧ t.fld Fields.CAL_IMGSTAT_RESULT 0 = 0 ∧
      t.calCommitting = true ∧ s.wrote t) ∧
  (∀ s : State, s.serves = true → s.calCommitting = false → s.store.readOnly = true →
    completes .calCommit s fun t => t.reg .CAL_SEQ 0 = s.reg .CAL_SEQ 0 ∧ t.fld Fields.CAL_IMGSTAT_RESULT 0 = 7 ∧
      ∃ x : Raise, t.raises = s.raises ++ [x] ∧ x.fid = Src.cal_COMMIT_FAIL)

/-! ## The monitor converter, the barrow and power (spec/12) -/

/-- R469 to R476, R481: MON_CONVERSION ends a slot's conversion: a scan entry's result, count and stamp, and its channel's
latest value, take the code; the second failed check in a row of a channel raises ADC_CHECK. MON_RES_READ and MON_INJ_READ
return a result and latch its stamp. R471, R473, R477: MON_INJECT queues a conversion, two deep, and a third is refused with
FULL, counted and raised. MON_SCAN_WRITE refuses a mask of more than 32 channels with RANGE, applies one at once while no
scan runs, and else keeps it pending until MON_SCAN_APPLY at the end of the scan, which clears the results. -/
def Obligations.ConversionsAndInjections : Prop :=
  (∀ (s : State) (code : BitVec 14) (i : Nat) (k : Fin 32) (ch : Fin 62), s.up = true → s.counting = true → s.now % 500 = 0 →
    s.mon.maskDue = false → s.mon.slot = some i → 500 * (i + 1) ≤ s.now → s.flag Fields.MON_STAT_FENCED 0 = false →
    s.mon.use = .scan k ch →
    completes (.monConversion code) s fun t => t.fld Fields.MON_RES_A_VALUE k = code.toNat ∧
      t.fld Fields.MON_RES_A_COUNT k = (s.fld Fields.MON_RES_A_COUNT k + 1) % 65536 ∧ t.mon.stamps[k] = 500 * (i + 1) ∧
      t.mon.latest[ch.val]? = some (some code.toNat)) ∧
  (∀ (s : State) (code : BitVec 14) (i : Nat), s.up = true → s.counting = true → s.now % 500 = 0 → s.mon.maskDue = false →
    s.mon.slot = some i → 500 * (i + 1) ≤ s.now → s.flag Fields.MON_STAT_FENCED 0 = false → s.mon.use = .check 60 →
    s.mon.fails[0] = 1 → code.toNat + 64 < 8000 →
    completes (.monConversion code) s fun t => t.fld Fields.MON_CHECK_REF 0 = code.toNat ∧
      ∃ r ∈ t.raises, r.fid = Src.mon_ADC_CHECK ∧ r.at_ = s.elapsed) ∧
  (∀ (s : State) (k : Fin 32), s.hostServes = true → s.power ≠ 4 →
    completes (.monResRead k) s fun t => t.readData = s.reg .MON_RES_A k ∧ t.reg .MON_RES_B k = loWord s.mon.stamps[k] ∧
      t.mon = s.mon ∧ t.reg .MON_RES_A k = s.reg .MON_RES_A k) ∧
  (∀ s : State, s.hostServes = true → s.power ≠ 4 →
    completes .monInjRead s fun t => t.readData = s.reg .MON_INJ_A 0 ∧ t.reg .MON_INJ_B 0 = loWord s.mon.injStamp ∧ t.mon = s.mon) ∧
  (∀ (s : State) (ch : BitVec 6), s.serves = true → s.flag Fields.MON_STAT_FENCED 0 = false → s.mon.queue.length < 2 →
    completes (.monInject ch) s fun t => t.mon.queue = s.mon.queue ++ [⟨ch.toNat, none, s.now⟩] ∧ s.wrote t ∧
      t.fld Fields.MON_INJCMD_RESULT 0 = 0) ∧
  (∀ (s : State) (ch : BitVec 6), s.serves = true → s.flag Fields.MON_STAT_FENCED 0 = false → 2 ≤ s.mon.queue.length →
    completes (.monInject ch) s fun t => t.mon = s.mon ∧ t.refusedWith .full ∧ t.fld Fields.MON_INJCMD_RESULT 0 = 1 ∧
      t.fld Fields.MON_CNT_INJREF 0 = satAdd (s.fld Fields.MON_CNT_INJREF 0) Fields.MON_CNT_INJREF.width 1 ∧
      ∃ r : Raise, t.raises = s.raises ++ [r] ∧ r.fid = Src.mon_INJ_REFUSED) ∧
  (∀ (s : State) (hi : Bool) (w : Word), s.serves = true →
    32 < (scanList (s.setReg (if hi then .MON_SCAN_HI else .MON_SCAN_LO) 0 w).scanWritten).length →
    completes (.monScanWrite hi w) s fun t => t.refusedWith .range ∧ t.mon = s.mon ∧ t.scanWritten = s.scanWritten) ∧
  (∀ (s : State) (hi : Bool) (w : Word), s.serves = true →
    (scanList (s.setReg (if hi then .MON_SCAN_HI else .MON_SCAN_LO) 0 w).scanWritten).length ≤ 32 →
    s.flag Fields.MON_CTL_RUN 0 = false →
    completes (.monScanWrite hi w) s fun t => t.reg (if hi then .MON_SCAN_HI else .MON_SCAN_LO) 0 = w ∧
      t.mon.mask = t.scanWritten ∧ s.wrote t ∧ ∀ k : Fin 32, t.reg .MON_RES_A k = 0) ∧
  (∀ (s : State) (hi : Bool) (w : Word), s.serves = true →
    (scanList (s.setReg (if hi then .MON_SCAN_HI else .MON_SCAN_LO) 0 w).scanWritten).length ≤ 32 →
    s.flag Fields.MON_CTL_RUN 0 = true → scanList s.mon.mask ≠ [] →
    completes (.monScanWrite hi w) s fun t => t.reg (if hi then .MON_SCAN_HI else .MON_SCAN_LO) 0 = w ∧ t.mon = s.mon ∧
      t.flag Fields.MON_STAT_MASKPEND 0 = true ∧ s.wrote t) ∧
  (∀ s : State, s.up = true → s.mon.maskDue = true →
    completes .monScanApply s fun t => t.mon.mask = s.scanWritten ∧ t.mon.maskDue = false ∧
      t.flag Fields.MON_STAT_MASKPEND 0 = false ∧ ∀ k : Fin 32, t.reg .MON_RES_A k = 0 ∧ t.mon.stamps[k] = 0) ∧
  (∀ s : State, s.mon.maskDue = false → completes .monScanApply s fun t => t = s)

/-- R488 to R491, Table 12.5: PWR_ACTIVE in STANDBY switches the domains on, and PWR_DOMAINS_READY makes the device ACTIVE;
PWR_STANDBY in ACTIVE switches outputs, cores and lanes off, and is refused with BUSY while a station runs; PWR_DORMANT
leaves the barrow alone. A target in force is refused with RANGE. R484 to R486: a sample of the barrow filters its inputs,
and in DORMANT starts the device when an input that may wake it has its condition and none inhibits it. -/
def Obligations.PowerAndTheBarrow : Prop :=
  (∀ s : State, s.serves = true → s.power = 2 → completes .pwrActive s fun t => t.powering = true ∧ t.power = 2 ∧ s.wrote t ∧
    t.fld Fields.PWR_STATE_RESULT 0 = 0 ∧ t.cores = s.cores ∧ t.outs = s.outs) ∧
  (∀ s : State, s.serves = true → s.power = 3 → completes .pwrActive s fun t => t.refusedWith .range ∧ t.power = 3 ∧
    t.powering = s.powering) ∧
  (∀ s : State, s.halted = false → s.powering = true → s.power = 2 →
    completes .pwrDomainsReady s fun t => t.power = 3 ∧ t.powering = false ∧
      ∀ o : Fin 32, s.flag Fields.OUT_CFG_EN o = true → (s.out o).fenced = false → (t.out o).domainOn = true) ∧
  (∀ s : State, s.powering = false → completes .pwrDomainsReady s fun t => t = s) ∧
  (∀ s : State, s.serves = true → s.power = 3 → s.anyRunning = false → (∀ r : Fin 2, (s.rasCh r).bound = false) →
    completes .pwrStandby s fun t => t.power = 2 ∧ s.wrote t ∧ (∀ o : Fin 32, (t.out o).domainOn = false) ∧
      (∀ c : Fin 26, (s.core c).role ≠ .fenced → (t.core c).state = .off) ∧ ∀ n : Fin 16, (t.lane n).state = .off) ∧
  (∀ s : State, s.serves = true → s.power = 3 → s.anyRunning = true →
    completes .pwrStandby s fun t => t.refusedWith .busy ∧ t.power = 3 ∧ t.cores = s.cores ∧ t.outs = s.outs) ∧
  (∀ s : State, s.serves = true → (s.power = 2 ∨ s.power = 3) → s.anyRunning = false → s.storeBusy = false →
    completes .pwrDormant s fun t => t.power = 1 ∧ t.bar.ins = s.bar.ins ∧ t.reg .BAR_CFG 0 = s.reg .BAR_CFG 0 ∧
      t.stations = State.reset.stations ∧ t.profs = [] ∧ t.flash.active = s.flash.active) ∧
  (∀ (s : State) (an : List Int) (refs : BitVec 4) (xo : BitVec 2) (lanes : BitVec 16) (svc : Bool), s.barSamples = true →
    s.power ≠ 1 → s.bar.periodFrom + max 1 (s.fld Fields.BAR_CFG_PERIOD 0) * 450000 ≤ s.elapsed →
    completes (.barrowSample an refs xo lanes svc) s fun t => t.bar.sampled = true ∧ t.bar.periodFrom = s.elapsed ∧
      ∀ i : Fin 11, (t.barIn i).y = if s.bar.sampled
        then (s.barIn i).y + (an.getD i 0 * 256 - (s.barIn i).y) / 2 ^ getBits (s.reg .BAR_IN_CFG i) 28 3
        else an.getD i 0 * 256) ∧
  (∀ (s : State) (an : List Int) (refs : BitVec 4) (xo : BitVec 2) (lanes : BitVec 16) (svc : Bool) (i : Fin 11),
    s.barSamples = true → s.power = 1 → s.bar.periodFrom + max 1 (s.fld Fields.BAR_CFG_PERIOD 0) * 450000 ≤ s.elapsed →
    (s.barAnalogue i (an.getD i 0)).cond = true → bitOf (s.reg .BAR_WAKEEN 0) i = true →
    (∀ j : Fin 11, bitOf (s.reg .BAR_INHIB 0) j = false) →
    completes (.barrowSample an refs xo lanes svc) s fun t => t.power = 2 ∧ t.startStage = 0 ∧ t.boot.kind = 1 ∧
      t.fld Fields.BAR_WAKECAUSE_KIND 0 = 1 ∧ t.bar.sampled = true) ∧
  (∀ (s : State) (an : List Int) (refs : BitVec 4) (xo : BitVec 2) (lanes : BitVec 16) (svc : Bool),
    s.elapsed < s.bar.periodFrom + max 1 (s.fld Fields.BAR_CFG_PERIOD 0) * 450000 →
    completes (.barrowSample an refs xo lanes svc) s fun t => t = s)

/-! ## Faults and reactions (spec/13) -/

/-- R501, R508, R512, R513, R518: at the tick after its stamp a raise of class 0 or 1 sets its FLT_STAT and FLT_PEND bits and
its effective class, and enters the tally first; one that a consequence window suppresses only enters the tally, as
consequential with its cause. What is stamped at this very tick waits. R508 to R511, R523, Tables 13.2 and 13.3: a raise of
effective class 2 fences its unit: a core, an output, or a station, which stops. One of class 3 makes the device HALTED:
every output is gated, every station is stopped and PWR_STATE reads HALTED. -/
def Obligations.FaultsReact : Prop :=
  (∀ (s : State) (r : Raise), s.reacts = true → s.raises = [r] → r.at_ < s.elapsed → r.lapse = none →
    windowIndex r.fid.code r.fid.inst < 97 → r.fid.bit < 32 →
    (s.win (windowIndex r.fid.code r.fid.inst)).suppresses r = none →
    (s.win (windowIndex r.fid.code r.fid.inst)).effective r ≤ 1 → s.mbx.busy = false →
    ((s.win (windowIndex r.fid.code r.fid.inst)).effective r = 0 ∨ (r.fid.code ≠ 3 ∧ r.fid.code ≠ 4)) →
    bitOf (s.win (windowIndex r.fid.code r.fid.inst)).grace r.fid.bit = false →
    completes .faultReaction s fun t => t.raises = [] ∧ t.cores = s.cores ∧ t.outs = s.outs ∧ t.stations = s.stations ∧
      bitOf (t.win (windowIndex r.fid.code r.fid.inst)).stat r.fid.bit = true ∧
      bitOf (t.win (windowIndex r.fid.code r.fid.inst)).pend r.fid.bit = true ∧
      (t.win (windowIndex r.fid.code r.fid.inst)).eclsOf r.fid.bit =
        (s.win (windowIndex r.fid.code r.fid.inst)).effective r ∧
      ∃ e : TallyEntry, (t.win (windowIndex r.fid.code r.fid.inst)).tally.head? = some e ∧ e.stamp = r.stamp ∧ e.kind = 0 ∧
        e.bit = r.fid.bit ∧ e.cls = r.cls ∧ e.arg = r.arg ∧
        e.seq = ((s.win (windowIndex r.fid.code r.fid.inst)).newSeq + 1) % 256) ∧
  (∀ (s : State) (r : Raise) (cause : Fid), s.reacts = true → s.raises = [r] → r.at_ < s.elapsed → r.lapse = none →
    r.grace = false → windowIndex r.fid.code r.fid.inst < 97 →
    (s.win (windowIndex r.fid.code r.fid.inst)).suppresses r = some cause →
    completes .faultReaction s fun t => t.raises = [] ∧ t.cores = s.cores ∧ t.outs = s.outs ∧ t.halted = s.halted ∧
      (t.win (windowIndex r.fid.code r.fid.inst)).stat = (s.win (windowIndex r.fid.code r.fid.inst)).stat ∧
      ∃ e : TallyEntry, (t.win (windowIndex r.fid.code r.fid.inst)).tally.head? = some e ∧ e.kind = 1 ∧ e.stamp = r.stamp ∧
        e.arg = BitVec.ofNat 32 (fidBits cause)) ∧
  (∀ s : State, (∀ r ∈ s.raises, s.elapsed ≤ r.at_) → completes .faultReaction s fun t => t = s) ∧
  (∀ (s : State) (r : Raise) (c : Fin 26), s.reacts = true → s.raises = [r] → r.at_ < s.elapsed → r.fid.code = 3 →
    r.fid.inst = c.val → (s.core c).role ≠ .fenced → (s.win (windowIndex 3 c)).suppresses r = none →
    (s.win (windowIndex 3 c)).effective r = 2 →
    completes .faultReaction s fun t => (t.core c).role = .fenced ∧ bitOf (t.reg .CORE_FENCESUM 0) c = true) ∧
  (∀ (s : State) (r : Raise) (o : Fin 32), s.reacts = true → s.raises = [r] → r.at_ < s.elapsed → r.fid.code = 6 →
    r.fid.inst = o.val → (s.win (windowIndex 6 o)).suppresses r = none →
    (s.win (windowIndex 6 o)).effective r = 2 →
    completes .faultReaction s fun t => (t.out o).fenced = true ∧ (t.out o).domainOn = false ∧ t.cores = s.cores ∧
      ∀ p : Fin 32, p ≠ o → t.out p = s.out p) ∧
  (∀ (s : State) (r : Raise) (n : Fin 8), s.reacts = true → s.raises = [r] → r.at_ < s.elapsed → r.fid.code = 4 →
    r.fid.inst = n.val → (s.win (windowIndex 4 n)).suppresses r = none →
    (s.win (windowIndex 4 n)).effective r = 2 →
    completes .faultReaction s fun t => (t.stn n).running = false ∧ t.cores = s.cores ∧ t.outs = s.outs) ∧
  (∀ (s : State) (r : Raise), s.reacts = true → s.raises = [r] → r.at_ < s.elapsed →
    (s.win (windowIndex r.fid.code r.fid.inst)).suppresses r = none →
    (s.win (windowIndex r.fid.code r.fid.inst)).effective r = 3 →
    completes .faultReaction s fun t => t.halted = true ∧ t.power = 5 ∧ t.allGated = true ∧ t.anyRunning = false ∧ t.sched = [])

/-- R512, R20: FAULT_ACK clears the bits written of FLT_STAT and FLT_PEND and their grace timers. R515: an expired grace
timer makes its fault class 2, which reacts at the next tick. R519: at the end of a suppression a level source that is still
live raises. -/
def Obligations.FaultsAreAcknowledged : Prop :=
  (∀ (s : State) (w : Fin 97) (d : Word), s.serves = true → (s.win w).freshAt ≠ s.elapsed →
    (∀ b : Fin 32, bitOf d b = true → s.isLive ⟨(windowOf w).1, (windowOf w).2, b.val⟩ = false) →
    completes (.faultAck w d) s fun t => (t.win w).stat = (s.win w).stat &&& ~~~d ∧ (t.win w).pend = (s.win w).pend &&& ~~~d ∧
      (t.win w).graceTimers = (s.win w).graceTimers.filter (fun g => !bitOf d g.bit) ∧ s.wrote t ∧ t.cores = s.cores ∧
      t.stations = s.stations) ∧
  (∀ (s : State) (w : Fin 97) (g : GraceTimer), s.reacts = true → (s.win w).graceTimers = [g] → g.due ≤ s.elapsed → g.bit < 32 →
    (∀ v : Fin 97, v ≠ w → (s.win v).graceTimers = []) →
    completes .graceExpire s fun t => (t.win w).graceTimers = [] ∧ (t.win w).eclsOf g.bit = 2 ∧
      t.raises = s.raises ++ [{ g.raise with at_ := s.elapsed, grace := true, lapse := none, made := s.now }]) ∧
  (∀ (s : State) (w : Fin 97) (x : Suppression), s.reacts = true → (s.win w).supp = [x] → x.until_ ≤ s.elapsed → x.bit < 32 →
    (∀ v : Fin 97, v ≠ w → (s.win v).supp = []) → s.unitFenced ⟨(windowOf w).1, (windowOf w).2, x.bit⟩ = false →
    completes .cwinEnd s fun t => (t.win w).supp = [] ∧
      if isLevel ⟨(windowOf w).1, (windowOf w).2, x.bit⟩ && s.isLive ⟨(windowOf w).1, (windowOf w).2, x.bit⟩
      then ∃ r : Raise, t.raises = s.raises ++ [r] ∧ r.fid = ⟨(windowOf w).1, (windowOf w).2, x.bit⟩ ∧ r.stamp = s.now
      else t.raises = s.raises)

/-- R505 to R507, R527: FLT_FORCE and FLT_INJ take a write while FLT_SEL names them and ARM holds 0xA5, and refuse it with
STATE else. A forced source raises, marked; an injected check raises, marked, and clears its bit. TALLY_READ returns word 0
of an entry and latches its words 1 to 3. -/
def Obligations.FaultsAreForcedAndRead : Prop :=
  (∀ (s : State) (w : Fin 97) (b : Fin 32), s.serves = true → (s.win w).selItem = 2 → getBits (s.win w).sel 24 8 = 0xA5 →
    (s.win w).force = 0 → (∀ u : State, u.detect ⟨(windowOf w).1, (windowOf w).2, b.val⟩ = u) →
    s.unitFenced ⟨(windowOf w).1, (windowOf w).2, b.val⟩ = false → bitOf (usedSources (windowOf w).1) b = true →
    s.isLive ⟨(windowOf w).1, (windowOf w).2, b.val⟩ = false → (∀ r ∈ s.raises, r.at_ < s.elapsed) →
    completes (.fltForceWrite w (BitVec.ofNat 32 (2 ^ b.val))) s fun t => (t.win w).force = BitVec.ofNat 32 (2 ^ b.val) ∧
      s.wrote t ∧ getBits (t.win w).sel 24 8 = 0 ∧ ∃ r : Raise, t.raises = s.raises ++ [r] ∧
        r.fid = ⟨(windowOf w).1, (windowOf w).2, b.val⟩ ∧ r.forced = true) ∧
  (∀ (s : State) (w : Fin 97) (d : Word), s.serves = true → getBits (s.win w).sel 24 8 ≠ 0xA5 →
    ((s.win w).selItem = 2 → completes (.fltForceWrite w d) s fun t => t.refusedWith .state ∧ (t.win w).force = (s.win w).force ∧
      t.raises = s.raises) ∧
    ((s.win w).selItem = 3 → completes (.fltInjWrite w d) s fun t => t.refusedWith .state ∧ (t.win w).inj = (s.win w).inj ∧
      t.raises = s.raises)) ∧
  (∀ (s : State) (w : Fin 97) (d : Word), s.serves = true →
    completes (.hostWrite (BitVec.ofNat 16 (fltAddr w 12)) d) s fun t => getBits (t.win w).sel 24 8 = 0) ∧
  (∀ (s : State) (w : Fin 97) (d : Word), s.serves = true → (s.win w).selItem = 3 → getBits (s.win w).sel 24 8 = 0xA5 →
    (∀ b : Fin 32, s.unitFenced ⟨(windowOf w).1, (windowOf w).2, b.val⟩ = false) →
    completes (.fltInjWrite w d) s fun t => (t.win w).inj = d &&& injectable (windowOf w).1 ∧ t.raises = s.raises ∧ s.wrote t) ∧
  (∀ (s : State) (w : Fin 97) (b : Fin 32) (es : List Nat) (k : Fin 8), s.reacts = true → bitOf (s.win w).inj b = true →
    (windowOf w).1 ∉ [0, 5, 10, 15, 16, 17] → s.unitFenced ⟨(windowOf w).1, (windowOf w).2, b.val⟩ = false →
    s.checkerRuns ⟨(windowOf w).1, (windowOf w).2, b.val⟩ = true → (∀ r ∈ s.raises, r.at_ < s.elapsed) →
    completes (.injectedCheck w b es k) s fun t => bitOf (t.win w).inj b = false ∧ ∃ r : Raise, t.raises = s.raises ++ [r] ∧
      r.fid = ⟨(windowOf w).1, (windowOf w).2, b.val⟩ ∧ r.injected = true) ∧
  (∀ (s : State) (w : Fin 97) (b : Fin 32) (es : List Nat) (k : Fin 8), bitOf (s.win w).inj b = false →
    completes (.injectedCheck w b es k) s fun t => t = s) ∧
  (∀ (s : State) (w : Fin 97) (i : Fin 16) (e : TallyEntry), s.hostServes = true → s.power ≠ 4 →
    (s.win w).selItem = 16 + 4 * i.val → (s.win w).tally[i.val]? = some e →
    completes (.tallyRead w) s fun t => t.readData = e.word 0 ∧ (t.win w).latch1 = e.word 1 ∧ (t.win w).latch2 = e.word 2 ∧
      (t.win w).latch3 = e.word 3 ∧ (t.win w).tally = (s.win w).tally)

/-- R496, R509, R531: the checks of the processors raise and have them reset or reloaded, and the reaction to one of the
management processor ends a mailbox command in progress with ABORTED, whose MAILBOX_ERR is suppressed (R517); RELOAD_DONE
ends it. SUPPLY_UV is a level; CFG_PARITY and RELEASE_CHECK only raise. R509, Table 13.3: an uncorrectable error in a store
row raises. While a spare row is left it replaces the row, a profile in it reads VALID = 0 and program words are refilled,
which their fetches wait for (R320); with none left the row's entries are fenced and the raise says so. -/
def Obligations.ProcessorsAndStoreRows : Prop :=
  (∀ s : State, s.mgmtRuns = true →
    (completes .mgmtCheck s fun t => t.reloads = s.reloads ++ [0] ∧ t.regs = s.regs ∧ t.mbx = s.mbx ∧
      ∃ r : Raise, t.raises = s.raises ++ [r] ∧ r.fid = Src.glb_MGMT_CHECK) ∧
    (completes .mgmtWatchdog s fun t => t.reloads = s.reloads ++ [0] ∧ t.regs = s.regs ∧
      ∃ r : Raise, t.raises = s.raises ++ [r] ∧ r.fid = Src.glb_MGMT_WATCHDOG)) ∧
  (∀ (s : State) (r : Raise), s.reacts = true → s.raises = [r] → r.at_ < s.elapsed → r.lapse = none →
    (r.fid = Src.glb_MGMT_CHECK ∨ r.fid = Src.glb_MGMT_WATCHDOG) → (s.win 0).suppresses r = none → (s.win 0).effective r ≤ 2 →
    s.mbx.busy = true →
    completes .faultReaction s fun t => t.mbx.busy = false ∧ t.fld Fields.MBX_STAT_STATUS 0 = 18 ∧
      ∃ x : Raise, t.raises = [x] ∧ x.fid = Src.port_MAILBOX_ERR ∧ (t.win (windowIndex 13 0)).suppresses x = some r.fid) ∧
  (∀ (s : State) (u : Fin 4), s.reacts = true → s.reloads.contains u.val = true →
    completes (.reloadDone u) s fun t => t.reloads = s.reloads.filter (· != u.val) ∧ t.raises = s.raises ∧ t.regs = s.regs) ∧
  (∀ (s : State) (u : Fin 4), s.reloads.contains u.val = false → completes (.reloadDone u) s fun t => t = s) ∧
  (∀ s : State, s.up = true → s.reloads.contains 1 = false →
    completes .lanectlCheck s fun t => t.reloads = s.reloads ++ [1] ∧
      ∃ r : Raise, t.raises = s.raises ++ [r] ∧ r.fid = Src.glb_LANECTL_CHECK) ∧
  (∀ s : State, s.reacts = true → s.reloads.contains 3 = false →
    completes .fwCheck s fun t => t.reloads = s.reloads ++ [3] ∧
      ∃ r : Raise, t.raises = s.raises ++ [r] ∧ r.fid = Src.bar_FW_CHECK) ∧
  (∀ s : State, s.reacts = true → s.isLive Src.glb_SUPPLY_UV = false →
    completes (.supplyUv true) s fun t => t.isLive Src.glb_SUPPLY_UV = true ∧
      ∃ r : Raise, t.raises = s.raises ++ [r] ∧ r.fid = Src.glb_SUPPLY_UV ∧ r.stamp = s.now) ∧
  (∀ s : State, s.reacts = true → completes (.supplyUv false) s fun t => t.raises = s.raises ∧ t.regs = s.regs ∧
    bitOf (t.win 0).live Src.glb_SUPPLY_UV.bit = false) ∧
  (∀ s : State, s.reacts = true → completes .cfgParity s fun t =>
    ∃ r : Raise, t = { s with raises := s.raises ++ [r] } ∧ r.fid = Src.glb_CFG_PARITY ∧ r.stamp = s.now) ∧
  (∀ s : State, s.up = true → completes .releaseCheck s fun t =>
    ∃ r : Raise, t = { s with raises := s.raises ++ [r] } ∧ r.fid = Src.glb_RELEASE_CHECK ∧ r.stamp = s.now) ∧
  (∀ (s : State) (p : Fin 4096), s.reacts = true → 0 < s.spareRows[0] →
    completes (.eccUncorr 0 [p.val]) s fun t => (t.prof p).valid = false ∧ t.spareRows[0] = s.spareRows[0] - 1 ∧
      t.fencedEntries = s.fencedEntries ∧ (∀ q : Fin 4096, q ≠ p → t.prof q = s.prof q) ∧
      ∃ r : Raise, t.raises = s.raises ++ [r] ∧ r.fid = Src.prof_ECC_UNCORR) ∧
  (∀ (s : State) (n : Fin 8) (es : List Nat), s.reacts = true → 0 < s.spareRows[n.val + 1] →
    completes (.eccUncorr n.succ.castSucc es) s fun t => t.pgm = s.pgm ∧ t.fencedEntries = s.fencedEntries ∧
      t.stations = s.stations ∧ (∀ i : BitVec 14, i.toNat ∈ es → 0 < Config.refillTicks s.elapsed → t.refilling n i = true) ∧
      (∀ i : BitVec 14, i.toNat ∉ es → t.refilling n i = s.refilling n i) ∧
      ∃ r : Raise, t.raises = s.raises ++ [r] ∧ r.fid = Src.pgm_ECC_UNCORR) ∧
  (∀ (s : State) (n : Fin 8) (i : Fin 16384), s.reacts = true → s.spareRows[n.val + 1] = 0 → (∀ r ∈ s.raises, r.at_ < s.elapsed) →
    completes (.eccUncorr n.succ.castSucc [i.val]) s fun t => t.fencedEntry 16 (n.val * 16384 + i.val) = true ∧
      ∃ r : Raise, t.raises = s.raises ++ [r] ∧ r.fid = Src.pgm_ECC_UNCORR ∧ r.noSpare = true)

/-! ## Starts and the ledger (spec/14) -/

/-- R536, R537, R641: VDD_AON rising, POR_N and RESET_N begin a start at stage RESET with its KIND. What the flash, OTP and
the pins hold stays; RESET_N also leaves the barrow's domain, the tallies and the fenced outputs, and CORE_CFG.EN reads 1
for the cores of CORE_SPAREMAP. VDD_AON falling switches every domain off. HALTED ignores both resets, and RESET_N is
ignored during stage RESET of a power-on start. -/
def Obligations.StartsBegin : Prop :=
  (∀ (s : State) (l m : Bool), s.pins.aon = false → completes (.vddAonRise l m) s fun t => t.pins.aon = true ∧ t.pins.porLow = l ∧
    t.pins.testMode = m ∧ t.power = 2 ∧ t.startStage = 0 ∧ t.fld Fields.STORE_START_KIND 0 = 0 ∧ t.count = 0 ∧
    t.flash = s.storeCut.flash ∧ t.otp = s.otp ∧ t.stations = State.reset.stations ∧ t.windows = State.reset.windows ∧
    t.outs = State.reset.outs ∧ t.pgm = [] ∧ t.profs = []) ∧
  (∀ (s : State) (l m : Bool), s.pins.aon = true → completes (.vddAonRise l m) s fun t => t = s) ∧
  (∀ s : State, completes .vddAonFall s fun t => t.pins = { s.pins with aon := false } ∧ t.power = 0 ∧ t.hostServes = false ∧
    t.flash = s.storeCut.flash ∧ t.otp = s.otp ∧ t.outs = State.reset.outs ∧ t.halted = false) ∧
  (∀ s : State, s.halted = false → s.pins.aon = true → completes .porNAssert s fun t => t.pins = { s.pins with porLow := true } ∧
    t.power = 2 ∧ t.startStage = 0 ∧ t.fld Fields.STORE_START_KIND 0 = 0 ∧ t.flash = s.storeCut.flash ∧ t.otp = s.otp ∧
    t.windows = State.reset.windows ∧ t.reg .BAR_WAKEEN 0 = State.reset.reg .BAR_WAKEEN 0) ∧
  (∀ s : State, s.halted = true → completes .porNAssert s fun t => t = { s with pins := { s.pins with porLow := true } }) ∧
  (∀ s : State, s.halted = false → s.pins.aon = true → s.startStage ≠ 0 → s.raises = [] →
    completes .resetNAssert s fun t => t.pins = { s.pins with resetLow := true } ∧ t.power = 2 ∧ t.startStage = 0 ∧
      t.fld Fields.STORE_START_KIND 0 = 2 ∧ t.flash = s.storeCut.flash ∧ t.otp = s.otp ∧ t.bar = s.bar ∧
      t.reg .BAR_WAKEEN 0 = s.reg .BAR_WAKEEN 0 ∧ t.reg .CORE_FENCESUM 0 = s.reg .CORE_FENCESUM 0 ∧
      t.reg .CORE_SPAREMAP 0 = s.reg .CORE_SPAREMAP 0 ∧
      (∀ c : Fin 26, t.flag Fields.CORE_CFG_EN c = bitOf (s.reg .CORE_SPAREMAP 0) c) ∧ t.stations = State.reset.stations ∧ (∀ o : Fin 32, (t.out o).fenced = (s.out o).fenced) ∧
      ∀ w : Fin 97, (t.win w).tally = (s.win w).tally ∧ (t.win w).stat = (s.win w).stat ∧
        (t.win w).live = if w.val = windowIndex 11 0 then (s.win w).live else 0) ∧
  (∀ s : State, (s.halted = true ∨ (s.startStage = 0 ∧ s.boot.kind = 0 ∧ s.power = 2)) →
    completes .resetNAssert s fun t => t = { s with pins := { s.pins with resetLow := true } }) ∧
  (∀ s : State, completes .resetNRelease s fun t => t = { s with pins := { s.pins with resetLow := false } }) ∧
  (∀ s : State, completes (.porNRelease true) s fun t => t = { s with pins := { s.pins with porLow := false } }) ∧
  (∀ s : State, s.pins.porLow = true → exec (.porNRelease false) s = .fault .railsOutOfRange)

/-- R539 to R544, R549, R561, R589, R594, R598: the stages follow one another. Stage RESET waits for its pins; a flash that
fails, or no image that starts, ends in RECOVERY; an image that passes is the one that runs; ARMED begins the copy; a trial
without a start left reverts; an empty pool initialises the store; and after RESTORE the start is DONE. FLASH_TIMEOUT in
stage FLASH ends in RECOVERY. -/
def Obligations.StartStagesFollow : Prop :=
  (∀ (s : State) (ok : Bool), s.halted = false → s.power = 2 → s.pins.aon = true → s.startStage = 0 →
    ((s.pins.porLow = false ∧ s.pins.resetLow = false ∧ s.pins.testMode = false) →
      completes (.startStageDone ok) s fun t => t.startStage = 1 ∧ t.flash = s.flash ∧ t.fld Fields.STORE_START_KIND 0 =
        s.fld Fields.STORE_START_KIND 0) ∧
    (s.pins.porLow = true → completes (.startStageDone ok) s fun t => t = s)) ∧
  (∀ s : State, s.halted = false → s.power = 2 → s.pins.aon = true → s.startStage = 1 →
    (s.flash.answers = true → 64 ≤ s.flash.mib → completes (.startStageDone true) s fun t => t.startStage = 2 ∧
      t.fld Fields.STORE_FLASH_SIZE 0 = min 512 s.flash.mib ∧ t.fld Fields.STORE_FLASH_MODE 0 = if s.flash.octal then 2 else 1) ∧
    (completes (.startStageDone false) s fun t => t.power = 4 ∧ t.boot.recovery = 1 ∧ t.startStage = 1)) ∧
  (∀ s : State, s.halted = false → s.power = 2 → s.pins.aon = true → s.startStage = 2 → s.entry.state = .idle →
    (imageStarts s.otp s.flash.active = .ok → completes (.startStageDone true) s fun t => t.startStage = 3 ∧
      t.boot.image = s.flash.active ∧ t.boot.fallbackRuns = false ∧ t.fld Fields.STORE_START_SLOT 0 = 0 ∧ t.flash = s.flash) ∧
    (imageStarts s.otp s.flash.active ≠ .ok → s.entry.fbValid = true → imageStarts s.otp s.flash.fallback = .ok →
      completes (.startStageDone true) s fun t => t.startStage = 3 ∧ t.boot.image = s.flash.fallback ∧ t.boot.fallbackRuns = true ∧
        t.fld Fields.STORE_START_SLOT 0 = 1 ∧ t.flash = s.flash ∧
        ∃ r : Raise, t.raises = s.raises ++ [r] ∧ r.fid = Src.store_IMAGE_REJECT) ∧
    (imageStarts s.otp s.flash.active ≠ .ok → s.entry.fbValid = false → completes (.startStageDone true) s fun t => t.power = 4 ∧
      t.boot.recovery = 2 ∧ t.fld Fields.STORE_START_SLOT 0 = 2 ∧ t.startStage = 2)) ∧
  (∀ (s : State) (ok : Bool), s.halted = false → s.power = 2 → s.pins.aon = true → s.startStage = 2 → s.flash.journal = [] →
    (s.entry.state = .armed → 0 < slotBlocks (targetLength s.flash.staging) → completes (.startStageDone ok) s fun t =>
      t.entry.state = .activating ∧ t.power = 4 ∧ t.boot.recovery = 3 ∧ t.boot.copy.isSome = true ∧
      t.flash.active = s.flash.active ∧ t.flash.fallback = s.flash.fallback) ∧
    (s.entry.state = .trial → 3 ≤ s.entry.trials → s.entry.fbValid = true → 0 < slotBlocks (imgLength s.flash.fallback) →
      completes (.startStageDone ok) s fun t => t.entry.state = .reverting ∧ t.power = 4 ∧ t.boot.recovery = 3 ∧
        ∃ r : Raise, t.raises = s.raises ++ [r] ∧ r.fid = Src.store_TRIAL_REVERT)) ∧
  (∀ s : State, s.halted = false → s.power = 2 → s.pins.aon = true → s.startStage = 3 →
    completes (.startStageDone true) s fun t => t.startStage = 4 ∧ t.fld Fields.UPD_FW_SETFMT 0 = imgSetfmt s.boot.image ∧
      t.bar.periodFrom = s.elapsed) ∧
  (∀ (s : State) (ok : Bool), s.halted = false → s.power = 2 → s.pins.aon = true → s.startStage = 4 →
    (s.flash.pool.any (fun b => b.role.serves)) = false → completes (.startStageDone ok) s fun t => t.startStage = 5 ∧
      t.reg .STORE_NEXTSEQ 0 = 1 ∧ t.reg .STORE_BASE 0 = 0 ∧ t.fld Fields.STORE_START_SETSRC 0 = 3 ∧ t.base = ⟨true, 0, []⟩ ∧
      t.flash.ring = []) ∧
  (∀ s : State, s.halted = false → s.power = 2 → s.pins.aon = true → s.startStage = 4 →
    (s.flash.pool.any (fun b => b.role.serves)) = true → s.flash.baseA.valid = true → s.flash.baseB.valid = true →
    completes (.startStageDone true) s fun t => t.startStage = 5 ∧
      t.base = (if newer s.flash.baseB.lastSeq s.flash.baseA.lastSeq then s.flash.baseB else s.flash.baseA) ∧
      ∀ r ∈ t.flash.ring, r.commit ≠ .torn) ∧
  (∀ (s : State) (ok : Bool), s.halted = false → s.power = 2 → s.pins.aon = true → s.startStage = 5 → s.base.sections = [] →
    s.flash.ring = [] → s.flash.ringHead = s.flash.ringBlock → s.flash.ringWord = 0 → s.flash.table_ = none →
    s.store.updEvents = [] → s.flag Fields.STORE_CFG_AUTOACTIVE 0 = false →
    completes (.startStageDone ok) s fun t => t.startStage = 6 ∧ t.boot.doneAt = some s.elapsed ∧ t.reg .STORE_REPLAY 0 = 0 ∧
      t.power = 2 ∧ t.store.saved = []) ∧
  (∀ s : State, s.reacts = true → s.startStage = 1 → s.power = 2 → completes .flashTimeout s fun t => t.power = 4 ∧
    t.boot.recovery = 1 ∧ ∃ r : Raise, t.raises = s.raises ++ [r] ∧ r.fid = Src.store_FLASH_TIMEOUT) ∧
  (∀ s : State, s.reacts = true → s.startStage = 6 → completes .flashTimeout s fun t => t.regs = s.regs ∧
    ∃ r : Raise, t.raises = s.raises ++ [r] ∧ r.fid = Src.store_FLASH_TIMEOUT)

/-- R590 to R595: a block of a copy is written to its slot and journalled; the last one of a reversion ends it with IDLE and
a new start. A trial that TRIALTO seconds have not confirmed starts again; CONFIRM ends a trial. ACTIVATE arms a verified
image and ABORT steps back. -/
def Obligations.UpdatesAdvance : Prop :=
  (∀ (s : State) (c : Copy), s.halted = false → s.boot.copy = some c → c.block + 1 < c.blocks →
    completes .copyBlockDone s fun t => t.boot.copy = some { c with block := c.block + 1 } ∧
      t.flash.journal = s.flash.journal ++ [⟨c.op, c.block, s.entry.seq⟩] ∧
      (c.phase = 1 → t.flash.active = s.flash.active ∧ t.flash.fallback = putBlock s.flash.fallback c.block (s.copySource c)) ∧
      (c.phase ≠ 1 → t.flash.fallback = s.flash.fallback ∧ t.flash.active = putBlock s.flash.active c.block (s.copySource c)) ∧
      t.startStage = s.startStage ∧ t.entry = s.entry) ∧
  (∀ (s : State) (c : Copy), s.halted = false → s.boot.copy = some c → c.revert = true → c.phase = 2 → c.block + 1 = c.blocks →
    completes .copyBlockDone s fun t => t.startStage = 0 ∧ t.power = 2 ∧ t.entry.state = .idle ∧ t.entry.trials = 0) ∧
  (∀ s : State, s.boot.copy = none → completes .copyBlockDone s fun t => t = s) ∧
  (∀ (s : State) (k : Nat), s.up = true → s.boot.doneAt = some k → s.fld Fields.UPD_CFG_TRIALTO 0 ≠ 0 → s.entry.state = .trial →
    (k + 500000000 * s.fld Fields.UPD_CFG_TRIALTO 0 < s.elapsed → completes .trialTimeout s fun t => t.startStage = 0 ∧
      t.fld Fields.STORE_START_KIND 0 = 2 ∧ t.entry = s.entry) ∧
    (s.elapsed ≤ k + 500000000 * s.fld Fields.UPD_CFG_TRIALTO 0 → completes .trialTimeout s fun t => t = s)) ∧
  (∀ s : State, s.serves = true → s.entry.state = .trial → completes .updConfirm s fun t => t.entry.state = .idle ∧
    t.entry.trials = 0 ∧ s.wrote t ∧ t.fld Fields.UPD_STAT_RESULT 0 = 0) ∧
  (∀ s : State, s.serves = true → s.entry.state ≠ .trial → completes .updConfirm s fun t => t.refusedWith .state ∧
    t.flash = s.flash ∧ t.otp = s.otp) ∧
  (∀ s : State, s.hostServes = true → s.startStage ≠ 6 → s.itsTurn = true → completes .updConfirm s fun t => t.refusedWith .state ∧
    t.flash = s.flash ∧ t.otp = s.otp) ∧
  (∀ s : State, s.serves = true → s.boot.recovery = 0 →
    (s.entry.state = .verified → completes .updCmdActivate s fun t => t.entry = { s.entry with
      state := .armed, seq := (s.entry.seq + 1) % 2 ^ 32 } ∧ s.wrote t ∧ t.startStage = 6) ∧
    (s.entry.state ≠ .verified → completes .updCmdActivate s fun t => t.refusedWith .state ∧ t.flash = s.flash) ∧
    (s.entry.state = .armed → completes .updCmdAbort s fun t => t.entry.state = .verified ∧ s.wrote t) ∧
    (s.entry.state = .trial → completes .updCmdAbort s fun t => t.entry.state = .reverting ∧ s.wrote t) ∧
    (s.entry.state = .verified ∨ s.entry.state = .receiving → completes .updCmdAbort s fun t => t.entry.state = .idle ∧
      t.entry.stValid = false ∧ s.wrote t) ∧
    (s.entry.state = .idle → completes .updCmdAbort s fun t => t.refusedWith .state ∧ t.flash = s.flash))

/-- R550, R553, R555, R557, R562, R566: SAVE captures the changed settings as a record, and reports CLEAN or READONLY; a
record is committed when its COMMIT word is programmed; FULL starts fulling, which ends with the other base copy in use and
the ring shortened; a pool block that fails is retired. -/
def Obligations.LedgerCommits : Prop :=
  (∀ s : State, s.serves = true → s.store.readOnly = false → s.dirtyItems ≠ [] → s.store.queue = [] → s.store.writing = none →
    s.flash.fits (recordLength (itemWords s.dirtyItems)) = true →
    completes .storeSave s fun t => s.wrote t ∧ t.fld Fields.STORE_STAT_RESULT 0 = 0 ∧ t.store.queue = [] ∧
      t.reg .STORE_NEXTSEQ 0 = s.reg .STORE_NEXTSEQ 0 + 1 ∧ t.flash.ring = s.flash.ring ∧ t.store.saved = s.store.saved ∧
      ∃ r : Record, t.store.writing = some r ∧ r.kind = 1 ∧ r.seq = (s.reg .STORE_NEXTSEQ 0).toNat ∧ r.format = s.setFmt ∧
        r.payload = itemWords s.dirtyItems ∧ r.commit = .torn) ∧
  (∀ s : State, s.serves = true → s.store.readOnly = false → s.dirtyItems ≠ [] → s.store.queue = [] → s.store.writing.isSome = true →
    completes .storeSave s fun t => s.wrote t ∧ t.fld Fields.STORE_STAT_RESULT 0 = 0 ∧ t.store.writing = s.store.writing ∧
      t.store.queue = [⟨1, itemWords s.dirtyItems⟩]) ∧
  (∀ s : State, s.serves = true →
    (s.store.readOnly = true → completes .storeSave s fun t => t.fld Fields.STORE_STAT_RESULT 0 = 1 ∧ t.flash = s.flash ∧
      t.store.queue = s.store.queue) ∧
    (s.store.readOnly = false → s.dirtyItems = [] → completes .storeSave s fun t => t.fld Fields.STORE_STAT_RESULT 0 = 2 ∧
      t.flash = s.flash ∧ t.store.queue = s.store.queue)) ∧
  (∀ (s : State) (r : Record), s.halted = false → s.store.writing = some r → s.store.queue = [] → s.fullAt < s.flash.ringFree →
    completes .recordCommitDone s fun t => t.store.writing = none ∧ t.flash.ring = s.flash.ring ++ [{ r with commit := .whole }] ∧
      t.store.lastCommit = s.now ∧ t.store.fulling = s.store.fulling ∧
      t.fld Fields.STORE_COMMITS_COUNT 0 = satAdd (s.fld Fields.STORE_COMMITS_COUNT 0) Fields.STORE_COMMITS_COUNT.width 1) ∧
  (∀ (s : State) (r : Record), s.halted = false → s.store.writing = some r → s.store.queue = [] → s.store.fulling = none →
    s.store.readOnly = false → s.flash.ringFree ≤ s.fullAt → completes .recordCommitDone s fun t => t.store.fulling.isSome = true ∧
      t.flash.ring = s.flash.ring ++ [{ r with commit := .whole }]) ∧
  (∀ s : State, s.store.writing = none → completes .recordCommitDone s fun t => t = s) ∧
  (∀ s : State, s.serves = true → s.store.readOnly = false → s.store.fulling = none →
    completes .storeFull s fun t => s.wrote t ∧ t.fld Fields.STORE_STAT_RESULT 0 = 0 ∧ t.store.fulling = some s.newestSeq ∧
      t.base = s.base ∧ t.flash.ring = s.flash.ring ∧
      (if s.store.useB then t.flash.baseA.valid = false else t.flash.baseB.valid = false)) ∧
  (∀ s : State, s.serves = true → s.store.readOnly = true → completes .storeFull s fun t =>
    t.fld Fields.STORE_STAT_RESULT 0 = 1 ∧ t.store.fulling = s.store.fulling ∧ t.flash = s.flash) ∧
  (∀ (s : State) (n : Nat), s.halted = false → s.store.fulling = some n → completes .fullingDone s fun t =>
    t.store.fulling = none ∧ t.store.useB = !s.store.useB ∧ t.base = s.foldedBase n ∧ t.reg .STORE_BASE 0 = BitVec.ofNat 32 n ∧
    t.flash.ring = s.flash.ring.dropWhile (fun r => !newer r.seq n)) ∧
  (∀ s : State, s.store.fulling = none → completes .fullingDone s fun t => t = s) ∧
  (∀ (s : State) (i : Fin 128) (b : PoolBlock), s.halted = false → s.boot.copy = none → s.flash.pool[i.val]? = some b →
    b.role ≠ .retired → completes (.eraseFail i) s fun t =>
      (t.flash.pool[i.val]?).map (·.role) = some .retired ∧ ∃ r ∈ t.raises, r.fid = Src.store_ERASE_FAIL ∧ r.stamp = s.now) ∧
  (∀ (s : State) (i : Fin 128), s.halted = false → s.boot.copy.isSome = true → completes (.eraseFail i) s fun t =>
    t.boot.copy = none ∧ t.flash = s.flash ∧ t.fld Fields.UPD_STAT_RESULT 0 = 10)

/-! ## The service port and field update (spec/15) -/

/-- R573, R575 to R580: a frame that fails its checks is discarded with SVC_FRAME. OPEN answers DEVSER and a fresh nonce;
AUTH with the right proof opens a session, and one with a wrong proof is counted and raises; CLOSE ends it. A read returns
the response that waits, once. A session ends after 10 s without a valid request, and the lockout after its second. R575,
R578, R579: within a session a wrong MAC is answered AUTH without a key and counted, the SEQ of the last request brings its
response again, any other SEQ but the next is answered SEQ; without a session every command is answered AUTH. None of them
acts. -/
def Obligations.SessionsAreOpenedAndAuthenticated : Prop :=
  (∀ (s : State) (l : List Byte), s.mgmtRuns = true → s.svcServes = true → plipoParse l = none →
    completes (.svcOpen (some l)) s fun t => t.svc = s.svc ∧ t.regs = s.regs ∧
      ∃ r : Raise, t.raises = s.raises ++ [r] ∧ r.fid = Src.port_SVC_FRAME) ∧
  (∀ (s : State) (l : List Byte) (r : PlipoReq), s.mgmtRuns = true → s.svcServes = true → plipoParse l = some r → r.cmd = 1 →
    r.seq = 0 → r.payload = [] → s.svc.session = none → s.svc.lockUntil = none →
    completes (.svcOpen (some l)) s fun t => t = { s with svc := { s.svc with
      nonce := some (beBytes 16 (Config.nonce s.svc.drawn).toNat), drawn := s.svc.drawn + 1
      resp := plipoFrame 1 0 0 (s.serialBytes ++ beBytes 16 (Config.nonce s.svc.drawn).toNat ++ beBytes 1 (s.power == 4).toNat
        ++ beBytes 1 s.entry.state.code) none } }) ∧
  (∀ (s : State) (l : List Byte) (r : PlipoReq) (k : Nat), s.mgmtRuns = true → s.svcServes = true → plipoParse l = some r →
    r.cmd = 1 → r.seq = 0 → r.payload = [] → s.svc.lockUntil = some k → s.elapsed < k →
    completes (.svcOpen (some l)) s fun t => t.svc.nonce = s.svc.nonce ∧ t.svc.resp = plipoFrame 1 1 0 [] none) ∧
  (∀ (s : State) (l nd : List Byte) (r : PlipoReq), s.mgmtRuns = true → s.svcServes = true → plipoParse l = some r → r.cmd = 2 →
    r.seq = 0 → r.payload.length = 48 → s.svc.session = none → s.svc.nonce = some nd →
    (hmac s.keyBytes (asciiTag 0x50 0x4C 0x41 0x31 ++ s.serialBytes ++ nd ++ r.payload.take 16) = r.payload.drop 16 →
      completes (.svcAuth (some l)) s fun t => t.svc.nonce = none ∧ t.svc.fails = 0 ∧ t.raises = s.raises ∧ t.svc.session =
        some ⟨hmac s.keyBytes (asciiTag 0x50 0x4C 0x4B 0x31 ++ nd ++ r.payload.take 16), false, 0, 0, s.elapsed⟩) ∧
    (hmac s.keyBytes (asciiTag 0x50 0x4C 0x41 0x31 ++ s.serialBytes ++ nd ++ r.payload.take 16) ≠ r.payload.drop 16 →
      completes (.svcAuth (some l)) s fun t => t.svc.nonce = none ∧ t.svc.session = none ∧ t.svc.resp = plipoFrame 2 2 0 [] none ∧
        (if 4 ≤ s.svc.fails + 1 then t.svc.lockUntil = some (s.elapsed + 500000000) ∧ t.svc.fails = 0
          else t.svc.lockUntil = s.svc.lockUntil ∧ t.svc.fails = s.svc.fails + 1) ∧
        ∃ x : Raise, t.raises = s.raises ++ [x] ∧ x.fid = Src.port_SVC_AUTH)) ∧
  (∀ (s : State) (l : List Byte) (r : PlipoReq), s.mgmtRuns = true → s.svcServes = true → plipoParse l = some r → r.seq ≠ 0 →
    (r.cmd = 1 → completes (.svcOpen (some l)) s fun t =>
      t = { s with svc := { s.svc with resp := plipoFrame 1 11 r.seq [] none } }) ∧
    (r.cmd = 2 → completes (.svcAuth (some l)) s fun t =>
      t = { s with svc := { s.svc with resp := plipoFrame 2 11 r.seq [] none } })) ∧
  (∀ (s : State) (l : List Byte) (r : PlipoReq) (x : Session), s.mgmtRuns = true → s.svcServes = true → plipoParse l = some r →
    r.cmd = 3 → r.payload = [] → s.svc.session = some x → x.lane = false → r.mac = some ((hmac x.key r.signed).take 16) →
    r.seq = (x.seq + 1) % 65536 → r.seq ≠ x.seq →
    completes (.svcClose (some l)) s fun t => t.svc.session = none ∧ t.svc.resp = plipoFrame 3 0 r.seq [] (some x.key) ∧
      (s.entry.state = .receiving → t.entry.state = .idle)) ∧
  (∀ s : State, s.svcServes = true → s.svc.resp ≠ [] → s.svc.restart = false → completes .svcRead s fun t =>
    t = { s with svc := { s.svc with miso := s.svc.resp, resp := [] } }) ∧
  (∀ s : State, s.svcServes = true → s.svc.resp = [] → completes .svcRead s fun t =>
    t = { s with svc := { s.svc with miso := [0] } }) ∧
  (∀ s : State, s.svcServes = true → s.svc.resp ≠ [] → s.svc.restart = true → completes .svcRead s fun t => t.startStage = 0 ∧
    t.fld Fields.STORE_START_KIND 0 = 2 ∧ t.svc.session = none) ∧
  (∀ (s : State) (x : Session), s.svc.session = some x →
    (x.heardAt + 5000000000 ≤ s.elapsed → completes .sessionTimeout s fun t => t.svc.session = none ∧ t.raises = s.raises) ∧
    (s.elapsed < x.heardAt + 5000000000 → completes .sessionTimeout s fun t => t = s)) ∧
  (∀ (s : State) (k : Nat), s.svc.lockUntil = some k →
    (k ≤ s.elapsed → completes .authLockoutEnd s fun t => t = { s with svc := { s.svc with lockUntil := none } }) ∧
    (s.elapsed < k → completes .authLockoutEnd s fun t => t = s)) ∧
  (∀ (s : State) (l : List Byte) (r : PlipoReq), s.mgmtRuns = true → s.svcServes = true → plipoParse l = some r →
    ∀ p ∈ sessionRows l, r.cmd = p.2 →
      (s.svc.session = none → completes p.1 s fun t => t = { s with svc := { s.svc with
        resp := plipoFrame p.2 2 r.seq [] none } }) ∧
      (∀ x : Session, s.svc.session = some x → x.lane = false →
        (r.mac ≠ some ((hmac x.key r.signed).take 16) → completes p.1 s fun t => t.svc = { s.svc with
          resp := plipoFrame p.2 2 r.seq [] none } ∧ t.flash = s.flash ∧ t.raises = s.raises ∧
          t.fld Fields.UPD_SVCCNT_MACFAIL 0 = satAdd (s.fld Fields.UPD_SVCCNT_MACFAIL 0) Fields.UPD_SVCCNT_MACFAIL.width 1) ∧
        (r.mac = some ((hmac x.key r.signed).take 16) → r.seq = x.seq → completes p.1 s fun t =>
          t = { s with svc := { s.svc with session := some { x with heardAt := s.elapsed }, resp := s.svc.last } }) ∧
        (r.mac = some ((hmac x.key r.signed).take 16) → r.seq ≠ x.seq → r.seq ≠ (x.seq + 1) % 65536 → completes p.1 s fun t =>
          t = { s with svc := { s.svc with resp := plipoFrame p.2 11 r.seq [] (some x.key) } })))

/-- R582, Table 15.7: an accepted STATUS, READ, WRITE or RESTART acts and is answered under the session's key. STATUS returns
the update registers; READ the words; WRITE is a write of the host port, refused with STATE in RECOVERY and for UPD_CMD;
RESTART begins a start once its response is read. -/
def Obligations.SessionRequestsAreServed : Prop :=
  (∀ (s : State) (l : List Byte) (r : PlipoReq) (x : Session), s.accepted l r x 4 → r.payload = [] →
    completes (.svcStatus (some l)) s fun t =>
      t = (s.heard x r).answered (plipoFrame 4 0 r.seq (s.heard x r).statusBytes (some x.key))) ∧
  (∀ (s : State) (l : List Byte) (r : PlipoReq) (x : Session), s.accepted l r x 0x10 → r.payload.length = 4 →
    field r.payload 2 2 = 1 → field r.payload 0 2 = regAddr .GLB_SCRATCH 0 → s.power ≠ 4 →
    completes (.plipoRead (some l)) s fun t =>
      t = (s.heard x r).answered (plipoFrame 0x10 0 r.seq (beBytes 4 (s.reg .GLB_SCRATCH 0).toNat) (some x.key))) ∧
  (∀ (s : State) (l : List Byte) (r : PlipoReq) (x : Session), s.accepted l r x 0x10 → r.payload.length = 4 →
    (field r.payload 2 2 = 0 ∨ 255 < field r.payload 2 2) →
    completes (.plipoRead (some l)) s fun t => t = (s.heard x r).answered (plipoFrame 0x10 3 r.seq [] (some x.key))) ∧
  (∀ (s : State) (l : List Byte) (r : PlipoReq) (x : Session), s.accepted l r x 0x11 → r.payload.length = 6 → s.serves = true →
    field r.payload 0 2 = regAddr .GLB_SCRATCH 0 →
    completes (.plipoWrite (some l)) s fun t => t.reg .GLB_SCRATCH 0 = BitVec.ofNat 32 (field r.payload 2 4) ∧ t.hwRel = s.now ∧
      t.svc = ((s.heard x r).answered (plipoFrame 0x11 0 r.seq [] (some x.key))).svc ∧ t.flash = s.flash ∧ t.cores = s.cores) ∧
  (∀ (s : State) (l : List Byte) (r : PlipoReq) (x : Session), s.accepted l r x 0x11 → r.payload.length = 6 →
    (s.power = 4 ∨ field r.payload 0 2 = regAddr .UPD_CMD 0) →
    completes (.plipoWrite (some l)) s fun t => t = (s.heard x r).answered (plipoFrame 0x11 4 r.seq [] (some x.key))) ∧
  (∀ (s : State) (l : List Byte) (r : PlipoReq) (x : Session), s.accepted l r x 0x25 → r.payload = [] →
    completes (.restart (some l)) s fun t => t.svc.restart = true ∧ t.regs = s.regs ∧ t.flash = s.flash ∧
      t.svc.resp = plipoFrame 0x25 0 r.seq [] (some x.key))

/-- R585 to R588: UPD_BEGIN of a header that passes its checks commits RECEIVING, and one that does not is answered with its
status; UPD_DATA at the next offset joins the staged image; UPD_END of a whole image that passes commits VERIFIED, and of
one that does not IDLE with IMAGE_REJECT; UPD_ACTIVATE commits ARMED; UPD_ABORT steps back. -/
def Obligations.ImagesAreDownloaded : Prop :=
  (∀ (s : State) (l : List Byte) (r : PlipoReq) (x : Session), s.accepted l r x 0x20 → r.payload.length = 512 → s.boot.recovery = 0 →
    s.entry.state = .idle →
    (s.checkHeader r.payload = .ok → completes (.updBegin (some l)) s fun t => t.entry.state = .receiving ∧
      t.flash.staging = r.payload ∧ t.boot.length = 512 ∧ t.flash.active = s.flash.active ∧ t.fld Fields.UPD_STAT_RESULT 0 = 0 ∧
      t.svc = ((s.heard x r).answered (plipoFrame 0x20 0 r.seq [] (some x.key))).svc) ∧
    (s.checkHeader r.payload ≠ .ok → completes (.updBegin (some l)) s fun t => t.flash = s.flash ∧ t.boot = s.boot ∧
      t.fld Fields.UPD_STAT_RESULT 0 = (s.checkHeader r.payload).code ∧
      t.svc = ((s.heard x r).answered (plipoFrame 0x20 (s.checkHeader r.payload).code r.seq [] (some x.key))).svc)) ∧
  (∀ (s : State) (l : List Byte) (r : PlipoReq) (x : Session), s.accepted l r x 0x21 → 5 ≤ r.payload.length → s.boot.recovery = 0 →
    s.entry.state = .receiving → field r.payload 0 4 = s.boot.length →
    s.boot.length + (r.payload.length - 4) ≤ imgLength s.flash.staging →
    completes (.updData (some l)) s fun t => t.flash = { s.flash with staging := s.flash.staging ++ r.payload.drop 4 } ∧
      t.boot.length = s.boot.length + (r.payload.length - 4) ∧
      t.svc = ((s.heard x r).answered (plipoFrame 0x21 0 r.seq [] (some x.key))).svc) ∧
  (∀ (s : State) (l : List Byte) (r : PlipoReq) (x : Session), s.accepted l r x 0x21 → 5 ≤ r.payload.length → s.boot.recovery = 0 →
    s.entry.state = .receiving → field r.payload 0 4 ≠ s.boot.length →
    completes (.updData (some l)) s fun t => t.flash = s.flash ∧ t.boot = s.boot ∧
      t.svc = ((s.heard x r).answered (plipoFrame 0x21 3 r.seq [] (some x.key))).svc) ∧
  (∀ (s : State) (l : List Byte) (r : PlipoReq) (x : Session), s.accepted l r x 0x22 → r.payload = [] → s.boot.recovery = 0 →
    s.entry.state = .receiving → s.boot.length = imgLength s.flash.staging →
    (s.checkStaged s.flash.staging = .ok → completes (.updEnd (some l)) s fun t => t.entry.state = .verified ∧
      t.entry.stValid = true ∧ t.raises = s.raises ∧ t.entry.stHash = headerHash
        (if imgKind s.flash.staging = 2 then s.flash.staging.drop 512 else s.flash.staging) ∧
      t.svc = ((s.heard x r).answered (plipoFrame 0x22 0 r.seq [] (some x.key))).svc) ∧
    (s.checkStaged s.flash.staging ≠ .ok → completes (.updEnd (some l)) s fun t => t.entry.state = .idle ∧
      t.entry.stValid = false ∧ (∃ e : Raise, t.raises = s.raises ++ [e] ∧ e.fid = Src.store_IMAGE_REJECT) ∧
      t.svc = ((s.heard x r).answered (plipoFrame 0x22 (s.checkStaged s.flash.staging).code r.seq [] (some x.key))).svc)) ∧
  (∀ (s : State) (l : List Byte) (r : PlipoReq) (x : Session), s.accepted l r x 0x22 → r.payload = [] → s.boot.recovery = 0 →
    (s.entry.state ≠ .receiving ∨ s.boot.length ≠ imgLength s.flash.staging) →
    completes (.updEnd (some l)) s fun t => t.flash = s.flash ∧ t.raises = s.raises ∧
      t.svc = ((s.heard x r).answered (plipoFrame 0x22 4 r.seq [] (some x.key))).svc) ∧
  (∀ (s : State) (l : List Byte) (r : PlipoReq) (x : Session) (b : Bool), s.accepted l r x 0x23 →
    r.payload = [BitVec.ofNat 8 b.toNat] → s.boot.recovery = 0 →
    (s.entry.state = .verified → completes (.updActivate (some l)) s fun t => t.entry.state = .armed ∧
      t.svc.restart = (b || s.svc.restart) ∧ t.svc.resp = plipoFrame 0x23 0 r.seq [] (some x.key) ∧ t.startStage = s.startStage) ∧
    (s.entry.state ≠ .verified → completes (.updActivate (some l)) s fun t => t.flash = s.flash ∧
      t.svc.restart = s.svc.restart ∧ t.svc.resp = plipoFrame 0x23 4 r.seq [] (some x.key))) ∧
  (∀ (s : State) (l : List Byte) (r : PlipoReq) (x : Session), s.accepted l r x 0x24 → r.payload = [] → s.boot.recovery = 0 →
    ((s.entry.state = .verified ∨ s.entry.state = .receiving) → completes (.updAbort (some l)) s fun t => t.entry.state = .idle ∧
      t.entry.stValid = false ∧ t.svc.resp = plipoFrame 0x24 0 r.seq [] (some x.key)) ∧
    (s.entry.state = .armed → completes (.updAbort (some l)) s fun t => t.entry.state = .verified ∧
      t.svc.resp = plipoFrame 0x24 0 r.seq [] (some x.key)) ∧
    (s.entry.state = .idle → completes (.updAbort (some l)) s fun t => t.flash = s.flash ∧
      t.svc.resp = plipoFrame 0x24 4 r.seq [] (some x.key)))

/-! ## The host port and the mailbox (spec/16) -/

/-- R607 to R612, R659: a WRITE whose length and CRC hold joins the queue of four; one that fails them is discarded, counted
and raised, and one that finds the queue full is discarded with BUSY. The oldest write is handled as a host write at the
first tick that lies two ticks or more after it was complete. A READ returns a status and the word once the earlier writes
are handled; REPEAT returns its response again. -/
def Obligations.HspiTransactions : Prop :=
  (∀ (s : State) (l : List Byte), s.hostServes = true → s.hspi.queue.length < 4 →
    ((field l 0 1 = 2 ∧ l.length = 7 ∧ s.crcRequired = false) ∨
      (field l 0 1 = 0x82 ∧ l.length = 8 ∧ crc8 (l.take 7) = l.getD 7 0)) →
    completes (.hspiWrite l) s fun t => t.hspi.queue = s.hspi.queue ++ [⟨field l 1 2, BitVec.ofNat 32 (field l 3 4), s.elapsed⟩] ∧
      t.hspi.lastw = s.hspi.lastw ∧ t = { s with hspi := t.hspi }) ∧
  (∀ (s : State) (l : List Byte), s.hostServes = true → field l 0 1 = 0x82 → l.length = 8 → crc8 (l.take 7) ≠ l.getD 7 0 →
    completes (.hspiWrite l) s fun t => t.hspi.queue = s.hspi.queue ∧ t.hspi.lastw = 10 ∧ t.flag Fields.HSPI_STAT_ERR 0 = true ∧
      t.fld Fields.HSPI_CNT_CRCERR 0 = satAdd (s.fld Fields.HSPI_CNT_CRCERR 0) Fields.HSPI_CNT_CRCERR.width 1 ∧
      ∃ r : Raise, t.raises = s.raises ++ [r] ∧ r.fid = Src.port_HSPI_CRC) ∧
  (∀ (s : State) (l : List Byte), s.hostServes = true → field l 0 1 = 2 → l.length ≠ 7 →
    completes (.hspiWrite l) s fun t => t.hspi.queue = s.hspi.queue ∧ t.hspi.lastw = s.hspi.lastw ∧
      t.fld Fields.HSPI_CNT_FRAMEERR 0 = satAdd (s.fld Fields.HSPI_CNT_FRAMEERR 0) Fields.HSPI_CNT_FRAMEERR.width 1 ∧
      ∃ r : Raise, t.raises = s.raises ++ [r] ∧ r.fid = Src.port_HSPI_FRAME) ∧
  (∀ (s : State) (l : List Byte), s.hostServes = true → 4 ≤ s.hspi.queue.length →
    ((field l 0 1 = 2 ∧ l.length = 7 ∧ s.crcRequired = false) ∨
      (field l 0 1 = 0x82 ∧ l.length = 8 ∧ crc8 (l.take 7) = l.getD 7 0)) →
    completes (.hspiWrite l) s fun t => t.hspi.queue = s.hspi.queue ∧ t.hspi.lastw = 1 ∧ t.flag Fields.HSPI_STAT_ERR 0 = true ∧
      t.raises = s.raises) ∧
  (∀ (s : State) (w : HspiWrite) (l : List HspiWrite), s.serves = true → s.hspi.queue = w :: l → w.at_ + 2 ≤ s.elapsed →
    w.addr = regAddr .GLB_SCRATCH 0 →
    completes .hspiWriteHandled s fun t => t.reg .GLB_SCRATCH 0 = w.data ∧ t.hspi.queue = l ∧ s.wrote t) ∧
  (∀ (s : State) (w : HspiWrite) (l : List HspiWrite), s.serves = true → s.hspi.queue = w :: l → w.at_ + 2 ≤ s.elapsed →
    w.addr % 4 ≠ 0 →
    completes .hspiWriteHandled s fun t => t.refusedWith .range ∧ t.hspi.queue = l ∧ t.raises = s.raises) ∧
  (∀ s : State, (s.hspi.queue = [] ∨ ∃ w l, s.hspi.queue = w :: l ∧ s.elapsed < w.at_ + 2) →
    completes .hspiWriteHandled s fun t => t = s) ∧
  (∀ (s : State) (l : List Byte), s.hostServes = true → s.power ≠ 4 → field l 0 1 = 3 → s.crcRequired = false → s.hspi.queue = [] →
    field l 1 2 = regAddr .GLB_SCRATCH 0 → l.length = 8 + s.fld Fields.HSPI_CFG_DUMMY 0 →
    completes (.hspiRead l true) s fun t => t.readData = s.reg .GLB_SCRATCH 0 ∧ t.regs = s.regs ∧ t.raises = s.raises ∧
      t.hspi.read = some (0, s.reg .GLB_SCRATCH 0) ∧
      t.hspi.miso.drop (3 + s.fld Fields.HSPI_CFG_DUMMY 0) = beBytes 1 0 ++ beBytes 4 (s.reg .GLB_SCRATCH 0).toNat) ∧
  (∀ (s : State) (l : List Byte), s.hostServes = true → field l 0 1 = 3 → s.crcRequired = false →
    l.length = 8 + s.fld Fields.HSPI_CFG_DUMMY 0 →
    completes (.hspiRead l false) s fun t => t.hspi.read = some (14, 0) ∧ t.regs = s.regs ∧ t.raises = s.raises) ∧
  (∀ (s : State) (l : List Byte) (st : Nat) (w : Word), s.hostServes = true → field l 0 1 = 0x0B → l.length = 6 →
    s.hspi.read = some (st, w) →
    completes (.hspiRepeat l) s fun t => t.readData = w ∧ t.hspi.read = s.hspi.read ∧ t.regs = s.regs ∧ t.raises = s.raises ∧
      t.hspi.miso.drop 1 = beBytes 1 st ++ beBytes 4 w.toNat) ∧
  (∀ (s : State) (l : List Byte) (b : Bool), s.hostServes = false →
    (completes (.hspiWrite l) s fun t => t = s) ∧ (completes (.hspiRead l b) s fun t => t = s) ∧
    (completes (.hspiRepeat l) s fun t => t = s))

/-- R621 to R624: a write of MBX_CTL with GO starts the command of CMD, and is refused with BUSY while one runs; a reserved
CMD ends at once with RANGE. A row of the mailbox acts only while its own command runs. INFO returns its words; OUT_LEVEL,
OUT_OFF and SYSREF write the registers of outputs; a command whose argument or output fails a check changes no output and
ends with its status and MAILBOX_ERR. R637: EXTEST. -/
def Obligations.MailboxServesOutputs : Prop :=
  (∀ (s : State) (k : Fin 16), s.serves = true → s.mbx.busy = false → k.val ≠ 0 →
    completes (.hostWrite (BitVec.ofNat 16 (regAddr .MBX_CTL 0)) (BitVec.ofNat 32 (2 ^ 31 + k.val))) s fun t =>
      t.mbx = ⟨true, 0, 0⟩ ∧ t.mbxRuns k 0 = (!s.reloads.contains 0) ∧ s.wrote t) ∧
  (∀ (s : State) (w : Word), s.serves = true → s.mbx.busy = true → bitOf w 31 = true →
    completes (.hostWrite (BitVec.ofNat 16 (regAddr .MBX_CTL 0)) w) s fun t => t.refusedWith .busy ∧ t.mbx = s.mbx) ∧
  (∀ (s : State) (w : Word), s.serves = true → s.mbx.busy = false → bitOf w 31 = true → (getBits w 0 8 = 0 ∨ 15 < getBits w 0 8) →
    completes (.hostWrite (BitVec.ofNat 16 (regAddr .MBX_CTL 0)) w) s fun t => t.mbxDone 3 ∧ s.wrote t) ∧
  (∀ s : State, ∀ p ∈ mbxRows, s.mbxRuns p.2 0 = false → s.mbxRuns p.2 2 = false → completes p.1 s fun t => t = s) ∧
  (∀ s : State, s.mbxRuns 1 0 = true → s.power ≠ 1 → completes .mbxInfo s fun t => t.mbxDone 0 ∧ t.raises = s.raises ∧
    t.reg .MBX_ARG 0 = s.readWord .GLB_ID 0 ∧ t.reg .MBX_ARG 1 = s.otp.serial.extractLsb' 0 32 ∧
    t.reg .MBX_ARG 2 = s.otp.serial.extractLsb' 32 32 ∧ t.reg .MBX_ARG 3 = s.readWord .UPD_ACTVER 0 ∧
    t.reg .MBX_ARG 4 = s.readWord .UPD_FW 0 ∧ t.cores = s.cores ∧ t.outs = s.outs) ∧
  (∀ (s : State) (o : Fin 32), s.serves = true → s.mbxRuns 5 0 = true → (s.arg 0).toNat = o.val → (s.arg 1).toNat ≤ 1 →
    (s.arg 2).toNat ≤ 240 → (s.arg 3).toNat ≤ 65535 →
    (s.outOwned o = false → ((s.arg 1).toNat = 0 ∨ 8 ≤ o.val) → completes .mbxOutLevel s fun t => t.mbxDone 0 ∧
      t.fld Fields.OUT_DRV_MODE o = (s.arg 1).toNat ∧ t.fld Fields.OUT_DRV_AMP o = (s.arg 2).toNat ∧
      t.fld Fields.OUT_DRV_MINPER o = (s.arg 3).toNat ∧ (t.out o).amp = (s.arg 2).toNat ∧ t.hwRel = s.now ∧
      ∀ p : Fin 32, p ≠ o → t.out p = s.out p ∧ t.reg .OUT_DRV p = s.reg .OUT_DRV p) ∧
    (s.outOwned o = true → completes .mbxOutLevel s fun t => t.mbxDone 2 ∧ t.outs = s.outs ∧ t.reg .OUT_DRV o = s.reg .OUT_DRV o ∧
      ∃ r : Raise, t.raises = s.raises ++ [r] ∧ r.fid = Src.port_MAILBOX_ERR)) ∧
  (∀ s : State, s.mbxRuns 5 0 = true → (32 ≤ (s.arg 0).toNat ∨ 1 < (s.arg 1).toNat ∨ 240 < (s.arg 2).toNat) →
    completes .mbxOutLevel s fun t => t.mbxDone 3 ∧ t.outs = s.outs ∧ (∀ o : Fin 32, t.reg .OUT_DRV o = s.reg .OUT_DRV o) ∧
      ∃ r : Raise, t.raises = s.raises ++ [r] ∧ r.fid = Src.port_MAILBOX_ERR) ∧
  (∀ s : State, s.serves = true → s.mbxRuns 6 0 = true → (∀ o : Fin 32, bitOf (s.arg 0) o = true → s.outTaken o = false) →
    completes .mbxOutOff s fun t => t.mbxDone 0 ∧ ∀ o : Fin 32,
      (bitOf (s.arg 0) o = true → t.flag Fields.OUT_CFG_EN o = false) ∧
      (bitOf (s.arg 0) o = false → t.out o = s.out o ∧ t.reg .OUT_CFG o = s.reg .OUT_CFG o)) ∧
  (∀ (s : State) (o : Fin 32), s.mbxRuns 6 0 = true → bitOf (s.arg 0) o = true → s.outTaken o = true →
    completes .mbxOutOff s fun t => t.mbxDone 2 ∧ t.outs = s.outs ∧ ∀ p : Fin 32, t.reg .OUT_CFG p = s.reg .OUT_CFG p) ∧
  (∀ (s : State) (o : Fin 32), s.serves = true → s.mbxRuns 7 0 = true → (s.arg 0).toNat = o.val → 2 ≤ (s.arg 2).toNat →
    (s.arg 2).toNat ≤ 4096 → (s.arg 3).toNat ≤ 65535 → (s.arg 4).toNat = 3 → s.outTaken o = false →
    completes .mbxSysref s fun t => t.mbxDone 0 ∧ t.fld Fields.OUT_SYSPULSE_P o = (s.arg 2).toNat % 4096 ∧
      t.fld Fields.OUT_SYSPULSE_WIDTH o = (s.arg 3).toNat ∧ t.fld Fields.OUT_SYSREF_SMODE o = getBits (s.arg 1) 0 2 ∧
      t.fld Fields.OUT_SYSREF_COUNT o = getBits (s.arg 1) 2 8 ∧ t.raises = s.raises) ∧
  (∀ s : State, completes .extest s fun t => t = { s with pins := { s.pins with extest := true } })

/-- R624, R625: ANCHOR_SET computes N, NUM and DEN of 8 GHz/f_X and the least pre-divider with its ratio, writes them and
enables the anchor and its reference, and returns them; OUT_FREQ takes the least divider that puts its core between 7 and 14
GHz, sets up a free core and its output, and returns the setting; arguments that no setting fits end with NOFIT, and no free
core with NOCORE. -/
def Obligations.MailboxSetsFrequencies : Prop :=
  (∀ (s : State) (a : Fin 2) (r : Fin 4) (p : Nat) (u : State), s.mbxRuns 2 0 = true → getBits (s.arg 0) 0 1 = a.val →
    getBits (s.arg 0) 1 3 = r.val → ((s.anc a).state = .off ∨ (s.anc a).state = .failed) →
    80000000 ≤ (s.arg 1).toNat → (s.arg 1).toNat ≤ 160000000 →
    (s.arg 1).toNat / Nat.gcd (8000000000 % (s.arg 1).toNat) (s.arg 1).toNat < 2 ^ 24 → p < 64 →
    ratioMeets (s.arg 2).toNat (p + 1) = true → (∀ q, q < p → ratioMeets (s.arg 2).toNat (q + 1) = false) →
    s.expertWrites
      [(regAddr .REF_CFG r, s.withFields .REF_CFG r [(Fields.REF_CFG_PREDIV, p), (Fields.REF_CFG_EN, 1)]),
       (regAddr .REF_RATIO_NUM r, BitVec.ofNat 32 (8000000000 * (p + 1) / Nat.gcd (8000000000 * (p + 1)) (s.arg 2).toNat)),
       (regAddr .REF_RATIO_DEN r, BitVec.ofNat 32 ((s.arg 2).toNat / Nat.gcd (8000000000 * (p + 1)) (s.arg 2).toNat)),
       (regAddr .ANC_INNER_N a, BitVec.ofNat 32 (8000000000 / (s.arg 1).toNat)),
       (regAddr .ANC_INNER_NUM a, BitVec.ofNat 32
         (8000000000 % (s.arg 1).toNat / Nat.gcd (8000000000 % (s.arg 1).toNat) (s.arg 1).toNat)),
       (regAddr .ANC_INNER_DEN a, BitVec.ofNat 32 ((s.arg 1).toNat / Nat.gcd (8000000000 % (s.arg 1).toNat) (s.arg 1).toNat)),
       (regAddr .ANC_CFG a, s.withFields .ANC_CFG a
         [(Fields.ANC_CFG_REFSEL, r), (Fields.ANC_CFG_BW, getBits (s.arg 0) 4 5), (Fields.ANC_CFG_EN, 1)])] = (.ok, u) →
    u.power ≠ 1 →
    completes .mbxAnchorSet s fun t => t.mbxDone 0 ∧ t.anchors = u.anchors ∧ t.refs = u.refs ∧
      t.reg .MBX_ARG 0 = BitVec.ofNat 32 (8000000000 / (s.arg 1).toNat) ∧ t.reg .MBX_ARG 3 = BitVec.ofNat 32 p ∧
      (t.reg .MBX_ARG 4).toNat * (s.arg 2).toNat = (t.reg .MBX_ARG 5).toNat * (8000000000 * (p + 1))) ∧
  (∀ s : State, s.mbxRuns 2 0 = true → getBits (s.arg 0) 1 3 ≤ 3 → (s.anc (getBits (s.arg 0) 0 1)).state = .steered →
    completes .mbxAnchorSet s fun t => t.mbxDone 6 ∧ t.anchors = s.anchors ∧ t.refs = s.refs) ∧
  (∀ s : State, s.mbxRuns 2 0 = true → getBits (s.arg 0) 1 3 ≤ 3 → (s.anc (getBits (s.arg 0) 0 1)).state = .off →
    (s.arg 1).toNat ≤ 79000000 → completes .mbxAnchorSet s fun t => t.mbxDone 17 ∧ t.anchors = s.anchors ∧ t.refs = s.refs) ∧
  (∀ (s : State) (o : Fin 32) (d : Nat) (c : Nat) (u : State), s.mbxRuns 3 0 = true → (s.arg 0).toNat = o.val →
    s.outMasked o = false → s.arg64 1 ≤ 1600000000000 → leastDiv 1 [s.arg64 1] = some d →
    (s.minPeriod o + 2) * s.arg64 1 ≤ 2000000000000000 → s.freqCore o = some c →
    s.expertWrites
      [(regAddr .OUT_DSET01 o, s.withFields .OUT_DSET01 o [(Fields.OUT_DSET01_D0, d), (Fields.OUT_DSET01_DBL0, 0)]),
       (regAddr .OUT_CFG o, s.withFields .OUT_CFG o [(Fields.OUT_CFG_EN, 1), (Fields.OUT_CFG_HGATE, 0), (Fields.OUT_CFG_DSEL, 0),
         (Fields.OUT_CFG_SRC, c)]),
       (regAddr .CORE_CFG c, s.withFields .CORE_CFG c [(Fields.CORE_CFG_EN, 1)]),
       (regAddr .CORE_NUM_LO c, BitVec.ofNat 32 (settingOf (s.arg64 1) d 1).num),
       (regAddr .CORE_DEN_LO c, BitVec.ofNat 32 (settingOf (s.arg64 1) d 1).den),
       (regAddr .CORE_FRAC_HI c, BitVec.ofNat 32
         ((settingOf (s.arg64 1) d 1).den / 2 ^ 32 * 2 ^ 16 + (settingOf (s.arg64 1) d 1).num / 2 ^ 32)),
       (regAddr .CORE_NBAND c, BitVec.ofNat 32 ((s.tableBand c (settingOf (s.arg64 1) d 1)).1 * 2 ^ 16 +
         (s.tableBand c (settingOf (s.arg64 1) d 1)).2 * 2 ^ 8 + (settingOf (s.arg64 1) d 1).n)),
       (regAddr .CORE_CMD c, 1#32)] = (.ok, u) → u.power ≠ 1 →
    completes .mbxOutFreq s fun t => t.mbxDone 0 ∧ t.cores = u.cores ∧ t.outs = u.outs ∧
      t.reg .MBX_ARG 0 = BitVec.ofNat 32 c ∧ t.reg .MBX_ARG 1 = BitVec.ofNat 32 d ∧
      t.reg .MBX_ARG 2 = BitVec.ofNat 32 (settingOf (s.arg64 1) d 1).n ∧ t.reg .MBX_ARG 6 = loWord u.hwRel) ∧
  (∀ (s : State) (o : Fin 32), s.mbxRuns 3 0 = true → (s.arg 0).toNat = o.val → s.outMasked o = true →
    completes .mbxOutFreq s fun t => t.mbxDone 2 ∧ t.cores = s.cores ∧ t.outs = s.outs) ∧
  (∀ (s : State) (o : Fin 32), s.mbxRuns 3 0 = true → (s.arg 0).toNat = o.val → s.outMasked o = false →
    s.arg64 1 ≤ 1600000000000 → leastDiv 1 [s.arg64 1] = none →
    completes .mbxOutFreq s fun t => t.mbxDone 17 ∧ t.cores = s.cores ∧ t.outs = s.outs) ∧
  (∀ (s : State) (o : Fin 32) (d : Nat), s.mbxRuns 3 0 = true → (s.arg 0).toNat = o.val → s.outMasked o = false →
    s.arg64 1 ≤ 1600000000000 → leastDiv 1 [s.arg64 1] = some d → (s.minPeriod o + 2) * s.arg64 1 ≤ 2000000000000000 →
    s.freqCore o = none → completes .mbxOutFreq s fun t => t.mbxDone 16 ∧ t.cores = s.cores ∧ t.outs = s.outs) ∧
  (∀ (f d : Nat), leastDiv 1 [f] = some d → 1 ≤ d ∧ 7000000000000 ≤ f * d ∧ f * d ≤ 14000000000000 ∧
    ∀ e, 1 ≤ e → e < d → f * e < 7000000000000)

/-- R624, R626: OUT_PHASE writes the delay nearest to the phase asked for, within an eighth of a picosecond, and returns it;
SYNC_ARM opens the arming window with its latency and preset; STATION_STOP stops a station; LANE_SET writes a lane's
configuration. -/
def Obligations.MailboxServesPhaseAndLanes : Prop :=
  (∀ (s : State) (o : Fin 32) (c : Nat), s.serves = true → s.mbxRuns 4 0 = true → (s.arg 0).toNat = o.val → s.outTaken o = false →
    s.srcOf o = some c → (s.core c).state = .locked → 7000000000 ≤ (s.core c).applied.hz →
    2 * (s.core c).applied.hz * (((s.arg 1).toNat : Rat) / (2 ^ 32 * ((s.core c).applied.hz * s.mulOf o / s.divOf o))) < 2048 →
    completes .mbxOutPhase s fun t => t.mbxDone 0 ∧ t.raises = s.raises ∧
      t.fld Fields.OUT_DELAY_COARSE o = (t.reg .MBX_ARG 0).toNat ∧ t.fld Fields.OUT_DELAY_FINE o = (t.reg .MBX_ARG 1).toNat ∧
      |((t.reg .MBX_ARG 0).toNat : Rat) / (2 * (s.core c).applied.hz) + ((t.reg .MBX_ARG 1).toNat : Rat) / 4000000000000 -
        ((s.arg 1).toNat : Rat) / (2 ^ 32 * ((s.core c).applied.hz * s.mulOf o / s.divOf o))| ≤ 1 / 8000000000000) ∧
  (∀ (s : State) (o : Fin 32) (c : Nat), s.mbxRuns 4 0 = true → (s.arg 0).toNat = o.val → s.outTaken o = false →
    s.srcOf o = some c → (s.core c).state ≠ .locked → completes .mbxOutPhase s fun t => t.mbxDone 6 ∧
      t.reg .OUT_DELAY o = s.reg .OUT_DELAY o) ∧
  (∀ s : State, s.serves = true → s.mbxRuns 8 0 = true → s.sync = none →
    (bitOf (s.arg 2) 0 = true → s.loadArmed = false ∧ s.loadAllowed = true) →
    completes .mbxSyncArm s fun t => t.mbxDone 0 ∧ t.fld Fields.TIME_SYNCCFG_LO_LATENCY 0 = getBits (s.arg 1) 16 16 ∧
      t.reg .TIME_SYNCMASK 0 &&& (regSpec .TIME_SYNCMASK).rw = s.arg 0 &&& (regSpec .TIME_SYNCMASK).rw ∧
      t.sync = some ⟨if getBits (s.arg 1) 0 16 = 0 then none else some (s.elapsed + 1000 * getBits (s.arg 1) 0 16), false, true,
        bitOf (s.arg 2) 0⟩ ∧
      (bitOf (s.arg 2) 0 = true → t.reg .TIME_PRESET_LO 0 = s.arg 3 ∧ t.reg .TIME_PRESET_HI 0 = s.arg 4)) ∧
  (∀ s : State, s.mbxRuns 8 0 = true → s.sync.isSome = true → completes .mbxSyncArm s fun t => t.mbxDone 1 ∧ t.sync = s.sync) ∧
  (∀ (s : State) (n : Fin 8), s.serves = true → s.mbxRuns 11 0 = true → (s.arg 0).toNat = n.val →
    completes .mbxStationStop s fun t => t.mbxDone 0 ∧ (t.stn n).running = false ∧ t.reg .MBX_ARG 0 = loWord s.now ∧
      t.reg .MBX_ARG 1 = hiWord s.now ∧ t.cores = s.cores ∧ ∀ m : Fin 8, m ≠ n → t.stn m = s.stn m) ∧
  (∀ s : State, s.mbxRuns 11 0 = true → 8 ≤ (s.arg 0).toNat → completes .mbxStationStop s fun t => t.mbxDone 3 ∧
    t.stations = s.stations) ∧
  (∀ (s : State) (n : Fin 16), s.serves = true → s.mbxRuns 12 0 = true → (s.arg 0).toNat = n.val →
    (∀ w, s.thirdUpstream n w = false) →
    completes .mbxLaneSet s fun t => t.mbxDone 0 ∧ t.fld Fields.LN_CFG_ROLE n = getBits (s.arg 1) 0 2 ∧
      t.fld Fields.LN_CFG_FEC n = getBits (s.arg 1) 2 1 ∧ t.fld Fields.LN_CFG_C0EN n = getBits (s.arg 1) 3 8 ∧
      t.flag Fields.LN_CFG_EN n = bitOf (s.arg 1) 11 ∧
      t.flag Fields.LN_CFG_AUTOSTEER n = s.flag Fields.LN_CFG_AUTOSTEER n ∧ t.outs = s.outs)

/-- R624, R627: SWEEP and STATION_RUN have their program checked, and then start the station 64 ticks on, or the lead asked
for; a program that is refused ends them with STATE. CAL asks for a run of a group, SAVE captures the settings, and POWER
writes PWR_CMD. -/
def Obligations.MailboxRunsPrograms : Prop :=
  (∀ (s u : State) (n : Fin 8) (c d : Nat), s.mbxRuns 9 0 = true → getBits (s.arg 0) 24 3 = n.val → getBits (s.arg 0) 0 12 = 1 →
    3000 ≤ (s.arg 6).toNat → (s.arg 6).toNat ≤ 524287 → s.stnMode n = 1 → s.mapMeets n = true →
    s.arg 1 &&& ~~~(s.reg .STN_OUTMASK n) = 0 → s.stationIdle n = true → s.referenced (getBits (s.arg 7) 0 12) = false →
    0 < s.arg64 2 → leastDiv 1 [s.arg64 2] = some d → s.slot n 0 = some c →
    s.expertWrites (s.sweepWrites n c d (getBits (s.arg 7) 0 12) [(s.arg64 2 : Int)] (s.arg 1) (s.arg 6).toNat
      (getBits (s.arg 7) 16 16)) = (.ok, u) →
    completes .mbxSweep s fun t => t = { u with mbx := { u.mbx with stage := 1 } }) ∧
  (∀ s : State, s.mbxRuns 9 0 = true → (s.arg 6).toNat < 3000 → completes .mbxSweep s fun t => t.mbxDone 3 ∧ t.profs = s.profs ∧
    t.pgm = s.pgm ∧ t.stations = s.stations) ∧
  (∀ (s : State) (n : Fin 8), s.mbxRuns 10 0 = true → getBits (s.arg 0) 0 3 = n.val → 64 ≤ (s.arg 1).toNat →
    s.stationIdle n = true → ∀ u, s.expertWrites
      [(regAddr .PGM_ADDR 0, s.withFields .PGM_ADDR 0 [(Fields.PGM_ADDR_STATION, n)]),
       (regAddr .PGM_LOAD 0, s.withFields .PGM_LOAD 0
         [(Fields.PGM_LOAD_MODE, getBits (s.arg 0) 8 1), (Fields.PGM_LOAD_KIND, 0)]), (regAddr .PGM_CMD 0, 1#32)] = (.ok, u) →
    completes .mbxStationRun s fun t => t = { u with mbx := { u.mbx with stage := 1 } }) ∧
  (∀ s : State, s.mbxRuns 10 0 = true → (s.arg 1).toNat < 64 → completes .mbxStationRun s fun t => t.mbxDone 3 ∧ t.check = s.check) ∧
  (∀ s : State, s.serves = true → s.fld Fields.PGM_STAT_RESULT 0 ≠ 0 →
    (s.mbxRuns 9 2 = true → completes .mbxSweep s fun t => t.mbxDone 6 ∧ t.stations = s.stations) ∧
    (s.mbxRuns 10 2 = true → completes .mbxStationRun s fun t => t.mbxDone 6 ∧ t.stations = s.stations)) ∧
  (∀ (s u : State) (n : Fin 8), s.fld Fields.PGM_STAT_RESULT 0 = 0 → u.power ≠ 1 →
    (s.mbxRuns 9 2 = true → getBits (s.arg 0) 24 3 = n.val → s.expertWrites
      [(regAddr .SEQ_START_LO n, loWord (s.mbx.tick + 64)), (regAddr .SEQ_START_HI n, hiWord (s.mbx.tick + 64)),
       (regAddr .SEQ_CTL n, 1#32)] = (.ok, u) →
      completes .mbxSweep s fun t => t.mbxDone 0 ∧ t.stations = u.stations ∧ t.reg .MBX_ARG 0 = loWord (s.mbx.tick + 64) ∧
        t.reg .MBX_ARG 1 = hiWord (s.mbx.tick + 64)) ∧
    (s.mbxRuns 10 2 = true → getBits (s.arg 0) 0 3 = n.val → s.expertWrites
      [(regAddr .SEQ_START_LO n, loWord (s.mbx.tick + (s.arg 1).toNat)),
       (regAddr .SEQ_START_HI n, hiWord (s.mbx.tick + (s.arg 1).toNat)), (regAddr .SEQ_CTL n, 1#32)] = (.ok, u) →
      completes .mbxStationRun s fun t => t.mbxDone 0 ∧ t.stations = u.stations ∧
        t.reg .MBX_ARG 0 = loWord (s.mbx.tick + (s.arg 1).toNat) ∧ t.reg .MBX_ARG 2 = u.readWord .PGM_SLACK 0)) ∧
  (∀ (s : State) (g : Fin 60), s.serves = true → s.mbxRuns 13 0 = true → s.arg 0 = 0 → (s.arg 1).toNat = g.val →
    completes .mbxCal s fun t => t.mbxDone 0 ∧ t.fld Fields.CAL_GSEL_GROUP 0 = g.val ∧ t.calVals = s.calVals ∧ t.cores = s.cores) ∧
  (∀ s : State, s.mbxRuns 13 0 = true → 3 < (s.arg 0).toNat → completes .mbxCal s fun t => t.mbxDone 3 ∧ t.cal = s.cal) ∧
  (∀ s : State, s.serves = true → s.mbxRuns 14 0 = true → s.store.readOnly = false →
    (s.dirtyItems = [] → completes .mbxSave s fun t => t.mbxDone 0 ∧ t.fld Fields.STORE_STAT_RESULT 0 = 2 ∧
      t.store.queue = s.store.queue ∧ getBits (t.reg .MBX_ARG 0) 16 3 = 2) ∧
    (s.dirtyItems ≠ [] → s.store.queue = [] → s.store.writing.isSome = true → completes .mbxSave s fun t => t.mbxDone 0 ∧
      t.store.queue = [⟨1, itemWords s.dirtyItems⟩] ∧ t.fld Fields.STORE_STAT_RESULT 0 = 0)) ∧
  (∀ s : State, s.serves = true → s.mbxRuns 15 0 = true →
    (s.arg 0 = 3 → s.power = 2 → completes .mbxPower s fun t => t.mbxDone 0 ∧ t.powering = true ∧ t.power = 2 ∧
      t.fld Fields.PWR_STATE_RESULT 0 = 0) ∧
    (3 < (s.arg 0).toNat → completes .mbxPower s fun t => t.mbxDone 3 ∧ t.power = s.power ∧ t.powering = s.powering))

/-! ## The machine as a whole -/

/-- R524: in HALTED the host port serves reads, refuses every write with STATE but those of FLT_SEL and FLT_STAT, which
change no reaction, and RESET_N is ignored. While VDD_AON is up, no command of the table ends HALTED, changes the power
state it reads, or lets an output leave its gate; VDD_AON falling and rising begins a power-on start with every tally empty. -/
def Obligations.HaltedEndsOnlyWithTheSupply : Prop :=
  (∀ (c : Instr) (s t : State), c ≠ .vddAonFall → s.halted = true → s.power = 5 → s.pins.aon = true → exec c s = .next t →
    t.halted = true ∧ t.power = 5 ∧ t.pins.aon = true ∧ t.allGated = true) ∧
  (∀ (s : State) (w : Fin 97) (i : Fin 16) (e : TallyEntry), s.halted = true → s.power = 5 → s.pins.aon = true →
    (s.win w).selItem = 16 + 4 * i.val → (s.win w).tally[i.val]? = some e →
    completes (.tallyRead w) s fun t => t.readData = e.word 0 ∧ (t.win w).latch1 = e.word 1 ∧ (t.win w).tally = (s.win w).tally) ∧
  (∀ (s : State) (a : BitVec 16) (d : Word), s.halted = true → s.power = 5 → s.pins.aon = true →
    (∀ w : Fin 97, faultAt a.toNat ≠ some (w.val, 1) ∧ faultAt a.toNat ≠ some (w.val, 2)) →
    completes (.hostWrite a d) s fun t => t.refusedWith .state ∧ t.windows = s.windows ∧ t.raises = s.raises ∧ t.fleet = s.fleet ∧
      t.store = s.store ∧ t.outs = s.outs ∧ t.cores = s.cores ∧ t.stations = s.stations) ∧
  (∀ (s : State) (w : Fin 97) (d : Word), s.halted = true → s.power = 5 → s.pins.aon = true →
    (completes (.hostWrite (BitVec.ofNat 16 (fltAddr w 8)) d) s fun t => (t.win w).sel = d &&& 0xFF0000FF#32 ∧ t.raises = s.raises ∧
      s.wrote t ∧ t.outs = s.outs ∧ t.cores = s.cores ∧ t.stations = s.stations) ∧
    ((s.win w).freshAt ≠ s.elapsed →
      (∀ b : Fin 32, bitOf d b = true → s.isLive ⟨(windowOf w).1, (windowOf w).2, b.val⟩ = false) →
      completes (.faultAck w d) s fun t => (t.win w).stat = (s.win w).stat &&& ~~~d ∧ t.raises = s.raises ∧ s.wrote t ∧
        t.outs = s.outs ∧ t.cores = s.cores ∧ t.stations = s.stations)) ∧
  (∀ s : State, s.halted = true → completes .resetNAssert s fun t => t = { s with pins := { s.pins with resetLow := true } }) ∧
  (∀ (s : State) (l m : Bool), s.halted = true → completes .vddAonFall s fun t => completes (.vddAonRise l m) t fun u =>
    u.halted = false ∧ u.startStage = 0 ∧ u.fld Fields.STORE_START_KIND 0 = 0 ∧ u.raises = [] ∧
      ∀ w : Fin 97, (u.win w).tally = [])

/-- R536, R539 and the Reset columns: after reset every register reads its Reset value, but that the spare cores C24 and C25
read EN = 1 (R107); the device is in STANDBY at stage RESET, every core but the spares is unassigned, every output is gated,
every station is EMPTY, nothing is raised or recorded, and every map is in its canonical form. The values for which the
manual gives no reset value are the model's choice (log entries 3, 4 and 5). -/
def Obligations.ResetLeavesTheResetValues : Prop :=
  State.reset.pending = [] ∧ State.reset.count = 0 ∧ State.reset.power = 2 ∧ State.reset.startStage = 0 ∧
  State.reset.timeSrc = 0 ∧ State.reset.halted = false ∧ State.reset.allGated = true ∧ State.reset.raises = [] ∧
  State.reset.mapsWf = true ∧
  (∀ (r : RegName) (i : Nat), ¬(r = .CORE_CFG ∧ (i = 24 ∨ i = 25)) → State.reset.reg r i = resetWord r i) ∧
  (∀ c : Fin 26, State.reset.flag Fields.CORE_CFG_EN c = decide (24 ≤ c.val) ∧ (State.reset.core c).state = .off ∧
    (State.reset.core c).role = (if 24 ≤ c.val then .spare else .unassigned)) ∧
  (∀ n : Fin 8, (State.reset.stn n).run = .empty) ∧
  (∀ w : Fin 97, (State.reset.win w).stat = 0 ∧ (State.reset.win w).tally = [] ∧ (State.reset.win w).irq = 0xFFFFFFFF#32)
end

