-- ==== Sys2Proof/Laws/Maps.lean ====
section
/-! SUPPORT. The laws of the two sparse maps and of the fields of a word: a read after a write, and that every write keeps
the canonical form. -/

namespace Sys2Proof.Machine

/-! ## The register file -/

theorem RegFile.get_insert_self (f : RegFile) (c : RegCell) (h : ∀ d ∈ f, ¬(d.reg = c.reg ∧ d.inst = c.inst)) :
    (f.insert c).get c.reg c.inst = c.val := by
  induction f with
  | nil => simp [RegFile.insert, RegFile.get]
  | cons d f ih =>
    simp only [RegFile.insert]
    split
    · simp [RegFile.get]
    · simp only [RegFile.get]
      rw [if_neg (h d (by simp))]
      exact ih fun e he => h e (by simp [he])

theorem RegFile.get_insert_other (f : RegFile) (c : RegCell) (r : RegName) (i : Nat)
    (h : ¬(c.reg = r ∧ c.inst = i)) : (f.insert c).get r i = f.get r i := by
  induction f with
  | nil => simp [RegFile.insert, RegFile.get, h]
  | cons d f ih =>
    simp only [RegFile.insert]
    split
    · simp [RegFile.get, h]
    · simp only [RegFile.get, ih]

theorem RegFile.get_erase_self (f : RegFile) (r : RegName) (i : Nat) : (f.erase r i).get r i = resetWord r i := by
  induction f with
  | nil => simp [RegFile.erase, RegFile.get]
  | cons d f ih =>
    simp only [RegFile.erase, List.filter_cons] at *
    split
    · next hd =>
      simp only [RegFile.get]
      rw [if_neg (by simpa [← not_and_or] using hd)]
      exact ih
    · exact ih

theorem RegFile.get_erase_other (f : RegFile) (r : RegName) (i : Nat) (r' : RegName) (i' : Nat)
    (h : ¬(r = r' ∧ i = i')) : (f.erase r i).get r' i' = f.get r' i' := by
  induction f with
  | nil => simp [RegFile.erase, RegFile.get]
  | cons d f ih =>
    simp only [RegFile.erase, List.filter_cons] at *
    split
    · simp only [RegFile.get, ih]
    · next hd =>
      simp only [Bool.not_eq_true, Bool.not_eq_false', Bool.and_eq_true, decide_eq_true_eq] at hd
      simp only [RegFile.get]
      rw [if_neg (by rintro ⟨h1, h2⟩; exact h ⟨hd.1.symm.trans h1, hd.2.symm.trans h2⟩)]
      exact ih

/-- A read of the register just written gives the word written. -/
theorem RegFile.get_set_self (f : RegFile) (r : RegName) (i : Nat) (v : Word) : (f.set r i v).get r i = v := by
  unfold RegFile.set
  split
  · next h => rw [RegFile.get_erase_self, h]
  · exact RegFile.get_insert_self _ ⟨r, i, v⟩ fun d hd => by
      simp only [RegFile.erase, List.mem_filter, Bool.not_eq_true', Bool.and_eq_false_iff, decide_eq_false_iff_not] at hd
      rintro ⟨h1, h2⟩
      rcases hd.2 with h | h
      · exact h h1
      · exact h h2

/-- A write leaves every other register alone. -/
theorem RegFile.get_set_other (f : RegFile) (r : RegName) (i : Nat) (v : Word) (r' : RegName) (i' : Nat)
    (h : ¬(r = r' ∧ i = i')) : (f.set r i v).get r' i' = f.get r' i' := by
  unfold RegFile.set
  split
  · exact RegFile.get_erase_other f r i r' i' h
  · rw [RegFile.get_insert_other _ ⟨r, i, v⟩ r' i' h, RegFile.get_erase_other f r i r' i' h]

/-! ## Word stores -/

theorem WMap.get_insert_self (m : WMap) (i : Nat) (v : Word) (h : ∀ c ∈ m, c.1 ≠ i) : (m.insert i v).get i = v := by
  induction m with
  | nil => simp [WMap.insert, WMap.get]
  | cons c m ih =>
    obtain ⟨k, w⟩ := c
    simp only [WMap.insert]
    split
    · simp [WMap.get]
    · simp only [WMap.get]
      rw [if_neg (h (k, w) (by simp))]
      exact ih fun e he => h e (by simp [he])

theorem WMap.get_insert_other (m : WMap) (i : Nat) (v : Word) (j : Nat) (h : i ≠ j) : (m.insert i v).get j = m.get j := by
  induction m with
  | nil => simp [WMap.insert, WMap.get, h]
  | cons c m ih =>
    obtain ⟨k, w⟩ := c
    simp only [WMap.insert]
    split
    · simp [WMap.get, h]
    · simp only [WMap.get, ih]

theorem WMap.get_erase_self (m : WMap) (i : Nat) : (m.erase i).get i = 0 := by
  induction m with
  | nil => simp [WMap.erase, WMap.get]
  | cons c m ih =>
    obtain ⟨k, w⟩ := c
    simp only [WMap.erase, List.filter_cons] at *
    split
    · next hk =>
      simp only [WMap.get]
      rw [if_neg (by simpa using hk)]
      exact ih
    · exact ih

theorem WMap.get_erase_other (m : WMap) (i j : Nat) (h : i ≠ j) : (m.erase i).get j = m.get j := by
  induction m with
  | nil => simp [WMap.erase, WMap.get]
  | cons c m ih =>
    obtain ⟨k, w⟩ := c
    simp only [WMap.erase, List.filter_cons] at *
    split
    · simp only [WMap.get, ih]
    · next hk =>
      simp only [Bool.not_eq_true, Bool.not_eq_false', decide_eq_true_eq] at hk
      simp only [WMap.get]
      rw [if_neg (by omega)]
      exact ih

/-- A read of the word just written gives the word written. -/
theorem WMap.get_set_self (m : WMap) (i : Nat) (v : Word) : (m.set i v).get i = v := by
  unfold WMap.set
  split
  · next h => rw [WMap.get_erase_self, h]
  · exact WMap.get_insert_self _ i v fun c hc => by
      simp only [WMap.erase, List.mem_filter, Bool.not_eq_true', decide_eq_false_iff_not] at hc
      exact hc.2

/-- A write leaves every other word alone. -/
theorem WMap.get_set_other (m : WMap) (i : Nat) (v : Word) (j : Nat) (h : i ≠ j) : (m.set i v).get j = m.get j := by
  unfold WMap.set
  split
  · exact WMap.get_erase_other m i j h
  · rw [WMap.get_insert_other _ i v j h, WMap.get_erase_other m i j h]

/-! ## Canonical form -/

/-- A list whose first key, if any, lies above a bound, of a word store. -/
def WMap.above (b : Nat) : WMap → Prop
  | [] => True
  | c :: _ => b < c.1

theorem WMap.rising_cons (c : Nat × Word) (m : WMap) : WMap.rising (c :: m) = true ↔ m.above c.1 ∧ WMap.rising m = true := by
  cases m with
  | nil => simp [WMap.rising, WMap.above]
  | cons d m => simp [WMap.rising, WMap.above]

theorem WMap.above_filter (p : Nat × Word → Bool) (b : Nat) (m : WMap) (h : WMap.rising m = true) (hb : m.above b) :
    WMap.above b (m.filter p) := by
  induction m generalizing b with
  | nil => trivial
  | cons c m ih =>
    obtain ⟨h1, h2⟩ := (WMap.rising_cons c m).1 h
    simp only [List.filter_cons]
    split
    · exact hb
    · refine ih b h2 ?_
      cases m with
      | nil => trivial
      | cons d m => exact Nat.lt_trans hb h1

theorem WMap.rising_filter (p : Nat × Word → Bool) (m : WMap) (h : WMap.rising m = true) : WMap.rising (m.filter p) = true := by
  induction m with
  | nil => rfl
  | cons c m ih =>
    obtain ⟨h1, h2⟩ := (WMap.rising_cons c m).1 h
    simp only [List.filter_cons]
    split
    · exact (WMap.rising_cons _ _).2 ⟨WMap.above_filter p c.1 m h2 h1, ih h2⟩
    · exact ih h2

theorem WMap.rising_insert (m : WMap) (i : Nat) (v : Word) (h : WMap.rising m = true) (hi : ∀ c ∈ m, c.1 ≠ i) :
    WMap.rising (m.insert i v) = true ∧ ∀ b, b < i → m.above b → WMap.above b (m.insert i v) := by
  induction m with
  | nil => exact ⟨rfl, fun b hb _ => hb⟩
  | cons c m ih =>
    obtain ⟨k, w⟩ := c
    obtain ⟨h1, h2⟩ := (WMap.rising_cons (k, w) m).1 h
    have ih' := ih h2 fun c hc => hi c (by simp [hc])
    simp only [WMap.insert]
    split
    · next hk => exact ⟨(WMap.rising_cons _ _).2 ⟨hk, h⟩, fun b hb _ => hb⟩
    · next hk =>
      have : k < i := by
        have := hi (k, w) (by simp)
        simp only at this
        omega
      exact ⟨(WMap.rising_cons _ _).2 ⟨ih'.2 k this h1, ih'.1⟩, fun b _ hm => hm⟩

theorem WMap.all_insert (p : Nat × Word → Bool) (m : WMap) (i : Nat) (v : Word) :
    (m.insert i v).all p = (p (i, v) && m.all p) := by
  induction m with
  | nil => simp [WMap.insert]
  | cons c m ih =>
    obtain ⟨k, w⟩ := c
    simp only [WMap.insert]
    split
    · simp
    · simp only [List.all_cons, ih]
      cases p (k, w) <;> cases p (i, v) <;> simp

/-- A write keeps the canonical form of a word store. -/
theorem WMap.wf_set (m : WMap) (i : Nat) (v : Word) (h : m.wf = true) : (m.set i v).wf = true := by
  simp only [WMap.wf, Bool.and_eq_true] at h ⊢
  have he : WMap.rising (m.erase i) = true := WMap.rising_filter _ m h.1
  have ha : (m.erase i).all (fun c => c.2 != 0) = true :=
    List.all_eq_true.2 fun c hc => List.all_eq_true.1 h.2 c (List.mem_filter.1 hc).1
  unfold WMap.set
  split
  · exact ⟨he, ha⟩
  · next hv =>
    have := WMap.rising_insert (m.erase i) i v he fun c hc => by
      simp only [WMap.erase, List.mem_filter, Bool.not_eq_true', decide_eq_false_iff_not] at hc
      exact hc.2
    refine ⟨this.1, ?_⟩
    rw [WMap.all_insert, ha, Bool.and_true]
    exact bne_iff_ne.2 hv

/-- Writing a list of words keeps the canonical form. -/
theorem WMap.wf_setMany (m : WMap) (i : Nat) (l : List Word) (h : m.wf = true) : (m.setMany i l).wf = true := by
  induction l generalizing m i with
  | nil => exact h
  | cons w ws ih => exact ih _ _ (WMap.wf_set m i w h)

/-- A word outside a list of words written is left alone. -/
theorem WMap.get_setMany_other (m : WMap) (i : Nat) (l : List Word) (j : Nat) (h : j < i ∨ i + l.length ≤ j) :
    (m.setMany i l).get j = m.get j := by
  induction l generalizing m i with
  | nil => rfl
  | cons w ws ih =>
    simp only [WMap.setMany, List.length_cons] at *
    rw [ih _ _ (by omega), WMap.get_set_other _ _ _ _ (by omega)]

/-- A word of a list of words written reads as written. -/
theorem WMap.get_setMany_self (m : WMap) (i : Nat) (l : List Word) (k : Nat) (h : k < l.length) :
    (m.setMany i l).get (i + k) = l[k] := by
  induction l generalizing m i k with
  | nil => simp at h
  | cons w ws ih =>
    simp only [WMap.setMany]
    cases k with
    | zero => rw [WMap.get_setMany_other _ _ _ _ (by omega), Nat.add_zero, WMap.get_set_self]; rfl
    | succ k =>
      have := ih (m.set i w) (i + 1) k (by simpa using h)
      rw [show i + (k + 1) = i + 1 + k by omega]
      simpa using this

/-- A list of registers whose first key, if any, lies above a key. -/
def RegFile.above (r : RegName) (i : Nat) : RegFile → Prop
  | [] => True
  | c :: _ => regKeyLt r i c.reg c.inst = true

theorem RegFile.rising_cons (c : RegCell) (f : RegFile) :
    RegFile.rising (c :: f) = true ↔ RegFile.above c.reg c.inst f ∧ RegFile.rising f = true := by
  cases f with
  | nil => simp [RegFile.rising, RegFile.above]
  | cons d f => simp [RegFile.rising, RegFile.above]

/-- The place of a name in the list of names tells names apart. -/
theorem regIndex_inj (r r' : RegName) (h : regIndex r = regIndex r') : r = r' := by
  have hk : ∀ (x y : RegName), x.ctorIdx = y.ctorIdx → x = y := by
    intro x y hxy
    have hx : RegName.ofNat x.ctorIdx = x := by cases x <;> rfl
    have hy : RegName.ofNat y.ctorIdx = y := by cases y <;> rfl
    rw [← hx, ← hy, hxy]
  exact hk r r' h

theorem regKeyLt_trans {r i r' i' r'' i''} (h : regKeyLt r i r' i' = true) (h' : regKeyLt r' i' r'' i'' = true) :
    regKeyLt r i r'' i'' = true := by
  simp only [regKeyLt, Bool.or_eq_true, Bool.and_eq_true, decide_eq_true_eq] at *
  rcases h with h | ⟨rfl, h⟩ <;> rcases h' with h' | ⟨rfl, h'⟩
  · exact .inl (h.trans h')
  · exact .inl h
  · exact .inl h'
  · exact .inr ⟨rfl, h.trans h'⟩

theorem regKeyLt_total {r i r' i'} (h : ¬(r = r' ∧ i = i')) (hl : ¬regKeyLt r i r' i' = true) : regKeyLt r' i' r i = true := by
  simp only [regKeyLt, Bool.or_eq_true, Bool.and_eq_true, decide_eq_true_eq, not_or, not_and] at *
  by_cases hr : r = r'
  · subst hr
    have := hl.2 rfl
    have := h rfl
    exact .inr ⟨rfl, by omega⟩
  · have hn : regIndex r ≠ regIndex r' := fun e => hr (regIndex_inj r r' e)
    exact .inl (by omega)

theorem RegFile.above_filter (p : RegCell → Bool) (r : RegName) (i : Nat) (f : RegFile) (h : RegFile.rising f = true)
    (hb : RegFile.above r i f) : RegFile.above r i (f.filter p) := by
  induction f generalizing r i with
  | nil => trivial
  | cons c f ih =>
    obtain ⟨h1, h2⟩ := (RegFile.rising_cons c f).1 h
    simp only [List.filter_cons]
    split
    · exact hb
    · refine ih r i h2 ?_
      cases f with
      | nil => trivial
      | cons d f => exact regKeyLt_trans hb h1

theorem RegFile.rising_filter (p : RegCell → Bool) (f : RegFile) (h : RegFile.rising f = true) :
    RegFile.rising (f.filter p) = true := by
  induction f with
  | nil => rfl
  | cons c f ih =>
    obtain ⟨h1, h2⟩ := (RegFile.rising_cons c f).1 h
    simp only [List.filter_cons]
    split
    · exact (RegFile.rising_cons _ _).2 ⟨RegFile.above_filter p c.reg c.inst f h2 h1, ih h2⟩
    · exact ih h2

theorem RegFile.rising_insert (f : RegFile) (c : RegCell) (h : RegFile.rising f = true)
    (hc : ∀ d ∈ f, ¬(d.reg = c.reg ∧ d.inst = c.inst)) :
    RegFile.rising (f.insert c) = true ∧
      ∀ r i, regKeyLt r i c.reg c.inst = true → RegFile.above r i f → RegFile.above r i (f.insert c) := by
  induction f with
  | nil => exact ⟨rfl, fun r i hb _ => hb⟩
  | cons d f ih =>
    obtain ⟨h1, h2⟩ := (RegFile.rising_cons d f).1 h
    have ih' := ih h2 fun e he => hc e (by simp [he])
    simp only [RegFile.insert]
    split
    · next hk => exact ⟨(RegFile.rising_cons _ _).2 ⟨hk, h⟩, fun r i hb _ => hb⟩
    · next hk =>
      have hd : regKeyLt d.reg d.inst c.reg c.inst = true :=
        regKeyLt_total (fun e => hc d (by simp) ⟨e.1.symm, e.2.symm⟩) hk
      exact ⟨(RegFile.rising_cons _ _).2 ⟨ih'.2 d.reg d.inst hd h1, ih'.1⟩, fun r i _ hm => hm⟩

theorem RegFile.all_insert (p : RegCell → Bool) (f : RegFile) (c : RegCell) : (f.insert c).all p = (p c && f.all p) := by
  induction f with
  | nil => simp [RegFile.insert]
  | cons d f ih =>
    simp only [RegFile.insert]
    split
    · simp
    · simp only [List.all_cons, ih]
      cases p d <;> cases p c <;> simp

/-- A write keeps the canonical form of the register file. -/
theorem RegFile.wf_set (f : RegFile) (r : RegName) (i : Nat) (v : Word) (h : f.wf = true) : (f.set r i v).wf = true := by
  simp only [RegFile.wf, Bool.and_eq_true] at h ⊢
  have he : RegFile.rising (f.erase r i) = true := RegFile.rising_filter _ f h.1
  have ha : (f.erase r i).all (fun c => c.val != resetWord c.reg c.inst) = true :=
    List.all_eq_true.2 fun c hc => List.all_eq_true.1 h.2 c (List.mem_filter.1 hc).1
  unfold RegFile.set
  split
  · exact ⟨he, ha⟩
  · next hv =>
    have := RegFile.rising_insert (f.erase r i) ⟨r, i, v⟩ he fun d hd => by
      simp only [RegFile.erase, List.mem_filter, Bool.not_eq_true', Bool.and_eq_false_iff, decide_eq_false_iff_not] at hd
      rintro ⟨h1, h2⟩
      rcases hd.2 with h | h
      · exact h h1
      · exact h h2
    refine ⟨this.1, ?_⟩
    rw [RegFile.all_insert, ha, Bool.and_true]
    exact bne_iff_ne.2 hv

/-! ## Fields of a word -/

/-- The bits of a word with a field replaced. -/
theorem getLsbD_putBits (w : Word) (lo width v k : Nat) (hk : k < 32) :
    (putBits w lo width v).getLsbD k =
      if lo ≤ k ∧ k < lo + width then v.testBit (k - lo) else w.getLsbD k := by
  unfold putBits maskBits
  simp only [BitVec.getLsbD_or, BitVec.getLsbD_and, BitVec.getLsbD_not, BitVec.getLsbD_ofNat, Nat.testBit_mul_two_pow,
    Nat.testBit_mod_two_pow, Nat.testBit_two_pow_sub_one, hk, decide_true, Bool.true_and]
  by_cases h1 : lo ≤ k
  · by_cases h2 : k - lo < width
    · have : k < lo + width := by omega
      simp [h1, h2, this]
    · have : ¬k < lo + width := by omega
      simp [h1, h2, this]
  · simp [h1]

/-- A field just replaced reads the value put there. -/
theorem getBits_putBits_self (w : Word) (lo width v : Nat) (h : lo + width ≤ 32) :
    getBits (putBits w lo width v) lo width = v % 2 ^ width := by
  apply Nat.eq_of_testBit_eq
  intro k
  simp only [getBits, BitVec.testBit_toNat, BitVec.getLsbD_extractLsb', Nat.testBit_mod_two_pow]
  by_cases hk : k < width
  · rw [getLsbD_putBits _ _ _ _ _ (by omega)]
    simp [hk]
  · simp [hk]

/-- Replacing a field leaves a field apart from it alone. -/
theorem getBits_putBits_other (w : Word) (lo width v lo' width' : Nat) (h : lo' + width' ≤ 32)
    (hd : lo' + width' ≤ lo ∨ lo + width ≤ lo') : getBits (putBits w lo width v) lo' width' = getBits w lo' width' := by
  apply Nat.eq_of_testBit_eq
  intro k
  simp only [getBits, BitVec.testBit_toNat, BitVec.getLsbD_extractLsb']
  by_cases hk : k < width'
  · rw [getLsbD_putBits _ _ _ _ _ (by omega), if_neg (by omega)]
  · simp [hk]

/-- A bit just set reads the value it was set to. -/
theorem bitOf_setBit_self (w : Word) (n : Nat) (b : Bool) (h : n < 32) : bitOf (setBit w n b) n = b := by
  unfold bitOf setBit
  rw [getLsbD_putBits _ _ _ _ _ h, if_pos (by omega)]
  cases b <;> simp

/-- Setting a bit leaves the others alone. -/
theorem bitOf_setBit_other (w : Word) (n m : Nat) (b : Bool) (hm : m < 32) (h : n ≠ m) :
    bitOf (setBit w n b) m = bitOf w m := by
  unfold bitOf setBit
  rw [getLsbD_putBits _ _ _ _ _ hm, if_neg (by omega)]

end Sys2Proof.Machine
end

