-- ==== Sys2Proof/Laws/Plipo.lean ====
section
/-! SUPPORT. Plipo frames: a frame built as Table 15.6 lays it out parses back. -/

namespace Sys2Proof.Machine

theorem shaRound_length (v : List Word) (k w : Word) : (shaRound v k w).length = v.length := by
  unfold shaRound; split <;> simp

theorem shaBlock_length (h block : List Word) : (shaBlock h block).length = h.length := by
  have : ∀ (l : List (Word × Word)) (v : List Word), (l.foldl (fun v (k, w) => shaRound v k w) v).length = v.length := by
    intro l
    induction l with
    | nil => intro v; rfl
    | cons p l ih => intro v; rw [List.foldl_cons, ih, shaRound_length]
  simp [shaBlock, this]

theorem shaBlocks_length (n : Nat) (h ws : List Word) : (shaBlocks n h ws).length = h.length := by
  induction n generalizing h ws with
  | zero => rfl
  | succ n ih =>
    cases ws with
    | nil => rfl
    | cons w ws => rw [shaBlocks, ih, shaBlock_length]; simp

@[simp] theorem beBytes_length (n v : Nat) : (beBytes n v).length = n := by simp [beBytes, bytesOf]

@[simp] theorem sha256Bytes_length (l : List Byte) : (sha256Bytes l).length = 32 := by
  simp [sha256Bytes, List.length_flatten, Function.comp_def, shaBlocks_length, shaInit]

@[simp] theorem hmac_length (key msg : List Byte) : (hmac key msg).length = 32 := by simp [hmac]

theorem beNat_beBytes_one {v : Nat} (h : v < 2 ^ 8) : beNat (beBytes 1 v) = v := by
  simp [beNat, beBytes, bytesOf, List.range_succ]; omega

theorem beNat_beBytes_two {v : Nat} (h : v < 2 ^ 16) : beNat (beBytes 2 v) = v := by
  simp [beNat, beBytes, bytesOf, List.range_succ]; omega

theorem beNat_beBytes_four {v : Nat} (h : v < 2 ^ 32) : beNat (beBytes 4 v) = v := by
  simp [beNat, beBytes, bytesOf, List.range_succ]; omega

/-- What a request signs (Table 15.6): SOF, flags with MAC, LEN, CMD, a zero byte, SEQ and the payload. -/
def requestHead (mac : Bool) (cmd seq : Nat) (p : List Byte) : List Byte :=
  beBytes 1 0xA7 ++ (beBytes 1 (0x10 + if mac then 4 else 0) ++ (beBytes 2 p.length ++ (beBytes 1 cmd ++ (beBytes 1 0 ++ (beBytes 2 seq ++ p)))))

/-- A request frame under a key, or without one. -/
def requestFrame (key : Option (List Byte)) (cmd seq : Nat) (p : List Byte) : List Byte :=
  let h := requestHead key.isSome cmd seq p
  let b := match key with | some k => h ++ (hmac k h).take 16 | none => h
  b ++ beBytes 4 (crc32 (b.map BitVec.toNat)).toNat

theorem field_mid (a x b : List Byte) : field (a ++ (x ++ b)) a.length x.length = beNat x := by simp [field]

theorem crc32_lt (l : List Nat) : (crc32 l).toNat < 2 ^ 32 := (crc32 l).isLt

theorem plipoParse_requestFrame (key : Option (List Byte)) (cmd seq : Nat) (p : List Byte) (hc : cmd < 256) (hs : seq < 65536)
    (hp : p.length ≤ 1024) :
    plipoParse (requestFrame key cmd seq p) = some ⟨cmd, seq, p, key.map fun k => (hmac k (requestHead true cmd seq p)).take 16,
      requestHead key.isSome cmd seq p⟩ := by
  generalize hm : (match key with | some k => (hmac k (requestHead true cmd seq p)).take 16 | none => []) = m
  have hml : m.length = if key.isSome then 16 else 0 := by
    subst hm; cases key <;> simp
  have hkm : key.map (fun k => (hmac k (requestHead true cmd seq p)).take 16) = if key.isSome then some m else none := by
    subst hm; cases key <;> rfl
  have hf : requestFrame key cmd seq p = (requestHead key.isSome cmd seq p ++ m) ++
      beBytes 4 (crc32 ((requestHead key.isSome cmd seq p ++ m).map BitVec.toNat)).toNat := by
    subst hm; cases key <;> simp [requestFrame]
  rw [hkm, hf]
  generalize hv : (crc32 ((requestHead key.isSome cmd seq p ++ m).map BitVec.toNat)).toNat = v
  have hvl : v < 2 ^ 32 := hv ▸ crc32_lt _
  generalize hb : (key.isSome : Bool) = b at *
  generalize hl : requestHead b cmd seq p ++ m ++ beBytes 4 v = l
  have hlen : l.length = 8 + p.length + m.length + 4 := by subst hl; simp [requestHead]; omega
  have e0 : field l 0 1 = 0xA7 := by
    subst hl; rw [requestHead]; simp only [List.append_assoc]
    exact (field_mid [] (beBytes 1 0xA7) _).trans (by decide)
  have e1 : field l 1 1 = 0x10 + if b then 4 else 0 := by
    subst hl; rw [requestHead]; simp only [List.append_assoc]
    have := field_mid (beBytes 1 0xA7) (beBytes 1 (0x10 + if b then 4 else 0)) (beBytes 2 p.length ++ (beBytes 1 cmd ++ (beBytes 1 0 ++ (beBytes 2 seq ++ (p ++ (m ++ beBytes 4 v))))))
    simp only [beBytes_length] at this
    rw [this]; cases b <;> decide
  have e2 : field l 2 2 = p.length := by
    subst hl; rw [requestHead]; simp only [List.append_assoc]
    have := field_mid (beBytes 1 0xA7 ++ beBytes 1 (0x10 + if b then 4 else 0)) (beBytes 2 p.length) (beBytes 1 cmd ++ (beBytes 1 0 ++ (beBytes 2 seq ++ (p ++ (m ++ beBytes 4 v)))))
    simp only [beBytes_length, List.length_append, List.append_assoc] at this
    rw [this, beNat_beBytes_two (by omega)]
  have e4 : field l 4 1 = cmd := by
    subst hl; rw [requestHead]; simp only [List.append_assoc]
    have := field_mid (beBytes 1 0xA7 ++ beBytes 1 (0x10 + if b then 4 else 0) ++ beBytes 2 p.length) (beBytes 1 cmd) (beBytes 1 0 ++ (beBytes 2 seq ++ (p ++ (m ++ beBytes 4 v))))
    simp only [beBytes_length, List.length_append, List.append_assoc] at this
    rw [this, beNat_beBytes_one (by omega)]
  have e6 : field l 6 2 = seq := by
    subst hl; rw [requestHead]; simp only [List.append_assoc]
    have := field_mid (beBytes 1 0xA7 ++ beBytes 1 (0x10 + if b then 4 else 0) ++ beBytes 2 p.length ++ beBytes 1 cmd ++ beBytes 1 0) (beBytes 2 seq) (p ++ (m ++ beBytes 4 v))
    simp only [beBytes_length, List.length_append, List.append_assoc] at this
    rw [this, beNat_beBytes_two (by omega)]
  have hh : (requestHead b cmd seq p).length = 8 + p.length := by simp [requestHead]; omega
  have ec : field l (l.length - 4) 4 = v := by
    subst hl
    have := field_mid (requestHead b cmd seq p ++ m) (beBytes 4 v) []
    simp only [List.append_nil, beBytes_length] at this
    rw [show (requestHead b cmd seq p ++ m ++ beBytes 4 v).length - 4 = (requestHead b cmd seq p ++ m).length by simp; omega, this,
      beNat_beBytes_four hvl]
  have hbody : l.take (l.length - 4) = requestHead b cmd seq p ++ m := by
    subst hl; rw [show (requestHead b cmd seq p ++ m ++ beBytes 4 v).length - 4 = (requestHead b cmd seq p ++ m).length by simp; omega]
    exact List.take_left' rfl
  have hmac1 : plipoMac l = b := by
    subst hl; rw [requestHead]; cases b <;> simp [plipoMac, beBytes, bytesOf, List.range_succ]
  have hsize : l.length = plipoSize l := by
    rw [plipoSize, plipoLen, e2, hmac1, hlen, hml]; cases b <;> simp <;> omega
  have hd8 : (l.drop 8).take p.length = p := by
    have : l = (beBytes 1 0xA7 ++ beBytes 1 (0x10 + if b then 4 else 0) ++ beBytes 2 p.length ++ beBytes 1 cmd ++ beBytes 1 0 ++ beBytes 2 seq) ++ (p ++ (m ++ beBytes 4 v)) := by
      subst hl; simp [requestHead]
    rw [this, List.drop_left' (by simp)]; simp
  have hdm : (l.drop (8 + p.length)).take 16 = (m ++ beBytes 4 v).take 16 := by
    subst hl; rw [List.append_assoc, List.drop_left' hh]
  have hsig : l.take (8 + p.length) = requestHead b cmd seq p := by
    subst hl; rw [List.append_assoc, List.take_left' hh]
  have hcrc : (crc32 ((l.take (l.length - 4)).map BitVec.toNat)).toNat = v := by rw [hbody, ← hv]
  simp only [plipoParse, plipoLen, e0, e1, e2, e4, e6, ec, hcrc, hmac1, hd8, hdm, hsig, ← hsize]
  rw [if_neg (by cases b <;> simp <;> omega)]
  cases b with
  | false => rfl
  | true =>
    have : m.length = 16 := by simpa using hml
    simp [this]

/-- A request that a frame carries. -/
def requestOf (key : Option (List Byte)) (cmd seq : Nat) (p : List Byte) : PlipoReq :=
  ⟨cmd, seq, p, key.map fun k => (hmac k (requestHead true cmd seq p)).take 16, requestHead key.isSome cmd seq p⟩

theorem State.accepted_requestFrame (s : State) (x : Session) (c : Nat) (p : List Byte) (h1 : s.mgmtRuns = true)
    (h2 : s.svcServes = true) (h3 : s.svc.session = some x) (h4 : x.lane = false) (hc : c < 256) (hp : p.length ≤ 1024) :
    s.accepted (requestFrame (some x.key) c ((x.seq + 1) % 65536) p) (requestOf (some x.key) c ((x.seq + 1) % 65536) p) x c :=
  ⟨h1, h2, plipoParse_requestFrame _ _ _ _ hc (by omega) hp, rfl, h3, h4, rfl, rfl, by simp only [requestOf]; omega⟩

end Sys2Proof.Machine
end

