-- ==== Sys2Proof/Laws/State.lean ====
section
/-! SUPPORT. Beside State: what every named update leaves of every field and accessor, so that no later proof unfolds a
record update; and the read of an instance after a write of it. -/

namespace Sys2Proof.Machine

/-! ## State.setReg -/

@[simp] theorem State.setReg_pending (s : State) (r : RegName) (i : Nat) (v : Word) : (s.setReg r i v).pending = s.pending := rfl
@[simp] theorem State.setReg_count (s : State) (r : RegName) (i : Nat) (v : Word) : (s.setReg r i v).count = s.count := rfl
@[simp] theorem State.setReg_elapsed (s : State) (r : RegName) (i : Nat) (v : Word) : (s.setReg r i v).elapsed = s.elapsed := rfl
@[simp] theorem State.setReg_windows (s : State) (r : RegName) (i : Nat) (v : Word) : (s.setReg r i v).windows = s.windows := rfl
@[simp] theorem State.setReg_raises (s : State) (r : RegName) (i : Nat) (v : Word) : (s.setReg r i v).raises = s.raises := rfl
@[simp] theorem State.setReg_sticks (s : State) (r : RegName) (i : Nat) (v : Word) : (s.setReg r i v).sticks = s.sticks := rfl
@[simp] theorem State.setReg_lapses (s : State) (r : RegName) (i : Nat) (v : Word) : (s.setReg r i v).lapses = s.lapses := rfl
@[simp] theorem State.setReg_sync (s : State) (r : RegName) (i : Nat) (v : Word) : (s.setReg r i v).sync = s.sync := rfl
@[simp] theorem State.setReg_syncDue (s : State) (r : RegName) (i : Nat) (v : Word) : (s.setReg r i v).syncDue = s.syncDue := rfl
@[simp] theorem State.setReg_syncStamp (s : State) (r : RegName) (i : Nat) (v : Word) : (s.setReg r i v).syncStamp = s.syncStamp := rfl
@[simp] theorem State.setReg_trigs (s : State) (r : RegName) (i : Nat) (v : Word) : (s.setReg r i v).trigs = s.trigs := rfl
@[simp] theorem State.setReg_hwRel (s : State) (r : RegName) (i : Nat) (v : Word) : (s.setReg r i v).hwRel = s.hwRel := rfl
@[simp] theorem State.setReg_sched (s : State) (r : RegName) (i : Nat) (v : Word) : (s.setReg r i v).sched = s.sched := rfl
@[simp] theorem State.setReg_acceptSeq (s : State) (r : RegName) (i : Nat) (v : Word) : (s.setReg r i v).acceptSeq = s.acceptSeq := rfl
@[simp] theorem State.setReg_stepped (s : State) (r : RegName) (i : Nat) (v : Word) : (s.setReg r i v).stepped = s.stepped := rfl
@[simp] theorem State.setReg_heldWrites (s : State) (r : RegName) (i : Nat) (v : Word) : (s.setReg r i v).heldWrites = s.heldWrites := rfl
@[simp] theorem State.setReg_refs (s : State) (r : RegName) (i : Nat) (v : Word) : (s.setReg r i v).refs = s.refs := rfl
@[simp] theorem State.setReg_anchors (s : State) (r : RegName) (i : Nat) (v : Word) : (s.setReg r i v).anchors = s.anchors := rfl
@[simp] theorem State.setReg_primary (s : State) (r : RegName) (i : Nat) (v : Word) : (s.setReg r i v).primary = s.primary := rfl
@[simp] theorem State.setReg_primaryAt (s : State) (r : RegName) (i : Nat) (v : Word) : (s.setReg r i v).primaryAt = s.primaryAt := rfl
@[simp] theorem State.setReg_initDone (s : State) (r : RegName) (i : Nat) (v : Word) : (s.setReg r i v).initDone = s.initDone := rfl
@[simp] theorem State.setReg_alignRun (s : State) (r : RegName) (i : Nat) (v : Word) : (s.setReg r i v).alignRun = s.alignRun := rfl
@[simp] theorem State.setReg_alignOver (s : State) (r : RegName) (i : Nat) (v : Word) : (s.setReg r i v).alignOver = s.alignOver := rfl
@[simp] theorem State.setReg_ancEventAt (s : State) (r : RegName) (i : Nat) (v : Word) : (s.setReg r i v).ancEventAt = s.ancEventAt := rfl
@[simp] theorem State.setReg_xferStamp (s : State) (r : RegName) (i : Nat) (v : Word) : (s.setReg r i v).xferStamp = s.xferStamp := rfl
@[simp] theorem State.setReg_transfer (s : State) (r : RegName) (i : Nat) (v : Word) : (s.setReg r i v).transfer = s.transfer := rfl
@[simp] theorem State.setReg_later (s : State) (r : RegName) (i : Nat) (v : Word) : (s.setReg r i v).later = s.later := rfl
@[simp] theorem State.setReg_cores (s : State) (r : RegName) (i : Nat) (v : Word) : (s.setReg r i v).cores = s.cores := rfl
@[simp] theorem State.setReg_outs (s : State) (r : RegName) (i : Nat) (v : Word) : (s.setReg r i v).outs = s.outs := rfl
@[simp] theorem State.setReg_ras (s : State) (r : RegName) (i : Nat) (v : Word) : (s.setReg r i v).ras = s.ras := rfl
@[simp] theorem State.setReg_stations (s : State) (r : RegName) (i : Nat) (v : Word) : (s.setReg r i v).stations = s.stations := rfl
@[simp] theorem State.setReg_pgm (s : State) (r : RegName) (i : Nat) (v : Word) : (s.setReg r i v).pgm = s.pgm := rfl
@[simp] theorem State.setReg_profs (s : State) (r : RegName) (i : Nat) (v : Word) : (s.setReg r i v).profs = s.profs := rfl
@[simp] theorem State.setReg_shadows (s : State) (r : RegName) (i : Nat) (v : Word) : (s.setReg r i v).shadows = s.shadows := rfl
@[simp] theorem State.setReg_check (s : State) (r : RegName) (i : Nat) (v : Word) : (s.setReg r i v).check = s.check := rfl
@[simp] theorem State.setReg_statPins (s : State) (r : RegName) (i : Nat) (v : Word) : (s.setReg r i v).statPins = s.statPins := rfl
@[simp] theorem State.setReg_lanes (s : State) (r : RegName) (i : Nat) (v : Word) : (s.setReg r i v).lanes = s.lanes := rfl
@[simp] theorem State.setReg_lng (s : State) (r : RegName) (i : Nat) (v : Word) : (s.setReg r i v).lng = s.lng := rfl
@[simp] theorem State.setReg_fleet (s : State) (r : RegName) (i : Nat) (v : Word) : (s.setReg r i v).fleet = s.fleet := rfl
@[simp] theorem State.setReg_spareRows (s : State) (r : RegName) (i : Nat) (v : Word) : (s.setReg r i v).spareRows = s.spareRows := rfl
@[simp] theorem State.setReg_fencedEntries (s : State) (r : RegName) (i : Nat) (v : Word) : (s.setReg r i v).fencedEntries = s.fencedEntries := rfl
@[simp] theorem State.setReg_refills (s : State) (r : RegName) (i : Nat) (v : Word) : (s.setReg r i v).refills = s.refills := rfl
@[simp] theorem State.setReg_cal (s : State) (r : RegName) (i : Nat) (v : Word) : (s.setReg r i v).cal = s.cal := rfl
@[simp] theorem State.setReg_mon (s : State) (r : RegName) (i : Nat) (v : Word) : (s.setReg r i v).mon = s.mon := rfl
@[simp] theorem State.setReg_bar (s : State) (r : RegName) (i : Nat) (v : Word) : (s.setReg r i v).bar = s.bar := rfl
@[simp] theorem State.setReg_flash (s : State) (r : RegName) (i : Nat) (v : Word) : (s.setReg r i v).flash = s.flash := rfl
@[simp] theorem State.setReg_otp (s : State) (r : RegName) (i : Nat) (v : Word) : (s.setReg r i v).otp = s.otp := rfl
@[simp] theorem State.setReg_store (s : State) (r : RegName) (i : Nat) (v : Word) : (s.setReg r i v).store = s.store := rfl
@[simp] theorem State.setReg_boot (s : State) (r : RegName) (i : Nat) (v : Word) : (s.setReg r i v).boot = s.boot := rfl
@[simp] theorem State.setReg_svc (s : State) (r : RegName) (i : Nat) (v : Word) : (s.setReg r i v).svc = s.svc := rfl
@[simp] theorem State.setReg_hspi (s : State) (r : RegName) (i : Nat) (v : Word) : (s.setReg r i v).hspi = s.hspi := rfl
@[simp] theorem State.setReg_mbx (s : State) (r : RegName) (i : Nat) (v : Word) : (s.setReg r i v).mbx = s.mbx := rfl
@[simp] theorem State.setReg_pins (s : State) (r : RegName) (i : Nat) (v : Word) : (s.setReg r i v).pins = s.pins := rfl
@[simp] theorem State.setReg_powering (s : State) (r : RegName) (i : Nat) (v : Word) : (s.setReg r i v).powering = s.powering := rfl
@[simp] theorem State.setReg_reloads (s : State) (r : RegName) (i : Nat) (v : Word) : (s.setReg r i v).reloads = s.reloads := rfl
@[simp] theorem State.setReg_readData (s : State) (r : RegName) (i : Nat) (v : Word) : (s.setReg r i v).readData = s.readData := rfl
@[simp] theorem State.setReg_halted (s : State) (r : RegName) (i : Nat) (v : Word) : (s.setReg r i v).halted = s.halted := rfl
@[simp] theorem State.setReg_calVals (s : State) (r : RegName) (i : Nat) (v : Word) : (s.setReg r i v).calVals = s.calVals := rfl
@[simp] theorem State.setReg_at_core (s : State) (r : RegName) (i : Nat) (v : Word) (m : Nat) : (s.setReg r i v).core m = s.core m := rfl
@[simp] theorem State.setReg_at_out (s : State) (r : RegName) (i : Nat) (v : Word) (m : Nat) : (s.setReg r i v).out m = s.out m := rfl
@[simp] theorem State.setReg_at_anc (s : State) (r : RegName) (i : Nat) (v : Word) (m : Nat) : (s.setReg r i v).anc m = s.anc m := rfl
@[simp] theorem State.setReg_at_ref (s : State) (r : RegName) (i : Nat) (v : Word) (m : Nat) : (s.setReg r i v).ref m = s.ref m := rfl
@[simp] theorem State.setReg_at_rasCh (s : State) (r : RegName) (i : Nat) (v : Word) (m : Nat) : (s.setReg r i v).rasCh m = s.rasCh m := rfl
@[simp] theorem State.setReg_at_stn (s : State) (r : RegName) (i : Nat) (v : Word) (m : Nat) : (s.setReg r i v).stn m = s.stn m := rfl
@[simp] theorem State.setReg_at_slotSt (s : State) (r : RegName) (i : Nat) (v : Word) (m k0 : Nat) : (s.setReg r i v).slotSt m k0 = s.slotSt m k0 := rfl
@[simp] theorem State.setReg_at_win (s : State) (r : RegName) (i : Nat) (v : Word) (m : Nat) : (s.setReg r i v).win m = s.win m := rfl
@[simp] theorem State.setReg_at_trig (s : State) (r : RegName) (i : Nat) (v : Word) (m : Nat) : (s.setReg r i v).trig m = s.trig m := rfl
@[simp] theorem State.setReg_at_lane (s : State) (r : RegName) (i : Nat) (v : Word) (m : Nat) : (s.setReg r i v).lane m = s.lane m := rfl
@[simp] theorem State.setReg_at_grp (s : State) (r : RegName) (i : Nat) (v : Word) (m : Nat) : (s.setReg r i v).grp m = s.grp m := rfl
@[simp] theorem State.setReg_at_now (s : State) (r : RegName) (i : Nat) (v : Word) : (s.setReg r i v).now  = s.now := rfl

/-! ## State.setFld -/

@[simp] theorem State.setFld_pending (s : State) (f : Field) (i v : Nat) : (s.setFld f i v).pending = s.pending := rfl
@[simp] theorem State.setFld_count (s : State) (f : Field) (i v : Nat) : (s.setFld f i v).count = s.count := rfl
@[simp] theorem State.setFld_elapsed (s : State) (f : Field) (i v : Nat) : (s.setFld f i v).elapsed = s.elapsed := rfl
@[simp] theorem State.setFld_windows (s : State) (f : Field) (i v : Nat) : (s.setFld f i v).windows = s.windows := rfl
@[simp] theorem State.setFld_raises (s : State) (f : Field) (i v : Nat) : (s.setFld f i v).raises = s.raises := rfl
@[simp] theorem State.setFld_sticks (s : State) (f : Field) (i v : Nat) : (s.setFld f i v).sticks = s.sticks := rfl
@[simp] theorem State.setFld_lapses (s : State) (f : Field) (i v : Nat) : (s.setFld f i v).lapses = s.lapses := rfl
@[simp] theorem State.setFld_sync (s : State) (f : Field) (i v : Nat) : (s.setFld f i v).sync = s.sync := rfl
@[simp] theorem State.setFld_syncDue (s : State) (f : Field) (i v : Nat) : (s.setFld f i v).syncDue = s.syncDue := rfl
@[simp] theorem State.setFld_syncStamp (s : State) (f : Field) (i v : Nat) : (s.setFld f i v).syncStamp = s.syncStamp := rfl
@[simp] theorem State.setFld_trigs (s : State) (f : Field) (i v : Nat) : (s.setFld f i v).trigs = s.trigs := rfl
@[simp] theorem State.setFld_hwRel (s : State) (f : Field) (i v : Nat) : (s.setFld f i v).hwRel = s.hwRel := rfl
@[simp] theorem State.setFld_sched (s : State) (f : Field) (i v : Nat) : (s.setFld f i v).sched = s.sched := rfl
@[simp] theorem State.setFld_acceptSeq (s : State) (f : Field) (i v : Nat) : (s.setFld f i v).acceptSeq = s.acceptSeq := rfl
@[simp] theorem State.setFld_stepped (s : State) (f : Field) (i v : Nat) : (s.setFld f i v).stepped = s.stepped := rfl
@[simp] theorem State.setFld_heldWrites (s : State) (f : Field) (i v : Nat) : (s.setFld f i v).heldWrites = s.heldWrites := rfl
@[simp] theorem State.setFld_refs (s : State) (f : Field) (i v : Nat) : (s.setFld f i v).refs = s.refs := rfl
@[simp] theorem State.setFld_anchors (s : State) (f : Field) (i v : Nat) : (s.setFld f i v).anchors = s.anchors := rfl
@[simp] theorem State.setFld_primary (s : State) (f : Field) (i v : Nat) : (s.setFld f i v).primary = s.primary := rfl
@[simp] theorem State.setFld_primaryAt (s : State) (f : Field) (i v : Nat) : (s.setFld f i v).primaryAt = s.primaryAt := rfl
@[simp] theorem State.setFld_initDone (s : State) (f : Field) (i v : Nat) : (s.setFld f i v).initDone = s.initDone := rfl
@[simp] theorem State.setFld_alignRun (s : State) (f : Field) (i v : Nat) : (s.setFld f i v).alignRun = s.alignRun := rfl
@[simp] theorem State.setFld_alignOver (s : State) (f : Field) (i v : Nat) : (s.setFld f i v).alignOver = s.alignOver := rfl
@[simp] theorem State.setFld_ancEventAt (s : State) (f : Field) (i v : Nat) : (s.setFld f i v).ancEventAt = s.ancEventAt := rfl
@[simp] theorem State.setFld_xferStamp (s : State) (f : Field) (i v : Nat) : (s.setFld f i v).xferStamp = s.xferStamp := rfl
@[simp] theorem State.setFld_transfer (s : State) (f : Field) (i v : Nat) : (s.setFld f i v).transfer = s.transfer := rfl
@[simp] theorem State.setFld_later (s : State) (f : Field) (i v : Nat) : (s.setFld f i v).later = s.later := rfl
@[simp] theorem State.setFld_cores (s : State) (f : Field) (i v : Nat) : (s.setFld f i v).cores = s.cores := rfl
@[simp] theorem State.setFld_outs (s : State) (f : Field) (i v : Nat) : (s.setFld f i v).outs = s.outs := rfl
@[simp] theorem State.setFld_ras (s : State) (f : Field) (i v : Nat) : (s.setFld f i v).ras = s.ras := rfl
@[simp] theorem State.setFld_stations (s : State) (f : Field) (i v : Nat) : (s.setFld f i v).stations = s.stations := rfl
@[simp] theorem State.setFld_pgm (s : State) (f : Field) (i v : Nat) : (s.setFld f i v).pgm = s.pgm := rfl
@[simp] theorem State.setFld_profs (s : State) (f : Field) (i v : Nat) : (s.setFld f i v).profs = s.profs := rfl
@[simp] theorem State.setFld_shadows (s : State) (f : Field) (i v : Nat) : (s.setFld f i v).shadows = s.shadows := rfl
@[simp] theorem State.setFld_check (s : State) (f : Field) (i v : Nat) : (s.setFld f i v).check = s.check := rfl
@[simp] theorem State.setFld_statPins (s : State) (f : Field) (i v : Nat) : (s.setFld f i v).statPins = s.statPins := rfl
@[simp] theorem State.setFld_lanes (s : State) (f : Field) (i v : Nat) : (s.setFld f i v).lanes = s.lanes := rfl
@[simp] theorem State.setFld_lng (s : State) (f : Field) (i v : Nat) : (s.setFld f i v).lng = s.lng := rfl
@[simp] theorem State.setFld_fleet (s : State) (f : Field) (i v : Nat) : (s.setFld f i v).fleet = s.fleet := rfl
@[simp] theorem State.setFld_spareRows (s : State) (f : Field) (i v : Nat) : (s.setFld f i v).spareRows = s.spareRows := rfl
@[simp] theorem State.setFld_fencedEntries (s : State) (f : Field) (i v : Nat) : (s.setFld f i v).fencedEntries = s.fencedEntries := rfl
@[simp] theorem State.setFld_refills (s : State) (f : Field) (i v : Nat) : (s.setFld f i v).refills = s.refills := rfl
@[simp] theorem State.setFld_cal (s : State) (f : Field) (i v : Nat) : (s.setFld f i v).cal = s.cal := rfl
@[simp] theorem State.setFld_mon (s : State) (f : Field) (i v : Nat) : (s.setFld f i v).mon = s.mon := rfl
@[simp] theorem State.setFld_bar (s : State) (f : Field) (i v : Nat) : (s.setFld f i v).bar = s.bar := rfl
@[simp] theorem State.setFld_flash (s : State) (f : Field) (i v : Nat) : (s.setFld f i v).flash = s.flash := rfl
@[simp] theorem State.setFld_otp (s : State) (f : Field) (i v : Nat) : (s.setFld f i v).otp = s.otp := rfl
@[simp] theorem State.setFld_store (s : State) (f : Field) (i v : Nat) : (s.setFld f i v).store = s.store := rfl
@[simp] theorem State.setFld_boot (s : State) (f : Field) (i v : Nat) : (s.setFld f i v).boot = s.boot := rfl
@[simp] theorem State.setFld_svc (s : State) (f : Field) (i v : Nat) : (s.setFld f i v).svc = s.svc := rfl
@[simp] theorem State.setFld_hspi (s : State) (f : Field) (i v : Nat) : (s.setFld f i v).hspi = s.hspi := rfl
@[simp] theorem State.setFld_mbx (s : State) (f : Field) (i v : Nat) : (s.setFld f i v).mbx = s.mbx := rfl
@[simp] theorem State.setFld_pins (s : State) (f : Field) (i v : Nat) : (s.setFld f i v).pins = s.pins := rfl
@[simp] theorem State.setFld_powering (s : State) (f : Field) (i v : Nat) : (s.setFld f i v).powering = s.powering := rfl
@[simp] theorem State.setFld_reloads (s : State) (f : Field) (i v : Nat) : (s.setFld f i v).reloads = s.reloads := rfl
@[simp] theorem State.setFld_readData (s : State) (f : Field) (i v : Nat) : (s.setFld f i v).readData = s.readData := rfl
@[simp] theorem State.setFld_halted (s : State) (f : Field) (i v : Nat) : (s.setFld f i v).halted = s.halted := rfl
@[simp] theorem State.setFld_calVals (s : State) (f : Field) (i v : Nat) : (s.setFld f i v).calVals = s.calVals := rfl
@[simp] theorem State.setFld_at_core (s : State) (f : Field) (i v : Nat) (m : Nat) : (s.setFld f i v).core m = s.core m := rfl
@[simp] theorem State.setFld_at_out (s : State) (f : Field) (i v : Nat) (m : Nat) : (s.setFld f i v).out m = s.out m := rfl
@[simp] theorem State.setFld_at_anc (s : State) (f : Field) (i v : Nat) (m : Nat) : (s.setFld f i v).anc m = s.anc m := rfl
@[simp] theorem State.setFld_at_ref (s : State) (f : Field) (i v : Nat) (m : Nat) : (s.setFld f i v).ref m = s.ref m := rfl
@[simp] theorem State.setFld_at_rasCh (s : State) (f : Field) (i v : Nat) (m : Nat) : (s.setFld f i v).rasCh m = s.rasCh m := rfl
@[simp] theorem State.setFld_at_stn (s : State) (f : Field) (i v : Nat) (m : Nat) : (s.setFld f i v).stn m = s.stn m := rfl
@[simp] theorem State.setFld_at_slotSt (s : State) (f : Field) (i v : Nat) (m k0 : Nat) : (s.setFld f i v).slotSt m k0 = s.slotSt m k0 := rfl
@[simp] theorem State.setFld_at_win (s : State) (f : Field) (i v : Nat) (m : Nat) : (s.setFld f i v).win m = s.win m := rfl
@[simp] theorem State.setFld_at_trig (s : State) (f : Field) (i v : Nat) (m : Nat) : (s.setFld f i v).trig m = s.trig m := rfl
@[simp] theorem State.setFld_at_lane (s : State) (f : Field) (i v : Nat) (m : Nat) : (s.setFld f i v).lane m = s.lane m := rfl
@[simp] theorem State.setFld_at_grp (s : State) (f : Field) (i v : Nat) (m : Nat) : (s.setFld f i v).grp m = s.grp m := rfl
@[simp] theorem State.setFld_at_now (s : State) (f : Field) (i v : Nat) : (s.setFld f i v).now  = s.now := rfl

/-! ## State.bump -/

@[simp] theorem State.bump_pending (s : State) (f : Field) (i k : Nat) : (s.bump f i k).pending = s.pending := rfl
@[simp] theorem State.bump_count (s : State) (f : Field) (i k : Nat) : (s.bump f i k).count = s.count := rfl
@[simp] theorem State.bump_elapsed (s : State) (f : Field) (i k : Nat) : (s.bump f i k).elapsed = s.elapsed := rfl
@[simp] theorem State.bump_windows (s : State) (f : Field) (i k : Nat) : (s.bump f i k).windows = s.windows := rfl
@[simp] theorem State.bump_raises (s : State) (f : Field) (i k : Nat) : (s.bump f i k).raises = s.raises := rfl
@[simp] theorem State.bump_sticks (s : State) (f : Field) (i k : Nat) : (s.bump f i k).sticks = s.sticks := rfl
@[simp] theorem State.bump_lapses (s : State) (f : Field) (i k : Nat) : (s.bump f i k).lapses = s.lapses := rfl
@[simp] theorem State.bump_sync (s : State) (f : Field) (i k : Nat) : (s.bump f i k).sync = s.sync := rfl
@[simp] theorem State.bump_syncDue (s : State) (f : Field) (i k : Nat) : (s.bump f i k).syncDue = s.syncDue := rfl
@[simp] theorem State.bump_syncStamp (s : State) (f : Field) (i k : Nat) : (s.bump f i k).syncStamp = s.syncStamp := rfl
@[simp] theorem State.bump_trigs (s : State) (f : Field) (i k : Nat) : (s.bump f i k).trigs = s.trigs := rfl
@[simp] theorem State.bump_hwRel (s : State) (f : Field) (i k : Nat) : (s.bump f i k).hwRel = s.hwRel := rfl
@[simp] theorem State.bump_sched (s : State) (f : Field) (i k : Nat) : (s.bump f i k).sched = s.sched := rfl
@[simp] theorem State.bump_acceptSeq (s : State) (f : Field) (i k : Nat) : (s.bump f i k).acceptSeq = s.acceptSeq := rfl
@[simp] theorem State.bump_stepped (s : State) (f : Field) (i k : Nat) : (s.bump f i k).stepped = s.stepped := rfl
@[simp] theorem State.bump_heldWrites (s : State) (f : Field) (i k : Nat) : (s.bump f i k).heldWrites = s.heldWrites := rfl
@[simp] theorem State.bump_refs (s : State) (f : Field) (i k : Nat) : (s.bump f i k).refs = s.refs := rfl
@[simp] theorem State.bump_anchors (s : State) (f : Field) (i k : Nat) : (s.bump f i k).anchors = s.anchors := rfl
@[simp] theorem State.bump_primary (s : State) (f : Field) (i k : Nat) : (s.bump f i k).primary = s.primary := rfl
@[simp] theorem State.bump_primaryAt (s : State) (f : Field) (i k : Nat) : (s.bump f i k).primaryAt = s.primaryAt := rfl
@[simp] theorem State.bump_initDone (s : State) (f : Field) (i k : Nat) : (s.bump f i k).initDone = s.initDone := rfl
@[simp] theorem State.bump_alignRun (s : State) (f : Field) (i k : Nat) : (s.bump f i k).alignRun = s.alignRun := rfl
@[simp] theorem State.bump_alignOver (s : State) (f : Field) (i k : Nat) : (s.bump f i k).alignOver = s.alignOver := rfl
@[simp] theorem State.bump_ancEventAt (s : State) (f : Field) (i k : Nat) : (s.bump f i k).ancEventAt = s.ancEventAt := rfl
@[simp] theorem State.bump_xferStamp (s : State) (f : Field) (i k : Nat) : (s.bump f i k).xferStamp = s.xferStamp := rfl
@[simp] theorem State.bump_transfer (s : State) (f : Field) (i k : Nat) : (s.bump f i k).transfer = s.transfer := rfl
@[simp] theorem State.bump_later (s : State) (f : Field) (i k : Nat) : (s.bump f i k).later = s.later := rfl
@[simp] theorem State.bump_cores (s : State) (f : Field) (i k : Nat) : (s.bump f i k).cores = s.cores := rfl
@[simp] theorem State.bump_outs (s : State) (f : Field) (i k : Nat) : (s.bump f i k).outs = s.outs := rfl
@[simp] theorem State.bump_ras (s : State) (f : Field) (i k : Nat) : (s.bump f i k).ras = s.ras := rfl
@[simp] theorem State.bump_stations (s : State) (f : Field) (i k : Nat) : (s.bump f i k).stations = s.stations := rfl
@[simp] theorem State.bump_pgm (s : State) (f : Field) (i k : Nat) : (s.bump f i k).pgm = s.pgm := rfl
@[simp] theorem State.bump_profs (s : State) (f : Field) (i k : Nat) : (s.bump f i k).profs = s.profs := rfl
@[simp] theorem State.bump_shadows (s : State) (f : Field) (i k : Nat) : (s.bump f i k).shadows = s.shadows := rfl
@[simp] theorem State.bump_check (s : State) (f : Field) (i k : Nat) : (s.bump f i k).check = s.check := rfl
@[simp] theorem State.bump_statPins (s : State) (f : Field) (i k : Nat) : (s.bump f i k).statPins = s.statPins := rfl
@[simp] theorem State.bump_lanes (s : State) (f : Field) (i k : Nat) : (s.bump f i k).lanes = s.lanes := rfl
@[simp] theorem State.bump_lng (s : State) (f : Field) (i k : Nat) : (s.bump f i k).lng = s.lng := rfl
@[simp] theorem State.bump_fleet (s : State) (f : Field) (i k : Nat) : (s.bump f i k).fleet = s.fleet := rfl
@[simp] theorem State.bump_spareRows (s : State) (f : Field) (i k : Nat) : (s.bump f i k).spareRows = s.spareRows := rfl
@[simp] theorem State.bump_fencedEntries (s : State) (f : Field) (i k : Nat) : (s.bump f i k).fencedEntries = s.fencedEntries := rfl
@[simp] theorem State.bump_refills (s : State) (f : Field) (i k : Nat) : (s.bump f i k).refills = s.refills := rfl
@[simp] theorem State.bump_cal (s : State) (f : Field) (i k : Nat) : (s.bump f i k).cal = s.cal := rfl
@[simp] theorem State.bump_mon (s : State) (f : Field) (i k : Nat) : (s.bump f i k).mon = s.mon := rfl
@[simp] theorem State.bump_bar (s : State) (f : Field) (i k : Nat) : (s.bump f i k).bar = s.bar := rfl
@[simp] theorem State.bump_flash (s : State) (f : Field) (i k : Nat) : (s.bump f i k).flash = s.flash := rfl
@[simp] theorem State.bump_otp (s : State) (f : Field) (i k : Nat) : (s.bump f i k).otp = s.otp := rfl
@[simp] theorem State.bump_store (s : State) (f : Field) (i k : Nat) : (s.bump f i k).store = s.store := rfl
@[simp] theorem State.bump_boot (s : State) (f : Field) (i k : Nat) : (s.bump f i k).boot = s.boot := rfl
@[simp] theorem State.bump_svc (s : State) (f : Field) (i k : Nat) : (s.bump f i k).svc = s.svc := rfl
@[simp] theorem State.bump_hspi (s : State) (f : Field) (i k : Nat) : (s.bump f i k).hspi = s.hspi := rfl
@[simp] theorem State.bump_mbx (s : State) (f : Field) (i k : Nat) : (s.bump f i k).mbx = s.mbx := rfl
@[simp] theorem State.bump_pins (s : State) (f : Field) (i k : Nat) : (s.bump f i k).pins = s.pins := rfl
@[simp] theorem State.bump_powering (s : State) (f : Field) (i k : Nat) : (s.bump f i k).powering = s.powering := rfl
@[simp] theorem State.bump_reloads (s : State) (f : Field) (i k : Nat) : (s.bump f i k).reloads = s.reloads := rfl
@[simp] theorem State.bump_readData (s : State) (f : Field) (i k : Nat) : (s.bump f i k).readData = s.readData := rfl
@[simp] theorem State.bump_halted (s : State) (f : Field) (i k : Nat) : (s.bump f i k).halted = s.halted := rfl
@[simp] theorem State.bump_calVals (s : State) (f : Field) (i k : Nat) : (s.bump f i k).calVals = s.calVals := rfl
@[simp] theorem State.bump_at_core (s : State) (f : Field) (i k : Nat) (m : Nat) : (s.bump f i k).core m = s.core m := rfl
@[simp] theorem State.bump_at_out (s : State) (f : Field) (i k : Nat) (m : Nat) : (s.bump f i k).out m = s.out m := rfl
@[simp] theorem State.bump_at_anc (s : State) (f : Field) (i k : Nat) (m : Nat) : (s.bump f i k).anc m = s.anc m := rfl
@[simp] theorem State.bump_at_ref (s : State) (f : Field) (i k : Nat) (m : Nat) : (s.bump f i k).ref m = s.ref m := rfl
@[simp] theorem State.bump_at_rasCh (s : State) (f : Field) (i k : Nat) (m : Nat) : (s.bump f i k).rasCh m = s.rasCh m := rfl
@[simp] theorem State.bump_at_stn (s : State) (f : Field) (i k : Nat) (m : Nat) : (s.bump f i k).stn m = s.stn m := rfl
@[simp] theorem State.bump_at_slotSt (s : State) (f : Field) (i k : Nat) (m k0 : Nat) : (s.bump f i k).slotSt m k0 = s.slotSt m k0 := rfl
@[simp] theorem State.bump_at_win (s : State) (f : Field) (i k : Nat) (m : Nat) : (s.bump f i k).win m = s.win m := rfl
@[simp] theorem State.bump_at_trig (s : State) (f : Field) (i k : Nat) (m : Nat) : (s.bump f i k).trig m = s.trig m := rfl
@[simp] theorem State.bump_at_lane (s : State) (f : Field) (i k : Nat) (m : Nat) : (s.bump f i k).lane m = s.lane m := rfl
@[simp] theorem State.bump_at_grp (s : State) (f : Field) (i k : Nat) (m : Nat) : (s.bump f i k).grp m = s.grp m := rfl
@[simp] theorem State.bump_at_now (s : State) (f : Field) (i k : Nat) : (s.bump f i k).now  = s.now := rfl

/-! ## State.stick -/

@[simp] theorem State.stick_pending (s : State) (f : Field) (i : Nat) : (s.stick f i).pending = s.pending := rfl
@[simp] theorem State.stick_count (s : State) (f : Field) (i : Nat) : (s.stick f i).count = s.count := rfl
@[simp] theorem State.stick_elapsed (s : State) (f : Field) (i : Nat) : (s.stick f i).elapsed = s.elapsed := rfl
@[simp] theorem State.stick_windows (s : State) (f : Field) (i : Nat) : (s.stick f i).windows = s.windows := rfl
@[simp] theorem State.stick_raises (s : State) (f : Field) (i : Nat) : (s.stick f i).raises = s.raises := rfl
@[simp] theorem State.stick_lapses (s : State) (f : Field) (i : Nat) : (s.stick f i).lapses = s.lapses := rfl
@[simp] theorem State.stick_sync (s : State) (f : Field) (i : Nat) : (s.stick f i).sync = s.sync := rfl
@[simp] theorem State.stick_syncDue (s : State) (f : Field) (i : Nat) : (s.stick f i).syncDue = s.syncDue := rfl
@[simp] theorem State.stick_syncStamp (s : State) (f : Field) (i : Nat) : (s.stick f i).syncStamp = s.syncStamp := rfl
@[simp] theorem State.stick_trigs (s : State) (f : Field) (i : Nat) : (s.stick f i).trigs = s.trigs := rfl
@[simp] theorem State.stick_hwRel (s : State) (f : Field) (i : Nat) : (s.stick f i).hwRel = s.hwRel := rfl
@[simp] theorem State.stick_sched (s : State) (f : Field) (i : Nat) : (s.stick f i).sched = s.sched := rfl
@[simp] theorem State.stick_acceptSeq (s : State) (f : Field) (i : Nat) : (s.stick f i).acceptSeq = s.acceptSeq := rfl
@[simp] theorem State.stick_stepped (s : State) (f : Field) (i : Nat) : (s.stick f i).stepped = s.stepped := rfl
@[simp] theorem State.stick_heldWrites (s : State) (f : Field) (i : Nat) : (s.stick f i).heldWrites = s.heldWrites := rfl
@[simp] theorem State.stick_refs (s : State) (f : Field) (i : Nat) : (s.stick f i).refs = s.refs := rfl
@[simp] theorem State.stick_anchors (s : State) (f : Field) (i : Nat) : (s.stick f i).anchors = s.anchors := rfl
@[simp] theorem State.stick_primary (s : State) (f : Field) (i : Nat) : (s.stick f i).primary = s.primary := rfl
@[simp] theorem State.stick_primaryAt (s : State) (f : Field) (i : Nat) : (s.stick f i).primaryAt = s.primaryAt := rfl
@[simp] theorem State.stick_initDone (s : State) (f : Field) (i : Nat) : (s.stick f i).initDone = s.initDone := rfl
@[simp] theorem State.stick_alignRun (s : State) (f : Field) (i : Nat) : (s.stick f i).alignRun = s.alignRun := rfl
@[simp] theorem State.stick_alignOver (s : State) (f : Field) (i : Nat) : (s.stick f i).alignOver = s.alignOver := rfl
@[simp] theorem State.stick_ancEventAt (s : State) (f : Field) (i : Nat) : (s.stick f i).ancEventAt = s.ancEventAt := rfl
@[simp] theorem State.stick_xferStamp (s : State) (f : Field) (i : Nat) : (s.stick f i).xferStamp = s.xferStamp := rfl
@[simp] theorem State.stick_transfer (s : State) (f : Field) (i : Nat) : (s.stick f i).transfer = s.transfer := rfl
@[simp] theorem State.stick_later (s : State) (f : Field) (i : Nat) : (s.stick f i).later = s.later := rfl
@[simp] theorem State.stick_cores (s : State) (f : Field) (i : Nat) : (s.stick f i).cores = s.cores := rfl
@[simp] theorem State.stick_outs (s : State) (f : Field) (i : Nat) : (s.stick f i).outs = s.outs := rfl
@[simp] theorem State.stick_ras (s : State) (f : Field) (i : Nat) : (s.stick f i).ras = s.ras := rfl
@[simp] theorem State.stick_stations (s : State) (f : Field) (i : Nat) : (s.stick f i).stations = s.stations := rfl
@[simp] theorem State.stick_pgm (s : State) (f : Field) (i : Nat) : (s.stick f i).pgm = s.pgm := rfl
@[simp] theorem State.stick_profs (s : State) (f : Field) (i : Nat) : (s.stick f i).profs = s.profs := rfl
@[simp] theorem State.stick_shadows (s : State) (f : Field) (i : Nat) : (s.stick f i).shadows = s.shadows := rfl
@[simp] theorem State.stick_check (s : State) (f : Field) (i : Nat) : (s.stick f i).check = s.check := rfl
@[simp] theorem State.stick_statPins (s : State) (f : Field) (i : Nat) : (s.stick f i).statPins = s.statPins := rfl
@[simp] theorem State.stick_lanes (s : State) (f : Field) (i : Nat) : (s.stick f i).lanes = s.lanes := rfl
@[simp] theorem State.stick_lng (s : State) (f : Field) (i : Nat) : (s.stick f i).lng = s.lng := rfl
@[simp] theorem State.stick_fleet (s : State) (f : Field) (i : Nat) : (s.stick f i).fleet = s.fleet := rfl
@[simp] theorem State.stick_spareRows (s : State) (f : Field) (i : Nat) : (s.stick f i).spareRows = s.spareRows := rfl
@[simp] theorem State.stick_fencedEntries (s : State) (f : Field) (i : Nat) : (s.stick f i).fencedEntries = s.fencedEntries := rfl
@[simp] theorem State.stick_refills (s : State) (f : Field) (i : Nat) : (s.stick f i).refills = s.refills := rfl
@[simp] theorem State.stick_cal (s : State) (f : Field) (i : Nat) : (s.stick f i).cal = s.cal := rfl
@[simp] theorem State.stick_mon (s : State) (f : Field) (i : Nat) : (s.stick f i).mon = s.mon := rfl
@[simp] theorem State.stick_bar (s : State) (f : Field) (i : Nat) : (s.stick f i).bar = s.bar := rfl
@[simp] theorem State.stick_flash (s : State) (f : Field) (i : Nat) : (s.stick f i).flash = s.flash := rfl
@[simp] theorem State.stick_otp (s : State) (f : Field) (i : Nat) : (s.stick f i).otp = s.otp := rfl
@[simp] theorem State.stick_store (s : State) (f : Field) (i : Nat) : (s.stick f i).store = s.store := rfl
@[simp] theorem State.stick_boot (s : State) (f : Field) (i : Nat) : (s.stick f i).boot = s.boot := rfl
@[simp] theorem State.stick_svc (s : State) (f : Field) (i : Nat) : (s.stick f i).svc = s.svc := rfl
@[simp] theorem State.stick_hspi (s : State) (f : Field) (i : Nat) : (s.stick f i).hspi = s.hspi := rfl
@[simp] theorem State.stick_mbx (s : State) (f : Field) (i : Nat) : (s.stick f i).mbx = s.mbx := rfl
@[simp] theorem State.stick_pins (s : State) (f : Field) (i : Nat) : (s.stick f i).pins = s.pins := rfl
@[simp] theorem State.stick_powering (s : State) (f : Field) (i : Nat) : (s.stick f i).powering = s.powering := rfl
@[simp] theorem State.stick_reloads (s : State) (f : Field) (i : Nat) : (s.stick f i).reloads = s.reloads := rfl
@[simp] theorem State.stick_readData (s : State) (f : Field) (i : Nat) : (s.stick f i).readData = s.readData := rfl
@[simp] theorem State.stick_halted (s : State) (f : Field) (i : Nat) : (s.stick f i).halted = s.halted := rfl
@[simp] theorem State.stick_calVals (s : State) (f : Field) (i : Nat) : (s.stick f i).calVals = s.calVals := rfl
@[simp] theorem State.stick_at_core (s : State) (f : Field) (i : Nat) (m : Nat) : (s.stick f i).core m = s.core m := rfl
@[simp] theorem State.stick_at_out (s : State) (f : Field) (i : Nat) (m : Nat) : (s.stick f i).out m = s.out m := rfl
@[simp] theorem State.stick_at_anc (s : State) (f : Field) (i : Nat) (m : Nat) : (s.stick f i).anc m = s.anc m := rfl
@[simp] theorem State.stick_at_ref (s : State) (f : Field) (i : Nat) (m : Nat) : (s.stick f i).ref m = s.ref m := rfl
@[simp] theorem State.stick_at_rasCh (s : State) (f : Field) (i : Nat) (m : Nat) : (s.stick f i).rasCh m = s.rasCh m := rfl
@[simp] theorem State.stick_at_stn (s : State) (f : Field) (i : Nat) (m : Nat) : (s.stick f i).stn m = s.stn m := rfl
@[simp] theorem State.stick_at_slotSt (s : State) (f : Field) (i : Nat) (m k0 : Nat) : (s.stick f i).slotSt m k0 = s.slotSt m k0 := rfl
@[simp] theorem State.stick_at_win (s : State) (f : Field) (i : Nat) (m : Nat) : (s.stick f i).win m = s.win m := rfl
@[simp] theorem State.stick_at_trig (s : State) (f : Field) (i : Nat) (m : Nat) : (s.stick f i).trig m = s.trig m := rfl
@[simp] theorem State.stick_at_lane (s : State) (f : Field) (i : Nat) (m : Nat) : (s.stick f i).lane m = s.lane m := rfl
@[simp] theorem State.stick_at_grp (s : State) (f : Field) (i : Nat) (m : Nat) : (s.stick f i).grp m = s.grp m := rfl
@[simp] theorem State.stick_at_now (s : State) (f : Field) (i : Nat) : (s.stick f i).now  = s.now := rfl

/-! ## State.setCore -/

@[simp] theorem State.setCore_pending (s : State) (n : Nat) (x : Core) : (s.setCore n x).pending = s.pending := rfl
@[simp] theorem State.setCore_count (s : State) (n : Nat) (x : Core) : (s.setCore n x).count = s.count := rfl
@[simp] theorem State.setCore_elapsed (s : State) (n : Nat) (x : Core) : (s.setCore n x).elapsed = s.elapsed := rfl
@[simp] theorem State.setCore_regs (s : State) (n : Nat) (x : Core) : (s.setCore n x).regs = s.regs := rfl
@[simp] theorem State.setCore_windows (s : State) (n : Nat) (x : Core) : (s.setCore n x).windows = s.windows := rfl
@[simp] theorem State.setCore_raises (s : State) (n : Nat) (x : Core) : (s.setCore n x).raises = s.raises := rfl
@[simp] theorem State.setCore_sticks (s : State) (n : Nat) (x : Core) : (s.setCore n x).sticks = s.sticks := rfl
@[simp] theorem State.setCore_lapses (s : State) (n : Nat) (x : Core) : (s.setCore n x).lapses = s.lapses := rfl
@[simp] theorem State.setCore_sync (s : State) (n : Nat) (x : Core) : (s.setCore n x).sync = s.sync := rfl
@[simp] theorem State.setCore_syncDue (s : State) (n : Nat) (x : Core) : (s.setCore n x).syncDue = s.syncDue := rfl
@[simp] theorem State.setCore_syncStamp (s : State) (n : Nat) (x : Core) : (s.setCore n x).syncStamp = s.syncStamp := rfl
@[simp] theorem State.setCore_trigs (s : State) (n : Nat) (x : Core) : (s.setCore n x).trigs = s.trigs := rfl
@[simp] theorem State.setCore_hwRel (s : State) (n : Nat) (x : Core) : (s.setCore n x).hwRel = s.hwRel := rfl
@[simp] theorem State.setCore_sched (s : State) (n : Nat) (x : Core) : (s.setCore n x).sched = s.sched := rfl
@[simp] theorem State.setCore_acceptSeq (s : State) (n : Nat) (x : Core) : (s.setCore n x).acceptSeq = s.acceptSeq := rfl
@[simp] theorem State.setCore_stepped (s : State) (n : Nat) (x : Core) : (s.setCore n x).stepped = s.stepped := rfl
@[simp] theorem State.setCore_heldWrites (s : State) (n : Nat) (x : Core) : (s.setCore n x).heldWrites = s.heldWrites := rfl
@[simp] theorem State.setCore_refs (s : State) (n : Nat) (x : Core) : (s.setCore n x).refs = s.refs := rfl
@[simp] theorem State.setCore_anchors (s : State) (n : Nat) (x : Core) : (s.setCore n x).anchors = s.anchors := rfl
@[simp] theorem State.setCore_primary (s : State) (n : Nat) (x : Core) : (s.setCore n x).primary = s.primary := rfl
@[simp] theorem State.setCore_primaryAt (s : State) (n : Nat) (x : Core) : (s.setCore n x).primaryAt = s.primaryAt := rfl
@[simp] theorem State.setCore_initDone (s : State) (n : Nat) (x : Core) : (s.setCore n x).initDone = s.initDone := rfl
@[simp] theorem State.setCore_alignRun (s : State) (n : Nat) (x : Core) : (s.setCore n x).alignRun = s.alignRun := rfl
@[simp] theorem State.setCore_alignOver (s : State) (n : Nat) (x : Core) : (s.setCore n x).alignOver = s.alignOver := rfl
@[simp] theorem State.setCore_ancEventAt (s : State) (n : Nat) (x : Core) : (s.setCore n x).ancEventAt = s.ancEventAt := rfl
@[simp] theorem State.setCore_xferStamp (s : State) (n : Nat) (x : Core) : (s.setCore n x).xferStamp = s.xferStamp := rfl
@[simp] theorem State.setCore_transfer (s : State) (n : Nat) (x : Core) : (s.setCore n x).transfer = s.transfer := rfl
@[simp] theorem State.setCore_later (s : State) (n : Nat) (x : Core) : (s.setCore n x).later = s.later := rfl
@[simp] theorem State.setCore_outs (s : State) (n : Nat) (x : Core) : (s.setCore n x).outs = s.outs := rfl
@[simp] theorem State.setCore_ras (s : State) (n : Nat) (x : Core) : (s.setCore n x).ras = s.ras := rfl
@[simp] theorem State.setCore_stations (s : State) (n : Nat) (x : Core) : (s.setCore n x).stations = s.stations := rfl
@[simp] theorem State.setCore_pgm (s : State) (n : Nat) (x : Core) : (s.setCore n x).pgm = s.pgm := rfl
@[simp] theorem State.setCore_profs (s : State) (n : Nat) (x : Core) : (s.setCore n x).profs = s.profs := rfl
@[simp] theorem State.setCore_shadows (s : State) (n : Nat) (x : Core) : (s.setCore n x).shadows = s.shadows := rfl
@[simp] theorem State.setCore_check (s : State) (n : Nat) (x : Core) : (s.setCore n x).check = s.check := rfl
@[simp] theorem State.setCore_statPins (s : State) (n : Nat) (x : Core) : (s.setCore n x).statPins = s.statPins := rfl
@[simp] theorem State.setCore_lanes (s : State) (n : Nat) (x : Core) : (s.setCore n x).lanes = s.lanes := rfl
@[simp] theorem State.setCore_lng (s : State) (n : Nat) (x : Core) : (s.setCore n x).lng = s.lng := rfl
@[simp] theorem State.setCore_fleet (s : State) (n : Nat) (x : Core) : (s.setCore n x).fleet = s.fleet := rfl
@[simp] theorem State.setCore_spareRows (s : State) (n : Nat) (x : Core) : (s.setCore n x).spareRows = s.spareRows := rfl
@[simp] theorem State.setCore_fencedEntries (s : State) (n : Nat) (x : Core) : (s.setCore n x).fencedEntries = s.fencedEntries := rfl
@[simp] theorem State.setCore_refills (s : State) (n : Nat) (x : Core) : (s.setCore n x).refills = s.refills := rfl
@[simp] theorem State.setCore_cal (s : State) (n : Nat) (x : Core) : (s.setCore n x).cal = s.cal := rfl
@[simp] theorem State.setCore_mon (s : State) (n : Nat) (x : Core) : (s.setCore n x).mon = s.mon := rfl
@[simp] theorem State.setCore_bar (s : State) (n : Nat) (x : Core) : (s.setCore n x).bar = s.bar := rfl
@[simp] theorem State.setCore_flash (s : State) (n : Nat) (x : Core) : (s.setCore n x).flash = s.flash := rfl
@[simp] theorem State.setCore_otp (s : State) (n : Nat) (x : Core) : (s.setCore n x).otp = s.otp := rfl
@[simp] theorem State.setCore_store (s : State) (n : Nat) (x : Core) : (s.setCore n x).store = s.store := rfl
@[simp] theorem State.setCore_boot (s : State) (n : Nat) (x : Core) : (s.setCore n x).boot = s.boot := rfl
@[simp] theorem State.setCore_svc (s : State) (n : Nat) (x : Core) : (s.setCore n x).svc = s.svc := rfl
@[simp] theorem State.setCore_hspi (s : State) (n : Nat) (x : Core) : (s.setCore n x).hspi = s.hspi := rfl
@[simp] theorem State.setCore_mbx (s : State) (n : Nat) (x : Core) : (s.setCore n x).mbx = s.mbx := rfl
@[simp] theorem State.setCore_pins (s : State) (n : Nat) (x : Core) : (s.setCore n x).pins = s.pins := rfl
@[simp] theorem State.setCore_powering (s : State) (n : Nat) (x : Core) : (s.setCore n x).powering = s.powering := rfl
@[simp] theorem State.setCore_reloads (s : State) (n : Nat) (x : Core) : (s.setCore n x).reloads = s.reloads := rfl
@[simp] theorem State.setCore_readData (s : State) (n : Nat) (x : Core) : (s.setCore n x).readData = s.readData := rfl
@[simp] theorem State.setCore_halted (s : State) (n : Nat) (x : Core) : (s.setCore n x).halted = s.halted := rfl
@[simp] theorem State.setCore_calVals (s : State) (n : Nat) (x : Core) : (s.setCore n x).calVals = s.calVals := rfl
@[simp] theorem State.setCore_at_reg (s : State) (n : Nat) (x : Core) (r0 : RegName) (i0 : Nat) : (s.setCore n x).reg r0 i0 = s.reg r0 i0 := rfl
@[simp] theorem State.setCore_at_fld (s : State) (n : Nat) (x : Core) (f0 : Field) (i0 : Nat) : (s.setCore n x).fld f0 i0 = s.fld f0 i0 := rfl
@[simp] theorem State.setCore_at_flag (s : State) (n : Nat) (x : Core) (f0 : Field) (i0 : Nat) : (s.setCore n x).flag f0 i0 = s.flag f0 i0 := rfl
@[simp] theorem State.setCore_at_out (s : State) (n : Nat) (x : Core) (m : Nat) : (s.setCore n x).out m = s.out m := rfl
@[simp] theorem State.setCore_at_anc (s : State) (n : Nat) (x : Core) (m : Nat) : (s.setCore n x).anc m = s.anc m := rfl
@[simp] theorem State.setCore_at_ref (s : State) (n : Nat) (x : Core) (m : Nat) : (s.setCore n x).ref m = s.ref m := rfl
@[simp] theorem State.setCore_at_rasCh (s : State) (n : Nat) (x : Core) (m : Nat) : (s.setCore n x).rasCh m = s.rasCh m := rfl
@[simp] theorem State.setCore_at_stn (s : State) (n : Nat) (x : Core) (m : Nat) : (s.setCore n x).stn m = s.stn m := rfl
@[simp] theorem State.setCore_at_slotSt (s : State) (n : Nat) (x : Core) (m k0 : Nat) : (s.setCore n x).slotSt m k0 = s.slotSt m k0 := rfl
@[simp] theorem State.setCore_at_win (s : State) (n : Nat) (x : Core) (m : Nat) : (s.setCore n x).win m = s.win m := rfl
@[simp] theorem State.setCore_at_trig (s : State) (n : Nat) (x : Core) (m : Nat) : (s.setCore n x).trig m = s.trig m := rfl
@[simp] theorem State.setCore_at_lane (s : State) (n : Nat) (x : Core) (m : Nat) : (s.setCore n x).lane m = s.lane m := rfl
@[simp] theorem State.setCore_at_grp (s : State) (n : Nat) (x : Core) (m : Nat) : (s.setCore n x).grp m = s.grp m := rfl
@[simp] theorem State.setCore_at_now (s : State) (n : Nat) (x : Core) : (s.setCore n x).now  = s.now := rfl
@[simp] theorem State.setCore_at_power (s : State) (n : Nat) (x : Core) : (s.setCore n x).power  = s.power := rfl
@[simp] theorem State.setCore_at_active (s : State) (n : Nat) (x : Core) : (s.setCore n x).active  = s.active := rfl
@[simp] theorem State.setCore_at_up (s : State) (n : Nat) (x : Core) : (s.setCore n x).up  = s.up := rfl

/-! ## State.modCore -/

@[simp] theorem State.modCore_pending (s : State) (n : Nat) (f : Core → Core) : (s.modCore n f).pending = s.pending := rfl
@[simp] theorem State.modCore_count (s : State) (n : Nat) (f : Core → Core) : (s.modCore n f).count = s.count := rfl
@[simp] theorem State.modCore_elapsed (s : State) (n : Nat) (f : Core → Core) : (s.modCore n f).elapsed = s.elapsed := rfl
@[simp] theorem State.modCore_regs (s : State) (n : Nat) (f : Core → Core) : (s.modCore n f).regs = s.regs := rfl
@[simp] theorem State.modCore_windows (s : State) (n : Nat) (f : Core → Core) : (s.modCore n f).windows = s.windows := rfl
@[simp] theorem State.modCore_raises (s : State) (n : Nat) (f : Core → Core) : (s.modCore n f).raises = s.raises := rfl
@[simp] theorem State.modCore_sticks (s : State) (n : Nat) (f : Core → Core) : (s.modCore n f).sticks = s.sticks := rfl
@[simp] theorem State.modCore_lapses (s : State) (n : Nat) (f : Core → Core) : (s.modCore n f).lapses = s.lapses := rfl
@[simp] theorem State.modCore_sync (s : State) (n : Nat) (f : Core → Core) : (s.modCore n f).sync = s.sync := rfl
@[simp] theorem State.modCore_syncDue (s : State) (n : Nat) (f : Core → Core) : (s.modCore n f).syncDue = s.syncDue := rfl
@[simp] theorem State.modCore_syncStamp (s : State) (n : Nat) (f : Core → Core) : (s.modCore n f).syncStamp = s.syncStamp := rfl
@[simp] theorem State.modCore_trigs (s : State) (n : Nat) (f : Core → Core) : (s.modCore n f).trigs = s.trigs := rfl
@[simp] theorem State.modCore_hwRel (s : State) (n : Nat) (f : Core → Core) : (s.modCore n f).hwRel = s.hwRel := rfl
@[simp] theorem State.modCore_sched (s : State) (n : Nat) (f : Core → Core) : (s.modCore n f).sched = s.sched := rfl
@[simp] theorem State.modCore_acceptSeq (s : State) (n : Nat) (f : Core → Core) : (s.modCore n f).acceptSeq = s.acceptSeq := rfl
@[simp] theorem State.modCore_stepped (s : State) (n : Nat) (f : Core → Core) : (s.modCore n f).stepped = s.stepped := rfl
@[simp] theorem State.modCore_heldWrites (s : State) (n : Nat) (f : Core → Core) : (s.modCore n f).heldWrites = s.heldWrites := rfl
@[simp] theorem State.modCore_refs (s : State) (n : Nat) (f : Core → Core) : (s.modCore n f).refs = s.refs := rfl
@[simp] theorem State.modCore_anchors (s : State) (n : Nat) (f : Core → Core) : (s.modCore n f).anchors = s.anchors := rfl
@[simp] theorem State.modCore_primary (s : State) (n : Nat) (f : Core → Core) : (s.modCore n f).primary = s.primary := rfl
@[simp] theorem State.modCore_primaryAt (s : State) (n : Nat) (f : Core → Core) : (s.modCore n f).primaryAt = s.primaryAt := rfl
@[simp] theorem State.modCore_initDone (s : State) (n : Nat) (f : Core → Core) : (s.modCore n f).initDone = s.initDone := rfl
@[simp] theorem State.modCore_alignRun (s : State) (n : Nat) (f : Core → Core) : (s.modCore n f).alignRun = s.alignRun := rfl
@[simp] theorem State.modCore_alignOver (s : State) (n : Nat) (f : Core → Core) : (s.modCore n f).alignOver = s.alignOver := rfl
@[simp] theorem State.modCore_ancEventAt (s : State) (n : Nat) (f : Core → Core) : (s.modCore n f).ancEventAt = s.ancEventAt := rfl
@[simp] theorem State.modCore_xferStamp (s : State) (n : Nat) (f : Core → Core) : (s.modCore n f).xferStamp = s.xferStamp := rfl
@[simp] theorem State.modCore_transfer (s : State) (n : Nat) (f : Core → Core) : (s.modCore n f).transfer = s.transfer := rfl
@[simp] theorem State.modCore_later (s : State) (n : Nat) (f : Core → Core) : (s.modCore n f).later = s.later := rfl
@[simp] theorem State.modCore_outs (s : State) (n : Nat) (f : Core → Core) : (s.modCore n f).outs = s.outs := rfl
@[simp] theorem State.modCore_ras (s : State) (n : Nat) (f : Core → Core) : (s.modCore n f).ras = s.ras := rfl
@[simp] theorem State.modCore_stations (s : State) (n : Nat) (f : Core → Core) : (s.modCore n f).stations = s.stations := rfl
@[simp] theorem State.modCore_pgm (s : State) (n : Nat) (f : Core → Core) : (s.modCore n f).pgm = s.pgm := rfl
@[simp] theorem State.modCore_profs (s : State) (n : Nat) (f : Core → Core) : (s.modCore n f).profs = s.profs := rfl
@[simp] theorem State.modCore_shadows (s : State) (n : Nat) (f : Core → Core) : (s.modCore n f).shadows = s.shadows := rfl
@[simp] theorem State.modCore_check (s : State) (n : Nat) (f : Core → Core) : (s.modCore n f).check = s.check := rfl
@[simp] theorem State.modCore_statPins (s : State) (n : Nat) (f : Core → Core) : (s.modCore n f).statPins = s.statPins := rfl
@[simp] theorem State.modCore_lanes (s : State) (n : Nat) (f : Core → Core) : (s.modCore n f).lanes = s.lanes := rfl
@[simp] theorem State.modCore_lng (s : State) (n : Nat) (f : Core → Core) : (s.modCore n f).lng = s.lng := rfl
@[simp] theorem State.modCore_fleet (s : State) (n : Nat) (f : Core → Core) : (s.modCore n f).fleet = s.fleet := rfl
@[simp] theorem State.modCore_spareRows (s : State) (n : Nat) (f : Core → Core) : (s.modCore n f).spareRows = s.spareRows := rfl
@[simp] theorem State.modCore_fencedEntries (s : State) (n : Nat) (f : Core → Core) : (s.modCore n f).fencedEntries = s.fencedEntries := rfl
@[simp] theorem State.modCore_refills (s : State) (n : Nat) (f : Core → Core) : (s.modCore n f).refills = s.refills := rfl
@[simp] theorem State.modCore_cal (s : State) (n : Nat) (f : Core → Core) : (s.modCore n f).cal = s.cal := rfl
@[simp] theorem State.modCore_mon (s : State) (n : Nat) (f : Core → Core) : (s.modCore n f).mon = s.mon := rfl
@[simp] theorem State.modCore_bar (s : State) (n : Nat) (f : Core → Core) : (s.modCore n f).bar = s.bar := rfl
@[simp] theorem State.modCore_flash (s : State) (n : Nat) (f : Core → Core) : (s.modCore n f).flash = s.flash := rfl
@[simp] theorem State.modCore_otp (s : State) (n : Nat) (f : Core → Core) : (s.modCore n f).otp = s.otp := rfl
@[simp] theorem State.modCore_store (s : State) (n : Nat) (f : Core → Core) : (s.modCore n f).store = s.store := rfl
@[simp] theorem State.modCore_boot (s : State) (n : Nat) (f : Core → Core) : (s.modCore n f).boot = s.boot := rfl
@[simp] theorem State.modCore_svc (s : State) (n : Nat) (f : Core → Core) : (s.modCore n f).svc = s.svc := rfl
@[simp] theorem State.modCore_hspi (s : State) (n : Nat) (f : Core → Core) : (s.modCore n f).hspi = s.hspi := rfl
@[simp] theorem State.modCore_mbx (s : State) (n : Nat) (f : Core → Core) : (s.modCore n f).mbx = s.mbx := rfl
@[simp] theorem State.modCore_pins (s : State) (n : Nat) (f : Core → Core) : (s.modCore n f).pins = s.pins := rfl
@[simp] theorem State.modCore_powering (s : State) (n : Nat) (f : Core → Core) : (s.modCore n f).powering = s.powering := rfl
@[simp] theorem State.modCore_reloads (s : State) (n : Nat) (f : Core → Core) : (s.modCore n f).reloads = s.reloads := rfl
@[simp] theorem State.modCore_readData (s : State) (n : Nat) (f : Core → Core) : (s.modCore n f).readData = s.readData := rfl
@[simp] theorem State.modCore_halted (s : State) (n : Nat) (f : Core → Core) : (s.modCore n f).halted = s.halted := rfl
@[simp] theorem State.modCore_calVals (s : State) (n : Nat) (f : Core → Core) : (s.modCore n f).calVals = s.calVals := rfl
@[simp] theorem State.modCore_at_reg (s : State) (n : Nat) (f : Core → Core) (r0 : RegName) (i0 : Nat) : (s.modCore n f).reg r0 i0 = s.reg r0 i0 := rfl
@[simp] theorem State.modCore_at_fld (s : State) (n : Nat) (f : Core → Core) (f0 : Field) (i0 : Nat) : (s.modCore n f).fld f0 i0 = s.fld f0 i0 := rfl
@[simp] theorem State.modCore_at_flag (s : State) (n : Nat) (f : Core → Core) (f0 : Field) (i0 : Nat) : (s.modCore n f).flag f0 i0 = s.flag f0 i0 := rfl
@[simp] theorem State.modCore_at_out (s : State) (n : Nat) (f : Core → Core) (m : Nat) : (s.modCore n f).out m = s.out m := rfl
@[simp] theorem State.modCore_at_anc (s : State) (n : Nat) (f : Core → Core) (m : Nat) : (s.modCore n f).anc m = s.anc m := rfl
@[simp] theorem State.modCore_at_ref (s : State) (n : Nat) (f : Core → Core) (m : Nat) : (s.modCore n f).ref m = s.ref m := rfl
@[simp] theorem State.modCore_at_rasCh (s : State) (n : Nat) (f : Core → Core) (m : Nat) : (s.modCore n f).rasCh m = s.rasCh m := rfl
@[simp] theorem State.modCore_at_stn (s : State) (n : Nat) (f : Core → Core) (m : Nat) : (s.modCore n f).stn m = s.stn m := rfl
@[simp] theorem State.modCore_at_slotSt (s : State) (n : Nat) (f : Core → Core) (m k0 : Nat) : (s.modCore n f).slotSt m k0 = s.slotSt m k0 := rfl
@[simp] theorem State.modCore_at_win (s : State) (n : Nat) (f : Core → Core) (m : Nat) : (s.modCore n f).win m = s.win m := rfl
@[simp] theorem State.modCore_at_trig (s : State) (n : Nat) (f : Core → Core) (m : Nat) : (s.modCore n f).trig m = s.trig m := rfl
@[simp] theorem State.modCore_at_lane (s : State) (n : Nat) (f : Core → Core) (m : Nat) : (s.modCore n f).lane m = s.lane m := rfl
@[simp] theorem State.modCore_at_grp (s : State) (n : Nat) (f : Core → Core) (m : Nat) : (s.modCore n f).grp m = s.grp m := rfl
@[simp] theorem State.modCore_at_now (s : State) (n : Nat) (f : Core → Core) : (s.modCore n f).now  = s.now := rfl
@[simp] theorem State.modCore_at_power (s : State) (n : Nat) (f : Core → Core) : (s.modCore n f).power  = s.power := rfl
@[simp] theorem State.modCore_at_active (s : State) (n : Nat) (f : Core → Core) : (s.modCore n f).active  = s.active := rfl
@[simp] theorem State.modCore_at_up (s : State) (n : Nat) (f : Core → Core) : (s.modCore n f).up  = s.up := rfl

/-! ## State.setOut -/

@[simp] theorem State.setOut_pending (s : State) (n : Nat) (x : Output) : (s.setOut n x).pending = s.pending := rfl
@[simp] theorem State.setOut_count (s : State) (n : Nat) (x : Output) : (s.setOut n x).count = s.count := rfl
@[simp] theorem State.setOut_elapsed (s : State) (n : Nat) (x : Output) : (s.setOut n x).elapsed = s.elapsed := rfl
@[simp] theorem State.setOut_regs (s : State) (n : Nat) (x : Output) : (s.setOut n x).regs = s.regs := rfl
@[simp] theorem State.setOut_windows (s : State) (n : Nat) (x : Output) : (s.setOut n x).windows = s.windows := rfl
@[simp] theorem State.setOut_raises (s : State) (n : Nat) (x : Output) : (s.setOut n x).raises = s.raises := rfl
@[simp] theorem State.setOut_sticks (s : State) (n : Nat) (x : Output) : (s.setOut n x).sticks = s.sticks := rfl
@[simp] theorem State.setOut_lapses (s : State) (n : Nat) (x : Output) : (s.setOut n x).lapses = s.lapses := rfl
@[simp] theorem State.setOut_sync (s : State) (n : Nat) (x : Output) : (s.setOut n x).sync = s.sync := rfl
@[simp] theorem State.setOut_syncDue (s : State) (n : Nat) (x : Output) : (s.setOut n x).syncDue = s.syncDue := rfl
@[simp] theorem State.setOut_syncStamp (s : State) (n : Nat) (x : Output) : (s.setOut n x).syncStamp = s.syncStamp := rfl
@[simp] theorem State.setOut_trigs (s : State) (n : Nat) (x : Output) : (s.setOut n x).trigs = s.trigs := rfl
@[simp] theorem State.setOut_hwRel (s : State) (n : Nat) (x : Output) : (s.setOut n x).hwRel = s.hwRel := rfl
@[simp] theorem State.setOut_sched (s : State) (n : Nat) (x : Output) : (s.setOut n x).sched = s.sched := rfl
@[simp] theorem State.setOut_acceptSeq (s : State) (n : Nat) (x : Output) : (s.setOut n x).acceptSeq = s.acceptSeq := rfl
@[simp] theorem State.setOut_stepped (s : State) (n : Nat) (x : Output) : (s.setOut n x).stepped = s.stepped := rfl
@[simp] theorem State.setOut_heldWrites (s : State) (n : Nat) (x : Output) : (s.setOut n x).heldWrites = s.heldWrites := rfl
@[simp] theorem State.setOut_refs (s : State) (n : Nat) (x : Output) : (s.setOut n x).refs = s.refs := rfl
@[simp] theorem State.setOut_anchors (s : State) (n : Nat) (x : Output) : (s.setOut n x).anchors = s.anchors := rfl
@[simp] theorem State.setOut_primary (s : State) (n : Nat) (x : Output) : (s.setOut n x).primary = s.primary := rfl
@[simp] theorem State.setOut_primaryAt (s : State) (n : Nat) (x : Output) : (s.setOut n x).primaryAt = s.primaryAt := rfl
@[simp] theorem State.setOut_initDone (s : State) (n : Nat) (x : Output) : (s.setOut n x).initDone = s.initDone := rfl
@[simp] theorem State.setOut_alignRun (s : State) (n : Nat) (x : Output) : (s.setOut n x).alignRun = s.alignRun := rfl
@[simp] theorem State.setOut_alignOver (s : State) (n : Nat) (x : Output) : (s.setOut n x).alignOver = s.alignOver := rfl
@[simp] theorem State.setOut_ancEventAt (s : State) (n : Nat) (x : Output) : (s.setOut n x).ancEventAt = s.ancEventAt := rfl
@[simp] theorem State.setOut_xferStamp (s : State) (n : Nat) (x : Output) : (s.setOut n x).xferStamp = s.xferStamp := rfl
@[simp] theorem State.setOut_transfer (s : State) (n : Nat) (x : Output) : (s.setOut n x).transfer = s.transfer := rfl
@[simp] theorem State.setOut_later (s : State) (n : Nat) (x : Output) : (s.setOut n x).later = s.later := rfl
@[simp] theorem State.setOut_cores (s : State) (n : Nat) (x : Output) : (s.setOut n x).cores = s.cores := rfl
@[simp] theorem State.setOut_ras (s : State) (n : Nat) (x : Output) : (s.setOut n x).ras = s.ras := rfl
@[simp] theorem State.setOut_stations (s : State) (n : Nat) (x : Output) : (s.setOut n x).stations = s.stations := rfl
@[simp] theorem State.setOut_pgm (s : State) (n : Nat) (x : Output) : (s.setOut n x).pgm = s.pgm := rfl
@[simp] theorem State.setOut_profs (s : State) (n : Nat) (x : Output) : (s.setOut n x).profs = s.profs := rfl
@[simp] theorem State.setOut_shadows (s : State) (n : Nat) (x : Output) : (s.setOut n x).shadows = s.shadows := rfl
@[simp] theorem State.setOut_check (s : State) (n : Nat) (x : Output) : (s.setOut n x).check = s.check := rfl
@[simp] theorem State.setOut_statPins (s : State) (n : Nat) (x : Output) : (s.setOut n x).statPins = s.statPins := rfl
@[simp] theorem State.setOut_lanes (s : State) (n : Nat) (x : Output) : (s.setOut n x).lanes = s.lanes := rfl
@[simp] theorem State.setOut_lng (s : State) (n : Nat) (x : Output) : (s.setOut n x).lng = s.lng := rfl
@[simp] theorem State.setOut_fleet (s : State) (n : Nat) (x : Output) : (s.setOut n x).fleet = s.fleet := rfl
@[simp] theorem State.setOut_spareRows (s : State) (n : Nat) (x : Output) : (s.setOut n x).spareRows = s.spareRows := rfl
@[simp] theorem State.setOut_fencedEntries (s : State) (n : Nat) (x : Output) : (s.setOut n x).fencedEntries = s.fencedEntries := rfl
@[simp] theorem State.setOut_refills (s : State) (n : Nat) (x : Output) : (s.setOut n x).refills = s.refills := rfl
@[simp] theorem State.setOut_cal (s : State) (n : Nat) (x : Output) : (s.setOut n x).cal = s.cal := rfl
@[simp] theorem State.setOut_mon (s : State) (n : Nat) (x : Output) : (s.setOut n x).mon = s.mon := rfl
@[simp] theorem State.setOut_bar (s : State) (n : Nat) (x : Output) : (s.setOut n x).bar = s.bar := rfl
@[simp] theorem State.setOut_flash (s : State) (n : Nat) (x : Output) : (s.setOut n x).flash = s.flash := rfl
@[simp] theorem State.setOut_otp (s : State) (n : Nat) (x : Output) : (s.setOut n x).otp = s.otp := rfl
@[simp] theorem State.setOut_store (s : State) (n : Nat) (x : Output) : (s.setOut n x).store = s.store := rfl
@[simp] theorem State.setOut_boot (s : State) (n : Nat) (x : Output) : (s.setOut n x).boot = s.boot := rfl
@[simp] theorem State.setOut_svc (s : State) (n : Nat) (x : Output) : (s.setOut n x).svc = s.svc := rfl
@[simp] theorem State.setOut_hspi (s : State) (n : Nat) (x : Output) : (s.setOut n x).hspi = s.hspi := rfl
@[simp] theorem State.setOut_mbx (s : State) (n : Nat) (x : Output) : (s.setOut n x).mbx = s.mbx := rfl
@[simp] theorem State.setOut_pins (s : State) (n : Nat) (x : Output) : (s.setOut n x).pins = s.pins := rfl
@[simp] theorem State.setOut_powering (s : State) (n : Nat) (x : Output) : (s.setOut n x).powering = s.powering := rfl
@[simp] theorem State.setOut_reloads (s : State) (n : Nat) (x : Output) : (s.setOut n x).reloads = s.reloads := rfl
@[simp] theorem State.setOut_readData (s : State) (n : Nat) (x : Output) : (s.setOut n x).readData = s.readData := rfl
@[simp] theorem State.setOut_halted (s : State) (n : Nat) (x : Output) : (s.setOut n x).halted = s.halted := rfl
@[simp] theorem State.setOut_calVals (s : State) (n : Nat) (x : Output) : (s.setOut n x).calVals = s.calVals := rfl
@[simp] theorem State.setOut_at_reg (s : State) (n : Nat) (x : Output) (r0 : RegName) (i0 : Nat) : (s.setOut n x).reg r0 i0 = s.reg r0 i0 := rfl
@[simp] theorem State.setOut_at_fld (s : State) (n : Nat) (x : Output) (f0 : Field) (i0 : Nat) : (s.setOut n x).fld f0 i0 = s.fld f0 i0 := rfl
@[simp] theorem State.setOut_at_flag (s : State) (n : Nat) (x : Output) (f0 : Field) (i0 : Nat) : (s.setOut n x).flag f0 i0 = s.flag f0 i0 := rfl
@[simp] theorem State.setOut_at_core (s : State) (n : Nat) (x : Output) (m : Nat) : (s.setOut n x).core m = s.core m := rfl
@[simp] theorem State.setOut_at_anc (s : State) (n : Nat) (x : Output) (m : Nat) : (s.setOut n x).anc m = s.anc m := rfl
@[simp] theorem State.setOut_at_ref (s : State) (n : Nat) (x : Output) (m : Nat) : (s.setOut n x).ref m = s.ref m := rfl
@[simp] theorem State.setOut_at_rasCh (s : State) (n : Nat) (x : Output) (m : Nat) : (s.setOut n x).rasCh m = s.rasCh m := rfl
@[simp] theorem State.setOut_at_stn (s : State) (n : Nat) (x : Output) (m : Nat) : (s.setOut n x).stn m = s.stn m := rfl
@[simp] theorem State.setOut_at_slotSt (s : State) (n : Nat) (x : Output) (m k0 : Nat) : (s.setOut n x).slotSt m k0 = s.slotSt m k0 := rfl
@[simp] theorem State.setOut_at_win (s : State) (n : Nat) (x : Output) (m : Nat) : (s.setOut n x).win m = s.win m := rfl
@[simp] theorem State.setOut_at_trig (s : State) (n : Nat) (x : Output) (m : Nat) : (s.setOut n x).trig m = s.trig m := rfl
@[simp] theorem State.setOut_at_lane (s : State) (n : Nat) (x : Output) (m : Nat) : (s.setOut n x).lane m = s.lane m := rfl
@[simp] theorem State.setOut_at_grp (s : State) (n : Nat) (x : Output) (m : Nat) : (s.setOut n x).grp m = s.grp m := rfl
@[simp] theorem State.setOut_at_now (s : State) (n : Nat) (x : Output) : (s.setOut n x).now  = s.now := rfl
@[simp] theorem State.setOut_at_power (s : State) (n : Nat) (x : Output) : (s.setOut n x).power  = s.power := rfl
@[simp] theorem State.setOut_at_active (s : State) (n : Nat) (x : Output) : (s.setOut n x).active  = s.active := rfl
@[simp] theorem State.setOut_at_up (s : State) (n : Nat) (x : Output) : (s.setOut n x).up  = s.up := rfl

/-! ## State.modOut -/

@[simp] theorem State.modOut_pending (s : State) (n : Nat) (f : Output → Output) : (s.modOut n f).pending = s.pending := rfl
@[simp] theorem State.modOut_count (s : State) (n : Nat) (f : Output → Output) : (s.modOut n f).count = s.count := rfl
@[simp] theorem State.modOut_elapsed (s : State) (n : Nat) (f : Output → Output) : (s.modOut n f).elapsed = s.elapsed := rfl
@[simp] theorem State.modOut_regs (s : State) (n : Nat) (f : Output → Output) : (s.modOut n f).regs = s.regs := rfl
@[simp] theorem State.modOut_windows (s : State) (n : Nat) (f : Output → Output) : (s.modOut n f).windows = s.windows := rfl
@[simp] theorem State.modOut_raises (s : State) (n : Nat) (f : Output → Output) : (s.modOut n f).raises = s.raises := rfl
@[simp] theorem State.modOut_sticks (s : State) (n : Nat) (f : Output → Output) : (s.modOut n f).sticks = s.sticks := rfl
@[simp] theorem State.modOut_lapses (s : State) (n : Nat) (f : Output → Output) : (s.modOut n f).lapses = s.lapses := rfl
@[simp] theorem State.modOut_sync (s : State) (n : Nat) (f : Output → Output) : (s.modOut n f).sync = s.sync := rfl
@[simp] theorem State.modOut_syncDue (s : State) (n : Nat) (f : Output → Output) : (s.modOut n f).syncDue = s.syncDue := rfl
@[simp] theorem State.modOut_syncStamp (s : State) (n : Nat) (f : Output → Output) : (s.modOut n f).syncStamp = s.syncStamp := rfl
@[simp] theorem State.modOut_trigs (s : State) (n : Nat) (f : Output → Output) : (s.modOut n f).trigs = s.trigs := rfl
@[simp] theorem State.modOut_hwRel (s : State) (n : Nat) (f : Output → Output) : (s.modOut n f).hwRel = s.hwRel := rfl
@[simp] theorem State.modOut_sched (s : State) (n : Nat) (f : Output → Output) : (s.modOut n f).sched = s.sched := rfl
@[simp] theorem State.modOut_acceptSeq (s : State) (n : Nat) (f : Output → Output) : (s.modOut n f).acceptSeq = s.acceptSeq := rfl
@[simp] theorem State.modOut_stepped (s : State) (n : Nat) (f : Output → Output) : (s.modOut n f).stepped = s.stepped := rfl
@[simp] theorem State.modOut_heldWrites (s : State) (n : Nat) (f : Output → Output) : (s.modOut n f).heldWrites = s.heldWrites := rfl
@[simp] theorem State.modOut_refs (s : State) (n : Nat) (f : Output → Output) : (s.modOut n f).refs = s.refs := rfl
@[simp] theorem State.modOut_anchors (s : State) (n : Nat) (f : Output → Output) : (s.modOut n f).anchors = s.anchors := rfl
@[simp] theorem State.modOut_primary (s : State) (n : Nat) (f : Output → Output) : (s.modOut n f).primary = s.primary := rfl
@[simp] theorem State.modOut_primaryAt (s : State) (n : Nat) (f : Output → Output) : (s.modOut n f).primaryAt = s.primaryAt := rfl
@[simp] theorem State.modOut_initDone (s : State) (n : Nat) (f : Output → Output) : (s.modOut n f).initDone = s.initDone := rfl
@[simp] theorem State.modOut_alignRun (s : State) (n : Nat) (f : Output → Output) : (s.modOut n f).alignRun = s.alignRun := rfl
@[simp] theorem State.modOut_alignOver (s : State) (n : Nat) (f : Output → Output) : (s.modOut n f).alignOver = s.alignOver := rfl
@[simp] theorem State.modOut_ancEventAt (s : State) (n : Nat) (f : Output → Output) : (s.modOut n f).ancEventAt = s.ancEventAt := rfl
@[simp] theorem State.modOut_xferStamp (s : State) (n : Nat) (f : Output → Output) : (s.modOut n f).xferStamp = s.xferStamp := rfl
@[simp] theorem State.modOut_transfer (s : State) (n : Nat) (f : Output → Output) : (s.modOut n f).transfer = s.transfer := rfl
@[simp] theorem State.modOut_later (s : State) (n : Nat) (f : Output → Output) : (s.modOut n f).later = s.later := rfl
@[simp] theorem State.modOut_cores (s : State) (n : Nat) (f : Output → Output) : (s.modOut n f).cores = s.cores := rfl
@[simp] theorem State.modOut_ras (s : State) (n : Nat) (f : Output → Output) : (s.modOut n f).ras = s.ras := rfl
@[simp] theorem State.modOut_stations (s : State) (n : Nat) (f : Output → Output) : (s.modOut n f).stations = s.stations := rfl
@[simp] theorem State.modOut_pgm (s : State) (n : Nat) (f : Output → Output) : (s.modOut n f).pgm = s.pgm := rfl
@[simp] theorem State.modOut_profs (s : State) (n : Nat) (f : Output → Output) : (s.modOut n f).profs = s.profs := rfl
@[simp] theorem State.modOut_shadows (s : State) (n : Nat) (f : Output → Output) : (s.modOut n f).shadows = s.shadows := rfl
@[simp] theorem State.modOut_check (s : State) (n : Nat) (f : Output → Output) : (s.modOut n f).check = s.check := rfl
@[simp] theorem State.modOut_statPins (s : State) (n : Nat) (f : Output → Output) : (s.modOut n f).statPins = s.statPins := rfl
@[simp] theorem State.modOut_lanes (s : State) (n : Nat) (f : Output → Output) : (s.modOut n f).lanes = s.lanes := rfl
@[simp] theorem State.modOut_lng (s : State) (n : Nat) (f : Output → Output) : (s.modOut n f).lng = s.lng := rfl
@[simp] theorem State.modOut_fleet (s : State) (n : Nat) (f : Output → Output) : (s.modOut n f).fleet = s.fleet := rfl
@[simp] theorem State.modOut_spareRows (s : State) (n : Nat) (f : Output → Output) : (s.modOut n f).spareRows = s.spareRows := rfl
@[simp] theorem State.modOut_fencedEntries (s : State) (n : Nat) (f : Output → Output) : (s.modOut n f).fencedEntries = s.fencedEntries := rfl
@[simp] theorem State.modOut_refills (s : State) (n : Nat) (f : Output → Output) : (s.modOut n f).refills = s.refills := rfl
@[simp] theorem State.modOut_cal (s : State) (n : Nat) (f : Output → Output) : (s.modOut n f).cal = s.cal := rfl
@[simp] theorem State.modOut_mon (s : State) (n : Nat) (f : Output → Output) : (s.modOut n f).mon = s.mon := rfl
@[simp] theorem State.modOut_bar (s : State) (n : Nat) (f : Output → Output) : (s.modOut n f).bar = s.bar := rfl
@[simp] theorem State.modOut_flash (s : State) (n : Nat) (f : Output → Output) : (s.modOut n f).flash = s.flash := rfl
@[simp] theorem State.modOut_otp (s : State) (n : Nat) (f : Output → Output) : (s.modOut n f).otp = s.otp := rfl
@[simp] theorem State.modOut_store (s : State) (n : Nat) (f : Output → Output) : (s.modOut n f).store = s.store := rfl
@[simp] theorem State.modOut_boot (s : State) (n : Nat) (f : Output → Output) : (s.modOut n f).boot = s.boot := rfl
@[simp] theorem State.modOut_svc (s : State) (n : Nat) (f : Output → Output) : (s.modOut n f).svc = s.svc := rfl
@[simp] theorem State.modOut_hspi (s : State) (n : Nat) (f : Output → Output) : (s.modOut n f).hspi = s.hspi := rfl
@[simp] theorem State.modOut_mbx (s : State) (n : Nat) (f : Output → Output) : (s.modOut n f).mbx = s.mbx := rfl
@[simp] theorem State.modOut_pins (s : State) (n : Nat) (f : Output → Output) : (s.modOut n f).pins = s.pins := rfl
@[simp] theorem State.modOut_powering (s : State) (n : Nat) (f : Output → Output) : (s.modOut n f).powering = s.powering := rfl
@[simp] theorem State.modOut_reloads (s : State) (n : Nat) (f : Output → Output) : (s.modOut n f).reloads = s.reloads := rfl
@[simp] theorem State.modOut_readData (s : State) (n : Nat) (f : Output → Output) : (s.modOut n f).readData = s.readData := rfl
@[simp] theorem State.modOut_halted (s : State) (n : Nat) (f : Output → Output) : (s.modOut n f).halted = s.halted := rfl
@[simp] theorem State.modOut_calVals (s : State) (n : Nat) (f : Output → Output) : (s.modOut n f).calVals = s.calVals := rfl
@[simp] theorem State.modOut_at_reg (s : State) (n : Nat) (f : Output → Output) (r0 : RegName) (i0 : Nat) : (s.modOut n f).reg r0 i0 = s.reg r0 i0 := rfl
@[simp] theorem State.modOut_at_fld (s : State) (n : Nat) (f : Output → Output) (f0 : Field) (i0 : Nat) : (s.modOut n f).fld f0 i0 = s.fld f0 i0 := rfl
@[simp] theorem State.modOut_at_flag (s : State) (n : Nat) (f : Output → Output) (f0 : Field) (i0 : Nat) : (s.modOut n f).flag f0 i0 = s.flag f0 i0 := rfl
@[simp] theorem State.modOut_at_core (s : State) (n : Nat) (f : Output → Output) (m : Nat) : (s.modOut n f).core m = s.core m := rfl
@[simp] theorem State.modOut_at_anc (s : State) (n : Nat) (f : Output → Output) (m : Nat) : (s.modOut n f).anc m = s.anc m := rfl
@[simp] theorem State.modOut_at_ref (s : State) (n : Nat) (f : Output → Output) (m : Nat) : (s.modOut n f).ref m = s.ref m := rfl
@[simp] theorem State.modOut_at_rasCh (s : State) (n : Nat) (f : Output → Output) (m : Nat) : (s.modOut n f).rasCh m = s.rasCh m := rfl
@[simp] theorem State.modOut_at_stn (s : State) (n : Nat) (f : Output → Output) (m : Nat) : (s.modOut n f).stn m = s.stn m := rfl
@[simp] theorem State.modOut_at_slotSt (s : State) (n : Nat) (f : Output → Output) (m k0 : Nat) : (s.modOut n f).slotSt m k0 = s.slotSt m k0 := rfl
@[simp] theorem State.modOut_at_win (s : State) (n : Nat) (f : Output → Output) (m : Nat) : (s.modOut n f).win m = s.win m := rfl
@[simp] theorem State.modOut_at_trig (s : State) (n : Nat) (f : Output → Output) (m : Nat) : (s.modOut n f).trig m = s.trig m := rfl
@[simp] theorem State.modOut_at_lane (s : State) (n : Nat) (f : Output → Output) (m : Nat) : (s.modOut n f).lane m = s.lane m := rfl
@[simp] theorem State.modOut_at_grp (s : State) (n : Nat) (f : Output → Output) (m : Nat) : (s.modOut n f).grp m = s.grp m := rfl
@[simp] theorem State.modOut_at_now (s : State) (n : Nat) (f : Output → Output) : (s.modOut n f).now  = s.now := rfl
@[simp] theorem State.modOut_at_power (s : State) (n : Nat) (f : Output → Output) : (s.modOut n f).power  = s.power := rfl
@[simp] theorem State.modOut_at_active (s : State) (n : Nat) (f : Output → Output) : (s.modOut n f).active  = s.active := rfl
@[simp] theorem State.modOut_at_up (s : State) (n : Nat) (f : Output → Output) : (s.modOut n f).up  = s.up := rfl

/-! ## State.setAnc -/

@[simp] theorem State.setAnc_pending (s : State) (n : Nat) (x : Anchor) : (s.setAnc n x).pending = s.pending := rfl
@[simp] theorem State.setAnc_count (s : State) (n : Nat) (x : Anchor) : (s.setAnc n x).count = s.count := rfl
@[simp] theorem State.setAnc_elapsed (s : State) (n : Nat) (x : Anchor) : (s.setAnc n x).elapsed = s.elapsed := rfl
@[simp] theorem State.setAnc_regs (s : State) (n : Nat) (x : Anchor) : (s.setAnc n x).regs = s.regs := rfl
@[simp] theorem State.setAnc_windows (s : State) (n : Nat) (x : Anchor) : (s.setAnc n x).windows = s.windows := rfl
@[simp] theorem State.setAnc_raises (s : State) (n : Nat) (x : Anchor) : (s.setAnc n x).raises = s.raises := rfl
@[simp] theorem State.setAnc_sticks (s : State) (n : Nat) (x : Anchor) : (s.setAnc n x).sticks = s.sticks := rfl
@[simp] theorem State.setAnc_lapses (s : State) (n : Nat) (x : Anchor) : (s.setAnc n x).lapses = s.lapses := rfl
@[simp] theorem State.setAnc_sync (s : State) (n : Nat) (x : Anchor) : (s.setAnc n x).sync = s.sync := rfl
@[simp] theorem State.setAnc_syncDue (s : State) (n : Nat) (x : Anchor) : (s.setAnc n x).syncDue = s.syncDue := rfl
@[simp] theorem State.setAnc_syncStamp (s : State) (n : Nat) (x : Anchor) : (s.setAnc n x).syncStamp = s.syncStamp := rfl
@[simp] theorem State.setAnc_trigs (s : State) (n : Nat) (x : Anchor) : (s.setAnc n x).trigs = s.trigs := rfl
@[simp] theorem State.setAnc_hwRel (s : State) (n : Nat) (x : Anchor) : (s.setAnc n x).hwRel = s.hwRel := rfl
@[simp] theorem State.setAnc_sched (s : State) (n : Nat) (x : Anchor) : (s.setAnc n x).sched = s.sched := rfl
@[simp] theorem State.setAnc_acceptSeq (s : State) (n : Nat) (x : Anchor) : (s.setAnc n x).acceptSeq = s.acceptSeq := rfl
@[simp] theorem State.setAnc_stepped (s : State) (n : Nat) (x : Anchor) : (s.setAnc n x).stepped = s.stepped := rfl
@[simp] theorem State.setAnc_heldWrites (s : State) (n : Nat) (x : Anchor) : (s.setAnc n x).heldWrites = s.heldWrites := rfl
@[simp] theorem State.setAnc_refs (s : State) (n : Nat) (x : Anchor) : (s.setAnc n x).refs = s.refs := rfl
@[simp] theorem State.setAnc_primary (s : State) (n : Nat) (x : Anchor) : (s.setAnc n x).primary = s.primary := rfl
@[simp] theorem State.setAnc_primaryAt (s : State) (n : Nat) (x : Anchor) : (s.setAnc n x).primaryAt = s.primaryAt := rfl
@[simp] theorem State.setAnc_initDone (s : State) (n : Nat) (x : Anchor) : (s.setAnc n x).initDone = s.initDone := rfl
@[simp] theorem State.setAnc_alignRun (s : State) (n : Nat) (x : Anchor) : (s.setAnc n x).alignRun = s.alignRun := rfl
@[simp] theorem State.setAnc_alignOver (s : State) (n : Nat) (x : Anchor) : (s.setAnc n x).alignOver = s.alignOver := rfl
@[simp] theorem State.setAnc_ancEventAt (s : State) (n : Nat) (x : Anchor) : (s.setAnc n x).ancEventAt = s.ancEventAt := rfl
@[simp] theorem State.setAnc_xferStamp (s : State) (n : Nat) (x : Anchor) : (s.setAnc n x).xferStamp = s.xferStamp := rfl
@[simp] theorem State.setAnc_transfer (s : State) (n : Nat) (x : Anchor) : (s.setAnc n x).transfer = s.transfer := rfl
@[simp] theorem State.setAnc_later (s : State) (n : Nat) (x : Anchor) : (s.setAnc n x).later = s.later := rfl
@[simp] theorem State.setAnc_cores (s : State) (n : Nat) (x : Anchor) : (s.setAnc n x).cores = s.cores := rfl
@[simp] theorem State.setAnc_outs (s : State) (n : Nat) (x : Anchor) : (s.setAnc n x).outs = s.outs := rfl
@[simp] theorem State.setAnc_ras (s : State) (n : Nat) (x : Anchor) : (s.setAnc n x).ras = s.ras := rfl
@[simp] theorem State.setAnc_stations (s : State) (n : Nat) (x : Anchor) : (s.setAnc n x).stations = s.stations := rfl
@[simp] theorem State.setAnc_pgm (s : State) (n : Nat) (x : Anchor) : (s.setAnc n x).pgm = s.pgm := rfl
@[simp] theorem State.setAnc_profs (s : State) (n : Nat) (x : Anchor) : (s.setAnc n x).profs = s.profs := rfl
@[simp] theorem State.setAnc_shadows (s : State) (n : Nat) (x : Anchor) : (s.setAnc n x).shadows = s.shadows := rfl
@[simp] theorem State.setAnc_check (s : State) (n : Nat) (x : Anchor) : (s.setAnc n x).check = s.check := rfl
@[simp] theorem State.setAnc_statPins (s : State) (n : Nat) (x : Anchor) : (s.setAnc n x).statPins = s.statPins := rfl
@[simp] theorem State.setAnc_lanes (s : State) (n : Nat) (x : Anchor) : (s.setAnc n x).lanes = s.lanes := rfl
@[simp] theorem State.setAnc_lng (s : State) (n : Nat) (x : Anchor) : (s.setAnc n x).lng = s.lng := rfl
@[simp] theorem State.setAnc_fleet (s : State) (n : Nat) (x : Anchor) : (s.setAnc n x).fleet = s.fleet := rfl
@[simp] theorem State.setAnc_spareRows (s : State) (n : Nat) (x : Anchor) : (s.setAnc n x).spareRows = s.spareRows := rfl
@[simp] theorem State.setAnc_fencedEntries (s : State) (n : Nat) (x : Anchor) : (s.setAnc n x).fencedEntries = s.fencedEntries := rfl
@[simp] theorem State.setAnc_refills (s : State) (n : Nat) (x : Anchor) : (s.setAnc n x).refills = s.refills := rfl
@[simp] theorem State.setAnc_cal (s : State) (n : Nat) (x : Anchor) : (s.setAnc n x).cal = s.cal := rfl
@[simp] theorem State.setAnc_mon (s : State) (n : Nat) (x : Anchor) : (s.setAnc n x).mon = s.mon := rfl
@[simp] theorem State.setAnc_bar (s : State) (n : Nat) (x : Anchor) : (s.setAnc n x).bar = s.bar := rfl
@[simp] theorem State.setAnc_flash (s : State) (n : Nat) (x : Anchor) : (s.setAnc n x).flash = s.flash := rfl
@[simp] theorem State.setAnc_otp (s : State) (n : Nat) (x : Anchor) : (s.setAnc n x).otp = s.otp := rfl
@[simp] theorem State.setAnc_store (s : State) (n : Nat) (x : Anchor) : (s.setAnc n x).store = s.store := rfl
@[simp] theorem State.setAnc_boot (s : State) (n : Nat) (x : Anchor) : (s.setAnc n x).boot = s.boot := rfl
@[simp] theorem State.setAnc_svc (s : State) (n : Nat) (x : Anchor) : (s.setAnc n x).svc = s.svc := rfl
@[simp] theorem State.setAnc_hspi (s : State) (n : Nat) (x : Anchor) : (s.setAnc n x).hspi = s.hspi := rfl
@[simp] theorem State.setAnc_mbx (s : State) (n : Nat) (x : Anchor) : (s.setAnc n x).mbx = s.mbx := rfl
@[simp] theorem State.setAnc_pins (s : State) (n : Nat) (x : Anchor) : (s.setAnc n x).pins = s.pins := rfl
@[simp] theorem State.setAnc_powering (s : State) (n : Nat) (x : Anchor) : (s.setAnc n x).powering = s.powering := rfl
@[simp] theorem State.setAnc_reloads (s : State) (n : Nat) (x : Anchor) : (s.setAnc n x).reloads = s.reloads := rfl
@[simp] theorem State.setAnc_readData (s : State) (n : Nat) (x : Anchor) : (s.setAnc n x).readData = s.readData := rfl
@[simp] theorem State.setAnc_halted (s : State) (n : Nat) (x : Anchor) : (s.setAnc n x).halted = s.halted := rfl
@[simp] theorem State.setAnc_calVals (s : State) (n : Nat) (x : Anchor) : (s.setAnc n x).calVals = s.calVals := rfl
@[simp] theorem State.setAnc_at_reg (s : State) (n : Nat) (x : Anchor) (r0 : RegName) (i0 : Nat) : (s.setAnc n x).reg r0 i0 = s.reg r0 i0 := rfl
@[simp] theorem State.setAnc_at_fld (s : State) (n : Nat) (x : Anchor) (f0 : Field) (i0 : Nat) : (s.setAnc n x).fld f0 i0 = s.fld f0 i0 := rfl
@[simp] theorem State.setAnc_at_flag (s : State) (n : Nat) (x : Anchor) (f0 : Field) (i0 : Nat) : (s.setAnc n x).flag f0 i0 = s.flag f0 i0 := rfl
@[simp] theorem State.setAnc_at_core (s : State) (n : Nat) (x : Anchor) (m : Nat) : (s.setAnc n x).core m = s.core m := rfl
@[simp] theorem State.setAnc_at_out (s : State) (n : Nat) (x : Anchor) (m : Nat) : (s.setAnc n x).out m = s.out m := rfl
@[simp] theorem State.setAnc_at_ref (s : State) (n : Nat) (x : Anchor) (m : Nat) : (s.setAnc n x).ref m = s.ref m := rfl
@[simp] theorem State.setAnc_at_rasCh (s : State) (n : Nat) (x : Anchor) (m : Nat) : (s.setAnc n x).rasCh m = s.rasCh m := rfl
@[simp] theorem State.setAnc_at_stn (s : State) (n : Nat) (x : Anchor) (m : Nat) : (s.setAnc n x).stn m = s.stn m := rfl
@[simp] theorem State.setAnc_at_slotSt (s : State) (n : Nat) (x : Anchor) (m k0 : Nat) : (s.setAnc n x).slotSt m k0 = s.slotSt m k0 := rfl
@[simp] theorem State.setAnc_at_win (s : State) (n : Nat) (x : Anchor) (m : Nat) : (s.setAnc n x).win m = s.win m := rfl
@[simp] theorem State.setAnc_at_trig (s : State) (n : Nat) (x : Anchor) (m : Nat) : (s.setAnc n x).trig m = s.trig m := rfl
@[simp] theorem State.setAnc_at_lane (s : State) (n : Nat) (x : Anchor) (m : Nat) : (s.setAnc n x).lane m = s.lane m := rfl
@[simp] theorem State.setAnc_at_grp (s : State) (n : Nat) (x : Anchor) (m : Nat) : (s.setAnc n x).grp m = s.grp m := rfl
@[simp] theorem State.setAnc_at_now (s : State) (n : Nat) (x : Anchor) : (s.setAnc n x).now  = s.now := rfl
@[simp] theorem State.setAnc_at_power (s : State) (n : Nat) (x : Anchor) : (s.setAnc n x).power  = s.power := rfl
@[simp] theorem State.setAnc_at_active (s : State) (n : Nat) (x : Anchor) : (s.setAnc n x).active  = s.active := rfl
@[simp] theorem State.setAnc_at_up (s : State) (n : Nat) (x : Anchor) : (s.setAnc n x).up  = s.up := rfl

/-! ## State.modAnc -/

@[simp] theorem State.modAnc_pending (s : State) (n : Nat) (f : Anchor → Anchor) : (s.modAnc n f).pending = s.pending := rfl
@[simp] theorem State.modAnc_count (s : State) (n : Nat) (f : Anchor → Anchor) : (s.modAnc n f).count = s.count := rfl
@[simp] theorem State.modAnc_elapsed (s : State) (n : Nat) (f : Anchor → Anchor) : (s.modAnc n f).elapsed = s.elapsed := rfl
@[simp] theorem State.modAnc_regs (s : State) (n : Nat) (f : Anchor → Anchor) : (s.modAnc n f).regs = s.regs := rfl
@[simp] theorem State.modAnc_windows (s : State) (n : Nat) (f : Anchor → Anchor) : (s.modAnc n f).windows = s.windows := rfl
@[simp] theorem State.modAnc_raises (s : State) (n : Nat) (f : Anchor → Anchor) : (s.modAnc n f).raises = s.raises := rfl
@[simp] theorem State.modAnc_sticks (s : State) (n : Nat) (f : Anchor → Anchor) : (s.modAnc n f).sticks = s.sticks := rfl
@[simp] theorem State.modAnc_lapses (s : State) (n : Nat) (f : Anchor → Anchor) : (s.modAnc n f).lapses = s.lapses := rfl
@[simp] theorem State.modAnc_sync (s : State) (n : Nat) (f : Anchor → Anchor) : (s.modAnc n f).sync = s.sync := rfl
@[simp] theorem State.modAnc_syncDue (s : State) (n : Nat) (f : Anchor → Anchor) : (s.modAnc n f).syncDue = s.syncDue := rfl
@[simp] theorem State.modAnc_syncStamp (s : State) (n : Nat) (f : Anchor → Anchor) : (s.modAnc n f).syncStamp = s.syncStamp := rfl
@[simp] theorem State.modAnc_trigs (s : State) (n : Nat) (f : Anchor → Anchor) : (s.modAnc n f).trigs = s.trigs := rfl
@[simp] theorem State.modAnc_hwRel (s : State) (n : Nat) (f : Anchor → Anchor) : (s.modAnc n f).hwRel = s.hwRel := rfl
@[simp] theorem State.modAnc_sched (s : State) (n : Nat) (f : Anchor → Anchor) : (s.modAnc n f).sched = s.sched := rfl
@[simp] theorem State.modAnc_acceptSeq (s : State) (n : Nat) (f : Anchor → Anchor) : (s.modAnc n f).acceptSeq = s.acceptSeq := rfl
@[simp] theorem State.modAnc_stepped (s : State) (n : Nat) (f : Anchor → Anchor) : (s.modAnc n f).stepped = s.stepped := rfl
@[simp] theorem State.modAnc_heldWrites (s : State) (n : Nat) (f : Anchor → Anchor) : (s.modAnc n f).heldWrites = s.heldWrites := rfl
@[simp] theorem State.modAnc_refs (s : State) (n : Nat) (f : Anchor → Anchor) : (s.modAnc n f).refs = s.refs := rfl
@[simp] theorem State.modAnc_primary (s : State) (n : Nat) (f : Anchor → Anchor) : (s.modAnc n f).primary = s.primary := rfl
@[simp] theorem State.modAnc_primaryAt (s : State) (n : Nat) (f : Anchor → Anchor) : (s.modAnc n f).primaryAt = s.primaryAt := rfl
@[simp] theorem State.modAnc_initDone (s : State) (n : Nat) (f : Anchor → Anchor) : (s.modAnc n f).initDone = s.initDone := rfl
@[simp] theorem State.modAnc_alignRun (s : State) (n : Nat) (f : Anchor → Anchor) : (s.modAnc n f).alignRun = s.alignRun := rfl
@[simp] theorem State.modAnc_alignOver (s : State) (n : Nat) (f : Anchor → Anchor) : (s.modAnc n f).alignOver = s.alignOver := rfl
@[simp] theorem State.modAnc_ancEventAt (s : State) (n : Nat) (f : Anchor → Anchor) : (s.modAnc n f).ancEventAt = s.ancEventAt := rfl
@[simp] theorem State.modAnc_xferStamp (s : State) (n : Nat) (f : Anchor → Anchor) : (s.modAnc n f).xferStamp = s.xferStamp := rfl
@[simp] theorem State.modAnc_transfer (s : State) (n : Nat) (f : Anchor → Anchor) : (s.modAnc n f).transfer = s.transfer := rfl
@[simp] theorem State.modAnc_later (s : State) (n : Nat) (f : Anchor → Anchor) : (s.modAnc n f).later = s.later := rfl
@[simp] theorem State.modAnc_cores (s : State) (n : Nat) (f : Anchor → Anchor) : (s.modAnc n f).cores = s.cores := rfl
@[simp] theorem State.modAnc_outs (s : State) (n : Nat) (f : Anchor → Anchor) : (s.modAnc n f).outs = s.outs := rfl
@[simp] theorem State.modAnc_ras (s : State) (n : Nat) (f : Anchor → Anchor) : (s.modAnc n f).ras = s.ras := rfl
@[simp] theorem State.modAnc_stations (s : State) (n : Nat) (f : Anchor → Anchor) : (s.modAnc n f).stations = s.stations := rfl
@[simp] theorem State.modAnc_pgm (s : State) (n : Nat) (f : Anchor → Anchor) : (s.modAnc n f).pgm = s.pgm := rfl
@[simp] theorem State.modAnc_profs (s : State) (n : Nat) (f : Anchor → Anchor) : (s.modAnc n f).profs = s.profs := rfl
@[simp] theorem State.modAnc_shadows (s : State) (n : Nat) (f : Anchor → Anchor) : (s.modAnc n f).shadows = s.shadows := rfl
@[simp] theorem State.modAnc_check (s : State) (n : Nat) (f : Anchor → Anchor) : (s.modAnc n f).check = s.check := rfl
@[simp] theorem State.modAnc_statPins (s : State) (n : Nat) (f : Anchor → Anchor) : (s.modAnc n f).statPins = s.statPins := rfl
@[simp] theorem State.modAnc_lanes (s : State) (n : Nat) (f : Anchor → Anchor) : (s.modAnc n f).lanes = s.lanes := rfl
@[simp] theorem State.modAnc_lng (s : State) (n : Nat) (f : Anchor → Anchor) : (s.modAnc n f).lng = s.lng := rfl
@[simp] theorem State.modAnc_fleet (s : State) (n : Nat) (f : Anchor → Anchor) : (s.modAnc n f).fleet = s.fleet := rfl
@[simp] theorem State.modAnc_spareRows (s : State) (n : Nat) (f : Anchor → Anchor) : (s.modAnc n f).spareRows = s.spareRows := rfl
@[simp] theorem State.modAnc_fencedEntries (s : State) (n : Nat) (f : Anchor → Anchor) : (s.modAnc n f).fencedEntries = s.fencedEntries := rfl
@[simp] theorem State.modAnc_refills (s : State) (n : Nat) (f : Anchor → Anchor) : (s.modAnc n f).refills = s.refills := rfl
@[simp] theorem State.modAnc_cal (s : State) (n : Nat) (f : Anchor → Anchor) : (s.modAnc n f).cal = s.cal := rfl
@[simp] theorem State.modAnc_mon (s : State) (n : Nat) (f : Anchor → Anchor) : (s.modAnc n f).mon = s.mon := rfl
@[simp] theorem State.modAnc_bar (s : State) (n : Nat) (f : Anchor → Anchor) : (s.modAnc n f).bar = s.bar := rfl
@[simp] theorem State.modAnc_flash (s : State) (n : Nat) (f : Anchor → Anchor) : (s.modAnc n f).flash = s.flash := rfl
@[simp] theorem State.modAnc_otp (s : State) (n : Nat) (f : Anchor → Anchor) : (s.modAnc n f).otp = s.otp := rfl
@[simp] theorem State.modAnc_store (s : State) (n : Nat) (f : Anchor → Anchor) : (s.modAnc n f).store = s.store := rfl
@[simp] theorem State.modAnc_boot (s : State) (n : Nat) (f : Anchor → Anchor) : (s.modAnc n f).boot = s.boot := rfl
@[simp] theorem State.modAnc_svc (s : State) (n : Nat) (f : Anchor → Anchor) : (s.modAnc n f).svc = s.svc := rfl
@[simp] theorem State.modAnc_hspi (s : State) (n : Nat) (f : Anchor → Anchor) : (s.modAnc n f).hspi = s.hspi := rfl
@[simp] theorem State.modAnc_mbx (s : State) (n : Nat) (f : Anchor → Anchor) : (s.modAnc n f).mbx = s.mbx := rfl
@[simp] theorem State.modAnc_pins (s : State) (n : Nat) (f : Anchor → Anchor) : (s.modAnc n f).pins = s.pins := rfl
@[simp] theorem State.modAnc_powering (s : State) (n : Nat) (f : Anchor → Anchor) : (s.modAnc n f).powering = s.powering := rfl
@[simp] theorem State.modAnc_reloads (s : State) (n : Nat) (f : Anchor → Anchor) : (s.modAnc n f).reloads = s.reloads := rfl
@[simp] theorem State.modAnc_readData (s : State) (n : Nat) (f : Anchor → Anchor) : (s.modAnc n f).readData = s.readData := rfl
@[simp] theorem State.modAnc_halted (s : State) (n : Nat) (f : Anchor → Anchor) : (s.modAnc n f).halted = s.halted := rfl
@[simp] theorem State.modAnc_calVals (s : State) (n : Nat) (f : Anchor → Anchor) : (s.modAnc n f).calVals = s.calVals := rfl
@[simp] theorem State.modAnc_at_reg (s : State) (n : Nat) (f : Anchor → Anchor) (r0 : RegName) (i0 : Nat) : (s.modAnc n f).reg r0 i0 = s.reg r0 i0 := rfl
@[simp] theorem State.modAnc_at_fld (s : State) (n : Nat) (f : Anchor → Anchor) (f0 : Field) (i0 : Nat) : (s.modAnc n f).fld f0 i0 = s.fld f0 i0 := rfl
@[simp] theorem State.modAnc_at_flag (s : State) (n : Nat) (f : Anchor → Anchor) (f0 : Field) (i0 : Nat) : (s.modAnc n f).flag f0 i0 = s.flag f0 i0 := rfl
@[simp] theorem State.modAnc_at_core (s : State) (n : Nat) (f : Anchor → Anchor) (m : Nat) : (s.modAnc n f).core m = s.core m := rfl
@[simp] theorem State.modAnc_at_out (s : State) (n : Nat) (f : Anchor → Anchor) (m : Nat) : (s.modAnc n f).out m = s.out m := rfl
@[simp] theorem State.modAnc_at_ref (s : State) (n : Nat) (f : Anchor → Anchor) (m : Nat) : (s.modAnc n f).ref m = s.ref m := rfl
@[simp] theorem State.modAnc_at_rasCh (s : State) (n : Nat) (f : Anchor → Anchor) (m : Nat) : (s.modAnc n f).rasCh m = s.rasCh m := rfl
@[simp] theorem State.modAnc_at_stn (s : State) (n : Nat) (f : Anchor → Anchor) (m : Nat) : (s.modAnc n f).stn m = s.stn m := rfl
@[simp] theorem State.modAnc_at_slotSt (s : State) (n : Nat) (f : Anchor → Anchor) (m k0 : Nat) : (s.modAnc n f).slotSt m k0 = s.slotSt m k0 := rfl
@[simp] theorem State.modAnc_at_win (s : State) (n : Nat) (f : Anchor → Anchor) (m : Nat) : (s.modAnc n f).win m = s.win m := rfl
@[simp] theorem State.modAnc_at_trig (s : State) (n : Nat) (f : Anchor → Anchor) (m : Nat) : (s.modAnc n f).trig m = s.trig m := rfl
@[simp] theorem State.modAnc_at_lane (s : State) (n : Nat) (f : Anchor → Anchor) (m : Nat) : (s.modAnc n f).lane m = s.lane m := rfl
@[simp] theorem State.modAnc_at_grp (s : State) (n : Nat) (f : Anchor → Anchor) (m : Nat) : (s.modAnc n f).grp m = s.grp m := rfl
@[simp] theorem State.modAnc_at_now (s : State) (n : Nat) (f : Anchor → Anchor) : (s.modAnc n f).now  = s.now := rfl
@[simp] theorem State.modAnc_at_power (s : State) (n : Nat) (f : Anchor → Anchor) : (s.modAnc n f).power  = s.power := rfl
@[simp] theorem State.modAnc_at_active (s : State) (n : Nat) (f : Anchor → Anchor) : (s.modAnc n f).active  = s.active := rfl
@[simp] theorem State.modAnc_at_up (s : State) (n : Nat) (f : Anchor → Anchor) : (s.modAnc n f).up  = s.up := rfl

/-! ## State.setRef -/

@[simp] theorem State.setRef_pending (s : State) (n : Nat) (x : RefInput) : (s.setRef n x).pending = s.pending := rfl
@[simp] theorem State.setRef_count (s : State) (n : Nat) (x : RefInput) : (s.setRef n x).count = s.count := rfl
@[simp] theorem State.setRef_elapsed (s : State) (n : Nat) (x : RefInput) : (s.setRef n x).elapsed = s.elapsed := rfl
@[simp] theorem State.setRef_regs (s : State) (n : Nat) (x : RefInput) : (s.setRef n x).regs = s.regs := rfl
@[simp] theorem State.setRef_windows (s : State) (n : Nat) (x : RefInput) : (s.setRef n x).windows = s.windows := rfl
@[simp] theorem State.setRef_raises (s : State) (n : Nat) (x : RefInput) : (s.setRef n x).raises = s.raises := rfl
@[simp] theorem State.setRef_sticks (s : State) (n : Nat) (x : RefInput) : (s.setRef n x).sticks = s.sticks := rfl
@[simp] theorem State.setRef_lapses (s : State) (n : Nat) (x : RefInput) : (s.setRef n x).lapses = s.lapses := rfl
@[simp] theorem State.setRef_sync (s : State) (n : Nat) (x : RefInput) : (s.setRef n x).sync = s.sync := rfl
@[simp] theorem State.setRef_syncDue (s : State) (n : Nat) (x : RefInput) : (s.setRef n x).syncDue = s.syncDue := rfl
@[simp] theorem State.setRef_syncStamp (s : State) (n : Nat) (x : RefInput) : (s.setRef n x).syncStamp = s.syncStamp := rfl
@[simp] theorem State.setRef_trigs (s : State) (n : Nat) (x : RefInput) : (s.setRef n x).trigs = s.trigs := rfl
@[simp] theorem State.setRef_hwRel (s : State) (n : Nat) (x : RefInput) : (s.setRef n x).hwRel = s.hwRel := rfl
@[simp] theorem State.setRef_sched (s : State) (n : Nat) (x : RefInput) : (s.setRef n x).sched = s.sched := rfl
@[simp] theorem State.setRef_acceptSeq (s : State) (n : Nat) (x : RefInput) : (s.setRef n x).acceptSeq = s.acceptSeq := rfl
@[simp] theorem State.setRef_stepped (s : State) (n : Nat) (x : RefInput) : (s.setRef n x).stepped = s.stepped := rfl
@[simp] theorem State.setRef_heldWrites (s : State) (n : Nat) (x : RefInput) : (s.setRef n x).heldWrites = s.heldWrites := rfl
@[simp] theorem State.setRef_anchors (s : State) (n : Nat) (x : RefInput) : (s.setRef n x).anchors = s.anchors := rfl
@[simp] theorem State.setRef_primary (s : State) (n : Nat) (x : RefInput) : (s.setRef n x).primary = s.primary := rfl
@[simp] theorem State.setRef_primaryAt (s : State) (n : Nat) (x : RefInput) : (s.setRef n x).primaryAt = s.primaryAt := rfl
@[simp] theorem State.setRef_initDone (s : State) (n : Nat) (x : RefInput) : (s.setRef n x).initDone = s.initDone := rfl
@[simp] theorem State.setRef_alignRun (s : State) (n : Nat) (x : RefInput) : (s.setRef n x).alignRun = s.alignRun := rfl
@[simp] theorem State.setRef_alignOver (s : State) (n : Nat) (x : RefInput) : (s.setRef n x).alignOver = s.alignOver := rfl
@[simp] theorem State.setRef_ancEventAt (s : State) (n : Nat) (x : RefInput) : (s.setRef n x).ancEventAt = s.ancEventAt := rfl
@[simp] theorem State.setRef_xferStamp (s : State) (n : Nat) (x : RefInput) : (s.setRef n x).xferStamp = s.xferStamp := rfl
@[simp] theorem State.setRef_transfer (s : State) (n : Nat) (x : RefInput) : (s.setRef n x).transfer = s.transfer := rfl
@[simp] theorem State.setRef_later (s : State) (n : Nat) (x : RefInput) : (s.setRef n x).later = s.later := rfl
@[simp] theorem State.setRef_cores (s : State) (n : Nat) (x : RefInput) : (s.setRef n x).cores = s.cores := rfl
@[simp] theorem State.setRef_outs (s : State) (n : Nat) (x : RefInput) : (s.setRef n x).outs = s.outs := rfl
@[simp] theorem State.setRef_ras (s : State) (n : Nat) (x : RefInput) : (s.setRef n x).ras = s.ras := rfl
@[simp] theorem State.setRef_stations (s : State) (n : Nat) (x : RefInput) : (s.setRef n x).stations = s.stations := rfl
@[simp] theorem State.setRef_pgm (s : State) (n : Nat) (x : RefInput) : (s.setRef n x).pgm = s.pgm := rfl
@[simp] theorem State.setRef_profs (s : State) (n : Nat) (x : RefInput) : (s.setRef n x).profs = s.profs := rfl
@[simp] theorem State.setRef_shadows (s : State) (n : Nat) (x : RefInput) : (s.setRef n x).shadows = s.shadows := rfl
@[simp] theorem State.setRef_check (s : State) (n : Nat) (x : RefInput) : (s.setRef n x).check = s.check := rfl
@[simp] theorem State.setRef_statPins (s : State) (n : Nat) (x : RefInput) : (s.setRef n x).statPins = s.statPins := rfl
@[simp] theorem State.setRef_lanes (s : State) (n : Nat) (x : RefInput) : (s.setRef n x).lanes = s.lanes := rfl
@[simp] theorem State.setRef_lng (s : State) (n : Nat) (x : RefInput) : (s.setRef n x).lng = s.lng := rfl
@[simp] theorem State.setRef_fleet (s : State) (n : Nat) (x : RefInput) : (s.setRef n x).fleet = s.fleet := rfl
@[simp] theorem State.setRef_spareRows (s : State) (n : Nat) (x : RefInput) : (s.setRef n x).spareRows = s.spareRows := rfl
@[simp] theorem State.setRef_fencedEntries (s : State) (n : Nat) (x : RefInput) : (s.setRef n x).fencedEntries = s.fencedEntries := rfl
@[simp] theorem State.setRef_refills (s : State) (n : Nat) (x : RefInput) : (s.setRef n x).refills = s.refills := rfl
@[simp] theorem State.setRef_cal (s : State) (n : Nat) (x : RefInput) : (s.setRef n x).cal = s.cal := rfl
@[simp] theorem State.setRef_mon (s : State) (n : Nat) (x : RefInput) : (s.setRef n x).mon = s.mon := rfl
@[simp] theorem State.setRef_bar (s : State) (n : Nat) (x : RefInput) : (s.setRef n x).bar = s.bar := rfl
@[simp] theorem State.setRef_flash (s : State) (n : Nat) (x : RefInput) : (s.setRef n x).flash = s.flash := rfl
@[simp] theorem State.setRef_otp (s : State) (n : Nat) (x : RefInput) : (s.setRef n x).otp = s.otp := rfl
@[simp] theorem State.setRef_store (s : State) (n : Nat) (x : RefInput) : (s.setRef n x).store = s.store := rfl
@[simp] theorem State.setRef_boot (s : State) (n : Nat) (x : RefInput) : (s.setRef n x).boot = s.boot := rfl
@[simp] theorem State.setRef_svc (s : State) (n : Nat) (x : RefInput) : (s.setRef n x).svc = s.svc := rfl
@[simp] theorem State.setRef_hspi (s : State) (n : Nat) (x : RefInput) : (s.setRef n x).hspi = s.hspi := rfl
@[simp] theorem State.setRef_mbx (s : State) (n : Nat) (x : RefInput) : (s.setRef n x).mbx = s.mbx := rfl
@[simp] theorem State.setRef_pins (s : State) (n : Nat) (x : RefInput) : (s.setRef n x).pins = s.pins := rfl
@[simp] theorem State.setRef_powering (s : State) (n : Nat) (x : RefInput) : (s.setRef n x).powering = s.powering := rfl
@[simp] theorem State.setRef_reloads (s : State) (n : Nat) (x : RefInput) : (s.setRef n x).reloads = s.reloads := rfl
@[simp] theorem State.setRef_readData (s : State) (n : Nat) (x : RefInput) : (s.setRef n x).readData = s.readData := rfl
@[simp] theorem State.setRef_halted (s : State) (n : Nat) (x : RefInput) : (s.setRef n x).halted = s.halted := rfl
@[simp] theorem State.setRef_calVals (s : State) (n : Nat) (x : RefInput) : (s.setRef n x).calVals = s.calVals := rfl
@[simp] theorem State.setRef_at_reg (s : State) (n : Nat) (x : RefInput) (r0 : RegName) (i0 : Nat) : (s.setRef n x).reg r0 i0 = s.reg r0 i0 := rfl
@[simp] theorem State.setRef_at_fld (s : State) (n : Nat) (x : RefInput) (f0 : Field) (i0 : Nat) : (s.setRef n x).fld f0 i0 = s.fld f0 i0 := rfl
@[simp] theorem State.setRef_at_flag (s : State) (n : Nat) (x : RefInput) (f0 : Field) (i0 : Nat) : (s.setRef n x).flag f0 i0 = s.flag f0 i0 := rfl
@[simp] theorem State.setRef_at_core (s : State) (n : Nat) (x : RefInput) (m : Nat) : (s.setRef n x).core m = s.core m := rfl
@[simp] theorem State.setRef_at_out (s : State) (n : Nat) (x : RefInput) (m : Nat) : (s.setRef n x).out m = s.out m := rfl
@[simp] theorem State.setRef_at_anc (s : State) (n : Nat) (x : RefInput) (m : Nat) : (s.setRef n x).anc m = s.anc m := rfl
@[simp] theorem State.setRef_at_rasCh (s : State) (n : Nat) (x : RefInput) (m : Nat) : (s.setRef n x).rasCh m = s.rasCh m := rfl
@[simp] theorem State.setRef_at_stn (s : State) (n : Nat) (x : RefInput) (m : Nat) : (s.setRef n x).stn m = s.stn m := rfl
@[simp] theorem State.setRef_at_slotSt (s : State) (n : Nat) (x : RefInput) (m k0 : Nat) : (s.setRef n x).slotSt m k0 = s.slotSt m k0 := rfl
@[simp] theorem State.setRef_at_win (s : State) (n : Nat) (x : RefInput) (m : Nat) : (s.setRef n x).win m = s.win m := rfl
@[simp] theorem State.setRef_at_trig (s : State) (n : Nat) (x : RefInput) (m : Nat) : (s.setRef n x).trig m = s.trig m := rfl
@[simp] theorem State.setRef_at_lane (s : State) (n : Nat) (x : RefInput) (m : Nat) : (s.setRef n x).lane m = s.lane m := rfl
@[simp] theorem State.setRef_at_grp (s : State) (n : Nat) (x : RefInput) (m : Nat) : (s.setRef n x).grp m = s.grp m := rfl
@[simp] theorem State.setRef_at_now (s : State) (n : Nat) (x : RefInput) : (s.setRef n x).now  = s.now := rfl
@[simp] theorem State.setRef_at_power (s : State) (n : Nat) (x : RefInput) : (s.setRef n x).power  = s.power := rfl
@[simp] theorem State.setRef_at_active (s : State) (n : Nat) (x : RefInput) : (s.setRef n x).active  = s.active := rfl
@[simp] theorem State.setRef_at_up (s : State) (n : Nat) (x : RefInput) : (s.setRef n x).up  = s.up := rfl

/-! ## State.modRef -/

@[simp] theorem State.modRef_pending (s : State) (n : Nat) (f : RefInput → RefInput) : (s.modRef n f).pending = s.pending := rfl
@[simp] theorem State.modRef_count (s : State) (n : Nat) (f : RefInput → RefInput) : (s.modRef n f).count = s.count := rfl
@[simp] theorem State.modRef_elapsed (s : State) (n : Nat) (f : RefInput → RefInput) : (s.modRef n f).elapsed = s.elapsed := rfl
@[simp] theorem State.modRef_regs (s : State) (n : Nat) (f : RefInput → RefInput) : (s.modRef n f).regs = s.regs := rfl
@[simp] theorem State.modRef_windows (s : State) (n : Nat) (f : RefInput → RefInput) : (s.modRef n f).windows = s.windows := rfl
@[simp] theorem State.modRef_raises (s : State) (n : Nat) (f : RefInput → RefInput) : (s.modRef n f).raises = s.raises := rfl
@[simp] theorem State.modRef_sticks (s : State) (n : Nat) (f : RefInput → RefInput) : (s.modRef n f).sticks = s.sticks := rfl
@[simp] theorem State.modRef_lapses (s : State) (n : Nat) (f : RefInput → RefInput) : (s.modRef n f).lapses = s.lapses := rfl
@[simp] theorem State.modRef_sync (s : State) (n : Nat) (f : RefInput → RefInput) : (s.modRef n f).sync = s.sync := rfl
@[simp] theorem State.modRef_syncDue (s : State) (n : Nat) (f : RefInput → RefInput) : (s.modRef n f).syncDue = s.syncDue := rfl
@[simp] theorem State.modRef_syncStamp (s : State) (n : Nat) (f : RefInput → RefInput) : (s.modRef n f).syncStamp = s.syncStamp := rfl
@[simp] theorem State.modRef_trigs (s : State) (n : Nat) (f : RefInput → RefInput) : (s.modRef n f).trigs = s.trigs := rfl
@[simp] theorem State.modRef_hwRel (s : State) (n : Nat) (f : RefInput → RefInput) : (s.modRef n f).hwRel = s.hwRel := rfl
@[simp] theorem State.modRef_sched (s : State) (n : Nat) (f : RefInput → RefInput) : (s.modRef n f).sched = s.sched := rfl
@[simp] theorem State.modRef_acceptSeq (s : State) (n : Nat) (f : RefInput → RefInput) : (s.modRef n f).acceptSeq = s.acceptSeq := rfl
@[simp] theorem State.modRef_stepped (s : State) (n : Nat) (f : RefInput → RefInput) : (s.modRef n f).stepped = s.stepped := rfl
@[simp] theorem State.modRef_heldWrites (s : State) (n : Nat) (f : RefInput → RefInput) : (s.modRef n f).heldWrites = s.heldWrites := rfl
@[simp] theorem State.modRef_anchors (s : State) (n : Nat) (f : RefInput → RefInput) : (s.modRef n f).anchors = s.anchors := rfl
@[simp] theorem State.modRef_primary (s : State) (n : Nat) (f : RefInput → RefInput) : (s.modRef n f).primary = s.primary := rfl
@[simp] theorem State.modRef_primaryAt (s : State) (n : Nat) (f : RefInput → RefInput) : (s.modRef n f).primaryAt = s.primaryAt := rfl
@[simp] theorem State.modRef_initDone (s : State) (n : Nat) (f : RefInput → RefInput) : (s.modRef n f).initDone = s.initDone := rfl
@[simp] theorem State.modRef_alignRun (s : State) (n : Nat) (f : RefInput → RefInput) : (s.modRef n f).alignRun = s.alignRun := rfl
@[simp] theorem State.modRef_alignOver (s : State) (n : Nat) (f : RefInput → RefInput) : (s.modRef n f).alignOver = s.alignOver := rfl
@[simp] theorem State.modRef_ancEventAt (s : State) (n : Nat) (f : RefInput → RefInput) : (s.modRef n f).ancEventAt = s.ancEventAt := rfl
@[simp] theorem State.modRef_xferStamp (s : State) (n : Nat) (f : RefInput → RefInput) : (s.modRef n f).xferStamp = s.xferStamp := rfl
@[simp] theorem State.modRef_transfer (s : State) (n : Nat) (f : RefInput → RefInput) : (s.modRef n f).transfer = s.transfer := rfl
@[simp] theorem State.modRef_later (s : State) (n : Nat) (f : RefInput → RefInput) : (s.modRef n f).later = s.later := rfl
@[simp] theorem State.modRef_cores (s : State) (n : Nat) (f : RefInput → RefInput) : (s.modRef n f).cores = s.cores := rfl
@[simp] theorem State.modRef_outs (s : State) (n : Nat) (f : RefInput → RefInput) : (s.modRef n f).outs = s.outs := rfl
@[simp] theorem State.modRef_ras (s : State) (n : Nat) (f : RefInput → RefInput) : (s.modRef n f).ras = s.ras := rfl
@[simp] theorem State.modRef_stations (s : State) (n : Nat) (f : RefInput → RefInput) : (s.modRef n f).stations = s.stations := rfl
@[simp] theorem State.modRef_pgm (s : State) (n : Nat) (f : RefInput → RefInput) : (s.modRef n f).pgm = s.pgm := rfl
@[simp] theorem State.modRef_profs (s : State) (n : Nat) (f : RefInput → RefInput) : (s.modRef n f).profs = s.profs := rfl
@[simp] theorem State.modRef_shadows (s : State) (n : Nat) (f : RefInput → RefInput) : (s.modRef n f).shadows = s.shadows := rfl
@[simp] theorem State.modRef_check (s : State) (n : Nat) (f : RefInput → RefInput) : (s.modRef n f).check = s.check := rfl
@[simp] theorem State.modRef_statPins (s : State) (n : Nat) (f : RefInput → RefInput) : (s.modRef n f).statPins = s.statPins := rfl
@[simp] theorem State.modRef_lanes (s : State) (n : Nat) (f : RefInput → RefInput) : (s.modRef n f).lanes = s.lanes := rfl
@[simp] theorem State.modRef_lng (s : State) (n : Nat) (f : RefInput → RefInput) : (s.modRef n f).lng = s.lng := rfl
@[simp] theorem State.modRef_fleet (s : State) (n : Nat) (f : RefInput → RefInput) : (s.modRef n f).fleet = s.fleet := rfl
@[simp] theorem State.modRef_spareRows (s : State) (n : Nat) (f : RefInput → RefInput) : (s.modRef n f).spareRows = s.spareRows := rfl
@[simp] theorem State.modRef_fencedEntries (s : State) (n : Nat) (f : RefInput → RefInput) : (s.modRef n f).fencedEntries = s.fencedEntries := rfl
@[simp] theorem State.modRef_refills (s : State) (n : Nat) (f : RefInput → RefInput) : (s.modRef n f).refills = s.refills := rfl
@[simp] theorem State.modRef_cal (s : State) (n : Nat) (f : RefInput → RefInput) : (s.modRef n f).cal = s.cal := rfl
@[simp] theorem State.modRef_mon (s : State) (n : Nat) (f : RefInput → RefInput) : (s.modRef n f).mon = s.mon := rfl
@[simp] theorem State.modRef_bar (s : State) (n : Nat) (f : RefInput → RefInput) : (s.modRef n f).bar = s.bar := rfl
@[simp] theorem State.modRef_flash (s : State) (n : Nat) (f : RefInput → RefInput) : (s.modRef n f).flash = s.flash := rfl
@[simp] theorem State.modRef_otp (s : State) (n : Nat) (f : RefInput → RefInput) : (s.modRef n f).otp = s.otp := rfl
@[simp] theorem State.modRef_store (s : State) (n : Nat) (f : RefInput → RefInput) : (s.modRef n f).store = s.store := rfl
@[simp] theorem State.modRef_boot (s : State) (n : Nat) (f : RefInput → RefInput) : (s.modRef n f).boot = s.boot := rfl
@[simp] theorem State.modRef_svc (s : State) (n : Nat) (f : RefInput → RefInput) : (s.modRef n f).svc = s.svc := rfl
@[simp] theorem State.modRef_hspi (s : State) (n : Nat) (f : RefInput → RefInput) : (s.modRef n f).hspi = s.hspi := rfl
@[simp] theorem State.modRef_mbx (s : State) (n : Nat) (f : RefInput → RefInput) : (s.modRef n f).mbx = s.mbx := rfl
@[simp] theorem State.modRef_pins (s : State) (n : Nat) (f : RefInput → RefInput) : (s.modRef n f).pins = s.pins := rfl
@[simp] theorem State.modRef_powering (s : State) (n : Nat) (f : RefInput → RefInput) : (s.modRef n f).powering = s.powering := rfl
@[simp] theorem State.modRef_reloads (s : State) (n : Nat) (f : RefInput → RefInput) : (s.modRef n f).reloads = s.reloads := rfl
@[simp] theorem State.modRef_readData (s : State) (n : Nat) (f : RefInput → RefInput) : (s.modRef n f).readData = s.readData := rfl
@[simp] theorem State.modRef_halted (s : State) (n : Nat) (f : RefInput → RefInput) : (s.modRef n f).halted = s.halted := rfl
@[simp] theorem State.modRef_calVals (s : State) (n : Nat) (f : RefInput → RefInput) : (s.modRef n f).calVals = s.calVals := rfl
@[simp] theorem State.modRef_at_reg (s : State) (n : Nat) (f : RefInput → RefInput) (r0 : RegName) (i0 : Nat) : (s.modRef n f).reg r0 i0 = s.reg r0 i0 := rfl
@[simp] theorem State.modRef_at_fld (s : State) (n : Nat) (f : RefInput → RefInput) (f0 : Field) (i0 : Nat) : (s.modRef n f).fld f0 i0 = s.fld f0 i0 := rfl
@[simp] theorem State.modRef_at_flag (s : State) (n : Nat) (f : RefInput → RefInput) (f0 : Field) (i0 : Nat) : (s.modRef n f).flag f0 i0 = s.flag f0 i0 := rfl
@[simp] theorem State.modRef_at_core (s : State) (n : Nat) (f : RefInput → RefInput) (m : Nat) : (s.modRef n f).core m = s.core m := rfl
@[simp] theorem State.modRef_at_out (s : State) (n : Nat) (f : RefInput → RefInput) (m : Nat) : (s.modRef n f).out m = s.out m := rfl
@[simp] theorem State.modRef_at_anc (s : State) (n : Nat) (f : RefInput → RefInput) (m : Nat) : (s.modRef n f).anc m = s.anc m := rfl
@[simp] theorem State.modRef_at_rasCh (s : State) (n : Nat) (f : RefInput → RefInput) (m : Nat) : (s.modRef n f).rasCh m = s.rasCh m := rfl
@[simp] theorem State.modRef_at_stn (s : State) (n : Nat) (f : RefInput → RefInput) (m : Nat) : (s.modRef n f).stn m = s.stn m := rfl
@[simp] theorem State.modRef_at_slotSt (s : State) (n : Nat) (f : RefInput → RefInput) (m k0 : Nat) : (s.modRef n f).slotSt m k0 = s.slotSt m k0 := rfl
@[simp] theorem State.modRef_at_win (s : State) (n : Nat) (f : RefInput → RefInput) (m : Nat) : (s.modRef n f).win m = s.win m := rfl
@[simp] theorem State.modRef_at_trig (s : State) (n : Nat) (f : RefInput → RefInput) (m : Nat) : (s.modRef n f).trig m = s.trig m := rfl
@[simp] theorem State.modRef_at_lane (s : State) (n : Nat) (f : RefInput → RefInput) (m : Nat) : (s.modRef n f).lane m = s.lane m := rfl
@[simp] theorem State.modRef_at_grp (s : State) (n : Nat) (f : RefInput → RefInput) (m : Nat) : (s.modRef n f).grp m = s.grp m := rfl
@[simp] theorem State.modRef_at_now (s : State) (n : Nat) (f : RefInput → RefInput) : (s.modRef n f).now  = s.now := rfl
@[simp] theorem State.modRef_at_power (s : State) (n : Nat) (f : RefInput → RefInput) : (s.modRef n f).power  = s.power := rfl
@[simp] theorem State.modRef_at_active (s : State) (n : Nat) (f : RefInput → RefInput) : (s.modRef n f).active  = s.active := rfl
@[simp] theorem State.modRef_at_up (s : State) (n : Nat) (f : RefInput → RefInput) : (s.modRef n f).up  = s.up := rfl

/-! ## State.setRas -/

@[simp] theorem State.setRas_pending (s : State) (n : Nat) (x : Raster) : (s.setRas n x).pending = s.pending := rfl
@[simp] theorem State.setRas_count (s : State) (n : Nat) (x : Raster) : (s.setRas n x).count = s.count := rfl
@[simp] theorem State.setRas_elapsed (s : State) (n : Nat) (x : Raster) : (s.setRas n x).elapsed = s.elapsed := rfl
@[simp] theorem State.setRas_regs (s : State) (n : Nat) (x : Raster) : (s.setRas n x).regs = s.regs := rfl
@[simp] theorem State.setRas_windows (s : State) (n : Nat) (x : Raster) : (s.setRas n x).windows = s.windows := rfl
@[simp] theorem State.setRas_raises (s : State) (n : Nat) (x : Raster) : (s.setRas n x).raises = s.raises := rfl
@[simp] theorem State.setRas_sticks (s : State) (n : Nat) (x : Raster) : (s.setRas n x).sticks = s.sticks := rfl
@[simp] theorem State.setRas_lapses (s : State) (n : Nat) (x : Raster) : (s.setRas n x).lapses = s.lapses := rfl
@[simp] theorem State.setRas_sync (s : State) (n : Nat) (x : Raster) : (s.setRas n x).sync = s.sync := rfl
@[simp] theorem State.setRas_syncDue (s : State) (n : Nat) (x : Raster) : (s.setRas n x).syncDue = s.syncDue := rfl
@[simp] theorem State.setRas_syncStamp (s : State) (n : Nat) (x : Raster) : (s.setRas n x).syncStamp = s.syncStamp := rfl
@[simp] theorem State.setRas_trigs (s : State) (n : Nat) (x : Raster) : (s.setRas n x).trigs = s.trigs := rfl
@[simp] theorem State.setRas_hwRel (s : State) (n : Nat) (x : Raster) : (s.setRas n x).hwRel = s.hwRel := rfl
@[simp] theorem State.setRas_sched (s : State) (n : Nat) (x : Raster) : (s.setRas n x).sched = s.sched := rfl
@[simp] theorem State.setRas_acceptSeq (s : State) (n : Nat) (x : Raster) : (s.setRas n x).acceptSeq = s.acceptSeq := rfl
@[simp] theorem State.setRas_stepped (s : State) (n : Nat) (x : Raster) : (s.setRas n x).stepped = s.stepped := rfl
@[simp] theorem State.setRas_heldWrites (s : State) (n : Nat) (x : Raster) : (s.setRas n x).heldWrites = s.heldWrites := rfl
@[simp] theorem State.setRas_refs (s : State) (n : Nat) (x : Raster) : (s.setRas n x).refs = s.refs := rfl
@[simp] theorem State.setRas_anchors (s : State) (n : Nat) (x : Raster) : (s.setRas n x).anchors = s.anchors := rfl
@[simp] theorem State.setRas_primary (s : State) (n : Nat) (x : Raster) : (s.setRas n x).primary = s.primary := rfl
@[simp] theorem State.setRas_primaryAt (s : State) (n : Nat) (x : Raster) : (s.setRas n x).primaryAt = s.primaryAt := rfl
@[simp] theorem State.setRas_initDone (s : State) (n : Nat) (x : Raster) : (s.setRas n x).initDone = s.initDone := rfl
@[simp] theorem State.setRas_alignRun (s : State) (n : Nat) (x : Raster) : (s.setRas n x).alignRun = s.alignRun := rfl
@[simp] theorem State.setRas_alignOver (s : State) (n : Nat) (x : Raster) : (s.setRas n x).alignOver = s.alignOver := rfl
@[simp] theorem State.setRas_ancEventAt (s : State) (n : Nat) (x : Raster) : (s.setRas n x).ancEventAt = s.ancEventAt := rfl
@[simp] theorem State.setRas_xferStamp (s : State) (n : Nat) (x : Raster) : (s.setRas n x).xferStamp = s.xferStamp := rfl
@[simp] theorem State.setRas_transfer (s : State) (n : Nat) (x : Raster) : (s.setRas n x).transfer = s.transfer := rfl
@[simp] theorem State.setRas_later (s : State) (n : Nat) (x : Raster) : (s.setRas n x).later = s.later := rfl
@[simp] theorem State.setRas_cores (s : State) (n : Nat) (x : Raster) : (s.setRas n x).cores = s.cores := rfl
@[simp] theorem State.setRas_outs (s : State) (n : Nat) (x : Raster) : (s.setRas n x).outs = s.outs := rfl
@[simp] theorem State.setRas_stations (s : State) (n : Nat) (x : Raster) : (s.setRas n x).stations = s.stations := rfl
@[simp] theorem State.setRas_pgm (s : State) (n : Nat) (x : Raster) : (s.setRas n x).pgm = s.pgm := rfl
@[simp] theorem State.setRas_profs (s : State) (n : Nat) (x : Raster) : (s.setRas n x).profs = s.profs := rfl
@[simp] theorem State.setRas_shadows (s : State) (n : Nat) (x : Raster) : (s.setRas n x).shadows = s.shadows := rfl
@[simp] theorem State.setRas_check (s : State) (n : Nat) (x : Raster) : (s.setRas n x).check = s.check := rfl
@[simp] theorem State.setRas_statPins (s : State) (n : Nat) (x : Raster) : (s.setRas n x).statPins = s.statPins := rfl
@[simp] theorem State.setRas_lanes (s : State) (n : Nat) (x : Raster) : (s.setRas n x).lanes = s.lanes := rfl
@[simp] theorem State.setRas_lng (s : State) (n : Nat) (x : Raster) : (s.setRas n x).lng = s.lng := rfl
@[simp] theorem State.setRas_fleet (s : State) (n : Nat) (x : Raster) : (s.setRas n x).fleet = s.fleet := rfl
@[simp] theorem State.setRas_spareRows (s : State) (n : Nat) (x : Raster) : (s.setRas n x).spareRows = s.spareRows := rfl
@[simp] theorem State.setRas_fencedEntries (s : State) (n : Nat) (x : Raster) : (s.setRas n x).fencedEntries = s.fencedEntries := rfl
@[simp] theorem State.setRas_refills (s : State) (n : Nat) (x : Raster) : (s.setRas n x).refills = s.refills := rfl
@[simp] theorem State.setRas_cal (s : State) (n : Nat) (x : Raster) : (s.setRas n x).cal = s.cal := rfl
@[simp] theorem State.setRas_mon (s : State) (n : Nat) (x : Raster) : (s.setRas n x).mon = s.mon := rfl
@[simp] theorem State.setRas_bar (s : State) (n : Nat) (x : Raster) : (s.setRas n x).bar = s.bar := rfl
@[simp] theorem State.setRas_flash (s : State) (n : Nat) (x : Raster) : (s.setRas n x).flash = s.flash := rfl
@[simp] theorem State.setRas_otp (s : State) (n : Nat) (x : Raster) : (s.setRas n x).otp = s.otp := rfl
@[simp] theorem State.setRas_store (s : State) (n : Nat) (x : Raster) : (s.setRas n x).store = s.store := rfl
@[simp] theorem State.setRas_boot (s : State) (n : Nat) (x : Raster) : (s.setRas n x).boot = s.boot := rfl
@[simp] theorem State.setRas_svc (s : State) (n : Nat) (x : Raster) : (s.setRas n x).svc = s.svc := rfl
@[simp] theorem State.setRas_hspi (s : State) (n : Nat) (x : Raster) : (s.setRas n x).hspi = s.hspi := rfl
@[simp] theorem State.setRas_mbx (s : State) (n : Nat) (x : Raster) : (s.setRas n x).mbx = s.mbx := rfl
@[simp] theorem State.setRas_pins (s : State) (n : Nat) (x : Raster) : (s.setRas n x).pins = s.pins := rfl
@[simp] theorem State.setRas_powering (s : State) (n : Nat) (x : Raster) : (s.setRas n x).powering = s.powering := rfl
@[simp] theorem State.setRas_reloads (s : State) (n : Nat) (x : Raster) : (s.setRas n x).reloads = s.reloads := rfl
@[simp] theorem State.setRas_readData (s : State) (n : Nat) (x : Raster) : (s.setRas n x).readData = s.readData := rfl
@[simp] theorem State.setRas_halted (s : State) (n : Nat) (x : Raster) : (s.setRas n x).halted = s.halted := rfl
@[simp] theorem State.setRas_calVals (s : State) (n : Nat) (x : Raster) : (s.setRas n x).calVals = s.calVals := rfl
@[simp] theorem State.setRas_at_reg (s : State) (n : Nat) (x : Raster) (r0 : RegName) (i0 : Nat) : (s.setRas n x).reg r0 i0 = s.reg r0 i0 := rfl
@[simp] theorem State.setRas_at_fld (s : State) (n : Nat) (x : Raster) (f0 : Field) (i0 : Nat) : (s.setRas n x).fld f0 i0 = s.fld f0 i0 := rfl
@[simp] theorem State.setRas_at_flag (s : State) (n : Nat) (x : Raster) (f0 : Field) (i0 : Nat) : (s.setRas n x).flag f0 i0 = s.flag f0 i0 := rfl
@[simp] theorem State.setRas_at_core (s : State) (n : Nat) (x : Raster) (m : Nat) : (s.setRas n x).core m = s.core m := rfl
@[simp] theorem State.setRas_at_out (s : State) (n : Nat) (x : Raster) (m : Nat) : (s.setRas n x).out m = s.out m := rfl
@[simp] theorem State.setRas_at_anc (s : State) (n : Nat) (x : Raster) (m : Nat) : (s.setRas n x).anc m = s.anc m := rfl
@[simp] theorem State.setRas_at_ref (s : State) (n : Nat) (x : Raster) (m : Nat) : (s.setRas n x).ref m = s.ref m := rfl
@[simp] theorem State.setRas_at_stn (s : State) (n : Nat) (x : Raster) (m : Nat) : (s.setRas n x).stn m = s.stn m := rfl
@[simp] theorem State.setRas_at_slotSt (s : State) (n : Nat) (x : Raster) (m k0 : Nat) : (s.setRas n x).slotSt m k0 = s.slotSt m k0 := rfl
@[simp] theorem State.setRas_at_win (s : State) (n : Nat) (x : Raster) (m : Nat) : (s.setRas n x).win m = s.win m := rfl
@[simp] theorem State.setRas_at_trig (s : State) (n : Nat) (x : Raster) (m : Nat) : (s.setRas n x).trig m = s.trig m := rfl
@[simp] theorem State.setRas_at_lane (s : State) (n : Nat) (x : Raster) (m : Nat) : (s.setRas n x).lane m = s.lane m := rfl
@[simp] theorem State.setRas_at_grp (s : State) (n : Nat) (x : Raster) (m : Nat) : (s.setRas n x).grp m = s.grp m := rfl
@[simp] theorem State.setRas_at_now (s : State) (n : Nat) (x : Raster) : (s.setRas n x).now  = s.now := rfl
@[simp] theorem State.setRas_at_power (s : State) (n : Nat) (x : Raster) : (s.setRas n x).power  = s.power := rfl
@[simp] theorem State.setRas_at_active (s : State) (n : Nat) (x : Raster) : (s.setRas n x).active  = s.active := rfl
@[simp] theorem State.setRas_at_up (s : State) (n : Nat) (x : Raster) : (s.setRas n x).up  = s.up := rfl

/-! ## State.modRas -/

@[simp] theorem State.modRas_pending (s : State) (n : Nat) (f : Raster → Raster) : (s.modRas n f).pending = s.pending := rfl
@[simp] theorem State.modRas_count (s : State) (n : Nat) (f : Raster → Raster) : (s.modRas n f).count = s.count := rfl
@[simp] theorem State.modRas_elapsed (s : State) (n : Nat) (f : Raster → Raster) : (s.modRas n f).elapsed = s.elapsed := rfl
@[simp] theorem State.modRas_regs (s : State) (n : Nat) (f : Raster → Raster) : (s.modRas n f).regs = s.regs := rfl
@[simp] theorem State.modRas_windows (s : State) (n : Nat) (f : Raster → Raster) : (s.modRas n f).windows = s.windows := rfl
@[simp] theorem State.modRas_raises (s : State) (n : Nat) (f : Raster → Raster) : (s.modRas n f).raises = s.raises := rfl
@[simp] theorem State.modRas_sticks (s : State) (n : Nat) (f : Raster → Raster) : (s.modRas n f).sticks = s.sticks := rfl
@[simp] theorem State.modRas_lapses (s : State) (n : Nat) (f : Raster → Raster) : (s.modRas n f).lapses = s.lapses := rfl
@[simp] theorem State.modRas_sync (s : State) (n : Nat) (f : Raster → Raster) : (s.modRas n f).sync = s.sync := rfl
@[simp] theorem State.modRas_syncDue (s : State) (n : Nat) (f : Raster → Raster) : (s.modRas n f).syncDue = s.syncDue := rfl
@[simp] theorem State.modRas_syncStamp (s : State) (n : Nat) (f : Raster → Raster) : (s.modRas n f).syncStamp = s.syncStamp := rfl
@[simp] theorem State.modRas_trigs (s : State) (n : Nat) (f : Raster → Raster) : (s.modRas n f).trigs = s.trigs := rfl
@[simp] theorem State.modRas_hwRel (s : State) (n : Nat) (f : Raster → Raster) : (s.modRas n f).hwRel = s.hwRel := rfl
@[simp] theorem State.modRas_sched (s : State) (n : Nat) (f : Raster → Raster) : (s.modRas n f).sched = s.sched := rfl
@[simp] theorem State.modRas_acceptSeq (s : State) (n : Nat) (f : Raster → Raster) : (s.modRas n f).acceptSeq = s.acceptSeq := rfl
@[simp] theorem State.modRas_stepped (s : State) (n : Nat) (f : Raster → Raster) : (s.modRas n f).stepped = s.stepped := rfl
@[simp] theorem State.modRas_heldWrites (s : State) (n : Nat) (f : Raster → Raster) : (s.modRas n f).heldWrites = s.heldWrites := rfl
@[simp] theorem State.modRas_refs (s : State) (n : Nat) (f : Raster → Raster) : (s.modRas n f).refs = s.refs := rfl
@[simp] theorem State.modRas_anchors (s : State) (n : Nat) (f : Raster → Raster) : (s.modRas n f).anchors = s.anchors := rfl
@[simp] theorem State.modRas_primary (s : State) (n : Nat) (f : Raster → Raster) : (s.modRas n f).primary = s.primary := rfl
@[simp] theorem State.modRas_primaryAt (s : State) (n : Nat) (f : Raster → Raster) : (s.modRas n f).primaryAt = s.primaryAt := rfl
@[simp] theorem State.modRas_initDone (s : State) (n : Nat) (f : Raster → Raster) : (s.modRas n f).initDone = s.initDone := rfl
@[simp] theorem State.modRas_alignRun (s : State) (n : Nat) (f : Raster → Raster) : (s.modRas n f).alignRun = s.alignRun := rfl
@[simp] theorem State.modRas_alignOver (s : State) (n : Nat) (f : Raster → Raster) : (s.modRas n f).alignOver = s.alignOver := rfl
@[simp] theorem State.modRas_ancEventAt (s : State) (n : Nat) (f : Raster → Raster) : (s.modRas n f).ancEventAt = s.ancEventAt := rfl
@[simp] theorem State.modRas_xferStamp (s : State) (n : Nat) (f : Raster → Raster) : (s.modRas n f).xferStamp = s.xferStamp := rfl
@[simp] theorem State.modRas_transfer (s : State) (n : Nat) (f : Raster → Raster) : (s.modRas n f).transfer = s.transfer := rfl
@[simp] theorem State.modRas_later (s : State) (n : Nat) (f : Raster → Raster) : (s.modRas n f).later = s.later := rfl
@[simp] theorem State.modRas_cores (s : State) (n : Nat) (f : Raster → Raster) : (s.modRas n f).cores = s.cores := rfl
@[simp] theorem State.modRas_outs (s : State) (n : Nat) (f : Raster → Raster) : (s.modRas n f).outs = s.outs := rfl
@[simp] theorem State.modRas_stations (s : State) (n : Nat) (f : Raster → Raster) : (s.modRas n f).stations = s.stations := rfl
@[simp] theorem State.modRas_pgm (s : State) (n : Nat) (f : Raster → Raster) : (s.modRas n f).pgm = s.pgm := rfl
@[simp] theorem State.modRas_profs (s : State) (n : Nat) (f : Raster → Raster) : (s.modRas n f).profs = s.profs := rfl
@[simp] theorem State.modRas_shadows (s : State) (n : Nat) (f : Raster → Raster) : (s.modRas n f).shadows = s.shadows := rfl
@[simp] theorem State.modRas_check (s : State) (n : Nat) (f : Raster → Raster) : (s.modRas n f).check = s.check := rfl
@[simp] theorem State.modRas_statPins (s : State) (n : Nat) (f : Raster → Raster) : (s.modRas n f).statPins = s.statPins := rfl
@[simp] theorem State.modRas_lanes (s : State) (n : Nat) (f : Raster → Raster) : (s.modRas n f).lanes = s.lanes := rfl
@[simp] theorem State.modRas_lng (s : State) (n : Nat) (f : Raster → Raster) : (s.modRas n f).lng = s.lng := rfl
@[simp] theorem State.modRas_fleet (s : State) (n : Nat) (f : Raster → Raster) : (s.modRas n f).fleet = s.fleet := rfl
@[simp] theorem State.modRas_spareRows (s : State) (n : Nat) (f : Raster → Raster) : (s.modRas n f).spareRows = s.spareRows := rfl
@[simp] theorem State.modRas_fencedEntries (s : State) (n : Nat) (f : Raster → Raster) : (s.modRas n f).fencedEntries = s.fencedEntries := rfl
@[simp] theorem State.modRas_refills (s : State) (n : Nat) (f : Raster → Raster) : (s.modRas n f).refills = s.refills := rfl
@[simp] theorem State.modRas_cal (s : State) (n : Nat) (f : Raster → Raster) : (s.modRas n f).cal = s.cal := rfl
@[simp] theorem State.modRas_mon (s : State) (n : Nat) (f : Raster → Raster) : (s.modRas n f).mon = s.mon := rfl
@[simp] theorem State.modRas_bar (s : State) (n : Nat) (f : Raster → Raster) : (s.modRas n f).bar = s.bar := rfl
@[simp] theorem State.modRas_flash (s : State) (n : Nat) (f : Raster → Raster) : (s.modRas n f).flash = s.flash := rfl
@[simp] theorem State.modRas_otp (s : State) (n : Nat) (f : Raster → Raster) : (s.modRas n f).otp = s.otp := rfl
@[simp] theorem State.modRas_store (s : State) (n : Nat) (f : Raster → Raster) : (s.modRas n f).store = s.store := rfl
@[simp] theorem State.modRas_boot (s : State) (n : Nat) (f : Raster → Raster) : (s.modRas n f).boot = s.boot := rfl
@[simp] theorem State.modRas_svc (s : State) (n : Nat) (f : Raster → Raster) : (s.modRas n f).svc = s.svc := rfl
@[simp] theorem State.modRas_hspi (s : State) (n : Nat) (f : Raster → Raster) : (s.modRas n f).hspi = s.hspi := rfl
@[simp] theorem State.modRas_mbx (s : State) (n : Nat) (f : Raster → Raster) : (s.modRas n f).mbx = s.mbx := rfl
@[simp] theorem State.modRas_pins (s : State) (n : Nat) (f : Raster → Raster) : (s.modRas n f).pins = s.pins := rfl
@[simp] theorem State.modRas_powering (s : State) (n : Nat) (f : Raster → Raster) : (s.modRas n f).powering = s.powering := rfl
@[simp] theorem State.modRas_reloads (s : State) (n : Nat) (f : Raster → Raster) : (s.modRas n f).reloads = s.reloads := rfl
@[simp] theorem State.modRas_readData (s : State) (n : Nat) (f : Raster → Raster) : (s.modRas n f).readData = s.readData := rfl
@[simp] theorem State.modRas_halted (s : State) (n : Nat) (f : Raster → Raster) : (s.modRas n f).halted = s.halted := rfl
@[simp] theorem State.modRas_calVals (s : State) (n : Nat) (f : Raster → Raster) : (s.modRas n f).calVals = s.calVals := rfl
@[simp] theorem State.modRas_at_reg (s : State) (n : Nat) (f : Raster → Raster) (r0 : RegName) (i0 : Nat) : (s.modRas n f).reg r0 i0 = s.reg r0 i0 := rfl
@[simp] theorem State.modRas_at_fld (s : State) (n : Nat) (f : Raster → Raster) (f0 : Field) (i0 : Nat) : (s.modRas n f).fld f0 i0 = s.fld f0 i0 := rfl
@[simp] theorem State.modRas_at_flag (s : State) (n : Nat) (f : Raster → Raster) (f0 : Field) (i0 : Nat) : (s.modRas n f).flag f0 i0 = s.flag f0 i0 := rfl
@[simp] theorem State.modRas_at_core (s : State) (n : Nat) (f : Raster → Raster) (m : Nat) : (s.modRas n f).core m = s.core m := rfl
@[simp] theorem State.modRas_at_out (s : State) (n : Nat) (f : Raster → Raster) (m : Nat) : (s.modRas n f).out m = s.out m := rfl
@[simp] theorem State.modRas_at_anc (s : State) (n : Nat) (f : Raster → Raster) (m : Nat) : (s.modRas n f).anc m = s.anc m := rfl
@[simp] theorem State.modRas_at_ref (s : State) (n : Nat) (f : Raster → Raster) (m : Nat) : (s.modRas n f).ref m = s.ref m := rfl
@[simp] theorem State.modRas_at_stn (s : State) (n : Nat) (f : Raster → Raster) (m : Nat) : (s.modRas n f).stn m = s.stn m := rfl
@[simp] theorem State.modRas_at_slotSt (s : State) (n : Nat) (f : Raster → Raster) (m k0 : Nat) : (s.modRas n f).slotSt m k0 = s.slotSt m k0 := rfl
@[simp] theorem State.modRas_at_win (s : State) (n : Nat) (f : Raster → Raster) (m : Nat) : (s.modRas n f).win m = s.win m := rfl
@[simp] theorem State.modRas_at_trig (s : State) (n : Nat) (f : Raster → Raster) (m : Nat) : (s.modRas n f).trig m = s.trig m := rfl
@[simp] theorem State.modRas_at_lane (s : State) (n : Nat) (f : Raster → Raster) (m : Nat) : (s.modRas n f).lane m = s.lane m := rfl
@[simp] theorem State.modRas_at_grp (s : State) (n : Nat) (f : Raster → Raster) (m : Nat) : (s.modRas n f).grp m = s.grp m := rfl
@[simp] theorem State.modRas_at_now (s : State) (n : Nat) (f : Raster → Raster) : (s.modRas n f).now  = s.now := rfl
@[simp] theorem State.modRas_at_power (s : State) (n : Nat) (f : Raster → Raster) : (s.modRas n f).power  = s.power := rfl
@[simp] theorem State.modRas_at_active (s : State) (n : Nat) (f : Raster → Raster) : (s.modRas n f).active  = s.active := rfl
@[simp] theorem State.modRas_at_up (s : State) (n : Nat) (f : Raster → Raster) : (s.modRas n f).up  = s.up := rfl

/-! ## State.setStn -/

@[simp] theorem State.setStn_pending (s : State) (n : Nat) (x : Station) : (s.setStn n x).pending = s.pending := rfl
@[simp] theorem State.setStn_count (s : State) (n : Nat) (x : Station) : (s.setStn n x).count = s.count := rfl
@[simp] theorem State.setStn_elapsed (s : State) (n : Nat) (x : Station) : (s.setStn n x).elapsed = s.elapsed := rfl
@[simp] theorem State.setStn_regs (s : State) (n : Nat) (x : Station) : (s.setStn n x).regs = s.regs := rfl
@[simp] theorem State.setStn_windows (s : State) (n : Nat) (x : Station) : (s.setStn n x).windows = s.windows := rfl
@[simp] theorem State.setStn_raises (s : State) (n : Nat) (x : Station) : (s.setStn n x).raises = s.raises := rfl
@[simp] theorem State.setStn_sticks (s : State) (n : Nat) (x : Station) : (s.setStn n x).sticks = s.sticks := rfl
@[simp] theorem State.setStn_lapses (s : State) (n : Nat) (x : Station) : (s.setStn n x).lapses = s.lapses := rfl
@[simp] theorem State.setStn_sync (s : State) (n : Nat) (x : Station) : (s.setStn n x).sync = s.sync := rfl
@[simp] theorem State.setStn_syncDue (s : State) (n : Nat) (x : Station) : (s.setStn n x).syncDue = s.syncDue := rfl
@[simp] theorem State.setStn_syncStamp (s : State) (n : Nat) (x : Station) : (s.setStn n x).syncStamp = s.syncStamp := rfl
@[simp] theorem State.setStn_trigs (s : State) (n : Nat) (x : Station) : (s.setStn n x).trigs = s.trigs := rfl
@[simp] theorem State.setStn_hwRel (s : State) (n : Nat) (x : Station) : (s.setStn n x).hwRel = s.hwRel := rfl
@[simp] theorem State.setStn_sched (s : State) (n : Nat) (x : Station) : (s.setStn n x).sched = s.sched := rfl
@[simp] theorem State.setStn_acceptSeq (s : State) (n : Nat) (x : Station) : (s.setStn n x).acceptSeq = s.acceptSeq := rfl
@[simp] theorem State.setStn_stepped (s : State) (n : Nat) (x : Station) : (s.setStn n x).stepped = s.stepped := rfl
@[simp] theorem State.setStn_heldWrites (s : State) (n : Nat) (x : Station) : (s.setStn n x).heldWrites = s.heldWrites := rfl
@[simp] theorem State.setStn_refs (s : State) (n : Nat) (x : Station) : (s.setStn n x).refs = s.refs := rfl
@[simp] theorem State.setStn_anchors (s : State) (n : Nat) (x : Station) : (s.setStn n x).anchors = s.anchors := rfl
@[simp] theorem State.setStn_primary (s : State) (n : Nat) (x : Station) : (s.setStn n x).primary = s.primary := rfl
@[simp] theorem State.setStn_primaryAt (s : State) (n : Nat) (x : Station) : (s.setStn n x).primaryAt = s.primaryAt := rfl
@[simp] theorem State.setStn_initDone (s : State) (n : Nat) (x : Station) : (s.setStn n x).initDone = s.initDone := rfl
@[simp] theorem State.setStn_alignRun (s : State) (n : Nat) (x : Station) : (s.setStn n x).alignRun = s.alignRun := rfl
@[simp] theorem State.setStn_alignOver (s : State) (n : Nat) (x : Station) : (s.setStn n x).alignOver = s.alignOver := rfl
@[simp] theorem State.setStn_ancEventAt (s : State) (n : Nat) (x : Station) : (s.setStn n x).ancEventAt = s.ancEventAt := rfl
@[simp] theorem State.setStn_xferStamp (s : State) (n : Nat) (x : Station) : (s.setStn n x).xferStamp = s.xferStamp := rfl
@[simp] theorem State.setStn_transfer (s : State) (n : Nat) (x : Station) : (s.setStn n x).transfer = s.transfer := rfl
@[simp] theorem State.setStn_later (s : State) (n : Nat) (x : Station) : (s.setStn n x).later = s.later := rfl
@[simp] theorem State.setStn_cores (s : State) (n : Nat) (x : Station) : (s.setStn n x).cores = s.cores := rfl
@[simp] theorem State.setStn_outs (s : State) (n : Nat) (x : Station) : (s.setStn n x).outs = s.outs := rfl
@[simp] theorem State.setStn_ras (s : State) (n : Nat) (x : Station) : (s.setStn n x).ras = s.ras := rfl
@[simp] theorem State.setStn_pgm (s : State) (n : Nat) (x : Station) : (s.setStn n x).pgm = s.pgm := rfl
@[simp] theorem State.setStn_profs (s : State) (n : Nat) (x : Station) : (s.setStn n x).profs = s.profs := rfl
@[simp] theorem State.setStn_shadows (s : State) (n : Nat) (x : Station) : (s.setStn n x).shadows = s.shadows := rfl
@[simp] theorem State.setStn_check (s : State) (n : Nat) (x : Station) : (s.setStn n x).check = s.check := rfl
@[simp] theorem State.setStn_statPins (s : State) (n : Nat) (x : Station) : (s.setStn n x).statPins = s.statPins := rfl
@[simp] theorem State.setStn_lanes (s : State) (n : Nat) (x : Station) : (s.setStn n x).lanes = s.lanes := rfl
@[simp] theorem State.setStn_lng (s : State) (n : Nat) (x : Station) : (s.setStn n x).lng = s.lng := rfl
@[simp] theorem State.setStn_fleet (s : State) (n : Nat) (x : Station) : (s.setStn n x).fleet = s.fleet := rfl
@[simp] theorem State.setStn_spareRows (s : State) (n : Nat) (x : Station) : (s.setStn n x).spareRows = s.spareRows := rfl
@[simp] theorem State.setStn_fencedEntries (s : State) (n : Nat) (x : Station) : (s.setStn n x).fencedEntries = s.fencedEntries := rfl
@[simp] theorem State.setStn_refills (s : State) (n : Nat) (x : Station) : (s.setStn n x).refills = s.refills := rfl
@[simp] theorem State.setStn_cal (s : State) (n : Nat) (x : Station) : (s.setStn n x).cal = s.cal := rfl
@[simp] theorem State.setStn_mon (s : State) (n : Nat) (x : Station) : (s.setStn n x).mon = s.mon := rfl
@[simp] theorem State.setStn_bar (s : State) (n : Nat) (x : Station) : (s.setStn n x).bar = s.bar := rfl
@[simp] theorem State.setStn_flash (s : State) (n : Nat) (x : Station) : (s.setStn n x).flash = s.flash := rfl
@[simp] theorem State.setStn_otp (s : State) (n : Nat) (x : Station) : (s.setStn n x).otp = s.otp := rfl
@[simp] theorem State.setStn_store (s : State) (n : Nat) (x : Station) : (s.setStn n x).store = s.store := rfl
@[simp] theorem State.setStn_boot (s : State) (n : Nat) (x : Station) : (s.setStn n x).boot = s.boot := rfl
@[simp] theorem State.setStn_svc (s : State) (n : Nat) (x : Station) : (s.setStn n x).svc = s.svc := rfl
@[simp] theorem State.setStn_hspi (s : State) (n : Nat) (x : Station) : (s.setStn n x).hspi = s.hspi := rfl
@[simp] theorem State.setStn_mbx (s : State) (n : Nat) (x : Station) : (s.setStn n x).mbx = s.mbx := rfl
@[simp] theorem State.setStn_pins (s : State) (n : Nat) (x : Station) : (s.setStn n x).pins = s.pins := rfl
@[simp] theorem State.setStn_powering (s : State) (n : Nat) (x : Station) : (s.setStn n x).powering = s.powering := rfl
@[simp] theorem State.setStn_reloads (s : State) (n : Nat) (x : Station) : (s.setStn n x).reloads = s.reloads := rfl
@[simp] theorem State.setStn_readData (s : State) (n : Nat) (x : Station) : (s.setStn n x).readData = s.readData := rfl
@[simp] theorem State.setStn_halted (s : State) (n : Nat) (x : Station) : (s.setStn n x).halted = s.halted := rfl
@[simp] theorem State.setStn_calVals (s : State) (n : Nat) (x : Station) : (s.setStn n x).calVals = s.calVals := rfl
@[simp] theorem State.setStn_at_reg (s : State) (n : Nat) (x : Station) (r0 : RegName) (i0 : Nat) : (s.setStn n x).reg r0 i0 = s.reg r0 i0 := rfl
@[simp] theorem State.setStn_at_fld (s : State) (n : Nat) (x : Station) (f0 : Field) (i0 : Nat) : (s.setStn n x).fld f0 i0 = s.fld f0 i0 := rfl
@[simp] theorem State.setStn_at_flag (s : State) (n : Nat) (x : Station) (f0 : Field) (i0 : Nat) : (s.setStn n x).flag f0 i0 = s.flag f0 i0 := rfl
@[simp] theorem State.setStn_at_core (s : State) (n : Nat) (x : Station) (m : Nat) : (s.setStn n x).core m = s.core m := rfl
@[simp] theorem State.setStn_at_out (s : State) (n : Nat) (x : Station) (m : Nat) : (s.setStn n x).out m = s.out m := rfl
@[simp] theorem State.setStn_at_anc (s : State) (n : Nat) (x : Station) (m : Nat) : (s.setStn n x).anc m = s.anc m := rfl
@[simp] theorem State.setStn_at_ref (s : State) (n : Nat) (x : Station) (m : Nat) : (s.setStn n x).ref m = s.ref m := rfl
@[simp] theorem State.setStn_at_rasCh (s : State) (n : Nat) (x : Station) (m : Nat) : (s.setStn n x).rasCh m = s.rasCh m := rfl
@[simp] theorem State.setStn_at_win (s : State) (n : Nat) (x : Station) (m : Nat) : (s.setStn n x).win m = s.win m := rfl
@[simp] theorem State.setStn_at_trig (s : State) (n : Nat) (x : Station) (m : Nat) : (s.setStn n x).trig m = s.trig m := rfl
@[simp] theorem State.setStn_at_lane (s : State) (n : Nat) (x : Station) (m : Nat) : (s.setStn n x).lane m = s.lane m := rfl
@[simp] theorem State.setStn_at_grp (s : State) (n : Nat) (x : Station) (m : Nat) : (s.setStn n x).grp m = s.grp m := rfl
@[simp] theorem State.setStn_at_now (s : State) (n : Nat) (x : Station) : (s.setStn n x).now  = s.now := rfl
@[simp] theorem State.setStn_at_power (s : State) (n : Nat) (x : Station) : (s.setStn n x).power  = s.power := rfl
@[simp] theorem State.setStn_at_active (s : State) (n : Nat) (x : Station) : (s.setStn n x).active  = s.active := rfl
@[simp] theorem State.setStn_at_up (s : State) (n : Nat) (x : Station) : (s.setStn n x).up  = s.up := rfl

/-! ## State.modStn -/

@[simp] theorem State.modStn_pending (s : State) (n : Nat) (f : Station → Station) : (s.modStn n f).pending = s.pending := rfl
@[simp] theorem State.modStn_count (s : State) (n : Nat) (f : Station → Station) : (s.modStn n f).count = s.count := rfl
@[simp] theorem State.modStn_elapsed (s : State) (n : Nat) (f : Station → Station) : (s.modStn n f).elapsed = s.elapsed := rfl
@[simp] theorem State.modStn_regs (s : State) (n : Nat) (f : Station → Station) : (s.modStn n f).regs = s.regs := rfl
@[simp] theorem State.modStn_windows (s : State) (n : Nat) (f : Station → Station) : (s.modStn n f).windows = s.windows := rfl
@[simp] theorem State.modStn_raises (s : State) (n : Nat) (f : Station → Station) : (s.modStn n f).raises = s.raises := rfl
@[simp] theorem State.modStn_sticks (s : State) (n : Nat) (f : Station → Station) : (s.modStn n f).sticks = s.sticks := rfl
@[simp] theorem State.modStn_lapses (s : State) (n : Nat) (f : Station → Station) : (s.modStn n f).lapses = s.lapses := rfl
@[simp] theorem State.modStn_sync (s : State) (n : Nat) (f : Station → Station) : (s.modStn n f).sync = s.sync := rfl
@[simp] theorem State.modStn_syncDue (s : State) (n : Nat) (f : Station → Station) : (s.modStn n f).syncDue = s.syncDue := rfl
@[simp] theorem State.modStn_syncStamp (s : State) (n : Nat) (f : Station → Station) : (s.modStn n f).syncStamp = s.syncStamp := rfl
@[simp] theorem State.modStn_trigs (s : State) (n : Nat) (f : Station → Station) : (s.modStn n f).trigs = s.trigs := rfl
@[simp] theorem State.modStn_hwRel (s : State) (n : Nat) (f : Station → Station) : (s.modStn n f).hwRel = s.hwRel := rfl
@[simp] theorem State.modStn_sched (s : State) (n : Nat) (f : Station → Station) : (s.modStn n f).sched = s.sched := rfl
@[simp] theorem State.modStn_acceptSeq (s : State) (n : Nat) (f : Station → Station) : (s.modStn n f).acceptSeq = s.acceptSeq := rfl
@[simp] theorem State.modStn_stepped (s : State) (n : Nat) (f : Station → Station) : (s.modStn n f).stepped = s.stepped := rfl
@[simp] theorem State.modStn_heldWrites (s : State) (n : Nat) (f : Station → Station) : (s.modStn n f).heldWrites = s.heldWrites := rfl
@[simp] theorem State.modStn_refs (s : State) (n : Nat) (f : Station → Station) : (s.modStn n f).refs = s.refs := rfl
@[simp] theorem State.modStn_anchors (s : State) (n : Nat) (f : Station → Station) : (s.modStn n f).anchors = s.anchors := rfl
@[simp] theorem State.modStn_primary (s : State) (n : Nat) (f : Station → Station) : (s.modStn n f).primary = s.primary := rfl
@[simp] theorem State.modStn_primaryAt (s : State) (n : Nat) (f : Station → Station) : (s.modStn n f).primaryAt = s.primaryAt := rfl
@[simp] theorem State.modStn_initDone (s : State) (n : Nat) (f : Station → Station) : (s.modStn n f).initDone = s.initDone := rfl
@[simp] theorem State.modStn_alignRun (s : State) (n : Nat) (f : Station → Station) : (s.modStn n f).alignRun = s.alignRun := rfl
@[simp] theorem State.modStn_alignOver (s : State) (n : Nat) (f : Station → Station) : (s.modStn n f).alignOver = s.alignOver := rfl
@[simp] theorem State.modStn_ancEventAt (s : State) (n : Nat) (f : Station → Station) : (s.modStn n f).ancEventAt = s.ancEventAt := rfl
@[simp] theorem State.modStn_xferStamp (s : State) (n : Nat) (f : Station → Station) : (s.modStn n f).xferStamp = s.xferStamp := rfl
@[simp] theorem State.modStn_transfer (s : State) (n : Nat) (f : Station → Station) : (s.modStn n f).transfer = s.transfer := rfl
@[simp] theorem State.modStn_later (s : State) (n : Nat) (f : Station → Station) : (s.modStn n f).later = s.later := rfl
@[simp] theorem State.modStn_cores (s : State) (n : Nat) (f : Station → Station) : (s.modStn n f).cores = s.cores := rfl
@[simp] theorem State.modStn_outs (s : State) (n : Nat) (f : Station → Station) : (s.modStn n f).outs = s.outs := rfl
@[simp] theorem State.modStn_ras (s : State) (n : Nat) (f : Station → Station) : (s.modStn n f).ras = s.ras := rfl
@[simp] theorem State.modStn_pgm (s : State) (n : Nat) (f : Station → Station) : (s.modStn n f).pgm = s.pgm := rfl
@[simp] theorem State.modStn_profs (s : State) (n : Nat) (f : Station → Station) : (s.modStn n f).profs = s.profs := rfl
@[simp] theorem State.modStn_shadows (s : State) (n : Nat) (f : Station → Station) : (s.modStn n f).shadows = s.shadows := rfl
@[simp] theorem State.modStn_check (s : State) (n : Nat) (f : Station → Station) : (s.modStn n f).check = s.check := rfl
@[simp] theorem State.modStn_statPins (s : State) (n : Nat) (f : Station → Station) : (s.modStn n f).statPins = s.statPins := rfl
@[simp] theorem State.modStn_lanes (s : State) (n : Nat) (f : Station → Station) : (s.modStn n f).lanes = s.lanes := rfl
@[simp] theorem State.modStn_lng (s : State) (n : Nat) (f : Station → Station) : (s.modStn n f).lng = s.lng := rfl
@[simp] theorem State.modStn_fleet (s : State) (n : Nat) (f : Station → Station) : (s.modStn n f).fleet = s.fleet := rfl
@[simp] theorem State.modStn_spareRows (s : State) (n : Nat) (f : Station → Station) : (s.modStn n f).spareRows = s.spareRows := rfl
@[simp] theorem State.modStn_fencedEntries (s : State) (n : Nat) (f : Station → Station) : (s.modStn n f).fencedEntries = s.fencedEntries := rfl
@[simp] theorem State.modStn_refills (s : State) (n : Nat) (f : Station → Station) : (s.modStn n f).refills = s.refills := rfl
@[simp] theorem State.modStn_cal (s : State) (n : Nat) (f : Station → Station) : (s.modStn n f).cal = s.cal := rfl
@[simp] theorem State.modStn_mon (s : State) (n : Nat) (f : Station → Station) : (s.modStn n f).mon = s.mon := rfl
@[simp] theorem State.modStn_bar (s : State) (n : Nat) (f : Station → Station) : (s.modStn n f).bar = s.bar := rfl
@[simp] theorem State.modStn_flash (s : State) (n : Nat) (f : Station → Station) : (s.modStn n f).flash = s.flash := rfl
@[simp] theorem State.modStn_otp (s : State) (n : Nat) (f : Station → Station) : (s.modStn n f).otp = s.otp := rfl
@[simp] theorem State.modStn_store (s : State) (n : Nat) (f : Station → Station) : (s.modStn n f).store = s.store := rfl
@[simp] theorem State.modStn_boot (s : State) (n : Nat) (f : Station → Station) : (s.modStn n f).boot = s.boot := rfl
@[simp] theorem State.modStn_svc (s : State) (n : Nat) (f : Station → Station) : (s.modStn n f).svc = s.svc := rfl
@[simp] theorem State.modStn_hspi (s : State) (n : Nat) (f : Station → Station) : (s.modStn n f).hspi = s.hspi := rfl
@[simp] theorem State.modStn_mbx (s : State) (n : Nat) (f : Station → Station) : (s.modStn n f).mbx = s.mbx := rfl
@[simp] theorem State.modStn_pins (s : State) (n : Nat) (f : Station → Station) : (s.modStn n f).pins = s.pins := rfl
@[simp] theorem State.modStn_powering (s : State) (n : Nat) (f : Station → Station) : (s.modStn n f).powering = s.powering := rfl
@[simp] theorem State.modStn_reloads (s : State) (n : Nat) (f : Station → Station) : (s.modStn n f).reloads = s.reloads := rfl
@[simp] theorem State.modStn_readData (s : State) (n : Nat) (f : Station → Station) : (s.modStn n f).readData = s.readData := rfl
@[simp] theorem State.modStn_halted (s : State) (n : Nat) (f : Station → Station) : (s.modStn n f).halted = s.halted := rfl
@[simp] theorem State.modStn_calVals (s : State) (n : Nat) (f : Station → Station) : (s.modStn n f).calVals = s.calVals := rfl
@[simp] theorem State.modStn_at_reg (s : State) (n : Nat) (f : Station → Station) (r0 : RegName) (i0 : Nat) : (s.modStn n f).reg r0 i0 = s.reg r0 i0 := rfl
@[simp] theorem State.modStn_at_fld (s : State) (n : Nat) (f : Station → Station) (f0 : Field) (i0 : Nat) : (s.modStn n f).fld f0 i0 = s.fld f0 i0 := rfl
@[simp] theorem State.modStn_at_flag (s : State) (n : Nat) (f : Station → Station) (f0 : Field) (i0 : Nat) : (s.modStn n f).flag f0 i0 = s.flag f0 i0 := rfl
@[simp] theorem State.modStn_at_core (s : State) (n : Nat) (f : Station → Station) (m : Nat) : (s.modStn n f).core m = s.core m := rfl
@[simp] theorem State.modStn_at_out (s : State) (n : Nat) (f : Station → Station) (m : Nat) : (s.modStn n f).out m = s.out m := rfl
@[simp] theorem State.modStn_at_anc (s : State) (n : Nat) (f : Station → Station) (m : Nat) : (s.modStn n f).anc m = s.anc m := rfl
@[simp] theorem State.modStn_at_ref (s : State) (n : Nat) (f : Station → Station) (m : Nat) : (s.modStn n f).ref m = s.ref m := rfl
@[simp] theorem State.modStn_at_rasCh (s : State) (n : Nat) (f : Station → Station) (m : Nat) : (s.modStn n f).rasCh m = s.rasCh m := rfl
@[simp] theorem State.modStn_at_win (s : State) (n : Nat) (f : Station → Station) (m : Nat) : (s.modStn n f).win m = s.win m := rfl
@[simp] theorem State.modStn_at_trig (s : State) (n : Nat) (f : Station → Station) (m : Nat) : (s.modStn n f).trig m = s.trig m := rfl
@[simp] theorem State.modStn_at_lane (s : State) (n : Nat) (f : Station → Station) (m : Nat) : (s.modStn n f).lane m = s.lane m := rfl
@[simp] theorem State.modStn_at_grp (s : State) (n : Nat) (f : Station → Station) (m : Nat) : (s.modStn n f).grp m = s.grp m := rfl
@[simp] theorem State.modStn_at_now (s : State) (n : Nat) (f : Station → Station) : (s.modStn n f).now  = s.now := rfl
@[simp] theorem State.modStn_at_power (s : State) (n : Nat) (f : Station → Station) : (s.modStn n f).power  = s.power := rfl
@[simp] theorem State.modStn_at_active (s : State) (n : Nat) (f : Station → Station) : (s.modStn n f).active  = s.active := rfl
@[simp] theorem State.modStn_at_up (s : State) (n : Nat) (f : Station → Station) : (s.modStn n f).up  = s.up := rfl

/-! ## State.modSlot -/

@[simp] theorem State.modSlot_pending (s : State) (n k : Nat) (f : SlotSt → SlotSt) : (s.modSlot n k f).pending = s.pending := rfl
@[simp] theorem State.modSlot_count (s : State) (n k : Nat) (f : SlotSt → SlotSt) : (s.modSlot n k f).count = s.count := rfl
@[simp] theorem State.modSlot_elapsed (s : State) (n k : Nat) (f : SlotSt → SlotSt) : (s.modSlot n k f).elapsed = s.elapsed := rfl
@[simp] theorem State.modSlot_regs (s : State) (n k : Nat) (f : SlotSt → SlotSt) : (s.modSlot n k f).regs = s.regs := rfl
@[simp] theorem State.modSlot_windows (s : State) (n k : Nat) (f : SlotSt → SlotSt) : (s.modSlot n k f).windows = s.windows := rfl
@[simp] theorem State.modSlot_raises (s : State) (n k : Nat) (f : SlotSt → SlotSt) : (s.modSlot n k f).raises = s.raises := rfl
@[simp] theorem State.modSlot_sticks (s : State) (n k : Nat) (f : SlotSt → SlotSt) : (s.modSlot n k f).sticks = s.sticks := rfl
@[simp] theorem State.modSlot_lapses (s : State) (n k : Nat) (f : SlotSt → SlotSt) : (s.modSlot n k f).lapses = s.lapses := rfl
@[simp] theorem State.modSlot_sync (s : State) (n k : Nat) (f : SlotSt → SlotSt) : (s.modSlot n k f).sync = s.sync := rfl
@[simp] theorem State.modSlot_syncDue (s : State) (n k : Nat) (f : SlotSt → SlotSt) : (s.modSlot n k f).syncDue = s.syncDue := rfl
@[simp] theorem State.modSlot_syncStamp (s : State) (n k : Nat) (f : SlotSt → SlotSt) : (s.modSlot n k f).syncStamp = s.syncStamp := rfl
@[simp] theorem State.modSlot_trigs (s : State) (n k : Nat) (f : SlotSt → SlotSt) : (s.modSlot n k f).trigs = s.trigs := rfl
@[simp] theorem State.modSlot_hwRel (s : State) (n k : Nat) (f : SlotSt → SlotSt) : (s.modSlot n k f).hwRel = s.hwRel := rfl
@[simp] theorem State.modSlot_sched (s : State) (n k : Nat) (f : SlotSt → SlotSt) : (s.modSlot n k f).sched = s.sched := rfl
@[simp] theorem State.modSlot_acceptSeq (s : State) (n k : Nat) (f : SlotSt → SlotSt) : (s.modSlot n k f).acceptSeq = s.acceptSeq := rfl
@[simp] theorem State.modSlot_stepped (s : State) (n k : Nat) (f : SlotSt → SlotSt) : (s.modSlot n k f).stepped = s.stepped := rfl
@[simp] theorem State.modSlot_heldWrites (s : State) (n k : Nat) (f : SlotSt → SlotSt) : (s.modSlot n k f).heldWrites = s.heldWrites := rfl
@[simp] theorem State.modSlot_refs (s : State) (n k : Nat) (f : SlotSt → SlotSt) : (s.modSlot n k f).refs = s.refs := rfl
@[simp] theorem State.modSlot_anchors (s : State) (n k : Nat) (f : SlotSt → SlotSt) : (s.modSlot n k f).anchors = s.anchors := rfl
@[simp] theorem State.modSlot_primary (s : State) (n k : Nat) (f : SlotSt → SlotSt) : (s.modSlot n k f).primary = s.primary := rfl
@[simp] theorem State.modSlot_primaryAt (s : State) (n k : Nat) (f : SlotSt → SlotSt) : (s.modSlot n k f).primaryAt = s.primaryAt := rfl
@[simp] theorem State.modSlot_initDone (s : State) (n k : Nat) (f : SlotSt → SlotSt) : (s.modSlot n k f).initDone = s.initDone := rfl
@[simp] theorem State.modSlot_alignRun (s : State) (n k : Nat) (f : SlotSt → SlotSt) : (s.modSlot n k f).alignRun = s.alignRun := rfl
@[simp] theorem State.modSlot_alignOver (s : State) (n k : Nat) (f : SlotSt → SlotSt) : (s.modSlot n k f).alignOver = s.alignOver := rfl
@[simp] theorem State.modSlot_ancEventAt (s : State) (n k : Nat) (f : SlotSt → SlotSt) : (s.modSlot n k f).ancEventAt = s.ancEventAt := rfl
@[simp] theorem State.modSlot_xferStamp (s : State) (n k : Nat) (f : SlotSt → SlotSt) : (s.modSlot n k f).xferStamp = s.xferStamp := rfl
@[simp] theorem State.modSlot_transfer (s : State) (n k : Nat) (f : SlotSt → SlotSt) : (s.modSlot n k f).transfer = s.transfer := rfl
@[simp] theorem State.modSlot_later (s : State) (n k : Nat) (f : SlotSt → SlotSt) : (s.modSlot n k f).later = s.later := rfl
@[simp] theorem State.modSlot_cores (s : State) (n k : Nat) (f : SlotSt → SlotSt) : (s.modSlot n k f).cores = s.cores := rfl
@[simp] theorem State.modSlot_outs (s : State) (n k : Nat) (f : SlotSt → SlotSt) : (s.modSlot n k f).outs = s.outs := rfl
@[simp] theorem State.modSlot_ras (s : State) (n k : Nat) (f : SlotSt → SlotSt) : (s.modSlot n k f).ras = s.ras := rfl
@[simp] theorem State.modSlot_pgm (s : State) (n k : Nat) (f : SlotSt → SlotSt) : (s.modSlot n k f).pgm = s.pgm := rfl
@[simp] theorem State.modSlot_profs (s : State) (n k : Nat) (f : SlotSt → SlotSt) : (s.modSlot n k f).profs = s.profs := rfl
@[simp] theorem State.modSlot_shadows (s : State) (n k : Nat) (f : SlotSt → SlotSt) : (s.modSlot n k f).shadows = s.shadows := rfl
@[simp] theorem State.modSlot_check (s : State) (n k : Nat) (f : SlotSt → SlotSt) : (s.modSlot n k f).check = s.check := rfl
@[simp] theorem State.modSlot_statPins (s : State) (n k : Nat) (f : SlotSt → SlotSt) : (s.modSlot n k f).statPins = s.statPins := rfl
@[simp] theorem State.modSlot_lanes (s : State) (n k : Nat) (f : SlotSt → SlotSt) : (s.modSlot n k f).lanes = s.lanes := rfl
@[simp] theorem State.modSlot_lng (s : State) (n k : Nat) (f : SlotSt → SlotSt) : (s.modSlot n k f).lng = s.lng := rfl
@[simp] theorem State.modSlot_fleet (s : State) (n k : Nat) (f : SlotSt → SlotSt) : (s.modSlot n k f).fleet = s.fleet := rfl
@[simp] theorem State.modSlot_spareRows (s : State) (n k : Nat) (f : SlotSt → SlotSt) : (s.modSlot n k f).spareRows = s.spareRows := rfl
@[simp] theorem State.modSlot_fencedEntries (s : State) (n k : Nat) (f : SlotSt → SlotSt) : (s.modSlot n k f).fencedEntries = s.fencedEntries := rfl
@[simp] theorem State.modSlot_refills (s : State) (n k : Nat) (f : SlotSt → SlotSt) : (s.modSlot n k f).refills = s.refills := rfl
@[simp] theorem State.modSlot_cal (s : State) (n k : Nat) (f : SlotSt → SlotSt) : (s.modSlot n k f).cal = s.cal := rfl
@[simp] theorem State.modSlot_mon (s : State) (n k : Nat) (f : SlotSt → SlotSt) : (s.modSlot n k f).mon = s.mon := rfl
@[simp] theorem State.modSlot_bar (s : State) (n k : Nat) (f : SlotSt → SlotSt) : (s.modSlot n k f).bar = s.bar := rfl
@[simp] theorem State.modSlot_flash (s : State) (n k : Nat) (f : SlotSt → SlotSt) : (s.modSlot n k f).flash = s.flash := rfl
@[simp] theorem State.modSlot_otp (s : State) (n k : Nat) (f : SlotSt → SlotSt) : (s.modSlot n k f).otp = s.otp := rfl
@[simp] theorem State.modSlot_store (s : State) (n k : Nat) (f : SlotSt → SlotSt) : (s.modSlot n k f).store = s.store := rfl
@[simp] theorem State.modSlot_boot (s : State) (n k : Nat) (f : SlotSt → SlotSt) : (s.modSlot n k f).boot = s.boot := rfl
@[simp] theorem State.modSlot_svc (s : State) (n k : Nat) (f : SlotSt → SlotSt) : (s.modSlot n k f).svc = s.svc := rfl
@[simp] theorem State.modSlot_hspi (s : State) (n k : Nat) (f : SlotSt → SlotSt) : (s.modSlot n k f).hspi = s.hspi := rfl
@[simp] theorem State.modSlot_mbx (s : State) (n k : Nat) (f : SlotSt → SlotSt) : (s.modSlot n k f).mbx = s.mbx := rfl
@[simp] theorem State.modSlot_pins (s : State) (n k : Nat) (f : SlotSt → SlotSt) : (s.modSlot n k f).pins = s.pins := rfl
@[simp] theorem State.modSlot_powering (s : State) (n k : Nat) (f : SlotSt → SlotSt) : (s.modSlot n k f).powering = s.powering := rfl
@[simp] theorem State.modSlot_reloads (s : State) (n k : Nat) (f : SlotSt → SlotSt) : (s.modSlot n k f).reloads = s.reloads := rfl
@[simp] theorem State.modSlot_readData (s : State) (n k : Nat) (f : SlotSt → SlotSt) : (s.modSlot n k f).readData = s.readData := rfl
@[simp] theorem State.modSlot_halted (s : State) (n k : Nat) (f : SlotSt → SlotSt) : (s.modSlot n k f).halted = s.halted := rfl
@[simp] theorem State.modSlot_calVals (s : State) (n k : Nat) (f : SlotSt → SlotSt) : (s.modSlot n k f).calVals = s.calVals := rfl
@[simp] theorem State.modSlot_at_reg (s : State) (n k : Nat) (f : SlotSt → SlotSt) (r0 : RegName) (i0 : Nat) : (s.modSlot n k f).reg r0 i0 = s.reg r0 i0 := rfl
@[simp] theorem State.modSlot_at_fld (s : State) (n k : Nat) (f : SlotSt → SlotSt) (f0 : Field) (i0 : Nat) : (s.modSlot n k f).fld f0 i0 = s.fld f0 i0 := rfl
@[simp] theorem State.modSlot_at_flag (s : State) (n k : Nat) (f : SlotSt → SlotSt) (f0 : Field) (i0 : Nat) : (s.modSlot n k f).flag f0 i0 = s.flag f0 i0 := rfl
@[simp] theorem State.modSlot_at_core (s : State) (n k : Nat) (f : SlotSt → SlotSt) (m : Nat) : (s.modSlot n k f).core m = s.core m := rfl
@[simp] theorem State.modSlot_at_out (s : State) (n k : Nat) (f : SlotSt → SlotSt) (m : Nat) : (s.modSlot n k f).out m = s.out m := rfl
@[simp] theorem State.modSlot_at_anc (s : State) (n k : Nat) (f : SlotSt → SlotSt) (m : Nat) : (s.modSlot n k f).anc m = s.anc m := rfl
@[simp] theorem State.modSlot_at_ref (s : State) (n k : Nat) (f : SlotSt → SlotSt) (m : Nat) : (s.modSlot n k f).ref m = s.ref m := rfl
@[simp] theorem State.modSlot_at_rasCh (s : State) (n k : Nat) (f : SlotSt → SlotSt) (m : Nat) : (s.modSlot n k f).rasCh m = s.rasCh m := rfl
@[simp] theorem State.modSlot_at_win (s : State) (n k : Nat) (f : SlotSt → SlotSt) (m : Nat) : (s.modSlot n k f).win m = s.win m := rfl
@[simp] theorem State.modSlot_at_trig (s : State) (n k : Nat) (f : SlotSt → SlotSt) (m : Nat) : (s.modSlot n k f).trig m = s.trig m := rfl
@[simp] theorem State.modSlot_at_lane (s : State) (n k : Nat) (f : SlotSt → SlotSt) (m : Nat) : (s.modSlot n k f).lane m = s.lane m := rfl
@[simp] theorem State.modSlot_at_grp (s : State) (n k : Nat) (f : SlotSt → SlotSt) (m : Nat) : (s.modSlot n k f).grp m = s.grp m := rfl
@[simp] theorem State.modSlot_at_now (s : State) (n k : Nat) (f : SlotSt → SlotSt) : (s.modSlot n k f).now  = s.now := rfl
@[simp] theorem State.modSlot_at_power (s : State) (n k : Nat) (f : SlotSt → SlotSt) : (s.modSlot n k f).power  = s.power := rfl
@[simp] theorem State.modSlot_at_active (s : State) (n k : Nat) (f : SlotSt → SlotSt) : (s.modSlot n k f).active  = s.active := rfl
@[simp] theorem State.modSlot_at_up (s : State) (n k : Nat) (f : SlotSt → SlotSt) : (s.modSlot n k f).up  = s.up := rfl

/-! ## State.setWin -/

@[simp] theorem State.setWin_pending (s : State) (n : Nat) (x : FaultWindow) : (s.setWin n x).pending = s.pending := rfl
@[simp] theorem State.setWin_count (s : State) (n : Nat) (x : FaultWindow) : (s.setWin n x).count = s.count := rfl
@[simp] theorem State.setWin_elapsed (s : State) (n : Nat) (x : FaultWindow) : (s.setWin n x).elapsed = s.elapsed := rfl
@[simp] theorem State.setWin_regs (s : State) (n : Nat) (x : FaultWindow) : (s.setWin n x).regs = s.regs := rfl
@[simp] theorem State.setWin_raises (s : State) (n : Nat) (x : FaultWindow) : (s.setWin n x).raises = s.raises := rfl
@[simp] theorem State.setWin_sticks (s : State) (n : Nat) (x : FaultWindow) : (s.setWin n x).sticks = s.sticks := rfl
@[simp] theorem State.setWin_lapses (s : State) (n : Nat) (x : FaultWindow) : (s.setWin n x).lapses = s.lapses := rfl
@[simp] theorem State.setWin_sync (s : State) (n : Nat) (x : FaultWindow) : (s.setWin n x).sync = s.sync := rfl
@[simp] theorem State.setWin_syncDue (s : State) (n : Nat) (x : FaultWindow) : (s.setWin n x).syncDue = s.syncDue := rfl
@[simp] theorem State.setWin_syncStamp (s : State) (n : Nat) (x : FaultWindow) : (s.setWin n x).syncStamp = s.syncStamp := rfl
@[simp] theorem State.setWin_trigs (s : State) (n : Nat) (x : FaultWindow) : (s.setWin n x).trigs = s.trigs := rfl
@[simp] theorem State.setWin_hwRel (s : State) (n : Nat) (x : FaultWindow) : (s.setWin n x).hwRel = s.hwRel := rfl
@[simp] theorem State.setWin_sched (s : State) (n : Nat) (x : FaultWindow) : (s.setWin n x).sched = s.sched := rfl
@[simp] theorem State.setWin_acceptSeq (s : State) (n : Nat) (x : FaultWindow) : (s.setWin n x).acceptSeq = s.acceptSeq := rfl
@[simp] theorem State.setWin_stepped (s : State) (n : Nat) (x : FaultWindow) : (s.setWin n x).stepped = s.stepped := rfl
@[simp] theorem State.setWin_heldWrites (s : State) (n : Nat) (x : FaultWindow) : (s.setWin n x).heldWrites = s.heldWrites := rfl
@[simp] theorem State.setWin_refs (s : State) (n : Nat) (x : FaultWindow) : (s.setWin n x).refs = s.refs := rfl
@[simp] theorem State.setWin_anchors (s : State) (n : Nat) (x : FaultWindow) : (s.setWin n x).anchors = s.anchors := rfl
@[simp] theorem State.setWin_primary (s : State) (n : Nat) (x : FaultWindow) : (s.setWin n x).primary = s.primary := rfl
@[simp] theorem State.setWin_primaryAt (s : State) (n : Nat) (x : FaultWindow) : (s.setWin n x).primaryAt = s.primaryAt := rfl
@[simp] theorem State.setWin_initDone (s : State) (n : Nat) (x : FaultWindow) : (s.setWin n x).initDone = s.initDone := rfl
@[simp] theorem State.setWin_alignRun (s : State) (n : Nat) (x : FaultWindow) : (s.setWin n x).alignRun = s.alignRun := rfl
@[simp] theorem State.setWin_alignOver (s : State) (n : Nat) (x : FaultWindow) : (s.setWin n x).alignOver = s.alignOver := rfl
@[simp] theorem State.setWin_ancEventAt (s : State) (n : Nat) (x : FaultWindow) : (s.setWin n x).ancEventAt = s.ancEventAt := rfl
@[simp] theorem State.setWin_xferStamp (s : State) (n : Nat) (x : FaultWindow) : (s.setWin n x).xferStamp = s.xferStamp := rfl
@[simp] theorem State.setWin_transfer (s : State) (n : Nat) (x : FaultWindow) : (s.setWin n x).transfer = s.transfer := rfl
@[simp] theorem State.setWin_later (s : State) (n : Nat) (x : FaultWindow) : (s.setWin n x).later = s.later := rfl
@[simp] theorem State.setWin_cores (s : State) (n : Nat) (x : FaultWindow) : (s.setWin n x).cores = s.cores := rfl
@[simp] theorem State.setWin_outs (s : State) (n : Nat) (x : FaultWindow) : (s.setWin n x).outs = s.outs := rfl
@[simp] theorem State.setWin_ras (s : State) (n : Nat) (x : FaultWindow) : (s.setWin n x).ras = s.ras := rfl
@[simp] theorem State.setWin_stations (s : State) (n : Nat) (x : FaultWindow) : (s.setWin n x).stations = s.stations := rfl
@[simp] theorem State.setWin_pgm (s : State) (n : Nat) (x : FaultWindow) : (s.setWin n x).pgm = s.pgm := rfl
@[simp] theorem State.setWin_profs (s : State) (n : Nat) (x : FaultWindow) : (s.setWin n x).profs = s.profs := rfl
@[simp] theorem State.setWin_shadows (s : State) (n : Nat) (x : FaultWindow) : (s.setWin n x).shadows = s.shadows := rfl
@[simp] theorem State.setWin_check (s : State) (n : Nat) (x : FaultWindow) : (s.setWin n x).check = s.check := rfl
@[simp] theorem State.setWin_statPins (s : State) (n : Nat) (x : FaultWindow) : (s.setWin n x).statPins = s.statPins := rfl
@[simp] theorem State.setWin_lanes (s : State) (n : Nat) (x : FaultWindow) : (s.setWin n x).lanes = s.lanes := rfl
@[simp] theorem State.setWin_lng (s : State) (n : Nat) (x : FaultWindow) : (s.setWin n x).lng = s.lng := rfl
@[simp] theorem State.setWin_fleet (s : State) (n : Nat) (x : FaultWindow) : (s.setWin n x).fleet = s.fleet := rfl
@[simp] theorem State.setWin_spareRows (s : State) (n : Nat) (x : FaultWindow) : (s.setWin n x).spareRows = s.spareRows := rfl
@[simp] theorem State.setWin_fencedEntries (s : State) (n : Nat) (x : FaultWindow) : (s.setWin n x).fencedEntries = s.fencedEntries := rfl
@[simp] theorem State.setWin_refills (s : State) (n : Nat) (x : FaultWindow) : (s.setWin n x).refills = s.refills := rfl
@[simp] theorem State.setWin_cal (s : State) (n : Nat) (x : FaultWindow) : (s.setWin n x).cal = s.cal := rfl
@[simp] theorem State.setWin_mon (s : State) (n : Nat) (x : FaultWindow) : (s.setWin n x).mon = s.mon := rfl
@[simp] theorem State.setWin_bar (s : State) (n : Nat) (x : FaultWindow) : (s.setWin n x).bar = s.bar := rfl
@[simp] theorem State.setWin_flash (s : State) (n : Nat) (x : FaultWindow) : (s.setWin n x).flash = s.flash := rfl
@[simp] theorem State.setWin_otp (s : State) (n : Nat) (x : FaultWindow) : (s.setWin n x).otp = s.otp := rfl
@[simp] theorem State.setWin_store (s : State) (n : Nat) (x : FaultWindow) : (s.setWin n x).store = s.store := rfl
@[simp] theorem State.setWin_boot (s : State) (n : Nat) (x : FaultWindow) : (s.setWin n x).boot = s.boot := rfl
@[simp] theorem State.setWin_svc (s : State) (n : Nat) (x : FaultWindow) : (s.setWin n x).svc = s.svc := rfl
@[simp] theorem State.setWin_hspi (s : State) (n : Nat) (x : FaultWindow) : (s.setWin n x).hspi = s.hspi := rfl
@[simp] theorem State.setWin_mbx (s : State) (n : Nat) (x : FaultWindow) : (s.setWin n x).mbx = s.mbx := rfl
@[simp] theorem State.setWin_pins (s : State) (n : Nat) (x : FaultWindow) : (s.setWin n x).pins = s.pins := rfl
@[simp] theorem State.setWin_powering (s : State) (n : Nat) (x : FaultWindow) : (s.setWin n x).powering = s.powering := rfl
@[simp] theorem State.setWin_reloads (s : State) (n : Nat) (x : FaultWindow) : (s.setWin n x).reloads = s.reloads := rfl
@[simp] theorem State.setWin_readData (s : State) (n : Nat) (x : FaultWindow) : (s.setWin n x).readData = s.readData := rfl
@[simp] theorem State.setWin_halted (s : State) (n : Nat) (x : FaultWindow) : (s.setWin n x).halted = s.halted := rfl
@[simp] theorem State.setWin_calVals (s : State) (n : Nat) (x : FaultWindow) : (s.setWin n x).calVals = s.calVals := rfl
@[simp] theorem State.setWin_at_reg (s : State) (n : Nat) (x : FaultWindow) (r0 : RegName) (i0 : Nat) : (s.setWin n x).reg r0 i0 = s.reg r0 i0 := rfl
@[simp] theorem State.setWin_at_fld (s : State) (n : Nat) (x : FaultWindow) (f0 : Field) (i0 : Nat) : (s.setWin n x).fld f0 i0 = s.fld f0 i0 := rfl
@[simp] theorem State.setWin_at_flag (s : State) (n : Nat) (x : FaultWindow) (f0 : Field) (i0 : Nat) : (s.setWin n x).flag f0 i0 = s.flag f0 i0 := rfl
@[simp] theorem State.setWin_at_core (s : State) (n : Nat) (x : FaultWindow) (m : Nat) : (s.setWin n x).core m = s.core m := rfl
@[simp] theorem State.setWin_at_out (s : State) (n : Nat) (x : FaultWindow) (m : Nat) : (s.setWin n x).out m = s.out m := rfl
@[simp] theorem State.setWin_at_anc (s : State) (n : Nat) (x : FaultWindow) (m : Nat) : (s.setWin n x).anc m = s.anc m := rfl
@[simp] theorem State.setWin_at_ref (s : State) (n : Nat) (x : FaultWindow) (m : Nat) : (s.setWin n x).ref m = s.ref m := rfl
@[simp] theorem State.setWin_at_rasCh (s : State) (n : Nat) (x : FaultWindow) (m : Nat) : (s.setWin n x).rasCh m = s.rasCh m := rfl
@[simp] theorem State.setWin_at_stn (s : State) (n : Nat) (x : FaultWindow) (m : Nat) : (s.setWin n x).stn m = s.stn m := rfl
@[simp] theorem State.setWin_at_slotSt (s : State) (n : Nat) (x : FaultWindow) (m k0 : Nat) : (s.setWin n x).slotSt m k0 = s.slotSt m k0 := rfl
@[simp] theorem State.setWin_at_trig (s : State) (n : Nat) (x : FaultWindow) (m : Nat) : (s.setWin n x).trig m = s.trig m := rfl
@[simp] theorem State.setWin_at_lane (s : State) (n : Nat) (x : FaultWindow) (m : Nat) : (s.setWin n x).lane m = s.lane m := rfl
@[simp] theorem State.setWin_at_grp (s : State) (n : Nat) (x : FaultWindow) (m : Nat) : (s.setWin n x).grp m = s.grp m := rfl
@[simp] theorem State.setWin_at_now (s : State) (n : Nat) (x : FaultWindow) : (s.setWin n x).now  = s.now := rfl
@[simp] theorem State.setWin_at_power (s : State) (n : Nat) (x : FaultWindow) : (s.setWin n x).power  = s.power := rfl
@[simp] theorem State.setWin_at_active (s : State) (n : Nat) (x : FaultWindow) : (s.setWin n x).active  = s.active := rfl
@[simp] theorem State.setWin_at_up (s : State) (n : Nat) (x : FaultWindow) : (s.setWin n x).up  = s.up := rfl

/-! ## State.modWin -/

@[simp] theorem State.modWin_pending (s : State) (n : Nat) (f : FaultWindow → FaultWindow) : (s.modWin n f).pending = s.pending := rfl
@[simp] theorem State.modWin_count (s : State) (n : Nat) (f : FaultWindow → FaultWindow) : (s.modWin n f).count = s.count := rfl
@[simp] theorem State.modWin_elapsed (s : State) (n : Nat) (f : FaultWindow → FaultWindow) : (s.modWin n f).elapsed = s.elapsed := rfl
@[simp] theorem State.modWin_regs (s : State) (n : Nat) (f : FaultWindow → FaultWindow) : (s.modWin n f).regs = s.regs := rfl
@[simp] theorem State.modWin_raises (s : State) (n : Nat) (f : FaultWindow → FaultWindow) : (s.modWin n f).raises = s.raises := rfl
@[simp] theorem State.modWin_sticks (s : State) (n : Nat) (f : FaultWindow → FaultWindow) : (s.modWin n f).sticks = s.sticks := rfl
@[simp] theorem State.modWin_lapses (s : State) (n : Nat) (f : FaultWindow → FaultWindow) : (s.modWin n f).lapses = s.lapses := rfl
@[simp] theorem State.modWin_sync (s : State) (n : Nat) (f : FaultWindow → FaultWindow) : (s.modWin n f).sync = s.sync := rfl
@[simp] theorem State.modWin_syncDue (s : State) (n : Nat) (f : FaultWindow → FaultWindow) : (s.modWin n f).syncDue = s.syncDue := rfl
@[simp] theorem State.modWin_syncStamp (s : State) (n : Nat) (f : FaultWindow → FaultWindow) : (s.modWin n f).syncStamp = s.syncStamp := rfl
@[simp] theorem State.modWin_trigs (s : State) (n : Nat) (f : FaultWindow → FaultWindow) : (s.modWin n f).trigs = s.trigs := rfl
@[simp] theorem State.modWin_hwRel (s : State) (n : Nat) (f : FaultWindow → FaultWindow) : (s.modWin n f).hwRel = s.hwRel := rfl
@[simp] theorem State.modWin_sched (s : State) (n : Nat) (f : FaultWindow → FaultWindow) : (s.modWin n f).sched = s.sched := rfl
@[simp] theorem State.modWin_acceptSeq (s : State) (n : Nat) (f : FaultWindow → FaultWindow) : (s.modWin n f).acceptSeq = s.acceptSeq := rfl
@[simp] theorem State.modWin_stepped (s : State) (n : Nat) (f : FaultWindow → FaultWindow) : (s.modWin n f).stepped = s.stepped := rfl
@[simp] theorem State.modWin_heldWrites (s : State) (n : Nat) (f : FaultWindow → FaultWindow) : (s.modWin n f).heldWrites = s.heldWrites := rfl
@[simp] theorem State.modWin_refs (s : State) (n : Nat) (f : FaultWindow → FaultWindow) : (s.modWin n f).refs = s.refs := rfl
@[simp] theorem State.modWin_anchors (s : State) (n : Nat) (f : FaultWindow → FaultWindow) : (s.modWin n f).anchors = s.anchors := rfl
@[simp] theorem State.modWin_primary (s : State) (n : Nat) (f : FaultWindow → FaultWindow) : (s.modWin n f).primary = s.primary := rfl
@[simp] theorem State.modWin_primaryAt (s : State) (n : Nat) (f : FaultWindow → FaultWindow) : (s.modWin n f).primaryAt = s.primaryAt := rfl
@[simp] theorem State.modWin_initDone (s : State) (n : Nat) (f : FaultWindow → FaultWindow) : (s.modWin n f).initDone = s.initDone := rfl
@[simp] theorem State.modWin_alignRun (s : State) (n : Nat) (f : FaultWindow → FaultWindow) : (s.modWin n f).alignRun = s.alignRun := rfl
@[simp] theorem State.modWin_alignOver (s : State) (n : Nat) (f : FaultWindow → FaultWindow) : (s.modWin n f).alignOver = s.alignOver := rfl
@[simp] theorem State.modWin_ancEventAt (s : State) (n : Nat) (f : FaultWindow → FaultWindow) : (s.modWin n f).ancEventAt = s.ancEventAt := rfl
@[simp] theorem State.modWin_xferStamp (s : State) (n : Nat) (f : FaultWindow → FaultWindow) : (s.modWin n f).xferStamp = s.xferStamp := rfl
@[simp] theorem State.modWin_transfer (s : State) (n : Nat) (f : FaultWindow → FaultWindow) : (s.modWin n f).transfer = s.transfer := rfl
@[simp] theorem State.modWin_later (s : State) (n : Nat) (f : FaultWindow → FaultWindow) : (s.modWin n f).later = s.later := rfl
@[simp] theorem State.modWin_cores (s : State) (n : Nat) (f : FaultWindow → FaultWindow) : (s.modWin n f).cores = s.cores := rfl
@[simp] theorem State.modWin_outs (s : State) (n : Nat) (f : FaultWindow → FaultWindow) : (s.modWin n f).outs = s.outs := rfl
@[simp] theorem State.modWin_ras (s : State) (n : Nat) (f : FaultWindow → FaultWindow) : (s.modWin n f).ras = s.ras := rfl
@[simp] theorem State.modWin_stations (s : State) (n : Nat) (f : FaultWindow → FaultWindow) : (s.modWin n f).stations = s.stations := rfl
@[simp] theorem State.modWin_pgm (s : State) (n : Nat) (f : FaultWindow → FaultWindow) : (s.modWin n f).pgm = s.pgm := rfl
@[simp] theorem State.modWin_profs (s : State) (n : Nat) (f : FaultWindow → FaultWindow) : (s.modWin n f).profs = s.profs := rfl
@[simp] theorem State.modWin_shadows (s : State) (n : Nat) (f : FaultWindow → FaultWindow) : (s.modWin n f).shadows = s.shadows := rfl
@[simp] theorem State.modWin_check (s : State) (n : Nat) (f : FaultWindow → FaultWindow) : (s.modWin n f).check = s.check := rfl
@[simp] theorem State.modWin_statPins (s : State) (n : Nat) (f : FaultWindow → FaultWindow) : (s.modWin n f).statPins = s.statPins := rfl
@[simp] theorem State.modWin_lanes (s : State) (n : Nat) (f : FaultWindow → FaultWindow) : (s.modWin n f).lanes = s.lanes := rfl
@[simp] theorem State.modWin_lng (s : State) (n : Nat) (f : FaultWindow → FaultWindow) : (s.modWin n f).lng = s.lng := rfl
@[simp] theorem State.modWin_fleet (s : State) (n : Nat) (f : FaultWindow → FaultWindow) : (s.modWin n f).fleet = s.fleet := rfl
@[simp] theorem State.modWin_spareRows (s : State) (n : Nat) (f : FaultWindow → FaultWindow) : (s.modWin n f).spareRows = s.spareRows := rfl
@[simp] theorem State.modWin_fencedEntries (s : State) (n : Nat) (f : FaultWindow → FaultWindow) : (s.modWin n f).fencedEntries = s.fencedEntries := rfl
@[simp] theorem State.modWin_refills (s : State) (n : Nat) (f : FaultWindow → FaultWindow) : (s.modWin n f).refills = s.refills := rfl
@[simp] theorem State.modWin_cal (s : State) (n : Nat) (f : FaultWindow → FaultWindow) : (s.modWin n f).cal = s.cal := rfl
@[simp] theorem State.modWin_mon (s : State) (n : Nat) (f : FaultWindow → FaultWindow) : (s.modWin n f).mon = s.mon := rfl
@[simp] theorem State.modWin_bar (s : State) (n : Nat) (f : FaultWindow → FaultWindow) : (s.modWin n f).bar = s.bar := rfl
@[simp] theorem State.modWin_flash (s : State) (n : Nat) (f : FaultWindow → FaultWindow) : (s.modWin n f).flash = s.flash := rfl
@[simp] theorem State.modWin_otp (s : State) (n : Nat) (f : FaultWindow → FaultWindow) : (s.modWin n f).otp = s.otp := rfl
@[simp] theorem State.modWin_store (s : State) (n : Nat) (f : FaultWindow → FaultWindow) : (s.modWin n f).store = s.store := rfl
@[simp] theorem State.modWin_boot (s : State) (n : Nat) (f : FaultWindow → FaultWindow) : (s.modWin n f).boot = s.boot := rfl
@[simp] theorem State.modWin_svc (s : State) (n : Nat) (f : FaultWindow → FaultWindow) : (s.modWin n f).svc = s.svc := rfl
@[simp] theorem State.modWin_hspi (s : State) (n : Nat) (f : FaultWindow → FaultWindow) : (s.modWin n f).hspi = s.hspi := rfl
@[simp] theorem State.modWin_mbx (s : State) (n : Nat) (f : FaultWindow → FaultWindow) : (s.modWin n f).mbx = s.mbx := rfl
@[simp] theorem State.modWin_pins (s : State) (n : Nat) (f : FaultWindow → FaultWindow) : (s.modWin n f).pins = s.pins := rfl
@[simp] theorem State.modWin_powering (s : State) (n : Nat) (f : FaultWindow → FaultWindow) : (s.modWin n f).powering = s.powering := rfl
@[simp] theorem State.modWin_reloads (s : State) (n : Nat) (f : FaultWindow → FaultWindow) : (s.modWin n f).reloads = s.reloads := rfl
@[simp] theorem State.modWin_readData (s : State) (n : Nat) (f : FaultWindow → FaultWindow) : (s.modWin n f).readData = s.readData := rfl
@[simp] theorem State.modWin_halted (s : State) (n : Nat) (f : FaultWindow → FaultWindow) : (s.modWin n f).halted = s.halted := rfl
@[simp] theorem State.modWin_calVals (s : State) (n : Nat) (f : FaultWindow → FaultWindow) : (s.modWin n f).calVals = s.calVals := rfl
@[simp] theorem State.modWin_at_reg (s : State) (n : Nat) (f : FaultWindow → FaultWindow) (r0 : RegName) (i0 : Nat) : (s.modWin n f).reg r0 i0 = s.reg r0 i0 := rfl
@[simp] theorem State.modWin_at_fld (s : State) (n : Nat) (f : FaultWindow → FaultWindow) (f0 : Field) (i0 : Nat) : (s.modWin n f).fld f0 i0 = s.fld f0 i0 := rfl
@[simp] theorem State.modWin_at_flag (s : State) (n : Nat) (f : FaultWindow → FaultWindow) (f0 : Field) (i0 : Nat) : (s.modWin n f).flag f0 i0 = s.flag f0 i0 := rfl
@[simp] theorem State.modWin_at_core (s : State) (n : Nat) (f : FaultWindow → FaultWindow) (m : Nat) : (s.modWin n f).core m = s.core m := rfl
@[simp] theorem State.modWin_at_out (s : State) (n : Nat) (f : FaultWindow → FaultWindow) (m : Nat) : (s.modWin n f).out m = s.out m := rfl
@[simp] theorem State.modWin_at_anc (s : State) (n : Nat) (f : FaultWindow → FaultWindow) (m : Nat) : (s.modWin n f).anc m = s.anc m := rfl
@[simp] theorem State.modWin_at_ref (s : State) (n : Nat) (f : FaultWindow → FaultWindow) (m : Nat) : (s.modWin n f).ref m = s.ref m := rfl
@[simp] theorem State.modWin_at_rasCh (s : State) (n : Nat) (f : FaultWindow → FaultWindow) (m : Nat) : (s.modWin n f).rasCh m = s.rasCh m := rfl
@[simp] theorem State.modWin_at_stn (s : State) (n : Nat) (f : FaultWindow → FaultWindow) (m : Nat) : (s.modWin n f).stn m = s.stn m := rfl
@[simp] theorem State.modWin_at_slotSt (s : State) (n : Nat) (f : FaultWindow → FaultWindow) (m k0 : Nat) : (s.modWin n f).slotSt m k0 = s.slotSt m k0 := rfl
@[simp] theorem State.modWin_at_trig (s : State) (n : Nat) (f : FaultWindow → FaultWindow) (m : Nat) : (s.modWin n f).trig m = s.trig m := rfl
@[simp] theorem State.modWin_at_lane (s : State) (n : Nat) (f : FaultWindow → FaultWindow) (m : Nat) : (s.modWin n f).lane m = s.lane m := rfl
@[simp] theorem State.modWin_at_grp (s : State) (n : Nat) (f : FaultWindow → FaultWindow) (m : Nat) : (s.modWin n f).grp m = s.grp m := rfl
@[simp] theorem State.modWin_at_now (s : State) (n : Nat) (f : FaultWindow → FaultWindow) : (s.modWin n f).now  = s.now := rfl
@[simp] theorem State.modWin_at_power (s : State) (n : Nat) (f : FaultWindow → FaultWindow) : (s.modWin n f).power  = s.power := rfl
@[simp] theorem State.modWin_at_active (s : State) (n : Nat) (f : FaultWindow → FaultWindow) : (s.modWin n f).active  = s.active := rfl
@[simp] theorem State.modWin_at_up (s : State) (n : Nat) (f : FaultWindow → FaultWindow) : (s.modWin n f).up  = s.up := rfl

/-! ## State.endLevel -/

@[simp] theorem State.endLevel_pending (s : State) (f : Fid) : (s.endLevel f).pending = s.pending := rfl
@[simp] theorem State.endLevel_count (s : State) (f : Fid) : (s.endLevel f).count = s.count := rfl
@[simp] theorem State.endLevel_elapsed (s : State) (f : Fid) : (s.endLevel f).elapsed = s.elapsed := rfl
@[simp] theorem State.endLevel_regs (s : State) (f : Fid) : (s.endLevel f).regs = s.regs := rfl
@[simp] theorem State.endLevel_raises (s : State) (f : Fid) : (s.endLevel f).raises = s.raises := rfl
@[simp] theorem State.endLevel_sticks (s : State) (f : Fid) : (s.endLevel f).sticks = s.sticks := rfl
@[simp] theorem State.endLevel_lapses (s : State) (f : Fid) : (s.endLevel f).lapses = s.lapses := rfl
@[simp] theorem State.endLevel_sync (s : State) (f : Fid) : (s.endLevel f).sync = s.sync := rfl
@[simp] theorem State.endLevel_syncDue (s : State) (f : Fid) : (s.endLevel f).syncDue = s.syncDue := rfl
@[simp] theorem State.endLevel_syncStamp (s : State) (f : Fid) : (s.endLevel f).syncStamp = s.syncStamp := rfl
@[simp] theorem State.endLevel_trigs (s : State) (f : Fid) : (s.endLevel f).trigs = s.trigs := rfl
@[simp] theorem State.endLevel_hwRel (s : State) (f : Fid) : (s.endLevel f).hwRel = s.hwRel := rfl
@[simp] theorem State.endLevel_sched (s : State) (f : Fid) : (s.endLevel f).sched = s.sched := rfl
@[simp] theorem State.endLevel_acceptSeq (s : State) (f : Fid) : (s.endLevel f).acceptSeq = s.acceptSeq := rfl
@[simp] theorem State.endLevel_stepped (s : State) (f : Fid) : (s.endLevel f).stepped = s.stepped := rfl
@[simp] theorem State.endLevel_heldWrites (s : State) (f : Fid) : (s.endLevel f).heldWrites = s.heldWrites := rfl
@[simp] theorem State.endLevel_refs (s : State) (f : Fid) : (s.endLevel f).refs = s.refs := rfl
@[simp] theorem State.endLevel_anchors (s : State) (f : Fid) : (s.endLevel f).anchors = s.anchors := rfl
@[simp] theorem State.endLevel_primary (s : State) (f : Fid) : (s.endLevel f).primary = s.primary := rfl
@[simp] theorem State.endLevel_primaryAt (s : State) (f : Fid) : (s.endLevel f).primaryAt = s.primaryAt := rfl
@[simp] theorem State.endLevel_initDone (s : State) (f : Fid) : (s.endLevel f).initDone = s.initDone := rfl
@[simp] theorem State.endLevel_alignRun (s : State) (f : Fid) : (s.endLevel f).alignRun = s.alignRun := rfl
@[simp] theorem State.endLevel_alignOver (s : State) (f : Fid) : (s.endLevel f).alignOver = s.alignOver := rfl
@[simp] theorem State.endLevel_ancEventAt (s : State) (f : Fid) : (s.endLevel f).ancEventAt = s.ancEventAt := rfl
@[simp] theorem State.endLevel_xferStamp (s : State) (f : Fid) : (s.endLevel f).xferStamp = s.xferStamp := rfl
@[simp] theorem State.endLevel_transfer (s : State) (f : Fid) : (s.endLevel f).transfer = s.transfer := rfl
@[simp] theorem State.endLevel_later (s : State) (f : Fid) : (s.endLevel f).later = s.later := rfl
@[simp] theorem State.endLevel_cores (s : State) (f : Fid) : (s.endLevel f).cores = s.cores := rfl
@[simp] theorem State.endLevel_outs (s : State) (f : Fid) : (s.endLevel f).outs = s.outs := rfl
@[simp] theorem State.endLevel_ras (s : State) (f : Fid) : (s.endLevel f).ras = s.ras := rfl
@[simp] theorem State.endLevel_stations (s : State) (f : Fid) : (s.endLevel f).stations = s.stations := rfl
@[simp] theorem State.endLevel_pgm (s : State) (f : Fid) : (s.endLevel f).pgm = s.pgm := rfl
@[simp] theorem State.endLevel_profs (s : State) (f : Fid) : (s.endLevel f).profs = s.profs := rfl
@[simp] theorem State.endLevel_shadows (s : State) (f : Fid) : (s.endLevel f).shadows = s.shadows := rfl
@[simp] theorem State.endLevel_check (s : State) (f : Fid) : (s.endLevel f).check = s.check := rfl
@[simp] theorem State.endLevel_statPins (s : State) (f : Fid) : (s.endLevel f).statPins = s.statPins := rfl
@[simp] theorem State.endLevel_lanes (s : State) (f : Fid) : (s.endLevel f).lanes = s.lanes := rfl
@[simp] theorem State.endLevel_lng (s : State) (f : Fid) : (s.endLevel f).lng = s.lng := rfl
@[simp] theorem State.endLevel_fleet (s : State) (f : Fid) : (s.endLevel f).fleet = s.fleet := rfl
@[simp] theorem State.endLevel_spareRows (s : State) (f : Fid) : (s.endLevel f).spareRows = s.spareRows := rfl
@[simp] theorem State.endLevel_fencedEntries (s : State) (f : Fid) : (s.endLevel f).fencedEntries = s.fencedEntries := rfl
@[simp] theorem State.endLevel_refills (s : State) (f : Fid) : (s.endLevel f).refills = s.refills := rfl
@[simp] theorem State.endLevel_cal (s : State) (f : Fid) : (s.endLevel f).cal = s.cal := rfl
@[simp] theorem State.endLevel_mon (s : State) (f : Fid) : (s.endLevel f).mon = s.mon := rfl
@[simp] theorem State.endLevel_bar (s : State) (f : Fid) : (s.endLevel f).bar = s.bar := rfl
@[simp] theorem State.endLevel_flash (s : State) (f : Fid) : (s.endLevel f).flash = s.flash := rfl
@[simp] theorem State.endLevel_otp (s : State) (f : Fid) : (s.endLevel f).otp = s.otp := rfl
@[simp] theorem State.endLevel_store (s : State) (f : Fid) : (s.endLevel f).store = s.store := rfl
@[simp] theorem State.endLevel_boot (s : State) (f : Fid) : (s.endLevel f).boot = s.boot := rfl
@[simp] theorem State.endLevel_svc (s : State) (f : Fid) : (s.endLevel f).svc = s.svc := rfl
@[simp] theorem State.endLevel_hspi (s : State) (f : Fid) : (s.endLevel f).hspi = s.hspi := rfl
@[simp] theorem State.endLevel_mbx (s : State) (f : Fid) : (s.endLevel f).mbx = s.mbx := rfl
@[simp] theorem State.endLevel_pins (s : State) (f : Fid) : (s.endLevel f).pins = s.pins := rfl
@[simp] theorem State.endLevel_powering (s : State) (f : Fid) : (s.endLevel f).powering = s.powering := rfl
@[simp] theorem State.endLevel_reloads (s : State) (f : Fid) : (s.endLevel f).reloads = s.reloads := rfl
@[simp] theorem State.endLevel_readData (s : State) (f : Fid) : (s.endLevel f).readData = s.readData := rfl
@[simp] theorem State.endLevel_halted (s : State) (f : Fid) : (s.endLevel f).halted = s.halted := rfl
@[simp] theorem State.endLevel_calVals (s : State) (f : Fid) : (s.endLevel f).calVals = s.calVals := rfl
@[simp] theorem State.endLevel_at_reg (s : State) (f : Fid) (r0 : RegName) (i0 : Nat) : (s.endLevel f).reg r0 i0 = s.reg r0 i0 := rfl
@[simp] theorem State.endLevel_at_fld (s : State) (f : Fid) (f0 : Field) (i0 : Nat) : (s.endLevel f).fld f0 i0 = s.fld f0 i0 := rfl
@[simp] theorem State.endLevel_at_flag (s : State) (f : Fid) (f0 : Field) (i0 : Nat) : (s.endLevel f).flag f0 i0 = s.flag f0 i0 := rfl
@[simp] theorem State.endLevel_at_core (s : State) (f : Fid) (m : Nat) : (s.endLevel f).core m = s.core m := rfl
@[simp] theorem State.endLevel_at_out (s : State) (f : Fid) (m : Nat) : (s.endLevel f).out m = s.out m := rfl
@[simp] theorem State.endLevel_at_anc (s : State) (f : Fid) (m : Nat) : (s.endLevel f).anc m = s.anc m := rfl
@[simp] theorem State.endLevel_at_ref (s : State) (f : Fid) (m : Nat) : (s.endLevel f).ref m = s.ref m := rfl
@[simp] theorem State.endLevel_at_rasCh (s : State) (f : Fid) (m : Nat) : (s.endLevel f).rasCh m = s.rasCh m := rfl
@[simp] theorem State.endLevel_at_stn (s : State) (f : Fid) (m : Nat) : (s.endLevel f).stn m = s.stn m := rfl
@[simp] theorem State.endLevel_at_slotSt (s : State) (f : Fid) (m k0 : Nat) : (s.endLevel f).slotSt m k0 = s.slotSt m k0 := rfl
@[simp] theorem State.endLevel_at_trig (s : State) (f : Fid) (m : Nat) : (s.endLevel f).trig m = s.trig m := rfl
@[simp] theorem State.endLevel_at_lane (s : State) (f : Fid) (m : Nat) : (s.endLevel f).lane m = s.lane m := rfl
@[simp] theorem State.endLevel_at_grp (s : State) (f : Fid) (m : Nat) : (s.endLevel f).grp m = s.grp m := rfl
@[simp] theorem State.endLevel_at_now (s : State) (f : Fid) : (s.endLevel f).now  = s.now := rfl
@[simp] theorem State.endLevel_at_power (s : State) (f : Fid) : (s.endLevel f).power  = s.power := rfl
@[simp] theorem State.endLevel_at_active (s : State) (f : Fid) : (s.endLevel f).active  = s.active := rfl
@[simp] theorem State.endLevel_at_up (s : State) (f : Fid) : (s.endLevel f).up  = s.up := rfl

/-! ## State.record -/

@[simp] theorem State.record_pending (s : State) (c i k t : Nat) (a : Word) : (s.record c i k t a).pending = s.pending := rfl
@[simp] theorem State.record_count (s : State) (c i k t : Nat) (a : Word) : (s.record c i k t a).count = s.count := rfl
@[simp] theorem State.record_elapsed (s : State) (c i k t : Nat) (a : Word) : (s.record c i k t a).elapsed = s.elapsed := rfl
@[simp] theorem State.record_regs (s : State) (c i k t : Nat) (a : Word) : (s.record c i k t a).regs = s.regs := rfl
@[simp] theorem State.record_raises (s : State) (c i k t : Nat) (a : Word) : (s.record c i k t a).raises = s.raises := rfl
@[simp] theorem State.record_sticks (s : State) (c i k t : Nat) (a : Word) : (s.record c i k t a).sticks = s.sticks := rfl
@[simp] theorem State.record_lapses (s : State) (c i k t : Nat) (a : Word) : (s.record c i k t a).lapses = s.lapses := rfl
@[simp] theorem State.record_sync (s : State) (c i k t : Nat) (a : Word) : (s.record c i k t a).sync = s.sync := rfl
@[simp] theorem State.record_syncDue (s : State) (c i k t : Nat) (a : Word) : (s.record c i k t a).syncDue = s.syncDue := rfl
@[simp] theorem State.record_syncStamp (s : State) (c i k t : Nat) (a : Word) : (s.record c i k t a).syncStamp = s.syncStamp := rfl
@[simp] theorem State.record_trigs (s : State) (c i k t : Nat) (a : Word) : (s.record c i k t a).trigs = s.trigs := rfl
@[simp] theorem State.record_hwRel (s : State) (c i k t : Nat) (a : Word) : (s.record c i k t a).hwRel = s.hwRel := rfl
@[simp] theorem State.record_sched (s : State) (c i k t : Nat) (a : Word) : (s.record c i k t a).sched = s.sched := rfl
@[simp] theorem State.record_acceptSeq (s : State) (c i k t : Nat) (a : Word) : (s.record c i k t a).acceptSeq = s.acceptSeq := rfl
@[simp] theorem State.record_stepped (s : State) (c i k t : Nat) (a : Word) : (s.record c i k t a).stepped = s.stepped := rfl
@[simp] theorem State.record_heldWrites (s : State) (c i k t : Nat) (a : Word) : (s.record c i k t a).heldWrites = s.heldWrites := rfl
@[simp] theorem State.record_refs (s : State) (c i k t : Nat) (a : Word) : (s.record c i k t a).refs = s.refs := rfl
@[simp] theorem State.record_anchors (s : State) (c i k t : Nat) (a : Word) : (s.record c i k t a).anchors = s.anchors := rfl
@[simp] theorem State.record_primary (s : State) (c i k t : Nat) (a : Word) : (s.record c i k t a).primary = s.primary := rfl
@[simp] theorem State.record_primaryAt (s : State) (c i k t : Nat) (a : Word) : (s.record c i k t a).primaryAt = s.primaryAt := rfl
@[simp] theorem State.record_initDone (s : State) (c i k t : Nat) (a : Word) : (s.record c i k t a).initDone = s.initDone := rfl
@[simp] theorem State.record_alignRun (s : State) (c i k t : Nat) (a : Word) : (s.record c i k t a).alignRun = s.alignRun := rfl
@[simp] theorem State.record_alignOver (s : State) (c i k t : Nat) (a : Word) : (s.record c i k t a).alignOver = s.alignOver := rfl
@[simp] theorem State.record_ancEventAt (s : State) (c i k t : Nat) (a : Word) : (s.record c i k t a).ancEventAt = s.ancEventAt := rfl
@[simp] theorem State.record_xferStamp (s : State) (c i k t : Nat) (a : Word) : (s.record c i k t a).xferStamp = s.xferStamp := rfl
@[simp] theorem State.record_transfer (s : State) (c i k t : Nat) (a : Word) : (s.record c i k t a).transfer = s.transfer := rfl
@[simp] theorem State.record_later (s : State) (c i k t : Nat) (a : Word) : (s.record c i k t a).later = s.later := rfl
@[simp] theorem State.record_cores (s : State) (c i k t : Nat) (a : Word) : (s.record c i k t a).cores = s.cores := rfl
@[simp] theorem State.record_outs (s : State) (c i k t : Nat) (a : Word) : (s.record c i k t a).outs = s.outs := rfl
@[simp] theorem State.record_ras (s : State) (c i k t : Nat) (a : Word) : (s.record c i k t a).ras = s.ras := rfl
@[simp] theorem State.record_stations (s : State) (c i k t : Nat) (a : Word) : (s.record c i k t a).stations = s.stations := rfl
@[simp] theorem State.record_pgm (s : State) (c i k t : Nat) (a : Word) : (s.record c i k t a).pgm = s.pgm := rfl
@[simp] theorem State.record_profs (s : State) (c i k t : Nat) (a : Word) : (s.record c i k t a).profs = s.profs := rfl
@[simp] theorem State.record_shadows (s : State) (c i k t : Nat) (a : Word) : (s.record c i k t a).shadows = s.shadows := rfl
@[simp] theorem State.record_check (s : State) (c i k t : Nat) (a : Word) : (s.record c i k t a).check = s.check := rfl
@[simp] theorem State.record_statPins (s : State) (c i k t : Nat) (a : Word) : (s.record c i k t a).statPins = s.statPins := rfl
@[simp] theorem State.record_lanes (s : State) (c i k t : Nat) (a : Word) : (s.record c i k t a).lanes = s.lanes := rfl
@[simp] theorem State.record_lng (s : State) (c i k t : Nat) (a : Word) : (s.record c i k t a).lng = s.lng := rfl
@[simp] theorem State.record_fleet (s : State) (c i k t : Nat) (a : Word) : (s.record c i k t a).fleet = s.fleet := rfl
@[simp] theorem State.record_spareRows (s : State) (c i k t : Nat) (a : Word) : (s.record c i k t a).spareRows = s.spareRows := rfl
@[simp] theorem State.record_fencedEntries (s : State) (c i k t : Nat) (a : Word) : (s.record c i k t a).fencedEntries = s.fencedEntries := rfl
@[simp] theorem State.record_refills (s : State) (c i k t : Nat) (a : Word) : (s.record c i k t a).refills = s.refills := rfl
@[simp] theorem State.record_cal (s : State) (c i k t : Nat) (a : Word) : (s.record c i k t a).cal = s.cal := rfl
@[simp] theorem State.record_mon (s : State) (c i k t : Nat) (a : Word) : (s.record c i k t a).mon = s.mon := rfl
@[simp] theorem State.record_bar (s : State) (c i k t : Nat) (a : Word) : (s.record c i k t a).bar = s.bar := rfl
@[simp] theorem State.record_flash (s : State) (c i k t : Nat) (a : Word) : (s.record c i k t a).flash = s.flash := rfl
@[simp] theorem State.record_otp (s : State) (c i k t : Nat) (a : Word) : (s.record c i k t a).otp = s.otp := rfl
@[simp] theorem State.record_store (s : State) (c i k t : Nat) (a : Word) : (s.record c i k t a).store = s.store := rfl
@[simp] theorem State.record_boot (s : State) (c i k t : Nat) (a : Word) : (s.record c i k t a).boot = s.boot := rfl
@[simp] theorem State.record_svc (s : State) (c i k t : Nat) (a : Word) : (s.record c i k t a).svc = s.svc := rfl
@[simp] theorem State.record_hspi (s : State) (c i k t : Nat) (a : Word) : (s.record c i k t a).hspi = s.hspi := rfl
@[simp] theorem State.record_mbx (s : State) (c i k t : Nat) (a : Word) : (s.record c i k t a).mbx = s.mbx := rfl
@[simp] theorem State.record_pins (s : State) (c i k t : Nat) (a : Word) : (s.record c i k t a).pins = s.pins := rfl
@[simp] theorem State.record_powering (s : State) (c i k t : Nat) (a : Word) : (s.record c i k t a).powering = s.powering := rfl
@[simp] theorem State.record_reloads (s : State) (c i k t : Nat) (a : Word) : (s.record c i k t a).reloads = s.reloads := rfl
@[simp] theorem State.record_readData (s : State) (c i k t : Nat) (a : Word) : (s.record c i k t a).readData = s.readData := rfl
@[simp] theorem State.record_halted (s : State) (c i k t : Nat) (a : Word) : (s.record c i k t a).halted = s.halted := rfl
@[simp] theorem State.record_calVals (s : State) (c i k t : Nat) (a : Word) : (s.record c i k t a).calVals = s.calVals := rfl
@[simp] theorem State.record_at_reg (s : State) (c i k t : Nat) (a : Word) (r0 : RegName) (i0 : Nat) : (s.record c i k t a).reg r0 i0 = s.reg r0 i0 := rfl
@[simp] theorem State.record_at_fld (s : State) (c i k t : Nat) (a : Word) (f0 : Field) (i0 : Nat) : (s.record c i k t a).fld f0 i0 = s.fld f0 i0 := rfl
@[simp] theorem State.record_at_flag (s : State) (c i k t : Nat) (a : Word) (f0 : Field) (i0 : Nat) : (s.record c i k t a).flag f0 i0 = s.flag f0 i0 := rfl
@[simp] theorem State.record_at_core (s : State) (c i k t : Nat) (a : Word) (m : Nat) : (s.record c i k t a).core m = s.core m := rfl
@[simp] theorem State.record_at_out (s : State) (c i k t : Nat) (a : Word) (m : Nat) : (s.record c i k t a).out m = s.out m := rfl
@[simp] theorem State.record_at_anc (s : State) (c i k t : Nat) (a : Word) (m : Nat) : (s.record c i k t a).anc m = s.anc m := rfl
@[simp] theorem State.record_at_ref (s : State) (c i k t : Nat) (a : Word) (m : Nat) : (s.record c i k t a).ref m = s.ref m := rfl
@[simp] theorem State.record_at_rasCh (s : State) (c i k t : Nat) (a : Word) (m : Nat) : (s.record c i k t a).rasCh m = s.rasCh m := rfl
@[simp] theorem State.record_at_stn (s : State) (c i k t : Nat) (a : Word) (m : Nat) : (s.record c i k t a).stn m = s.stn m := rfl
@[simp] theorem State.record_at_slotSt (s : State) (c i k t : Nat) (a : Word) (m k0 : Nat) : (s.record c i k t a).slotSt m k0 = s.slotSt m k0 := rfl
@[simp] theorem State.record_at_trig (s : State) (c i k t : Nat) (a : Word) (m : Nat) : (s.record c i k t a).trig m = s.trig m := rfl
@[simp] theorem State.record_at_lane (s : State) (c i k t : Nat) (a : Word) (m : Nat) : (s.record c i k t a).lane m = s.lane m := rfl
@[simp] theorem State.record_at_grp (s : State) (c i k t : Nat) (a : Word) (m : Nat) : (s.record c i k t a).grp m = s.grp m := rfl
@[simp] theorem State.record_at_now (s : State) (c i k t : Nat) (a : Word) : (s.record c i k t a).now  = s.now := rfl
@[simp] theorem State.record_at_power (s : State) (c i k t : Nat) (a : Word) : (s.record c i k t a).power  = s.power := rfl
@[simp] theorem State.record_at_active (s : State) (c i k t : Nat) (a : Word) : (s.record c i k t a).active  = s.active := rfl
@[simp] theorem State.record_at_up (s : State) (c i k t : Nat) (a : Word) : (s.record c i k t a).up  = s.up := rfl

/-! ## State.lapseEntry -/

@[simp] theorem State.lapseEntry_pending (s : State) (f : Fid) (k t : Nat) (a : Word) : (s.lapseEntry f k t a).pending = s.pending := rfl
@[simp] theorem State.lapseEntry_count (s : State) (f : Fid) (k t : Nat) (a : Word) : (s.lapseEntry f k t a).count = s.count := rfl
@[simp] theorem State.lapseEntry_elapsed (s : State) (f : Fid) (k t : Nat) (a : Word) : (s.lapseEntry f k t a).elapsed = s.elapsed := rfl
@[simp] theorem State.lapseEntry_regs (s : State) (f : Fid) (k t : Nat) (a : Word) : (s.lapseEntry f k t a).regs = s.regs := rfl
@[simp] theorem State.lapseEntry_raises (s : State) (f : Fid) (k t : Nat) (a : Word) : (s.lapseEntry f k t a).raises = s.raises := rfl
@[simp] theorem State.lapseEntry_sticks (s : State) (f : Fid) (k t : Nat) (a : Word) : (s.lapseEntry f k t a).sticks = s.sticks := rfl
@[simp] theorem State.lapseEntry_lapses (s : State) (f : Fid) (k t : Nat) (a : Word) : (s.lapseEntry f k t a).lapses = s.lapses := rfl
@[simp] theorem State.lapseEntry_sync (s : State) (f : Fid) (k t : Nat) (a : Word) : (s.lapseEntry f k t a).sync = s.sync := rfl
@[simp] theorem State.lapseEntry_syncDue (s : State) (f : Fid) (k t : Nat) (a : Word) : (s.lapseEntry f k t a).syncDue = s.syncDue := rfl
@[simp] theorem State.lapseEntry_syncStamp (s : State) (f : Fid) (k t : Nat) (a : Word) : (s.lapseEntry f k t a).syncStamp = s.syncStamp := rfl
@[simp] theorem State.lapseEntry_trigs (s : State) (f : Fid) (k t : Nat) (a : Word) : (s.lapseEntry f k t a).trigs = s.trigs := rfl
@[simp] theorem State.lapseEntry_hwRel (s : State) (f : Fid) (k t : Nat) (a : Word) : (s.lapseEntry f k t a).hwRel = s.hwRel := rfl
@[simp] theorem State.lapseEntry_sched (s : State) (f : Fid) (k t : Nat) (a : Word) : (s.lapseEntry f k t a).sched = s.sched := rfl
@[simp] theorem State.lapseEntry_acceptSeq (s : State) (f : Fid) (k t : Nat) (a : Word) : (s.lapseEntry f k t a).acceptSeq = s.acceptSeq := rfl
@[simp] theorem State.lapseEntry_stepped (s : State) (f : Fid) (k t : Nat) (a : Word) : (s.lapseEntry f k t a).stepped = s.stepped := rfl
@[simp] theorem State.lapseEntry_heldWrites (s : State) (f : Fid) (k t : Nat) (a : Word) : (s.lapseEntry f k t a).heldWrites = s.heldWrites := rfl
@[simp] theorem State.lapseEntry_refs (s : State) (f : Fid) (k t : Nat) (a : Word) : (s.lapseEntry f k t a).refs = s.refs := rfl
@[simp] theorem State.lapseEntry_anchors (s : State) (f : Fid) (k t : Nat) (a : Word) : (s.lapseEntry f k t a).anchors = s.anchors := rfl
@[simp] theorem State.lapseEntry_primary (s : State) (f : Fid) (k t : Nat) (a : Word) : (s.lapseEntry f k t a).primary = s.primary := rfl
@[simp] theorem State.lapseEntry_primaryAt (s : State) (f : Fid) (k t : Nat) (a : Word) : (s.lapseEntry f k t a).primaryAt = s.primaryAt := rfl
@[simp] theorem State.lapseEntry_initDone (s : State) (f : Fid) (k t : Nat) (a : Word) : (s.lapseEntry f k t a).initDone = s.initDone := rfl
@[simp] theorem State.lapseEntry_alignRun (s : State) (f : Fid) (k t : Nat) (a : Word) : (s.lapseEntry f k t a).alignRun = s.alignRun := rfl
@[simp] theorem State.lapseEntry_alignOver (s : State) (f : Fid) (k t : Nat) (a : Word) : (s.lapseEntry f k t a).alignOver = s.alignOver := rfl
@[simp] theorem State.lapseEntry_ancEventAt (s : State) (f : Fid) (k t : Nat) (a : Word) : (s.lapseEntry f k t a).ancEventAt = s.ancEventAt := rfl
@[simp] theorem State.lapseEntry_xferStamp (s : State) (f : Fid) (k t : Nat) (a : Word) : (s.lapseEntry f k t a).xferStamp = s.xferStamp := rfl
@[simp] theorem State.lapseEntry_transfer (s : State) (f : Fid) (k t : Nat) (a : Word) : (s.lapseEntry f k t a).transfer = s.transfer := rfl
@[simp] theorem State.lapseEntry_later (s : State) (f : Fid) (k t : Nat) (a : Word) : (s.lapseEntry f k t a).later = s.later := rfl
@[simp] theorem State.lapseEntry_cores (s : State) (f : Fid) (k t : Nat) (a : Word) : (s.lapseEntry f k t a).cores = s.cores := rfl
@[simp] theorem State.lapseEntry_outs (s : State) (f : Fid) (k t : Nat) (a : Word) : (s.lapseEntry f k t a).outs = s.outs := rfl
@[simp] theorem State.lapseEntry_ras (s : State) (f : Fid) (k t : Nat) (a : Word) : (s.lapseEntry f k t a).ras = s.ras := rfl
@[simp] theorem State.lapseEntry_stations (s : State) (f : Fid) (k t : Nat) (a : Word) : (s.lapseEntry f k t a).stations = s.stations := rfl
@[simp] theorem State.lapseEntry_pgm (s : State) (f : Fid) (k t : Nat) (a : Word) : (s.lapseEntry f k t a).pgm = s.pgm := rfl
@[simp] theorem State.lapseEntry_profs (s : State) (f : Fid) (k t : Nat) (a : Word) : (s.lapseEntry f k t a).profs = s.profs := rfl
@[simp] theorem State.lapseEntry_shadows (s : State) (f : Fid) (k t : Nat) (a : Word) : (s.lapseEntry f k t a).shadows = s.shadows := rfl
@[simp] theorem State.lapseEntry_check (s : State) (f : Fid) (k t : Nat) (a : Word) : (s.lapseEntry f k t a).check = s.check := rfl
@[simp] theorem State.lapseEntry_statPins (s : State) (f : Fid) (k t : Nat) (a : Word) : (s.lapseEntry f k t a).statPins = s.statPins := rfl
@[simp] theorem State.lapseEntry_lanes (s : State) (f : Fid) (k t : Nat) (a : Word) : (s.lapseEntry f k t a).lanes = s.lanes := rfl
@[simp] theorem State.lapseEntry_lng (s : State) (f : Fid) (k t : Nat) (a : Word) : (s.lapseEntry f k t a).lng = s.lng := rfl
@[simp] theorem State.lapseEntry_fleet (s : State) (f : Fid) (k t : Nat) (a : Word) : (s.lapseEntry f k t a).fleet = s.fleet := rfl
@[simp] theorem State.lapseEntry_spareRows (s : State) (f : Fid) (k t : Nat) (a : Word) : (s.lapseEntry f k t a).spareRows = s.spareRows := rfl
@[simp] theorem State.lapseEntry_fencedEntries (s : State) (f : Fid) (k t : Nat) (a : Word) : (s.lapseEntry f k t a).fencedEntries = s.fencedEntries := rfl
@[simp] theorem State.lapseEntry_refills (s : State) (f : Fid) (k t : Nat) (a : Word) : (s.lapseEntry f k t a).refills = s.refills := rfl
@[simp] theorem State.lapseEntry_cal (s : State) (f : Fid) (k t : Nat) (a : Word) : (s.lapseEntry f k t a).cal = s.cal := rfl
@[simp] theorem State.lapseEntry_mon (s : State) (f : Fid) (k t : Nat) (a : Word) : (s.lapseEntry f k t a).mon = s.mon := rfl
@[simp] theorem State.lapseEntry_bar (s : State) (f : Fid) (k t : Nat) (a : Word) : (s.lapseEntry f k t a).bar = s.bar := rfl
@[simp] theorem State.lapseEntry_flash (s : State) (f : Fid) (k t : Nat) (a : Word) : (s.lapseEntry f k t a).flash = s.flash := rfl
@[simp] theorem State.lapseEntry_otp (s : State) (f : Fid) (k t : Nat) (a : Word) : (s.lapseEntry f k t a).otp = s.otp := rfl
@[simp] theorem State.lapseEntry_store (s : State) (f : Fid) (k t : Nat) (a : Word) : (s.lapseEntry f k t a).store = s.store := rfl
@[simp] theorem State.lapseEntry_boot (s : State) (f : Fid) (k t : Nat) (a : Word) : (s.lapseEntry f k t a).boot = s.boot := rfl
@[simp] theorem State.lapseEntry_svc (s : State) (f : Fid) (k t : Nat) (a : Word) : (s.lapseEntry f k t a).svc = s.svc := rfl
@[simp] theorem State.lapseEntry_hspi (s : State) (f : Fid) (k t : Nat) (a : Word) : (s.lapseEntry f k t a).hspi = s.hspi := rfl
@[simp] theorem State.lapseEntry_mbx (s : State) (f : Fid) (k t : Nat) (a : Word) : (s.lapseEntry f k t a).mbx = s.mbx := rfl
@[simp] theorem State.lapseEntry_pins (s : State) (f : Fid) (k t : Nat) (a : Word) : (s.lapseEntry f k t a).pins = s.pins := rfl
@[simp] theorem State.lapseEntry_powering (s : State) (f : Fid) (k t : Nat) (a : Word) : (s.lapseEntry f k t a).powering = s.powering := rfl
@[simp] theorem State.lapseEntry_reloads (s : State) (f : Fid) (k t : Nat) (a : Word) : (s.lapseEntry f k t a).reloads = s.reloads := rfl
@[simp] theorem State.lapseEntry_readData (s : State) (f : Fid) (k t : Nat) (a : Word) : (s.lapseEntry f k t a).readData = s.readData := rfl
@[simp] theorem State.lapseEntry_halted (s : State) (f : Fid) (k t : Nat) (a : Word) : (s.lapseEntry f k t a).halted = s.halted := rfl
@[simp] theorem State.lapseEntry_calVals (s : State) (f : Fid) (k t : Nat) (a : Word) : (s.lapseEntry f k t a).calVals = s.calVals := rfl
@[simp] theorem State.lapseEntry_at_reg (s : State) (f : Fid) (k t : Nat) (a : Word) (r0 : RegName) (i0 : Nat) : (s.lapseEntry f k t a).reg r0 i0 = s.reg r0 i0 := rfl
@[simp] theorem State.lapseEntry_at_fld (s : State) (f : Fid) (k t : Nat) (a : Word) (f0 : Field) (i0 : Nat) : (s.lapseEntry f k t a).fld f0 i0 = s.fld f0 i0 := rfl
@[simp] theorem State.lapseEntry_at_flag (s : State) (f : Fid) (k t : Nat) (a : Word) (f0 : Field) (i0 : Nat) : (s.lapseEntry f k t a).flag f0 i0 = s.flag f0 i0 := rfl
@[simp] theorem State.lapseEntry_at_core (s : State) (f : Fid) (k t : Nat) (a : Word) (m : Nat) : (s.lapseEntry f k t a).core m = s.core m := rfl
@[simp] theorem State.lapseEntry_at_out (s : State) (f : Fid) (k t : Nat) (a : Word) (m : Nat) : (s.lapseEntry f k t a).out m = s.out m := rfl
@[simp] theorem State.lapseEntry_at_anc (s : State) (f : Fid) (k t : Nat) (a : Word) (m : Nat) : (s.lapseEntry f k t a).anc m = s.anc m := rfl
@[simp] theorem State.lapseEntry_at_ref (s : State) (f : Fid) (k t : Nat) (a : Word) (m : Nat) : (s.lapseEntry f k t a).ref m = s.ref m := rfl
@[simp] theorem State.lapseEntry_at_rasCh (s : State) (f : Fid) (k t : Nat) (a : Word) (m : Nat) : (s.lapseEntry f k t a).rasCh m = s.rasCh m := rfl
@[simp] theorem State.lapseEntry_at_stn (s : State) (f : Fid) (k t : Nat) (a : Word) (m : Nat) : (s.lapseEntry f k t a).stn m = s.stn m := rfl
@[simp] theorem State.lapseEntry_at_slotSt (s : State) (f : Fid) (k t : Nat) (a : Word) (m k0 : Nat) : (s.lapseEntry f k t a).slotSt m k0 = s.slotSt m k0 := rfl
@[simp] theorem State.lapseEntry_at_trig (s : State) (f : Fid) (k t : Nat) (a : Word) (m : Nat) : (s.lapseEntry f k t a).trig m = s.trig m := rfl
@[simp] theorem State.lapseEntry_at_lane (s : State) (f : Fid) (k t : Nat) (a : Word) (m : Nat) : (s.lapseEntry f k t a).lane m = s.lane m := rfl
@[simp] theorem State.lapseEntry_at_grp (s : State) (f : Fid) (k t : Nat) (a : Word) (m : Nat) : (s.lapseEntry f k t a).grp m = s.grp m := rfl
@[simp] theorem State.lapseEntry_at_now (s : State) (f : Fid) (k t : Nat) (a : Word) : (s.lapseEntry f k t a).now  = s.now := rfl
@[simp] theorem State.lapseEntry_at_power (s : State) (f : Fid) (k t : Nat) (a : Word) : (s.lapseEntry f k t a).power  = s.power := rfl
@[simp] theorem State.lapseEntry_at_active (s : State) (f : Fid) (k t : Nat) (a : Word) : (s.lapseEntry f k t a).active  = s.active := rfl
@[simp] theorem State.lapseEntry_at_up (s : State) (f : Fid) (k t : Nat) (a : Word) : (s.lapseEntry f k t a).up  = s.up := rfl

/-! ## State.modTrig -/

@[simp] theorem State.modTrig_pending (s : State) (n : Nat) (f : Trig → Trig) : (s.modTrig n f).pending = s.pending := rfl
@[simp] theorem State.modTrig_count (s : State) (n : Nat) (f : Trig → Trig) : (s.modTrig n f).count = s.count := rfl
@[simp] theorem State.modTrig_elapsed (s : State) (n : Nat) (f : Trig → Trig) : (s.modTrig n f).elapsed = s.elapsed := rfl
@[simp] theorem State.modTrig_regs (s : State) (n : Nat) (f : Trig → Trig) : (s.modTrig n f).regs = s.regs := rfl
@[simp] theorem State.modTrig_windows (s : State) (n : Nat) (f : Trig → Trig) : (s.modTrig n f).windows = s.windows := rfl
@[simp] theorem State.modTrig_raises (s : State) (n : Nat) (f : Trig → Trig) : (s.modTrig n f).raises = s.raises := rfl
@[simp] theorem State.modTrig_sticks (s : State) (n : Nat) (f : Trig → Trig) : (s.modTrig n f).sticks = s.sticks := rfl
@[simp] theorem State.modTrig_lapses (s : State) (n : Nat) (f : Trig → Trig) : (s.modTrig n f).lapses = s.lapses := rfl
@[simp] theorem State.modTrig_sync (s : State) (n : Nat) (f : Trig → Trig) : (s.modTrig n f).sync = s.sync := rfl
@[simp] theorem State.modTrig_syncDue (s : State) (n : Nat) (f : Trig → Trig) : (s.modTrig n f).syncDue = s.syncDue := rfl
@[simp] theorem State.modTrig_syncStamp (s : State) (n : Nat) (f : Trig → Trig) : (s.modTrig n f).syncStamp = s.syncStamp := rfl
@[simp] theorem State.modTrig_hwRel (s : State) (n : Nat) (f : Trig → Trig) : (s.modTrig n f).hwRel = s.hwRel := rfl
@[simp] theorem State.modTrig_sched (s : State) (n : Nat) (f : Trig → Trig) : (s.modTrig n f).sched = s.sched := rfl
@[simp] theorem State.modTrig_acceptSeq (s : State) (n : Nat) (f : Trig → Trig) : (s.modTrig n f).acceptSeq = s.acceptSeq := rfl
@[simp] theorem State.modTrig_stepped (s : State) (n : Nat) (f : Trig → Trig) : (s.modTrig n f).stepped = s.stepped := rfl
@[simp] theorem State.modTrig_heldWrites (s : State) (n : Nat) (f : Trig → Trig) : (s.modTrig n f).heldWrites = s.heldWrites := rfl
@[simp] theorem State.modTrig_refs (s : State) (n : Nat) (f : Trig → Trig) : (s.modTrig n f).refs = s.refs := rfl
@[simp] theorem State.modTrig_anchors (s : State) (n : Nat) (f : Trig → Trig) : (s.modTrig n f).anchors = s.anchors := rfl
@[simp] theorem State.modTrig_primary (s : State) (n : Nat) (f : Trig → Trig) : (s.modTrig n f).primary = s.primary := rfl
@[simp] theorem State.modTrig_primaryAt (s : State) (n : Nat) (f : Trig → Trig) : (s.modTrig n f).primaryAt = s.primaryAt := rfl
@[simp] theorem State.modTrig_initDone (s : State) (n : Nat) (f : Trig → Trig) : (s.modTrig n f).initDone = s.initDone := rfl
@[simp] theorem State.modTrig_alignRun (s : State) (n : Nat) (f : Trig → Trig) : (s.modTrig n f).alignRun = s.alignRun := rfl
@[simp] theorem State.modTrig_alignOver (s : State) (n : Nat) (f : Trig → Trig) : (s.modTrig n f).alignOver = s.alignOver := rfl
@[simp] theorem State.modTrig_ancEventAt (s : State) (n : Nat) (f : Trig → Trig) : (s.modTrig n f).ancEventAt = s.ancEventAt := rfl
@[simp] theorem State.modTrig_xferStamp (s : State) (n : Nat) (f : Trig → Trig) : (s.modTrig n f).xferStamp = s.xferStamp := rfl
@[simp] theorem State.modTrig_transfer (s : State) (n : Nat) (f : Trig → Trig) : (s.modTrig n f).transfer = s.transfer := rfl
@[simp] theorem State.modTrig_later (s : State) (n : Nat) (f : Trig → Trig) : (s.modTrig n f).later = s.later := rfl
@[simp] theorem State.modTrig_cores (s : State) (n : Nat) (f : Trig → Trig) : (s.modTrig n f).cores = s.cores := rfl
@[simp] theorem State.modTrig_outs (s : State) (n : Nat) (f : Trig → Trig) : (s.modTrig n f).outs = s.outs := rfl
@[simp] theorem State.modTrig_ras (s : State) (n : Nat) (f : Trig → Trig) : (s.modTrig n f).ras = s.ras := rfl
@[simp] theorem State.modTrig_stations (s : State) (n : Nat) (f : Trig → Trig) : (s.modTrig n f).stations = s.stations := rfl
@[simp] theorem State.modTrig_pgm (s : State) (n : Nat) (f : Trig → Trig) : (s.modTrig n f).pgm = s.pgm := rfl
@[simp] theorem State.modTrig_profs (s : State) (n : Nat) (f : Trig → Trig) : (s.modTrig n f).profs = s.profs := rfl
@[simp] theorem State.modTrig_shadows (s : State) (n : Nat) (f : Trig → Trig) : (s.modTrig n f).shadows = s.shadows := rfl
@[simp] theorem State.modTrig_check (s : State) (n : Nat) (f : Trig → Trig) : (s.modTrig n f).check = s.check := rfl
@[simp] theorem State.modTrig_statPins (s : State) (n : Nat) (f : Trig → Trig) : (s.modTrig n f).statPins = s.statPins := rfl
@[simp] theorem State.modTrig_lanes (s : State) (n : Nat) (f : Trig → Trig) : (s.modTrig n f).lanes = s.lanes := rfl
@[simp] theorem State.modTrig_lng (s : State) (n : Nat) (f : Trig → Trig) : (s.modTrig n f).lng = s.lng := rfl
@[simp] theorem State.modTrig_fleet (s : State) (n : Nat) (f : Trig → Trig) : (s.modTrig n f).fleet = s.fleet := rfl
@[simp] theorem State.modTrig_spareRows (s : State) (n : Nat) (f : Trig → Trig) : (s.modTrig n f).spareRows = s.spareRows := rfl
@[simp] theorem State.modTrig_fencedEntries (s : State) (n : Nat) (f : Trig → Trig) : (s.modTrig n f).fencedEntries = s.fencedEntries := rfl
@[simp] theorem State.modTrig_refills (s : State) (n : Nat) (f : Trig → Trig) : (s.modTrig n f).refills = s.refills := rfl
@[simp] theorem State.modTrig_cal (s : State) (n : Nat) (f : Trig → Trig) : (s.modTrig n f).cal = s.cal := rfl
@[simp] theorem State.modTrig_mon (s : State) (n : Nat) (f : Trig → Trig) : (s.modTrig n f).mon = s.mon := rfl
@[simp] theorem State.modTrig_bar (s : State) (n : Nat) (f : Trig → Trig) : (s.modTrig n f).bar = s.bar := rfl
@[simp] theorem State.modTrig_flash (s : State) (n : Nat) (f : Trig → Trig) : (s.modTrig n f).flash = s.flash := rfl
@[simp] theorem State.modTrig_otp (s : State) (n : Nat) (f : Trig → Trig) : (s.modTrig n f).otp = s.otp := rfl
@[simp] theorem State.modTrig_store (s : State) (n : Nat) (f : Trig → Trig) : (s.modTrig n f).store = s.store := rfl
@[simp] theorem State.modTrig_boot (s : State) (n : Nat) (f : Trig → Trig) : (s.modTrig n f).boot = s.boot := rfl
@[simp] theorem State.modTrig_svc (s : State) (n : Nat) (f : Trig → Trig) : (s.modTrig n f).svc = s.svc := rfl
@[simp] theorem State.modTrig_hspi (s : State) (n : Nat) (f : Trig → Trig) : (s.modTrig n f).hspi = s.hspi := rfl
@[simp] theorem State.modTrig_mbx (s : State) (n : Nat) (f : Trig → Trig) : (s.modTrig n f).mbx = s.mbx := rfl
@[simp] theorem State.modTrig_pins (s : State) (n : Nat) (f : Trig → Trig) : (s.modTrig n f).pins = s.pins := rfl
@[simp] theorem State.modTrig_powering (s : State) (n : Nat) (f : Trig → Trig) : (s.modTrig n f).powering = s.powering := rfl
@[simp] theorem State.modTrig_reloads (s : State) (n : Nat) (f : Trig → Trig) : (s.modTrig n f).reloads = s.reloads := rfl
@[simp] theorem State.modTrig_readData (s : State) (n : Nat) (f : Trig → Trig) : (s.modTrig n f).readData = s.readData := rfl
@[simp] theorem State.modTrig_halted (s : State) (n : Nat) (f : Trig → Trig) : (s.modTrig n f).halted = s.halted := rfl
@[simp] theorem State.modTrig_calVals (s : State) (n : Nat) (f : Trig → Trig) : (s.modTrig n f).calVals = s.calVals := rfl
@[simp] theorem State.modTrig_at_reg (s : State) (n : Nat) (f : Trig → Trig) (r0 : RegName) (i0 : Nat) : (s.modTrig n f).reg r0 i0 = s.reg r0 i0 := rfl
@[simp] theorem State.modTrig_at_fld (s : State) (n : Nat) (f : Trig → Trig) (f0 : Field) (i0 : Nat) : (s.modTrig n f).fld f0 i0 = s.fld f0 i0 := rfl
@[simp] theorem State.modTrig_at_flag (s : State) (n : Nat) (f : Trig → Trig) (f0 : Field) (i0 : Nat) : (s.modTrig n f).flag f0 i0 = s.flag f0 i0 := rfl
@[simp] theorem State.modTrig_at_core (s : State) (n : Nat) (f : Trig → Trig) (m : Nat) : (s.modTrig n f).core m = s.core m := rfl
@[simp] theorem State.modTrig_at_out (s : State) (n : Nat) (f : Trig → Trig) (m : Nat) : (s.modTrig n f).out m = s.out m := rfl
@[simp] theorem State.modTrig_at_anc (s : State) (n : Nat) (f : Trig → Trig) (m : Nat) : (s.modTrig n f).anc m = s.anc m := rfl
@[simp] theorem State.modTrig_at_ref (s : State) (n : Nat) (f : Trig → Trig) (m : Nat) : (s.modTrig n f).ref m = s.ref m := rfl
@[simp] theorem State.modTrig_at_rasCh (s : State) (n : Nat) (f : Trig → Trig) (m : Nat) : (s.modTrig n f).rasCh m = s.rasCh m := rfl
@[simp] theorem State.modTrig_at_stn (s : State) (n : Nat) (f : Trig → Trig) (m : Nat) : (s.modTrig n f).stn m = s.stn m := rfl
@[simp] theorem State.modTrig_at_slotSt (s : State) (n : Nat) (f : Trig → Trig) (m k0 : Nat) : (s.modTrig n f).slotSt m k0 = s.slotSt m k0 := rfl
@[simp] theorem State.modTrig_at_win (s : State) (n : Nat) (f : Trig → Trig) (m : Nat) : (s.modTrig n f).win m = s.win m := rfl
@[simp] theorem State.modTrig_at_lane (s : State) (n : Nat) (f : Trig → Trig) (m : Nat) : (s.modTrig n f).lane m = s.lane m := rfl
@[simp] theorem State.modTrig_at_grp (s : State) (n : Nat) (f : Trig → Trig) (m : Nat) : (s.modTrig n f).grp m = s.grp m := rfl
@[simp] theorem State.modTrig_at_now (s : State) (n : Nat) (f : Trig → Trig) : (s.modTrig n f).now  = s.now := rfl
@[simp] theorem State.modTrig_at_power (s : State) (n : Nat) (f : Trig → Trig) : (s.modTrig n f).power  = s.power := rfl
@[simp] theorem State.modTrig_at_active (s : State) (n : Nat) (f : Trig → Trig) : (s.modTrig n f).active  = s.active := rfl
@[simp] theorem State.modTrig_at_up (s : State) (n : Nat) (f : Trig → Trig) : (s.modTrig n f).up  = s.up := rfl

/-! ## State.setLane -/

@[simp] theorem State.setLane_pending (s : State) (n : Nat) (x : Lane) : (s.setLane n x).pending = s.pending := rfl
@[simp] theorem State.setLane_count (s : State) (n : Nat) (x : Lane) : (s.setLane n x).count = s.count := rfl
@[simp] theorem State.setLane_elapsed (s : State) (n : Nat) (x : Lane) : (s.setLane n x).elapsed = s.elapsed := rfl
@[simp] theorem State.setLane_regs (s : State) (n : Nat) (x : Lane) : (s.setLane n x).regs = s.regs := rfl
@[simp] theorem State.setLane_windows (s : State) (n : Nat) (x : Lane) : (s.setLane n x).windows = s.windows := rfl
@[simp] theorem State.setLane_raises (s : State) (n : Nat) (x : Lane) : (s.setLane n x).raises = s.raises := rfl
@[simp] theorem State.setLane_sticks (s : State) (n : Nat) (x : Lane) : (s.setLane n x).sticks = s.sticks := rfl
@[simp] theorem State.setLane_lapses (s : State) (n : Nat) (x : Lane) : (s.setLane n x).lapses = s.lapses := rfl
@[simp] theorem State.setLane_sync (s : State) (n : Nat) (x : Lane) : (s.setLane n x).sync = s.sync := rfl
@[simp] theorem State.setLane_syncDue (s : State) (n : Nat) (x : Lane) : (s.setLane n x).syncDue = s.syncDue := rfl
@[simp] theorem State.setLane_syncStamp (s : State) (n : Nat) (x : Lane) : (s.setLane n x).syncStamp = s.syncStamp := rfl
@[simp] theorem State.setLane_trigs (s : State) (n : Nat) (x : Lane) : (s.setLane n x).trigs = s.trigs := rfl
@[simp] theorem State.setLane_hwRel (s : State) (n : Nat) (x : Lane) : (s.setLane n x).hwRel = s.hwRel := rfl
@[simp] theorem State.setLane_sched (s : State) (n : Nat) (x : Lane) : (s.setLane n x).sched = s.sched := rfl
@[simp] theorem State.setLane_acceptSeq (s : State) (n : Nat) (x : Lane) : (s.setLane n x).acceptSeq = s.acceptSeq := rfl
@[simp] theorem State.setLane_stepped (s : State) (n : Nat) (x : Lane) : (s.setLane n x).stepped = s.stepped := rfl
@[simp] theorem State.setLane_heldWrites (s : State) (n : Nat) (x : Lane) : (s.setLane n x).heldWrites = s.heldWrites := rfl
@[simp] theorem State.setLane_refs (s : State) (n : Nat) (x : Lane) : (s.setLane n x).refs = s.refs := rfl
@[simp] theorem State.setLane_anchors (s : State) (n : Nat) (x : Lane) : (s.setLane n x).anchors = s.anchors := rfl
@[simp] theorem State.setLane_primary (s : State) (n : Nat) (x : Lane) : (s.setLane n x).primary = s.primary := rfl
@[simp] theorem State.setLane_primaryAt (s : State) (n : Nat) (x : Lane) : (s.setLane n x).primaryAt = s.primaryAt := rfl
@[simp] theorem State.setLane_initDone (s : State) (n : Nat) (x : Lane) : (s.setLane n x).initDone = s.initDone := rfl
@[simp] theorem State.setLane_alignRun (s : State) (n : Nat) (x : Lane) : (s.setLane n x).alignRun = s.alignRun := rfl
@[simp] theorem State.setLane_alignOver (s : State) (n : Nat) (x : Lane) : (s.setLane n x).alignOver = s.alignOver := rfl
@[simp] theorem State.setLane_ancEventAt (s : State) (n : Nat) (x : Lane) : (s.setLane n x).ancEventAt = s.ancEventAt := rfl
@[simp] theorem State.setLane_xferStamp (s : State) (n : Nat) (x : Lane) : (s.setLane n x).xferStamp = s.xferStamp := rfl
@[simp] theorem State.setLane_transfer (s : State) (n : Nat) (x : Lane) : (s.setLane n x).transfer = s.transfer := rfl
@[simp] theorem State.setLane_later (s : State) (n : Nat) (x : Lane) : (s.setLane n x).later = s.later := rfl
@[simp] theorem State.setLane_cores (s : State) (n : Nat) (x : Lane) : (s.setLane n x).cores = s.cores := rfl
@[simp] theorem State.setLane_outs (s : State) (n : Nat) (x : Lane) : (s.setLane n x).outs = s.outs := rfl
@[simp] theorem State.setLane_ras (s : State) (n : Nat) (x : Lane) : (s.setLane n x).ras = s.ras := rfl
@[simp] theorem State.setLane_stations (s : State) (n : Nat) (x : Lane) : (s.setLane n x).stations = s.stations := rfl
@[simp] theorem State.setLane_pgm (s : State) (n : Nat) (x : Lane) : (s.setLane n x).pgm = s.pgm := rfl
@[simp] theorem State.setLane_profs (s : State) (n : Nat) (x : Lane) : (s.setLane n x).profs = s.profs := rfl
@[simp] theorem State.setLane_shadows (s : State) (n : Nat) (x : Lane) : (s.setLane n x).shadows = s.shadows := rfl
@[simp] theorem State.setLane_check (s : State) (n : Nat) (x : Lane) : (s.setLane n x).check = s.check := rfl
@[simp] theorem State.setLane_statPins (s : State) (n : Nat) (x : Lane) : (s.setLane n x).statPins = s.statPins := rfl
@[simp] theorem State.setLane_lng (s : State) (n : Nat) (x : Lane) : (s.setLane n x).lng = s.lng := rfl
@[simp] theorem State.setLane_fleet (s : State) (n : Nat) (x : Lane) : (s.setLane n x).fleet = s.fleet := rfl
@[simp] theorem State.setLane_spareRows (s : State) (n : Nat) (x : Lane) : (s.setLane n x).spareRows = s.spareRows := rfl
@[simp] theorem State.setLane_fencedEntries (s : State) (n : Nat) (x : Lane) : (s.setLane n x).fencedEntries = s.fencedEntries := rfl
@[simp] theorem State.setLane_refills (s : State) (n : Nat) (x : Lane) : (s.setLane n x).refills = s.refills := rfl
@[simp] theorem State.setLane_cal (s : State) (n : Nat) (x : Lane) : (s.setLane n x).cal = s.cal := rfl
@[simp] theorem State.setLane_mon (s : State) (n : Nat) (x : Lane) : (s.setLane n x).mon = s.mon := rfl
@[simp] theorem State.setLane_bar (s : State) (n : Nat) (x : Lane) : (s.setLane n x).bar = s.bar := rfl
@[simp] theorem State.setLane_flash (s : State) (n : Nat) (x : Lane) : (s.setLane n x).flash = s.flash := rfl
@[simp] theorem State.setLane_otp (s : State) (n : Nat) (x : Lane) : (s.setLane n x).otp = s.otp := rfl
@[simp] theorem State.setLane_store (s : State) (n : Nat) (x : Lane) : (s.setLane n x).store = s.store := rfl
@[simp] theorem State.setLane_boot (s : State) (n : Nat) (x : Lane) : (s.setLane n x).boot = s.boot := rfl
@[simp] theorem State.setLane_svc (s : State) (n : Nat) (x : Lane) : (s.setLane n x).svc = s.svc := rfl
@[simp] theorem State.setLane_hspi (s : State) (n : Nat) (x : Lane) : (s.setLane n x).hspi = s.hspi := rfl
@[simp] theorem State.setLane_mbx (s : State) (n : Nat) (x : Lane) : (s.setLane n x).mbx = s.mbx := rfl
@[simp] theorem State.setLane_pins (s : State) (n : Nat) (x : Lane) : (s.setLane n x).pins = s.pins := rfl
@[simp] theorem State.setLane_powering (s : State) (n : Nat) (x : Lane) : (s.setLane n x).powering = s.powering := rfl
@[simp] theorem State.setLane_reloads (s : State) (n : Nat) (x : Lane) : (s.setLane n x).reloads = s.reloads := rfl
@[simp] theorem State.setLane_readData (s : State) (n : Nat) (x : Lane) : (s.setLane n x).readData = s.readData := rfl
@[simp] theorem State.setLane_halted (s : State) (n : Nat) (x : Lane) : (s.setLane n x).halted = s.halted := rfl
@[simp] theorem State.setLane_calVals (s : State) (n : Nat) (x : Lane) : (s.setLane n x).calVals = s.calVals := rfl
@[simp] theorem State.setLane_at_reg (s : State) (n : Nat) (x : Lane) (r0 : RegName) (i0 : Nat) : (s.setLane n x).reg r0 i0 = s.reg r0 i0 := rfl
@[simp] theorem State.setLane_at_fld (s : State) (n : Nat) (x : Lane) (f0 : Field) (i0 : Nat) : (s.setLane n x).fld f0 i0 = s.fld f0 i0 := rfl
@[simp] theorem State.setLane_at_flag (s : State) (n : Nat) (x : Lane) (f0 : Field) (i0 : Nat) : (s.setLane n x).flag f0 i0 = s.flag f0 i0 := rfl
@[simp] theorem State.setLane_at_core (s : State) (n : Nat) (x : Lane) (m : Nat) : (s.setLane n x).core m = s.core m := rfl
@[simp] theorem State.setLane_at_out (s : State) (n : Nat) (x : Lane) (m : Nat) : (s.setLane n x).out m = s.out m := rfl
@[simp] theorem State.setLane_at_anc (s : State) (n : Nat) (x : Lane) (m : Nat) : (s.setLane n x).anc m = s.anc m := rfl
@[simp] theorem State.setLane_at_ref (s : State) (n : Nat) (x : Lane) (m : Nat) : (s.setLane n x).ref m = s.ref m := rfl
@[simp] theorem State.setLane_at_rasCh (s : State) (n : Nat) (x : Lane) (m : Nat) : (s.setLane n x).rasCh m = s.rasCh m := rfl
@[simp] theorem State.setLane_at_stn (s : State) (n : Nat) (x : Lane) (m : Nat) : (s.setLane n x).stn m = s.stn m := rfl
@[simp] theorem State.setLane_at_slotSt (s : State) (n : Nat) (x : Lane) (m k0 : Nat) : (s.setLane n x).slotSt m k0 = s.slotSt m k0 := rfl
@[simp] theorem State.setLane_at_win (s : State) (n : Nat) (x : Lane) (m : Nat) : (s.setLane n x).win m = s.win m := rfl
@[simp] theorem State.setLane_at_trig (s : State) (n : Nat) (x : Lane) (m : Nat) : (s.setLane n x).trig m = s.trig m := rfl
@[simp] theorem State.setLane_at_grp (s : State) (n : Nat) (x : Lane) (m : Nat) : (s.setLane n x).grp m = s.grp m := rfl
@[simp] theorem State.setLane_at_now (s : State) (n : Nat) (x : Lane) : (s.setLane n x).now  = s.now := rfl
@[simp] theorem State.setLane_at_power (s : State) (n : Nat) (x : Lane) : (s.setLane n x).power  = s.power := rfl
@[simp] theorem State.setLane_at_active (s : State) (n : Nat) (x : Lane) : (s.setLane n x).active  = s.active := rfl
@[simp] theorem State.setLane_at_up (s : State) (n : Nat) (x : Lane) : (s.setLane n x).up  = s.up := rfl

/-! ## State.modLane -/

@[simp] theorem State.modLane_pending (s : State) (n : Nat) (f : Lane → Lane) : (s.modLane n f).pending = s.pending := rfl
@[simp] theorem State.modLane_count (s : State) (n : Nat) (f : Lane → Lane) : (s.modLane n f).count = s.count := rfl
@[simp] theorem State.modLane_elapsed (s : State) (n : Nat) (f : Lane → Lane) : (s.modLane n f).elapsed = s.elapsed := rfl
@[simp] theorem State.modLane_regs (s : State) (n : Nat) (f : Lane → Lane) : (s.modLane n f).regs = s.regs := rfl
@[simp] theorem State.modLane_windows (s : State) (n : Nat) (f : Lane → Lane) : (s.modLane n f).windows = s.windows := rfl
@[simp] theorem State.modLane_raises (s : State) (n : Nat) (f : Lane → Lane) : (s.modLane n f).raises = s.raises := rfl
@[simp] theorem State.modLane_sticks (s : State) (n : Nat) (f : Lane → Lane) : (s.modLane n f).sticks = s.sticks := rfl
@[simp] theorem State.modLane_lapses (s : State) (n : Nat) (f : Lane → Lane) : (s.modLane n f).lapses = s.lapses := rfl
@[simp] theorem State.modLane_sync (s : State) (n : Nat) (f : Lane → Lane) : (s.modLane n f).sync = s.sync := rfl
@[simp] theorem State.modLane_syncDue (s : State) (n : Nat) (f : Lane → Lane) : (s.modLane n f).syncDue = s.syncDue := rfl
@[simp] theorem State.modLane_syncStamp (s : State) (n : Nat) (f : Lane → Lane) : (s.modLane n f).syncStamp = s.syncStamp := rfl
@[simp] theorem State.modLane_trigs (s : State) (n : Nat) (f : Lane → Lane) : (s.modLane n f).trigs = s.trigs := rfl
@[simp] theorem State.modLane_hwRel (s : State) (n : Nat) (f : Lane → Lane) : (s.modLane n f).hwRel = s.hwRel := rfl
@[simp] theorem State.modLane_sched (s : State) (n : Nat) (f : Lane → Lane) : (s.modLane n f).sched = s.sched := rfl
@[simp] theorem State.modLane_acceptSeq (s : State) (n : Nat) (f : Lane → Lane) : (s.modLane n f).acceptSeq = s.acceptSeq := rfl
@[simp] theorem State.modLane_stepped (s : State) (n : Nat) (f : Lane → Lane) : (s.modLane n f).stepped = s.stepped := rfl
@[simp] theorem State.modLane_heldWrites (s : State) (n : Nat) (f : Lane → Lane) : (s.modLane n f).heldWrites = s.heldWrites := rfl
@[simp] theorem State.modLane_refs (s : State) (n : Nat) (f : Lane → Lane) : (s.modLane n f).refs = s.refs := rfl
@[simp] theorem State.modLane_anchors (s : State) (n : Nat) (f : Lane → Lane) : (s.modLane n f).anchors = s.anchors := rfl
@[simp] theorem State.modLane_primary (s : State) (n : Nat) (f : Lane → Lane) : (s.modLane n f).primary = s.primary := rfl
@[simp] theorem State.modLane_primaryAt (s : State) (n : Nat) (f : Lane → Lane) : (s.modLane n f).primaryAt = s.primaryAt := rfl
@[simp] theorem State.modLane_initDone (s : State) (n : Nat) (f : Lane → Lane) : (s.modLane n f).initDone = s.initDone := rfl
@[simp] theorem State.modLane_alignRun (s : State) (n : Nat) (f : Lane → Lane) : (s.modLane n f).alignRun = s.alignRun := rfl
@[simp] theorem State.modLane_alignOver (s : State) (n : Nat) (f : Lane → Lane) : (s.modLane n f).alignOver = s.alignOver := rfl
@[simp] theorem State.modLane_ancEventAt (s : State) (n : Nat) (f : Lane → Lane) : (s.modLane n f).ancEventAt = s.ancEventAt := rfl
@[simp] theorem State.modLane_xferStamp (s : State) (n : Nat) (f : Lane → Lane) : (s.modLane n f).xferStamp = s.xferStamp := rfl
@[simp] theorem State.modLane_transfer (s : State) (n : Nat) (f : Lane → Lane) : (s.modLane n f).transfer = s.transfer := rfl
@[simp] theorem State.modLane_later (s : State) (n : Nat) (f : Lane → Lane) : (s.modLane n f).later = s.later := rfl
@[simp] theorem State.modLane_cores (s : State) (n : Nat) (f : Lane → Lane) : (s.modLane n f).cores = s.cores := rfl
@[simp] theorem State.modLane_outs (s : State) (n : Nat) (f : Lane → Lane) : (s.modLane n f).outs = s.outs := rfl
@[simp] theorem State.modLane_ras (s : State) (n : Nat) (f : Lane → Lane) : (s.modLane n f).ras = s.ras := rfl
@[simp] theorem State.modLane_stations (s : State) (n : Nat) (f : Lane → Lane) : (s.modLane n f).stations = s.stations := rfl
@[simp] theorem State.modLane_pgm (s : State) (n : Nat) (f : Lane → Lane) : (s.modLane n f).pgm = s.pgm := rfl
@[simp] theorem State.modLane_profs (s : State) (n : Nat) (f : Lane → Lane) : (s.modLane n f).profs = s.profs := rfl
@[simp] theorem State.modLane_shadows (s : State) (n : Nat) (f : Lane → Lane) : (s.modLane n f).shadows = s.shadows := rfl
@[simp] theorem State.modLane_check (s : State) (n : Nat) (f : Lane → Lane) : (s.modLane n f).check = s.check := rfl
@[simp] theorem State.modLane_statPins (s : State) (n : Nat) (f : Lane → Lane) : (s.modLane n f).statPins = s.statPins := rfl
@[simp] theorem State.modLane_lng (s : State) (n : Nat) (f : Lane → Lane) : (s.modLane n f).lng = s.lng := rfl
@[simp] theorem State.modLane_fleet (s : State) (n : Nat) (f : Lane → Lane) : (s.modLane n f).fleet = s.fleet := rfl
@[simp] theorem State.modLane_spareRows (s : State) (n : Nat) (f : Lane → Lane) : (s.modLane n f).spareRows = s.spareRows := rfl
@[simp] theorem State.modLane_fencedEntries (s : State) (n : Nat) (f : Lane → Lane) : (s.modLane n f).fencedEntries = s.fencedEntries := rfl
@[simp] theorem State.modLane_refills (s : State) (n : Nat) (f : Lane → Lane) : (s.modLane n f).refills = s.refills := rfl
@[simp] theorem State.modLane_cal (s : State) (n : Nat) (f : Lane → Lane) : (s.modLane n f).cal = s.cal := rfl
@[simp] theorem State.modLane_mon (s : State) (n : Nat) (f : Lane → Lane) : (s.modLane n f).mon = s.mon := rfl
@[simp] theorem State.modLane_bar (s : State) (n : Nat) (f : Lane → Lane) : (s.modLane n f).bar = s.bar := rfl
@[simp] theorem State.modLane_flash (s : State) (n : Nat) (f : Lane → Lane) : (s.modLane n f).flash = s.flash := rfl
@[simp] theorem State.modLane_otp (s : State) (n : Nat) (f : Lane → Lane) : (s.modLane n f).otp = s.otp := rfl
@[simp] theorem State.modLane_store (s : State) (n : Nat) (f : Lane → Lane) : (s.modLane n f).store = s.store := rfl
@[simp] theorem State.modLane_boot (s : State) (n : Nat) (f : Lane → Lane) : (s.modLane n f).boot = s.boot := rfl
@[simp] theorem State.modLane_svc (s : State) (n : Nat) (f : Lane → Lane) : (s.modLane n f).svc = s.svc := rfl
@[simp] theorem State.modLane_hspi (s : State) (n : Nat) (f : Lane → Lane) : (s.modLane n f).hspi = s.hspi := rfl
@[simp] theorem State.modLane_mbx (s : State) (n : Nat) (f : Lane → Lane) : (s.modLane n f).mbx = s.mbx := rfl
@[simp] theorem State.modLane_pins (s : State) (n : Nat) (f : Lane → Lane) : (s.modLane n f).pins = s.pins := rfl
@[simp] theorem State.modLane_powering (s : State) (n : Nat) (f : Lane → Lane) : (s.modLane n f).powering = s.powering := rfl
@[simp] theorem State.modLane_reloads (s : State) (n : Nat) (f : Lane → Lane) : (s.modLane n f).reloads = s.reloads := rfl
@[simp] theorem State.modLane_readData (s : State) (n : Nat) (f : Lane → Lane) : (s.modLane n f).readData = s.readData := rfl
@[simp] theorem State.modLane_halted (s : State) (n : Nat) (f : Lane → Lane) : (s.modLane n f).halted = s.halted := rfl
@[simp] theorem State.modLane_calVals (s : State) (n : Nat) (f : Lane → Lane) : (s.modLane n f).calVals = s.calVals := rfl
@[simp] theorem State.modLane_at_reg (s : State) (n : Nat) (f : Lane → Lane) (r0 : RegName) (i0 : Nat) : (s.modLane n f).reg r0 i0 = s.reg r0 i0 := rfl
@[simp] theorem State.modLane_at_fld (s : State) (n : Nat) (f : Lane → Lane) (f0 : Field) (i0 : Nat) : (s.modLane n f).fld f0 i0 = s.fld f0 i0 := rfl
@[simp] theorem State.modLane_at_flag (s : State) (n : Nat) (f : Lane → Lane) (f0 : Field) (i0 : Nat) : (s.modLane n f).flag f0 i0 = s.flag f0 i0 := rfl
@[simp] theorem State.modLane_at_core (s : State) (n : Nat) (f : Lane → Lane) (m : Nat) : (s.modLane n f).core m = s.core m := rfl
@[simp] theorem State.modLane_at_out (s : State) (n : Nat) (f : Lane → Lane) (m : Nat) : (s.modLane n f).out m = s.out m := rfl
@[simp] theorem State.modLane_at_anc (s : State) (n : Nat) (f : Lane → Lane) (m : Nat) : (s.modLane n f).anc m = s.anc m := rfl
@[simp] theorem State.modLane_at_ref (s : State) (n : Nat) (f : Lane → Lane) (m : Nat) : (s.modLane n f).ref m = s.ref m := rfl
@[simp] theorem State.modLane_at_rasCh (s : State) (n : Nat) (f : Lane → Lane) (m : Nat) : (s.modLane n f).rasCh m = s.rasCh m := rfl
@[simp] theorem State.modLane_at_stn (s : State) (n : Nat) (f : Lane → Lane) (m : Nat) : (s.modLane n f).stn m = s.stn m := rfl
@[simp] theorem State.modLane_at_slotSt (s : State) (n : Nat) (f : Lane → Lane) (m k0 : Nat) : (s.modLane n f).slotSt m k0 = s.slotSt m k0 := rfl
@[simp] theorem State.modLane_at_win (s : State) (n : Nat) (f : Lane → Lane) (m : Nat) : (s.modLane n f).win m = s.win m := rfl
@[simp] theorem State.modLane_at_trig (s : State) (n : Nat) (f : Lane → Lane) (m : Nat) : (s.modLane n f).trig m = s.trig m := rfl
@[simp] theorem State.modLane_at_grp (s : State) (n : Nat) (f : Lane → Lane) (m : Nat) : (s.modLane n f).grp m = s.grp m := rfl
@[simp] theorem State.modLane_at_now (s : State) (n : Nat) (f : Lane → Lane) : (s.modLane n f).now  = s.now := rfl
@[simp] theorem State.modLane_at_power (s : State) (n : Nat) (f : Lane → Lane) : (s.modLane n f).power  = s.power := rfl
@[simp] theorem State.modLane_at_active (s : State) (n : Nat) (f : Lane → Lane) : (s.modLane n f).active  = s.active := rfl
@[simp] theorem State.modLane_at_up (s : State) (n : Nat) (f : Lane → Lane) : (s.modLane n f).up  = s.up := rfl

/-! ## State.modLng -/

@[simp] theorem State.modLng_pending (s : State) (f : LaneGroup → LaneGroup) : (s.modLng f).pending = s.pending := rfl
@[simp] theorem State.modLng_count (s : State) (f : LaneGroup → LaneGroup) : (s.modLng f).count = s.count := rfl
@[simp] theorem State.modLng_elapsed (s : State) (f : LaneGroup → LaneGroup) : (s.modLng f).elapsed = s.elapsed := rfl
@[simp] theorem State.modLng_regs (s : State) (f : LaneGroup → LaneGroup) : (s.modLng f).regs = s.regs := rfl
@[simp] theorem State.modLng_windows (s : State) (f : LaneGroup → LaneGroup) : (s.modLng f).windows = s.windows := rfl
@[simp] theorem State.modLng_raises (s : State) (f : LaneGroup → LaneGroup) : (s.modLng f).raises = s.raises := rfl
@[simp] theorem State.modLng_sticks (s : State) (f : LaneGroup → LaneGroup) : (s.modLng f).sticks = s.sticks := rfl
@[simp] theorem State.modLng_lapses (s : State) (f : LaneGroup → LaneGroup) : (s.modLng f).lapses = s.lapses := rfl
@[simp] theorem State.modLng_sync (s : State) (f : LaneGroup → LaneGroup) : (s.modLng f).sync = s.sync := rfl
@[simp] theorem State.modLng_syncDue (s : State) (f : LaneGroup → LaneGroup) : (s.modLng f).syncDue = s.syncDue := rfl
@[simp] theorem State.modLng_syncStamp (s : State) (f : LaneGroup → LaneGroup) : (s.modLng f).syncStamp = s.syncStamp := rfl
@[simp] theorem State.modLng_trigs (s : State) (f : LaneGroup → LaneGroup) : (s.modLng f).trigs = s.trigs := rfl
@[simp] theorem State.modLng_hwRel (s : State) (f : LaneGroup → LaneGroup) : (s.modLng f).hwRel = s.hwRel := rfl
@[simp] theorem State.modLng_sched (s : State) (f : LaneGroup → LaneGroup) : (s.modLng f).sched = s.sched := rfl
@[simp] theorem State.modLng_acceptSeq (s : State) (f : LaneGroup → LaneGroup) : (s.modLng f).acceptSeq = s.acceptSeq := rfl
@[simp] theorem State.modLng_stepped (s : State) (f : LaneGroup → LaneGroup) : (s.modLng f).stepped = s.stepped := rfl
@[simp] theorem State.modLng_heldWrites (s : State) (f : LaneGroup → LaneGroup) : (s.modLng f).heldWrites = s.heldWrites := rfl
@[simp] theorem State.modLng_refs (s : State) (f : LaneGroup → LaneGroup) : (s.modLng f).refs = s.refs := rfl
@[simp] theorem State.modLng_anchors (s : State) (f : LaneGroup → LaneGroup) : (s.modLng f).anchors = s.anchors := rfl
@[simp] theorem State.modLng_primary (s : State) (f : LaneGroup → LaneGroup) : (s.modLng f).primary = s.primary := rfl
@[simp] theorem State.modLng_primaryAt (s : State) (f : LaneGroup → LaneGroup) : (s.modLng f).primaryAt = s.primaryAt := rfl
@[simp] theorem State.modLng_initDone (s : State) (f : LaneGroup → LaneGroup) : (s.modLng f).initDone = s.initDone := rfl
@[simp] theorem State.modLng_alignRun (s : State) (f : LaneGroup → LaneGroup) : (s.modLng f).alignRun = s.alignRun := rfl
@[simp] theorem State.modLng_alignOver (s : State) (f : LaneGroup → LaneGroup) : (s.modLng f).alignOver = s.alignOver := rfl
@[simp] theorem State.modLng_ancEventAt (s : State) (f : LaneGroup → LaneGroup) : (s.modLng f).ancEventAt = s.ancEventAt := rfl
@[simp] theorem State.modLng_xferStamp (s : State) (f : LaneGroup → LaneGroup) : (s.modLng f).xferStamp = s.xferStamp := rfl
@[simp] theorem State.modLng_transfer (s : State) (f : LaneGroup → LaneGroup) : (s.modLng f).transfer = s.transfer := rfl
@[simp] theorem State.modLng_later (s : State) (f : LaneGroup → LaneGroup) : (s.modLng f).later = s.later := rfl
@[simp] theorem State.modLng_cores (s : State) (f : LaneGroup → LaneGroup) : (s.modLng f).cores = s.cores := rfl
@[simp] theorem State.modLng_outs (s : State) (f : LaneGroup → LaneGroup) : (s.modLng f).outs = s.outs := rfl
@[simp] theorem State.modLng_ras (s : State) (f : LaneGroup → LaneGroup) : (s.modLng f).ras = s.ras := rfl
@[simp] theorem State.modLng_stations (s : State) (f : LaneGroup → LaneGroup) : (s.modLng f).stations = s.stations := rfl
@[simp] theorem State.modLng_pgm (s : State) (f : LaneGroup → LaneGroup) : (s.modLng f).pgm = s.pgm := rfl
@[simp] theorem State.modLng_profs (s : State) (f : LaneGroup → LaneGroup) : (s.modLng f).profs = s.profs := rfl
@[simp] theorem State.modLng_shadows (s : State) (f : LaneGroup → LaneGroup) : (s.modLng f).shadows = s.shadows := rfl
@[simp] theorem State.modLng_check (s : State) (f : LaneGroup → LaneGroup) : (s.modLng f).check = s.check := rfl
@[simp] theorem State.modLng_statPins (s : State) (f : LaneGroup → LaneGroup) : (s.modLng f).statPins = s.statPins := rfl
@[simp] theorem State.modLng_lanes (s : State) (f : LaneGroup → LaneGroup) : (s.modLng f).lanes = s.lanes := rfl
@[simp] theorem State.modLng_fleet (s : State) (f : LaneGroup → LaneGroup) : (s.modLng f).fleet = s.fleet := rfl
@[simp] theorem State.modLng_spareRows (s : State) (f : LaneGroup → LaneGroup) : (s.modLng f).spareRows = s.spareRows := rfl
@[simp] theorem State.modLng_fencedEntries (s : State) (f : LaneGroup → LaneGroup) : (s.modLng f).fencedEntries = s.fencedEntries := rfl
@[simp] theorem State.modLng_refills (s : State) (f : LaneGroup → LaneGroup) : (s.modLng f).refills = s.refills := rfl
@[simp] theorem State.modLng_cal (s : State) (f : LaneGroup → LaneGroup) : (s.modLng f).cal = s.cal := rfl
@[simp] theorem State.modLng_mon (s : State) (f : LaneGroup → LaneGroup) : (s.modLng f).mon = s.mon := rfl
@[simp] theorem State.modLng_bar (s : State) (f : LaneGroup → LaneGroup) : (s.modLng f).bar = s.bar := rfl
@[simp] theorem State.modLng_flash (s : State) (f : LaneGroup → LaneGroup) : (s.modLng f).flash = s.flash := rfl
@[simp] theorem State.modLng_otp (s : State) (f : LaneGroup → LaneGroup) : (s.modLng f).otp = s.otp := rfl
@[simp] theorem State.modLng_store (s : State) (f : LaneGroup → LaneGroup) : (s.modLng f).store = s.store := rfl
@[simp] theorem State.modLng_boot (s : State) (f : LaneGroup → LaneGroup) : (s.modLng f).boot = s.boot := rfl
@[simp] theorem State.modLng_svc (s : State) (f : LaneGroup → LaneGroup) : (s.modLng f).svc = s.svc := rfl
@[simp] theorem State.modLng_hspi (s : State) (f : LaneGroup → LaneGroup) : (s.modLng f).hspi = s.hspi := rfl
@[simp] theorem State.modLng_mbx (s : State) (f : LaneGroup → LaneGroup) : (s.modLng f).mbx = s.mbx := rfl
@[simp] theorem State.modLng_pins (s : State) (f : LaneGroup → LaneGroup) : (s.modLng f).pins = s.pins := rfl
@[simp] theorem State.modLng_powering (s : State) (f : LaneGroup → LaneGroup) : (s.modLng f).powering = s.powering := rfl
@[simp] theorem State.modLng_reloads (s : State) (f : LaneGroup → LaneGroup) : (s.modLng f).reloads = s.reloads := rfl
@[simp] theorem State.modLng_readData (s : State) (f : LaneGroup → LaneGroup) : (s.modLng f).readData = s.readData := rfl
@[simp] theorem State.modLng_halted (s : State) (f : LaneGroup → LaneGroup) : (s.modLng f).halted = s.halted := rfl
@[simp] theorem State.modLng_calVals (s : State) (f : LaneGroup → LaneGroup) : (s.modLng f).calVals = s.calVals := rfl
@[simp] theorem State.modLng_at_reg (s : State) (f : LaneGroup → LaneGroup) (r0 : RegName) (i0 : Nat) : (s.modLng f).reg r0 i0 = s.reg r0 i0 := rfl
@[simp] theorem State.modLng_at_fld (s : State) (f : LaneGroup → LaneGroup) (f0 : Field) (i0 : Nat) : (s.modLng f).fld f0 i0 = s.fld f0 i0 := rfl
@[simp] theorem State.modLng_at_flag (s : State) (f : LaneGroup → LaneGroup) (f0 : Field) (i0 : Nat) : (s.modLng f).flag f0 i0 = s.flag f0 i0 := rfl
@[simp] theorem State.modLng_at_core (s : State) (f : LaneGroup → LaneGroup) (m : Nat) : (s.modLng f).core m = s.core m := rfl
@[simp] theorem State.modLng_at_out (s : State) (f : LaneGroup → LaneGroup) (m : Nat) : (s.modLng f).out m = s.out m := rfl
@[simp] theorem State.modLng_at_anc (s : State) (f : LaneGroup → LaneGroup) (m : Nat) : (s.modLng f).anc m = s.anc m := rfl
@[simp] theorem State.modLng_at_ref (s : State) (f : LaneGroup → LaneGroup) (m : Nat) : (s.modLng f).ref m = s.ref m := rfl
@[simp] theorem State.modLng_at_rasCh (s : State) (f : LaneGroup → LaneGroup) (m : Nat) : (s.modLng f).rasCh m = s.rasCh m := rfl
@[simp] theorem State.modLng_at_stn (s : State) (f : LaneGroup → LaneGroup) (m : Nat) : (s.modLng f).stn m = s.stn m := rfl
@[simp] theorem State.modLng_at_slotSt (s : State) (f : LaneGroup → LaneGroup) (m k0 : Nat) : (s.modLng f).slotSt m k0 = s.slotSt m k0 := rfl
@[simp] theorem State.modLng_at_win (s : State) (f : LaneGroup → LaneGroup) (m : Nat) : (s.modLng f).win m = s.win m := rfl
@[simp] theorem State.modLng_at_trig (s : State) (f : LaneGroup → LaneGroup) (m : Nat) : (s.modLng f).trig m = s.trig m := rfl
@[simp] theorem State.modLng_at_lane (s : State) (f : LaneGroup → LaneGroup) (m : Nat) : (s.modLng f).lane m = s.lane m := rfl
@[simp] theorem State.modLng_at_grp (s : State) (f : LaneGroup → LaneGroup) (m : Nat) : (s.modLng f).grp m = s.grp m := rfl
@[simp] theorem State.modLng_at_now (s : State) (f : LaneGroup → LaneGroup) : (s.modLng f).now  = s.now := rfl
@[simp] theorem State.modLng_at_power (s : State) (f : LaneGroup → LaneGroup) : (s.modLng f).power  = s.power := rfl
@[simp] theorem State.modLng_at_active (s : State) (f : LaneGroup → LaneGroup) : (s.modLng f).active  = s.active := rfl
@[simp] theorem State.modLng_at_up (s : State) (f : LaneGroup → LaneGroup) : (s.modLng f).up  = s.up := rfl

/-! ## State.modFleet -/

@[simp] theorem State.modFleet_pending (s : State) (f : Fleet → Fleet) : (s.modFleet f).pending = s.pending := rfl
@[simp] theorem State.modFleet_count (s : State) (f : Fleet → Fleet) : (s.modFleet f).count = s.count := rfl
@[simp] theorem State.modFleet_elapsed (s : State) (f : Fleet → Fleet) : (s.modFleet f).elapsed = s.elapsed := rfl
@[simp] theorem State.modFleet_regs (s : State) (f : Fleet → Fleet) : (s.modFleet f).regs = s.regs := rfl
@[simp] theorem State.modFleet_windows (s : State) (f : Fleet → Fleet) : (s.modFleet f).windows = s.windows := rfl
@[simp] theorem State.modFleet_raises (s : State) (f : Fleet → Fleet) : (s.modFleet f).raises = s.raises := rfl
@[simp] theorem State.modFleet_sticks (s : State) (f : Fleet → Fleet) : (s.modFleet f).sticks = s.sticks := rfl
@[simp] theorem State.modFleet_lapses (s : State) (f : Fleet → Fleet) : (s.modFleet f).lapses = s.lapses := rfl
@[simp] theorem State.modFleet_sync (s : State) (f : Fleet → Fleet) : (s.modFleet f).sync = s.sync := rfl
@[simp] theorem State.modFleet_syncDue (s : State) (f : Fleet → Fleet) : (s.modFleet f).syncDue = s.syncDue := rfl
@[simp] theorem State.modFleet_syncStamp (s : State) (f : Fleet → Fleet) : (s.modFleet f).syncStamp = s.syncStamp := rfl
@[simp] theorem State.modFleet_trigs (s : State) (f : Fleet → Fleet) : (s.modFleet f).trigs = s.trigs := rfl
@[simp] theorem State.modFleet_hwRel (s : State) (f : Fleet → Fleet) : (s.modFleet f).hwRel = s.hwRel := rfl
@[simp] theorem State.modFleet_sched (s : State) (f : Fleet → Fleet) : (s.modFleet f).sched = s.sched := rfl
@[simp] theorem State.modFleet_acceptSeq (s : State) (f : Fleet → Fleet) : (s.modFleet f).acceptSeq = s.acceptSeq := rfl
@[simp] theorem State.modFleet_stepped (s : State) (f : Fleet → Fleet) : (s.modFleet f).stepped = s.stepped := rfl
@[simp] theorem State.modFleet_heldWrites (s : State) (f : Fleet → Fleet) : (s.modFleet f).heldWrites = s.heldWrites := rfl
@[simp] theorem State.modFleet_refs (s : State) (f : Fleet → Fleet) : (s.modFleet f).refs = s.refs := rfl
@[simp] theorem State.modFleet_anchors (s : State) (f : Fleet → Fleet) : (s.modFleet f).anchors = s.anchors := rfl
@[simp] theorem State.modFleet_primary (s : State) (f : Fleet → Fleet) : (s.modFleet f).primary = s.primary := rfl
@[simp] theorem State.modFleet_primaryAt (s : State) (f : Fleet → Fleet) : (s.modFleet f).primaryAt = s.primaryAt := rfl
@[simp] theorem State.modFleet_initDone (s : State) (f : Fleet → Fleet) : (s.modFleet f).initDone = s.initDone := rfl
@[simp] theorem State.modFleet_alignRun (s : State) (f : Fleet → Fleet) : (s.modFleet f).alignRun = s.alignRun := rfl
@[simp] theorem State.modFleet_alignOver (s : State) (f : Fleet → Fleet) : (s.modFleet f).alignOver = s.alignOver := rfl
@[simp] theorem State.modFleet_ancEventAt (s : State) (f : Fleet → Fleet) : (s.modFleet f).ancEventAt = s.ancEventAt := rfl
@[simp] theorem State.modFleet_xferStamp (s : State) (f : Fleet → Fleet) : (s.modFleet f).xferStamp = s.xferStamp := rfl
@[simp] theorem State.modFleet_transfer (s : State) (f : Fleet → Fleet) : (s.modFleet f).transfer = s.transfer := rfl
@[simp] theorem State.modFleet_later (s : State) (f : Fleet → Fleet) : (s.modFleet f).later = s.later := rfl
@[simp] theorem State.modFleet_cores (s : State) (f : Fleet → Fleet) : (s.modFleet f).cores = s.cores := rfl
@[simp] theorem State.modFleet_outs (s : State) (f : Fleet → Fleet) : (s.modFleet f).outs = s.outs := rfl
@[simp] theorem State.modFleet_ras (s : State) (f : Fleet → Fleet) : (s.modFleet f).ras = s.ras := rfl
@[simp] theorem State.modFleet_stations (s : State) (f : Fleet → Fleet) : (s.modFleet f).stations = s.stations := rfl
@[simp] theorem State.modFleet_pgm (s : State) (f : Fleet → Fleet) : (s.modFleet f).pgm = s.pgm := rfl
@[simp] theorem State.modFleet_profs (s : State) (f : Fleet → Fleet) : (s.modFleet f).profs = s.profs := rfl
@[simp] theorem State.modFleet_shadows (s : State) (f : Fleet → Fleet) : (s.modFleet f).shadows = s.shadows := rfl
@[simp] theorem State.modFleet_check (s : State) (f : Fleet → Fleet) : (s.modFleet f).check = s.check := rfl
@[simp] theorem State.modFleet_statPins (s : State) (f : Fleet → Fleet) : (s.modFleet f).statPins = s.statPins := rfl
@[simp] theorem State.modFleet_lanes (s : State) (f : Fleet → Fleet) : (s.modFleet f).lanes = s.lanes := rfl
@[simp] theorem State.modFleet_lng (s : State) (f : Fleet → Fleet) : (s.modFleet f).lng = s.lng := rfl
@[simp] theorem State.modFleet_spareRows (s : State) (f : Fleet → Fleet) : (s.modFleet f).spareRows = s.spareRows := rfl
@[simp] theorem State.modFleet_fencedEntries (s : State) (f : Fleet → Fleet) : (s.modFleet f).fencedEntries = s.fencedEntries := rfl
@[simp] theorem State.modFleet_refills (s : State) (f : Fleet → Fleet) : (s.modFleet f).refills = s.refills := rfl
@[simp] theorem State.modFleet_cal (s : State) (f : Fleet → Fleet) : (s.modFleet f).cal = s.cal := rfl
@[simp] theorem State.modFleet_mon (s : State) (f : Fleet → Fleet) : (s.modFleet f).mon = s.mon := rfl
@[simp] theorem State.modFleet_bar (s : State) (f : Fleet → Fleet) : (s.modFleet f).bar = s.bar := rfl
@[simp] theorem State.modFleet_flash (s : State) (f : Fleet → Fleet) : (s.modFleet f).flash = s.flash := rfl
@[simp] theorem State.modFleet_otp (s : State) (f : Fleet → Fleet) : (s.modFleet f).otp = s.otp := rfl
@[simp] theorem State.modFleet_store (s : State) (f : Fleet → Fleet) : (s.modFleet f).store = s.store := rfl
@[simp] theorem State.modFleet_boot (s : State) (f : Fleet → Fleet) : (s.modFleet f).boot = s.boot := rfl
@[simp] theorem State.modFleet_svc (s : State) (f : Fleet → Fleet) : (s.modFleet f).svc = s.svc := rfl
@[simp] theorem State.modFleet_hspi (s : State) (f : Fleet → Fleet) : (s.modFleet f).hspi = s.hspi := rfl
@[simp] theorem State.modFleet_mbx (s : State) (f : Fleet → Fleet) : (s.modFleet f).mbx = s.mbx := rfl
@[simp] theorem State.modFleet_pins (s : State) (f : Fleet → Fleet) : (s.modFleet f).pins = s.pins := rfl
@[simp] theorem State.modFleet_powering (s : State) (f : Fleet → Fleet) : (s.modFleet f).powering = s.powering := rfl
@[simp] theorem State.modFleet_reloads (s : State) (f : Fleet → Fleet) : (s.modFleet f).reloads = s.reloads := rfl
@[simp] theorem State.modFleet_readData (s : State) (f : Fleet → Fleet) : (s.modFleet f).readData = s.readData := rfl
@[simp] theorem State.modFleet_halted (s : State) (f : Fleet → Fleet) : (s.modFleet f).halted = s.halted := rfl
@[simp] theorem State.modFleet_calVals (s : State) (f : Fleet → Fleet) : (s.modFleet f).calVals = s.calVals := rfl
@[simp] theorem State.modFleet_at_reg (s : State) (f : Fleet → Fleet) (r0 : RegName) (i0 : Nat) : (s.modFleet f).reg r0 i0 = s.reg r0 i0 := rfl
@[simp] theorem State.modFleet_at_fld (s : State) (f : Fleet → Fleet) (f0 : Field) (i0 : Nat) : (s.modFleet f).fld f0 i0 = s.fld f0 i0 := rfl
@[simp] theorem State.modFleet_at_flag (s : State) (f : Fleet → Fleet) (f0 : Field) (i0 : Nat) : (s.modFleet f).flag f0 i0 = s.flag f0 i0 := rfl
@[simp] theorem State.modFleet_at_core (s : State) (f : Fleet → Fleet) (m : Nat) : (s.modFleet f).core m = s.core m := rfl
@[simp] theorem State.modFleet_at_out (s : State) (f : Fleet → Fleet) (m : Nat) : (s.modFleet f).out m = s.out m := rfl
@[simp] theorem State.modFleet_at_anc (s : State) (f : Fleet → Fleet) (m : Nat) : (s.modFleet f).anc m = s.anc m := rfl
@[simp] theorem State.modFleet_at_ref (s : State) (f : Fleet → Fleet) (m : Nat) : (s.modFleet f).ref m = s.ref m := rfl
@[simp] theorem State.modFleet_at_rasCh (s : State) (f : Fleet → Fleet) (m : Nat) : (s.modFleet f).rasCh m = s.rasCh m := rfl
@[simp] theorem State.modFleet_at_stn (s : State) (f : Fleet → Fleet) (m : Nat) : (s.modFleet f).stn m = s.stn m := rfl
@[simp] theorem State.modFleet_at_slotSt (s : State) (f : Fleet → Fleet) (m k0 : Nat) : (s.modFleet f).slotSt m k0 = s.slotSt m k0 := rfl
@[simp] theorem State.modFleet_at_win (s : State) (f : Fleet → Fleet) (m : Nat) : (s.modFleet f).win m = s.win m := rfl
@[simp] theorem State.modFleet_at_trig (s : State) (f : Fleet → Fleet) (m : Nat) : (s.modFleet f).trig m = s.trig m := rfl
@[simp] theorem State.modFleet_at_lane (s : State) (f : Fleet → Fleet) (m : Nat) : (s.modFleet f).lane m = s.lane m := rfl
@[simp] theorem State.modFleet_at_grp (s : State) (f : Fleet → Fleet) (m : Nat) : (s.modFleet f).grp m = s.grp m := rfl
@[simp] theorem State.modFleet_at_now (s : State) (f : Fleet → Fleet) : (s.modFleet f).now  = s.now := rfl
@[simp] theorem State.modFleet_at_power (s : State) (f : Fleet → Fleet) : (s.modFleet f).power  = s.power := rfl
@[simp] theorem State.modFleet_at_active (s : State) (f : Fleet → Fleet) : (s.modFleet f).active  = s.active := rfl
@[simp] theorem State.modFleet_at_up (s : State) (f : Fleet → Fleet) : (s.modFleet f).up  = s.up := rfl

/-! ## State.modMon -/

@[simp] theorem State.modMon_pending (s : State) (f : Mon → Mon) : (s.modMon f).pending = s.pending := rfl
@[simp] theorem State.modMon_count (s : State) (f : Mon → Mon) : (s.modMon f).count = s.count := rfl
@[simp] theorem State.modMon_elapsed (s : State) (f : Mon → Mon) : (s.modMon f).elapsed = s.elapsed := rfl
@[simp] theorem State.modMon_regs (s : State) (f : Mon → Mon) : (s.modMon f).regs = s.regs := rfl
@[simp] theorem State.modMon_windows (s : State) (f : Mon → Mon) : (s.modMon f).windows = s.windows := rfl
@[simp] theorem State.modMon_raises (s : State) (f : Mon → Mon) : (s.modMon f).raises = s.raises := rfl
@[simp] theorem State.modMon_sticks (s : State) (f : Mon → Mon) : (s.modMon f).sticks = s.sticks := rfl
@[simp] theorem State.modMon_lapses (s : State) (f : Mon → Mon) : (s.modMon f).lapses = s.lapses := rfl
@[simp] theorem State.modMon_sync (s : State) (f : Mon → Mon) : (s.modMon f).sync = s.sync := rfl
@[simp] theorem State.modMon_syncDue (s : State) (f : Mon → Mon) : (s.modMon f).syncDue = s.syncDue := rfl
@[simp] theorem State.modMon_syncStamp (s : State) (f : Mon → Mon) : (s.modMon f).syncStamp = s.syncStamp := rfl
@[simp] theorem State.modMon_trigs (s : State) (f : Mon → Mon) : (s.modMon f).trigs = s.trigs := rfl
@[simp] theorem State.modMon_hwRel (s : State) (f : Mon → Mon) : (s.modMon f).hwRel = s.hwRel := rfl
@[simp] theorem State.modMon_sched (s : State) (f : Mon → Mon) : (s.modMon f).sched = s.sched := rfl
@[simp] theorem State.modMon_acceptSeq (s : State) (f : Mon → Mon) : (s.modMon f).acceptSeq = s.acceptSeq := rfl
@[simp] theorem State.modMon_stepped (s : State) (f : Mon → Mon) : (s.modMon f).stepped = s.stepped := rfl
@[simp] theorem State.modMon_heldWrites (s : State) (f : Mon → Mon) : (s.modMon f).heldWrites = s.heldWrites := rfl
@[simp] theorem State.modMon_refs (s : State) (f : Mon → Mon) : (s.modMon f).refs = s.refs := rfl
@[simp] theorem State.modMon_anchors (s : State) (f : Mon → Mon) : (s.modMon f).anchors = s.anchors := rfl
@[simp] theorem State.modMon_primary (s : State) (f : Mon → Mon) : (s.modMon f).primary = s.primary := rfl
@[simp] theorem State.modMon_primaryAt (s : State) (f : Mon → Mon) : (s.modMon f).primaryAt = s.primaryAt := rfl
@[simp] theorem State.modMon_initDone (s : State) (f : Mon → Mon) : (s.modMon f).initDone = s.initDone := rfl
@[simp] theorem State.modMon_alignRun (s : State) (f : Mon → Mon) : (s.modMon f).alignRun = s.alignRun := rfl
@[simp] theorem State.modMon_alignOver (s : State) (f : Mon → Mon) : (s.modMon f).alignOver = s.alignOver := rfl
@[simp] theorem State.modMon_ancEventAt (s : State) (f : Mon → Mon) : (s.modMon f).ancEventAt = s.ancEventAt := rfl
@[simp] theorem State.modMon_xferStamp (s : State) (f : Mon → Mon) : (s.modMon f).xferStamp = s.xferStamp := rfl
@[simp] theorem State.modMon_transfer (s : State) (f : Mon → Mon) : (s.modMon f).transfer = s.transfer := rfl
@[simp] theorem State.modMon_later (s : State) (f : Mon → Mon) : (s.modMon f).later = s.later := rfl
@[simp] theorem State.modMon_cores (s : State) (f : Mon → Mon) : (s.modMon f).cores = s.cores := rfl
@[simp] theorem State.modMon_outs (s : State) (f : Mon → Mon) : (s.modMon f).outs = s.outs := rfl
@[simp] theorem State.modMon_ras (s : State) (f : Mon → Mon) : (s.modMon f).ras = s.ras := rfl
@[simp] theorem State.modMon_stations (s : State) (f : Mon → Mon) : (s.modMon f).stations = s.stations := rfl
@[simp] theorem State.modMon_pgm (s : State) (f : Mon → Mon) : (s.modMon f).pgm = s.pgm := rfl
@[simp] theorem State.modMon_profs (s : State) (f : Mon → Mon) : (s.modMon f).profs = s.profs := rfl
@[simp] theorem State.modMon_shadows (s : State) (f : Mon → Mon) : (s.modMon f).shadows = s.shadows := rfl
@[simp] theorem State.modMon_check (s : State) (f : Mon → Mon) : (s.modMon f).check = s.check := rfl
@[simp] theorem State.modMon_statPins (s : State) (f : Mon → Mon) : (s.modMon f).statPins = s.statPins := rfl
@[simp] theorem State.modMon_lanes (s : State) (f : Mon → Mon) : (s.modMon f).lanes = s.lanes := rfl
@[simp] theorem State.modMon_lng (s : State) (f : Mon → Mon) : (s.modMon f).lng = s.lng := rfl
@[simp] theorem State.modMon_fleet (s : State) (f : Mon → Mon) : (s.modMon f).fleet = s.fleet := rfl
@[simp] theorem State.modMon_spareRows (s : State) (f : Mon → Mon) : (s.modMon f).spareRows = s.spareRows := rfl
@[simp] theorem State.modMon_fencedEntries (s : State) (f : Mon → Mon) : (s.modMon f).fencedEntries = s.fencedEntries := rfl
@[simp] theorem State.modMon_refills (s : State) (f : Mon → Mon) : (s.modMon f).refills = s.refills := rfl
@[simp] theorem State.modMon_cal (s : State) (f : Mon → Mon) : (s.modMon f).cal = s.cal := rfl
@[simp] theorem State.modMon_bar (s : State) (f : Mon → Mon) : (s.modMon f).bar = s.bar := rfl
@[simp] theorem State.modMon_flash (s : State) (f : Mon → Mon) : (s.modMon f).flash = s.flash := rfl
@[simp] theorem State.modMon_otp (s : State) (f : Mon → Mon) : (s.modMon f).otp = s.otp := rfl
@[simp] theorem State.modMon_store (s : State) (f : Mon → Mon) : (s.modMon f).store = s.store := rfl
@[simp] theorem State.modMon_boot (s : State) (f : Mon → Mon) : (s.modMon f).boot = s.boot := rfl
@[simp] theorem State.modMon_svc (s : State) (f : Mon → Mon) : (s.modMon f).svc = s.svc := rfl
@[simp] theorem State.modMon_hspi (s : State) (f : Mon → Mon) : (s.modMon f).hspi = s.hspi := rfl
@[simp] theorem State.modMon_mbx (s : State) (f : Mon → Mon) : (s.modMon f).mbx = s.mbx := rfl
@[simp] theorem State.modMon_pins (s : State) (f : Mon → Mon) : (s.modMon f).pins = s.pins := rfl
@[simp] theorem State.modMon_powering (s : State) (f : Mon → Mon) : (s.modMon f).powering = s.powering := rfl
@[simp] theorem State.modMon_reloads (s : State) (f : Mon → Mon) : (s.modMon f).reloads = s.reloads := rfl
@[simp] theorem State.modMon_readData (s : State) (f : Mon → Mon) : (s.modMon f).readData = s.readData := rfl
@[simp] theorem State.modMon_halted (s : State) (f : Mon → Mon) : (s.modMon f).halted = s.halted := rfl
@[simp] theorem State.modMon_calVals (s : State) (f : Mon → Mon) : (s.modMon f).calVals = s.calVals := rfl
@[simp] theorem State.modMon_at_reg (s : State) (f : Mon → Mon) (r0 : RegName) (i0 : Nat) : (s.modMon f).reg r0 i0 = s.reg r0 i0 := rfl
@[simp] theorem State.modMon_at_fld (s : State) (f : Mon → Mon) (f0 : Field) (i0 : Nat) : (s.modMon f).fld f0 i0 = s.fld f0 i0 := rfl
@[simp] theorem State.modMon_at_flag (s : State) (f : Mon → Mon) (f0 : Field) (i0 : Nat) : (s.modMon f).flag f0 i0 = s.flag f0 i0 := rfl
@[simp] theorem State.modMon_at_core (s : State) (f : Mon → Mon) (m : Nat) : (s.modMon f).core m = s.core m := rfl
@[simp] theorem State.modMon_at_out (s : State) (f : Mon → Mon) (m : Nat) : (s.modMon f).out m = s.out m := rfl
@[simp] theorem State.modMon_at_anc (s : State) (f : Mon → Mon) (m : Nat) : (s.modMon f).anc m = s.anc m := rfl
@[simp] theorem State.modMon_at_ref (s : State) (f : Mon → Mon) (m : Nat) : (s.modMon f).ref m = s.ref m := rfl
@[simp] theorem State.modMon_at_rasCh (s : State) (f : Mon → Mon) (m : Nat) : (s.modMon f).rasCh m = s.rasCh m := rfl
@[simp] theorem State.modMon_at_stn (s : State) (f : Mon → Mon) (m : Nat) : (s.modMon f).stn m = s.stn m := rfl
@[simp] theorem State.modMon_at_slotSt (s : State) (f : Mon → Mon) (m k0 : Nat) : (s.modMon f).slotSt m k0 = s.slotSt m k0 := rfl
@[simp] theorem State.modMon_at_win (s : State) (f : Mon → Mon) (m : Nat) : (s.modMon f).win m = s.win m := rfl
@[simp] theorem State.modMon_at_trig (s : State) (f : Mon → Mon) (m : Nat) : (s.modMon f).trig m = s.trig m := rfl
@[simp] theorem State.modMon_at_lane (s : State) (f : Mon → Mon) (m : Nat) : (s.modMon f).lane m = s.lane m := rfl
@[simp] theorem State.modMon_at_grp (s : State) (f : Mon → Mon) (m : Nat) : (s.modMon f).grp m = s.grp m := rfl
@[simp] theorem State.modMon_at_now (s : State) (f : Mon → Mon) : (s.modMon f).now  = s.now := rfl
@[simp] theorem State.modMon_at_power (s : State) (f : Mon → Mon) : (s.modMon f).power  = s.power := rfl
@[simp] theorem State.modMon_at_active (s : State) (f : Mon → Mon) : (s.modMon f).active  = s.active := rfl
@[simp] theorem State.modMon_at_up (s : State) (f : Mon → Mon) : (s.modMon f).up  = s.up := rfl

/-! ## State.modGrp -/

@[simp] theorem State.modGrp_pending (s : State) (n : Nat) (f : CalGroup → CalGroup) : (s.modGrp n f).pending = s.pending := rfl
@[simp] theorem State.modGrp_count (s : State) (n : Nat) (f : CalGroup → CalGroup) : (s.modGrp n f).count = s.count := rfl
@[simp] theorem State.modGrp_elapsed (s : State) (n : Nat) (f : CalGroup → CalGroup) : (s.modGrp n f).elapsed = s.elapsed := rfl
@[simp] theorem State.modGrp_regs (s : State) (n : Nat) (f : CalGroup → CalGroup) : (s.modGrp n f).regs = s.regs := rfl
@[simp] theorem State.modGrp_windows (s : State) (n : Nat) (f : CalGroup → CalGroup) : (s.modGrp n f).windows = s.windows := rfl
@[simp] theorem State.modGrp_raises (s : State) (n : Nat) (f : CalGroup → CalGroup) : (s.modGrp n f).raises = s.raises := rfl
@[simp] theorem State.modGrp_sticks (s : State) (n : Nat) (f : CalGroup → CalGroup) : (s.modGrp n f).sticks = s.sticks := rfl
@[simp] theorem State.modGrp_lapses (s : State) (n : Nat) (f : CalGroup → CalGroup) : (s.modGrp n f).lapses = s.lapses := rfl
@[simp] theorem State.modGrp_sync (s : State) (n : Nat) (f : CalGroup → CalGroup) : (s.modGrp n f).sync = s.sync := rfl
@[simp] theorem State.modGrp_syncDue (s : State) (n : Nat) (f : CalGroup → CalGroup) : (s.modGrp n f).syncDue = s.syncDue := rfl
@[simp] theorem State.modGrp_syncStamp (s : State) (n : Nat) (f : CalGroup → CalGroup) : (s.modGrp n f).syncStamp = s.syncStamp := rfl
@[simp] theorem State.modGrp_trigs (s : State) (n : Nat) (f : CalGroup → CalGroup) : (s.modGrp n f).trigs = s.trigs := rfl
@[simp] theorem State.modGrp_hwRel (s : State) (n : Nat) (f : CalGroup → CalGroup) : (s.modGrp n f).hwRel = s.hwRel := rfl
@[simp] theorem State.modGrp_sched (s : State) (n : Nat) (f : CalGroup → CalGroup) : (s.modGrp n f).sched = s.sched := rfl
@[simp] theorem State.modGrp_acceptSeq (s : State) (n : Nat) (f : CalGroup → CalGroup) : (s.modGrp n f).acceptSeq = s.acceptSeq := rfl
@[simp] theorem State.modGrp_stepped (s : State) (n : Nat) (f : CalGroup → CalGroup) : (s.modGrp n f).stepped = s.stepped := rfl
@[simp] theorem State.modGrp_heldWrites (s : State) (n : Nat) (f : CalGroup → CalGroup) : (s.modGrp n f).heldWrites = s.heldWrites := rfl
@[simp] theorem State.modGrp_refs (s : State) (n : Nat) (f : CalGroup → CalGroup) : (s.modGrp n f).refs = s.refs := rfl
@[simp] theorem State.modGrp_anchors (s : State) (n : Nat) (f : CalGroup → CalGroup) : (s.modGrp n f).anchors = s.anchors := rfl
@[simp] theorem State.modGrp_primary (s : State) (n : Nat) (f : CalGroup → CalGroup) : (s.modGrp n f).primary = s.primary := rfl
@[simp] theorem State.modGrp_primaryAt (s : State) (n : Nat) (f : CalGroup → CalGroup) : (s.modGrp n f).primaryAt = s.primaryAt := rfl
@[simp] theorem State.modGrp_initDone (s : State) (n : Nat) (f : CalGroup → CalGroup) : (s.modGrp n f).initDone = s.initDone := rfl
@[simp] theorem State.modGrp_alignRun (s : State) (n : Nat) (f : CalGroup → CalGroup) : (s.modGrp n f).alignRun = s.alignRun := rfl
@[simp] theorem State.modGrp_alignOver (s : State) (n : Nat) (f : CalGroup → CalGroup) : (s.modGrp n f).alignOver = s.alignOver := rfl
@[simp] theorem State.modGrp_ancEventAt (s : State) (n : Nat) (f : CalGroup → CalGroup) : (s.modGrp n f).ancEventAt = s.ancEventAt := rfl
@[simp] theorem State.modGrp_xferStamp (s : State) (n : Nat) (f : CalGroup → CalGroup) : (s.modGrp n f).xferStamp = s.xferStamp := rfl
@[simp] theorem State.modGrp_transfer (s : State) (n : Nat) (f : CalGroup → CalGroup) : (s.modGrp n f).transfer = s.transfer := rfl
@[simp] theorem State.modGrp_later (s : State) (n : Nat) (f : CalGroup → CalGroup) : (s.modGrp n f).later = s.later := rfl
@[simp] theorem State.modGrp_cores (s : State) (n : Nat) (f : CalGroup → CalGroup) : (s.modGrp n f).cores = s.cores := rfl
@[simp] theorem State.modGrp_outs (s : State) (n : Nat) (f : CalGroup → CalGroup) : (s.modGrp n f).outs = s.outs := rfl
@[simp] theorem State.modGrp_ras (s : State) (n : Nat) (f : CalGroup → CalGroup) : (s.modGrp n f).ras = s.ras := rfl
@[simp] theorem State.modGrp_stations (s : State) (n : Nat) (f : CalGroup → CalGroup) : (s.modGrp n f).stations = s.stations := rfl
@[simp] theorem State.modGrp_pgm (s : State) (n : Nat) (f : CalGroup → CalGroup) : (s.modGrp n f).pgm = s.pgm := rfl
@[simp] theorem State.modGrp_profs (s : State) (n : Nat) (f : CalGroup → CalGroup) : (s.modGrp n f).profs = s.profs := rfl
@[simp] theorem State.modGrp_shadows (s : State) (n : Nat) (f : CalGroup → CalGroup) : (s.modGrp n f).shadows = s.shadows := rfl
@[simp] theorem State.modGrp_check (s : State) (n : Nat) (f : CalGroup → CalGroup) : (s.modGrp n f).check = s.check := rfl
@[simp] theorem State.modGrp_statPins (s : State) (n : Nat) (f : CalGroup → CalGroup) : (s.modGrp n f).statPins = s.statPins := rfl
@[simp] theorem State.modGrp_lanes (s : State) (n : Nat) (f : CalGroup → CalGroup) : (s.modGrp n f).lanes = s.lanes := rfl
@[simp] theorem State.modGrp_lng (s : State) (n : Nat) (f : CalGroup → CalGroup) : (s.modGrp n f).lng = s.lng := rfl
@[simp] theorem State.modGrp_fleet (s : State) (n : Nat) (f : CalGroup → CalGroup) : (s.modGrp n f).fleet = s.fleet := rfl
@[simp] theorem State.modGrp_spareRows (s : State) (n : Nat) (f : CalGroup → CalGroup) : (s.modGrp n f).spareRows = s.spareRows := rfl
@[simp] theorem State.modGrp_fencedEntries (s : State) (n : Nat) (f : CalGroup → CalGroup) : (s.modGrp n f).fencedEntries = s.fencedEntries := rfl
@[simp] theorem State.modGrp_refills (s : State) (n : Nat) (f : CalGroup → CalGroup) : (s.modGrp n f).refills = s.refills := rfl
@[simp] theorem State.modGrp_mon (s : State) (n : Nat) (f : CalGroup → CalGroup) : (s.modGrp n f).mon = s.mon := rfl
@[simp] theorem State.modGrp_bar (s : State) (n : Nat) (f : CalGroup → CalGroup) : (s.modGrp n f).bar = s.bar := rfl
@[simp] theorem State.modGrp_flash (s : State) (n : Nat) (f : CalGroup → CalGroup) : (s.modGrp n f).flash = s.flash := rfl
@[simp] theorem State.modGrp_otp (s : State) (n : Nat) (f : CalGroup → CalGroup) : (s.modGrp n f).otp = s.otp := rfl
@[simp] theorem State.modGrp_store (s : State) (n : Nat) (f : CalGroup → CalGroup) : (s.modGrp n f).store = s.store := rfl
@[simp] theorem State.modGrp_boot (s : State) (n : Nat) (f : CalGroup → CalGroup) : (s.modGrp n f).boot = s.boot := rfl
@[simp] theorem State.modGrp_svc (s : State) (n : Nat) (f : CalGroup → CalGroup) : (s.modGrp n f).svc = s.svc := rfl
@[simp] theorem State.modGrp_hspi (s : State) (n : Nat) (f : CalGroup → CalGroup) : (s.modGrp n f).hspi = s.hspi := rfl
@[simp] theorem State.modGrp_mbx (s : State) (n : Nat) (f : CalGroup → CalGroup) : (s.modGrp n f).mbx = s.mbx := rfl
@[simp] theorem State.modGrp_pins (s : State) (n : Nat) (f : CalGroup → CalGroup) : (s.modGrp n f).pins = s.pins := rfl
@[simp] theorem State.modGrp_powering (s : State) (n : Nat) (f : CalGroup → CalGroup) : (s.modGrp n f).powering = s.powering := rfl
@[simp] theorem State.modGrp_reloads (s : State) (n : Nat) (f : CalGroup → CalGroup) : (s.modGrp n f).reloads = s.reloads := rfl
@[simp] theorem State.modGrp_readData (s : State) (n : Nat) (f : CalGroup → CalGroup) : (s.modGrp n f).readData = s.readData := rfl
@[simp] theorem State.modGrp_halted (s : State) (n : Nat) (f : CalGroup → CalGroup) : (s.modGrp n f).halted = s.halted := rfl
@[simp] theorem State.modGrp_calVals (s : State) (n : Nat) (f : CalGroup → CalGroup) : (s.modGrp n f).calVals = s.calVals := rfl
@[simp] theorem State.modGrp_at_reg (s : State) (n : Nat) (f : CalGroup → CalGroup) (r0 : RegName) (i0 : Nat) : (s.modGrp n f).reg r0 i0 = s.reg r0 i0 := rfl
@[simp] theorem State.modGrp_at_fld (s : State) (n : Nat) (f : CalGroup → CalGroup) (f0 : Field) (i0 : Nat) : (s.modGrp n f).fld f0 i0 = s.fld f0 i0 := rfl
@[simp] theorem State.modGrp_at_flag (s : State) (n : Nat) (f : CalGroup → CalGroup) (f0 : Field) (i0 : Nat) : (s.modGrp n f).flag f0 i0 = s.flag f0 i0 := rfl
@[simp] theorem State.modGrp_at_core (s : State) (n : Nat) (f : CalGroup → CalGroup) (m : Nat) : (s.modGrp n f).core m = s.core m := rfl
@[simp] theorem State.modGrp_at_out (s : State) (n : Nat) (f : CalGroup → CalGroup) (m : Nat) : (s.modGrp n f).out m = s.out m := rfl
@[simp] theorem State.modGrp_at_anc (s : State) (n : Nat) (f : CalGroup → CalGroup) (m : Nat) : (s.modGrp n f).anc m = s.anc m := rfl
@[simp] theorem State.modGrp_at_ref (s : State) (n : Nat) (f : CalGroup → CalGroup) (m : Nat) : (s.modGrp n f).ref m = s.ref m := rfl
@[simp] theorem State.modGrp_at_rasCh (s : State) (n : Nat) (f : CalGroup → CalGroup) (m : Nat) : (s.modGrp n f).rasCh m = s.rasCh m := rfl
@[simp] theorem State.modGrp_at_stn (s : State) (n : Nat) (f : CalGroup → CalGroup) (m : Nat) : (s.modGrp n f).stn m = s.stn m := rfl
@[simp] theorem State.modGrp_at_slotSt (s : State) (n : Nat) (f : CalGroup → CalGroup) (m k0 : Nat) : (s.modGrp n f).slotSt m k0 = s.slotSt m k0 := rfl
@[simp] theorem State.modGrp_at_win (s : State) (n : Nat) (f : CalGroup → CalGroup) (m : Nat) : (s.modGrp n f).win m = s.win m := rfl
@[simp] theorem State.modGrp_at_trig (s : State) (n : Nat) (f : CalGroup → CalGroup) (m : Nat) : (s.modGrp n f).trig m = s.trig m := rfl
@[simp] theorem State.modGrp_at_lane (s : State) (n : Nat) (f : CalGroup → CalGroup) (m : Nat) : (s.modGrp n f).lane m = s.lane m := rfl
@[simp] theorem State.modGrp_at_now (s : State) (n : Nat) (f : CalGroup → CalGroup) : (s.modGrp n f).now  = s.now := rfl
@[simp] theorem State.modGrp_at_power (s : State) (n : Nat) (f : CalGroup → CalGroup) : (s.modGrp n f).power  = s.power := rfl
@[simp] theorem State.modGrp_at_active (s : State) (n : Nat) (f : CalGroup → CalGroup) : (s.modGrp n f).active  = s.active := rfl
@[simp] theorem State.modGrp_at_up (s : State) (n : Nat) (f : CalGroup → CalGroup) : (s.modGrp n f).up  = s.up := rfl

/-! ## State.modHspi -/

@[simp] theorem State.modHspi_pending (s : State) (f : Hspi → Hspi) : (s.modHspi f).pending = s.pending := rfl
@[simp] theorem State.modHspi_count (s : State) (f : Hspi → Hspi) : (s.modHspi f).count = s.count := rfl
@[simp] theorem State.modHspi_elapsed (s : State) (f : Hspi → Hspi) : (s.modHspi f).elapsed = s.elapsed := rfl
@[simp] theorem State.modHspi_regs (s : State) (f : Hspi → Hspi) : (s.modHspi f).regs = s.regs := rfl
@[simp] theorem State.modHspi_windows (s : State) (f : Hspi → Hspi) : (s.modHspi f).windows = s.windows := rfl
@[simp] theorem State.modHspi_raises (s : State) (f : Hspi → Hspi) : (s.modHspi f).raises = s.raises := rfl
@[simp] theorem State.modHspi_sticks (s : State) (f : Hspi → Hspi) : (s.modHspi f).sticks = s.sticks := rfl
@[simp] theorem State.modHspi_lapses (s : State) (f : Hspi → Hspi) : (s.modHspi f).lapses = s.lapses := rfl
@[simp] theorem State.modHspi_sync (s : State) (f : Hspi → Hspi) : (s.modHspi f).sync = s.sync := rfl
@[simp] theorem State.modHspi_syncDue (s : State) (f : Hspi → Hspi) : (s.modHspi f).syncDue = s.syncDue := rfl
@[simp] theorem State.modHspi_syncStamp (s : State) (f : Hspi → Hspi) : (s.modHspi f).syncStamp = s.syncStamp := rfl
@[simp] theorem State.modHspi_trigs (s : State) (f : Hspi → Hspi) : (s.modHspi f).trigs = s.trigs := rfl
@[simp] theorem State.modHspi_hwRel (s : State) (f : Hspi → Hspi) : (s.modHspi f).hwRel = s.hwRel := rfl
@[simp] theorem State.modHspi_sched (s : State) (f : Hspi → Hspi) : (s.modHspi f).sched = s.sched := rfl
@[simp] theorem State.modHspi_acceptSeq (s : State) (f : Hspi → Hspi) : (s.modHspi f).acceptSeq = s.acceptSeq := rfl
@[simp] theorem State.modHspi_stepped (s : State) (f : Hspi → Hspi) : (s.modHspi f).stepped = s.stepped := rfl
@[simp] theorem State.modHspi_heldWrites (s : State) (f : Hspi → Hspi) : (s.modHspi f).heldWrites = s.heldWrites := rfl
@[simp] theorem State.modHspi_refs (s : State) (f : Hspi → Hspi) : (s.modHspi f).refs = s.refs := rfl
@[simp] theorem State.modHspi_anchors (s : State) (f : Hspi → Hspi) : (s.modHspi f).anchors = s.anchors := rfl
@[simp] theorem State.modHspi_primary (s : State) (f : Hspi → Hspi) : (s.modHspi f).primary = s.primary := rfl
@[simp] theorem State.modHspi_primaryAt (s : State) (f : Hspi → Hspi) : (s.modHspi f).primaryAt = s.primaryAt := rfl
@[simp] theorem State.modHspi_initDone (s : State) (f : Hspi → Hspi) : (s.modHspi f).initDone = s.initDone := rfl
@[simp] theorem State.modHspi_alignRun (s : State) (f : Hspi → Hspi) : (s.modHspi f).alignRun = s.alignRun := rfl
@[simp] theorem State.modHspi_alignOver (s : State) (f : Hspi → Hspi) : (s.modHspi f).alignOver = s.alignOver := rfl
@[simp] theorem State.modHspi_ancEventAt (s : State) (f : Hspi → Hspi) : (s.modHspi f).ancEventAt = s.ancEventAt := rfl
@[simp] theorem State.modHspi_xferStamp (s : State) (f : Hspi → Hspi) : (s.modHspi f).xferStamp = s.xferStamp := rfl
@[simp] theorem State.modHspi_transfer (s : State) (f : Hspi → Hspi) : (s.modHspi f).transfer = s.transfer := rfl
@[simp] theorem State.modHspi_later (s : State) (f : Hspi → Hspi) : (s.modHspi f).later = s.later := rfl
@[simp] theorem State.modHspi_cores (s : State) (f : Hspi → Hspi) : (s.modHspi f).cores = s.cores := rfl
@[simp] theorem State.modHspi_outs (s : State) (f : Hspi → Hspi) : (s.modHspi f).outs = s.outs := rfl
@[simp] theorem State.modHspi_ras (s : State) (f : Hspi → Hspi) : (s.modHspi f).ras = s.ras := rfl
@[simp] theorem State.modHspi_stations (s : State) (f : Hspi → Hspi) : (s.modHspi f).stations = s.stations := rfl
@[simp] theorem State.modHspi_pgm (s : State) (f : Hspi → Hspi) : (s.modHspi f).pgm = s.pgm := rfl
@[simp] theorem State.modHspi_profs (s : State) (f : Hspi → Hspi) : (s.modHspi f).profs = s.profs := rfl
@[simp] theorem State.modHspi_shadows (s : State) (f : Hspi → Hspi) : (s.modHspi f).shadows = s.shadows := rfl
@[simp] theorem State.modHspi_check (s : State) (f : Hspi → Hspi) : (s.modHspi f).check = s.check := rfl
@[simp] theorem State.modHspi_statPins (s : State) (f : Hspi → Hspi) : (s.modHspi f).statPins = s.statPins := rfl
@[simp] theorem State.modHspi_lanes (s : State) (f : Hspi → Hspi) : (s.modHspi f).lanes = s.lanes := rfl
@[simp] theorem State.modHspi_lng (s : State) (f : Hspi → Hspi) : (s.modHspi f).lng = s.lng := rfl
@[simp] theorem State.modHspi_fleet (s : State) (f : Hspi → Hspi) : (s.modHspi f).fleet = s.fleet := rfl
@[simp] theorem State.modHspi_spareRows (s : State) (f : Hspi → Hspi) : (s.modHspi f).spareRows = s.spareRows := rfl
@[simp] theorem State.modHspi_fencedEntries (s : State) (f : Hspi → Hspi) : (s.modHspi f).fencedEntries = s.fencedEntries := rfl
@[simp] theorem State.modHspi_refills (s : State) (f : Hspi → Hspi) : (s.modHspi f).refills = s.refills := rfl
@[simp] theorem State.modHspi_cal (s : State) (f : Hspi → Hspi) : (s.modHspi f).cal = s.cal := rfl
@[simp] theorem State.modHspi_mon (s : State) (f : Hspi → Hspi) : (s.modHspi f).mon = s.mon := rfl
@[simp] theorem State.modHspi_bar (s : State) (f : Hspi → Hspi) : (s.modHspi f).bar = s.bar := rfl
@[simp] theorem State.modHspi_flash (s : State) (f : Hspi → Hspi) : (s.modHspi f).flash = s.flash := rfl
@[simp] theorem State.modHspi_otp (s : State) (f : Hspi → Hspi) : (s.modHspi f).otp = s.otp := rfl
@[simp] theorem State.modHspi_store (s : State) (f : Hspi → Hspi) : (s.modHspi f).store = s.store := rfl
@[simp] theorem State.modHspi_boot (s : State) (f : Hspi → Hspi) : (s.modHspi f).boot = s.boot := rfl
@[simp] theorem State.modHspi_svc (s : State) (f : Hspi → Hspi) : (s.modHspi f).svc = s.svc := rfl
@[simp] theorem State.modHspi_mbx (s : State) (f : Hspi → Hspi) : (s.modHspi f).mbx = s.mbx := rfl
@[simp] theorem State.modHspi_pins (s : State) (f : Hspi → Hspi) : (s.modHspi f).pins = s.pins := rfl
@[simp] theorem State.modHspi_powering (s : State) (f : Hspi → Hspi) : (s.modHspi f).powering = s.powering := rfl
@[simp] theorem State.modHspi_reloads (s : State) (f : Hspi → Hspi) : (s.modHspi f).reloads = s.reloads := rfl
@[simp] theorem State.modHspi_readData (s : State) (f : Hspi → Hspi) : (s.modHspi f).readData = s.readData := rfl
@[simp] theorem State.modHspi_halted (s : State) (f : Hspi → Hspi) : (s.modHspi f).halted = s.halted := rfl
@[simp] theorem State.modHspi_calVals (s : State) (f : Hspi → Hspi) : (s.modHspi f).calVals = s.calVals := rfl
@[simp] theorem State.modHspi_at_reg (s : State) (f : Hspi → Hspi) (r0 : RegName) (i0 : Nat) : (s.modHspi f).reg r0 i0 = s.reg r0 i0 := rfl
@[simp] theorem State.modHspi_at_fld (s : State) (f : Hspi → Hspi) (f0 : Field) (i0 : Nat) : (s.modHspi f).fld f0 i0 = s.fld f0 i0 := rfl
@[simp] theorem State.modHspi_at_flag (s : State) (f : Hspi → Hspi) (f0 : Field) (i0 : Nat) : (s.modHspi f).flag f0 i0 = s.flag f0 i0 := rfl
@[simp] theorem State.modHspi_at_core (s : State) (f : Hspi → Hspi) (m : Nat) : (s.modHspi f).core m = s.core m := rfl
@[simp] theorem State.modHspi_at_out (s : State) (f : Hspi → Hspi) (m : Nat) : (s.modHspi f).out m = s.out m := rfl
@[simp] theorem State.modHspi_at_anc (s : State) (f : Hspi → Hspi) (m : Nat) : (s.modHspi f).anc m = s.anc m := rfl
@[simp] theorem State.modHspi_at_ref (s : State) (f : Hspi → Hspi) (m : Nat) : (s.modHspi f).ref m = s.ref m := rfl
@[simp] theorem State.modHspi_at_rasCh (s : State) (f : Hspi → Hspi) (m : Nat) : (s.modHspi f).rasCh m = s.rasCh m := rfl
@[simp] theorem State.modHspi_at_stn (s : State) (f : Hspi → Hspi) (m : Nat) : (s.modHspi f).stn m = s.stn m := rfl
@[simp] theorem State.modHspi_at_slotSt (s : State) (f : Hspi → Hspi) (m k0 : Nat) : (s.modHspi f).slotSt m k0 = s.slotSt m k0 := rfl
@[simp] theorem State.modHspi_at_win (s : State) (f : Hspi → Hspi) (m : Nat) : (s.modHspi f).win m = s.win m := rfl
@[simp] theorem State.modHspi_at_trig (s : State) (f : Hspi → Hspi) (m : Nat) : (s.modHspi f).trig m = s.trig m := rfl
@[simp] theorem State.modHspi_at_lane (s : State) (f : Hspi → Hspi) (m : Nat) : (s.modHspi f).lane m = s.lane m := rfl
@[simp] theorem State.modHspi_at_grp (s : State) (f : Hspi → Hspi) (m : Nat) : (s.modHspi f).grp m = s.grp m := rfl
@[simp] theorem State.modHspi_at_now (s : State) (f : Hspi → Hspi) : (s.modHspi f).now  = s.now := rfl
@[simp] theorem State.modHspi_at_power (s : State) (f : Hspi → Hspi) : (s.modHspi f).power  = s.power := rfl
@[simp] theorem State.modHspi_at_active (s : State) (f : Hspi → Hspi) : (s.modHspi f).active  = s.active := rfl
@[simp] theorem State.modHspi_at_up (s : State) (f : Hspi → Hspi) : (s.modHspi f).up  = s.up := rfl

/-! ## State.modBoot -/

@[simp] theorem State.modBoot_pending (s : State) (f : Boot → Boot) : (s.modBoot f).pending = s.pending := rfl
@[simp] theorem State.modBoot_count (s : State) (f : Boot → Boot) : (s.modBoot f).count = s.count := rfl
@[simp] theorem State.modBoot_elapsed (s : State) (f : Boot → Boot) : (s.modBoot f).elapsed = s.elapsed := rfl
@[simp] theorem State.modBoot_regs (s : State) (f : Boot → Boot) : (s.modBoot f).regs = s.regs := rfl
@[simp] theorem State.modBoot_windows (s : State) (f : Boot → Boot) : (s.modBoot f).windows = s.windows := rfl
@[simp] theorem State.modBoot_raises (s : State) (f : Boot → Boot) : (s.modBoot f).raises = s.raises := rfl
@[simp] theorem State.modBoot_sticks (s : State) (f : Boot → Boot) : (s.modBoot f).sticks = s.sticks := rfl
@[simp] theorem State.modBoot_lapses (s : State) (f : Boot → Boot) : (s.modBoot f).lapses = s.lapses := rfl
@[simp] theorem State.modBoot_sync (s : State) (f : Boot → Boot) : (s.modBoot f).sync = s.sync := rfl
@[simp] theorem State.modBoot_syncDue (s : State) (f : Boot → Boot) : (s.modBoot f).syncDue = s.syncDue := rfl
@[simp] theorem State.modBoot_syncStamp (s : State) (f : Boot → Boot) : (s.modBoot f).syncStamp = s.syncStamp := rfl
@[simp] theorem State.modBoot_trigs (s : State) (f : Boot → Boot) : (s.modBoot f).trigs = s.trigs := rfl
@[simp] theorem State.modBoot_hwRel (s : State) (f : Boot → Boot) : (s.modBoot f).hwRel = s.hwRel := rfl
@[simp] theorem State.modBoot_sched (s : State) (f : Boot → Boot) : (s.modBoot f).sched = s.sched := rfl
@[simp] theorem State.modBoot_acceptSeq (s : State) (f : Boot → Boot) : (s.modBoot f).acceptSeq = s.acceptSeq := rfl
@[simp] theorem State.modBoot_stepped (s : State) (f : Boot → Boot) : (s.modBoot f).stepped = s.stepped := rfl
@[simp] theorem State.modBoot_heldWrites (s : State) (f : Boot → Boot) : (s.modBoot f).heldWrites = s.heldWrites := rfl
@[simp] theorem State.modBoot_refs (s : State) (f : Boot → Boot) : (s.modBoot f).refs = s.refs := rfl
@[simp] theorem State.modBoot_anchors (s : State) (f : Boot → Boot) : (s.modBoot f).anchors = s.anchors := rfl
@[simp] theorem State.modBoot_primary (s : State) (f : Boot → Boot) : (s.modBoot f).primary = s.primary := rfl
@[simp] theorem State.modBoot_primaryAt (s : State) (f : Boot → Boot) : (s.modBoot f).primaryAt = s.primaryAt := rfl
@[simp] theorem State.modBoot_initDone (s : State) (f : Boot → Boot) : (s.modBoot f).initDone = s.initDone := rfl
@[simp] theorem State.modBoot_alignRun (s : State) (f : Boot → Boot) : (s.modBoot f).alignRun = s.alignRun := rfl
@[simp] theorem State.modBoot_alignOver (s : State) (f : Boot → Boot) : (s.modBoot f).alignOver = s.alignOver := rfl
@[simp] theorem State.modBoot_ancEventAt (s : State) (f : Boot → Boot) : (s.modBoot f).ancEventAt = s.ancEventAt := rfl
@[simp] theorem State.modBoot_xferStamp (s : State) (f : Boot → Boot) : (s.modBoot f).xferStamp = s.xferStamp := rfl
@[simp] theorem State.modBoot_transfer (s : State) (f : Boot → Boot) : (s.modBoot f).transfer = s.transfer := rfl
@[simp] theorem State.modBoot_later (s : State) (f : Boot → Boot) : (s.modBoot f).later = s.later := rfl
@[simp] theorem State.modBoot_cores (s : State) (f : Boot → Boot) : (s.modBoot f).cores = s.cores := rfl
@[simp] theorem State.modBoot_outs (s : State) (f : Boot → Boot) : (s.modBoot f).outs = s.outs := rfl
@[simp] theorem State.modBoot_ras (s : State) (f : Boot → Boot) : (s.modBoot f).ras = s.ras := rfl
@[simp] theorem State.modBoot_stations (s : State) (f : Boot → Boot) : (s.modBoot f).stations = s.stations := rfl
@[simp] theorem State.modBoot_pgm (s : State) (f : Boot → Boot) : (s.modBoot f).pgm = s.pgm := rfl
@[simp] theorem State.modBoot_profs (s : State) (f : Boot → Boot) : (s.modBoot f).profs = s.profs := rfl
@[simp] theorem State.modBoot_shadows (s : State) (f : Boot → Boot) : (s.modBoot f).shadows = s.shadows := rfl
@[simp] theorem State.modBoot_check (s : State) (f : Boot → Boot) : (s.modBoot f).check = s.check := rfl
@[simp] theorem State.modBoot_statPins (s : State) (f : Boot → Boot) : (s.modBoot f).statPins = s.statPins := rfl
@[simp] theorem State.modBoot_lanes (s : State) (f : Boot → Boot) : (s.modBoot f).lanes = s.lanes := rfl
@[simp] theorem State.modBoot_lng (s : State) (f : Boot → Boot) : (s.modBoot f).lng = s.lng := rfl
@[simp] theorem State.modBoot_fleet (s : State) (f : Boot → Boot) : (s.modBoot f).fleet = s.fleet := rfl
@[simp] theorem State.modBoot_spareRows (s : State) (f : Boot → Boot) : (s.modBoot f).spareRows = s.spareRows := rfl
@[simp] theorem State.modBoot_fencedEntries (s : State) (f : Boot → Boot) : (s.modBoot f).fencedEntries = s.fencedEntries := rfl
@[simp] theorem State.modBoot_refills (s : State) (f : Boot → Boot) : (s.modBoot f).refills = s.refills := rfl
@[simp] theorem State.modBoot_cal (s : State) (f : Boot → Boot) : (s.modBoot f).cal = s.cal := rfl
@[simp] theorem State.modBoot_mon (s : State) (f : Boot → Boot) : (s.modBoot f).mon = s.mon := rfl
@[simp] theorem State.modBoot_bar (s : State) (f : Boot → Boot) : (s.modBoot f).bar = s.bar := rfl
@[simp] theorem State.modBoot_flash (s : State) (f : Boot → Boot) : (s.modBoot f).flash = s.flash := rfl
@[simp] theorem State.modBoot_otp (s : State) (f : Boot → Boot) : (s.modBoot f).otp = s.otp := rfl
@[simp] theorem State.modBoot_store (s : State) (f : Boot → Boot) : (s.modBoot f).store = s.store := rfl
@[simp] theorem State.modBoot_svc (s : State) (f : Boot → Boot) : (s.modBoot f).svc = s.svc := rfl
@[simp] theorem State.modBoot_hspi (s : State) (f : Boot → Boot) : (s.modBoot f).hspi = s.hspi := rfl
@[simp] theorem State.modBoot_mbx (s : State) (f : Boot → Boot) : (s.modBoot f).mbx = s.mbx := rfl
@[simp] theorem State.modBoot_pins (s : State) (f : Boot → Boot) : (s.modBoot f).pins = s.pins := rfl
@[simp] theorem State.modBoot_powering (s : State) (f : Boot → Boot) : (s.modBoot f).powering = s.powering := rfl
@[simp] theorem State.modBoot_reloads (s : State) (f : Boot → Boot) : (s.modBoot f).reloads = s.reloads := rfl
@[simp] theorem State.modBoot_readData (s : State) (f : Boot → Boot) : (s.modBoot f).readData = s.readData := rfl
@[simp] theorem State.modBoot_halted (s : State) (f : Boot → Boot) : (s.modBoot f).halted = s.halted := rfl
@[simp] theorem State.modBoot_calVals (s : State) (f : Boot → Boot) : (s.modBoot f).calVals = s.calVals := rfl
@[simp] theorem State.modBoot_at_reg (s : State) (f : Boot → Boot) (r0 : RegName) (i0 : Nat) : (s.modBoot f).reg r0 i0 = s.reg r0 i0 := rfl
@[simp] theorem State.modBoot_at_fld (s : State) (f : Boot → Boot) (f0 : Field) (i0 : Nat) : (s.modBoot f).fld f0 i0 = s.fld f0 i0 := rfl
@[simp] theorem State.modBoot_at_flag (s : State) (f : Boot → Boot) (f0 : Field) (i0 : Nat) : (s.modBoot f).flag f0 i0 = s.flag f0 i0 := rfl
@[simp] theorem State.modBoot_at_core (s : State) (f : Boot → Boot) (m : Nat) : (s.modBoot f).core m = s.core m := rfl
@[simp] theorem State.modBoot_at_out (s : State) (f : Boot → Boot) (m : Nat) : (s.modBoot f).out m = s.out m := rfl
@[simp] theorem State.modBoot_at_anc (s : State) (f : Boot → Boot) (m : Nat) : (s.modBoot f).anc m = s.anc m := rfl
@[simp] theorem State.modBoot_at_ref (s : State) (f : Boot → Boot) (m : Nat) : (s.modBoot f).ref m = s.ref m := rfl
@[simp] theorem State.modBoot_at_rasCh (s : State) (f : Boot → Boot) (m : Nat) : (s.modBoot f).rasCh m = s.rasCh m := rfl
@[simp] theorem State.modBoot_at_stn (s : State) (f : Boot → Boot) (m : Nat) : (s.modBoot f).stn m = s.stn m := rfl
@[simp] theorem State.modBoot_at_slotSt (s : State) (f : Boot → Boot) (m k0 : Nat) : (s.modBoot f).slotSt m k0 = s.slotSt m k0 := rfl
@[simp] theorem State.modBoot_at_win (s : State) (f : Boot → Boot) (m : Nat) : (s.modBoot f).win m = s.win m := rfl
@[simp] theorem State.modBoot_at_trig (s : State) (f : Boot → Boot) (m : Nat) : (s.modBoot f).trig m = s.trig m := rfl
@[simp] theorem State.modBoot_at_lane (s : State) (f : Boot → Boot) (m : Nat) : (s.modBoot f).lane m = s.lane m := rfl
@[simp] theorem State.modBoot_at_grp (s : State) (f : Boot → Boot) (m : Nat) : (s.modBoot f).grp m = s.grp m := rfl
@[simp] theorem State.modBoot_at_now (s : State) (f : Boot → Boot) : (s.modBoot f).now  = s.now := rfl
@[simp] theorem State.modBoot_at_power (s : State) (f : Boot → Boot) : (s.modBoot f).power  = s.power := rfl
@[simp] theorem State.modBoot_at_active (s : State) (f : Boot → Boot) : (s.modBoot f).active  = s.active := rfl

/-! ## State.modStore -/

@[simp] theorem State.modStore_pending (s : State) (f : Store → Store) : (s.modStore f).pending = s.pending := rfl
@[simp] theorem State.modStore_count (s : State) (f : Store → Store) : (s.modStore f).count = s.count := rfl
@[simp] theorem State.modStore_elapsed (s : State) (f : Store → Store) : (s.modStore f).elapsed = s.elapsed := rfl
@[simp] theorem State.modStore_regs (s : State) (f : Store → Store) : (s.modStore f).regs = s.regs := rfl
@[simp] theorem State.modStore_windows (s : State) (f : Store → Store) : (s.modStore f).windows = s.windows := rfl
@[simp] theorem State.modStore_raises (s : State) (f : Store → Store) : (s.modStore f).raises = s.raises := rfl
@[simp] theorem State.modStore_sticks (s : State) (f : Store → Store) : (s.modStore f).sticks = s.sticks := rfl
@[simp] theorem State.modStore_lapses (s : State) (f : Store → Store) : (s.modStore f).lapses = s.lapses := rfl
@[simp] theorem State.modStore_sync (s : State) (f : Store → Store) : (s.modStore f).sync = s.sync := rfl
@[simp] theorem State.modStore_syncDue (s : State) (f : Store → Store) : (s.modStore f).syncDue = s.syncDue := rfl
@[simp] theorem State.modStore_syncStamp (s : State) (f : Store → Store) : (s.modStore f).syncStamp = s.syncStamp := rfl
@[simp] theorem State.modStore_trigs (s : State) (f : Store → Store) : (s.modStore f).trigs = s.trigs := rfl
@[simp] theorem State.modStore_hwRel (s : State) (f : Store → Store) : (s.modStore f).hwRel = s.hwRel := rfl
@[simp] theorem State.modStore_sched (s : State) (f : Store → Store) : (s.modStore f).sched = s.sched := rfl
@[simp] theorem State.modStore_acceptSeq (s : State) (f : Store → Store) : (s.modStore f).acceptSeq = s.acceptSeq := rfl
@[simp] theorem State.modStore_stepped (s : State) (f : Store → Store) : (s.modStore f).stepped = s.stepped := rfl
@[simp] theorem State.modStore_heldWrites (s : State) (f : Store → Store) : (s.modStore f).heldWrites = s.heldWrites := rfl
@[simp] theorem State.modStore_refs (s : State) (f : Store → Store) : (s.modStore f).refs = s.refs := rfl
@[simp] theorem State.modStore_anchors (s : State) (f : Store → Store) : (s.modStore f).anchors = s.anchors := rfl
@[simp] theorem State.modStore_primary (s : State) (f : Store → Store) : (s.modStore f).primary = s.primary := rfl
@[simp] theorem State.modStore_primaryAt (s : State) (f : Store → Store) : (s.modStore f).primaryAt = s.primaryAt := rfl
@[simp] theorem State.modStore_initDone (s : State) (f : Store → Store) : (s.modStore f).initDone = s.initDone := rfl
@[simp] theorem State.modStore_alignRun (s : State) (f : Store → Store) : (s.modStore f).alignRun = s.alignRun := rfl
@[simp] theorem State.modStore_alignOver (s : State) (f : Store → Store) : (s.modStore f).alignOver = s.alignOver := rfl
@[simp] theorem State.modStore_ancEventAt (s : State) (f : Store → Store) : (s.modStore f).ancEventAt = s.ancEventAt := rfl
@[simp] theorem State.modStore_xferStamp (s : State) (f : Store → Store) : (s.modStore f).xferStamp = s.xferStamp := rfl
@[simp] theorem State.modStore_transfer (s : State) (f : Store → Store) : (s.modStore f).transfer = s.transfer := rfl
@[simp] theorem State.modStore_later (s : State) (f : Store → Store) : (s.modStore f).later = s.later := rfl
@[simp] theorem State.modStore_cores (s : State) (f : Store → Store) : (s.modStore f).cores = s.cores := rfl
@[simp] theorem State.modStore_outs (s : State) (f : Store → Store) : (s.modStore f).outs = s.outs := rfl
@[simp] theorem State.modStore_ras (s : State) (f : Store → Store) : (s.modStore f).ras = s.ras := rfl
@[simp] theorem State.modStore_stations (s : State) (f : Store → Store) : (s.modStore f).stations = s.stations := rfl
@[simp] theorem State.modStore_pgm (s : State) (f : Store → Store) : (s.modStore f).pgm = s.pgm := rfl
@[simp] theorem State.modStore_profs (s : State) (f : Store → Store) : (s.modStore f).profs = s.profs := rfl
@[simp] theorem State.modStore_shadows (s : State) (f : Store → Store) : (s.modStore f).shadows = s.shadows := rfl
@[simp] theorem State.modStore_check (s : State) (f : Store → Store) : (s.modStore f).check = s.check := rfl
@[simp] theorem State.modStore_statPins (s : State) (f : Store → Store) : (s.modStore f).statPins = s.statPins := rfl
@[simp] theorem State.modStore_lanes (s : State) (f : Store → Store) : (s.modStore f).lanes = s.lanes := rfl
@[simp] theorem State.modStore_lng (s : State) (f : Store → Store) : (s.modStore f).lng = s.lng := rfl
@[simp] theorem State.modStore_fleet (s : State) (f : Store → Store) : (s.modStore f).fleet = s.fleet := rfl
@[simp] theorem State.modStore_spareRows (s : State) (f : Store → Store) : (s.modStore f).spareRows = s.spareRows := rfl
@[simp] theorem State.modStore_fencedEntries (s : State) (f : Store → Store) : (s.modStore f).fencedEntries = s.fencedEntries := rfl
@[simp] theorem State.modStore_refills (s : State) (f : Store → Store) : (s.modStore f).refills = s.refills := rfl
@[simp] theorem State.modStore_cal (s : State) (f : Store → Store) : (s.modStore f).cal = s.cal := rfl
@[simp] theorem State.modStore_mon (s : State) (f : Store → Store) : (s.modStore f).mon = s.mon := rfl
@[simp] theorem State.modStore_bar (s : State) (f : Store → Store) : (s.modStore f).bar = s.bar := rfl
@[simp] theorem State.modStore_flash (s : State) (f : Store → Store) : (s.modStore f).flash = s.flash := rfl
@[simp] theorem State.modStore_otp (s : State) (f : Store → Store) : (s.modStore f).otp = s.otp := rfl
@[simp] theorem State.modStore_boot (s : State) (f : Store → Store) : (s.modStore f).boot = s.boot := rfl
@[simp] theorem State.modStore_svc (s : State) (f : Store → Store) : (s.modStore f).svc = s.svc := rfl
@[simp] theorem State.modStore_hspi (s : State) (f : Store → Store) : (s.modStore f).hspi = s.hspi := rfl
@[simp] theorem State.modStore_mbx (s : State) (f : Store → Store) : (s.modStore f).mbx = s.mbx := rfl
@[simp] theorem State.modStore_pins (s : State) (f : Store → Store) : (s.modStore f).pins = s.pins := rfl
@[simp] theorem State.modStore_powering (s : State) (f : Store → Store) : (s.modStore f).powering = s.powering := rfl
@[simp] theorem State.modStore_reloads (s : State) (f : Store → Store) : (s.modStore f).reloads = s.reloads := rfl
@[simp] theorem State.modStore_readData (s : State) (f : Store → Store) : (s.modStore f).readData = s.readData := rfl
@[simp] theorem State.modStore_halted (s : State) (f : Store → Store) : (s.modStore f).halted = s.halted := rfl
@[simp] theorem State.modStore_calVals (s : State) (f : Store → Store) : (s.modStore f).calVals = s.calVals := rfl
@[simp] theorem State.modStore_at_reg (s : State) (f : Store → Store) (r0 : RegName) (i0 : Nat) : (s.modStore f).reg r0 i0 = s.reg r0 i0 := rfl
@[simp] theorem State.modStore_at_fld (s : State) (f : Store → Store) (f0 : Field) (i0 : Nat) : (s.modStore f).fld f0 i0 = s.fld f0 i0 := rfl
@[simp] theorem State.modStore_at_flag (s : State) (f : Store → Store) (f0 : Field) (i0 : Nat) : (s.modStore f).flag f0 i0 = s.flag f0 i0 := rfl
@[simp] theorem State.modStore_at_core (s : State) (f : Store → Store) (m : Nat) : (s.modStore f).core m = s.core m := rfl
@[simp] theorem State.modStore_at_out (s : State) (f : Store → Store) (m : Nat) : (s.modStore f).out m = s.out m := rfl
@[simp] theorem State.modStore_at_anc (s : State) (f : Store → Store) (m : Nat) : (s.modStore f).anc m = s.anc m := rfl
@[simp] theorem State.modStore_at_ref (s : State) (f : Store → Store) (m : Nat) : (s.modStore f).ref m = s.ref m := rfl
@[simp] theorem State.modStore_at_rasCh (s : State) (f : Store → Store) (m : Nat) : (s.modStore f).rasCh m = s.rasCh m := rfl
@[simp] theorem State.modStore_at_stn (s : State) (f : Store → Store) (m : Nat) : (s.modStore f).stn m = s.stn m := rfl
@[simp] theorem State.modStore_at_slotSt (s : State) (f : Store → Store) (m k0 : Nat) : (s.modStore f).slotSt m k0 = s.slotSt m k0 := rfl
@[simp] theorem State.modStore_at_win (s : State) (f : Store → Store) (m : Nat) : (s.modStore f).win m = s.win m := rfl
@[simp] theorem State.modStore_at_trig (s : State) (f : Store → Store) (m : Nat) : (s.modStore f).trig m = s.trig m := rfl
@[simp] theorem State.modStore_at_lane (s : State) (f : Store → Store) (m : Nat) : (s.modStore f).lane m = s.lane m := rfl
@[simp] theorem State.modStore_at_grp (s : State) (f : Store → Store) (m : Nat) : (s.modStore f).grp m = s.grp m := rfl
@[simp] theorem State.modStore_at_now (s : State) (f : Store → Store) : (s.modStore f).now  = s.now := rfl
@[simp] theorem State.modStore_at_power (s : State) (f : Store → Store) : (s.modStore f).power  = s.power := rfl
@[simp] theorem State.modStore_at_active (s : State) (f : Store → Store) : (s.modStore f).active  = s.active := rfl

/-! ## State.modFlash -/

@[simp] theorem State.modFlash_pending (s : State) (f : Flash → Flash) : (s.modFlash f).pending = s.pending := rfl
@[simp] theorem State.modFlash_count (s : State) (f : Flash → Flash) : (s.modFlash f).count = s.count := rfl
@[simp] theorem State.modFlash_elapsed (s : State) (f : Flash → Flash) : (s.modFlash f).elapsed = s.elapsed := rfl
@[simp] theorem State.modFlash_regs (s : State) (f : Flash → Flash) : (s.modFlash f).regs = s.regs := rfl
@[simp] theorem State.modFlash_windows (s : State) (f : Flash → Flash) : (s.modFlash f).windows = s.windows := rfl
@[simp] theorem State.modFlash_raises (s : State) (f : Flash → Flash) : (s.modFlash f).raises = s.raises := rfl
@[simp] theorem State.modFlash_sticks (s : State) (f : Flash → Flash) : (s.modFlash f).sticks = s.sticks := rfl
@[simp] theorem State.modFlash_lapses (s : State) (f : Flash → Flash) : (s.modFlash f).lapses = s.lapses := rfl
@[simp] theorem State.modFlash_sync (s : State) (f : Flash → Flash) : (s.modFlash f).sync = s.sync := rfl
@[simp] theorem State.modFlash_syncDue (s : State) (f : Flash → Flash) : (s.modFlash f).syncDue = s.syncDue := rfl
@[simp] theorem State.modFlash_syncStamp (s : State) (f : Flash → Flash) : (s.modFlash f).syncStamp = s.syncStamp := rfl
@[simp] theorem State.modFlash_trigs (s : State) (f : Flash → Flash) : (s.modFlash f).trigs = s.trigs := rfl
@[simp] theorem State.modFlash_hwRel (s : State) (f : Flash → Flash) : (s.modFlash f).hwRel = s.hwRel := rfl
@[simp] theorem State.modFlash_sched (s : State) (f : Flash → Flash) : (s.modFlash f).sched = s.sched := rfl
@[simp] theorem State.modFlash_acceptSeq (s : State) (f : Flash → Flash) : (s.modFlash f).acceptSeq = s.acceptSeq := rfl
@[simp] theorem State.modFlash_stepped (s : State) (f : Flash → Flash) : (s.modFlash f).stepped = s.stepped := rfl
@[simp] theorem State.modFlash_heldWrites (s : State) (f : Flash → Flash) : (s.modFlash f).heldWrites = s.heldWrites := rfl
@[simp] theorem State.modFlash_refs (s : State) (f : Flash → Flash) : (s.modFlash f).refs = s.refs := rfl
@[simp] theorem State.modFlash_anchors (s : State) (f : Flash → Flash) : (s.modFlash f).anchors = s.anchors := rfl
@[simp] theorem State.modFlash_primary (s : State) (f : Flash → Flash) : (s.modFlash f).primary = s.primary := rfl
@[simp] theorem State.modFlash_primaryAt (s : State) (f : Flash → Flash) : (s.modFlash f).primaryAt = s.primaryAt := rfl
@[simp] theorem State.modFlash_initDone (s : State) (f : Flash → Flash) : (s.modFlash f).initDone = s.initDone := rfl
@[simp] theorem State.modFlash_alignRun (s : State) (f : Flash → Flash) : (s.modFlash f).alignRun = s.alignRun := rfl
@[simp] theorem State.modFlash_alignOver (s : State) (f : Flash → Flash) : (s.modFlash f).alignOver = s.alignOver := rfl
@[simp] theorem State.modFlash_ancEventAt (s : State) (f : Flash → Flash) : (s.modFlash f).ancEventAt = s.ancEventAt := rfl
@[simp] theorem State.modFlash_xferStamp (s : State) (f : Flash → Flash) : (s.modFlash f).xferStamp = s.xferStamp := rfl
@[simp] theorem State.modFlash_transfer (s : State) (f : Flash → Flash) : (s.modFlash f).transfer = s.transfer := rfl
@[simp] theorem State.modFlash_later (s : State) (f : Flash → Flash) : (s.modFlash f).later = s.later := rfl
@[simp] theorem State.modFlash_cores (s : State) (f : Flash → Flash) : (s.modFlash f).cores = s.cores := rfl
@[simp] theorem State.modFlash_outs (s : State) (f : Flash → Flash) : (s.modFlash f).outs = s.outs := rfl
@[simp] theorem State.modFlash_ras (s : State) (f : Flash → Flash) : (s.modFlash f).ras = s.ras := rfl
@[simp] theorem State.modFlash_stations (s : State) (f : Flash → Flash) : (s.modFlash f).stations = s.stations := rfl
@[simp] theorem State.modFlash_pgm (s : State) (f : Flash → Flash) : (s.modFlash f).pgm = s.pgm := rfl
@[simp] theorem State.modFlash_profs (s : State) (f : Flash → Flash) : (s.modFlash f).profs = s.profs := rfl
@[simp] theorem State.modFlash_shadows (s : State) (f : Flash → Flash) : (s.modFlash f).shadows = s.shadows := rfl
@[simp] theorem State.modFlash_check (s : State) (f : Flash → Flash) : (s.modFlash f).check = s.check := rfl
@[simp] theorem State.modFlash_statPins (s : State) (f : Flash → Flash) : (s.modFlash f).statPins = s.statPins := rfl
@[simp] theorem State.modFlash_lanes (s : State) (f : Flash → Flash) : (s.modFlash f).lanes = s.lanes := rfl
@[simp] theorem State.modFlash_lng (s : State) (f : Flash → Flash) : (s.modFlash f).lng = s.lng := rfl
@[simp] theorem State.modFlash_fleet (s : State) (f : Flash → Flash) : (s.modFlash f).fleet = s.fleet := rfl
@[simp] theorem State.modFlash_spareRows (s : State) (f : Flash → Flash) : (s.modFlash f).spareRows = s.spareRows := rfl
@[simp] theorem State.modFlash_fencedEntries (s : State) (f : Flash → Flash) : (s.modFlash f).fencedEntries = s.fencedEntries := rfl
@[simp] theorem State.modFlash_refills (s : State) (f : Flash → Flash) : (s.modFlash f).refills = s.refills := rfl
@[simp] theorem State.modFlash_cal (s : State) (f : Flash → Flash) : (s.modFlash f).cal = s.cal := rfl
@[simp] theorem State.modFlash_mon (s : State) (f : Flash → Flash) : (s.modFlash f).mon = s.mon := rfl
@[simp] theorem State.modFlash_bar (s : State) (f : Flash → Flash) : (s.modFlash f).bar = s.bar := rfl
@[simp] theorem State.modFlash_otp (s : State) (f : Flash → Flash) : (s.modFlash f).otp = s.otp := rfl
@[simp] theorem State.modFlash_store (s : State) (f : Flash → Flash) : (s.modFlash f).store = s.store := rfl
@[simp] theorem State.modFlash_boot (s : State) (f : Flash → Flash) : (s.modFlash f).boot = s.boot := rfl
@[simp] theorem State.modFlash_svc (s : State) (f : Flash → Flash) : (s.modFlash f).svc = s.svc := rfl
@[simp] theorem State.modFlash_hspi (s : State) (f : Flash → Flash) : (s.modFlash f).hspi = s.hspi := rfl
@[simp] theorem State.modFlash_mbx (s : State) (f : Flash → Flash) : (s.modFlash f).mbx = s.mbx := rfl
@[simp] theorem State.modFlash_pins (s : State) (f : Flash → Flash) : (s.modFlash f).pins = s.pins := rfl
@[simp] theorem State.modFlash_powering (s : State) (f : Flash → Flash) : (s.modFlash f).powering = s.powering := rfl
@[simp] theorem State.modFlash_reloads (s : State) (f : Flash → Flash) : (s.modFlash f).reloads = s.reloads := rfl
@[simp] theorem State.modFlash_readData (s : State) (f : Flash → Flash) : (s.modFlash f).readData = s.readData := rfl
@[simp] theorem State.modFlash_halted (s : State) (f : Flash → Flash) : (s.modFlash f).halted = s.halted := rfl
@[simp] theorem State.modFlash_calVals (s : State) (f : Flash → Flash) : (s.modFlash f).calVals = s.calVals := rfl
@[simp] theorem State.modFlash_at_reg (s : State) (f : Flash → Flash) (r0 : RegName) (i0 : Nat) : (s.modFlash f).reg r0 i0 = s.reg r0 i0 := rfl
@[simp] theorem State.modFlash_at_fld (s : State) (f : Flash → Flash) (f0 : Field) (i0 : Nat) : (s.modFlash f).fld f0 i0 = s.fld f0 i0 := rfl
@[simp] theorem State.modFlash_at_flag (s : State) (f : Flash → Flash) (f0 : Field) (i0 : Nat) : (s.modFlash f).flag f0 i0 = s.flag f0 i0 := rfl
@[simp] theorem State.modFlash_at_core (s : State) (f : Flash → Flash) (m : Nat) : (s.modFlash f).core m = s.core m := rfl
@[simp] theorem State.modFlash_at_out (s : State) (f : Flash → Flash) (m : Nat) : (s.modFlash f).out m = s.out m := rfl
@[simp] theorem State.modFlash_at_anc (s : State) (f : Flash → Flash) (m : Nat) : (s.modFlash f).anc m = s.anc m := rfl
@[simp] theorem State.modFlash_at_ref (s : State) (f : Flash → Flash) (m : Nat) : (s.modFlash f).ref m = s.ref m := rfl
@[simp] theorem State.modFlash_at_rasCh (s : State) (f : Flash → Flash) (m : Nat) : (s.modFlash f).rasCh m = s.rasCh m := rfl
@[simp] theorem State.modFlash_at_stn (s : State) (f : Flash → Flash) (m : Nat) : (s.modFlash f).stn m = s.stn m := rfl
@[simp] theorem State.modFlash_at_slotSt (s : State) (f : Flash → Flash) (m k0 : Nat) : (s.modFlash f).slotSt m k0 = s.slotSt m k0 := rfl
@[simp] theorem State.modFlash_at_win (s : State) (f : Flash → Flash) (m : Nat) : (s.modFlash f).win m = s.win m := rfl
@[simp] theorem State.modFlash_at_trig (s : State) (f : Flash → Flash) (m : Nat) : (s.modFlash f).trig m = s.trig m := rfl
@[simp] theorem State.modFlash_at_lane (s : State) (f : Flash → Flash) (m : Nat) : (s.modFlash f).lane m = s.lane m := rfl
@[simp] theorem State.modFlash_at_grp (s : State) (f : Flash → Flash) (m : Nat) : (s.modFlash f).grp m = s.grp m := rfl
@[simp] theorem State.modFlash_at_now (s : State) (f : Flash → Flash) : (s.modFlash f).now  = s.now := rfl
@[simp] theorem State.modFlash_at_power (s : State) (f : Flash → Flash) : (s.modFlash f).power  = s.power := rfl
@[simp] theorem State.modFlash_at_active (s : State) (f : Flash → Flash) : (s.modFlash f).active  = s.active := rfl
@[simp] theorem State.modFlash_at_up (s : State) (f : Flash → Flash) : (s.modFlash f).up  = s.up := rfl

/-! ## State.modSvc -/

@[simp] theorem State.modSvc_pending (s : State) (f : Svc → Svc) : (s.modSvc f).pending = s.pending := rfl
@[simp] theorem State.modSvc_count (s : State) (f : Svc → Svc) : (s.modSvc f).count = s.count := rfl
@[simp] theorem State.modSvc_elapsed (s : State) (f : Svc → Svc) : (s.modSvc f).elapsed = s.elapsed := rfl
@[simp] theorem State.modSvc_regs (s : State) (f : Svc → Svc) : (s.modSvc f).regs = s.regs := rfl
@[simp] theorem State.modSvc_windows (s : State) (f : Svc → Svc) : (s.modSvc f).windows = s.windows := rfl
@[simp] theorem State.modSvc_raises (s : State) (f : Svc → Svc) : (s.modSvc f).raises = s.raises := rfl
@[simp] theorem State.modSvc_sticks (s : State) (f : Svc → Svc) : (s.modSvc f).sticks = s.sticks := rfl
@[simp] theorem State.modSvc_lapses (s : State) (f : Svc → Svc) : (s.modSvc f).lapses = s.lapses := rfl
@[simp] theorem State.modSvc_sync (s : State) (f : Svc → Svc) : (s.modSvc f).sync = s.sync := rfl
@[simp] theorem State.modSvc_syncDue (s : State) (f : Svc → Svc) : (s.modSvc f).syncDue = s.syncDue := rfl
@[simp] theorem State.modSvc_syncStamp (s : State) (f : Svc → Svc) : (s.modSvc f).syncStamp = s.syncStamp := rfl
@[simp] theorem State.modSvc_trigs (s : State) (f : Svc → Svc) : (s.modSvc f).trigs = s.trigs := rfl
@[simp] theorem State.modSvc_hwRel (s : State) (f : Svc → Svc) : (s.modSvc f).hwRel = s.hwRel := rfl
@[simp] theorem State.modSvc_sched (s : State) (f : Svc → Svc) : (s.modSvc f).sched = s.sched := rfl
@[simp] theorem State.modSvc_acceptSeq (s : State) (f : Svc → Svc) : (s.modSvc f).acceptSeq = s.acceptSeq := rfl
@[simp] theorem State.modSvc_stepped (s : State) (f : Svc → Svc) : (s.modSvc f).stepped = s.stepped := rfl
@[simp] theorem State.modSvc_heldWrites (s : State) (f : Svc → Svc) : (s.modSvc f).heldWrites = s.heldWrites := rfl
@[simp] theorem State.modSvc_refs (s : State) (f : Svc → Svc) : (s.modSvc f).refs = s.refs := rfl
@[simp] theorem State.modSvc_anchors (s : State) (f : Svc → Svc) : (s.modSvc f).anchors = s.anchors := rfl
@[simp] theorem State.modSvc_primary (s : State) (f : Svc → Svc) : (s.modSvc f).primary = s.primary := rfl
@[simp] theorem State.modSvc_primaryAt (s : State) (f : Svc → Svc) : (s.modSvc f).primaryAt = s.primaryAt := rfl
@[simp] theorem State.modSvc_initDone (s : State) (f : Svc → Svc) : (s.modSvc f).initDone = s.initDone := rfl
@[simp] theorem State.modSvc_alignRun (s : State) (f : Svc → Svc) : (s.modSvc f).alignRun = s.alignRun := rfl
@[simp] theorem State.modSvc_alignOver (s : State) (f : Svc → Svc) : (s.modSvc f).alignOver = s.alignOver := rfl
@[simp] theorem State.modSvc_ancEventAt (s : State) (f : Svc → Svc) : (s.modSvc f).ancEventAt = s.ancEventAt := rfl
@[simp] theorem State.modSvc_xferStamp (s : State) (f : Svc → Svc) : (s.modSvc f).xferStamp = s.xferStamp := rfl
@[simp] theorem State.modSvc_transfer (s : State) (f : Svc → Svc) : (s.modSvc f).transfer = s.transfer := rfl
@[simp] theorem State.modSvc_later (s : State) (f : Svc → Svc) : (s.modSvc f).later = s.later := rfl
@[simp] theorem State.modSvc_cores (s : State) (f : Svc → Svc) : (s.modSvc f).cores = s.cores := rfl
@[simp] theorem State.modSvc_outs (s : State) (f : Svc → Svc) : (s.modSvc f).outs = s.outs := rfl
@[simp] theorem State.modSvc_ras (s : State) (f : Svc → Svc) : (s.modSvc f).ras = s.ras := rfl
@[simp] theorem State.modSvc_stations (s : State) (f : Svc → Svc) : (s.modSvc f).stations = s.stations := rfl
@[simp] theorem State.modSvc_pgm (s : State) (f : Svc → Svc) : (s.modSvc f).pgm = s.pgm := rfl
@[simp] theorem State.modSvc_profs (s : State) (f : Svc → Svc) : (s.modSvc f).profs = s.profs := rfl
@[simp] theorem State.modSvc_shadows (s : State) (f : Svc → Svc) : (s.modSvc f).shadows = s.shadows := rfl
@[simp] theorem State.modSvc_check (s : State) (f : Svc → Svc) : (s.modSvc f).check = s.check := rfl
@[simp] theorem State.modSvc_statPins (s : State) (f : Svc → Svc) : (s.modSvc f).statPins = s.statPins := rfl
@[simp] theorem State.modSvc_lanes (s : State) (f : Svc → Svc) : (s.modSvc f).lanes = s.lanes := rfl
@[simp] theorem State.modSvc_lng (s : State) (f : Svc → Svc) : (s.modSvc f).lng = s.lng := rfl
@[simp] theorem State.modSvc_fleet (s : State) (f : Svc → Svc) : (s.modSvc f).fleet = s.fleet := rfl
@[simp] theorem State.modSvc_spareRows (s : State) (f : Svc → Svc) : (s.modSvc f).spareRows = s.spareRows := rfl
@[simp] theorem State.modSvc_fencedEntries (s : State) (f : Svc → Svc) : (s.modSvc f).fencedEntries = s.fencedEntries := rfl
@[simp] theorem State.modSvc_refills (s : State) (f : Svc → Svc) : (s.modSvc f).refills = s.refills := rfl
@[simp] theorem State.modSvc_cal (s : State) (f : Svc → Svc) : (s.modSvc f).cal = s.cal := rfl
@[simp] theorem State.modSvc_mon (s : State) (f : Svc → Svc) : (s.modSvc f).mon = s.mon := rfl
@[simp] theorem State.modSvc_bar (s : State) (f : Svc → Svc) : (s.modSvc f).bar = s.bar := rfl
@[simp] theorem State.modSvc_flash (s : State) (f : Svc → Svc) : (s.modSvc f).flash = s.flash := rfl
@[simp] theorem State.modSvc_otp (s : State) (f : Svc → Svc) : (s.modSvc f).otp = s.otp := rfl
@[simp] theorem State.modSvc_store (s : State) (f : Svc → Svc) : (s.modSvc f).store = s.store := rfl
@[simp] theorem State.modSvc_boot (s : State) (f : Svc → Svc) : (s.modSvc f).boot = s.boot := rfl
@[simp] theorem State.modSvc_hspi (s : State) (f : Svc → Svc) : (s.modSvc f).hspi = s.hspi := rfl
@[simp] theorem State.modSvc_mbx (s : State) (f : Svc → Svc) : (s.modSvc f).mbx = s.mbx := rfl
@[simp] theorem State.modSvc_pins (s : State) (f : Svc → Svc) : (s.modSvc f).pins = s.pins := rfl
@[simp] theorem State.modSvc_powering (s : State) (f : Svc → Svc) : (s.modSvc f).powering = s.powering := rfl
@[simp] theorem State.modSvc_reloads (s : State) (f : Svc → Svc) : (s.modSvc f).reloads = s.reloads := rfl
@[simp] theorem State.modSvc_readData (s : State) (f : Svc → Svc) : (s.modSvc f).readData = s.readData := rfl
@[simp] theorem State.modSvc_halted (s : State) (f : Svc → Svc) : (s.modSvc f).halted = s.halted := rfl
@[simp] theorem State.modSvc_calVals (s : State) (f : Svc → Svc) : (s.modSvc f).calVals = s.calVals := rfl
@[simp] theorem State.modSvc_at_reg (s : State) (f : Svc → Svc) (r0 : RegName) (i0 : Nat) : (s.modSvc f).reg r0 i0 = s.reg r0 i0 := rfl
@[simp] theorem State.modSvc_at_fld (s : State) (f : Svc → Svc) (f0 : Field) (i0 : Nat) : (s.modSvc f).fld f0 i0 = s.fld f0 i0 := rfl
@[simp] theorem State.modSvc_at_flag (s : State) (f : Svc → Svc) (f0 : Field) (i0 : Nat) : (s.modSvc f).flag f0 i0 = s.flag f0 i0 := rfl
@[simp] theorem State.modSvc_at_core (s : State) (f : Svc → Svc) (m : Nat) : (s.modSvc f).core m = s.core m := rfl
@[simp] theorem State.modSvc_at_out (s : State) (f : Svc → Svc) (m : Nat) : (s.modSvc f).out m = s.out m := rfl
@[simp] theorem State.modSvc_at_anc (s : State) (f : Svc → Svc) (m : Nat) : (s.modSvc f).anc m = s.anc m := rfl
@[simp] theorem State.modSvc_at_ref (s : State) (f : Svc → Svc) (m : Nat) : (s.modSvc f).ref m = s.ref m := rfl
@[simp] theorem State.modSvc_at_rasCh (s : State) (f : Svc → Svc) (m : Nat) : (s.modSvc f).rasCh m = s.rasCh m := rfl
@[simp] theorem State.modSvc_at_stn (s : State) (f : Svc → Svc) (m : Nat) : (s.modSvc f).stn m = s.stn m := rfl
@[simp] theorem State.modSvc_at_slotSt (s : State) (f : Svc → Svc) (m k0 : Nat) : (s.modSvc f).slotSt m k0 = s.slotSt m k0 := rfl
@[simp] theorem State.modSvc_at_win (s : State) (f : Svc → Svc) (m : Nat) : (s.modSvc f).win m = s.win m := rfl
@[simp] theorem State.modSvc_at_trig (s : State) (f : Svc → Svc) (m : Nat) : (s.modSvc f).trig m = s.trig m := rfl
@[simp] theorem State.modSvc_at_lane (s : State) (f : Svc → Svc) (m : Nat) : (s.modSvc f).lane m = s.lane m := rfl
@[simp] theorem State.modSvc_at_grp (s : State) (f : Svc → Svc) (m : Nat) : (s.modSvc f).grp m = s.grp m := rfl
@[simp] theorem State.modSvc_at_now (s : State) (f : Svc → Svc) : (s.modSvc f).now  = s.now := rfl
@[simp] theorem State.modSvc_at_power (s : State) (f : Svc → Svc) : (s.modSvc f).power  = s.power := rfl
@[simp] theorem State.modSvc_at_active (s : State) (f : Svc → Svc) : (s.modSvc f).active  = s.active := rfl
@[simp] theorem State.modSvc_at_up (s : State) (f : Svc → Svc) : (s.modSvc f).up  = s.up := rfl
/-! ## Reading an instance after writing it -/

@[simp] theorem State.core_modCore_self (s : State) (n : Nat) (f : Core → Core) (h : n < 26) :
    (s.modCore n f).core n = f (s.core n) := by
  simp [State.modCore, State.setCore, State.core, h]

theorem State.core_modCore_other (s : State) (n m : Nat) (f : Core → Core) (h : n ≠ m) :
    (s.modCore n f).core m = s.core m := by
  simp [State.modCore, State.setCore, State.core, h]

@[simp] theorem State.out_modOut_self (s : State) (n : Nat) (f : Output → Output) (h : n < 32) :
    (s.modOut n f).out n = f (s.out n) := by
  simp [State.modOut, State.setOut, State.out, h]

theorem State.out_modOut_other (s : State) (n m : Nat) (f : Output → Output) (h : n ≠ m) :
    (s.modOut n f).out m = s.out m := by
  simp [State.modOut, State.setOut, State.out, h]

@[simp] theorem State.anc_modAnc_self (s : State) (n : Nat) (f : Anchor → Anchor) (h : n < 2) :
    (s.modAnc n f).anc n = f (s.anc n) := by
  simp [State.modAnc, State.setAnc, State.anc, h]

theorem State.anc_modAnc_other (s : State) (n m : Nat) (f : Anchor → Anchor) (h : n ≠ m) :
    (s.modAnc n f).anc m = s.anc m := by
  simp [State.modAnc, State.setAnc, State.anc, h]

@[simp] theorem State.ref_modRef_self (s : State) (n : Nat) (f : RefInput → RefInput) (h : n < 5) :
    (s.modRef n f).ref n = f (s.ref n) := by
  simp [State.modRef, State.setRef, State.ref, h]

theorem State.ref_modRef_other (s : State) (n m : Nat) (f : RefInput → RefInput) (h : n ≠ m) :
    (s.modRef n f).ref m = s.ref m := by
  simp [State.modRef, State.setRef, State.ref, h]

@[simp] theorem State.rasCh_modRas_self (s : State) (n : Nat) (f : Raster → Raster) (h : n < 2) :
    (s.modRas n f).rasCh n = f (s.rasCh n) := by
  simp [State.modRas, State.setRas, State.rasCh, h]

@[simp] theorem State.stn_setStn_self (s : State) (n : Nat) (t : Station) (h : n < 8) : (s.setStn n t).stn n = t := by
  simp [State.setStn, State.stn, h]

@[simp] theorem State.stn_modStn_self (s : State) (n : Nat) (f : Station → Station) (h : n < 8) :
    (s.modStn n f).stn n = f (s.stn n) := by
  simp [State.modStn, h]

theorem State.stn_modStn_other (s : State) (n m : Nat) (f : Station → Station) (h : n ≠ m) :
    (s.modStn n f).stn m = s.stn m := by
  simp [State.modStn, State.setStn, State.stn, h]

@[simp] theorem State.win_modWin_self (s : State) (n : Nat) (f : FaultWindow → FaultWindow) (h : n < 97) :
    (s.modWin n f).win n = f (s.win n) := by
  simp [State.modWin, State.setWin, State.win, h]

theorem State.win_modWin_other (s : State) (n m : Nat) (f : FaultWindow → FaultWindow) (h : n ≠ m) :
    (s.modWin n f).win m = s.win m := by
  simp [State.modWin, State.setWin, State.win, h]

@[simp] theorem State.trig_modTrig_self (s : State) (n : Nat) (f : Trig → Trig) (h : n < 9) :
    (s.modTrig n f).trig n = f (s.trig n) := by
  simp [State.modTrig, State.trig, h]

@[simp] theorem State.lane_modLane_self (s : State) (n : Nat) (f : Lane → Lane) (h : n < 16) :
    (s.modLane n f).lane n = f (s.lane n) := by
  simp [State.modLane, State.setLane, State.lane, h]

theorem State.lane_modLane_other (s : State) (n m : Nat) (f : Lane → Lane) (h : n ≠ m) :
    (s.modLane n f).lane m = s.lane m := by
  simp [State.modLane, State.setLane, State.lane, h]

@[simp] theorem State.grp_modGrp_self (s : State) (n : Nat) (f : CalGroup → CalGroup) (h : n < 60) :
    (s.modGrp n f).grp n = f (s.grp n) := by
  simp [State.modGrp, State.grp, h]

/-! ## Registers and fields -/

@[simp] theorem State.reg_setReg_self (s : State) (r : RegName) (i : Nat) (v : Word) : (s.setReg r i v).reg r i = v :=
  RegFile.get_set_self _ _ _ _

theorem State.reg_setReg_other (s : State) (r : RegName) (i : Nat) (v : Word) (r' : RegName) (i' : Nat)
    (h : ¬(r = r' ∧ i = i')) : (s.setReg r i v).reg r' i' = s.reg r' i' :=
  RegFile.get_set_other _ _ _ _ _ _ h

/-- A field just stored reads its value, cut to its width. -/
theorem State.fld_setFld_self (s : State) (f : Field) (i v : Nat) (h : f.lo + f.width ≤ 32) :
    (s.setFld f i v).fld f i = v % 2 ^ f.width := by
  simp only [State.fld, State.setFld, State.reg_setReg_self]
  exact getBits_putBits_self _ _ _ _ h

/-- Storing a field leaves a field of another register, or apart from it, alone. -/
theorem State.fld_setFld_other (s : State) (f g : Field) (i j v : Nat) (h : g.lo + g.width ≤ 32)
    (hd : ¬(f.reg = g.reg ∧ i = j) ∨ g.lo + g.width ≤ f.lo ∨ f.lo + f.width ≤ g.lo) :
    (s.setFld f i v).fld g j = s.fld g j := by
  simp only [State.fld, State.setFld]
  by_cases hr : f.reg = g.reg ∧ i = j
  · obtain ⟨h1, rfl⟩ := hr
    rw [h1, State.reg_setReg_self]
    exact getBits_putBits_other _ _ _ _ _ _ h (hd.resolve_left fun c => c ⟨h1, rfl⟩)
  · rw [State.reg_setReg_other _ _ _ _ _ _ hr]

theorem State.fld_setReg_other (s : State) (r : RegName) (i : Nat) (v : Word) (g : Field) (j : Nat)
    (h : ¬(r = g.reg ∧ i = j)) : (s.setReg r i v).fld g j = s.fld g j := by
  simp only [State.fld, State.reg_setReg_other _ _ _ _ _ _ h]

/-- A counter bumped reads one more, saturating (R19). -/
theorem State.fld_bump_self (s : State) (f : Field) (i k : Nat) (h : f.lo + f.width ≤ 32) :
    (s.bump f i k).fld f i = satAdd (s.fld f i) f.width k := by
  have hp : 0 < 2 ^ f.width := Nat.two_pow_pos _
  rw [State.bump, State.fld_setFld_self _ _ _ _ h, Nat.mod_eq_of_lt]
  exact Nat.lt_of_le_of_lt (Nat.min_le_right _ _) (by omega)

/-- A sticky bit that hardware sets reads 1. -/
theorem State.flag_stick_self (s : State) (f : Field) (i : Nat) (h : f.lo + f.width ≤ 32) (hw : f.width = 1) :
    (s.stick f i).flag f i = true := by
  have := State.fld_setFld_self s f i 1 h
  rw [hw] at this
  exact beq_iff_eq.2 this

/-! ## Doing something for each number of a list -/

/-- What each step leaves alone, the whole leaves alone. -/
theorem State.each_keeps {α : Type} (p : State → α) (f : State → Nat → State) (h : ∀ s n, p (f s n) = p s) (s : State)
    (l : List Nat) : p (s.each l f) = p s := by
  induction l generalizing s with
  | nil => rfl
  | cons n l ih => simp only [State.each, ih, h]

/-- What each step keeps true, the whole keeps true. -/
theorem State.each_induct (P : State → Prop) (f : State → Nat → State) (h : ∀ s n, P s → P (f s n)) (s : State)
    (l : List Nat) (hs : P s) : P (s.each l f) := by
  induction l generalizing s with
  | nil => exact hs
  | cons n l ih => exact ih _ (h s n hs)

/-! ## The queue -/

@[simp] theorem State.withPending_pending (s : State) (q : List Instr) : ({ s with pending := q } : State).pending = q := rfl

end Sys2Proof.Machine
end

