-- ==== Sys2Proof/Laws/Port.lean ====
section
/-! SUPPORT. What a host write does once, for every register: an accepted one, and a refused one. -/

namespace Sys2Proof.Machine

/-- The address of an instance of a register names that instance: it is aligned, lies in a block, and no fault window and no
other register is there. -/
def placed (r : RegName) (i : Nat) : Bool :=
  decide (regAddr r i % 4 = 0) && inBlock (regAddr r i) && (faultAt (regAddr r i)).isNone
    && decide (regAt (regAddr r i) = some (r, i))

theorem writesRefused_of_serves (s : State) (a : Nat) (h : s.serves = true) : s.writesRefused a = false := by
  simp only [State.serves, Bool.and_eq_true, Bool.not_eq_true', beq_iff_eq, bne_iff_ne, ne_eq] at h
  simp [State.writesRefused, h.1.1.1.2, h.1.1.2, h.1.2]

/-- With no load or restart due, SYNC_IN has nothing to do. -/
theorem syncAll_of_none (s : State) (h : s.syncDue.all (fun d => decide (s.now < d.due)) = true) : s.syncAll = s := by
  have e : ∀ p, s.dueEdge p = none := by
    intro p
    simp only [State.dueEdge]
    split
    · rw [List.find?_eq_none]
      intro d hd
      have := List.all_eq_true.1 h d hd
      simp only [decide_eq_true_eq] at this
      simp only [Bool.and_eq_true, decide_eq_true_eq, not_and]
      intro _; omega
    · rfl
  have f : s.syncRestartDue.syncLoadDue = s := by simp [State.syncRestartDue, State.syncLoadDue, e]
  have g : ∀ l : List SyncDue, l.foldl (fun s _ => s.syncRestartDue.syncLoadDue) s = s := by
    intro l
    induction l with
    | nil => rfl
    | cons d l ih => rw [List.foldl_cons, f, ih]
  exact g _

/-- With nothing due of step 1 before it, a write meets the state as it is. -/
theorem stepOne_of_turn (s : State) (h : s.itsTurn = true) : s.stepOne = s := by
  simp only [State.itsTurn, Bool.and_eq_true, Bool.or_eq_true, Bool.not_eq_true', List.isEmpty_iff] at h
  unfold State.stepOne
  split
  · next hc =>
    simp only [Bool.and_eq_true] at hc
    obtain ⟨_, h | ⟨h1, h2⟩⟩ := h
    · simp [h] at hc
    · rw [syncAll_of_none s h1]
      show s.dueWrites.foldl State.releaseDue s = s
      rw [h2]; rfl
  · rfl

theorem turn_of_serves (s : State) (h : s.serves = true) : s.itsTurn = true := by
  simp only [State.serves, Bool.and_eq_true] at h; exact h.2

theorem not_held_of_serves (s : State) (h : s.serves = true) : s.holdsWrites = false := by
  have := turn_of_serves s h
  simp only [State.itsTurn, Bool.and_eq_true, Bool.not_eq_true'] at this
  simp [State.holdsWrites, this.1]

/-- A write to a register goes to the register's own rule. -/
theorem writeAt_placed (s : State) (r : RegName) (i : Nat) (w : Word) (h : s.serves = true) (hp : placed r i = true)
    (hk : ((regSpec r).wk && getBits w 24 8 != 0xA5) = false) :
    s.writeAt (regAddr r i) w =
      match s.writeReg r i w with
      | (.ok, s') => (.ok, s'.enterSaved r i w)
      | x => x := by
  simp only [placed, Bool.and_eq_true, decide_eq_true_eq, Option.isNone_iff_eq_none] at hp
  obtain ⟨⟨⟨h1, h2⟩, h3⟩, h4⟩ := hp
  have hk' : keyMissing (regAddr r i) w = false := by simp only [keyMissing, h4]; exact hk
  simp only [State.writeAt, writesRefused_of_serves s _ h, h1, h2, h3, h4, hk']
  rcases h : s.writeReg r i w with ⟨st, u⟩
  cases st <;> simp

/-- What is saved of a register changes the fleet's set or the store, and nothing else. -/
theorem enterSaved_form (s : State) (r : RegName) (i : Nat) (w : Word) :
    ∃ fl st, s.enterSaved r i w = { s with fleet := fl, store := st } := by
  unfold State.enterSaved State.setEnter
  split
  · split
    · exact ⟨_, s.store, rfl⟩
    · exact ⟨s.fleet, s.store, rfl⟩
  · split
    · exact ⟨s.fleet, _, rfl⟩
    · exact ⟨s.fleet, s.store, rfl⟩

/-- Noting a change of the consistency set changes the digest's state, and nothing else. -/
theorem noteSet_form (s old : State) : ∃ fl, s.noteSet old = { s with fleet := fl } := by
  unfold State.noteSet
  split
  · exact ⟨s.fleet, rfl⟩
  · exact ⟨_, rfl⟩

/-- An accepted write leaves what the register's own rule leaves, with the saved value, the digest, TIME_HWREL and LASTW
beside it. -/
theorem portWrite_ok (s u : State) (r : RegName) (i : Nat) (w : Word) (h : s.serves = true) (hp : placed r i = true)
    (hk : ((regSpec r).wk && getBits w 24 8 != 0xA5) = false) (hw : s.writeReg r i w = (.ok, u)) :
    ∃ fl st, s.portWrite (regAddr r i) w =
      { u with fleet := fl, store := st, hwRel := s.now, hspi := { u.hspi with lastw := 0 } } := by
  have hs : s.hostServes = true := by
    simp only [State.serves, Bool.and_eq_true] at h
    exact h.1.1.1.1
  obtain ⟨f1, s1, he⟩ := enterSaved_form u r i w
  obtain ⟨f2, hn⟩ := noteSet_form { u with fleet := f1, store := s1 } s
  have ha : s.writeAddr (regAddr r i) w = (.ok, { u with fleet := f2, store := s1 }) := by
    simp only [State.writeAddr, writeAt_placed s r i w h hp hk, hw, he]
    rw [hn]
  refine ⟨f2, s1, ?_⟩
  simp only [State.portWrite, hs, not_held_of_serves s h, stepOne_of_turn s (turn_of_serves s h), State.hostWrite, ha,
    State.modHspi]
  simp [WStatus.code]

/-- A write that the register's rule refuses with a status other than KEYERR leaves the state that rule leaves, with LASTW
and HSPI_STAT beside it. -/
theorem portWrite_refused (s u : State) (r : RegName) (i : Nat) (w : Word) (st : WStatus) (h : s.serves = true)
    (hp : placed r i = true) (hk : ((regSpec r).wk && getBits w 24 8 != 0xA5) = false) (hw : s.writeReg r i w = (st, u))
    (h1 : st ≠ .ok) (h2 : st ≠ .keyerr) :
    s.portWrite (regAddr r i) w = (u.modHspi fun x => { x with lastw := st.code }).hspiError (regAddr r i) st.code := by
  have hs : s.hostServes = true := by
    simp only [State.serves, Bool.and_eq_true] at h
    exact h.1.1.1.1
  have ha : s.writeAddr (regAddr r i) w = (st, u) := by
    simp only [State.writeAddr, writeAt_placed s r i w h hp hk, hw]
    cases st <;> simp_all
  simp only [State.portWrite, hs, not_held_of_serves s h, stepOne_of_turn s (turn_of_serves s h), State.hostWrite, ha]
  cases st <;> simp_all

/-- The registers that rows of the operation table write or read. -/
def commandRegs : List RegName :=
  [.ANC_CMD, .ANC_CFG, .ANC_COREMAP, .CORE_CMD, .CORE_SPAREMAP, .STN_MAP, .STN_CFG, .STN_OUTMASK, .PROF_CMD, .SEQ_CTL, .PGM_DATA,
   .PGM_CMD, .OUT_CFG, .OUT_DELAY, .OUT_DSET01, .OUT_DSET23, .OUT_STAT, .OUT_SYSREF, .RAS_CFG, .RAS_CTL, .LN_CFG]
  ++ [.FLOW_DATA, .LNG_CMD, .LNG_C1WORD, .FLT_RQ_CTL, .FLT_LOGCTL, .CAL_CMD, .CAL_TDATA, .MON_INJCMD, .MON_SCAN_LO, .MON_SCAN_HI,
   .MON_RES_A, .MON_INJ_A, .PWR_CMD, .STORE_CMD, .UPD_CMD, .TIME_NOW_LO, .TIME_SYNCCMD, .SCHED_CTL, .TRIG_STAT]

theorem commandRegs_placed :
    (commandRegs.all fun r => (List.range (regSpec r).count).all (placed r)) = true := by decide +kernel

/-- An instance of a register that a row writes or reads is placed. -/
theorem placed_of_command (r : RegName) (i : Nat) (h : commandRegs.contains r = true) (hi : i < (regSpec r).count) :
    placed r i = true := by
  have := List.all_eq_true.1 (List.all_eq_true.1 commandRegs_placed r (by simpa using h)) i (List.mem_range.2 hi)
  exact this

end Sys2Proof.Machine
end

