-- ==== Sys2Proof/Tests/Slice0.lean ====
section
/-! SUPPORT. The model's own tests: ill-formed operands, small runs of one command, worked values of the manual, and for each
statement a state and operands that meet its hypotheses. -/

namespace Sys2Proof.Tests

set_option Elab.async false

open Sys2Proof.Machine

/-- A device that has started: STANDBY at DONE. -/
def standby : State := { State.reset.setFld Fields.STORE_START_STAGE 0 6 with elapsed := 100000 }

/-- A reference input enabled at 10 MHz and qualified. -/
def reference (s : State) (r : Nat) : State :=
  (((s.setFld Fields.REF_CFG_EN r 1).setReg .REF_RATIO_NUM r 800#32).setReg .REF_RATIO_DEN r 1#32).modRef r fun x =>
    { x with qualified := true, active := true, inAccept := true, qualFrom := some 0 }

/-- An ACTIVE device whose timeline runs, steered by anchor 0 on REFA and followed by anchor 1 on REFB. -/
def active : State :=
  let s := reference (reference (standby.setFld Fields.PWR_STATE_STATE 0 3) 0) 1
  let s := (((s.setFld Fields.ANC_CFG_EN 0 1).setFld Fields.ANC_CFG_EN 1 1).setFld Fields.ANC_CFG_REFSEL 0 0).setFld
    Fields.ANC_CFG_REFSEL 1 1
  let s := ((s.setFld Fields.ANC_GLOBAL_DUAL 0 1).setFld Fields.TIME_STATE_SRC 0 1).setFld Fields.TIME_STATE_COND 0 0
  let a : Anchor := { Anchor.reset with state := .steered, inner := true, outer := true, hasTick := true, copy := 100000 }
  { s with
    count := 100000, primary := some 0, initDone := true, alignRun := 5000
    anchors := #v[a, { a with state := .following, secondary := true }] }

theorem witness_TicksAdvanceAndTimesRunOut :
    (active.pins.aon = true ∧ active.svc.restart = false ∧ active.later = [] ∧ active.heldWrites = [] ∧
     ∀ a : Fin 2, (active.anc a).hasTick = true) ∧
    (let s : State := { ((standby.setFld Fields.ANC_CFG_EN 0 1).modAnc 0 fun a => { a with state := .innerLocked, inner := true }) with
       primary := some 0 }
     s.pins.aon = true ∧ s.svc.restart = false ∧ s.later = [] ∧ s.heldWrites = [] ∧ (s.anc 1).inner = false ∧ s.primary = some 0 ∧
     s.timeSrc = 0 ∧ (s.anc 0).inner = true ∧ (s.anc 0).hasTick = false ∧ (s.anc 0).state = .innerLocked) ∧
    ({ active with pins := { active.pins with aon := false } } : State).pins.aon = false ∧
    (let s := active.modCore 3 fun x => { x with glide := some { (default : Glide) with ks := 99000, gtime := 1000 } }
     (s.core 3).glide = some { (default : Glide) with ks := 99000, gtime := 1000 } ∧ 99000 + 1000 ≤ s.now) ∧
    (let s := active.modCore 25 fun x => { x with idleUntil := some 100000 }
     (s.core 25).idleUntil = some 100000 ∧ 100000 ≤ s.elapsed ∧ s.elapsed < 100001) := by decide +kernel
/-! ## The timeline -/

/-- An effect of a station's queue for tests: GATE of the outputs of a mask. -/
def gateAt (k : Nat) : Effect := ⟨1, 0#14, .outg false 0xFF#32, k, none, 0⟩

/-- Station 2 runs, with one effect in its queue. -/
def running (k : Nat) : State := active.modStn 2 fun t => { t with run := .running, queue := [gateAt k] }

theorem witness_EffectsAreReleased :
    (let s := (running 100000).stepOne
     (running 100000).halted = false ∧ s.counting = true ∧ (∀ m : Fin 8, m ≠ 2 → (s.stn m).queue = []) ∧ (s.stn 2).queue = [gateAt 100000] ∧
     (s.stn 2).run = .running ∧ (gateAt 100000).tick = s.now ∧ s.effectReady 2 (gateAt 100000) = true) ∧
    (let s := running 99999
     s.counting = true ∧ (s.stn 2).run = .running ∧ (s.stn 2).queue = [gateAt 99999] ∧ (gateAt 99999).tick < s.now ∧ s.effectReady 2 (gateAt 99999) = true) ∧
    (let s := (running 100001).stepOne
     (s.stn 2).queue = [gateAt 100001] ∧ s.now < (gateAt 100001).tick ∧ ∀ m : Fin 8, m ≠ 2 → (s.stn m).queue = []) ∧
    (let w : ColdWait := ⟨0, 100000, 1#32⟩
     let s := (active.modStn 2 fun t => { t with colds := [w] }).setReg .STN_MAP 2 7#32 |>.modCore 7
       fun x => { x with state := .locked, lockAt := some 0 }
     (s.stn 2).colds = [w] ∧ s.coldDue 2 w = true) := by decide +kernel

theorem witness_HostAccesses :
    active.serves = true ∧ RegName.GLB_SCRATCH ∈ plainRegs ∧ 0 < (regSpec .GLB_SCRATCH).count ∧
    (0x000E#16).toNat % 4 ≠ 0 ∧ inBlock (0x000E#16).toNat = true ∧ inBlock (0x3000#16).toNat = false ∧ getBits 1#32 24 8 ≠ 0xA5 ∧
    ({ active with pins := { active.pins with aon := false } } : State).hostServes = false ∧ active.power ≠ 4 ∧
    (let s : State := { active with stepped := true }
     s.hostServes = true ∧ s.stepped = true ∧ s.halted = false) := by decide +kernel

/-- An open arming window. -/
def armed (x : SyncWindow) : State := { active with sync := some x }

theorem witness_SyncWindowAndEdge :
    active.serves = true ∧ active.sync = none ∧ active.loadArmed = false ∧ active.loadAllowed = true ∧
    (let x : SyncWindow := ⟨some 100000, false, true, false⟩
     (armed x).sync = some x ∧ (armed x).loadArmed = false ∧ (armed x).loadAllowed = true ∧ 100000 ≤ (armed x).elapsed) ∧
    (let x : SyncWindow := ⟨some 100001, false, true, true⟩
     (armed x).loadArmed = true ∧ (armed x).elapsed < 100001) ∧
    (let x : SyncWindow := ⟨none, false, true, true⟩
     let s := (armed x).setFld Fields.TRIG_CFG_EN 8 1
     s.up = true ∧ s.trigOn 8 = true ∧ s.minWidth 8 ≤ 2 ∧ (s.trig 8).since + s.minWidth 8 ≤ s.elapsed ∧ (s.trig 8).lastAt = none ∧ s.sync = some x ∧ x.counted = false) ∧
    (let s : State := { active with syncDue := [⟨99950, 100000, true, true⟩] }
     s.dueEdge SyncDue.restart = some ⟨99950, 100000, true, true⟩ ∧ s.anyRunning = false) ∧
    (let s : State := { active with syncDue := [⟨99950, 100000, false, true⟩] }
     s.dueEdge (fun d => d.load && !d.restart) = some ⟨99950, 100000, false, true⟩ ∧ s.loadAllowed = true) ∧
    (let s : State := { running 100001 with syncDue := [⟨99950, 100000, false, true⟩] }
     s.dueEdge (fun d => d.load && !d.restart) = some ⟨99950, 100000, false, true⟩ ∧ s.loadAllowed = false) := by decide +kernel

/-- A write to OUT_DELAY of OUT3 that SCHED_GO would queue for a tick. -/
def scheduling (k : Nat) : State :=
  (((active.setReg .SCHED_ADDR 0 (BitVec.ofNat 32 (regAddr .OUT_DELAY 3))).setReg .SCHED_TICK_LO 0 (loWord k)).setReg
    .SCHED_TICK_HI 0 (hiWord k))

theorem witness_ScheduledWrites :
    (let s := scheduling 100016
     s.serves = true ∧ schedulable (s.fld Fields.SCHED_ADDR_ADDR 0) = true ∧
     keyMissing (s.fld Fields.SCHED_ADDR_ADDR 0) (s.reg .SCHED_DATA 0) = false ∧
     s.now + 16 ≤ ofWords (s.reg .SCHED_TICK_LO 0) (s.reg .SCHED_TICK_HI 0) ∧ s.sched.length < 8) ∧
    (let s := scheduling 100015
     ofWords (s.reg .SCHED_TICK_LO 0) (s.reg .SCHED_TICK_HI 0) < s.now + 16) ∧
    (let s := { scheduling 100016 with sched := List.replicate 8 ⟨regAddr .OUT_DELAY 3, 5#32, 100016, 0⟩ }
     s.serves = true ∧ 8 ≤ s.sched.length) ∧
    schedulable (active.fld Fields.SCHED_ADDR_ADDR 0) = false ∧
    (let e : SchedWrite := ⟨regAddr .OUT_DELAY 3, 5#32, 100000, 0⟩
     let s := { active with sched := [e] }
     s.counting = true ∧ s.halted = false ∧ s.syncDue = [] ∧ s.sched.filter (· != e) = [] ∧ s.sched = [e] ∧ e.tick ≤ s.now ∧
     s.fleet.changes = [] ∧ (({ s with sched := [] } : State).writeAddr e.addr e.data).1 = .ok) ∧
    (active.syncDue = [] ∧ active.sched = [] ∧ active.fleet.changes = [] ∧ standby.counting = false) := by
  decide +kernel

theorem witness_TriggerQualifier :
    (let s := active.setFld Fields.TRIG_CFG_EN 0 1
     s.up = true ∧ s.trigOn 0 = true ∧ s.minWidth 0 ≤ s.minWidth 0 ∧ (s.trig 0).since + s.minWidth 0 ≤ s.elapsed ∧ (s.trig 0).lastAt = none ∧ s.anyRunning = false ∧
     s.flag Fields.TRIG_CFG_EN 0 = true ∧ s.minWidth 0 - 1 < s.minWidth 0) ∧
    (let s := (active.setFld Fields.TRIG_CFG_EN 7 1).modStn 1 fun t => { t with run := .running, enabled := [7] }
     (s.stn 1).running = true ∧ (s.stn 1).enabled.contains 7 = true ∧ (s.stn 1).events = [] ∧ (s.stn 1).mark 7 < s.now) ∧
    (let s := ((active.setFld Fields.TRIG_CFG_EN 0 1).setFld Fields.TRIG_CFG_SPACE 0 10).modTrig 0 fun t => { t with lastAt := some 99991 }
     (s.trig 0).lastAt = some 99991 ∧ s.elapsed - 99991 < s.fld Fields.TRIG_CFG_SPACE 0) ∧
    (let s := (active.setFld Fields.TRIG_CFG_EN 8 1).setFld Fields.TRIG_LIMIT_STUCK 8 1
     s.trigOn 8 = true ∧ s.fld Fields.TRIG_LIMIT_STUCK 8 ≠ 0) ∧
    (active.setFld Fields.TRIG_STAT_FENCED 8 1).flag Fields.TRIG_STAT_FENCED 8 = true ∧
    (((active.modTrig 8 fun t => { t with rearm := true }).trig 8).rearm = true) := by decide +kernel

/-! ## References and anchors -/

theorem witness_ReferenceQualification :
    (active.up = true ∧ active.flag Fields.REF_CFG_EN 0 = true ∧ (active.ref 0).qualified = true ∧
      active.edgeMissing 0 1000000 = true ∧ active.edgeMissing 0 0 = false ∧
      active.fld Fields.REF_FWIN_REJECT 0 * 10 < (((active.fld Fields.REF_FWIN_REJECT 0 * 10 + 1 : Nat) : Int)).natAbs) ∧
    (let s := (reference active 4).modRef 4 fun x => { x with qualified := false }
     let s := { s with elapsed := s.qualTicks 4 }
     (s.ref 4).qualified = false ∧ (s.ref 4).held = false ∧ (0 : Int).natAbs ≤ s.fld Fields.REF_FWIN_ACCEPT 4 * 10 ∧
     (s.ref 4).qualFrom = some 0 ∧ 0 + s.qualTicks 4 ≤ s.elapsed ∧ s.refRatioOk 4 = true ∧
     s.fld Fields.REF_FWIN_ACCEPT 4 * 10 < s.fld Fields.REF_FWIN_ACCEPT 4 * 10 + 1 ∧
     s.fld Fields.REF_FWIN_ACCEPT 4 * 10 + 1 ≤ s.fld Fields.REF_FWIN_REJECT 4 * 10) := by decide +kernel

theorem witness_AnchorLocksAndLosses :
    (let s := active.modAnc 1 fun a => { a with state := .failed, inner := false }
     s.up = true ∧ (s.anc 1).state = .failed ∧ (s.anc 1).inner = false ∧ 0 ≤ s.innerWindow 1 ∧ s.innerCount 1 ≤ 20000) ∧
    (let s : State := { (standby.setFld Fields.ANC_CFG_EN 0 1).modAnc 0 fun a => { a with state := .innerAcq } with primary := none }
     s.up = true ∧ (s.anc 0).state = .innerAcq ∧ (s.anc 0).inner = false ∧ s.primary = none ∧ s.mayLead 0 = true ∧ s.innerCount 0 ≤ 20000 ∧
     s.innerWindow 0 < 1000000) ∧
    (let s := active.modAnc 1 fun a => { a with state := .innerAcq, inner := false }
     (s.anc 1).state = .innerAcq ∧ (s.anc 1).inner = false ∧ s.innerCount 1 ≤ 20000 ∧ s.carrier = some 0 ∧ s.dual = true ∧ s.initDone = true) ∧
    (active.up = true ∧ (active.anc 0).state ≠ .failed ∧ (active.anc 0).inner = true ∧ (active.anc 0).outer = true ∧
      active.innerWindow 0 < 1000000 ∧ active.outerWindow 0 < 1000000 ∧ 8 ≤ 16) ∧
    (let s := active.setReg .ANC_STEER 0 0x7FFFFFFF#32
     (s.anc 0).outer = true ∧ s.atSteerLimit 0 = true) ∧
    (let s := active.modAnc 1 fun a => { a with outer := false }
     s.primary ≠ some (1 : Fin 2).val ∧ (s.anc 1).state = .following ∧ (s.anc 1).outer = false ∧ s.mayAcquire 1 = true ∧
     s.atSteerLimit 1 = false ∧ s.outerDistance 1 ≤ 0 ∧ s.outerCount 1 ≤ 100000000) ∧
    (let s := active.modAnc 0 fun a => { a with state := .outerAcq, outer := false }
     s.primary = some 0 ∧ (s.anc 0).state = .outerAcq ∧ s.mayAcquire 0 = true ∧ s.atSteerLimit 0 = false ∧
     s.outerDistance 0 ≤ 0 ∧ s.outerCount 0 ≤ 100000000 ∧ (s.anc 0).outer = false) ∧
    (let s := active.setReg .ANC_PERR 0 2000000#32
     (s.anc 0).outer = true ∧ s.outerWindow 0 < 1000000 ∧ (1000000 : Rat) ≤ s.outerDistance 0) := by decide +kernel

theorem witness_AnchorRolesAndEnables :
    (let s : State := { active.setFld Fields.ANC_GLOBAL_PRIMARY_INIT 0 1 with initDone := false }
     s.up = true ∧ s.primary = some 0 ∧ s.dual = true ∧ s.initDone = false ∧ 0 ≠ s.fld Fields.ANC_GLOBAL_PRIMARY_INIT 0 ∧
     s.ancReady (otherAnc 0) = true ∧ s.serves = true ∧ s.transfer = none) ∧
    (let s : State := { active with transfer := some ⟨0, [3]⟩ }
     s.serves = true ∧ s.transfer.isSome = true) ∧
    (let s := active.modAnc 1 fun a => { a with state := .failed }
     s.ancReady (otherAnc 0) = false ∧ (s.anc 1).state = .failed) ∧
    (let s := (active.setFld Fields.ANC_CFG_AUTOREJOIN 1 1).modAnc 1 fun a => { a with state := .failed, inner := true }
     s.autoRejoinDue 1 = true) ∧
    (let s := (active.setFld Fields.ANC_CFG_EN 1 0).modAnc 1 fun a => { a with state := .off }
     s.flag Fields.ANC_CFG_EN 1 = false ∧ (s.anc 1).state = .off ∧ s.innerOk 1 = true) ∧
    active.flag Fields.ANC_CFG_EN 1 = true ∧
    (∀ c : Fin 26, active.coreOwned c = false) ∧ (active.anc 0).state.drives = true ∧ (active.anc 1).state.drives = true ∧
    (let s := (active.modCore 5 fun x => { x with role := .live, station := 2 }).modStn 2
       fun t => { t with run := .running, guaranteed := true }
     s.coreOwned 5 = true ∧ bitOf 0x20#32 5 ≠ bitOf (s.reg .ANC_COREMAP 0) 5) := by decide +kernel

theorem witness_AlignmentAndTdcChecks :
    (let s := active.setReg .ANC_ALIGN 0 (BitVec.ofInt 32 (-(active.alignTrip + 1)))
     s.up = true ∧ s.follower = some 1 ∧ s.alignOver = none ∧ s.ancEventAt ≠ some s.elapsed ∧ s.alignTrip < (intOfWord (s.reg .ANC_ALIGN 0)).natAbs) ∧
    ({ active with ancEventAt := some 100000 } : State).ancEventAt = some active.elapsed ∧
    (let s : State := { active with alignOver := some 99000 }
     s.up = true ∧ s.alignOver = some 99000 ∧ 99000 + 1000 ≤ s.elapsed) ∧
    (active.anc 0).hasTick = true ∧ (active.anc 0).tdcActive = true ∧ (active.anc 0).tdcSpare = true ∧
    (active.anc 0).tdcChecking = false ∧
    (((active.modAnc 0 fun a => { a with tdcChecking := true }).anc 0).tdcChecking = true) ∧
    (let s := active.modAnc 0 fun a => { a with tdcSpare := false }
     s.up = true ∧ (s.anc 0).tdcActive ≠ (s.anc 0).tdcSpare) := by decide +kernel

/-! ## Cores -/

/-- Core 5 is enabled and in a state, its staged setting 10 GHz. -/
def core5 (st : CoreSt) : State :=
  ((active.setFld Fields.CORE_CFG_EN 5 1).setReg .CORE_NBAND 5 0x0001_5014#32).modCore 5 fun x =>
    { x with state := st, acqAt := 90000, applied := ⟨21, 1, 8⟩ }

/-- Core 5 belongs to station 2, which runs a guaranteed program. -/
def owned5 : State :=
  ((core5 .locked).modCore 5 fun x => { x with role := .live, station := 2 }).modStn 2
    fun t => { t with run := .running, guaranteed := true }

theorem witness_CoreCommands :
    (let s := core5 .idle
     s.serves = true ∧ s.active = true ∧ s.settingOwned 5 = false ∧ (s.core 5).role ≠ .fenced ∧ (s.staged 5).valid = true ∧
     s.flag Fields.CORE_CFG_EN 5 = true ∧ (s.staged 5).sameFreq (s.core 5).applied = false ∧
     (s.core 5).state = .idle) ∧
    ((((core5 .idle).setReg .CORE_NBAND 5 13#32).staged 5).valid = false) ∧
    owned5.serves = true ∧ owned5.settingOwned 5 = true ∧
    standby.serves = true ∧ standby.settingOwned 5 = false ∧ standby.active = false ∧
    ((core5 .locked).settingOwned 5 = false ∧ ((core5 .locked).core 5).state = .locked) ∧
    (let s := ((core5 .idle).setFld Fields.CORE_CFG_BANDMODE 5 1)
     s.bandMode 5 ≠ .forced ∧ (s.core 5).state = .idle) ∧
    ((core5 .select).core 5).state = .select ∧
    (active.anyRunning = false ∧ (∀ c : Fin 26, bitOf 0x3000010#32 c = true → active.mapOwner c = none ∧ (active.core c).role ≠ .fenced) ∧
     ∀ c : Fin 26, (active.core c).racingFor = none ∧ (active.core c).reassign = none) ∧
    owned5.anyRunning = true := by decide +kernel

theorem witness_AcquisitionRuns :
    ((core5 .select).up = true ∧ (core5 .select).bandAdmitted 5 = true ∧ ((core5 .select).core 5).role ≠ .fenced) ∧
    (let s := (core5 .acquire).modCore 5 fun x => { x with fastUntil := some 100000 }
     (s.core 5).fastUntil = some 100000 ∧ (s.core 5).state = .acquire ∧ 100000 ≤ s.elapsed) ∧
    (let s := (core5 .acquire).modCore 5 fun x => { x with countFrom := some 50000, bandChosen := true, inWin := 100000 }
     s.lockAdmitted 5 = true ∧ (s.core 5).racingFor = none) ∧
    (let k := 100000 - active.fld Fields.CORE_CFG_UGHOLD 5 * 64
     let s := (core5 .locked).modCore 5 fun x => { x with lockAt := some k }
     (s.core 5).lockAt = some k ∧ (s.core 5).state = .locked ∧ (s.core 5).holdDone = false ∧ (s.core 5).role ≠ .fenced ∧
     k + s.fld Fields.CORE_CFG_UGHOLD 5 * 64 ≤ s.elapsed) ∧
    (let s := (core5 .acquire).modCore 5 fun x => { x with acqAt := 67232 }
     s.timeoutAdmitted 5 = true ∧ (s.core 5).acqMode = .table ∧ (s.core 5).acqRestarted = false) ∧
    (let s := (core5 .acquire).modCore 5 fun x => { x with acqAt := 67232, acqRestarted := true, acqMode := .search }
     s.timeoutAdmitted 5 = true ∧ (s.core 5).acqMode ≠ .table) ∧
    (let s := (core5 .lost).modCore 24 fun x => { x with racingFor := some 5, state := .acquire, acqAt := 67232 }
     (s.core 24).racingFor = some 5 ∧ s.racer 5 = some 24 ∧ (s.core 24).state ≠ .locked ∧ (s.core 24).acqAt + 32768 ≤ s.elapsed) := by
  decide +kernel

theorem witness_CoreLossAndSpares :
    (let s := (core5 .locked).modCore 5 fun x => { x with outWin := 65536, tdcFails := 2 }
     s.up = true ∧ (s.core 5).state = .locked ∧ (s.core 5).role ≠ .fenced ∧ s.lossCount 5 ≤ (s.core 5).outWin ∧
     2 ≤ (s.core 5).tdcFails ∧ s.later.contains (.core 5 true) = false ∧
     s.later.contains (.core 5 false) = false) ∧
    (let s := (active.modCore 24 fun x => { x with reassign := some 5 }).modCore 5 fun x =>
       { x with state := .fenced, role := .fenced, fencedRole := .live }
     s.up = true ∧ (s.core 24).reassign = some 5) := by decide +kernel

/-! ## Quilvo -/

/-- Station 2 runs, and the word at its pc is that of an instruction. -/
def quilvo (i : QInstr) : State :=
  { running 200000 with pgm := [⟨2 * 16384, i.encode⟩] }

/-- The guard that always passes. -/
def always : Guard := ⟨false, 0⟩

theorem witness_QuilvoDecodeOfEncode :
    (⟨⟨true, 3⟩, .evtst 1 2 94 true⟩ : QInstr).wf = true ∧ (⟨always, .cmpi 3 .geu 15 0x3FFF⟩ : QInstr).wf = true := by decide

theorem witness_QuilvoArithmetic :
    (∀ i ∈ [QOp.add 3 1 2, .sub 0 1 2, .and 15 1 2, .or 3 1 2, .xor 3 1 2, .shl 3 1 2, .shr 3 1 2, .addi 3 1 0x7FFF, .andi 3 1 5,
       .ori 3 1 5, .xori 3 1 5, .shli 3 1 31, .shri 3 1 0, .ldi 3 false 0xFFFF, .ldi 3 true 1],
      (quilvo ⟨always, i⟩).mayRun 2 ⟨always, i⟩) := by unfold State.mayRun; decide +kernel

theorem witness_QuilvoPredicatesAndTicks :
    (∀ i ∈ [QOp.cmp 1 .lt 1 2, .cmpi 2 .geu 1 0x3FFF, .plog 3 1 2 true false .xor, .taddi 1 0 0x7FFFF, .taddr 1 0 2 31, .tset 1 2 3,
       .tget 0 1 true, .tget 3 1 false, .tcmp 1 0 2 .ltu],
      (quilvo ⟨always, i⟩).mayRun 2 ⟨always, i⟩) := by unfold State.mayRun; decide +kernel

theorem witness_QuilvoFlow :
    (∀ i ∈ [QOp.nop, .br .none 0x3FFF, .call 7, .ret, .loop 1 5, .ldlc 0 (.imm 0xFFFF), .ldlc 1 (.reg 3), .lkmov true 4, .lkmov false 4],
      (quilvo ⟨always, i⟩).mayRun 2 ⟨always, i⟩) ∧
    ((((quilvo ⟨always, .loop 1 5⟩).stn 2).thread.regs.lcv 1).val.toNat ≤ 1) ∧
    (let s := (quilvo ⟨always, .loop 1 5⟩).modStn 2 fun t =>
       { t with thread := { t.thread with regs := { t.thread.regs with lc := #v[⟨0, none, none⟩, ⟨2, none, none⟩] } } }
     s.mayRun 2 ⟨always, .loop 1 5⟩ ∧ 1 < ((s.stn 2).thread.regs.lcv 1).val.toNat) ∧
    (let g : Guard := ⟨false, 1⟩
     let s := quilvo ⟨g, .add 1 2 3⟩
     (s.stn 2).mayExecute = true ∧ (s.stn 2).thread.inWindow < 64 ∧
     s.refilling 2 (s.stn 2).thread.regs.pc = false ∧
     decodeQ (s.pgmWord 2 (s.stn 2).thread.regs.pc) = some ⟨g, .add 1 2 3⟩ ∧ ((s.stn 2).thread.regs.pv g.p).base = none ∧
     g.passes ((s.stn 2).thread.regs.pv g.p).val = false ∧ (s.stn 2).thread.regs.pc ≠ lastPc) := by
  unfold State.mayRun; decide +kernel

theorem witness_QuilvoEffectsAreNamed :
    (∀ i ∈ [QOp.cold 1 .s0 (.reg 3), .glide 1 .s0 (.imm 7), .outg 1 2 true, .dset 1 2 3, .divrst 1 2,
       .sysref 1 2 .request, .stat 1 3 1, .send0 1 2 3 0 5, .send1 1 2 3 0, .halt 1, .idle 1 .s0 100],
      ((quilvo ⟨always, i⟩).setReg .STN_MAP 2 0x8000#32).mayRun 2 ⟨always, i⟩) ∧
    (let i : QInstr := ⟨always, .swap 1 .s0 (.imm 0xFFF)⟩
     ((quilvo i).setFld Fields.STN_CFG_MODE 2 1).mayRun 2 i) := by unfold State.mayRun; decide +kernel

/-- An EVTST that waits to commit, on the trigger tick that its register holds. -/
def waiting (x : Nat) : Exec :=
  { (default : Exec) with id := 1, ins := ⟨always, .evtst 1 0 7 true⟩, ask := some ⟨7, x, true, none⟩ }

/-- An executed ADD that waits to commit. -/
def executed : Exec := { (default : Exec) with id := 1, ins := ⟨always, .add 3 1 2⟩ }

/-- Station 2 runs with an executed instruction. -/
def pending (e : Exec) : State := (running 200000).modStn 2 fun t => { t with thread := { t.thread with insts := [e], nextId := 2 } }

theorem witness_EventsArePendingUntilCommit :
    (∀ i ∈ [QOp.evtst 1 0 7 true, .waite 1 2 0 7 false, .evcnt 3 0 7 true, .evdata 3 94],
      (quilvo ⟨always, i⟩).mayRun 2 ⟨always, i⟩) ∧
    (let s := pending executed
     (s.stn 2).running = true ∧ (s.stn 2).threadDown = none ∧ (s.stn 2).thread.ended = false ∧
     (s.stn 2).thread.insts = executed :: [] ∧ executed.mayCommit (s.stn 2).thread.forks = true ∧ executed.exc = 0 ∧
     executed.off = false ∧ executed.ask = none ∧ always.passes ((s.stn 2).comm.pv always.p).val = true ∧ (s.stn 2).comm.pc ≠ lastPc ∧
     executed.ins = ⟨always, .add 3 1 2⟩ ∧ (s.stn 2).queue.length < 32) ∧
    (let e : Exec := { executed with ins := ⟨always, .stat 1 3 1⟩ }
     (e.mayCommit ((pending e).stn 2).thread.forks = true ∧ e.exc = 0 ∧ e.off = false ∧ e.ask = none)) ∧
    (let e : Exec := { executed with ins := ⟨always, .outg 1 2 true⟩ }
     let s := (pending e).modStn 2 fun t => { t with queue := List.replicate 32 (gateAt 200000) }
     32 ≤ (s.stn 2).queue.length) ∧
    (let e : Exec := { executed with exc := 2 }
     e.mayCommit ((pending e).stn 2).thread.forks = true ∧ e.exc ≠ 0 ∧ e.exc ≠ 5) ∧
    (let e : Exec := { executed with exc := 5 }
     e.mayCommit ((pending e).stn 2).thread.forks = true ∧ e.exc = 5) ∧
    (let s := { running 200000 with pgm := [⟨2 * 16384, 0xFFFFFFFF#32⟩] }
     (s.stn 2).running = true ∧ (s.stn 2).threadDown = none ∧ (s.stn 2).thread.ended = false ∧ (s.stn 2).queue.length < 32 ∧
     s.refilling 2 (s.stn 2).comm.pc = false ∧ (s.stn 2).thread.insts = [] ∧ decodeQ (s.pgmWord 2 (s.stn 2).comm.pc) = none) := by unfold State.mayRun; decide +kernel

theorem witness_DecisionsForkAndResolve :
    (let g : Guard := ⟨false, 1⟩
     let s := (quilvo ⟨g, .br .taken 50⟩).modStn 2 fun t =>
       { t with thread := { t.thread with insts := [waiting 99000], nextId := 2
                                          regs := { t.thread.regs with p := #v[⟨true, none, none⟩, ⟨false, none, some 1⟩, ⟨false, none, none⟩, ⟨false, none, none⟩] } } }
     (s.stn 2).mayExecute = true ∧ (s.stn 2).thread.inWindow < 64 ∧ (s.stn 2).thread.forks.length < 2 ∧
     decodeQ (s.pgmWord 2 (s.stn 2).thread.regs.pc) = some ⟨g, .br .taken 50⟩ ∧
     ((s.stn 2).thread.regs.pv g.p).base = some 1 ∧ s.refilling 2 (s.stn 2).thread.regs.pc = false) ∧
    (let f : Fork := { (default : Fork) with base := 1, alt := [], regs := QRegs.reset }
     let s := (quilvo ⟨always, .add 3 1 2⟩).modStn 2 fun t => { t with thread := { t.thread with forks := [f] } }
     (s.stn 2).running = true ∧ (s.stn 2).threadDown = none ∧ (s.stn 2).thread.ended = false ∧ (s.stn 2).thread.inWindow < 64 ∧
     (s.stn 2).thread.forks[(0 : Fin 2).val]? = some f ∧ f.alt.length < 16 ∧ (f.alt.any fun e => e.ins.op.isHop || e.stops) = false ∧
     decodeQ (s.pgmWord 2 f.regs.pc) = some ⟨always, .add 3 1 2⟩ ∧ (f.regs.pv always.p).base = none ∧
     always.passes (f.regs.pv always.p).val = true ∧ (f.regs.gv 1).base = none ∧ (f.regs.gv 2).base = none ∧ f.regs.pc ≠ lastPc ∧
     s.refilling 2 f.regs.pc = false ∧ (s.stn 2).thread.branchOf f = none) ∧
    (let s := pending (waiting 99000)
     (s.stn 2).running = true ∧ (s.stn 2).threadDown = none ∧ (s.stn 2).thread.insts = [waiting 99000] ∧ (s.stn 2).thread.forks = [] ∧
     (waiting 99000).ask = some ⟨7, 99000, true, none⟩ ∧ (waiting 99000).stops = false ∧ s.closed 99000 = true) ∧
    (∀ i ∈ [QOp.evcnt 3 0 7 true, .evdata 3 7, .waite 1 2 0 7 false],
      ({ waiting 99000 with ins := ⟨always, i⟩ } : Exec).stops = false) ∧
    (let s := pending { waiting 99000 with ins := ⟨always, .waite 1 2 0 7 false⟩ }
     (s.stn 2).inInterval 7 ((s.stn 2).markOf 7).at_ 99000 = [] ∧
     (let s := s.modStn 2 fun t => { t with events := [⟨7, 98000, 5#32⟩] }
      (s.stn 2).inInterval 7 ((s.stn 2).markOf 7).at_ 99000 = [⟨7, 98000, 5#32⟩] ∧ s.closed 98000 = true)) ∧
    (let s := pending (waiting 100000)
     (s.stn 2).thread.insts = [waiting 100000] ∧ s.closed 100000 = false) := by decide +kernel

/-! ## Stations -/

/-- A profile of 10 GHz in PROF_DATA, but for its word 5, with INDEX 5. -/
def profiled (w : Word) : State :=
  (((active.setReg .PROF_DATA 1 1#32).setReg .PROF_DATA 5 w).setReg .PROF_DATA 6 200#32).setFld Fields.PROF_ADDR_INDEX 0 5

/-- Station 2 has cores 7, 8 and 9 in a mode, core 7 live. -/
def mapped (m : Nat) (s : State) : State :=
  ((((s.setReg .STN_MAP 2 0x2507#32).setFld Fields.STN_CFG_MODE 2 m).setReg .STN_OUTMASK 2 0xF0#32).modCore 7 fun x =>
    { x with role := .live, station := 2, state := .locked }).each [8, 9] fun s c => s.modCore c fun x =>
      { x with role := .blocking, station := 2, state := .idle }

/-- A SWAP of profile 5 for a tick, in a holding queue. -/
def swapAt (k : Nat) : Effect := ⟨7, 0#14, .swap 5, k, none, 0⟩

/-- Station 2 runs ganged with a swap to profile 5, which is valid, ahead. -/
def swapping : State :=
  let s := (mapped 1 (running 200000)).modStn 2 fun t => { t with queue := [swapAt 200000] }
  { s with profs := [⟨41, 1#32⟩, ⟨45, 0x80001478#32⟩, ⟨46, 200#32⟩] }

/-- Station 2 is loaded with a guaranteed program, to start at a tick. -/
def loaded (k : Nat) : State :=
  ((mapped 1 active).setReg .SEQ_START_LO 2 (BitVec.ofNat 32 k)).modStn 2 fun t => { t with run := .loaded, accepted := true }

/-- Station 2 runs with an exception at tick 99990. -/
def excepted : State := (running 200000).modStn 2 fun t => { t with endedAt := some 99990, queue := [] }

theorem witness_StationRegisters :
    (active.serves = true ∧ (active.stn 2).running = false ∧ (mapCores 0x2507#32).Nodup ∧
      (∀ c ∈ mapCores 0x2507#32, (active.mapOwner c = none ∨ active.mapOwner c = some 2) ∧
        bitOf (active.reg .CORE_SPAREMAP 0) c = false ∧ (active.core c).role ≠ .fenced)) ∧
    (let s := active.modCore 8 fun x => { x with role := .fenced, state := .fenced }
     8 ∈ mapCores 0x2507#32 ∧ (s.core 8).role = .fenced) ∧
    (∀ m : Fin 8, m ≠ 2 → 0xFFFFFFFF#32 &&& active.reg .STN_OUTMASK m = 0) ∧
    (let s := mapped 1 active
     (s.stn 3).running = false ∧ 0x10#32 &&& s.reg .STN_OUTMASK 2 ≠ 0) ∧
    ((running 200000).stn 2).running = true := by decide +kernel

theorem witness_ProfilesAndPreparations :
    (let s := profiled 0x80001478#32
     s.serves = true ∧ profileOk s.profData = true ∧ s.shadowOf (s.fld Fields.PROF_ADDR_INDEX 0) = none ∧
     s.referenced (s.fld Fields.PROF_ADDR_INDEX 0) = false ∧ s.fencedEntry 15 (s.fld Fields.PROF_ADDR_INDEX 0) = false) ∧
    (let s := (profiled 0x80001478#32).modStn 2 fun t => { t with queue := [swapAt 200000] }
     s.referenced (s.fld Fields.PROF_ADDR_INDEX 0) = true ∧ s.shadows.length < 32) ∧
    profileOk (profiled 0x800014FE#32).profData = false ∧
    (let s := { active with shadows := [(5, [0, 1])] }
     s.shadowOf 5 = some [0, 1] ∧ s.referenced 5 = false ∧ s.fencedEntry 15 5 = false) ∧
    ((swapping.stn 2).running = true ∧ swapping.stnMode 2 = 1 ∧
      swapping.wanted 2 (swapping.stn 2).path (swapping.planNow 2) [] [] = some (⟨7, true, false, true, 5, some 200000⟩, swapping.planNow 2) ∧
      swapping.slotUsable 2 1 (swapping.planNow 2) = true ∧ swapping.slot 2 1 = some 8 ∧
      (profileOf (swapping.wordsFor 2 7 5)).cont = false) ∧
    (let p : Prep := ⟨7, 5, [], none⟩
     let s := (swapping.modSlot 2 1 fun x => { x with prep := some p }).modCore 8 fun x => { x with state := .locked, lockAt := some 0 }
     s.slot 2 1 = some 8 ∧ (s.slotSt 2 1).prep = some p ∧ (s.core 8).lockAt = some 0 ∧ (s.core 8).state = .locked ∧
     (s.slotSt 2 1).settled = none ∧ 0 + s.fld Fields.CORE_CFG_UGHOLD 8 * 64 ≤ s.elapsed) ∧
    (active.slotSt 2 1).prep = none := by decide +kernel

theorem witness_StationsRun :
    (let s := loaded 100064
     s.serves = true ∧ s.active = true ∧ (s.stn 2).run = .loaded ∧ s.mapMeets 2 = true ∧ s.now + 64 ≤ s.seqStartTick 2 ∧
     s.flag Fields.TIME_STATE_BROKEN 0 = false) ∧
    (active.stn 3).run = .empty ∧
    (let s := loaded 100063
     s.mapMeets 2 = true ∧ s.seqStartTick 2 < s.now + 64) ∧
    (let s := (loaded 100064).setFld Fields.TIME_STATE_BROKEN 0 1
     (s.stn 2).accepted = true ∧ s.flag Fields.TIME_STATE_BROKEN 0 = true) ∧
    (let s := active.modStn 2 fun t => { t with run := .armed, startTick := 100000 }
     (s.stn 2).run = .armed ∧ (s.stn 2).startTick ≤ s.now) ∧
    (((running 200000).stn 2).endedAt = none ∧ (excepted.stn 2).endedAt.isSome = true ∧ (active.stn 2).running = false) ∧
    ((excepted.stn 2).running = true ∧ (excepted.stn 2).endedAt = some 99990 ∧ (excepted.stn 2).queue = [] ∧ 99990 < excepted.now) ∧
    (let s := excepted.modStn 2 fun t => { t with endedAt := some 100000 }
     s.now ≤ 100000) ∧
    (let s := running 200000
     s.up = true ∧ bitOf (s.reg .SEQ_THREADS 0) (16 + 2) = false ∧ s.boundTo 2 = some 2 ∧ (s.stn 2).threadDown = none) ∧
    (let s := (running 200000).modStn 2 fun t => { t with threadDown := some 0, spareThread := some 9 }
     (s.stn 2).spareThread = some 9) := by decide +kernel

/-- Station 2 holds a program that stops 1,000 ticks after its start: TADDI t1, t0, 1000, then HALT t1. -/
def programmed : State :=
  { (mapped 1 active).setFld Fields.PGM_ADDR_STATION 0 2 with
    pgm := [⟨32768, (⟨always, .taddi 1 0 1000⟩ : QInstr).encode⟩, ⟨32769, (⟨always, .halt 1⟩ : QInstr).encode⟩]
    check := some ⟨2, false, 0, false⟩ }

/-- What the loader keeps of a handoff program. -/
def handoff : Handoff := ⟨64, true, [1], [], []⟩

theorem witness_ProgramsAreLoaded :
    (let s := active
     s.serves = true ∧ (s.stn s.pgmStation).reach.contains (s.pgmIndex / 64) = false ∧ (s.stn s.pgmStation).handoff = none ∧
     s.fencedEntry 16 (s.pgmStation * 16384 + s.pgmIndex) = false ∧ s.check = none ∧ s.flag Fields.PGM_LOAD_KIND 0 = false ∧
     (s.stn s.pgmStation).run = .empty) ∧
    ({ active with check := some ⟨2, false, 0, false⟩ } : State).check.isSome = true ∧
    (let s := (running 200000).modStn 2 (fun t => { t with reach := [0] }) |>.setFld Fields.PGM_ADDR_STATION 0 2
     (s.stn s.pgmStation).running = true ∧ (s.stn s.pgmStation).reach.contains (s.pgmIndex / 64) = true) ∧
    (programmed.check.isSome = true ∧ programmed.mgmtRuns = true ∧ programmed.mbx.busy = false ∧
      (programmed.stn 2).running = false ∧ (programmed.leadCheck ⟨2, false, 0, false⟩).reason = 0) ∧
    ((programmed.leadCheck ⟨2, false, 5, false⟩).reason ≠ 0) ∧
    (let s := ((running 200000).modStn 2 (fun t => { t with handoff := some handoff }) |>.setFld Fields.PGM_ADDR_STATION 0 2).setReg
       .SEQ_START_LO 2 100064#32
     s.serves = true ∧ s.pgmStation < 8 ∧ (s.stn s.pgmStation).handoff = some handoff ∧ (s.stn s.pgmStation).handoffAt = none ∧
     (s.stn s.pgmStation).run = .running ∧
     s.now + 64 ≤ s.seqStartTick s.pgmStation ∧ s.flag Fields.TIME_STATE_BROKEN 0 = false) ∧
    (let s := (running 200000).modStn 2 fun t => { t with handoff := some handoff, handoffAt := some 100000 }
     let u := s.setFld Fields.PGM_ADDR_STATION 0 2
     (s.stn 2).handoffAt = some 100000 ∧ (s.stn 2).handoff = some handoff ∧ (s.stn 2).run = .running ∧ (s.stn 2).endedAt = none ∧
     100000 ≤ s.now ∧ u.serves = true ∧ (u.stn u.pgmStation).handoff.isSome = true ∧
     (u.stn u.pgmStation).handoffAt.isSome = true) := by decide +kernel

/-! ## Outputs -/

/-- Output 3's domain is on. -/
def powered : State := (active.setFld Fields.OUT_CFG_EN 3 1).modOut 3 fun x => { x with domainOn := true }

/-- Station 2 runs a guaranteed program and owns outputs 4 to 7. -/
def owned4 : State := (mapped 1 (running 200000)).modStn 2 fun t => { t with guaranteed := true }

theorem witness_OutputsFollowAndSwitch :
    (active.serves = true ∧ active.outTaken 3 = false ∧ active.srcAllowed 3 11 = true ∧ active.srcAllowed 3 31 = true) ∧
    (active.srcAllowed 3 24 = false ∧ 24 ≠ active.fld Fields.OUT_CFG_SRC 3 ∧ active.srcAllowed 3 30 = false) ∧
    owned4.outTaken 4 = true ∧
    (active.active = true ∧ (active.out 3).fenced = false ∧ active.flag Fields.OUT_CFG_EN 3 = false) ∧
    powered.flag Fields.OUT_CFG_EN 3 = true ∧
    (let s := active.modOut 3 fun x => { x with readyAt := some 100000 }
     (s.out 3).readyAt = some 100000 ∧ 100000 ≤ s.elapsed) ∧
    (active.out 3).readyAt = none ∧
    (let s := active.modOut 3 fun x => { x with readyAt := some 200000 }
     s.up = true ∧ (s.out 3).readyAt = some 200000 ∧ s.elapsed < 200000) := by decide +kernel

/-- Output 3 follows core 7, locked at 10 GHz, at a tick at which its read-back window ends. -/
def windowed : State :=
  { ((powered.setFld Fields.OUT_CFG_SRC 3 7).setFld Fields.OUT_DRV_MINPER 3 2).modCore 7 fun x =>
      { x with state := .locked, applied := ⟨20, 0, 1⟩ } with count := 1048576 }

theorem witness_DividersShortsAndReadBack :
    (dsetOk 3 (getBits 0x08010400#32 0 11) (bitOf 0x08010400#32 11) = true ∧
      dsetOk 3 (getBits 0x08010400#32 16 11) (bitOf 0x08010400#32 27) = true ∧
      dsetOk 3 (getBits 0x00010401#32 0 11) (bitOf 0x00010401#32 11) = false ∧
      dsetOk 8 (getBits 0x00010801#32 0 11) (bitOf 0x00010801#32 11) = false) ∧
    (active.outOwned 3 = false ∧ owned4.outOwned 4 = true) ∧
    (powered.up = true ∧ (powered.out 3).domainOn = true ∧ (powered.out 3).fenced = false ∧ powered.driverOff 3 = false ∧
      (powered.out 3).driveAt + 500 ≤ powered.elapsed ∧ powered.isLive (Src.out_SHORT 3) = false ∧
      powered.outDomainOff 3 = false) ∧
    (let s := powered.modOut 3 fun x => { x with shorted := true, shortAt := some 99000 }
     s.serves = true ∧ s.outOwned 3 = false ∧ s.outDomainOff 3 = false ∧ (s.out 3).shorted = true ∧ (s.out 3).shortAt ≠ some s.elapsed ∧
     (powered.out 3).shorted = false ∧ powered.outDomainOff 3 = false) ∧
    (let s := windowed
     s.up = true ∧ s.rbEnds 3 = true ∧ s.guardClear 3 = true ∧ (([⟨3000000, 30, false⟩] : List EdgeRun).all fun e => !e.moved) = true ∧
     (guardRuns (s.minPeriod 3 * 500) (s.guardClear 3) [⟨3000000, 30, false⟩] (s.out 3).sinceEdge).1 = 30 ∧
     (guardRuns (s.minPeriod 3 * 500) (s.guardClear 3) [⟨3000000, 30, false⟩] (s.out 3).sinceEdge).2.1 = 0 ∧
     max 30 30 - min 30 30 ≤ s.fld Fields.OUT_RBCFG_CTOL 3 ∧ (s.out 3).fenced = false ∧
     s.fld Fields.OUT_RBCFG_CTOL 3 < max 3000 30 - min 3000 30 ∧
     (let u := s.setFld Fields.OUT_RBCFG_MISS 3 0
      (u.out 3).rbMiss + 1 = u.fld1 Fields.OUT_RBCFG_MISS 3)) ∧
    (let s := windowed
     (guardRuns (s.minPeriod 3 * 500) (s.guardClear 3) [⟨3000000, 30, false⟩, ⟨1, 2, true⟩] (s.out 3).sinceEdge).2.1 = 2 ∧
     (s.out 3).guardPlan = false) ∧
    powered.rbEnds 3 = false := by decide +kernel

/-- Output 3 in gapped SYSREF mode and not gated. -/
def sysref3 : State :=
  (((powered.setFld Fields.OUT_SYSREF_SMODE 3 1).setFld Fields.OUT_CFG_SRC 3 7).modCore 7 fun x =>
    { x with state := .locked, lockAt := some 0, holdDone := true })

theorem witness_SysrefOperations :
    (sysref3.serves = true ∧ sysref3.outOwned 3 = false ∧ sysref3.outDomainOff 3 = false ∧ sysref3.smode 3 ≠ 0 ∧
      sysref3.gated 3 = false ∧ sysref3.burstRunning 3 sysref3.now = false ∧ (sysref3.out 3).periodic = none) ∧
    (let s := sysref3.modOut 3 fun x => { x with periodic := some 0 }
     (s.out 3).periodic.isSome = true ∧ (s.out 3).fenced = false) ∧
    (let s := sysref3.modOut 3 fun x => { x with progGate := true }
     s.gated 3 = true ∧ (s.out 3).fenced = false) ∧
    owned4.outOwned 4 = true := by decide +kernel

/-! ## Raster channels -/

/-- Channel 1 is bound to core 5, locked at its setting, with outputs 8 and 9. -/
def raster : State :=
  (((core5 .locked).setFld Fields.RAS_CFG_CORE 1 5).setReg .RAS_OUTMASK 1 0x300#32).modRas 1 fun x => { x with bound := true }

/-- A change of the frequency of core 5 by one thousandth, by glide or cold. -/
def change (cold : Bool) : RasChange := ⟨⟨21, 147, 1000⟩, 1, 128, 2, cold, 200, 0#32⟩

/-- A change staged in channel 1. -/
def staged (gtime : Nat) : State :=
  ((raster.setFld Fields.RAS_STG_SET_N 1 20).setReg .RAS_STG_DEN_LO 1 1#32).setFld Fields.RAS_STG_SET_GTIME 1 gtime

/-- A change pending in channel 1, to be applied at a tick. -/
def applying (g : RasChange) (k : Option Nat) : State := raster.modRas 1 fun x => { x with pending := some g, applyAt := k }

theorem witness_RasterChangesAreBoundAndStaged :
    (let s := active.setReg .RAS_OUTMASK 1 0x300#32
     s.serves = true ∧ (s.rasCh 1).bound = false ∧ getBits 0x05000000#32 24 5 < 26 ∧ (s.core (getBits 0x05000000#32 24 5)).role = .unassigned ∧
     s.rasOfCore (getBits 0x05000000#32 24 5) = none ∧ s.mapOwner (getBits 0x05000000#32 24 5) = none ∧
     s.reg .RAS_OUTMASK 1 &&& s.reg .RAS_OUTMASK 0 = 0 ∧
     (∀ o : Fin 32, bitOf (s.reg .RAS_OUTMASK 1) o = true → s.outOwner o = none)) ∧
    (active.core (getBits 0x19000000#32 24 5)).role ≠ .unassigned ∧
    (raster.serves = true ∧ (raster.rasCh 1).bound = true ∧ (raster.rasCh 1).applying = false) ∧
    ((raster.modRas 1 fun x => { x with applying := true }).rasCh 1).applying = true ∧
    (((staged 200).rasStaged 1).setting.valid = true ∧ 200 ≤ ((staged 200).rasStaged 1).gtime ∧ ((staged 199).rasStaged 1).gtime < 200) ∧
    (let s := applying (change false) none
     (s.rasCh 1).bound = true ∧ s.fld1 Fields.RAS_CFG_TEMINW 1 ≤ s.fld1 Fields.RAS_CFG_TEMINW 1 ∧ (s.rasCh 1).pending.isSome = true ∧
     (s.rasCh 1).applying = false ∧
     (s.rasCh 1).applyAt = none) ∧
    0 < raster.fld1 Fields.RAS_CFG_TEMINW 1 ∧
    (let s := (((((raster.setReg .RAS_EXPECT 1 1000#32).modRas 1 fun x => { x with lastTe := some 99000 }).setFld Fields.OUT_CFG_EN 8 1).setFld
       Fields.OUT_CFG_SRC 8 5).modOut 8 fun x => { x with domainOn := true }).modCore 5 fun x => { x with holdDone := true }
     (s.rasCh 1).lastTe = some 99000 ∧ s.reg .RAS_EXPECT 1 ≠ 0 ∧ (s.rasCh 1).tainted = false ∧ s.rasGated 1 = false ∧
     s.fld Fields.RAS_CFG_TOL 1 < max 2000 (s.reg .RAS_EXPECT 1).toNat - min 2000 (s.reg .RAS_EXPECT 1).toNat) ∧
    (let s : State := { applying (change false) none with elapsed := 1000000000 }
     s.up = true ∧ s.teTimeoutDue 1 = true ∧ (s.rasCh 1).lost = false ∧ (s.rasCh 1).pending.isSome = true ∧ (s.rasCh 1).applying = false ∧
     (s.rasCh 1).applyAt = none) ∧
    (raster.modRas 1 fun x => { x with since := 100000 }).teTimeoutDue 1 = false := by decide +kernel

theorem witness_RasterChangesAreApplied :
    (let g : RasChange := { change false with setting := ⟨21, 1, 8⟩ }
     let s := applying g (some 100000)
     s.up = true ∧ (s.rasCh 1).applyAt = some 100000 ∧ 100000 ≤ s.elapsed ∧ (s.rasCh 1).pending = some g ∧
     g.setting.sameFreq (s.core (s.fld Fields.RAS_CFG_CORE 1)).applied = true ∧ (s.core (s.fld Fields.RAS_CFG_CORE 1)).role ≠ .fenced) ∧
    (let g := change false
     let s := (applying g (some 100000)).modCore 5 fun x => { x with sub := 2 }
     (s.rasCh 1).pending = some g ∧ g.setting.sameFreq (s.core (s.fld Fields.RAS_CFG_CORE 1)).applied = false ∧ g.forceCold = false ∧
     s.glideOk (s.fld Fields.RAS_CFG_CORE 1) g.setting = true) ∧
    (let s := applying (change true) (some 100000)
     s.fld Fields.RAS_CFG_CORE 1 < 26 ∧ (change true).forceCold = true ∧ (s.rasCh 1).pending = some (change true)) := by decide +kernel

/-! ## Lanes -/

/-- Lane 3 in a state since tick 50,000. -/
def lane3 (st : LaneSt) : State := (active.setFld Fields.LN_CFG_EN 3 1).modLane 3 fun l => { l with state := st, since := 50000 }

/-- Lane 3 in a state for 100 s and more. -/
def lane3long (st : LaneSt) : State := { lane3 st with elapsed := 60000000000 }

theorem witness_LanesTrainAndRetrain :
    (active.serves = true ∧ active.active = true ∧ active.thirdUpstream 3 (active.reg .LN_CFG 3) = false ∧
      active.flag Fields.LN_CFG_EN 3 = false ∧ active.sliceBad (active.lane 3).slice = false) ∧
    ((lane3 .linked).thirdUpstream 3 ((lane3 .linked).reg .LN_CFG 3) = false ∧ (lane3 .linked).flag Fields.LN_CFG_EN 3 = true) ∧
    (let s : State := { lane3 .quiet with elapsed := 50000 + usTicks 1000 }
     s.up = true ∧ (s.lane 3).state = .quiet ∧ (s.lane 3).since + usTicks 1000 ≤ s.elapsed) ∧
    (let s : State := { lane3 .quiet with elapsed := 50000 + usTicks 1000 - 1 }
     s.elapsed < (s.lane 3).since + usTicks 1000) ∧
    (((lane3 .waitSig).lane 3).state = .waitSig ∧ ((lane3 .cdr).lane 3).state = .cdr) ∧
    (let s := (lane3 .eq).setFld Fields.LNG_DEVID_ID 0 7
     (s.lane 3).state = .eq ∧ bitOf 0xA00005#32 23 = true ∧ (s.upstream 3 = true ↔ getBits 0xA00005#32 20 2 ≠ 2) ∧ s.fld Fields.LNG_DEVID_ID 0 ≠ 0) ∧
    (let s := lane3 .eq
     bitOf 0x800005#32 23 = true ∧ (s.upstream 3 = true ↔ getBits 0x800005#32 20 2 = 2) ∧ (s.lane 3).roleRaised = false) ∧
    (((lane3 .frame).lane 3).state = .frame ∧ ((lane3 .timed).lane 3).carries = true) ∧
    (let s := lane3long .eq
     s.up = true ∧ (s.lane 3).timeout = some (usTicks 100000) ∧ (s.lane 3).since + usTicks 100000 ≤ s.elapsed) ∧
    ((lane3 .linked).lane 3).timeout = none ∧ (lane3 .linked).isLive (Src.lane_LOS 3) = false := by decide +kernel

theorem witness_SlicesMove :
    (let s := (lane3 .linked).setFld Fields.LN_MARGIN_MIN 3 20
     s.up = true ∧ (s.lane 3).carries = true ∧ s.fld Fields.LN_MARGIN_MIN 3 ≤ (20#8).toNat ∧ (19#8).toNat < s.fld Fields.LN_MARGIN_MIN 3 ∧
     s.isLive (Src.lane_EYE_LOW 3) = false) ∧
    ((((lane3 .linked).setFld Fields.LN_CFG_AUTOSTEER 3 0).flag Fields.LN_CFG_AUTOSTEER 3 = false) ∧
      (((lane3 .linked).setFld Fields.LN_CFG_AUTOSTEER 3 1).flag Fields.LN_CFG_AUTOSTEER 3 = true)) ∧
    ((lane3 .linked).spareFree (spareOf 3) = true ∧ (lane3 .timed).spareFree (spareOf 3) = true ∧ ((lane3 .timed).lane 3).moving = false ∧
     (((lane3 .steering).modLane 3 fun l => { l with move := some ⟨16, true, .timed, true⟩ }).lane 3).moving = true) ∧
    (((lane3 .eq).lane 3).state ≠ .linked ∧ ((lane3 .eq).lane 3).state ≠ .timed ∧ ((lane3 .eq).lane 3).state ≠ .off) ∧
    (let s := (lane3 .steering).modLane 3 fun l => { l with move := some ⟨16, true, .timed, true⟩ }
     let s : State := { s with lng := { LaneGroup.reset with framed := true, framePhase := s.elapsed - 43520 } }
     (s.lane 3).state = .steering ∧ (s.lane 3).move = some ⟨16, true, .timed, true⟩ ∧ s.frameTicks % 43520 = 0 ∧
     (s.modLng fun g => { g with framePhase := s.elapsed - 7 }).frameTicks % 43520 ≠ 0 ∧ s.up = true) ∧
    (let s := (lane3 .steering).modLane 3 fun l => { l with move := some ⟨16, false, .timed, false⟩ }
     (s.lane 3).state = .steering ∧ (s.lane 3).move = some ⟨16, false, .timed, false⟩) := by decide +kernel

/-- A class-0 message for flow 5 and event slot 9. -/
def msg : C0Msg := ⟨5, 9, 2, 100000, 0xCAFE#32⟩

/-- Lane 3 carries, and table 3 holds an entry for flow 5. -/
def routed (e : Word) : State := { lane3 .linked with lng := { LaneGroup.reset with flows := [⟨3 * 4096 + 5, e⟩] } }

/-- A class-1 cell of flow 5. -/
def cell : BitVec 128 := (⟨5, 0, c1Data 0xCAFE#32 100000⟩ : Cell).encode 1

theorem witness_MessagesAreRoutedAndOriginated :
    (((routed 0#32).lane 3).carries = true ∧ ((routed 0#32).lane 3).fecOn = false ∧ crcHolds (msg.encode ^^^ 1#128) = false) ∧
    (crcHolds msg.encode = true ∧ c0Kind msg.encode = 1 ∧ bitOf ((routed 0#32).flowEntry 3 (c0Decode msg.encode).flow) 31 = false) ∧
    (let s := (routed 0xC0000000#32).modStn 2 fun t => { t with run := .running, enabled := [17] }
     bitOf (s.flowEntry 3 (c0Decode msg.encode).flow) 31 = true ∧ bitOf (s.flowEntry 3 (c0Decode msg.encode).flow) 30 = true ∧
     s.lanesOf (s.flowEntry 3 (c0Decode msg.encode).flow) = [] ∧ (s.now : Int) < widen s.now (c0Decode msg.encode).stamp + 2 ∧
     (s.stn 2).running = true ∧ (s.stn 2).events = [] ∧ (s.stn 2).enabled.contains (8 + (c0Decode msg.encode).slot) = true ∧
     (s.stn 2).mark (8 + (c0Decode msg.encode).slot) < (widen s.now (c0Decode msg.encode).stamp).toNat) ∧
    (let s := ((routed 0x81230010#32).modLane 4 fun l => { l with state := .linked }).setReg .LN_CFG 4 0x00400000#32 |>.setReg .LN_C0SRC 4 0x03000000#32
     bitOf (s.flowEntry 3 (c0Decode msg.encode).flow) 31 = true ∧ bitOf (s.flowEntry 3 (c0Decode msg.encode).flow) 30 = false ∧
     s.lanesOf (s.flowEntry 3 (c0Decode msg.encode).flow) = [4] ∧ s.slotFrom 4 6 3 = true ∧ (c0Decode msg.encode).hop ≠ 7) ∧
    (let s := routed 0xC0000000#32
     crcHolds cell = true ∧ cellClass cell = 1 ∧ bitOf (s.flowEntry 3 (cellDecode cell).flow) 31 = true ∧
     bitOf (s.flowEntry 3 (cellDecode cell).flow) 30 = true ∧ s.lanesOf (s.flowEntry 3 (cellDecode cell).flow) = [] ∧
     s.lng.words.length < 256) ∧
    bitOf ((routed 0#32).flowEntry 3 (cellDecode cell).flow) 31 = false ∧
    (active.hostServes = true ∧ active.power ≠ 4 ∧ active.fencedEntry 17 active.flowIndex = false) ∧
    (let s := ((lane3 .linked).setReg .LN_CFG 3 0x00400000#32 |>.setReg .LN_C0SRC 3 0x03000000#32).modLane 3 fun l => { l with own := [⟨msg, 99998⟩] }
     let s : State := { s with lng := { LaneGroup.reset with framed := true, framePhase := s.elapsed - 43 } }
     (s.lane 3).own = [⟨msg, 99998⟩] ∧ (s.lane 3).carries = true ∧ s.slotFrom 3 6 3 = true ∧ 99998 + 2 ≤ s.elapsed ∧
     s.slotFrame 6 = some 0 ∧ s.slotFrame 5 = none) := by
  decide +kernel

/-- A time-transfer word with its CRC. -/
def ttWord (k : Nat) : BitVec 108 := BitVec.ofNat 108 (k * 256 + crc 8 0x07 0 (bitsDown (k * 256) 8 100))

/-- Lane 3 is TIMED and the timing source of anchor 0. -/
def source (st : LaneSt) : State := (lane3 st).setFld Fields.LNG_RCLK_EN0 0 1 |>.setFld Fields.LNG_RCLK_SEL0 0 3

theorem witness_TimeTransfer :
    ((ttCrcHolds (ttWord 7 ^^^ 1#108) && ttCrcHolds (ttWord 8) && ttCrcHolds (ttWord 9)) = false) ∧
    (let s := lane3 .linked
     (s.lane 3).carries = true ∧ ttCrcHolds (ttWord 65536) = true ∧ ttCrcHolds (ttWord 655360) = true ∧ ttCrcHolds (ttWord 9) = true ∧
     ((ttWord 65536).extractLsb' 8 80).toNat = 65536 ∧ s.timingLane ≠ some 3) ∧
    (let s := source .timed
     s.serves = true ∧ s.active = true ∧ s.loadAllowed = true ∧ s.transfer = none ∧ s.timingLane = some 3 ∧ (s.lane 3).isTimed = true ∧
     (s.lane 3).carries = true) ∧
    ((running 200000).serves = true ∧ (running 200000).loadAllowed = false) ∧
    (active.loadAllowed = true ∧ active.transfer = none ∧ active.timingLane = none) := by decide +kernel

/-! ## The fleet -/

/-- A management body of a kind from device 9 to device 7, with TAG 3, its other fields after the header. -/
def body (cells kind : Nat) (fs : List (Nat × Nat)) : Body := mkBody cells ([(kind, 4), (0, 4), (7, 16), (9, 16), (3, 8)] ++ fs)

/-- Device 7, managed by device 9, with a delivered body. -/
def inbox (b : Body) : State :=
  { (((active.setFld Fields.LNG_DEVID_ID 0 7).setFld Fields.FLT_MGR_ID 0 9).setFld Fields.FLT_CFG_REMOTE 0 1) with
    fleet := { Fleet.reset with inbox := [⟨3, b⟩] } }

/-- A request of the host to device 9. -/
def rq : Request := ⟨3, 9, 0x40, true, 100000⟩

/-- A stream of device 9. -/
def stream (items : List ArmItem) (bodies : List Body) : Stream :=
  { (default : Stream) with src := 9, dst := 7, tag := 3, epoch := 5, relTick := 100064, count := items.length, items := items
                            bodies := bodies, lastAt := 99000 }

theorem witness_RemoteAccessesAndRequests :
    (let b := body 1 1 [(regAddr .GLB_SCRATCH 0, 16)]
     let s := inbox b
     s.mgmtRuns = true ∧ s.power ≠ 4 ∧ s.fleet.inbox = [⟨3, b⟩] ∧ bodyKind b = 1 ∧ bodyField b 48 16 = regAddr .GLB_SCRATCH 0) ∧
    neverRemote (bodyField (body 1 1 [(0x2400, 16)]) 48 16) = true ∧
    (let b := body 1 2 [(regAddr .GLB_SCRATCH 0, 16), (0xCAFE, 32)]
     let s := inbox b
     s.serves = true ∧ s.fleet.inbox = [⟨3, b⟩] ∧ bodyKind b = 2 ∧ s.admits (bodySrc b) = true ∧
     bodyField b 48 16 = regAddr .GLB_SCRATCH 0 ∧ s.itsTurn = true ∧
     (s.setFld Fields.FLT_CFG_REMOTE 0 0).admits (bodySrc b) = false) ∧
    (let s := (lane3 .linked).modLng fun g => { g with flows := [⟨16 * 4096, 0x80050008#32⟩] }
     bitOf (s.flowEntry 16 (s.fld Fields.FLT_CFG_RPTFLOW 0)) 31 = true ∧
     s.lanesOf (s.flowEntry 16 (s.fld Fields.FLT_CFG_RPTFLOW 0)) = [3] ∧ (s.lane 3).cells[1].length ≤ 255) ∧
    bodyKind (body 1 2 []) ≠ 1 ∧
    (let s := (active.setFld Fields.FLT_RQ_DST_DST 0 9).setReg .FLT_RQ_CTL 0 0x10000000#32
     s.serves = true ∧ s.fleet.request = none ∧ s.fld Fields.FLT_RQ_DST_DST 0 ≠ 0 ∧ s.fld Fields.FLT_RQ_DST_DST 0 ≠ s.devId ∧
     getBits (s.reg .FLT_RQ_CTL 0) 28 2 = 1) ∧
    (let s := active.modFleet fun f => { f with request := some rq }
     s.fleet.request = some rq ∧ rq.dueAt ≤ s.elapsed) ∧
    active.fld Fields.FLT_RQ_DST_DST 0 = 0 ∧
    (bodyKind (body 1 3 []) = 3 ∧ bodyTag (body 1 3 []) = rq.tag ∧ bodySrc (body 1 3 []) = rq.dst) := by decide +kernel

theorem witness_ArmedStreamsAndChanges :
    (let b := body 2 6 [(5, 32), (100064, 48), (1, 16)]
     let s := inbox b
     s.mgmtRuns = true ∧ s.fleet.inbox = [⟨3, b⟩] ∧ bodyKind b = 6 ∧ s.fleet.streams = [] ∧
     ({ stream [] [] with tag := 4 } : Stream).hears b = false) ∧
    (let b := body 1 7 [(regAddr .GLB_SCRATCH 0, 16), (0xCAFE, 32)]
     bodyKind b = 7 ∧ (stream [] []).hears b = true ∧ bodyKind (body 4 8 []) = 8 ∧ (stream [] []).hears (body 4 8 []) = true) ∧
    (let i : List ArmItem := [.reg (regAddr .GLB_SCRATCH 0) 0xCAFE#32]
     let x := stream i [body 1 7 [(regAddr .GLB_SCRATCH 0, 16), (0xCAFE, 32)]]
     let b := body 1 9 [((bodiesCrc x.bodies).toNat, 32)]
     let s := (inbox b).modFleet fun f => { f with streams := [x] }
     s.fleet.inbox = [⟨3, b⟩] ∧ bodyKind b = 9 ∧ s.fleet.streams = [x] ∧ x.hears b = true ∧
     s.streamStatus x (BitVec.ofNat 32 (bodyField b 48 32)) = 0 ∧ (s.setFld Fields.FLT_CFG_REMOTE 0 0).admits x.src = false) ∧
    (let c : Change := ⟨0, false, 5, 100000, [.reg (regAddr .GLB_SCRATCH 0) 0xCAFE#32], true, 77⟩
     let s := active.modFleet fun f => { f with changes := [c] }
     s.up = true ∧ s.counting = true ∧ s.syncDue = [] ∧ s.sched = [] ∧ s.fleet.changes = [c] ∧ c.relTick ≤ s.now ∧
     (({ s with fleet := { s.fleet with changes := [] } } : State).releaseItems 0 c.items).isRight = true) ∧
    (let c : Change := ⟨0, false, 5, 100000, [.reg (regAddr .GLB_SCRATCH 0) 0xCAFE#32, .reg 0x3000 0#32], true, 77⟩
     let s := active.modFleet fun f => { f with changes := [c] }
     s.fleet.log.length < 16 ∧
     (({ s with fleet := { s.fleet with changes := [] } } : State).releaseItems 0 c.items).getLeft? = some 1) := by decide +kernel

theorem witness_DigestsAndTheLog :
    (let s := active.modFleet fun f => { f with running := some 100000 }
     s.mgmtRuns = true ∧ s.fleet.running = some 100000 ∧ 100000 ≤ s.now) ∧
    active.fleet.running = none ∧
    (let s : State := { (((lane3 .linked).setFld Fields.FLT_CFG_DGEN 0 1).setFld Fields.LN_CFG_ROLE 3 2).modFleet (fun f => { f with started := some 5 })
       with count := 500000 }
     s.mgmtRuns = true ∧ s.counting = true ∧ s.now % 500000 = 0 ∧ s.flag Fields.FLT_CFG_DGEN 0 = true ∧
     s.fleet.started.isSome = true ∧ s.upstream 3 = true ∧ (s.lane 3).carries = true) ∧
    active.now % 500000 ≠ 0 ∧
    (let b := body 3 4 [(0, 32), (0xAB, 64), (0xAB, 64), (99000, 48), (1, 1), (0, 1)]
     let s := (inbox b).setFld Fields.FLT_CFG_CMPEN 0 1
     s.mgmtRuns = true ∧ s.fleet.inbox = [⟨3, b⟩] ∧ bodyKind b = 4 ∧ s.flag Fields.FLT_CFG_CMPEN 0 = true ∧ s.upstream 3 = false ∧
     bodyField b 256 1 = 1 ∧ bodyField b 257 1 = 0 ∧ BitVec.ofNat 32 (bodyField b 48 32) = s.reg .FLT_EPOCH 0) ∧
    (let b := body 3 4 [(0, 32), (0xAB, 64), (0xAC, 64), (99000, 48), (1, 1), (1, 1)]
     bodyField b 257 1 = 1 ∧ bodyField b 80 64 ≠ bodyField b 144 64 ∧ ((inbox b).lane 3).causes = [] ∧ (inbox b).fleet.log.length < 16) ∧
    bodyKind (body 2 5 []) = 5 ∧
    (let s : State := { (lane3 .linked).setFld Fields.FLT_CFG_CMPEN 0 1 with elapsed := 7000000 }
     let s := s.modLane 3 fun l => { l with heardAt := 5000000, freshAt := 2000000 }
     s.up = true ∧ s.watched 3 = true ∧ (s.lane 3).heardAt + 2000000 ≤ s.elapsed ∧ (s.lane 3).causes.contains 3 = false ∧
     (s.lane 3).freshAt + 5000000 ≤ s.elapsed ∧ (s.lane 3).freshAt < (s.lane 3).heardAt ∧ (s.lane 3).causes.contains 4 = false) ∧
    active.serves = true := by decide +kernel

/-! ## Calibration -/

/-- A measured run of a group since tick 1,000, between two temperatures in 1/16 °C. -/
def calRunning (g steps : Nat) (t0 t1 : Option Int) : State :=
  { active with cal := { Cal.reset with run := some ⟨g, 1000, t0, t1, steps, false, 0⟩ } }

/-- The converter has a temperature for every group. -/
def measured (s : State) : State := { s with mon := { s.mon with latest := Vector.replicate 64 (some 4500) } }

theorem witness_CalibrationRuns :
    (let s := calRunning 7 2 none none
     s.up = true ∧ s.reloads.contains 2 = false ∧ s.cal.run = some ⟨7, 1000, none, none, 2, false, 0⟩ ∧
     s.flag Fields.MON_STAT_FENCED 0 = false ∧ s.mon.queue.length < 2) ∧
    (active.cal.run = none ∧ active.mon.mask.getLsbD (calChannel 7) = true) ∧
    (let s : State := { active with mon := { active.mon with mask := 0 }, elapsed := 5000000 }
     s.mon.mask.getLsbD (calChannel 7) = false ∧ s.cal.injectedAt[(7 : Fin 60)] + 5000000 ≤ s.elapsed) ∧
    (let s := active.setFld Fields.CAL_CFG_EN 0 1
     (s.grp 7).due = true ∧ s.flag Fields.CAL_CFG_EN 0 = true ∧ s.cal.run = none ∧ (s.grp 7).retryAt ≤ s.elapsed ∧
     s.calAvailable 7 = true ∧ (s.grp 7).paused = none) ∧
    (let s := measured ((active.setFld Fields.CAL_CFG_EN 0 1).modGrp 7 fun x => { x with paused := some 400, pausedDone := 2 })
     (s.grp 7).due = true ∧ (s.grp 7).retryAt ≤ s.elapsed ∧ s.calAvailable 7 = true ∧ s.groupTemp 7 = some 404 ∧
     2 * ((404 : Int) - 400).natAbs ≤ s.calDT) ∧
    (let s := measured ((core5 .locked).setFld Fields.CAL_CFG_EN 0 1 |>.modCore 5 fun x => { x with role := .live })
     s.calAvailable 5 = false ∧ s.groupTemp 5 = some 404) ∧
    (let s : State := { calRunning 7 2 none none with elapsed := 10000000000 }
     (⟨7, 1000, none, none, 2, false, 0⟩ : CalRun).needsRef = true ∧ (s.ref 4).qualified = false ∧
     max 1000 (s.ref 4).lostAt + s.fld1 Fields.CAL_LIMITS_REFTO 0 * 5000000 ≤ s.elapsed) ∧
    (let s : State := { active with elapsed := 10000000000 }
     (s.grp 7).starved = false ∧ (s.grp 7).dueSince + s.fld1 Fields.CAL_CFG_STARVE 0 * 5000000 ≤ s.elapsed) ∧
    ((active.modGrp 7 fun x => { x with due := false }).grp 7).due = false ∧
    (active.serves = true ∧ active.gsel < 60 ∧ (calRunning 0 2 none none).gsel = 0) := by decide +kernel

theorem witness_CalibrationValuesTakeEffect :
    (let s := calRunning 58 0 (some 400) (some 402)
     s.up = true ∧ s.reloads.contains 2 = false ∧ s.cal.run = some ⟨58, 1000, some 400, some 402, 0, false, 0⟩ ∧ (⟨58, 1000, some 400, some 402, 0, false, 0⟩ : CalRun).needsRef = false ∧
     2 * ((402 : Int) - 400).natAbs ≤ s.calDT ∧ s.calDT < 2 * ((402 : Int) - 200).natAbs ∧ s.flag Fields.MON_STAT_FENCED 0 = false ∧
     s.mon.queue.length < 2) ∧
    (let w : CalWait := ⟨[⟨5, 9#32⟩], 400, 1, 99000⟩
     let s := active.modGrp 58 fun x => { x with waiting := some w }
     (s.grp 58).waiting = some w ∧ (s.grp 58).hasVal = false ∧ s.calTakes 58 w.readyAt = true) ∧
    (let w : CalWait := ⟨[⟨5, 9#32⟩], 400, 1, 99000⟩
     let s := ((core5 .locked).modGrp 5 fun x => { x with waiting := some w }).modCore 5 fun x => { x with role := .live, lockAt := some 0 }
     (s.grp 5).waiting = some w ∧ s.calTakes 5 w.readyAt = false) := by decide +kernel

/-- A device whose image buffer holds the header of an image of reference group 58. -/
def imaged : State :=
  { active with cal := { Cal.reset with img := WMap.setMany [] 0 [0xCA1B0001#32, 29#32, 1#32, 0#32, 0#32, 0#32, 0#32, 0#32, 0x04000000#32] } }

theorem witness_CalibrationImages :
    (let s := active
     s.serves = true ∧ s.fld Fields.CAL_TADDR_GROUP 0 < 60 ∧
     s.fld Fields.CAL_TADDR_ITEM 0 < calWords (s.fld Fields.CAL_TADDR_GROUP 0) ∧ s.calOwned (s.fld Fields.CAL_TADDR_GROUP 0) = false) ∧
    (60 ≤ (active.setFld Fields.CAL_TADDR_GROUP 0 60).fld Fields.CAL_TADDR_GROUP 0 ∧
     (let s := (active.setFld Fields.CAL_TADDR_GROUP 0 59).setFld Fields.CAL_TADDR_ITEM 0 4
      calWords (s.fld Fields.CAL_TADDR_GROUP 0) ≤ s.fld Fields.CAL_TADDR_ITEM 0)) ∧
    ((running 200000).serves = true ∧ (running 200000).anyRunning = true) ∧
    (imaged.serves = true ∧ imaged.anyRunning = false ∧ (∀ r : Fin 2, imaged.flag Fields.RAS_CFG_EN r = false) ∧ imaged.cal.run = none ∧
     imaged.cal.img.get 0 = 0xCA1B0001#32 ∧ (imaged.cal.img.get 1).toNat ≤ 32768 ∧
     imageGroups (imaged.cal.img.slice 0 (min 32768 (imaged.cal.img.get 1).toNat)) = [58]) ∧
    (let s : State := { active with store := { active.store with queue := [⟨2, []⟩] } }
     s.serves = true ∧ s.calCommitting = true) ∧ active.calCommitting = false ∧
    active.store.readOnly = false ∧ ({ active with store := { active.store with readOnly := true } } : State).store.readOnly = true := by
  decide +kernel

/-! ## The monitor, power and the barrow -/

/-- The converter ends slot 199 at tick 100,000. -/
def converting (u : MonUse) : State :=
  { active with mon := { active.mon with slot := some 199, use := u, fails := #v[1, 0], queue := [⟨5, none, 1⟩, ⟨6, none, 2⟩] } }

theorem witness_ConversionsAndInjections :
    (let s := converting (.scan 3 5)
     s.up = true ∧ s.counting = true ∧ s.now % 500 = 0 ∧ s.mon.maskDue = false ∧ s.mon.slot = some 199 ∧ 500 * (199 + 1) ≤ s.now ∧
     s.flag Fields.MON_STAT_FENCED 0 = false ∧ s.mon.use = .scan 3 5) ∧
    (let s := converting (.check 60)
     s.mon.use = .check 60 ∧ s.mon.fails[0] = 1 ∧ (7935#14).toNat + 64 < 8000) ∧
    (active.hostServes = true ∧ active.power ≠ 4 ∧ active.serves = true ∧ active.mon.queue.length < 2 ∧ 2 ≤ (converting .none).mon.queue.length) ∧
    (32 < (scanList (active.setReg .MON_SCAN_HI 0 1#32).scanWritten).length ∧
     (scanList (active.setReg .MON_SCAN_LO 0 0xFFFFFFFF#32).scanWritten).length ≤ 32) ∧
    ((active.setFld Fields.MON_CTL_RUN 0 0).flag Fields.MON_CTL_RUN 0 = false ∧ (active.setFld Fields.MON_CTL_RUN 0 1).flag Fields.MON_CTL_RUN 0 = true ∧
     scanList active.mon.mask ≠ []) ∧
    (let s : State := { active with mon := { active.mon with maskDue := true } }
     s.mon.maskDue = true) := by decide +kernel

/-- The barrow of a device in a power state, its period over. -/
def dormant (p : Nat) : State := { active.setFld Fields.PWR_STATE_STATE 0 p with elapsed := 10000000000 }

theorem witness_PowerAndTheBarrow :
    (standby.serves = true ∧ standby.power = 2 ∧ active.power = 3 ∧ standby.powering = false) ∧
    (({ standby with powering := true } : State).powering = true ∧ standby.halted = false) ∧
    (active.anyRunning = false ∧ (∀ r : Fin 2, (active.rasCh r).bound = false) ∧ (running 200000).anyRunning = true ∧
     active.storeBusy = false) ∧
    ((dormant 3).barSamples = true ∧ (dormant 3).power ≠ 1 ∧
     (dormant 3).bar.periodFrom + max 1 ((dormant 3).fld Fields.BAR_CFG_PERIOD 0) * 450000 ≤ (dormant 3).elapsed) ∧
    (let s := ((dormant 1).setReg .BAR_WAKEEN 0 8#32).setReg .BAR_IN_CFG 3 50#32
     s.barSamples = true ∧ s.power = 1 ∧ (s.barAnalogue 3 (([0, 0, 0, 60] : List Int).getD 3 0)).cond = true ∧ bitOf (s.reg .BAR_WAKEEN 0) 3 = true ∧
     (∀ j : Fin 11, bitOf (s.reg .BAR_INHIB 0) j = false)) ∧
    active.elapsed < active.bar.periodFrom + max 1 (active.fld Fields.BAR_CFG_PERIOD 0) * 450000 := by decide +kernel

/-! ## Faults -/

/-- A raise of a class, stamped one tick ago. -/
def raiseOf (f : Fid) (cls : Nat) : Raise := ⟨f, 99999, 99999, 0, false, false, cls, false, false, none, 99999, none, none⟩

/-- A device with one raise waiting. -/
def raised (f : Fid) (cls : Nat) : State := { active with raises := [raiseOf f cls] }

theorem witness_FaultsReact :
    (let r := raiseOf Src.store_FLASH_UNCORR 1
     let s := raised Src.store_FLASH_UNCORR 1
     s.reacts = true ∧ s.raises = [r] ∧ r.at_ < s.elapsed ∧ r.lapse = none ∧ windowIndex r.fid.code r.fid.inst < 97 ∧ r.fid.bit < 32 ∧
     (s.win (windowIndex r.fid.code r.fid.inst)).suppresses r = none ∧
     s.mbx.busy = false ∧ (s.win (windowIndex r.fid.code r.fid.inst)).effective r = 1 ∧ r.fid.code ≠ 3 ∧ r.fid.code ≠ 4 ∧
     bitOf (s.win (windowIndex r.fid.code r.fid.inst)).grace r.fid.bit = false ∧
     (s.win (windowIndex 3 0)).effective (raiseOf ⟨3, 0, 2⟩ 0) = 0) ∧
    (let r := raiseOf Src.glb_SCHED_REFUSED 1
     let s := (raised Src.glb_SCHED_REFUSED 1).modWin 0 fun w => { w with supp := [⟨7, 99990, 100090, Src.time_STOPPED, none⟩] }
     s.raises = [r] ∧ r.grace = false ∧ (s.win (windowIndex r.fid.code r.fid.inst)).suppresses r = some Src.time_STOPPED) ∧
    (let s : State := { active with raises := [{ raiseOf Src.glb_CFG_PARITY 2 with at_ := 100000 }] }
     (s.raises.all fun r => decide (s.elapsed ≤ r.at_)) = true) ∧
    (let s := raised ⟨3, 25, 5⟩ 2
     (s.core 25).role ≠ .fenced ∧ (s.win (windowIndex 3 25)).suppresses (raiseOf ⟨3, 25, 5⟩ 2) = none ∧
     (s.win (windowIndex 3 25)).effective (raiseOf ⟨3, 25, 5⟩ 2) = 2) ∧
    (let s := raised ⟨6, 31, 5⟩ 1
     let s := s.modWin (windowIndex 6 31) fun w => { w with pend := 1#32, pendMinor := 1#32, ecls0 := 1#32 }
     (s.win (windowIndex 6 31)).suppresses (raiseOf ⟨6, 31, 5⟩ 1) = none ∧ (s.win (windowIndex 6 31)).effective (raiseOf ⟨6, 31, 5⟩ 1) = 2) ∧
    ((raised ⟨4, 7, 0⟩ 2).win (windowIndex 4 7)).effective (raiseOf ⟨4, 7, 0⟩ 2) = 2 ∧
    (let s := raised Src.glb_CFG_PARITY 3
     (s.win 0).suppresses (raiseOf Src.glb_CFG_PARITY 3) = none ∧ (s.win 0).effective (raiseOf Src.glb_CFG_PARITY 3) = 3) := by decide +kernel

/-- A grace timer of FLASH_UNCORR that ends now. -/
def timer : GraceTimer := ⟨Src.store_FLASH_UNCORR.bit, 100000, raiseOf Src.store_FLASH_UNCORR 1⟩

theorem witness_FaultsAreAcknowledged :
    (active.serves = true ∧ (active.win 96).freshAt ≠ active.elapsed ∧
     (∀ b : Fin 32, bitOf (0xFFFFFFFF#32 : Word) b = true → active.isLive ⟨(windowOf 96).1, (windowOf 96).2, b.val⟩ = false)) ∧
    (let s := active.modWin 90 fun w => { w with graceTimers := [timer] }
     s.reacts = true ∧ (s.win 90).graceTimers = [timer] ∧ timer.due ≤ s.elapsed ∧ timer.bit < 32 ∧
     (∀ v : Fin 97, v ≠ 90 → (s.win v).graceTimers = [])) ∧
    (let x : Suppression := ⟨0, 0, 100000, Src.time_STOPPED, none⟩
     let s := active.modWin 2 fun w => { w with supp := [x], live := 1 }
     (s.win 2).supp = [x] ∧ x.until_ ≤ s.elapsed ∧ x.bit < 32 ∧ (∀ v : Fin 97, v ≠ 2 → (s.win v).supp = []) ∧
     s.unitFenced ⟨2, 0, 0⟩ = false ∧ isLevel ⟨2, 0, 0⟩ = true ∧ s.isLive ⟨2, 0, 0⟩ = true ∧ isLevel ⟨2, 0, 8⟩ = false) := by decide +kernel

/-- FLT_SEL of a window armed for an item. -/
def selecting (w item : Nat) : State := active.modWin w fun x => { x with sel := BitVec.ofNat 32 (0xA5000000 + item) }

theorem witness_FaultsAreForcedAndRead :
    (let s := selecting 2 2
     (s.serves = true ∧ (s.win 2).selItem = 2 ∧ getBits (s.win 2).sel 24 8 = 0xA5 ∧ (s.win 2).force = 0 ∧
      s.unitFenced ⟨2, 0, 16⟩ = false ∧ bitOf (usedSources 2) 16 = true ∧ s.isLive ⟨2, 0, 16⟩ = false ∧ s.raises = []) ∧
     ∀ u : State, u.detect ⟨2, 0, 16⟩ = u) ∧
    ((let s := active.modWin 96 fun x => { x with sel := 2 }
      getBits (s.win 96).sel 24 8 ≠ 0xA5 ∧ (s.win 96).selItem = 2) ∧
     (let s := active.modWin 0 fun x => { x with sel := 3 }
      getBits (s.win 0).sel 24 8 ≠ 0xA5 ∧ (s.win 0).selItem = 3)) ∧
    active.serves = true ∧
    (let s := selecting 94 3
     (s.win 94).selItem = 3 ∧ getBits (s.win 94).sel 24 8 = 0xA5 ∧
     (∀ b : Fin 32, s.unitFenced ⟨(windowOf 94).1, (windowOf 94).2, b.val⟩ = false)) ∧
    (let s := (core5 .locked).modWin (windowIndex 3 5) fun x => { x with inj := 0x20 }
     s.reacts = true ∧ bitOf (s.win (windowIndex 3 5)).inj 5 = true ∧ (windowOf (windowIndex 3 5)).1 ∉ [0, 5, 10, 15, 16, 17] ∧
     s.unitFenced ⟨3, 5, 5⟩ = false ∧ s.checkerRuns ⟨3, 5, 5⟩ = true ∧ s.raises = []) ∧
    bitOf (active.win 96).inj 31 = false ∧
    (let e := (raiseOf Src.glb_CFG_PARITY 2).entry 2 false
     let s := active.modWin 0 fun x => { x with sel := 76, tally := List.replicate 16 e }
     s.hostServes = true ∧ s.power ≠ 4 ∧ (s.win 0).selItem = 16 + 4 * 15 ∧ (s.win 0).tally[15]? = some e) := by
  refine ⟨⟨by decide +kernel, fun _ => rfl⟩, ?_⟩; decide +kernel

theorem witness_ProcessorsAndStoreRows :
    active.mgmtRuns = true ∧
    (let r := raiseOf Src.glb_MGMT_CHECK 2
     let s : State := { raised Src.glb_MGMT_CHECK 2 with mbx := ⟨true, 0, 0⟩ }
     s.reacts = true ∧ s.raises = [r] ∧ r.at_ < s.elapsed ∧ r.lapse = none ∧ (s.win 0).suppresses r = none ∧
     (s.win 0).effective r ≤ 2 ∧ s.mbx.busy = true) ∧
    (({ active with reloads := [3] } : State).reloads.contains (3 : Fin 4).val = true ∧ active.reloads.contains (0 : Fin 4).val = false) ∧
    (active.up = true ∧ active.reloads.contains 1 = false ∧ active.reacts = true ∧ active.reloads.contains 3 = false) ∧
    active.isLive Src.glb_SUPPLY_UV = false ∧
    (0 < active.spareRows[0] ∧ 0 < active.spareRows[8] ∧ (5#14).toNat ∈ [5, 6] ∧ (7#14).toNat ∉ [5, 6]) ∧
    (let s : State := { active with spareRows := Vector.replicate 10 0 }
     s.spareRows[8] = 0 ∧ s.raises = []) := by decide +kernel

theorem witness_StartsBegin :
    ({ active with pins := { active.pins with aon := false } } : State).pins.aon = false ∧
    (active.pins.aon = true ∧ active.halted = false ∧ active.startStage ≠ 0 ∧ active.raises = []) ∧
    ({ active with halted := true } : State).halted = true ∧
    (State.reset.startStage = 0 ∧ State.reset.boot.kind = 0 ∧ State.reset.power = 2) ∧
    ({ active with pins := { active.pins with porLow := true } } : State).pins.porLow = true := by decide +kernel

/-! ## Starts, the ledger and field update -/

/-- A full image of 1,024 bytes, signed by the P-384 key of the tests. -/
def img : List Byte := beBytes 368 0x0c5888400001000100000400000200000000000b0000000100000200000000100100000b0000000100000210000000100200000b0000000100000220000000100300000b000000010000023000000010d83d9a38c238ef3b7bc207bbea3287a8b37b37e731480a8d240d2a6953086c5ecbdf7ee4c72fec3a3e9d4a87f4f9b4fe000000000000000000000000000000000000000000000000000000000000000000000000000000000000000000000000a1c57a7e48f909690f52937b53c8ce2750d5561ccfa88ea6b6e8084484aae5fe9ce0784f3003563ebca79806ea7226055548c305603e2f171d1bad218ba3e7360420349710e57fd6b5d5a0b8a8a71c86290fc37d0159e9569acfff95329ff2293c3cc45783955e29fcece56e079c5f04aabf705aa10b5bf94a98813431c8dfd16fc1a3f654501980e8d087bf4d47b63b4021ccc8e63e48f9cad0f1bae61e4e65749233b4ea63df62de6e76cdc91faca7caa76f34ba5d194d22e7b9bdf185d414 ++ List.replicate 656 0

/-- The SHA-384 of the tests' public key. -/
def imgKey : BitVec 384 := 0x4a8e94167f289336f4a54da70fca2b8cf058b3e8cd42791bf789af906f2ff0c57023169b30c7b1ecda0d746f88e08267#384

/-- OTP with that key, and every floor at 11. -/
def otp0 : Otp := ⟨Vector.replicate 4 11, 0, imgKey, 5⟩

theorem img_starts : imageStarts otp0 img = .ok := by decide +kernel

/-- A device in stage `n` of a start, with the image in both slots. -/
def starting (n : Nat) : State :=
  { State.reset.setFld Fields.STORE_START_STAGE 0 n with otp := otp0, flash := { State.reset.flash with active := img, fallback := img } }

/-- The same with a slot table in a state. -/
def slot (s : State) (u : UpdState) : State :=
  { s with flash := { s.flash with table_ := some ⟨u, 3, false, false, true, true, 9, [], [], [], 0⟩, staging := img } }

theorem witness_StartStagesFollow :
    (∀ n : Fin 6, (starting n).halted = false ∧ (starting n).power = 2 ∧ (starting n).pins.aon = true ∧ (starting n).startStage = n.val) ∧
    ((starting 0).pins.porLow = false ∧ (starting 0).pins.resetLow = false ∧ (starting 0).pins.testMode = false ∧
     (starting 1).flash.answers = true ∧ 64 ≤ (starting 1).flash.mib ∧ (starting 2).entry.state = .idle) ∧
    (imageStarts otp0 [] ≠ .ok ∧ (slot (starting 2) .idle).entry.fbValid = true ∧ (starting 2).entry.fbValid = false) ∧
    ((slot (starting 2) .armed).flash.journal = [] ∧ (slot (starting 2) .armed).entry.state = .armed ∧ 0 < slotBlocks (targetLength img) ∧
     (slot (starting 2) .trial).entry.state = .trial ∧ 3 ≤ (slot (starting 2) .trial).entry.trials ∧ 0 < slotBlocks (imgLength img)) ∧
    (starting 4).flash.pool.any (fun b => b.role.serves) = false ∧
    ((starting 4).initStore.flash.pool.any (fun b => b.role.serves)) = true ∧
    (let s := starting 5
     s.base.sections = [] ∧ s.flash.ring = [] ∧ s.flash.ringHead = s.flash.ringBlock ∧ s.flash.ringWord = 0 ∧ s.flash.table_ = none ∧
     s.store.updEvents = [] ∧ s.flag Fields.STORE_CFG_AUTOACTIVE 0 = false) ∧
    ((starting 1).reacts = true ∧ standby.reacts = true ∧ standby.startStage = 6) := by decide +kernel

/-- A device with a copy under way. -/
def copying (c : Copy) : State := { starting 2 with boot := { (starting 2).boot with copy := some c } }

theorem witness_UpdatesAdvance :
    (let c : Copy := ⟨false, false, 1, 0, 2, 2⟩
     (copying c).halted = false ∧ (copying c).boot.copy = some c ∧ c.block + 1 < c.blocks) ∧
    (let c : Copy := ⟨true, false, 2, 1, 0, 2⟩
     (copying c).boot.copy = some c ∧ c.block + 1 = c.blocks) ∧
    standby.boot.copy = none ∧
    (let s : State := { slot standby .trial with boot := { standby.boot with doneAt := some 0 }, elapsed := 500000000000 }
     let s := s.setFld Fields.UPD_CFG_TRIALTO 0 600
     s.up = true ∧ s.boot.doneAt = some 0 ∧ s.fld Fields.UPD_CFG_TRIALTO 0 = 600 ∧ s.entry.state = .trial ∧
     0 + 500000000 * 600 ≤ s.elapsed) ∧
    (∀ u : Fin 5, (slot standby ([UpdState.trial, .verified, .armed, .receiving, .idle].getD u .idle)).serves = true) ∧
    (standby.boot.recovery = 0 ∧ State.reset.hostServes = true ∧ State.reset.startStage ≠ 6 ∧ State.reset.itsTurn = true) := by decide +kernel

/-- A device whose STORE_CFG is not the committed one: one item is dirty. -/
def dirty : State := { standby with store := { standby.store with present := standby.store.present.set .STORE_CFG 0 5#32 } }

/-- A record that waits for its COMMIT word. -/
def record0 : Record := ⟨1, 1, 0, [], .torn, 0, 0⟩

theorem witness_LedgerCommits :
    (dirty.serves = true ∧ dirty.store.readOnly = false ∧ dirty.dirtyItems ≠ [] ∧ dirty.store.queue = [] ∧ dirty.store.writing = none ∧
     dirty.flash.fits (recordLength (itemWords dirty.dirtyItems)) = true ∧ standby.dirtyItems = []) ∧
    (let s : State := { dirty with store := { dirty.store with writing := some record0 } }
     s.serves = true ∧ s.store.writing.isSome = true ∧ s.halted = false ∧ s.store.writing = some record0 ∧ s.fullAt < s.flash.ringFree ∧
     s.store.fulling = none ∧ ({ s.flash with ringBlock := 80 } : Flash).ringFree ≤ s.fullAt) ∧
    (let s : State := { standby with store := { standby.store with fulling := some 0 } }
     s.store.fulling = some 0) ∧
    (standby.boot.copy = none ∧ (standby.flash.pool[(127 : Fin 128).val]?.map fun b => b.role != .retired) = some true ∧
     (copying ⟨false, false, 1, 0, 2, 2⟩).boot.copy.isSome = true) := by decide +kernel

/-! ## The service port -/

/-- A session on SVC. -/
def sess : Session := ⟨beBytes 32 7, false, 0, 65535, 99999⟩

/-- A device with an open session, in a state of the update logic. -/
def served (u : UpdState) : State := { slot active u with otp := otp0, svc := { Svc.reset with session := some sess } }

/-- A device that has answered OPEN. -/
def opened : State := { active with otp := otp0, svc := { Svc.reset with nonce := some (beBytes 16 1) } }

/-- What proves the device key to `opened`, for a host nonce of 5. -/
def proof : List Byte := hmac opened.keyBytes (asciiTag 0x50 0x4C 0x41 0x31 ++ opened.serialBytes ++ beBytes 16 1 ++ beBytes 16 5)

theorem served_accepts (u : UpdState) (c : Nat) (p : List Byte) (hc : c < 256) (hp : p.length ≤ 1024) :
    (served u).accepted (requestFrame (some sess.key) c 0 p) (requestOf (some sess.key) c 0 p) sess c :=
  State.accepted_requestFrame (served u) sess c p (by cases u <;> decide +kernel) (by cases u <;> decide +kernel) rfl rfl hc hp

theorem witness_SessionsAreOpenedAndAuthenticated :
    (opened.mgmtRuns = true ∧ opened.svcServes = true ∧ plipoParse [] = none ∧ opened.svc.session = none ∧ opened.svc.lockUntil = none) ∧
    (plipoParse (requestFrame none 1 0 []) = some (requestOf none 1 0 []) ∧
     plipoParse (requestFrame none 1 5 []) = some (requestOf none 1 5 [])) ∧
    (let s : State := { opened with svc := { opened.svc with lockUntil := some 100001 } }
     s.svc.lockUntil = some 100001 ∧ s.elapsed < 100001) ∧
    (let r := requestOf none 2 0 (beBytes 16 5 ++ proof)
     plipoParse (requestFrame none 2 0 (beBytes 16 5 ++ proof)) = some r ∧ r.payload.length = 48 ∧ opened.svc.nonce = some (beBytes 16 1) ∧
     hmac opened.keyBytes (asciiTag 0x50 0x4C 0x41 0x31 ++ opened.serialBytes ++ beBytes 16 1 ++ r.payload.take 16) = r.payload.drop 16) ∧
    (let r := requestOf none 2 0 (List.replicate 48 0)
     plipoParse (requestFrame none 2 0 (List.replicate 48 0)) = some r ∧ r.payload.length = 48 ∧
     hmac opened.keyBytes (asciiTag 0x50 0x4C 0x41 0x31 ++ opened.serialBytes ++ beBytes 16 1 ++ r.payload.take 16) ≠ r.payload.drop 16) ∧
    (served .receiving).accepted (requestFrame (some sess.key) 3 0 []) (requestOf (some sess.key) 3 0 []) sess 3 ∧
    (let s : State := { opened with svc := { opened.svc with resp := [1] } }
     s.svc.resp ≠ [] ∧ s.svc.restart = false ∧ opened.svc.resp = []) ∧
    (let s : State := { served .idle with elapsed := 6000000000 }
     s.svc.session = some sess ∧ sess.heardAt + 5000000000 ≤ s.elapsed ∧ active.elapsed < sess.heardAt + 5000000000) ∧
    (∀ p ∈ sessionRows (requestFrame none 4 9 []), (requestOf none p.2 9 []).mac ≠ some ((hmac sess.key (requestOf none p.2 9 []).signed).take 16)) ∧
    ((requestOf (some sess.key) 4 65535 []).mac = some ((hmac sess.key (requestOf (some sess.key) 4 65535 []).signed).take 16) ∧
     (requestOf (some sess.key) 4 65535 []).seq = sess.seq ∧ (requestOf (some sess.key) 4 9 []).seq ≠ sess.seq ∧
     (requestOf (some sess.key) 4 9 []).seq ≠ (sess.seq + 1) % 65536) := by
  refine ⟨by decide +kernel, ⟨plipoParse_requestFrame none 1 0 [] (by decide) (by decide) (by decide), plipoParse_requestFrame none 1 5 [] (by decide) (by decide) (by decide)⟩, by decide +kernel,
    ⟨plipoParse_requestFrame none 2 0 _ (by decide) (by decide) (by simp [proof]), by simp [requestOf, proof], rfl, ?_⟩,
    ⟨plipoParse_requestFrame none 2 0 _ (by decide) (by decide) (by simp), by simp [requestOf], by decide +kernel⟩,
    served_accepts .receiving 3 [] (by decide) (by decide), by decide +kernel, by decide +kernel, ?_, by decide +kernel⟩
  · have h : (beBytes 16 5).length = 16 := by simp
    simp only [requestOf, List.take_left' h, List.drop_left' h]; rfl
  · simp [requestOf]

theorem witness_SessionRequestsAreServed :
    ((served .idle).accepted (requestFrame (some sess.key) 4 0 []) (requestOf (some sess.key) 4 0 []) sess 4 ∧
     (served .idle).accepted (requestFrame (some sess.key) 0x25 0 []) (requestOf (some sess.key) 0x25 0 []) sess 0x25) ∧
    (let p := beBytes 2 (regAddr .GLB_SCRATCH 0) ++ beBytes 2 1
     (served .idle).accepted (requestFrame (some sess.key) 0x10 0 p) (requestOf (some sess.key) 0x10 0 p) sess 0x10 ∧ p.length = 4 ∧
     field p 2 2 = 1 ∧ field p 0 2 = regAddr .GLB_SCRATCH 0 ∧ (served .idle).power ≠ 4 ∧ field (beBytes 2 0 ++ beBytes 2 256) 2 2 = 256) ∧
    (let p := beBytes 2 (regAddr .GLB_SCRATCH 0) ++ beBytes 4 0xCAFE
     (served .idle).accepted (requestFrame (some sess.key) 0x11 0 p) (requestOf (some sess.key) 0x11 0 p) sess 0x11 ∧ p.length = 6 ∧
     (served .idle).serves = true ∧ field p 0 2 = regAddr .GLB_SCRATCH 0 ∧
     field (beBytes 2 (regAddr .UPD_CMD 0) ++ beBytes 4 1) 0 2 = regAddr .UPD_CMD 0) := by
  refine ⟨⟨served_accepts .idle 4 [] (by decide) (by decide), served_accepts .idle 0x25 [] (by decide) (by decide)⟩,
    ⟨served_accepts .idle 0x10 _ (by decide) (by decide), ?_⟩, ⟨served_accepts .idle 0x11 _ (by decide) (by decide), ?_⟩⟩ <;> decide +kernel

theorem witness_ImagesAreDownloaded :
    (let p := img.take 512
     (served .idle).accepted (requestFrame (some sess.key) 0x20 0 p) (requestOf (some sess.key) 0x20 0 p) sess 0x20 ∧ p.length = 512 ∧
     (served .idle).boot.recovery = 0 ∧ (served .idle).entry.state = .idle ∧ (served .idle).checkHeader (List.replicate 512 0) ≠ .ok) ∧
    (served .idle).checkHeader (img.take 512) = .ok ∧
    (let p := beBytes 4 512 ++ [0xAB]
     let s : State := { served .receiving with boot := { (served .receiving).boot with length := 512 } }
     s.accepted (requestFrame (some sess.key) 0x21 0 p) (requestOf (some sess.key) 0x21 0 p) sess 0x21 ∧ 5 ≤ p.length ∧
     s.entry.state = .receiving ∧ field p 0 4 = s.boot.length ∧ s.boot.length + (p.length - 4) ≤ imgLength s.flash.staging ∧
     field (beBytes 4 516) 0 4 ≠ s.boot.length) ∧
    (let s : State := { served .receiving with boot := { (served .receiving).boot with length := 1024 } }
     s.accepted (requestFrame (some sess.key) 0x22 0 []) (requestOf (some sess.key) 0x22 0 []) sess 0x22 ∧ s.entry.state = .receiving ∧
     s.boot.length = imgLength s.flash.staging ∧ s.checkStaged s.flash.staging = .ok ∧ s.checkStaged [] ≠ .ok ∧
     (served .receiving).boot.length ≠ imgLength s.flash.staging) ∧
    ((served .verified).accepted (requestFrame (some sess.key) 0x23 0 [1]) (requestOf (some sess.key) 0x23 0 [1]) sess 0x23 ∧
     (served .armed).accepted (requestFrame (some sess.key) 0x24 0 []) (requestOf (some sess.key) 0x24 0 []) sess 0x24 ∧
     (served .verified).entry.state = .verified ∧ (served .armed).entry.state = .armed) := by
  refine ⟨⟨served_accepts .idle 0x20 _ (by decide) (by decide +kernel), ?_⟩, by decide +kernel,
    ⟨State.accepted_requestFrame _ sess 0x21 _ (by decide +kernel) (by decide +kernel) rfl rfl (by decide) (by decide), ?_⟩,
    ⟨State.accepted_requestFrame _ sess 0x22 [] (by decide +kernel) (by decide +kernel) rfl rfl (by decide) (by decide), ?_⟩,
    served_accepts .verified 0x23 _ (by decide) (by decide), served_accepts .armed 0x24 [] (by decide) (by decide), ?_⟩ <;> decide +kernel

/-! ## The host port and the mailbox -/

/-- A WRITE of GLB_SCRATCH with its CRC. -/
def crcWrite : List Byte :=
  let l := beBytes 1 0x82 ++ beBytes 2 (regAddr .GLB_SCRATCH 0) ++ beBytes 4 0xCAFE
  l ++ [crc8 l]

theorem witness_HspiTransactions :
    (let s : State := { active with hspi := { active.hspi with queue := List.replicate 3 ⟨0, 0, 0⟩ } }
     s.hostServes = true ∧ s.hspi.queue.length < 4 ∧ s.crcRequired = false ∧ field (beBytes 1 2 ++ beBytes 6 9) 0 1 = 2 ∧
     (beBytes 1 2 ++ beBytes 6 9).length = 7) ∧
    (field crcWrite 0 1 = 0x82 ∧ crcWrite.length = 8 ∧ crc8 (crcWrite.take 7) = crcWrite.getD 7 0) ∧
    (let l := crcWrite.take 7 ++ [crc8 (crcWrite.take 7) + 1]
     field l 0 1 = 0x82 ∧ l.length = 8 ∧ crc8 (l.take 7) ≠ l.getD 7 0) ∧
    (field [2, 0, 0] 0 1 = 2 ∧ ([2, 0, 0] : List Byte).length ≠ 7) ∧
    (let s : State := { active with hspi := { active.hspi with queue := List.replicate 4 ⟨0, 0, 0⟩ } }
     s.hostServes = true ∧ 4 ≤ s.hspi.queue.length) ∧
    (let w : HspiWrite := ⟨regAddr .GLB_SCRATCH 0, 0xCAFE, 99998⟩
     let s : State := { active with hspi := { active.hspi with queue := [w, w] } }
     s.serves = true ∧ s.hspi.queue = [w, w] ∧ w.at_ + 2 ≤ s.elapsed ∧ (⟨0x1FE, 0, 99998⟩ : HspiWrite).addr % 4 ≠ 0 ∧
     s.elapsed < (⟨0x1FE, 0, 99999⟩ : HspiWrite).at_ + 2) ∧
    (let l : List Byte := beBytes 1 3 ++ beBytes 2 (regAddr .GLB_SCRATCH 0) ++ List.replicate (5 + active.fld Fields.HSPI_CFG_DUMMY 0) 0
     active.hostServes = true ∧ active.power ≠ 4 ∧ field l 0 1 = 3 ∧ active.crcRequired = false ∧ active.hspi.queue = [] ∧
     field l 1 2 = regAddr .GLB_SCRATCH 0 ∧ l.length = 8 + active.fld Fields.HSPI_CFG_DUMMY 0) ∧
    (let s : State := { active with hspi := { active.hspi with read := some (0, 0xCAFE) } }
     field [0x0B, 0, 0, 0, 0, 0] 0 1 = 0x0B ∧ s.hspi.read = some (0, 0xCAFE)) ∧
    ({ active with pins := { active.pins with aon := false } } : State).hostServes = false := by decide +kernel

/-- The mailbox of a device runs a command with its arguments. -/
def mboxOn (s : State) (cmd : Nat) (args : List Word) : State :=
  { args.zipIdx.foldl (fun s (w, k) => s.setReg .MBX_ARG k w) (s.setFld Fields.MBX_CTL_CMD 0 cmd) with mbx := ⟨true, 0, 0⟩ }

/-- The same on the active device. -/
def mbox (cmd : Nat) (args : List Word) : State := mboxOn active cmd args

theorem witness_MailboxServesOutputs :
    (active.serves = true ∧ active.mbx.busy = false ∧ (mbox 1 []).mbx.busy = true ∧ bitOf (0x80000001#32 : Word) 31 = true ∧
     getBits (0x80000010#32 : Word) 0 8 = 16) ∧
    (∀ p ∈ mbxRows, active.mbxRuns p.2 0 = false ∧ active.mbxRuns p.2 2 = false) ∧
    ((mbox 1 []).mbxRuns 1 0 = true ∧ (mbox 1 []).power ≠ 1) ∧
    (let s := mbox 5 [31, 1, 240, 0xFFFF]
     s.serves = true ∧ s.mbxRuns 5 0 = true ∧ (s.arg 0).toNat = 31 ∧ (s.arg 1).toNat ≤ 1 ∧ (s.arg 2).toNat ≤ 240 ∧ (s.arg 3).toNat ≤ 65535 ∧
     s.outOwned 31 = false) ∧
    (let s := mboxOn owned4 5 [4, 1, 240, 0xFFFF]
     s.serves = true ∧ s.mbxRuns 5 0 = true ∧ (s.arg 0).toNat = 4 ∧ s.outOwned 4 = true) ∧
    ((mbox 5 [32]).mbxRuns 5 0 = true ∧ 32 ≤ ((mbox 5 [32]).arg 0).toNat) ∧
    (let s := mbox 6 [0x80000001#32]
     s.serves = true ∧ s.mbxRuns 6 0 = true ∧ (∀ o : Fin 32, bitOf (s.arg 0) o = true → s.outTaken o = false)) ∧
    (let s := mboxOn owned4 6 [0x10#32]
     s.mbxRuns 6 0 = true ∧ bitOf (s.arg 0) 4 = true ∧ s.outTaken 4 = true) ∧
    (let s := mbox 7 [0, 0, 4096, 0xFFFF, 3]
     s.serves = true ∧ s.mbxRuns 7 0 = true ∧ (s.arg 0).toNat = 0 ∧ 2 ≤ (s.arg 2).toNat ∧ (s.arg 2).toNat ≤ 4096 ∧
     (s.arg 3).toNat ≤ 65535 ∧ (s.arg 4).toNat = 3 ∧ s.outTaken 0 = false) := by decide +kernel

theorem ok_of_fst {α : Type} {x : WStatus × α} (h : x.1 = .ok) : x = (.ok, x.2) := by cases x; cases h; rfl

/-- ANCHOR_SET of anchor 0 with a 100 MHz crystal on REFB at 10 MHz, while anchor 0 is off. -/
def anchoring : State := { (mbox 2 [0x2A2#32, 100000000#32, 10000000#32]).setFld Fields.ANC_CFG_EN 0 0 with anchors := #v[Anchor.reset, Anchor.reset] }

/-- The writes of that ANCHOR_SET: the ratio 800/1 and the inner divider 80. -/
def anchorWrites : List (Nat × Word) :=
  [(regAddr .REF_CFG 1, anchoring.withFields .REF_CFG 1 [(Fields.REF_CFG_PREDIV, 0), (Fields.REF_CFG_EN, 1)]),
   (regAddr .REF_RATIO_NUM 1, 800#32), (regAddr .REF_RATIO_DEN 1, 1#32), (regAddr .ANC_INNER_N 0, 80#32),
   (regAddr .ANC_INNER_NUM 0, 0#32), (regAddr .ANC_INNER_DEN 0, 1#32),
   (regAddr .ANC_CFG 0, anchoring.withFields .ANC_CFG 0
     [(Fields.ANC_CFG_REFSEL, 1), (Fields.ANC_CFG_BW, getBits (anchoring.arg 0) 4 5), (Fields.ANC_CFG_EN, 1)])]

/-- OUT_FREQ of output 3 at 1 GHz. -/
def freq3 : State := mbox 3 [3, 0xD4A51000#32, 0xE8#32]

/-- The writes of that OUT_FREQ. -/
def freqWrites : List (Nat × Word) :=
  let s := freq3
  let x := settingOf (s.arg64 1) 7 1
  [(regAddr .OUT_DSET01 3, s.withFields .OUT_DSET01 3 [(Fields.OUT_DSET01_D0, 7), (Fields.OUT_DSET01_DBL0, 0)]),
   (regAddr .OUT_CFG 3, s.withFields .OUT_CFG 3 [(Fields.OUT_CFG_EN, 1), (Fields.OUT_CFG_HGATE, 0), (Fields.OUT_CFG_DSEL, 0),
     (Fields.OUT_CFG_SRC, 0)]),
   (regAddr .CORE_CFG 0, s.withFields .CORE_CFG 0 [(Fields.CORE_CFG_EN, 1)]),
   (regAddr .CORE_NUM_LO 0, BitVec.ofNat 32 x.num), (regAddr .CORE_DEN_LO 0, BitVec.ofNat 32 x.den),
   (regAddr .CORE_FRAC_HI 0, BitVec.ofNat 32 (x.den / 2 ^ 32 * 2 ^ 16 + x.num / 2 ^ 32)),
   (regAddr .CORE_NBAND 0, BitVec.ofNat 32 ((s.tableBand 0 x).1 * 2 ^ 16 + (s.tableBand 0 x).2 * 2 ^ 8 + x.n)),
   (regAddr .CORE_CMD 0, 1#32)]

theorem witness_MailboxSetsFrequencies :
    (let s := anchoring
     (s.mbxRuns 2 0 = true ∧ getBits (s.arg 0) 0 1 = 0 ∧ getBits (s.arg 0) 1 3 = 1 ∧ (s.anc 0).state = .off ∧
      80000000 ≤ (s.arg 1).toNat ∧ (s.arg 1).toNat ≤ 160000000 ∧
      (s.arg 1).toNat / Nat.gcd (8000000000 % (s.arg 1).toNat) (s.arg 1).toNat < 2 ^ 24 ∧ ratioMeets (s.arg 2).toNat (0 + 1) = true) ∧
     s.expertWrites anchorWrites = (.ok, (s.expertWrites anchorWrites).2) ∧ (s.expertWrites anchorWrites).2.power ≠ 1) ∧
    ((mbox 2 [2]).mbxRuns 2 0 = true ∧ getBits ((mbox 2 [2]).arg 0) 1 3 ≤ 3 ∧ ((mbox 2 [2]).anc 0).state = .steered) ∧
    ((anchoring.setReg .MBX_ARG 1 79000000#32).arg 1).toNat ≤ 79000000 ∧
    (let s := freq3
     (s.mbxRuns 3 0 = true ∧ (s.arg 0).toNat = 3 ∧ s.outMasked 3 = false ∧ s.arg64 1 ≤ 1600000000000 ∧ leastDiv 1 [s.arg64 1] = some 7 ∧
      (s.minPeriod 3 + 2) * s.arg64 1 ≤ 2000000000000000 ∧ s.freqCore 3 = some 0) ∧
     s.expertWrites freqWrites = (.ok, (s.expertWrites freqWrites).2) ∧ (s.expertWrites freqWrites).2.power ≠ 1) ∧
    (freq3.setReg .STN_OUTMASK 2 8#32).outMasked 3 = true ∧
    leastDiv 1 [(mbox 3 [3, 1000]).arg64 1] = none ∧
    (let s : State := { freq3 with cores := freq3.cores.map fun c => { c with role := .fenced } }
     s.freqCore 3 = none) := by
  refine ⟨⟨by decide +kernel, ok_of_fst (by decide +kernel), by decide +kernel⟩, by decide +kernel, by decide +kernel,
    ⟨by decide +kernel, ok_of_fst (by decide +kernel), by decide +kernel⟩, ?_⟩
  decide +kernel

/-- Output 4 follows core 5, which is locked. -/
def phasing (st : CoreSt) (args : List Word) : State :=
  mboxOn ((((core5 st).setReg .OUT_CFG 4 0).setFld Fields.OUT_CFG_EN 4 1).setFld Fields.OUT_CFG_SRC 4 5) 4 args

theorem witness_MailboxServesPhaseAndLanes :
    (let s := phasing .locked [4, 0x40000000#32]
     s.serves = true ∧ s.mbxRuns 4 0 = true ∧ (s.arg 0).toNat = 4 ∧ s.outTaken 4 = false ∧ s.srcOf 4 = some 5 ∧ (s.core 5).state = .locked ∧
     7000000000 ≤ (s.core 5).applied.hz ∧
     2 * (s.core 5).applied.hz * (((s.arg 1).toNat : Rat) / (2 ^ 32 * ((s.core 5).applied.hz * s.mulOf 4 / s.divOf 4))) < 2048) ∧
    ((phasing .idle [4]).srcOf 4 = some 5 ∧ ((phasing .idle [4]).core 5).state ≠ .locked ∧ (phasing .idle [4]).outTaken 4 = false) ∧
    ((let s := mbox 8 [5, 0x00100020#32, 0]
      s.serves = true ∧ s.mbxRuns 8 0 = true ∧ s.sync = none ∧ bitOf (s.arg 2) 0 = false) ∧
     (let s : State := { mbox 8 [5, 0x00100020#32, 1, 9, 1] with primary := none }
      s.serves = true ∧ s.mbxRuns 8 0 = true ∧ s.sync = none ∧ s.loadArmed = false)) ∧
    ({ mbox 8 [] with sync := some ⟨none, false, true, false⟩ } : State).sync.isSome = true ∧
    ((mbox 11 [7]).serves = true ∧ (mbox 11 [7]).mbxRuns 11 0 = true ∧ ((mbox 11 [7]).arg 0).toNat = 7 ∧ 8 ≤ ((mbox 11 [8]).arg 0).toNat) ∧
    (let s := mbox 12 [15, 0x805#32]
     s.serves = true ∧ s.mbxRuns 12 0 = true ∧ (s.arg 0).toNat = 15 ∧ ∀ w, s.thirdUpstream 15 w = false) := by
  have h : decide (2 ≤ ((List.range 16).filter fun m => m != 15 && (mbox 12 [15, 0x805#32]).upstream m).length) = false := by decide +kernel
  refine ⟨by decide +kernel, by decide +kernel, by decide +kernel, by decide +kernel, by decide +kernel, by decide +kernel,
    by decide +kernel, by decide +kernel, fun w => ?_⟩
  simp only [State.thirdUpstream, h, Bool.and_false]

/-- SWEEP of station 2 at 1 GHz on output 4, with profile 16 and a dwell of 3,000 ticks, for ever. -/
def sweeping : State := mboxOn (mapped 1 active) 9 [0x02000001#32, 0x10#32, 0xD4A51000#32, 0xE8#32, 0, 0, 3000#32, 16#32]

/-- The writes of that SWEEP. -/
def sweepList : List (Nat × Word) := sweeping.sweepWrites 2 7 7 16 [(sweeping.arg64 2 : Int)] 0x10#32 3000 0

/-- STATION_RUN of station 2 with a lead of 64. -/
def runArgs : List Word := [0x102#32, 64#32]

/-- Its check has ended. -/
def checked2 (cmd : Nat) (s : State) : State := { s.setFld Fields.MBX_CTL_CMD 0 cmd with mbx := ⟨true, 2, 100000⟩ }

/-- The writes that check station 2 for STATION_RUN. -/
def checkList : List (Nat × Word) :=
  let s := mboxOn (mapped 1 active) 10 runArgs
  [(regAddr .PGM_ADDR 0, s.withFields .PGM_ADDR 0 [(Fields.PGM_ADDR_STATION, 2)]),
   (regAddr .PGM_LOAD 0, s.withFields .PGM_LOAD 0 [(Fields.PGM_LOAD_MODE, getBits (s.arg 0) 8 1), (Fields.PGM_LOAD_KIND, 0)]),
   (regAddr .PGM_CMD 0, 1#32)]

/-- The writes that start station 2 at tick 100,064. -/
def startList : List (Nat × Word) :=
  [(regAddr .SEQ_START_LO 2, loWord (100000 + 64)), (regAddr .SEQ_START_HI 2, hiWord (100000 + 64)), (regAddr .SEQ_CTL 2, 1#32)]

theorem witness_MailboxRunsPrograms :
    (let s := sweeping
     (s.mbxRuns 9 0 = true ∧ getBits (s.arg 0) 24 3 = 2 ∧ getBits (s.arg 0) 0 12 = 1 ∧ (s.arg 6).toNat = 3000 ∧ s.stnMode 2 = 1 ∧
      s.mapMeets 2 = true ∧ s.arg 1 = 0x10#32 ∧ s.arg 1 &&& ~~~(s.reg .STN_OUTMASK 2) = 0 ∧ s.stationIdle 2 = true ∧
      getBits (s.arg 7) 0 12 = 16 ∧ getBits (s.arg 7) 16 16 = 0 ∧ s.referenced 16 = false ∧ 0 < s.arg64 2 ∧
      leastDiv 1 [s.arg64 2] = some 7 ∧ s.slot 2 0 = some 7) ∧
     s.expertWrites sweepList = (.ok, (s.expertWrites sweepList).2)) ∧
    (let s := mbox 9 [0x02000001#32]
     s.mbxRuns 9 0 = true ∧ (s.arg 6).toNat < 3000) ∧
    (let s := mboxOn (mapped 1 active) 10 runArgs
     (s.mbxRuns 10 0 = true ∧ getBits (s.arg 0) 0 3 = 2 ∧ 64 ≤ (s.arg 1).toNat ∧ s.stationIdle 2 = true) ∧
     s.expertWrites checkList = (.ok, (s.expertWrites checkList).2)) ∧
    ((mbox 10 [2#32, 63#32]).mbxRuns 10 0 = true ∧ ((mbox 10 [2#32, 63#32]).arg 1).toNat < 64) ∧
    (let s := (mapped 1 active).setFld Fields.PGM_STAT_RESULT 0 5
     s.serves = true ∧ s.fld Fields.PGM_STAT_RESULT 0 ≠ 0 ∧ (checked2 9 s).mbxRuns 9 2 = true ∧ (checked2 10 s).mbxRuns 10 2 = true) ∧
    ((let s := checked2 9 (mboxOn (loaded 5) 9 [0x02000001#32])
      (s.fld Fields.PGM_STAT_RESULT 0 = 0 ∧ s.mbxRuns 9 2 = true ∧ getBits (s.arg 0) 24 3 = 2 ∧ s.mbx.tick = 100000) ∧
      s.expertWrites startList = (.ok, (s.expertWrites startList).2) ∧ (s.expertWrites startList).2.power ≠ 1) ∧
     (let s := checked2 10 (mboxOn (loaded 5) 10 runArgs)
      (s.mbxRuns 10 2 = true ∧ getBits (s.arg 0) 0 3 = 2 ∧ (s.arg 1).toNat = 64) ∧
      s.expertWrites startList = (.ok, (s.expertWrites startList).2))) ∧
    (let s := mbox 13 [0, 59#32]
     s.serves = true ∧ s.mbxRuns 13 0 = true ∧ s.arg 0 = 0 ∧ (s.arg 1).toNat = 59 ∧ 3 < ((mbox 13 [4#32]).arg 0).toNat) ∧
    (let s := mboxOn dirty 14 []
     s.serves = true ∧ s.mbxRuns 14 0 = true ∧ s.store.readOnly = false ∧ s.dirtyItems ≠ [] ∧ s.store.queue = [] ∧
     ({ s with store := { s.store with writing := some record0 } } : State).store.writing.isSome = true ∧
     (mboxOn standby 14 []).dirtyItems = []) ∧
    (let s := mboxOn standby 15 [3#32]
     s.serves = true ∧ s.mbxRuns 15 0 = true ∧ s.arg 0 = 3 ∧ s.power = 2 ∧ 3 < ((mbox 15 [4#32]).arg 0).toNat) := by
  refine ⟨⟨by decide +kernel, ok_of_fst (by decide +kernel)⟩, by decide +kernel, ⟨by decide +kernel, ok_of_fst (by decide +kernel)⟩,
    by decide +kernel, by decide +kernel,
    ⟨⟨by decide +kernel, ok_of_fst (by decide +kernel), by decide +kernel⟩, by decide +kernel, ok_of_fst (by decide +kernel)⟩, ?_⟩
  decide +kernel

/-- A device after a class-3 fault. -/
def halted : State := active.graveHalt

theorem witness_HaltedEndsOnlyWithTheSupply :
    (halted.halted = true ∧ halted.power = 5 ∧ halted.pins.aon = true ∧ Instr.resetNAssert ≠ .vddAonFall ∧
     (match exec .resetNAssert halted with | .next _ => true | _ => false) = true) ∧
    (let e := (raiseOf Src.glb_CFG_PARITY 2).entry 2 false
     let s := halted.modWin 0 fun x => { x with sel := 76, tally := List.replicate 16 e }
     (s.win 0).selItem = 16 + 4 * 15 ∧ (s.win 0).tally[15]? = some e ∧ s.power = 5) ∧
    (∀ w : Fin 97, ∀ a ∈ [0x0FFF, regAddr .GLB_SCRATCH 0, 0x3033], faultAt a ≠ some (w.val, 1) ∧ faultAt a ≠ some (w.val, 2)) ∧
    ((halted.win 96).freshAt ≠ halted.elapsed ∧
     (∀ b : Fin 32, bitOf (0xFFFFFFFF#32 : Word) b = true → halted.isLive ⟨(windowOf 96).1, (windowOf 96).2, b.val⟩ = false)) := by
  decide +kernel

/-! ## Operands that no detector gives -/

theorem wf_refuses :
    Instr.wf (.tick 0x80000000 0 0 0 0 0 []) = false ∧ Instr.wf (.tick 0 0 0 0 0 0 (List.replicate 27 ⟨0, 20⟩)) = false ∧
    Instr.wf (.tick 0 0 0 0 0 0 [⟨0x80000000, 20⟩]) = false ∧ Instr.wf (.tick 0 0 0 0 0 0 [⟨5, 20⟩]) = true ∧
    Instr.wf (.rbWindowEnd 0 0 [] true 0x80000000) = false ∧ Instr.wf (.teEdge 0 0 0 false) = false ∧
    Instr.wf (.ttResult 0 0 0 0 0x80000000 0 true) = false ∧
    Instr.wf (.refGateEnd 0 (-0x80000001)) = false ∧ Instr.wf (.syncInEdge 0) = false ∧ Instr.wf (.trigEdge 0 0) = false ∧
    Instr.wf (.cellRx 0 [] 0) = false ∧ Instr.wf (.eccUncorr 0 [2, 1]) = false ∧ Instr.wf (.eccUncorr 0 []) = false ∧
    Instr.wf (.injectedCheck 0 0 [1, 1] 0) = false ∧ Instr.wf (.barrowSample [] 0 0 0 false) = false := by decide +kernel

/-! ## The queue and reset -/

theorem test_step_runs_front :
    step { active with pending := [.resetNRelease, .extest] } = exec .resetNRelease { active with pending := [.extest] } := rfl

theorem witness_StepRunsFrontCommand : active.pending = [] := rfl

theorem test_reset_maps_wf : State.reset.mapsWf = true := by decide +kernel

/-! ## Worked values of the manual -/

/-- Tables 6.16 and 6.19 and the fields of Table 6.3: words of instructions, and the instructions they decode to. -/
theorem test_quilvo_words :
    decodeQ 0x44080064#32 = some ⟨always, .ldi 1 false 100⟩ ∧ decodeQ 0x60201770#32 = some ⟨always, .taddi 1 0 6000⟩ ∧
    decodeQ 0xC0244000#32 = some ⟨always, .swap 1 .s0 (.reg 1)⟩ ∧ decodeQ 0x2C088001#32 = some ⟨always, .addi 1 1 1⟩ ∧
    decodeQ 0x80302000#32 = some ⟨always, .evtst 1 2 2 false⟩ ∧ decodeQ 0xA0C0000C#32 = some ⟨⟨false, 1⟩, .br .notTaken 12⟩ ∧
    decodeQ 0xC02000C8#32 = some ⟨always, .swap 1 .s0 (.imm 200)⟩ ∧ decodeQ 0x48504800#32 = some ⟨always, .cmp 2 .ltu 1 2⟩ ∧
    decodeQ 0xA1200005#32 = some ⟨⟨false, 2⟩, .br .taken 5⟩ ∧ decodeQ 0x08200000#32 = some ⟨always, .halt 1⟩ ∧
    decodeQ 0xB00003E8#32 = some ⟨always, .ldlc 0 (.imm 1000)⟩ ∧ decodeQ 0xAC000004#32 = some ⟨always, .loop 0 4⟩ ∧
    decodeQ 0#32 = none := by decide +kernel

/-- The same field by field (Table 6.3), one word for each other format. -/
theorem test_quilvo_formats :
    decodeQ (0x05#6 ++ 5#3 ++ 3#4 ++ 2#4 ++ 1#4 ++ 0#11) = some ⟨⟨true, 1⟩, .sub 3 2 1⟩ ∧
    decodeQ (0x14#6 ++ 0#3 ++ 3#2 ++ 2#2 ++ 1#2 ++ 1#1 ++ 0#1 ++ 2#2 ++ 0#13) = some ⟨always, .plog 3 2 1 true false .xor⟩ ∧
    decodeQ (0x38#6 ++ 0#3 ++ 1#2 ++ 0#4 ++ 0x10F05#17) = none ∧
    decodeQ (0x38#6 ++ 0#3 ++ 1#2 ++ 0#4 ++ 0x00F05#17) = some ⟨always, .stat 1 0x0F 0x05⟩ ∧
    decodeQ (0x3A#6 ++ 0#3 ++ 1#2 ++ 2#4 ++ 3#4 ++ 1#2 ++ 0#5 ++ 9#6) = some ⟨always, .send0 1 2 3 1 9⟩ ∧
    decodeQ (0x03#6 ++ 0#3 ++ 1#2 ++ 3#2 ++ 0#3 ++ 100#16) = none ∧
    decodeQ (0x03#6 ++ 0#3 ++ 1#2 ++ 2#2 ++ 0#3 ++ 100#16) = some ⟨always, .idle 1 .s2 100⟩ ∧
    decodeQ (0x04#6 ++ 4#3 ++ 0#23) = none ∧ decodeQ (0x15#6 ++ 0#26) = none := by decide +kernel

/-- spec/04, the phase at a ball: C05 at tick 1,000,000,003, entering a delay of 1,610 ps, and OUT12 with D = 4 that follows it. -/
theorem test_phase_at_a_ball :
    let x : Setting := ⟨20, 123456789, 500000000⟩
    let s := ((((active.setFld Fields.OUT_DELAY_FINE 12 40).setFld Fields.OUT_DELAY_COARSE 12 0).setFld Fields.OUT_CFG_SRC 12 5).setFld
      Fields.OUT_DSET01_D0 12 4).modCore 5 fun c => { c with applied := x }
    (s.core 5).phase 1000000003 = mkRat 20246913638740740734 1000000000 ∧ s.tauOf 12 5 1000000003 = mkRat 1610 2000 ∧
    coreFreq x * 1610 = mkRat 1629876543029 100000000000 ∧
    s.outPhase 12 1000000003 = some (mkRat 50617284056104938259275 10000000000000) := by decide +kernel

/-- spec/04, a continuous hop: θ_eff' is 96,513,578 + 1,243,567,983 × 2^-32. -/
theorem test_continuous_hop :
    contTheta 0 ⟨20, 123456789, 500000000⟩ ⟨20, 94, 625⟩ 1000000003 0 = 96513578 + mkRat 1243567983 4294967296 := by decide +kernel

/-- spec/04, seeding a coherent return: σ = 781, ρ = 0.00008 and S = 1,224. -/
theorem test_coherent_seed :
    let x : Setting := ⟨15, 2277, 3125⟩
    let t := profileTheta 0x40000000
    seedSigma t x = 781 ∧ seedRho t x = mkRat 8 100000 ∧ seedAt t x 2000001234 = 1224 := by decide +kernel

/-- spec/16, writing a profile over HSPI: the CRC-8 of the WRITE of PROF_ADDR is 0x1A, and it joins the queue. -/
theorem test_hspi_crc :
    crc8 [0x82, 0x40, 0x20, 0, 0, 0, 0x64] = 0x1A ∧
    (match exec (.hspiWrite [0x82, 0x40, 0x20, 0, 0, 0, 0x64, 0x1A]) active with
     | .next t => t.hspi.queue | _ => []) = [⟨0x4020, 0x64, 100000⟩] := by decide +kernel

/-- spec/16, OUT5 to 2.4 GHz: C08 with divider 3 at N = 14 and 2/5, and OUT_CFG of OUT5 as Table 16.7 writes it. -/
theorem test_out_freq :
    (let s := (List.range 8).foldl (fun (s : State) c => s.modCore c fun x => { x with role := .live, station := 0 })
       (mbox 3 [5, 0xCB25C000#32, 0x22E#32])
     match exec .mbxOutFreq s with
     | .next t => (List.range 6).map (t.reg .MBX_ARG) ++ [t.reg .OUT_CFG 5, t.reg .CORE_NUM_LO 8, t.reg .CORE_DEN_LO 8, t.reg .MBX_STAT 0]
     | _ => []) = [8, 3, 14, 2, 5, 0, 0x80080000, 2, 5, 0x40000001] := by decide +kernel

/-- spec/14, R539: rails out of range at the release of POR_N stop the run by name. -/
theorem test_rails :
    exec (.porNRelease false) { active with pins := { active.pins with porLow := true } } = .fault .railsOutOfRange := rfl

theorem witness_ResetLeavesTheResetValues : ¬(RegName.GLB_ID = .CORE_CFG ∧ ((0 : Nat) = 24 ∨ (0 : Nat) = 25)) := by decide

end Sys2Proof.Tests
end

namespace Sys2Proof.Machine

/-! ## Host accesses: what the port does once with a write and with a read (spec/16, spec/01) -/

/-- A port that takes register writes answers. -/
theorem hostServes_of_serves (s : State) (h : s.serves = true) : s.hostServes = true := by
  simp only [State.serves, Bool.and_eq_true] at h
  exact h.1.1.1.1

/-- A write that is refused as a whole leaves what the refusal leaves, with LASTW and HSPI_STAT beside it. -/
theorem portWrite_of_refusal (s u : State) (a : Nat) (w : Word) (st : WStatus) (h : s.serves = true)
    (hw : s.hostWrite a w = (st, u)) (hst : st ≠ .ok) :
    s.portWrite a w = (u.modHspi fun x => { x with lastw := st.code }).hspiError a st.code := by
  simp [State.portWrite, hostServes_of_serves s h, not_held_of_serves s h, stepOne_of_turn s (turn_of_serves s h), hw, hst]

/-- Recording an error in HSPI_STAT sets ERR. -/
theorem hspiError_flag (s : State) (a code : Nat) : (s.hspiError a code).flag Fields.HSPI_STAT_ERR 0 = true :=
  State.flag_stick_self _ _ _ (by decide) rfl

/-- Recording an error in HSPI_STAT leaves every other register alone. -/
theorem hspiError_reg (s : State) (a code : Nat) (r : RegName) (j : Nat) (h : r ≠ .HSPI_STAT) :
    (s.hspiError a code).reg r j = s.reg r j := by
  have keeps : ∀ (x : State) (f : Field) (v : Nat), f.reg = .HSPI_STAT → (x.setFld f 0 v).reg r j = x.reg r j :=
    fun x f v hf => State.reg_setReg_other _ _ _ _ _ _ fun e => h (e.1.symm.trans hf)
  have sticks : ∀ x : State, (x.stick Fields.HSPI_STAT_ERR 0).reg r j = x.reg r j := fun x => keeps x _ _ rfl
  simp only [State.hspiError]
  split <;> rw [sticks]
  rw [keeps _ _ _ rfl, keeps _ _ _ rfl]

@[simp] theorem hspiError_hspi (s : State) (a code : Nat) : (s.hspiError a code).hspi = s.hspi := by
  unfold State.hspiError; split <;> simp

@[simp] theorem hspiError_raises (s : State) (a code : Nat) : (s.hspiError a code).raises = s.raises := by
  unfold State.hspiError; split <;> simp

@[simp] theorem hspiError_store (s : State) (a code : Nat) : (s.hspiError a code).store = s.store := by
  unfold State.hspiError; split <;> simp

/-- A refused write shows its status in LASTW and ERR in HSPI_STAT (R610, R614). -/
theorem refusedWith_of_refusal (s u : State) (a : Nat) (w : Word) (st : WStatus) (h : s.serves = true)
    (hw : s.hostWrite a w = (st, u)) (hst : st ≠ .ok) : (s.portWrite a w).refusedWith st := by
  rw [portWrite_of_refusal s u a w st h hw hst]
  exact ⟨by simp [State.modHspi], hspiError_flag _ _ _⟩

/-- An unaligned address and one outside every block are refused with RANGE (R613). -/
theorem hostWrite_outside (s : State) (a : Nat) (w : Word) (h : s.serves = true) (ha : a % 4 ≠ 0 ∨ inBlock a = false) :
    s.hostWrite a w = (.range, s) := by
  simp only [State.hostWrite, State.writeAddr, State.writeAt, writesRefused_of_serves s a h, if_pos ha]
  rfl

/-- A write of STORE_CMD without its key is refused with KEYERR and raises KEYED_WRITE (R22, R614). -/
theorem hostWrite_unkeyed (s : State) (w : Word) (h : s.serves = true) (hk : getBits w 24 8 ≠ 0xA5) :
    s.hostWrite (regAddr .STORE_CMD 0) w = (.keyerr, s.raiseEvent Src.glb_KEYED_WRITE 0) := by
  have hp : placed .STORE_CMD 0 = true := placed_of_command _ _ (by decide) (by decide)
  simp only [placed, Bool.and_eq_true, decide_eq_true_eq, Option.isNone_iff_eq_none] at hp
  obtain ⟨⟨⟨h4, hb⟩, hf⟩, hr⟩ := hp
  have hm : keyMissing (regAddr .STORE_CMD 0) w = true := by
    simp only [keyMissing, hr, Bool.and_eq_true, bne_iff_ne]
    exact ⟨rfl, hk⟩
  have hat : s.writeAt (regAddr .STORE_CMD 0) w = (.keyerr, s) := by
    simp [State.writeAt, writesRefused_of_serves s _ h, h4, hb, hf, hr, hm]
  simp only [State.hostWrite, State.writeAddr, hat]

/-- The sources of block 0 are of no unit that could be fenced: their raise is recorded. -/
theorem raiseEvent_global (s : State) (f : Fid) (arg : Word) (hf : f.code = 0) :
    ∃ r : Raise, (s.raiseEvent f arg).raises = s.raises ++ [r] ∧ r.fid = f := by
  have hu : s.unitFenced f = false := by simp [State.unitFenced, hf]
  simp only [State.raiseEvent, State.raiseAs, hu]
  exact ⟨_, rfl, rfl⟩

@[simp] theorem raiseEvent_store (s : State) (f : Fid) (arg : Word) : (s.raiseEvent f arg).store = s.store := by
  unfold State.raiseEvent State.raiseAs; split <;> rfl

/-! ### Registers without a rule of their own -/

theorem plainRegs_placed : (plainRegs.all fun r => (List.range (regSpec r).count).all (placed r)) = true := by
  decide +kernel

theorem plainRegs_unkeyed : (plainRegs.all fun r => !(regSpec r).wk) = true := by decide +kernel

/-- The address of a placed register is a 16-bit address. -/
theorem placed_toNat (r : RegName) (i : Nat) (h : placed r i = true) :
    (BitVec.ofNat 16 (regAddr r i)).toNat = regAddr r i := by
  simp only [placed, inBlock, Bool.and_eq_true, Bool.or_eq_true, decide_eq_true_eq] at h
  rw [BitVec.toNat_ofNat, Nat.mod_eq_of_lt]
  omega

/-- What a write of TRIG_CFG notes of its input is not in the register file. -/
theorem writeTrigCfg_regs (s : State) (n : Nat) (w : Word) : (s.writeTrigCfg n w).regs = (s.plainWrite .TRIG_CFG n w).regs := by
  simp only [State.writeTrigCfg]
  split <;> rfl

/-- A write of a register of `plainRegs` is accepted, and leaves the register file that its access codes leave (R16, R18). -/
theorem writeReg_plainRegs (s : State) (r : RegName) (i : Nat) (w : Word) (h : r ∈ plainRegs) :
    ∃ u, s.writeReg r i w = (.ok, u) ∧ u.regs = (s.plainWrite r i w).regs := by
  simp only [plainRegs, List.cons_append, List.nil_append, List.mem_cons, List.not_mem_nil, or_false] at h
  repeat' rcases h with rfl | h
  all_goals exact ⟨_, rfl, by simp only [writeTrigCfg_regs]⟩

/-- R16, R18, R57, R610: an accepted write of a register by its access codes, and its frame. -/
theorem hostWrite_plainRegs (s : State) (r : RegName) (i : Nat) (w : Word) (h : s.serves = true) (hr : r ∈ plainRegs)
    (hi : i < (regSpec r).count) :
    completes (.hostWrite (BitVec.ofNat 16 (regAddr r i)) w) s fun t =>
      t.reg r i = (regSpec r).merge (s.stuckNow r i) (s.reg r i) w ∧ s.wrote t ∧
      ∀ (r' : RegName) (j : Nat), ¬(r = r' ∧ i = j) → t.reg r' j = s.reg r' j := by
  have hp : placed r i = true := List.all_eq_true.1 (List.all_eq_true.1 plainRegs_placed r hr) i (List.mem_range.2 hi)
  have hk : ((regSpec r).wk && getBits w 24 8 != 0xA5) = false := by
    have := List.all_eq_true.1 plainRegs_unkeyed r hr
    simp [(Bool.not_eq_true' _).mp this]
  obtain ⟨u, hw, hu⟩ := writeReg_plainRegs s r i w hr
  obtain ⟨fl, st, ht⟩ := portWrite_ok s u r i w h hp hk hw
  refine ⟨_, rfl, ?_⟩
  rw [placed_toNat r i hp, ht]
  have hreg : ∀ r' j, u.reg r' j = (s.plainWrite r i w).reg r' j := fun r' j => congrArg (·.get r' j) hu
  exact ⟨(hreg r i).trans (State.reg_setReg_self _ _ _ _), ⟨rfl, rfl⟩,
    fun r' j hne => (hreg r' j).trans (State.reg_setReg_other _ _ _ _ _ _ hne)⟩

/-! ### Reads of the count -/

/-- A read of a placed register returns its word and has its effect. -/
theorem readAddr_placed (s : State) (r : RegName) (i : Nat) (hp : placed r i = true) (h4 : s.power ≠ 4) :
    s.readAddr (regAddr r i) = (.ok, s.readWord r i, s.readEffect r i) := by
  simp only [placed, Bool.and_eq_true, decide_eq_true_eq, Option.isNone_iff_eq_none] at hp
  obtain ⟨⟨⟨ha, hb⟩, hf⟩, hr⟩ := hp
  simp [State.readAddr, h4, ha, hb, hf, hr]

/-- Settles O4: accepted writes by `portWrite_ok`, refused ones by `portWrite_of_refusal`, reads by `readAddr_placed`. -/
theorem hostAccesses : Obligations.HostAccesses := by
  refine ⟨hostWrite_plainRegs, ?_, ?_, ?_, ?_, ?_, ?_⟩
  · intro s a w h ha
    have hw := hostWrite_outside s a.toNat w h ha
    refine ⟨_, rfl, refusedWith_of_refusal s s _ w _ h hw (by simp), fun r j hr => ?_⟩
    rw [portWrite_of_refusal s s _ w _ h hw (by simp), hspiError_reg _ _ _ _ _ hr]
    rfl
  · intro s w h hk
    have hw := hostWrite_unkeyed s w h hk
    have ha : (BitVec.ofNat 16 (regAddr .STORE_CMD 0)).toNat = regAddr .STORE_CMD 0 := by decide
    obtain ⟨r, hr, hf⟩ := raiseEvent_global s Src.glb_KEYED_WRITE 0 rfl
    refine ⟨_, rfl, ?_⟩
    rw [ha]
    refine ⟨refusedWith_of_refusal s _ _ w _ h hw (by simp), ?_, r, ?_, hf⟩ <;>
      rw [portWrite_of_refusal s _ _ w _ h hw (by simp)]
    · simp
    · simpa using hr
  · intro s a w h
    exact ⟨_, rfl, by simp [State.portWrite, h]⟩
  · intro s a w h hs hh
    exact ⟨_, rfl, by simp [State.portWrite, State.holdsWrites, h, hs, hh]⟩
  · intro s h h4
    have hp : placed .TIME_NOW_LO 0 = true := placed_of_command _ _ (by decide) (by decide)
    refine ⟨_, rfl, ?_⟩
    simp only [State.portRead, h, readAddr_placed s _ _ hp h4]
    exact ⟨rfl, State.reg_setReg_self _ _ _ _, rfl⟩
  · intro s h4
    exact readAddr_placed s _ _ (by decide +kernel) h4

end Sys2Proof.Machine

namespace Sys2Proof.Machine

/-! ## What neither the tail of a tick nor the release of an effect moves

The count, its bookkeeping, the anchors' lock, TIME_STATE and the holding queues, as one value: an operation that leaves all of
it alone says so in one equation. -/

/-- The part of the state that only the tick itself, the start of an anchor's tick and the naming and release of effects move. Of
an anchor it shows its state, its inner lock and whether it ticks. -/
structure Backdrop where
  count : Count
  elapsed : Nat
  pending : List Instr
  later : List Later
  heldWrites : List (Nat × Word)
  svc : Svc
  primary : Option Nat
  anchors : Vector (AncState × Bool × Bool) 2
  time : Word
  queues : Vector (List Effect) 8

def Anchor.lock (a : Anchor) : AncState × Bool × Bool := (a.state, a.inner, a.hasTick)

def State.backdrop (s : State) : Backdrop :=
  { count := s.count, elapsed := s.elapsed, pending := s.pending, later := s.later, heldWrites := s.heldWrites, svc := s.svc
    primary := s.primary, anchors := s.anchors.map Anchor.lock, time := s.reg .TIME_STATE 0
    queues := s.stations.map Station.queue }

/-! ### The named updates -/

section
variable (s : State)

@[simp] theorem backdrop_setCore (n : Nat) (x : Core) : (s.setCore n x).backdrop = s.backdrop := rfl
@[simp] theorem backdrop_modCore (n : Nat) (f : Core → Core) : (s.modCore n f).backdrop = s.backdrop := rfl
@[simp] theorem backdrop_modOut (n : Nat) (f : Output → Output) : (s.modOut n f).backdrop = s.backdrop := rfl
@[simp] theorem backdrop_modRas (n : Nat) (f : Raster → Raster) : (s.modRas n f).backdrop = s.backdrop := rfl
@[simp] theorem backdrop_modWin (n : Nat) (f : FaultWindow → FaultWindow) : (s.modWin n f).backdrop = s.backdrop := rfl
@[simp] theorem backdrop_modLane (n : Nat) (f : Lane → Lane) : (s.modLane n f).backdrop = s.backdrop := rfl
@[simp] theorem backdrop_modLng (f : LaneGroup → LaneGroup) : (s.modLng f).backdrop = s.backdrop := rfl
@[simp] theorem backdrop_modGrp (g : Nat) (f : CalGroup → CalGroup) : (s.modGrp g f).backdrop = s.backdrop := rfl
@[simp] theorem backdrop_endLevel (f : Fid) : (s.endLevel f).backdrop = s.backdrop := rfl
@[simp] theorem backdrop_record (c i r k : Nat) (a : Word) : (s.record c i r k a).backdrop = s.backdrop := rfl
@[simp] theorem backdrop_lapseEntry (f : Fid) (k t : Nat) (w : Word) : (s.lapseEntry f k t w).backdrop = s.backdrop := rfl
@[simp] theorem backdrop_coreBoundary (c : Nat) : (s.coreBoundary c).backdrop = s.backdrop := rfl
@[simp] theorem backdrop_outBoundary (o : Nat) : (s.outBoundary o).backdrop = s.backdrop := rfl

@[simp] theorem backdrop_setReg (r : RegName) (i : Nat) (v : Word) (h : r ≠ .TIME_STATE) :
    (s.setReg r i v).backdrop = s.backdrop := by
  simp [State.backdrop, State.reg_setReg_other s r i v .TIME_STATE 0 fun e => h e.1]

@[simp] theorem backdrop_setFld (f : Field) (i v : Nat) (h : f.reg ≠ .TIME_STATE) : (s.setFld f i v).backdrop = s.backdrop :=
  backdrop_setReg s _ _ _ h

@[simp] theorem backdrop_bump (f : Field) (i k : Nat) (h : f.reg ≠ .TIME_STATE) : (s.bump f i k).backdrop = s.backdrop :=
  backdrop_setFld s _ _ _ h

/-- Replacing an element by one that a map does not tell apart leaves the mapped vector alone. -/
theorem map_setIfInBounds_keeps {α β : Type} [Inhabited α] {n : Nat} (v : Vector α n) (i : Nat) (f : α → α) (g : α → β)
    (h : ∀ x, g (f x) = g x) : (v.setIfInBounds i (f (v[i]?.getD default))).map g = v.map g := by
  ext j hj
  by_cases e : i = j
  · subst e; simp [hj, h]
  · simp [Vector.getElem_setIfInBounds_ne, e]

@[simp] theorem backdrop_modStn (n : Nat) (f : Station → Station) (h : ∀ t, (f t).queue = t.queue) :
    (s.modStn n f).backdrop = s.backdrop :=
  congrArg (fun q => { s.backdrop with queues := q }) (map_setIfInBounds_keeps s.stations n f Station.queue h)

@[simp] theorem backdrop_modSlot (n k : Nat) (f : SlotSt → SlotSt) : (s.modSlot n k f).backdrop = s.backdrop :=
  backdrop_modStn s n _ fun _ => rfl

@[simp] theorem backdrop_modAnc (n : Nat) (f : Anchor → Anchor) (h : ∀ a, (f a).lock = a.lock) :
    (s.modAnc n f).backdrop = s.backdrop :=
  congrArg (fun a => { s.backdrop with anchors := a }) (map_setIfInBounds_keeps s.anchors n f Anchor.lock h)

@[simp] theorem backdrop_each (l : List Nat) (f : State → Nat → State) (h : ∀ s n, (f s n).backdrop = s.backdrop) :
    (s.each l f).backdrop = s.backdrop := State.each_keeps State.backdrop f h s l

/-! ### Faults and lapses -/

@[simp] theorem backdrop_raiseAs (f : Fid) (k : Nat) (a : Word) (x y : Bool) : (s.raiseAs f k a x y).backdrop = s.backdrop := by
  unfold State.raiseAs; split <;> rfl

@[simp] theorem backdrop_raiseEvent (f : Fid) (a : Word) : (s.raiseEvent f a).backdrop = s.backdrop := backdrop_raiseAs ..

@[simp] theorem backdrop_beginLevel (f : Fid) (a : Word) : (s.beginLevel f a).backdrop = s.backdrop := by
  simp [State.beginLevel, apply_ite State.backdrop]

@[simp] theorem backdrop_setLevel (f : Fid) (a : Word) (b : Bool) : (s.setLevel f a b).backdrop = s.backdrop := by
  cases b <;> simp [State.setLevel]

@[simp] theorem backdrop_beginLapse (f : Fid) (k : Nat) (w : Word) (e : LapseEnd) : (s.beginLapse f k w e).backdrop = s.backdrop := by
  unfold State.beginLapse; split <;> rfl

@[simp] theorem backdrop_lapseWith (f : Fid) (w : Word) (e : LapseEnd) : (s.lapseWith f w e).backdrop = s.backdrop := by
  simp only [State.lapseWith]
  split
  · rfl
  · split
    · rfl
    · simp

theorem backdrop_foldl {α : Type} (f : State → α → State) (h : ∀ s x, (f s x).backdrop = s.backdrop) (l : List α) :
    (l.foldl f s).backdrop = s.backdrop := by
  induction l generalizing s with
  | nil => rfl
  | cons x l ih => rw [List.foldl_cons, ih, h]

@[simp] theorem backdrop_endLapses (p : Lapse → Bool) : (s.endLapses p).backdrop = s.backdrop :=
  backdrop_foldl s _ (fun s _ => backdrop_lapseEntry s _ _ _ _) _

/-! ### Cores and outputs -/

@[simp] theorem backdrop_closeLoop (c k : Nat) : (s.closeLoop c k).backdrop = s.backdrop := rfl

@[simp] theorem backdrop_startAcq (c : Nat) (cold : Bool) (m : BandMode) (k : Nat) : (s.startAcq c cold m k).backdrop = s.backdrop := by
  simp [State.startAcq, apply_ite State.backdrop]

@[simp] theorem backdrop_recomputePsi (o : Nat) : (s.recomputePsi o).backdrop = s.backdrop := by
  unfold State.recomputePsi; split <;> rfl

@[simp] theorem backdrop_restartOut (o k : Nat) : (s.restartOut o k).backdrop = s.backdrop := by
  simp [State.restartOut]

@[simp] theorem backdrop_endRace (c : Nat) : (s.endRace c).backdrop = s.backdrop := by
  unfold State.endRace; split <;> rfl

@[simp] theorem backdrop_loadCore (c : Nat) (x : Setting) (b d : Nat) (th : Rat) (m : BandMode) :
    (s.loadCore c x b d th m).backdrop = s.backdrop := by
  simp [State.loadCore, apply_ite State.backdrop]

@[simp] theorem backdrop_loadPsi (c : Nat) (b : Bool) : (s.loadPsi c b).backdrop = s.backdrop := by
  simp [State.loadPsi, State.recomputePsiOf, apply_ite State.backdrop]

@[simp] theorem backdrop_stage (c : Nat) (x : Setting) (b d : Nat) : (s.stage c x b d).backdrop = s.backdrop := by
  simp [State.stage]

@[simp] theorem backdrop_setRole (c : Nat) (r : CoreRole) (n : Nat) : (s.setRole c r n).backdrop = s.backdrop := rfl

@[simp] theorem backdrop_endIdleOf (l : List Nat) : (s.endIdleOf l).backdrop = s.backdrop :=
  backdrop_each _ _ _ fun s o => by split <;> rfl

@[simp] theorem backdrop_masked (n : Nat) (w : Word) : (s.masked n w).backdrop = s.backdrop := by
  simp [State.masked, apply_ite State.backdrop]

/-! ### Effects as they release -/

@[simp] theorem backdrop_dropHop (n : Nat) (f : Fid) : (s.dropHop n f).backdrop = s.backdrop := by
  simp +decide [State.dropHop]

@[simp] theorem backdrop_hopOutput (o c : Nat) (p : Profile) (b : Bool) : (s.hopOutput o c p b).backdrop = s.backdrop := by
  unfold State.hopOutput
  extract_lets d m s1 s2 s3
  have h2 : s2.backdrop = s.backdrop :=
    (backdrop_setFld _ _ _ _ (by decide)).trans ((backdrop_setFld _ _ _ _ (by decide)).trans (backdrop_outBoundary ..))
  have h3 : s3.backdrop = s.backdrop := by
    simp only [s3]
    split
    · exact h2
    · exact (backdrop_modOut ..).trans ((backdrop_setFld s2 _ _ _ (by decide)).trans h2)
  split
  · exact (backdrop_restartOut ..).trans h3
  · split
    · exact h3
    · exact (backdrop_recomputePsi ..).trans h3

@[simp] theorem backdrop_hopDone (n c p : Nat) (w : Word) (f : Field) (h : f.reg ≠ .TIME_STATE) :
    (s.hopDone n c p w f).backdrop = s.backdrop := by
  simp [State.hopDone, apply_ite State.backdrop, h]

@[simp] theorem backdrop_guardPlan (n : Nat) (l : List Nat) (x : Setting) (d : Nat) : (s.guardPlan n l x d).backdrop = s.backdrop := by
  simp only [State.guardPlan]
  split
  · exact (backdrop_raiseEvent ..).trans (backdrop_each _ _ _ fun _ _ => backdrop_modOut ..)
  · exact backdrop_each _ _ _ fun _ _ => backdrop_modOut ..

@[simp] theorem backdrop_guardPlanGlide (n : Nat) (l : List Nat) (x : Setting) : (s.guardPlanGlide n l x).backdrop = s.backdrop := by
  simp only [State.guardPlanGlide]
  split
  · exact (backdrop_raiseEvent ..).trans (backdrop_each _ _ _ fun _ _ => backdrop_modOut ..)
  · exact backdrop_each _ _ _ fun _ _ => backdrop_modOut ..

@[simp] theorem backdrop_coldRelease (n k c p i t : Nat) : (s.coldRelease n k c p i t).backdrop = s.backdrop := by
  unfold State.coldRelease
  extract_lets q t s1 outs fed s2 s3 x theta s4 s5 s6 hold hold' s7 s8 s9
  have h2 : s2.backdrop = s.backdrop := (backdrop_each _ _ _ fun _ _ => backdrop_modOut ..).trans (backdrop_masked ..)
  have h3 : s3.backdrop = s.backdrop := (backdrop_endIdleOf ..).trans h2
  have h4 : s4.backdrop = s.backdrop := by
    simp only [s4, apply_ite State.backdrop, backdrop_stage, backdrop_coreBoundary, backdrop_loadCore, ite_self, h3]
  have h6 : s6.backdrop = s.backdrop :=
    (backdrop_each _ _ _ fun _ _ => backdrop_hopOutput ..).trans ((backdrop_loadPsi ..).trans h4)
  have h7 : s7.backdrop = s.backdrop := (backdrop_modSlot ..).trans h6
  have h8 : s8.backdrop = s.backdrop := (backdrop_modStn _ _ _ fun _ => by rfl).trans h7
  have h9 : s9.backdrop = s.backdrop := by
    simp only [s9]
    split
    · exact (backdrop_each _ _ _ fun _ _ => backdrop_modOut ..).trans h8
    · exact h8
  exact (backdrop_hopDone _ _ _ _ _ _ (by decide)).trans ((backdrop_guardPlan ..).trans h9)

@[simp] theorem backdrop_swapTo (n k c d : Nat) (e : Effect) (p : Nat) : (s.swapTo n k c d e p).backdrop = s.backdrop := by
  unfold State.swapTo
  extract_lets x ws q t old free s1 outs fed s2 s3 s4 s5 cold from_ s6 s7 s8 s9 s10 s11
  have h2 : s2.backdrop = s.backdrop := by
    simp only [s2, apply_ite State.backdrop, backdrop_endRace, ite_self]
    exact backdrop_masked ..
  have h4 : s4.backdrop = s.backdrop :=
    (backdrop_each _ _ _ fun _ _ => (backdrop_modOut ..).trans (backdrop_hopOutput ..)).trans ((backdrop_stage ..).trans h2)
  have h5 : s5.backdrop = s.backdrop := (backdrop_each _ _ _ fun _ _ => backdrop_modOut ..).trans h4
  have h6 : s6.backdrop = s.backdrop := (backdrop_setRole ..).trans ((backdrop_setRole ..).trans h5)
  have h7 : s7.backdrop = s.backdrop := (backdrop_modCore ..).trans h6
  have h8 : s8.backdrop = s.backdrop := (backdrop_modSlot ..).trans h7
  have h9 : s9.backdrop = s.backdrop := (backdrop_modSlot ..).trans h8
  have h10 : s10.backdrop = s.backdrop := (backdrop_modStn _ _ _ fun _ => by rfl).trans h9
  have h11 : s11.backdrop = s.backdrop := (backdrop_guardPlan ..).trans h10
  exact (backdrop_hopDone _ _ _ _ _ _ (by decide)).trans ((backdrop_coreBoundary ..).trans ((backdrop_modCore ..).trans h11))

@[simp] theorem backdrop_swapRelease (n : Nat) (e : Effect) (p : Nat) : (s.swapRelease n e p).backdrop = s.backdrop := by
  simp only [State.swapRelease]
  repeat' split
  all_goals simp

@[simp] theorem backdrop_coldHop (n k p i t : Nat) : (s.coldHop n k p i t).backdrop = s.backdrop := by
  simp only [State.coldHop]
  repeat' split
  all_goals simp

@[simp] theorem backdrop_glideOn (c : Nat) (x : Setting) (t : Nat) : (s.glideOn c x t).backdrop = s.backdrop := by
  simp [State.glideOn, State.startGlide, apply_ite State.backdrop]

@[simp] theorem backdrop_glideRelease (n k p i : Nat) : (s.glideRelease n k p i).backdrop = s.backdrop := by
  simp only [State.glideRelease]
  repeat' split
  all_goals simp +decide

@[simp] theorem backdrop_outg (n : Nat) (u : Bool) (l : List Nat) : (s.outg n u l).backdrop = s.backdrop :=
  backdrop_each _ _ _ fun s o => by
    split
    · rfl
    · split
      · simp [apply_ite State.backdrop]
      · rfl

@[simp] theorem backdrop_sysOp (o op : Nat) : (s.sysOp o op).backdrop = s.backdrop := by
  simp only [State.sysOp]
  repeat' split
  all_goals simp +decide [State.sysDrop]

@[simp] theorem backdrop_statEffect (n : Nat) (m v : BitVec 8) : (s.statEffect n m v).backdrop = s.backdrop :=
  backdrop_each _ _ _ fun s k => by split <;> rfl

@[simp] theorem backdrop_send0 (w : Word) (t k f : Nat) : (s.send0 w t k f).backdrop = s.backdrop := by
  simp +decide [State.send0, State.c0Drop, apply_ite State.backdrop]

@[simp] theorem backdrop_queueCells (k : Nat) (l : List Cell) (n : Nat) : (s.queueCells k l n).backdrop = s.backdrop := by
  simp +decide [State.queueCells, apply_ite State.backdrop]

@[simp] theorem backdrop_send1 (w : Word) (t f : Nat) : (s.send1 w t f).backdrop = s.backdrop := by
  simp [State.send1, State.sendCells, apply_ite State.backdrop]

@[simp] theorem backdrop_reap (n : Nat) : (s.reap n).backdrop = s.backdrop :=
  backdrop_modStn _ _ _ fun _ => rfl

theorem backdrop_onOuts (n : Nat) (w : Word) (f : State → List Nat → State) (h : ∀ s l, (f s l).backdrop = s.backdrop) :
    (s.onOuts n w f).backdrop = s.backdrop := by
  simp [State.onOuts, h]

/-- Every effect but HALT leaves the backdrop alone. -/
theorem backdrop_applyAct (n : Nat) (e : Effect) (h : e.act ≠ .halt) : (s.applyAct n e).backdrop = s.backdrop := by
  unfold State.applyAct
  cases he : e.act with
  | swap p => simp
  | cold k p => simp
  | glide k p => simp
  | outg u outs => exact backdrop_onOuts _ _ _ _ fun s l => by simp
  | dset d outs => exact backdrop_onOuts _ _ _ _ fun s l => backdrop_each _ _ _ fun s o => by simp +decide
  | divrst outs => exact backdrop_onOuts _ _ _ _ fun s l => backdrop_each _ _ _ fun s o => by simp
  | sysref op outs => exact backdrop_onOuts _ _ _ _ fun s l => backdrop_each _ _ _ fun s o => by simp
  | stat m v => simp
  | send0 p t k f => simp
  | send1 w t f => simp
  | halt => exact absurd he h
  | idle k w =>
    simp only
    split
    · exact (backdrop_each _ _ _ fun _ _ => backdrop_outBoundary ..).trans (backdrop_coreBoundary ..)
    · rfl

end

end Sys2Proof.Machine

namespace Sys2Proof.Machine

section
variable (s : State)

/-! ### The end of a tick and what follows its count -/

@[simp] theorem backdrop_startRace (c k : Nat) : (s.startRace c k).backdrop = s.backdrop := by
  simp [State.startRace]

@[simp] theorem backdrop_startRaces : s.startRaces.backdrop = s.backdrop :=
  backdrop_each _ _ _ fun s c => by
    simp only
    split
    · rfl
    · split
      · simp
      · rfl

@[simp] theorem backdrop_settleOut (o : Nat) : (s.settleOut o).backdrop = s.backdrop := by
  unfold State.settleOut
  extract_lets x s1
  have h1 : s1.backdrop = s.backdrop := by
    simp only [s1]
    split
    · rfl
    · rfl
    · rfl
    · split <;> rfl
  split
  · exact (backdrop_modOut ..).trans h1
  · exact h1

@[simp] theorem backdrop_rasWatch (r : Nat) : (s.rasWatch r).backdrop = s.backdrop := by
  simp [State.rasWatch, apply_ite State.backdrop]

@[simp] theorem backdrop_calLeft (n g : Nat) : (s.calLeft n g).backdrop = s.backdrop := by
  unfold State.calLeft
  extract_lets me s1 s2 s3
  have h1 : s1.backdrop = s.backdrop := rfl
  have h2 : s2.backdrop = s.backdrop := by
    simp only [s2, apply_ite State.backdrop, backdrop_modGrp, ite_self, h1]
  have h3 : s3.backdrop = s.backdrop := (backdrop_endLapses ..).trans h2
  split
  · exact h3
  · exact (backdrop_endLevel ..).trans h3

@[simp] theorem backdrop_calUses (n : Nat) : (s.calUses n).backdrop = s.backdrop := by
  unfold State.calUses
  extract_lets old u s1 s2
  have h1 : s1.backdrop = s.backdrop := backdrop_modStn _ _ _ fun _ => by rfl
  have h2 : s2.backdrop = s.backdrop :=
    (backdrop_each _ _ _ fun _ _ => (backdrop_modGrp ..).trans (backdrop_lapseWith ..)).trans h1
  split
  · rfl
  · split
    · exact h1
    · exact (backdrop_each _ _ _ fun _ _ => backdrop_calLeft ..).trans h2

@[simp] theorem backdrop_settle : s.settle.backdrop = s.backdrop := by
  simp [State.settle]

@[simp] theorem backdrop_outOn (o : Nat) : (s.outOn o).backdrop = s.backdrop := by
  unfold State.outOn
  split
  · simp [apply_ite State.backdrop]
  · rfl

@[simp] theorem backdrop_thetaUpdate (n : Nat) : (s.thetaUpdate n).backdrop = s.backdrop := by
  simp +decide [State.thetaUpdate, apply_ite State.backdrop]

@[simp] theorem backdrop_sourceTick : s.sourceTick.backdrop = s.backdrop := by
  unfold State.sourceTick
  extract_lets s1 s2
  have h1 : s1.backdrop = s.backdrop := backdrop_each _ _ _ fun _ _ => backdrop_endLevel ..
  have h2 : s2.backdrop = s.backdrop := (backdrop_modLng ..).trans h1
  split
  · exact h1
  · split
    · simp [apply_ite State.backdrop, h2]
    · exact h2

@[simp] theorem backdrop_steerTick : s.steerTick.backdrop = s.backdrop := by
  simp only [State.steerTick]
  repeat' split
  all_goals rfl

@[simp] theorem backdrop_lanesTick : s.lanesTick.backdrop = s.backdrop := by
  simp only [State.lanesTick, backdrop_steerTick, backdrop_sourceTick]
  split
  · exact backdrop_each _ _ _ fun _ _ => backdrop_modLane ..
  · rfl

/-! ### The parts of a tick -/

@[simp] theorem backdrop_perrUpdate (c : Nat) : (s.perrUpdate c).backdrop = s.backdrop := by
  simp [State.perrUpdate, apply_ite State.backdrop]

@[simp] theorem backdrop_compare (c : Nat) (e : Rat) : (s.compare c e).backdrop = s.backdrop := by
  simp [State.compare, apply_ite State.backdrop]

@[simp] theorem backdrop_coreTick (c : Nat) (e : Option CoreEdge) : (s.coreTick c e).backdrop = s.backdrop := by
  simp only [State.coreTick]
  split
  · rfl
  · split
    · rfl
    · simp [apply_ite State.backdrop]

@[simp] theorem backdrop_finishTransfer : s.finishTransfer.backdrop = s.backdrop := by
  unfold State.finishTransfer
  split
  · split
    · exact backdrop_raiseEvent ..
    · rfl
  · rfl

@[simp] theorem backdrop_wakeCores (a : Nat) : (s.wakeCores a).backdrop = s.backdrop :=
  backdrop_each _ _ _ fun _ _ => backdrop_startAcq ..

@[simp] theorem backdrop_outerLoopRead (a : Nat) (x y : Int) : (s.outerLoopRead a x y).backdrop = s.backdrop := by
  have slews : ∀ (k : Anchor) (b : Bool), (k.slew b).lock = k.lock := fun k b => by
    unfold Anchor.slew; split <;> rfl
  unfold State.outerLoopRead
  extract_lets k lim froze s1 bw
  have h1 : s1.backdrop = s.backdrop := by
    simp only [s1]
    split
    · exact backdrop_setReg _ _ _ _ (by decide)
    · rfl
  split
  · rfl
  · exact (backdrop_modAnc _ _ _ fun _ => by exact slews ..).trans ((backdrop_setReg _ _ _ _ (by decide)).trans h1)

end

/-! ### What the backdrop answers -/

def Backdrop.timeSrc (b : Backdrop) : Nat := getBits b.time Fields.TIME_STATE_SRC.lo Fields.TIME_STATE_SRC.width
def Backdrop.counting (b : Backdrop) : Bool :=
  b.timeSrc != 0 && getBits b.time Fields.TIME_STATE_COND.lo Fields.TIME_STATE_COND.width != 2
def Backdrop.lock (b : Backdrop) (a : Nat) : AncState × Bool × Bool := b.anchors[a]?.getD (default : Anchor).lock

theorem counting_backdrop (s : State) : s.counting = s.backdrop.counting := rfl

theorem lock_backdrop (s : State) (a : Nat) : (s.anc a).lock = s.backdrop.lock a := by
  simp only [State.anc, Backdrop.lock, State.backdrop, Vector.getElem?_map, Option.getD_map]

/-! ### The tick, part by part (R23, R76 to R78) -/

/-- The readings of the tick go into their registers. -/
def State.tickReadings (s : State) (align : Int) (steerA steerB perrA perrB : Int) : State :=
  let s := { s with elapsed := s.elapsed + 1, stepped := false }
  let both := (s.anc 0).hasTick && (s.anc 1).hasTick
  let align := if both then align else 0
  let s := s.setReg .ANC_ALIGN 0 (wordOfInt align)
  let run := if both && decide (align.natAbs ≤ s.alignWin) then s.alignRun + 1 else 0
  let s := { s with alignRun := run }.setFld Fields.ANC_STATUS_ALIGNED 0 (decide (1024 ≤ run)).toNat
  (s.outerLoopRead 0 steerA perrA).outerLoopRead 1 steerB perrB

/-- While the count runs it increases by one, and the copies follow. -/
def State.tickCount (s : State) (upset : Count) : State :=
  if s.counting then
    let sec := match s.primary with | some p => otherAnc p | none => 2
    let s := { s with count := s.count + 1 }
    let s := s.modAnc 0 fun a => a.tick (if sec = 0 then upset else 0)
    let s := s.modAnc 1 fun a => a.tick (if sec = 1 then upset else 0)
    let s := if s.copiesCompared && (s.anc 0).copy != (s.anc 1).copy then s.raiseEvent Src.anc_COUNT_MISMATCH 0 else s
    match s.primary with
    | some p => s.modAnc p fun a => { a with copy := s.count }
    | none => s
  else s

/-- The cores make their comparisons. -/
def State.tickCores (s : State) (edges : List CoreEdge) : State :=
  if s.counting then s.each (List.range 26) fun s c => s.coreTick c edges[c]? else s

theorem tick_parts (s : State) (al : Int) (u : Count) (sa sb pa pb : Int) (es : List CoreEdge) :
    s.tick al u sa sb pa pb es =
      (((((s.tickReadings al sa sb pa pb).tickCount u).tickCores es).beginTick 0).beginTick 1).finishTransfer := rfl

/-- The tick up to where an anchor's tick may start, on what the tick before leaves. -/
def State.counted (s : State) (al : Int) (u : Count) (sa sb pa pb : Int) (es : List CoreEdge) : State :=
  ((s.settle.tickReadings al sa sb pa pb).tickCount u).tickCores es

theorem tick_counted (s : State) (al : Int) (u : Count) (sa sb pa pb : Int) (es : List CoreEdge) :
    s.settle.tick al u sa sb pa pb es = (((s.counted al u sa sb pa pb es).beginTick 0).beginTick 1).finishTransfer :=
  tick_parts s.settle al u sa sb pa pb es

theorem backdrop_tickReadings (s : State) (al sa sb pa pb : Int) :
    (s.tickReadings al sa sb pa pb).backdrop = { s.backdrop with elapsed := s.elapsed + 1 } := by
  unfold State.tickReadings
  extract_lets s1 both al' s2 run s3
  have h2 : s2.backdrop = { s.backdrop with elapsed := s.elapsed + 1 } := backdrop_setReg _ _ _ _ (by decide)
  have h3 : s3.backdrop = { s.backdrop with elapsed := s.elapsed + 1 } := (backdrop_setFld _ _ _ _ (by decide)).trans h2
  exact (backdrop_outerLoopRead ..).trans ((backdrop_outerLoopRead ..).trans h3)

theorem backdrop_tickCount (s : State) (u : Count) :
    (s.tickCount u).backdrop = { s.backdrop with count := if s.counting then s.count + 1 else s.count } := by
  have ticks : ∀ (k : Anchor) (x : Count), (k.tick x).lock = k.lock := fun k x => by
    unfold Anchor.tick; split <;> rfl
  unfold State.tickCount
  split
  · extract_lets sec s1 s2 s3 s4
    have h1 : s1.backdrop = { s.backdrop with count := s.count + 1 } := rfl
    have h2 : s2.backdrop = s1.backdrop := backdrop_modAnc _ _ _ fun _ => by exact ticks ..
    have h3 : s3.backdrop = s2.backdrop := backdrop_modAnc _ _ _ fun _ => by exact ticks ..
    have h4 : s4.backdrop = s3.backdrop := by
      simp only [s4]
      split
      · exact backdrop_raiseEvent ..
      · rfl
    rw [← h1, ← h2, ← h3, ← h4]
    split
    · exact backdrop_modAnc _ _ _ fun _ => by rfl
    · rfl
  · rfl

theorem backdrop_tickCores (s : State) (es : List CoreEdge) : (s.tickCores es).backdrop = s.backdrop := by
  unfold State.tickCores
  split
  · exact backdrop_each _ _ _ fun _ _ => backdrop_coreTick ..
  · rfl

/-- Before an anchor's tick may start, a tick moves the elapsed ticks and, while it runs, the count (R23). -/
theorem backdrop_counted (s : State) (al : Int) (u : Count) (sa sb pa pb : Int) (es : List CoreEdge) :
    (s.counted al u sa sb pa pb es).backdrop =
      { s.backdrop with elapsed := s.elapsed + 1, count := if s.counting then s.count + 1 else s.count } := by
  have hs := backdrop_settle s
  unfold State.counted
  generalize s.settle = v at *
  have hr := backdrop_tickReadings v al sa sb pa pb
  have hc : (v.tickReadings al sa sb pa pb).counting = s.counting := by
    rw [counting_backdrop, counting_backdrop, hr, ← hs]; rfl
  have hn : (v.tickReadings al sa sb pa pb).count = s.count :=
    (congrArg Backdrop.count hr).trans (congrArg Backdrop.count hs)
  have he : v.elapsed = s.elapsed := congrArg Backdrop.elapsed hs
  rw [backdrop_tickCores, backdrop_tickCount, hr, hc, hn, hs, he]

/-! ### The start of an anchor's tick (R76) -/

/-- An anchor whose tick starts at this edge: inner lock is declared, and it does not tick yet. -/
def startsTick : AncState × Bool × Bool → Bool
  | (st, inner, hasTick) => inner && !hasTick && st != .off && st != .failed

theorem startsTick_lock (x : Anchor) : (!x.inner || x.hasTick || x.state == .off || x.state == .failed) = !startsTick x.lock := by
  simp only [startsTick, Anchor.lock, bne, Bool.not_and, Bool.not_not]

theorem beginTick_of_not_startsTick (s : State) (a : Nat) (h : startsTick (s.anc a).lock = false) : s.beginTick a = s := by
  simp [State.beginTick, startsTick_lock, h]

theorem backdrop_setTimeState (s : State) (f : Field) (v : Nat) (h : f.reg = .TIME_STATE) :
    (s.setFld f 0 v).backdrop = { s.backdrop with time := (s.setFld f 0 v).reg .TIME_STATE 0 } := by
  simp only [State.backdrop, State.setFld, h]
  rfl

/-- The first source of time is recorded in TIME_STATE, and its level sources follow. -/
theorem backdrop_setTime_first (s : State) (src cond : Nat) (h : s.timeSrc = 0) (hs : src ≠ 0) :
    (s.setTime src cond).backdrop =
      { s.backdrop with time := ((s.setFld Fields.TIME_STATE_SRC 0 src).setFld Fields.TIME_STATE_COND 0 cond).reg .TIME_STATE 0 } := by
  unfold State.setTime
  simp only [h, hs, false_and, if_false, ne_eq, not_true_eq_false, and_false, backdrop_setLevel, backdrop_record]
  rw [backdrop_setTimeState _ _ _ rfl, backdrop_setTimeState _ _ _ rfl]

/-- R27: the first primary's tick starts the count at 0 with SRC LOCAL, and moves nothing else of the backdrop but that the anchor ticks. -/
theorem backdrop_beginTick_first (s : State) (a : Nat) (hs : startsTick (s.anc a).lock = true) (hst : (s.anc a).state ≠ .innerAcq)
    (hp : s.primary = some a) (h0 : s.timeSrc = 0) :
    ∃ w : Word, getBits w Fields.TIME_STATE_SRC.lo Fields.TIME_STATE_SRC.width = 1 ∧
      (s.beginTick a).backdrop =
        { (s.modAnc a fun x => { x with hasTick := true }).backdrop with count := 0, time := w } := by
  have hi : ((s.anc a).state == .innerAcq) = false := beq_false_of_ne hst
  let s1 := s.modAnc a fun x => { x with hasTick := true }
  let s2 : State := { s1 with count := 0 }
  have ht : s2.timeSrc = 0 := h0
  have hsrc : ((s2.setFld Fields.TIME_STATE_SRC 0 1).setFld Fields.TIME_STATE_COND 0 s1.condOf).timeSrc = 1 :=
    (State.fld_setFld_other _ _ Fields.TIME_STATE_SRC 0 0 _ (by decide) (.inr (.inr (by decide)))).trans
      (State.fld_setFld_self s2 Fields.TIME_STATE_SRC 0 1 (by decide))
  refine ⟨_, hsrc, ?_⟩
  have hp1 : s1.primary = some a := hp
  have ht1 : s1.timeSrc = 0 := h0
  unfold State.beginTick
  simp only [startsTick_lock, hs, hi, Bool.not_true, Bool.false_eq_true, if_false]
  rw [backdrop_wakeCores, backdrop_modAnc _ _ _ fun _ => by rfl, if_pos hp1, if_pos ht1]
  exact backdrop_setTime_first s2 1 s1.condOf ht (by decide)

/-! ### The whole clock -/

theorem applyLaters_of_none (s : State) (h : s.later = []) : s.applyLaters = s := by
  have e : ({ s with later := [] } : State) = s := by cases s; cases h; rfl
  simp only [State.applyLaters, h, List.foldl_nil, ite_self, e]

theorem releaseHeld_of_none (s : State) (h : s.heldWrites = []) : s.releaseHeld = s := by
  have e : ({ s with heldWrites := [] } : State) = s := by cases s; cases h; rfl
  simp only [State.releaseHeld, h, List.foldl_nil, e]

theorem laneRestart_of_none (s : State) (h : s.svc.restart = false) : s.laneRestart = s := by
  simp [State.laneRestart, h]

/-- With no stamp of the tick before to release, no write held and no restart pending, what follows the tick leaves its backdrop
alone. -/
theorem backdrop_clock (s v : State) (al : Int) (u : Count) (sa sb pa pb : Int) (es : List CoreEdge) (ha : s.pins.aon = true)
    (hv : ((s.counted al u sa sb pa pb es).beginTick 0).beginTick 1 = v) (hr : v.svc.restart = false) (hl : v.later = [])
    (hw : v.heldWrites = []) : (s.clock al u sa sb pa pb es).backdrop = v.backdrop := by
  have h1 : (v.finishTransfer.each (List.range 32) State.outOn).backdrop = v.backdrop :=
    (backdrop_each _ _ _ fun _ _ => backdrop_outOn ..).trans (backdrop_finishTransfer v)
  unfold State.clock
  simp only [ha, if_true, tick_counted, hv]
  generalize v.finishTransfer.each (List.range 32) State.outOn = t at *
  have h2 : t.applyLaters = t := applyLaters_of_none _ ((congrArg Backdrop.later h1).trans hl)
  have h3 : t.releaseHeld = t := releaseHeld_of_none _ ((congrArg Backdrop.heldWrites h1).trans hw)
  have h4 : t.lanesTick.backdrop = v.backdrop := (backdrop_lanesTick _).trans h1
  have h5 : t.lanesTick.laneRestart = t.lanesTick := laneRestart_of_none _ ((congrArg (·.svc.restart) h4).trans hr)
  rw [h2, h3, h5, h4]

/-- R23: a tick at which no anchor's tick starts advances the count while it runs, and holds it else. -/
theorem backdrop_tick_counts (s : State) (al : Int) (u : Count) (sa sb pa pb : Int) (es : List CoreEdge) (ha : s.pins.aon = true)
    (hr : s.svc.restart = false) (hl : s.later = []) (hw : s.heldWrites = []) (hs : ∀ a : Fin 2, startsTick (s.anc a).lock = false) :
    (s.clock al u sa sb pa pb es).backdrop =
      { s.backdrop with elapsed := s.elapsed + 1, count := if s.counting then s.count + 1 else s.count } := by
  have hc := backdrop_counted s al u sa sb pa pb es
  have hb := backdrop_clock s _ al u sa sb pa pb es ha rfl
  generalize s.counted al u sa sb pa pb es = v at *
  have hx : ∀ a : Fin 2, startsTick (v.anc a).lock = false := fun a => by
    rw [lock_backdrop, hc]; exact (congrArg startsTick (lock_backdrop s a)).symm.trans (hs a)
  rw [beginTick_of_not_startsTick v 0 (hx 0), beginTick_of_not_startsTick v 1 (hx 1)] at hb
  rw [hb ((congrArg (·.svc.restart) hc).trans hr) ((congrArg Backdrop.later hc).trans hl)
    ((congrArg Backdrop.heldWrites hc).trans hw), hc]

/-- Where the tick of one anchor starts and that of the other does not, the starts of both are the start of the one. -/
theorem beginTick_one (v : State) (a b : Fin 2) (hab : a ≠ b) (h0 : startsTick (v.anc b).lock = false)
    (h1 : startsTick ((v.beginTick a).anc b).lock = false) : (v.beginTick 0).beginTick 1 = v.beginTick a := by
  fin_cases a <;> fin_cases b
  · exact absurd rfl hab
  · exact beginTick_of_not_startsTick _ 1 h1
  · exact congrArg (State.beginTick · 1) (beginTick_of_not_startsTick v 0 h0)
  · exact absurd rfl hab

/-- R27, R76: the tick at which the first primary's tick starts sets the count to 0 with SRC LOCAL. -/
theorem tick_starts_count (s : State) (a b : Fin 2) (al : Int) (u : Count) (sa sb pa pb : Int) (es : List CoreEdge)
    (ha : s.pins.aon = true) (hr : s.svc.restart = false) (hl : s.later = []) (hw : s.heldWrites = []) (hab : a ≠ b)
    (hb : (s.anc b).inner = false) (hp : s.primary = some a.val) (h0 : s.timeSrc = 0) (hs : startsTick (s.anc a).lock = true)
    (hst : (s.anc a).state ≠ .innerAcq) :
    completes (.tick al u sa sb pa pb es) s fun t =>
      t.count = 0 ∧ t.timeSrc = 1 ∧ (t.anc a).hasTick = true ∧ t.elapsed = s.elapsed + 1 := by
  refine ⟨_, rfl, ?_⟩
  have hc := backdrop_counted s al u sa sb pa pb es
  have hcl := backdrop_clock s _ al u sa sb pa pb es ha rfl
  generalize s.counted al u sa sb pa pb es = v at *
  generalize s.clock al u sa sb pa pb es = t at *
  have lock_eq : ∀ k : Nat, (v.anc k).lock = (s.anc k).lock := fun k => by
    rw [lock_backdrop, hc]; exact (lock_backdrop s k).symm
  have idle : ∀ x : Anchor, x.lock = (v.anc b).lock → startsTick x.lock = false := fun x hx => by
    have : x.inner = false := (congrArg (·.2.1) (hx.trans (lock_eq b))).trans hb
    simp [startsTick, Anchor.lock, this]
  obtain ⟨w, hsrc, hv⟩ := backdrop_beginTick_first v a ((congrArg startsTick (lock_eq a)).trans hs)
    (fun e => hst ((congrArg Prod.fst (lock_eq a)).symm.trans e)) ((congrArg Backdrop.primary hc).trans hp)
    ((congrArg Backdrop.timeSrc hc).trans h0)
  have ticking : ∀ (x : State) (k : Nat), x.backdrop = (v.beginTick a).backdrop →
      (x.anc k).lock = ((v.modAnc a fun y => { y with hasTick := true }).anc k).lock := fun x k hx => by
    rw [lock_backdrop, hx, hv]; exact (lock_backdrop _ k).symm
  have hkeep : ((v.beginTick a).anc b).lock = (v.anc b).lock := by
    rw [ticking _ b rfl, State.anc_modAnc_other _ _ _ _ fun e => hab (Fin.ext e)]
  rw [beginTick_one v a b hab (idle _ rfl) (idle _ hkeep)] at hcl
  have later_nil : (v.beginTick a).later = [] := (congrArg Backdrop.later hv).trans ((congrArg Backdrop.later hc).trans hl)
  have held_nil : (v.beginTick a).heldWrites = [] :=
    (congrArg Backdrop.heldWrites hv).trans ((congrArg Backdrop.heldWrites hc).trans hw)
  have no_restart : (v.beginTick a).svc.restart = false :=
    (congrArg (·.svc.restart) hv).trans ((congrArg (·.svc.restart) hc).trans hr)
  have ht := hcl no_restart later_nil held_nil
  have hel : v.elapsed = s.elapsed + 1 := congrArg Backdrop.elapsed hc
  refine ⟨congrArg Backdrop.count (ht.trans hv), (congrArg Backdrop.timeSrc (ht.trans hv)).trans hsrc, ?_,
    (congrArg Backdrop.elapsed (ht.trans hv)).trans hel⟩
  have hlock := ticking t a ht
  rw [State.anc_modAnc_self _ _ _ a.isLt] at hlock
  exact congrArg (·.2.2) hlock

/-! ### The end of a glide (R160) -/

/-- A core stands on the target of a glide. -/
def Core.glided (g : Glide) (x : Core) : Prop := x.glide = none ∧ x.applied = g.dst ∧ x.theta = glideTheta g

/-- What an update of any core keeps true of a core stays true of each. -/
theorem core_modCore_keeps (P : Core → Prop) (s : State) (c : Fin 26) (k : Nat) (f : Core → Core) (hf : ∀ x, P x → P (f x))
    (h : P (s.core c)) : P ((s.modCore k f).core c) := by
  by_cases e : k = c
  · subst e; rw [State.core_modCore_self _ _ _ c.isLt]; exact hf _ h
  · rw [State.core_modCore_other _ _ _ _ e]; exact h

/-- An acquisition leaves the setting of a core and its offset alone. -/
theorem glided_startAcq (g : Glide) (s : State) (c : Fin 26) (k : Nat) (cold : Bool) (m : BandMode) (t : Nat)
    (h : (s.core c).glided g) : ((s.startAcq k cold m t).core c).glided g := by
  unfold State.startAcq
  extract_lets x on power s1
  have h1 : (s1.core c).glided g := core_modCore_keeps _ _ _ _ _ (fun _ hx => hx) h
  split
  · exact h1
  · exact core_modCore_keeps _ _ _ _ _ (fun _ hx => hx) h1

/-- The end of a glide leaves its core on the target. -/
theorem glided_endGlide (s : State) (c : Fin 26) (g : Glide) (h : (s.core c).glide = some g) :
    ((s.endGlide c).core c).glided g := by
  have done : ∀ x : Core, (x.glideDone g).glided g := fun _ => ⟨rfl, rfl, rfl⟩
  unfold State.endGlide
  split
  case h_2 hn => exact absurd (h.symm.trans hn) (by simp)
  case h_1 g' hg =>
    obtain rfl : g = g' := Option.some.inj (h.symm.trans hg)
    extract_lets relock s1 s2 s3 s4
    have h1 : (s1.core c).glided g := by
      rw [State.core_modCore_self _ _ _ c.isLt]; exact done _
    have h2 : (s2.core c).glided g := by
      simp only [s2]
      split
      · exact core_modCore_keeps _ _ _ _ _ (fun _ _ => done _) h1
      · exact h1
    have h3 : (s3.core c).glided g := core_modCore_keeps _ _ _ _ _ (fun _ hx => hx) h2
    have h4 : (s4.core c).glided g := by
      simp only [s4]
      split
      · exact glided_startAcq g s3 c c _ _ _ h3
      · exact h3
    split
    · exact h4
    · exact h4

/-- An anchor of the first kinds of the statement does not start to tick. -/
theorem startsTick_of_state (x : Anchor) (h : x.inner = false ∨ x.hasTick = true ∨ x.state = .off ∨ x.state = .failed) :
    startsTick x.lock = false := by
  rcases h with h | h | h | h <;> simp [startsTick, Anchor.lock, h]

/-- Settles O2: the tick by the backdrop of its parts, with `tick_starts_count` for the first primary; a glide's end by
`glided_endGlide`; a declared idle by the guard of its end. -/
theorem ticksAdvanceAndTimesRunOut : Obligations.TicksAdvanceAndTimesRunOut := by
  refine ⟨fun s al u sa sb pa pb es => ⟨?_, ?_, ?_⟩, ?_, ?_, ?_⟩
  · intro ha hr hl hw hs
    have ht := backdrop_tick_counts s al u sa sb pa pb es ha hr hl hw fun a => startsTick_of_state _ (hs a)
    exact ⟨_, rfl, congrArg Backdrop.count ht, congrArg Backdrop.elapsed ht, congrArg Backdrop.pending ht⟩
  · intro a b ha hr hl hw hab hb hp h0 hi hn hst
    refine tick_starts_count s a b al u sa sb pa pb es ha hr hl hw hab hb hp h0 ?_ ?_ <;>
      rcases hst with e | e <;> simp [startsTick, Anchor.lock, hi, hn, e]
  · intro ha
    exact ⟨_, rfl, by simp [State.clock, ha]⟩
  · intro s c g h hg
    refine ⟨_, rfl, ?_⟩
    simp only [State.glideDue, h, if_pos hg]
    exact glided_endGlide s c g h
  · intro s c k h hk
    exact ⟨_, rfl, by simp [State.idleEnd, h, hk]⟩
  · intro s c k h hk
    exact ⟨_, rfl, by simp [State.idleEnd, h, Nat.not_le.2 hk]⟩

end Sys2Proof.Machine

namespace Sys2Proof.Machine

/-! ## The holding queues under a release (R38 to R41, R265) -/

def Backdrop.queue (b : Backdrop) (m : Nat) : List Effect := b.queues[m]?.getD (default : Station).queue

theorem queue_backdrop (s : State) (m : Nat) : (s.stn m).queue = s.backdrop.queue m := by
  simp only [State.stn, Backdrop.queue, State.backdrop, Vector.getElem?_map, Option.getD_map]

/-- A station that stops has an empty holding queue, and the others keep theirs (R200). -/
theorem queue_stopStation (s : State) (n m : Fin 8) (r : RunState) :
    ((s.stopStation n r).stn m).queue = if n = m then [] else (s.stn m).queue := by
  unfold State.stopStation
  split
  · next e => subst e; rw [State.stn_modStn_self _ _ _ n.isLt]
  · next e => rw [State.stn_modStn_other _ _ _ _ fun h => e (Fin.ext h)]

/-- No effect puts another into a holding queue. -/
theorem queue_applyAct_nil (s : State) (n m : Fin 8) (e : Effect) (h : (s.stn m).queue = []) :
    ((s.applyAct n e).stn m).queue = [] := by
  by_cases he : e.act = .halt
  · rw [show s.applyAct n e = s.stopStation n .stopped by simp [State.applyAct, he], queue_stopStation, h, ite_self]
  · rw [queue_backdrop, backdrop_applyAct s n e he, ← queue_backdrop, h]

/-- Once the only effect of all queues is released, every queue is empty. -/
theorem queue_releaseFront_nil (s : State) (n m : Fin 8) (e : Effect) (hn : (s.stn n).queue = [e])
    (h : ∀ m : Fin 8, m ≠ n → (s.stn m).queue = []) : ((s.releaseFront n e).stn m).queue = [] := by
  unfold State.releaseFront
  extract_lets s1 s2
  have h1 : (s1.stn m).queue = [] := by
    by_cases hm : n = m
    · subst hm; rw [State.stn_modStn_self _ _ _ n.isLt]; simp [hn]
    · rw [State.stn_modStn_other _ _ _ _ fun x => hm (Fin.ext x)]
      exact h m (Ne.symm hm)
  rw [queue_backdrop, backdrop_modStn _ _ _ fun _ => by rfl, backdrop_reap, ← queue_backdrop]
  exact queue_applyAct_nil s1 n m e h1

/-- A station whose first effect is named for a later tick, or that has none, releases nothing. -/
theorem releaseNow_waits (s : State) (n k : Nat) (h : ∀ (e : Effect) (l : List Effect), (s.stn n).queue = e :: l → s.now < e.tick) :
    s.releaseNow n k = s := by
  cases k with
  | zero => rfl
  | succ k =>
    unfold State.releaseNow
    split
    · next e l hq => simp [Nat.ne_of_gt (h e l hq)]
    · rfl

theorem each_releaseNow_waits (s : State) (l : List Nat)
    (h : ∀ m ∈ l, ∀ (e : Effect) (q : List Effect), (s.stn m).queue = e :: q → s.now < e.tick) :
    (s.each l fun s n => s.releaseNow n (s.stn n).queue.length) = s := by
  induction l with
  | nil => rfl
  | cons m l ih =>
    simp only [State.each, releaseNow_waits s m _ (h m List.mem_cons_self)]
    exact ih fun k hk => h k (List.mem_cons_of_mem _ hk)

/-- A single effect that is named for now and ready is released. -/
theorem releaseNow_one (s : State) (n : Nat) (e : Effect) (hq : (s.stn n).queue = [e]) (hc : s.counting = true)
    (hr : (s.stn n).run = .running) (ht : e.tick = s.now) (hy : s.effectReady n e = true) :
    s.releaseNow n (s.stn n).queue.length = s.releaseFront n e := by
  simp [hq, State.releaseNow, hc, hr, ht, hy]

/-- The stations release in turn: with one effect in all queues, due now, what is left is its release. -/
theorem releaseAll_one (s : State) (n : Fin 8) (e : Effect) (hq : (s.stn n).queue = [e])
    (h : ∀ m : Fin 8, m ≠ n → (s.stn m).queue = []) (hc : s.counting = true) (hr : (s.stn n).run = .running)
    (ht : e.tick = s.now) (hy : s.effectReady n e = true) : s.releaseAll = s.releaseFront n e := by
  have turns : ∀ l : List Nat, (∀ m ∈ l, m < 8) → n.val ∈ l →
      (s.each l fun s n => s.releaseNow n (s.stn n).queue.length) = s.releaseFront n e := by
    intro l
    induction l with
    | nil => intro _ hn; simp at hn
    | cons m l ih =>
      intro hl hn
      simp only [State.each]
      by_cases hm : m = n
      · subst hm
        rw [releaseNow_one s n e hq hc hr ht hy]
        refine each_releaseNow_waits _ l fun k hk e' q hq' => ?_
        have := queue_releaseFront_nil s n ⟨k, hl k (List.mem_cons_of_mem _ hk)⟩ e hq h
        simp [this] at hq'
      · have hmq : (s.stn m).queue = [] := h ⟨m, hl m List.mem_cons_self⟩ fun x => hm (congrArg Fin.val x)
        rw [releaseNow_waits s m _ (by simp [hmq])]
        exact ih (fun k hk => hl k (List.mem_cons_of_mem _ hk)) ((List.mem_cons.1 hn).resolve_left (Ne.symm hm))
  exact turns _ (fun m hm => List.mem_range.1 hm) (List.mem_range.2 n.isLt)

/-- With every first effect named for a later tick the stations release nothing (R40). -/
theorem releaseAll_waits (s : State)
    (h : ∀ (m : Fin 8) (e : Effect) (l : List Effect), (s.stn m).queue = e :: l → s.now < e.tick) : s.releaseAll = s :=
  each_releaseNow_waits s _ fun m hm => h ⟨m, List.mem_range.1 hm⟩

/-! ## Raises and lapses: what they may change -/

theorem raiseAs_form (s : State) (f : Fid) (k : Nat) (a : Word) (x y : Bool) :
    ∃ rs, s.raiseAs f k a x y = { s with raises := rs } := by
  unfold State.raiseAs
  split
  · exact ⟨s.raises, rfl⟩
  · exact ⟨_, rfl⟩

theorem lapseWith_form (s : State) (f : Fid) (w : Word) (e : LapseEnd) :
    ∃ ws rs ls, s.lapseWith f w e = { s with windows := ws, raises := rs, lapses := ls } := by
  unfold State.lapseWith
  extract_lets w'
  split
  · exact ⟨s.windows, s.raises, s.lapses, rfl⟩
  · split
    · exact ⟨s.windows, _, s.lapses, rfl⟩
    · unfold State.beginLapse
      split
      · exact ⟨s.windows, s.raises, s.lapses, rfl⟩
      · exact ⟨_, s.raises, _, rfl⟩

/-- The note of a late effect counts it; beside the count it changes windows, raises and lapses alone (R49, R52). -/
theorem noteLate_form (s : State) (n k : Nat) :
    ∃ ws rs ls, s.noteLate n k = { s.bump Fields.TIME_LATECNT_COUNT n 1 with windows := ws, raises := rs, lapses := ls } := by
  unfold State.noteLate
  extract_lets s1
  split
  · obtain ⟨rs, h⟩ := raiseAs_form s1 (Src.stn_LATE_RELEASE n) k (loWord s1.now) false false
    rw [h]
    exact lapseWith_form _ _ _ _
  · exact ⟨_, s1.raises, s1.lapses, rfl⟩

theorem noteLate_fld (s : State) (n k : Nat) :
    (s.noteLate n k).fld Fields.TIME_LATECNT_COUNT n = satAdd (s.fld Fields.TIME_LATECNT_COUNT n) 32 1 := by
  obtain ⟨ws, rs, ls, h⟩ := noteLate_form s n k
  rw [h]
  exact State.fld_bump_self s Fields.TIME_LATECNT_COUNT n 1 (by decide)

@[simp] theorem noteLate_out (s : State) (n k o : Nat) : (s.noteLate n k).out o = s.out o := by
  obtain ⟨ws, rs, ls, h⟩ := noteLate_form s n k
  rw [h]; rfl

@[simp] theorem noteLate_stn (s : State) (n k m : Nat) : (s.noteLate n k).stn m = s.stn m := by
  obtain ⟨ws, rs, ls, h⟩ := noteLate_form s n k
  rw [h]; rfl

/-! ## Outputs and pins of a set -/

theorem mem_bitsOf (w : Word) (n i : Nat) : i ∈ bitsOf w n ↔ i < n ∧ bitOf w i = true := by
  simp [bitsOf]

/-- Gating or ungating each output of a list sets the reason PROGRAM of those outputs and of no other (R333). -/
theorem progGate_each (b : Bool) (f : State → Nat → State)
    (hf : ∀ (s : State) (k : Nat) (o : Fin 32), ((f s k).out o).progGate = if o.val = k then b else (s.out o).progGate)
    (s : State) (l : List Nat) (o : Fin 32) :
    ((s.each l f).out o).progGate = if o.val ∈ l then b else (s.out o).progGate := by
  induction l generalizing s with
  | nil => rfl
  | cons k l ih =>
    simp only [State.each, ih, hf, List.mem_cons]
    by_cases h : o.val ∈ l
    · simp [h]
    · simp [h]

theorem progGate_modOut (s : State) (k : Nat) (o : Fin 32) (b : Bool) :
    ((s.modOut k fun x => { x with progGate := b }).out o).progGate = if o.val = k then b else (s.out o).progGate := by
  split
  · next h => subst h; rw [State.out_modOut_self _ _ _ o.isLt]
  · next h => rw [State.out_modOut_other _ _ _ _ (Ne.symm h)]

theorem progGate_outBoundary (s : State) (k : Nat) (o : Fin 32) : ((s.outBoundary k).out o).progGate = (s.out o).progGate := by
  unfold State.outBoundary
  by_cases h : k = o.val
  · subst h; rw [State.out_modOut_self _ _ _ o.isLt]
  · rw [State.out_modOut_other _ _ _ _ h]

@[simp] theorem out_masked (s : State) (n : Nat) (w : Word) (o : Nat) : (s.masked n w).out o = s.out o := by
  unfold State.masked
  split
  · rfl
  · obtain ⟨rs, h⟩ := raiseAs_form s (Src.stn_OUTSET_MASKED n) s.now 0 false false
    rw [State.raiseEvent, h]; rfl

@[simp] theorem out_endIdleOf (s : State) (l : List Nat) (o : Nat) : (s.endIdleOf l).out o = s.out o :=
  State.each_keeps (·.out o) _ (fun s k => by split <;> rfl) s l

/-- OUTG with U = 0 gates the outputs of its set that the station may drive, and no other (R263, R266). -/
theorem progGate_outg (s : State) (n : Fin 8) (e : Effect) (outs : Word) (h : e.act = .outg false outs) (o : Fin 32) :
    ((s.applyAct n e).out o).progGate =
      if bitOf outs o && bitOf (s.reg .STN_OUTMASK n) o then true else (s.out o).progGate := by
  simp only [State.applyAct, h, State.onOuts, State.outg, Bool.not_false, if_true]
  rw [progGate_each true _ (fun s k o => progGate_modOut s k o true), out_endIdleOf, out_masked]
  simp [State.ownOuts, mem_bitsOf, bitOf]

/-- Ungating an output of a cold hop sets its reason PROGRAM and leaves the stations alone. -/
theorem progGate_ungate (s : State) (k : Nat) (o : Fin 32) :
    (((s.modOut k fun x => { x with progGate := false }).outBoundary k).out o).progGate =
      if o.val = k then false else (s.out o).progGate := by
  rw [progGate_outBoundary, progGate_modOut]

/-- The ungating of a cold hop whose named tick has come ungates its outputs and ends its wait (R225). -/
theorem coldUngate_one (s : State) (n : Fin 8) (w : ColdWait) (hc : s.counting = true) (hw : (s.stn n).colds = [w])
    (hd : s.coldDue n w = true) :
    ((s.coldUngate n).stn n).colds = [] ∧
      ∀ o : Fin 32, ((s.coldUngate n).out o).progGate = if bitOf w.outs o then false else (s.out o).progGate := by
  have hdue : ((s.stn n).colds.filter fun w => s.counting && s.coldDue n w) = [w] := by simp [hw, hc, hd]
  unfold State.coldUngate
  extract_lets due s1
  have hs1 : due = [w] := hdue
  have hcolds : (s1.stn n).colds = [] := by
    rw [State.stn_modStn_self _ _ _ n.isLt]
    simp [hs1, hw]
  rw [hs1, List.foldl_cons, List.foldl_nil]
  extract_lets s2
  have hstn : s2.stn n = s1.stn n := State.each_keeps (·.stn n) _ (fun _ _ => by rfl) s1 _
  have hout : ∀ o : Fin 32, (s2.out o).progGate = if bitOf w.outs o then false else (s.out o).progGate := fun o => by
    rw [progGate_each false _ (fun s k o => progGate_ungate s k o)]
    simp [mem_bitsOf, s1]
  split
  · exact ⟨by rw [noteLate_stn, hstn, hcolds], fun o => by rw [noteLate_out, hout]⟩
  · exact ⟨by rw [hstn, hcolds], hout⟩

/-- A step of STAT: one pin, driven if it is named and mapped to the station (Table 6.11). -/
def State.driveStat (n : Nat) (m v : BitVec 8) (s : State) (k : Nat) : State :=
  if m.getLsbD k && getBits (s.reg .SEQ_STATMAP 0) (4 * k) 4 == n then
    { s with statPins := s.statPins.setIfInBounds k (some (v.getLsbD k)) }
  else s

theorem statEffect_each (s : State) (n : Nat) (m v : BitVec 8) :
    s.statEffect n m v = s.each (List.range 8) (State.driveStat n m v) := rfl

theorem driveStat_reg (s : State) (n : Nat) (m v : BitVec 8) (j : Nat) (r : RegName) (i : Nat) :
    (State.driveStat n m v s j).reg r i = s.reg r i := by
  unfold State.driveStat; split <;> rfl

theorem driveStat_pin (s : State) (n : Nat) (m v : BitVec 8) (j : Nat) (k : Fin 8) :
    (State.driveStat n m v s j).statPins[k] =
      if k.val = j ∧ (m.getLsbD k && getBits (s.reg .SEQ_STATMAP 0) (4 * k) 4 == n) = true then some (v.getLsbD k)
      else s.statPins[k] := by
  unfold State.driveStat
  by_cases hj : k.val = j
  · subst hj
    generalize (m.getLsbD k && getBits (s.reg .SEQ_STATMAP 0) (4 * k) 4 == n) = driven
    cases driven <;> simp
  · simp only [hj, false_and, if_false]
    split
    · exact Vector.getElem_setIfInBounds_ne _ (Ne.symm hj)
    · rfl

/-- STAT sets the pins of its mask that are mapped to the station, and no other (R263, R266). -/
theorem statPins_each (s : State) (n : Nat) (m v : BitVec 8) (l : List Nat) (k : Fin 8) :
    (s.each l (State.driveStat n m v)).statPins[k] =
      if k.val ∈ l ∧ (m.getLsbD k && getBits (s.reg .SEQ_STATMAP 0) (4 * k) 4 == n) = true then some (v.getLsbD k)
      else s.statPins[k] := by
  induction l generalizing s with
  | nil => simp [State.each]
  | cons j l ih =>
    simp only [State.each, ih, driveStat_reg, driveStat_pin, List.mem_cons]
    generalize (m.getLsbD k && getBits (s.reg .SEQ_STATMAP 0) (4 * k) 4 == n) = driven
    by_cases h : k.val ∈ l
    · cases driven <;> simp [h]
    · simp [h]

/-- Settles O3: the release at a named tick by `releaseAll_one` and `releaseAll_waits`, a late one by `noteLate_fld`, cold hops by
`coldUngate_one`, and the effects on outputs, pins and the station by what each leaves of them. -/
theorem effectsAreReleased : Obligations.EffectsAreReleased := by
  refine ⟨?_, ?_, ?_, ?_, ?_, ?_, ?_⟩
  · intro s u n e hh hu hc h hq hr ht hy
    refine ⟨_, rfl, ?_, ?_⟩
    · simp [hh, hu, releaseAll_one u n e hq h hc hr ht hy]
    · simp only [hh, hu, releaseAll_one u n e hq h hc hr ht hy, Bool.false_eq_true, if_false]
      exact queue_releaseFront_nil u n n e hq h
  · intro s u hh hu h
    exact ⟨_, rfl, by simp [hh, hu, releaseAll_waits u h]⟩
  · intro s n e l hc hq hr ht hy
    exact ⟨_, rfl, by simp [State.lateEffect, hq, hc, hr, ht, hy], noteLate_fld s n e.tick⟩
  · intro s n w hc hw hd
    exact ⟨_, rfl, coldUngate_one s n w hc hw hd⟩
  · intro s n e outs h o
    exact progGate_outg s n e outs h o
  · intro s n e m v h k
    simp only [State.applyAct, h, statEffect_each]
    rw [statPins_each]
    simp [k.isLt]
  · intro s n e h
    have hs : s.applyAct n e = s.stopStation n .stopped := by simp [State.applyAct, h]
    rw [hs]
    refine ⟨?_, by rw [queue_stopStation, if_pos rfl]⟩
    rw [State.stopStation, State.stn_modStn_self _ _ _ n.isLt]

end Sys2Proof.Machine

namespace Sys2Proof.Machine

/-! ## What raises, levels and TIME_STATE leave alone of references, anchors, cores and outputs -/

/-- The part of the state that spec/02 speaks of beside the registers: what the references, the anchors and the units they feed hold.
An operation that leaves all of it alone says so in one equation. -/
structure Anchorage where
  refs : Vector RefInput 5
  anchors : Vector Anchor 2
  primary : Option Nat
  count : Count
  cores : Vector Core 26
  outs : Vector Output 32

def State.anchorage (s : State) : Anchorage := ⟨s.refs, s.anchors, s.primary, s.count, s.cores, s.outs⟩

section
variable (s : State)

theorem ref_of_anchorage {s t : State} (h : t.anchorage = s.anchorage) (n : Nat) : t.ref n = s.ref n :=
  congrArg (fun x : Anchorage => x.refs[n]?.getD default) h

theorem anc_of_anchorage {s t : State} (h : t.anchorage = s.anchorage) (n : Nat) : t.anc n = s.anc n :=
  congrArg (fun x : Anchorage => x.anchors[n]?.getD default) h

theorem core_of_anchorage {s t : State} (h : t.anchorage = s.anchorage) (n : Nat) : t.core n = s.core n :=
  congrArg (fun x : Anchorage => x.cores[n]?.getD default) h

@[simp] theorem anchorage_setReg (r : RegName) (i : Nat) (v : Word) : (s.setReg r i v).anchorage = s.anchorage := rfl
@[simp] theorem anchorage_setFld (f : Field) (i v : Nat) : (s.setFld f i v).anchorage = s.anchorage := rfl
@[simp] theorem anchorage_stick (f : Field) (i : Nat) : (s.stick f i).anchorage = s.anchorage := rfl
@[simp] theorem anchorage_bump (f : Field) (i k : Nat) : (s.bump f i k).anchorage = s.anchorage := rfl
@[simp] theorem anchorage_modWin (n : Nat) (f : FaultWindow → FaultWindow) : (s.modWin n f).anchorage = s.anchorage := rfl
@[simp] theorem anchorage_endLevel (f : Fid) : (s.endLevel f).anchorage = s.anchorage := rfl
@[simp] theorem anchorage_record (c i r k : Nat) (a : Word) : (s.record c i r k a).anchorage = s.anchorage := rfl
@[simp] theorem anchorage_settleAlign : s.settleAlign.anchorage = s.anchorage := rfl

@[simp] theorem anchorage_raiseEvent (f : Fid) (a : Word) : (s.raiseEvent f a).anchorage = s.anchorage := by
  obtain ⟨rs, h⟩ := raiseAs_form s f s.now a false false
  rw [State.raiseEvent, h]; rfl

@[simp] theorem anchorage_beginLevel (f : Fid) (a : Word) : (s.beginLevel f a).anchorage = s.anchorage := by
  simp [State.beginLevel, apply_ite State.anchorage]

@[simp] theorem anchorage_setLevel (f : Fid) (a : Word) (b : Bool) : (s.setLevel f a b).anchorage = s.anchorage := by
  cases b <;> simp [State.setLevel]

/-- TIME_STATE with its records and level sources is none of it (R33 to R35). -/
@[simp] theorem anchorage_setTime (src cond : Nat) : (s.setTime src cond).anchorage = s.anchorage := by
  simp [State.setTime, apply_ite State.anchorage]

@[simp] theorem anchorage_updateCond : s.updateCond.anchorage = s.anchorage := anchorage_setTime ..

@[simp] theorem raiseEvent_regs (f : Fid) (a : Word) : (s.raiseEvent f a).regs = s.regs := by
  obtain ⟨rs, h⟩ := raiseAs_form s f s.now a false false
  rw [State.raiseEvent, h]

@[simp] theorem beginLevel_regs (f : Fid) (a : Word) : (s.beginLevel f a).regs = s.regs := by
  simp [State.beginLevel, apply_ite State.regs]

end

/-- While the device runs, a command of a detector is complete with what the detector does. -/
theorem completes_of_detector {c : Instr} {s t : State} {f : State → State} {P : State → Prop} (hx : exec c s = .next (s.detector f))
    (h : s.up = true) (ht : f s = t) (hP : P t) : completes c s P :=
  ⟨t, hx.trans (congrArg _ ((if_pos h).trans ht)), hP⟩

/-! ## Registers beside the one written -/

/-- Storing a field leaves every other register alone. -/
theorem reg_setFld_ne (s : State) (f : Field) (i v : Nat) (r : RegName) (j : Nat) (h : r ≠ f.reg) :
    (s.setFld f i v).reg r j = s.reg r j :=
  State.reg_setReg_other _ _ _ _ _ _ fun e => h e.1.symm

theorem reg_stick_ne (s : State) (f : Field) (i : Nat) (r : RegName) (j : Nat) (h : r ≠ f.reg) : (s.stick f i).reg r j = s.reg r j :=
  reg_setFld_ne s f i 1 r j h

theorem reg_bump_ne (s : State) (f : Field) (i k : Nat) (r : RegName) (j : Nat) (h : r ≠ f.reg) : (s.bump f i k).reg r j = s.reg r j :=
  reg_setFld_ne s f i _ r j h

/-- A field reads what its register holds. -/
theorem fld_of_reg {s t : State} {f : Field} {i : Nat} (h : t.reg f.reg i = s.reg f.reg i) : t.fld f i = s.fld f i :=
  congrArg (getBits · f.lo f.width) h

theorem flag_of_reg {s t : State} {f : Field} {i : Nat} (h : t.reg f.reg i = s.reg f.reg i) : t.flag f i = s.flag f i :=
  congrArg (· == 1) (fld_of_reg h)

/-! ## References (R63 to R66) -/

theorem ref_modRef_ne (s : State) (q r : Fin 5) (f : RefInput → RefInput) (h : q ≠ r) : (s.modRef r f).ref q = s.ref q :=
  State.ref_modRef_other _ _ _ _ fun e => h (Fin.ext e.symm)

/-- Of references, anchors, cores and outputs a disqualification changes the reference alone. -/
theorem anchorage_refDisqualify (s : State) (r : Nat) (b : Bool) : (s.refDisqualify r b).anchorage =
    (s.modRef r fun x => { x with qualified := false, qualFrom := some s.elapsed, lostAt := s.elapsed }).anchorage := by
  unfold State.refDisqualify
  extract_lets x s1 s2 s3 s4
  have h3 : s3.anchorage = s1.anchorage := by
    simp only [s3, s2, apply_ite State.anchorage, anchorage_beginLevel, anchorage_endLevel, anchorage_bump, anchorage_stick, ite_self]
  have h4 : s4.anchorage = s1.anchorage := by
    simp only [s4, apply_ite State.anchorage, anchorage_settleAlign, ite_self, h3]
  split
  · rfl
  · split
    · split
      · exact h4
      · exact h4
    · exact h4

/-- A reference that was qualified gets its sticky bit and counts the disqualification (R64); no other register changes. -/
theorem regs_refDisqualify (s : State) (r : Nat) (h : (s.ref r).qualified = true) :
    (s.refDisqualify r true).regs = ((s.stick Fields.REF_STAT_DQ r).bump Fields.REF_DQCNT_COUNT r 1).regs := by
  unfold State.refDisqualify
  extract_lets x s1 s2 s3 s4
  have h2 : s2.regs = ((s.stick Fields.REF_STAT_DQ r).bump Fields.REF_DQCNT_COUNT r 1).regs := rfl
  have h4 : s4.regs = s2.regs := by
    have h3 : s3.regs = s2.regs := beginLevel_regs s2 _ _
    simp only [s4, apply_ite State.regs, State.settleAlign, ite_self, h3]
  rw [if_neg (by simp [x, h]), ← h2, ← h4]
  split
  · split <;> rfl
  · rfl

/-- A reference has been disqualified (R64): its sticky bit is set, its count goes on, and the other references, the cores and the
outputs are as they were, and so is every register but REF_STAT and REF_DQCNT. -/
structure State.Disqualifies (s t : State) (r : Fin 5) : Prop where
  qualified : (t.ref r).qualified = false
  active : (t.ref r).active = (s.ref r).active
  sticky : t.flag Fields.REF_STAT_DQ r = true
  count : t.fld Fields.REF_DQCNT_COUNT r = satAdd (s.fld Fields.REF_DQCNT_COUNT r) Fields.REF_DQCNT_COUNT.width 1
  cores : t.cores = s.cores
  outs : t.outs = s.outs
  others : ∀ q : Fin 5, q ≠ r → t.ref q = s.ref q
  regs : ∀ x j, x ≠ .REF_STAT → x ≠ .REF_DQCNT → t.reg x j = s.reg x j

theorem refDisqualify_disqualifies (s : State) (r : Fin 5) (h : (s.ref r).qualified = true) :
    s.Disqualifies (s.refDisqualify r true) r := by
  have ha := anchorage_refDisqualify s r true
  have reg_eq : ∀ x j, (s.refDisqualify r true).reg x j = ((s.stick Fields.REF_STAT_DQ r).bump Fields.REF_DQCNT_COUNT r 1).reg x j :=
    fun x j => congrArg (·.get x j) (regs_refDisqualify s r h)
  refine ⟨?_, ?_, ?_, ?_, congrArg Anchorage.cores ha, congrArg Anchorage.outs ha, fun q hq => ?_, fun x j h1 h2 => ?_⟩
  · rw [ref_of_anchorage ha, State.ref_modRef_self _ _ _ r.isLt]
  · rw [ref_of_anchorage ha, State.ref_modRef_self _ _ _ r.isLt]
  · rw [flag_of_reg ((reg_eq _ _).trans (reg_bump_ne _ _ _ _ _ _ (by decide)))]
    exact State.flag_stick_self s Fields.REF_STAT_DQ r (by decide) rfl
  · rw [fld_of_reg (reg_eq _ _), State.fld_bump_self _ _ _ _ (by decide), fld_of_reg (reg_stick_ne s _ _ _ _ (by decide))]
  · rw [ref_of_anchorage ha, ref_modRef_ne _ _ _ _ hq]
  · rw [reg_eq, reg_bump_ne _ _ _ _ _ _ h2, reg_stick_ne _ _ _ _ _ h1]

/-- The state in which a gate is judged: its offset in REF_FOFFS, and the reference seen active (R64). -/
def State.gateSeen (s : State) (r : Fin 5) (off : Int) : State :=
  (s.setReg .REF_FOFFS r (wordOfInt off)).modRef r fun x =>
    { x with inAccept := decide (off.natAbs ≤ s.fld Fields.REF_FWIN_ACCEPT r * 10), active := true
             gateBase := (s.setReg .REF_FOFFS r (wordOfInt off)).gateBase r }

/-- Of a reference the reading of a gate leaves the qualification, its start and the hold. -/
theorem ref_gateSeen_self (s : State) (r : Fin 5) (off : Int) :
    ((s.gateSeen r off).ref r).qualified = (s.ref r).qualified ∧ ((s.gateSeen r off).ref r).held = (s.ref r).held ∧
      ((s.gateSeen r off).ref r).qualFrom = (s.ref r).qualFrom := by
  rw [State.gateSeen, State.ref_modRef_self _ _ _ r.isLt]
  exact ⟨rfl, rfl, rfl⟩

theorem ref_gateSeen_ne (s : State) (q r : Fin 5) (off : Int) (h : q ≠ r) : (s.gateSeen r off).ref q = s.ref q :=
  ref_modRef_ne _ _ _ _ h

theorem reg_gateSeen_self (s : State) (r : Fin 5) (off : Int) : (s.gateSeen r off).reg .REF_FOFFS r = wordOfInt off :=
  State.reg_setReg_self _ _ _ _

theorem fld_gateSeen (s : State) (r : Fin 5) (off : Int) (f : Field) (i : Nat) (h : f.reg ≠ .REF_FOFFS) :
    (s.gateSeen r off).fld f i = s.fld f i :=
  fld_of_reg (State.reg_setReg_other _ _ _ _ _ _ fun e => h e.1.symm)

theorem qualTicks_gateSeen (s : State) (r : Fin 5) (off : Int) : (s.gateSeen r off).qualTicks r = s.qualTicks r := by
  simp only [State.qualTicks, State.fld1, fld_gateSeen s r off Fields.REF_MONCFG_QUAL r (by decide)]

theorem refRatioOk_gateSeen (s : State) (r : Fin 5) (off : Int) : (s.gateSeen r off).refRatioOk r = s.refRatioOk r := by
  unfold State.refRatioOk State.refTop State.refDen State.fld1
  rw [fld_gateSeen s r off Fields.REF_RATIO_NUM_NUM r (by decide), fld_gateSeen s r off Fields.REF_RATIO_DEN_DEN r (by decide),
    fld_gateSeen s r off Fields.REF_CFG_PREDIV r (by decide)]

@[simp] theorem acquireQualified_refs (s : State) (r : Nat) : (s.acquireQualified r).refs = s.refs := by
  unfold State.acquireQualified
  split
  · split <;> rfl
  · rfl

@[simp] theorem acquireQualified_regs (s : State) (r : Nat) : (s.acquireQualified r).regs = s.regs := by
  unfold State.acquireQualified
  split
  · split <;> rfl
  · rfl

/-- A requalification (R65) leaves the other references and every register alone. -/
theorem ref_refQualify (s : State) (r : Nat) (q : Nat) :
    (s.refQualify r).ref q = (s.modRef r fun x => { x with qualified := true }).ref q :=
  congrArg (fun x : Vector RefInput 5 => x[q]?.getD default) (acquireQualified_refs _ r)

theorem reg_refQualify (s : State) (r : Nat) (x : RegName) (j : Nat) : (s.refQualify r).reg x j = s.reg x j :=
  congrArg (·.get x j) (acquireQualified_regs _ r)

theorem refMissing_disqualifies (s : State) (r : Fin 5) (h : (s.ref r).qualified = true) :
    (s.modRef r fun x => { x with active := false }).Disqualifies (s.refMissing r) r :=
  refDisqualify_disqualifies _ r (by rw [State.ref_modRef_self _ _ _ r.isLt]; exact h)

/-- A gate beyond REJECT disqualifies (R64). -/
theorem refGate_beyond_reject (s : State) (r : Fin 5) (off : Int) (h : s.fld Fields.REF_FWIN_REJECT r * 10 < off.natAbs) :
    s.refGate r off = (s.gateSeen r off).refDisqualify r true := if_pos h

/-- A gate inside ACCEPT qualifies a reference whose qualification time is over (R65). -/
theorem refGate_requalifies (s : State) (r : Fin 5) (off : Int) (k : Nat) (hq : (s.ref r).qualified = false)
    (hh : (s.ref r).held = false) (hacc : off.natAbs ≤ s.fld Fields.REF_FWIN_ACCEPT r * 10)
    (hrej : off.natAbs ≤ s.fld Fields.REF_FWIN_REJECT r * 10) (hk : (s.ref r).qualFrom = some k)
    (hdue : k + s.qualTicks r ≤ s.elapsed) (hok : s.refRatioOk r = true) : s.refGate r off = (s.gateSeen r off).refQualify r := by
  obtain ⟨hq', hh', hk'⟩ := ref_gateSeen_self s r off
  unfold State.refGate
  extract_lets accept reject inA u v
  have hv : v = s.gateSeen r off := rfl
  have he : v.elapsed = s.elapsed := rfl
  clear_value v
  subst hv
  simp [accept, reject, inA, Nat.not_lt.2 hrej, hq', hq, hh', hh, hacc, hk', hk, qualTicks_gateSeen, refRatioOk_gateSeen, he, hdue, hok]

/-- A gate between ACCEPT and REJECT restarts the qualification time of a reference that is not qualified (R66). -/
theorem refGate_restarts (s : State) (r : Fin 5) (off : Int) (hq : (s.ref r).qualified = false) (hh : (s.ref r).held = false)
    (hacc : s.fld Fields.REF_FWIN_ACCEPT r * 10 < off.natAbs) (hrej : off.natAbs ≤ s.fld Fields.REF_FWIN_REJECT r * 10) :
    s.refGate r off = (s.gateSeen r off).modRef r fun x => { x with qualFrom := some s.elapsed } := by
  obtain ⟨hq', hh', -⟩ := ref_gateSeen_self s r off
  unfold State.refGate
  extract_lets accept reject inA u v
  have hv : v = s.gateSeen r off := rfl
  have he : v.elapsed = s.elapsed := rfl
  clear_value v
  subst hv
  simp [accept, reject, inA, Nat.not_lt.2 hrej, hq', hq, hh', hh, hacc, he]

/-- Settles O8: a silence and a gate beyond REJECT by `refDisqualify_disqualifies`, a gate inside or outside ACCEPT by
`refGate_requalifies` and `refGate_restarts`. -/
theorem referenceQualification : Obligations.ReferenceQualification := by
  refine ⟨?_, ?_, ?_, ?_⟩
  · intro s r quiet hup hen hq hm
    have d := refMissing_disqualifies s r hq
    refine completes_of_detector (t := s.refMissing r) rfl hup (if_pos (by simp [hen, hm]))
      ⟨d.qualified, ?_, d.sticky, d.count, d.cores, d.outs, fun q hqr => ?_⟩
    · rw [d.active, State.ref_modRef_self _ _ _ r.isLt]
    · rw [d.others q hqr, ref_modRef_ne _ _ _ _ hqr]
  · intro s r off hup hen hq hrej
    obtain ⟨hq', -, -⟩ := ref_gateSeen_self s r off
    have d := refDisqualify_disqualifies (s.gateSeen r off) r (hq'.trans hq)
    refine completes_of_detector rfl hup ((if_pos hen).trans (refGate_beyond_reject s r off hrej))
      ⟨d.qualified, ?_, d.sticky, fun q hqr => ?_⟩
    · rw [d.regs _ _ (by decide) (by decide), reg_gateSeen_self]
    · rw [d.others q hqr, ref_gateSeen_ne s q r off hqr]
  · intro s r off k hup hen hq hh hacc hrej hk hdue hok
    refine completes_of_detector rfl hup ((if_pos hen).trans (refGate_requalifies s r off k hq hh hacc hrej hk hdue hok))
      ⟨?_, ?_, fun q hqr => ?_⟩
    · rw [ref_refQualify, State.ref_modRef_self _ _ _ r.isLt]
    · rw [reg_refQualify, reg_gateSeen_self]
    · rw [ref_refQualify, ref_modRef_ne _ _ _ _ hqr, ref_gateSeen_ne s q r off hqr]
  · intro s r off hup hen hq hh hacc hrej
    obtain ⟨hq', -, -⟩ := ref_gateSeen_self s r off
    have href := State.ref_modRef_self (s.gateSeen r off) r (fun x => { x with qualFrom := some s.elapsed }) r.isLt
    exact completes_of_detector rfl hup ((if_pos hen).trans (refGate_restarts s r off hq hh hacc hrej))
      ⟨(congrArg RefInput.qualified href).trans (hq'.trans hq), congrArg RefInput.qualFrom href, rfl⟩

end Sys2Proof.Machine

namespace Sys2Proof.Machine

/-! ## Raises of the anchors' sources (R501, R503) -/

/-- The raise of a source whose unit is not fenced is recorded with its source and stamp, and changes nothing else. -/
theorem raiseEvent_of_not_fenced (s : State) (f : Fid) (arg : Word) (h : s.unitFenced f = false) :
    ∃ r : Raise, s.raiseEvent f arg = { s with raises := s.raises ++ [r] } ∧ r.fid = f ∧ r.stamp = s.now := by
  simp only [State.raiseEvent, State.raiseAs, h]
  exact ⟨_, rfl, rfl, rfl⟩

theorem raises_subset_raiseEvent (s : State) (f : Fid) (arg : Word) : s.raises ⊆ (s.raiseEvent f arg).raises := by
  simp only [State.raiseEvent, State.raiseAs]
  split
  · exact List.Subset.refl _
  · exact List.subset_append_left ..

/-- An anchor in FAILED raises no loss of outer lock (R503). -/
theorem unitFenced_outerLost (s : State) (a : Fin 2) : s.unitFenced (outerLost a) = ((s.anc a).state == .failed) := by
  fin_cases a <;> rfl

theorem unitFenced_tdcFenced (s : State) (a : Fin 2) : s.unitFenced (tdcFenced a) = false := by
  fin_cases a <;> rfl

/-! ## The loss of outer lock (R75, R103) -/

theorem ancOuterLoss_raises (s : State) (a : Nat) :
    (s.ancOuterLoss a).raises = if (s.anc a).outer then (s.raiseEvent (outerLost a) 0).raises else s.raises := by
  unfold State.ancOuterLoss
  cases (s.anc a).outer
  · rfl
  · simp only [Bool.not_true, Bool.false_eq_true, if_false, if_true]
    split <;> rfl

/-- In FAILED the loss of outer lock raises nothing. -/
theorem ancOuterLoss_raises_of_failed (s : State) (a : Fin 2) (h : (s.anc a).state = .failed) :
    (s.ancOuterLoss a).raises = s.raises := by
  have hf : s.unitFenced (outerLost a) = true := by simp [unitFenced_outerLost, h]
  simp [ancOuterLoss_raises, State.raiseEvent, State.raiseAs, hf]

/-- Anchor A in FAILED holds outer lock, with its steering at a limit of 0. -/
def failedWithOuterLock : State :=
  { (State.reset.setFld Fields.STORE_START_STAGE 0 6).setReg .ANC_STEERLIM 0 0 with
    anchors := #v[{ Anchor.reset with state := .failed, outer := true }, Anchor.reset] }

/-- Refutes O9: the clause of the outer lock lost asks for a raise of every anchor that holds outer lock, and an anchor in FAILED is
fenced and raises nothing (R503); the clause of the inner lock lost leaves that state out, this one does not. No rule brings an anchor
to FAILED with outer lock held (R95), so the clause fails on a state that no run reaches. -/
theorem not_anchorLocksAndLosses : ¬ Obligations.AnchorLocksAndLosses := by
  unfold Obligations.AnchorLocksAndLosses
  rintro ⟨-, -, -, -, -, -, -, outerLoss, -⟩
  have hup : failedWithOuterLock.up = true := by decide +kernel
  have hlim : failedWithOuterLock.atSteerLimit 0 = true := by decide +kernel
  obtain ⟨t, ht, -, -, ⟨r, hr, -⟩, -⟩ := outerLoss failedWithOuterLock 0 16 0 hup rfl (.inl hlim)
  have hx : exec (.ancOuterLoss ⟨0, 16, 0⟩) failedWithOuterLock = .next (failedWithOuterLock.ancOuterLoss 0) := by
    simp [exec, execAncOuterLoss, State.detector, hup, State.outerLossAdmitted, hlim]
  obtain rfl : failedWithOuterLock.ancOuterLoss 0 = t := Host.Outcome.next.inj (hx.symm.trans ht)
  have hnone : (failedWithOuterLock.ancOuterLoss 0).raises = failedWithOuterLock.raises :=
    ancOuterLoss_raises_of_failed failedWithOuterLock 0 rfl
  exact absurd (hnone.symm.trans hr) (by simp)

/-! ## Alignment and TDC checks (R85, R102, R103, R657) -/

/-- The loss of outer lock takes the lock from the anchor, and nothing else. -/
theorem anc_ancOuterLoss (s : State) (a : Fin 2) : (s.ancOuterLoss a).anc a = { s.anc a with outer := false } := by
  have lost : ∀ u : State, u.anchorage = s.anchorage → (u.modAnc a fun x => { x with outer := false }).anc a =
      { s.anc a with outer := false } := fun u hu => by rw [State.anc_modAnc_self _ _ _ a.isLt, anc_of_anchorage hu]
  unfold State.ancOuterLoss
  split
  · next ho =>
    rw [Bool.not_eq_true'] at ho
    rw [← ho]
  · extract_lets l u
    have hu : u.anc a = { s.anc a with outer := false } :=
      lost _ ((anchorage_settleAlign _).trans (anchorage_raiseEvent ..))
    split
    · exact hu
    · exact hu

@[simp] theorem ancOuterLoss_regs (s : State) (a : Nat) : (s.ancOuterLoss a).regs = s.regs := by
  unfold State.ancOuterLoss
  split
  · rfl
  · extract_lets l u
    have hu : u.regs = s.regs := raiseEvent_regs s (outerLost a) 0
    split <;> exact hu

theorem raises_subset_ancOuterLoss (s : State) (a : Nat) : s.raises ⊆ (s.ancOuterLoss a).raises := by
  rw [ancOuterLoss_raises]
  split
  · exact raises_subset_raiseEvent ..
  · exact List.Subset.refl _

/-- What an anchor holds of its outer TDCs and of outer lock. -/
def Anchor.tdcs (x : Anchor) : Bool × Bool × Bool × Bool × Bool := (x.tdcActive, x.tdcSpare, x.spareIn, x.tdcChecking, x.outer)

theorem tdcs_acquireRef (s : State) (a : Fin 2) : ((s.acquireRef a).anc a).tdcs = (s.anc a).tdcs := by
  rw [State.acquireRef, State.anc_modAnc_self _ _ _ a.isLt]; rfl

/-- With no outer TDC left the anchor has lost outer lock; what it holds of its TDCs stays (R103). -/
theorem tdcs_tdcLost (s : State) (a : Fin 2) : ((s.tdcLost a).anc a).tdcs = Anchor.tdcs { s.anc a with outer := false } := by
  unfold State.tdcLost
  extract_lets u
  have hu : (u.anc a).tdcs = Anchor.tdcs { s.anc a with outer := false } := congrArg Anchor.tdcs (anc_ancOuterLoss s a)
  split
  · exact (tdcs_acquireRef u a).trans hu
  · exact hu

theorem tdcLost_regs (s : State) (a : Nat) : (s.tdcLost a).regs = s.regs := by
  unfold State.tdcLost
  extract_lets u
  split <;> exact ancOuterLoss_regs s a

theorem raises_subset_tdcLost (s : State) (a : Nat) : s.raises ⊆ (s.tdcLost a).raises := by
  unfold State.tdcLost
  extract_lets u
  split <;> exact raises_subset_ancOuterLoss s a

/-- A raise made before is still there after the anchor has lost its TDCs. -/
theorem mem_raises_tdcLost {s : State} {r : Raise} (a : Nat) (h : r ∈ s.raises) : r ∈ (s.tdcLost a).raises :=
  raises_subset_tdcLost s a h

/-- The raise of a fenced TDC is recorded at the present tick (R102). -/
theorem mem_raises_tdcFenced (s : State) (a : Fin 2) :
    ∃ r : Raise, r ∈ (s.raiseEvent (tdcFenced a) 0).raises ∧ r.fid = tdcFenced a ∧ r.stamp = s.now := by
  obtain ⟨r, h, hf, hn⟩ := raiseEvent_of_not_fenced s (tdcFenced a) 0 (unitFenced_tdcFenced s a)
  exact ⟨r, by rw [h]; exact List.mem_append_right _ List.mem_cons_self, hf, hn⟩

/-- The verdict of a check on each outer TDC, as the anchor takes it (R102). -/
def Anchor.judged (x : Anchor) (activeBad spareBad : Bool) : Anchor :=
  { x with tdcChecking := false, tdcActive := x.tdcActive && !activeBad, tdcSpare := x.tdcSpare && !spareBad
           spareIn := x.spareIn || (activeBad && !spareBad && x.tdcSpare) }

/-- After a check the anchor holds its TDCs as judged, no register has changed, and a verdict that tells the TDCs apart has been
raised (R102, R103). -/
theorem tdcCheckDone_facts (s : State) (a : Fin 2) (x y : Bool) :
    (∃ b, ((s.tdcCheckDone a x y).anc a).tdcs = Anchor.tdcs { (s.anc a).judged x y with outer := b }) ∧
      (s.tdcCheckDone a x y).regs = s.regs ∧
      (x ≠ y → ∃ r : Raise, r ∈ (s.tdcCheckDone a x y).raises ∧ r.fid = tdcFenced a ∧ r.stamp = s.now) := by
  unfold State.tdcCheckDone
  extract_lets u v
  have hu : u.anc a = (s.anc a).judged x y := State.anc_modAnc_self _ _ _ a.isLt
  have hva : v.anc a = (s.anc a).judged x y := by
    simp only [v]
    split
    · exact (anc_of_anchorage (anchorage_raiseEvent ..) a).trans hu
    · exact hu
  have hvr : v.regs = s.regs := by
    simp only [v]
    split
    · exact raiseEvent_regs ..
    · rfl
  have raised : x ≠ y → ∃ r : Raise, r ∈ v.raises ∧ r.fid = tdcFenced a ∧ r.stamp = s.now := fun hxy => by
    simp only [v, bne_iff_ne.2 hxy, if_true]
    exact mem_raises_tdcFenced u a
  split
  · exact ⟨⟨_, congrArg Anchor.tdcs hva⟩, hvr, raised⟩
  · refine ⟨⟨false, by rw [tdcs_tdcLost, hva]⟩, (tdcLost_regs v a).trans hvr, fun hxy => ?_⟩
    obtain ⟨r, hr, hf⟩ := raised hxy
    exact ⟨r, mem_raises_tdcLost a hr, hf⟩

/-- The last outer TDC that fails leaves the anchor none, and no outer lock, with a raise of the fence (R657). -/
theorem tdcSingleFail_facts (s : State) (a : Fin 2) :
    ((s.tdcSingleFail a).anc a).tdcs = Anchor.tdcs { s.anc a with tdcActive := false, tdcSpare := false, outer := false } ∧
      ∃ r : Raise, r ∈ (s.tdcSingleFail a).raises ∧ r.fid = tdcFenced a ∧ r.stamp = s.now := by
  unfold State.tdcSingleFail
  extract_lets u
  have hu : (u.raiseEvent (tdcFenced a) 0).anc a = { s.anc a with tdcActive := false, tdcSpare := false } :=
    (anc_of_anchorage (anchorage_raiseEvent ..) a).trans (State.anc_modAnc_self _ _ _ a.isLt)
  obtain ⟨r, hr, hf⟩ := mem_raises_tdcFenced u a
  exact ⟨by rw [tdcs_tdcLost, hu], r, mem_raises_tdcLost a hr, hf⟩

/-- The alignment beyond TRIP freezes the secondary that follows, unless a lock or reference event came at the same tick (R85). -/
theorem alignExceeded_freezes (s : State) (a : Nat) (hf : s.follower = some a) (ho : s.alignOver = none)
    (hover : s.alignTrip < (intOfWord (s.reg .ANC_ALIGN 0)).natAbs) (hev : s.ancEventAt ≠ some s.elapsed) :
    s.alignExceeded = { s with alignOver := some s.elapsed } := by
  simp [State.alignExceeded, hf, ho, hover, hev]

theorem alignExceeded_of_event (s : State) (h : s.ancEventAt = some s.elapsed) : s.alignExceeded = s := by
  unfold State.alignExceeded
  split
  · simp [h]
  · rfl

/-- Settles O11: the alignment by its two guards, the check by `tdcCheckDone_facts`, the last TDC by `tdcSingleFail_facts`. -/
theorem alignmentAndTdcChecks : Obligations.AlignmentAndTdcChecks := by
  refine ⟨?_, ?_, ?_, ?_, ?_, ?_⟩
  · intro s a hup hf ho hover hev
    have hfollows : ({ s with alignOver := some s.elapsed } : State).follower = some a.val := hf
    exact completes_of_detector rfl hup (alignExceeded_freezes s a hf ho hover hev) ⟨rfl, by simp [State.frozen, hfollows]⟩
  · intro s hup hev
    exact completes_of_detector rfl hup (alignExceeded_of_event s hev) rfl
  · intro s k hup ho hk
    obtain ⟨r, hr, hf, hn⟩ := raiseEvent_of_not_fenced { s with alignOver := none } Src.anc_ALIGN_TRIP 0 rfl
    have hs : s.alignTripped = ({ s with alignOver := none } : State).raiseEvent Src.anc_ALIGN_TRIP 0 := by
      simp only [State.alignTripped, ho, if_pos hk]
    exact completes_of_detector rfl hup (hs.trans hr) ⟨rfl, r, rfl, hf, hn⟩
  · intro s a hup ht hA hS hC
    have hs : s.tdcXcheckFail a = s.modAnc a fun x => { x with tdcChecking := true } := if_pos (by simp [ht, hA, hS, hC])
    exact completes_of_detector rfl hup hs ⟨rfl, by simp [State.frozen, State.anc_modAnc_self _ _ _ a.isLt]⟩
  · intro s a x y hup hC
    obtain ⟨⟨b, htdc⟩, hregs, hraise⟩ := tdcCheckDone_facts s a x y
    simp only [Anchor.tdcs, Anchor.judged, Prod.mk.injEq] at htdc
    obtain ⟨hact, hsp, hin, hchk, -⟩ := htdc
    exact completes_of_detector rfl hup (if_pos hC) ⟨hchk, hact, hsp, hraise, hin, hregs⟩
  · intro s a hup hne
    obtain ⟨htdc, hraise⟩ := tdcSingleFail_facts s a
    simp only [Anchor.tdcs, Prod.mk.injEq] at htdc
    obtain ⟨hact, hsp, -, -, hout⟩ := htdc
    exact completes_of_detector rfl hup (if_pos (bne_iff_ne.2 hne)) ⟨hact, hsp, hout, hraise⟩

end Sys2Proof.Machine

namespace Sys2Proof.Machine

/-! ## A host write as a command of the table -/

/-- A command that writes a register is complete with what the register's own rule leaves, when that rule accepts the write; the
port's own marks, the digest and the store come beside it. -/
theorem completes_of_accepted {c : Instr} {s u : State} {r : RegName} {i : Nat} {w : Word} {P : State → Prop}
    (hx : exec c s = .next (s.portWrite (regAddr r i) w)) (h : s.serves = true) (hc : commandRegs.contains r = true)
    (hi : i < (regSpec r).count) (hk : (regSpec r).wk = false) (hw : s.writeReg r i w = (.ok, u))
    (hP : ∀ fl st, P { u with fleet := fl, store := st, hwRel := s.now, hspi := { u.hspi with lastw := 0 } }) : completes c s P := by
  obtain ⟨fl, st, ht⟩ := portWrite_ok s u r i w h (placed_of_command r i hc hi) (by simp [hk]) hw
  exact ⟨_, hx, ht ▸ hP fl st⟩

@[simp] theorem anchorage_hspiError (s : State) (a code : Nat) : (s.hspiError a code).anchorage = s.anchorage := by
  unfold State.hspiError; split <;> simp

/-- A command that writes a register whose rule refuses it with a status, and changes nothing, shows that status at the port, and
leaves anchors and cores and every register but HSPI_STAT as they were (R610, R614). -/
theorem completes_of_refused {c : Instr} {s : State} {r : RegName} {i : Nat} {w : Word} {st : WStatus} {P : State → Prop}
    (hx : exec c s = .next (s.portWrite (regAddr r i) w)) (h : s.serves = true) (hc : commandRegs.contains r = true)
    (hi : i < (regSpec r).count) (hk : (regSpec r).wk = false) (hw : s.writeReg r i w = (st, s)) (h1 : st ≠ .ok) (h2 : st ≠ .keyerr)
    (hP : ∀ t : State, t.refusedWith st → t.anchorage = s.anchorage →
      (∀ r' j, r' ≠ .HSPI_STAT → t.reg r' j = s.reg r' j) → P t) : completes c s P := by
  have ht := portWrite_refused s s r i w st h (placed_of_command r i hc hi) (by simp [hk]) hw h1 h2
  refine ⟨_, hx, ht ▸ hP _ ⟨by simp [State.modHspi], hspiError_flag ..⟩ (anchorage_hspiError ..) fun r' j hr => ?_⟩
  exact hspiError_reg _ _ _ _ _ hr

/-! ## The exchange of roles (R89, R99, R191) -/

theorem otherAnc_lt (p : Fin 2) : otherAnc p < 2 := by unfold otherAnc; omega

theorem otherAnc_ne (p : Fin 2) : otherAnc p ≠ p.val := by unfold otherAnc; omega

/-- An update of an anchor takes equal anchors, cores and outputs to equal ones. -/
theorem anchorage_modAnc_congr {s t : State} (h : t.anchorage = s.anchorage) (n : Nat) (f : Anchor → Anchor) :
    (t.modAnc n f).anchorage = (s.modAnc n f).anchorage :=
  congrArg (fun x : Anchorage => { x with anchors := x.anchors.setIfInBounds n (f (x.anchors[n]?.getD default)) }) h

@[simp] theorem anchorage_noteSource (s : State) (old : Option Nat) : (s.noteSource old).anchorage = s.anchorage := by
  unfold State.noteSource; split <;> rfl

/-- An anchor that takes over carries the count on from its copy; the other anchor and the cores are left alone (R89). -/
theorem anchorage_becomePrimary (s : State) (a : Nat) (steered : Bool) : ∃ d slew, (s.becomePrimary a steered).anchorage =
    (State.modAnc { s with primary := some a, count := (s.anc a).copy } a fun x =>
      { x with state := if steered then .steered else .innerLocked, outer := steered, secondary := false, aim := d
               slewing := slew }).anchorage := by
  unfold State.becomePrimary
  extract_lets s1 slew d s2
  have h1 : s1.anchorage = { s.anchorage with primary := some a, count := (s.anc a).copy } := anchorage_noteSource ..
  have h2 : s2.anchorage = { s.anchorage with primary := some a, count := (s.anc a).copy } := by
    simp only [s2, apply_ite State.anchorage, anchorage_setReg, ite_self, h1]
  exact ⟨d, slew, anchorage_modAnc_congr (s := { s with primary := some a, count := (s.anc a).copy })
    (t := s2.setFld Fields.ANC_STATUS_PRIMARY 0 a) h2 a _⟩

/-- A core but for its anchor term (R191). -/
def Core.butAncTerm (x : Core) : Core := { x with ancTerm := 0 }

theorem core_ancTerms (s : State) (cs : List Nat) (c : Fin 26) :
    ((s.ancTerms cs).core c).butAncTerm = (s.core c).butAncTerm := by
  refine State.each_keeps (fun u : State => (u.core c).butAncTerm) _ (fun u n => ?_) s cs
  by_cases e : n = c
  · subst e; rw [State.core_modCore_self _ _ _ c.isLt]; rfl
  · rw [State.core_modCore_other _ _ _ _ e]

/-- Beside the cores, setting the anchor terms changes nothing. -/
theorem ancTerms_form (s : State) (cs : List Nat) : ∃ ks, s.ancTerms cs = { s with cores := ks } := by
  unfold State.ancTerms
  induction cs generalizing s with
  | nil => exact ⟨s.cores, rfl⟩
  | cons c cs ih =>
    obtain ⟨ks, h⟩ := ih (s.modCore c fun k => { k with ancTerm := s.ancTermOf c })
    exact ⟨ks, h⟩

theorem ancTerms_anc (s : State) (cs : List Nat) (a : Nat) : (s.ancTerms cs).anc a = s.anc a := by
  obtain ⟨ks, h⟩ := ancTerms_form s cs
  rw [h]; rfl

/-- The roles of primary `p` and the other anchor have been exchanged: the count goes on from the new primary's copy, and of a core
only the anchor term has changed (R89, R99, R191). -/
structure State.Exchanges (s t : State) (p : Fin 2) : Prop where
  primary : t.primary = some (otherAnc p)
  count : t.count = (s.anc (otherAnc p)).copy
  steered : (t.anc (otherAnc p)).state = .steered
  following : (t.anc p).state = .following
  secondary : (t.anc p).secondary = true
  cores : ∀ c : Fin 26, (t.core c).butAncTerm = (s.core c).butAncTerm

theorem swapRoles_exchanges (s : State) (p : Fin 2) (h : s.primary = some p.val) : s.Exchanges s.swapRoles p := by
  unfold State.swapRoles
  simp only [h]
  obtain ⟨d, slew, hb⟩ := anchorage_becomePrimary s (otherAnc p) true
  generalize s.becomePrimary (otherAnc p) true = v at *
  generalize hw : v.modAnc p (fun x => { x with state := .following, secondary := true, aim := 0, slewing := false }) = w
  have hu := anchorage_updateCond w
  have hother : (w.anc (otherAnc p)).state = .steered := by
    rw [← hw, State.anc_modAnc_other _ _ _ _ (otherAnc_ne p).symm, anc_of_anchorage hb, State.anc_modAnc_self _ _ _ (otherAnc_lt p)]
    rfl
  have hself : (w.anc p).state = .following ∧ (w.anc p).secondary = true := by
    rw [← hw, State.anc_modAnc_self _ _ _ p.isLt]
    exact ⟨rfl, rfl⟩
  have hprimary : w.primary = some (otherAnc p) := hw ▸ congrArg Anchorage.primary hb
  have hcount : w.count = (s.anc (otherAnc p)).copy := hw ▸ congrArg Anchorage.count hb
  obtain ⟨ks, hk⟩ := ancTerms_form w.updateCond (List.range 26)
  refine ⟨?_, ?_, ?_, ?_, ?_, fun c => ?_⟩
  · rw [hk]; exact (congrArg Anchorage.primary hu).trans hprimary
  · rw [hk]; exact (congrArg Anchorage.count hu).trans hcount
  · rw [ancTerms_anc, anc_of_anchorage hu, hother]
  · rw [ancTerms_anc, anc_of_anchorage hu, hself.1]
  · rw [ancTerms_anc, anc_of_anchorage hu, hself.2]
  · rw [core_ancTerms, core_of_anchorage hu, ← hw]
    exact congrArg Core.butAncTerm (core_of_anchorage hb c)

/-! ## What the registers of the anchors make of a write -/

theorem writeAncCmd_swap (s : State) (p : Nat) (ht : s.transfer = none) (hp : s.primary = some p) :
    s.writeAncCmd (cmdBit 0) = (.ok, if s.ancReady (otherAnc p) then s.swapRoles else s.stick Fields.ANC_STAT_CMDERR p) := by
  have h0 : bitOf (cmdBit 0) 0 = true := by decide
  have h1 : bitOf (cmdBit 0) 1 = false := by decide
  have h2 : bitOf (cmdBit 0) 2 = false := by decide
  simp [State.writeAncCmd, ht, hp, h0, h1, h2]

theorem writeAncCmd_rejoin (s : State) (a : Fin 2) (ht : s.transfer = none) :
    s.writeAncCmd (cmdBit (1 + a)) = (.ok, s.rejoin a) := by
  have h0 : bitOf (cmdBit (1 + a)) 0 = false := by revert a; decide
  have h1 : bitOf (cmdBit (1 + a)) 1 = decide (a = 0) := by revert a; decide
  have h2 : bitOf (cmdBit (1 + a)) 2 = decide (a = 1) := by revert a; decide
  simp only [State.writeAncCmd, ht, h0, h1, h2]
  fin_cases a <;> rfl

/-- EN is bit 0 of ANC_CFG. -/
theorem flag_ancEn (s : State) (a : Nat) : s.flag Fields.ANC_CFG_EN a = bitOf (s.reg .ANC_CFG a) 0 := by
  simp [State.flag, State.fld, Fields.ANC_CFG_EN, getBits, bitOf, BitVec.getLsbD, beq_eq_decide]

/-- A write of ANC_CFG stores its bit 0. -/
theorem bitOf_merge_ancCfg (fresh old w : Word) : bitOf ((regSpec .ANC_CFG).merge fresh old w) 0 = bitOf w 0 := by
  simp [RegSpec.merge, regSpec, bitOf]

theorem refsel_setBit_zero (s : State) (a : Nat) (b : Bool) :
    getBits (setBit (s.reg .ANC_CFG a) 0 b) 1 3 = s.fld Fields.ANC_CFG_REFSEL a :=
  getBits_putBits_other _ _ _ _ _ _ (by decide) (by decide)

theorem writeAncCfg_enable (s : State) (a : Nat) (ht : s.transfer = none) (hen : s.flag Fields.ANC_CFG_EN a = false)
    (hok : s.innerOk a = true) : s.writeAncCfg a (setBit (s.reg .ANC_CFG a) 0 true) =
      (.ok, (s.plainWrite .ANC_CFG a (setBit (s.reg .ANC_CFG a) 0 true)).ancPowerUp a) := by
  simp [State.writeAncCfg, ht, refsel_setBit_zero, bitOf_setBit_self, hen, hok]

theorem writeAncCfg_disable (s : State) (a : Nat) (ht : s.transfer = none) (hen : s.flag Fields.ANC_CFG_EN a = true) :
    s.writeAncCfg a (setBit (s.reg .ANC_CFG a) 0 false) =
      (.ok, (s.plainWrite .ANC_CFG a (setBit (s.reg .ANC_CFG a) 0 false)).ancPowerDown a) := by
  simp [State.writeAncCfg, ht, refsel_setBit_zero, bitOf_setBit_self, hen]

/-- What EN = 0 leaves of an anchor (R101). -/
def Anchor.disabled (x : Anchor) : Anchor :=
  { x with state := .off, inner := false, outer := false, hasTick := false, tdcChecking := false, aim := 0, slewing := false }

/-- A powered-down anchor is OFF, without inner lock or tick, wherever its role and cores went (R101). -/
theorem ancPowerDown_disabled (s : State) (a : Fin 2) : ∃ x : Anchor, (s.ancPowerDown a).anc a = x.disabled := by
  unfold State.ancPowerDown
  extract_lets x off
  have disables : ∀ u : State, ∃ x : Anchor, (off u).anc a = x.disabled := fun u =>
    ⟨u.anc a, (anc_of_anchorage (anchorage_updateCond _) a).trans (State.anc_modAnc_self u a Anchor.disabled a.isLt)⟩
  repeat' split
  all_goals exact disables _

theorem ancPowerUp_of_off (s : State) (a : Fin 2) (h : (s.anc a).state = .off) :
    ((s.ancPowerUp a).anc a).state = .innerAcq ∧ (s.ancPowerUp a).regs = s.regs := by
  rw [show s.ancPowerUp a = _ from if_pos (beq_iff_eq.2 h), State.anc_modAnc_self _ _ _ a.isLt]
  exact ⟨rfl, rfl⟩

/-- A write of ANC_CFG leaves EN as its bit 0 says (R101). -/
theorem flag_ancEn_plainWrite (s : State) (a : Nat) (w : Word) :
    (s.plainWrite .ANC_CFG a w).flag Fields.ANC_CFG_EN a = bitOf w 0 := by
  rw [flag_ancEn, State.plainWrite, State.reg_setReg_self, bitOf_merge_ancCfg]

/-- The cores whose anchor a write of ANC_COREMAP changes. -/
def State.remapped (s : State) (w : Word) : List Nat :=
  (List.range 26).filter fun c => bitOf w c != bitOf (s.reg .ANC_COREMAP 0) c

/-- With both anchors driving, a write of ANC_COREMAP that moves no owned core moves the anchor terms alone (R98, R191). -/
theorem writeCoreMap_free (s : State) (w : Word) (ht : s.transfer = none) (ho : ∀ c : Fin 26, s.coreOwned c = false)
    (h0 : (s.anc 0).state.drives = true) (h1 : (s.anc 1).state.drives = true) :
    s.writeCoreMap w = (.ok, (s.setReg .ANC_COREMAP 0 (w &&& 0x3FFFFFF#32)).ancTerms (s.remapped w)) := by
  have hfree : ((s.remapped w).any fun c => s.coreOwned c) = false :=
    List.any_eq_false.2 fun c hc => by
      simp [ho ⟨c, List.mem_range.1 (List.mem_filter.1 hc).1⟩]
  rw [State.remapped] at *
  simp [State.writeCoreMap, ht, hfree, h0, h1]

theorem writeCoreMap_owned (s : State) (w : Word) (c : Fin 26) (ht : s.transfer = none) (ho : s.coreOwned c = true)
    (hc : bitOf w c ≠ bitOf (s.reg .ANC_COREMAP 0) c) : s.writeCoreMap w = (.owned, s) := by
  have howned : ((s.remapped w).any fun c => s.coreOwned c) = true :=
    List.any_eq_true.2 ⟨c, List.mem_filter.2 ⟨List.mem_range.2 c.isLt, bne_iff_ne.2 hc⟩, ho⟩
  rw [State.remapped] at howned
  simp [State.writeCoreMap, ht, howned]

/-- Settles O10: the exchanges by `swapRoles_exchanges`, the commands by what their register's rule makes of the write. -/
theorem anchorRolesAndEnables : Obligations.AnchorRolesAndEnables := by
  refine ⟨?_, ?_, ?_, ?_, ?_, ?_, ?_, ?_, ?_, ?_⟩
  · intro s p hup hp hd hi hn hr
    have hx : s.primaryInitExchange = { s.swapRoles with initDone := true } := by
      simp [State.primaryInitExchange, hp, hd, hi, hn, hr]
    have e := swapRoles_exchanges s p hp
    exact completes_of_detector rfl hup hx ⟨e.primary, rfl, e.count, e.steered, e.following, e.cores⟩
  · intro s p hs ht hp hr
    have e := swapRoles_exchanges s p hp
    have hw : s.writeReg .ANC_CMD 0 (cmdBit 0) = (.ok, s.swapRoles) := (writeAncCmd_swap s p ht hp).trans (by rw [if_pos hr])
    exact completes_of_accepted rfl hs (by decide) (by decide) rfl hw fun fl st =>
      ⟨e.primary, e.steered, e.count, e.following, e.secondary, e.cores, rfl, rfl⟩
  · intro s p hs ht hp hr
    have hw : s.writeReg .ANC_CMD 0 (cmdBit 0) = (.ok, s.stick Fields.ANC_STAT_CMDERR p) :=
      (writeAncCmd_swap s p ht hp).trans (by rw [if_neg (by simp [hr])])
    exact completes_of_accepted rfl hs (by decide) (by decide) rfl hw fun fl st =>
      ⟨State.flag_stick_self s Fields.ANC_STAT_CMDERR p (by decide) rfl, rfl, rfl⟩
  · intro s hs ht
    have hw : s.writeReg .ANC_CMD 0 (cmdBit 0) = (.busy, s) := if_pos ht
    exact completes_of_refused rfl hs (by decide) (by decide) rfl hw (by decide) (by decide) fun t hr ha _ =>
      ⟨hr, congrArg Anchorage.anchors ha, congrArg Anchorage.primary ha⟩
  · intro s a hs ht hf
    have hj : (s.rejoin a).anc a = { s.anc a with state := .innerAcq, secondary := true } := by
      simp only [State.rejoin, hf, beq_self_eq_true, if_true, State.anc_modAnc_self _ _ _ a.isLt]
    exact completes_of_accepted rfl hs (by decide) (by decide) rfl (writeAncCmd_rejoin s a ht) fun fl st =>
      ⟨congrArg Anchor.state hj, congrArg Anchor.secondary hj, rfl, rfl⟩
  · intro s a hup hd
    have hf : ((s.anc a).state == .failed) = true := by
      simp only [State.autoRejoinDue, Bool.and_eq_true] at hd
      obtain ⟨⟨⟨⟨-, hf⟩, -⟩, -⟩, -⟩ := hd
      exact hf
    exact completes_of_detector rfl hup ((if_pos hd).trans (if_pos hf)) rfl
  · intro s a hs ht hen hoff hok
    obtain ⟨hst, hrg⟩ := ancPowerUp_of_off (s.plainWrite .ANC_CFG a (setBit (s.reg .ANC_CFG a) 0 true)) a hoff
    have hflag := flag_ancEn_plainWrite s a (setBit (s.reg .ANC_CFG a) 0 true)
    rw [bitOf_setBit_self _ _ _ (by decide)] at hflag
    exact completes_of_accepted rfl hs (by decide) a.isLt rfl (writeAncCfg_enable s a ht hen hok) fun fl st =>
      ⟨hst, (flag_of_reg (congrArg (·.get .ANC_CFG a) hrg)).trans hflag, rfl, rfl⟩
  · intro s a hs ht hen
    obtain ⟨x, hx⟩ := ancPowerDown_disabled (s.plainWrite .ANC_CFG a (setBit (s.reg .ANC_CFG a) 0 false)) a
    exact completes_of_accepted rfl hs (by decide) a.isLt rfl (writeAncCfg_disable s a ht hen) fun fl st =>
      ⟨congrArg Anchor.state hx, congrArg Anchor.inner hx, congrArg Anchor.hasTick hx, rfl, rfl⟩
  · intro s w hs ht ho h0 h1
    obtain ⟨ks, hk⟩ := ancTerms_form (s.setReg .ANC_COREMAP 0 (w &&& 0x3FFFFFF#32)) (s.remapped w)
    have hcores := core_ancTerms (s.setReg .ANC_COREMAP 0 (w &&& 0x3FFFFFF#32)) (s.remapped w)
    have hreg := State.reg_setReg_self s .ANC_COREMAP 0 (w &&& 0x3FFFFFF#32)
    have hw := writeCoreMap_free s w ht ho h0 h1
    rw [hk] at hcores hw
    exact completes_of_accepted rfl hs (by decide) (by decide) rfl hw fun fl st => ⟨hreg, hcores, rfl, rfl, rfl⟩
  · intro s w c hs ht ho hc
    exact completes_of_refused rfl hs (by decide) (by decide) rfl (writeCoreMap_owned s w c ht ho hc) (by decide) (by decide)
      fun t hr _ hreg => ⟨hr, hreg _ _ (by decide)⟩

end Sys2Proof.Machine

namespace Sys2Proof.Machine

/-! ## Steps for each number of a list -/

/-- A step that decides a reading of one unit by whether it names the unit, done for each number of a list, decides it by whether the
list does. -/
theorem State.each_decides {α : Type} (p : State → α) (o : Nat) (b : α) (f : State → Nat → State)
    (hf : ∀ s n, p (f s n) = if o = n then b else p s) (s : State) (l : List Nat) :
    p (s.each l f) = if o ∈ l then b else p s := by
  induction l generalizing s with
  | nil => rfl
  | cons n l ih =>
    simp only [State.each, ih, hf, List.mem_cons]
    by_cases h : o ∈ l
    · simp [h]
    · simp [h]

/-- What a step for each slot of each station leaves alone, the whole leaves alone. -/
theorem State.slots_keep {α : Type} (s : State) (p : State → α) (f : State → Nat → Nat → State)
    (h : ∀ u n j, p (f u n j) = p u) :
    p (s.each (List.range 8) fun u n => u.each (List.range 3) fun u j => f u n j) = p s :=
  State.each_keeps p _ (fun u n => State.each_keeps p _ (fun v j => h v n j) u _) s _

/-! ## Cores through an acquisition (spec/03) -/

/-- What a core holds by its last command or takeover: role, station, setting, hint and offset. An acquisition moves none of it. -/
structure CoreHold where
  role : CoreRole
  station : Nat
  applied : Setting
  appliedSub : Nat
  appliedBand : Nat
  theta : Rat
  cfgErr : Bool

def Core.hold (x : Core) : CoreHold := ⟨x.role, x.station, x.applied, x.appliedSub, x.appliedBand, x.theta, x.cfgErr⟩

/-- A core that is not LOCKED gates its outputs (R129). -/
theorem gates_of_unlocked {x : Core} (h : x.state ≠ .locked) : x.gates = true := by simp [Core.gates, h]

section
variable (s : State) (c : Fin 26)

/-- An update of one core that leaves what each core holds leaves it for all. -/
theorem hold_modCore (k : Nat) (f : Core → Core) (hf : ∀ x, (f x).hold = x.hold) :
    ((s.modCore k f).core c).hold = (s.core c).hold :=
  core_modCore_keeps (fun x => x.hold = (s.core c).hold) s c k f (fun x h => (hf x).trans h) rfl

theorem startAcq_form (k : Nat) (cold : Bool) (m : BandMode) (t : Nat) : ∃ ks, s.startAcq k cold m t = { s with cores := ks } := by
  unfold State.startAcq
  extract_lets x on power s1
  split
  · exact ⟨s1.cores, rfl⟩
  · exact ⟨(s1.closeLoop k _).cores, rfl⟩

/-- An acquisition leaves its core in SELECT, or in ACQUIRE with the loop closed. -/
theorem startAcq_acquires (cold : Bool) (m : BandMode) (t : Nat) :
    ((s.startAcq c cold m t).core c).state = .select ∨ ((s.startAcq c cold m t).core c).state = .acquire := by
  unfold State.startAcq
  extract_lets x on power s1
  split
  · exact .inl (by rw [State.core_modCore_self _ _ _ c.isLt])
  · exact .inr (by rw [State.closeLoop, State.core_modCore_self _ _ _ c.isLt])

theorem hold_startAcq (k : Nat) (cold : Bool) (m : BandMode) (t : Nat) : ((s.startAcq k cold m t).core c).hold = (s.core c).hold := by
  unfold State.startAcq
  extract_lets x on power s1
  have h1 : (s1.core c).hold = (s.core c).hold := hold_modCore s c k _ fun _ => rfl
  split
  · exact h1
  · exact (hold_modCore s1 c k _ fun x => by rfl).trans h1

/-- A cold acquisition that measures waits for its band selection (R121). -/
theorem startAcq_cold (m : BandMode) (t : Nat) (hm : m ≠ .forced) :
    ((s.startAcq c true m t).core c).state = .select ∧ ((s.startAcq c true m t).core c).acqMode = m := by
  simp [State.startAcq, hm, State.core_modCore_self _ _ _ c.isLt]

/-- A warm acquisition closes the loop at once on the sub-core and band it had (R125). -/
theorem startAcq_warm (m : BandMode) (t : Nat) :
    ((s.startAcq c false m t).core c).state = .acquire ∧ ((s.startAcq c false m t).core c).bandChosen = true ∧
      ((s.startAcq c false m t).core c).band = (s.core c).band ∧ ((s.startAcq c false m t).core c).sub = (s.core c).sub := by
  simp [State.startAcq, State.closeLoop, State.core_modCore_self _ _ _ c.isLt]

@[simp] theorem startAcq_regs (k : Nat) (cold : Bool) (m : BandMode) (t : Nat) : (s.startAcq k cold m t).regs = s.regs := by
  obtain ⟨ks, h⟩ := startAcq_form s k cold m t
  rw [h]

@[simp] theorem startAcq_raises (k : Nat) (cold : Bool) (m : BandMode) (t : Nat) : (s.startAcq k cold m t).raises = s.raises := by
  obtain ⟨ks, h⟩ := startAcq_form s k cold m t
  rw [h]

/-! ### Races (R134) -/

/-- The end of a race returns the spare that runs it to IDLE. -/
theorem endRace_of_racer (k : Nat) (h : s.racer c = some k) :
    s.endRace c = s.modCore k fun x =>
      { x with state := .idle, racingFor := none, fastUntil := none, countFrom := none, lockAt := none } := by
  rw [State.racer] at h
  simp only [State.endRace, h]

@[simp] theorem endRace_regs (k : Nat) : (s.endRace k).regs = s.regs := by
  unfold State.endRace; split <;> rfl

theorem hold_endRace (k : Nat) : ((s.endRace k).core c).hold = (s.core c).hold := by
  unfold State.endRace
  split <;> exact hold_modCore s c _ _ fun _ => rfl

/-- The end of a race for a core that does not race itself only marks that no race is due for it. -/
theorem core_endRace (h : (s.core c).racingFor = none) : ∃ b, (s.endRace c).core c = { s.core c with raceDue := b } := by
  unfold State.endRace
  split
  · next k hk =>
    have hne : k ≠ c := fun e => by
      have hr := List.find?_some hk
      simp [e, h] at hr
    exact ⟨(s.core c).raceDue, State.core_modCore_other _ _ _ _ hne⟩
  · exact ⟨false, State.core_modCore_self _ _ _ c.isLt⟩

end

/-! ## What an event, a lapse or a level source leaves alone -/

/-- The source and stamp of every raise that waits. -/
def State.raised (s : State) : List (Fid × Nat) := s.raises.map fun r => (r.fid, r.stamp)

theorem exists_raise_of_raised {s : State} {f : Fid} {k : Nat} (h : (f, k) ∈ s.raised) :
    ∃ r ∈ s.raises, r.fid = f ∧ r.stamp = k := by
  obtain ⟨r, hr, he⟩ := List.mem_map.1 h
  exact ⟨r, hr, congrArg Prod.fst he, congrArg Prod.snd he⟩

/-- Only raises, lapses, windows, events of stations and their drop counts have moved, and no raise has gone: the cores, what the next
tick releases and the other registers are as before. -/
structure State.Posted (s t : State) : Prop where
  cores : t.cores = s.cores
  later : t.later = s.later
  reg : ∀ r i, r ≠ .SEQ_EVDROP → t.reg r i = s.reg r i
  raised : s.raised ⊆ t.raised

/-- Registers, cores, raises and what the next tick releases are all as before. -/
theorem State.Posted.of_same {s t : State} (hc : t.cores = s.cores) (hl : t.later = s.later) (hg : t.regs = s.regs)
    (hr : t.raises = s.raises) : s.Posted t :=
  ⟨hc, hl, fun r i _ => congrArg (·.get r i) hg, by simp [State.raised, hr]⟩

theorem State.Posted.refl (s : State) : s.Posted s := .of_same rfl rfl rfl rfl

theorem State.Posted.core {s t : State} (h : s.Posted t) (n : Nat) : t.core n = s.core n :=
  congrArg (·[n]?.getD default) h.cores

theorem State.Posted.trans {s t u : State} (h : s.Posted t) (k : t.Posted u) : s.Posted u :=
  ⟨k.cores.trans h.cores, k.later.trans h.later, fun r i hr => (k.reg r i hr).trans (h.reg r i hr),
    List.Subset.trans h.raised k.raised⟩

section
variable (s : State)

theorem posted_setStn (n : Nat) (x : Station) : s.Posted (s.setStn n x) := .of_same rfl rfl rfl rfl

theorem posted_bumpEvDrop (n : Nat) : s.Posted (s.bumpEvDrop n) := by
  refine ⟨rfl, rfl, fun r i hr => reg_bump_ne _ _ _ _ _ _ ?_, List.Subset.refl _⟩
  split <;> exact hr

theorem posted_raiseAs (f : Fid) (k : Nat) (a : Word) (x y : Bool) : s.Posted (s.raiseAs f k a x y) := by
  unfold State.raiseAs
  split
  · exact .refl s
  · exact ⟨rfl, rfl, fun _ _ _ => rfl, List.map_subset _ (List.subset_append_left ..)⟩

/-- Attaching a lapse to a raise leaves the sources and stamps of the raises. -/
theorem map_attachLapse (f : Fid) (k : Nat) (x : Word × LapseEnd) (l rs : List Raise) (h : attachLapse f k x l = some rs) :
    rs.map (fun r => (r.fid, r.stamp)) = l.map fun r => (r.fid, r.stamp) := by
  induction l generalizing rs with
  | nil => cases h
  | cons r l ih =>
    unfold attachLapse at h
    split at h
    · next rs' hl =>
      obtain rfl := Option.some.inj h
      rw [List.map_cons, List.map_cons, ih rs' hl]
    · split at h
      · obtain rfl := Option.some.inj h; rfl
      · cases h

theorem posted_lapseWith (f : Fid) (w : Word) (e : LapseEnd) : s.Posted (s.lapseWith f w e) := by
  unfold State.lapseWith
  extract_lets p
  split
  · exact .refl s
  · split
    · next rs h => exact ⟨rfl, rfl, fun _ _ _ => rfl, fun _ hx => by rwa [State.raised, map_attachLapse _ _ _ _ _ h]⟩
    · unfold State.beginLapse
      split
      · exact .refl s
      · exact ⟨rfl, rfl, fun _ _ _ => rfl, List.Subset.refl _⟩

theorem posted_postEvent (n : Nat) (e : Event) : s.Posted (s.postEvent n e) := by
  unfold State.postEvent
  extract_lets t
  split
  · exact .refl s
  · split
    · exact (posted_setStn ..).trans (posted_bumpEvDrop ..)
    · split
      · split
        · exact (posted_bumpEvDrop s n).trans ((posted_raiseAs ..).trans (posted_lapseWith ..))
        · exact posted_bumpEvDrop s n
      · exact posted_setStn ..

theorem posted_postCoreEvent (c base : Nat) : s.Posted (s.postCoreEvent c base) := by
  unfold State.postCoreEvent
  split
  case h_3 => exact .refl s
  all_goals
    extract_lets n
    split
    · exact posted_postEvent ..
    · exact .refl s

theorem posted_setLevel (f : Fid) (a : Word) (b : Bool) : s.Posted (s.setLevel f a b) := by
  unfold State.setLevel
  split
  · unfold State.beginLevel
    split
    · exact .refl s
    · extract_lets s1
      have h1 : s.Posted s1 := .of_same rfl rfl rfl rfl
      split
      · exact h1
      · exact h1.trans (posted_raiseAs ..)
  · exact .of_same rfl rfl rfl rfl

end

/-- A core whose role is not FENCED raises its sources (R503). -/
theorem raiseEvent_core (s : State) (c : Fin 26) (f : Fid) (arg : Word) (hc : f.code = 3) (hi : f.inst = c)
    (h : (s.core c).role ≠ .fenced) :
    ∃ r : Raise, s.raiseEvent f arg = { s with raises := s.raises ++ [r] } ∧ r.fid = f ∧ r.stamp = s.now :=
  raiseEvent_of_not_fenced s f arg (by simp [State.unitFenced, hc, hi, h])

end Sys2Proof.Machine

namespace Sys2Proof.Machine

/-! ## What CORE_CMD makes of a write (R142 to R145, R489) -/

section
variable (s : State) (c : Fin 26)

theorem writeCoreCmd_owned (w : Word) (h : s.settingOwned c = true) : s.writeCoreCmd c w = (.owned, s) := if_pos h

theorem writeCoreCmd_inactive (ho : s.settingOwned c = false) (ha : s.active = false) :
    s.writeCoreCmd c (cmdBit 0) = (.state, s) := by
  have hw : (cmdBit 0 &&& 7#32 != 0) = true := by decide
  simp only [State.writeCoreCmd, ho, ha, hw]
  rfl

theorem writeCoreCmd_free (w : Word) (ho : s.settingOwned c = false) (ha : s.active = true) :
    s.writeCoreCmd c w = s.coreCmd c w := by
  simp [State.writeCoreCmd, ho, ha]

theorem coreCmd_apply : s.coreCmd c (cmdBit 0) = s.coreApply c := by
  have h0 : bitOf (cmdBit 0) 0 = true := by decide
  have h1 : bitOf (cmdBit 0) 1 = false := by decide
  have h2 : bitOf (cmdBit 0) 2 = false := by decide
  simp [State.coreCmd, h0, h1, h2]

theorem coreCmd_relock : s.coreCmd c (cmdBit 1) = (.ok, s.coreRelock c) := by
  have h0 : bitOf (cmdBit 1) 0 = false := by decide
  have h1 : bitOf (cmdBit 1) 1 = true := by decide
  have h2 : bitOf (cmdBit 1) 2 = false := by decide
  simp [State.coreCmd, h0, h1, h2]

theorem coreCmd_search : s.coreCmd c (cmdBit 2) = (.ok, s.coreSearch c) := by
  have h0 : bitOf (cmdBit 2) 0 = false := by decide
  have h1 : bitOf (cmdBit 2) 1 = false := by decide
  have h2 : bitOf (cmdBit 2) 2 = true := by decide
  simp [State.coreCmd, h0, h1, h2]

/-! ### APPLY -/

/-- A boundary for the trim values of a core is noted beside all else that the core holds. -/
theorem core_hostBoundary : ∃ b, (s.hostBoundary c).core c = { s.core c with boundary := b } := by
  unfold State.hostBoundary
  split
  · exact ⟨_, State.core_modCore_self _ _ _ c.isLt⟩
  · exact ⟨_, rfl⟩

@[simp] theorem recomputePsiOf_cores (k : Nat) : (s.recomputePsiOf k).cores = s.cores :=
  State.each_keeps State.cores _ (fun u o => by unfold State.recomputePsi; split <;> rfl) s _

/-- A core that takes a setting of another frequency holds it with its hint and offset, and acquires (R125, R142). -/
theorem loadCore_facts (x : Setting) (sub band : Nat) (theta : Rat) (m : BandMode) (hr : (s.core c).role ≠ .fenced) :
    ((s.loadCore c x sub band theta m).core c).hold =
        { (s.core c).hold with applied := x, appliedSub := sub, appliedBand := band, theta := theta } ∧
      (((s.loadCore c x sub band theta m).core c).state = .select ∨
        ((s.loadCore c x sub band theta m).core c).state = .acquire) := by
  unfold State.loadCore
  extract_lets warm s1 s2
  rw [if_neg (by simp [hr])]
  refine ⟨(hold_startAcq s2 c c _ _ _).trans ?_, startAcq_acquires s2 c _ _ _⟩
  exact (congrArg Core.hold (State.core_modCore_self s1 c _ c.isLt)).trans
    (congrArg (fun h : CoreHold => { h with applied := x, appliedSub := sub, appliedBand := band, theta := theta })
      (hold_endRace s c c))

/-- APPLY of a valid setting of another frequency on an enabled core (R110, R142, R161). -/
theorem coreApply_acquires (hr : (s.core c).role ≠ .fenced) (hv : (s.staged c).valid = true)
    (hen : s.flag Fields.CORE_CFG_EN c = true) (hf : (s.staged c).sameFreq (s.core c).applied = false) :
    ∃ u, s.coreApply c = (.ok, u) ∧ ((u.core c).state = .select ∨ (u.core c).state = .acquire) ∧
      (u.core c).hold = { (s.core c).hold with
        applied := s.staged c, appliedSub := s.fld Fields.CORE_NBAND_SUB c, appliedBand := s.fld Fields.CORE_NBAND_BAND c
        theta := 0, cfgErr := false } := by
  unfold State.coreApply
  extract_lets x sub band mode s1 k eff s2
  have hk : s1.core c = { s.core c with cfgErr := false } := State.core_modCore_self _ _ _ c.isLt
  have hsame : x.sameFreq k.applied = false := by rw [show k = _ from hk]; exact hf
  have hen1 : s1.flag Fields.CORE_CFG_EN c = true := hen
  rw [if_neg (by simp [hr]), if_neg (by simp [x, hv]), if_neg (by simp [hsame]), if_neg (by simp [hen1])]
  refine ⟨_, rfl, ?_⟩
  obtain ⟨hhold, hstate⟩ := loadCore_facts s1 c x sub band 0 eff (by rw [hk]; exact hr)
  obtain ⟨b, hb⟩ := core_hostBoundary (s1.loadCore c x sub band 0 eff) c
  have h2 : s2.core c = { (s1.loadCore c x sub band 0 eff).core c with boundary := b } := hb
  have hend : ((s2.modCore c fun k => { k with appliedMode := mode }).recomputePsiOf c).core c =
      { s2.core c with appliedMode := mode } :=
    (congrArg (·[c.val]?.getD default) (recomputePsiOf_cores ..)).trans (State.core_modCore_self _ _ _ c.isLt)
  rw [hend, h2]
  rw [hk] at hhold
  exact ⟨hstate, hhold⟩

/-- APPLY of a setting outside R110 sets CFGERR alone. -/
theorem coreApply_invalid (hr : (s.core c).role ≠ .fenced) (hv : (s.staged c).valid = false) :
    s.coreApply c = (.range, s.modCore c fun k => { k with cfgErr := true }) := by
  simp [State.coreApply, hr, hv]

/-! ### RELOCK and SEARCH -/

theorem coreRelock_warm (hen : s.flag Fields.CORE_CFG_EN c = true) (h : (s.core c).state = .locked ∨ (s.core c).state = .lost) :
    s.coreRelock c = (s.startAcq c false (s.bandMode c) s.elapsed).hostBoundary c := by
  rcases h with h | h <;> simp [State.coreRelock, hen, h]

theorem coreRelock_cold (hen : s.flag Fields.CORE_CFG_EN c = true) (h : (s.core c).state = .idle) :
    s.coreRelock c = (s.startAcq c true (s.bandMode c) s.elapsed).hostBoundary c := by
  simp [State.coreRelock, hen, h]

/-- RELOCK does nothing while an acquisition runs (R21). -/
theorem coreRelock_acquiring (h : (s.core c).state = .select ∨ (s.core c).state = .acquire) : s.coreRelock c = s := by
  rcases h with h | h <;> simp [State.coreRelock, h]

theorem coreSearch_cold (hen : s.flag Fields.CORE_CFG_EN c = true)
    (h : (s.core c).state = .locked ∨ (s.core c).state = .lost ∨ (s.core c).state = .idle) :
    s.coreSearch c = s.startAcq c true .search s.elapsed := by
  rcases h with h | h | h <;> simp [State.coreSearch, hen, h]

/-! ### CORE_SPAREMAP (R107) -/

theorem writeSpareMap_busy (w : Word) (h : s.anyRunning = true) : s.writeSpareMap w = (.busy, s) := if_pos h

/-- An update of one core decides its role, and leaves the roles of the others. -/
theorem role_modCore (k : Nat) (f : Core → Core) (r : CoreRole) (hf : ∀ x, (f x).role = r) :
    ((s.modCore k f).core c).role = if c.val = k then r else (s.core c).role := by
  split
  · next h => subst h; rw [State.core_modCore_self _ _ _ c.isLt, hf]
  · next h => rw [State.core_modCore_other _ _ _ _ (Ne.symm h)]

/-- A core that a write of CORE_SPAREMAP takes out, and one that it names a spare (R107, Table 3.9). -/
def State.unspare (s : State) (c : Nat) : State := s.modCore c fun k => { k with role := .unassigned }
def State.makeSpare (s : State) (c : Nat) : State :=
  (s.setFld Fields.CORE_CFG_EN c 1).modCore c fun k =>
    { k with role := .spare, state := if s.active then .idle else .off, lockAt := none, holdDone := false }

/-- While no station runs a write of cores that no map names and no fence holds is accepted (R107). -/
theorem writeSpareMap_accepted (w : Word) (hrun : s.anyRunning = false)
    (hw : ∀ c : Fin 26, bitOf w c = true → s.mapOwner c = none ∧ (s.core c).role ≠ .fenced)
    (hfree : ∀ c : Fin 26, (s.core c).racingFor = none ∧ (s.core c).reassign = none) :
    s.writeSpareMap w = (.ok, ((s.setReg .CORE_SPAREMAP 0 (w &&& 0x3FFFFFF#32)).each
      ((bitsOf (s.reg .CORE_SPAREMAP 0) 26).filter fun c => !bitOf w c) State.unspare).each
      ((bitsOf w 26).filter fun c => !bitOf (s.reg .CORE_SPAREMAP 0) c) State.makeSpare) := by
  unfold State.writeSpareMap
  extract_lets old s1 s2
  have named : ((bitsOf w 26).any fun c => (s.mapOwner c).isSome || (s.core c).role == .fenced) = false :=
    List.any_eq_false.2 fun n hn => by
      obtain ⟨hlt, hb⟩ := (mem_bitsOf _ _ _).1 hn
      obtain ⟨hm, hr⟩ := hw ⟨n, hlt⟩ hb
      simp [hm, hr]
  have busy : ((bitsOf old 26).any fun c => !bitOf w c && ((s.core c).racingFor.isSome || (s.core c).reassign.isSome)) = false :=
    List.any_eq_false.2 fun n hn => by
      obtain ⟨hrace, hre⟩ := hfree ⟨n, ((mem_bitsOf _ _ _).1 hn).1⟩
      simp [hrace, hre]
  rw [if_neg (by simp [hrun]), if_neg (by simp [named]), if_neg (by simp [busy])]
  rfl

/-- The change of the roles leaves the spare map as it was written. -/
theorem spareMap_respared (l m : List Nat) :
    ((s.each l State.unspare).each m State.makeSpare).reg .CORE_SPAREMAP 0 = s.reg .CORE_SPAREMAP 0 :=
  (State.each_keeps (·.reg .CORE_SPAREMAP 0) State.makeSpare
    (fun u n => reg_setFld_ne u Fields.CORE_CFG_EN n 1 _ _ (by decide)) _ m).trans
    (State.each_keeps (·.reg .CORE_SPAREMAP 0) State.unspare (fun _ _ => rfl) s l)

/-- The cores that enter the spare map are spares, those that leave it are unassigned, and the others keep their roles (R107). -/
theorem role_respared (old w : Word) :
    (((s.each ((bitsOf old 26).filter fun c => !bitOf w c) State.unspare).each
      ((bitsOf w 26).filter fun c => !bitOf old c) State.makeSpare).core c).role =
        if bitOf old c = bitOf w c then (s.core c).role else if bitOf w c then .spare else .unassigned := by
  have enters : ∀ (u : State) (n : Nat), ((u.makeSpare n).core c).role = if c.val = n then .spare else (u.core c).role :=
    fun u n => role_modCore (u.setFld Fields.CORE_CFG_EN n 1) c n _ _ fun _ => rfl
  have leaves : ∀ (u : State) (n : Nat), ((u.unspare n).core c).role = if c.val = n then .unassigned else (u.core c).role :=
    fun u n => role_modCore u c n _ _ fun _ => rfl
  rw [State.each_decides (fun u : State => (u.core c).role) c _ _ enters,
    State.each_decides (fun u : State => (u.core c).role) c _ _ leaves]
  simp only [List.mem_filter, mem_bitsOf, c.isLt, true_and]
  cases bitOf w c <;> cases bitOf old c <;> simp

end

/-- A command that writes a register whose rule refuses it with a status shows that status at the port, and leaves the cores and
outputs that the rule leaves (R610, R614). -/
theorem completes_of_refused_leaving {k : Instr} {s u : State} {r : RegName} {i : Nat} {w : Word} {st : WStatus} {P : State → Prop}
    (hx : exec k s = .next (s.portWrite (regAddr r i) w)) (h : s.serves = true) (hc : commandRegs.contains r = true)
    (hi : i < (regSpec r).count) (hk : (regSpec r).wk = false) (hw : s.writeReg r i w = (st, u)) (h1 : st ≠ .ok)
    (h2 : st ≠ .keyerr) (hP : ∀ t : State, t.refusedWith st → t.anchorage = u.anchorage → P t) : completes k s P := by
  have ht := portWrite_refused s u r i w st h (placed_of_command r i hc hi) (by simp [hk]) hw h1 h2
  exact ⟨_, hx, ht ▸ hP _ ⟨by simp [State.modHspi], hspiError_flag ..⟩ (anchorage_hspiError ..)⟩

/-- A command of a core that the port accepts is complete with what its rule leaves: the rule of CORE_CMD, where the core's setting is
not owned and the device is ACTIVE. -/
theorem completes_of_coreCmd {k : Instr} {s u : State} {c : Fin 26} {w : Word} {P : State → Prop}
    (hx : exec k s = .next (s.portWrite (regAddr .CORE_CMD c) w)) (h : s.serves = true) (ha : s.active = true)
    (ho : s.settingOwned c = false) (hu : s.coreCmd c w = (.ok, u))
    (hP : ∀ fl st, P { u with fleet := fl, store := st, hwRel := s.now, hspi := { u.hspi with lastw := 0 } }) : completes k s P :=
  completes_of_accepted hx h (by decide) c.isLt rfl ((writeCoreCmd_free s c w ho ha).trans hu) hP

/-- Settles O12: each command by what CORE_CMD or CORE_SPAREMAP makes of the write, and the acquisition it starts by
`startAcq_warm` and `startAcq_cold`. -/
theorem coreCommands : Obligations.CoreCommands := by
  refine ⟨?_, ?_, ?_, ?_, ?_, ?_, ?_, ?_, ?_, ?_⟩
  · intro s c h ha ho hr hv hen hf
    obtain ⟨u, hu, hst, hh⟩ := coreApply_acquires s c hr hv hen hf
    have hgates : (u.core c).gates = true := gates_of_unlocked (by rcases hst with e | e <;> simp [e])
    exact completes_of_coreCmd rfl h ha ho ((coreCmd_apply s c).trans hu) fun fl st =>
      ⟨congrArg CoreHold.applied hh, congrArg CoreHold.theta hh, congrArg CoreHold.appliedSub hh, congrArg CoreHold.appliedBand hh,
        hst, hgates, congrArg CoreHold.cfgErr hh, rfl, rfl⟩
  · intro s c h ha ho hr hv
    have hw : s.writeReg .CORE_CMD c (cmdBit 0) = _ :=
      (writeCoreCmd_free s c _ ho ha).trans ((coreCmd_apply s c).trans (coreApply_invalid s c hr hv))
    exact completes_of_refused_leaving rfl h (by decide) c.isLt rfl hw (by decide) (by decide) fun t hrf hA =>
      ⟨hrf, (core_of_anchorage hA c).trans (State.core_modCore_self _ _ _ c.isLt), congrArg Anchorage.outs hA⟩
  · intro s c h ho
    exact completes_of_refused_leaving rfl h (by decide) c.isLt rfl (writeCoreCmd_owned s c _ ho) (by decide) (by decide)
      fun t hrf hA => ⟨hrf, congrArg Anchorage.cores hA, congrArg Anchorage.outs hA⟩
  · intro s c h ho ha
    exact completes_of_refused_leaving rfl h (by decide) c.isLt rfl (writeCoreCmd_inactive s c ho ha) (by decide) (by decide)
      fun t hrf hA => ⟨hrf, congrArg Anchorage.cores hA, congrArg Anchorage.outs hA⟩
  · intro s c h ha ho hen hst
    obtain ⟨b, hb⟩ := core_hostBoundary (s.startAcq c false (s.bandMode c) s.elapsed) c
    obtain ⟨hacq, hband, hbd, hsub⟩ := startAcq_warm s c (s.bandMode c) s.elapsed
    have happ := congrArg CoreHold.applied (hold_startAcq s c c false (s.bandMode c) s.elapsed)
    rw [← coreRelock_warm s c hen hst] at hb
    exact completes_of_coreCmd rfl h ha ho (coreCmd_relock s c) fun fl st =>
      ⟨(congrArg Core.state hb).trans hacq, (congrArg Core.bandChosen hb).trans hband, (congrArg Core.band hb).trans hbd,
        (congrArg Core.sub hb).trans hsub, (congrArg Core.applied hb).trans happ, rfl, rfl⟩
  · intro s c h ha ho hen hst hm
    obtain ⟨b, hb⟩ := core_hostBoundary (s.startAcq c true (s.bandMode c) s.elapsed) c
    obtain ⟨hsel, hmode⟩ := startAcq_cold s c (s.bandMode c) s.elapsed hm
    have happ := congrArg CoreHold.applied (hold_startAcq s c c true (s.bandMode c) s.elapsed)
    rw [← coreRelock_cold s c hen hst] at hb
    exact completes_of_coreCmd rfl h ha ho (coreCmd_relock s c) fun fl st =>
      ⟨(congrArg Core.state hb).trans hsel, (congrArg Core.acqMode hb).trans hmode,
        (congrArg Core.applied hb).trans happ, rfl, rfl⟩
  · intro s c h ha ho hst
    have hu := (coreCmd_relock s c).trans (congrArg (WStatus.ok, ·) (coreRelock_acquiring s c hst))
    exact completes_of_coreCmd rfl h ha ho hu fun fl st => ⟨rfl, rfl, rfl⟩
  · intro s c h ha ho hen hst
    obtain ⟨hsel, hmode⟩ := startAcq_cold s c .search s.elapsed (by decide)
    have happ := congrArg CoreHold.applied (hold_startAcq s c c true .search s.elapsed)
    have hu := (coreCmd_search s c).trans (congrArg (WStatus.ok, ·) (coreSearch_cold s c hen hst))
    exact completes_of_coreCmd rfl h ha ho hu fun fl st => ⟨hsel, hmode, happ, rfl, rfl⟩
  · intro s w h hrun hw hfree
    exact completes_of_accepted rfl h (by decide) (by decide) rfl (writeSpareMap_accepted s w hrun hw hfree) fun fl st =>
      ⟨(spareMap_respared ..).trans (State.reg_setReg_self ..), ⟨rfl, rfl⟩,
        fun c => role_respared (s.setReg .CORE_SPAREMAP 0 _) c _ w⟩
  · intro s w h hrun
    exact completes_of_refused_leaving rfl h (by decide) (by decide) rfl (writeSpareMap_busy s w hrun) (by decide) (by decide)
      fun t hrf hA => ⟨hrf, congrArg Anchorage.cores hA⟩

end Sys2Proof.Machine

namespace Sys2Proof.Machine

/-! ## An acquisition in its order (R119 to R134) -/

section
variable (s : State) (c : Fin 26)

/-- The loop of a core closes: it acquires with the seed of the tick at which it closes (R163). -/
theorem closeLoop_facts (k : Nat) (hk : k = s.elapsed) :
    ((s.closeLoop c k).core c).state = .acquire ∧ ((s.closeLoop c k).core c).sub = (s.core c).sub ∧
      ((s.closeLoop c k).core c).band = (s.core c).band ∧ ((s.closeLoop c k).core c).bandChosen = true ∧
      ((s.closeLoop c k).core c).seed = seedAt (s.core c).theta (s.core c).applied s.now ∧
      (s.closeLoop c k).raises = s.raises := by
  simp [State.closeLoop, State.core_modCore_self _ _ _ c.isLt, hk]

/-! ### Band selection (R121, R122) -/

/-- What the band selection of a core comes to at the present tick: sub-core and band if one fits, the steps taken, and the sub-core
tried first. -/
def State.bandChoice (s : State) (c : Nat) : Option (Nat × Nat) × Nat × Nat :=
  selectWithRepeat (fun sub b => Config.bandHz c sub b s.elapsed) (s.core c).applied.hz (s.core c).acqMode (s.core c).appliedSub
    (s.core c).appliedBand (s.bandStep c (s.core c).appliedSub (s.core c).appliedBand)

/-- Once its steps and the settling of two sub-cores have run, a selection that found a band closes the loop on it. -/
theorem bandDone_of_found (sub b n first : Nat) (h : s.bandChoice c = (some (sub, b), n, first))
    (hdue : (s.core c).acqAt + n * 228 + 400 ≤ s.elapsed) :
    s.bandDone c = ((s.modCore c fun k => { k with steps := n }).modCore c fun k => { k with sub := sub, band := b }).closeLoop c
      s.elapsed := by
  rw [State.bandChoice] at h
  simp only [State.bandDone, h]
  refine if_neg ?_
  simp only [State.modCore_elapsed]
  split <;> split <;> omega

theorem bandDone_of_none (n first : Nat) (h : s.bandChoice c = (none, n, first)) :
    s.bandDone c = (s.modCore c fun k => { k with steps := n }).raiseEvent (Src.core_BAND_RANGE c) 0 := by
  rw [State.bandChoice] at h
  simp only [State.bandDone, h]

/-- The loop closes on the band found, with the seed of the present tick. -/
theorem bandDone_closes (sub b n first : Nat) (h : s.bandChoice c = (some (sub, b), n, first))
    (hdue : (s.core c).acqAt + n * 228 + 400 ≤ s.elapsed) :
    ((s.bandDone c).core c).state = .acquire ∧ ((s.bandDone c).core c).sub = sub ∧ ((s.bandDone c).core c).band = b ∧
      ((s.bandDone c).core c).bandChosen = true ∧
      ((s.bandDone c).core c).seed = seedAt (s.core c).theta (s.core c).applied s.now ∧ (s.bandDone c).raises = s.raises := by
  rw [bandDone_of_found s c sub b n first h hdue]
  obtain ⟨hst, hsub, hband, hch, hseed, hraises⟩ :=
    closeLoop_facts ((s.modCore c fun k => { k with steps := n }).modCore c fun k => { k with sub := sub, band := b }) c
      s.elapsed rfl
  simp only [State.core_modCore_self _ _ _ c.isLt, State.modCore_raises] at hsub hband hseed hraises
  exact ⟨hst, hsub, hband, hch, hseed, hraises⟩

/-- A selection that found no band raises BAND_RANGE and leaves the core in SELECT. -/
theorem bandDone_ranges (n first : Nat) (h : s.bandChoice c = (none, n, first)) (hst : (s.core c).state = .select)
    (hr : (s.core c).role ≠ .fenced) :
    ((s.bandDone c).core c).state = .select ∧
      ∃ r : Raise, (s.bandDone c).raises = s.raises ++ [r] ∧ r.fid = Src.core_BAND_RANGE c := by
  have hc : (s.modCore c fun k => { k with steps := n }).core c = { s.core c with steps := n } :=
    State.core_modCore_self _ _ _ c.isLt
  obtain ⟨r, he, hf, -⟩ :=
    raiseEvent_core (s.modCore c fun k => { k with steps := n }) c (Src.core_BAND_RANGE c) 0 rfl rfl (by rw [hc]; exact hr)
  rw [bandDone_of_none s c n first h, he]
  exact ⟨(congrArg Core.state hc).trans hst, r, rfl, hf⟩

/-! ### Lock and the ungate hold (R126, R129, R147) -/

/-- The word of CORE_MARGIN holds a tuning voltage of 12 bits whole (R147). -/
theorem margin_word (v : BitVec 12) (m : Nat) :
    BitVec.ofNat 32 (m % 4096 * 2 ^ 16 + v.toNat % 4096) = BitVec.ofNat 32 (m % 4096 * 2 ^ 16 + v.toNat) := by
  have hv : v.toNat % 4096 = v.toNat := Nat.mod_eq_of_lt v.isLt
  rw [hv]

/-- A core that declares lock, and races for no other, is LOCKED with its ungate hold begun (R126, R129). -/
theorem coreLock_facts (v : BitVec 12) (hr : (s.core c).racingFor = none) :
    ((s.coreLock c v.toNat).core c).state = .locked ∧ ((s.coreLock c v.toNat).core c).lockAt = some s.elapsed ∧
      ((s.coreLock c v.toNat).core c).gates = true ∧
      (s.coreLock c v.toNat).reg .CORE_MARGIN c = BitVec.ofNat 32 (marginOf v.toNat % 4096 * 2 ^ 16 + v.toNat) := by
  unfold State.coreLock
  extract_lets x s1 s2 m s3 s4 lim s5 s6
  simp only [x, hr]
  have h1 : s1.core c = { s.core c with
      state := .locked, lockAt := some s.elapsed, holdDone := false, countFrom := none, consequential := false
      outWin := 0, errSum := 0, errN := 0 } := State.core_modCore_self _ _ _ c.isLt
  have hp : s4.Posted s6 := (posted_setLevel ..).trans (posted_postCoreEvent ..)
  have h6 : s6.core c = s1.core c := (hp.core c).trans
    ((State.setReg_at_core s3 .CORE_LOCKTIME c _ c).trans
      ((State.setReg_at_core s2 .CORE_MARGIN c _ c).trans (State.setReg_at_core s1 .CORE_PERR c _ c)))
  obtain ⟨b, hend⟩ := core_endRace s6 c (by rw [h6, h1]; exact hr)
  have hmargin : s4.reg .CORE_MARGIN c = s3.reg .CORE_MARGIN c := State.reg_setReg_other _ _ _ _ _ _ (by simp)
  rw [hend, h6, h1]
  refine ⟨rfl, rfl, by simp [Core.gates], ?_⟩
  calc (s6.endRace c).reg .CORE_MARGIN c = s6.reg .CORE_MARGIN c := congrArg (·.get .CORE_MARGIN c) (endRace_regs s6 c)
    _ = s3.reg .CORE_MARGIN c := (hp.reg _ _ (by decide)).trans hmargin
    _ = BitVec.ofNat 32 (m % 4096 * 2 ^ 16 + v.toNat % 4096) := State.reg_setReg_self s2 .CORE_MARGIN c _
    _ = BitVec.ofNat 32 (m % 4096 * 2 ^ 16 + v.toNat) := margin_word v m

@[simp] theorem endLapses_cores (p : Lapse → Bool) : (s.endLapses p).cores = s.cores := by
  unfold State.endLapses
  extract_lets ls fails closes s1
  exact List.foldlRecOn (motive := fun t : State => t.cores = s.cores) _ _ rfl fun t ht l _ => ht

@[simp] theorem rasColdEnd_cores (k : Nat) : (s.rasColdEnd k).cores = s.cores := by
  unfold State.rasColdEnd
  split
  · split
    · exact State.each_keeps State.cores _ (fun _ _ => by rfl) s _
    · rfl
  · rfl

@[simp] theorem finishTransfer_cores : s.finishTransfer.cores = s.cores := by
  unfold State.finishTransfer
  split
  · split
    · exact congrArg Anchorage.cores (anchorage_raiseEvent { s with transfer := none } Src.anc_TRANSFER 0)
    · rfl
  · rfl

/-- The end of the ungate hold of a LOCKED core moves, of the cores, only its own mark (R129). -/
theorem ungateHoldEnd_cores (k : Nat) (hk : (s.core c).lockAt = some k) (hst : (s.core c).state = .locked)
    (hh : (s.core c).holdDone = false) (hdue : k + s.fld Fields.CORE_CFG_UGHOLD c * 64 ≤ s.elapsed) :
    (s.ungateHoldEnd c).cores = (s.modCore c fun x => { x with holdDone := true }).cores := by
  simp only [State.ungateHoldEnd, hk]
  rw [if_pos (by simp [hst, hh, hdue])]
  generalize (s.modCore c fun x => { x with holdDone := true }) = u
  have hras : (((u.endLapses fun l => l.ends == .core c).endAnchorLapses).rasColdEnd c).cores = u.cores :=
    (rasColdEnd_cores ..).trans ((endLapses_cores ..).trans (endLapses_cores ..))
  exact (finishTransfer_cores _).trans ((State.each_keeps State.cores State.outBoundary (fun _ _ => rfl) _ _).trans hras)

/-! ### Timeouts (R131) -/

theorem acqTimeout_again (hm : (s.core c).acqMode = .table) (hr : (s.core c).acqRestarted = false) :
    s.acqTimeout c = (s.startAcq c true .search s.elapsed).modCore c fun k => { k with acqRestarted := true } := by
  simp [State.acqTimeout, hm, hr]

theorem acqTimeout_lost (h : (s.core c).acqMode ≠ .table ∨ (s.core c).acqRestarted = true) :
    s.acqTimeout c = (s.raiseEvent (Src.core_NO_LOCK c) 0).modCore c fun k =>
      { k with state := .lost, fastUntil := none, countFrom := none } := by
  refine if_neg ?_
  rcases h with h | h <;> simp [h]

theorem raceTimeout_ends (d : Nat) (hd : (s.core c).racingFor = some d) (hst : (s.core c).state ≠ .locked)
    (ht : (s.core c).acqAt + 32768 ≤ s.elapsed) : s.raceTimeout c = s.endRace d := by
  simp [State.raceTimeout, hd, hst, ht]

end

/-- Settles O13: band selection by `bandDone_closes` and `bandDone_ranges`, lock by `coreLock_facts`, the hold by
`ungateHoldEnd_cores`, and the timeouts by the acquisition, the raise or the end of the race that they bring. -/
theorem acquisitionRuns : Obligations.AcquisitionRuns := by
  refine ⟨?_, ?_, ?_, ?_, ?_, ?_, ?_⟩
  · intro s c hup ha hr
    have hst : (s.core c).state = .select := by
      simp only [State.bandAdmitted, Bool.and_eq_true, beq_iff_eq] at ha
      exact ha.1.1
    refine completes_of_detector rfl hup (if_pos ha) ?_
    have hfound := bandDone_closes s c
    have hnone := bandDone_ranges s c
    rw [State.bandChoice] at hfound hnone
    generalize selectWithRepeat _ _ _ _ _ _ = choice at *
    obtain ⟨_ | ⟨sub, b⟩, n, first⟩ := choice
    · exact hnone n first rfl hst hr
    · exact fun hdue => hfound sub b n first rfl hdue
  · intro s c k hup hk hst hdue
    have hs : s.fastLockEnd c = s.modCore c fun x => { x with fastUntil := none, countFrom := some k } := by
      simp [State.fastLockEnd, hk, hst, hdue]
    exact completes_of_detector rfl hup hs rfl
  · intro s c v hup ha hr
    exact completes_of_detector rfl hup (if_pos ha) (coreLock_facts s c v hr)
  · intro s c k hup hk hst hh hr hdue
    have hcore : ∀ d : Nat, (s.ungateHoldEnd c).core d = (s.modCore c fun x => { x with holdDone := true }).core d := fun d =>
      congrArg (·[d]?.getD default) (ungateHoldEnd_cores s c k hk hst hh hdue)
    refine completes_of_detector rfl hup rfl ⟨?_, ?_, fun d hd => ?_⟩
    · rw [hcore, State.core_modCore_self _ _ _ c.isLt]
    · rw [hcore, State.core_modCore_self _ _ _ c.isLt]
      simp [Core.gates, hst, hr]
    · rw [hcore, State.core_modCore_other _ _ _ _ fun e => hd (Fin.ext e.symm)]
  · intro s c hup ha hm hr
    obtain ⟨hsel, hmode⟩ := startAcq_cold s c .search s.elapsed (by decide)
    refine completes_of_detector rfl hup ((if_pos ha).trans (acqTimeout_again s c hm hr)) ?_
    rw [State.core_modCore_self _ _ _ c.isLt]
    exact ⟨hsel, hmode, rfl, startAcq_raises ..⟩
  · intro s c hup ha hr hm
    obtain ⟨r, he, hf, -⟩ := raiseEvent_core s c (Src.core_NO_LOCK c) 0 rfl rfl hr
    refine completes_of_detector rfl hup ((if_pos ha).trans (acqTimeout_lost s c hm)) ?_
    rw [State.core_modCore_self _ _ _ c.isLt, he]
    exact ⟨rfl, r, rfl, hf⟩
  · intro s c d hup hd hrace hst ht
    refine completes_of_detector rfl hup ((raceTimeout_ends s c d hd hst ht).trans (endRace_of_racer s d c hrace)) ?_
    rw [State.core_modCore_self _ _ _ c.isLt]
    exact ⟨rfl, rfl⟩

end Sys2Proof.Machine

namespace Sys2Proof.Machine

/-! ## The loss of a core (R126, R132, R140, R152) -/

section
variable (s : State) (c : Fin 26)

/-- A core that loses lock counts and raises the loss; it is taken out of LOCKED by what the next tick releases (R42, R132). -/
theorem coreLoss_facts (hst : (s.core c).state = .locked) (hr : (s.core c).role ≠ .fenced) :
    (s.coreLoss c).cores = s.cores ∧ (∃ q : Bool, (s.coreLoss c).later = s.later ++ [.core c q]) ∧
      (s.coreLoss c).fld Fields.CORE_LOLCNT_COUNT c =
        satAdd (s.fld Fields.CORE_LOLCNT_COUNT c) Fields.CORE_LOLCNT_COUNT.width 1 ∧
      ∃ r ∈ (s.coreLoss c).raises, r.fid = Src.core_LOCK_LOST c ∧ r.stamp = s.now := by
  unfold State.coreLoss
  extract_lets x s1 q s2 s3 s4
  obtain ⟨r, h2, hf, hn⟩ : ∃ r : Raise, s2 = { s1 with raises := s1.raises ++ [r] } ∧ r.fid = Src.core_LOCK_LOST c ∧
      r.stamp = s1.now := raiseEvent_core s1 c _ 0 rfl rfl hr
  have h3 : s2.Posted s3 := by
    simp only [s3]
    split
    · exact posted_lapseWith ..
    · exact .refl s2
  have h4 : s2.Posted s4 := h3.trans (posted_postCoreEvent ..)
  have hmem : (Src.core_LOCK_LOST c, s.now) ∈ s2.raised :=
    h2 ▸ List.mem_map.2 ⟨r, List.mem_append_right _ List.mem_cons_self, Prod.ext hf hn⟩
  have hfld : s4.fld Fields.CORE_LOLCNT_COUNT c = s1.fld Fields.CORE_LOLCNT_COUNT c :=
    (fld_of_reg (h4.reg _ _ (by decide))).trans (h2 ▸ rfl)
  rw [if_neg (by simp [x, hst])]
  exact ⟨h4.cores.trans (h2 ▸ rfl), ⟨q, congrArg (· ++ [Later.core c q]) (h4.later.trans (h2 ▸ rfl))⟩,
    hfld.trans (State.fld_bump_self s Fields.CORE_LOLCNT_COUNT c 1 (by decide)), exists_raise_of_raised (h4.raised hmem)⟩

@[simp] theorem unsettle_cores (k : Nat) : (s.unsettle k).cores = s.cores :=
  State.slots_keep s State.cores _ fun u n j => by split <;> rfl

@[simp] theorem unsettle_regs (k : Nat) : (s.unsettle k).regs = s.regs :=
  State.slots_keep s State.regs _ fun u n j => by split <;> rfl

/-- The tick after its loss a core is LOCKED no more: it is LOST, IDLE after a race, or acquires (R132 to R134). -/
theorem coreLost_unlocked (q : Bool) (h : (s.core c).state = .locked) : ((s.coreLost c q).core c).state ≠ .locked := by
  have acquires : ∀ (u : State) (m : BandMode) (t : Nat), ((u.startAcq c false m t).core c).state ≠ .locked := fun u m t => by
    simp [(startAcq_warm u c m t).1]
  unfold State.coreLost
  extract_lets x s1 s2
  have h1 : (s1.core c).state = .lost := by rw [State.core_modCore_self _ _ _ c.isLt]
  have h2 : (s2.core c).state = .lost := by rw [State.core_modCore_self _ _ _ c.isLt]; exact h1
  rw [if_neg (by simp [x, h])]
  split
  · simp [State.core_modCore_self _ _ _ c.isLt]
  · split
    · split
      · exact acquires _ _ _
      · simp [State.core_modCore_self _ _ _ c.isLt, h1]
    · split
      · exact acquires _ _ _
      · simp [h2]

/-! ## The takeover of a spare (R148, R190, R329, R353) -/

/-- The core an output follows is read from OUT_CFG alone. -/
theorem srcOf_of_reg {s t : State} {o : Nat} (h : t.reg .OUT_CFG o = s.reg .OUT_CFG o) : t.srcOf o = s.srcOf o := by
  have hf : t.fld Fields.OUT_CFG_SRC o = s.fld Fields.OUT_CFG_SRC o := fld_of_reg h
  rw [State.srcOf, State.srcOf, hf]

theorem mem_outsOf (o : Fin 32) (k : Nat) : o.val ∈ s.outsOf k ↔ s.srcOf o = some k := by
  simp [State.outsOf]

/-- Routing an output to a core makes it follow that core, and leaves what the others follow. -/
theorem srcOf_setFld (k : Fin 26) (o n : Nat) :
    (s.setFld Fields.OUT_CFG_SRC n k).srcOf o = if o = n then some k.val else s.srcOf o := by
  have hk := k.isLt
  split
  · next h =>
    have hf := State.fld_setFld_self s Fields.OUT_CFG_SRC n k (by decide)
    rw [show k.val % 2 ^ Fields.OUT_CFG_SRC.width = k from Nat.mod_eq_of_lt (Nat.lt_trans hk (by decide))] at hf
    simp [State.srcOf, h, hf, hk]
  · next h => exact srcOf_of_reg (State.reg_setReg_other _ _ _ _ _ _ fun e => h e.2.symm)

/-- The spare that takes a core's place holds the setting, hint and offset of the core and the role and station given, has left the
spare map, and is followed by the core's outputs (R148, R329). -/
theorem takeOver_facts (k : Fin 26) (role : CoreRole) (n : Nat) :
    ((s.takeOver c k role n).core k).hold =
        { (s.core c).hold with role := role, station := n, cfgErr := (s.core k).cfgErr } ∧
      bitOf ((s.takeOver c k role n).reg .CORE_SPAREMAP 0) k = false ∧
      ∀ o : Fin 32, s.srcOf o = some c.val → (s.takeOver c k role n).srcOf o = some k.val := by
  unfold State.takeOver
  extract_lets old s1 s2 s3 s4 s5 s6 s7 s8
  have mapStep : ∀ (r : RegName) (i : Nat), r ≠ .STN_MAP → s5.reg r i = s4.reg r i := fun r i hr =>
    State.slots_keep s4 (·.reg r i) _ fun u m j => by
      split
      · exact State.reg_setReg_other _ _ _ _ _ _ fun e => hr e.1.symm
      · rfl
  have rasStep : ∀ (r : RegName) (i : Nat), r ≠ .RAS_CFG → s6.reg r i = s5.reg r i := fun r i hr => by
    simp only [s6]
    split
    · exact reg_setFld_ne _ _ _ _ _ _ hr
    · rfl
  have reg_end : ∀ (r : RegName) (i : Nat), r ≠ .STN_MAP → r ≠ .RAS_CFG → s8.reg r i = s4.reg r i := fun r i hm hr =>
    (congrArg (·.get r i) (unsettle_regs s6 k)).trans ((rasStep r i hr).trans (mapStep r i hm))
  have cores_end : s8.cores = s3.cores := by
    have h4 : s4.cores = s3.cores := State.each_keeps State.cores _ (fun _ _ => by rfl) s3 _
    have h5 : s5.cores = s4.cores := State.slots_keep s4 State.cores _ fun u m j => by split <;> rfl
    have h6 : s6.cores = s5.cores := by
      simp only [s6]
      split <;> rfl
    exact (unsettle_cores s6 k).trans (h6.trans (h5.trans h4))
  refine ⟨?_, ?_, fun o ho => ?_⟩
  · have hk : s3.core k = _ := State.core_modCore_self s2 k _ k.isLt
    exact congrArg Core.hold ((congrArg (·[k.val]?.getD default) cores_end).trans hk)
  · have h4 : s4.reg .CORE_SPAREMAP 0 = s3.reg .CORE_SPAREMAP 0 :=
      State.each_keeps (·.reg .CORE_SPAREMAP 0) _ (fun u m => reg_setFld_ne u _ _ _ _ _ (by decide)) s3 _
    have h1 : s3.reg .CORE_SPAREMAP 0 = setBit (s.reg .CORE_SPAREMAP 0) k false :=
      (State.reg_setReg_other s1 .ANC_COREMAP 0 _ .CORE_SPAREMAP 0 (by decide)).trans (State.reg_setReg_self ..)
    exact (congrArg (bitOf · k) ((reg_end _ _ (by decide) (by decide)).trans (h4.trans h1))).trans
      (bitOf_setBit_self _ _ _ (Nat.lt_trans k.isLt (by decide)))
  · have h3 : s3.srcOf o = s.srcOf o := srcOf_of_reg
      ((State.reg_setReg_other s1 .ANC_COREMAP 0 _ .OUT_CFG o (by simp)).trans (State.reg_setReg_other s _ _ _ _ _ (by simp)))
    have h4 := State.each_decides (·.srcOf o) o (some k.val) _ (fun u m => srcOf_setFld u k o m) s3 (s3.outsOf c)
    rw [if_pos ((mem_outsOf s3 o c).2 (h3.trans ho))] at h4
    exact (srcOf_of_reg (reg_end _ _ (by decide) (by decide))).trans h4

end

/-- Settles O14: the loss by `coreLoss_facts`, its release by `coreLost_unlocked`, the raises of a core's sources by `raiseEvent_core`,
and the reassignment by `takeOver_facts` and the cold acquisition that follows. -/
theorem coreLossAndSpares : Obligations.CoreLossAndSpares := by
  refine ⟨?_, ?_, ?_, ?_, ?_⟩
  · intro s c hup hst hr hn ht hf
    have hadm : s.lossAdmitted c = true := by simp [State.lossAdmitted, hst, hn, ht, hf, -List.contains_eq_mem]
    exact completes_of_detector rfl hup (if_pos hadm) (coreLoss_facts s c hst hr)
  · intro s c q hst
    have h := coreLost_unlocked s c q hst
    exact ⟨h, gates_of_unlocked h⟩
  · intro s c hup hst hr hf
    have hadm : (((s.core c).state == .acquire || (s.core c).state == .locked) && decide (2 ≤ (s.core c).tdcFails)) = true := by
      rcases hst with h | h <;> simp [h, hf]
    obtain ⟨r, he, hfid, hn⟩ := raiseEvent_core s c (Src.core_TDC_CHECK c) 0 rfl rfl hr
    refine completes_of_detector rfl hup (if_pos hadm) ?_
    rw [he]
    exact ⟨State.core_modCore_self _ _ _ c.isLt, fun d hd => State.core_modCore_other _ _ _ _ fun e => hd (Fin.ext e.symm), rfl,
      r, rfl, hfid, hn⟩
  · intro s c hup ho hf hr
    obtain ⟨r, he, hfid, hn⟩ := raiseEvent_core s c (Src.core_STATE_PARITY c) 0 rfl rfl hr
    have hs : s.coreParity c = s.raiseEvent (Src.core_STATE_PARITY c) 0 := if_neg (by simp [ho, hf])
    exact completes_of_detector rfl hup (hs.trans he) ⟨rfl, rfl, r, rfl, hfid, hn⟩
  · intro s k c hup hre _
    obtain ⟨hhold, hmap, hsrc⟩ := takeOver_facts s c k (s.core c).fencedRole (s.core c).station
    have hs : s.reassignDone k =
        (s.takeOver c k (s.core c).fencedRole (s.core c).station).startAcq k true .table (s.elapsed + 1) := by
      simp only [State.reassignDone, hre]
    generalize s.takeOver c k (s.core c).fencedRole (s.core c).station = u at *
    have hcold := startAcq_cold u k .table (s.elapsed + 1) (by decide)
    have hregs := startAcq_regs u k true .table (s.elapsed + 1)
    have hh := (hold_startAcq u k k true .table (s.elapsed + 1)).trans hhold
    exact completes_of_detector rfl hup hs ⟨hcold.1, hcold.2, congrArg CoreHold.role hh, congrArg CoreHold.station hh,
      congrArg CoreHold.applied hh, congrArg CoreHold.theta hh,
      (congrArg (fun f => bitOf (f.get .CORE_SPAREMAP 0) k) hregs).trans hmap,
      fun o ho => (srcOf_of_reg (congrArg (·.get .OUT_CFG o) hregs)).trans (hsrc o ho)⟩

end Sys2Proof.Machine

namespace Sys2Proof.Machine

/-! ## A write of OUT_SYSREF (R343, R344)

The register takes SMODE and COUNT of the word; REQ, PER and DIS act and are not kept. -/

/-- Setting a bit outside a mask leaves what the mask lets through. -/
theorem setBit_and_of_masked (w m : Word) (n : Nat) (b : Bool) (h : bitOf m n = false) : setBit w n b &&& m = w &&& m := by
  apply BitVec.eq_of_getLsbD_eq
  intro k hk
  rw [BitVec.getLsbD_and, BitVec.getLsbD_and]
  by_cases hn : n = k
  · subst hn
    rw [show m.getLsbD n = false from h, Bool.and_false, Bool.and_false]
  · rw [show (setBit w n b).getLsbD k = w.getLsbD k from bitOf_setBit_other w n k b hk hn]

/-- A field that lies inside a mask is let through by it. -/
theorem getBits_and_of_within (w m : Word) (lo width : Nat) (h : m.extractLsb' lo width = BitVec.allOnes width) :
    getBits (w &&& m) lo width = getBits w lo width := by
  rw [getBits, BitVec.extractLsb'_and, h, BitVec.and_allOnes, getBits]

section
variable (s : State) (o : Nat)

/-- The word that asks for an operation and leaves SMODE and COUNT as they are: REQ, PER and DIS are bits 31, 30 and 29. -/
def State.sysrefWord (op : Nat) : Word := setBit (s.reg .OUT_SYSREF o &&& 0x000300FF#32) (31 - op) true

/-- The state in which the operation of such a word acts. -/
def State.sysrefKept : State := s.setReg .OUT_SYSREF o (s.reg .OUT_SYSREF o &&& 0x000300FF#32)

/-- SMODE and COUNT are apart from REQ, PER and DIS. -/
theorem sysrefMask_op (op : Fin 3) : bitOf 0x000300FF#32 (31 - op) = false := by revert op; decide

theorem sysrefWord_and (op : Fin 3) : s.sysrefWord o op &&& 0x000300FF#32 = s.reg .OUT_SYSREF o &&& 0x000300FF#32 := by
  rw [State.sysrefWord, setBit_and_of_masked _ _ _ _ (sysrefMask_op op), BitVec.and_assoc, BitVec.and_self]

/-- Of REQ, PER and DIS the word has the bit of its operation alone. -/
theorem bitOf_sysrefWord (op k : Fin 3) : bitOf (s.sysrefWord o op) (31 - k) = decide (k = op) := by
  by_cases h : k = op
  · subst h
    rw [State.sysrefWord, bitOf_setBit_self _ _ _ (by omega), decide_eq_true rfl]
  · have hm : (0x000300FF#32 : Word).getLsbD (31 - k) = false := sysrefMask_op k
    rw [State.sysrefWord, bitOf_setBit_other _ _ _ _ (by omega) (by omega), bitOf, BitVec.getLsbD_and, hm, Bool.and_false,
      decide_eq_false h]

/-! ### What the operations read of other registers -/

theorem fld_setReg_sysref (v : Word) (f : Field) (i : Nat) (h : f.reg ≠ .OUT_SYSREF) :
    (s.setReg .OUT_SYSREF o v).fld f i = s.fld f i :=
  State.fld_setReg_other _ _ _ _ _ _ fun e => h e.1.symm

theorem flag_setReg_sysref (v : Word) (f : Field) (i : Nat) (h : f.reg ≠ .OUT_SYSREF) :
    (s.setReg .OUT_SYSREF o v).flag f i = s.flag f i :=
  congrArg (· == 1) (fld_setReg_sysref s o v f i h)

theorem srcOf_setReg_sysref (v : Word) (i : Nat) : (s.setReg .OUT_SYSREF o v).srcOf i = s.srcOf i :=
  srcOf_of_reg (State.reg_setReg_other _ _ _ _ _ _ (by simp))

theorem anchorGates_setReg_sysref (v : Word) (c : Nat) : (s.setReg .OUT_SYSREF o v).anchorGates c = s.anchorGates c := by
  have hanc : (s.setReg .OUT_SYSREF o v).ancOf c = s.ancOf c := by
    simp only [State.ancOf, State.reg_setReg_other s .OUT_SYSREF o v .ANC_COREMAP 0 (by simp)]
  simp (disch := decide) only [State.anchorGates, State.roleless, State.cond, hanc, fld_setReg_sysref, flag_setReg_sysref,
    State.setReg_at_anc, State.setReg_primary]

theorem gated_setReg_sysref (v : Word) (i : Nat) : (s.setReg .OUT_SYSREF o v).gated i = s.gated i := by
  have hanc : (s.setReg .OUT_SYSREF o v).anchorGates = s.anchorGates := funext (anchorGates_setReg_sysref s o v)
  unfold State.gated State.gateWhy
  rw [flag_setReg_sysref s o v Fields.OUT_CFG_EN i (by decide), fld_setReg_sysref s o v Fields.OUT_CFG_HGATE i (by decide),
    srcOf_setReg_sysref, hanc]
  rfl

theorem gridPeriod_setReg_sysref (v : Word) (i : Nat) : (s.setReg .OUT_SYSREF o v).gridPeriod i = s.gridPeriod i := by
  simp (disch := decide) only [State.gridPeriod, State.divOf, State.dsetD, State.dsel, State.sysP, fld_setReg_sysref]

theorem gridFrom_setReg_sysref (v : Word) (i k : Nat) : (s.setReg .OUT_SYSREF o v).gridFrom i k = s.gridFrom i k := by
  simp only [State.gridFrom, srcOf_setReg_sysref, gridPeriod_setReg_sysref, State.setReg_at_core, State.setReg_at_out]

theorem pulseWidth_setReg_sysref (v : Word) (i : Nat) : (s.setReg .OUT_SYSREF o v).pulseWidth i = s.pulseWidth i := by
  simp (disch := decide) only [State.pulseWidth, gridPeriod_setReg_sysref, fld_setReg_sysref]

theorem burstRunning_setReg_sysref (v : Word) (i k : Nat) :
    (s.setReg .OUT_SYSREF o v).burstRunning i k = s.burstRunning i k := by
  simp only [State.burstRunning, srcOf_setReg_sysref, gridPeriod_setReg_sysref, pulseWidth_setReg_sysref, State.setReg_at_core,
    State.setReg_at_out]

theorem periodicFrom_setReg_sysref (v : Word) (i k : Nat) :
    (s.setReg .OUT_SYSREF o v).periodicFrom i k = s.periodicFrom i k := by
  simp only [State.periodicFrom, burstRunning_setReg_sysref, gridPeriod_setReg_sysref, pulseWidth_setReg_sysref,
    gridFrom_setReg_sysref, State.setReg_at_out]

/-! ### The state in which an operation acts -/

/-- A field of OUT_SYSREF inside SMODE and COUNT is kept. -/
theorem fld_sysrefKept (f : Field) (hr : f.reg = .OUT_SYSREF)
    (h : BitVec.extractLsb' f.lo f.width 0x000300FF#32 = BitVec.allOnes f.width) : (s.sysrefKept o).fld f o = s.fld f o := by
  rw [State.fld, State.fld, hr, State.sysrefKept, State.reg_setReg_self, getBits_and_of_within _ _ _ _ h]

theorem fld_sysrefKept_ne (f : Field) (i : Nat) (h : f.reg ≠ .OUT_SYSREF) : (s.sysrefKept o).fld f i = s.fld f i :=
  fld_setReg_sysref s o _ f i h

@[simp] theorem smode_sysrefKept : (s.sysrefKept o).smode o = s.smode o := by
  rw [State.smode, fld_sysrefKept s o _ rfl (by decide), State.smode]

@[simp] theorem count_sysrefKept : (s.sysrefKept o).fld1 Fields.OUT_SYSREF_COUNT o = s.fld1 Fields.OUT_SYSREF_COUNT o :=
  congrArg (max 1) (fld_sysrefKept s o _ rfl (by decide))

@[simp] theorem out_sysrefKept (i : Nat) : (s.sysrefKept o).out i = s.out i := rfl
@[simp] theorem now_sysrefKept : (s.sysrefKept o).now = s.now := rfl
@[simp] theorem elapsed_sysrefKept : (s.sysrefKept o).elapsed = s.elapsed := rfl
@[simp] theorem gated_sysrefKept (i : Nat) : (s.sysrefKept o).gated i = s.gated i := gated_setReg_sysref ..
@[simp] theorem gridFrom_sysrefKept (i k : Nat) : (s.sysrefKept o).gridFrom i k = s.gridFrom i k := gridFrom_setReg_sysref ..
@[simp] theorem burstRunning_sysrefKept (i k : Nat) : (s.sysrefKept o).burstRunning i k = s.burstRunning i k :=
  burstRunning_setReg_sysref ..
@[simp] theorem periodicFrom_sysrefKept (i k : Nat) : (s.sysrefKept o).periodicFrom i k = s.periodicFrom i k :=
  periodicFrom_setReg_sysref ..

/-- In a SYSREF mode the word of one operation performs that operation. -/
theorem writeSysref_op (op : Fin 3) (h : s.smode o ≠ 0) :
    s.writeSysref o (s.sysrefWord o op) = (.ok, (s.sysrefKept o).sysOp o op) := by
  have hkept : s.setReg .OUT_SYSREF o (s.sysrefWord o op &&& 0x000300FF#32) = s.sysrefKept o := by
    rw [sysrefWord_and, State.sysrefKept]
  have hreq : bitOf (s.sysrefWord o op) 31 = decide (0 = op) := bitOf_sysrefWord s o op 0
  have hper : bitOf (s.sysrefWord o op) 30 = decide (1 = op) := bitOf_sysrefWord s o op 1
  have hdis : bitOf (s.sysrefWord o op) 29 = decide (2 = op) := bitOf_sysrefWord s o op 2
  simp only [State.writeSysref, hkept, smode_sysrefKept, if_neg h, hreq, hper, hdis]
  match op with
  | 0 => rfl
  | 1 => rfl
  | 2 => rfl

/-- OUT_SYSREF of an output that a guaranteed program does not own, with its domain on, takes the write (R327, R489). -/
theorem writeReg_sysref (w : Word) (ho : s.outOwned o = false) (hd : s.outDomainOff o = false) :
    s.writeReg .OUT_SYSREF o w = s.writeSysref o w := by
  have hr : s.writeReg .OUT_SYSREF o w = if s.outOwned o then (.owned, s)
    else s.unless (w &&& 0xE0000000#32 != 0 && s.outDomainOff o) .state (s.writeSysref o w) := rfl
  simp [hr, ho, hd, State.unless]

theorem writeReg_sysref_owned (w : Word) (ho : s.outOwned o = true) : s.writeReg .OUT_SYSREF o w = (.owned, s) := if_pos ho

/-! ### The operations (R184 to R186, Table 8.4) -/

/-- The burst that a request starts: COUNT pulses in gapped mode and one in one-shot mode, from the first grid point. -/
def State.sysBurst : Burst :=
  ⟨s.gridFrom o s.now, if s.smode o = 1 then s.fld1 Fields.OUT_SYSREF_COUNT o else 1, s.elapsed⟩

@[simp] theorem sysBurst_sysrefKept : (s.sysrefKept o).sysBurst o = s.sysBurst o := by simp [State.sysBurst]

/-- A request on an output that is not gated, with no burst and no periodic pulses, starts a burst. -/
theorem sysOp_request (hm : s.smode o ≠ 0) (hg : s.gated o = false) (hb : s.burstRunning o s.now = false)
    (hp : (s.out o).periodic = none) :
    s.sysOp o 0 = s.modOut o fun x => { x with burst := some (s.sysBurst o) } := by
  simp [State.sysOp, State.sysBurst, hm, hg, hb, hp]

/-- A request is dropped while the output is gated, a burst runs or periodic pulses are enabled. -/
theorem sysOp_request_dropped (hm : s.smode o ≠ 0)
    (h : s.gated o = true ∨ s.burstRunning o s.now = true ∨ (s.out o).periodic.isSome = true) : s.sysOp o 0 = s.sysDrop o := by
  have hdrop : (s.gated o || s.burstRunning o s.now || (s.out o).periodic.isSome) = true := by
    simpa only [Bool.or_eq_true, or_assoc] using h
  simp only [State.sysOp, if_neg hm, if_pos hdrop]

end

section
variable (s : State) (o : Fin 32)

/-- A dropped request is counted and raised, and leaves the outputs alone. -/
theorem sysDrop_facts (hf : (s.out o).fenced = false) :
    (∀ i, (s.sysDrop o).out i = s.out i) ∧
    (s.sysDrop o).fld Fields.OUT_EVCNT_SYSDROP o =
      satAdd (s.fld Fields.OUT_EVCNT_SYSDROP o) Fields.OUT_EVCNT_SYSDROP.width 1 ∧
    ∃ r : Raise, (s.sysDrop o).raises = s.raises ++ [r] ∧ r.fid = Src.out_SYSREF_DROP o := by
  obtain ⟨r, hr, hfid, -⟩ :=
    raiseEvent_of_not_fenced (s.bump Fields.OUT_EVCNT_SYSDROP o 1) (Src.out_SYSREF_DROP o) 0 hf
  rw [State.sysDrop, hr]
  exact ⟨fun i => rfl, State.fld_bump_self s Fields.OUT_EVCNT_SYSDROP o 1 (by decide), r, rfl, hfid⟩

/-- Enabling leaves periodic pulses that run as they are, and otherwise starts them at their first grid point; a burst goes on. -/
theorem sysOp_enable (hm : s.smode o ≠ 0) :
    ((s.sysOp o 1).out o).periodic = some ((s.out o).periodic.getD (s.periodicFrom o s.now)) ∧
    ((s.sysOp o 1).out o).burst = (s.out o).burst := by
  cases hp : (s.out o).periodic with
  | some j =>
    have hs : s.sysOp o 1 = s := by simp [State.sysOp, hm, hp]
    exact ⟨by rw [hs, hp, Option.getD_some], by rw [hs]⟩
  | none => simp [State.sysOp, hm, hp]

/-- Stopping ends periodic pulses, and begins no burst. -/
theorem sysStop_facts (x : Output) (k e : Nat) :
    (x.sysStop o k e).periodic = none ∧ (x.burst = none → (x.sysStop o k e).burst = none) := by
  unfold Output.sysStop
  split
  · exact ⟨rfl, fun _ => rfl⟩
  · exact ⟨rfl, fun hb => by simp [hb]⟩

theorem sysOp_disable (hm : s.smode o ≠ 0) :
    ((s.sysOp o 2).out o).periodic = none ∧ ((s.out o).burst = none → ((s.sysOp o 2).out o).burst = none) := by
  have hout : (s.sysOp o 2).out o = (s.out o).sysStop o s.now s.elapsed := by simp [State.sysOp, hm]
  rw [hout]
  exact sysStop_facts ..

end

/-- A command that asks for one SYSREF operation is complete with what the operation leaves of outputs, registers and raises. -/
theorem completes_of_sysOp {c : Instr} {s u : State} {o : Fin 32} {P : State → Prop} (op : Fin 3)
    (hx : exec c s = .next (s.portWrite (regAddr .OUT_SYSREF o) (s.sysrefWord o op))) (h : s.serves = true)
    (ho : s.outOwned o = false) (hd : s.outDomainOff o = false) (hm : s.smode o ≠ 0) (hu : (s.sysrefKept o).sysOp o op = u)
    (hP : ∀ t : State, s.wrote t → t.out o = u.out o → t.regs = u.regs → t.raises = u.raises → P t) : completes c s P := by
  have hw : s.writeReg .OUT_SYSREF o (s.sysrefWord o op) = (.ok, u) := by
    rw [writeReg_sysref s o _ ho hd, writeSysref_op s o op hm, hu]
  exact completes_of_accepted hx h (by decide) o.isLt rfl hw fun fl st => hP _ ⟨rfl, rfl⟩ rfl rfl rfl

/-- A command that writes OUT_SYSREF of an output that a guaranteed program owns is refused, and leaves the outputs alone. -/
theorem sysref_refused {c : Instr} {s : State} {o : Fin 32} {w : Word}
    (hx : exec c s = .next (s.portWrite (regAddr .OUT_SYSREF o) w)) (h : s.serves = true) (ho : s.outOwned o = true) :
    completes c s fun t => t.refusedWith .owned ∧ t.outs = s.outs :=
  completes_of_refused hx h (by decide) o.isLt rfl (writeReg_sysref_owned s o w ho) (by decide) (by decide)
    fun _ hrf hA _ => ⟨hrf, congrArg Anchorage.outs hA⟩

/-- Settles O28: each command by `completes_of_sysOp` and what its operation does, and by `sysref_refused` on an owned output. -/
theorem sysrefOperations : Obligations.SysrefOperations := by
  refine ⟨?_, ?_, ?_, ?_⟩
  · intro s o h ho hd hm hg hb hp
    have hu := sysOp_request (s.sysrefKept o) o (by simpa) (by simpa) (by simpa) (by simpa)
    refine completes_of_sysOp 0 rfl h ho hd hm hu fun t hw hout _ hraises => ⟨hw, hraises, ?_⟩
    rw [hout, State.out_modOut_self _ _ _ o.isLt, sysBurst_sysrefKept, State.sysBurst]
  · intro s o h ho hd hm hdrop hf
    have hu := sysOp_request_dropped (s.sysrefKept o) o (by simpa) (by simpa)
    obtain ⟨hkeep, hcount, hraise⟩ := sysDrop_facts (s.sysrefKept o) o hf
    refine completes_of_sysOp 0 rfl h ho hd hm hu fun t hw hout hregs hraises =>
      ⟨hw, congrArg Output.burst (hout.trans (hkeep o)), ?_, hraises ▸ hraise⟩
    rw [fld_of_reg (congrArg (·.get .OUT_EVCNT o) hregs), hcount, fld_sysrefKept_ne s o _ _ (by decide)]
  · intro s o h ho hd hm
    have hm' : (s.sysrefKept o).smode o ≠ 0 := by simpa
    constructor
    · obtain ⟨hper, hburst⟩ := sysOp_enable (s.sysrefKept o) o hm'
      rw [periodicFrom_sysrefKept] at hper
      exact completes_of_sysOp 1 rfl h ho hd hm rfl fun t hw hout _ _ =>
        ⟨hw, (congrArg Output.periodic hout).trans hper, (congrArg Output.burst hout).trans hburst⟩
    · obtain ⟨hper, hburst⟩ := sysOp_disable (s.sysrefKept o) o hm'
      exact completes_of_sysOp 2 rfl h ho hd hm rfl fun t hw hout _ _ =>
        ⟨hw, (congrArg Output.periodic hout).trans hper, fun hb => (congrArg Output.burst hout).trans (hburst hb)⟩
  · intro s o h ho
    exact ⟨sysref_refused rfl h ho, sysref_refused rfl h ho, sysref_refused rfl h ho⟩

end Sys2Proof.Machine

namespace Sys2Proof.Machine

/-! ## The profile store (R203, R204, R237 to R239) -/

/-- The words just stored are the slice from where they were stored. -/
theorem WMap.slice_setMany_self (m : WMap) (i : Nat) (l : List Word) : (m.setMany i l).slice i l.length = l :=
  List.ext_getElem (by simp [WMap.slice]) fun k _ hk => by simp [WMap.slice, WMap.get_setMany_self m i l k hk]

/-- A slice apart from the words stored is left alone. -/
theorem WMap.slice_setMany_other (m : WMap) (i : Nat) (l : List Word) (j n : Nat) (h : j + n ≤ i ∨ i + l.length ≤ j) :
    (m.setMany i l).slice j n = m.slice j n :=
  List.map_congr_left fun k hk => WMap.get_setMany_other m i l (j + k) (by have := List.mem_range.1 hk; omega)

theorem WMap.getD_slice (m : WMap) (i n k : Nat) (h : k < n) : (m.slice i n).getD k 0 = m.get (i + k) := by
  simp [WMap.slice, h]

theorem profWords_of_profs {s t : State} (h : t.profs = s.profs) (p : Nat) : t.profWords p = s.profWords p :=
  congrArg (·.slice (p * 8) 8) h

theorem shadowOf_of_shadows {s t : State} (h : t.shadows = s.shadows) (p : Nat) : t.shadowOf p = s.shadowOf p := by
  rw [State.shadowOf, State.shadowOf, h]

@[simp] theorem length_maskProfile (ws : List Word) : (maskProfile ws).length = 8 := by simp [maskProfile]

section
variable (s : State) (p : Nat) (ws : List Word)

/-- Beside the store itself, a change of a profile reaches only the slots of the stations. -/
theorem putProfile_keeps {α : Type} (g : State → α) (hg : ∀ u n k f, g (u.modSlot n k f) = g u) :
    g (s.putProfile p ws) =
      g (if s.fencedEntry 15 p then s else { s with profs := s.profs.setMany (p * 8) (maskProfile ws) }) := by
  unfold State.putProfile
  extract_lets stored
  rw [State.slots_keep stored g]
  intro u n k
  split
  · exact hg ..
  · rfl

@[simp] theorem putProfile_shadows : (s.putProfile p ws).shadows = s.shadows :=
  (putProfile_keeps s p ws State.shadows fun _ _ _ _ => rfl).trans (by split <;> rfl)

@[simp] theorem putProfile_raises : (s.putProfile p ws).raises = s.raises :=
  (putProfile_keeps s p ws State.raises fun _ _ _ _ => rfl).trans (by split <;> rfl)

theorem putProfile_profs (h : s.fencedEntry 15 p = false) :
    (s.putProfile p ws).profs = s.profs.setMany (p * 8) (maskProfile ws) := by
  rw [putProfile_keeps s p ws State.profs fun _ _ _ _ => rfl, h]
  rfl

/-- A profile that takes its words holds all of them (R241). -/
theorem profWords_putProfile_self (h : s.fencedEntry 15 p = false) : (s.putProfile p ws).profWords p = maskProfile ws := by
  rw [State.profWords, putProfile_profs s p ws h]
  exact (congrArg _ (length_maskProfile ws).symm).trans (WMap.slice_setMany_self ..)

theorem profWords_putProfile_other (h : s.fencedEntry 15 p = false) (q : Nat) (hq : q ≠ p) :
    (s.putProfile p ws).profWords q = s.profWords q := by
  rw [State.profWords, putProfile_profs s p ws h]
  exact WMap.slice_setMany_other _ _ _ _ _ (by rw [length_maskProfile]; omega)

/-! ### A host write of a profile (R203, R237) -/

theorem profWrite_invalid (hok : profileOk ws = false) : s.profWrite p ws = ((.range, s), 3) := by
  simp [State.profWrite, hok]

theorem profWrite_direct (hok : profileOk ws = true) (hsh : s.shadowOf p = none) (hr : s.referenced p = false) :
    s.profWrite p ws = ((.ok, s.putProfile p ws), 0) := by
  simp [State.profWrite, hok, hsh, hr]

/-- The first write of a profile that a hop in flight names waits as its shadow. -/
theorem profWrite_shadowed (hok : profileOk ws = true) (hsh : s.shadowOf p = none) (hr : s.referenced p = true)
    (hfree : s.shadows.length < 32) :
    s.profWrite p ws = ((.ok, { s with shadows := s.shadows ++ [(p, ws)] }), 1) := by
  simp [State.profWrite, hok, hsh, hr, hfree]

/-! ### PROF_CMD -/

theorem writeProfCmd_write : s.writeProfCmd (cmdBit 0) = s.profCmdWrite := by
  have h0 : bitOf (cmdBit 0) 0 = true := by decide
  have h1 : bitOf (cmdBit 0) 1 = false := by decide
  simp [State.writeProfCmd, h0, h1]

theorem writeProfCmd_read : s.writeProfCmd (cmdBit 1) = (.ok, (s.setFld Fields.PROF_STAT_RESULT 0 0).profCmdRead) := by
  have h0 : bitOf (cmdBit 1) 0 = false := by decide
  have h1 : bitOf (cmdBit 1) 1 = true := by decide
  simp [State.writeProfCmd, h0, h1]

@[simp] theorem profCmdRead_profs : s.profCmdRead.profs = s.profs := by
  unfold State.profCmdRead
  exact State.each_keeps State.profs _ (fun _ _ => State.setReg_profs ..) s _

/-- PROF_CMD.READ shows each word of the profile in force (R204). -/
theorem reg_profCmdRead (k : Fin 8) :
    s.profCmdRead.reg .PROF_DATA k = s.profs.get (s.fld Fields.PROF_ADDR_INDEX 0 * 8 + k) := by
  unfold State.profCmdRead
  extract_lets words
  rw [State.each_decides (fun u : State => u.reg .PROF_DATA k) k (words.getD k 0), if_pos (List.mem_range.2 k.isLt)]
  · exact WMap.getD_slice _ _ _ _ k.isLt
  · intro u n
    split
    · next h => rw [← h, State.reg_setReg_self]
    · next h => exact State.reg_setReg_other _ _ _ _ _ _ fun e => h e.2.symm

@[simp] theorem hspiError_profs (a code : Nat) : (s.hspiError a code).profs = s.profs := by
  unfold State.hspiError; split <;> rfl

@[simp] theorem hspiError_shadows (a code : Nat) : (s.hspiError a code).shadows = s.shadows := by
  unfold State.hspiError; split <;> rfl

/-! ### Shadows (R238) -/

/-- The state with no shadow of a profile pending. -/
def State.unshadowed : State := { s with shadows := s.shadows.filter fun x => x.1 != p }

theorem shadowOf_unshadowed : (s.unshadowed p).shadowOf p = none := by simp [State.shadowOf, State.unshadowed]

/-- A pending shadow of a profile that nothing refers to takes effect, and is counted and raised. -/
theorem shadowApply_takes (hsh : s.shadowOf p = some ws) (hr : s.referenced p = false) :
    s.shadowApply p = (((s.unshadowed p).putProfile p ws).raiseEvent Src.prof_SHADOW_APPLIED (BitVec.ofNat 32 p)).bump
      Fields.PROF_SHCNT_APPLIED 0 1 := by
  simp [State.shadowApply, hsh, hr, State.unshadowed]

theorem shadowApply_of_referenced (hr : s.referenced p = true) : s.shadowApply p = s := by
  unfold State.shadowApply
  split
  · exact if_pos hr
  · rfl

theorem shadowApply_facts (hsh : s.shadowOf p = some ws) (hr : s.referenced p = false) (hf : s.fencedEntry 15 p = false) :
    (s.shadowApply p).profWords p = maskProfile ws ∧ (s.shadowApply p).shadowOf p = none ∧
      ∃ r : Raise, (s.shadowApply p).raises = s.raises ++ [r] ∧ r.fid = Src.prof_SHADOW_APPLIED := by
  obtain ⟨r, hraise, hfid, _⟩ :=
    raiseEvent_of_not_fenced ((s.unshadowed p).putProfile p ws) Src.prof_SHADOW_APPLIED (BitVec.ofNat 32 p) rfl
  rw [shadowApply_takes s p ws hsh hr, hraise]
  refine ⟨(profWords_of_profs ?_ p).trans (profWords_putProfile_self (s.unshadowed p) p ws hf),
    (shadowOf_of_shadows ?_ p).trans (shadowOf_unshadowed s p), r, ?_, hfid⟩
  · simp only [State.bump_profs]
  · simp only [State.bump_shadows, putProfile_shadows]
  · simp only [State.bump_raises, putProfile_raises, State.unshadowed]

theorem noteSet_self : s.noteSet s = s := if_pos ⟨rfl, rfl, rfl⟩

end

/-- A write of PROF_CMD that its rule accepts leaves the profiles, shadows and registers that the rule leaves. -/
theorem completes_of_profCmd {c : Instr} {s u : State} {w : Word} {P : State → Prop}
    (hx : exec c s = .next (s.portWrite (regAddr .PROF_CMD 0) w)) (h : s.serves = true) (hw : s.writeProfCmd w = (.ok, u))
    (hP : ∀ t : State, s.wrote t → t.profs = u.profs → t.shadows = u.shadows → t.regs = u.regs → P t) : completes c s P :=
  completes_of_accepted hx h (by decide) (by decide) rfl hw fun _ _ => hP _ ⟨rfl, rfl⟩ rfl rfl rfl

/-- PROF_WRITE of a profile that its rule stores leaves the profiles and shadows that the rule leaves. -/
theorem completes_of_profWrite {s u : State} {res : Nat} {P : State → Prop} (h : s.serves = true)
    (hw : s.profWrite (s.fld Fields.PROF_ADDR_INDEX 0) s.profData = ((.ok, u), res))
    (hP : ∀ t : State, s.wrote t → t.profs = u.profs → t.shadows = u.shadows → P t) : completes .profWrite s P := by
  have hcmd : s.writeProfCmd (cmdBit 0) = (.ok, u.setFld Fields.PROF_STAT_RESULT 0 res) :=
    (writeProfCmd_write s).trans (by rw [State.profCmdWrite, hw])
  exact completes_of_profCmd rfl h hcmd fun t hwrote hprofs hshadows _ => hP t hwrote hprofs hshadows

/-- PROF_WRITE of an invalid profile is refused with RANGE, and stores nothing (R203). -/
theorem profWrite_refused {s : State} (h : s.serves = true) (hok : profileOk s.profData = false) :
    completes .profWrite s fun t => t.refusedWith .range ∧ t.profs = s.profs ∧ t.shadows = s.shadows := by
  have hw : s.writeReg .PROF_CMD 0 (cmdBit 0) = (.range, s.setFld Fields.PROF_STAT_RESULT 0 3) :=
    (writeProfCmd_write s).trans (by rw [State.profCmdWrite, profWrite_invalid _ _ _ hok])
  have ht := portWrite_refused s _ .PROF_CMD 0 _ .range h (placed_of_command _ _ (by decide) (by decide)) rfl hw
    (by decide) (by decide)
  exact ⟨_, rfl, by rw [ht]; exact ⟨⟨by simp [State.modHspi], hspiError_flag ..⟩, hspiError_profs .., hspiError_shadows ..⟩⟩

/-! ## Preparations (R208, R209, R211) -/

section
variable (s : State) (n : Fin 8) (k : Fin 3) (c : Fin 26)

theorem slotSt_modSlot_self (f : SlotSt → SlotSt) : (s.modSlot n k f).slotSt n k = f (s.slotSt n k) := by
  rw [State.slotSt, State.modSlot, State.stn_modStn_self _ _ _ n.isLt]
  simp [State.slotSt]

/-- A slot that a preparation may take holds a blocking core (R210). -/
theorem blocking_of_slotUsable (pl : Plan) (hc : s.slot n k = some c.val) (h : s.slotUsable n k pl = true) :
    (s.core c).role = .blocking := by
  simp only [State.slotUsable, State.slotFree, hc, Bool.and_eq_true, beq_iff_eq] at h
  obtain ⟨⟨⟨⟨hrole, _⟩, _⟩, _⟩, _⟩ := h
  exact hrole

@[simp] theorem calPause_core (g m : Nat) : (s.calPause g).core m = s.core m := by
  unfold State.calPause
  split
  · split <;> rfl
  · rfl

@[simp] theorem loadPsi_core (j : Nat) (cont : Bool) (m : Nat) : (s.loadPsi j cont).core m = s.core m := by
  unfold State.loadPsi
  split
  · rfl
  · exact congrArg (·[m]?.getD default) (recomputePsiOf_cores s j)

/-- What the preparation of a core for a coherent swap leaves (R209, R211). -/
def State.prepared (h : PHop) : State :=
  let ws := s.wordsFor n h.id h.prof
  let p := profileOf ws
  let loaded := (s.loadCore c p.setting p.sub p.band (profileTheta p.phase) (s.bandMode c)).loadPsi c false
  ((loaded.coreBoundary c).calPause c).modSlot n k fun x =>
    { x with prep := some ⟨h.id, h.prof, ws, none⟩, settled := none, holds := none }

theorem prepStart_prepares (h : PHop) (pl : Plan) (hrun : (s.stn n).running = true) (hm : s.stnMode n = 1)
    (hw : s.wanted n (s.stn n).path (s.planNow n) [] [] = some (h, pl)) (hu : s.slotUsable n k pl = true)
    (hc : s.slot n k = some c.val) (hco : (profileOf (s.wordsFor n h.id h.prof)).cont = false) :
    s.prepStart n k = s.prepared n k c h := by
  simp [State.prepStart, hrun, hm, hw, hu, hc, hco, State.prepared]

/-- A core being prepared has taken the setting and offset of the profile, and acquires. -/
theorem core_prepared (h : PHop) (hr : (s.core c).role ≠ .fenced) :
    ((s.prepared n k c h).core c).applied = (profileOf (s.wordsFor n h.id h.prof)).setting ∧
      ((s.prepared n k c h).core c).theta = profileTheta (profileOf (s.wordsFor n h.id h.prof)).phase ∧
      (((s.prepared n k c h).core c).state = .select ∨ ((s.prepared n k c h).core c).state = .acquire) := by
  unfold State.prepared
  extract_lets ws p loaded
  obtain ⟨hhold, hstate⟩ := loadCore_facts s c p.setting p.sub p.band (profileTheta p.phase) (s.bandMode c) hr
  rw [State.modSlot_at_core, calPause_core, State.coreBoundary, State.core_modCore_self _ _ _ c.isLt,
    show loaded.core c = _ from loadPsi_core ..]
  exact ⟨congrArg CoreHold.applied hhold, congrArg CoreHold.theta hhold, hstate⟩

theorem slotSt_prepared (h : PHop) :
    ((s.prepared n k c h).slotSt n k).prep = some ⟨h.id, h.prof, s.wordsFor n h.id h.prof, none⟩ ∧
      ((s.prepared n k c h).slotSt n k).settled = none := by
  rw [State.prepared, slotSt_modSlot_self]
  exact ⟨rfl, rfl⟩

/-- A prepared core that is LOCKED with its ungate hold over is settled (R208). -/
theorem prepSettled_settles (p : Prep) (l : Nat) (hc : s.slot n k = some c.val) (hp : (s.slotSt n k).prep = some p)
    (hl : (s.core c).lockAt = some l) (hst : (s.core c).state = .locked) (hs : (s.slotSt n k).settled = none)
    (hh : l + s.fld Fields.CORE_CFG_UGHOLD c * 64 ≤ s.elapsed) :
    s.prepSettled n k =
      (s.modSlot n k fun x => { x with settled := some s.elapsed }).modCore c fun x => { x with holdDone := true } := by
  simp [State.prepSettled, hc, hp, hl, hst, hs, hh]

theorem prepSettled_of_unprepared (hp : (s.slotSt n k).prep = none) : s.prepSettled n k = s := by
  cases hc : s.slot n k <;> simp [State.prepSettled, hp, hc]

end

/-- Settles O23: a host write by what PROF_CMD makes of it, a shadow by `shadowApply_facts`, and a preparation by
`core_prepared` and `prepSettled_settles`. -/
theorem profilesAndPreparations : Obligations.ProfilesAndPreparations := by
  refine ⟨?_, ?_, ?_, ?_, ?_, ?_, ?_, ?_, ?_⟩
  · intro s h hok hsh hr hf
    refine completes_of_profWrite h (profWrite_direct s _ _ hok hsh hr) fun t hw hprofs hshadows =>
      ⟨?_, hw, hshadows.trans (putProfile_shadows ..), fun p hp => ?_⟩
    · exact (profWords_of_profs hprofs _).trans (profWords_putProfile_self s _ _ hf)
    · exact (profWords_of_profs hprofs _).trans (profWords_putProfile_other s _ _ hf p hp)
  · intro s h hok hsh hr hfree
    exact completes_of_profWrite h (profWrite_shadowed s _ _ hok hsh hr hfree) fun t hw hprofs hshadows =>
      ⟨hprofs, hw, hshadows⟩
  · exact fun s h hok => profWrite_refused h hok
  · intro s h
    have hindex : (s.setFld Fields.PROF_STAT_RESULT 0 0).fld Fields.PROF_ADDR_INDEX 0 = s.fld Fields.PROF_ADDR_INDEX 0 :=
      fld_of_reg (reg_setFld_ne s _ _ _ _ _ (by decide))
    refine completes_of_profCmd rfl h (writeProfCmd_read s) fun t hw hprofs _ hregs =>
      ⟨hw, by rw [hprofs, profCmdRead_profs, State.setFld_profs], fun k => ?_⟩
    exact (congrArg (·.get .PROF_DATA k) hregs).trans ((reg_profCmdRead _ k).trans (by rw [hindex, State.setFld_profs]))
  · intro s p ws hsh hr hf
    obtain ⟨fl, hn⟩ := noteSet_form (s.shadowApply p) s
    exact ⟨_, rfl, hn ▸ shadowApply_facts s p ws hsh hr hf⟩
  · intro s p hr
    exact ⟨_, rfl, by rw [shadowApply_of_referenced s p hr, noteSet_self]⟩
  · intro s n k h pl c hrun hm hw hu hc hco
    have hrole : (s.core c).role ≠ .fenced := by rw [blocking_of_slotUsable s n k c pl hc hu]; decide
    obtain ⟨happlied, htheta, hstate⟩ := core_prepared s n k c h hrole
    obtain ⟨hprep, hsettled⟩ := slotSt_prepared s n k c h
    exact ⟨_, congrArg Host.Outcome.next (prepStart_prepares s n k c h pl hrun hm hw hu hc hco), happlied, htheta, hstate,
      hprep, hsettled⟩
  · intro s n k c p l hc hp hl hst hs hh
    refine ⟨_, congrArg Host.Outcome.next (prepSettled_settles s n k c p l hc hp hl hst hs hh), ?_, ?_, ?_⟩
    · rw [State.modCore_at_slotSt, slotSt_modSlot_self]
    · rw [State.modCore_at_slotSt, slotSt_modSlot_self, hp]
    · rw [State.core_modCore_self _ _ _ c.isLt]
  · exact fun s n k hp => ⟨_, rfl, prepSettled_of_unprepared s n k hp⟩

end Sys2Proof.Machine

namespace Sys2Proof.Machine

/-! ## The Quilvo word: decoding what was encoded (R255 to R257) -/

/-! ### Codes -/

@[simp] theorem Cond.ofCode_code (c : Cond) : Cond.ofCode c.code = some c := by cases c <;> rfl
@[simp] theorem TCond.ofCode_code (c : TCond) : TCond.ofCode c.code = some c := by cases c <;> rfl
@[simp] theorem LogFn.ofCode_code (f : LogFn) : LogFn.ofCode f.code = some f := by cases f <;> rfl
@[simp] theorem Hint.ofCode_code (h : Hint) : Hint.ofCode h.code = some h := by cases h <;> rfl
@[simp] theorem Slot.ofCode_code (sl : Slot) : Slot.ofCode sl.code = some sl := by cases sl <;> rfl
@[simp] theorem SysOp.ofCode_code (o : SysOp) : SysOp.ofCode o.code = some o := by cases o <;> rfl

/-- GD = 0b100 is the one pattern that no guard has (R256). -/
theorem Guard.ofBits_bits (g : Guard) (h : ¬(g.neg = true ∧ g.p = 0#2)) : Guard.ofBits g.bits = some g := by
  obtain ⟨neg, p⟩ := g
  revert neg p
  decide

/-! ### Fields

A field of a word put together by `++` is the part that stands at its place; the width of the whole has to stay a sum for the
lemmas on `++` to apply to it, so `Nat.reduceAdd` is left out. -/

theorem decodeR_fields (rd ra rb : BitVec 4) (mk : BitVec 4 → BitVec 4 → BitVec 4 → QOp) :
    decodeR (rd ++ ra ++ rb ++ 0#11) mk = some (mk rd ra rb) := by
  simp [decodeR, keepIf, fldBits, BitVec.extractLsb'_append_eq_ite, -Nat.reduceAdd]

theorem decodeI_fields (rd ra : BitVec 4) (imm : BitVec 15) (mk : BitVec 4 → BitVec 4 → BitVec 15 → QOp) :
    decodeI (rd ++ ra ++ imm) mk = some (mk rd ra imm) := by
  simp [decodeI, fldBits, BitVec.extractLsb'_append_eq_ite, -Nat.reduceAdd]

theorem decodeSh_fields (rd ra : BitVec 4) (sh : BitVec 5) (mk : BitVec 4 → BitVec 4 → BitVec 5 → QOp) :
    decodeSh (rd ++ ra ++ 0#10 ++ sh) mk = some (mk rd ra sh) := by
  simp [decodeSh, keepIf, fldBits, BitVec.extractLsb'_append_eq_ite, -Nat.reduceAdd]

theorem decodeProf_hopBits (tr : BitVec 2) (sl : Slot) (prof : ProfArg) : decodeProf (hopBits tr sl prof) = some prof := by
  cases prof <;>
    simp [decodeProf, hopBits, fldBits, fldBit, BitVec.extractLsb'_append_eq_ite, BitVec.getLsbD_append,
      -BitVec.getLsbD_eq_getElem, -Nat.reduceAdd]

theorem decodeHop_hopBits (tr : BitVec 2) (sl : Slot) (prof : ProfArg) (mk : BitVec 2 → Slot → ProfArg → QOp) :
    decodeHop (hopBits tr sl prof) mk = some (mk tr sl prof) := by
  have hsl : fldBits (hopBits tr sl prof) 19 2 = sl.code := by
    cases prof <;> simp [hopBits, fldBits, BitVec.extractLsb'_append_eq_ite, -Nat.reduceAdd]
  have htr : fldBits (hopBits tr sl prof) 21 2 = tr := by
    cases prof <;> simp [hopBits, fldBits, BitVec.extractLsb'_append_eq_ite, -Nat.reduceAdd]
  simp only [decodeHop, hsl, htr, Slot.ofCode_code, decodeProf_hopBits]

theorem decodeOp_ldlc (lc : BitVec 1) (arg : CountArg) : decodeOp 0x2C (QOp.ldlc lc arg).fields = some (.ldlc lc arg) := by
  cases arg <;>
    simp [decodeOp, QOp.fields, keepIf, fldBits, fldBit, BitVec.extractLsb'_append_eq_ite, BitVec.getLsbD_append,
      -BitVec.getLsbD_eq_getElem, -Nat.reduceAdd]

/-- An operation whose fields hold no reserved value comes back from its opcode and its fields. -/
theorem decodeOp_fields (op : QOp) (h : op.wf = true) : decodeOp op.opcode op.fields = some op := by
  cases op
  case add | sub | and | or | xor | shl | shr => exact decodeR_fields ..
  case addi | andi | ori | xori => exact decodeI_fields ..
  case shli | shri => exact decodeSh_fields ..
  case swap | cold | glide => exact decodeHop_hopBits ..
  case ldlc => exact decodeOp_ldlc ..
  all_goals
    simp only [QOp.wf, bne_iff_ne, ne_eq] at h
    simp [decodeOp, QOp.opcode, QOp.fields, keepIf, fldBits, fldBit, BitVec.extractLsb'_append_eq_ite, BitVec.getLsbD_append,
      h, -BitVec.getLsbD_eq_getElem, -Nat.reduceAdd]

/-- Settles O15: the guard by `Guard.ofBits_bits`, the operation and its operands by `decodeOp_fields`. -/
theorem quilvoDecodeOfEncode : Obligations.QuilvoDecodeOfEncode := by
  intro i h
  simp only [QInstr.wf, Bool.and_eq_true, Bool.not_eq_true', Bool.and_eq_false_iff, beq_eq_false_iff_ne] at h
  obtain ⟨hg, hop⟩ := h
  have hguard : i.encode.extractLsb' 23 3 = i.guard.bits := by
    simp [QInstr.encode, BitVec.extractLsb'_append_eq_ite, -Nat.reduceAdd]
  have hcode : i.encode.extractLsb' 26 6 = i.op.opcode := by
    simp [QInstr.encode, BitVec.extractLsb'_append_eq_ite, -Nat.reduceAdd]
  have hfields : i.encode.extractLsb' 0 23 = i.op.fields := by
    simp [QInstr.encode, BitVec.extractLsb'_append_eq_ite, -Nat.reduceAdd]
  have hbits := Guard.ofBits_bits i.guard fun ⟨hn, hp⟩ => by simp [hn, hp] at hg
  simp only [decodeQ, hguard, hcode, hfields, hbits, decodeOp_fields i.op hop]
end Sys2Proof.Machine

namespace Sys2Proof.Machine

/-! ## One instruction on a path (spec/06, R247 to R263)

An instruction whose guard holds, that waits for nothing and raises no exception, enters the window with `QInstr.entry` and
leaves the registers `QInstr.after`. -/

/-! ### Registers -/

section Registers
variable (r : QRegs)

theorem gv_setG_self (i : BitVec 4) (x : Tracked Word) : (r.setG i x).gv i = if i = 0 then .known 0 none else x := by
  by_cases h : i = 0
  · simp [QRegs.gv, h]
  · simp [QRegs.gv, QRegs.setG, show ¬i = 0#4 from h, i.isLt]

theorem gv_val_setG (i : BitVec 4) (v : Word) (d : Option Nat) :
    ((r.setG i (.known v d)).gv i).val = if i = 0 then 0 else v := by
  rw [gv_setG_self]
  split <;> rfl

theorem gv_setG_ne {i j : BitVec 4} (x : Tracked Word) (h : j ≠ i) : (r.setG i x).gv j = r.gv j := by
  have hij : ¬i.toNat = j.toNat := fun e => h (BitVec.eq_of_toNat_eq e.symm)
  by_cases hi : i = 0
  · simp [QRegs.setG, hi]
  · simp [QRegs.gv, QRegs.setG, show ¬i = 0#4 from hi, hij]

theorem pv_setP_self (i : BitVec 2) (x : Tracked Bool) : (r.setP i x).pv i = if i = 0 then .known true none else x := by
  by_cases h : i = 0
  · simp [QRegs.pv, h]
  · simp [QRegs.pv, QRegs.setP, show ¬i = 0#2 from h, i.isLt]

theorem pv_val_setP (i : BitVec 2) (v : Bool) (d : Option Nat) :
    ((r.setP i (.known v d)).pv i).val = if i = 0 then true else v := by
  rw [pv_setP_self]
  split <;> rfl

theorem pv_setP_ne {i j : BitVec 2} (x : Tracked Bool) (h : j ≠ i) : (r.setP i x).pv j = r.pv j := by
  have hij : ¬i.toNat = j.toNat := fun e => h (BitVec.eq_of_toNat_eq e.symm)
  by_cases hi : i = 0
  · simp [QRegs.setP, hi]
  · simp [QRegs.pv, QRegs.setP, show ¬i = 0#2 from hi, hij]

theorem tv_setT_self (i : BitVec 2) (x : Tracked Count) : (r.setT i x).tv i = x := by
  simp [QRegs.tv, QRegs.setT, i.isLt]

theorem tv_setT_ne {i j : BitVec 2} (x : Tracked Count) (h : j ≠ i) : (r.setT i x).tv j = r.tv j := by
  have hij : ¬i.toNat = j.toNat := fun e => h (BitVec.eq_of_toNat_eq e.symm)
  simp [QRegs.tv, QRegs.setT, hij]

theorem lcv_setLc_self (i : BitVec 1) (x : Tracked (BitVec 16)) : (r.setLc i x).lcv i = x := by
  simp [QRegs.lcv, QRegs.setLc, i.isLt]

/-- Writing a g register leaves every other file of registers. -/
theorem setG_frame (i : BitVec 4) (x : Tracked Word) : r.setG i x = { r with g := (r.setG i x).g } := by
  unfold QRegs.setG; split <;> rfl

/-- Writing a predicate leaves every other file of registers. -/
theorem setP_frame (i : BitVec 2) (x : Tracked Bool) : r.setP i x = { r with p := (r.setP i x).p } := by
  unfold QRegs.setP; split <;> rfl

end Registers

/-! ### The entry and the registers of an execution -/

/-- The tick that the t register of an effect holds. -/
def QOp.namedTick (op : QOp) (r : QRegs) : Tracked Count :=
  match op.tickReg with
  | some tr => r.tv tr
  | none => .known 0 none

/-- The decision tick of a known guard. -/
def QInstr.guardDec (i : QInstr) (r : QRegs) : Option Nat := if i.guard.p = 0 then none else (r.pv i.guard.p).dec

/-- The entry of an instruction that executes without an exception. -/
def QInstr.entry (i : QInstr) (id : Nat) (r : QRegs) : Exec :=
  ⟨id, r.pc, i, none, false, 0, i.op.prof?.map fun p => p.index r, i.op.namedTick r, i.op.ask r⟩

/-- The registers after an instruction that executes without an exception and goes on to `pc`. -/
def QInstr.after (i : QInstr) (id : Nat) (r : QRegs) (pc : BitVec 14) : QRegs :=
  { i.op.apply id (latest r.path (i.guardDec r)) r with pc := pc, path := i.op.pathTick true (i.guardDec r) r }

theorem QInstr.execute_done {i : QInstr} {id : Nat} {ganged : Bool} {empty : Slot → Bool} {r : QRegs} {pc : BitVec 14}
    (hslot : i.op.slotIllegal ganged = false) (hbase : (r.pv i.guard.p).base = none)
    (hguard : i.guard.passes (r.pv i.guard.p).val = true) (hwaits : i.op.waits r = false)
    (hexc : i.op.exception ganged empty r = 0) (hpc : i.op.nextPc true r = some pc) :
    i.execute id ganged empty r = .done (i.entry id r) (i.after id r pc) := by
  simp only [QInstr.execute, hslot, hbase, hguard, hwaits, hexc, hpc, QInstr.advance, Option.isNone_some, Bool.not_true,
    Bool.false_eq_true, if_false, ne_eq, not_true_eq_false]
  obtain ⟨gd, op⟩ := i
  cases op <;> rfl

/-- An instruction whose guard is known false goes on to the next one and leaves the registers (R256). -/
theorem QInstr.execute_off {i : QInstr} {id : Nat} {ganged : Bool} {empty : Slot → Bool} {r : QRegs} {pc : BitVec 14}
    (hslot : i.op.slotIllegal ganged = false) (hbase : (r.pv i.guard.p).base = none)
    (hguard : i.guard.passes (r.pv i.guard.p).val = false) (hpc : i.op.nextPc false r = some pc) :
    ∃ path, i.execute id ganged empty r =
      .done ⟨id, r.pc, i, none, true, 0, none, .known 0 none, none⟩ { r with pc := pc, path := path } := by
  exact ⟨i.op.pathTick false (i.guardDec r) r,
    by simp [QInstr.execute, hslot, hbase, hguard, hpc, QInstr.advance, QInstr.guardDec]⟩

/-! ### One instruction of a station's thread -/

theorem rebind_thread (t : Station) (e : Exec) : (t.rebind e).thread = t.thread := by
  unfold Station.rebind; split
  · split <;> rfl
  · rfl

theorem rebind_queue (t : Station) (e : Exec) : (t.rebind e).queue = t.queue := by
  unfold Station.rebind; split
  · split <;> rfl
  · rfl

@[simp] theorem setStn_setStn (s : State) (n : Nat) (x y : Station) : (s.setStn n x).setStn n y = s.setStn n y := by
  simp [State.setStn]

theorem onlyStation_setStn (s : State) (n : Fin 8) (x : Station) : s.onlyStation (s.setStn n x) n := by
  simp [State.onlyStation]

theorem onlyStation_refl (s : State) (n : Fin 8) : s.onlyStation s n := by
  have h : s.stations.setIfInBounds n (s.stn n) = s.stations :=
    Vector.ext fun i hi => by simp +contextual [Vector.getElem_setIfInBounds, State.stn]
  simp only [State.onlyStation, State.setStn, h]

/-- The followed path of station `n` has executed an instruction: its entry stands last in the window and its registers are
`r`. -/
structure State.Executed (s t : State) (n : Nat) (e : Exec) (r : QRegs) : Prop where
  insts : (t.stn n).thread.insts = (s.stn n).thread.insts ++ [e]
  regs : (t.stn n).thread.regs = r
  queue : (t.stn n).queue = (s.stn n).queue
  only : s.onlyStation t n

section Followed
variable {s : State} {n : Fin 8} {i : QInstr} {c : Instr}

/-- A station whose instruction at the pc executes takes its entry and its registers (R284). -/
theorem executed_of_done {e : Exec} {r : QRegs} (hmay : (s.stn n).mayExecute = true) (hwin : (s.stn n).thread.inWindow < 64)
    (hhops : i.op.isHop = true → (s.stn n).openHops < 3)
    (hdec : decodeQ (s.pgmWord n (s.stn n).thread.regs.pc) = some i) (hrefill : s.refilling n (s.stn n).thread.regs.pc = false)
    (hx : i.execute (s.stn n).thread.nextId (s.stnMode n == 1) (s.slotEmpty n) (s.stn n).thread.regs = .done e r) :
    s.Executed (s.runInstr n 0 i.op.opcode) n e r := by
  have hgoes : ∀ off : Bool, (!(s.stn n).mayExecute || decide (64 ≤ (s.stn n).thread.inWindow)
      || (i.op.isHop && !off && decide (3 ≤ (s.stn n).openHops))) = false := by
    intro off
    cases hh : i.op.isHop
    · simp [hmay, hwin]
    · simp [hmay, hwin, hhops hh]
  have hrun : s.runInstr n 0 i.op.opcode = s.setStn n (({ s.stn n with thread :=
      { (s.stn n).thread with insts := (s.stn n).thread.insts ++ [e], regs := r
                              nextId := (s.stn n).thread.nextId + 1 } } : Station).rebind e) := by
    simp only [State.runInstr, hdec, hrefill, State.stepFollowed, hgoes, hx, if_true, Bool.false_eq_true, if_false]
  rw [hrun]
  exact ⟨by simp [rebind_thread], by simp [rebind_thread], by simp [rebind_queue], onlyStation_setStn ..⟩

/-- What an instruction that has nothing to wait for does (R256, R283, R284). -/
theorem executed_of_mayRun {pc : BitVec 14} (h : s.mayRun n i) (hpc : i.op.nextPc true (s.stn n).thread.regs = some pc) :
    s.Executed (s.runInstr n 0 i.op.opcode) n (i.entry (s.stn n).thread.nextId (s.stn n).thread.regs)
      (i.after (s.stn n).thread.nextId (s.stn n).thread.regs pc) := by
  obtain ⟨hmay, hwin, hhops, hdec, hrefill, hslot, hbase, hguard, hwaits, hexc, -⟩ := h
  exact executed_of_done hmay hwin hhops hdec hrefill (QInstr.execute_done hslot hbase hguard hwaits hexc hpc)

/-- Where an instruction goes that raises END at the last index (R261). -/
def QRegs.unlessLast (r : QRegs) (pc : BitVec 14) : Option (BitVec 14) := if r.pc = lastPc then none else some pc

/-- The next index, for an instruction that does not branch. -/
def QRegs.seqPc (r : QRegs) : Option (BitVec 14) := r.unlessLast (r.pc + 1)

/-- An instruction that may run raises no END. -/
theorem nextPc_of_mayRun {pc : BitVec 14} (h : s.mayRun n i)
    (hpc : i.op.nextPc true (s.stn n).thread.regs = (s.stn n).thread.regs.unlessLast pc) :
    i.op.nextPc true (s.stn n).thread.regs = some pc := by
  obtain ⟨-, -, -, -, -, -, -, -, -, -, hsome⟩ := h
  rw [hpc] at hsome ⊢
  unfold QRegs.unlessLast at hsome ⊢
  split
  · next hlast => simp [hlast] at hsome
  · rfl

theorem executed_seq (h : s.mayRun n i) (hseq : i.op.nextPc true (s.stn n).thread.regs = (s.stn n).thread.regs.seqPc) :
    s.Executed (s.runInstr n 0 i.op.opcode) n (i.entry (s.stn n).thread.nextId (s.stn n).thread.regs)
      (i.after (s.stn n).thread.nextId (s.stn n).thread.regs ((s.stn n).thread.regs.pc + 1)) :=
  executed_of_mayRun h (nextPc_of_mayRun h hseq)

/-- What an operation makes of the registers of the followed path, but for pc and the path tick. -/
def State.applied (s : State) (n : Nat) (i : QInstr) : QRegs :=
  let th := (s.stn n).thread
  i.op.apply th.nextId (latest th.regs.path (i.guardDec th.regs)) th.regs

/-- What the registers of an executed instruction are, but for pc and the path tick. -/
theorem regs_of_executed (h : s.mayRun n i) (hseq : i.op.nextPc true (s.stn n).thread.regs = (s.stn n).thread.regs.seqPc) :
    ∃ path, ((s.runInstr n 0 i.op.opcode).stn n).thread.regs =
      { s.applied n i with pc := (s.stn n).thread.regs.pc + 1, path := path } :=
  ⟨_, (executed_seq h hseq).regs⟩

theorem completes_wroteG {rd : BitVec 4} {v w : Word} (h : s.mayRun n i)
    (hx : exec c s = .next (s.runInstr n 0 i.op.opcode))
    (hseq : i.op.nextPc true (s.stn n).thread.regs = (s.stn n).thread.regs.seqPc)
    (happ : ∃ d, s.applied n i = (s.stn n).thread.regs.setG rd (.known v d)) (hv : v = w) :
    completes c s fun t => s.wroteG t n rd w := by
  obtain ⟨path, hregs⟩ := regs_of_executed h hseq
  obtain ⟨d, happ⟩ := happ
  refine ⟨_, hx, ?_⟩
  simp only [State.wroteG, hregs, happ, hv]
  refine ⟨gv_val_setG .., fun j hj => gv_setG_ne _ _ hj, ?_, ?_, ?_, ?_, trivial, (executed_seq h hseq).only⟩
  all_goals rw [setG_frame]

theorem completes_wroteP {pd : BitVec 2} {v w : Bool} (h : s.mayRun n i)
    (hx : exec c s = .next (s.runInstr n 0 i.op.opcode))
    (hseq : i.op.nextPc true (s.stn n).thread.regs = (s.stn n).thread.regs.seqPc)
    (happ : ∃ d, s.applied n i = (s.stn n).thread.regs.setP pd (.known v d)) (hv : v = w) :
    completes c s fun t => s.wroteP t n pd w := by
  obtain ⟨path, hregs⟩ := regs_of_executed h hseq
  obtain ⟨d, happ⟩ := happ
  refine ⟨_, hx, ?_⟩
  simp only [State.wroteP, hregs, happ, hv]
  refine ⟨pv_val_setP .., fun j hj => pv_setP_ne _ _ hj, ?_, ?_, ?_, ?_, trivial, (executed_seq h hseq).only⟩
  all_goals rw [setP_frame]

theorem completes_wroteT {td : BitVec 2} {v w : Count} (h : s.mayRun n i)
    (hx : exec c s = .next (s.runInstr n 0 i.op.opcode))
    (hseq : i.op.nextPc true (s.stn n).thread.regs = (s.stn n).thread.regs.seqPc)
    (happ : ∃ d b, s.applied n i = (s.stn n).thread.regs.setT td ⟨v, d, b⟩) (hv : v = w) :
    completes c s fun t => s.wroteT t n td w := by
  obtain ⟨path, hregs⟩ := regs_of_executed h hseq
  obtain ⟨d, b, happ⟩ := happ
  refine ⟨_, hx, ?_⟩
  simp only [State.wroteT, hregs, happ, hv]
  exact ⟨congrArg Tracked.val (tv_setT_self _ _ _), fun j hj => tv_setT_ne _ _ hj, rfl, rfl, rfl, rfl, trivial,
    (executed_seq h hseq).only⟩

end Followed

/-- Settles O16: each instruction goes on to the next index and writes rd by `completes_wroteG`. -/
theorem quilvoArithmetic : Obligations.QuilvoArithmetic := by
  intro s n gd rd ra rb
  have hshift : ∀ b : Word, b.toNat % 32 = (b.extractLsb' 0 5).toNat := fun b => by simp [BitVec.extractLsb'_toNat]
  refine ⟨⟨?_, ?_, ?_, ?_, ?_, ?_, ?_⟩, fun imm => ⟨?_, ?_, ?_, ?_⟩, fun sh => ⟨?_, ?_⟩, fun imm => ⟨?_, ?_⟩⟩ <;> intro h
  · exact completes_wroteG h rfl rfl ⟨_, rfl⟩ rfl
  · exact completes_wroteG h rfl rfl ⟨_, rfl⟩ rfl
  · exact completes_wroteG h rfl rfl ⟨_, rfl⟩ rfl
  · exact completes_wroteG h rfl rfl ⟨_, rfl⟩ rfl
  · exact completes_wroteG h rfl rfl ⟨_, rfl⟩ rfl
  · exact completes_wroteG h rfl rfl ⟨_, rfl⟩ (by simp only [hshift])
  · exact completes_wroteG h rfl rfl ⟨_, rfl⟩ (by simp only [hshift])
  · exact completes_wroteG h rfl rfl ⟨_, rfl⟩ rfl
  · exact completes_wroteG h rfl rfl ⟨_, rfl⟩ (congrArg _ (BitVec.setWidth_eq_append (by decide)))
  · exact completes_wroteG h rfl rfl ⟨_, rfl⟩ (congrArg _ (BitVec.setWidth_eq_append (by decide)))
  · exact completes_wroteG h rfl rfl ⟨_, rfl⟩ (congrArg _ (BitVec.setWidth_eq_append (by decide)))
  · exact completes_wroteG h rfl rfl ⟨_, rfl⟩ rfl
  · exact completes_wroteG h rfl rfl ⟨_, rfl⟩ rfl
  · exact completes_wroteG h rfl rfl ⟨_, rfl⟩ (BitVec.setWidth_eq_append (by decide))
  · exact completes_wroteG h rfl rfl ⟨_, rfl⟩ rfl


/-! ### Compares -/

theorem not_slt (a b : Word) : (!a.slt b) = decide (b.toInt ≤ a.toInt) := by
  simp [BitVec.slt, ← decide_not]

theorem not_ult {k : Nat} (a b : BitVec k) : (!a.ult b) = decide (b.toNat ≤ a.toNat) := by
  simp [BitVec.ult, ← decide_not]

/-- CMPI compares with the value of its immediate, which sign extension keeps (Table 6.6). -/
theorem holds_signExtend (cc : Cond) (a : Word) (imm : BitVec 14) : cc.holds a (imm.signExtend 32) = (match cc with
    | .eq => decide (a.toInt = imm.toInt)
    | .ne => decide (a.toInt ≠ imm.toInt)
    | .lt => decide (a.toInt < imm.toInt)
    | .ge => decide (imm.toInt ≤ a.toInt)
    | .ltu => decide (a.toNat < (imm.signExtend 32).toNat)
    | .geu => decide ((imm.signExtend 32).toNat ≤ a.toNat)) := by
  have hs : (imm.signExtend 32).toInt = imm.toInt := BitVec.toInt_signExtend_of_le (by decide)
  cases cc
  case eq => simp only [Cond.holds, ← hs, BitVec.toInt_inj]; rfl
  case ne => simp only [Cond.holds, ← hs, ne_eq, BitVec.toInt_inj, decide_not]; rfl
  case lt => simp only [Cond.holds, BitVec.slt, hs]
  case ge => simp only [Cond.holds, not_slt, hs]
  case ltu => rfl
  case geu => exact not_ult ..

/-- Settles O17: each instruction goes on to the next index and writes its predicate, tick or general register by
`completes_wroteP`, `completes_wroteT` and `completes_wroteG`. -/
theorem quilvoPredicatesAndTicks : Obligations.QuilvoPredicatesAndTicks := by
  intro s n gd rd ra rb p x y
  dsimp only
  refine ⟨fun cc h => ?_, fun cc imm h => ?_, fun na nb fn h => ?_, fun imm h => ?_, fun sh h => ?_, fun h => ?_, fun h => ?_,
    fun h => ?_, fun cc h => ?_⟩
  · refine completes_wroteP h rfl rfl ⟨_, rfl⟩ ?_
    cases cc
    case ge => exact not_slt ..
    case geu => exact not_ult ..
    all_goals rfl
  · exact completes_wroteP h rfl rfl ⟨_, rfl⟩ (holds_signExtend ..)
  · refine completes_wroteP h rfl rfl ⟨_, rfl⟩ ?_
    cases fn <;> simp [LogFn.eval]
  · exact completes_wroteT h rfl rfl ⟨_, _, rfl⟩ (by rw [BitVec.ofNat_toNat])
  · refine completes_wroteT h rfl rfl ⟨_, _, rfl⟩ (congrArg _ (BitVec.eq_of_toNat_eq ?_))
    simp [Nat.shiftLeft_eq]
  · refine completes_wroteT h rfl rfl ⟨_, _, rfl⟩ (BitVec.eq_of_toNat_eq ?_)
    have hlo := ((s.stn n).thread.regs.gv ra).val.isLt
    have hhi := ((s.stn n).thread.regs.gv rb).val.isLt
    rw [BitVec.toNat_append, ← Nat.shiftLeft_add_eq_or_of_lt hlo, Nat.shiftLeft_eq, BitVec.toNat_ofNat]
    omega
  · exact completes_wroteG h rfl rfl ⟨_, rfl⟩ rfl
  · exact completes_wroteG h rfl rfl ⟨_, rfl⟩ rfl
  · refine completes_wroteP h rfl rfl ⟨_, rfl⟩ ?_
    cases cc
    case geu => exact not_ult ..
    all_goals rfl

/-! ### Flow -/

section Flow
variable {s : State} {n : Fin 8} {i : QInstr} {c : Instr} {P : QRegs → Prop} {pc : BitVec 14}

/-- An instruction that goes to `pc` and leaves the general, tick and predicate registers; what it leaves of the others is
read off its registers. -/
theorem completes_wentTo (h : s.mayRun n i) (hx : exec c s = .next (s.runInstr n 0 i.op.opcode))
    (hpc : i.op.nextPc true (s.stn n).thread.regs = some pc) (hg : (s.applied n i).g = (s.stn n).thread.regs.g)
    (ht : (s.applied n i).t = (s.stn n).thread.regs.t) (hp : (s.applied n i).p = (s.stn n).thread.regs.p)
    (hP : ∀ path, P { s.applied n i with pc := pc, path := path }) :
    completes c s fun t => s.wentTo t n pc ∧ P (t.stn n).thread.regs := by
  obtain ⟨-, hregs, -, honly⟩ := executed_of_mayRun h hpc
  refine ⟨_, hx, ?_, ?_⟩
  · simp only [State.wentTo, hregs]
    exact ⟨rfl, hg, ht, hp, honly⟩
  · rw [hregs]
    exact hP _

/-- LOOP counts down, and stops at 0 (Table 6.9). -/
theorem lcv_loop (r : QRegs) (id : Nat) (d : Option Nat) (lc : BitVec 1) (tgt : BitVec 14) :
    (((QOp.loop lc tgt).apply id d r).lcv lc).val = if (r.lcv lc).val = 0 then 0 else (r.lcv lc).val - 1 := by
  simp only [QOp.apply]
  split
  · next h => exact h
  · rw [lcv_setLc_self]; rfl

theorem loop_frame (r : QRegs) (id : Nat) (d : Option Nat) (lc : BitVec 1) (tgt : BitVec 14) :
    (QOp.loop lc tgt).apply id d r = { r with lc := ((QOp.loop lc tgt).apply id d r).lc } := by
  simp only [QOp.apply]
  split <;> rfl

/-- A guarded instruction whose guard fails only goes on (R256). -/
theorem completes_guard_fails (hmay : (s.stn n).mayExecute = true) (hwin : (s.stn n).thread.inWindow < 64)
    (hhop : i.op.isHop = false) (hslot : i.op.slot? = none) (hx : exec c s = .next (s.runInstr n 0 i.op.opcode))
    (hdec : decodeQ (s.pgmWord n (s.stn n).thread.regs.pc) = some i)
    (hbase : ((s.stn n).thread.regs.pv i.guard.p).base = none)
    (hguard : i.guard.passes ((s.stn n).thread.regs.pv i.guard.p).val = false) (hlast : (s.stn n).thread.regs.pc ≠ lastPc)
    (hrefill : s.refilling n (s.stn n).thread.regs.pc = false) :
    completes c s fun t => s.wentTo t n ((s.stn n).thread.regs.pc + 1) ∧
      (t.stn n).thread.regs.lk = (s.stn n).thread.regs.lk := by
  have hpc : i.op.nextPc false (s.stn n).thread.regs = some ((s.stn n).thread.regs.pc + 1) :=
    if_neg hlast
  have hlegal : i.op.slotIllegal (s.stnMode n == 1) = false := by simp [QOp.slotIllegal, hslot]
  obtain ⟨path, hdone⟩ := QInstr.execute_off (id := (s.stn n).thread.nextId) (empty := s.slotEmpty n) hlegal hbase hguard hpc
  obtain ⟨-, hregs, -, honly⟩ := executed_of_done hmay hwin (by simp [hhop]) hdec hrefill hdone
  refine ⟨_, hx, ?_, by rw [hregs]⟩
  simp only [State.wentTo, hregs]
  exact ⟨trivial, trivial, trivial, trivial, honly⟩

end Flow

/-- Settles O18: where each instruction goes and what it leaves by `completes_wentTo`, a failed guard by
`completes_guard_fails`. -/
theorem quilvoFlow : Obligations.QuilvoFlow := by
  intro s n gd ra lc tgt
  dsimp only
  refine ⟨fun h => ?_, fun hint h => ?_, fun h => ?_, fun h => ?_, fun h hle => ?_, fun h hlt => ?_, fun k h => ?_, fun h => ?_,
    fun h => ?_, fun h => ?_, fun rd rb hmay hwin hdec hbase hguard hlast hrefill => ?_⟩
  · exact completes_wentTo (P := fun r => r.lk = _) h rfl (nextPc_of_mayRun h rfl) rfl rfl rfl fun _ => rfl
  · exact completes_wentTo (P := fun r => r.lk = _) h rfl rfl rfl rfl rfl fun _ => rfl
  · exact completes_wentTo (P := fun r => r.lk.val = _) h rfl (nextPc_of_mayRun h rfl) rfl rfl rfl fun _ => rfl
  · exact completes_wentTo (P := fun r => r.lk = _) h rfl rfl rfl rfl rfl fun _ => rfl
  · have hends : ((s.stn n).thread.regs.lcv lc).val = 0 ∨ ((s.stn n).thread.regs.lcv lc).val = 1 := by bv_omega
    refine completes_wentTo (P := fun r => (r.lcv lc).val = 0) h rfl (nextPc_of_mayRun h (if_pos hends)) ?_ ?_ ?_ fun _ => ?_
    · simp only [State.applied]; rw [loop_frame]
    · simp only [State.applied]; rw [loop_frame]
    · simp only [State.applied]; rw [loop_frame]
    · refine (lcv_loop ..).trans ?_
      rcases hends with h0 | h1
      · rw [if_pos h0]
      · simp [h1]
  · have hgoes : ¬(((s.stn n).thread.regs.lcv lc).val = 0 ∨ ((s.stn n).thread.regs.lcv lc).val = 1) := by bv_omega
    refine completes_wentTo (P := fun r => (r.lcv lc).val = _) h rfl (if_neg hgoes) ?_ ?_ ?_ fun _ => ?_
    · simp only [State.applied]; rw [loop_frame]
    · simp only [State.applied]; rw [loop_frame]
    · simp only [State.applied]; rw [loop_frame]
    · exact (lcv_loop ..).trans (if_neg fun h0 => hgoes (.inl h0))
  · exact completes_wentTo (P := fun r => (r.lcv lc).val = _) h rfl (nextPc_of_mayRun h rfl) rfl rfl rfl fun _ =>
      congrArg Tracked.val (lcv_setLc_self ..)
  · refine completes_wentTo (P := fun r => (r.lcv lc).val = _) h rfl (nextPc_of_mayRun h rfl) rfl rfl rfl fun _ =>
      (congrArg Tracked.val (lcv_setLc_self ..)).trans ?_
    exact BitVec.setWidth_eq_extractLsb' (v := 32) (w := 16) (by decide)
  · refine completes_wentTo (P := fun r => r.lk.val = _) h rfl (nextPc_of_mayRun h rfl) rfl rfl rfl fun _ => ?_
    exact BitVec.setWidth_eq_extractLsb' (v := 32) (w := 14) (by decide)
  · exact completes_wroteG h rfl rfl ⟨_, rfl⟩ (BitVec.setWidth_eq_append (by decide))
  · exact completes_guard_fails hmay hwin rfl rfl rfl hdec hbase hguard hlast hrefill

/-! ### Effects -/

section Effects
variable {s : State} {n : Fin 8} {i : QInstr} {c : Instr} {pc : BitVec 14}

/-- An effect instruction that goes to `pc`: it computes nothing, and its entry holds the tick of its t register. -/
theorem completes_named {tr : BitVec 2} (h : s.mayRun n i) (hx : exec c s = .next (s.runInstr n 0 i.op.opcode))
    (hpc : i.op.nextPc true (s.stn n).thread.regs = some pc) (htick : i.op.tickReg = some tr)
    (happ : s.applied n i = (s.stn n).thread.regs)
    (hpath : ∀ gd, i.op.pathTick true gd (s.stn n).thread.regs = (s.stn n).thread.regs.path) :
    completes c s fun t => s.named t n i tr pc := by
  obtain ⟨hinsts, hregs, hqueue, honly⟩ := executed_of_mayRun h hpc
  refine ⟨_, hx, ⟨_, hinsts, rfl, rfl, rfl, ?_, rfl⟩, ?_, hqueue, honly⟩
  · simp only [QInstr.entry, QOp.namedTick, htick]
  · rw [hregs, QInstr.after, hpath]
    simp only [State.applied] at happ
    rw [happ]

end Effects

/-- Settles O19: SWAP by its entry, every other effect by `completes_named`; HALT keeps pc, the others go on. -/
theorem quilvoEffectsAreNamed : Obligations.QuilvoEffectsAreNamed := by
  intro s n gd tr tc ra rb sl pr
  refine ⟨fun h => ?_, fun h => ?_, fun h => ?_, fun u h => ?_, fun d h => ?_, fun h => ?_, fun o h => ?_, fun m v h => ?_,
    fun sl0 h => ?_, fun h => ?_, fun h => ?_, fun w h => ?_⟩
  · obtain ⟨hinsts, -, -, honly⟩ := executed_seq h rfl
    exact ⟨_, rfl, ⟨_, hinsts, rfl, rfl, rfl, rfl, rfl⟩, honly⟩
  case refine_11 => exact completes_named h rfl rfl rfl rfl fun _ => rfl
  all_goals exact completes_named h rfl (nextPc_of_mayRun h rfl) rfl rfl fun _ => rfl

end Sys2Proof.Machine

namespace Sys2Proof.Machine

/-! ## Event instructions and commit (R260, R263, R265, R269, R280) -/

section Commit
variable (s : State) (n : Fin 8)

@[simp] theorem reap_raises : (s.reap n).raises = s.raises := rfl

/-- Abandoning preparations changes of its station the slots and the profiles kept (R210, R276). -/
theorem stn_reap : ∃ x k, (s.reap n).stn n = { s.stn n with slots := x, kept := k } :=
  ⟨_, _, State.stn_modStn_self s n _ n.isLt⟩

variable {s n} in
theorem onlyStation_setStn_of {t : State} (h : s.onlyStation t n) (x : Station) : s.onlyStation (t.setStn n x) n := by
  rw [State.onlyStation] at h
  rw [h, setStn_setStn]
  exact onlyStation_setStn s n x

variable {s n} in
theorem onlyStation_reap {t : State} (h : s.onlyStation t n) : s.onlyStation (t.reap n) n :=
  onlyStation_setStn_of h _

theorem raiseEvent_of_station (arg : Word) :
    ∃ r : Raise, s.raiseEvent ⟨5, 0, 16 + n.val⟩ arg = { s with raises := s.raises ++ [r] } ∧ r.fid = ⟨5, 0, 16 + n.val⟩ := by
  obtain ⟨r, hr, hf, -⟩ := raiseEvent_of_not_fenced s ⟨5, 0, 16 + n.val⟩ arg (by simp [State.unitFenced]; omega)
  exact ⟨r, hr, hf⟩

/-- An exception stops the thread, leaves its code and index, and raises the station's source (R269). -/
theorem exception_facts (code : Nat) (pc : BitVec 14) :
    ((s.exception n code pc).stn n).exc = code ∧ ((s.exception n code pc).stn n).epc = pc ∧
    ((s.exception n code pc).stn n).endedAt = some s.now ∧ ((s.exception n code pc).stn n).thread.ended = true ∧
    ((s.exception n code pc).stn n).queue = (s.stn n).queue ∧
    ∃ r : Raise, (s.exception n code pc).raises = s.raises ++ [r] ∧ r.fid = ⟨5, 0, 16 + n.val⟩ := by
  simp only [State.exception]
  generalize hu : s.setStn n _ = u
  obtain ⟨r, hr, hf⟩ := raiseEvent_of_station u n (BitVec.ofNat 32 (code * 2 ^ 28 + pc.toNat))
  rw [hr]
  obtain ⟨x, k, hx⟩ := stn_reap { u with raises := u.raises ++ [r] } n
  have hn : State.stn { u with raises := u.raises ++ [r] } n = u.stn n := rfl
  rw [hx, hn, ← hu]
  simp [hf]

/-! ### What the oldest entry of the window does when it commits -/

variable {s n}

/-- The conditions under which a station may commit at all (R265, R280). -/
theorem commits_goes (hrun : (s.stn n).running = true) (hdown : (s.stn n).threadDown = none)
    (hended : (s.stn n).thread.ended = false) (hroom : (s.stn n).queue.length < 32) :
    (!(s.stn n).running || (s.stn n).threadDown.isSome || (s.stn n).thread.ended || decide (32 ≤ (s.stn n).queue.length)) =
      false := by
  simp [hrun, hdown, hended, hroom]

/-- With the queue full nothing commits (R265). -/
theorem instrCommit_full (h : 32 ≤ (s.stn n).queue.length) : s.instrCommit n = s := by
  simp [State.instrCommit, h]

section Entry
variable {e : Exec} {l : List Exec} (hrun : (s.stn n).running = true) (hdown : (s.stn n).threadDown = none)
  (hended : (s.stn n).thread.ended = false) (hinsts : (s.stn n).thread.insts = e :: l)
  (hmay : e.mayCommit (s.stn n).thread.forks = true) (hroom : (s.stn n).queue.length < 32)

/-- The station after an entry has committed. -/
def State.committed (s : State) (n : Nat) (e : Exec) (l : List Exec) : Station :=
  let t := s.stn n
  let halts := e.ins.op.isHalt && !e.off
  { t.commitTake e with
    comm := e.commitRegs t.comm
    queue := t.queue ++ (e.effect t.comm s.now).toList
    thread := { t.thread with insts := if halts then [] else l, forks := if halts then [] else t.thread.forks, ended := halts } }

include hrun hdown hended hinsts hmay hroom

theorem instrCommit_commits (hexc : e.exc = 0) : s.instrCommit n = s.setStn n (s.committed n e l) := by
  simp only [State.instrCommit, commits_goes hrun hdown hended hroom, hinsts, hmay, hexc]
  rfl

theorem instrCommit_ends (hexc : e.exc = 5) :
    s.instrCommit n = (s.setStn n (s.committed n e l)).exception n 5 e.pc := by
  simp only [State.instrCommit, commits_goes hrun hdown hended hroom, hinsts, hmay, hexc]
  rfl

theorem instrCommit_raises (hexc : e.exc ≠ 0) (hexc' : e.exc ≠ 5) : s.instrCommit n = s.exception n e.exc e.pc := by
  simp [State.instrCommit, commits_goes hrun hdown hended hroom, hinsts, hmay, hexc, hexc']

end Entry

theorem instrCommit_illegal (hrun : (s.stn n).running = true) (hdown : (s.stn n).threadDown = none)
    (hended : (s.stn n).thread.ended = false) (hroom : (s.stn n).queue.length < 32) (hinsts : (s.stn n).thread.insts = [])
    (hrefill : s.refilling n (s.stn n).comm.pc = false) (hdec : decodeQ (s.pgmWord n (s.stn n).comm.pc) = none) :
    s.instrCommit n = s.exception n 1 (s.stn n).comm.pc := by
  simp [State.instrCommit, commits_goes hrun hdown hended hroom, hinsts, hrefill, hdec]

/-- An entry whose guard holds, that asks nothing and does not end the program commits what it computed (R280). -/
theorem commitRegs_after {e : Exec} {r : QRegs} {pc : BitVec 14} (hguard : e.ins.guard.passes (r.pv e.ins.guard.p).val = true)
    (hask : e.ask = none) (hpc : e.ins.op.nextPc true r = some pc) : e.commitRegs r = e.ins.after e.id r pc := by
  simp only [Exec.commitRegs, hguard, hask, hpc, QInstr.advance, Option.isNone_some, Bool.not_true, Bool.false_or]
  obtain ⟨id, k, ⟨gd, op⟩, gb, off, x, hop, tick, ask⟩ := e
  cases op <;> rfl

end Commit

section EventInstrs
variable {s : State} {n : Fin 8} {i : QInstr} {c : Instr} {P : QRegs → Prop} {a : EvAsk}

/-- An event instruction enters the window with its question and goes on; what is pending on it is read off its registers
(R260, R282). -/
theorem completes_asks (h : s.mayRun n i) (hx : exec c s = .next (s.runInstr n 0 i.op.opcode))
    (hseq : i.op.nextPc true (s.stn n).thread.regs = (s.stn n).thread.regs.seqPc)
    (hask : i.op.ask (s.stn n).thread.regs = some a)
    (hP : ∀ path, P { s.applied n i with pc := (s.stn n).thread.regs.pc + 1, path := path }) :
    completes c s fun t => P (t.stn n).thread.regs ∧
      (∃ e : Exec, (t.stn n).thread.insts = (s.stn n).thread.insts ++ [e] ∧ e.id = (s.stn n).thread.nextId ∧ e.ask = some a) ∧
      s.onlyStation t n := by
  obtain ⟨hinsts, hregs, -, honly⟩ := executed_seq h hseq
  refine ⟨_, hx, ?_, ⟨_, hinsts, rfl, hask⟩, honly⟩
  rw [hregs]
  exact hP _

theorem base_setG (r : QRegs) {i : BitVec 4} (x : Tracked Word) (h : i ≠ 0) : ((r.setG i x).gv i).base = x.base := by
  rw [gv_setG_self, if_neg h]

theorem base_setP (r : QRegs) {i : BitVec 2} (x : Tracked Bool) (h : i ≠ 0) : ((r.setP i x).pv i).base = x.base := by
  rw [pv_setP_self, if_neg h]

/-- The registers `r'` after EVCNT or EVDATA number `id` on registers `r`. -/
def QRegs.awaitsG (r : QRegs) (id : Nat) (rd : BitVec 4) (r' : QRegs) : Prop :=
  (rd ≠ 0 → (r'.gv rd).base = some id) ∧ (∀ q, q ≠ rd → r'.gv q = r.gv q) ∧ r'.t = r.t ∧ r'.p = r.p ∧ r'.pc = r.pc + 1

theorem awaitsG_setG (r : QRegs) (id : Nat) (rd : BitVec 4) (d path : Option Nat) :
    r.awaitsG id rd { r.setG rd ⟨0, d, some id⟩ with pc := r.pc + 1, path := path } := by
  refine ⟨fun h => base_setG r _ h, fun q hq => gv_setG_ne r _ hq, ?_, ?_, rfl⟩ <;> rw [setG_frame]

/-- The registers `r'` after EVTST number `id` on registers `r`. -/
def QRegs.awaitsP (r : QRegs) (id : Nat) (pd : BitVec 2) (r' : QRegs) : Prop :=
  (pd ≠ 0 → (r'.pv pd).base = some id) ∧ (∀ q, q ≠ pd → r'.pv q = r.pv q) ∧ r'.g = r.g ∧ r'.t = r.t ∧ r'.pc = r.pc + 1

theorem awaitsP_setP (r : QRegs) (id : Nat) (pd : BitVec 2) (d path : Option Nat) :
    r.awaitsP id pd { r.setP pd ⟨false, d, some id⟩ with pc := r.pc + 1, path := path } := by
  refine ⟨fun h => base_setP r _ h, fun q hq => pv_setP_ne r _ hq, ?_, ?_, rfl⟩ <;> rw [setP_frame]

/-- The registers `r'` after WAITE number `id` on registers `r`. -/
def QRegs.awaitsTick (r : QRegs) (id : Nat) (pd td : BitVec 2) (r' : QRegs) : Prop :=
  (pd ≠ 0 → (r'.pv pd).base = some id) ∧ (r'.tv td).base = some id ∧ (∀ q, q ≠ td → r'.tv q = r.tv q) ∧ r'.g = r.g ∧
    r'.pc = r.pc + 1

theorem awaitsTick_setT (r : QRegs) (id : Nat) (pd td : BitVec 2) (d path : Option Nat) :
    r.awaitsTick id pd td
      { (r.setP pd ⟨false, d, some id⟩).setT td ⟨0, d, some id⟩ with pc := r.pc + 1, path := path } := by
  refine ⟨fun h => base_setP r _ h, congrArg Tracked.base (tv_setT_self ..), fun q hq => ?_, ?_, rfl⟩
  · refine (tv_setT_ne _ _ hq).trans ?_
    rw [setP_frame]; rfl
  · rw [setP_frame]; rfl

end EventInstrs

section CommitOf
variable {s : State} {n : Fin 8} {e : Exec} {l : List Exec}

/-- An instruction that names no effect leaves the holding queue as it commits. -/
theorem effect_of_no_act {r : QRegs} {k : Nat} (h : e.ins.op.act r = none) : e.effect r k = none := by
  simp [Exec.effect, h]

/-- An effect that commits enters the holding queue with the tick of its t register (R263). -/
theorem effect_of_act {r : QRegs} {k : Nat} {x : Act} {tr : BitVec 2} (hoff : e.off = false) (hact : e.ins.op.act r = some x)
    (htick : e.ins.op.tickReg = some tr) : ∃ f : Effect, e.effect r k = some f ∧ f.act = x ∧ f.tick = (r.tv tr).val.toNat := by
  simp only [Exec.effect, hoff, hact, htick]
  exact ⟨_, rfl, rfl, rfl⟩

end CommitOf

/-- Settles O20: event instructions by `completes_asks`, commits by `instrCommit_commits`, exceptions by `exception_facts`. -/
theorem eventsArePendingUntilCommit : Obligations.EventsArePendingUntilCommit := by
  refine ⟨?_, ?_, ?_, ?_, ?_, ?_, ?_⟩
  · intro s n gd rd pd td tr src k
    dsimp only
    refine ⟨fun h => ?_, fun h => ?_, fun h => ?_, fun h => ?_⟩
    · have hx := completes_asks (c := .evtst n 0) h rfl rfl rfl fun path => awaitsP_setP _ _ pd _ path
      obtain ⟨t, ht, ⟨hb, hne, hg, hT, hpc⟩, he, ho⟩ := hx
      exact ⟨t, ht, hb, hne, hg, hT, hpc, he, ho⟩
    · have hx := completes_asks (c := .waite n 0) h rfl rfl rfl fun path => awaitsTick_setT _ _ pd td _ path
      obtain ⟨t, ht, ⟨hb, htb, hne, hg, hpc⟩, he, ho⟩ := hx
      exact ⟨t, ht, hb, htb, hne, hg, hpc, he, ho⟩
    · have hx := completes_asks (c := .evcnt n 0) h rfl rfl rfl fun path => awaitsG_setG _ _ rd _ path
      obtain ⟨t, ht, ⟨hb, hne, hT, hp, hpc⟩, he, ho⟩ := hx
      exact ⟨t, ht, hb, hne, hT, hp, hpc, he, ho⟩
    · have hx := completes_asks (c := .evdata n 0) h rfl rfl rfl fun path => awaitsG_setG _ _ rd _ path
      obtain ⟨t, ht, ⟨hb, hne, hT, hp, hpc⟩, he, ho⟩ := hx
      exact ⟨t, ht, hb, hne, hT, hp, hpc, he, ho⟩
  · intro s n e l hrun hdown hended hinsts hmay hexc hroom
    refine ⟨_, congrArg Host.Outcome.next (instrCommit_commits hrun hdown hended hinsts hmay hroom hexc), ?_⟩
    simp [State.committed, onlyStation_setStn]
  · intro s n e l gd hrun hdown hended hinsts hmay hexc hoff hask hroom hguard hlast
    have hcommit := instrCommit_commits hrun hdown hended hinsts hmay hroom hexc
    refine ⟨fun rd ra rb hi => ?_, fun tr m v hi => ?_⟩
    · have hcomm := commitRegs_after (r := (s.stn n).comm) (by rw [hi]; exact hguard) hask (by rw [hi]; exact if_neg hlast)
      refine ⟨_, congrArg Host.Outcome.next hcommit, ?_⟩
      simp only [State.stn_setStn_self _ _ _ n.isLt, State.committed, hcomm, effect_of_no_act (e := e) (by rw [hi]; rfl)]
      simp only [hi]
      exact ⟨gv_val_setG .., rfl, rfl, List.append_nil _, onlyStation_setStn ..⟩
    · have hcomm := commitRegs_after (r := (s.stn n).comm) (by rw [hi]; exact hguard) hask (by rw [hi]; exact if_neg hlast)
      obtain ⟨f, heff, hact, htick⟩ :=
        effect_of_act (e := e) (r := (s.stn n).comm) (k := s.now) hoff (by rw [hi]; rfl) (by rw [hi]; rfl)
      refine ⟨_, congrArg Host.Outcome.next hcommit, ?_⟩
      simp only [State.stn_setStn_self _ _ _ n.isLt, State.committed, hcomm, heff, hi]
      exact ⟨⟨f, rfl, hact, htick⟩, rfl, rfl, onlyStation_setStn ..⟩
  · exact fun s n h => ⟨_, congrArg Host.Outcome.next (instrCommit_full h), rfl⟩
  · intro s n e l hrun hdown hended hinsts hmay hexc hexc' hroom
    have hraise := instrCommit_raises hrun hdown hended hinsts hmay hroom hexc hexc'
    exact ⟨_, congrArg Host.Outcome.next hraise, exception_facts ..⟩
  · intro s n e l hrun hdown hended hinsts hmay hexc hroom
    refine ⟨_, congrArg Host.Outcome.next (instrCommit_ends hrun hdown hended hinsts hmay hroom hexc), ?_⟩
    obtain ⟨h1, h2, -, h4, h5, h6⟩ := exception_facts (s.setStn n (s.committed n e l)) n 5 e.pc
    exact ⟨h1, h2, h4, h5.trans (by simp [State.committed]), h6⟩
  · intro s n hrun hdown hended hroom hrefill hinsts hdec
    obtain ⟨h1, h2, -, h4, -, -⟩ := exception_facts s n 1 (s.stn n).comm.pc
    exact ⟨_, congrArg Host.Outcome.next (instrCommit_illegal hrun hdown hended hroom hinsts hrefill hdec), h1, h2, h4⟩

end Sys2Proof.Machine

namespace Sys2Proof.Machine

/-! ## Decisions (R262, R281 to R287) -/

section Decisions
variable {s : State} {n : Fin 8}

/-- The decision that a branch waiting for event instruction `b` opens: the outcome predicted, and the registers on the other
one (R285, R286). -/
def Thread.newFork (th : Thread) (i : QInstr) (b : Nat) : Fork :=
  ⟨th.nextId, b, th.predict i th.regs.pc, [], i.outcome (!th.predict i th.regs.pc) th.regs⟩

/-- A branch whose guard is pending becomes a two-way decision (R262, R285). -/
theorem runInstr_forks {i : QInstr} {b : Nat} (hmay : (s.stn n).mayExecute = true) (hwin : (s.stn n).thread.inWindow < 64)
    (hforks : (s.stn n).thread.forks.length < 2) (hhop : i.op.isHop = false)
    (hdec : decodeQ (s.pgmWord n (s.stn n).thread.regs.pc) = some i) (hrefill : s.refilling n (s.stn n).thread.regs.pc = false)
    (hx : i.execute (s.stn n).thread.nextId (s.stnMode n == 1) (s.slotEmpty n) (s.stn n).thread.regs = .fork b) :
    ((s.runInstr n 0 i.op.opcode).stn n).thread.forks = (s.stn n).thread.forks ++ [(s.stn n).thread.newFork i b] ∧
      ((s.runInstr n 0 i.op.opcode).stn n).thread.regs = i.outcome ((s.stn n).thread.newFork i b).taken (s.stn n).thread.regs ∧
      s.onlyStation (s.runInstr n 0 i.op.opcode) n := by
  have hroom : ¬2 ≤ (s.stn n).thread.forks.length := by omega
  have hgoes : ∀ off : Bool, (!(s.stn n).mayExecute || decide (64 ≤ (s.stn n).thread.inWindow)
      || (i.op.isHop && !off && decide (3 ≤ (s.stn n).openHops))) = false := by simp [hmay, hwin, hhop]
  simp only [State.runInstr, hdec, hrefill, State.stepFollowed, hgoes, hx, if_true, Bool.false_eq_true, if_false, hroom,
    State.stn_setStn_self _ _ _ n.isLt]
  exact ⟨rfl, rfl, onlyStation_setStn ..⟩

/-- Where a BR goes on each outcome (Table 6.9). -/
theorem outcome_br_pc (gd : Guard) (h : Hint) (tgt : BitVec 14) (taken : Bool) (r : QRegs) :
    (QInstr.outcome ⟨gd, .br h tgt⟩ taken r).pc = if taken then tgt else r.pc + 1 := by
  cases taken <;> rfl

theorem outcome_br_not_pc (gd : Guard) (h : Hint) (tgt : BitVec 14) (taken : Bool) (r : QRegs) :
    (QInstr.outcome ⟨gd, .br h tgt⟩ (!taken) r).pc = if taken then r.pc + 1 else tgt := by
  cases taken <;> rfl

/-! ### Alternate paths (R287) -/

/-- An alternate path whose instruction executes takes its entry and its registers; the followed path stays as it is. -/
theorem runInstr_alternate {i : QInstr} {f : Fork} {k : Nat} {e : Exec} {r : QRegs} (hrun : (s.stn n).running = true)
    (hdown : (s.stn n).threadDown = none) (hended : (s.stn n).thread.ended = false) (hwin : (s.stn n).thread.inWindow < 64)
    (hf : (s.stn n).thread.forks[k]? = some f) (hlen : f.alt.length < 16)
    (hstops : (f.alt.any fun e => e.ins.op.isHop || e.stops) = false) (hhalt : i.op.isHalt = false)
    (hdecides : i.decides f.regs = false) (hbase : (f.regs.pv i.guard.p).base = none)
    (hbranch : ∀ b, (s.stn n).thread.branchOf f = some b → b.ins.branchExc (!f.taken) b.pc = 0)
    (hdec : decodeQ (s.pgmWord n f.regs.pc) = some i) (hrefill : s.refilling n f.regs.pc = false)
    (hx : i.execute (s.stn n).thread.nextId (s.stnMode n == 1) (s.slotEmpty n) f.regs = .done e r) :
    ((s.runInstr n (k + 1) i.op.opcode).stn n).thread.forks[k]? = some { f with alt := f.alt ++ [e], regs := r } ∧
      ((s.runInstr n (k + 1) i.op.opcode).stn n).thread.regs = (s.stn n).thread.regs ∧
      ((s.runInstr n (k + 1) i.op.opcode).stn n).thread.insts = (s.stn n).thread.insts ∧
      s.onlyStation (s.runInstr n (k + 1) i.op.opcode) n := by
  have hset : ((s.stn n).thread.forks.set k { f with alt := f.alt ++ [e], regs := r })[k]? =
      some { f with alt := f.alt ++ [e], regs := r } := by simp [(List.getElem?_eq_some_iff.1 hf).1]
  have hstep : s.runInstr n (k + 1) i.op.opcode = s.setStn n { s.stn n with thread := { (s.stn n).thread with
      forks := (s.stn n).thread.forks.set k { f with alt := f.alt ++ [e], regs := r }
      nextId := (s.stn n).thread.nextId + 1 } } := by
    simp only [State.runInstr, if_neg (Nat.succ_ne_zero k), Nat.add_sub_cancel, hf, Option.map_some, hdec, hrefill, if_true,
      Bool.false_eq_true, if_false, State.stepAlternate, hrun, hdown, hended, hstops, hhalt, hdecides, hbase, hx,
      Option.isSome_none, Bool.not_true, Bool.false_or, Bool.or_false, decide_eq_false (Nat.not_le.2 hwin),
      decide_eq_false (Nat.not_le.2 hlen)]
    cases hb : (s.stn n).thread.branchOf f with
    | none => simp only [Thread.branchOf] at hb; simp only [hb, Bool.false_eq_true, if_false]
    | some b =>
      have hexc := hbranch b hb
      simp only [Thread.branchOf] at hb
      simp only [hb, hexc, bne_self_eq_false, Bool.false_eq_true, if_false]
  rw [hstep, State.stn_setStn_self _ _ _ n.isLt]
  exact ⟨hset, rfl, rfl, onlyStation_setStn ..⟩

/-! ### Resolution (R281, R282) -/

/-- What DECISION_RESOLVE may do: nothing, or a new thread and tallies for its station, with the preparations that are then
abandoned. -/
theorem decisionResolve_cases (i : Nat) :
    s.decisionResolve n i = s ∨ ∃ x, s.decisionResolve n i = (s.setStn n x).reap n := by
  simp only [State.decisionResolve]
  split
  · split
    · split
      · exact .inl rfl
      · split
        · split
          · exact .inr ⟨_, rfl⟩
          · exact .inl rfl
        · exact .inl rfl
    · exact .inl rfl
  · exact .inl rfl

theorem onlyStation_decisionResolve (i : Nat) : s.onlyStation (s.decisionResolve n i) n := by
  rcases decisionResolve_cases (s := s) (n := n) i with h | ⟨x, h⟩ <;> rw [h]
  · exact onlyStation_refl s n
  · exact onlyStation_reap (onlyStation_setStn ..)

section Resolves
variable {e : Exec} {a : EvAsk}

/-- With no open decision there is none to settle. -/
theorem settleForks_of_none (id : Nat) (flag : Bool) (k : Nat) (th : Thread) (h : th.forks = []) :
    settleForks id flag k th = (0, 0, th) := by
  cases k with
  | zero => rfl
  | succ k => simp [settleForks, h]

/-- The one executed instruction of a thread without open decisions evaluates: the registers of the followed path that waited
for it take their values. -/
theorem regs_decisionResolve {r : EvRes} (hrun : (s.stn n).running = true) (hdown : (s.stn n).threadDown = none)
    (hinsts : (s.stn n).thread.insts = [e]) (hforks : (s.stn n).thread.forks = []) (hask : e.ask = some a) (hres : a.res = none)
    (hr : s.evaluate n e.ins.op a ((s.stn n).markOf a.src) = some r) :
    ((s.decisionResolve n 0).stn n).thread.regs = (s.stn n).thread.regs.resolve e.id r := by
  have hth : ∃ mis sq th, (s.stn n).thread.resolve e.id r = (mis, sq, th) ∧ th.regs = (s.stn n).thread.regs.resolve e.id r := by
    simp only [Thread.resolve, hforks, List.map_nil, settleForks_of_none]
    exact ⟨_, _, _, rfl, rfl⟩
  obtain ⟨mis, sq, th, hth, hregs⟩ := hth
  have hx : ∃ x, s.decisionResolve n 0 = (s.setStn n x).reap n ∧ x.thread = th := by
    simp only [State.decisionResolve, hinsts, List.getElem?_cons_zero, hask, hres, hdown, hrun, List.take_zero, markAfter, hr,
      hth, Option.isSome_none, Bool.not_true, Bool.or_self, Bool.false_eq_true, if_false]
    exact ⟨_, rfl, rfl⟩
  obtain ⟨x, hx, hxt⟩ := hx
  obtain ⟨y, k, hy⟩ := stn_reap (s.setStn n x) n
  rw [hx, hy, State.stn_setStn_self _ _ _ n.isLt, ← hregs, ← hxt]

/-- Before the board has closed its tick an event test does nothing (R281). -/
theorem decisionResolve_waits (i : Nat) (he : (s.stn n).thread.insts[i]? = some e) (hask : e.ask = some a)
    (hx : ∀ m, s.evaluate n e.ins.op a m = none) : s.decisionResolve n i = s := by
  simp only [State.decisionResolve, he, hask, hx]
  split
  · rfl
  · split <;> rfl

end Resolves

/-! ### Registers that waited -/

section Resolve
variable (r : QRegs) (id : Nat) (x : EvRes)

theorem Tracked.resolve_of_base {α : Type} (v : Tracked α) (d : Option Nat) (f : α → α) (h : v.base = some id) :
    (v.resolve id d f).val = f v.val ∧ (v.resolve id d f).base = none := by
  simp [Tracked.resolve, h]

theorem gv_resolve {q : BitVec 4} (hq : q ≠ 0) (h : (r.gv q).base = some id) :
    ((r.resolve id x).gv q).val = x.value ∧ ((r.resolve id x).gv q).base = none := by
  have hlt : q.toNat < 16 := q.isLt
  have hgv : (r.resolve id x).gv q = (r.gv q).resolve id x.dec fun _ => x.value := by
    simp [QRegs.gv, QRegs.resolve, if_neg (show ¬q = 0#4 from hq), hlt]
  rw [hgv]
  exact Tracked.resolve_of_base id _ _ _ h

theorem pv_resolve {q : BitVec 2} (hq : q ≠ 0) (h : (r.pv q).base = some id) :
    ((r.resolve id x).pv q).val = x.flag ∧ ((r.resolve id x).pv q).base = none := by
  have hlt : q.toNat < 4 := q.isLt
  have hpv : (r.resolve id x).pv q = (r.pv q).resolve id x.dec fun _ => x.flag := by
    simp [QRegs.pv, QRegs.resolve, if_neg (show ¬q = 0#2 from hq), hlt]
  rw [hpv]
  exact Tracked.resolve_of_base id _ _ _ h

theorem tv_resolve {q : BitVec 2} (h : (r.tv q).base = some id) :
    ((r.resolve id x).tv q).val = BitVec.ofNat 64 x.tick + (r.tv q).val ∧ ((r.resolve id x).tv q).base = none := by
  have hlt : q.toNat < 4 := q.isLt
  have htv : (r.resolve id x).tv q = (r.tv q).resolve id x.dec fun off => BitVec.ofNat 64 x.tick + off := by
    simp [QRegs.tv, QRegs.resolve, hlt]
  rw [htv]
  exact Tracked.resolve_of_base id _ _ _ h

end Resolve

/-! ### What an event instruction answers (Table 6.8) -/

section Answers
variable (a : EvAsk) (m : Mark)

theorem evaluate_evtst (pd tr : BitVec 2) (src : BitVec 7) (k : Bool) (h : s.closed a.x = true) :
    ∃ r, s.evaluate n (.evtst pd tr src k) a m = some r ∧ r.flag = !((s.stn n).inInterval a.src m.at_ a.x).isEmpty :=
  ⟨_, if_pos h, rfl⟩

theorem evaluate_evtst_open (pd tr : BitVec 2) (src : BitVec 7) (k : Bool) (h : s.closed a.x = false) :
    s.evaluate n (.evtst pd tr src k) a m = none := by
  simp [State.evaluate, h]

theorem evaluate_evcnt (rd : BitVec 4) (tr : BitVec 2) (src : BitVec 7) (k : Bool) (h : s.closed a.x = true) :
    ∃ r, s.evaluate n (.evcnt rd tr src k) a m = some r ∧
      r.value = BitVec.ofNat 32 ((s.stn n).inInterval a.src m.at_ a.x).length :=
  ⟨_, if_pos h, rfl⟩

theorem evaluate_evdata (rd : BitVec 4) (src : BitVec 7) :
    ∃ r, s.evaluate n (.evdata rd src) a m = some r ∧ r.value = m.payload :=
  ⟨_, rfl, rfl⟩

theorem evaluate_waite (pd td tr : BitVec 2) (src : BitVec 7) (k : Bool) (h : s.closed a.x = true)
    (hfirst : ∀ f, ((s.stn n).inInterval a.src m.at_ a.x).head? = some f → s.closed f.stamp = true) :
    ∃ r, s.evaluate n (.waite pd td tr src k) a m = some r ∧ r.flag = !((s.stn n).inInterval a.src m.at_ a.x).isEmpty ∧
      r.tick = match (s.stn n).inInterval a.src m.at_ a.x with | f :: _ => f.stamp | [] => a.x := by
  simp only [State.evaluate]
  cases hevs : (s.stn n).inInterval a.src m.at_ a.x with
  | nil => exact ⟨_, if_pos h, rfl, rfl⟩
  | cons f l => exact ⟨_, if_pos (hfirst f (by rw [hevs]; rfl)), rfl, rfl⟩

end Answers

end Decisions

/-- Settles O21: forks by `runInstr_forks`, alternate paths by `runInstr_alternate`, resolution by `regs_decisionResolve` and
the answers of Table 6.8. -/
theorem decisionsForkAndResolve : Obligations.DecisionsForkAndResolve := by
  have hpath : ∀ k : Fin 2, ((if k = 0 then 1 else 2 : Fin 3) : Nat) = k.val + 1 := by decide
  refine ⟨?_, ?_, ?_, ?_, ?_⟩
  · intro s n gd h tgt b hmay hwin hforks hdec hbase hrefill
    have hx : QInstr.execute ⟨gd, .br h tgt⟩ (s.stn n).thread.nextId (s.stnMode n == 1) (s.slotEmpty n)
        (s.stn n).thread.regs = .fork b := by
      simp [QInstr.execute, QOp.slotIllegal, QOp.slot?, hbase, QOp.isBranch]
    obtain ⟨hfork, hregs, honly⟩ := runInstr_forks hmay hwin hforks rfl hdec hrefill hx
    refine ⟨_, rfl, _, hfork, rfl, rfl, ?_, ?_, ?_, ?_, honly⟩
    · exact (congrArg QRegs.pc hregs).trans (outcome_br_pc ..)
    · exact outcome_br_not_pc ..
    · rintro rfl; rfl
    · rintro rfl; rfl
  · intro s n gd rd ra rb f k hrun hdown hended hwin hf hlen hstops hdec hbase hguard hra hrb hlast hrefill hbranch
    have hdone := QInstr.execute_done (i := ⟨gd, .add rd ra rb⟩) (id := (s.stn n).thread.nextId) (ganged := s.stnMode n == 1)
      (empty := s.slotEmpty n) (Bool.and_false _) hbase hguard (by simp [QOp.waits, hra, hrb]) rfl (if_neg hlast)
    have hstep := runInstr_alternate hrun hdown hended hwin hf hlen hstops rfl rfl hbase hbranch hdec hrefill hdone
    obtain ⟨hfork, hregs, hinsts, honly⟩ := hstep
    exact ⟨_, congrArg Host.Outcome.next (congrArg (s.runInstr n · 0x04#6) (hpath k)), _, hfork, gv_val_setG .., rfl, hregs,
      hinsts, honly⟩
  · intro s n e a hrun hdown hinsts hforks hask hres hstops hclosed
    have hregs := fun {r} => regs_decisionResolve (r := r) hrun hdown hinsts hforks hask hres
    refine ⟨fun pd tr src k hop => ?_, fun rd tr src k hop => ?_, fun rd src hop => ?_, fun pd td tr src k hop => ?_⟩
    · obtain ⟨r, hr, hflag⟩ := evaluate_evtst (n := n) a ((s.stn n).markOf a.src) pd tr src k hclosed
      refine ⟨_, rfl, fun q hq hq' => ?_⟩
      rw [hregs (by rw [hop]; exact hr), ← hflag]
      exact pv_resolve _ _ _ hq hq'
    · obtain ⟨r, hr, hvalue⟩ := evaluate_evcnt (n := n) a ((s.stn n).markOf a.src) rd tr src k hclosed
      refine ⟨_, rfl, fun q hq hq' => ?_⟩
      rw [hregs (by rw [hop]; exact hr), ← hvalue]
      exact gv_resolve _ _ _ hq hq'
    · obtain ⟨r, hr, hvalue⟩ := evaluate_evdata (s := s) (n := n) a ((s.stn n).markOf a.src) rd src
      refine ⟨_, rfl, fun q hq hq' => ?_⟩
      rw [hregs (by rw [hop]; exact hr), ← hvalue]
      exact gv_resolve _ _ _ hq hq'
    · intro evs hfirst
      obtain ⟨r, hr, hflag, htick⟩ := evaluate_waite (n := n) a ((s.stn n).markOf a.src) pd td tr src k hclosed hfirst
      refine ⟨_, rfl, fun q hq hq' => ?_, fun q hq' => ?_⟩
      · rw [hregs (by rw [hop]; exact hr), ← hflag]
        exact pv_resolve _ _ _ hq hq'
      · have ht := tv_resolve _ _ r hq'
        rw [htick] at ht
        rw [hregs (by rw [hop]; exact hr)]
        exact ht
  · intro s n e a pd tr src k hinsts hask hop hclosed
    exact ⟨_, congrArg Host.Outcome.next (decisionResolve_waits 0 (by rw [hinsts]; rfl) hask fun m => by
      rw [hop]; exact evaluate_evtst_open a m pd tr src k hclosed), rfl⟩
  · exact fun s n i => ⟨_, rfl, onlyStation_decisionResolve i⟩

end Sys2Proof.Machine

namespace Sys2Proof.Machine

/-! ## Stations: starting and stopping (R199, R200, R271 to R274, R276) -/

section SeqCtl
variable {s : State} {n : Fin 8}

@[simp] theorem assignRoles_stations (s : State) (k : Nat) : (s.assignRoles k).stations = s.stations :=
  State.each_keeps (·.stations) _ (fun s j => by split <;> rfl) s _

@[simp] theorem hspiError_stations (s : State) (a code : Nat) : (s.hspiError a code).stations = s.stations := by
  unfold State.hspiError; split <;> simp

theorem writeReg_seqCtl (w : Word) :
    s.writeReg .SEQ_CTL n w = s.unless (!s.active && bitOf w 0) .state (s.writeSeqCtl n w) := rfl

theorem writeReg_start (h : s.active = true) : s.writeReg .SEQ_CTL n (cmdBit 0) = s.seqStart n := by
  have h0 : bitOf (cmdBit 0) 0 = true := by decide
  have h1 : bitOf (cmdBit 0) 1 = false := by decide
  simp [writeReg_seqCtl, State.unless, State.writeSeqCtl, h, h0, h1]

theorem writeReg_stop : s.writeReg .SEQ_CTL n (cmdBit 1) = (.ok, s.seqStop n) := by
  have h0 : bitOf (cmdBit 1) 0 = false := by decide
  have h1 : bitOf (cmdBit 1) 1 = true := by decide
  simp [writeReg_seqCtl, State.unless, State.writeSeqCtl, h0, h1]

/-- A START that is refused shows its status at the port and leaves the stations alone. -/
theorem start_refused {st : WStatus} (h : s.serves = true) (ha : s.active = true) (hst : s.seqStart n = (st, s)) (h1 : st ≠ .ok)
    (h2 : st ≠ .keyerr) : completes (.seqStart n) s fun t => t.refusedWith st ∧ t.stations = s.stations := by
  have ht := portWrite_refused s s .SEQ_CTL n (cmdBit 0) st h (placed_of_command _ _ (by decide) n.isLt) rfl
    ((writeReg_start ha).trans hst) h1 h2
  exact ⟨_, congrArg Host.Outcome.next ht, ⟨by simp [State.modHspi], hspiError_flag ..⟩, by simp⟩

/-- A STOP that the port accepts leaves what `State.seqStop` leaves, beside what the port keeps of the write. -/
theorem completes_stop {P : State → Prop} (h : s.serves = true)
    (hP : ∀ fl st, P { s.seqStop n with
      fleet := fl, store := st, hwRel := s.now, hspi := { (s.seqStop n).hspi with lastw := 0 } }) :
    completes (.seqStop n) s P :=
  completes_of_accepted rfl h (by decide) n.isLt rfl writeReg_stop hP

/-! ### START (R271, R272, R274) -/

theorem stn_of_stations {s t : State} (h : t.stations = s.stations) (k : Nat) : t.stn k = s.stn k := by
  simp only [State.stn, h]

theorem seqStart_not_loaded (h : (s.stn n).run = .empty) : s.seqStart n = (.busy, s) := by
  simp [State.seqStart, h]

theorem seqStart_late (h : (s.stn n).run = .loaded) (hm : s.mapMeets n = true) (hl : s.seqStartTick n < s.now + 64) :
    s.seqStart n = (.late, s) := by
  simp [State.seqStart, h, hm, hl]

theorem seqStart_broken (h : (s.stn n).run = .loaded) (hm : s.mapMeets n = true) (hl : s.now + 64 ≤ s.seqStartTick n)
    (hacc : (s.stn n).accepted = true) (hb : s.flag Fields.TIME_STATE_BROKEN 0 = true) : s.seqStart n = (.broken, s) := by
  simp [State.seqStart, h, hm, Nat.not_lt.2 hl, hacc, hb]

theorem seqStart_arms (h : (s.stn n).run = .loaded) (hm : s.mapMeets n = true) (hl : s.now + 64 ≤ s.seqStartTick n)
    (hb : s.flag Fields.TIME_STATE_BROKEN 0 = false) :
    ∃ slots, s.seqStart n = (.ok, (s.setStn n ((s.stn n).begin (s.seqStartTick n) slots)).assignRoles n) := by
  simp only [State.seqStart, h, hm, Nat.not_lt.2 hl, hb, Bool.and_false]
  exact ⟨_, rfl⟩

/-- A START that the port accepts leaves the station as `Station.begin` sets it up. -/
theorem completes_start (hs : s.serves = true) (ha : s.active = true) (h : (s.stn n).run = .loaded) (hm : s.mapMeets n = true)
    (hl : s.now + 64 ≤ s.seqStartTick n) (hb : s.flag Fields.TIME_STATE_BROKEN 0 = false) :
    completes (.seqStart n) s fun t =>
      (∃ slots, t.stn n = (s.stn n).begin (s.seqStartTick n) slots) ∧ s.wrote t := by
  obtain ⟨slots, hstart⟩ := seqStart_arms h hm hl hb
  exact completes_of_accepted rfl hs (by decide) n.isLt rfl ((writeReg_start ha).trans hstart) fun fl st =>
    ⟨⟨slots, (stn_of_stations (assignRoles_stations ..) n).trans (State.stn_setStn_self _ _ _ n.isLt)⟩, rfl, rfl⟩

/-! ### The start tick, STOP and the stop after an exception (R199, R200, R269, R273) -/

theorem stations_each_modOut (s : State) (f : Output → Output) (l : List Nat) :
    (s.each l fun s o => s.modOut o f).stations = s.stations :=
  State.each_keeps (·.stations) (fun s o => s.modOut o f) (fun _ _ => rfl) s l

theorem runBegin_runs (h : (s.stn n).run = .armed) (ht : (s.stn n).startTick ≤ s.now) :
    ((s.runBegin n).stn n).run = .running ∧
      ∀ o : Fin 32, ((s.runBegin n).out o).progGate = if bitOf (s.reg .STN_OUTMASK n) o then true else (s.out o).progGate := by
  have hrun : s.runBegin n = (s.modStn n fun t => { t with run := .running }).each (bitsOf (s.reg .STN_OUTMASK n) 32)
      fun s o => s.modOut o fun x => { x with progGate := true } := by
    simp [State.runBegin, h, ht]
  rw [hrun]
  constructor
  · rw [stn_of_stations (stations_each_modOut ..), State.stn_modStn_self _ _ _ n.isLt]
  · intro o
    rw [progGate_each true _ (fun s k o => progGate_modOut s k o true)]
    simp [mem_bitsOf]

/-- A station that stops gives up its work (R200). -/
theorem stn_stopStation (r : RunState) : ((s.stopStation n r).stn n).run = r ∧ ((s.stopStation n r).stn n).queue = [] ∧
    ((s.stopStation n r).stn n).thread.insts = [] := by
  rw [State.stopStation, State.stn_modStn_self _ _ _ n.isLt]
  exact ⟨rfl, rfl, rfl⟩

/-- STOP gives up the work of a running station, its handoff with it, and leaves outputs and cores alone (R200, R273). -/
theorem seqStop_stops (h : (s.stn n).running = true) :
    ((s.seqStop n).stn n).run = (if (s.stn n).endedAt.isSome then .exception else .stopped) ∧
      ((s.seqStop n).stn n).queue = [] ∧ ((s.seqStop n).stn n).thread.insts = [] ∧ (s.seqStop n).outs = s.outs ∧
      (s.seqStop n).cores = s.cores := by
  obtain ⟨hr, hq, hi⟩ := stn_stopStation (s := s) (n := n) (if (s.stn n).endedAt.isSome then .exception else .stopped)
  simp only [State.seqStop, h, Bool.not_true, Bool.false_eq_true, if_false]
  split
  · rw [State.stn_modStn_self _ _ _ n.isLt]
    exact ⟨hr, hq, hi, rfl, rfl⟩
  · exact ⟨hr, hq, hi, rfl, rfl⟩

theorem seqStop_idle (h : (s.stn n).running = false) : s.seqStop n = s := by
  simp [State.seqStop, h]

theorem excStop_stops {k : Nat} (hr : (s.stn n).running = true) (he : (s.stn n).endedAt = some k) (hq : (s.stn n).queue = [])
    (hk : k < s.now) : s.excStop n = s.stopStation n .exception := by
  simp [State.excStop, hr, he, hq, hk]

theorem excStop_waits {k : Nat} (he : (s.stn n).endedAt = some k) (hk : s.now ≤ k) : s.excStop n = s := by
  simp [State.excStop, he, Nat.not_lt.2 hk]

/-! ### Fenced threads (R276) -/

theorem raiseEvent_of_thread (k : Fin 10) (h : bitOf (s.reg .SEQ_THREADS 0) (16 + k) = false) :
    ∃ r : Raise, s.raiseEvent ⟨5, 0, k.val⟩ 0 = { s with raises := s.raises ++ [r] } ∧ r.fid = ⟨5, 0, k.val⟩ := by
  obtain ⟨r, hr, hf, -⟩ := raiseEvent_of_not_fenced s ⟨5, 0, k.val⟩ 0 (by simp [State.unitFenced, h])
  exact ⟨r, hr, hf⟩

/-- The fence of a running station's thread pauses it: its window is empty and its registers are the committed ones. -/
theorem threadDown_pauses (hr : (s.stn n).running = true) (hd : (s.stn n).threadDown = none) :
    ((s.threadDown n).stn n).threadDown = some s.elapsed ∧ ((s.threadDown n).stn n).mayExecute = false ∧
      ((s.threadDown n).stn n).thread.insts = [] ∧ ((s.threadDown n).stn n).thread.regs = (s.stn n).comm ∧
      ((s.threadDown n).stn n).queue = (s.stn n).queue ∧ (s.threadDown n).raises = s.raises := by
  simp only [State.threadDown, hd, hr, Option.isSome_none, Bool.not_true, Bool.false_eq_true, if_false,
    State.stn_setStn_self _ _ _ n.isLt]
  exact ⟨trivial, by simp [Station.mayExecute], trivial, trivial, trivial, rfl⟩

theorem threadCheckFail_pauses (k : Fin 10) (hk : bitOf (s.reg .SEQ_THREADS 0) (16 + k) = false)
    (hb : s.boundTo k = some n.val) :
    ∃ r : Raise, s.threadCheckFail k = State.threadDown { s with raises := s.raises ++ [r] } n ∧ r.fid = ⟨5, 0, k.val⟩ := by
  obtain ⟨r, hr, hf⟩ := raiseEvent_of_thread k hk
  have hb' : State.boundTo { s with raises := s.raises ++ [r] } k = some n.val := hb
  exact ⟨r, by simp only [State.threadCheckFail, hk, hr, hb', Bool.false_eq_true, if_false], hf⟩

@[simp] theorem endLapses_stations (s : State) (p : Lapse → Bool) : (s.endLapses p).stations = s.stations := by
  unfold State.endLapses
  extract_lets ls fails closes s1
  exact List.foldlRecOn (motive := fun t : State => t.stations = s.stations) _ _ rfl fun t ht l _ => ht

@[simp] theorem endLapses_regs (s : State) (p : Lapse → Bool) : (s.endLapses p).regs = s.regs := by
  unfold State.endLapses
  extract_lets ls fails closes s1
  exact List.foldlRecOn (motive := fun t : State => t.regs = s.regs) _ _ rfl fun t ht l _ => ht

/-- A spare thread that takes a station leaves its place among the spares and stands in the binding; the committed registers
and the holding queue stand (R276). -/
theorem threadResume_resumes (j : Fin 10) (h : (s.stn n).spareThread = some j.val) :
    ((s.threadResume n).stn n) = { s.stn n with spareThread := none, threadDown := none } ∧
      (s.threadResume n).threadOf n = j ∧ bitOf ((s.threadResume n).reg .SEQ_THREADS 0) j = false := by
  have hregs : ∃ v w : Word, bitOf v j = false ∧ getBits w (4 * n) 4 = j ∧
      (s.threadResume n).regs = ((s.setReg .SEQ_THREADS 0 v).setReg .SEQ_BIND 0 w).regs := by
    refine ⟨_, _, bitOf_setBit_self (s.reg .SEQ_THREADS 0) j false (by omega),
      (getBits_putBits_self (s.reg .SEQ_BIND 0) (4 * n) 4 j (by omega)).trans (by omega), ?_⟩
    simp only [State.threadResume, h, endLapses_regs]
    rfl
  obtain ⟨v, w, hv, hw, hregs⟩ := hregs
  have hreg : ∀ r i, (s.threadResume n).reg r i = ((s.setReg .SEQ_THREADS 0 v).setReg .SEQ_BIND 0 w).reg r i := fun r i =>
    congrArg (·.get r i) hregs
  refine ⟨?_, ?_, ?_⟩
  · simp only [State.threadResume, h]
    rw [stn_of_stations (endLapses_stations ..), State.record_at_stn, State.stn_modStn_self _ _ _ n.isLt]
    rfl
  · rw [State.threadOf, hreg, State.reg_setReg_self, hw]
  · rw [hreg, State.reg_setReg_other _ _ _ _ _ _ (by simp), State.reg_setReg_self, hv]

end SeqCtl

/-- Settles O24: START by `seqStart_arms` and its refusals, STOP by `seqStop_stops`, the stop after an exception by
`excStop_stops`, a fenced thread by `threadDown_pauses` and its spare by `threadResume_resumes`. -/
theorem stationsRun : Obligations.StationsRun := by
  refine ⟨?_, ?_, ?_, ?_, ?_, ?_, ?_, ?_, ?_, ?_, ?_, ?_⟩
  · intro s n hs ha hl hm hts hb
    obtain ⟨t, hx, ⟨slots, hstn⟩, hw⟩ := completes_start hs ha hl hm hts hb
    refine ⟨t, hx, ?_⟩
    simp only [hstn]
    exact ⟨rfl, rfl, rfl, rfl, rfl, rfl, hw⟩
  · exact fun s n hs ha he => start_refused hs ha (seqStart_not_loaded he) (by decide) (by decide)
  · exact fun s n hs ha hl hm hts => start_refused hs ha (seqStart_late hl hm hts) (by decide) (by decide)
  · exact fun s n hs ha hl hm hts hacc hb => start_refused hs ha (seqStart_broken hl hm hts hacc hb) (by decide) (by decide)
  · exact fun s n h ht => ⟨_, rfl, runBegin_runs h ht⟩
  · intro s n hs hr he
    obtain ⟨hrun, hq, hi, ho, hc⟩ := seqStop_stops hr
    exact completes_stop hs fun fl st => ⟨hrun.trans (by rw [he]; rfl), hq, hi, ho, hc, rfl, rfl⟩
  · intro s n hs hr he
    obtain ⟨hrun, hq, hi, ho, hc⟩ := seqStop_stops hr
    exact completes_stop hs fun fl st => ⟨hrun.trans (if_pos he), hq, ho, hc, rfl, rfl⟩
  · intro s n hs hr
    refine completes_stop hs fun fl st => ?_
    rw [seqStop_idle hr]
    exact ⟨rfl, rfl, rfl, rfl⟩
  · exact fun s n k hr he hq hk =>
      ⟨_, congrArg Host.Outcome.next (excStop_stops hr he hq hk), (stn_stopStation _).1, rfl, rfl⟩
  · exact fun s n k he hk => ⟨_, congrArg Host.Outcome.next (excStop_waits he hk), rfl⟩
  · intro s k n hup hk hb hr hd
    obtain ⟨r, hfail, hf⟩ := threadCheckFail_pauses k hk hb
    obtain ⟨h1, h2, h3, h4, h5, h6⟩ := threadDown_pauses (s := { s with raises := s.raises ++ [r] }) hr hd
    exact completes_of_detector rfl hup hfail ⟨h1, h2, h3, h4, h5, r, h6, hf⟩
  · intro s n j hj
    obtain ⟨hstn, hbind, hspare⟩ := threadResume_resumes j hj
    exact ⟨_, rfl, by rw [hstn], by rw [hstn], hbind, hspare, by rw [hstn], by rw [hstn]⟩

end Sys2Proof.Machine

namespace Sys2Proof.Machine

/-! ## Trigger qualifiers (R306 to R309)

### Steps for the stations of a list -/

/-- A step that leaves a state as it is for each number of a list leaves it so for the whole. -/
theorem State.each_of_fixed {s : State} {f : State → Nat → State} {l : List Nat} (h : ∀ m ∈ l, f s m = s) : s.each l f = s := by
  induction l with
  | nil => rfl
  | cons m l ih => rw [State.each, h m List.mem_cons_self, ih fun k hk => h k (List.mem_cons_of_mem _ hk)]

section EachOnce
variable {α : Type} {p : State → α} {f : State → Nat → State} {k : Nat} (h : ∀ u m, m ≠ k → p (f u m) = p u)
include h

/-- A reading that only the step for `k` moves is left alone by a list without `k`. -/
theorem State.each_of_not_mem (s : State) {l : List Nat} (hk : k ∉ l) : p (s.each l f) = p s := by
  induction l generalizing s with
  | nil => rfl
  | cons m l ih =>
    obtain ⟨hm, hl⟩ := List.ne_and_not_mem_of_not_mem_cons hk
    rw [State.each, ih _ hl, h _ _ hm.symm]

/-- A reading that only the step for `k` moves is moved once by a list that names `k` once, from what it read before. -/
theorem State.each_once (s : State) {l : List Nat} (hk : k ∈ l) (hl : l.Nodup) :
    ∃ u, p u = p s ∧ p (s.each l f) = p (f u k) := by
  induction l generalizing s with
  | nil => cases hk
  | cons m l ih =>
    obtain ⟨hm, hl⟩ := List.nodup_cons.1 hl
    by_cases hmk : m = k
    · subst hmk
      exact ⟨s, rfl, State.each_of_not_mem h _ hm⟩
    · obtain ⟨u, hu, hend⟩ := ih (f s m) ((List.mem_cons.1 hk).resolve_left (Ne.symm hmk)) hl
      exact ⟨u, hu.trans (h _ _ hmk), hend⟩

end EachOnce

/-! ### Events at a station's queue (R251, R252) -/

section Post
variable {s : State} {m k : Nat} {e : Event}

@[simp] theorem raiseAs_count (f : Fid) (t : Nat) (a : Word) (x y : Bool) : (s.raiseAs f t a x y).count = s.count := by
  obtain ⟨rs, h⟩ := raiseAs_form s f t a x y
  rw [h]

@[simp] theorem raiseAs_stations (f : Fid) (t : Nat) (a : Word) (x y : Bool) : (s.raiseAs f t a x y).stations = s.stations := by
  obtain ⟨rs, h⟩ := raiseAs_form s f t a x y
  rw [h]

@[simp] theorem lapseWith_count (f : Fid) (w : Word) (x : LapseEnd) : (s.lapseWith f w x).count = s.count := by
  obtain ⟨ws, rs, ls, h⟩ := lapseWith_form s f w x
  rw [h]

@[simp] theorem lapseWith_stations (f : Fid) (w : Word) (x : LapseEnd) : (s.lapseWith f w x).stations = s.stations := by
  obtain ⟨ws, rs, ls, h⟩ := lapseWith_form s f w x
  rw [h]

/-- A post to a station's queue puts at most another station record in its place, and the tick stands. -/
theorem postEvent_stations (s : State) (m : Nat) (e : Event) :
    (s.postEvent m e).count = s.count ∧
      ((s.postEvent m e).stations = s.stations ∨ ∃ x, (s.postEvent m e).stations = (s.setStn m x).stations) := by
  unfold State.postEvent
  extract_lets t
  split
  · exact ⟨rfl, .inl rfl⟩
  · split
    · exact ⟨rfl, .inr ⟨_, rfl⟩⟩
    · split
      · split
        · exact ⟨(lapseWith_count ..).trans (raiseAs_count ..), .inl ((lapseWith_stations ..).trans (raiseAs_stations ..))⟩
        · exact ⟨rfl, .inl rfl⟩
      · exact ⟨rfl, .inr ⟨_, rfl⟩⟩

theorem now_postEvent : (s.postEvent m e).now = s.now := congrArg BitVec.toNat (postEvent_stations s m e).1

theorem stn_postEvent_other (h : m ≠ k) : (s.postEvent m e).stn k = s.stn k := by
  obtain h1 | ⟨x, h1⟩ := (postEvent_stations s m e).2
  · exact stn_of_stations h1 k
  · exact (stn_of_stations h1 k).trans (State.stn_modStn_other s m k (fun _ => x) h)

/-- A station that does not run takes no event. -/
theorem postEvent_of_not_running (h : (s.stn m).running = false) : s.postEvent m e = s := by
  simp [State.postEvent, h]

/-- A running station that enables the source, has not passed the stamp and holds no event queues the event of this tick. -/
theorem stn_postEvent_first (hk : k < 8) (hrun : (s.stn k).running = true) (hen : (s.stn k).enabled.contains e.src = true)
    (hev : (s.stn k).events = []) (hmark : (s.stn k).mark e.src < e.stamp) (hstamp : e.stamp = s.now) :
    (s.postEvent k e).stn k = { s.stn k with events := [e] } := by
  have hopen : s.closed e.stamp = false := by simp [State.closed, hstamp]
  simp only [State.postEvent, hrun, hen, hev, hmark, hopen]
  simp [insertEvent, hk]

end Post

/-! ### What a qualifier makes of an edge (R306, R307, R310) -/

section Qualify
variable {s : State} {n width : Nat}

/-- Input `n` has sampled `width` active samples: what a qualifier notes of the input, whatever becomes of the edge. -/
def State.sampled (s : State) (n width : Nat) : State :=
  s.modTrig n fun t => { t with activeTo := s.elapsed - min width (s.minWidth n) + width, held := false }

theorem trig_sampled (hn : n < 9) : (s.sampled n width).trig n =
    { s.trig n with activeTo := s.elapsed - min width (s.minWidth n) + width, held := false } :=
  State.trig_modTrig_self s n (fun t => { t with activeTo := s.elapsed - min width (s.minWidth n) + width, held := false }) hn

theorem since_sampled (hn : n < 9) : ((s.sampled n width).trig n).since = (s.trig n).since := by rw [trig_sampled hn]

theorem lastAt_sampled (hn : n < 9) : ((s.sampled n width).trig n).lastAt = (s.trig n).lastAt := by rw [trig_sampled hn]

theorem trigOn_iff : s.trigOn n = true ↔ s.flag Fields.TRIG_CFG_EN n = true ∧ s.flag Fields.TRIG_STAT_FENCED n = false := by
  simp [State.trigOn]

section
variable (hn : n < 9) (ev : State → State)
include hn

/-- An enabled input counts a runt that began after its enable (R307). -/
theorem qualify_runt (hen : s.flag Fields.TRIG_CFG_EN n = true) (hw : width < s.minWidth n)
    (hs : (s.trig n).since + width ≤ s.elapsed) :
    s.qualify n width ev = (s.sampled n width).bump Fields.TRIG_CNT_RUNT n 1 := by
  have hedge : ¬s.elapsed - min width (s.minWidth n) < ((s.sampled n width).trig n).since := by rw [since_sampled hn]; omega
  unfold State.sampled at hedge ⊢
  simp only [State.qualify, State.modTrig_at_flag, hen, hedge]
  exact if_pos hw

/-- An edge of an input that is on, and lasts MINW samples from its enable on, is judged by the last event alone: SPACE ticks
after it, and where there was none, the edge is an event (R306, R307). -/
theorem qualify_on (hon : s.trigOn n = true) (hw : s.minWidth n ≤ width) (hs : (s.trig n).since + s.minWidth n ≤ s.elapsed) :
    s.qualify n width ev =
      if (s.trig n).lastAt.any fun k => decide (s.elapsed - k < s.fld Fields.TRIG_CFG_SPACE n) then
        (((s.sampled n width).bump Fields.TRIG_CNT_DROPPED n 1).stick Fields.TRIG_STAT_OVERRUN n).raiseEvent (trigOverrun n) 0
      else ev ((s.sampled n width).modTrig n fun t => { t with lastAt := some s.elapsed }) := by
  have hen := (trigOn_iff.1 hon).1
  have hedge : ¬s.elapsed - min width (s.minWidth n) < ((s.sampled n width).trig n).since := by rw [since_sampled hn]; omega
  have hmin : ¬width < (s.sampled n width).minWidth n := Nat.not_lt.2 hw
  have hon' : (s.sampled n width).trigOn n = true := hon
  rw [← lastAt_sampled (width := width) hn]
  unfold State.sampled at hedge hmin hon' ⊢
  simp only [State.qualify, State.modTrig_at_flag, hen, hedge, hmin, hon']
  cases (State.trig _ n).lastAt <;> rfl

end

end Qualify

/-! ### What an edge leaves -/

section Edge
variable {s : State} {n : Fin 8} {width : Nat}

theorem not_running_of_anyRunning {m : Nat} (h : s.anyRunning = false) (hm : m ∈ List.range 8) : (s.stn m).running = false := by
  simpa using List.any_eq_false.1 h m hm

theorem exec_trigEdge (hup : s.up = true) : exec (.trigEdge n width) s =
    .next (s.qualify n width fun s => s.each (List.range 8) fun s k => s.postEvent k ⟨n, s.now, 0⟩) :=
  congrArg Host.Outcome.next (if_pos hup)

/-- The first edge of an input that is on has its stamp, and goes to the stations as an event of this tick. -/
theorem qualify_first (hon : s.trigOn n = true) (hw : s.minWidth n ≤ width) (hs : (s.trig n).since + s.minWidth n ≤ s.elapsed)
    (hlast : (s.trig n).lastAt = none) (ev : State → State) :
    ∃ u : State, s.qualify n width ev = ev u ∧ (u.trig n).lastAt = some s.elapsed ∧ u.stations = s.stations ∧ u.raises = s.raises ∧
      u.now = s.now := by
  refine ⟨(s.sampled n width).modTrig n fun t => { t with lastAt := some s.elapsed }, ?_, ?_, rfl, rfl, rfl⟩
  · rw [qualify_on (by omega) ev hon hw hs, hlast]; rfl
  · rw [State.trig_modTrig_self _ _ _ (by omega)]

/-- An event of this tick, posted to every station, reaches the empty queue of a running one that enables its source. -/
theorem events_posted {k : Fin 8} (hrun : (s.stn k).running = true) (hen : (s.stn k).enabled.contains n.val = true)
    (hev : (s.stn k).events = []) (hmark : (s.stn k).mark n < s.now) :
    ((s.each (List.range 8) fun s k => s.postEvent k ⟨n, s.now, 0⟩).stn k).events = [⟨n, s.now, 0⟩] := by
  obtain ⟨u, hu, hend⟩ := State.each_once (p := fun u => (u.now, u.stn k)) (f := fun s k => s.postEvent k ⟨n, s.now, 0⟩) (k := k)
    (fun u m hm => by simp only [now_postEvent, stn_postEvent_other hm]) s (List.mem_range.2 k.isLt) List.nodup_range
  obtain ⟨hnow, hstn⟩ := Prod.mk.inj hu
  rw [(Prod.mk.inj hend).2, stn_postEvent_first k.isLt (hstn ▸ hrun) (hstn ▸ hen) (hstn ▸ hev) (by rw [hstn, hnow]; exact hmark) rfl,
    hnow]

theorem flag_stick_other (s : State) (f g : Field) (i j : Nat) (h : g.lo + g.width ≤ 32)
    (hd : ¬(f.reg = g.reg ∧ i = j) ∨ g.lo + g.width ≤ f.lo ∨ f.lo + f.width ≤ g.lo) : (s.stick f i).flag g j = s.flag g j :=
  congrArg (· == 1) (State.fld_setFld_other s f g i j 1 h hd)

theorem unitFenced_trigOverrun (s : State) {m : Nat} (hm : m < 9) :
    s.unitFenced (trigOverrun m) = s.flag Fields.TRIG_STAT_FENCED m := by
  have h : 14 ≤ 14 + m ∧ 14 + m ≤ 22 := by omega
  simp [State.unitFenced, trigOverrun, h]

theorem unitFenced_trigStuck (s : State) (m : Nat) : s.unitFenced (trigStuck m) = s.flag Fields.TRIG_STAT_FENCED m := by
  have h : ¬23 + m ≤ 22 := by omega
  simp [State.unitFenced, trigStuck, h]

/-- An edge less than SPACE ticks after the last event leaves the stations alone, and raises OVERRUN (R307). -/
theorem qualify_overrun {k : Nat} (hon : s.trigOn n = true) (hw : s.minWidth n ≤ width)
    (hs : (s.trig n).since + s.minWidth n ≤ s.elapsed) (hlast : (s.trig n).lastAt = some k)
    (hk : s.elapsed - k < s.fld Fields.TRIG_CFG_SPACE n) (ev : State → State) :
    (s.qualify n width ev).stations = s.stations ∧ ((s.qualify n width ev).trig n).lastAt = some k ∧
      (s.qualify n width ev).flag Fields.TRIG_STAT_OVERRUN n = true ∧
      ∃ r : Raise, (s.qualify n width ev).raises = s.raises ++ [r] ∧ r.fid = trigOverrun n := by
  obtain ⟨u, hu⟩ : ∃ u, u = ((s.sampled n width).bump Fields.TRIG_CNT_DROPPED n 1).stick Fields.TRIG_STAT_OVERRUN n := ⟨_, rfl⟩
  have hq : s.qualify n width ev = u.raiseEvent (trigOverrun n) 0 := by
    rw [qualify_on (by omega) ev hon hw hs, if_pos (by simp [hlast, hk]), hu]
  have hst : u.stations = s.stations := by rw [hu]; rfl
  have hraises : u.raises = s.raises := by rw [hu]; rfl
  have hat : (u.trig n).lastAt = some k := by
    rw [hu, State.stick_at_trig, State.bump_at_trig, lastAt_sampled (by omega), hlast]
  have hover : u.flag Fields.TRIG_STAT_OVERRUN n = true := hu ▸ State.flag_stick_self _ _ _ (by decide) rfl
  have hfenced : u.unitFenced (trigOverrun n) = false := by
    rw [unitFenced_trigOverrun u (by omega), hu, flag_stick_other _ _ _ _ _ (by decide) (.inr (.inr (by decide))),
      flag_of_reg (reg_bump_ne _ _ _ _ _ _ (by decide))]
    exact (trigOn_iff.1 hon).2
  obtain ⟨r, hr, hf, -⟩ := raiseEvent_of_not_fenced u (trigOverrun n) 0 hfenced
  rw [hq, hr]
  exact ⟨hst, hat, hover, r, congrArg (· ++ [r]) hraises, hf⟩

end Edge

/-! ### The fence of an input (R308, R309) -/

section Fence
variable {s : State} {n : Fin 9}

/-- An input that is on, and whose STUCK is not 0, raises STUCK and is fenced. -/
theorem trigStuck_fences (hon : s.trigOn n = true) (hlimit : s.fld Fields.TRIG_LIMIT_STUCK n ≠ 0) :
    (s.trigStuck n).flag Fields.TRIG_STAT_FENCED n = true ∧ (s.trigStuck n).flag Fields.TRIG_STAT_STUCKSEEN n = true ∧
      ∃ r : Raise, (s.trigStuck n).raises = s.raises ++ [r] ∧ r.fid = Sys2Proof.Machine.trigStuck n ∧ r.stamp = s.now := by
  obtain ⟨seen, hseen⟩ : ∃ u, u = (s.stick Fields.TRIG_STAT_STUCKSEEN n).modTrig n fun t => { t with held := true } := ⟨_, rfl⟩
  have hfenced : seen.unitFenced (Sys2Proof.Machine.trigStuck n) = false := by
    rw [unitFenced_trigStuck, hseen, State.modTrig_at_flag,
      flag_stick_other _ _ _ _ _ (by decide) (.inr (.inr (by decide)))]
    exact (trigOn_iff.1 hon).2
  obtain ⟨r, hr, hf, hstamp⟩ := raiseEvent_of_not_fenced seen (Sys2Proof.Machine.trigStuck n) 0 hfenced
  have hstuck : s.trigStuck n = ({ seen with raises := seen.raises ++ [r] } : State).setFld Fields.TRIG_STAT_FENCED n 1 := by
    rw [← hr, hseen]
    simp [State.trigStuck, hon, hlimit]
  rw [hstuck]
  refine ⟨?_, ?_, r, ?_, hf, ?_⟩
  · exact beq_iff_eq.2 (State.fld_setFld_self _ Fields.TRIG_STAT_FENCED n 1 (by decide))
  · rw [State.flag, State.fld_setFld_other _ _ _ _ _ _ (by decide) (.inr (.inl (by decide))), hseen]
    exact State.flag_stick_self s Fields.TRIG_STAT_STUCKSEEN n (by decide) rfl
  · rw [hseen]; rfl
  · rw [hstamp, hseen]; rfl

/-- REARM writes no bit that TRIG_STAT keeps, and clears none. -/
theorem merge_trigStat_rearm (fresh old : Word) : (regSpec .TRIG_STAT).merge fresh old (cmdBit 31) = old := by
  have h : cmdBit 31 &&& 6#32 = 0#32 := by decide
  simp only [RegSpec.merge, regSpec, h, List.foldl_nil, BitVec.and_zero, BitVec.zero_and, BitVec.or_zero, BitVec.not_zero,
    BitVec.and_allOnes]

theorem reg_plainWrite_rearm : (s.plainWrite .TRIG_STAT n (cmdBit 31)).reg .TRIG_STAT n = s.reg .TRIG_STAT n := by
  rw [State.plainWrite, State.reg_setReg_self, merge_trigStat_rearm]

/-- REARM of a fenced input asks for the end of its fence, which stands (R309). -/
theorem writeTrigStat_rearm (hf : s.flag Fields.TRIG_STAT_FENCED n = true) :
    ((s.writeTrigStat n (cmdBit 31)).trig n).rearm = true ∧
      (s.writeTrigStat n (cmdBit 31)).flag Fields.TRIG_STAT_FENCED n = true := by
  have hb : bitOf (cmdBit 31) 31 = true := by decide
  have hkept : (s.plainWrite .TRIG_STAT n (cmdBit 31)).flag Fields.TRIG_STAT_FENCED n = true :=
    (flag_of_reg reg_plainWrite_rearm).trans hf
  simp [State.writeTrigStat, hb, hkept]

theorem flag_endLapses (p : Lapse → Bool) (f : Field) (i : Nat) : (s.endLapses p).flag f i = s.flag f i :=
  flag_of_reg (congrArg (fun g : RegFile => g.get f.reg i) (endLapses_regs s p))

theorem trig_endLapses (p : Lapse → Bool) (m : Nat) : (s.endLapses p).trig m = s.trig m := by
  unfold State.endLapses
  extract_lets ls fails closes s1
  exact List.foldlRecOn (motive := fun t : State => t.trig m = s.trig m) _ _ rfl fun t ht l _ => ht

/-- The fence of an input that was rearmed ends (R309). -/
theorem trigFenceEnd_ends (hup : s.up = true) (hr : (s.trig n).rearm = true) :
    (s.trigFenceEnd n).flag Fields.TRIG_STAT_FENCED n = false ∧ ((s.trigFenceEnd n).trig n).rearm = false := by
  obtain ⟨u, hu⟩ : ∃ u, u = s.modTrig n fun t => { t with rearm := false, lastAt := none, activeTo := 0, held := false } := ⟨_, rfl⟩
  have hend : s.trigFenceEnd n = (u.setFld Fields.TRIG_STAT_FENCED n 0).endLapses fun l => l.ends == .trig n := by
    rw [hu]; exact (if_pos hup).trans (if_pos hr)
  constructor
  · rw [hend, flag_endLapses, State.flag, State.fld_setFld_self u _ _ _ (by decide)]
    rfl
  · rw [hend, trig_endLapses, State.setFld_at_trig, hu, State.trig_modTrig_self _ _ _ n.isLt]

end Fence

/-- Settles O7: an edge by `qualify_first`, `qualify_runt` and `qualify_overrun`, its event at a station by `events_posted`, the
fence by `trigStuck_fences`, `writeTrigStat_rearm` and `trigFenceEnd_ends`. -/
theorem triggerQualifier : Obligations.TriggerQualifier := by
  refine ⟨?_, ?_, ?_, ?_, ?_, ?_, ?_⟩
  · intro s n width hup hon hw hs hlast hidle
    obtain ⟨u, hq, hat, hst, hra, -⟩ := qualify_first hon hw hs hlast fun s =>
      s.each (List.range 8) fun s k => s.postEvent k ⟨n, s.now, 0⟩
    have hpost : (u.each (List.range 8) fun s k => s.postEvent k ⟨n, s.now, 0⟩) = u := State.each_of_fixed fun m hm =>
      postEvent_of_not_running (by rw [stn_of_stations hst, not_running_of_anyRunning hidle hm])
    exact ⟨u, (exec_trigEdge hup).trans (congrArg _ (hq.trans hpost)), hat, hst, hra⟩
  · intro s n k width hup hon hw hs hlast hrun hen hev hmark
    obtain ⟨u, hq, -, hst, -, hnow⟩ := qualify_first hon hw hs hlast fun s =>
      s.each (List.range 8) fun s k => s.postEvent k ⟨n, s.now, 0⟩
    have hstn := stn_of_stations hst k
    exact ⟨_, (exec_trigEdge hup).trans (congrArg _ hq), hnow ▸
      events_posted (hstn ▸ hrun) (hstn ▸ hen) (hstn ▸ hev) (by rw [hstn, hnow]; exact hmark)⟩
  · intro s n width hup hen hw hs
    exact ⟨_, (exec_trigEdge hup).trans (congrArg _ (qualify_runt (by omega) _ hen hw hs)), rfl, lastAt_sampled (by omega),
      State.fld_bump_self _ Fields.TRIG_CNT_RUNT n 1 (by decide)⟩
  · exact fun s n width k hup hon hw hs hlast hk => ⟨_, exec_trigEdge hup, qualify_overrun hon hw hs hlast hk _⟩
  · exact fun s n hup hon hlimit => completes_of_detector rfl hup rfl (trigStuck_fences hon hlimit)
  · intro s n hs hf
    obtain ⟨hrearm, hfenced⟩ := writeTrigStat_rearm hf
    exact completes_of_accepted (u := s.writeTrigStat n (cmdBit 31)) rfl hs (by decide) n.isLt rfl rfl fun fl st =>
      ⟨hrearm, hfenced, rfl, rfl⟩
  · exact fun s n hup hr => ⟨_, rfl, trigFenceEnd_ends hup hr⟩

end Sys2Proof.Machine

namespace Sys2Proof.Machine

/-! ## Loading programs and handing over (R302, R303, R312 to R318) -/

section Program
variable {s : State}

@[simp] theorem hspiError_pgm (s : State) (a code : Nat) : (s.hspiError a code).pgm = s.pgm := by
  unfold State.hspiError; split <;> simp

@[simp] theorem hspiError_check (s : State) (a code : Nat) : (s.hspiError a code).check = s.check := by
  unfold State.hspiError; split <;> simp

/-- A command of the loader that its register's rule refuses shows its status at the port, and leaves the stores and the check in
progress that the rule leaves (R610, R614). -/
theorem completes_of_refused_loader {c : Instr} {u : State} {r : RegName} {w : Word} {st : WStatus} {P : State → Prop}
    (hx : exec c s = .next (s.portWrite (regAddr r 0) w)) (h : s.serves = true) (hc : commandRegs.contains r = true)
    (hi : 0 < (regSpec r).count) (hk : (regSpec r).wk = false) (hw : s.writeReg r 0 w = (st, u)) (h1 : st ≠ .ok) (h2 : st ≠ .keyerr)
    (hP : ∀ t : State, t.refusedWith st → t.pgm = u.pgm → t.check = u.check → P t) : completes c s P := by
  have ht := portWrite_refused s u r 0 w st h (placed_of_command r 0 hc hi) (by simp [hk]) hw h1 h2
  exact ⟨_, hx, ht ▸ hP _ ⟨by simp [State.modHspi], hspiError_flag ..⟩ (hspiError_pgm ..) (hspiError_check ..)⟩

/-! ### The program window (R312) -/

@[simp] theorem pgmNext_pgm (s : State) : s.pgmNext.pgm = s.pgm := by
  unfold State.pgmNext; split <;> rfl

@[simp] theorem pgmNext_profs (s : State) : s.pgmNext.profs = s.profs := by
  unfold State.pgmNext; split <;> rfl

theorem index_pgmNext (s : State) : s.pgmNext.fld Fields.PGM_ADDR_INDEX 0 =
    if s.flag Fields.PGM_ADDR_AUTOINC 0 then (s.pgmIndex + 1) % 16384 else s.pgmIndex := by
  unfold State.pgmNext
  split
  · exact (State.fld_setFld_self s Fields.PGM_ADDR_INDEX 0 _ (by decide)).trans (Nat.mod_mod _ _)
  · rfl

/-- Outside the reach sets of the station's program and of a pending handoff, a write stores its word, and INDEX goes on. -/
theorem writePgmData_stores (w : Word) (hreach : (s.stn s.pgmStation).reach.contains (s.pgmIndex / 64) = false)
    (hhand : (s.stn s.pgmStation).handoff = none) (hrow : s.fencedEntry 16 (s.pgmStation * 16384 + s.pgmIndex) = false) :
    ∃ u : State, s.writePgmData w = (.ok, u) ∧ u.pgm = s.pgm.set (s.pgmStation * 16384 + s.pgmIndex) w ∧ u.profs = s.profs ∧
      u.fld Fields.PGM_ADDR_INDEX 0 = if s.flag Fields.PGM_ADDR_AUTOINC 0 then (s.pgmIndex + 1) % 16384 else s.pgmIndex := by
  refine ⟨({ s with pgm := s.pgm.set (s.pgmStation * 16384 + s.pgmIndex) w } : State).pgmNext, ?_, pgmNext_pgm _, pgmNext_profs _,
    index_pgmNext _⟩
  simp only [State.writePgmData, hreach, hhand, hrow, Bool.and_false, Bool.or_self, Bool.false_eq_true, if_false]

/-- In the reach set of a running program a write is refused, and INDEX goes on (R312). -/
theorem writePgmData_busy (w : Word) (hrun : (s.stn s.pgmStation).running = true)
    (hreach : (s.stn s.pgmStation).reach.contains (s.pgmIndex / 64) = true) : s.writePgmData w = (.busy, s.pgmNext) := by
  simp only [State.writePgmData, hrun, hreach, Bool.and_self, Bool.true_or, if_true]

/-! ### CHECK (R313, R314) -/

theorem writeReg_pgmCmd (w : Word) : s.writeReg .PGM_CMD 0 w = s.writePgmCmd w := rfl

theorem writeReg_check : s.writeReg .PGM_CMD 0 (cmdBit 0) = s.pgmCheck := by
  have h0 : bitOf (cmdBit 0) 0 = true := by decide
  have h1 : bitOf (cmdBit 0) 1 = false := by decide
  simp [writeReg_pgmCmd, State.writePgmCmd, h0, h1]

theorem writeReg_handoff : s.writeReg .PGM_CMD 0 (cmdBit 1) = s.pgmHandoff := by
  have h0 : bitOf (cmdBit 1) 0 = false := by decide
  have h1 : bitOf (cmdBit 1) 1 = true := by decide
  simp [writeReg_pgmCmd, State.writePgmCmd, h0, h1]

/-- A fresh load of an EMPTY station is checked from index 0 (R313). -/
theorem pgmCheck_starts (hc : s.check = none) (hk : s.flag Fields.PGM_LOAD_KIND 0 = false)
    (hr : (s.stn s.pgmStation).run = .empty) :
    ∃ u : State, s.pgmCheck = (.ok, u) ∧ u.check = some ⟨s.pgmStation, false, 0, s.flag Fields.PGM_LOAD_MODE 0⟩ ∧
      u.stations = s.stations := by
  refine ⟨{ s with check := some ⟨s.pgmStation, false, 0, s.flag Fields.PGM_LOAD_MODE 0⟩ }, ?_, rfl, rfl⟩
  simp [State.pgmCheck, hc, hk, hr]

theorem pgmCheck_busy (hc : s.check.isSome = true) : s.pgmCheck = (.busy, s.pgmResult 2) := if_pos hc

/-! ### The end of a check (R301 to R303) -/

/-- What the loader reports of a check that has ended: the verdict, and RESULT. -/
def State.judged (s : State) (v : Verdict) (result : Nat) : State :=
  (((({ s with check := none } : State).setFld Fields.PGM_STAT_INDEX 0 v.index).setFld Fields.PGM_STAT_REASON 0 v.reason).setReg
    .PGM_SLACK 0 (wordOfInt v.slack)).pgmResult result

/-- The check is over, RESULT and REASON read what the loader reports, and the mailbox is as it was. -/
theorem judged_reports (s : State) (v : Verdict) (k : Nat) :
    (s.judged v k).check = none ∧ (s.judged v k).mbx = s.mbx ∧ (s.judged v k).fld Fields.PGM_STAT_RESULT 0 = k % 8 ∧
      (s.judged v k).fld Fields.PGM_STAT_REASON 0 = v.reason % 16 := by
  refine ⟨rfl, rfl, State.fld_setFld_self _ Fields.PGM_STAT_RESULT 0 k (by decide), ?_⟩
  rw [State.judged, State.pgmResult, State.fld_setFld_other _ _ _ _ _ _ (by decide) (by decide),
    State.fld_setReg_other _ _ _ _ _ _ (by decide)]
  exact State.fld_setFld_self _ Fields.PGM_STAT_REASON 0 _ (by decide)

section
variable {j : CheckJob} {v : Verdict} (hj : s.check = some j) (hh : j.handoff = false) (hv : s.leadCheck j = v)
include hj hh hv

/-- A fresh program that passes is loaded, in the mode that was asked for. -/
theorem pgmCheckDone_loads (hrun : (s.stn j.station).running = false) (hok : v.reason = 0) :
    s.pgmCheckDone = (s.judged v 0).setStn j.station
      { s.stn j.station with run := .loaded, accepted := !j.maySlip, reach := v.reach, srcs := v.srcs } := by
  have hpass : (decide (v.reason = 0) || j.maySlip) = true := by simp [hok]
  have hstn : (s.judged v 0).stn j.station = s.stn j.station := rfl
  have hfree : (!((s.judged v 0).stn j.station).running) = true := by rw [hstn, hrun]; rfl
  rw [← hstn]
  unfold State.judged at hfree ⊢
  simp only [State.pgmCheckDone, hj, hh, hv, hpass, hfree, Bool.true_and, Bool.false_eq_true, if_true, if_false]

/-- A fresh program that fails, and may not slip, leaves the stations as they are. -/
theorem pgmCheckDone_refuses (hslip : j.maySlip = false) (hbad : v.reason ≠ 0) : s.pgmCheckDone = s.judged v 1 := by
  simp only [State.pgmCheckDone, hj, hh, hv, hslip, hbad, decide_false, Bool.or_self, Bool.false_and, Bool.false_eq_true, if_false]
  rfl

end

/-- With no mailbox command that waits for it, the end of a check is what the loader makes of it. -/
theorem completes_of_checkDone {u : State} {P : State → Prop} (hm : s.mgmtRuns = true) (hu : s.pgmCheckDone = u)
    (hb : u.mbx.busy = false) (hP : P u) : completes .pgmCheckDone s P := by
  have hx : u.mbxChecked = u := by simp [State.mbxChecked, hb]
  exact ⟨_, congrArg Host.Outcome.next ((if_pos hm).trans (hu ▸ hx)), hP⟩

/-! ### HANDOFF (R315, R316, R318) -/

/-- A handoff whose check has passed is armed for the tick that SEQ_START names (R315). -/
theorem pgmHandoff_arms {p : Handoff} (hlt : s.pgmStation < 8) (hp : (s.stn s.pgmStation).handoff = some p)
    (ha : (s.stn s.pgmStation).handoffAt = none) (hr : (s.stn s.pgmStation).run = .running)
    (ht : s.now + 64 ≤ s.seqStartTick s.pgmStation) (hb : s.flag Fields.TIME_STATE_BROKEN 0 = false) :
    ∃ u : State, s.pgmHandoff = (.ok, u) ∧ (u.stn s.pgmStation).handoffAt = some (s.seqStartTick s.pgmStation) := by
  refine ⟨(s.modStn s.pgmStation fun t => { t with handoffAt := some (s.seqStartTick s.pgmStation) }).pgmResult 0, ?_, ?_⟩
  · simp [State.pgmHandoff, State.modStn, hp, ha, hr, hb, Nat.not_lt.2 ht]
  · rw [State.pgmResult, State.setFld_at_stn, State.stn_modStn_self _ _ _ hlt]

/-- While a handoff is in progress, another changes nothing (R21). -/
theorem pgmHandoff_in_progress (hp : (s.stn s.pgmStation).handoff.isSome = true)
    (ha : (s.stn s.pgmStation).handoffAt.isSome = true) : s.pgmHandoff = (.ok, s) := by
  obtain ⟨p, hp⟩ := Option.isSome_iff_exists.1 hp
  simp [State.pgmHandoff, hp, ha]

/-- At its tick the handoff drops what the old program has not released, and the new program starts at its entry (R316). -/
theorem handoffGo_starts {n : Fin 8} {h : Nat} {p : Handoff} (ha : (s.stn n).handoffAt = some h) (hp : (s.stn n).handoff = some p)
    (hr : (s.stn n).run = .running) (he : (s.stn n).endedAt = none) (hh : h ≤ s.now) :
    ∃ x : Station, s.handoffGo n = s.setStn n x ∧ x.thread = Thread.fresh h p.entry ∧ x.handoffAt = none ∧ x.queue = [] ∧
      x.reach = p.reach ∧ x.guaranteed = p.guaranteed ∧ x.run = .running := by
  simp only [State.handoffGo, ha, hp, hr, he, hh]
  exact ⟨_, rfl, rfl, rfl, rfl, rfl, rfl, rfl⟩

end Program

/-- Settles O25: a write of PGM_DATA by `writePgmData_stores` and `writePgmData_busy`, CHECK by `pgmCheck_starts`, its end by
`pgmCheckDone_loads` and `pgmCheckDone_refuses`, HANDOFF by `pgmHandoff_arms` and the tick H by `handoffGo_starts`. -/
theorem programsAreLoaded : Obligations.ProgramsAreLoaded := by
  refine ⟨?_, ?_, ?_, ?_, ?_, ?_, ?_, ?_, ?_⟩
  · intro s w hs hreach hhand hrow
    obtain ⟨u, hu, hpgm, hprofs, hindex⟩ := writePgmData_stores w hreach hhand hrow
    refine completes_of_accepted rfl hs (by decide) (by decide) rfl hu fun fl st => ⟨?_, ⟨rfl, rfl⟩, ?_, hprofs, ?_, ?_⟩
    · exact (congrArg (WMap.get · _) hpgm).trans (WMap.get_set_self ..)
    · exact fun a ha => (congrArg (WMap.get · a) hpgm).trans (WMap.get_set_other _ _ _ _ ha.symm)
    · exact fun hinc => hindex.trans (if_pos hinc)
    · exact fun hinc => hindex.trans (if_neg (Bool.eq_false_iff.1 hinc))
  · exact fun s w hs hrun hreach => completes_of_refused_loader rfl hs (by decide) (by decide) rfl
      (writePgmData_busy w hrun hreach) (by decide) (by decide) fun t hst hpgm _ => ⟨hst, hpgm.trans (pgmNext_pgm s)⟩
  · intro s hs hc hk hr
    obtain ⟨u, hu, hcheck, hst⟩ := pgmCheck_starts hc hk hr
    exact completes_of_accepted rfl hs (by decide) (by decide) rfl (writeReg_check.trans hu) fun fl st => ⟨hcheck, ⟨rfl, rfl⟩, hst⟩
  · exact fun s hs hc => completes_of_refused_loader rfl hs (by decide) (by decide) rfl
      (writeReg_check.trans (pgmCheck_busy hc)) (by decide) (by decide) fun t hst _ hcheck => ⟨hst, hcheck⟩
  · intro s j hm hb hj hh hlt hrun hok
    generalize hv : s.leadCheck j = v at hok ⊢
    obtain ⟨hcheck, hmbx, hresult, hreason⟩ := judged_reports s v 0
    refine completes_of_checkDone hm (pgmCheckDone_loads hj hh hv hrun hok) (by rw [State.setStn_mbx, hmbx, hb]) ?_
    rw [State.stn_setStn_self _ _ _ hlt]
    exact ⟨(State.setStn_check ..).trans hcheck, rfl, rfl, rfl, (State.setStn_at_fld ..).trans hresult,
      (State.setStn_at_fld ..).trans (hreason.trans (by rw [hok]))⟩
  · intro s j hm hb hj hh hslip hbad
    generalize hv : s.leadCheck j = v at hbad ⊢
    obtain ⟨hcheck, hmbx, hresult, -⟩ := judged_reports s v 1
    exact completes_of_checkDone hm (pgmCheckDone_refuses hj hh hv hslip hbad) (by rw [hmbx, hb])
      ⟨hcheck, rfl, hresult⟩
  · intro s p hs hlt hp ha hr ht hbr
    obtain ⟨u, hu, hat⟩ := pgmHandoff_arms hlt hp ha hr ht hbr
    exact completes_of_accepted rfl hs (by decide) (by decide) rfl (writeReg_handoff.trans hu) fun fl st => ⟨hat, rfl, rfl⟩
  · exact fun s hs hp ha => completes_of_accepted rfl hs (by decide) (by decide) rfl
      (writeReg_handoff.trans (pgmHandoff_in_progress hp ha)) fun fl st => ⟨rfl, rfl, rfl⟩
  · intro s n h p ha hp hr he hh
    obtain ⟨x, hgo, hthread, hat, hq, hreach, hg, hrun⟩ := handoffGo_starts ha hp hr he hh
    have hstn := State.stn_setStn_self s n x n.isLt
    exact ⟨s.setStn n x, congrArg Host.Outcome.next hgo, by rw [hstn, hthread]; rfl, by rw [hstn, hat], by rw [hstn, hq],
      by rw [hstn, hreach], by rw [hstn, hg], by rw [hstn, hrun], onlyStation_setStn s n x⟩

end Sys2Proof.Machine

namespace Sys2Proof.Machine

/-! ## Bits and one-bit fields -/

/-- A bit of a word is its field of width 1. -/
theorem bitOf_eq_getBits (w : Word) (n : Nat) : bitOf w n = (getBits w n 1 == 1) := by
  simp [bitOf, getBits, BitVec.getLsbD, Nat.testBit_eq_decide_div_mod_eq, Nat.shiftRight_eq_div_pow, beq_eq_decide]

/-- A flag is the bit of its register. -/
theorem flag_eq_bitOf (s : State) (f : Field) (i : Nat) (h : f.width = 1) : s.flag f i = bitOf (s.reg f.reg i) f.lo := by
  rw [bitOf_eq_getBits, State.flag, State.fld, h]

/-- Replacing some bits of a word leaves a bit apart from them. -/
theorem bitOf_putBits_other (w : Word) (lo width v n : Nat) (hn : n < 32) (h : n < lo ∨ lo + width ≤ n) :
    bitOf (putBits w lo width v) n = bitOf w n := by
  rw [bitOf_eq_getBits, bitOf_eq_getBits, getBits_putBits_other _ _ _ _ _ _ hn h]

/-- Storing a flag makes it read what was stored. -/
theorem flag_setFld_self (s : State) (f : Field) (i : Nat) (b : Bool) (h : f.lo + f.width ≤ 32) (hw : f.width = 1) :
    (s.setFld f i b.toNat).flag f i = b := by
  rw [State.flag, State.fld_setFld_self _ _ _ _ h, hw]
  cases b <;> rfl

/-- Storing a field leaves a flag of another register, or apart from it, alone. -/
theorem flag_setFld_other (s : State) (f g : Field) (i j v : Nat) (h : g.lo + g.width ≤ 32)
    (hd : ¬(f.reg = g.reg ∧ i = j) ∨ g.lo + g.width ≤ f.lo ∨ f.lo + f.width ≤ g.lo) : (s.setFld f i v).flag g j = s.flag g j :=
  congrArg (· == 1) (State.fld_setFld_other s f g i j v h hd)

/-! ## What an output follows (R167, R328, Table 4.2) -/

section
variable (s : State)

/-- Recomputing a divider reference moves what outputs hold, and nothing else. -/
theorem recomputePsi_form (n : Nat) : ∃ os, s.recomputePsi n = { s with outs := os } := by
  unfold State.recomputePsi
  split
  · exact ⟨_, rfl⟩
  · exact ⟨s.outs, rfl⟩

/-- A restart of an output's divider moves what outputs hold, and nothing else. -/
theorem restartOut_form (n k : Nat) : ∃ os, s.restartOut n k = { s with outs := os } := by
  obtain ⟨os, h⟩ := recomputePsi_form (s.modOut n fun x => { x with kr := k, boundary := some s.elapsed }) n
  exact ⟨os, h⟩

variable (o : Fin 32)

/-- The divider index is recomputed, and nothing else of the output. -/
theorem out_recomputePsi : ∃ p, (s.recomputePsi o).out o = { s.out o with psi := p } := by
  unfold State.recomputePsi
  split
  · exact ⟨_, State.out_modOut_self _ _ _ o.isLt⟩
  · exact ⟨_, rfl⟩

theorem out_recomputePsi_other {n : Nat} (h : n ≠ o) : (s.recomputePsi n).out o = s.out o := by
  unfold State.recomputePsi
  split
  · exact State.out_modOut_other _ _ _ _ h
  · rfl

/-- The recomputed index is that of the core followed, at the output's reference tick (R167). -/
theorem psi_recomputePsi {c : Nat} (h : s.srcOf o = some c) :
    ((s.recomputePsi o).out o).psi = (s.core c).psiAt (s.out o).kr := by
  simp only [State.recomputePsi, h, State.out_modOut_self _ _ _ o.isLt]

/-- A restart sets the reference tick, and leaves all else of the output but its index and its boundary. -/
theorem out_restartOut (k : Nat) : ∃ p b, (s.restartOut o k).out o = { s.out o with kr := k, psi := p, boundary := b } := by
  obtain ⟨p, h⟩ := out_recomputePsi (s.modOut o fun x => { x with kr := k, boundary := some s.elapsed }) o
  exact ⟨p, _, h.trans (by rw [State.out_modOut_self _ _ _ o.isLt])⟩

theorem out_restartOut_other {n : Nat} (k : Nat) (h : n ≠ o) : (s.restartOut n k).out o = s.out o :=
  (out_recomputePsi_other _ o h).trans (State.out_modOut_other _ _ _ _ h)

/-- An output moves to a core, and is held gated for a raster channel or is so no more. -/
def State.moveHeld (n v : Nat) (held : Bool) : State := (s.moveOut n v).modOut n fun x => { x with rasterHold := held }

/-- A move stores SRC, and beside it moves what outputs hold, and nothing else. -/
theorem moveHeld_form (n v : Nat) (b : Bool) : ∃ os, s.moveHeld n v b = { s.setFld Fields.OUT_CFG_SRC n v with outs := os } := by
  obtain ⟨os, h⟩ := recomputePsi_form (s.setFld Fields.OUT_CFG_SRC n v) n
  rw [State.moveHeld, State.moveOut, h]
  exact ⟨_, rfl⟩

theorem fld_moveHeld_self (n : Nat) {v : Nat} (b : Bool) (hv : v < 32) :
    (s.moveHeld n v b).fld Fields.OUT_CFG_SRC n = v := by
  obtain ⟨os, h⟩ := moveHeld_form s n v b
  rw [h]
  exact (State.fld_setFld_self s Fields.OUT_CFG_SRC n v (by decide)).trans (Nat.mod_eq_of_lt hv)

/-- A move leaves the fields of OUT_CFG apart from SRC. -/
theorem fld_moveHeld (n v : Nat) (b : Bool) (f : Field) (h : 21 ≤ f.lo) (hf : f.lo + f.width ≤ 32) :
    (s.moveHeld n v b).fld f n = s.fld f n := by
  obtain ⟨os, he⟩ := moveHeld_form s n v b
  rw [he]
  exact State.fld_setFld_other s Fields.OUT_CFG_SRC f n n v hf (.inr (.inr h))

/-- A move leaves every other register. -/
theorem reg_moveHeld (n v : Nat) (b : Bool) (r : RegName) (i : Nat) (h : ¬(RegName.OUT_CFG = r ∧ n = i)) :
    (s.moveHeld n v b).reg r i = s.reg r i := by
  obtain ⟨os, he⟩ := moveHeld_form s n v b
  rw [he]
  exact State.reg_setReg_other s _ _ _ _ _ h

theorem rasterHold_moveHeld (v : Nat) (b : Bool) : ((s.moveHeld o v b).out o).rasterHold = b :=
  congrArg Output.rasterHold (State.out_modOut_self _ _ _ o.isLt)

/-- A move keeps the output's reference tick (R328, Table 4.2). -/
theorem kr_moveHeld (v : Nat) (b : Bool) : ((s.moveHeld o v b).out o).kr = (s.out o).kr := by
  obtain ⟨p, hp⟩ := out_recomputePsi (s.setFld Fields.OUT_CFG_SRC o v) o
  rw [State.moveHeld, State.out_modOut_self _ _ _ o.isLt, State.moveOut, hp]
  rfl

/-- A move takes the index of the core moved to, at the output's reference tick (R328, Table 4.2). -/
theorem psi_moveHeld {v : Nat} (b : Bool) (hv : v < 26) :
    ((s.moveHeld o v b).out o).psi = (s.core v).psiAt (s.out o).kr := by
  have hsrc : (s.setFld Fields.OUT_CFG_SRC o v).srcOf o = some v := (srcOf_setFld s ⟨v, hv⟩ o o).trans (if_pos rfl)
  rw [State.moveHeld, State.out_modOut_self _ _ _ o.isLt, State.moveOut]
  exact psi_recomputePsi _ o hsrc

theorem out_moveHeld_other {n : Nat} (v : Nat) (b : Bool) (h : n ≠ o) : (s.moveHeld n v b).out o = s.out o :=
  (State.out_modOut_other _ _ _ _ h).trans (out_recomputePsi_other _ o h)

/-! ## A write of OUT_CFG (R328, R335) -/

/-- Selecting the divider set in force does nothing (R330). -/
theorem selectDset_same {n d : Nat} (h : d = s.fld Fields.OUT_CFG_DSEL n) : s.selectDset n d = s := if_pos h.symm

/-- The state in which a write of OUT_CFG has stored the HGATE of its word, which is the one in force. -/
def State.hgated (n : Nat) : State := s.setFld Fields.OUT_CFG_HGATE n (bitOf (s.reg .OUT_CFG n) 30).toNat

/-- Storing HGATE leaves the fields of OUT_CFG below it. -/
theorem fld_setHgate (n v : Nat) (f : Field) (h : f.lo + f.width ≤ 30) :
    (s.setFld Fields.OUT_CFG_HGATE n v).fld f n = s.fld f n :=
  State.fld_setFld_other _ _ _ _ _ _ (by omega) (.inr (.inl h))

/-- A write of another SRC moves the output, and one of the same SRC moves nothing. -/
theorem writeOutCfg_src (v : BitVec 5) (h : s.srcAllowed o v.toNat = true) :
    s.writeOutCfg o (putBits (s.reg .OUT_CFG o) 16 5 v.toNat) = (.ok,
      if v.toNat = s.fld Fields.OUT_CFG_SRC o then s.hgated o
      else (s.hgated o).moveHeld o v.toNat false) := by
  have hsrc : getBits (putBits (s.reg .OUT_CFG o) 16 5 v.toNat) 16 5 = v.toNat := by
    rw [getBits_putBits_self _ _ _ _ (by decide), Nat.mod_eq_of_lt v.isLt]
  have hen : bitOf (putBits (s.reg .OUT_CFG o) 16 5 v.toNat) 31 = s.flag Fields.OUT_CFG_EN o :=
    (bitOf_putBits_other _ _ _ _ _ (by decide) (by decide)).trans (flag_eq_bitOf s Fields.OUT_CFG_EN o rfl).symm
  have hgate : bitOf (putBits (s.reg .OUT_CFG o) 16 5 v.toNat) 30 = bitOf (s.reg .OUT_CFG o) 30 :=
    bitOf_putBits_other _ _ _ _ _ (by decide) (by decide)
  have hdsel : getBits (putBits (s.reg .OUT_CFG o) 16 5 v.toNat) 24 2 = s.fld Fields.OUT_CFG_DSEL o :=
    getBits_putBits_other _ _ _ _ _ _ (by decide) (by decide)
  have hkept : (s.hgated o).fld Fields.OUT_CFG_SRC o = s.fld Fields.OUT_CFG_SRC o := fld_setHgate s o _ _ (by decide)
  simp only [State.writeOutCfg, hsrc, hen, hgate, hdsel, h, Bool.not_true, Bool.and_false, bne_self_eq_false, Bool.false_eq_true,
    if_false]
  change (WStatus.ok, (if v.toNat != (s.hgated o).fld Fields.OUT_CFG_SRC o then _ else s.hgated o).selectDset o _) = _
  rw [hkept]
  split
  · next hv =>
    rw [if_neg (by simpa using hv)]
    exact congrArg _ (selectDset_same _ ((fld_moveHeld _ o _ _ _ (by decide) (by decide)).trans
      (fld_setHgate s o _ _ (by decide))).symm)
  · next hv =>
    rw [if_pos (by simpa using hv)]
    exact congrArg _ (selectDset_same _ (fld_setHgate s o _ _ (by decide)).symm)

/-- A write of SRC makes the output follow the core at its reference tick, and leaves the other outputs (R328, Table 4.2). -/
theorem writeOutCfg_follows (v : BitVec 5) (h : s.srcAllowed o v.toNat = true) :
    ∃ u, s.writeOutCfg o (putBits (s.reg .OUT_CFG o) 16 5 v.toNat) = (.ok, u) ∧ u.fld Fields.OUT_CFG_SRC o = v.toNat ∧
      (u.out o).kr = (s.out o).kr ∧
      (v.toNat ≠ s.fld Fields.OUT_CFG_SRC o → v.toNat < 26 → (u.out o).psi = (s.core v.toNat).psiAt (s.out o).kr) ∧
      u.flag Fields.OUT_CFG_EN o = s.flag Fields.OUT_CFG_EN o ∧
      ∀ p : Fin 32, p ≠ o → u.out p = s.out p ∧ u.reg .OUT_CFG p = s.reg .OUT_CFG p := by
  have hen : (s.hgated o).flag Fields.OUT_CFG_EN o = s.flag Fields.OUT_CFG_EN o :=
    flag_setFld_other s _ _ _ _ _ (by decide) (.inr (.inr (by decide)))
  have hreg : ∀ p : Fin 32, p ≠ o → (s.hgated o).reg .OUT_CFG p = s.reg .OUT_CFG p := fun p hp =>
    State.reg_setReg_other _ _ _ _ _ _ fun e => hp (Fin.ext e.2.symm)
  refine ⟨_, writeOutCfg_src s o v h, ?_⟩
  split
  · next hsrc =>
    exact ⟨(fld_setHgate s o _ _ (by decide)).trans hsrc.symm, rfl, fun hne => absurd hsrc hne, hen, fun p hp => ⟨rfl, hreg p hp⟩⟩
  · exact ⟨fld_moveHeld_self _ o _ v.isLt, kr_moveHeld (s.hgated o) o _ _, fun _ hlt => psi_moveHeld (s.hgated o) o _ hlt,
      (congrArg (· == 1) (fld_moveHeld _ o _ _ _ (by decide) (by decide))).trans hen,
      fun p hp => ⟨out_moveHeld_other (s.hgated o) p _ _ fun e => hp (Fin.ext e.symm),
        (reg_moveHeld _ _ _ _ _ _ fun e => hp (Fin.ext e.2.symm)).trans (hreg p hp)⟩⟩

/-- OUT_CFG of an output that no guaranteed program and no raster channel has takes the write (R327, R352). -/
theorem writeReg_outCfg (w : Word) (h : s.outTaken o = false) : s.writeReg .OUT_CFG o w = s.writeOutCfg o w := by
  have hr : s.writeReg .OUT_CFG o w = s.unless (s.outTaken o) .owned (s.writeOutCfg o w) := rfl
  rw [hr, h]; rfl

theorem writeReg_outCfg_taken (w : Word) (h : s.outTaken o = true) : s.writeReg .OUT_CFG o w = (.owned, s) := if_pos h

/-- A SRC that the output may not follow is refused with RANGE (R328). -/
theorem writeOutCfg_src_refused (v : BitVec 5) (h : s.srcAllowed o v.toNat = false) (hv : v.toNat ≠ s.fld Fields.OUT_CFG_SRC o) :
    s.writeOutCfg o (putBits (s.reg .OUT_CFG o) 16 5 v.toNat) = (.range, s) := by
  have hsrc : getBits (putBits (s.reg .OUT_CFG o) 16 5 v.toNat) 16 5 = v.toNat := by
    rw [getBits_putBits_self _ _ _ _ (by decide), Nat.mod_eq_of_lt v.isLt]
  exact if_pos (by simp [hsrc, h, hv])

/-- Switching a domain stores no OUT_CFG. -/
theorem reg_outEnable (n : Nat) (en : Bool) (i : Nat) : (s.outEnable n en).reg .OUT_CFG i = s.reg .OUT_CFG i := by
  unfold State.outEnable
  split
  · split <;> rfl
  · exact State.reg_setReg_other _ _ _ _ _ _ (by simp)

/-- A write that changes EN alone stores it and switches the output's domain (R335). -/
theorem writeOutCfg_en (en : Bool) (h : s.flag Fields.OUT_CFG_EN o = !en) :
    s.writeOutCfg o (setBit (s.reg .OUT_CFG o) 31 en) = (.ok,
      ((s.setFld Fields.OUT_CFG_EN o en.toNat).outEnable o en).setFld Fields.OUT_CFG_HGATE o
        (bitOf (s.reg .OUT_CFG o) 30).toNat) := by
  have hsrc : getBits (setBit (s.reg .OUT_CFG o) 31 en) 16 5 = s.fld Fields.OUT_CFG_SRC o :=
    getBits_putBits_other _ _ _ _ _ _ (by decide) (by decide)
  have hdsel : getBits (setBit (s.reg .OUT_CFG o) 31 en) 24 2 = s.fld Fields.OUT_CFG_DSEL o :=
    getBits_putBits_other _ _ _ _ _ _ (by decide) (by decide)
  have hen : bitOf (setBit (s.reg .OUT_CFG o) 31 en) 31 = en := bitOf_setBit_self _ _ _ (by decide)
  have hgate : bitOf (setBit (s.reg .OUT_CFG o) 31 en) 30 = bitOf (s.reg .OUT_CFG o) 30 :=
    bitOf_setBit_other _ _ _ _ (by decide) (by decide)
  have kept : ∀ f : Field, f.reg = .OUT_CFG → f.lo + f.width ≤ 30 →
      (((s.setFld Fields.OUT_CFG_EN o en.toNat).outEnable o en).setFld Fields.OUT_CFG_HGATE o
        (bitOf (s.reg .OUT_CFG o) 30).toNat).fld f o = s.fld f o := fun f hr hf => by
    rw [fld_setHgate _ _ _ _ hf, fld_of_reg (hr ▸ reg_outEnable ..), State.fld_setFld_other _ _ _ _ _ _ (by omega) (.inr (.inl (by
      exact Nat.le_succ_of_le hf)))]
  simp only [State.writeOutCfg, hsrc, hen, hgate, hdsel, h, bne_self_eq_false, Bool.false_and, Bool.bne_not_self, if_true,
    kept Fields.OUT_CFG_SRC rfl (by decide), Bool.false_eq_true, if_false]
  exact congrArg _ (selectDset_same _ (kept Fields.OUT_CFG_DSEL rfl (by decide)).symm)

/-- The write of EN leaves what it stored. -/
theorem flag_en_stored (en : Bool) (v : Nat) :
    (((s.setFld Fields.OUT_CFG_EN o en.toNat).outEnable o en).setFld Fields.OUT_CFG_HGATE o v).flag Fields.OUT_CFG_EN o = en :=
  (flag_setFld_other _ _ _ _ _ _ (by decide) (.inr (.inr (by decide)))).trans
    ((flag_of_reg (reg_outEnable ..)).trans (flag_setFld_self s _ _ _ (by decide) rfl))

/-- The power state is in PWR_STATE alone. -/
theorem active_setFld (f : Field) (i v : Nat) (h : f.reg ≠ .PWR_STATE) : (s.setFld f i v).active = s.active :=
  congrArg (· == 3) (State.fld_setFld_other s f Fields.PWR_STATE_STATE i 0 v (by decide) (.inl fun e => h e.1))

/-! ### The domain of an output (R335, Table 8.2) -/

theorem outEnable_on (h : s.active = true) (hf : (s.out o).fenced = false) :
    s.outEnable o true = s.modOut o fun x => { x with readyAt := some (s.elapsed + 2001) } := by
  simp [State.outEnable, h, hf]

theorem outEnable_off : s.outEnable o false =
    (s.modOut o fun x => { x with domainOn := false, readyAt := none, rbMiss := 0, rbPhaseRun := 0 }).setReg
      .OUT_RBPHASE o 0x80000000#32 := rfl

/-- EN = 1 starts the domain, which is ready 2,000 ticks later at the latest (R335). -/
theorem writeOutCfg_enables (ha : s.active = true) (hf : (s.out o).fenced = false) (hen : s.flag Fields.OUT_CFG_EN o = false) :
    ∃ u, s.writeOutCfg o (setBit (s.reg .OUT_CFG o) 31 true) = (.ok, u) ∧ u.flag Fields.OUT_CFG_EN o = true ∧
      (u.out o).readyAt = some (s.elapsed + 2001) ∧ (u.out o).domainOn = (s.out o).domainOn := by
  have hout : ((s.setFld Fields.OUT_CFG_EN o true.toNat).outEnable o true).out o =
      { s.out o with readyAt := some (s.elapsed + 2001) } := by
    rw [outEnable_on _ o ((active_setFld s _ _ _ (by decide)).trans ha) hf, State.out_modOut_self _ _ _ o.isLt,
      State.setFld_at_out, State.setFld_elapsed]
  refine ⟨_, writeOutCfg_en s o true hen, flag_en_stored s o true _, ?_, ?_⟩ <;> rw [State.setFld_at_out, hout]

/-- EN = 0 takes the domain down, and the read-back phase with it (R335). -/
theorem writeOutCfg_disables (hen : s.flag Fields.OUT_CFG_EN o = true) :
    ∃ u, s.writeOutCfg o (setBit (s.reg .OUT_CFG o) 31 false) = (.ok, u) ∧ u.flag Fields.OUT_CFG_EN o = false ∧
      (u.out o).readyAt = none ∧ (u.out o).domainOn = false ∧ u.reg .OUT_RBPHASE o = 0x80000000#32 := by
  have hout : ((s.setFld Fields.OUT_CFG_EN o false.toNat).outEnable o false).out o =
      { s.out o with domainOn := false, readyAt := none, rbMiss := 0, rbPhaseRun := 0 } := by
    rw [outEnable_off, State.setReg_at_out, State.out_modOut_self _ _ _ o.isLt, State.setFld_at_out]
  have hphase : ((s.setFld Fields.OUT_CFG_EN o false.toNat).outEnable o false).reg .OUT_RBPHASE o = 0x80000000#32 := by
    rw [outEnable_off, State.reg_setReg_self]
  refine ⟨_, writeOutCfg_en s o false hen, flag_en_stored s o false _, ?_, ?_, (reg_setFld_ne _ _ _ _ _ _ (by decide)).trans hphase⟩ <;>
    rw [State.setFld_at_out, hout]

theorem outReady_of_waiting {k : Nat} (h : (s.out o).readyAt = some k) :
    s.outReady o = s.modOut o fun x => { x with readyAt := some (min k (s.elapsed + 1)) } := by
  simp only [State.outReady, h]

theorem outReady_of_none (h : (s.out o).readyAt = none) : s.outReady o = s := by
  simp only [State.outReady, h]

/-- Reason OFF ends at its tick. -/
theorem outOn_due {k : Nat} (h : (s.out o).readyAt = some k) (hk : k ≤ s.elapsed) :
    ((s.outOn o).out o).domainOn = true ∧ ((s.outOn o).out o).readyAt = none := by
  simp [State.outOn, h, hk, State.outBoundary]

theorem outOn_early {k : Nat} (h : (s.out o).readyAt = some k) (hk : s.elapsed < k) : s.outOn o = s := by
  simp [State.outOn, h, Nat.not_le.2 hk]

end

/-- A detector whose rule leaves the state as it is leaves it so whether the device runs or not. -/
theorem completes_of_idle_detector {c : Instr} {s : State} {f : State → State} (hx : exec c s = .next (s.detector f)) (h : f s = s) :
    completes c s fun t => t = s :=
  ⟨_, hx, by rw [State.detector, h, ite_self]⟩

/-- A command that writes OUT_CFG of an output that a guaranteed program or a raster channel has is refused, and leaves the outputs. -/
theorem outCfg_refused {c : Instr} {s : State} {o : Fin 32} {w : Word} (hx : exec c s = .next (s.portWrite (regAddr .OUT_CFG o) w))
    (h : s.serves = true) (ho : s.outTaken o = true) : completes c s fun t => t.refusedWith .owned ∧ t.outs = s.outs :=
  completes_of_refused hx h (by decide) o.isLt rfl (writeReg_outCfg_taken s o w ho) (by decide) (by decide)
    fun _ hrf hA _ => ⟨hrf, congrArg Anchorage.outs hA⟩

/-- Settles O26: a move by `writeOutCfg_src` and `out_moveOut`, an enable by `writeOutCfg_en`, refusals by `writeOutCfg_src_refused`
and `outCfg_refused`, the end of reason OFF by `outReady_of_waiting` and `outOn_due`. -/
theorem outputsFollowAndSwitch : Obligations.OutputsFollowAndSwitch := by
  refine ⟨?_, ?_, ?_, ?_, ?_, ?_, ?_, ?_⟩
  · intro s o v h ho hv
    obtain ⟨u, hw, hsrc, hkr, hpsi, hen, hother⟩ := writeOutCfg_follows s o v hv
    exact completes_of_accepted rfl h (by decide) o.isLt rfl ((writeReg_outCfg s o _ ho).trans hw) fun fl st =>
      ⟨hsrc, hkr, hpsi, hen, ⟨rfl, rfl⟩, hother⟩
  · intro s o v h ho hv hne
    have hu := (writeReg_outCfg s o _ ho).trans (writeOutCfg_src_refused s o v hv hne)
    exact completes_of_refused rfl h (by decide) o.isLt rfl hu (by decide) (by decide) fun t hrf hA hreg =>
      ⟨hrf, congrArg Anchorage.outs hA, hreg _ _ (by decide)⟩
  · intro s o v en h ho
    exact ⟨outCfg_refused rfl h ho, outCfg_refused rfl h ho⟩
  · intro s o h ha ho hf hen
    obtain ⟨u, hw, hflag, hready, hon⟩ := writeOutCfg_enables s o ha hf hen
    exact completes_of_accepted rfl h (by decide) o.isLt rfl ((writeReg_outCfg s o _ ho).trans hw) fun fl st =>
      ⟨hready, ⟨rfl, rfl⟩, hflag, hon⟩
  · intro s o h ho hen
    obtain ⟨u, hw, hflag, hready, hon, hphase⟩ := writeOutCfg_disables s o hen
    exact completes_of_accepted rfl h (by decide) o.isLt rfl ((writeReg_outCfg s o _ ho).trans hw) fun fl st =>
      ⟨hon, hready, hflag, hphase, ⟨rfl, rfl⟩⟩
  · intro s o k hup hk
    exact completes_of_detector rfl hup (outReady_of_waiting s o hk) ⟨by simp, by simp, rfl, fun p hp =>
      State.out_modOut_other _ _ _ _ fun e => hp (Fin.ext e.symm)⟩
  · intro s o hk
    exact completes_of_idle_detector rfl (outReady_of_none s o hk)
  · intro s o k hk
    exact ⟨outOn_due s o hk, outOn_early s o hk⟩

end Sys2Proof.Machine

namespace Sys2Proof.Machine

/-! ## Raster channels: bindings and staged changes (R351 to R355) -/

@[simp] theorem hspiError_ras (s : State) (a code : Nat) : (s.hspiError a code).ras = s.ras := by
  unfold State.hspiError; split <;> simp

/-- A command that writes a register whose rule refuses it shows the status at the port, and leaves channels and outputs (R610, R614). -/
theorem completes_of_refused_ras {c : Instr} {s : State} {r : RegName} {i : Nat} {w : Word} {st : WStatus} {P : State → Prop}
    (hx : exec c s = .next (s.portWrite (regAddr r i) w)) (h : s.serves = true) (hc : commandRegs.contains r = true)
    (hi : i < (regSpec r).count) (hk : (regSpec r).wk = false) (hw : s.writeReg r i w = (st, s)) (h1 : st ≠ .ok) (h2 : st ≠ .keyerr)
    (hP : ∀ t : State, t.refusedWith st → t.ras = s.ras → t.outs = s.outs → P t) : completes c s P := by
  have ht := portWrite_refused s s r i w st h (placed_of_command r i hc hi) (by simp [hk]) hw h1 h2
  exact ⟨_, hx, ht ▸ hP _ ⟨by simp [State.modHspi], hspiError_flag ..⟩ (hspiError_ras ..)
    (congrArg Anchorage.outs (anchorage_hspiError ..))⟩

/-- A channel is read from the channels alone. -/
theorem rasCh_of_ras {s t : State} (h : t.ras = s.ras) (n : Nat) : t.rasCh n = s.rasCh n :=
  congrArg (·[n]?.getD default) h

@[simp] theorem rasCh_setRas_self (s : State) (r : Fin 2) (x : Raster) : (s.setRas r x).rasCh r = x :=
  State.rasCh_modRas_self s r (fun _ => x) r.isLt

section
variable (s : State) (r : Fin 2)

/-! ### RAS_CFG (R351, R352) -/

/-- The word of RAS_CFG that a write stores. -/
def rasCfgWord (w : Word) (en : Bool) : Word := setBit w 31 en &&& 0xFFFFFF00#32

theorem bitOf_rasCfgWord (w : Word) (en : Bool) : bitOf (rasCfgWord w en) 31 = en := by
  have hm : (0xFFFFFF00#32 : Word).getLsbD 31 = true := by decide
  rw [rasCfgWord, bitOf, BitVec.getLsbD_and, hm, Bool.and_true]
  exact bitOf_setBit_self _ _ _ (by decide)

theorem core_rasCfgWord (w : Word) (en : Bool) : getBits (rasCfgWord w en) 24 5 = getBits w 24 5 :=
  (getBits_and_of_within _ _ _ _ (by decide)).trans (getBits_putBits_other _ _ _ _ _ _ (by decide) (by decide))

theorem coreEnable_form (c : Nat) : ∃ ks, s.coreEnable c true = { s with cores := ks } := by
  unfold State.coreEnable
  extract_lets k
  rw [if_pos rfl]
  split
  · exact ⟨s.cores, rfl⟩
  · split
    · exact ⟨_, rfl⟩
    · exact ⟨s.cores, rfl⟩

/-- What a channel is when it has just been bound (R351). -/
def State.boundCh (n : Nat) : Raster :=
  ⟨true, none, none, false, false, (s.rasCh n).lastKind, none, false, s.elapsed, false, false, false⟩

/-- The state in which a channel is bound and EN of its core stored, and then the one in which the core is enabled. -/
def State.rasEntered (n : Nat) (w : Word) : State :=
  ((s.setReg .RAS_CFG n (rasCfgWord w true)).setRas n (s.boundCh n)).setFld Fields.CORE_CFG_EN (getBits w 24 5) 1
def State.rasBound (n : Nat) (w : Word) : State := (s.rasEntered n w).coreEnable (getBits w 24 5) true

/-- Outputs that a channel takes follow its core and are held gated until its first change (R351). -/
def State.takeOuts (l : List Nat) (c : Nat) : State := s.each l fun s k => s.moveHeld k c true

/-- A free core and free outputs are bound (R351). -/
theorem writeRasCfg_binds {w : Word} (hb : (s.rasCh r).bound = false) (hc : getBits w 24 5 < 26)
    (hr : (s.core (getBits w 24 5)).role = .unassigned) (hras : s.rasOfCore (getBits w 24 5) = none)
    (hmap : s.mapOwner (getBits w 24 5) = none) (hmask : s.reg .RAS_OUTMASK r &&& s.reg .RAS_OUTMASK (1 - r.val) = 0)
    (ho : ∀ o : Fin 32, bitOf (s.reg .RAS_OUTMASK r) o = true → s.outOwner o = none) :
    s.writeRasCfg r (setBit w 31 true) = (.ok, (s.rasBound r w).takeOuts (bitsOf (s.reg .RAS_OUTMASK r) 32) (getBits w 24 5)) := by
  have owned : ((bitsOf (s.reg .RAS_OUTMASK r) 32).any fun k => (s.outOwner k).isSome) = false :=
    List.any_eq_false.2 fun n hn => by
      obtain ⟨hlt, hbit⟩ := (mem_bitsOf _ _ _).1 hn
      simp [ho ⟨n, hlt⟩ hbit]
  have hen := bitOf_rasCfgWord w true
  have hcore := core_rasCfgWord w true
  rw [rasCfgWord] at hen hcore
  simp only [State.writeRasCfg, hb, hen, hcore, hr, hras, hmap, hmask, owned, Nat.not_le.2 hc]
  rfl

/-- A core that is not Unassigned is refused with RANGE (R351). -/
theorem writeRasCfg_refused {w : Word} (hb : (s.rasCh r).bound = false) (hr : (s.core (getBits w 24 5)).role ≠ .unassigned) :
    s.writeRasCfg r (setBit w 31 true) = (.range, s) := by
  have hen := bitOf_rasCfgWord w true
  have hcore := core_rasCfgWord w true
  rw [rasCfgWord] at hen hcore
  simp [State.writeRasCfg, hb, hen, hcore, hr]

/-- A bound channel is unbound, its pending change is dropped, and the outputs stay as they are (R352). -/
theorem writeRasCfg_unbinds (w : Word) (hb : (s.rasCh r).bound = true) (ha : (s.rasCh r).applying = false) :
    ∃ u, s.writeRasCfg r (setBit w 31 false) = (.ok, u) ∧ (u.rasCh r).bound = false ∧ (u.rasCh r).pending = none ∧
      u.flag Fields.RAS_CFG_EN r = false ∧ u.outs = s.outs := by
  have hen := bitOf_rasCfgWord w false
  have hu : s.writeRasCfg r (setBit w 31 false) = (.ok, (s.setReg .RAS_CFG r (rasCfgWord w false)).setRas r
      { s.rasCh r with bound := false, pending := none, applyAt := none, held := false }) := by
    rw [rasCfgWord] at hen
    simp [State.writeRasCfg, hb, ha, hen, rasCfgWord]
  refine ⟨_, hu, ?_, ?_, ?_, rfl⟩
  · rw [rasCh_setRas_self]
  · rw [rasCh_setRas_self]
  · rw [State.setRas_at_flag, flag_eq_bitOf _ _ _ rfl]
    exact (congrArg (bitOf · 31) (State.reg_setReg_self ..)).trans hen

/-- While a change is applied the channel stays bound (R352). -/
theorem writeRasCfg_busy (w : Word) (hb : (s.rasCh r).bound = true) (ha : (s.rasCh r).applying = true) :
    s.writeRasCfg r (setBit w 31 false) = (.busy, s) := by
  have hen := bitOf_rasCfgWord w false
  rw [rasCfgWord] at hen
  simp [State.writeRasCfg, hb, ha, hen]

/-! ### What a binding leaves -/

/-- Enabling the core moves what cores hold, and nothing else. -/
theorem rasBound_form (w : Word) : ∃ ks, s.rasBound r w = { s.rasEntered r w with cores := ks } := coreEnable_form ..

theorem rasCh_rasBound (w : Word) : (s.rasBound r w).rasCh r = s.boundCh r := by
  obtain ⟨ks, h⟩ := rasBound_form s r w
  have he : (s.rasEntered r w).rasCh r = s.boundCh r := by rw [State.rasEntered, State.setFld_at_rasCh, rasCh_setRas_self]
  rw [h]
  exact he

theorem core_rasBound (w : Word) : (s.rasBound r w).fld Fields.RAS_CFG_CORE r = getBits w 24 5 := by
  obtain ⟨ks, h⟩ := rasBound_form s r w
  have he : (s.rasEntered r w).reg .RAS_CFG r = rasCfgWord w true := by
    rw [State.rasEntered, reg_setFld_ne _ _ _ _ _ _ (by decide), State.setRas_at_reg, State.reg_setReg_self]
  rw [h]
  exact (congrArg (getBits · 24 5) he).trans (core_rasCfgWord w true)

theorem coreEn_rasBound (w : Word) : (s.rasBound r w).flag Fields.CORE_CFG_EN (getBits w 24 5) = true := by
  obtain ⟨ks, h⟩ := rasBound_form s r w
  have he : (s.rasEntered r w).flag Fields.CORE_CFG_EN (getBits w 24 5) = true :=
    flag_setFld_self _ Fields.CORE_CFG_EN _ true (by decide) rfl
  rw [h]
  exact he

theorem reg_takeOuts (l : List Nat) (c : Nat) (x : RegName) (i : Nat) (h : x ≠ .OUT_CFG) :
    (s.takeOuts l c).reg x i = s.reg x i :=
  State.each_keeps (·.reg x i) _ (fun u k => reg_moveHeld u k c true x i fun e => h e.1.symm) s l

theorem ras_takeOuts (l : List Nat) (c : Nat) : (s.takeOuts l c).ras = s.ras :=
  State.each_keeps State.ras _ (fun u k => by obtain ⟨os, h⟩ := moveHeld_form u k c true; rw [h]; rfl) s l

theorem src_takeOuts (l : List Nat) {c : Nat} (hc : c < 26) (o : Fin 32) (ho : o.val ∈ l) :
    (s.takeOuts l c).fld Fields.OUT_CFG_SRC o = c :=
  (State.each_decides (·.fld Fields.OUT_CFG_SRC o) o c _ (fun u n => by
    split
    · next e => rw [← e, fld_moveHeld_self _ _ _ (by omega)]
    · next e => exact fld_of_reg (reg_moveHeld _ _ _ _ _ _ fun h => e h.2.symm)) s l).trans (if_pos ho)

theorem rasterHold_takeOuts (l : List Nat) (c : Nat) (o : Fin 32) (ho : o.val ∈ l) :
    ((s.takeOuts l c).out o).rasterHold = true :=
  (State.each_decides (fun u : State => (u.out o).rasterHold) o true _ (fun u n => by
    split
    · next e => rw [← e, rasterHold_moveHeld]
    · next e => rw [out_moveHeld_other u o c true fun h => e h.symm]) s l).trans (if_pos ho)

/-! ### RAS_CTL (R355) -/

/-- STAGE takes a valid staged setting as the pending change. -/
theorem writeRasCtl_stages (ha : (s.rasCh r).applying = false) (hv : (s.rasStaged r).setting.valid = true)
    (hg : 200 ≤ (s.rasStaged r).gtime) : s.writeRasCtl r (cmdBit 31) = (.ok, s.modRas r fun x =>
      { x with pending := some (s.rasStaged r), applyAt := none, held := false, since := s.elapsed, timedOut := false }) := by
  have h31 : bitOf (cmdBit 31) 31 = true := by decide
  have h30 : bitOf (cmdBit 31) 30 = false := by decide
  have h7 : bitOf (cmdBit 31) 7 = false := by decide
  simp [State.writeRasCtl, h31, h30, h7, ha, hv, Nat.not_lt.2 hg]

/-- STAGE of an invalid setting, or of a glide that is too short, is refused with RANGE. -/
theorem writeRasCtl_refused (ha : (s.rasCh r).applying = false)
    (h : (s.rasStaged r).setting.valid = false ∨ (s.rasStaged r).gtime < 200) : s.writeRasCtl r (cmdBit 31) = (.range, s) := by
  have h31 : bitOf (cmdBit 31) 31 = true := by decide
  rcases h with h | h <;> simp [State.writeRasCtl, h31, ha, h]

/-- CANCEL discards the pending change. -/
theorem writeRasCtl_cancels (ha : (s.rasCh r).applying = false) :
    s.writeRasCtl r (cmdBit 30) = (.ok, s.modRas r fun x => { x with pending := none, applyAt := none, held := false }) := by
  have h31 : bitOf (cmdBit 30) 31 = false := by decide
  have h30 : bitOf (cmdBit 30) 30 = true := by decide
  have h7 : bitOf (cmdBit 30) 7 = false := by decide
  simp [State.writeRasCtl, h31, h30, h7, ha]

end

/-! ## What gates an output is in four registers (Table 8.2) -/

section
variable (s : State) (r : RegName) (i : Nat) (v : Word)

/-- The registers that the gating reasons are read from. -/
def gateRegs : List RegName := [.OUT_CFG, .ANC_COREMAP, .ANC_GLOBAL, .TIME_STATE]

theorem fld_setReg_of_mem {f : Field} {l : List RegName} (h : r ∉ l) (hf : f.reg ∈ l) (j : Nat) :
    (s.setReg r i v).fld f j = s.fld f j :=
  State.fld_setReg_other _ _ _ _ _ _ fun e => h (e.1 ▸ hf)

/-- Storing another register gates and ungates nothing. -/
theorem gated_setReg (h : r ∉ gateRegs) (o : Nat) : (s.setReg r i v).gated o = s.gated o := by
  have hfld : ∀ f : Field, f.reg ∈ gateRegs → ∀ j, (s.setReg r i v).fld f j = s.fld f j := fun f hf =>
    fld_setReg_of_mem s r i v h hf
  have hanc : ∀ c, (s.setReg r i v).ancOf c = s.ancOf c := fun c => by
    rw [State.ancOf, State.ancOf, State.reg_setReg_other s r i v _ _ fun e => h (e.1 ▸ by decide)]
  have hsrc : (s.setReg r i v).srcOf o = s.srcOf o := by
    rw [State.srcOf, State.srcOf, hfld _ (by decide)]
  have hgates : ∀ c, (s.setReg r i v).anchorGates c = s.anchorGates c := fun c => by
    simp (disch := decide) only [State.anchorGates, State.roleless, State.cond, State.flag, hanc, hfld, State.setReg_at_anc,
      State.setReg_primary]
  unfold State.gated State.gateWhy
  rw [State.flag, hfld _ (by decide), hfld Fields.OUT_CFG_HGATE (by decide), hsrc, funext hgates]
  rfl

end

section
variable (s : State) (r : Fin 2)

theorem rasGated_setReg {x : RegName} (hm : x ≠ .RAS_OUTMASK) (h : x ∉ gateRegs) (i : Nat) (v : Word) :
    (s.setReg x i v).rasGated r = s.rasGated r := by
  have houts : (s.setReg x i v).rasOuts r = s.rasOuts r := by
    rw [State.rasOuts, State.rasOuts, State.reg_setReg_other _ _ _ _ _ _ fun e => hm e.1]
  simp only [State.rasGated, houts, gated_setReg s x i v h]

/-! ## TE edges (R354, R357) -/

/-- A qualified edge at an elapsed tick stamps the channel and schedules a pending change two ticks later (R354, R356). -/
def Raster.teSeen (x : Raster) (k : Nat) : Raster :=
  { x with lastTe := some k, prevTe := x.lastTe.isSome || x.prevTe, lost := false, timedOut := false, tainted := false, held := false
           applyAt := if x.pending.isSome && !x.applying && x.applyAt.isNone then some (k + 2) else x.applyAt }

/-- What an edge that follows another measures: the interval and the frame count (R354, R357). -/
def State.teMeasured (n k edges : Nat) : State :=
  (s.setReg .RAS_TEIVL n (BitVec.ofNat 32 (min (s.elapsed - k) 0xFFFFFFFF))).setReg .RAS_FCOUNT n (BitVec.ofNat 32 edges)

/-- The frame count is off by more than TOL, and the interval was not spoilt (R357, R359). -/
def State.frameOff (n edges : Nat) (gatedIn : Bool) : Prop :=
  (s.reg .RAS_EXPECT n).toNat ≠ 0 ∧ !(s.rasCh n).tainted ∧ !gatedIn ∧ !s.rasGated n ∧
    s.fld Fields.RAS_CFG_TOL n < max edges (s.reg .RAS_EXPECT n).toNat - min edges (s.reg .RAS_EXPECT n).toNat

/-- The state in which FRAME_ERR has been raised and counted (R357). -/
def State.frameErr (n : Nat) : State := (s.raiseEvent (Src.ras_FRAME_ERR n) 0).bump Fields.RAS_CNT_FRAMEERR n 1

/-- A pulse shorter than TEMINW is no edge. -/
theorem teEdge_short {width : Nat} (h : width < s.fld1 Fields.RAS_CFG_TEMINW r) (edges : Nat) (g : Bool) :
    s.teEdge r width edges g = s :=
  if_pos (by simp [h])

/-- The first edge of a channel stamps it. -/
theorem teEdge_first {width : Nat} (hb : (s.rasCh r).bound = true) (hw : s.fld1 Fields.RAS_CFG_TEMINW r ≤ width)
    (hl : (s.rasCh r).lastTe = none) (edges : Nat) (g : Bool) :
    s.teEdge r width edges g = s.modRas r fun y => y.teSeen s.elapsed := by
  simp only [State.teEdge, hb, hl, Nat.not_lt.2 hw]
  rfl

/-- A later edge is measured, and a frame count that is off is raised before the channel is stamped. -/
theorem teEdge_next {width k : Nat} (hb : (s.rasCh r).bound = true) (hw : s.fld1 Fields.RAS_CFG_TEMINW r ≤ width)
    (hl : (s.rasCh r).lastTe = some k) (edges : Nat) (g : Bool) :
    ∃ u, s.teEdge r width edges g = u.modRas r (fun y => y.teSeen u.elapsed) ∧
      ((s.teMeasured r k edges).frameOff r edges g → u = (s.teMeasured r k edges).frameErr r) ∧
      (¬(s.teMeasured r k edges).frameOff r edges g → u = s.teMeasured r k edges) := by
  unfold State.teEdge
  extract_lets x s1
  rw [if_neg (by simp [x, hb, hw])]
  refine ⟨s1, rfl, ?_⟩
  simp only [s1, x, hl]
  exact ⟨fun h => if_pos h, fun h => if_neg h⟩

theorem ras_frameErr (n : Nat) : (s.frameErr n).ras = s.ras ∧ (s.frameErr n).elapsed = s.elapsed := by
  obtain ⟨rs, h⟩ := raiseAs_form s (Src.ras_FRAME_ERR n) s.now 0 false false
  rw [State.frameErr, State.bump_ras, State.bump_elapsed, State.raiseEvent, h]
  exact ⟨rfl, rfl⟩

theorem reg_frameErr (n : Nat) (x : RegName) (i : Nat) (h : x ≠ .RAS_CNT) : (s.frameErr n).reg x i = s.reg x i :=
  (reg_bump_ne _ _ _ _ _ _ h).trans (congrArg (·.get x i) (raiseEvent_regs ..))

/-- A qualified edge stamps the channel; the interval since the last one is measured (R354). -/
theorem teEdge_seen {width : Nat} (hb : (s.rasCh r).bound = true) (hw : s.fld1 Fields.RAS_CFG_TEMINW r ≤ width) (edges : Nat)
    (g : Bool) : (s.teEdge r width edges g).rasCh r = (s.rasCh r).teSeen s.elapsed ∧
      ∀ k, (s.rasCh r).lastTe = some k →
        (s.teEdge r width edges g).reg .RAS_TEIVL r = BitVec.ofNat 32 (min (s.elapsed - k) 0xFFFFFFFF) := by
  cases hl : (s.rasCh r).lastTe with
  | none =>
    rw [teEdge_first s r hb hw hl, State.rasCh_modRas_self _ _ _ r.isLt]
    exact ⟨rfl, nofun⟩
  | some k =>
    obtain ⟨u, hu, hoff, hin⟩ := teEdge_next s r hb hw hl edges g
    have hmeas : (s.teMeasured r k edges).reg .RAS_TEIVL r = BitVec.ofNat 32 (min (s.elapsed - k) 0xFFFFFFFF) := by
      rw [State.teMeasured, State.reg_setReg_other _ _ _ _ _ _ (by simp), State.reg_setReg_self]
    have hsame : u.ras = s.ras ∧ u.elapsed = s.elapsed ∧ u.reg .RAS_TEIVL r = (s.teMeasured r k edges).reg .RAS_TEIVL r := by
      by_cases h : (s.teMeasured r k edges).frameOff r edges g
      · rw [hoff h, reg_frameErr _ _ _ _ (by decide), (ras_frameErr _ _).1, (ras_frameErr _ _).2]
        exact ⟨rfl, rfl, rfl⟩
      · rw [hin h]
        exact ⟨rfl, rfl, rfl⟩
    obtain ⟨hras, helapsed, hreg⟩ := hsame
    rw [hu, State.rasCh_modRas_self _ _ _ r.isLt, rasCh_of_ras hras, helapsed, State.modRas_at_reg, hreg, hmeas]
    exact ⟨rfl, fun j hj => by rw [Option.some.inj hj]⟩

/-- An edge whose frame count is off by more than TOL raises FRAME_ERR, unless the interval was spoilt (R357, R359). -/
theorem teEdge_frameErr {width edges k : Nat} (hb : (s.rasCh r).bound = true) (hw : s.fld1 Fields.RAS_CFG_TEMINW r ≤ width)
    (hl : (s.rasCh r).lastTe = some k) (he : s.reg .RAS_EXPECT r ≠ 0) (ht : (s.rasCh r).tainted = false)
    (hg : s.rasGated r = false)
    (hoff : s.fld Fields.RAS_CFG_TOL r < max edges (s.reg .RAS_EXPECT r).toNat - min edges (s.reg .RAS_EXPECT r).toNat) :
    ∃ x : Raise, (s.teEdge r width edges false).raises = s.raises ++ [x] ∧ x.fid = Src.ras_FRAME_ERR r := by
  have hreg : ∀ x, x ≠ .RAS_TEIVL → x ≠ .RAS_FCOUNT → (s.teMeasured r k edges).reg x r = s.reg x r := fun x h1 h2 =>
    (State.reg_setReg_other _ _ _ _ _ _ fun e => h2 e.1.symm).trans (State.reg_setReg_other _ _ _ _ _ _ fun e => h1 e.1.symm)
  have hgated : (s.teMeasured r k edges).rasGated r = false := by
    rw [State.teMeasured, rasGated_setReg _ _ (by decide) (by decide), rasGated_setReg _ _ (by decide) (by decide), hg]
  have hcond : (s.teMeasured r k edges).frameOff r edges false := by
    rw [State.frameOff, hreg _ (by decide) (by decide), hgated, fld_of_reg (hreg .RAS_CFG (by decide) (by decide)),
      show (s.teMeasured r k edges).rasCh r = s.rasCh r from rfl, ht]
    exact ⟨fun h => he (BitVec.eq_of_toNat_eq h), rfl, rfl, rfl, hoff⟩
  obtain ⟨u, hu, herr, -⟩ := teEdge_next s r hb hw hl edges false
  obtain ⟨x, hx, hf, -⟩ := raiseEvent_of_not_fenced (s.teMeasured r k edges) (Src.ras_FRAME_ERR r) 0 rfl
  refine ⟨x, ?_, hf⟩
  rw [hu, herr hcond, State.modRas_raises, State.frameErr, hx]
  rfl

/-! ## TE timeouts (R358) -/

/-- The timeout has run out for a channel whose absence of TE is new. -/
def Raster.teOver (x : Raster) : Raster := { x with lost := true, timedOut := true, tainted := true }

/-- The state in which a new absence of TE has been raised, marked and counted. -/
def State.teAbsent (n : Nat) : State :=
  (((s.raiseEvent (Src.ras_TE_LOST n) 0).stick Fields.RAS_CTL_TEMISSING n).bump Fields.RAS_CNT_TIMEOUT n 1).modRas n Raster.teOver

/-- A new absence raises TE_LOST, marks TEMISSING and the channel, and leaves POLICY (R358). -/
theorem teAbsent_facts :
    (s.teAbsent r).rasCh r = (s.rasCh r).teOver ∧ (s.teAbsent r).elapsed = s.elapsed ∧
      (s.teAbsent r).flag Fields.RAS_CTL_TEMISSING r = true ∧
      (s.teAbsent r).flag Fields.RAS_CFG_POLICY r = s.flag Fields.RAS_CFG_POLICY r ∧
      ∃ x : Raise, (s.teAbsent r).raises = s.raises ++ [x] ∧ x.fid = Src.ras_TE_LOST r := by
  obtain ⟨x, hx, hf, -⟩ := raiseEvent_of_not_fenced s (Src.ras_TE_LOST r) 0 rfl
  rw [State.teAbsent, hx, State.rasCh_modRas_self _ _ _ r.isLt, State.modRas_at_flag, State.modRas_at_flag,
    flag_of_reg (reg_bump_ne _ _ _ _ _ _ (by decide)), flag_of_reg (reg_bump_ne _ _ _ _ _ _ (by decide)),
    State.flag_stick_self _ _ _ (by decide) rfl, flag_of_reg (reg_stick_ne _ _ _ _ _ (by decide))]
  exact ⟨rfl, rfl, rfl, rfl, x, rfl, hf⟩

section
variable (hl : (s.rasCh r).lost = false) (hp : (s.rasCh r).pending.isSome = true) (ha : (s.rasCh r).applying = false)
  (hat : (s.rasCh r).applyAt = none)
include hl hp ha hat

/-- The timeout of a channel with a change pending marks the absence, and then forces or holds the change, by POLICY (R358). -/
theorem teLost_pending : s.teLost r = if s.flag Fields.RAS_CFG_POLICY r then
      ((s.teAbsent r).raiseEvent (Src.ras_RAS_FORCED r) 0).modRas r fun y => { y with applyAt := some (s.elapsed + 2) }
    else (s.teAbsent r).modRas r fun y => { y with held := true } := by
  obtain ⟨-, helapsed, -, hpolicy, -⟩ := teAbsent_facts s r
  rw [← hpolicy, ← helapsed]
  simp only [State.teLost, hl, hp, ha, hat]
  rfl

/-- With POLICY 1 a pending change is forced two ticks after the timeout. -/
theorem teLost_forces (h : s.flag Fields.RAS_CFG_POLICY r = true) :
    (s.teLost r).rasCh r = { (s.rasCh r).teOver with applyAt := some (s.elapsed + 2) } ∧
      (s.teLost r).regs = (s.teAbsent r).regs ∧
      ∃ x y : Raise, (s.teLost r).raises = s.raises ++ [x, y] ∧ x.fid = Src.ras_TE_LOST r ∧ y.fid = Src.ras_RAS_FORCED r := by
  obtain ⟨hch, -, -, -, x, hraises, hf⟩ := teAbsent_facts s r
  obtain ⟨y, hy, hfy, -⟩ := raiseEvent_of_not_fenced (s.teAbsent r) (Src.ras_RAS_FORCED r) 0 rfl
  rw [teLost_pending s r hl hp ha hat, if_pos h, hy, State.rasCh_modRas_self _ _ _ r.isLt]
  generalize s.teAbsent r = u at *
  exact ⟨congrArg (fun z : Raster => { z with applyAt := some (s.elapsed + 2) }) hch, rfl, x, y,
    (congrArg (· ++ [y]) hraises).trans (List.append_assoc ..), hf, hfy⟩

/-- With POLICY 0 a pending change is held for the next edge. -/
theorem teLost_holds (h : s.flag Fields.RAS_CFG_POLICY r = false) :
    (s.teLost r).rasCh r = { (s.rasCh r).teOver with held := true } ∧ (s.teLost r).regs = (s.teAbsent r).regs ∧
      ∃ x : Raise, (s.teLost r).raises = s.raises ++ [x] ∧ x.fid = Src.ras_TE_LOST r := by
  obtain ⟨hch, -, -, -, hraise⟩ := teAbsent_facts s r
  rw [teLost_pending s r hl hp ha hat, if_neg (by simp [h]), State.rasCh_modRas_self _ _ _ r.isLt, hch]
  generalize s.teAbsent r = u at *
  exact ⟨rfl, rfl, hraise⟩

end

end

/-- Settles O29: bindings by `writeRasCfg_binds` and what `takeOuts` leaves, changes by `writeRasCtl_stages` and
`writeRasCtl_cancels`, edges by `teEdge_seen` and `teEdge_frameErr`, timeouts by `teLost_forces` and `teLost_holds`. -/
theorem rasterChangesAreBoundAndStaged : Obligations.RasterChangesAreBoundAndStaged := by
  refine ⟨?_, ?_, ?_, ?_, ?_, ?_, ?_, ?_, ?_, ?_, ?_, ?_⟩
  · intro s r w h hb hc hr hras hmap hmask ho
    have hu := writeRasCfg_binds s r hb hc hr hras hmap hmask ho
    generalize hv : s.rasBound r w = v at hu
    have hch : v.rasCh r = s.boundCh r := hv ▸ rasCh_rasBound s r w
    have hcore : v.fld Fields.RAS_CFG_CORE r = getBits w 24 5 := hv ▸ core_rasBound s r w
    have hen : v.flag Fields.CORE_CFG_EN (getBits w 24 5) = true := hv ▸ coreEn_rasBound s r w
    have hx := (rasCh_of_ras (ras_takeOuts v (bitsOf (s.reg .RAS_OUTMASK r) 32) (getBits w 24 5)) r).trans hch
    have hmem : ∀ o : Fin 32, bitOf (s.reg .RAS_OUTMASK r) o = true → o.val ∈ bitsOf (s.reg .RAS_OUTMASK r) 32 := fun o hbit =>
      (mem_bitsOf _ _ _).2 ⟨o.isLt, hbit⟩
    exact completes_of_accepted rfl h (by decide) r.isLt rfl hu fun fl st =>
      ⟨congrArg Raster.bound hx, congrArg Raster.pending hx, ⟨rfl, rfl⟩,
        (fld_of_reg (reg_takeOuts v _ _ _ _ (by decide))).trans hcore,
        (flag_of_reg (reg_takeOuts v _ _ _ _ (by decide))).trans hen,
        fun o hbit => ⟨src_takeOuts v _ hc o (hmem o hbit), rasterHold_takeOuts v _ _ o (hmem o hbit)⟩⟩
  · intro s r w h hb hc hr
    exact completes_of_refused_ras rfl h (by decide) r.isLt rfl (writeRasCfg_refused s r hb hr) (by decide) (by decide)
      fun t hrf hras houts => ⟨hrf, hras, houts⟩
  · intro s r h hb ha
    obtain ⟨u, hu, hbound, hpend, hen, houts⟩ := writeRasCfg_unbinds s r (s.reg .RAS_CFG r) hb ha
    exact completes_of_accepted rfl h (by decide) r.isLt rfl hu fun fl st => ⟨hbound, hpend, hen, houts, rfl, rfl⟩
  · intro s r h hb ha
    exact completes_of_refused_ras rfl h (by decide) r.isLt rfl (writeRasCfg_busy s r _ hb ha) (by decide) (by decide)
      fun t hrf hras _ => ⟨hrf, hras⟩
  · intro s r h ha hv hg
    have hx := State.rasCh_modRas_self s r
      (fun x => { x with pending := some (s.rasStaged r), applyAt := none, held := false, since := s.elapsed, timedOut := false }) r.isLt
    exact completes_of_accepted rfl h (by decide) r.isLt rfl (writeRasCtl_stages s r ha hv hg) fun fl st =>
      ⟨congrArg Raster.pending hx, congrArg Raster.applyAt hx, rfl, rfl⟩
  · intro s r h ha hbad
    exact completes_of_refused_ras rfl h (by decide) r.isLt rfl (writeRasCtl_refused s r ha hbad) (by decide) (by decide)
      fun t hrf hras _ => ⟨hrf, hras⟩
  · intro s r h ha
    have hx := State.rasCh_modRas_self s r (fun x => { x with pending := none, applyAt := none, held := false }) r.isLt
    exact completes_of_accepted rfl h (by decide) r.isLt rfl (writeRasCtl_cancels s r ha) fun fl st =>
      ⟨congrArg Raster.pending hx, congrArg Raster.applyAt hx, rfl, rfl⟩
  · intro s r width edges g hup hb hw hp ha hat
    obtain ⟨hx, hivl⟩ := teEdge_seen s r hb hw edges g
    refine completes_of_detector rfl hup rfl ⟨?_, congrArg Raster.lastTe hx, (congrArg Raster.pending hx :), hivl⟩
    rw [hx, Raster.teSeen, hp, ha, hat]
    rfl
  · intro s r width edges g hw
    exact completes_of_idle_detector rfl (teEdge_short s r hw edges g)
  · intro s r width edges k hup hb hw hl he ht hg hoff
    exact completes_of_detector rfl hup rfl (teEdge_frameErr s r hb hw hl he ht hg hoff)
  · intro s r hup hd hl hp ha hat
    obtain ⟨-, -, hmissing, -, -⟩ := teAbsent_facts s r
    refine completes_of_detector rfl hup (if_pos hd) ?_
    cases hpol : s.flag Fields.RAS_CFG_POLICY r with
    | true =>
      obtain ⟨hch, hregs, hraise⟩ := teLost_forces s r hl hp ha hat hpol
      exact ⟨(flag_of_reg (congrArg (·.get .RAS_CTL r) hregs)).trans hmissing, congrArg Raster.timedOut hch,
        fun _ => ⟨congrArg Raster.applyAt hch, hraise⟩, nofun⟩
    | false =>
      obtain ⟨hch, hregs, hraise⟩ := teLost_holds s r hl hp ha hat hpol
      exact ⟨(flag_of_reg (congrArg (·.get .RAS_CTL r) hregs)).trans hmissing, congrArg Raster.timedOut hch, nofun,
        fun _ => ⟨congrArg Raster.held hch, (congrArg Raster.applyAt hch).trans hat, hraise⟩⟩
  · intro s r hd
    exact completes_of_idle_detector rfl (by rw [hd]; rfl)

end Sys2Proof.Machine

namespace Sys2Proof.Machine

/-! ## Raster changes applied (R356, Table 8.5)

### What the parts of a change move -/

/-- What steps that move registers and outputs alone do for each number of a list, moves registers and outputs alone. -/
theorem State.each_form (s : State) (l : List Nat) (f : State → Nat → State)
    (h : ∀ u n, ∃ rg os, f u n = { u with regs := rg, outs := os }) : ∃ rg os, s.each l f = { s with regs := rg, outs := os } :=
  State.each_induct (fun u => ∃ rg os, u = { s with regs := rg, outs := os }) f
    (fun u n ⟨rg, os, hu⟩ => by
      obtain ⟨rg', os', he⟩ := h u n
      exact ⟨rg', os', by rw [he, hu]⟩) s l ⟨s.regs, s.outs, rfl⟩

section
variable (s : State)

theorem selectDset_form (n d : Nat) : ∃ rg os, s.selectDset n d = { s with regs := rg, outs := os } := by
  unfold State.selectDset
  split
  · exact ⟨s.regs, s.outs, rfl⟩
  · obtain ⟨os, h⟩ := restartOut_form (s.setFld Fields.OUT_CFG_DSEL n d) n s.now
    exact ⟨_, os, h⟩

/-- An output takes a divider set and restarts at the present tick (R330). -/
def State.redivideOut (n d : Nat) : State := (s.setFld Fields.OUT_CFG_DSEL n d).restartOut n s.now

/-- Each output of a list takes a divider set and restarts. -/
def State.redivide (l : List Nat) (d : Nat) : State := s.each l fun u o => u.redivideOut o d

theorem redivideOut_form (n d : Nat) : ∃ os, s.redivideOut n d = { s.setFld Fields.OUT_CFG_DSEL n d with outs := os } :=
  restartOut_form ..

theorem redivide_form (l : List Nat) (d : Nat) : ∃ rg os, s.redivide l d = { s with regs := rg, outs := os } :=
  State.each_form s l _ fun u n => by
    obtain ⟨os, h⟩ := redivideOut_form u n d
    exact ⟨_, os, h⟩

/-- The present tick, with the divider set of an output and its reference tick. -/
def State.divided (n : Nat) : Nat × Nat × Nat := (s.now, s.dsel n, (s.out n).kr)

theorem divided_redivideOut_self (d : Nat) (o : Fin 32) : (s.redivideOut o d).divided o = (s.now, d % 4, s.now) := by
  obtain ⟨p, b, hout⟩ := out_restartOut (s.setFld Fields.OUT_CFG_DSEL o d) o s.now
  have hkr : ((s.redivideOut o d).out o).kr = s.now := congrArg Output.kr hout
  have hdsel : (s.redivideOut o d).dsel o = d % 4 := by
    obtain ⟨os, h⟩ := redivideOut_form s o d
    rw [h]
    exact State.fld_setFld_self s Fields.OUT_CFG_DSEL o d (by decide)
  have hnow : (s.redivideOut o d).now = s.now := by
    obtain ⟨os, h⟩ := redivideOut_form s o d
    rw [h]
    rfl
  rw [State.divided, hkr, hdsel, hnow]

theorem divided_redivideOut_other (d : Nat) (o : Fin 32) (n : Nat) (hn : n ≠ o) :
    (s.redivideOut n d).divided o = s.divided o := by
  have hout : (s.redivideOut n d).out o = s.out o := out_restartOut_other _ o _ hn
  obtain ⟨os, h⟩ := redivideOut_form s n d
  have hdsel : (s.redivideOut n d).dsel o = s.dsel o := by
    rw [h]
    exact State.fld_setFld_other s _ _ _ _ _ (by decide) (.inl fun e => hn e.2)
  have hnow : (s.redivideOut n d).now = s.now := by
    rw [h]
    rfl
  rw [State.divided, hout, hdsel, hnow, State.divided]

/-- An output of the list has the divider set, and the present tick as its reference. -/
theorem redivide_facts {l : List Nat} (hl : l.Nodup) (d : Nat) (o : Fin 32) (ho : o.val ∈ l) :
    (s.redivide l d).dsel o = d % 4 ∧ ((s.redivide l d).out o).kr = s.now := by
  obtain ⟨u, hu, hend⟩ := State.each_once (p := fun u : State => u.divided o)
    (fun u n hn => divided_redivideOut_other u d o n hn) s ho hl
  have hnow : u.now = s.now := congrArg Prod.fst hu
  have h : (s.redivide l d).divided o = (s.now, d % 4, s.now) := by
    rw [← hnow]
    exact hend.trans (divided_redivideOut_self u d o)
  exact ⟨congrArg (·.2.1) h, congrArg (·.2.2) h⟩

/-- A restart leaves the gating of an output. -/
theorem rasterGate_redivide (l : List Nat) (d : Nat) (o : Fin 32) :
    ((s.redivide l d).out o).rasterGate = (s.out o).rasterGate :=
  State.each_keeps (fun u : State => (u.out o).rasterGate) _ (fun u n => by
    by_cases h : n = o
    · subst h
      obtain ⟨p, b, he⟩ := out_restartOut (u.setFld Fields.OUT_CFG_DSEL o d) o u.now
      exact (congrArg Output.rasterGate he :)
    · exact congrArg Output.rasterGate (out_restartOut_other (u.setFld Fields.OUT_CFG_DSEL n d) o _ h)) s l

/-- Storing a register in a state of which registers alone have moved moves registers alone. -/
theorem setReg_form {u : State} (h : ∃ rg, u = { s with regs := rg }) (r : RegName) (i : Nat) (v : Word) :
    ∃ rg, u.setReg r i v = { s with regs := rg } := by
  obtain ⟨rg, rfl⟩ := h
  exact ⟨_, rfl⟩

/-- Staging a setting moves registers, and nothing else. -/
theorem stage_form (c : Nat) (x : Setting) (sub band : Nat) : ∃ rg, s.stage c x sub band = { s with regs := rg } :=
  setReg_form s (setReg_form s (setReg_form s (setReg_form s ⟨s.regs, rfl⟩ _ _ _) _ _ _) _ _ _) _ _ _

/-- Loading a core moves what cores hold, and nothing else. -/
theorem loadCore_form (c : Nat) (x : Setting) (sub band : Nat) (theta : Rat) (m : BandMode) :
    ∃ ks, s.loadCore c x sub band theta m = { s with cores := ks } := by
  have hrace : ∃ ks, s.endRace c = { s with cores := ks } := by
    unfold State.endRace
    split <;> exact ⟨_, rfl⟩
  unfold State.loadCore
  extract_lets warm s1 s2
  split
  · exact ⟨s.cores, rfl⟩
  · obtain ⟨ks, h⟩ := startAcq_form s2 c (!warm) m s2.elapsed
    obtain ⟨ks', h'⟩ := hrace
    exact ⟨ks, h.trans (congrArg (fun u : State => { u with cores := ks }) h')⟩

/-! ### Glides (R228, R232) -/

/-- What the phase and the ratio of a core follow from. -/
def Core.motion (x : Core) : Option Glide × Rat × Setting := (x.glide, x.theta, x.applied)

theorem ratioAt_of_motion {x y : Core} (h : x.motion = y.motion) (k : Nat) : x.ratioAt k = y.ratioAt k := by
  obtain ⟨hg, -, ha⟩ : x.glide = y.glide ∧ x.theta = y.theta ∧ x.applied = y.applied := by simpa [Core.motion] using h
  rw [Core.ratioAt, Core.ratioAt, hg, ha]

theorem phase_of_motion {x y : Core} (h : x.motion = y.motion) (k : Nat) : x.phase k = y.phase k := by
  obtain ⟨hg, ht, ha⟩ : x.glide = y.glide ∧ x.theta = y.theta ∧ x.applied = y.applied := by simpa [Core.motion] using h
  rw [Core.phase, Core.phase, hg, ht, ha]

variable (c : Fin 26)

/-- The end of a race leaves how its core moves. -/
theorem motion_endRace (k : Nat) : ((s.endRace k).core c).motion = (s.core c).motion := by
  unfold State.endRace
  split <;> exact core_modCore_keeps (fun x => x.motion = (s.core c).motion) s c _ _ (fun _ h => h) rfl

/-- A glide of a LOCKED core starts at the present tick, from its ratio and phase there. -/
theorem glide_glideOn (x : Setting) (t : Nat) (h : (s.core c).state = .locked) : ((s.glideOn c x t).core c).glide =
    some ⟨s.now, t, (s.core c).ratioAt s.now, x, (s.core c).phase s.now⟩ := by
  have hm := motion_endRace s c c
  simp only [State.glideOn, h, State.startGlide, beq_self_eq_true, if_true, State.core_modCore_self _ _ _ c.isLt,
    ratioAt_of_motion hm, phase_of_motion hm]

end

/-! ### The three ways of a change -/

section
variable (s : State) (r : Fin 2) (g : RasChange)

/-- The state in which a change acts: the frame count it expects is stored, and its channel's outputs are held no more. -/
def State.rasReady (n : Nat) (g : RasChange) : State :=
  ((if g.expect = 0xFFFFFFFF#32 then s else s.setReg .RAS_EXPECT n g.expect).each (s.rasOuts n) fun u o =>
    u.modOut o fun x => { x with rasterHold := false }).modRas n fun x => { x with applyAt := none, held := false, tainted := true }

theorem rasReady_form : ∃ rg os rs, s.rasReady r g = { s with regs := rg, outs := os, ras := rs } := by
  have hexp : ∃ rg, (if g.expect = 0xFFFFFFFF#32 then s else s.setReg .RAS_EXPECT r g.expect) = { s with regs := rg } := by
    split
    · exact ⟨s.regs, rfl⟩
    · exact ⟨_, rfl⟩
  obtain ⟨rg, hrg⟩ := hexp
  obtain ⟨rg', os, he⟩ := State.each_form { s with regs := rg } (s.rasOuts r)
    (fun u o => u.modOut o fun x => { x with rasterHold := false }) fun u n => ⟨u.regs, _, rfl⟩
  rw [State.rasReady, hrg, he]
  exact ⟨rg', os, _, rfl⟩

theorem core_rasReady (c : Nat) : (s.rasReady r g).core c = s.core c := by
  obtain ⟨rg, os, rs, h⟩ := rasReady_form s r g
  rw [h]
  rfl

theorem cores_rasReady : (s.rasReady r g).cores = s.cores := by
  obtain ⟨rg, os, rs, h⟩ := rasReady_form s r g
  rw [h]

theorem now_rasReady : (s.rasReady r g).now = s.now := by
  obtain ⟨rg, os, rs, h⟩ := rasReady_form s r g
  rw [h]
  rfl

theorem glideOk_rasReady (c : Nat) (x : Setting) : (s.rasReady r g).glideOk c x = s.glideOk c x := by
  rw [State.glideOk, core_rasReady, now_rasReady, State.glideOk]

/-- A change at the frequency in force, a glide, and a cold change (Table 8.5), of channel `n` with core `c` and the outputs of a list. -/
def State.rasDivide (n : Nat) (l : List Nat) (g : RasChange) : State :=
  (s.redivide l g.dsel).modRas n fun x => { x with pending := none, lastKind := 3 }
def State.rasGlide (n c : Nat) (l : List Nat) (g : RasChange) : State :=
  ((s.glideOn c g.setting g.gtime).each l fun u o => u.selectDset o g.dsel).modRas n fun x => { x with applying := true, lastKind := 1 }
def State.rasGates (l : List Nat) : State := s.each l fun u o => u.modOut o fun x => { x with rasterGate := true }
def State.rasCold (n c : Nat) (l : List Nat) (g : RasChange) : State :=
  let u := (s.rasGates l).stage c g.setting g.sub g.band
  ((u.loadCore c g.setting g.sub g.band 0 (if u.hasBandTable c then .table else .search)).redivide l g.dsel).modRas n fun x =>
    { x with applying := true, lastKind := 2 }

/-- The change that a channel applies is one of the three, by its frequency and FORCECOLD and by what its core may do. -/
theorem rasApply_pending (hp : (s.rasCh r).pending = some g) (hr : (s.core (s.fld Fields.RAS_CFG_CORE r)).role ≠ .fenced) :
    s.rasApply r =
      if g.setting.sameFreq (s.core (s.fld Fields.RAS_CFG_CORE r)).applied then (s.rasReady r g).rasDivide r (s.rasOuts r) g
      else if !g.forceCold && (s.core (s.fld Fields.RAS_CFG_CORE r)).state != .off &&
          (s.core (s.fld Fields.RAS_CFG_CORE r)).state != .idle && s.glideOk (s.fld Fields.RAS_CFG_CORE r) g.setting then
        (s.rasReady r g).rasGlide r (s.fld Fields.RAS_CFG_CORE r) (s.rasOuts r) g
      else (s.rasReady r g).rasCold r (s.fld Fields.RAS_CFG_CORE r) (s.rasOuts r) g := by
  rw [← glideOk_rasReady s r g, ← core_rasReady s r g]
  unfold State.rasApply
  split
  · next hn => exact absurd (hn.symm.trans hp) nofun
  · next g' hg =>
    obtain rfl : g' = g := Option.some.inj (hg.symm.trans hp)
    exact if_neg (by simp [hr])

theorem rasApplyDue_due {k : Nat} (hk : (s.rasCh r).applyAt = some k) (h : k ≤ s.elapsed) : s.rasApplyDue r = s.rasApply r := by
  simp only [State.rasApplyDue, hk, if_pos h]

theorem rasApplyDue_early {k : Nat} (hk : (s.rasCh r).applyAt = some k) (h : s.elapsed < k) : s.rasApplyDue r = s := by
  simp only [State.rasApplyDue, hk, if_neg (Nat.not_le.2 h)]

end

/-! ### What each way leaves -/

section
variable (s : State) (r : Fin 2) (g : RasChange)

theorem dsel_modRas (n : Nat) (f : Raster → Raster) (o : Nat) : (s.modRas n f).dsel o = s.dsel o := State.modRas_at_fld ..

/-- A change of dividers is done at once, moves no core, and restarts the outputs at the present tick. -/
theorem rasDivide_facts {l : List Nat} (hl : l.Nodup) :
    ((s.rasDivide r l g).rasCh r).pending = none ∧ ((s.rasDivide r l g).rasCh r).lastKind = 3 ∧
      (s.rasDivide r l g).cores = s.cores ∧
      ∀ o : Fin 32, o.val ∈ l → (s.rasDivide r l g).dsel o = g.dsel % 4 ∧ ((s.rasDivide r l g).out o).kr = s.now := by
  have hcores : (s.redivide l g.dsel).cores = s.cores := by
    obtain ⟨rg, os, h⟩ := redivide_form s l g.dsel
    rw [h]
  rw [State.rasDivide, State.rasCh_modRas_self _ _ _ r.isLt, State.modRas_cores]
  refine ⟨rfl, rfl, hcores, fun o ho => ?_⟩
  rw [dsel_modRas, State.modRas_at_out]
  exact redivide_facts s hl g.dsel o ho

/-- A glide of a LOCKED core begins at the present tick. -/
theorem rasGlide_facts (c : Fin 26) (l : List Nat) (hst : (s.core c).state = .locked) :
    ((s.rasGlide r c l g).rasCh r).applying = true ∧ ((s.rasGlide r c l g).rasCh r).lastKind = 1 ∧
      ((s.rasGlide r c l g).core c).glide = some ⟨s.now, g.gtime, (s.core c).ratioAt s.now, g.setting, (s.core c).phase s.now⟩ := by
  obtain ⟨rg, os, h⟩ := State.each_form (s.glideOn c g.setting g.gtime) l (fun u o => u.selectDset o g.dsel)
    fun u n => selectDset_form u n g.dsel
  rw [State.rasGlide, State.rasCh_modRas_self _ _ _ r.isLt, State.modRas_at_core, h]
  exact ⟨rfl, rfl, glide_glideOn s c g.setting g.gtime hst⟩

theorem cores_rasGates (l : List Nat) : (s.rasGates l).cores = s.cores :=
  State.each_keeps State.cores (fun u o => u.modOut o fun x => { x with rasterGate := true }) (fun _ _ => rfl) s l

theorem rasterGate_rasGates (l : List Nat) (o : Fin 32) (ho : o.val ∈ l) : ((s.rasGates l).out o).rasterGate = true :=
  (State.each_decides (fun u : State => (u.out o).rasterGate) o true _ (fun u n => by
    split
    · next e => rw [← e, State.out_modOut_self _ _ _ o.isLt]
    · next e => rw [State.out_modOut_other _ _ _ _ (Ne.symm e)]) s l).trans (if_pos ho)

/-- A core takes a setting and its outputs take their dividers, gated as they were. -/
theorem reload_facts (c : Fin 26) {l : List Nat} (hl : l.Nodup) (hr : (s.core c).role ≠ .fenced) (x : Setting) (sub band : Nat)
    (m : BandMode) (d : Nat) :
    (((s.loadCore c x sub band 0 m).redivide l d).core c).applied = x ∧
      ∀ o : Fin 32, o.val ∈ l → (((s.loadCore c x sub band 0 m).redivide l d).out o).rasterGate = (s.out o).rasterGate ∧
        ((s.loadCore c x sub band 0 m).redivide l d).dsel o = d % 4 := by
  obtain ⟨hhold, -⟩ := loadCore_facts s c x sub band 0 m hr
  obtain ⟨ks, hload⟩ := loadCore_form s c x sub band 0 m
  have hout : ∀ n, (s.loadCore c x sub band 0 m).out n = s.out n := fun n => by
    rw [hload]
    rfl
  generalize s.loadCore c x sub band 0 m = v at *
  obtain ⟨rg, os, hv⟩ := redivide_form v l d
  refine ⟨?_, fun o ho => ⟨?_, (redivide_facts v hl d o ho).1⟩⟩
  · rw [hv]
    exact congrArg CoreHold.applied hhold
  · rw [rasterGate_redivide, hout]

/-- A cold change loads its core and gates the outputs, with their new dividers. -/
theorem rasCold_facts (c : Fin 26) {l : List Nat} (hl : l.Nodup) (hr : (s.core c).role ≠ .fenced) :
    ((s.rasCold r c l g).rasCh r).applying = true ∧ ((s.rasCold r c l g).rasCh r).lastKind = 2 ∧
      ((s.rasCold r c l g).core c).applied = g.setting ∧
      ∀ o : Fin 32, o.val ∈ l → ((s.rasCold r c l g).out o).rasterGate = true ∧ (s.rasCold r c l g).dsel o = g.dsel % 4 := by
  have hcore : ((s.rasGates l).stage c g.setting g.sub g.band).core c = s.core c := by
    obtain ⟨rg, h⟩ := stage_form (s.rasGates l) c g.setting g.sub g.band
    rw [h]
    exact congrArg (·[c.val]?.getD default) (cores_rasGates s l)
  have hgate : ∀ o : Fin 32, o.val ∈ l → (((s.rasGates l).stage c g.setting g.sub g.band).out o).rasterGate = true := by
    obtain ⟨rg, h⟩ := stage_form (s.rasGates l) c g.setting g.sub g.band
    rw [h]
    exact rasterGate_rasGates s l
  unfold State.rasCold
  generalize (s.rasGates l).stage c g.setting g.sub g.band = u at *
  obtain ⟨happ, houts⟩ := reload_facts u c hl (fun h => hr (hcore ▸ h)) g.setting g.sub g.band
    (if u.hasBandTable c then .table else .search) g.dsel
  rw [State.rasCh_modRas_self _ _ _ r.isLt, State.modRas_at_core]
  refine ⟨rfl, rfl, happ, fun o ho => ?_⟩
  rw [State.modRas_at_out, dsel_modRas, (houts o ho).1, (houts o ho).2]
  exact ⟨hgate o ho, rfl⟩

end

/-- The outputs of a channel are listed once each. -/
theorem rasOuts_nodup (s : State) (n : Nat) : (s.rasOuts n).Nodup := List.nodup_range.filter _

theorem mem_rasOuts {s : State} {n : Nat} {o : Fin 32} (h : bitOf (s.reg .RAS_OUTMASK n) o = true) : o.val ∈ s.rasOuts n :=
  (mem_bitsOf _ _ _).2 ⟨o.isLt, h⟩

/-- A core number beyond the cores reads as a core that is OFF. -/
theorem lt_of_locked {s : State} {c : Nat} (h : (s.core c).state = .locked) : c < 26 := by
  by_contra hc
  have hnone : s.cores[c]? = none := by simp; omega
  rw [State.core, hnone] at h
  cases h

/-- Settles O30: which change is applied by `rasApply_pending`, and what each leaves by `rasDivide_facts`, `rasGlide_facts` and
`rasCold_facts`. -/
theorem rasterChangesAreApplied : Obligations.RasterChangesAreApplied := by
  refine ⟨?_, ?_, ?_, ?_⟩
  · intro s r k g hup hk hle hp hf hr
    obtain ⟨hpend, hkind, hcores, houts⟩ := rasDivide_facts (s.rasReady r g) r g (rasOuts_nodup s r)
    have hs := (rasApplyDue_due s r hk hle).trans ((rasApply_pending s r g hp hr).trans (if_pos hf))
    rw [now_rasReady] at houts
    exact completes_of_detector rfl hup hs ⟨hpend, hkind, hcores.trans (cores_rasReady ..), fun o ho => houts o (mem_rasOuts ho)⟩
  · intro s r k g hup hk hle hp hf hc hr hst hok
    have hs := (rasApplyDue_due s r hk hle).trans ((rasApply_pending s r g hp hr).trans
      ((if_neg (by simp [hf])).trans (if_pos (by simp [hc, hst, hok]))))
    obtain ⟨happ, hkind, hglide⟩ := rasGlide_facts (s.rasReady r g) r g ⟨_, lt_of_locked hst⟩ (s.rasOuts r)
      ((congrArg Core.state (core_rasReady ..)).trans hst)
    rw [now_rasReady, core_rasReady] at hglide
    exact completes_of_detector rfl hup hs ⟨happ, hkind, hglide⟩
  · intro s r k g hup hk hle hp hlt hr hf hc
    have hs := (rasApplyDue_due s r hk hle).trans ((rasApply_pending s r g hp hr).trans
      ((if_neg (by simp [hf])).trans (if_neg (by simp [hc]))))
    obtain ⟨happ, hkind, hset, houts⟩ := rasCold_facts (s.rasReady r g) r g ⟨_, hlt⟩ (rasOuts_nodup s r)
      (fun h => hr ((congrArg Core.role (core_rasReady ..)).symm.trans h))
    exact completes_of_detector rfl hup hs ⟨happ, hkind, hset, fun o ho => houts o (mem_rasOuts ho)⟩
  · intro s r k hk hlt
    exact completes_of_idle_detector rfl (rasApplyDue_early s r hk hlt)

end Sys2Proof.Machine

namespace Sys2Proof.Machine

/-! ## Divider sets and delays (R323, R330, R331) -/

section
variable (s : State) (o : Fin 32)

/-- The register that holds the lower or the upper two divider sets. -/
def dsetReg (up : Bool) : RegName := if up then .OUT_DSET23 else .OUT_DSET01

/-- The two sets of a word are in range (R323). -/
def dsetWordOk (n : Nat) (w : Word) : Bool := dsetOk n (getBits w 0 11) (bitOf w 11) && dsetOk n (getBits w 16 11) (bitOf w 27)

/-- OUT_DSET01 and OUT_DSET23 of an output that no guaranteed program and no raster channel has take the write (R327, R352). -/
theorem writeReg_dset (up : Bool) (w : Word) (h : s.outTaken o = false) :
    s.writeReg (dsetReg up) o w = s.writeDset o (dsetReg up) w := by
  have hr : s.writeReg (dsetReg up) o w = s.unless (s.outTaken o) .owned (s.writeDset o (dsetReg up) w) := by cases up <;> rfl
  rw [hr, h]
  rfl

theorem writeDset_refused (r : RegName) (w : Word) (h : dsetWordOk o w = false) : s.writeDset o r w = (.range, s) :=
  if_neg (by rw [← dsetWordOk, h]; decide)

/-- The set in force has another divider or doubler in one state than in the other (R330). -/
def State.dsetMoved (s t : State) (n : Nat) : Prop := t.divOf n ≠ s.divOf n ∨ t.dsetDbl n (t.dsel n) ≠ s.dsetDbl n (s.dsel n)

theorem dsetMoved_iff (t : State) (n : Nat) :
    (s.divOf n != t.divOf n || s.dsetDbl n (s.dsel n) != t.dsetDbl n (t.dsel n)) = true ↔ s.dsetMoved t n := by
  rw [Bool.or_eq_true, bne_iff_ne, bne_iff_ne]
  exact ⟨.imp Ne.symm Ne.symm, .imp Ne.symm Ne.symm⟩

/-- Sets in range are stored; then the output restarts if that moves the set in force (R330). -/
theorem writeDset_stores {r : RegName} {w : Word} (h : dsetWordOk o w = true) :
    ∃ t, s.writeDset o r w = (.ok, t) ∧
      (s.dsetMoved (s.setReg r o (w &&& 0x0FFF0FFF#32)) o → t = (s.setReg r o (w &&& 0x0FFF0FFF#32)).restartOut o s.now) ∧
      (¬s.dsetMoved (s.setReg r o (w &&& 0x0FFF0FFF#32)) o → t = s.setReg r o (w &&& 0x0FFF0FFF#32)) := by
  exact ⟨_, if_pos h, fun hm => if_pos ((dsetMoved_iff ..).2 hm), fun hm => if_neg fun hb => hm ((dsetMoved_iff ..).1 hb)⟩

/-- The sets in force of the states that a write of divider sets leaves. -/
theorem dsetMoved_restartOut (u : State) (k : Nat) : s.dsetMoved (u.restartOut o k) o ↔ s.dsetMoved u o := by
  obtain ⟨os, h⟩ := restartOut_form u o k
  rw [h]
  exact Iff.rfl

/-- The output's divider starts again at the present tick when the set in force moved, and only then; the others go on (R330). -/
theorem writeDset_restarts {r : RegName} {w : Word} (h : dsetWordOk o w = true) :
    ∃ t, s.writeDset o r w = (.ok, t) ∧ t.reg r o = w &&& 0x0FFF0FFF#32 ∧ (s.dsetMoved t o → (t.out o).kr = s.now) ∧
      (¬s.dsetMoved t o → (t.out o).kr = (s.out o).kr) ∧ ∀ p : Fin 32, p ≠ o → t.out p = s.out p := by
  obtain ⟨t, hw, hmoved, hkept⟩ := writeDset_stores s o h (r := r)
  refine ⟨t, hw, ?_⟩
  by_cases hm : s.dsetMoved (s.setReg r o (w &&& 0x0FFF0FFF#32)) o
  · rw [hmoved hm, dsetMoved_restartOut]
    obtain ⟨p, b, hout⟩ := out_restartOut (s.setReg r o (w &&& 0x0FFF0FFF#32)) o s.now
    have hreg : ((s.setReg r o (w &&& 0x0FFF0FFF#32)).restartOut o s.now).reg r o = w &&& 0x0FFF0FFF#32 := by
      obtain ⟨os, he⟩ := restartOut_form (s.setReg r o (w &&& 0x0FFF0FFF#32)) o s.now
      rw [he]
      exact State.reg_setReg_self s r o _
    exact ⟨hreg, fun _ => congrArg Output.kr hout, fun hn => absurd hm hn, fun p hp =>
      out_restartOut_other _ p _ fun e => hp (Fin.ext e.symm)⟩
  · rw [hkept hm]
    exact ⟨State.reg_setReg_self .., fun hy => absurd hy hm, fun _ => rfl, fun _ _ => rfl⟩

/-! ### OUT_DELAY (R331) -/

theorem writeReg_delay (w : Word) (h : s.outOwned o = false) :
    s.writeReg .OUT_DELAY o w = (.ok, s.plainWrite .OUT_DELAY o w) := by
  have hr : s.writeReg .OUT_DELAY o w = s.unless (s.outOwned o) .owned (s.plain .OUT_DELAY o w) := rfl
  rw [hr, h]
  rfl

theorem writeReg_delay_owned (w : Word) (h : s.outOwned o = true) : s.writeReg .OUT_DELAY o w = (.owned, s) := if_pos h

theorem merge_delay (fresh old w : Word) :
    (regSpec .OUT_DELAY).merge fresh old w = w &&& 0x07FF03FF#32 ||| (old &&& ~~~0x07FF03FF#32) := by
  simp only [RegSpec.merge, regSpec, BitVec.and_zero, BitVec.zero_and, List.foldl_nil, BitVec.not_zero, BitVec.and_allOnes]
  exact BitVec.or_comm ..

/-! ## Divider parity and shorts (R347, R361) -/

/-- A raise leaves what an output's divider follows. -/
theorem waveOf_raiseEvent (f : Fid) (a : Word) (n : Nat) : (s.raiseEvent f a).waveOf n = s.waveOf n := by
  obtain ⟨rs, h⟩ := raiseAs_form s f s.now a false false
  rw [State.raiseEvent, h]
  rfl

/-- A parity error is raised; the divider of an output that runs is loaded for its first edge at or after the next tick (R361). -/
theorem divParity_facts (hf : (s.out o).fenced = false) :
    (∃ x : Raise, (s.divParity o).raises = s.raises ++ [x] ∧ x.fid = Src.out_DIV_PARITY o ∧ x.stamp = s.now) ∧
      ((s.divParity o).out o).psi = (s.out o).psi ∧ ((s.divParity o).out o).kr = (s.out o).kr ∧ (s.divParity o).regs = s.regs ∧
      (∀ w, s.waveOf o = some w → ((s.divParity o).out o).load = w.loadAt (s.now + 1 : Nat)) ∧
      ∀ p : Fin 32, p ≠ o → (s.divParity o).out p = s.out p := by
  obtain ⟨x, hx, hfid, hn⟩ := raiseEvent_of_not_fenced s (Src.out_DIV_PARITY o) 0 hf
  cases hw : s.waveOf o with
  | none =>
    have hs : s.divParity o = { s with raises := s.raises ++ [x] } := by
      simp only [State.divParity, waveOf_raiseEvent, hw]
      exact hx
    rw [hs]
    exact ⟨⟨x, rfl, hfid, hn⟩, rfl, rfl, rfl, nofun, fun _ _ => rfl⟩
  | some w =>
    have hs : s.divParity o = { s with raises := s.raises ++ [x] }.modOut o fun y => { y with load := w.loadAt (s.now + 1 : Nat) } := by
      simp only [State.divParity, waveOf_raiseEvent, hw]
      exact congrArg (fun u : State => u.modOut o fun y => { y with load := w.loadAt (u.now + 1 : Nat) }) hx
    rw [hs, State.out_modOut_self _ _ _ o.isLt, State.modOut_raises, State.modOut_regs]
    exact ⟨⟨x, rfl, hfid, hn⟩, rfl, rfl, rfl, fun v hv => by rw [Option.some.inj hv], fun p hp =>
      State.out_modOut_other _ _ _ _ fun e => hp (Fin.ext e.symm)⟩

/-- An output whose driver is on is not fenced. -/
theorem not_fenced_of_driver (h : s.driverOff o = false) : (s.out o).fenced = false := by
  simp only [State.driverOff, Bool.or_eq_false_iff] at h
  exact h.1.2

theorem shortWindow : windowIndex 6 o < 97 := by
  revert o; decide

/-- A level that begins is live, and its raise is recorded with its source and stamp (R501). -/
theorem beginLevel_begins (f : Fid) (arg : Word) (hf : s.unitFenced f = false) (hl : s.isLive f = false) :
    ∃ x : Raise, s.beginLevel f arg = { s.modWin (windowIndex f.code f.inst) (fun w => { w with live := setBit w.live f.bit true }) with
        raises := s.raises ++ [x] } ∧ x.fid = f ∧ x.stamp = s.now := by
  obtain ⟨x, hx, hfid, hn⟩ := raiseEvent_of_not_fenced
    (s.modWin (windowIndex f.code f.inst) fun w => { w with live := setBit w.live f.bit true }) f arg hf
  refine ⟨x, ?_, hfid, hn⟩
  simp only [State.beginLevel, hf, hl]
  exact hx

/-- A short is a level: it is live, raised, and gates the output at the next tick (R347). -/
theorem outShort_facts (hd : s.driverOff o = false) (hl : s.isLive (Src.out_SHORT o) = false) :
    (s.outShort o).later = s.later ++ [.short o] ∧ (s.outShort o).isLive (Src.out_SHORT o) = true ∧
      (s.outShort o).out o = s.out o ∧
      ∃ x : Raise, (s.outShort o).raises = s.raises ++ [x] ∧ x.fid = Src.out_SHORT o ∧ x.stamp = s.now := by
  obtain ⟨x, hx, hfid, hn⟩ := beginLevel_begins s (Src.out_SHORT o) 0 (not_fenced_of_driver s o hd) hl
  have hwin := State.win_modWin_self s (windowIndex 6 o) (fun w => { w with live := setBit w.live 3 true }) (shortWindow o)
  have hlive : bitOf ((s.modWin (windowIndex 6 o) fun w => { w with live := setBit w.live 3 true }).win (windowIndex 6 o)).live 3 = true := by
    rw [hwin, bitOf_setBit_self _ _ _ (by decide)]
  rw [State.outShort, hx]
  exact ⟨rfl, by rw [State.isLive, Bool.or_eq_true]; exact .inl hlive, rfl, x, rfl, hfid, hn⟩

/-- A shorted output is gated at the tick after its stamp (R42, R347). -/
theorem applyLater_short : (s.applyLater (.short o)).out o = { s.out o with shorted := true, shortAt := some s.elapsed } :=
  State.out_modOut_self _ _ _ o.isLt

/-! ### CLRSHORT (R347) -/

theorem writeOutStat_owned (ho : s.outOwned o = true) : s.writeReg .OUT_STAT o (cmdBit 31) = (.owned, s) := by
  have hb : bitOf (cmdBit 31) 31 = true := by decide
  have hr : s.writeReg .OUT_STAT o (cmdBit 31) = s.writeOutStat o (cmdBit 31) := rfl
  simp [hr, State.writeOutStat, hb, ho]

theorem writeOutStat_clears (ho : s.outOwned o = false) (hd : s.outDomainOff o = false) :
    s.writeReg .OUT_STAT o (cmdBit 31) = (.ok, s.clrShort o) := by
  have hb : bitOf (cmdBit 31) 31 = true := by decide
  have hr : s.writeReg .OUT_STAT o (cmdBit 31) = s.writeOutStat o (cmdBit 31) := rfl
  simp [hr, State.writeOutStat, hb, ho, hd, State.unless]

/-- A short that was not gated at this tick ends, and the driver is on again. -/
theorem clrShort_ends (hs : (s.out o).shorted = true) (ht : (s.out o).shortAt ≠ some s.elapsed) :
    ((s.clrShort o).out o).shorted = false ∧ bitOf ((s.clrShort o).win (windowIndex 6 o)).live 3 = false := by
  have he : s.clrShort o = (s.endLevel (Src.out_SHORT o)).modOut o fun x => { x with shorted := false, driveAt := s.elapsed } := by
    simp [State.clrShort, hs, ht]
  have hwin := State.win_modWin_self s (windowIndex 6 o) (fun w => { w with live := setBit w.live 3 false }) (shortWindow o)
  rw [he, State.out_modOut_self _ _ _ o.isLt, State.modOut_at_win]
  refine ⟨rfl, ?_⟩
  have hend : (s.endLevel (Src.out_SHORT o)).win (windowIndex 6 o) = _ := hwin
  rw [hend, bitOf_setBit_self _ _ _ (by decide)]

theorem clrShort_idle (hs : (s.out o).shorted = false) : s.clrShort o = s := by
  simp [State.clrShort, hs]

end

end Sys2Proof.Machine

namespace Sys2Proof.Machine

/-! ## The guard (R337 to R339) -/

/-- While the conditions of R339 hold, edges are emitted and none is swallowed. -/
theorem guardEdges_clear (min gap n e w since : Nat) : (guardEdges min gap true n e w since).2.1 = w := by
  induction n generalizing e since with
  | zero => rfl
  | succ n ih => exact ih (e + 1) 0

/-- Edges that no change moved pass a guard whose core is LOCKED and whose predicted period clears the minimum (R339). -/
theorem guardRuns_clear (min : Nat) (runs : List EdgeRun) (since : Nat) (h : (runs.all fun r => !r.moved) = true) :
    (guardRuns min true runs since).2.1 = 0 := by
  suffices ∀ a : Nat × Nat × Nat, (runs.foldl (fun (e, w, since) r =>
      guardEdges min r.gap (true && !r.moved) r.count e w since) a).2.1 = a.2.1 from this (0, 0, since)
  induction runs with
  | nil => exact fun _ => rfl
  | cons r rs ih =>
    intro (e, w, since)
    rw [List.all_cons, Bool.and_eq_true] at h
    rw [List.foldl_cons, ih h.2, h.1]
    exact guardEdges_clear ..

/-! ## The end of a read-back window (R337, R348, R349) -/

section
variable (s : State) (o : Fin 32)

/-- The time since the last edge emitted, the count and the edges swallowed, as the end of a window stores them. -/
def State.rbStored (o counted swallowed since : Nat) : State :=
  ((s.modOut o fun x => { x with sinceEdge := since, rbAt := some s.elapsed }).setReg .OUT_RBCNT o
    (BitVec.ofNat 32 counted)).bump Fields.OUT_EVCNT_GUARD o swallowed

/-- Edges that were swallowed where no plan foresaw them raise GUARD_HIT (R340). -/
def State.rbGuarded (o counted swallowed since : Nat) : State :=
  let t := s.rbStored o counted swallowed since
  if 0 < swallowed ∧ !(t.out o).guardPlan then t.raiseEvent (Src.out_GUARD_HIT o) 0 else t

/-- The judgement of a count that is `off` edges from those emitted (R349). -/
def State.rbJudged (o off : Nat) : State :=
  let bad := decide (s.fld Fields.OUT_RBCFG_CTOL o < off)
  let run := if bad then (s.out o).rbMiss + 1 else 0
  let t := s.modOut o fun x => { x with rbCountBad := bad, rbMiss := run }
  if bad && run == t.fld1 Fields.OUT_RBCFG_MISS o then t.raiseEvent (Src.out_RB_COUNT o) 0 else t

/-- The judgement of a phase that the monitor measured (R349). -/
def State.rbPhased (o : Nat) (e : Int) : State :=
  let bad := decide (s.fld1 Fields.OUT_RBCFG_PHWIN o * 10 < e.natAbs)
  let run := if bad then (s.out o).rbPhaseRun + 1 else 0
  let t := (s.setReg .OUT_RBPHASE o (wordOfInt e)).modOut o fun x => { x with rbPhaseBad := bad, rbPhaseRun := run }
  if bad && run == 2 then t.raiseEvent (Src.out_RB_PHASE o) 0 else t

/-- What a window leaves that has no phase to judge. -/
def State.rbCounted (o n : Nat) (edges : List EdgeRun) : State :=
  let g := guardRuns (s.minPeriod o * 500) (s.guardClear o) edges (s.out o).sinceEdge
  (s.rbGuarded o n g.2.1 g.2.2).rbJudged o (max n g.1 - min n g.1)

theorem rbWindow_unmeasured (n : Nat) (edges : List EdgeRun) : s.rbWindow o n edges none = s.rbCounted o n edges := by
  simp only [State.rbWindow, ite_self]
  rfl

/-- A phase is judged after the count, or not at all. -/
theorem rbWindow_measured (n : Nat) (edges : List EdgeRun) (e : Int) :
    s.rbWindow o n edges (some e) = (s.rbCounted o n edges).rbPhased o e ∨ s.rbWindow o n edges (some e) = s.rbCounted o n edges := by
  simp only [State.rbWindow]
  split
  next judged h =>
    obtain rfl := Option.some.inj (Option.ite_none_left_eq_some.1 h).2
    exact .inl rfl
  next => exact .inr rfl

/-! ### What a raise under a condition leaves -/

theorem reg_raiseIf (c : Prop) [Decidable c] (f : Fid) (r : RegName) (i : Nat) :
    (if c then s.raiseEvent f 0 else s).reg r i = s.reg r i := by
  split
  · exact congrArg (fun m => { s with regs := m }.reg r i) (raiseEvent_regs ..)
  · rfl

theorem out_raiseIf (c : Prop) [Decidable c] (f : Fid) (n : Nat) : (if c then s.raiseEvent f 0 else s).out n = s.out n := by
  split
  · obtain ⟨rs, h⟩ := raiseAs_form s f s.now 0 false false
    rw [State.raiseEvent, h]
    rfl
  · rfl

/-! ### What is stored at the end of a window -/

theorem out_rbStored (n w since : Nat) :
    (s.rbStored o n w since).out o = { s.out o with sinceEdge := since, rbAt := some s.elapsed } := by
  rw [State.rbStored, State.bump_at_out, State.setReg_at_out, State.out_modOut_self _ _ _ o.isLt]

theorem reg_rbStored (n w since : Nat) (r : RegName) (hc : r ≠ .OUT_RBCNT) (hg : r ≠ .OUT_EVCNT) :
    (s.rbStored o n w since).reg r o = s.reg r o := by
  rw [State.rbStored, reg_bump_ne _ _ _ _ _ _ hg, State.reg_setReg_other _ _ _ _ _ _ fun h => hc h.1.symm, State.modOut_at_reg]

theorem count_rbStored (n w since : Nat) : (s.rbStored o n w since).reg .OUT_RBCNT o = BitVec.ofNat 32 n := by
  rw [State.rbStored, reg_bump_ne _ _ _ _ _ _ (by decide), State.reg_setReg_self]

theorem guard_rbStored (n w since : Nat) :
    (s.rbStored o n w since).fld Fields.OUT_EVCNT_GUARD o = satAdd (s.fld Fields.OUT_EVCNT_GUARD o) 16 w := by
  rw [State.rbStored, State.fld_bump_self _ _ _ _ (by decide), State.fld_setReg_other _ _ _ _ _ _ (by simp [Fields.OUT_EVCNT_GUARD])]
  rfl

/-! ### What the guard's part leaves -/

theorem out_rbGuarded (n w since : Nat) :
    (s.rbGuarded o n w since).out o = { s.out o with sinceEdge := since, rbAt := some s.elapsed } := by
  rw [State.rbGuarded, out_raiseIf, out_rbStored]

theorem reg_rbGuarded (n w since : Nat) (r : RegName) : (s.rbGuarded o n w since).reg r o = (s.rbStored o n w since).reg r o :=
  reg_raiseIf ..

/-- No edge swallowed, none raised. -/
theorem raises_rbGuarded_clear (n since : Nat) : (s.rbGuarded o n 0 since).raises = s.raises := by
  rw [State.rbGuarded, if_neg fun h => absurd h.1 (Nat.lt_irrefl 0)]
  rfl

/-- Edges swallowed where no plan foresaw them raise GUARD_HIT once. -/
theorem raises_rbGuarded_hit (n since : Nat) {w : Nat} (hw : 0 < w) (hf : (s.out o).fenced = false) (hp : (s.out o).guardPlan = false) :
    ∃ x : Raise, (s.rbGuarded o n w since).raises = s.raises ++ [x] ∧ x.fid = Src.out_GUARD_HIT o := by
  have hout := out_rbStored s o n w since
  have hraises : (s.rbStored o n w since).raises = s.raises := rfl
  rw [State.rbGuarded]
  generalize s.rbStored o n w since = t at *
  have hp' : (t.out o).guardPlan = false := by rw [hout]; exact hp
  have hf' : (t.out o).fenced = false := by rw [hout]; exact hf
  obtain ⟨x, hx, hfid, -⟩ := raiseEvent_of_not_fenced t (Src.out_GUARD_HIT o) 0 hf'
  rw [if_pos ⟨hw, by rw [hp']; rfl⟩, hx, ← hraises]
  exact ⟨x, rfl, hfid⟩

/-! ### What the judgement of the count leaves -/

theorem reg_rbJudged (off : Nat) (r : RegName) : (s.rbJudged o off).reg r o = s.reg r o := by
  rw [State.rbJudged, reg_raiseIf, State.modOut_at_reg]

/-- A count within the tolerance starts the run of misses again (R349). -/
theorem rbJudged_within {off : Nat} (h : off ≤ s.fld Fields.OUT_RBCFG_CTOL o) :
    s.rbJudged o off = s.modOut o fun x => { x with rbCountBad := false, rbMiss := 0 } := by
  simp [State.rbJudged, Nat.not_lt.2 h]

/-- A count beyond the tolerance is the next of a run of misses; the MISS-th raises RB_COUNT (R349). -/
theorem rbJudged_missed {off : Nat} (h : s.fld Fields.OUT_RBCFG_CTOL o < off) (hf : (s.out o).fenced = false)
    (hm : (s.out o).rbMiss + 1 = s.fld1 Fields.OUT_RBCFG_MISS o) :
    ((s.rbJudged o off).out o).rbMiss = (s.out o).rbMiss + 1 ∧ ((s.rbJudged o off).out o).rbCountBad = true ∧
      ∃ x : Raise, (s.rbJudged o off).raises = s.raises ++ [x] ∧ x.fid = Src.out_RB_COUNT o := by
  have hout := State.out_modOut_self s o (fun x => { x with rbCountBad := true, rbMiss := (s.out o).rbMiss + 1 }) o.isLt
  have hraises : (s.modOut o fun x => { x with rbCountBad := true, rbMiss := (s.out o).rbMiss + 1 }).raises = s.raises := rfl
  have hmiss : (s.modOut o fun x => { x with rbCountBad := true, rbMiss := (s.out o).rbMiss + 1 }).fld1 Fields.OUT_RBCFG_MISS o =
      s.fld1 Fields.OUT_RBCFG_MISS o := rfl
  simp only [State.rbJudged, decide_eq_true h, if_true, Bool.true_and]
  generalize (s.modOut o fun x => { x with rbCountBad := true, rbMiss := (s.out o).rbMiss + 1 }) = t at *
  have hf' : (t.out o).fenced = false := by rw [hout]; exact hf
  obtain ⟨x, hx, hfid, -⟩ := raiseEvent_of_not_fenced t (Src.out_RB_COUNT o) 0 hf'
  rw [hmiss, if_pos (beq_iff_eq.2 hm), hx, ← hraises]
  exact ⟨congrArg Output.rbMiss hout, congrArg Output.rbCountBad hout, x, rfl, hfid⟩

/-! ### The phase's part leaves the guard's counter -/

theorem reg_rbPhased (e : Int) (r : RegName) (hr : r ≠ .OUT_RBPHASE) : (s.rbPhased o e).reg r o = s.reg r o := by
  rw [State.rbPhased, reg_raiseIf, State.modOut_at_reg]
  exact State.reg_setReg_other _ _ _ _ _ _ fun h => hr h.1.symm

/-! ### The window's end as a whole -/

theorem ctol_rbGuarded (n w since : Nat) :
    (s.rbGuarded o n w since).fld Fields.OUT_RBCFG_CTOL o = s.fld Fields.OUT_RBCFG_CTOL o :=
  fld_of_reg ((reg_rbGuarded ..).trans (reg_rbStored _ _ _ _ _ _ (by decide) (by decide)))

theorem miss_rbGuarded (n w since : Nat) :
    (s.rbGuarded o n w since).fld1 Fields.OUT_RBCFG_MISS o = s.fld1 Fields.OUT_RBCFG_MISS o :=
  congrArg (max 1) (fld_of_reg ((reg_rbGuarded ..).trans (reg_rbStored _ _ _ _ _ _ (by decide) (by decide))))

/-- The edges that the guard swallows in a window. -/
def State.rbSwallowed (o : Nat) (edges : List EdgeRun) : Nat :=
  (guardRuns (s.minPeriod o * 500) (s.guardClear o) edges (s.out o).sinceEdge).2.1

theorem guard_rbCounted (n : Nat) (edges : List EdgeRun) :
    (s.rbCounted o n edges).fld Fields.OUT_EVCNT_GUARD o = satAdd (s.fld Fields.OUT_EVCNT_GUARD o) 16 (s.rbSwallowed o edges) :=
  (fld_of_reg ((reg_rbJudged ..).trans (reg_rbGuarded ..))).trans (guard_rbStored ..)

theorem guard_rbWindow (n : Nat) (edges : List EdgeRun) (ph : Option Int) :
    (s.rbWindow o n edges ph).fld Fields.OUT_EVCNT_GUARD o = satAdd (s.fld Fields.OUT_EVCNT_GUARD o) 16 (s.rbSwallowed o edges) := by
  cases ph with
  | none => rw [rbWindow_unmeasured, guard_rbCounted]
  | some e =>
    obtain h | h := rbWindow_measured s o n edges e
    · rw [h, fld_of_reg (reg_rbPhased _ _ _ _ (by decide)), guard_rbCounted]
    · rw [h, guard_rbCounted]

/-- A counter that nothing is added to keeps its value. -/
theorem satAdd_fld_zero (f : Field) (i : Nat) : satAdd (s.fld f i) f.width 0 = s.fld f i :=
  Nat.min_eq_left (Nat.le_sub_one_of_lt (Nat.mod_lt _ (Nat.two_pow_pos _)))

/-- A window in which the guard swallows nothing leaves its counter. -/
theorem guard_rbWindow_clear (n : Nat) (edges : List EdgeRun) (ph : Option Int) (hc : s.guardClear o = true)
    (hm : (edges.all fun e => !e.moved) = true) :
    (s.rbWindow o n edges ph).fld Fields.OUT_EVCNT_GUARD o = s.fld Fields.OUT_EVCNT_GUARD o := by
  rw [guard_rbWindow, State.rbSwallowed, hc, guardRuns_clear _ _ _ hm]
  exact satAdd_fld_zero s Fields.OUT_EVCNT_GUARD o

/-- The counted edges are kept, the run of misses starts again, and nothing is raised. -/
theorem rbWindow_within (n since : Nat) {off : Nat} (h : off ≤ s.fld Fields.OUT_RBCFG_CTOL o) :
    ((s.rbGuarded o n 0 since).rbJudged o off).reg .OUT_RBCNT o = BitVec.ofNat 32 n ∧
      ((s.rbGuarded o n 0 since).rbJudged o off).out o =
        { s.out o with sinceEdge := since, rbAt := some s.elapsed, rbCountBad := false, rbMiss := 0 } ∧
      ((s.rbGuarded o n 0 since).rbJudged o off).raises = s.raises := by
  rw [reg_rbJudged, reg_rbGuarded, count_rbStored, rbJudged_within _ _ (by rwa [ctol_rbGuarded]),
    State.out_modOut_self _ _ _ o.isLt, out_rbGuarded, State.modOut_raises, raises_rbGuarded_clear]
  exact ⟨rfl, rfl, rfl⟩

/-- The MISS-th miss in a run is counted and raised. -/
theorem rbWindow_missed (n since : Nat) {off : Nat} (h : s.fld Fields.OUT_RBCFG_CTOL o < off) (hf : (s.out o).fenced = false)
    (hm : (s.out o).rbMiss + 1 = s.fld1 Fields.OUT_RBCFG_MISS o) :
    (((s.rbGuarded o n 0 since).rbJudged o off).out o).rbMiss = (s.out o).rbMiss + 1 ∧
      (((s.rbGuarded o n 0 since).rbJudged o off).out o).rbCountBad = true ∧
      ∃ x : Raise, ((s.rbGuarded o n 0 since).rbJudged o off).raises = s.raises ++ [x] ∧ x.fid = Src.out_RB_COUNT o := by
  have hout := out_rbGuarded s o n 0 since
  have hj := rbJudged_missed (s.rbGuarded o n 0 since) o (off := off) (by rwa [ctol_rbGuarded]) (by rw [hout]; exact hf)
    (by rw [hout, miss_rbGuarded]; exact hm)
  rw [raises_rbGuarded_clear, hout] at hj
  exact hj

/-- Edges swallowed without a plan are raised beside a count within the tolerance. -/
theorem rbWindow_hit (n since : Nat) {off w : Nat} (h : off ≤ s.fld Fields.OUT_RBCFG_CTOL o) (hw : 0 < w)
    (hf : (s.out o).fenced = false) (hp : (s.out o).guardPlan = false) :
    ∃ x : Raise, ((s.rbGuarded o n w since).rbJudged o off).raises = s.raises ++ [x] ∧ x.fid = Src.out_GUARD_HIT o := by
  rw [rbJudged_within _ _ (by rwa [ctol_rbGuarded]), State.modOut_raises]
  exact raises_rbGuarded_hit s o n since hw hf hp

end

/-- A window of a running monitor is complete with what its end leaves. -/
theorem completes_of_rbEnds {s : State} {o : Fin 32} {n : Nat} {edges : List EdgeRun} {m : Bool} {e : Int} {P : State → Prop}
    (hup : s.up = true) (hr : s.rbEnds o = true) (hP : P (s.rbWindow o n edges (if m then some e else none))) :
    completes (.rbWindowEnd o n edges m e) s P :=
  completes_of_detector rfl hup (if_pos hr) hP

/-- A write of divider sets writes the register that `dsetReg` names. -/
theorem exec_outDsetWrite (s : State) (o : Fin 32) (up : Bool) (w : Word) :
    exec (.outDsetWrite o up w) s = .next (s.portWrite (regAddr (dsetReg up) o) w) := by
  cases up <;> rfl

/-- The registers of the divider sets are placed, one to each output, and none waits for a word key. -/
theorem dsetReg_placed (o : Fin 32) (up : Bool) :
    commandRegs.contains (dsetReg up) = true ∧ o.val < (regSpec (dsetReg up)).count ∧ (regSpec (dsetReg up)).wk = false := by
  cases up <;> exact ⟨by decide, o.isLt, rfl⟩

/-- Settles O27: divider sets by `writeDset_restarts`, the delay by `writeReg_delay`, parity by `divParity_facts`, shorts by
`outShort_facts` and `clrShort_ends`, and the end of a window by `guardRuns_clear`, `rbJudged_within`, `rbJudged_missed` and
`raises_rbGuarded_hit`. -/
theorem dividersShortsAndReadBack : Obligations.DividersShortsAndReadBack := by
  refine ⟨?_, ?_, ?_, ?_, ?_, ?_, ?_, ?_, ?_, ?_, ?_, ?_, ?_⟩
  · intro s o up w h ho h0 h1
    obtain ⟨hc, hn, hk⟩ := dsetReg_placed o up
    obtain ⟨u, hw, hreg, hmoved, hkept, hother⟩ := writeDset_restarts s o (r := dsetReg up) (w := w) (by simp [dsetWordOk, h0, h1])
    refine completes_of_accepted (exec_outDsetWrite ..) h hc hn hk ((writeReg_dset s o up w ho).trans hw) fun fl st =>
      ⟨hreg, ⟨rfl, rfl⟩, ?_, hother⟩
    split
    next hm => exact hmoved hm
    next hm => exact hkept hm
  · intro s o up w h ho hbad
    obtain ⟨hc, hn, hk⟩ := dsetReg_placed o up
    have hw := (writeReg_dset s o up w ho).trans (writeDset_refused s o _ w (Bool.and_eq_false_iff.2 hbad))
    exact completes_of_refused (exec_outDsetWrite ..) h hc hn hk hw (by decide) (by decide) fun t hrf hA hreg =>
      ⟨hrf, congrArg Anchorage.outs hA, hreg _ _ (by decide), hreg _ _ (by decide)⟩
  · intro s o w h ho
    exact completes_of_accepted rfl h (by decide) o.isLt rfl (writeReg_delay s o w ho) fun fl st =>
      ⟨(State.reg_setReg_self ..).trans (merge_delay ..), rfl, rfl, rfl⟩
  · intro s o w h ho
    exact completes_of_refused rfl h (by decide) o.isLt rfl (writeReg_delay_owned s o w ho) (by decide) (by decide)
      fun t hrf _ hreg => ⟨hrf, hreg _ _ (by decide)⟩
  · intro s o hup hon hf
    exact completes_of_detector rfl hup (if_pos (by rw [hon, hf]; rfl)) (divParity_facts s o hf)
  · intro s o hup hd hle hl
    obtain ⟨hlater, hlive, hout, hraise⟩ := outShort_facts s o hd hl
    exact completes_of_detector rfl hup (if_pos (by rw [hd, decide_eq_true hle]; rfl))
      ⟨hlater, hlive, congrArg Output.shorted hout, hraise⟩
  · exact fun s o => applyLater_short s o
  · intro s o h ho hd hs ht
    obtain ⟨hshort, hlive⟩ := clrShort_ends s o hs ht
    exact completes_of_accepted rfl h (by decide) o.isLt rfl (writeOutStat_clears s o ho hd) fun fl st => ⟨hshort, ⟨rfl, rfl⟩, hlive⟩
  · intro s o h ho hd hs
    have hw := (writeOutStat_clears s o ho hd).trans (congrArg (Prod.mk _) (clrShort_idle s o hs))
    exact completes_of_accepted rfl h (by decide) o.isLt rfl hw fun fl st => ⟨rfl, rfl, rfl⟩
  · intro s o h ho
    exact completes_of_refused rfl h (by decide) o.isLt rfl (writeOutStat_owned s o ho) (by decide) (by decide)
      fun t hrf hA _ => ⟨hrf, congrArg Anchorage.outs hA⟩
  · intro s o n edges m phase hup hr hc hm
    exact completes_of_rbEnds hup hr (guard_rbWindow_clear s o n edges _ hc hm)
  · intro s o n edges e hup hr g
    have hwin : s.rbWindow o n edges none = (s.rbGuarded o n g.2.1 g.2.2).rbJudged o (max n g.1 - min n g.1) :=
      rbWindow_unmeasured s o n edges
    refine ⟨fun hg hin => completes_of_rbEnds hup hr ?_, fun hg hf hmiss hrun => completes_of_rbEnds hup hr ?_,
      fun hg hf hp hin => completes_of_rbEnds hup hr ⟨guard_rbWindow s o n edges none, ?_⟩⟩
    · rw [if_neg Bool.false_ne_true, hwin, hg]
      obtain ⟨hcount, hout, hraises⟩ := rbWindow_within s o n g.2.2 hin
      exact ⟨hcount, congrArg Output.rbMiss hout, congrArg Output.rbCountBad hout, congrArg Output.sinceEdge hout, hraises⟩
    · rw [if_neg Bool.false_ne_true, hwin, hg]
      exact rbWindow_missed s o n g.2.2 hmiss hf hrun
    · rw [if_neg Bool.false_ne_true, hwin]
      exact rbWindow_hit s o n g.2.2 hin hg hf hp
  · intro s o n edges m phase hr
    exact completes_of_idle_detector rfl (if_neg (by simp [hr]))

end Sys2Proof.Machine

namespace Sys2Proof.Machine

/-! ## Lanes: training and loss (R371 to R374, R410, Table 9.3) -/

section
variable (s : State) (n : Fin 16)

/-! ### A lane beside the one that changes -/

theorem lane_modLane_ne (f : Lane → Lane) (k : Fin 16) (h : k ≠ n) : (s.modLane n f).lane k = s.lane k :=
  State.lane_modLane_other _ _ _ _ fun e => h (Fin.ext e.symm)

@[simp] theorem lane_laneTo (st : LaneSt) : (s.laneTo n st).lane n = { s.lane n with state := st, since := s.elapsed } :=
  State.lane_modLane_self _ _ _ n.isLt

theorem lane_laneTo_ne (st : LaneSt) (k : Fin 16) (h : k ≠ n) : (s.laneTo n st).lane k = s.lane k := lane_modLane_ne s n _ k h

theorem laneWindow : windowIndex 7 n < 97 := by revert n; decide

theorem lane_of_lanes {s t : State} (h : t.lanes = s.lanes) (k : Nat) : t.lane k = s.lane k :=
  congrArg (fun l : Vector Lane 16 => l[k]?.getD default) h

/-! ### What ALIGNED and a raise leave alone -/

/-- ALIGNED lies in LNG_TTSTAT (R403). -/
theorem dropAligned_reg (k : Nat) (r : RegName) (i : Nat) (h : r ≠ .LNG_TTSTAT) : (s.dropAligned k).reg r i = s.reg r i := by
  unfold State.dropAligned
  split
  · exact reg_setFld_ne s Fields.LNG_TTSTAT_ALIGNED 0 0 r i h
  · rfl

@[simp] theorem dropAligned_lane (k m : Nat) : (s.dropAligned k).lane m = s.lane m := by
  unfold State.dropAligned; split <;> rfl

@[simp] theorem dropAligned_elapsed (k : Nat) : (s.dropAligned k).elapsed = s.elapsed := by
  unfold State.dropAligned; split <;> rfl

@[simp] theorem dropAligned_windows (k : Nat) : (s.dropAligned k).windows = s.windows := by
  unfold State.dropAligned; split <;> rfl

@[simp] theorem dropAligned_raises (k : Nat) : (s.dropAligned k).raises = s.raises := by
  unfold State.dropAligned; split <;> rfl

@[simp] theorem raiseEvent_lanes (f : Fid) (a : Word) : (s.raiseEvent f a).lanes = s.lanes := by
  obtain ⟨rs, h⟩ := raiseAs_form s f s.now a false false
  rw [State.raiseEvent, h]

@[simp] theorem raiseEvent_lane (f : Fid) (a : Word) (m : Nat) : (s.raiseEvent f a).lane m = s.lane m :=
  lane_of_lanes (raiseEvent_lanes s f a) m

@[simp] theorem raiseEvent_windows (f : Fid) (a : Word) : (s.raiseEvent f a).windows = s.windows := by
  obtain ⟨rs, h⟩ := raiseAs_form s f s.now a false false
  rw [State.raiseEvent, h]

@[simp] theorem raiseEvent_elapsed (f : Fid) (a : Word) : (s.raiseEvent f a).elapsed = s.elapsed := by
  obtain ⟨rs, h⟩ := raiseAs_form s f s.now a false false
  rw [State.raiseEvent, h]

@[simp] theorem beginLevel_lanes (f : Fid) (a : Word) : (s.beginLevel f a).lanes = s.lanes := by
  simp [State.beginLevel, apply_ite State.lanes]

/-- A lane's source is of no unit that could be fenced: its raise is recorded (R503). -/
theorem raises_of_lane (f : Fid) (a : Word) (hf : f.code = 7) :
    ∃ r : Raise, (s.raiseEvent f a).raises = s.raises ++ [r] ∧ r.fid = f ∧ r.stamp = s.now := by
  obtain ⟨x, hx, hfid, hstamp⟩ := raiseEvent_of_not_fenced s f a (by simp [State.unitFenced, hf])
  exact ⟨x, by rw [hx], hfid, hstamp⟩

/-! ### LN_CFG.EN (R372, R390) -/

/-- EN lies apart from ROLE. -/
theorem getBits_role_setBit_en (w : Word) (en : Bool) : getBits (setBit w 31 en) 29 2 = getBits w 29 2 :=
  getBits_putBits_other _ _ _ _ _ _ (by decide) (by decide)

/-- The word of LN_CFG that a write of EN stores. -/
def laneCfgWord (w : Word) (en : Bool) : Word := setBit w 31 en &&& 0xF8FF0000#32

theorem bitOf_laneCfgWord (w : Word) (en : Bool) : bitOf (laneCfgWord w en) 31 = en := by
  have hm : (0xF8FF0000#32 : Word).getLsbD 31 = true := by decide
  rw [laneCfgWord, bitOf, BitVec.getLsbD_and, hm, Bool.and_true]
  exact bitOf_setBit_self _ _ _ (by decide)

/-- The state in which a write of EN turns the lane on or off. -/
def State.laneCfg (n : Nat) (en : Bool) : State := s.setReg .LN_CFG n (laneCfgWord (s.reg .LN_CFG n) en)

theorem flag_en_of_laneCfg {en : Bool} {t : State} (h : t.reg .LN_CFG n = (s.laneCfg n en).reg .LN_CFG n) :
    t.flag Fields.LN_CFG_EN n = en := by
  rw [flag_eq_bitOf _ _ _ rfl, ← bitOf_laneCfgWord (s.reg .LN_CFG n) en]
  exact congrArg (bitOf · 31) (h.trans (State.reg_setReg_self ..))

/-- A write of LN_CFG that moves EN and is no third upstream-facing lane turns the lane on, or off. -/
theorem writeLaneCfg_en (en : Bool) (ha : s.active = true) (h3 : s.thirdUpstream n (s.reg .LN_CFG n) = false)
    (hen : s.flag Fields.LN_CFG_EN n = !en) : s.writeLaneCfg n (setBit (s.reg .LN_CFG n) 31 en) =
      (.ok, if s.flag Fields.LN_CFG_EN n then (s.laneCfg n en).laneOff n else (s.laneCfg n en).laneOn_ n) := by
  have h3' : s.thirdUpstream n (setBit (s.reg .LN_CFG n) 31 en) = false := by
    rw [State.thirdUpstream, getBits_role_setBit_en]; exact h3
  have hb : bitOf (setBit (s.reg .LN_CFG n) 31 en) 31 = en := bitOf_setBit_self _ _ _ (by decide)
  have ha' : (s.laneCfg n en).active = true :=
    (congrArg (· == 3) (State.fld_setReg_other _ _ _ _ Fields.PWR_STATE_STATE 0 fun e => by cases e.1)).trans ha
  have hmoved : (!(s.laneCfg n en).active || bitOf (setBit (s.reg .LN_CFG n) 31 en) 31 == s.flag Fields.LN_CFG_EN n) = false := by
    rw [ha', hb, hen]; cases en <;> rfl
  have hk : s.setReg .LN_CFG n (setBit (s.reg .LN_CFG n) 31 en &&& 0xF8FF0000#32) = s.laneCfg n en := rfl
  simp only [State.writeLaneCfg, h3', hk, hmoved, Bool.false_eq_true, if_false]

theorem writeReg_laneCfg (w : Word) : s.writeReg .LN_CFG n w = s.writeLaneCfg n w := rfl

theorem writeReg_turnsOn (ha : s.active = true) (h3 : s.thirdUpstream n (s.reg .LN_CFG n) = false)
    (hen : s.flag Fields.LN_CFG_EN n = false) :
    s.writeReg .LN_CFG n (setBit (s.reg .LN_CFG n) 31 true) = (.ok, (s.laneCfg n true).laneOn_ n) := by
  rw [writeReg_laneCfg, writeLaneCfg_en s n true ha h3 hen, hen, if_neg Bool.false_ne_true]

theorem writeReg_turnsOff (ha : s.active = true) (h3 : s.thirdUpstream n (s.reg .LN_CFG n) = false)
    (hen : s.flag Fields.LN_CFG_EN n = true) :
    s.writeReg .LN_CFG n (setBit (s.reg .LN_CFG n) 31 false) = (.ok, (s.laneCfg n false).laneOff n) := by
  rw [writeReg_laneCfg, writeLaneCfg_en s n false ha h3 hen, hen, if_pos rfl]

theorem laneOn_facts (h : s.sliceBad (s.lane n).slice = false) :
    ((s.laneOn_ n).lane n).state = .quiet ∧ ((s.laneOn_ n).lane n).since = s.elapsed ∧ (s.laneOn_ n).regs = s.regs ∧
      ∀ m : Fin 16, m ≠ n → (s.laneOn_ n).lane m = s.lane m := by
  rw [State.laneOn_, if_neg (by simp [h])]
  refine ⟨by simp, by simp, rfl, fun m hm => ?_⟩
  rw [lane_modLane_ne _ _ _ _ hm, lane_laneTo_ne _ _ _ _ hm]

theorem laneOff_facts : ((s.laneOff n).lane n).state = .off ∧ ((s.laneOff n).lane n).frameLock = false ∧
    (s.laneOff n).reg .LN_CFG n = s.reg .LN_CFG n := by
  refine ⟨by simp [State.laneOff], by simp [State.laneOff], ?_⟩
  simp only [State.laneOff, State.laneTo, State.endLevel_at_reg, State.modLane_at_reg]
  exact dropAligned_reg s n .LN_CFG n (by decide)

/-! ### Retraining (R371, R372) -/

/-- What a lane is on its way back to WAIT_SIG. -/
def Lane.retrained (l : Lane) (k : Nat) (keepCdr : Bool) : Lane :=
  { l with state := .waitSig, since := k, frameLock := false, cdr := l.cdr && keepCdr, move := none, fast := false, valid := 0 }

/-- A lane that retrains counts it and raises TRAIN_FAIL; no window changes. -/
theorem retrain_facts (keepCdr : Bool) :
    (s.retrain n keepCdr).lane n = (s.lane n).retrained s.elapsed keepCdr ∧
    (s.retrain n keepCdr).fld Fields.LN_TRAIN_RETRAIN n =
      satAdd (s.fld Fields.LN_TRAIN_RETRAIN n) Fields.LN_TRAIN_RETRAIN.width 1 ∧
    (s.retrain n keepCdr).windows = s.windows ∧
    ∃ r : Raise, (s.retrain n keepCdr).raises = s.raises ++ [r] ∧ r.fid = Src.lane_TRAIN_FAIL n := by
  let t := (s.dropAligned n).bump Fields.LN_TRAIN_RETRAIN n 1
  have ht : t.fld Fields.LN_TRAIN_RETRAIN n = satAdd (s.fld Fields.LN_TRAIN_RETRAIN n) Fields.LN_TRAIN_RETRAIN.width 1 := by
    rw [State.fld_bump_self _ _ _ _ (by decide), fld_of_reg (dropAligned_reg s n _ n (by decide))]
  obtain ⟨x, hx, hfid, -⟩ := raises_of_lane t (Src.lane_TRAIN_FAIL n) 0 rfl
  refine ⟨by simp [State.retrain, Lane.retrained], ?_, (raiseEvent_windows t _ 0).trans (dropAligned_windows s n), x, ?_, hfid⟩
  · exact (fld_of_reg (congrArg (·.get .LN_TRAIN n) (raiseEvent_regs t _ 0))).trans ht
  · exact hx.trans (congrArg (· ++ [x]) (dropAligned_raises s n))

/-! ### The steps of training (R372 to R374) -/

theorem quietEnd_due (hst : (s.lane n).state = .quiet) (ht : (s.lane n).since + usTicks 1000 ≤ s.elapsed) :
    s.quietEnd n = s.laneTo n .waitSig := if_pos (by rw [hst, decide_eq_true ht]; rfl)

theorem quietEnd_early (ht : s.elapsed < (s.lane n).since + usTicks 1000) : s.quietEnd n = s :=
  if_neg (by simp [Nat.not_le.2 ht])

theorem signalDetect_detects (hst : (s.lane n).state = .waitSig) :
    s.signalDetect n = (s.endLevel (Src.lane_LOS n)).laneTo n .cdr := if_pos (by rw [hst]; rfl)

theorem not_live_endLevel_los : bitOf ((s.endLevel (Src.lane_LOS n)).win (windowIndex 7 n)).live 0 = false := by
  have hwin := State.win_modWin_self s (windowIndex 7 n) (fun w => { w with live := setBit w.live 0 false }) (laneWindow n)
  rw [show (s.endLevel (Src.lane_LOS n)).win (windowIndex 7 n) = _ from hwin]
  exact bitOf_setBit_self _ _ _ (by decide)

/-- CDR lock in CDR, not in a fast retrain: the lane goes to EQ. -/
theorem cdrLock_locks (hst : (s.lane n).state = .cdr) : s.cdrLock n =
    (s.laneTo n .eq).modLane n fun l => { l with cdr := true, fast := false, move := none, roleRaised := false } := by
  simp only [State.cdrLock, hst]
  rfl

/-- The state in which both ends are found ready: the settings of training and the peer's lane and device are noted. -/
def State.eqNoted (n : Nat) (peer : Word) (pre post ctle : Nat) : State :=
  (((s.setFld Fields.LN_EQ_TXPRE n pre).setFld Fields.LN_EQ_TXPOST n post).setFld Fields.LN_EQ_CTLE n ctle).modLane n fun l =>
    { l with peerLane := getBits peer 16 4, peerId := getBits peer 0 16 }

theorem fld_eqNoted (peer : Word) (pre post ctle : Nat) (f : Field) (i : Nat) (h : f.reg ≠ .LN_EQ) :
    (s.eqNoted n peer pre post ctle).fld f i = s.fld f i := by
  rw [State.eqNoted, State.modLane_at_fld, fld_of_reg (reg_setFld_ne _ Fields.LN_EQ_CTLE n ctle _ i h),
    fld_of_reg (reg_setFld_ne _ Fields.LN_EQ_TXPOST n post _ i h), fld_of_reg (reg_setFld_ne _ Fields.LN_EQ_TXPRE n pre _ i h)]

theorem lane_eqNoted (peer : Word) (pre post ctle : Nat) : (s.eqNoted n peer pre post ctle).lane n =
    { s.lane n with peerLane := getBits peer 16 4, peerId := getBits peer 0 16 } :=
  State.lane_modLane_self _ _ _ n.isLt

theorem txpre_eqNoted (peer : Word) (pre : Fin 16) (post ctle : Nat) :
    (s.eqNoted n peer pre post ctle).fld Fields.LN_EQ_TXPRE n = pre := by
  rw [State.eqNoted, State.modLane_at_fld, State.fld_setFld_other _ _ _ _ _ _ (by decide) (.inr (by decide)),
    State.fld_setFld_other _ _ _ _ _ _ (by decide) (.inr (by decide)), State.fld_setFld_self _ _ _ _ (by decide)]
  exact Nat.mod_eq_of_lt pre.isLt

theorem txpost_eqNoted (peer : Word) (pre : Nat) (post : Fin 32) (ctle : Nat) :
    (s.eqNoted n peer pre post ctle).fld Fields.LN_EQ_TXPOST n = post := by
  rw [State.eqNoted, State.modLane_at_fld, State.fld_setFld_other _ _ _ _ _ _ (by decide) (.inr (by decide)),
    State.fld_setFld_self _ _ _ _ (by decide)]
  exact Nat.mod_eq_of_lt post.isLt

theorem ctle_eqNoted (peer : Word) (pre post : Nat) (ctle : Fin 16) :
    (s.eqNoted n peer pre post ctle).fld Fields.LN_EQ_CTLE n = ctle := by
  rw [State.eqNoted, State.modLane_at_fld, State.fld_setFld_self _ _ _ _ (by decide)]
  exact Nat.mod_eq_of_lt ctle.isLt

theorem eqDone_ready (peer : Word) (pre post ctle : Nat) (hst : (s.lane n).state = .eq) (hr : bitOf peer 23 = true) :
    s.eqDone n peer pre post ctle =
      if (!(s.upstream n != (getBits peer 20 2 == 2))) = true then
        if (s.lane n).roleRaised then s.eqNoted n peer pre post ctle
        else ((s.eqNoted n peer pre post ctle).raiseEvent (Src.lane_PEER_ROLE n) 0).modLane n fun l => { l with roleRaised := true }
      else if s.fld Fields.LNG_DEVID_ID 0 == 0 then s.eqNoted n peer pre post ctle
      else ((s.eqNoted n peer pre post ctle).laneTo n .frame).modLane n fun l =>
        { l with fecOn := s.flag Fields.LN_CFG_FEC n || bitOf peer 22 } := by
  have hup : (s.eqNoted n peer pre post ctle).upstream n = s.upstream n :=
    congrArg (· == 2) (fld_eqNoted s n peer pre post ctle Fields.LN_CFG_ROLE n (by decide))
  have hid := fld_eqNoted s n peer pre post ctle Fields.LNG_DEVID_ID 0 (by decide)
  have hfec : (s.eqNoted n peer pre post ctle).flag Fields.LN_CFG_FEC n = s.flag Fields.LN_CFG_FEC n :=
    congrArg (· == 1) (fld_eqNoted s n peer pre post ctle Fields.LN_CFG_FEC n (by decide))
  have hrole : ((s.eqNoted n peer pre post ctle).lane n).roleRaised = (s.lane n).roleRaised := by rw [lane_eqNoted]
  unfold State.eqDone
  rw [if_neg (by simp [hst, hr])]
  rw [← hup, ← hid, ← hfec, ← hrole]
  rfl

/-- With roles that pair and a device ID the lane goes to FRAME. -/
theorem eqDone_frames (peer : Word) (pre post ctle : Nat) (hst : (s.lane n).state = .eq) (hr : bitOf peer 23 = true)
    (hpair : s.upstream n = true ↔ getBits peer 20 2 ≠ 2) (hid : s.fld Fields.LNG_DEVID_ID 0 ≠ 0) :
    s.eqDone n peer pre post ctle = ((s.eqNoted n peer pre post ctle).laneTo n .frame).modLane n fun l =>
      { l with fecOn := s.flag Fields.LN_CFG_FEC n || bitOf peer 22 } := by
  rw [eqDone_ready s n peer pre post ctle hst hr, if_neg, if_neg (by simpa using hid)]
  by_cases h : getBits peer 20 2 = 2 <;> simp_all

/-- With roles that do not pair the lane stays in EQ and raises PEER_ROLE, once. -/
theorem eqDone_role (peer : Word) (pre post ctle : Nat) (hst : (s.lane n).state = .eq) (hr : bitOf peer 23 = true)
    (hpair : s.upstream n = true ↔ getBits peer 20 2 = 2) (hno : (s.lane n).roleRaised = false) :
    s.eqDone n peer pre post ctle =
      ((s.eqNoted n peer pre post ctle).raiseEvent (Src.lane_PEER_ROLE n) 0).modLane n fun l => { l with roleRaised := true } := by
  rw [eqDone_ready s n peer pre post ctle hst hr, if_pos, if_neg (by simp [hno])]
  by_cases h : getBits peer 20 2 = 2 <;> simp_all

/-! ### Frame lock (R371, R387) -/

/-- The frames of the device take the phase of the present tick, and ALIGNED is set. -/
def State.phased : State :=
  (s.modLng fun g => { g with framed := true, framePhase := s.elapsed }).setFld Fields.LNG_TTSTAT_ALIGNED 0 1

theorem frameTo_each (k : Nat) : s.frameTo k =
    s.phased.each (List.range 16) fun u m => u.setFld Fields.LN_C0LAT_O m (u.repeatOffset m (s.lane k).fecOn) := rfl

/-- What storing LN_C0LAT of a lane leaves alone, the frames of a source leave as the phase left it. -/
theorem frameTo_keeps {α : Type} (p : State → α) (h : ∀ u m v, p (u.setFld Fields.LN_C0LAT_O m v) = p u) (k : Nat) :
    p (s.frameTo k) = p s.phased := by
  rw [frameTo_each]
  exact State.each_keeps p _ (fun u m => h u m _) _ _

@[simp] theorem frameTo_lanes (k : Nat) : (s.frameTo k).lanes = s.lanes := frameTo_keeps s State.lanes (fun _ _ _ => rfl) k

@[simp] theorem frameTo_raises (k : Nat) : (s.frameTo k).raises = s.raises := frameTo_keeps s State.raises (fun _ _ _ => rfl) k

theorem frameTo_lng (k : Nat) : (s.frameTo k).lng = { s.lng with framed := true, framePhase := s.elapsed } :=
  frameTo_keeps s State.lng (fun _ _ _ => rfl) k

theorem frameTo_reg (k : Nat) (r : RegName) (i : Nat) (h : r ≠ .LN_C0LAT) : (s.frameTo k).reg r i = s.phased.reg r i :=
  frameTo_keeps s (fun u => u.reg r i) (fun u m v => reg_setFld_ne u Fields.LN_C0LAT_O m v r i h) k

/-- A lane with frame lock, as a state before its frames may set the phase of the device. -/
def State.frameLocked (n : Nat) : State := (s.laneTo n .linked).modLane n fun l =>
  { l with frameLock := true, fast := false, valid := 0, heardAt := s.elapsed, freshAt := s.elapsed }

theorem lane_frameLocked : (s.frameLocked n).lane n = { s.lane n with
    state := .linked, since := s.elapsed, frameLock := true, fast := false, valid := 0, heardAt := s.elapsed, freshAt := s.elapsed } := by
  rw [State.frameLocked, State.lane_modLane_self _ _ _ n.isLt, lane_laneTo]

theorem frameLock_locks (hst : (s.lane n).state = .frame) : s.frameLock n =
    if (decide (s.timingLane = some n.val) && !s.lng.framed) = true then (s.frameLocked n).frameTo n else s.frameLocked n :=
  if_neg (by simp [hst])

theorem frameLock_facts (hst : (s.lane n).state = .frame) :
    ((s.frameLock n).lane n).state = .linked ∧ ((s.frameLock n).lane n).frameLock = true ∧ (s.frameLock n).raises = s.raises ∧
      (s.timingLane = some n.val → (s.frameLock n).lng.framed = true) := by
  have hlane := lane_frameLocked s n
  rw [frameLock_locks s n hst]
  split
  case isTrue =>
    rw [lane_of_lanes (frameTo_lanes ..), frameTo_raises, frameTo_lng, hlane]
    exact ⟨rfl, rfl, rfl, fun _ => rfl⟩
  case isFalse h =>
    rw [hlane]
    refine ⟨rfl, rfl, rfl, fun hs => ?_⟩
    have hlng : (s.frameLocked n).lng = s.lng := rfl
    rw [hs] at h
    rw [hlng]
    simpa using h

/-! ### Losses (R371, R372, R410) -/

theorem trainTimeout_expires {k : Nat} (hk : (s.lane n).timeout = some k) (ht : (s.lane n).since + k ≤ s.elapsed) :
    s.trainTimeout n = s.retrain n true := by
  simp [State.trainTimeout, hk, ht]

theorem trainTimeout_of_none (h : (s.lane n).timeout = none) : s.trainTimeout n = s := by
  simp [State.trainTimeout, h]

theorem cdrLoss_retrains (h : (s.lane n).state = .eq ∨ (s.lane n).state = .frame ∨ (s.lane n).carries = true) :
    s.cdrLoss n = s.retrain n false := by
  unfold State.cdrLoss
  cases hst : (s.lane n).state <;> simp_all [Lane.carries]

/-- A lane that carries raises LOS before it retrains. -/
theorem signalLoss_facts (hc : (s.lane n).carries = true) (hl : s.isLive (Src.lane_LOS n) = false) :
    ((s.signalLoss n).lane n).state = .waitSig ∧ (s.signalLoss n).isLive (Src.lane_LOS n) = true ∧
      ∃ x y : Raise, (s.signalLoss n).raises = s.raises ++ [x, y] ∧ x.fid = Src.lane_LOS n ∧ x.stamp = s.now ∧
        y.fid = Src.lane_TRAIN_FAIL n := by
  obtain ⟨x, hx, hfid, hn⟩ := beginLevel_begins s (Src.lane_LOS n) 0 rfl hl
  have hwin := State.win_modWin_self s (windowIndex 7 n) (fun w => { w with live := setBit w.live 0 true }) (laneWindow n)
  obtain ⟨hlane, -, hws, y, hy, hyf⟩ := retrain_facts (s.beginLevel (Src.lane_LOS n) 0) n false
  rw [State.signalLoss, if_pos hc]
  refine ⟨by rw [hlane]; rfl, ?_, x, y, by rw [hy, hx]; simp, hfid, hn, hyf⟩
  rw [State.isLive, Bool.or_eq_true, State.win, hws, hx]
  left
  exact (congrArg (fun w : FaultWindow => bitOf w.live 0) hwin).trans (bitOf_setBit_self _ _ _ (by decide))

end

/-- A command that writes a register whose rule accepts it is complete with the lanes, the registers and the count that the rule
leaves, and with the port's marks of a write (R57, R610). -/
theorem completes_of_accepted_lanes {c : Instr} {s u : State} {r : RegName} {i : Nat} {w : Word} {P : State → Prop}
    (hx : exec c s = .next (s.portWrite (regAddr r i) w)) (h : s.serves = true) (hc : commandRegs.contains r = true)
    (hi : i < (regSpec r).count) (hk : (regSpec r).wk = false) (hw : s.writeReg r i w = (.ok, u))
    (hP : ∀ t : State, s.wrote t → t.lanes = u.lanes → t.lng = u.lng → t.regs = u.regs → t.count = u.count → P t) :
    completes c s P :=
  completes_of_accepted hx h hc hi hk hw fun _ _ => hP _ ⟨rfl, rfl⟩ rfl rfl rfl rfl

theorem reg_of_regs {s t : State} (h : t.regs = s.regs) (r : RegName) (i : Nat) : t.reg r i = s.reg r i :=
  congrArg (·.get r i) h

/-- Settles O31: EN by `writeReg_turnsOn` and `writeReg_turnsOff`, training by what each detector makes of its state, frame lock by
`frameLock_facts`, and every loss by `retrain_facts`. -/
theorem lanesTrainAndRetrain : Obligations.LanesTrainAndRetrain := by
  refine ⟨?_, ?_, ?_, ?_, ?_, ?_, ?_, ?_, ?_, ?_, ?_, ?_, ?_, ?_⟩
  · intro s n h ha h3 hen hsl
    obtain ⟨hst, hsince, hreg, hother⟩ := laneOn_facts (s.laneCfg n true) n hsl
    refine completes_of_accepted_lanes rfl h (by decide) n.isLt rfl (writeReg_turnsOn s n ha h3 hen) fun t hw hl _ hr _ => ?_
    rw [lane_of_lanes hl]
    exact ⟨hst, hsince, flag_en_of_laneCfg s n (reg_of_regs (hr.trans hreg) ..), hw, fun m hm =>
      (lane_of_lanes hl m).trans (hother m hm)⟩
  · intro s n h ha h3 hen
    obtain ⟨hst, hlock, hreg⟩ := laneOff_facts (s.laneCfg n false) n
    refine completes_of_accepted_lanes rfl h (by decide) n.isLt rfl (writeReg_turnsOff s n ha h3 hen) fun t hw hl _ hr _ => ?_
    rw [lane_of_lanes hl]
    exact ⟨hst, hlock, flag_en_of_laneCfg s n ((reg_of_regs hr ..).trans hreg), hw⟩
  · intro s n hup hst ht
    exact completes_of_detector rfl hup (quietEnd_due s n hst ht) rfl
  · intro s n _ ht
    exact completes_of_idle_detector rfl (quietEnd_early s n ht)
  · intro s n hup hst
    exact completes_of_detector rfl hup (signalDetect_detects s n hst) ⟨by simp, by simp, not_live_endLevel_los s n, rfl⟩
  · intro s n hup hst
    exact completes_of_detector rfl hup (cdrLock_locks s n hst) ⟨by simp, by simp, rfl, rfl⟩
  · intro s n peer pre ctle post hup hst hr hpair hid
    refine completes_of_detector rfl hup (eqDone_frames s n peer pre post ctle hst hr hpair hid) ?_
    simp only [State.lane_modLane_self _ _ _ n.isLt, lane_eqNoted, State.modLane_at_fld, State.laneTo, true_and]
    exact ⟨txpre_eqNoted .., txpost_eqNoted .., ctle_eqNoted .., rfl⟩
  · intro s n peer pre ctle post hup hst hr hpair hno
    obtain ⟨x, hx, hfid, -⟩ := raises_of_lane (s.eqNoted n peer pre post ctle) (Src.lane_PEER_ROLE n) 0 rfl
    refine completes_of_detector rfl hup (eqDone_role s n peer pre post ctle hst hr hpair hno) ?_
    rw [State.lane_modLane_self _ _ _ n.isLt, raiseEvent_lane, lane_eqNoted]
    exact ⟨hst, rfl, x, hx, hfid⟩
  · intro s n hup hst
    exact completes_of_detector rfl hup rfl (frameLock_facts s n hst)
  · intro s n hup hc
    obtain ⟨hlane, hcount, -, hraise⟩ := retrain_facts s n true
    refine completes_of_detector rfl hup (if_pos hc) ?_
    rw [hlane]
    exact ⟨rfl, rfl, Bool.and_true _, hcount, hraise⟩
  · intro s n k hup hk ht
    obtain ⟨hlane, -, -, hraise⟩ := retrain_facts s n true
    refine completes_of_detector rfl hup (trainTimeout_expires s n hk ht) ?_
    rw [hlane]
    exact ⟨rfl, rfl, hraise⟩
  · intro s n hk
    exact completes_of_idle_detector rfl (trainTimeout_of_none s n hk)
  · intro s n hup hst
    obtain ⟨hlane, -, -, hraise⟩ := retrain_facts s n false
    refine completes_of_detector rfl hup (cdrLoss_retrains s n hst) ?_
    rw [hlane]
    exact ⟨rfl, Bool.and_false _, hraise⟩
  · intro s n hup hc hl
    exact completes_of_detector rfl hup rfl (signalLoss_facts s n hc hl)

end Sys2Proof.Machine

namespace Sys2Proof.Machine

/-! ## Slices: eye readings and moves (R404 to R407, R21) -/

section
variable (s : State) (n : Fin 16)

@[simp] theorem raiseEvent_lng (f : Fid) (a : Word) : (s.raiseEvent f a).lng = s.lng := by
  obtain ⟨rs, h⟩ := raiseAs_form s f s.now a false false
  rw [State.raiseEvent, h]

@[simp] theorem beginLevel_lng (f : Fid) (a : Word) : (s.beginLevel f a).lng = s.lng := by
  simp [State.beginLevel, apply_ite State.lng]

theorem beginLevel_lane (f : Fid) (a : Word) (k : Nat) : (s.beginLevel f a).lane k = s.lane k :=
  lane_of_lanes (beginLevel_lanes s f a) k

@[simp] theorem hspiError_lanes (a code : Nat) : (s.hspiError a code).lanes = s.lanes := by
  unfold State.hspiError; split <;> simp

@[simp] theorem hspiError_lng (a code : Nat) : (s.hspiError a code).lng = s.lng := by
  unfold State.hspiError; split <;> simp

/-! ### Planned moves (R405) -/

/-- Whether a spare is free is a matter of the lanes and of what they share. -/
theorem spareFree_congr {s t : State} (hl : t.lanes = s.lanes) (hg : t.lng = s.lng) (k : Nat) : t.spareFree k = s.spareFree k := by
  simp only [State.spareFree, State.sliceBad, State.laneOn, lane_of_lanes hl, hg]

/-- With a free spare the lane goes to STEERING with a planned move to it, and is otherwise as it was. -/
theorem lane_planMove (cmd : Bool) (h : s.spareFree (spareOf n) = true) : (s.planMove n cmd).lane n =
    { s.lane n with state := .steering, since := s.elapsed, move := some ⟨spareOf n, true, (s.lane n).state, cmd⟩ } := by
  rw [State.planMove, if_pos h, State.lane_modLane_self _ _ _ n.isLt, lane_laneTo]

/-! ### Eye readings (R405, R410) -/

/-- The state in which a reading of the eye is judged. -/
def State.eyeRead (n eye : Nat) : State := s.setFld Fields.LN_MARGIN_EYE n eye

theorem eye_eyeRead (eye : BitVec 8) : (s.eyeRead n eye.toNat).fld Fields.LN_MARGIN_EYE n = eye.toNat :=
  (State.fld_setFld_self s Fields.LN_MARGIN_EYE n _ (by decide)).trans (Nat.mod_eq_of_lt eye.isLt)

theorem min_eyeRead (eye : Nat) : (s.eyeRead n eye).fld Fields.LN_MARGIN_MIN n = s.fld Fields.LN_MARGIN_MIN n :=
  State.fld_setFld_other _ _ _ _ _ _ (by decide) (.inr (by decide))

/-- A reading of MIN or more ends the level EYE_LOW. -/
theorem eyeReading_clear {eye : Nat} (h : s.fld Fields.LN_MARGIN_MIN n ≤ eye) :
    s.eyeReading n eye = (s.eyeRead n eye).endLevel (Src.lane_EYE_LOW n) := by
  have hlow : decide (eye < (s.eyeRead n eye).fld Fields.LN_MARGIN_MIN n) = false := by
    rw [min_eyeRead, decide_eq_false (Nat.not_lt.2 h)]
  have hread : s.setFld Fields.LN_MARGIN_EYE n eye = s.eyeRead n eye := rfl
  simp only [State.eyeReading, hread, hlow]
  rfl

/-- A first reading below MIN begins EYE_LOW, and with AUTOSTEER a planned move of a lane that is LINKED or TIMED. -/
theorem eyeReading_low {eye : Nat} (h : eye < s.fld Fields.LN_MARGIN_MIN n) (hl : s.isLive (Src.lane_EYE_LOW n) = false) :
    s.eyeReading n eye =
      if (s.flag Fields.LN_CFG_AUTOSTEER n && ((s.lane n).state == .linked || (s.lane n).state == .timed)) = true then
        ((s.eyeRead n eye).beginLevel (Src.lane_EYE_LOW n) 0).planMove n false
      else (s.eyeRead n eye).beginLevel (Src.lane_EYE_LOW n) 0 := by
  let u := (s.eyeRead n eye).beginLevel (Src.lane_EYE_LOW n) 0
  have hlow : decide (eye < (s.eyeRead n eye).fld Fields.LN_MARGIN_MIN n) = true := by
    rw [min_eyeRead, decide_eq_true h]
  have hlive : (s.eyeRead n eye).isLive (Src.lane_EYE_LOW n) = false := hl
  have hauto : u.flag Fields.LN_CFG_AUTOSTEER n = s.flag Fields.LN_CFG_AUTOSTEER n :=
    flag_of_reg ((reg_of_regs (beginLevel_regs ..) ..).trans (reg_setFld_ne s Fields.LN_MARGIN_EYE n eye _ n (by decide)))
  have hlane : u.lane n = s.lane n := beginLevel_lane ..
  have hread : s.setFld Fields.LN_MARGIN_EYE n eye = s.eyeRead n eye := rfl
  simp only [State.eyeReading, hread, hlow, hlive]
  rw [← hauto, ← hlane]
  rfl

/-- EYE_LOW as it begins: live, raised, and the lanes as they were. -/
theorem eyeLow_begins (eye : Nat) (hl : s.isLive (Src.lane_EYE_LOW n) = false) :
    ((s.eyeRead n eye).beginLevel (Src.lane_EYE_LOW n) 0).isLive (Src.lane_EYE_LOW n) = true ∧
    ∃ r : Raise, ((s.eyeRead n eye).beginLevel (Src.lane_EYE_LOW n) 0).raises = s.raises ++ [r] ∧ r.fid = Src.lane_EYE_LOW n := by
  obtain ⟨x, hx, hfid, -⟩ := beginLevel_begins (s.eyeRead n eye) (Src.lane_EYE_LOW n) 0 rfl hl
  have hwin := State.win_modWin_self (s.eyeRead n eye) (windowIndex 7 n) (fun w => { w with live := setBit w.live 4 true }) (laneWindow n)
  rw [hx]
  refine ⟨?_, x, rfl, hfid⟩
  rw [State.isLive, Bool.or_eq_true]
  left
  exact (congrArg (fun w : FaultWindow => bitOf w.live 4) hwin).trans (bitOf_setBit_self _ _ _ (by decide))

/-! ### LNG_CMD (R405, R407) -/

/-- A write of LNG_CMD that one of its commands refuses leaves the state as it was. -/
def WRes.orAsWas (r : WRes) (s : State) : WRes :=
  match r with
  | (.ok, t) => (.ok, t)
  | (st, _) => (st, s)

theorem orAsWas_self (st : WStatus) : WRes.orAsWas (st, s) s = (st, s) := by cases st <;> rfl

theorem writeReg_lngCmd (w : Word) (ha : s.active = true) : s.writeReg .LNG_CMD 0 w = s.writeLngCmd w := by
  have h : s.writeReg .LNG_CMD 0 w = s.unless (!s.active && w &&& 0xF0000000#32 != 0) .state (s.writeLngCmd w) := rfl
  rw [h, State.unless, ha]
  rfl

/-- The word of LNG_CMD that asks for a move of a lane. -/
def steerWord (n : Nat) : Word := cmdBit 28 ||| BitVec.ofNat 32 n

theorem steerWord_bits : bitOf (steerWord n) 31 = false ∧ bitOf (steerWord n) 30 = false ∧ bitOf (steerWord n) 29 = false ∧
    bitOf (steerWord n) 28 = true ∧ getBits (steerWord n) 0 4 = n := by
  revert n; decide

theorem writeLngCmd_steer : s.writeLngCmd (steerWord n) = (s.laneSteer n).orAsWas s := by
  obtain ⟨h31, h30, h29, h28, hn⟩ := steerWord_bits n
  simp only [State.writeLngCmd, h31, h30, h29, h28, hn, Bool.false_eq_true, if_false, if_true]
  rcases s.laneSteer n with ⟨st, u⟩
  cases st <;> rfl

theorem laneSteer_moving (h : (s.lane n).moving = true) : s.laneSteer n = (.ok, s) := if_pos h

theorem laneSteer_plans (h : (s.lane n).moving = false) (hst : (s.lane n).state = .linked ∨ (s.lane n).state = .timed) :
    s.laneSteer n = (.ok, s.planMove n true) := by
  rw [State.laneSteer, if_neg (by simp [h]), if_pos (by simpa using hst)]

theorem laneSteer_refused (h : (s.lane n).moving = false) (hl : (s.lane n).state ≠ .linked) (ht : (s.lane n).state ≠ .timed) :
    s.laneSteer n = (.state, s) := by
  rw [State.laneSteer, if_neg (by simp [h]), if_neg (by simp [hl, ht])]

/-- What one command of LNG_CMD answers, accepted or refused as a whole, the register's rule answers. -/
theorem lngCmd_answers {r : WRes} {w : Word} {st : WStatus} {u : State} (ha : s.active = true) (hw : s.writeLngCmd w = r.orAsWas s)
    (hr : r = (st, u)) (hu : st = .ok ∨ u = s) : s.writeReg .LNG_CMD 0 w = (st, u) := by
  rw [writeReg_lngCmd s _ ha, hw, hr]
  rcases hu with rfl | rfl
  · rfl
  · exact orAsWas_self _ st

/-- STEER of LNG_CMD reads 1 while a move of a lane runs that it started (R654). -/
theorem steer_reads {m : SliceMove} (h : (s.lane n).move = some m) (hp : m.planned = true) (hc : m.cmd = true) :
    bitOf s.lngCmdRead 28 = true := by
  have hn : s.lane n = s.lanes[n] := by simp [State.lane]
  rw [State.lngCmdRead, bitOf_setBit_self _ _ _ (by decide), Vector.any_eq_true]
  refine ⟨n, n.isLt, ?_⟩
  rw [← Fin.getElem_fin, ← hn, h]
  simp [hp, hc]

/-! ### The spare takes over (R405, R406) -/

theorem steerDone_planned {m : SliceMove} (hst : (s.lane n).state = .steering) (hm : (s.lane n).move = some m)
    (hp : m.planned = true) (hf : s.frameTicks % 43520 = 0) :
    s.steerDone n = (s.laneTo n m.back).modLane n fun l => { l with slice := m.slice, move := none } := by
  simp [State.steerDone, hst, hm, hp, hf]

theorem steerDone_retrained {m : SliceMove} (hst : (s.lane n).state = .steering) (hm : (s.lane n).move = some m)
    (hp : m.planned = false) : s.steerDone n = (s.laneTo n .linked).modLane n fun l =>
      { l with move := none, frameLock := true, cdr := true, fast := false, valid := 0, heardAt := s.elapsed, freshAt := s.elapsed } := by
  simp [State.steerDone, hst, hm, hp]

theorem steerDone_waits (h : (s.lane n).state ≠ .steering ∨ ((s.lane n).moving = true ∧ s.frameTicks % 43520 ≠ 0)) :
    s.steerDone n = s := by
  unfold State.steerDone
  split
  next m hst hm =>
    obtain ⟨hmv, hf⟩ := h.resolve_left fun hne => hne hst
    have hp : m.planned = true := by simpa [Lane.moving, hm] using hmv
    rw [if_pos hp, if_pos hf]
  next => rfl

theorem lane_laneTo_modLane (st : LaneSt) (f : Lane → Lane) :
    ((s.laneTo n st).modLane n f).lane n = f { s.lane n with state := st, since := s.elapsed } := by
  rw [State.lane_modLane_self _ _ _ n.isLt, lane_laneTo]

theorem lane_laneTo_modLane_ne (st : LaneSt) (f : Lane → Lane) (k : Fin 16) (h : k ≠ n) :
    ((s.laneTo n st).modLane n f).lane k = s.lane k :=
  (lane_modLane_ne _ n f k h).trans (lane_laneTo_ne s n st k h)

end

/-- A command that writes a register whose rule refuses it, and changes nothing, shows the status at the port, and leaves the lanes, what
they share and the count (R610, R614). -/
theorem completes_of_refused_lanes {c : Instr} {s : State} {r : RegName} {i : Nat} {w : Word} {st : WStatus} {P : State → Prop}
    (hx : exec c s = .next (s.portWrite (regAddr r i) w)) (h : s.serves = true) (hc : commandRegs.contains r = true)
    (hi : i < (regSpec r).count) (hk : (regSpec r).wk = false) (hw : s.writeReg r i w = (st, s)) (h1 : st ≠ .ok) (h2 : st ≠ .keyerr)
    (hP : ∀ t : State, t.refusedWith st → t.lanes = s.lanes → t.lng = s.lng → t.count = s.count → P t) : completes c s P := by
  have ht := portWrite_refused s s r i w st h (placed_of_command r i hc hi) (by simp [hk]) hw h1 h2
  exact ⟨_, hx, ht ▸ hP _ ⟨by simp [State.modHspi], hspiError_flag ..⟩ (hspiError_lanes ..) (hspiError_lng ..)
    (congrArg Anchorage.count (anchorage_hspiError ..))⟩

/-- Settles O32: readings by `eyeReading_clear` and `eyeReading_low`, moves by `lane_planMove`, STEER by `lngCmd_answers` and what
`laneSteer` makes of the lane's state, the takeover by `steerDone_planned`, `steerDone_retrained` and `steerDone_waits`. -/
theorem slicesMove : Obligations.SlicesMove := by
  refine ⟨?_, ?_, ?_, ?_, ?_, ?_, ?_, ?_, ?_, ?_⟩
  · intro s n eye hup hc hmin
    exact completes_of_detector rfl hup ((if_pos hc).trans (eyeReading_clear s n hmin)) ⟨eye_eyeRead s n eye, rfl, rfl⟩
  · intro s n eye hup hc hlow hl hauto
    refine completes_of_detector rfl hup ((if_pos hc).trans ((eyeReading_low s n hlow hl).trans (if_neg (by simp [hauto])))) ?_
    obtain ⟨hlive, hraise⟩ := eyeLow_begins s n eye.toNat hl
    exact ⟨hlive, beginLevel_lanes .., hraise⟩
  · intro s n eye hup hst hlow hl hauto hfree
    have hc : (s.lane n).carries = true := by simp [Lane.carries, hst]
    have hfree' : ((s.eyeRead n eye.toNat).beginLevel (Src.lane_EYE_LOW n) 0).spareFree (spareOf n) = true :=
      (spareFree_congr (beginLevel_lanes ..) (beginLevel_lng ..) _).trans hfree
    refine completes_of_detector rfl hup
      ((if_pos hc).trans ((eyeReading_low s n hlow hl).trans (if_pos (by simp [hauto, hst])))) ?_
    rw [lane_planMove _ n false hfree', beginLevel_lane]
    exact ⟨rfl, by rw [← hst]; rfl⟩
  · intro s n h ha hst hmv hfree
    have hlane := lane_planMove s n true hfree
    refine completes_of_accepted_lanes rfl h (by decide) (by decide) rfl
      (lngCmd_answers s ha (writeLngCmd_steer s n) (laneSteer_plans s n hmv hst) (.inl rfl)) fun t hw hl _ _ _ => ?_
    have hmove := (lane_of_lanes hl n).trans hlane
    refine ⟨by rw [hmove], by rw [hmove], by rw [hmove], steer_reads t n (by rw [hmove]) rfl rfl, hw⟩
  · intro s n h ha hmv
    exact completes_of_accepted_lanes rfl h (by decide) (by decide) rfl
      (lngCmd_answers s ha (writeLngCmd_steer s n) (laneSteer_moving s n hmv) (.inl rfl)) fun t hw hl _ _ _ => ⟨hl, hw⟩
  · intro s n h ha hmv hnl hnt
    exact completes_of_refused_lanes rfl h (by decide) (by decide) rfl
      (lngCmd_answers s ha (writeLngCmd_steer s n) (laneSteer_refused s n hmv hnl hnt) (.inr rfl)) (by decide) (by decide)
      fun t hrf hl _ _ => ⟨hrf, hl⟩
  · intro s n m hup hst hm hp hf
    refine completes_of_detector rfl hup (steerDone_planned s n hst hm hp hf) ?_
    rw [lane_laneTo_modLane]
    exact ⟨rfl, rfl, rfl, rfl, lane_laneTo_modLane_ne s n _ _⟩
  · intro s n m hup hst hm hp
    refine completes_of_detector rfl hup (steerDone_retrained s n hst hm hp) ?_
    rw [lane_laneTo_modLane]
    exact ⟨rfl, rfl, rfl, rfl, rfl, lane_laneTo_modLane_ne s n _ _⟩
  · intro s n h
    exact completes_of_idle_detector rfl (steerDone_waits s n h)
  · intro s n hup hst
    refine completes_of_detector rfl hup (if_neg (by simpa using hst)) ⟨raiseEvent_lanes .., ?_⟩
    exact raises_of_lane s (Src.lane_SLICE_CHECK n) 0 rfl

end Sys2Proof.Machine

namespace Sys2Proof.Machine

/-! ## Messages: routing, delivery and origination (R376, R380 to R388) -/

section
variable (s : State) (i : Fin 16)

/-- Without FEC a codeword tells nothing (R370). -/
theorem codeword_without_fec (code : Nat) (h : (s.lane i).fecOn = false) : s.codeword i code = s := if_pos (by simp [h])

/-! ### Class-0 messages received (R376, R380, R384, R385) -/

/-- A class-0 message on a lane without FEC that carries: its CRC, its kind and its flow's entry decide. -/
theorem c0Receive_judged (k : Nat) (v : BitVec 128) (code : Nat) (hc : (s.lane i).carries = true) (hf : (s.lane i).fecOn = false) :
    s.c0Receive i k v code =
      if !crcHolds v then s.bump Fields.LN_CNT_C0CRC i 1
      else if c0Kind v != 1 then s
      else if !bitOf (s.flowEntry i (c0Decode v).flow) 31 then s.c0Drop i
      else
        let e := s.flowEntry i (c0Decode v).flow
        let t := s.each (s.lanesOf e) fun u j => u.forwardC0 i k (c0Decode v) (getBits e 16 12) j
        if bitOf e 30 then t.deliverC0 (c0Decode v) else t := by
  unfold State.c0Receive
  rw [if_neg (by simp [hc]), codeword_without_fec s i code hf]

theorem c0Receive_bad_crc (k : Nat) (v : BitVec 128) (code : Nat) (hc : (s.lane i).carries = true) (hf : (s.lane i).fecOn = false)
    (hv : crcHolds v = false) : s.c0Receive i k v code = s.bump Fields.LN_CNT_C0CRC i 1 := by
  rw [c0Receive_judged s i k v code hc hf, if_pos (by simp [hv])]

section Routed
variable {v : BitVec 128} (k code : Nat) (hc : (s.lane i).carries = true) (hf : (s.lane i).fecOn = false) (hv : crcHolds v = true)
  (hk : c0Kind v = 1)
include hc hf hv hk

theorem c0Receive_drops (he : bitOf (s.flowEntry i (c0Decode v).flow) 31 = false) : s.c0Receive i k v code = s.c0Drop i := by
  rw [c0Receive_judged s i k v code hc hf, if_neg (by simp [hv]), if_neg (by simp [hk]), if_pos (by simp [he])]

/-- A message whose entry names no lane is delivered alone. -/
theorem c0Receive_delivers (he : bitOf (s.flowEntry i (c0Decode v).flow) 31 = true)
    (hd : bitOf (s.flowEntry i (c0Decode v).flow) 30 = true) (hl : s.lanesOf (s.flowEntry i (c0Decode v).flow) = []) :
    s.c0Receive i k v code = s.deliverC0 (c0Decode v) := by
  rw [c0Receive_judged s i k v code hc hf, if_neg (by simp [hv]), if_neg (by simp [hk]), if_neg (by simp [he])]
  simp only [hl, hd, if_true]
  rfl

/-- A message whose entry names one lane and no delivery is forwarded alone. -/
theorem c0Receive_forwards {j : Nat} (he : bitOf (s.flowEntry i (c0Decode v).flow) 31 = true)
    (hd : bitOf (s.flowEntry i (c0Decode v).flow) 30 = false) (hl : s.lanesOf (s.flowEntry i (c0Decode v).flow) = [j]) :
    s.c0Receive i k v code =
      s.forwardC0 i k (c0Decode v) (getBits (s.flowEntry i (c0Decode v).flow) 16 12) j := by
  rw [c0Receive_judged s i k v code hc hf, if_neg (by simp [hv]), if_neg (by simp [hk]), if_neg (by simp [he])]
  simp only [hl, hd, Bool.false_eq_true, if_false]
  rfl

end Routed

theorem raiseEvent_stations (f : Fid) (a : Word) : (s.raiseEvent f a).stations = s.stations := raiseAs_stations ..

/-- A drop is counted and raises C0_DROP; lanes and stations stay (R376, R381). -/
theorem c0Drop_facts : (s.c0Drop i).lanes = s.lanes ∧ (s.c0Drop i).stations = s.stations ∧
    (s.c0Drop i).fld Fields.LN_CNT_C0DROP i = satAdd (s.fld Fields.LN_CNT_C0DROP i) Fields.LN_CNT_C0DROP.width 1 ∧
    ∃ r : Raise, (s.c0Drop i).raises = s.raises ++ [r] ∧ r.fid = Src.lane_C0_DROP i := by
  obtain ⟨x, hx, hfid, -⟩ := raises_of_lane (s.bump Fields.LN_CNT_C0DROP i 1) (Src.lane_C0_DROP i) 0 rfl
  refine ⟨raiseEvent_lanes .., raiseEvent_stations .., ?_, x, hx, hfid⟩
  rw [State.c0Drop, fld_of_reg (reg_of_regs (raiseEvent_regs ..) ..), State.fld_bump_self _ _ _ _ (by decide)]

/-! ### Delivery to the event boards (R47, R385) -/

theorem lapseWith_lanes (f : Fid) (w : Word) (x : LapseEnd) : (s.lapseWith f w x).lanes = s.lanes := by
  obtain ⟨ws, rs, ls, h⟩ := lapseWith_form s f w x
  rw [h]

theorem raiseAs_lanes (f : Fid) (t : Nat) (a : Word) (x y : Bool) : (s.raiseAs f t a x y).lanes = s.lanes := by
  obtain ⟨rs, h⟩ := raiseAs_form s f t a x y
  rw [h]

theorem postEvent_lanes (m : Nat) (e : Event) : (s.postEvent m e).lanes = s.lanes := by
  unfold State.postEvent
  extract_lets t
  split
  · rfl
  · split
    · rfl
    · split
      · split
        · exact (lapseWith_lanes ..).trans (raiseAs_lanes ..)
        · rfl
      · rfl

/-- A running station that enables the source, has not passed the stamp and holds no event queues one whose tick is open (R45, R251). -/
theorem stn_postEvent_open {n : Nat} {e : Event} (hn : n < 8) (hrun : (s.stn n).running = true)
    (hen : (s.stn n).enabled.contains e.src = true) (hev : (s.stn n).events = []) (hmark : (s.stn n).mark e.src < e.stamp)
    (hopen : s.closed e.stamp = false) : (s.postEvent n e).stn n = { s.stn n with events := [e] } := by
  simp only [State.postEvent, hrun, hen, hev, hmark, hopen]
  simp [insertEvent, hn]

/-- The event of a class-0 message whose carried tick is open. -/
def State.c0Event (m : C0Msg) : Event := ⟨8 + m.slot, (widen s.now m.stamp).toNat, m.payload⟩

theorem deliverC0_open (m : C0Msg) (h : (s.now : Int) < widen s.now m.stamp + 2) :
    s.deliverC0 m = s.each (List.range 8) fun u n => u.postEvent n (s.c0Event m) := by
  have hlate : decide (widen s.now m.stamp + 2 ≤ s.now) = false := decide_eq_false (by omega)
  simp only [State.deliverC0, hlate, Bool.false_eq_true, if_false]
  rfl

theorem closed_c0Event (m : C0Msg) (h : (s.now : Int) < widen s.now m.stamp + 2) : s.closed (s.c0Event m).stamp = false := by
  have hle : widen s.now m.stamp ≤ ((widen s.now m.stamp).toNat : Int) := Int.self_le_toNat _
  exact decide_eq_false (by simp only [State.c0Event]; omega)

theorem deliverC0_facts (m : C0Msg) (n : Fin 8) (h : (s.now : Int) < widen s.now m.stamp + 2) (hrun : (s.stn n).running = true)
    (hev : (s.stn n).events = []) (hen : (s.stn n).enabled.contains (8 + m.slot) = true)
    (hmark : (s.stn n).mark (8 + m.slot) < (widen s.now m.stamp).toNat) :
    ((s.deliverC0 m).stn n).events = [s.c0Event m] ∧ (s.deliverC0 m).lanes = s.lanes := by
  rw [deliverC0_open s m h]
  refine ⟨?_, State.each_keeps State.lanes _ (fun u k => postEvent_lanes u k _) s _⟩
  obtain ⟨u, hu, hend⟩ := State.each_once (p := fun u : State => (u.stn n, u.now)) (k := n.val)
    (f := fun u k => u.postEvent k (s.c0Event m))
    (fun u k hk => Prod.ext (stn_postEvent_other hk) now_postEvent) s (List.mem_range.2 n.isLt) List.nodup_range
  obtain ⟨hstn, hnow⟩ := Prod.mk.inj hu
  obtain ⟨hpost, -⟩ := Prod.mk.inj hend
  have hopen : u.closed (s.c0Event m).stamp = false := by rw [State.closed, hnow]; exact closed_c0Event s m h
  rw [hpost, stn_postEvent_open u n.isLt (by rw [hstn]; exact hrun) (by rw [hstn]; exact hen) (by rw [hstn]; exact hev)
    (by rw [hstn]; exact hmark) hopen]

/-! ### Forwarding (R382, R384, R388) -/

/-- What lane `j` holds when it forwards a message of lane `i` in slot `k`. -/
theorem forwardC0_facts (j : Fin 16) (k : Fin 8) (m : C0Msg) (flow : Nat) (hj : j ≠ i) (hs : s.slotFrom j k i = true)
    (hh : m.hop ≠ 7) :
    let t := s.forwardC0 i k m flow j
    t.stations = s.stations ∧ t.raises = s.raises ∧
      (t.lane j).sent[k] = { m with flow := flow, hop := m.hop + 1 }.encode ∧ (t.lane j).sentIn[k] = s.repeatFrame i j := by
  have hji : j.val ≠ i.val := fun e => hj (Fin.ext e)
  have hne : ¬(j.val = i.val ∨ (!s.slotFrom j k i) = true ∨ m.hop = 7) := by simp [hs, hh, hji]
  intro t
  have ht : t = s.modLane j fun l => { l with
      sent := l.sent.setIfInBounds k { m with flow := flow, hop := m.hop + 1 }.encode
      sentIn := l.sentIn.setIfInBounds k (s.repeatFrame i j) } := if_neg hne
  rw [ht, State.lane_modLane_self _ _ _ j.isLt]
  exact ⟨rfl, rfl, by simp, by simp⟩

/-! ### Cells received (R380, R385) -/

section Cells
variable {v : BitVec 128} (code : Nat) (loc : State → Nat → Body → State) (hc : (s.lane i).carries = true)
  (hf : (s.lane i).fecOn = false) (hv : crcHolds v = true)
include hc hf hv

theorem cellReceive_drops (hcls : cellClass v ≠ 0) (he : bitOf (s.flowEntry i (cellDecode v).flow) 31 = false) :
    s.cellReceive i [v] code loc = s.bump Fields.LN_CNT_CDROP i 1 := by
  simp [State.cellReceive, hc, hcls, codeword_without_fec s i code hf, hv, he]

/-- A cell of class 1 that its entry delivers, and sends to no lane, joins the word queue. -/
theorem cellReceive_delivers (hcls : cellClass v = 1) (he : bitOf (s.flowEntry i (cellDecode v).flow) 31 = true)
    (hd : bitOf (s.flowEntry i (cellDecode v).flow) 30 = true) (hl : s.lanesOf (s.flowEntry i (cellDecode v).flow) = []) :
    s.cellReceive i [v] code loc = s.deliverC1 i (cellDecode v).flow (cellDecode v).data := by
  simp [State.cellReceive, hc, hcls, codeword_without_fec s i code hf, hv, he, hd, hl, State.each]

end Cells

/-! ### The word queue (LNG_C1WORD) -/

theorem readC1_facts {x : C1Word} {l : List C1Word} (h : s.lng.words = x :: l) :
    s.readC1.1 = x.word ∧ s.readC1.2.lng.words = l ∧ s.readC1.2.reg .LNG_C1TICK_LO 0 = loWord x.tick ∧
      s.readC1.2.reg .LNG_C1TICK_HI 0 = hiWord x.tick ∧
      s.readC1.2.reg .LNG_C1INFO 0 = BitVec.ofNat 32 (x.flow % 4096 * 16 + x.lane % 16) := by
  let t := ((s.modLng fun g => { g with words := l }).setReg .LNG_C1TICK_LO 0 (loWord x.tick)).setReg .LNG_C1TICK_HI 0 (hiWord x.tick)
  have hr : s.readC1 = (x.word, t.setReg .LNG_C1INFO 0 (BitVec.ofNat 32 (x.flow % 4096 * 16 + x.lane % 16))) := by
    simp only [State.readC1, h]; rfl
  rw [hr]
  refine ⟨rfl, rfl, ?_, ?_, State.reg_setReg_self ..⟩
  · rw [State.reg_setReg_other _ _ _ _ _ _ (by decide), State.reg_setReg_other _ _ _ _ _ _ (by decide), State.reg_setReg_self]
  · rw [State.reg_setReg_other _ _ _ _ _ _ (by decide), State.reg_setReg_self]

/-- A read of LNG_C1WORD by the host port takes the oldest word. -/
theorem portRead_c1word (h : s.hostServes = true) (h4 : s.power ≠ 4) :
    s.portRead (regAddr .LNG_C1WORD 0) = { s.readC1.2 with readData := s.readC1.1 } := by
  have hp := readAddr_placed s .LNG_C1WORD 0 (placed_of_command _ _ (by decide) (by decide)) h4
  simp only [State.portRead, h, hp]
  rfl

/-! ### The flow-table window (R380, R383) -/

@[simp] theorem flowNext_lng : s.flowNext.lng = s.lng := by
  unfold State.flowNext; split <;> rfl

theorem flow_flowNext : s.flowNext.fld Fields.FLOW_ADDR_FLOW 0 =
    if s.flag Fields.FLOW_ADDR_AUTOINC 0 then (s.fld Fields.FLOW_ADDR_FLOW 0 + 1) % 4096 else s.fld Fields.FLOW_ADDR_FLOW 0 := by
  unfold State.flowNext
  split
  · exact State.fld_setFld_self s Fields.FLOW_ADDR_FLOW 0 _ (by decide)
  · rfl

/-- A write of FLOW_DATA stores the entry that FLOW_ADDR names, and FLOW goes on. -/
theorem writeFlowData_stores (w : Word) (h : s.fencedEntry 17 s.flowIndex = false) : s.writeReg .FLOW_DATA 0 w =
    (.ok, (s.modLng fun g => { g with flows := g.flows.set s.flowIndex (w &&& 0xCFFFFFFF#32) }).flowNext) := by
  have hw : s.writeReg .FLOW_DATA 0 w = s.writeFlowData w := rfl
  rw [hw, State.writeFlowData, if_neg (by simp [h])]

/-! ### Class-0 messages sent (R383) -/

theorem c0Transmit_sends (k : Nat) {m : C0Wait} {l : List C0Wait} {f : Nat} (ho : (s.lane i).own = m :: l)
    (hc : (s.lane i).carries = true) (hs : s.slotFrom i k i = true) (ht : m.at_ + 2 ≤ s.elapsed) (hf : s.slotFrame k = some f) :
    s.c0Transmit i k = s.modLane i fun x =>
      { x with own := l, sent := x.sent.setIfInBounds k m.msg.encode, sentIn := x.sentIn.setIfInBounds k f } := by
  simp [State.c0Transmit, ho, hc, hs, ht, hf]

theorem c0Transmit_waits (k : Nat) {m : C0Wait} {l : List C0Wait} (ho : (s.lane i).own = m :: l)
    (h : s.elapsed < m.at_ + 2 ∨ s.slotFrame k = none) : s.c0Transmit i k = s := by
  unfold State.c0Transmit
  split
  next m' rest f hown hf =>
    obtain ⟨rfl, rfl⟩ := List.cons.inj (ho.symm.trans hown)
    have hearly : s.elapsed < m.at_ + 2 := h.resolve_right (by simp [hf])
    exact if_neg (by simp [Nat.not_le.2 hearly])
  next => rfl

end

/-- Settles O33: class-0 messages by what `c0Receive_judged` makes of CRC and entry, cells by `cellReceive_drops` and
`cellReceive_delivers`, the word queue by `readC1_facts`, entries by `writeFlowData_stores`, sending by `c0Transmit_sends`. -/
theorem messagesAreRoutedAndOriginated : Obligations.MessagesAreRoutedAndOriginated := by
  refine ⟨?_, ?_, ?_, ?_, ?_, ?_, ?_, ?_, ?_, ?_⟩
  · intro s i k v code hup hc hf hv
    exact completes_of_detector rfl hup (c0Receive_bad_crc s i k v code hc hf hv) rfl
  · intro s i k v code hup hc hf hv hk he
    exact completes_of_detector rfl hup (c0Receive_drops s i k code hc hf hv hk he) (c0Drop_facts s i)
  · intro s i k v code n hup hc hf hv hk he hd hl hopen hrun hev hen hmark
    exact completes_of_detector rfl hup (c0Receive_delivers s i k code hc hf hv hk he hd hl)
      (deliverC0_facts s (c0Decode v) n hopen hrun hev hen hmark)
  · intro s i j k v code hup hc hf hv hk he hd hl hj hs hh
    exact completes_of_detector rfl hup (c0Receive_forwards s i k code hc hf hv hk he hd hl)
      (forwardC0_facts s i j k (c0Decode v) _ hj hs hh)
  · intro s i v code hup hc hf hv hcls he hd hl hroom
    refine completes_of_detector rfl hup ((cellReceive_delivers s i code _ hc hf hv hcls he hd hl).trans
      (if_neg (Nat.not_le.2 hroom))) ⟨_, rfl, rfl, rfl, rfl⟩
  · intro s i v code hup hc hf hv hcls he
    exact completes_of_detector rfl hup (cellReceive_drops s i code _ hc hf hv hcls he) rfl
  · intro s x l h h4 hw
    obtain ⟨hword, hrest, hlo, hhi, hinfo⟩ := readC1_facts s hw
    exact ⟨_, rfl, by rw [portRead_c1word s h h4]; exact ⟨hword, hrest, hlo, hhi, hinfo⟩⟩
  · intro s w h hrow
    refine completes_of_accepted_lanes rfl h (by decide) (by decide) rfl (writeFlowData_stores s w hrow) fun t hw _ hg hr _ => ?_
    rw [hg, flowNext_lng, fld_of_reg (reg_of_regs hr ..), flow_flowNext]
    exact ⟨WMap.get_set_self .., hw, fun a ha => WMap.get_set_other _ _ _ _ ha.symm, rfl⟩
  · intro s n k m l hup ho hc hs ht f hf
    refine completes_of_detector rfl hup (c0Transmit_sends s n k ho hc hs ht hf) ?_
    rw [State.lane_modLane_self _ _ _ n.isLt]
    exact ⟨rfl, by simp, by simp, rfl, lane_modLane_ne s n _⟩
  · intro s n k m l ho h
    exact completes_of_idle_detector rfl (c0Transmit_waits s n k ho h)

end Sys2Proof.Machine

namespace Sys2Proof.Machine

/-! ## Time transfer (R392 to R398, R403) -/

section
variable (s : State)

@[simp] theorem setLevel_regs (f : Fid) (a : Word) (b : Bool) : (s.setLevel f a b).regs = s.regs := by
  cases b
  · rfl
  · exact beginLevel_regs ..

@[simp] theorem setLevel_lanes (f : Fid) (a : Word) (b : Bool) : (s.setLevel f a b).lanes = s.lanes := by
  cases b
  · rfl
  · exact beginLevel_lanes ..

/-! ### θ_f of the timing source (R396, R398, R399) -/

/-- SETTLED and what the lanes share after θ_f is renewed, before TT_TRIP is judged. -/
def State.thetaStored (n : Nat) : State :=
  let f := s.thetaF n
  let t := (s.setReg .LNG_THETA 0 (psWord f)).modLng fun g => { g with toSteer := f - g.toMove }
  if (t.lng.settling && (decide (-20 ≤ f) && decide (f ≤ 20))) = true then
    (t.setFld Fields.LNG_TTSTAT_SETTLED 0 1).modLng fun g => { g with settling := false }
  else t

theorem thetaUpdate_form (n : Nat) : ∃ b, s.thetaUpdate n = (s.thetaStored n).setLevel (Src.lane_TT_TRIP n) 0 b := ⟨_, rfl⟩

theorem lanes_thetaStored (n : Nat) : (s.thetaStored n).lanes = s.lanes := by
  unfold State.thetaStored; extract_lets f t; split <;> rfl

theorem reg_thetaStored (n : Nat) (r : RegName) (i : Nat) (h : r ≠ .LNG_TTSTAT) :
    (s.thetaStored n).reg r i = (s.setReg .LNG_THETA 0 (psWord (s.thetaF n))).reg r i := by
  unfold State.thetaStored
  extract_lets f t
  split
  · exact reg_setFld_ne t Fields.LNG_TTSTAT_SETTLED 0 1 r i h
  · rfl

theorem lanes_thetaUpdate (n : Nat) : (s.thetaUpdate n).lanes = s.lanes := by
  obtain ⟨b, hb⟩ := thetaUpdate_form s n
  rw [hb, setLevel_lanes, lanes_thetaStored]

theorem reg_thetaUpdate (n : Nat) (r : RegName) (i : Nat) (h : r ≠ .LNG_TTSTAT) :
    (s.thetaUpdate n).reg r i = (s.setReg .LNG_THETA 0 (psWord (s.thetaF n))).reg r i := by
  obtain ⟨b, hb⟩ := thetaUpdate_form s n
  rw [hb, reg_of_regs (setLevel_regs ..), reg_thetaStored _ _ _ _ h]

/-- How many results make a mean is a matter of LNG_TTCFG. -/
theorem avgCount_congr {t : State} (h : t.reg .LNG_TTCFG 0 = s.reg .LNG_TTCFG 0) : t.avgCount = s.avgCount :=
  congrArg (fun k => 2 ^ min 10 k) (fld_of_reg (f := Fields.LNG_TTCFG_AVG) h)

/-- θ_f is a matter of the lane's results and of AVG. -/
theorem thetaF_congr {t : State} (n : Nat) (hl : t.lane n = s.lane n) (ha : t.reg .LNG_TTCFG 0 = s.reg .LNG_TTCFG 0) :
    t.thetaF n = s.thetaF n := by
  unfold State.thetaF
  rw [hl, avgCount_congr s ha]

theorem thetaF_thetaUpdate (n m : Nat) : (s.thetaUpdate n).thetaF m = s.thetaF m :=
  thetaF_congr s m (lane_of_lanes (lanes_thetaUpdate s n) m) ((reg_thetaUpdate s n .LNG_TTCFG 0 (by decide)).trans
    (State.reg_setReg_other _ _ _ _ _ _ (by decide)))

end

/-! ### A result of time transfer (R393 to R396) -/

section
variable (s : State) (n : Fin 16)

/-- The state in which a complete record has been taken: OFFSET, DELAY, and the lane's results. -/
def State.ttTaken (n : Nat) (theta delay : Rat) (depth : Nat) : State :=
  ((s.setReg .LN_OFFSET n (psWord theta)).setReg .LN_DELAY n (psWord delay)).modLane n fun l =>
    { l with thetas := theta :: l.thetas.take 1023, valid := l.valid + 1, peerDepth := depth }

/-- 2^AVG valid results running make a LINKED lane TIMED. -/
def State.ttJudged (n : Nat) : State :=
  if (s.lane n).state == .linked && decide (s.avgCount ≤ (s.lane n).valid) then s.laneTo n .timed else s

/-- A timing source whose depth has become unusable raises PEER_DEPTH. -/
def State.depthJudged (n : Nat) (was : Bool) : State :=
  if s.badDepth n && !(was && (s.lane n).valid != 1) then s.raiseEvent (Src.lane_PEER_DEPTH n) 0 else s

/-- The offset and the round trip less ASYM of a record, in 0.1 ps (R394). -/
def ttTheta (t1 t2 t3 t4 : Int) (a : Rat) : Rat := (stampPs ((t2 - t1) - (t4 - t3)) + a) / 2
def ttDelay (t1 t2 t3 t4 : Int) (a : Rat) : Rat := (stampPs ((t2 - t1) + (t4 - t3)) - a) / 2

theorem ttResult_invalid (w0 w1 w2 : BitVec 108) (t2 t3 : Int) (hc : (s.lane n).carries = true)
    (hw : (ttCrcHolds w0 && ttCrcHolds w1 && ttCrcHolds w2) = false) :
    s.ttResult n w0 w1 w2 t2 t3 true = s.modLane n fun l => { l with valid := 0 } := by
  unfold State.ttResult
  rw [if_neg (by simp [hc]), if_pos (by simp only [hw]; rfl)]

/-- The timing source is a matter of the primary and of LNG_RCLK (R392). -/
theorem timingLane_congr {s t : State} (hp : t.primary = s.primary) (hr : t.reg .LNG_RCLK 0 = s.reg .LNG_RCLK 0) :
    t.timingLane = s.timingLane := by
  have hf : ∀ f : Field, f.reg = .LNG_RCLK → t.fld f 0 = s.fld f 0 := fun f h => fld_of_reg (by rw [h, hr])
  simp only [State.timingLane, State.flag, hp, hf Fields.LNG_RCLK_EN0 rfl, hf Fields.LNG_RCLK_SEL0 rfl, hf Fields.LNG_RCLK_EN1 rfl,
    hf Fields.LNG_RCLK_SEL1 rfl]
  rfl

theorem reg_ttTaken (theta delay : Rat) (depth : Nat) (r : RegName) (i : Nat) (h : r ≠ .LN_OFFSET) (h' : r ≠ .LN_DELAY) :
    (s.ttTaken n theta delay depth).reg r i = s.reg r i := by
  rw [State.ttTaken, State.modLane_at_reg, State.reg_setReg_other _ _ _ _ _ _ fun e => h' e.1.symm,
    State.reg_setReg_other _ _ _ _ _ _ fun e => h e.1.symm]

theorem offset_ttTaken (theta delay : Rat) (depth : Nat) : (s.ttTaken n theta delay depth).reg .LN_OFFSET n = psWord theta := by
  rw [State.ttTaken, State.modLane_at_reg, State.reg_setReg_other _ _ _ _ _ _ (fun e => by cases e.1), State.reg_setReg_self]

theorem delay_ttTaken (theta delay : Rat) (depth : Nat) : (s.ttTaken n theta delay depth).reg .LN_DELAY n = psWord delay := by
  rw [State.ttTaken, State.modLane_at_reg, State.reg_setReg_self]

theorem lane_ttTaken (theta delay : Rat) (depth : Nat) : (s.ttTaken n theta delay depth).lane n =
    { s.lane n with thetas := theta :: (s.lane n).thetas.take 1023, valid := (s.lane n).valid + 1, peerDepth := depth } := by
  rw [State.ttTaken, State.lane_modLane_self _ _ _ n.isLt]
  rfl

/-- Judging the lane changes its state and the tick of it alone. -/
theorem ttJudged_form (u : State) : u.ttJudged n = u ∨ u.ttJudged n = u.laneTo n .timed := by
  unfold State.ttJudged
  split
  · exact .inr rfl
  · exact .inl rfl

theorem regs_ttJudged (u : State) : (u.ttJudged n).regs = u.regs := by
  obtain h | h := ttJudged_form n u <;> rw [h]
  rfl

theorem lane_ttJudged (u : State) : ((u.ttJudged n).lane n).valid = (u.lane n).valid ∧
    ((u.ttJudged n).lane n).thetas = (u.lane n).thetas := by
  obtain h | h := ttJudged_form n u <;> rw [h]
  · exact ⟨rfl, rfl⟩
  · rw [lane_laneTo]; exact ⟨rfl, rfl⟩

theorem ttJudged_timed (u : State) (hst : (u.lane n).state = .linked) (h : u.avgCount ≤ (u.lane n).valid) :
    ((u.ttJudged n).lane n).state = .timed := by
  rw [State.ttJudged, if_pos (by simp [hst, h]), lane_laneTo]

theorem regs_depthJudged (u : State) (was : Bool) : (u.depthJudged n was).regs = u.regs := by
  unfold State.depthJudged
  split
  · exact raiseEvent_regs ..
  · rfl

theorem lanes_depthJudged (u : State) (was : Bool) : (u.depthJudged n was).lanes = u.lanes := by
  unfold State.depthJudged
  split
  · exact raiseEvent_lanes ..
  · rfl

/-- A complete record is taken, the lane judged, and θ_f of a timing source renewed. -/
theorem ttResult_valid {w0 w1 w2 : BitVec 108} {t1 t2 t3 t4 : Int} {a : Rat} (hc : (s.lane n).carries = true)
    (h0 : ttCrcHolds w0 = true) (h1 : ttCrcHolds w1 = true) (h2 : ttCrcHolds w2 = true)
    (ht1 : t1 = (w0.extractLsb' 8 80).toNat) (ht4 : t4 = (w1.extractLsb' 8 80).toNat)
    (ha : a = if s.upstream n then (intOfWord (s.reg .LN_ASYM n) : Rat) else -(intOfWord (s.reg .LN_ASYM n) : Rat)) :
    ∃ depth was, s.ttResult n w0 w1 w2 t2 t3 true =
      let t := (s.ttTaken n (ttTheta t1 t2 t3 t4 a) (ttDelay t1 t2 t3 t4 a) depth).ttJudged n
      if s.timingLane = some n.val then (t.depthJudged n was).thetaUpdate n else t := by
  subst ht1 ht4 ha
  refine ⟨(w2.extractLsb' 84 4).toNat, s.badDepth n, ?_⟩
  extract_lets t
  have htime : t.timingLane = s.timingLane := by
    refine timingLane_congr ?_ ?_
    · obtain h | h := ttJudged_form n _ <;> exact (congrArg State.primary h).trans rfl
    · rw [reg_of_regs (regs_ttJudged n _), reg_ttTaken _ _ _ _ _ _ _ (by decide) (by decide)]
  rw [← htime]
  unfold State.ttResult
  rw [if_neg (by simp [hc]), if_neg (by simp [h0, h1, h2])]
  rfl

/-- What a record leaves of the lane before θ_f of a timing source is renewed. -/
theorem taken_facts (theta delay : Rat) (depth : Nat) :
    let t := (s.ttTaken n theta delay depth).ttJudged n
    t.reg .LN_OFFSET n = psWord theta ∧ t.reg .LN_DELAY n = psWord delay ∧ (t.lane n).valid = (s.lane n).valid + 1 ∧
      (t.lane n).thetas = theta :: (s.lane n).thetas.take 1023 ∧
      ((s.lane n).state = .linked → s.avgCount ≤ (s.lane n).valid + 1 → (t.lane n).state = .timed) ∧
      t.raises = s.raises ∧ t.lng = s.lng := by
  intro t
  obtain ⟨hvalid, hthetas⟩ := lane_ttJudged n (s.ttTaken n theta delay depth)
  have hlane := lane_ttTaken s n theta delay depth
  rw [hlane] at hvalid hthetas
  refine ⟨?_, ?_, hvalid, hthetas, fun hst hv => ttJudged_timed n _ (by rw [hlane]; exact hst) ?_, ?_, ?_⟩
  · rw [reg_of_regs (regs_ttJudged n _), offset_ttTaken]
  · rw [reg_of_regs (regs_ttJudged n _), delay_ttTaken]
  · rw [avgCount_congr s (reg_ttTaken s n theta delay depth _ 0 (by decide) (by decide)), hlane]
    exact hv
  · obtain h | h := ttJudged_form n (s.ttTaken n theta delay depth) <;> exact (congrArg State.raises h).trans rfl
  · obtain h | h := ttJudged_form n (s.ttTaken n theta delay depth) <;> exact (congrArg State.lng h).trans rfl

/-- Renewing θ_f of a timing source shows it in LNG_THETA and leaves the lanes and every register but LNG_TTSTAT. -/
theorem renewed_facts (t : State) (was : Bool) :
    let u := (t.depthJudged n was).thetaUpdate n
    u.lanes = t.lanes ∧ (∀ r i, r ≠ .LNG_TTSTAT → r ≠ .LNG_THETA → u.reg r i = t.reg r i) ∧
      u.reg .LNG_THETA 0 = psWord (u.thetaF n) := by
  refine ⟨(lanes_thetaUpdate ..).trans (lanes_depthJudged ..), fun r i h h' => ?_, ?_⟩
  · rw [reg_thetaUpdate _ _ _ _ h, State.reg_setReg_other _ _ _ _ _ _ fun e => h' e.1.symm, reg_of_regs (regs_depthJudged ..)]
  · rw [reg_thetaUpdate _ _ _ _ (by decide), State.reg_setReg_self, thetaF_thetaUpdate]

end

/-! ### LNG_CMD.LOAD (R28, R29, R398) -/

section
variable (s : State)

/-- TIME_STATE.SRC reads the source recorded (R33, R630). -/
theorem timeSrc_setTime {src : Nat} (cond : Nat) (h0 : src ≠ 0) (h : src < 256) : (s.setTime src cond).timeSrc = src := by
  unfold State.setTime
  extract_lets src0 cond0 s1 s2 s3 s4
  have h1 : s1.timeSrc = src :=
    (State.fld_setFld_other _ Fields.TIME_STATE_COND Fields.TIME_STATE_SRC 0 0 _ (by decide) (.inr (.inr (by decide)))).trans
      ((State.fld_setFld_self s Fields.TIME_STATE_SRC 0 src (by decide)).trans (Nat.mod_eq_of_lt h))
  have h3 : s3.timeSrc = src := by
    simp only [s3]
    split
    · refine (fld_of_reg (reg_of_regs (beginLevel_regs ..) ..)).trans (Eq.trans ?_ h1)
      exact State.fld_setFld_other s2 Fields.TIME_STATE_BROKEN Fields.TIME_STATE_SRC 0 0 1 (by decide) (.inr (.inl (by decide)))
    · exact h1
  split
  next heq => exact heq.1.symm
  next =>
    exact (fld_of_reg (reg_of_regs ((setLevel_regs ..).trans (setLevel_regs ..)) ..)).trans h3

/-- A timeline load makes the count the loaded one and records its source (R29, R31). -/
theorem loadCount_facts (v : Count) (kr : Nat) {src : Nat} (h0 : src ≠ 0) (h : src < 256) :
    (s.loadCount v kr src).count = v ∧ (s.loadCount v kr src).timeSrc = src := by
  unfold State.loadCount
  extract_lets old s1 s2 s3 s4
  have h2 : s2.count = v := by
    refine (State.each_keeps State.count _ ?_ s1 _).trans rfl
    exact fun _ _ => rfl
  have h4 : s4.count = v := by
    refine (State.each_keeps State.count _ ?_ s3 _).trans h2
    exact fun u o => congrArg Backdrop.count (backdrop_restartOut u o kr)
  exact ⟨(congrArg Anchorage.count (anchorage_setTime ..)).trans h4, timeSrc_setTime s4 _ h0 h⟩

/-- The count, stepped back by the whole ticks of θ_f (R398). -/
def State.steppedCount (n : Nat) : Count := s.count - BitVec.ofInt 64 (ratRound (s.thetaF n / 20000))

theorem laneLoad_loads {n : Nat} (ha : s.loadAllowed = true) (hx : s.transfer = none) (hs : s.timingLane = some n)
    (ht : (s.lane n).isTimed = true) : ∃ u, s.laneLoad = (.ok, u) ∧ u.count = s.steppedCount n ∧ u.timeSrc = 3 := by
  obtain ⟨hcount, hsrc⟩ := loadCount_facts s (s.steppedCount n) (s.steppedCount n).toNat (src := 3) (by decide) (by decide)
  unfold State.laneLoad
  rw [if_neg (by simp [ha, hx])]
  simp only [hs, ht, Bool.not_true, Bool.false_eq_true, if_false]
  refine ⟨_, rfl, ?_⟩
  have hb : ∀ u : State, u.backdrop = (s.loadCount (s.steppedCount n) (s.steppedCount n).toNat 3).backdrop →
      u.count = s.steppedCount n ∧ u.timeSrc = 3 := fun u hu =>
    ⟨(congrArg Backdrop.count hu).trans hcount, (congrArg Backdrop.timeSrc hu).trans hsrc⟩
  refine hb _ ?_
  rw [backdrop_thetaUpdate, backdrop_setFld _ _ _ _ (by decide), backdrop_modLng]
  exact backdrop_each _ _ _ fun _ _ => backdrop_modLane ..

theorem laneLoad_busy (h : s.loadAllowed = false) : s.laneLoad = (.busy, s) := if_pos (by simp [h])

theorem laneLoad_sourceless (ha : s.loadAllowed = true) (hx : s.transfer = none) (hs : s.timingLane = none) :
    s.laneLoad = (.state, s) := by
  rw [State.laneLoad, if_neg (by simp [ha, hx]), hs]

/-! ### REALIGN and LOOPCAL (R394, R403) -/

theorem realign_takes {n : Nat} (hs : s.timingLane = some n) (hc : (s.lane n).carries = true) : s.realign = (.ok, s.frameTo n) := by
  rw [State.realign, hs]
  exact if_pos hc

theorem realign_sourceless (hs : s.timingLane = none) : s.realign = (.state, s) := by
  rw [State.realign, hs]

theorem aligned_frameTo (k : Nat) : (s.frameTo k).flag Fields.LNG_TTSTAT_ALIGNED 0 = true :=
  (flag_of_reg (frameTo_reg s k .LNG_TTSTAT 0 (by decide))).trans (flag_setFld_self _ Fields.LNG_TTSTAT_ALIGNED 0 true (by decide) rfl)

/-- A lane whose insertion delays LOOPCAL calibrates. -/
def Lane.loopCalibrated (l : Lane) : Lane := if l.state == .off || l.state == .waitSig then { l with loopCal := true } else l

theorem lane_loopCal (n : Fin 16) : s.loopCal.lane n = (s.lane n).loopCalibrated := by
  obtain ⟨u, hu, hend⟩ := State.each_once (p := fun u : State => u.lane n)
    (f := fun u m => u.modLane m Lane.loopCalibrated) (k := n.val)
    (fun u m hm => State.lane_modLane_other u m n _ hm) s (List.mem_range.2 n.isLt) List.nodup_range
  exact hend.trans ((State.lane_modLane_self u n _ n.isLt).trans (congrArg Lane.loopCalibrated hu))

/-! ### One command of LNG_CMD -/

theorem writeLngCmd_load : s.writeLngCmd (cmdBit 31) = s.laneLoad.orAsWas s := by
  simp +decide only [State.writeLngCmd, if_true, if_false]
  rcases s.laneLoad with ⟨st, u⟩
  cases st <;> rfl

theorem writeLngCmd_realign : s.writeLngCmd (cmdBit 30) = s.realign.orAsWas s := by
  simp +decide only [State.writeLngCmd, if_true, if_false]
  rcases s.realign with ⟨st, u⟩
  cases st <;> rfl

theorem writeLngCmd_loopcal : s.writeLngCmd (cmdBit 29) = (.ok, s.loopCal) := by
  simp +decide only [State.writeLngCmd, if_true, if_false]

end

/-- Settles O34: records by `ttResult_invalid` and `ttResult_valid`, with `taken_facts` and `renewed_facts`, LOAD by `laneLoad_loads`
and its refusals, REALIGN by `realign_takes`, LOOPCAL by `lane_loopCal`. -/
theorem timeTransfer : Obligations.TimeTransfer := by
  refine ⟨?_, ?_, ?_, ?_, ?_, ?_, ?_, ?_⟩
  · intro s n w0 w1 w2 t2 t3 hup hc hw
    exact completes_of_detector rfl hup (ttResult_invalid s n w0 w1 w2 t2 t3 hc hw) rfl
  · intro s n w0 w1 w2 t1 t2 t3 t4 a hup hc h0 h1 h2 ht1 ht4 ha
    obtain ⟨depth, was, hres⟩ := ttResult_valid s n (t2 := t2) (t3 := t3) hc h0 h1 h2 ht1 ht4 ha
    obtain ⟨hoff, hdelay, hvalid, hthetas, htimed, hraises, hlng⟩ :=
      taken_facts s n (ttTheta t1 t2 t3 t4 a) (ttDelay t1 t2 t3 t4 a) depth
    by_cases hs : s.timingLane = some n.val
    · obtain ⟨hlanes, hreg, htheta⟩ := renewed_facts n
        ((s.ttTaken n (ttTheta t1 t2 t3 t4 a) (ttDelay t1 t2 t3 t4 a) depth).ttJudged n) was
      refine completes_of_detector rfl hup (hres.trans (if_pos hs)) ?_
      rw [hreg _ _ (by decide) (by decide), hreg _ _ (by decide) (by decide), lane_of_lanes hlanes]
      exact ⟨hoff, hdelay, hvalid, hthetas, htimed, fun h => absurd hs h, fun _ => htheta⟩
    · refine completes_of_detector rfl hup (hres.trans (if_neg hs)) ?_
      exact ⟨hoff, hdelay, hvalid, hthetas, htimed, fun _ => ⟨hraises, hlng⟩, fun h => absurd h hs⟩
  · intro s n h ha hload hx hs ht
    obtain ⟨u, hu, hcount, hsrc⟩ := laneLoad_loads s hload hx hs ht
    refine completes_of_accepted_lanes rfl h (by decide) (by decide) rfl
      (lngCmd_answers s ha (writeLngCmd_load s) hu (.inl rfl)) fun t hw _ _ hr hc => ?_
    exact ⟨hc.trans hcount, hw, (fld_of_reg (reg_of_regs hr ..)).trans hsrc⟩
  · intro s h ha hload
    exact completes_of_refused_lanes rfl h (by decide) (by decide) rfl
      (lngCmd_answers s ha (writeLngCmd_load s) (laneLoad_busy s hload) (.inr rfl)) (by decide) (by decide)
      fun t hrf _ _ hc => ⟨hrf, hc⟩
  · intro s h ha hload hx hs
    exact completes_of_refused_lanes rfl h (by decide) (by decide) rfl
      (lngCmd_answers s ha (writeLngCmd_load s) (laneLoad_sourceless s hload hx hs) (.inr rfl)) (by decide) (by decide)
      fun t hrf _ _ hc => ⟨hrf, hc⟩
  · intro s n h ha hs hc
    refine completes_of_accepted_lanes rfl h (by decide) (by decide) rfl
      (lngCmd_answers s ha (writeLngCmd_realign s) (realign_takes s hs hc) (.inl rfl)) fun t hw hl hg hr _ => ?_
    rw [hg, frameTo_lng, flag_of_reg (reg_of_regs hr ..), aligned_frameTo]
    exact ⟨rfl, rfl, hw, rfl, hl.trans (frameTo_lanes ..)⟩
  · intro s h ha hs
    exact completes_of_refused_lanes rfl h (by decide) (by decide) rfl
      (lngCmd_answers s ha (writeLngCmd_realign s) (realign_sourceless s hs) (.inr rfl)) (by decide) (by decide)
      fun t hrf _ hg _ => ⟨hrf, hg⟩
  · intro s h ha
    refine completes_of_accepted_lanes rfl h (by decide) (by decide) rfl
      ((writeReg_lngCmd s _ ha).trans (writeLngCmd_loopcal s)) fun t hw hl _ _ _ => ⟨hw, fun n => ?_⟩
    rw [lane_of_lanes hl, lane_loopCal, Lane.loopCalibrated]
    simp only [Bool.or_eq_true, beq_iff_eq]

end Sys2Proof.Machine

namespace Sys2Proof.Machine

/-! ## Management messages sent and handled (R381, R413) -/

/-- `t` is `s` with cells on the queues of its lanes, or counted there as dropped (R379); nothing else differs. -/
structure State.SentFrom (s t : State) : Prop where
  form : { t with lanes := s.lanes, regs := s.regs } = s
  reg : ∀ r i, r ≠ .LN_CNT → t.reg r i = s.reg r i
  lane : ∀ n, ∃ cs, t.lane n = { s.lane n with cells := cs }

section
variable {s t u : State}

theorem State.SentFrom.refl : s.SentFrom s := ⟨rfl, fun _ _ _ => rfl, fun n => ⟨(s.lane n).cells, rfl⟩⟩

theorem State.SentFrom.trans (h : s.SentFrom t) (h' : t.SentFrom u) : s.SentFrom u where
  form := (congrArg (fun x : State => { x with lanes := s.lanes, regs := s.regs }) h'.form).trans h.form
  reg r i hr := (h'.reg r i hr).trans (h.reg r i hr)
  lane n := by
    obtain ⟨_, hs⟩ := h.lane n
    obtain ⟨cs, ht⟩ := h'.lane n
    exact ⟨cs, by rw [ht, hs]⟩

/-- What is neither a lane nor a register is as it was. -/
theorem State.SentFrom.same {α : Type} (h : s.SentFrom t) (p : State → α) : p { t with lanes := s.lanes, regs := s.regs } = p s :=
  congrArg p h.form

theorem State.SentFrom.fleet (h : s.SentFrom t) : t.fleet = s.fleet := h.same State.fleet

theorem State.SentFrom.fld (h : s.SentFrom t) (f : Field) (i : Nat) (hf : f.reg ≠ .LN_CNT) : t.fld f i = s.fld f i :=
  fld_of_reg (h.reg _ _ hf)

theorem queueCells_sent (s : State) (cls : Nat) (cs : List Cell) (n : Nat) : s.SentFrom (s.queueCells cls cs n) := by
  unfold State.queueCells
  extract_lets q
  split
  · exact ⟨rfl, fun r i h => reg_bump_ne s _ n 1 r i h, fun m => ⟨(s.lane m).cells, rfl⟩⟩
  · refine ⟨rfl, fun _ _ _ => rfl, fun m => ?_⟩
    by_cases hm : n = m ∧ n < 16
    · obtain ⟨rfl, hn⟩ := hm
      exact ⟨_, State.lane_modLane_self s n _ hn⟩
    · refine ⟨(s.lane m).cells, ?_⟩
      by_cases h : n = m
      · subst h
        simp [State.modLane, State.setLane, State.lane, Nat.le_of_not_lt fun hn => hm ⟨rfl, hn⟩]
      · exact State.lane_modLane_other s n m _ h

theorem sendCells_sent (s : State) (cls flow : Nat) (b : Body) : s.SentFrom (s.sendCells cls flow b) := by
  unfold State.sendCells
  extract_lets e
  split
  · exact .refl
  · exact State.each_induct s.SentFrom _ (fun u n h => h.trans (queueCells_sent u cls _ n)) s _ .refl

theorem sendMgmt_sent (s : State) (flow : Nat) (b : Body) : s.SentFrom (s.sendMgmt flow b) := sendCells_sent s 2 flow b

theorem respond_sent (s : State) (dst tag addr st : Nat) (w : Word) : s.SentFrom (s.respond dst tag addr st w) := sendMgmt_sent ..

end

/-- The state in which the oldest message has been taken from the inbox. -/
def State.taken (s : State) (l : List Delivery) : State := s.modFleet fun g => { g with inbox := l }

theorem handle_oldest {s : State} {k : Nat} {f : State → Delivery → State} {d : Delivery} {l : List Delivery}
    (hi : s.fleet.inbox = d :: l) (hk : bodyKind d.body = k) : s.handle k f = f (s.taken l) d := by
  simp only [State.handle, hi, if_pos hk]
  rfl

theorem handle_other {s : State} {k : Nat} {f : State → Delivery → State} {d : Delivery} {l : List Delivery}
    (hi : s.fleet.inbox = d :: l) (hk : bodyKind d.body ≠ k) : s.handle k f = s := by
  simp only [State.handle, hi, if_neg hk]

/-- A command that handles messages of a kind is complete with what their rule makes of the oldest one, when that is of the kind. -/
theorem completes_of_message {c : Instr} {s : State} {b : Bool} {k : Nat} {f : State → Delivery → State} {d : Delivery}
    {l : List Delivery} {P : State → Prop} (hx : exec c s = .next (if b then s.handle k f else s)) (hb : b = true)
    (hi : s.fleet.inbox = d :: l) (hk : bodyKind d.body = k) (hP : P (f (s.taken l) d)) : completes c s P :=
  ⟨_, hx.trans (congrArg _ ((if_pos hb).trans (handle_oldest hi hk))), hP⟩

/-! ## Writes outside the consistency set (R419, R421) -/

section
variable {s u : State} {r : RegName} {i : Nat} {w : Word}

/-- An accepted write leaves what its rule leaves, with what is saved of it, the digest noted and TIME_HWREL (R57). -/
theorem hostWrite_accepted (h : s.serves = true) (hp : placed r i = true)
    (hk : ((regSpec r).wk && getBits w 24 8 != 0xA5) = false) (hw : s.writeReg r i w = (.ok, u)) :
    s.hostWrite (regAddr r i) w = (.ok, { (u.enterSaved r i w).noteSet s with hwRel := s.now }) := by
  simp only [State.hostWrite, State.writeAddr, writeAt_placed s r i w h hp hk, hw]

theorem noteSet_same {old : State} (hprofs : s.profs = old.profs) (hpgm : s.pgm = old.pgm) (hset : s.fleet.set = old.fleet.set) :
    s.noteSet old = s := if_pos ⟨hprofs, hpgm, hset⟩

theorem enterSaved_unset (s : State) (i : Nat) (w : Word) (h : setMask r = none) :
    ∃ st, s.enterSaved r i w = { s with store := st } := by
  unfold State.enterSaved
  rw [h, if_neg (by simp)]
  split
  · exact ⟨_, rfl⟩
  · exact ⟨s.store, rfl⟩

/-- Nothing of the consistency set has changed between two states. -/
def State.sameSet (s u : State) : Prop := u.profs = s.profs ∧ u.pgm = s.pgm ∧ u.fleet.set = s.fleet.set

/-- An accepted write that does not touch the consistency set leaves the fleet block as its rule leaves it. -/
theorem hostWrite_outside_set (h : s.serves = true) (hp : placed r i = true)
    (hk : ((regSpec r).wk && getBits w 24 8 != 0xA5) = false) (hw : s.writeReg r i w = (.ok, u)) (hm : setMask r = none)
    (hs : s.sameSet u) : ∃ st, s.hostWrite (regAddr r i) w = (.ok, { u with store := st, hwRel := s.now }) := by
  obtain ⟨hprofs, hpgm, hset⟩ := hs
  obtain ⟨st, he⟩ := enterSaved_unset u i w hm
  have hn : ({ u with store := st } : State).noteSet s = { u with store := st } := noteSet_same hprofs hpgm hset
  exact ⟨st, by rw [hostWrite_accepted h hp hk hw, he, hn]⟩

/-- A command that writes such a register is complete with the fleet block that the rule leaves (R57, R610). -/
theorem completes_of_accepted_fleet {c : Instr} {P : State → Prop} (hx : exec c s = .next (s.portWrite (regAddr r i) w))
    (h : s.serves = true) (hc : commandRegs.contains r = true) (hi : i < (regSpec r).count) (hk : (regSpec r).wk = false)
    (hw : s.writeReg r i w = (.ok, u)) (hm : setMask r = none) (hs : s.sameSet u)
    (hP : ∀ t : State, s.wrote t → t.fleet = u.fleet → P t) : completes c s P := by
  obtain ⟨st, ht⟩ := hostWrite_outside_set h (placed_of_command r i hc hi) (by simp [hk]) hw hm hs
  refine ⟨_, hx, ?_⟩
  simp only [State.portWrite, hostServes_of_serves s h, not_held_of_serves s h, stepOne_of_turn s (turn_of_serves s h), ht]
  exact hP _ ⟨rfl, rfl⟩ rfl

@[simp] theorem hspiError_fleet (s : State) (a code : Nat) : (s.hspiError a code).fleet = s.fleet := by
  unfold State.hspiError; split <;> simp

/-- A command whose write is refused, changing nothing, leaves the fleet block and the lanes (R610, R614). -/
theorem completes_of_refused_fleet {c : Instr} {st : WStatus} {P : State → Prop}
    (hx : exec c s = .next (s.portWrite (regAddr r i) w)) (h : s.serves = true) (hc : commandRegs.contains r = true)
    (hi : i < (regSpec r).count) (hk : (regSpec r).wk = false) (hw : s.writeReg r i w = (st, s)) (h1 : st ≠ .ok) (h2 : st ≠ .keyerr)
    (hP : ∀ t : State, t.refusedWith st → t.fleet = s.fleet → t.lanes = s.lanes → P t) : completes c s P := by
  have ht := portWrite_refused s s r i w st h (placed_of_command r i hc hi) (by simp [hk]) hw h1 h2
  exact ⟨_, hx, ht ▸ hP _ ⟨by simp [State.modHspi], hspiError_flag ..⟩ (hspiError_fleet ..) (hspiError_lanes ..)⟩

end

end Sys2Proof.Machine

namespace Sys2Proof.Machine

/-! ## Remote accesses served (R414, R415) -/

section
variable (s : State) (d : Delivery)

theorem readAddr_scratch (h4 : s.power ≠ 4) : s.readAddr (regAddr .GLB_SCRATCH 0) = (.ok, s.reg .GLB_SCRATCH 0, s) :=
  readAddr_placed s .GLB_SCRATCH 0 (by decide +kernel) h4

/-- A served READ leaves what its RESP leaves. -/
theorem remoteRead_serves {addr : Nat} {w : Word} {t : State} (ha : bodyField d.body 48 16 = addr) (hn : neverRemote addr = false)
    (hr : s.readAddr addr = (.ok, w, t)) : s.remoteRead d = t.respond (bodySrc d.body) (bodyTag d.body) addr 0 w := by
  subst ha
  simp only [State.remoteRead, hn, hr]
  rfl

/-- A READ that R415 denies is counted, and answered with DENIED. -/
theorem remoteRead_denies (hn : neverRemote (bodyField d.body 48 16) = true) :
    s.remoteRead d = s.denied.respond (bodySrc d.body) (bodyTag d.body) (bodyField d.body 48 16) 9 0 := if_pos hn

/-- A denial is counted once, whatever its RESP takes (R415). -/
theorem denied_counts {t : State} (h : s.denied.SentFrom t) :
    t.fld Fields.FLT_CNT_DENIED 0 = satAdd (s.fld Fields.FLT_CNT_DENIED 0) Fields.FLT_CNT_DENIED.width 1 :=
  (h.fld _ 0 (by decide)).trans (State.fld_bump_self s _ 0 1 (by decide))

/-- A write of GLB_SCRATCH stores its word. -/
theorem writeReg_scratch (w : Word) : s.writeReg .GLB_SCRATCH 0 w = (.ok, s.setReg .GLB_SCRATCH 0 w) := by
  have hall : ∀ x : Word, x &&& 0xFFFFFFFF#32 = x := fun _ => BitVec.and_allOnes
  have hm : (regSpec .GLB_SCRATCH).merge (s.stuckNow .GLB_SCRATCH 0) (s.reg .GLB_SCRATCH 0) w = w := by
    simp [RegSpec.merge, regSpec, hall]
  exact congrArg (fun v => (WStatus.ok, s.setReg .GLB_SCRATCH 0 v)) hm

/-- A served WRITE of GLB_SCRATCH stores its value, marks its release tick and is answered. -/
theorem remoteWrite_scratch (h : s.serves = true) (ha : s.admits (bodySrc d.body) = true)
    (hd : bodyField d.body 48 16 = regAddr .GLB_SCRATCH 0) :
    ∃ st, State.SentFrom { s.setReg .GLB_SCRATCH 0 (BitVec.ofNat 32 (bodyField d.body 64 32)) with store := st, hwRel := s.now }
      (s.remoteWrite d) := by
  obtain ⟨st, hw⟩ := hostWrite_outside_set h (by decide +kernel) rfl
    (writeReg_scratch s (BitVec.ofNat 32 (bodyField d.body 64 32))) rfl ⟨rfl, rfl, rfl⟩
  refine ⟨st, ?_⟩
  have hn : neverRemote (regAddr .GLB_SCRATCH 0) = false := by decide
  simp only [State.remoteWrite, ha, hd, hn, hw]
  exact respond_sent ..

theorem remoteWrite_denies (ha : s.admits (bodySrc d.body) = false) :
    s.remoteWrite d = s.denied.respond (bodySrc d.body) (bodyTag d.body) (bodyField d.body 48 16) 9 0 :=
  if_pos (by simp [ha])

/-- Cells of class 2 join the queue of a lane that has room for them (R379). -/
theorem cells_queueCells (cs : List Cell) (j : Fin 16) (h : (s.lane j).cells[1].length + cs.length ≤ 256) :
    ((s.queueCells 2 cs j).lane j).cells[1] = (s.lane j).cells[1] ++ cs := by
  have ht : s.queueCells 2 cs j = s.modLane j fun l => { l with cells := l.cells.setIfInBounds 1 ((s.lane j).cells[1] ++ cs) } :=
    if_neg (Nat.not_lt.2 h)
  rw [ht, State.lane_modLane_self _ _ _ j.isLt]
  simp

/-- A message whose entry names one lane is queued there (R381). -/
theorem sendCells_single {cls flow : Nat} {b : Body} {j : Nat} (he : bitOf (s.flowEntry 16 flow) 31 = true)
    (hl : s.lanesOf (s.flowEntry 16 flow) = [j]) :
    s.sendCells cls flow b = s.queueCells cls (bodyCells (getBits (s.flowEntry 16 flow) 16 12) b) j := by
  unfold State.sendCells
  rw [if_neg (by simp [he]), hl]
  rfl

theorem cells_respond (dst tag addr st : Nat) (v : Word) (j : Fin 16)
    (he : bitOf (s.flowEntry 16 (s.fld Fields.FLT_CFG_RPTFLOW 0)) 31 = true)
    (hl : s.lanesOf (s.flowEntry 16 (s.fld Fields.FLT_CFG_RPTFLOW 0)) = [j.val]) (hroom : (s.lane j).cells[1].length ≤ 255) :
    ((s.respond dst tag addr st v).lane j).cells[1] = (s.lane j).cells[1] ++
      bodyCells (getBits (s.flowEntry 16 (s.fld Fields.FLT_CFG_RPTFLOW 0)) 16 12)
        (mkBody 1 (s.header 3 st dst tag ++ [(addr, 16), (v.toNat, 32)])) := by
  have hlen : ∀ flow fs, (bodyCells flow (mkBody 1 fs)).length = 1 := fun _ _ => by simp [bodyCells, mkBody]
  rw [State.respond, State.sendMgmt, sendCells_single s he hl]
  exact cells_queueCells s _ j (by rw [hlen]; omega)

end

/-! ## Register requests (R417) -/

section
variable (s : State)

/-- The word that sets GO and leaves the other fields as they are. -/
def State.goWord : Word := setBit (s.reg .FLT_RQ_CTL 0) 31 true

/-- What FLT_RQ_CTL holds once a write of that word is accepted. -/
def State.rqStored : State :=
  s.setReg .FLT_RQ_CTL 0 ((s.goWord &&& 0x30FFF0FF#32) ||| (s.reg .FLT_RQ_CTL 0 &&& 0x0F000000#32))

theorem goWord_go : (!bitOf s.goWord 31) = false := by
  rw [State.goWord, bitOf_setBit_self _ _ _ (by decide)]; rfl

theorem goWord_kind : getBits s.goWord 28 2 = getBits (s.reg .FLT_RQ_CTL 0) 28 2 :=
  getBits_putBits_other _ _ _ _ _ _ (by decide) (by decide)

theorem timeout_rqStored : s.rqStored.fld Fields.FLT_RQ_CTL_TIMEOUT 0 = s.fld Fields.FLT_RQ_CTL_TIMEOUT 0 := by
  have hgo : getBits s.goWord 0 8 = getBits (s.reg .FLT_RQ_CTL 0) 0 8 := getBits_putBits_other _ _ _ _ _ _ (by decide) (by decide)
  have hor : ∀ a b : Word, getBits ((a &&& 0x30FFF0FF#32) ||| (b &&& 0x0F000000#32)) 0 8 = getBits a 0 8 := by
    intro a b
    have h0 : (0x0F000000#32).extractLsb' 0 8 = 0#8 := by decide
    rw [getBits, BitVec.extractLsb'_or, BitVec.extractLsb'_and (x := b), h0, BitVec.and_zero, BitVec.or_zero]
    exact getBits_and_of_within a _ 0 8 (by decide)
  exact (congrArg (getBits · 0 8) (State.reg_setReg_self ..)).trans ((hor ..).trans hgo)

/-- What an accepted GO leaves: the request has been sent, as a body `b`, and waits for its RESP. -/
def State.rqAsked (s : State) (b : Body) : State :=
  let t := s.rqStored.sendMgmt (getBits s.goWord 12 12) b
  t.modFleet fun f => { f with
    request := some ⟨s.fleet.nextTag, s.fld Fields.FLT_RQ_DST_DST 0, s.rqStored.fld Fields.FLT_RQ_DST_ADDR 0,
      getBits s.goWord 28 2 == 1, t.elapsed + usTicks (100 * t.fld1 Fields.FLT_RQ_CTL_TIMEOUT 0)⟩
    nextTag := (s.fleet.nextTag + 1) % 256 }

theorem writeRqCtl_asks (hr : s.fleet.request = none) (h0 : s.fld Fields.FLT_RQ_DST_DST 0 ≠ 0)
    (hid : s.fld Fields.FLT_RQ_DST_DST 0 ≠ s.devId)
    (hk : getBits (s.reg .FLT_RQ_CTL 0) 28 2 = 1 ∨ getBits (s.reg .FLT_RQ_CTL 0) 28 2 = 2) :
    ∃ b, s.writeRqCtl s.goWord = (.ok, s.rqAsked b) := by
  have hkind : ¬(s.fld Fields.FLT_RQ_DST_DST 0 = 0 ∨ s.fld Fields.FLT_RQ_DST_DST 0 = s.devId ∨
      (!(getBits s.goWord 28 2 == 1 || getBits s.goWord 28 2 == 2)) = true) := by
    rw [goWord_kind]; rcases hk with hk | hk <;> simp [h0, hid, hk]
  unfold State.writeRqCtl
  rw [if_neg (by rw [goWord_go]; decide), if_neg (by simp [hr]), if_neg hkind]
  exact ⟨_, rfl⟩

/-- The request waits with the fields of FLT_RQ_DST and FLT_RQ_CTL, and the next TAG follows it. -/
theorem rqAsked_facts (b : Body) : s.sameSet (s.rqAsked b) ∧ (s.rqAsked b).fleet = { s.fleet with
    request := some ⟨s.fleet.nextTag, s.fld Fields.FLT_RQ_DST_DST 0, s.fld Fields.FLT_RQ_DST_ADDR 0,
      getBits (s.reg .FLT_RQ_CTL 0) 28 2 == 1, s.elapsed + usTicks (100 * s.fld1 Fields.FLT_RQ_CTL_TIMEOUT 0)⟩
    nextTag := (s.fleet.nextTag + 1) % 256 } := by
  have h : s.rqStored.SentFrom (s.rqStored.sendMgmt (getBits s.goWord 12 12) b) := sendMgmt_sent ..
  have haddr : s.rqStored.fld Fields.FLT_RQ_DST_ADDR 0 = s.fld Fields.FLT_RQ_DST_ADDR 0 :=
    State.fld_setReg_other _ _ _ _ _ _ (by decide)
  have htime : (s.rqStored.sendMgmt (getBits s.goWord 12 12) b).fld1 Fields.FLT_RQ_CTL_TIMEOUT 0 =
      s.fld1 Fields.FLT_RQ_CTL_TIMEOUT 0 := congrArg (max 1) ((h.fld _ 0 (by decide)).trans (timeout_rqStored s))
  have hnow : (s.rqStored.sendMgmt (getBits s.goWord 12 12) b).elapsed = s.elapsed := h.same State.elapsed
  refine ⟨⟨h.same State.profs, h.same State.pgm, h.same (·.fleet.set)⟩, ?_⟩
  simp only [State.rqAsked, State.modFleet, h.fleet, haddr, htime, hnow, goWord_kind]
  rfl

theorem writeRqCtl_busy (hr : s.fleet.request.isSome = true) : s.writeRqCtl s.goWord = (.busy, s) :=
  (if_neg (by rw [goWord_go]; decide)).trans (if_pos hr)

theorem writeRqCtl_range (hr : s.fleet.request = none) (h0 : s.fld Fields.FLT_RQ_DST_DST 0 = 0) :
    s.writeRqCtl s.goWord = (.range, s) :=
  (if_neg (by rw [goWord_go]; decide)).trans ((if_neg (by simp [hr])).trans (if_pos (.inl h0)))

variable {s} {d : Delivery} {q : Request}

/-- The state in which a RESP has been taken. -/
def State.rqAnswered (s : State) (q : Request) (b : Body) : State :=
  let t := s.setFld Fields.FLT_RQ_CTL_STATUS 0 (bodyStatus b)
  if q.read then t.setReg .FLT_RQ_DATA 0 (BitVec.ofNat 32 (bodyField b 64 32)) else t

theorem respReceive_completes (hq : s.fleet.request = some q) (ht : bodyTag d.body = q.tag) (hs : bodySrc d.body = q.dst) :
    s.respReceive d = (s.rqAnswered q d.body).modFleet fun f => { f with request := none } := by
  simp only [State.respReceive, hq, if_pos (And.intro ht hs)]
  rfl

theorem respReceive_discards (hq : s.fleet.request = some q) (ht : bodyTag d.body ≠ q.tag) : s.respReceive d = s := by
  simp only [State.respReceive, hq, if_neg fun h : bodyTag d.body = q.tag ∧ bodySrc d.body = q.dst => ht h.1]

theorem bodyStatus_lt (b : Body) : bodyStatus b < 2 ^ 4 := Nat.mod_lt _ (by decide)

/-- A RESP taken leaves its STATUS and, for a read, its value; the fleet block stays. -/
theorem rqAnswered_facts (q : Request) (b : Body) : (s.rqAnswered q b).fleet = s.fleet ∧
    (s.rqAnswered q b).fld Fields.FLT_RQ_CTL_STATUS 0 = bodyStatus b ∧
    (s.rqAnswered q b).reg .FLT_RQ_DATA 0 = (if q.read then BitVec.ofNat 32 (bodyField b 64 32) else s.reg .FLT_RQ_DATA 0) := by
  have hst : (s.setFld Fields.FLT_RQ_CTL_STATUS 0 (bodyStatus b)).fld Fields.FLT_RQ_CTL_STATUS 0 = bodyStatus b :=
    (State.fld_setFld_self s _ 0 _ (by decide)).trans (Nat.mod_eq_of_lt (bodyStatus_lt b))
  unfold State.rqAnswered
  extract_lets t
  split
  · exact ⟨rfl, (State.fld_setReg_other t .FLT_RQ_DATA 0 _ Fields.FLT_RQ_CTL_STATUS 0 (by decide)).trans hst,
      State.reg_setReg_self ..⟩
  · exact ⟨rfl, hst, reg_setFld_ne s _ 0 _ _ 0 (by decide)⟩

/-- A source of the fleet block is of no unit that could be fenced: its raise is recorded (R503). -/
theorem raiseEvent_of_fleet (s : State) (f : Fid) (a : Word) (hf : f.code = 8) :
    ∃ r : Raise, s.raiseEvent f a = { s with raises := s.raises ++ [r] } ∧ r.fid = f := by
  obtain ⟨r, hr, hfid, -⟩ := raiseEvent_of_not_fenced s f a (by simp [State.unitFenced, hf])
  exact ⟨r, hr, hfid⟩

theorem rqTimeout_ends (hq : s.fleet.request = some q) (h : q.dueAt ≤ s.elapsed) :
    s.rqTimeout = ((s.setFld Fields.FLT_RQ_CTL_STATUS 0 12).modFleet fun f => { f with request := none }).raiseEvent
      Src.fleet_RQ_TIMEOUT 0 := by
  simp only [State.rqTimeout, hq, if_pos h]

theorem rqTimeout_waits (hq : s.fleet.request = some q) (h : s.elapsed < q.dueAt) : s.rqTimeout = s := by
  simp only [State.rqTimeout, hq, if_neg (Nat.not_le.2 h)]

end

/-- Settles O35: READ and WRITE by `remoteRead_serves`, `remoteWrite_scratch` and their denials, RESP cells by `cells_respond`, GO by
what `writeRqCtl` makes of it, RESP and RQ_TIMEOUT by `respReceive_completes` and `rqTimeout_ends`. -/
theorem remoteAccessesAndRequests : Obligations.RemoteAccessesAndRequests := by
  refine ⟨?_, ?_, ?_, ?_, ?_, ?_, ?_, ?_, ?_, ?_, ?_, ?_, ?_⟩
  · intro s d l hm h4 hi hk ha
    exact completes_of_message rfl hm hi hk (remoteRead_serves (s.taken l) d ha (by decide) (readAddr_scratch (s.taken l) h4))
  · intro s d l hm hi hk hn
    refine completes_of_message rfl hm hi hk ?_
    rw [remoteRead_denies _ d hn]
    have h := respond_sent (s.taken l).denied (bodySrc d.body) (bodyTag d.body) (bodyField d.body 48 16) 9 0
    exact ⟨h.same (·.fleet.inbox), denied_counts (s.taken l) h⟩
  · intro s d l hm hs hi hk ha hd
    obtain ⟨st, h⟩ := remoteWrite_scratch (s.taken l) d hs ha hd
    refine completes_of_message rfl (by rw [hm, turn_of_serves s hs]; rfl) hi hk
      ⟨(h.reg _ 0 (by decide)).trans (State.reg_setReg_self (s.taken l) ..), h.same State.hwRel, h.same (·.fleet.inbox)⟩
  · intro s d l hm ht hi hk ha
    refine completes_of_message rfl (by rw [hm, ht]; rfl) hi hk ?_
    rw [remoteWrite_denies (s.taken l) d ha]
    have h := respond_sent (s.taken l).denied (bodySrc d.body) (bodyTag d.body) (bodyField d.body 48 16) 9 0
    exact ⟨h.same (·.fleet.inbox), h.same State.profs, h.same State.pgm, h.same State.stations,
      (h.reg _ 0 (by decide)).trans (reg_bump_ne (s.taken l) _ 0 1 _ 0 (by decide)), denied_counts (s.taken l) h⟩
  · exact cells_respond
  · intro s d l hi hk
    exact ⟨_, rfl, by rw [handle_other hi hk, ite_self]⟩
  · intro s h hr h0 hid hk
    obtain ⟨b, hw⟩ := writeRqCtl_asks s hr h0 hid hk
    obtain ⟨hset, hfleet⟩ := rqAsked_facts s b
    refine completes_of_accepted_fleet rfl h (by decide) (by decide) rfl hw rfl hset fun t hwrote ht => ?_
    rw [ht, hfleet]
    exact ⟨hwrote, rfl, rfl⟩
  · intro s h hr
    exact completes_of_refused_fleet rfl h (by decide) (by decide) rfl (writeRqCtl_busy s hr) (by decide) (by decide)
      fun t hrf hf hl => ⟨hrf, congrArg Fleet.request hf, hl⟩
  · intro s h hr h0
    exact completes_of_refused_fleet rfl h (by decide) (by decide) rfl (writeRqCtl_range s hr h0) (by decide) (by decide)
      fun t hrf hf hl => ⟨hrf, (congrArg Fleet.request hf).trans hr, hl⟩
  · intro s d l q hm hi hk hq ht hs
    obtain ⟨hfleet, hst, hdata⟩ := rqAnswered_facts (s := s.taken l) q d.body
    refine completes_of_message rfl hm hi hk ?_
    rw [respReceive_completes (s := s.taken l) hq ht hs]
    exact ⟨rfl, congrArg Fleet.inbox hfleet, hst, hdata⟩
  · intro s d l q hm hi hk hq ht
    exact completes_of_message rfl hm hi hk (respReceive_discards (s := s.taken l) hq ht)
  · intro s q hup hq h
    refine completes_of_detector rfl hup (rqTimeout_ends hq h) ?_
    obtain ⟨r, hr, hfid⟩ := raiseEvent_of_fleet
      ((s.setFld Fields.FLT_RQ_CTL_STATUS 0 12).modFleet fun f => { f with request := none }) Src.fleet_RQ_TIMEOUT 0 rfl
    rw [hr]
    exact ⟨rfl, State.fld_setFld_self s _ 0 12 (by decide), r, rfl, hfid⟩
  · intro s q hq h
    exact completes_of_idle_detector rfl (rqTimeout_waits hq h)

end Sys2Proof.Machine

namespace Sys2Proof.Machine

/-! ## Streams in assembly (R425, R426) -/

section
variable {s : State} {d : Delivery} {x : Stream}

theorem armRespond_sent (s : State) (dst src tag st : Nat) (w : Word) : s.SentFrom (s.armRespond dst src tag st w) := by
  unfold State.armRespond
  split
  · exact .refl
  · exact respond_sent ..

/-- The stream that an ARM_BEGIN opens. -/
def State.opened (s : State) (d : Delivery) : Stream :=
  { src := bodySrc d.body, dst := bodyDst d.body, tag := bodyTag d.body, lane := d.lane, epoch := BitVec.ofNat 32 (bodyField d.body 48 32)
    relTick := (widen s.now (bodyField d.body 80 48)).toNat, count := bodyField d.body 128 16, expectV := bodyField d.body 144 1 == 1
    expect := BitVec.ofNat 64 (bodyField d.body 152 64), items := [], bodies := [], lastAt := s.elapsed }

theorem armBegin_opens (d : Delivery) (h : s.fleet.streams = []) :
    s.armBegin d = s.modFleet fun f => { f with streams := [s.opened d] } := by
  simp only [State.armBegin, h]
  rfl

/-- A fifth stream is refused with FULL. -/
theorem armBegin_full (h4 : s.fleet.streams.length = 4) (hn : ∀ x ∈ s.fleet.streams, x.hears d.body = false) :
    s.SentFrom (s.armBegin d) := by
  have hall : (s.fleet.streams.filter fun x => !x.hears d.body) = s.fleet.streams :=
    List.filter_eq_self.2 fun x hx => by rw [hn x hx]; rfl
  unfold State.armBegin
  extract_lets b epoch others
  rw [if_pos (by rw [show others = s.fleet.streams from hall, h4])]
  exact armRespond_sent ..

/-- A stream that an item has joined. -/
def State.joined (s : State) (x : Stream) (b : Body) (i : ArmItem) : Stream :=
  { x with items := x.items ++ [i], bodies := x.bodies ++ [b], lastAt := s.elapsed }

theorem armItem_joins {b : Body} (i : ArmItem) (hx : s.fleet.streams = [x]) (hh : x.hears b = true) :
    s.armItem b i = s.modFleet fun f => { f with streams := [s.joined x b i] } := by
  simp only [State.armItem, State.modFleet, hx, List.map_cons, List.map_nil, hh, if_true]
  rfl

/-- Streams whose next message has not arrived are discarded and counted (R425). -/
theorem armTimeout_facts (s : State) :
    s.armTimeout.fleet.streams = s.fleet.streams.filter (fun x => decide (s.elapsed < x.lastAt + 5000000)) ∧
    s.armTimeout.fld Fields.FLT_CNT_MALFORMED 0 = satAdd (s.fld Fields.FLT_CNT_MALFORMED 0) Fields.FLT_CNT_MALFORMED.width
      (s.fleet.streams.filter (fun x => decide (x.lastAt + 5000000 ≤ s.elapsed))).length ∧ s.armTimeout.raises = s.raises := by
  refine ⟨List.filter_congr fun x _ => ?_, State.fld_bump_self _ _ 0 _ (by decide), rfl⟩
  rw [← decide_not, decide_eq_decide, Nat.not_le]

/-! ### ARM_END (R426, Table 10.6) -/

/-- The state in which the stream that an ARM_END closes, the only one, is no longer in assembly. -/
def State.unstreamed (s : State) : State := s.modFleet fun f => { f with streams := [] }

/-- The pending change that an accepted stream becomes, and those that stay beside it. -/
def State.withChange (s : State) (x : Stream) : State :=
  (s.modFleet fun f => { f with changes := f.changes.filter (fun c => !s.replacesChange x c) ++
    [⟨s.acceptSeq, x.dst == 0, x.epoch, x.relTick, x.items, x.expectV, x.expect⟩] }).accept

theorem unstreamed_of_single (hx : s.fleet.streams = [x]) (hh : x.hears d.body = true) :
    (s.modFleet fun f => { f with streams := f.streams.filter fun y => !y.hears d.body }) = s.unstreamed := by
  simp only [State.unstreamed, State.modFleet, hx, List.filter_cons, hh]
  rfl

theorem find_of_single (hx : s.fleet.streams = [x]) (hh : x.hears d.body = true) :
    (s.fleet.streams.find? fun y => y.hears d.body) = some x := by
  rw [hx, List.find?_cons, hh]

theorem armEnd_accepts (hx : s.fleet.streams = [x]) (hh : x.hears d.body = true)
    (hst : s.streamStatus x (BitVec.ofNat 32 (bodyField d.body 48 32)) = 0) :
    s.armEnd d = ((s.unstreamed.withChange x).setFld Fields.FLT_ARMSTAT_LASTSTATUS 0 0).armRespond x.dst x.src x.tag 0 x.epoch := by
  simp only [State.armEnd, find_of_single hx hh, unstreamed_of_single hx hh, hst]
  rfl

/-- R415 comes first of the rows of Table 10.6. -/
theorem streamStatus_denied (crc : Word) (ha : s.admits x.src = false) : s.streamStatus x crc = 9 := if_pos (by simp [ha])

theorem armEnd_denies (hx : s.fleet.streams = [x]) (hh : x.hears d.body = true) (ha : s.admits x.src = false) :
    s.armEnd d = (s.unstreamed.denied.setFld Fields.FLT_ARMSTAT_LASTSTATUS 0 9).armRespond x.dst x.src x.tag 9 x.epoch := by
  simp only [State.armEnd, find_of_single hx hh, unstreamed_of_single hx hh, streamStatus_denied _ ha]
  rfl

/-- An accepted stream leaves its change pending, and STATUS OK. -/
theorem armEnd_accepts_facts (hx : s.fleet.streams = [x]) (hh : x.hears d.body = true)
    (hst : s.streamStatus x (BitVec.ofNat 32 (bodyField d.body 48 32)) = 0) :
    (s.armEnd d).fleet.streams = [] ∧ (s.armEnd d).fld Fields.FLT_ARMSTAT_LASTSTATUS 0 = 0 ∧
      (s.armEnd d).fleet.changes = s.fleet.changes.filter (fun c => !s.replacesChange x c) ++
        [⟨s.acceptSeq, x.dst == 0, x.epoch, x.relTick, x.items, x.expectV, x.expect⟩] ∧
      (s.armEnd d).profs = s.profs ∧ (s.armEnd d).raises = s.raises := by
  rw [armEnd_accepts hx hh hst]
  have h := armRespond_sent ((s.unstreamed.withChange x).setFld Fields.FLT_ARMSTAT_LASTSTATUS 0 0) x.dst x.src x.tag 0 x.epoch
  exact ⟨h.same (·.fleet.streams), (h.fld _ 0 (by decide)).trans (State.fld_setFld_self _ _ 0 0 (by decide)),
    h.same (·.fleet.changes), h.same State.profs, h.same State.raises⟩

/-- Nothing of a denied stream stays but its STATUS and the count of R415. -/
theorem armEnd_denies_facts (hx : s.fleet.streams = [x]) (hh : x.hears d.body = true) (ha : s.admits x.src = false) :
    (s.armEnd d).fleet.streams = [] ∧ (s.armEnd d).fleet.changes = s.fleet.changes ∧
      (s.armEnd d).fld Fields.FLT_ARMSTAT_LASTSTATUS 0 = 9 ∧
      (s.armEnd d).fld Fields.FLT_CNT_DENIED 0 = satAdd (s.fld Fields.FLT_CNT_DENIED 0) Fields.FLT_CNT_DENIED.width 1 := by
  rw [armEnd_denies hx hh ha]
  have h := armRespond_sent (s.unstreamed.denied.setFld Fields.FLT_ARMSTAT_LASTSTATUS 0 9) x.dst x.src x.tag 9 x.epoch
  refine ⟨h.same (·.fleet.streams), h.same (·.fleet.changes),
    (h.fld _ 0 (by decide)).trans (State.fld_setFld_self _ _ 0 9 (by decide)), ?_⟩
  rw [h.fld _ 0 (by decide), State.fld_setFld_other _ _ Fields.FLT_CNT_DENIED 0 0 9 (by decide) (.inl (by decide))]
  exact State.fld_bump_self s.unstreamed _ 0 1 (by decide)

/-- Taking a message from the inbox bears on no row of Table 10.6. -/
theorem streamStatus_taken (s : State) (l : List Delivery) (x : Stream) (crc : Word) :
    (s.taken l).streamStatus x crc = s.streamStatus x crc := rfl

end

/-! ## Changes at RELTICK (R427) -/

/-! ### What is due of step 1 of Table 1.3 -/

section
variable {s : State} {c : Change}

/-- With the count running and no SYNC_IN restart or load due, step 1 is that of the writes and changes due. -/
theorem stepOne_of_no_sync (hup : s.up = true) (hc : s.counting = true) (hs : (s.syncDue.all fun d => decide (s.now < d.due)) = true) :
    s.stepOne = s.dueWrites.foldl State.releaseDue s := by
  have hh : s.halted = false := by
    simp only [State.up, Bool.and_eq_true, Bool.not_eq_true'] at hup
    exact hup.1.1.2
  rw [State.stepOne, if_pos (by simp [hc, hh]), syncAll_of_none s hs]

theorem sched_not_due (h : ∀ e ∈ s.sched, s.now < e.tick) : (s.sched.filter fun e => decide (e.tick ≤ s.now)) = [] :=
  List.filter_eq_nil_iff.2 fun e he => by simpa using h e he

theorem dueWrites_none (he : ∀ e ∈ s.sched, s.now < e.tick) (hc : ∀ c ∈ s.fleet.changes, s.now < c.relTick) : s.dueWrites = [] := by
  have hn : (s.fleet.changes.filter fun c => decide (c.relTick ≤ s.now)) = [] :=
    List.filter_eq_nil_iff.2 fun c h => by simpa using hc c h
  rw [State.dueWrites, sched_not_due he, hn]
  rfl

theorem dueWrites_change (he : ∀ e ∈ s.sched, s.now < e.tick) (hc : s.fleet.changes = [c]) (ht : c.relTick ≤ s.now) :
    s.dueWrites = [.change c] := by
  rw [State.dueWrites, sched_not_due he, hc, List.filter_cons_of_pos (by simpa using ht)]
  rfl

/-- With nothing due, step 1 changes nothing, whether the count runs or not. -/
theorem stepOne_idle (hs : (s.syncDue.all fun d => decide (s.now < d.due)) = true) (hd : s.dueWrites = []) : s.stepOne = s := by
  unfold State.stepOne
  split
  · rw [syncAll_of_none s hs]
    show s.dueWrites.foldl State.releaseDue s = s
    rw [hd]
    rfl
  · rfl

/-- Only the change that is due is released. -/
theorem stepOne_change (hup : s.up = true) (hc : s.counting = true) (hs : (s.syncDue.all fun d => decide (s.now < d.due)) = true)
    (he : ∀ e ∈ s.sched, s.now < e.tick) (hx : s.fleet.changes = [c]) (ht : c.relTick ≤ s.now) : s.stepOne = s.applyChange c := by
  rw [stepOne_of_no_sync hup hc hs, dueWrites_change he hx ht]
  rfl

/-! ### A change that applies, and one that is refused -/

/-- The state in which the only pending change is pending no longer. -/
def State.unpending (s : State) : State := { s with fleet := { s.fleet with changes := [] } }

theorem unpending_of_single (hx : s.fleet.changes = [c]) :
    (s.modFleet fun f => { f with changes := f.changes.filter (· != c) }) = s.unpending := by
  simp [State.unpending, State.modFleet, hx]

theorem applyChange_applies {u : State} (hx : s.fleet.changes = [c]) (hr : s.unpending.releaseItems 0 c.items = .inr u) :
    s.applyChange c = (u.noteSet s.unpending).changeApplied c := by
  simp only [State.applyChange, unpending_of_single hx, hr]

theorem applyChange_refuses {n : Nat} (hx : s.fleet.changes = [c]) (hr : s.unpending.releaseItems 0 c.items = .inl n) :
    s.applyChange c = ((s.unpending.setFld Fields.FLT_ARMSTAT_ITEM 0 n).raiseEvent Src.fleet_ARM_REFUSED 0).ownCause 5 c.epoch := by
  simp only [State.applyChange, unpending_of_single hx, hr]

/-- Starting to write the front commit is a matter of the store, the flash and STORE_NEXTSEQ. -/
theorem storeKick_form (s : State) : ({ s.storeKick with store := s.store, flash := s.flash, regs := s.regs } : State) = s ∧
    ∀ r i, r ≠ .STORE_NEXTSEQ → s.storeKick.reg r i = s.reg r i := by
  unfold State.storeKick
  split
  · exact ⟨rfl, fun _ _ _ => rfl⟩
  · split
    · exact ⟨rfl, fun _ _ _ => rfl⟩
    · split
      · exact ⟨rfl, fun _ _ _ => rfl⟩
      · exact ⟨rfl, fun r i hr => State.reg_setReg_other _ _ _ _ _ _ fun e => hr e.1.symm⟩

/-- So is a commit requested. -/
theorem requestCommit_form (s : State) (k : Nat) (p : List Word) :
    ({ s.requestCommit k p with store := s.store, flash := s.flash, regs := s.regs } : State) = s ∧
      ∀ r i, r ≠ .STORE_NEXTSEQ → (s.requestCommit k p).reg r i = s.reg r i := by
  unfold State.requestCommit
  extract_lets t
  obtain ⟨hform, hreg⟩ := storeKick_form t
  exact ⟨congrArg (fun u : State => { u with store := s.store }) hform, hreg⟩

/-- The epoch, its tick and the digest expected, as a change that applies sets them. -/
def State.epochSet (s : State) (c : Change) : State :=
  let t := (s.setReg .FLT_EPOCH 0 c.epoch).modFleet fun f => { f with epTick := c.relTick }
  if c.expectV then
    ((t.setReg .FLT_EXPECT_LO 0 (c.expect.extractLsb' 0 32)).setReg .FLT_EXPECT_HI 0 (c.expect.extractLsb' 32 32)).setFld
      Fields.FLT_DGSTAT_EXPECTV 0 1
  else t

theorem epochSet_form (s : State) (c : Change) :
    ({ s.epochSet c with regs := s.regs } : State) = s.modFleet fun f => { f with epTick := c.relTick } := by
  have hset : ∃ rs, s.epochSet c = { s.modFleet (fun f => { f with epTick := c.relTick }) with regs := rs } := by
    unfold State.epochSet
    extract_lets t
    split
    · exact ⟨_, rfl⟩
    · exact ⟨_, rfl⟩
  obtain ⟨rs, hset⟩ := hset
  rw [hset]
  rfl

theorem epoch_epochSet (s : State) (c : Change) : (s.epochSet c).reg .FLT_EPOCH 0 = c.epoch := by
  unfold State.epochSet
  extract_lets t
  have ht : t.reg .FLT_EPOCH 0 = c.epoch := State.reg_setReg_self ..
  split
  · rw [reg_setFld_ne _ _ 0 _ _ 0 (by decide), State.reg_setReg_other _ _ _ _ _ _ (by decide),
      State.reg_setReg_other _ _ _ _ _ _ (by decide), ht]
  · exact ht

theorem expect_epochSet (s : State) (c : Change) (h : c.expectV = true) :
    (s.epochSet c).reg .FLT_EXPECT_LO 0 = c.expect.extractLsb' 0 32 ∧
      (s.epochSet c).reg .FLT_EXPECT_HI 0 = c.expect.extractLsb' 32 32 := by
  unfold State.epochSet
  rw [if_pos h, reg_setFld_ne _ _ 0 _ _ 0 (by decide), reg_setFld_ne _ _ 0 _ _ 0 (by decide),
    State.reg_setReg_other _ _ _ _ _ _ (by decide), State.reg_setReg_self, State.reg_setReg_self]
  exact ⟨rfl, rfl⟩

/-- An applied change asks for a commit beside what it sets of the epoch. -/
theorem changeApplied_form (s : State) (c : Change) :
    ({ s.changeApplied c with store := s.store, flash := s.flash, regs := s.regs } : State) =
        s.modFleet (fun f => { f with epTick := c.relTick }) ∧
      ∀ r i, r ≠ .STORE_NEXTSEQ → (s.changeApplied c).reg r i = (s.epochSet c).reg r i := by
  have hset := epochSet_form s c
  have happ : s.changeApplied c = if (s.epochSet c).store.readOnly then s.epochSet c
      else (s.epochSet c).requestCommit 3 ((s.epochSet c).epochWords ++ itemWords (mergeItems [] (armSettings c.items))) := rfl
  rw [happ]
  split
  · exact ⟨congrArg (fun u : State => { u with store := s.store, flash := s.flash }) hset, fun _ _ _ => rfl⟩
  · obtain ⟨hform, hreg⟩ := requestCommit_form (s.epochSet c)
      3 ((s.epochSet c).epochWords ++ itemWords (mergeItems [] (armSettings c.items)))
    exact ⟨(congrArg (fun u : State => { u with store := s.store, flash := s.flash, regs := s.regs }) hform).trans
      (congrArg (fun u : State => { u with store := s.store, flash := s.flash }) hset), hreg⟩

theorem logEnter_room {e : LogEntry} (h : s.fleet.log.length < 16) :
    s.logEnter e = s.modFleet fun f => { f with log := f.log ++ [e] } := if_neg (Nat.not_le.2 h)

theorem report_sent (s : State) (e : LogEntry) : s.SentFrom (s.report e) := by
  unfold State.report
  split
  · exact .refl
  · exact sendMgmt_sent ..

/-- A cause that the device reports about itself enters the log. -/
theorem ownCause_sent (k : Nat) (w : Word) (h : s.fleet.log.length < 16) :
    ∃ e : LogEntry, State.SentFrom (s.modFleet fun f => { f with log := f.log ++ [e] }) (s.ownCause k w) := by
  refine ⟨⟨s.devId, 0, k, w, s.actual, loWord s.now⟩, ?_⟩
  rw [← logEnter_room h]
  exact report_sent ..

/-- A refused change leaves ITEM, its raise and the device's own cause. -/
theorem refused_facts {n : Nat} (hx : s.fleet.changes = [c]) (hr : s.unpending.releaseItems 0 c.items = .inl n)
    (hl : s.fleet.log.length < 16) :
    ∃ (r : Raise) (e : LogEntry), r.fid = Src.fleet_ARM_REFUSED ∧
      State.SentFrom { s.unpending.setFld Fields.FLT_ARMSTAT_ITEM 0 n with
        raises := s.raises ++ [r], fleet := { s.unpending.fleet with log := s.fleet.log ++ [e] } } (s.applyChange c) := by
  obtain ⟨r, hraise, hfid⟩ := raiseEvent_of_fleet (s.unpending.setFld Fields.FLT_ARMSTAT_ITEM 0 n) Src.fleet_ARM_REFUSED 0 rfl
  rw [applyChange_refuses hx hr, hraise]
  obtain ⟨e, hsent⟩ := ownCause_sent (s := { s.unpending.setFld Fields.FLT_ARMSTAT_ITEM 0 n with
    raises := (s.unpending.setFld Fields.FLT_ARMSTAT_ITEM 0 n).raises ++ [r] }) 5 c.epoch hl
  exact ⟨r, e, hfid, hsent⟩

end

/-- Settles O36: streams by `armBegin_opens`, `armItem_joins` and `armTimeout_facts`, ARM_END by `armEnd_accepts` and `armEnd_denies`,
RELTICK by `stepOne_change` with `changeApplied_form` and `refused_facts`. -/
theorem armedStreamsAndChanges : Obligations.ArmedStreamsAndChanges := by
  refine ⟨?_, ?_, ?_, ?_, ?_, ?_, ?_, ?_, ?_, ?_⟩
  · intro s d l hm hi hk hx
    refine completes_of_message rfl hm hi hk ?_
    rw [armBegin_opens (s := s.taken l) d hx]
    exact ⟨rfl, rfl, (s.taken l).opened d, rfl, rfl, rfl, rfl, rfl, rfl, rfl, rfl, rfl⟩
  · intro s d l hm hi hk h4 hn
    have h : (s.taken l).SentFrom ((s.taken l).armBegin d) := armBegin_full h4 hn
    exact completes_of_message rfl hm hi hk ⟨h.same (·.fleet.streams), h.same (·.fleet.inbox)⟩
  · intro s d l x hm hi hk hx hh
    refine completes_of_message rfl hm hi hk ?_
    rw [State.armReg, armItem_joins (s := s.taken l) _ hx hh]
    exact ⟨rfl, rfl⟩
  · intro s d l x hm hi hk hx hh
    refine completes_of_message rfl hm hi hk ?_
    rw [State.armProf, armItem_joins (s := s.taken l) _ hx hh]
    exact ⟨rfl, rfl⟩
  · intro s d l x hm hi hk hx hh hst
    exact completes_of_message rfl hm hi hk
      (armEnd_accepts_facts (s := s.taken l) hx hh ((streamStatus_taken s l x _).trans hst))
  · intro s d l x hm hi hk hx hh ha
    exact completes_of_message rfl hm hi hk (armEnd_denies_facts (s := s.taken l) hx hh ha)
  · intro s hm
    exact ⟨_, rfl, by rw [if_pos hm]; exact armTimeout_facts s⟩
  · intro s c u hup hc hs he hx ht hr
    refine completes_of_detector rfl hup ((stepOne_change hup hc hs he hx ht).trans (applyChange_applies hx hr)) ?_
    obtain ⟨hform, hreg⟩ := changeApplied_form (u.noteSet s.unpending) c
    obtain ⟨fl, hn⟩ := noteSet_form u s.unpending
    rw [hreg _ 0 (by decide), hreg _ 0 (by decide), hreg _ 0 (by decide), epoch_epochSet]
    refine ⟨rfl, (congrArg (·.fleet.epTick) hform :), ?_, ?_, ?_, ?_, expect_epochSet _ c⟩
    · exact (congrArg State.profs hform :).trans (congrArg State.profs hn :)
    · exact (congrArg State.pgm hform :).trans (congrArg State.pgm hn :)
    · exact (congrArg State.stations hform :).trans (congrArg State.stations hn :)
    · exact (congrArg State.outs hform :).trans (congrArg State.outs hn :)
  · intro s c n hup hc hs he hx ht hl hr
    refine completes_of_detector rfl hup (stepOne_change hup hc hs he hx ht) ?_
    obtain ⟨r, e, hfid, h⟩ := refused_facts hx hr hl
    exact ⟨(h.reg _ 0 (by decide)).trans (reg_setFld_ne s.unpending _ 0 n _ 0 (by decide)), h.same (·.fleet.changes),
      h.same State.profs, h.same State.pgm, h.same State.stations, h.same State.outs,
      (h.fld _ 0 (by decide)).trans (State.fld_setFld_self s.unpending _ 0 n (by decide)), r, h.same State.raises, hfid⟩
  · intro s hs he hc
    exact completes_of_idle_detector rfl (stepOne_idle hs (dueWrites_none he hc))

end Sys2Proof.Machine

namespace Sys2Proof.Machine

/-! ## Digests (R420 to R422) -/

section
variable {s : State}

theorem digestDone_completes {k : Nat} (hr : s.fleet.running = some k) (hk : k ≤ s.now) :
    s.digestDone = { s with fleet := { s.fleet with
      digest := digestOf (sha256 s.serialised), current := true, running := none, started := some k } } := by
  simp only [State.digestDone, hr, if_pos hk]
  rfl

theorem digestDone_idle (hr : s.fleet.running = none) : s.digestDone = s := by
  simp only [State.digestDone, hr]

theorem digestSend_sends (n : Fin 16) (hc : s.counting = true) (ht : s.now % 500000 = 0) (hg : s.flag Fields.FLT_CFG_DGEN 0 = true)
    (hs : s.fleet.started.isSome = true) (hu : s.upstream n = true) (hl : (s.lane n).carries = true) :
    s.digestSend = s.sendMgmt (s.fld Fields.FLT_CFG_DGFLOW 0) s.digestBody := by
  have hany : ((List.range 16).any fun n => s.upstream n && (s.lane n).carries) = true :=
    List.any_eq_true.2 ⟨n, List.mem_range.2 n.isLt, by rw [hu, hl]; rfl⟩
  exact if_pos (by simp only [hc, ht, hg, hs, hany]; rfl)

theorem digestSend_waits (ht : s.now % 500000 ≠ 0) : s.digestSend = s := if_neg (by simp [ht])

end

/-! ## Causes (R423, R424)

A lane's causes set the four level sources of Table 10.5, and each that begins is logged and reported. -/

/-- The level sources of the four causes of a lane follow the causes that hold. -/
def State.causeLevels (s : State) (l : List Nat) : State := l.foldl (fun s c => s.setLevel (causeSource c) 0 (s.causeHolds c)) s

/-- A lane's causes are stored. -/
def State.withCauses (s : State) (n : Nat) (cs : List Nat) : State := s.modLane n fun l => { l with causes := cs }

/-- The raises beyond the first `k` are a lane's. -/
def State.markRaises (s : State) (n k : Nat) : State :=
  { s with raises := s.raises.take k ++ (s.raises.drop k).map fun r => { r with lane := some n } }

/-- The sources follow the causes stored; the raises this makes are the lane's. -/
def State.causesStored (s : State) (n : Nat) (cs : List Nat) : State :=
  ((s.withCauses n cs).causeLevels [1, 2, 3, 4]).markRaises n s.raises.length

/-- The log entry of a cause of a lane. -/
def State.causeEntry (s : State) (n subject c : Nat) : LogEntry :=
  ⟨subject, n, c, (s.lane n).lastEpoch, (s.lane n).lastActual, loWord s.now⟩

/-- A cause that begins is logged and reported. -/
def State.noteCauses (s : State) (es : List LogEntry) : State := es.foldl (fun s e => (s.logEnter e).report e) s

section
variable (s : State)

/-- Setting a level source is a matter of the fault windows and the raises. -/
theorem setLevel_form (f : Fid) (a : Word) (b : Bool) :
    ∃ ws rs, s.setLevel f a b = { s with windows := ws, raises := rs } := by
  cases b
  · exact ⟨_, s.raises, rfl⟩
  · unfold State.setLevel
    rw [if_pos rfl]
    unfold State.beginLevel
    split
    · exact ⟨s.windows, s.raises, rfl⟩
    · extract_lets t
      split
      · exact ⟨_, s.raises, rfl⟩
      · obtain ⟨rs, h⟩ := raiseAs_form t f t.now a false false
        exact ⟨_, rs, h⟩

theorem causeLevels_form (l : List Nat) : ∃ ws rs, s.causeLevels l = { s with windows := ws, raises := rs } := by
  induction l generalizing s with
  | nil => exact ⟨s.windows, s.raises, rfl⟩
  | cons c l ih =>
    obtain ⟨_, _, h⟩ := setLevel_form s (causeSource c) 0 (s.causeHolds c)
    obtain ⟨ws, rs, hl⟩ := ih (s.setLevel (causeSource c) 0 (s.causeHolds c))
    exact ⟨ws, rs, by rw [State.causeLevels, List.foldl_cons, ← State.causeLevels, hl, h]⟩

theorem causesStored_form (n : Nat) (cs : List Nat) :
    ∃ ws rs, s.causesStored n cs = { s.withCauses n cs with windows := ws, raises := rs } := by
  unfold State.causesStored
  obtain ⟨ws, rs, h⟩ := causeLevels_form (s.withCauses n cs) [1, 2, 3, 4]
  rw [h]
  exact ⟨ws, _, rfl⟩

theorem isLive_markRaises (n k : Nat) (f : Fid) : (s.markRaises n k).isLive f = s.isLive f := rfl

theorem fleet_causesStored (n : Nat) (cs : List Nat) : (s.causesStored n cs).fleet = s.fleet := by
  obtain ⟨ws, rs, h⟩ := causesStored_form s n cs
  rw [h]; rfl

theorem now_causesStored (n : Nat) (cs : List Nat) : (s.causesStored n cs).now = s.now := by
  obtain ⟨ws, rs, h⟩ := causesStored_form s n cs
  rw [h]; rfl

theorem lane_causesStored (n : Fin 16) (cs : List Nat) : (s.causesStored n cs).lane n = { s.lane n with causes := cs } := by
  obtain ⟨ws, rs, h⟩ := causesStored_form s n cs
  rw [h]
  exact State.lane_modLane_self s n (fun l => { l with causes := cs }) n.isLt

theorem causeHolds_setLevel (f : Fid) (a : Word) (b : Bool) (c : Nat) : (s.setLevel f a b).causeHolds c = s.causeHolds c := by
  obtain ⟨ws, rs, h⟩ := setLevel_form s f a b
  rw [h]; rfl

/-- What reads live is a matter of the fault windows. -/
theorem isLive_of_windows {s t : State} (h : t.windows = s.windows) (f : Fid) : t.isLive f = s.isLive f := by
  rw [State.isLive, State.isLive, State.win, State.win, h]

/-! ### The sources that read live (R505, Table 10.5) -/

/-- A cause's source is of a window, and of no unit that could be fenced: its live bit is what the condition says. -/
theorem win_setCause (m : Nat) (a : Word) (b : Bool) : (s.setLevel (causeSource m) a b).win (windowIndex 8 0) =
    { s.win (windowIndex 8 0) with live := setBit (s.win (windowIndex 8 0)).live (m - 1) b } := by
  have hw : (s.setLevel (causeSource m) a b).windows =
      (s.modWin (windowIndex 8 0) fun w => { w with live := setBit w.live (m - 1) b }).windows := by
    cases b
    · rfl
    · unfold State.setLevel State.beginLevel
      rw [if_pos rfl, if_neg (by simp [State.unitFenced, causeSource])]
      extract_lets t
      split
      · rfl
      · exact raiseEvent_windows ..
  exact (congrArg (fun x : Vector FaultWindow 97 => x[windowIndex 8 0]?.getD default) hw).trans
    (State.win_modWin_self s _ (fun w => { w with live := setBit w.live (m - 1) b }) (by decide))

theorem isLive_setCause_self {c : Nat} (a : Word) (hc : c ≤ 4) : (s.setLevel (causeSource c) a true).isLive (causeSource c) = true := by
  simp only [State.isLive, causeSource]
  rw [← causeSource, win_setCause, bitOf_setBit_self _ _ _ (by omega), Bool.true_or]

theorem isLive_setCause_other {m c : Nat} (a : Word) (b : Bool) (hc : c ≤ 4) (hne : m - 1 ≠ c - 1) :
    (s.setLevel (causeSource m) a b).isLive (causeSource c) = s.isLive (causeSource c) := by
  have hbit : ∀ w : Word, bitOf (setBit w (m - 1) b) (c - 1) = bitOf w (c - 1) := fun w =>
    bitOf_setBit_other w (m - 1) (c - 1) b (by omega) hne
  simp only [State.isLive, causeSource]
  rw [← causeSource, win_setCause, hbit]

/-- A source that reads live goes on to while its cause holds. -/
theorem isLive_causeLevels_kept {c : Nat} (hc : 1 ≤ c ∧ c ≤ 4) {l : List Nat} (hl : ∀ m ∈ l, 1 ≤ m) (hh : s.causeHolds c = true)
    (h : s.isLive (causeSource c) = true) : (s.causeLevels l).isLive (causeSource c) = true := by
  induction l generalizing s with
  | nil => exact h
  | cons m l ih =>
    have hm := hl m List.mem_cons_self
    refine ih (s.setLevel (causeSource m) 0 (s.causeHolds m)) (fun k hk => hl k (List.mem_cons_of_mem _ hk))
      ((causeHolds_setLevel ..).trans hh) ?_
    by_cases hmc : m = c
    · subst hmc
      rw [hh]
      exact isLive_setCause_self s 0 hc.2
    · rw [isLive_setCause_other s 0 _ hc.2 (by omega)]
      exact h

/-- The source of a cause that holds reads live. -/
theorem isLive_causeLevels {c : Nat} (hc : 1 ≤ c ∧ c ≤ 4) {l : List Nat} (hl : ∀ m ∈ l, 1 ≤ m) (hcl : c ∈ l)
    (hh : s.causeHolds c = true) : (s.causeLevels l).isLive (causeSource c) = true := by
  induction l generalizing s with
  | nil => cases hcl
  | cons m l ih =>
    have htail : ∀ k ∈ l, 1 ≤ k := fun k hk => hl k (List.mem_cons_of_mem _ hk)
    have hholds := (causeHolds_setLevel s (causeSource m) 0 (s.causeHolds m) c).trans hh
    by_cases hmc : c = m
    · subst hmc
      refine isLive_causeLevels_kept (s.setLevel (causeSource c) 0 (s.causeHolds c)) hc htail hholds ?_
      rw [hh]
      exact isLive_setCause_self s 0 hc.2
    · exact ih (s.setLevel (causeSource m) 0 (s.causeHolds m)) htail ((List.mem_cons.1 hcl).resolve_left hmc) hholds

theorem isLive_causesStored {n : Fin 16} {cs : List Nat} {c : Nat} (hc : 1 ≤ c ∧ c ≤ 4) (hcs : c ∈ cs) :
    (s.causesStored n cs).isLive (causeSource c) = true := by
  have hmem : c ∈ [1, 2, 3, 4] := by
    obtain ⟨h1, h4⟩ := hc
    interval_cases c <;> decide
  have hholds : (s.withCauses n cs).causeHolds c = true := by
    refine List.any_eq_true.2 ⟨n, List.mem_range.2 n.isLt, ?_⟩
    rw [State.withCauses, State.lane_modLane_self _ _ _ n.isLt]
    exact List.contains_iff_mem.2 hcs
  rw [State.causesStored, isLive_markRaises]
  exact isLive_causeLevels (s.withCauses n cs) hc (by decide) hmem hholds

/-! ### What logging and reporting leave -/

/-- `t` is `s` after causes have been logged and reported: the fault windows, the inbox and the lanes but for their queues stay. -/
structure State.LoggedFrom (s t : State) : Prop where
  windows : t.windows = s.windows
  inbox : t.fleet.inbox = s.fleet.inbox
  lane : ∀ n, ∃ q, t.lane n = { s.lane n with cells := q }

variable {s} {t u : State}

theorem State.LoggedFrom.refl : s.LoggedFrom s := ⟨rfl, rfl, fun n => ⟨(s.lane n).cells, rfl⟩⟩

theorem State.LoggedFrom.trans (h : s.LoggedFrom t) (h' : t.LoggedFrom u) : s.LoggedFrom u where
  windows := h'.windows.trans h.windows
  inbox := h'.inbox.trans h.inbox
  lane n := by
    obtain ⟨_, hs⟩ := h.lane n
    obtain ⟨q, ht⟩ := h'.lane n
    exact ⟨q, by rw [ht, hs]⟩

theorem State.SentFrom.logged (h : s.SentFrom t) : s.LoggedFrom t := ⟨h.same State.windows, h.same (·.fleet.inbox), h.lane⟩

theorem logEnter_logged (s : State) (e : LogEntry) : s.LoggedFrom (s.logEnter e) := by
  unfold State.logEnter
  split
  · obtain ⟨r, h, -⟩ := raiseEvent_of_fleet (s.bump Fields.FLT_LOGCTL_OVERFLOW 0 1) Src.fleet_LOG_OVERFLOW 0 rfl
    rw [h]
    exact ⟨rfl, rfl, fun n => ⟨(s.lane n).cells, rfl⟩⟩
  · exact ⟨rfl, rfl, fun n => ⟨(s.lane n).cells, rfl⟩⟩

theorem noteCauses_logged (s : State) (es : List LogEntry) : s.LoggedFrom (s.noteCauses es) := by
  induction es generalizing s with
  | nil => exact .refl
  | cons e es ih => exact ((logEnter_logged s e).trans (report_sent _ e).logged).trans (ih _)

/-- One entry that the log has room for is logged. -/
theorem noteCauses_single {e : LogEntry} (h : s.fleet.log.length < 16) : (s.noteCauses [e]).fleet.log = s.fleet.log ++ [e] := by
  show ((s.logEnter e).report e).fleet.log = _
  rw [(report_sent _ e).fleet, logEnter_room h]
  rfl

/-! ### A lane's causes -/

variable (s) (n : Fin 16) (subject : Nat) (cs : List Nat)

/-- The causes that begin. -/
def State.begun (s : State) (n : Nat) (cs : List Nat) : List Nat := cs.filter fun c => !(s.lane n).causes.contains c

/-- The causes are stored, and those that begin are logged and reported. -/
def State.causesNoted (s : State) (n subject : Nat) (cs : List Nat) : State :=
  (s.causesStored n cs).noteCauses ((s.begun n cs).map (s.causeEntry n subject))

theorem setCauses_eq : s.setCauses n subject cs =
    if cs.isEmpty && !(s.lane n).causes.isEmpty then (s.causesNoted n subject cs).logEnter (s.causeEntry n subject 0)
    else s.causesNoted n subject cs := by
  unfold State.causesNoted State.noteCauses State.causeEntry
  rw [List.foldl_map, ← now_causesStored s n cs]
  rfl

/-- The lane takes the causes, the sources of those that hold read live, and the inbox stays. -/
theorem setCauses_facts : (∃ q, (s.setCauses n subject cs).lane n = { s.lane n with causes := cs, cells := q }) ∧
    (s.setCauses n subject cs).fleet.inbox = s.fleet.inbox ∧
    ∀ c ∈ cs, 1 ≤ c ∧ c ≤ 4 → (s.setCauses n subject cs).isLive (causeSource c) = true := by
  have hlog : (s.causesStored n cs).LoggedFrom (s.setCauses n subject cs) := by
    have hnoted : (s.causesStored n cs).LoggedFrom (s.causesNoted n subject cs) := noteCauses_logged ..
    rw [setCauses_eq]
    split
    · exact hnoted.trans (logEnter_logged ..)
    · exact hnoted
  refine ⟨?_, hlog.inbox.trans (congrArg Fleet.inbox (fleet_causesStored ..)), fun c hcs hc => ?_⟩
  · obtain ⟨q, hq⟩ := hlog.lane n
    exact ⟨q, by rw [hq, lane_causesStored]⟩
  · rw [isLive_of_windows hlog.windows, isLive_causesStored s hc hcs]

/-- A lane without causes that gets none logs nothing. -/
theorem log_setCauses_nil (h : (s.lane n).causes = []) : (s.setCauses n subject []).fleet.log = s.fleet.log := by
  rw [setCauses_eq, if_neg (by simp [h]), State.causesNoted, State.begun, List.filter_nil, List.map_nil, State.noteCauses,
    List.foldl_nil, fleet_causesStored]

/-- The first cause of a lane is logged. -/
theorem log_setCauses_first {c : Nat} (h : (s.lane n).causes = []) (hl : s.fleet.log.length < 16) :
    (s.setCauses n subject [c]).fleet.log = s.fleet.log ++ [s.causeEntry n subject c] := by
  have hbegun : s.begun n [c] = [c] := by simp [State.begun, h]
  have hfleet := fleet_causesStored s n [c]
  rw [setCauses_eq, if_neg (by simp), State.causesNoted, hbegun, List.map_cons, List.map_nil,
    noteCauses_single (by rw [hfleet]; exact hl), hfleet]

end

/-! ### A DIGEST received (R423) -/

section
variable {s : State} {d : Delivery} {n : Fin 16}

/-- What a lane notes of a DIGEST with CURRENT = 1. -/
def State.digestHeard (s : State) (n : Nat) (b : Body) : State :=
  s.modLane n fun l => { l with heardAt := s.elapsed, freshAt := s.elapsed, lastEpoch := BitVec.ofNat 32 (bodyField b 48 32)
                                lastActual := BitVec.ofNat 64 (bodyField b 80 64) }

theorem lane_digestHeard (b : Body) : (s.digestHeard n b).lane n = { s.lane n with
    heardAt := s.elapsed, freshAt := s.elapsed, lastEpoch := BitVec.ofNat 32 (bodyField b 48 32)
    lastActual := BitVec.ofNat 64 (bodyField b 80 64) } := State.lane_modLane_self s _ _ n.isLt

/-- The digest of the message is not the one expected (cause 1 of Table 10.5). -/
def digestDiffers (b : Body) : Bool :=
  bodyField b 257 1 == 1 && BitVec.ofNat 64 (bodyField b 80 64) != BitVec.ofNat 64 (bodyField b 144 64)

/-- A DIGEST that is current, and of the device's own epoch, gives its lane cause 1 or none. -/
theorem digestReceive_current (hn : d.lane = n.val) (hcmp : s.flag Fields.FLT_CFG_CMPEN 0 = true) (hup : s.upstream n = false)
    (hcur : bodyField d.body 256 1 = 1) (hep : BitVec.ofNat 32 (bodyField d.body 48 32) = s.reg .FLT_EPOCH 0) :
    s.digestReceive d = (s.digestHeard n d.body).setCauses n (bodySrc d.body) (if digestDiffers d.body then [1] else []) := by
  have hne : (BitVec.ofNat 32 (bodyField d.body 48 32) != s.reg .FLT_EPOCH 0) = false := by
    rw [hep, bne_self_eq_false]
  have hc : (bodyField d.body 256 1 == 1) = true := by rw [hcur]; rfl
  unfold State.digestReceive
  simp only [hn, hcmp, hup, hc, State.modLane_at_reg, hne, Bool.not_true, Bool.or_self, Bool.false_and, Bool.false_eq_true, if_false,
    if_true, List.append_nil]
  rfl

theorem not_differs_of_unexpected {b : Body} (h : bodyField b 257 1 = 0) : digestDiffers b = false := by
  rw [digestDiffers, h]
  rfl

theorem differs_of_ne {b : Body} (h : bodyField b 257 1 = 1) (hne : bodyField b 80 64 ≠ bodyField b 144 64) :
    digestDiffers b = true := by
  have hlt : ∀ off, bodyField b off 64 < 2 ^ 64 := fun _ => Nat.mod_lt _ (by decide)
  rw [digestDiffers, h, beq_self_eq_true, Bool.true_and, bne_iff_ne]
  intro he
  have htoNat := congrArg BitVec.toNat he
  rw [BitVec.toNat_ofNat, BitVec.toNat_ofNat, Nat.mod_eq_of_lt (hlt _), Nat.mod_eq_of_lt (hlt _)] at htoNat
  exact hne htoNat

/-! ### Silence and staleness -/

theorem silent_begins (hw : s.watched n = true) (ht : (s.lane n).heardAt + 2000000 ≤ s.elapsed)
    (hc : (s.lane n).causes.contains 3 = false) :
    s.silent n = s.setCauses n (s.lane n).peerId ((s.lane n).causes ++ [3]) :=
  if_pos (by rw [hw, hc, decide_eq_true ht]; rfl)

theorem silent_waits (ht : s.elapsed < (s.lane n).heardAt + 2000000) : s.silent n = s :=
  if_neg (by simp [Nat.not_le.2 ht])

theorem stale_begins (hw : s.watched n = true) (ht : (s.lane n).freshAt + 5000000 ≤ s.elapsed)
    (hf : (s.lane n).freshAt < (s.lane n).heardAt) (hc : (s.lane n).causes.contains 4 = false) :
    s.stale n = s.setCauses n (s.lane n).peerId ((s.lane n).causes ++ [4]) :=
  if_pos (by rw [hw, hc, decide_eq_true ht, decide_eq_true hf]; rfl)

theorem stale_waits (ht : s.elapsed < (s.lane n).freshAt + 5000000) : s.stale n = s :=
  if_neg (by simp [Nat.not_le.2 ht])

/-- A further cause of a lane is among its causes, and its source reads live. -/
theorem setCauses_appends (s : State) (n : Fin 16) (subject : Nat) {c : Nat} (hc : 1 ≤ c ∧ c ≤ 4) :
    ((s.setCauses n subject ((s.lane n).causes ++ [c])).lane n).causes = (s.lane n).causes ++ [c] ∧
      (s.setCauses n subject ((s.lane n).causes ++ [c])).isLive (causeSource c) = true := by
  obtain ⟨⟨q, hlane⟩, -, hlive⟩ := setCauses_facts s n subject ((s.lane n).causes ++ [c])
  exact ⟨by rw [hlane], hlive c (by simp) hc⟩

/-! ### The log (R424) -/

theorem reportReceive_logs (s : State) (d : Delivery) (h : s.fleet.log.length < 16) :
    s.reportReceive d = s.modFleet fun f => { f with log := f.log ++ [⟨bodyField d.body 48 16, bodyField d.body 64 4,
      bodyField d.body 68 4, BitVec.ofNat 32 (bodyField d.body 72 32), BitVec.ofNat 64 (bodyField d.body 104 64), loWord s.now⟩] } :=
  logEnter_room h

theorem writeLogCtl_pop (s : State) : s.writeLogCtl (cmdBit 31) = (.ok, s.logPop) := by
  simp +decide only [State.writeLogCtl, if_true, if_false]

end

/-- Settles O37: digests by `digestDone_completes` and `digestSend_sends`, what a DIGEST begins by `digestReceive_current`, causes by
`setCauses_facts` and what they log by `log_setCauses_nil` and `log_setCauses_first`. -/
theorem digestsAndTheLog : Obligations.DigestsAndTheLog := by
  refine ⟨?_, ?_, ?_, ?_, ?_, ?_, ?_, ?_, ?_, ?_, ?_, ?_⟩
  · intro s k hm hr hk
    exact ⟨_, rfl, by rw [if_pos hm]; exact digestDone_completes hr hk⟩
  · intro s hm hr
    exact ⟨_, rfl, by rw [if_pos hm]; exact digestDone_idle hr⟩
  · intro s n hm hc ht hg hs hu hl
    exact ⟨_, rfl, by rw [if_pos hm]; exact digestSend_sends n hc ht hg hs hu hl⟩
  · intro s ht
    exact ⟨_, rfl, by rw [digestSend_waits ht, ite_self]⟩
  · intro s d l n hm hi hk hn hcmp hup hcur hv hep
    refine completes_of_message rfl hm hi hk ?_
    rw [digestReceive_current (s := s.taken l) hn hcmp hup hcur hep, not_differs_of_unexpected hv]
    obtain ⟨⟨q, hlane⟩, hinbox, -⟩ := setCauses_facts ((s.taken l).digestHeard n d.body) n (bodySrc d.body) []
    rw [lane_digestHeard] at hlane
    simp only [Bool.false_eq_true, if_false, hlane, hinbox]
    refine ⟨trivial, rfl, rfl, trivial, rfl, fun hcs => ?_⟩
    exact log_setCauses_nil _ n (bodySrc d.body) (by rw [lane_digestHeard]; exact hcs)
  · intro s d l n hm hi hk hn hcmp hup hcur hv hne hep hcs hl
    refine completes_of_message rfl hm hi hk ?_
    rw [digestReceive_current (s := s.taken l) hn hcmp hup hcur hep, differs_of_ne hv hne, if_pos rfl]
    obtain ⟨⟨q, hlane⟩, -, hlive⟩ := setCauses_facts ((s.taken l).digestHeard n d.body) n (bodySrc d.body) [1]
    refine ⟨by rw [hlane], hlive 1 (by simp) (by decide), ?_⟩
    have hlog := log_setCauses_first ((s.taken l).digestHeard n d.body) n (bodySrc d.body) (c := 1)
      (by rw [lane_digestHeard]; exact hcs) hl
    rw [State.causeEntry, lane_digestHeard, hep] at hlog
    exact hlog
  · intro s d l hm hi hk hl
    refine completes_of_message rfl hm hi hk ?_
    rw [reportReceive_logs (s.taken l) d hl]
    exact ⟨rfl, rfl, rfl⟩
  · intro s n hup hw ht hc
    exact completes_of_detector rfl hup (silent_begins hw ht hc) (setCauses_appends s n _ (by decide))
  · intro s n ht
    exact completes_of_idle_detector rfl (silent_waits ht)
  · intro s n hup hw ht hf hc
    exact completes_of_detector rfl hup (stale_begins hw ht hf hc) (setCauses_appends s n _ (by decide))
  · intro s n ht
    exact completes_of_idle_detector rfl (stale_waits ht)
  · intro s h
    exact completes_of_accepted_fleet rfl h (by decide) (by decide) rfl (writeLogCtl_pop s) rfl ⟨rfl, rfl, rfl⟩
      fun t hw ht => ⟨congrArg Fleet.log ht, hw⟩

end Sys2Proof.Machine

namespace Sys2Proof.Machine

/-! ## The calibration engine (R432, R466): its happenings, its groups and its sources -/

section
variable {s t : State} {c : Instr} {f : State → State} {P : State → Prop}

/-- While the device runs and the engine is not being reloaded, a happening of the engine is complete with what it does. -/
theorem completes_of_engine (hx : exec c s = .next (s.engine f)) (hup : s.up = true) (hr : s.reloads.contains 2 = false)
    (ht : f s = t) (hP : P t) : completes c s P := by
  refine ⟨t, hx.trans (congrArg _ ?_), hP⟩
  rw [State.engine, hup, hr, if_pos (by rfl), ht]

/-- A happening that leaves the state as it is leaves it so whether the engine acts or not. -/
theorem completes_of_idle_engine (hx : exec c s = .next (s.engine f)) (h : f s = s) : completes c s fun t => t = s :=
  ⟨_, hx, by rw [State.engine, h, ite_self]⟩

end

section
variable (s : State) {g : Nat}

theorem grp_modGrp_other (m : Nat) (f : CalGroup → CalGroup) (h : g ≠ m) : (s.modGrp g f).grp m = s.grp m := by
  simp [State.modGrp, State.grp, h]

/-- A source of the calibration block is of no unit that could be fenced (R503). -/
theorem unitFenced_of_cal {f : Fid} (hf : f.code = 9) : s.unitFenced f = false := by simp [State.unitFenced, hf]

/-- Its raise is recorded, and changes nothing else. -/
theorem raiseEvent_of_cal (f : Fid) (a : Word) (hf : f.code = 9) :
    ∃ r : Raise, s.raiseEvent f a = { s with raises := s.raises ++ [r] } ∧ r.fid = f := by
  obtain ⟨r, hr, hfid, -⟩ := raiseEvent_of_not_fenced s f a (unitFenced_of_cal s hf)
  exact ⟨r, hr, hfid⟩

/-- STARVED, once begun, reads live; it is raised unless it read live before (R501). -/
theorem beginLevel_starved :
    (∃ ws rs, s.beginLevel Src.cal_STARVED 0 = { s with windows := ws, raises := rs }) ∧
      (s.beginLevel Src.cal_STARVED 0).isLive Src.cal_STARVED = true ∧
      (s.isLive Src.cal_STARVED = false →
        ∃ x : Raise, (s.beginLevel Src.cal_STARVED 0).raises = s.raises ++ [x] ∧ x.fid = Src.cal_STARVED) := by
  refine ⟨setLevel_form s Src.cal_STARVED 0 true, ?_, fun hl => ?_⟩
  · have hw : (s.beginLevel Src.cal_STARVED 0).windows =
        (s.modWin (windowIndex 9 0) fun w => { w with live := setBit w.live 2 true }).windows := by
      unfold State.beginLevel
      rw [unitFenced_of_cal s rfl, if_neg Bool.false_ne_true]
      extract_lets t
      split
      · rfl
      · exact raiseEvent_windows ..
    have hlive := congrArg (fun w : FaultWindow => bitOf w.live 2)
      (State.win_modWin_self s (windowIndex 9 0) (fun w => { w with live := setBit w.live 2 true }) (by decide))
    rw [isLive_of_windows hw, State.isLive, Bool.or_eq_true]
    exact .inl (hlive.trans (bitOf_setBit_self _ _ _ (by decide)))
  · obtain ⟨x, hx, hfid, -⟩ := beginLevel_begins s Src.cal_STARVED 0 (unitFenced_of_cal s rfl) hl
    exact ⟨x, by rw [hx], hfid⟩

end

/-! ### Temperatures asked for (R439, R444, R477) -/

section
variable {s : State} {g : Nat}

/-- The converter's queue holds one more request, of a group's channel. -/
def State.tempAsked (s : State) (g : Nat) : State :=
  (s.modMon fun m => { m with queue := m.queue ++ [⟨calChannel g, some g, s.now⟩] }).noteQueue

theorem inject_asks (hf : s.flag Fields.MON_STAT_FENCED 0 = false) (hq : s.mon.queue.length < 2) :
    s.inject (calChannel g) (some g) = (.queued, s.tempAsked g) := by
  simp only [State.inject, hf, Nat.not_le.2 hq]
  rfl

/-- A measured run of a group begins: the conditions are noted, the start temperature is asked for, and no step is done (R444, R455). -/
def State.runBegun (s : State) (g steps : Nat) : State :=
  let u := (s.snapshot g).tempAsked g
  { u with cal := { u.cal with run := some ⟨g, s.elapsed, none, none, steps, true, 0⟩ } }

@[simp] theorem tempAsked_calVals (s : State) (g : Nat) : (s.tempAsked g).calVals = s.calVals := rfl

@[simp] theorem tempAsked_grp (s : State) (g m : Nat) : (s.tempAsked g).grp m = s.grp m := rfl

@[simp] theorem snapshot_calVals (s : State) (g : Nat) : (s.snapshot g).calVals = s.calVals := rfl

/-- The begin of a run moves no value, and asks for one temperature. -/
theorem runBegun_facts (s : State) (g steps : Nat) : (s.runBegun g steps).calVals = s.calVals ∧
    (s.runBegun g steps).cal.run = some ⟨g, s.elapsed, none, none, steps, true, 0⟩ ∧
    (s.runBegun g steps).mon.queue = s.mon.queue ++ [⟨calChannel g, some g, s.now⟩] :=
  ⟨(tempAsked_calVals (s.snapshot g) g).trans (snapshot_calVals s g), rfl, rfl⟩

/-- The conditions that a run notes are none of what its group waits to take. -/
theorem waiting_runBegun (hg : g < 60) (steps : Nat) : ((s.runBegun g steps).grp g).waiting = (s.grp g).waiting := by
  have hgrp : (s.runBegun g steps).grp g = ((s.snapshot g).tempAsked g).grp g := rfl
  rw [hgrp, tempAsked_grp, State.snapshot, State.grp_modGrp_self _ _ _ hg]

/-- The engine asks for the temperature that the run in progress waits for. -/
theorem calInject_run {r : CalRun} (hr : s.cal.run = some r) (hg : r.group = g) (ha : r.asked = false) (h1 : r.t1 = none)
    (hf : s.flag Fields.MON_STAT_FENCED 0 = false) (hq : s.mon.queue.length < 2) :
    s.calInject g = { s.tempAsked g with cal := { s.cal with run := some { r with asked := true } } } := by
  simp only [State.calInject, hr, if_pos hg, ha, h1, inject_asks hf hq]
  rfl

/-- A channel that the scan holds is not asked for beside it. -/
theorem calInject_scanned (hr : s.cal.run = none) (hm : s.mon.mask.getLsbD (calChannel g) = true) : s.calInject g = s := by
  simp only [State.calInject, hr, State.calInjectIdle, hm, Bool.true_or, if_true]

/-- One that it does not hold is asked for 10 ms after the last time. -/
theorem calInject_idle (g : Fin 60) (hr : s.cal.run = none) (hm : s.mon.mask.getLsbD (calChannel g) = false)
    (ht : s.cal.injectedAt[g] + 5000000 ≤ s.elapsed) (hf : s.flag Fields.MON_STAT_FENCED 0 = false)
    (hq : s.mon.queue.length < 2) :
    s.calInject g = { s.tempAsked g with cal := { s.cal with injectedAt := s.cal.injectedAt.setIfInBounds g s.elapsed } } := by
  have hlast : (s.cal.injectedAt[g.val]?).getD 0 = s.cal.injectedAt[g] := by simp
  have hidle : s.calInject g = s.calInjectIdle g := by simp only [State.calInject, hr]
  rw [hidle]
  simp only [State.calInjectIdle, hm, hlast, Nat.not_lt.2 ht, inject_asks hf hq]
  rfl

end

/-! ### Runs that start (R443, R446) -/

section Start
variable {s : State} {g : Nat} (hd : (s.grp g).due = true) (hen : s.flag Fields.CAL_CFG_EN 0 = true)
  (hf : s.flag Fields.MON_STAT_FENCED 0 = false) (hr : s.cal.run = none) (ht : (s.grp g).retryAt ≤ s.elapsed)
include hd hen hf hr ht

/-- A due group whose unit is available, with no run to resume, starts a measured run. -/
theorem calRunStart_measures (ha : s.calAvailable g = true) (hp : (s.grp g).paused = none) (hq : s.mon.queue.length < 2) :
    s.calRunStart g =
      (s.runBegun g (s.fld Fields.CAL_STEPEN_STEPS 0 &&& calSteps g)).modGrp g fun x => { x with paused := none } := by
  have hi : (s.snapshot g).inject (calChannel g) (some g) = (.queued, (s.snapshot g).tempAsked g) := inject_asks hf hq
  simp only [State.calRunStart, hd, hen, hf, hr, Nat.not_lt.2 ht, ha, hp, hi]
  rfl

/-- A paused run whose temperature has moved by no more than ΔT/2 goes on with the steps it had done. -/
theorem calRunStart_resumes {t0 x : Int} (ha : s.calAvailable g = true) (hp : (s.grp g).paused = some t0)
    (hx : s.groupTemp g = some x) (hdt : 2 * (x - t0).natAbs ≤ s.calDT) :
    s.calRunStart g =
      ({ s with cal := { s.cal with run := some ⟨g, s.elapsed, some t0, none, s.fld Fields.CAL_STEPEN_STEPS 0 &&& calSteps g, false,
        (s.grp g).pausedDone &&& (s.fld Fields.CAL_STEPEN_STEPS 0 &&& calSteps g)⟩ } } : State).modGrp g
        fun x => { x with paused := none } := by
  simp only [State.calRunStart, hd, hen, hf, hr, Nat.not_lt.2 ht, ha, hp, hx, hdt]
  rfl

/-- A due group whose unit is not available takes its values from the model. -/
theorem calRunStart_models (ha : s.calAvailable g = false) : s.calRunStart g = s.modelRun g := by
  simp only [State.calRunStart, hd, hen, hf, hr, Nat.not_lt.2 ht, ha]
  rfl

end Start

theorem calRunStart_busy {s : State} {g : Nat} (hr : s.cal.run.isSome = true) : s.calRunStart g = s := by
  simp only [State.calRunStart, hr, Bool.or_true, Bool.true_or, if_true]

/-! ### Model runs (R434, R443) -/

section Model
variable {s : State} {g : Nat} {x : Int}

/-- A model run moves the groups and the raises alone. -/
theorem modelRun_form (s : State) (g : Nat) :
    ∃ gs rs, s.modelRun g = { s with cal := { s.cal with groups := gs }, raises := rs } := by
  unfold State.modelRun
  extract_lets y
  split
  next => exact ⟨s.cal.groups, s.raises, rfl⟩
  next t _ =>
    extract_lets far limited u
    have hraise (v : State) (f : Fid) : ∃ rs, v.raiseEvent f 0 = { v with raises := rs } := raiseAs_form v f v.now 0 false false
    split
    · obtain ⟨rs, h⟩ := hraise (s.modGrp g fun y => { y with result := 4 }) Src.cal_NO_MODEL
      exact ⟨_, rs, h⟩
    · split
      · obtain ⟨rs, h⟩ := hraise u Src.cal_TRIM_LIMIT
        exact ⟨_, rs, h⟩
      · exact ⟨_, s.raises, rfl⟩

/-- A group's model values wait to take effect, with the result of their run. -/
def State.modelled (s : State) (g : Nat) (x : Int) (result : Nat) : State :=
  s.modGrp g fun y => { y with result := result, waiting := some ⟨s.modelWords g x, x, 2, s.elapsed⟩ }

theorem grp_modelled (g : Fin 60) (result : Nat) : (s.modelled g x result).grp g =
    { s.grp g with result := result, waiting := some ⟨s.modelWords g x, x, 2, s.elapsed⟩ } :=
  State.grp_modGrp_self s g _ g.isLt

variable (hx : s.groupTemp g = some x)
include hx

/-- A group without values ends NOMODEL. -/
theorem modelRun_refused (hv : (s.grp g).hasVal = false) :
    ∃ r : Raise, s.modelRun g = { s.modGrp g fun y => { y with result := 4 } with raises := s.raises ++ [r] } ∧
      r.fid = Src.cal_NO_MODEL := by
  simp only [State.modelRun, hx, hv, Bool.not_false, Bool.true_or, if_true]
  exact raiseEvent_of_cal _ _ 0 rfl

/-- A group with values and a measured run within the span leaves the model's values waiting, and raises TRIM_LIMIT where one of them
lay beyond the range of its trim. -/
theorem modelRun_models (hv : (s.grp g).hasVal = true) (hp : ∃ p ∈ (s.grp g).past, (x - p.base).natAbs ≤ s.calSpan) :
    s.modelRun g =
      if s.modelLimited g x then (s.modelled g x 2).raiseEvent Src.cal_TRIM_LIMIT 0 else s.modelled g x 0 := by
  have hnear : ((s.grp g).past.all fun p => decide (s.calSpan < (x - p.base).natAbs)) = false := by
    obtain ⟨p, hp, hle⟩ := hp
    exact List.all_eq_false.2 ⟨p, hp, by simpa using hle⟩
  simp only [State.modelRun, hx, hv, hnear]
  cases s.modelLimited g x <;> rfl

end Model

/-! ### Runs that end early, and groups that stay due (R436, R445, R447) -/

section
variable {s : State} {g : Nat} {r : CalRun}

/-- The time in which REFCAL has to be qualified, and after which the run is tried again: REFTO × 10 ms. -/
def State.refWait (s : State) : Nat := s.fld1 Fields.CAL_LIMITS_REFTO 0 * 5000000

/-- A run has ended NOREF, and the next one is put off. -/
def State.runTimedOut (s : State) (g : Nat) (r : CalRun) : State :=
  ({ s with cal := { s.cal with run := none } } : State).modGrp g fun x =>
    { x with result := 1, steps := s.calDone r, retryAt := s.elapsed + s.refWait }

theorem grp_runTimedOut (s : State) (g : Fin 60) (r : CalRun) :
    (s.runTimedOut g r).grp g = { s.grp g with result := 1, steps := s.calDone r, retryAt := s.elapsed + s.refWait } :=
  State.grp_modGrp_self { s with cal := { s.cal with run := none } } g _ g.isLt

theorem calRefTimeout_ends (hr : s.cal.run = some r) (hg : r.group = g) (hn : r.needsRef = true)
    (hq : (s.ref 4).qualified = false) (ht : max r.startedAt (s.ref 4).lostAt + s.refWait ≤ s.elapsed) :
    ∃ x : Raise, s.calRefTimeout g = { s.runTimedOut g r with raises := s.raises ++ [x] } ∧ x.fid = Src.cal_REF_TIMEOUT := by
  have hends : s.calRefTimeout g = (s.runTimedOut g r).raiseEvent Src.cal_REF_TIMEOUT 0 := by
    simp only [State.calRefTimeout, hr]
    exact if_pos ⟨hg, hn, by rw [hq]; rfl, ht⟩
  rw [hends]
  exact raiseEvent_of_cal (s.runTimedOut g r) _ 0 rfl

theorem calStarved_begins (hd : (s.grp g).due = true) (hs : (s.grp g).starved = false)
    (ht : (s.grp g).dueSince + s.fld1 Fields.CAL_CFG_STARVE 0 * 5000000 ≤ s.elapsed) :
    s.calStarved g = (s.modGrp g fun x => { x with starved := true }).beginLevel Src.cal_STARVED 0 := by
  simp only [State.calStarved, hd, hs, ht]
  rfl

theorem calStarved_current (hd : (s.grp g).due = false) : s.calStarved g = s := by
  simp only [State.calStarved, hd, Bool.false_and, Bool.false_eq_true, if_false]

/-- A run in progress has been abandoned (R445). -/
def State.runAbandoned (s : State) (g : Nat) (r : CalRun) : State :=
  ({ s with cal := { s.cal with run := none } } : State).modGrp g fun x =>
    { x with result := 3, steps := s.calDone r, paused := none }

theorem calAbandon_ends (hr : s.cal.run = some r) (hg : r.group = g) : s.calAbandon g = s.runAbandoned g r := by
  simp only [State.calAbandon, hr, if_pos hg]
  rfl

/-- The engine's failed check abandons the run in progress and raises ENGINE_CHECK; beside it nothing of the state moves but the
groups. -/
theorem engineCheck_form (s : State) :
    ∃ gs, ∃ x : Raise, s.engineCheck = { s with cal := { s.cal with groups := gs, run := none }, raises := s.raises ++ [x] } ∧
      x.fid = Src.cal_ENGINE_CHECK := by
  unfold State.engineCheck
  split
  next r hr =>
    obtain ⟨x, hx, hfid⟩ := raiseEvent_of_cal (s.runAbandoned r.group r) Src.cal_ENGINE_CHECK 0 rfl
    rw [calAbandon_ends hr rfl]
    exact ⟨_, x, hx, hfid⟩
  next hr =>
    obtain ⟨x, hx, hfid⟩ := raiseEvent_of_cal s Src.cal_ENGINE_CHECK 0 rfl
    refine ⟨s.cal.groups, x, ?_, hfid⟩
    rw [← hr]
    exact hx

theorem beginReload_begins {u : Nat} (h : s.reloads.contains u = false) : s.beginReload u = { s with reloads := s.reloads ++ [u] } := by
  simp only [State.beginReload, h]
  rfl

@[simp] theorem run_modGrp (s : State) (g : Nat) (f : CalGroup → CalGroup) : (s.modGrp g f).cal.run = s.cal.run := rfl

/-- ABORT abandons the run of the selected group, and a RUN that waits for it. -/
theorem calAbort_ends (hr : s.cal.run = some r) (hg : r.group = s.gsel) (hs : s.gsel < 60) :
    s.calAbort.cal.run = none ∧ s.calAbort.calVals = s.calVals ∧ (s.calAbort.grp s.gsel).result = 3 ∧
      (s.calAbort.grp s.gsel).wanted = false := by
  have hrun : (s.runAbandoned s.gsel r).cal.run = none := rfl
  have hvals : (s.runAbandoned s.gsel r).calVals = s.calVals := rfl
  have hres : ((s.runAbandoned s.gsel r).grp s.gsel).result = 3 := by rw [State.runAbandoned, State.grp_modGrp_self _ _ _ hs]
  simp only [State.calAbort, calAbandon_ends hr hg]
  generalize s.runAbandoned s.gsel r = u at *
  split <;> simp [hs, hrun, hvals, hres]

end

/-! ### What CAL_CMD makes of a write (R459 to R462) -/

section
variable {s u : State} {r : RegName} {i : Nat} {w : Word}

/-- An accepted write of a register that is neither saved nor of the consistency set leaves what the register's rule leaves, the store
included, with the digest, TIME_HWREL and LASTW beside it. -/
theorem portWrite_unsaved (h : s.serves = true) (hp : placed r i = true)
    (hk : ((regSpec r).wk && getBits w 24 8 != 0xA5) = false) (hw : s.writeReg r i w = (.ok, u)) (hm : setMask r = none)
    (hs : savedRegs.contains r = false) :
    ∃ fl, s.portWrite (regAddr r i) w = { u with fleet := fl, hwRel := s.now, hspi := { u.hspi with lastw := 0 } } := by
  have he : u.enterSaved r i w = u := by simp only [State.enterSaved, hm, hs, Option.isSome_none, Bool.false_eq_true, if_false]
  obtain ⟨fl, hn⟩ := noteSet_form u s
  have ha := hostWrite_accepted h hp hk hw
  rw [he, hn] at ha
  refine ⟨fl, ?_⟩
  simp only [State.portWrite, hostServes_of_serves s h, not_held_of_serves s h, stepOne_of_turn s (turn_of_serves s h), ha]
  rfl

/-- A command of CAL_CMD is complete with what its bit does, the port's own marks and the digest beside it. -/
theorem completes_of_calCmd {c : Instr} {k : Nat} {P : State → Prop}
    (hx : exec c s = .next (s.portWrite (regAddr .CAL_CMD 0) (cmdBit k))) (h : s.serves = true) (hu : s.writeCalCmd (cmdBit k) = u)
    (hP : ∀ fl, P { u with fleet := fl, hwRel := s.now, hspi := { u.hspi with lastw := 0 } }) : completes c s P := by
  have hw : s.writeReg .CAL_CMD 0 (cmdBit k) = (.ok, u) := congrArg (Prod.mk WStatus.ok) hu
  obtain ⟨fl, ht⟩ := portWrite_unsaved h (placed_of_command _ _ (by decide) (by decide)) rfl hw rfl rfl
  exact ⟨_, hx, ht ▸ hP fl⟩

theorem writeCalCmd_run (s : State) : s.writeCalCmd (cmdBit 31) = s.calRun := by
  simp +decide only [State.writeCalCmd, if_true, if_false]

theorem writeCalCmd_export (s : State) : s.writeCalCmd (cmdBit 30) = s.calExport := by
  simp +decide only [State.writeCalCmd, if_true, if_false]

theorem writeCalCmd_import (s : State) : s.writeCalCmd (cmdBit 29) = s.calImport := by
  simp +decide only [State.writeCalCmd, if_true, if_false]

theorem writeCalCmd_commit (s : State) : s.writeCalCmd (cmdBit 28) = s.calCommit := by
  simp +decide only [State.writeCalCmd, if_true, if_false]

theorem writeCalCmd_abort (s : State) : s.writeCalCmd (cmdBit 27) = s.calAbort := by
  simp +decide only [State.writeCalCmd, if_true, if_false]

end

/-- Settles O38: temperatures by `calInject_run` and `calInject_idle`, starts by `calRunStart_measures`, `calRunStart_resumes` and
`calRunStart_models`, early ends by `calRefTimeout_ends`, `engineCheck_form` and `calAbort_ends`, STARVED by `beginLevel_starved`. -/
theorem calibrationRuns : Obligations.CalibrationRuns := by
  refine ⟨?_, ?_, ?_, ?_, ?_, ?_, ?_, ?_, ?_, ?_, ?_, ?_, ?_⟩
  · intro s g r hup hrl hr hg ha h1 hf hq
    exact completes_of_engine rfl hup hrl (calInject_run hr hg ha h1 hf hq) ⟨rfl, rfl⟩
  · intro s g hr hm
    exact completes_of_idle_engine rfl (calInject_scanned hr hm)
  · intro s g hup hrl hr hm ht hf hq
    exact completes_of_engine rfl hup hrl (calInject_idle g hr hm ht hf hq) ⟨rfl, hr, by simp⟩
  · intro s g hup hrl hd hen hf hr ht ha hp hq
    exact completes_of_engine rfl hup hrl (calRunStart_measures hd hen hf hr ht ha hp hq) (runBegun_facts s g _)
  · intro s g t0 x hup hrl hd hen hf hr ht ha hp hx hdt
    exact completes_of_engine rfl hup hrl (calRunStart_resumes hd hen hf hr ht ha hp hx hdt)
      ⟨rfl, by simp, rfl, rfl⟩
  · intro s g x hup hrl hd hen hf hr ht ha hx
    obtain ⟨gs, rs, hform⟩ := modelRun_form s g
    refine completes_of_engine rfl hup hrl (calRunStart_models hd hen hf hr ht ha)
      ⟨by rw [hform]; exact hr, by rw [hform], fun hv => ?_, fun hv hp => ?_⟩
    · obtain ⟨r, hrun, hfid⟩ := modelRun_refused hx hv
      have hgrp := State.grp_modGrp_self s g (fun y => { y with result := 4 }) g.isLt
      rw [hrun]
      exact ⟨congrArg CalGroup.result hgrp, (congrArg CalGroup.waiting hgrp).trans rfl, r, rfl, hfid⟩
    · rw [modelRun_models hx hv hp]
      cases hl : s.modelLimited g x
      · exact ⟨congrArg CalGroup.waiting (grp_modelled g 0), fun _ => ⟨congrArg CalGroup.result (grp_modelled g 0), rfl⟩,
          (nomatch ·)⟩
      · obtain ⟨r, hr, hfid⟩ := raiseEvent_of_cal (s.modelled g x 2) Src.cal_TRIM_LIMIT 0 rfl
        rw [if_pos rfl, hr]
        exact ⟨congrArg CalGroup.waiting (grp_modelled g 2), (nomatch ·),
          fun _ => ⟨congrArg CalGroup.result (grp_modelled g 2), r, rfl, hfid⟩⟩
  · intro s g hr
    exact completes_of_idle_engine rfl (calRunStart_busy hr)
  · intro s g r hup hrl hr hg hn hq ht
    obtain ⟨x, hx, hfid⟩ := calRefTimeout_ends hr hg hn hq ht
    have hgrp := grp_runTimedOut s g r
    exact completes_of_engine rfl hup hrl hx
      ⟨rfl, congrArg CalGroup.result hgrp, rfl, congrArg CalGroup.retryAt hgrp, x, rfl, hfid⟩
  · intro s g hup hrl hd hs ht
    obtain ⟨⟨ws, rs, hform⟩, hlive, hraise⟩ := beginLevel_starved (s.modGrp g fun x => { x with starved := true })
    refine completes_of_engine rfl hup hrl (calStarved_begins hd hs ht) ⟨?_, hlive, hraise⟩
    rw [hform]
    exact congrArg CalGroup.starved (State.grp_modGrp_self s g (fun x => { x with starved := true }) g.isLt)
  · intro s g hd
    exact completes_of_idle_engine rfl (calStarved_current hd)
  · intro s hup hrl
    obtain ⟨gs, x, hx, hfid⟩ := engineCheck_form s
    refine completes_of_engine rfl hup hrl (beginReload_begins (by rw [hx]; exact hrl)) ?_
    rw [hx]
    exact ⟨rfl, rfl, rfl, x, rfl, hfid⟩
  · intro s h hg
    refine completes_of_calCmd rfl h (writeCalCmd_run s) fun fl => ⟨?_, rfl, rfl, rfl, rfl⟩
    exact congrArg CalGroup.wanted (State.grp_modGrp_self s s.gsel (fun x => { x with wanted := true }) hg)
  · intro s r h hg hr hrg
    obtain ⟨hrun, hvals, hres, hwant⟩ := calAbort_ends hr hrg hg
    exact completes_of_calCmd rfl h (writeCalCmd_abort s) fun fl => ⟨hrun, hres, hwant, hvals, rfl, rfl⟩

end Sys2Proof.Machine

namespace Sys2Proof.Machine

/-! ## What taking note of the groups leaves alone (R438, R440) -/

/-- What a group holds of its values. Whether it is due, and since when, is none of it. -/
structure GroupHold where
  hasVal : Bool
  base : Option Int
  lastKind : Nat
  imported : Bool
  stamp : Nat
  waiting : Option CalWait

def CalGroup.hold (x : CalGroup) : GroupHold := ⟨x.hasVal, x.base, x.lastKind, x.imported, x.stamp, x.waiting⟩

/-- The value words, the registers and what each group holds, as one value: an operation that leaves all of it alone says so in one
equation. -/
structure Trims where
  vals : WMap
  regs : RegFile
  holds : Vector GroupHold 60

def State.trims (s : State) : Trims := ⟨s.calVals, s.regs, s.cal.groups.map CalGroup.hold⟩

section
variable (s : State)

theorem hold_of_trims {s t : State} (h : t.trims = s.trims) (g : Nat) : (t.grp g).hold = (s.grp g).hold := by
  have hget (u : State) : (u.grp g).hold = (u.trims.holds[g]?).getD (CalGroup.hold default) := by
    simp only [State.grp, State.trims, Vector.getElem?_map, Option.getD_map]
  rw [hget, hget, h]

theorem trims_modGrp (g : Nat) (f : CalGroup → CalGroup) (h : ∀ x, (f x).hold = x.hold) : (s.modGrp g f).trims = s.trims :=
  congrArg (Trims.mk s.calVals s.regs) (map_setIfInBounds_keeps s.cal.groups g f CalGroup.hold h)

@[simp] theorem trims_endLevel (f : Fid) : (s.endLevel f).trims = s.trims := rfl

@[simp] theorem trims_beginLevel (f : Fid) (a : Word) : (s.beginLevel f a).trims = s.trims := by
  obtain ⟨ws, rs, h⟩ := setLevel_form s f a true
  exact (congrArg State.trims h).trans rfl

@[simp] theorem trims_lapseWith (f : Fid) (w : Word) (e : LapseEnd) : (s.lapseWith f w e).trims = s.trims := by
  obtain ⟨ws, rs, ls, h⟩ := lapseWith_form s f w e
  rw [h]; rfl

@[simp] theorem trims_endLapses (p : Lapse → Bool) : (s.endLapses p).trims = s.trims := by
  unfold State.endLapses
  extract_lets ls fails closes u
  exact List.foldlRecOn (motive := fun t : State => t.trims = s.trims) _ _ rfl fun t ht l _ => ht

@[simp] theorem trims_calNote (g : Nat) : (s.calNote g).trims = s.trims := by
  unfold State.calNote
  extract_lets x due us s1 s2 s3
  have h1 : s1.trims = s.trims := trims_modGrp s g _ fun _ => by rfl
  have h3 : s3.trims = s.trims := (trims_modGrp s1 g _ fun _ => by rfl).trans h1
  split
  · exact (trims_modGrp _ g _ fun _ => by rfl).trans ((trims_lapseWith ..).trans ((trims_beginLevel ..).trans h1))
  · split
    · split
      · exact (trims_endLapses ..).trans h3
      · exact h3
    · exact h1

/-- Taking note of what is due moves no value, no register and nothing that a group holds. -/
@[simp] theorem trims_calRefresh : s.calRefresh.trims = s.trims := by
  unfold State.calRefresh
  extract_lets s1 s2
  have h1 : s1.trims = s.trims := State.each_keeps State.trims _ trims_calNote s _
  have h2 : s2.trims = s.trims := by simp only [s2, apply_ite State.trims, trims_endLevel, ite_self, h1]
  rw [apply_ite State.trims, trims_endLevel, ite_self, h2]

theorem calVals_of_trims {s t : State} (h : t.trims = s.trims) : t.calVals = s.calVals := congrArg Trims.vals h
theorem regs_of_trims {s t : State} (h : t.trims = s.trims) : t.regs = s.regs := congrArg Trims.regs h

end

/-! ## Measured runs that end (R434, R444, R445) -/

/-- A measured run of a group has ended, and its values wait to take effect. -/
def State.runEnded (s : State) (g : Nat) (r : CalRun) (w : CalWait) (result : Nat) : State :=
  ({ s with cal := { s.cal with run := none } } : State).modGrp g fun x =>
    { x with result := result, steps := r.steps, wanted := false, waiting := some w }

theorem grp_runEnded (s : State) (g : Fin 60) (r : CalRun) (w : CalWait) (result : Nat) :
    (s.runEnded g r w result).grp g = { s.grp g with result := result, steps := r.steps, wanted := false, waiting := some w } :=
  State.grp_modGrp_self { s with cal := { s.cal with run := none } } g _ g.isLt

section Complete
variable {s : State} {g : Nat} {meas : List Int} {r : CalRun} {t0 t1 : Int} (hr : s.cal.run = some r) (hg : r.group = g)
  (h0 : r.t0 = some t0) (h1 : r.t1 = some t1) (hq : r.needsRef = false ∨ (s.ref 4).qualified = true)

/-- A run that is the group's own, with the REFCAL it needs, is not held up (R436). -/
theorem run_free (hg : r.group = g) (hq : r.needsRef = false ∨ (s.ref 4).qualified = true) :
    ¬(r.group ≠ g ∨ (r.needsRef = true ∧ (!(s.ref 4).qualified) = true)) := by
  rintro (h | ⟨hn, hu⟩)
  · exact h hg
  · rcases hq with h | h <;> simp [h] at hn hu

include hr hg h0 h1 hq

/-- A run whose temperature moved by no more than ΔT/2 leaves its values waiting, at the mean of its temperatures. -/
theorem calRunComplete_waits (hdt : 2 * (t1 - t0).natAbs ≤ s.calDT) :
    ∃ w result rs, s.calRunComplete g meas = { s.runEnded g r w result with raises := rs } ∧
      w.base = (t0 + t1) / 2 ∧ w.kind = 1 ∧ w.readyAt = s.elapsed := by
  simp only [State.calRunComplete, hr, h0, h1, if_neg (run_free hg hq), if_neg (Nat.not_lt.2 hdt)]
  generalize ((s.runSets g r.steps fun k => meas.getD k 0).any fun x => x.limited) = limited
  let w : CalWait := ⟨s.measuredWords g ((t0 + t1) / 2) (s.runSets g r.steps fun k => meas.getD k 0), (t0 + t1) / 2, 1, s.elapsed⟩
  cases limited
  · exact ⟨w, 0, s.raises, rfl, rfl, rfl, rfl⟩
  · obtain ⟨x, hx, -⟩ := raiseEvent_of_cal (s.runEnded g r w 2) Src.cal_TRIM_LIMIT 0 rfl
    exact ⟨w, 2, _, hx, rfl, rfl, rfl⟩

/-- One whose temperature moved more begins again. -/
theorem calRunComplete_repeats (hdt : s.calDT < 2 * (t1 - t0).natAbs) (hf : s.flag Fields.MON_STAT_FENCED 0 = false)
    (hl : s.mon.queue.length < 2) : s.calRunComplete g meas = s.runBegun g r.steps := by
  have hi : (s.snapshot g).inject (calChannel g) (some g) = (.queued, (s.snapshot g).tempAsked g) := inject_asks hf hl
  simp only [State.calRunComplete, hr, h0, h1, if_neg (run_free hg hq), if_pos hdt, hi]
  rfl

end Complete

theorem calRunComplete_idle {s : State} {g : Nat} (meas : List Int) (hr : s.cal.run = none) : s.calRunComplete g meas = s := by
  simp only [State.calRunComplete, hr]

/-! ## Values that take effect (R448 to R450) -/

/-- A word store reads 0 where it has no cell. -/
theorem WMap.get_of_not_mem (m : WMap) {i : Nat} (h : i ∉ m.map (·.1)) : m.get i = 0 := by
  induction m with
  | nil => rfl
  | cons c m ih =>
    obtain ⟨hc, hm⟩ := List.ne_and_not_mem_of_not_mem_cons h
    rw [WMap.get, if_neg (Ne.symm hc), ih hm]

section Apply
variable (s : State) (g : Nat)

/-- A value word that is not among those of its group that differ from 0 reads 0. -/
theorem calWord_of_not_mem {i : Nat} (hi : i < 2048) (h : i ∉ (s.groupWords g).map (·.1)) : s.calWord g i = 0 := by
  refine WMap.get_of_not_mem _ fun hm => h ?_
  obtain ⟨c, hc, hk⟩ := List.mem_map.1 hm
  refine List.mem_map.2 ⟨(c.1 - g * 2048, c.2), List.mem_map.2 ⟨c, List.mem_filter.2 ⟨hc, ?_⟩, rfl⟩, ?_⟩
  · simp only [Bool.and_eq_true, decide_eq_true_eq]; omega
  · show c.1 - g * 2048 = i
    omega

/-- The words of a run put in the places of a list. -/
def State.putWords (s : State) (g : Nat) (w : WMap) (l : List Nat) : State := s.each l fun s i => s.setCalWord g i (w.get i)

theorem calWord_setCalWord (i j : Nat) (v : Word) : (s.setCalWord g j v).calWord g i = if i = j then v else s.calWord g i := by
  split
  next h => rw [h]; exact WMap.get_set_self ..
  next h => exact WMap.get_set_other _ _ _ _ (by omega)

theorem calWord_putWords (w : WMap) (l : List Nat) (i : Nat) :
    (s.putWords g w l).calWord g i = if i ∈ l then w.get i else s.calWord g i := by
  refine State.each_decides (·.calWord g i) i (w.get i) _ (fun u n => ?_) s l
  rw [calWord_setCalWord]
  split
  next h => rw [h]
  next => rfl

/-- The value words that change when a run's words take effect: those it has, and those it no longer has. -/
def State.changed (s : State) (g : Nat) (w : WMap) : List Nat :=
  w.map (·.1) ++ ((s.groupWords g).map (·.1)).filter fun i => w.get i == 0

/-- With the words of a run put in these places, each word of the group is the run's. -/
theorem calWord_putChanged (w : WMap) {i : Nat} (hi : i < 2048) : (s.putWords g w (s.changed g w)).calWord g i = w.get i := by
  rw [calWord_putWords]
  split
  next => rfl
  next h =>
    obtain ⟨hw, hg⟩ := not_or.1 (mt List.mem_append.2 h)
    have h0 : w.get i = 0 := WMap.get_of_not_mem w hw
    rw [h0]
    exact calWord_of_not_mem s g hi fun hm => hg (List.mem_filter.2 ⟨hm, by rw [h0]; rfl⟩)

theorem putWords_cal (w : WMap) (l : List Nat) : (s.putWords g w l).cal = s.cal :=
  State.each_keeps State.cal _ (fun _ _ => by rfl) s l

theorem putWords_count (w : WMap) (l : List Nat) : (s.putWords g w l).count = s.count :=
  State.each_keeps State.count _ (fun _ _ => by rfl) s l

variable {s g} {w : CalWait}

/-- Values that may not take effect now wait (R448). -/
theorem calApply_waits (hw : (s.grp g).waiting = some w) (ht : s.calTakes g w.readyAt = false) : s.calApply g = s := by
  simp only [State.calApply, hw, ht, Bool.not_false, if_true]

/-- What a completed run leaves of its group (R450). -/
def CalGroup.completed (x : CalGroup) (w : CalWait) (now : Nat) : CalGroup :=
  { x with hasVal := true, base := some w.base, lastKind := w.kind, hostSet := false, waiting := none
           count := min (x.count + 1) 0xFFFFFFFF, stamp := now
           past := if w.kind = 1 then keepRuns ⟨w.base, w.words⟩ x.past else x.past }

/-- A register set or not, what is due of it is noted in the state with some register file. -/
theorem calRefresh_setReg_form (u : State) (p : Prop) [Decidable p] (r : RegName) (i : Nat) (v : Word) :
    ∃ rs, (if p then u.setReg r i v else u).calRefresh = State.calRefresh { u with regs := rs } := by
  split
  next => exact ⟨_, rfl⟩
  next => exact ⟨u.regs, rfl⟩

/-- Values that may take effect on a unit that held none do so whole; what a measured run of an anchor takes out of the steering comes
beside it, and what is due is noted. -/
theorem calApply_whole (hw : (s.grp g).waiting = some w) (hv : (s.grp g).hasVal = false) (ht : s.calTakes g w.readyAt = true) :
    ∃ rs, s.calApply g = State.calRefresh { (s.putWords g w.words (s.changed g w.words)).modGrp g
      (fun x => x.completed w s.now) with regs := rs } := by
  have hput : (s.changed g w.words).any
      (fun i => (s.putWords g w.words (s.changed g w.words)).calWord g i != w.words.get i) = false :=
    List.any_eq_false.2 fun i hi => by simp [calWord_putWords, hi]
  have hnow : (s.putWords g w.words (s.changed g w.words)).now = s.now := congrArg BitVec.toNat (putWords_count ..)
  simp only [State.calApply, CalGroup.completed, hw, hv, ht, Bool.not_true, Bool.false_eq_true, if_false]
  rw [← State.changed, ← State.putWords, hput, if_neg Bool.false_ne_true, hnow]
  exact calRefresh_setReg_form ..

/-- What they leave: the group is completed, and each of its words is the run's. -/
theorem calApply_takes (g : Fin 60) (hw : (s.grp g).waiting = some w) (hv : (s.grp g).hasVal = false)
    (ht : s.calTakes g w.readyAt = true) :
    ((s.calApply g).grp g).hold = ((s.grp g).completed w s.now).hold ∧
      ∀ i : Fin 2048, (s.calApply g).calWord g i = w.words.get i := by
  obtain ⟨rs, h⟩ := calApply_whole hw hv ht
  let v := s.putWords g w.words (s.changed g w.words)
  let u : State := { v.modGrp g (fun x => x.completed w s.now) with regs := rs }
  have htrims : (s.calApply g).trims = u.trims := (congrArg State.trims h).trans (trims_calRefresh u)
  have hgrp : u.grp g = (v.grp g).completed w s.now := State.grp_modGrp_self v g (fun x => x.completed w s.now) g.isLt
  have hkept : v.grp g = s.grp g := congrArg (fun x : Cal => x.groups[g.val]?.getD default) (putWords_cal ..)
  rw [hkept] at hgrp
  refine ⟨(hold_of_trims htrims g).trans (congrArg CalGroup.hold hgrp), fun i => ?_⟩
  exact (congrArg (·.get (g * 2048 + i)) (calVals_of_trims htrims)).trans (calWord_putChanged s g w.words i.isLt)

end Apply

/-- Settles O39: the end of a run by `calRunComplete_waits` and `calRunComplete_repeats`, waiting values by `calApply_takes` and
`calApply_waits`. That the base
is the mean of the temperatures rounded downward is the model's choice (log entry 145). -/
theorem calibrationValuesTakeEffect : Obligations.CalibrationValuesTakeEffect := by
  refine ⟨?_, ?_, ?_, ?_, ?_⟩
  · intro s g meas r t0 t1 hup hrl hr hg h0 h1 hq hdt
    obtain ⟨w, result, rs, h, hbase, hkind, hready⟩ := calRunComplete_waits (meas := meas) hr hg h0 h1 hq hdt
    have hgrp := grp_runEnded s g r w result
    exact completes_of_engine rfl hup hrl h
      ⟨rfl, rfl, congrArg CalGroup.steps hgrp, w, congrArg CalGroup.waiting hgrp, hbase, hkind, hready⟩
  · intro s g meas r t0 t1 hup hrl hr hg h0 h1 hq hdt hf hl
    obtain ⟨hvals, hrun, -⟩ := runBegun_facts s g r.steps
    exact completes_of_engine rfl hup hrl (calRunComplete_repeats hr hg h0 h1 hq hdt hf hl)
      ⟨hvals, hrun, waiting_runBegun g.isLt r.steps⟩
  · intro s g meas hr
    exact completes_of_idle_engine rfl (calRunComplete_idle meas hr)
  · intro s g w hup hrl hw hv ht
    obtain ⟨hhold, hwords⟩ := calApply_takes g hw hv ht
    exact completes_of_engine rfl hup hrl rfl
      ⟨congrArg GroupHold.waiting hhold, congrArg GroupHold.hasVal hhold, congrArg GroupHold.base hhold,
        congrArg GroupHold.lastKind hhold, congrArg GroupHold.stamp hhold, hwords⟩
  · intro s g w hw ht
    exact completes_of_idle_engine rfl (calApply_waits hw ht)

end Sys2Proof.Machine

namespace Sys2Proof.Machine

/-! ## Value words written by the host (R456) -/

section
variable {s : State} {w : Word}

@[simp] theorem hspiError_calVals (s : State) (a code : Nat) : (s.hspiError a code).calVals = s.calVals := by
  unfold State.hspiError; split <;> simp

/-- The step of CAL_TADDR moves that register alone. -/
theorem stepItem_form (s : State) : ∃ rs, s.stepItem = { s with regs := rs } := by
  unfold State.stepItem
  split
  · exact ⟨_, rfl⟩
  · exact ⟨s.regs, rfl⟩

/-- A value word of a group is set by the host, and CAL_TADDR steps on. -/
def State.tdataSet (s : State) (g i : Nat) (w : Word) : State :=
  ((s.setCalWord g i w).modGrp g fun x => { x with hostSet := true }).stepItem

theorem tdataSet_facts (s : State) {g : Nat} (i : Nat) (w : Word) (hg : g < 60) :
    (s.tdataSet g i w).calWord g i = w ∧ ((s.tdataSet g i w).grp g).hostSet = true ∧
      ∀ a, a ≠ g * 2048 + i → (s.tdataSet g i w).calVals.get a = s.calVals.get a := by
  obtain ⟨rs, h⟩ := stepItem_form ((s.setCalWord g i w).modGrp g fun x => { x with hostSet := true })
  have hvals : (s.tdataSet g i w).calVals = s.calVals.set (g * 2048 + i) w := congrArg State.calVals h
  have hcal := congrArg State.cal h
  have hgrp := State.grp_modGrp_self (s.setCalWord g i w) g (fun x => { x with hostSet := true }) hg
  refine ⟨?_, ?_, fun a ha => ?_⟩
  · rw [State.calWord, hvals, WMap.get_set_self]
  · exact (congrArg (fun x : Cal => (x.groups[g]?.getD default).hostSet) hcal).trans (congrArg CalGroup.hostSet hgrp)
  · rw [hvals, WMap.get_set_other _ _ _ _ (Ne.symm ha)]

theorem writeTData_sets {g i : Nat} (hg : s.fld Fields.CAL_TADDR_GROUP 0 = g) (hi : s.fld Fields.CAL_TADDR_ITEM 0 = i)
    (hgl : g < 60) (hil : i < calWords g) (ho : s.calOwned g = false) :
    s.writeReg .CAL_TDATA 0 w = (.ok, s.tdataSet g i w) := by
  have hin : ¬(60 ≤ g ∨ calWords g ≤ i) := by omega
  show s.writeTData w = _
  simp only [State.writeTData, hg, hi, if_neg hin, ho, Bool.false_eq_true, if_false]
  rfl

theorem writeTData_range (h : 60 ≤ s.fld Fields.CAL_TADDR_GROUP 0 ∨
    calWords (s.fld Fields.CAL_TADDR_GROUP 0) ≤ s.fld Fields.CAL_TADDR_ITEM 0) : s.writeReg .CAL_TDATA 0 w = (.range, s) :=
  if_pos h

end

/-! ## Images (R459 to R461, Table 11.10) -/

section
variable {s : State}

/-- The image of a state is of its groups, its values, its clock and its settings, not of CAL_SEQ. -/
theorem imageWords_nextImageSeq (s : State) (n : Nat) : s.nextImageSeq.imageWords n = s.imageWords n := by
  have hfld (f : Field) (h : f.reg ≠ .CAL_SEQ) : s.nextImageSeq.fld f 0 = s.fld f 0 :=
    State.fld_setReg_other _ _ _ _ _ _ fun e => h e.1.symm
  have hrec : s.nextImageSeq.imageRecord = s.imageRecord := rfl
  simp only [State.imageWords, hrec, hfld Fields.CAL_CFG_DT (by decide), hfld Fields.CAL_CFG_ANCMODE (by decide)]
  rfl

theorem reg_nextImageSeq (s : State) : s.nextImageSeq.reg .CAL_SEQ 0 = s.reg .CAL_SEQ 0 + 1 := State.reg_setReg_self ..

/-- The buffer holds an image of the next CAL_SEQ. -/
def State.exported (s : State) (image : WMap) : State :=
  ({ s.nextImageSeq with cal := { s.cal with img := image } } : State).setFld Fields.CAL_IMGSTAT_RESULT 0 0

/-- The result that CAL_IMGSTAT shows of a command. -/
theorem result_setFld (s : State) {r : Nat} (h : r < 16) : (s.setFld Fields.CAL_IMGSTAT_RESULT 0 r).fld Fields.CAL_IMGSTAT_RESULT 0 = r :=
  (State.fld_setFld_self s Fields.CAL_IMGSTAT_RESULT 0 r (by decide)).trans (Nat.mod_eq_of_lt h)

theorem exported_facts (s : State) (image : WMap) :
    (s.exported image).reg .CAL_SEQ 0 = s.reg .CAL_SEQ 0 + 1 ∧ (s.exported image).fld Fields.CAL_IMGSTAT_RESULT 0 = 0 ∧
      (s.exported image).calVals = s.calVals ∧ (s.exported image).cal.img = image := by
  refine ⟨?_, result_setFld _ (by decide), rfl, rfl⟩
  rw [State.exported, reg_setFld_ne _ _ _ _ _ _ (by decide)]
  exact reg_nextImageSeq s

/-- EXPORT fills the buffer with the groups that hold values. -/
theorem calExport_fills (s : State) :
    ∃ image, s.calExport = s.exported image ∧ image = WMap.setMany [] 0 (s.imageWords (s.reg .CAL_SEQ 0 + 1).toNat) := by
  refine ⟨_, ?_, rfl⟩
  simp only [State.calExport, reg_nextImageSeq, imageWords_nextImageSeq]
  rfl

theorem imageCheck_lt (ser : Nat) (ws : List Word) : imageCheck ser ws < 16 := by
  unfold imageCheck
  extract_lets len gs body
  repeat' split
  all_goals decide

/-! ### Records taken -/

/-- A group's values are of an image (R460). -/
def CalGroup.isImport (x : CalGroup) : Prop := x.hasVal = true ∧ x.lastKind = 3 ∧ x.imported = true

theorem takeImageRecord_regs (s : State) (g : Nat) (r : List Word) : (s.takeImageRecord g r).regs = s.regs := by
  unfold State.takeImageRecord
  extract_lets vals u base other
  exact State.each_keeps State.regs _ (fun _ _ => by rfl) s _

/-- A record makes its group an import, and leaves every import one. -/
theorem takeImageRecord_imports (s : State) (g m : Nat) (r : List Word) (hm : m < 60) (h : g = m ∨ (s.grp m).isImport) :
    ((s.takeImageRecord g r).grp m).isImport := by
  unfold State.takeImageRecord
  extract_lets vals u base other
  by_cases hgm : g = m
  · subst hgm
    rw [State.grp_modGrp_self _ _ _ hm]
    exact ⟨rfl, rfl, rfl⟩
  · rw [grp_modGrp_other _ _ _ hgm]
    have hu : u.grp m = s.grp m := State.each_keeps (·.grp m) _ (fun _ _ => by rfl) s _
    rw [hu]
    exact h.resolve_left hgm

/-- The records of an image, taken in turn. -/
def State.takeRecords (s : State) (rs : List (Nat × List Word)) : State := rs.foldl (fun s (g, r) => s.takeImageRecord g r) s

theorem takeRecords_regs (s : State) (rs : List (Nat × List Word)) : (s.takeRecords rs).regs = s.regs :=
  List.foldlRecOn (motive := fun t : State => t.regs = s.regs) rs _ rfl fun t ht _ _ => (takeImageRecord_regs t _ _).trans ht

/-- Once the records of a list of groups have been taken, each of them is an import. -/
theorem takeRecords_imports (s : State) (gs : List Nat) (ws : List Word) {m : Nat} (hm : m < 60)
    (h : m ∈ gs ∨ (s.grp m).isImport) : ((s.takeRecords (imageRecords gs ws)).grp m).isImport := by
  induction gs generalizing s ws with
  | nil => exact h.resolve_left List.not_mem_nil
  | cons g gs ih =>
    refine ih (s.takeImageRecord g (ws.take (8 + calWords g))) (ws.drop (8 + calWords g)) ?_
    by_cases hgs : m ∈ gs
    · exact .inl hgs
    · refine .inr (takeImageRecord_imports s g m _ hm (h.imp_left fun hmem => ?_))
      exact ((List.mem_cons.1 hmem).resolve_right hgs).symm

/-- An image names groups of the device. -/
theorem imageGroups_lt {ws : List Word} {g : Nat} (h : g ∈ imageGroups ws) : g < 60 := by
  have hbits (w : Word) (n k : Nat) (hk : k ∈ bitsOf w n) : k < n := List.mem_range.1 (List.mem_filter.1 hk).1
  rcases List.mem_append.1 h with h | h
  · have := hbits _ _ _ h
    omega
  · obtain ⟨k, hk, rfl⟩ := List.mem_map.1 h
    have := hbits _ _ _ hk
    omega

theorem takeImage_regs (s : State) (ws : List Word) : (s.takeImage ws).regs = s.regs :=
  (regs_of_trims (trims_calRefresh (s.takeRecords (imageRecords (imageGroups ws) (ws.drop 16))))).trans (takeRecords_regs ..)

/-- Each group that a taken image names is an import. -/
theorem takeImage_imports (s : State) (ws : List Word) {g : Nat} (hg : g ∈ imageGroups ws) : ((s.takeImage ws).grp g).isImport := by
  let u := s.takeRecords (imageRecords (imageGroups ws) (ws.drop 16))
  obtain ⟨hval, hkind, himp⟩ : (u.grp g).isImport := takeRecords_imports s _ _ (imageGroups_lt hg) (.inl hg)
  have hhold : ((s.takeImage ws).grp g).hold = (u.grp g).hold := hold_of_trims (trims_calRefresh u) g
  exact ⟨(congrArg GroupHold.hasVal hhold).trans hval, (congrArg GroupHold.lastKind hhold).trans hkind,
    (congrArg GroupHold.imported hhold).trans himp⟩

/-! ### IMPORT -/

/-- The words of the image in the buffer. -/
def State.bufferImage (s : State) : List Word := s.cal.img.slice 0 (min 32768 (s.cal.img.get 1).toNat)

/-- An import with result 0 takes the image; one with another changes nothing but its result, and raises IMPORT_REJECT. -/
def State.importEnds (s : State) (r : Nat) : State :=
  let t := s.setFld Fields.CAL_IMGSTAT_RESULT 0 r
  if r = 0 then t.takeImage s.bufferImage else t.raiseEvent Src.cal_IMPORT_REJECT 0

theorem calImport_busy (h : s.anyRunning = true) : s.calImport = s.importEnds 1 := by
  simp only [State.calImport, h, Bool.true_or, if_true]
  rfl

/-- With nothing in use, the checks of Table 11.10 say what becomes of the image. -/
theorem calImport_checks (hs : s.anyRunning = false) (hras : ∀ r : Fin 2, s.flag Fields.RAS_CFG_EN r = false) (hr : s.cal.run = none)
    (h0 : s.cal.img.get 0 = 0xCA1B0001#32) (h1 : (s.cal.img.get 1).toNat ≤ 32768) :
    s.calImport = s.importEnds (imageCheck s.otp.serial.toNat s.bufferImage) := by
  have hfree : ((List.range 2).any fun r => s.flag Fields.RAS_CFG_EN r) = false :=
    List.any_eq_false.2 fun r hr => by simp [hras ⟨r, List.mem_range.1 hr⟩]
  simp only [State.calImport, hs, hfree, hr, h0, Nat.not_lt.2 h1]
  rfl

theorem result_importEnds {r : Nat} (h : r < 16) : (s.importEnds r).fld Fields.CAL_IMGSTAT_RESULT 0 = r := by
  unfold State.importEnds
  extract_lets t
  split
  · exact (fld_of_reg (reg_of_regs (takeImage_regs ..) _ _)).trans (result_setFld s h)
  · exact (fld_of_reg (reg_of_regs (raiseEvent_regs ..) _ _)).trans (result_setFld s h)

theorem importEnds_takes {g : Nat} (hg : g ∈ imageGroups s.bufferImage) : ((s.importEnds 0).grp g).isImport := by
  rw [State.importEnds, if_pos rfl]
  exact takeImage_imports _ _ hg

theorem importEnds_rejects {r : Nat} (h : r ≠ 0) : (s.importEnds r).cal = s.cal ∧ (s.importEnds r).calVals = s.calVals ∧
    ∃ x : Raise, (s.importEnds r).raises = s.raises ++ [x] ∧ x.fid = Src.cal_IMPORT_REJECT := by
  unfold State.importEnds
  extract_lets t
  obtain ⟨x, hx, hfid⟩ := raiseEvent_of_cal t Src.cal_IMPORT_REJECT 0 rfl
  rw [if_neg h, hx]
  exact ⟨rfl, rfl, x, rfl, hfid⟩

end

/-! ## Images committed (R462, R557) -/

section
variable {s : State}

theorem calCommit_busy (h : s.calCommitting = true) : s.calCommit = s := by
  rw [State.calCommit, if_pos h]

/-- With the ledger read-only a commit ends with its result alone, and COMMIT_FAIL is raised. -/
theorem calCommit_readOnly (h : s.calCommitting = false) (hr : s.store.readOnly = true) :
    s.calCommit.reg .CAL_SEQ 0 = s.reg .CAL_SEQ 0 ∧ s.calCommit.fld Fields.CAL_IMGSTAT_RESULT 0 = 7 ∧
      ∃ x : Raise, s.calCommit.raises = s.raises ++ [x] ∧ x.fid = Src.cal_COMMIT_FAIL := by
  let t := s.setFld Fields.CAL_IMGSTAT_RESULT 0 7
  have hc : s.calCommit = t.raiseEvent Src.cal_COMMIT_FAIL 0 := by
    rw [State.calCommit, h, if_neg Bool.false_ne_true, if_pos hr]
  obtain ⟨x, hx, hfid⟩ := raiseEvent_of_cal t Src.cal_COMMIT_FAIL 0 rfl
  rw [hc, hx]
  exact ⟨reg_setFld_ne s _ 0 7 _ 0 (by decide), result_setFld s (by decide), x, rfl, hfid⟩

/-- A request that waits at the end of the queue waits on, or is being written, when the store is kicked. -/
theorem storeKick_commits {q : Queued} (hq : q ∈ s.store.queue) (hk : q.kind = 2) : s.storeKick.calCommitting = true := by
  have hwaits {u : State} {l : List Queued} (hl : u.store.queue = l) (h : q ∈ l) : u.calCommitting = true := by
    rw [State.calCommitting, Bool.or_eq_true, hl]
    exact .inl (List.any_eq_true.2 ⟨q, h, by rw [hk]; rfl⟩)
  unfold State.storeKick
  split
  · exact hwaits rfl hq
  · split
    next he => rw [he] at hq; cases hq
    next p rest he =>
      rw [he] at hq
      split
      · exact hwaits he hq
      · extract_lets seq first u v
        rcases List.mem_cons.1 hq with rfl | hrest
        · rw [State.calCommitting, Bool.or_eq_true]
          exact .inr (by show (q.kind == 2) = true; rw [hk]; rfl)
        · exact hwaits rfl hrest

/-- The store's kick writes no register but the next sequence number of the ring. -/
theorem storeKick_reg (s : State) (r : RegName) (i : Nat) (h : r ≠ .STORE_NEXTSEQ) : s.storeKick.reg r i = s.reg r i := by
  unfold State.storeKick
  split
  · rfl
  · split
    · rfl
    · split
      · rfl
      · extract_lets seq first u v
        exact State.reg_setReg_other u _ _ _ _ _ fun e => h e.1.symm

/-- A commit takes the next CAL_SEQ, and its image waits in the ledger's queue or is being written. -/
theorem calCommit_requests (h : s.calCommitting = false) (hr : s.store.readOnly = false) :
    s.calCommit.reg .CAL_SEQ 0 = s.reg .CAL_SEQ 0 + 1 ∧ s.calCommit.fld Fields.CAL_IMGSTAT_RESULT 0 = 0 ∧
      s.calCommit.calCommitting = true := by
  have hnone : (s.store.queue.any fun q => q.kind == 2) = false := (Bool.or_eq_false_iff.1 h).1
  let q : Queued := ⟨2, s.nextImageSeq.imageWords (s.nextImageSeq.reg .CAL_SEQ 0).toNat⟩
  let u := s.nextImageSeq.setFld Fields.CAL_IMGSTAT_RESULT 0 0
  have hc : s.calCommit = (u.modStore fun x => { x with queue := x.queue ++ [q] }).storeKick := by
    have hcommit : s.calCommit = u.requestCommit 2 q.payload := by
      rw [State.calCommit, h, hr, if_neg Bool.false_ne_true, if_neg Bool.false_ne_true]
    have hu : (u.store.queue.any fun q => q.kind == 2) = false := hnone
    simp only [hcommit, State.requestCommit, State.modStore, hu, Bool.false_eq_true, if_false]
    rfl
  have hreg (r : RegName) (i : Nat) (hne : r ≠ .STORE_NEXTSEQ) : s.calCommit.reg r i = u.reg r i := by
    rw [hc, storeKick_reg _ _ _ hne]; rfl
  refine ⟨?_, ?_, ?_⟩
  · rw [hreg _ _ (by decide), reg_setFld_ne _ _ _ _ _ _ (by decide), reg_nextImageSeq]
  · exact (fld_of_reg (hreg _ _ (by decide))).trans (result_setFld _ (by decide))
  · rw [hc]
    exact storeKick_commits (q := q) (List.mem_append_right _ List.mem_cons_self) rfl

end

/-- Settles O40: value words by `writeTData_sets`, EXPORT by `calExport_fills`, IMPORT by `calImport_checks` and what an import ends
with, COMMIT by `calCommit_requests` and its refusals. That every word of the buffer beyond an image reads 0 is the model's choice (log
entry 125). -/
theorem calibrationImages : Obligations.CalibrationImages := by
  refine ⟨?_, ?_, ?_, ?_, ?_, ?_, ?_, ?_⟩
  · intro s w h hg hi ho
    obtain ⟨fl, ht⟩ := portWrite_unsaved h (placed_of_command .CAL_TDATA 0 (by decide) (by decide)) rfl
      (writeTData_sets (w := w) rfl rfl hg hi ho) rfl rfl
    exact ⟨_, rfl, ht ▸ ⟨⟨rfl, rfl⟩, tdataSet_facts s _ w hg⟩⟩
  · intro s w h hr
    have ht := portWrite_refused s s _ _ w .range h (placed_of_command .CAL_TDATA 0 (by decide) (by decide)) rfl
      (writeTData_range hr) (by decide) (by decide)
    exact ⟨_, rfl, ht ▸ ⟨⟨by simp [State.modHspi], hspiError_flag ..⟩, hspiError_calVals ..⟩⟩
  · intro s h
    obtain ⟨image, hx, himage⟩ := calExport_fills s
    obtain ⟨hseq, hres, hvals, himg⟩ := exported_facts s image
    exact completes_of_calCmd rfl h ((writeCalCmd_export s).trans hx) fun fl => ⟨hseq, hres, hvals, ⟨rfl, rfl⟩, himg.trans himage⟩
  · intro s h hrun
    obtain ⟨hcal, hvals, hraise⟩ := importEnds_rejects (s := s) (r := 1) (by decide)
    exact completes_of_calCmd rfl h ((writeCalCmd_import s).trans (calImport_busy hrun)) fun fl =>
      ⟨result_importEnds (by decide), hcal, hvals, hraise⟩
  · intro s h hrun hras hr h0 h1 ws r
    have hx : s.calImport = s.importEnds r := calImport_checks hrun hras hr h0 h1
    have hres : (s.importEnds r).fld Fields.CAL_IMGSTAT_RESULT 0 = r := result_importEnds (imageCheck_lt _ _)
    have htakes (hr0 : r = 0) (g : Nat) (hg : g ∈ imageGroups ws) : ((s.importEnds r).grp g).isImport := by
      rw [hr0]
      exact importEnds_takes hg
    clear_value r ws
    exact completes_of_calCmd rfl h ((writeCalCmd_import s).trans hx) fun fl => ⟨hres, ⟨rfl, rfl⟩, htakes, importEnds_rejects⟩
  · intro s h hc
    exact completes_of_calCmd rfl h ((writeCalCmd_commit s).trans (calCommit_busy hc)) fun fl => ⟨rfl, rfl, rfl, rfl, rfl⟩
  · intro s h hc hr
    obtain ⟨hseq, hres, hcom⟩ := calCommit_requests hc hr
    exact completes_of_calCmd rfl h (writeCalCmd_commit s) fun fl => ⟨hseq, hres, hcom, rfl, rfl⟩
  · intro s h hc hr
    exact completes_of_calCmd rfl h (writeCalCmd_commit s) fun fl => calCommit_readOnly hc hr

end Sys2Proof.Machine

namespace Sys2Proof.Machine

/-! ## What a HALTED device keeps

HALTED itself, the supply and PWR_STATE as one value: everything that still happens in HALTED leaves it alone. -/

/-- HALTED, VDD_AON and the power state. -/
def State.supply (s : State) : Bool × Bool × Word := (s.halted, s.pins.aon, s.reg .PWR_STATE 0)

section
variable (s : State)

/-! ### The named updates

Their proofs stand in parentheses, so that `simp` takes them for equations and may use them under `supply_each`. -/

@[simp] theorem supply_setCore (n : Nat) (x : Core) : (s.setCore n x).supply = s.supply := (rfl)
@[simp] theorem supply_modCore (n : Nat) (f : Core → Core) : (s.modCore n f).supply = s.supply := (rfl)
@[simp] theorem supply_modOut (n : Nat) (f : Output → Output) : (s.modOut n f).supply = s.supply := (rfl)
@[simp] theorem supply_modAnc (n : Nat) (f : Anchor → Anchor) : (s.modAnc n f).supply = s.supply := (rfl)
@[simp] theorem supply_modRef (n : Nat) (f : RefInput → RefInput) : (s.modRef n f).supply = s.supply := (rfl)
@[simp] theorem supply_modRas (n : Nat) (f : Raster → Raster) : (s.modRas n f).supply = s.supply := (rfl)
@[simp] theorem supply_setStn (n : Nat) (t : Station) : (s.setStn n t).supply = s.supply := (rfl)
@[simp] theorem supply_modStn (n : Nat) (f : Station → Station) : (s.modStn n f).supply = s.supply := (rfl)
@[simp] theorem supply_modSlot (n k : Nat) (f : SlotSt → SlotSt) : (s.modSlot n k f).supply = s.supply := (rfl)
@[simp] theorem supply_setWin (n : Nat) (x : FaultWindow) : (s.setWin n x).supply = s.supply := (rfl)
@[simp] theorem supply_modWin (n : Nat) (f : FaultWindow → FaultWindow) : (s.modWin n f).supply = s.supply := (rfl)
@[simp] theorem supply_modLane (n : Nat) (f : Lane → Lane) : (s.modLane n f).supply = s.supply := (rfl)
@[simp] theorem supply_modLng (f : LaneGroup → LaneGroup) : (s.modLng f).supply = s.supply := (rfl)
@[simp] theorem supply_modGrp (g : Nat) (f : CalGroup → CalGroup) : (s.modGrp g f).supply = s.supply := (rfl)
@[simp] theorem supply_modSvc (f : Svc → Svc) : (s.modSvc f).supply = s.supply := (rfl)
@[simp] theorem supply_modHspi (f : Hspi → Hspi) : (s.modHspi f).supply = s.supply := (rfl)
@[simp] theorem supply_modFleet (f : Fleet → Fleet) : (s.modFleet f).supply = s.supply := (rfl)
@[simp] theorem supply_endLevel (f : Fid) : (s.endLevel f).supply = s.supply := (rfl)
@[simp] theorem supply_record (c i r k : Nat) (a : Word) : (s.record c i r k a).supply = s.supply := (rfl)
@[simp] theorem supply_lapseEntry (f : Fid) (k t : Nat) (w : Word) : (s.lapseEntry f k t w).supply = s.supply := (rfl)
@[simp] theorem supply_coreBoundary (c : Nat) : (s.coreBoundary c).supply = s.supply := (rfl)
@[simp] theorem supply_outBoundary (o : Nat) : (s.outBoundary o).supply = s.supply := (rfl)
@[simp] theorem supply_setRole (c : Nat) (r : CoreRole) (n : Nat) : (s.setRole c r n).supply = s.supply := (rfl)
@[simp] theorem supply_closeLoop (c k : Nat) : (s.closeLoop c k).supply = s.supply := (rfl)
@[simp] theorem supply_stopStation (n : Nat) (r : RunState) : (s.stopStation n r).supply = s.supply := (rfl)
@[simp] theorem supply_reap (n : Nat) : (s.reap n).supply = s.supply := (rfl)
@[simp] theorem supply_setDue (d d' : SyncDue) : (s.setDue d d').supply = s.supply := (rfl)

@[simp] theorem supply_setReg (r : RegName) (i : Nat) (v : Word) (h : r ≠ .PWR_STATE) : (s.setReg r i v).supply = s.supply := by
  simp [State.supply, State.reg_setReg_other s r i v .PWR_STATE 0 fun e => h e.1]

@[simp] theorem supply_setFld (f : Field) (i v : Nat) (h : f.reg ≠ .PWR_STATE) : (s.setFld f i v).supply = s.supply :=
  supply_setReg s _ _ _ h

@[simp] theorem supply_bump (f : Field) (i k : Nat) (h : f.reg ≠ .PWR_STATE) : (s.bump f i k).supply = s.supply :=
  supply_setFld s _ _ _ h

@[simp] theorem supply_stick (f : Field) (i : Nat) (h : f.reg ≠ .PWR_STATE) : (s.stick f i).supply = s.supply :=
  supply_setFld s _ _ _ h

@[simp] theorem supply_each (l : List Nat) (f : State → Nat → State) (h : ∀ s n, (f s n).supply = s.supply) :
    (s.each l f).supply = s.supply := State.each_keeps State.supply f h s l

theorem supply_foldl {α : Type} (f : State → α → State) (h : ∀ s x, (f s x).supply = s.supply) (l : List α) :
    (l.foldl f s).supply = s.supply := by
  induction l generalizing s with
  | nil => rfl
  | cons x l ih => rw [List.foldl_cons, ih, h]

/-! ### Faults and lapses -/

@[simp] theorem supply_raiseAs (f : Fid) (k : Nat) (a : Word) (x y : Bool) : (s.raiseAs f k a x y).supply = s.supply := by
  unfold State.raiseAs; split <;> rfl

@[simp] theorem supply_raiseEvent (f : Fid) (a : Word) : (s.raiseEvent f a).supply = s.supply := supply_raiseAs ..

@[simp] theorem supply_beginLevel (f : Fid) (a : Word) : (s.beginLevel f a).supply = s.supply := by
  simp [State.beginLevel, ↓apply_ite State.supply]

@[simp] theorem supply_setLevel (f : Fid) (a : Word) (b : Bool) : (s.setLevel f a b).supply = s.supply := by
  cases b <;> simp [State.setLevel]

@[simp] theorem supply_beginLapse (f : Fid) (k : Nat) (w : Word) (e : LapseEnd) : (s.beginLapse f k w e).supply = s.supply := by
  unfold State.beginLapse; split <;> rfl

@[simp] theorem supply_lapseWith (f : Fid) (w : Word) (e : LapseEnd) : (s.lapseWith f w e).supply = s.supply := by
  simp only [State.lapseWith]
  split
  · rfl
  · split
    · rfl
    · exact supply_beginLapse ..

@[simp] theorem supply_endLapses (p : Lapse → Bool) : (s.endLapses p).supply = s.supply :=
  supply_foldl s _ (fun s _ => supply_lapseEntry s _ _ _ _) _

@[simp] theorem supply_noteLate (n t : Nat) : (s.noteLate n t).supply = s.supply := by
  simp only [State.noteLate]
  split <;> simp +decide

/-! ### Cores and outputs -/

@[simp] theorem supply_startAcq (c : Nat) (cold : Bool) (m : BandMode) (k : Nat) : (s.startAcq c cold m k).supply = s.supply := by
  simp [State.startAcq, ↓apply_ite State.supply]

@[simp] theorem supply_recomputePsi (o : Nat) : (s.recomputePsi o).supply = s.supply := by
  unfold State.recomputePsi; split <;> rfl

@[simp] theorem supply_restartOut (o k : Nat) : (s.restartOut o k).supply = s.supply := by
  simp [State.restartOut]

@[simp] theorem supply_endRace (c : Nat) : (s.endRace c).supply = s.supply := by
  unfold State.endRace; split <;> rfl

@[simp] theorem supply_loadCore (c : Nat) (x : Setting) (b d : Nat) (th : Rat) (m : BandMode) :
    (s.loadCore c x b d th m).supply = s.supply := by
  simp [State.loadCore, ↓apply_ite State.supply]

@[simp] theorem supply_loadPsi (c : Nat) (b : Bool) : (s.loadPsi c b).supply = s.supply := by
  simp [State.loadPsi, State.recomputePsiOf, ↓apply_ite State.supply]

@[simp] theorem supply_stage (c : Nat) (x : Setting) (b d : Nat) : (s.stage c x b d).supply = s.supply := by
  simp [State.stage]

@[simp] theorem supply_endIdleOf (l : List Nat) : (s.endIdleOf l).supply = s.supply :=
  supply_each _ _ _ fun s o => by split <;> rfl

@[simp] theorem supply_masked (n : Nat) (w : Word) : (s.masked n w).supply = s.supply := by
  simp [State.masked, ↓apply_ite State.supply]

/-! ### Effects as they release -/

@[simp] theorem supply_dropHop (n : Nat) (f : Fid) : (s.dropHop n f).supply = s.supply := by
  simp +decide [State.dropHop]

@[simp] theorem supply_hopOutput (o c : Nat) (p : Profile) (b : Bool) : (s.hopOutput o c p b).supply = s.supply := by
  unfold State.hopOutput
  extract_lets d m s1 s2 s3
  have h2 : s2.supply = s.supply :=
    (supply_setFld _ _ _ _ (by decide)).trans ((supply_setFld _ _ _ _ (by decide)).trans (supply_outBoundary ..))
  have h3 : s3.supply = s.supply := by
    simp only [s3]
    split
    · exact h2
    · exact (supply_modOut ..).trans ((supply_setFld s2 _ _ _ (by decide)).trans h2)
  repeat' split
  all_goals simp [h3]

@[simp] theorem supply_hopDone (n c p : Nat) (w : Word) (f : Field) (h : f.reg ≠ .PWR_STATE) :
    (s.hopDone n c p w f).supply = s.supply := by
  simp [State.hopDone, ↓apply_ite State.supply, h]

@[simp] theorem supply_guardPlan (n : Nat) (l : List Nat) (x : Setting) (d : Nat) : (s.guardPlan n l x d).supply = s.supply := by
  simp only [State.guardPlan]
  split
  · exact (supply_raiseEvent ..).trans (supply_each _ _ _ fun _ _ => supply_modOut ..)
  · exact supply_each _ _ _ fun _ _ => supply_modOut ..

@[simp] theorem supply_guardPlanGlide (n : Nat) (l : List Nat) (x : Setting) : (s.guardPlanGlide n l x).supply = s.supply := by
  simp only [State.guardPlanGlide]
  split
  · exact (supply_raiseEvent ..).trans (supply_each _ _ _ fun _ _ => supply_modOut ..)
  · exact supply_each _ _ _ fun _ _ => supply_modOut ..

@[simp] theorem supply_coldRelease (n k c p i t : Nat) : (s.coldRelease n k c p i t).supply = s.supply := by
  unfold State.coldRelease
  extract_lets q t s1 outs fed s2 s3 x theta s4 s5 s6 hold hold' s7 s8 s9
  have h3 : s3.supply = s.supply :=
    (supply_endIdleOf ..).trans ((supply_each _ _ _ fun _ _ => supply_modOut ..).trans (supply_masked ..))
  have h4 : s4.supply = s.supply := by
    simp only [s4, apply_ite State.supply, supply_stage, supply_coreBoundary, supply_loadCore, ite_self, h3]
  have h8 : s8.supply = s.supply := (supply_each _ _ _ fun _ _ => supply_hopOutput ..).trans ((supply_loadPsi ..).trans h4)
  have h9 : s9.supply = s.supply := by
    simp only [s9]
    split
    · exact (supply_each _ _ _ fun _ _ => supply_modOut ..).trans h8
    · exact h8
  exact (supply_hopDone _ _ _ _ _ _ (by decide)).trans ((supply_guardPlan ..).trans h9)

@[simp] theorem supply_swapTo (n k c d : Nat) (e : Effect) (p : Nat) : (s.swapTo n k c d e p).supply = s.supply := by
  unfold State.swapTo
  extract_lets x ws q t old free s1 outs fed s2 s3 s4 s5 cold from_ s6 s7 s8 s9 s10 s11
  have h2 : s2.supply = s.supply := by
    simp only [s2, apply_ite State.supply, supply_endRace, ite_self]
    exact supply_masked ..
  have h4 : s4.supply = s.supply :=
    (supply_each _ _ _ fun _ _ => (supply_modOut ..).trans (supply_hopOutput ..)).trans ((supply_stage ..).trans h2)
  have h6 : s6.supply = s.supply :=
    (supply_setRole ..).trans ((supply_setRole ..).trans ((supply_each _ _ _ fun _ _ => supply_modOut ..).trans h4))
  have h8 : s8.supply = s.supply := (supply_modSlot ..).trans ((supply_modCore ..).trans h6)
  have h10 : s10.supply = s.supply := (supply_modStn ..).trans ((supply_modSlot ..).trans h8)
  have h11 : s11.supply = s.supply := (supply_guardPlan ..).trans h10
  exact (supply_hopDone _ _ _ _ _ _ (by decide)).trans ((supply_coreBoundary ..).trans ((supply_modCore ..).trans h11))

@[simp] theorem supply_swapRelease (n : Nat) (e : Effect) (p : Nat) : (s.swapRelease n e p).supply = s.supply := by
  simp only [State.swapRelease]
  repeat' split
  all_goals simp

@[simp] theorem supply_coldHop (n k p i t : Nat) : (s.coldHop n k p i t).supply = s.supply := by
  simp only [State.coldHop]
  repeat' split
  all_goals simp

@[simp] theorem supply_glideOn (c : Nat) (x : Setting) (t : Nat) : (s.glideOn c x t).supply = s.supply := by
  simp [State.glideOn, State.startGlide, ↓apply_ite State.supply]

@[simp] theorem supply_glideRelease (n k p i : Nat) : (s.glideRelease n k p i).supply = s.supply := by
  simp only [State.glideRelease]
  repeat' split
  all_goals simp +decide

@[simp] theorem supply_outg (n : Nat) (u : Bool) (l : List Nat) : (s.outg n u l).supply = s.supply :=
  supply_each _ _ _ fun s o => by
    repeat' split
    all_goals simp

@[simp] theorem supply_sysOp (o op : Nat) : (s.sysOp o op).supply = s.supply := by
  simp only [State.sysOp]
  repeat' split
  all_goals simp +decide [State.sysDrop]

@[simp] theorem supply_statEffect (n : Nat) (m v : BitVec 8) : (s.statEffect n m v).supply = s.supply :=
  supply_each _ _ _ fun s k => by split <;> rfl

@[simp] theorem supply_send0 (w : Word) (t k f : Nat) : (s.send0 w t k f).supply = s.supply := by
  simp +decide [State.send0, State.c0Drop, ↓apply_ite State.supply]

@[simp] theorem supply_queueCells (k : Nat) (l : List Cell) (n : Nat) : (s.queueCells k l n).supply = s.supply := by
  simp +decide [State.queueCells, ↓apply_ite State.supply]

@[simp] theorem supply_send1 (w : Word) (t f : Nat) : (s.send1 w t f).supply = s.supply := by
  simp [State.send1, State.sendCells, ↓apply_ite State.supply]

theorem supply_onOuts (n : Nat) (w : Word) (f : State → List Nat → State) (h : ∀ s l, (f s l).supply = s.supply) :
    (s.onOuts n w f).supply = s.supply := by
  simp [State.onOuts, h]

@[simp] theorem supply_applyAct (n : Nat) (e : Effect) : (s.applyAct n e).supply = s.supply := by
  unfold State.applyAct
  cases e.act with
  | swap p => simp
  | cold k p => simp
  | glide k p => simp
  | outg u outs => exact supply_onOuts _ _ _ _ fun s l => by simp
  | dset d outs => exact supply_onOuts _ _ _ _ fun s l => supply_each _ _ _ fun s o => by simp +decide
  | divrst outs => exact supply_onOuts _ _ _ _ fun s l => supply_each _ _ _ fun s o => by simp
  | sysref op outs => exact supply_onOuts _ _ _ _ fun s l => supply_each _ _ _ fun s o => by simp
  | stat m v => simp
  | send0 p t k f => simp
  | send1 w t f => simp
  | halt => simp
  | idle k w =>
    simp only
    split <;> simp

@[simp] theorem supply_releaseFront (n : Nat) (e : Effect) : (s.releaseFront n e).supply = s.supply := by
  simp [State.releaseFront]

@[simp] theorem supply_lateEffect (n : Nat) : (s.lateEffect n).supply = s.supply := by
  unfold State.lateEffect
  split
  · simp [apply_ite State.supply]
  · rfl

@[simp] theorem supply_coldUngate (n : Nat) : (s.coldUngate n).supply = s.supply := by
  unfold State.coldUngate
  refine (supply_foldl _ _ (fun s w => ?_) _).trans (supply_modStn ..)
  simp [apply_ite State.supply]

@[simp] theorem supply_idleEnd (c : Nat) : (s.idleEnd c).supply = s.supply := by
  unfold State.idleEnd
  split
  · simp [apply_ite State.supply]
  · rfl

@[simp] theorem supply_endGlide (c : Nat) : (s.endGlide c).supply = s.supply := by
  simp only [State.endGlide]
  repeat' split
  all_goals simp

@[simp] theorem supply_glideDue (c : Nat) : (s.glideDue c).supply = s.supply := by
  unfold State.glideDue
  split
  · simp [apply_ite State.supply]
  · rfl

/-! ### The tick -/

@[simp] theorem supply_startRaces : s.startRaces.supply = s.supply :=
  supply_each _ _ _ fun s c => by
    simp only
    repeat' split
    all_goals simp [State.startRace]

@[simp] theorem supply_settleOut (o : Nat) : (s.settleOut o).supply = s.supply := by
  simp only [State.settleOut]
  repeat' split
  all_goals rfl

@[simp] theorem supply_rasWatch (r : Nat) : (s.rasWatch r).supply = s.supply := by
  simp [State.rasWatch, ↓apply_ite State.supply]

@[simp] theorem supply_calLeft (n g : Nat) : (s.calLeft n g).supply = s.supply := by
  simp only [State.calLeft, ↓apply_ite State.supply, supply_endLevel, supply_endLapses, supply_modGrp, ite_self]
  rfl

@[simp] theorem supply_calUses (n : Nat) : (s.calUses n).supply = s.supply := by
  simp [State.calUses, ↓apply_ite State.supply]

@[simp] theorem supply_settle : s.settle.supply = s.supply := by
  simp [State.settle]

@[simp] theorem supply_outOn (o : Nat) : (s.outOn o).supply = s.supply := by
  unfold State.outOn
  split
  · simp [apply_ite State.supply]
  · rfl

@[simp] theorem supply_thetaUpdate (n : Nat) : (s.thetaUpdate n).supply = s.supply := by
  simp +decide [State.thetaUpdate, ↓apply_ite State.supply]

@[simp] theorem supply_sourceTick : s.sourceTick.supply = s.supply := by
  simp only [State.sourceTick]
  repeat' split
  all_goals simp

@[simp] theorem supply_steerTick : s.steerTick.supply = s.supply := by
  simp only [State.steerTick]
  repeat' split
  all_goals rfl

@[simp] theorem supply_lanesTick : s.lanesTick.supply = s.supply := by
  simp [State.lanesTick, ↓apply_ite State.supply]

@[simp] theorem supply_perrUpdate (c : Nat) : (s.perrUpdate c).supply = s.supply := by
  simp [State.perrUpdate, ↓apply_ite State.supply]

@[simp] theorem supply_compare (c : Nat) (e : Rat) : (s.compare c e).supply = s.supply := by
  simp [State.compare, ↓apply_ite State.supply]

@[simp] theorem supply_coreTick (c : Nat) (e : Option CoreEdge) : (s.coreTick c e).supply = s.supply := by
  simp only [State.coreTick]
  repeat' split
  all_goals simp

@[simp] theorem supply_finishTransfer : s.finishTransfer.supply = s.supply := by
  unfold State.finishTransfer
  split
  · split
    · exact supply_raiseEvent ..
    · rfl
  · rfl

@[simp] theorem supply_wakeCores (a : Nat) : (s.wakeCores a).supply = s.supply :=
  supply_each _ _ _ fun _ _ => supply_startAcq ..

@[simp] theorem supply_outerLoopRead (a : Nat) (x y : Int) : (s.outerLoopRead a x y).supply = s.supply := by
  simp [State.outerLoopRead, ↓apply_ite State.supply]

@[simp] theorem supply_setTime (x c : Nat) : (s.setTime x c).supply = s.supply := by
  simp +decide [State.setTime, ↓apply_ite State.supply]

@[simp] theorem supply_updateCond : s.updateCond.supply = s.supply := supply_setTime ..

@[simp] theorem supply_lead (a : Nat) : (s.lead a).supply = s.supply := by
  simp only [State.lead, State.acquireRef, supply_modAnc]
  exact supply_setFld _ _ _ _ (by decide)

@[simp] theorem supply_takeRole (a : Nat) : (s.takeRole a).supply = s.supply := by
  simp only [State.takeRole]
  repeat' split
  all_goals simp

@[simp] theorem supply_beginTick (a : Nat) : (s.beginTick a).supply = s.supply := by
  unfold State.beginTick
  extract_lets x s1 s2 s3
  have h2 : s2.supply = s.supply := by
    simp only [s2, s1]
    split <;> simp
  have h3 : s3.supply = s.supply := by
    simp only [s3]
    repeat' split
    · exact (supply_setTime ..).trans h2
    · exact (supply_updateCond _).trans h2
    · exact h2
  split
  · rfl
  · simp [h3]

@[simp] theorem supply_tick (a : Int) (u : Count) (x y p q : Int) (l : List CoreEdge) : (s.tick a u x y p q l).supply = s.supply := by
  unfold State.tick
  extract_lets s1 both align s2 run s3 s4 sec s5 s6 s7 s8 s9 s10
  have h4 : s4.supply = s.supply := by
    simp only [s4, supply_outerLoopRead]
    exact (supply_setFld _ _ _ _ (by decide)).trans (supply_setReg s1 _ _ _ (by decide))
  have h8 : s8.supply = s.supply := by
    simp only [s8]
    split
    · exact (supply_raiseEvent ..).trans h4
    · exact h4
  have h9 : s9.supply = s.supply := by
    simp only [s9]
    repeat' split
    · exact (supply_modAnc ..).trans h8
    · exact h8
    · exact h4
  have h10 : s10.supply = s.supply := by
    simp only [s10]
    split
    · exact (supply_each _ _ _ fun _ _ => supply_coreTick ..).trans h9
    · exact h9
  simp [h10]

/-! ### SYNC_IN, stations and threads -/

@[simp] theorem supply_loadCount (v : Count) (k n : Nat) : (s.loadCount v k n).supply = s.supply := by
  have count : ∀ (x : State) (v : Count) (l : List SyncDue), ({ x with count := v, syncDue := l } : State).supply = x.supply :=
    fun _ _ _ => rfl
  simp only [State.loadCount, supply_setTime]
  refine (supply_each _ _ _ fun _ _ => ?_).trans ?_
  · simp
  · simp only [supply_endLevel]
    refine (supply_setFld _ _ _ _ (by decide)).trans ((supply_each _ _ _ fun _ _ => supply_modAnc ..).trans (count ..))

@[simp] theorem supply_syncRestart (d : SyncDue) : (s.syncRestart d).supply = s.supply := by
  simp only [State.syncRestart]
  split <;> simp +decide

@[simp] theorem supply_syncLoad (d : SyncDue) : (s.syncLoad d).supply = s.supply := by
  simp only [State.syncLoad]
  split <;> simp +decide

@[simp] theorem supply_syncRestartDue : s.syncRestartDue.supply = s.supply := by
  unfold State.syncRestartDue; split <;> simp

@[simp] theorem supply_syncLoadDue : s.syncLoadDue.supply = s.supply := by
  unfold State.syncLoadDue; split <;> simp

@[simp] theorem supply_syncWindowClose : s.syncWindowClose.supply = s.supply := by
  simp only [State.syncWindowClose]
  repeat' split
  all_goals rfl

@[simp] theorem supply_stepFollowed (n : Nat) (i : QInstr) : (s.stepFollowed n i).supply = s.supply := by
  simp only [State.stepFollowed]
  repeat' split
  all_goals rfl

@[simp] theorem supply_stepAlternate (n k : Nat) (i : QInstr) : (s.stepAlternate n k i).supply = s.supply := by
  simp only [State.stepAlternate]
  repeat' split
  all_goals rfl

@[simp] theorem supply_runInstr (n p : Nat) (op : BitVec 6) : (s.runInstr n p op).supply = s.supply := by
  simp only [State.runInstr]
  repeat' split
  all_goals simp

@[simp] theorem supply_exception (n k : Nat) (pc : BitVec 14) : (s.exception n k pc).supply = s.supply := by
  simp [State.exception]

@[simp] theorem supply_instrCommit (n : Nat) : (s.instrCommit n).supply = s.supply := by
  simp only [State.instrCommit]
  repeat' split
  all_goals simp

@[simp] theorem supply_decisionResolve (n i : Nat) : (s.decisionResolve n i).supply = s.supply := by
  simp only [State.decisionResolve]
  repeat' split
  all_goals simp

@[simp] theorem supply_runBegin (n : Nat) : (s.runBegin n).supply = s.supply := by
  simp only [State.runBegin]
  split <;> simp

@[simp] theorem supply_excStop (n : Nat) : (s.excStop n).supply = s.supply := by
  simp only [State.excStop]
  repeat' split
  all_goals simp

@[simp] theorem supply_threadResume (n : Nat) : (s.threadResume n).supply = s.supply := by
  simp only [State.threadResume]
  split <;> simp

@[simp] theorem supply_handoffGo (n : Nat) : (s.handoffGo n).supply = s.supply := by
  simp only [State.handoffGo]
  repeat' split
  all_goals simp

@[simp] theorem supply_putProfile (p : Nat) (l : List Word) : (s.putProfile p l).supply = s.supply := by
  refine (supply_each _ _ _ fun s n => supply_each _ _ _ fun s k => ?_).trans ?_
  · split <;> simp
  · split <;> rfl

@[simp] theorem supply_noteSet (u : State) : (s.noteSet u).supply = s.supply := by
  unfold State.noteSet; split <;> rfl

@[simp] theorem supply_shadowApply (p : Nat) : (s.shadowApply p).supply = s.supply := by
  simp only [State.shadowApply]
  repeat' split
  · rfl
  · refine (supply_bump _ _ _ _ (by decide)).trans ((supply_raiseEvent ..).trans ((supply_putProfile ..).trans rfl))
  · rfl

@[simp] theorem supply_calPause (g : Nat) : (s.calPause g).supply = s.supply := by
  unfold State.calPause
  repeat' split
  all_goals rfl

@[simp] theorem supply_prepStart (n k : Nat) : (s.prepStart n k).supply = s.supply := by
  simp only [State.prepStart]
  repeat' split
  all_goals simp

@[simp] theorem supply_prepSettled (n k : Nat) : (s.prepSettled n k).supply = s.supply := by
  simp only [State.prepSettled]
  repeat' split
  all_goals simp

/-! ### The service port and reads -/

@[simp] theorem supply_endSession : s.endSession.supply = s.supply := by
  simp only [State.endSession, State.dropReceiving]
  repeat' split
  all_goals rfl

@[simp] theorem supply_sessionTimeout : s.sessionTimeout.supply = s.supply := by
  unfold State.sessionTimeout
  repeat' split
  all_goals simp

@[simp] theorem supply_lockoutEnd : s.lockoutEnd.supply = s.supply := by
  unfold State.lockoutEnd
  repeat' split
  all_goals simp

@[simp] theorem supply_pgmNext : s.pgmNext.supply = s.supply := by
  unfold State.pgmNext; split <;> simp +decide

@[simp] theorem supply_flowNext : s.flowNext.supply = s.supply := by
  unfold State.flowNext; split <;> simp +decide

@[simp] theorem supply_stepItem : s.stepItem.supply = s.supply := by
  unfold State.stepItem; split <;> simp +decide

@[simp] theorem supply_stepImage : s.stepImage.supply = s.supply := by
  unfold State.stepImage; split <;> simp +decide

@[simp] theorem supply_readC1 : s.readC1.2.supply = s.supply := by
  unfold State.readC1; split <;> simp

@[simp] theorem supply_readEffect (r : RegName) (i : Nat) : (s.readEffect r i).supply = s.supply := by
  unfold State.readEffect
  split
  all_goals simp [State.readPgmData, State.readFlowData, State.readResult, State.readInjection]

@[simp] theorem supply_readFlt (c i k : Nat) : (s.readFlt c i k).2.supply = s.supply := by
  unfold State.readFlt State.readFltData
  split <;> simp

@[simp] theorem supply_readAddr (a : Nat) : (s.readAddr a).2.2.supply = s.supply := by
  simp only [State.readAddr]
  repeat' split
  all_goals simp

@[simp] theorem supply_portRead (a : Nat) : (s.portRead a).supply = s.supply := by
  unfold State.portRead
  split
  · rfl
  · exact supply_readAddr ..

@[simp] theorem supply_tallyRead (w : Nat) : (s.tallyRead w).supply = s.supply := by
  simp only [State.tallyRead]
  split <;> simp

@[simp] theorem supply_hspiError (a k : Nat) : (s.hspiError a k).supply = s.supply := by
  simp only [State.hspiError]
  split <;> simp +decide

@[simp] theorem supply_hspiFrame : s.hspiFrame.supply = s.supply := by
  simp +decide [State.hspiFrame]

@[simp] theorem supply_hspiCrc : s.hspiCrc.supply = s.supply := by
  simp +decide [State.hspiCrc]

@[simp] theorem supply_hspiSend (n : Nat) (l : List Byte) : (s.hspiSend n l).supply = s.supply := supply_modHspi ..

@[simp] theorem supply_hspiWrite (l : List Byte) : (s.hspiWrite l).supply = s.supply := by
  simp only [State.hspiWrite]
  repeat' split
  all_goals simp

@[simp] theorem supply_hspiRepeat (l : List Byte) : (s.hspiRepeat l).supply = s.supply := by
  have shown : ∀ (u : State) (w : Word), ({ u with readData := w } : State).supply = u.supply := fun _ _ => rfl
  simp only [State.hspiRepeat]
  split
  · rfl
  · split
    · simp
    · split <;> split <;> simp [shown]

@[simp] theorem supply_hspiRead (l : List Byte) (r : Bool) : (s.hspiRead l r).supply = s.supply := by
  have shown : ∀ (u : State) (w : Word), ({ u with readData := w } : State).supply = u.supply := fun _ _ => rfl
  unfold State.hspiRead
  extract_lets op crc head size pre bad x
  split
  · rfl
  · split
    · simp
    · split
      · simp
      · by_cases hr : (r && s.hspi.queue.isEmpty) = true
        · simp only [hr, if_true]
          split <;> simp [shown, x]
        · simp only [hr, Bool.false_eq_true, if_false]
          split <;> simp [shown]

/-! ### Writes in HALTED -/

@[simp] theorem supply_faultAck (c i : Nat) (d : Word) : (s.faultAck c i d).supply = s.supply := by
  simp only [State.faultAck]
  split <;> simp

/-- A write that finds the device HALTED is refused, acknowledges faults, or selects an item of a fault window (R524). -/
theorem writeAt_of_halted (a : Nat) (d : Word) (h : s.halted = true) :
    ((s.writeAt a d).1 ≠ .ok ∧ (s.writeAt a d).1 ≠ .keyerr ∧ (s.writeAt a d).2 = s) ∨
    (∃ w, faultAt a = some (w, 1) ∧ s.writeAt a d = (.ok, s.faultAck (windowOf w).1 (windowOf w).2 d)) ∨
    (∃ w, faultAt a = some (w, 2) ∧
      s.writeAt a d = (.ok, s.modWin (windowIndex (windowOf w).1 (windowOf w).2) fun x => { x with sel := d &&& 0xFF0000FF#32 })) := by
  simp only [State.writeAt, State.writesRefused, h, if_true]
  cases hf : faultAt a with
  | none => exact .inl (by simp)
  | some x =>
    obtain ⟨w, k⟩ := x
    by_cases hk : k = 1 ∨ k = 2
    · by_cases hb : a % 4 ≠ 0 ∨ inBlock a = false
      · exact .inl (by rcases hk with rfl | rfl <;> simp [hb])
      · rcases hk with rfl | rfl
        · exact .inr (.inl ⟨w, rfl, by simp only [if_neg hb]; rfl⟩)
        · exact .inr (.inr ⟨w, rfl, by simp only [if_neg hb]; rfl⟩)
    · obtain ⟨h1, h2⟩ := not_or.mp hk
      exact .inl (by simp [h1, h2])

theorem supply_hostWrite (a : Nat) (d : Word) (h : s.halted = true) : (s.hostWrite a d).2.supply = s.supply := by
  have released : ∀ u : State, ({ u with hwRel := s.now } : State).supply = u.supply := fun _ => rfl
  unfold State.hostWrite State.writeAddr
  rcases writeAt_of_halted s a d h with ⟨ho, hk, hs⟩ | ⟨w, _, hw⟩ | ⟨w, _, hw⟩
  · rcases hw : s.writeAt a d with ⟨st, u⟩
    rw [hw] at ho hk hs
    subst hs
    cases st <;> simp_all
  · simp only [hw, released, supply_noteSet, supply_faultAck]
  · simp only [hw, released, supply_noteSet, supply_modWin]

theorem stepOne_of_halted (h : s.halted = true) : s.stepOne = s := by simp [State.stepOne, h]

theorem supply_portWrite (a : Nat) (d : Word) (h : s.halted = true) : (s.portWrite a d).supply = s.supply := by
  have hw := supply_hostWrite s a d h
  simp only [State.portWrite, State.holdsWrites, stepOne_of_halted s h, h]
  split
  · rfl
  · simp only [Bool.not_true, Bool.and_false, Bool.false_eq_true, if_false]
    split <;> simpa using hw

end

/-! ## Every command in HALTED -/

section
variable (s : State)

theorem halted_of_supply {s t : State} (h : t.supply = s.supply) : t.halted = s.halted := congrArg Prod.fst h

theorem up_of_halted (h : s.halted = true) : s.up = false := by simp [State.up, h]
theorem reacts_of_halted (h : s.halted = true) : s.reacts = false := by simp [State.reacts, h]
theorem mgmtRuns_of_halted (h : s.halted = true) : s.mgmtRuns = false := by simp [State.mgmtRuns, State.reacts, h]
theorem detector_of_halted (f : State → State) (h : s.halted = true) : s.detector f = s := by simp [State.detector, State.up, h]
theorem engine_of_halted (f : State → State) (h : s.halted = true) : s.engine f = s := by simp [State.engine, State.up, h]
theorem mbxRun_of_halted (k : Nat) (f : State → State) (h : s.halted = true) : s.mbxRun k f = s := by
  simp [State.mbxRun, State.mbxRuns, h]
theorem laneRestart_of_halted (h : s.halted = true) : s.laneRestart = s := by simp [State.laneRestart, h]

theorem supply_applyLaters (h : s.halted = true) : s.applyLaters.supply = s.supply := by
  simp only [State.applyLaters]
  split
  · next hu => simp [State.up, h] at hu
  · rfl

theorem supply_releaseHeld (h : s.halted = true) : s.releaseHeld.supply = s.supply := by
  have all : ∀ (l : List (Nat × Word)) (u : State), u.halted = true →
      (l.foldl (fun s (x : Nat × Word) => s.portWrite x.1 x.2) u).supply = u.supply := by
    intro l
    induction l with
    | nil => exact fun _ _ => rfl
    | cons x l ih =>
      intro u hu
      have hx := supply_portWrite u x.1 x.2 hu
      exact (ih _ ((halted_of_supply hx).trans hu)).trans hx
  exact all s.heldWrites { s with heldWrites := [] } h

theorem supply_clock (a : Int) (u : Count) (x y p q : Int) (l : List CoreEdge) (h : s.halted = true) :
    (s.clock a u x y p q l).supply = s.supply := by
  have keeps : ∀ {t : State}, t.supply = s.supply → t.halted = true := fun e => (halted_of_supply e).trans h
  simp only [State.clock]
  split
  · have h1 : ((s.settle.tick a u x y p q l).each (List.range 32) State.outOn).supply = s.supply := by simp
    have h2 := (supply_applyLaters _ (keeps h1)).trans h1
    have h3 := (supply_lanesTick _).trans ((supply_releaseHeld _ (keeps h2)).trans h2)
    rw [laneRestart_of_halted _ (keeps h3)]
    exact h3
  · rfl

theorem supply_fltItemWrite (w i : Nat) (d : Word) (h : s.halted = true) : (s.fltItemWrite w i d).supply = s.supply := by
  unfold State.fltItemWrite
  split
  · exact supply_portWrite s _ _ h
  · rfl

theorem supply_hspiHandled (h : s.halted = true) : s.hspiHandled.supply = s.supply := by
  unfold State.hspiHandled
  split
  · split
    · next w rest _ _ =>
      exact (supply_portWrite (s.modHspi fun x => { x with queue := rest }) _ _ h).trans (supply_modHspi ..)
    · rfl
  · rfl

theorem stageDone_of_halted (ok : Bool) (h : s.halted = true) : s.stageDone ok = s := by simp [State.stageDone, h]
theorem trigEdge_of_halted (n w : Nat) (h : s.halted = true) : s.trigEdge n w = s := detector_of_halted s _ h
theorem trigFenceEnd_of_halted (n : Nat) (h : s.halted = true) : s.trigFenceEnd n = s := detector_of_halted s _ h

theorem mbxStationRun_of_halted (h : s.halted = true) : s.mbxStationRun = s := by
  simp [State.mbxStationRun, State.mbxRun, State.mbxRuns, h]

theorem mbxSweep_of_halted (h : s.halted = true) : s.mbxSweep = s := by
  simp [State.mbxSweep, State.mbxRun, State.mbxRuns, h]

theorem barrowSample_of_halted (l : List Int) (r : BitVec 4) (x : BitVec 2) (n : BitVec 16) (b : Bool) (h : s.halted = true) :
    s.barrowSample l r x n b = s := by
  simp [State.barrowSample, State.barSamples, h]

theorem aonRise_of_up (l m : Bool) (h : s.pins.aon = true) : s.aonRise l m = s := by simp [State.aonRise, h]

@[simp] theorem supply_extest : s.extest.supply = s.supply := (rfl)

theorem svcRead_of_halted (h : s.power = 5) : s.svcRead = s := by
  simp [State.svcRead, State.svcServes, h]

/-- In HALTED a reset moves its pin and nothing else (R524). -/
theorem porAssert_of_halted (h : s.halted = true) : s.porAssert = { s with pins := { s.pins with porLow := true } } :=
  if_pos (by simp [h])

theorem resetAssert_of_halted (h : s.halted = true) : s.resetAssert = { s with pins := { s.pins with resetLow := true } } :=
  if_pos (by simp [h])

/-- R524: while VDD_AON is up, no command moves what HALTED keeps. -/
theorem supply_of_halted (c : Instr) (t : State) (hc : c ≠ .vddAonFall) (h : s.halted = true) (hp : s.power = 5)
    (ha : s.pins.aon = true) (he : exec c s = .next t) : t.supply = s.supply := by
  cases c
  case vddAonFall => exact absurd rfl hc
  case porNRelease g =>
    simp only [exec, execPorNRelease] at he
    split at he
    · cases he
    · obtain rfl := Host.Outcome.next.inj he
      rfl
  case porNAssert =>
    obtain rfl := Host.Outcome.next.inj he
    rw [porAssert_of_halted s h]
    rfl
  case resetNAssert =>
    obtain rfl := Host.Outcome.next.inj he
    rw [resetAssert_of_halted s h]
    rfl
  case resetNRelease =>
    obtain rfl := Host.Outcome.next.inj he
    rfl
  case lateEffect n =>
    obtain rfl := Host.Outcome.next.inj he
    exact supply_lateEffect s n
  case coldUngate n =>
    obtain rfl := Host.Outcome.next.inj he
    exact supply_coldUngate s n
  case monScanWrite hi d =>
    obtain rfl := Host.Outcome.next.inj he
    cases hi <;> exact supply_portWrite s _ _ h
  case outDsetWrite o hi d =>
    obtain rfl := Host.Outcome.next.inj he
    cases hi <;> exact supply_portWrite s _ _ h
  all_goals
    obtain rfl := Host.Outcome.next.inj he
    simp [h, detector_of_halted, engine_of_halted, reacts_of_halted, mgmtRuns_of_halted, mbxRun_of_halted, supply_portWrite,
      supply_fltItemWrite, supply_hspiHandled, supply_clock, stepOne_of_halted,
      stageDone_of_halted, trigEdge_of_halted, trigFenceEnd_of_halted, mbxStationRun_of_halted, mbxSweep_of_halted,
      barrowSample_of_halted, aonRise_of_up s _ _ ha, svcRead_of_halted s hp]

end
end Sys2Proof.Machine

namespace Sys2Proof.Machine

/-! ## Fault windows, their addresses and what an operation keeps of them -/

theorem windowIndex_windowOf (w : Fin 97) : windowIndex (windowOf w).1 (windowOf w).2 = w := by
  decide +revert

/-- The words of a fault window are in a block, aligned, and name the window and their register. -/
theorem fltAddr_placed : ∀ (w : Fin 97) (k : Fin 4),
    faultAt (fltAddr w (4 * k)) = some (w.val, k.val) ∧ inBlock (fltAddr w (4 * k)) = true ∧ fltAddr w (4 * k) % 4 = 0 ∧
      fltAddr w (4 * k) < 65536 := by
  decide +kernel

theorem fltAddr_toNat (w : Fin 97) (k : Fin 4) : (BitVec.ofNat 16 (fltAddr w (4 * k))).toNat = fltAddr w (4 * k) := by
  rw [BitVec.toNat_ofNat, Nat.mod_eq_of_lt (fltAddr_placed w k).2.2.2]

section
variable (s : State)

/-- A write to a word of a fault window that is not refused as a whole goes to the window. -/
theorem writeAt_window (w : Fin 97) (k : Fin 4) (d : Word) (h : s.writesRefused (fltAddr w (4 * k)) = false) :
    s.writeAt (fltAddr w (4 * k)) d = s.writeFlt (windowOf w).1 (windowOf w).2 (4 * k) d := by
  obtain ⟨hf, hb, ha, -⟩ := fltAddr_placed w k
  simp [State.writeAt, h, hf, hb, ha]

/-- A read of a word of a fault window goes to the window. -/
theorem readAddr_window (w : Fin 97) (k : Fin 4) (h : s.power ≠ 4) :
    s.readAddr (fltAddr w (4 * k)) =
      (.ok, (s.readFlt (windowOf w).1 (windowOf w).2 (4 * k)).1, (s.readFlt (windowOf w).1 (windowOf w).2 (4 * k)).2) := by
  obtain ⟨hf, hb, ha, -⟩ := fltAddr_placed w k
  simp [State.readAddr, h, hf, hb, ha]

/-- A write that is accepted at once leaves what the write leaves, with the digest, TIME_HWREL and LASTW beside it. -/
theorem portWrite_of_writeAt (u : State) (a : Nat) (d : Word) (hs : s.hostServes = true) (hh : s.holdsWrites = false)
    (h1 : s.stepOne = s) (hw : s.writeAt a d = (.ok, u)) :
    ∃ fl, s.portWrite a d = { u with fleet := fl, hwRel := s.now, hspi := { u.hspi with lastw := 0 } } := by
  obtain ⟨fl, hn⟩ := noteSet_form u s
  refine ⟨fl, ?_⟩
  simp only [State.portWrite, hs, hh, h1, State.hostWrite, State.writeAddr, hw, hn]
  rfl

/-- What no change of a window moves is as before in every window. -/
theorem win_modWin_keeps {α : Type} (g : FaultWindow → α) (i k : Nat) (f : FaultWindow → FaultWindow) (h : ∀ w, g (f w) = g w) :
    g ((s.modWin i f).win k) = g (s.win k) := by
  by_cases e : i = k
  · subst e
    by_cases hi : i < 97
    · rw [State.win_modWin_self s i f hi, h]
    · simp [State.modWin, State.setWin, State.win, hi]
  · rw [State.win_modWin_other s i k f e]

/-- A tally entry leaves what the tally does not hold. -/
theorem win_endLapses_keeps {α : Type} (g : FaultWindow → α) (k : Nat) (p : Lapse → Bool) (h : ∀ w e, g (w.addEntry e) = g w) :
    g ((s.endLapses p).win k) = g (s.win k) := by
  have all : ∀ (l : List Lapse) (u : State), g ((l.foldl (fun (s : State) l => s.lapseEntry l.fid 4 s.now l.stations) u).win k) = g (u.win k) := by
    intro l
    induction l with
    | nil => exact fun _ => rfl
    | cons x l ih => exact fun u => (ih _).trans (win_modWin_keeps u g _ _ _ fun w => h w _)
  exact all _ s

/-- What no window and no list of lapses bears on, the end of lapses leaves alone. -/
theorem endLapses_keeps {α : Type} (g : State → α) (p : Lapse → Bool) (hw : ∀ s k f, g (s.modWin k f) = g s)
    (hl : ∀ (s : State) ls, g { s with lapses := ls } = g s) : g (s.endLapses p) = g s := by
  have all : ∀ (l : List Lapse) (u : State), g (l.foldl (fun (s : State) l => s.lapseEntry l.fid 4 s.now l.stations) u) = g u := by
    intro l
    induction l with
    | nil => exact fun _ => rfl
    | cons x l ih => exact fun u => (ih _).trans (hw _ _ _)
  exact (hl _ _).trans (all _ s)

/-- What windows, lapses and references do not bear on, an acknowledgement leaves alone. -/
theorem faultAck_keeps {α : Type} (g : State → α) (c i : Nat) (d : Word) (hw : ∀ s k f, g (s.modWin k f) = g s)
    (hl : ∀ (s : State) ls, g { s with lapses := ls } = g s) (hr : ∀ s k f, g (s.modRef k f) = g s) :
    g (s.faultAck c i d) = g s := by
  simp only [State.faultAck]
  split
  · exact (State.each_keeps g _ (fun s r => hr s r _) _ _).trans ((endLapses_keeps _ g _ hw hl).trans (hw _ _ _))
  · exact (endLapses_keeps _ g _ hw hl).trans (hw _ _ _)

/-- What an acknowledgement makes of its window: with no live level source among the faults and none set at this very tick, the
bits written leave FLT_STAT and FLT_PEND, and their grace timers end (R512, R20). -/
theorem win_faultAck (w : Fin 97) (d : Word) (hf : (s.win w).freshAt ≠ s.elapsed)
    (hl : ∀ b : Fin 32, bitOf d b = true → s.isLive ⟨(windowOf w).1, (windowOf w).2, b.val⟩ = false) :
    let t := s.faultAck (windowOf w).1 (windowOf w).2 d
    (t.win w).stat = (s.win w).stat &&& ~~~d ∧ (t.win w).pend = (s.win w).pend &&& ~~~d ∧
      (t.win w).graceTimers = (s.win w).graceTimers.filter (fun g => !bitOf d g.bit) := by
  have hlive : ((bitsOf d 32).filter fun b => s.isLive ⟨(windowOf w).1, (windowOf w).2, b⟩) = [] := by
    rw [List.filter_eq_nil_iff]
    intro b hb
    obtain ⟨hlt, hbit⟩ := (mem_bitsOf _ _ _).1 hb
    simp [hl ⟨b, hlt⟩ hbit]
  have heff : d &&& ~~~(if (s.win w).freshAt = s.elapsed then (s.win w).fresh else 0) = d := by
    rw [if_neg hf]
    exact BitVec.and_allOnes
  have hsame : ∀ g : GraceTimer, (!bitOf d g.bit || (!bitOf d g.bit && g.raise.at_ + 1 == s.elapsed)) = !bitOf d g.bit := fun g => by
    cases bitOf d g.bit <;> rfl
  have taken : ∀ {α : Type} (g : FaultWindow → α), (∀ w e, g (w.addEntry e) = g w) →
      g ((s.faultAck (windowOf w).1 (windowOf w).2 d).win w) = g { s.win w with
        stat := (s.win w).stat &&& ~~~d, pend := (s.win w).pend &&& ~~~d
        pendMinor := (s.win w).pendMinor &&& ~~~d, pendSerious := (s.win w).pendSerious &&& ~~~d
        graceTimers := (s.win w).graceTimers.filter fun g => !bitOf d g.bit } := by
    intro α g hg
    simp only [State.faultAck, windowIndex_windowOf, heff, hlive, hsame, List.foldl_nil]
    have ended := fun (u : State) (p : Lapse → Bool) => win_endLapses_keeps u g w p hg
    have unheld : ∀ (u : State) (l : List Nat) (f : State → RefInput → RefInput),
        g ((u.each l fun s r => s.modRef r (f s)).win w) = g (u.win w) := fun u l f =>
      State.each_keeps (fun s : State => g (s.win w)) (fun s r => s.modRef r (f s)) (fun _ _ => rfl) u l
    split
    · rw [unheld, ended, State.win_modWin_self _ _ _ w.isLt]
    · rw [ended, State.win_modWin_self _ _ _ w.isLt]
  exact ⟨taken FaultWindow.stat fun _ _ => rfl, taken FaultWindow.pend fun _ _ => rfl, taken FaultWindow.graceTimers fun _ _ => rfl⟩

/-- What registers do not bear on, the error of HSPI_STAT leaves alone. -/
theorem hspiError_keeps {α : Type} (g : State → α) (a k : Nat) (hf : ∀ s f i v, g (s.setFld f i v) = g s)
    (hk : ∀ s f i, g (s.stick f i) = g s) : g (s.hspiError a k) = g s := by
  simp only [State.hspiError]
  split
  · exact hk _ _ _
  · exact (hk _ _ _).trans ((hf _ _ _ _).trans (hf _ _ _ _))

/-! ### HALTED -/

theorem hostServes_of_halted (hp : s.power = 5) (ha : s.pins.aon = true) : s.hostServes = true := by
  simp [State.hostServes, hp, ha]

theorem allGated_of_halted (h : s.halted = true) : s.allGated = true := by
  simp [State.allGated, State.gated, h]

/-- A write that HALTED refuses leaves its status and the error of HSPI_STAT, and nothing else (R524). -/
theorem portWrite_refused_of_halted (a : Nat) (d : Word) (h : s.halted = true) (hs : s.hostServes = true)
    (hn : ∀ w : Fin 97, faultAt a ≠ some (w.val, 1) ∧ faultAt a ≠ some (w.val, 2)) :
    s.portWrite a d = (s.modHspi fun x => { x with lastw := WStatus.state.code }).hspiError a WStatus.state.code := by
  have hr : s.writesRefused a = true := by
    simp only [State.writesRefused, h, if_true]
    cases hf : faultAt a with
    | none => rfl
    | some x =>
      obtain ⟨w, k⟩ := x
      have hw : w < 97 := by
        simp only [faultAt] at hf
        split at hf
        · next v hv =>
          have := List.mem_range.1 (List.mem_of_find?_eq_some hv)
          simp only [Option.some.injEq, Prod.mk.injEq] at hf
          omega
        · cases hf
      obtain ⟨h1, h2⟩ := hn ⟨w, hw⟩
      rw [hf] at h1 h2
      simp only [ne_eq, Option.some.injEq, Prod.mk.injEq, true_and] at h1 h2
      simp [h1, h2]
  have hw : s.hostWrite a d = (.state, s) := by simp [State.hostWrite, State.writeAddr, State.writeAt, hr]
  simp [State.portWrite, hs, State.holdsWrites, h, stepOne_of_halted, hw]

/-- In HALTED a write of FLT_STAT or FLT_SEL is not refused (R524). -/
theorem not_refused_of_halted (w : Fin 97) (k : Fin 4) (h : s.halted = true) (hk : k = 1 ∨ k = 2) :
    s.writesRefused (fltAddr w (4 * k)) = false := by
  simp only [State.writesRefused, h, if_true, (fltAddr_placed w k).1]
  rcases hk with rfl | rfl <;> rfl

/-- The items of the tally read its words. -/
theorem item_of_tally (x : FaultWindow) (now i : Nat) (h : 16 ≤ i) (h' : i < 80) :
    x.item now i = x.tallyWord ((i - 16) / 4) ((i - 16) % 4) := by
  unfold FaultWindow.item
  grind

/-- A read of word 0 of a tally entry returns it and latches the others (R527). -/
theorem tallyRead_entry (w : Fin 97) (i : Fin 16) (e : TallyEntry) (hs : s.hostServes = true) (h4 : s.power ≠ 4)
    (hi : (s.win w).selItem = 16 + 4 * i.val) (he : (s.win w).tally[i.val]? = some e) :
    completes (.tallyRead w) s fun t => t.readData = e.word 0 ∧ (t.win w).latch1 = e.word 1 ∧ (t.win w).latch2 = e.word 2 ∧
      (t.win w).latch3 = e.word 3 ∧ (t.win w).tally = (s.win w).tally := by
  have hn : ∀ x : FaultWindow, x.nextItem.latch1 = x.latch1 ∧ x.nextItem.latch2 = x.latch2 ∧ x.nextItem.latch3 = x.latch3 ∧
      x.nextItem.tally = x.tally := fun x => by
    unfold FaultWindow.nextItem; split <;> exact ⟨rfl, rfl, rfl, rfl⟩
  have hlt : i.val < 16 := i.isLt
  have hq : 16 ≤ 16 + 4 * i.val ∧ 16 + 4 * i.val < 80 ∧ (16 + 4 * i.val - 16) % 4 = 0 := by omega
  have hitem : (s.win w).item s.elapsed (16 + 4 * i.val) = e.word 0 := by
    rw [item_of_tally _ _ _ hq.1 hq.2.1, show (16 + 4 * i.val - 16) / 4 = i.val by omega, hq.2.2]
    simp [FaultWindow.tallyWord, he]
  have hlatch : (s.win w).latchTally i.val = { s.win w with latch1 := e.word 1, latch2 := e.word 2, latch3 := e.word 3 } := by
    simp [FaultWindow.latchTally, he]
  have hread : s.tallyRead w = { s.setWin w ((s.win w).latchTally i.val).nextItem with readData := e.word 0 } := by
    have hr := readAddr_window s w 3 h4
    simp only [State.tallyRead, hi, if_pos hq, State.portRead, hs]
    rw [show fltAddr w 12 = fltAddr w (4 * (3 : Fin 4)) from rfl, hr]
    simp only [State.readFlt, State.readFltData, windowIndex_windowOf, hi, if_pos hq, hitem]
    rw [show (16 + 4 * i.val - 16) / 4 = i.val by omega]
    rfl
  refine ⟨_, rfl, ?_⟩
  rw [hread]
  obtain ⟨h1, h2, h3, ht⟩ := hn ((s.win w).latchTally i.val)
  have hwin : ({ s.setWin w ((s.win w).latchTally i.val).nextItem with readData := e.word 0 } : State).win w
      = ((s.win w).latchTally i.val).nextItem := State.win_modWin_self s w (fun _ => ((s.win w).latchTally i.val).nextItem) w.isLt
  rw [hwin, h1, h2, h3, ht, hlatch]
  exact ⟨rfl, rfl, rfl, rfl, rfl⟩

/-- A power-on start begins with the registers of reset, whatever went before. -/
theorem restart_power_regs : (s.restart 0).regs = (State.reset.restart 0).regs := rfl

theorem win_reset (w : Fin 97) : State.reset.win w = FaultWindow.reset (windowOf w.val).1 := by
  have h : State.reset.windows = Vector.ofFn fun w => FaultWindow.reset (windowOf w.val).1 := rfl
  rw [State.win, h, Vector.getElem?_eq_getElem w.isLt, Vector.getElem_ofFn, Option.getD_some]

theorem tally_reset (w : Fin 97) : (State.reset.win w).tally = [] := congrArg FaultWindow.tally (win_reset w)

/-- Settles O59: what HALTED keeps by `supply_of_halted`, row by row; the reads and writes by the rules of the fault windows. -/
theorem haltedEndsOnlyWithTheSupply : Obligations.HaltedEndsOnlyWithTheSupply := by
  refine ⟨?_, ?_, ?_, ?_, ?_, ?_⟩
  · intro c s t hc hh hp ha he
    have hs := supply_of_halted s c t hc hh hp ha he
    simp only [State.supply, Prod.mk.injEq] at hs
    obtain ⟨h1, h2, h3⟩ := hs
    have hh' := h1.trans hh
    exact ⟨hh', (fld_of_reg h3).trans hp, h2.trans ha, allGated_of_halted t hh'⟩
  · intro s w i e hh hp ha hi he
    obtain ⟨t, ht, h0, h1, h2, h3, h4⟩ := tallyRead_entry s w i e (hostServes_of_halted s hp ha) (by omega) hi he
    exact ⟨t, ht, h0, h1, h4⟩
  · intro s a d hh hp ha hn
    have hs := hostServes_of_halted s hp ha
    refine ⟨_, rfl, ?_⟩
    rw [portWrite_refused_of_halted s a.toNat d hh hs hn]
    have keeps : ∀ {α : Type} (g : State → α), (∀ s f i v, g (s.setFld f i v) = g s) → (∀ s f i, g (s.stick f i) = g s) →
        (∀ s f, g (s.modHspi f) = g s) →
        g ((s.modHspi fun x => { x with lastw := WStatus.state.code }).hspiError a.toNat WStatus.state.code) = g s :=
      fun g hf hk hm => (hspiError_keeps _ g _ _ hf hk).trans (hm _ _)
    exact ⟨⟨by simp [State.modHspi], hspiError_flag _ _ _⟩, keeps _ (fun _ _ _ _ => rfl) (fun _ _ _ => rfl) fun _ _ => rfl,
      keeps _ (fun _ _ _ _ => rfl) (fun _ _ _ => rfl) fun _ _ => rfl, keeps _ (fun _ _ _ _ => rfl) (fun _ _ _ => rfl) fun _ _ => rfl,
      keeps _ (fun _ _ _ _ => rfl) (fun _ _ _ => rfl) fun _ _ => rfl, keeps _ (fun _ _ _ _ => rfl) (fun _ _ _ => rfl) fun _ _ => rfl,
      keeps _ (fun _ _ _ _ => rfl) (fun _ _ _ => rfl) fun _ _ => rfl, keeps _ (fun _ _ _ _ => rfl) (fun _ _ _ => rfl) fun _ _ => rfl⟩
  · intro s w d hh hp ha
    have hs := hostServes_of_halted s hp ha
    have hw : s.holdsWrites = false := by simp [State.holdsWrites, hh]
    have h1 := stepOne_of_halted s hh
    constructor
    · have hat := writeAt_window s w 2 d (not_refused_of_halted s w 2 hh (.inr rfl))
      obtain ⟨fl, ht⟩ := portWrite_of_writeAt s _ _ d hs hw h1 hat
      refine ⟨_, rfl, ?_⟩
      rw [show fltAddr w 8 = fltAddr w (4 * (2 : Fin 4)) from rfl, fltAddr_toNat, ht]
      refine ⟨?_, rfl, ⟨rfl, rfl⟩, rfl, rfl, rfl⟩
      exact congrArg FaultWindow.sel ((congrArg (fun i => (s.modWin i fun x => { x with sel := d &&& 0xFF0000FF#32 }).win w)
        (windowIndex_windowOf w)).trans (State.win_modWin_self s w _ w.isLt))
    · intro hf hl
      have hat := writeAt_window s w 1 d (not_refused_of_halted s w 1 hh (.inl rfl))
      obtain ⟨fl, ht⟩ := portWrite_of_writeAt s _ _ d hs hw h1 hat
      refine ⟨_, rfl, ?_⟩
      rw [show fltAddr w 4 = fltAddr w (4 * (1 : Fin 4)) from rfl, ht]
      have keeps : ∀ {α : Type} (g : State → α), (∀ s k f, g (s.modWin k f) = g s) → (∀ (s : State) ls, g { s with lapses := ls } = g s) →
          (∀ s k f, g (s.modRef k f) = g s) → g (s.faultAck (windowOf w).1 (windowOf w).2 d) = g s :=
        fun g => faultAck_keeps s g _ _ d
      exact ⟨(win_faultAck s w d hf hl).1, keeps State.raises (fun _ _ _ => rfl) (fun _ _ => rfl) fun _ _ _ => rfl, ⟨rfl, rfl⟩,
        keeps State.outs (fun _ _ _ => rfl) (fun _ _ => rfl) fun _ _ _ => rfl,
        keeps State.cores (fun _ _ _ => rfl) (fun _ _ => rfl) fun _ _ _ => rfl,
        keeps State.stations (fun _ _ _ => rfl) (fun _ _ => rfl) fun _ _ _ => rfl⟩
  · exact fun s hh => ⟨_, rfl, resetAssert_of_halted s hh⟩
  · intro s l m hh
    refine ⟨_, rfl, _, rfl, ?_⟩
    have hrise : s.aonFall.aonRise l m = ({ s.aonFall with pins := { s.aonFall.pins with aon := true, porLow := l, testMode := m } } : State).restart 0 :=
      rfl
    rw [hrise]
    refine ⟨rfl, ?_, ?_, rfl, fun w => ?_⟩
    · rw [State.startStage, fld_of_reg (reg_of_regs (restart_power_regs _) _ _)]
      decide
    · rw [fld_of_reg (reg_of_regs (restart_power_regs _) _ _)]
      decide
    · exact tally_reset w

end
end Sys2Proof.Machine

namespace Sys2Proof.Machine

/-! ## What a command that writes a register leaves at the port -/

/-- Recording an error in HSPI_STAT changes the register file and the bits set at this tick alone. -/
theorem hspiError_form (s : State) (a k : Nat) : ∃ rg sk, s.hspiError a k = { s with regs := rg, sticks := sk } := by
  unfold State.hspiError
  extract_lets t
  exact ⟨(t.stick Fields.HSPI_STAT_ERR 0).regs, (t.stick Fields.HSPI_STAT_ERR 0).sticks, by grind [State.stick, State.setFld, State.setReg]⟩

/-- A raise changes the list of raises alone. -/
theorem raiseEvent_keeps {α : Type} (g : State → α) (s : State) (f : Fid) (a : Word)
    (hg : ∀ (s : State) rs, g { s with raises := rs } = g s) : g (s.raiseEvent f a) = g s := by
  obtain ⟨rs, h⟩ := raiseAs_form s f s.now a false false
  exact (congrArg g h).trans (hg s rs)

/-- A command that writes a register whose rule refuses it leaves what the rule leaves, with the status at the port and HSPI_STAT
beside it (R610, R614). -/
theorem completes_of_refusal {c : Instr} {s u : State} {r : RegName} {i : Nat} {w : Word} {st : WStatus} {P : State → Prop}
    (hx : exec c s = .next (s.portWrite (regAddr r i) w)) (h : s.serves = true) (hc : commandRegs.contains r = true)
    (hi : i < (regSpec r).count) (hk : ((regSpec r).wk && getBits w 24 8 != 0xA5) = false) (hw : s.writeReg r i w = (st, u))
    (h1 : st ≠ .ok) (h2 : st ≠ .keyerr)
    (hP : ∀ rg sk hs, ({ u with regs := rg, sticks := sk, hspi := hs } : State).refusedWith st →
      (∀ r' j, r' ≠ .HSPI_STAT → ({ u with regs := rg } : State).reg r' j = u.reg r' j) →
      P { u with regs := rg, sticks := sk, hspi := hs }) : completes c s P := by
  have ht := portWrite_refused s u r i w st h (placed_of_command r i hc hi) hk hw h1 h2
  obtain ⟨rg, sk, he⟩ := hspiError_form (u.modHspi fun x => { x with lastw := st.code }) (regAddr r i) st.code
  have hf := hspiError_flag (u.modHspi fun x => { x with lastw := st.code }) (regAddr r i) st.code
  have hr := hspiError_reg (u.modHspi fun x => { x with lastw := st.code }) (regAddr r i) st.code
  rw [he] at ht hf hr
  exact ⟨_, hx, ht ▸ hP _ _ _ ⟨rfl, hf⟩ fun r' j hne => hr r' j hne⟩

/-- A command that writes a register whose rule accepts it leaves what the rule leaves, with the digest, the store, TIME_HWREL and
LASTW beside it; a keyed register is written with its key. -/
theorem completes_of_write {c : Instr} {s u : State} {r : RegName} {i : Nat} {w : Word} {P : State → Prop}
    (hx : exec c s = .next (s.portWrite (regAddr r i) w)) (h : s.serves = true) (hc : commandRegs.contains r = true)
    (hi : i < (regSpec r).count) (hk : ((regSpec r).wk && getBits w 24 8 != 0xA5) = false) (hw : s.writeReg r i w = (.ok, u))
    (hP : ∀ fl st, P { u with fleet := fl, store := st, hwRel := s.now, hspi := { u.hspi with lastw := 0 } }) : completes c s P := by
  obtain ⟨fl, st, ht⟩ := portWrite_ok s u r i w h (placed_of_command r i hc hi) hk hw
  exact ⟨_, hx, ht ▸ hP fl st⟩

/-! ## The step and the scheduled writes (R54 to R56, R618 to R620) -/

/-- Settles O1: the queue is a list, and each clause is one of its two cases. -/
theorem stepRunsFrontCommand : Obligations.StepRunsFrontCommand :=
  ⟨fun _ _ _ => rfl, fun s h => by simp [step, h]⟩

/-- SCHED_CTL with GO alone is the offer of a scheduled write. -/
theorem writeSchedCtl_go (s : State) : s.writeReg .SCHED_CTL 0 (cmdBit 31) = s.schedGo := by
  have h16 : getBits (cmdBit 31) 0 16 ≠ 0xFFFF := by decide
  have h30 : bitOf (cmdBit 31) 30 = false := by decide
  have h31 : bitOf (cmdBit 31) 31 = true := by decide
  simp [State.writeReg, State.writeSchedCtl, h16, h30, h31]

theorem writeSchedCtl_flush (s : State) : s.writeReg .SCHED_CTL 0 (cmdBit 30) = (.ok, s.schedFlush) := by
  have h16 : getBits (cmdBit 30) 0 16 ≠ 0xFFFF := by decide
  have h30 : bitOf (cmdBit 30) 30 = true := by decide
  have h31 : bitOf (cmdBit 30) 31 = false := by decide
  simp [State.writeReg, State.writeSchedCtl, h16, h30, h31]

/-- An offer that is refused leaves the port's answer and the queue as it was. -/
theorem schedGo_refused {s u : State} {st : WStatus} (h : s.serves = true) (hw : s.schedGo = (st, u)) (h1 : st ≠ .ok) (h2 : st ≠ .keyerr)
    (hu : u.sched = s.sched) : completes .schedGo s fun t => t.refusedWith st ∧ t.sched = s.sched :=
  completes_of_refusal rfl h rfl (by decide) rfl ((writeSchedCtl_go s).trans hw) h1 h2 fun _ _ _ hr _ => ⟨hr, hu⟩

/-- Nothing is due while every scheduled write and every armed change is named for a later tick. -/
theorem dueWrites_of_future (s : State) (hs : ∀ x ∈ s.sched, s.now < x.tick) (hc : ∀ x ∈ s.fleet.changes, s.now < x.relTick) :
    s.dueWrites = [] := by
  have h1 : s.sched.filter (fun e => decide (e.tick ≤ s.now)) = [] :=
    List.filter_eq_nil_iff.2 fun x hx => by simpa using hs x hx
  have h2 : s.fleet.changes.filter (fun c => decide (c.relTick ≤ s.now)) = [] :=
    List.filter_eq_nil_iff.2 fun x hx => by simpa using hc x hx
  simp [State.dueWrites, h1, h2]

/-- Settles O6: SCHED_CTL's rule check by check, and step 1 of Table 1.3 with one write due and with none. -/
theorem scheduledWrites : Obligations.ScheduledWrites := by
  refine ⟨?_, ?_, ?_, ?_, ?_, ?_, ?_, ?_⟩
  · intro s h ha hk ht hl
    have hw : s.schedGo = (.ok, { s.setFld Fields.SCHED_CTL_RESULT 0 0 with
        sched := s.sched ++ [⟨s.fld Fields.SCHED_ADDR_ADDR 0, s.reg .SCHED_DATA 0,
          ofWords (s.reg .SCHED_TICK_LO 0) (s.reg .SCHED_TICK_HI 0), s.acceptSeq⟩]
        acceptSeq := s.acceptSeq + 1 }) := by
      simp only [State.schedGo, ha, hk, Bool.not_true, Bool.false_eq_true, if_false, if_neg (not_lt.2 ht), if_neg (not_le.2 hl)]
    exact completes_of_write rfl h rfl (by decide) rfl ((writeSchedCtl_go s).trans hw) fun fl st => ⟨rfl, rfl, rfl, rfl⟩
  · intro s h ha
    exact schedGo_refused h (u := s.setFld Fields.SCHED_CTL_RESULT 0 3) (by simp [State.schedGo, ha]) (by decide) (by decide) rfl
  · intro s h ha hk ht
    exact schedGo_refused h (u := (s.setFld Fields.SCHED_CTL_RESULT 0 1).raiseEvent Src.glb_SCHED_REFUSED 0)
      (by simp [State.schedGo, ha, hk, ht]) (by decide) (by decide)
      (raiseEvent_keeps State.sched _ _ _ fun _ _ => rfl)
  · intro s h ha hk ht hl
    exact schedGo_refused h (u := (s.setFld Fields.SCHED_CTL_RESULT 0 2).raiseEvent Src.glb_SCHED_REFUSED 0)
      (by simp [State.schedGo, ha, hk, not_lt.2 ht, hl]) (by decide) (by decide)
      (raiseEvent_keeps State.sched _ _ _ fun _ _ => rfl)
  · intro s h
    exact completes_of_write rfl h rfl (by decide) rfl (writeSchedCtl_flush s) fun fl st => ⟨rfl, rfl, rfl⟩
  · intro s e u hc hh hs hd hw
    refine ⟨_, rfl, ?_⟩
    have hr : s.releaseSched e = u := by
      unfold State.releaseSched
      extract_lets x
      rw [show x.writeAddr e.addr e.data = (.ok, u) from hw]
    rw [State.stepOne, syncAll_of_none s (by simp [hs])]
    simp [hc, hh, hd, State.releaseDue, hr]
  · intro s hs hw hc
    refine ⟨_, rfl, ?_⟩
    rw [State.stepOne, syncAll_of_none s (by simp [hs])]
    simp [dueWrites_of_future s hw hc]
  · rintro s hs
    refine ⟨_, rfl, ?_⟩
    simp only [State.stepOne]
    obtain h | h := hs <;> simp [h]

end Sys2Proof.Machine

namespace Sys2Proof.Machine

/-! ## Steps for the fault windows -/

/-- A step for each number of a list that leaves every state it meets alone, but at one number, is that one step. -/
theorem State.each_at {s : State} {f : State → Nat → State} {l : List Nat} {w : Nat} (hw : w ∈ l) (hd : l.Nodup)
    (h : ∀ v ∈ l, v ≠ w → f s v = s) (h' : ∀ v ∈ l, v ≠ w → f (f s w) v = f s w) : s.each l f = f s w := by
  induction l with
  | nil => cases hw
  | cons m l ih =>
    obtain ⟨hm, hl⟩ := List.nodup_cons.1 hd
    by_cases e : m = w
    · subst e
      exact State.each_of_fixed fun v hv => h' v (.tail _ hv) fun e => hm (e ▸ hv)
    · rw [State.each, h m (.head _) e]
      exact ih ((List.mem_cons.1 hw).resolve_left (Ne.symm e)) hl (fun v hv => h v (.tail _ hv)) fun v hv => h' v (.tail _ hv)

/-- A change that gives a window what it holds is none. -/
theorem modWin_same (s : State) (v : Nat) (f : FaultWindow → FaultWindow) (h : f (s.win v) = s.win v) : s.modWin v f = s := by
  have hw : s.windows.setIfInBounds v (s.win v) = s.windows := by
    ext i hi
    rw [Vector.getElem_setIfInBounds]
    split
    · next e => subst e; simp [State.win, hi]
    · rfl
  rw [State.modWin, State.setWin, h, hw]

/-! ## Grace timers and the ends of suppressions (R515, R519) -/

/-- The timers of a window that have run out. -/
def FaultWindow.timedOut (x : FaultWindow) (now : Nat) : List GraceTimer := x.graceTimers.filter fun t => decide (t.due ≤ now)

/-- What the timers that have run out make of their window. -/
def FaultWindow.graceEnds (x : FaultWindow) (now : Nat) (done : List GraceTimer) : FaultWindow :=
  done.foldl (fun w t => { w.setEcls t.bit 2 with
    pendMinor := setBit w.pendMinor t.bit false, pendSerious := setBit w.pendSerious t.bit true })
    { x with graceTimers := x.graceTimers.filter fun t => !decide (t.due ≤ now) }

theorem graceExpireWin_eq (s : State) (v : Nat) :
    s.graceExpireWin v = { s.modWin v (fun x => x.graceEnds s.elapsed ((s.win v).timedOut s.elapsed)) with
      raises := s.raises ++ ((s.win v).timedOut s.elapsed).map fun t =>
        { t.raise with at_ := s.elapsed, grace := true, lapse := none, made := s.now } } := rfl

theorem win_graceExpireWin (s : State) {w : Nat} (hw : w < 97) :
    (s.graceExpireWin w).win w = (s.win w).graceEnds s.elapsed ((s.win w).timedOut s.elapsed) :=
  State.win_modWin_self s w (fun x => x.graceEnds s.elapsed ((s.win w).timedOut s.elapsed)) hw

theorem win_graceExpireWin_other (s : State) {w v : Nat} (h : w ≠ v) : (s.graceExpireWin w).win v = s.win v :=
  State.win_modWin_other s w v (fun x => x.graceEnds s.elapsed ((s.win w).timedOut s.elapsed)) h

/-- A window without a grace timer has none to expire. -/
theorem graceExpireWin_of_none (s : State) (v : Nat) (h : (s.win v).graceTimers = []) : s.graceExpireWin v = s := by
  have ht : (s.win v).timedOut s.elapsed = [] := by simp [FaultWindow.timedOut, h]
  have hx : (s.win v).graceEnds s.elapsed [] = s.win v := by
    rw [FaultWindow.graceEnds, List.foldl_nil, h, List.filter_nil, ← h]
  rw [graceExpireWin_eq, ht, List.map_nil, List.append_nil, modWin_same s v _ hx]

theorem eclsOf_setEcls_self (x : FaultWindow) (b c : Nat) (h : b < 32) (hc : c < 4) : (x.setEcls b c).eclsOf b = c := by
  unfold FaultWindow.setEcls FaultWindow.eclsOf
  split
  · exact (getBits_putBits_self _ _ _ _ (by omega)).trans (Nat.mod_eq_of_lt hc)
  · exact (getBits_putBits_self _ _ _ _ (by omega)).trans (Nat.mod_eq_of_lt hc)

@[simp] theorem graceTimers_setEcls (x : FaultWindow) (b c : Nat) : (x.setEcls b c).graceTimers = x.graceTimers := by
  unfold FaultWindow.setEcls; split <;> rfl

/-- A change of what suppresses a source changes neither whether it reads live nor whether its unit is fenced. -/
theorem isLive_modWin (s : State) (v : Nat) (f : FaultWindow → FaultWindow) (x : Fid) (hl : ∀ w, (f w).live = w.live)
    (hf : ∀ w, (f w).force = w.force) : (s.modWin v f).isLive x = s.isLive x := by
  simp only [State.isLive, win_modWin_keeps s FaultWindow.live v _ f hl, win_modWin_keeps s FaultWindow.force v _ f hf]

/-- The one suppression of a window that has run out is its one released bit. -/
theorem released_single (x : FaultWindow) (u : Suppression) (now : Nat) (h : x.supp = [u]) (hu : u.until_ ≤ now) (hb : u.bit < 32) :
    x.released now = [u.bit] := by
  have hn : ¬now < u.until_ := by omega
  simp only [FaultWindow.released, h, List.any_cons, List.any_nil, Bool.or_false, hn, decide_false, Bool.and_false, Bool.not_false,
    Bool.and_true, Bool.beq_comm (a := u.bit)]
  rw [List.filter_beq, List.count_eq_one_of_mem List.nodup_range (List.mem_range.2 hb)]
  rfl

/-- A window without the suppressions of some bits. -/
def FaultWindow.unsuppress (x : FaultWindow) (bits : List Nat) : FaultWindow :=
  { x with supp := x.supp.filter fun z => !bits.contains z.bit }

/-- A level source that is still live raises now. -/
def State.raiseIfLive (s : State) (f : Fid) : State := if isLevel f && s.isLive f then s.raiseEvent f 0 else s

theorem cwinEndWin_eq (s : State) (w : Nat) :
    s.cwinEndWin w = (s.modWin w fun x => x.unsuppress ((s.win w).released s.elapsed)).each ((s.win w).released s.elapsed)
      fun s b => s.raiseIfLive ⟨(windowOf w).1, (windowOf w).2, b⟩ := rfl

/-- A raise changes no window. -/
theorem win_raiseIfLive (s : State) (f : Fid) (k : Nat) : (s.raiseIfLive f).win k = s.win k := by
  unfold State.raiseIfLive
  split
  · exact raiseEvent_keeps (fun s => s.win k) s f 0 fun _ _ => rfl
  · rfl

theorem win_cwinEndWin (s : State) (w v : Nat) :
    (s.cwinEndWin w).win v = (s.modWin w fun x => x.unsuppress ((s.win w).released s.elapsed)).win v :=
  State.each_keeps (fun s : State => s.win v) (fun s b => s.raiseIfLive ⟨(windowOf w).1, (windowOf w).2, b⟩)
    (fun s _ => win_raiseIfLive s _ v) _ _

/-- A window without a suppression has none to end. -/
theorem cwinEndWin_of_none (s : State) (v : Nat) (h : (s.win v).supp = []) : s.cwinEndWin v = s := by
  have hb : (s.win v).released s.elapsed = [] := by simp [FaultWindow.released, h]
  have hx : (s.win v).unsuppress [] = s.win v := by rw [FaultWindow.unsuppress, h, List.filter_nil, ← h]
  rw [cwinEndWin_eq, hb, modWin_same s v _ hx, State.each]

/-- Settles O44: the acknowledgement by its window's rule, and each timer by the one window that it runs in. -/
theorem faultsAreAcknowledged : Obligations.FaultsAreAcknowledged := by
  refine ⟨?_, ?_, ?_⟩
  · intro s w d hs hf hl
    have hat := writeAt_window s w 1 d (writesRefused_of_serves s _ hs)
    obtain ⟨fl, ht⟩ := portWrite_of_writeAt s _ _ d (hostServes_of_serves s hs) (not_held_of_serves s hs)
      (stepOne_of_turn s (turn_of_serves s hs)) hat
    refine ⟨_, rfl, ?_⟩
    rw [show fltAddr w 4 = fltAddr w (4 * (1 : Fin 4)) from rfl, ht]
    obtain ⟨hst, hpe, hgt⟩ := win_faultAck s w d hf hl
    exact ⟨hst, hpe, hgt, ⟨rfl, rfl⟩, faultAck_keeps s State.cores _ _ d (fun _ _ _ => rfl) (fun _ _ => rfl) fun _ _ _ => rfl,
      faultAck_keeps s State.stations _ _ d (fun _ _ _ => rfl) (fun _ _ => rfl) fun _ _ _ => rfl⟩
  · intro s w g hr hg hdue hb hv
    have hmem : w.val ∈ List.range 97 := List.mem_range.2 w.isLt
    have other : ∀ v ∈ List.range 97, v ≠ w.val → (s.win v).graceTimers = [] := fun v hm hne =>
      hv ⟨v, List.mem_range.1 hm⟩ fun e => hne (congrArg Fin.val e)
    have ht : (s.win w).timedOut s.elapsed = [g] := by simp [FaultWindow.timedOut, hg, hdue]
    have he : s.graceExpire = s.graceExpireWin w := State.each_at hmem List.nodup_range
      (fun v hm hne => graceExpireWin_of_none s v (other v hm hne)) fun v hm hne =>
        graceExpireWin_of_none _ v ((congrArg FaultWindow.graceTimers (win_graceExpireWin_other s (Ne.symm hne))).trans (other v hm hne))
    have hwin := win_graceExpireWin s w.isLt
    rw [ht] at hwin
    refine ⟨_, rfl, ?_⟩
    rw [if_pos hr, he]
    refine ⟨?_, ?_, by rw [graceExpireWin_eq, ht]; rfl⟩
    · rw [hwin]
      exact (graceTimers_setEcls _ _ _).trans (by simp [hg, hdue])
    · rw [hwin]
      exact eclsOf_setEcls_self _ _ _ hb (by decide)
  · intro s w x hr hx hu hb hv hf
    have hmem : w.val ∈ List.range 97 := List.mem_range.2 w.isLt
    have other : ∀ v ∈ List.range 97, v ≠ w.val → (s.win v).supp = [] := fun v hm hne =>
      hv ⟨v, List.mem_range.1 hm⟩ fun e => hne (congrArg Fin.val e)
    have he : s.cwinEnd = s.cwinEndWin w := State.each_at hmem List.nodup_range
      (fun v hm hne => cwinEndWin_of_none s v (other v hm hne)) fun v hm hne =>
        cwinEndWin_of_none _ v (by
          rw [win_cwinEndWin, State.win_modWin_other s w v _ (Ne.symm hne)]
          exact other v hm hne)
    have hrel := released_single _ x _ hx hu hb
    refine ⟨_, rfl, ?_⟩
    rw [if_pos hr, he]
    refine ⟨?_, ?_⟩
    · rw [win_cwinEndWin, State.win_modWin_self s w _ w.isLt, hrel, FaultWindow.unsuppress, hx]
      simp
    · rw [cwinEndWin_eq, hrel, State.each, State.each, State.raiseIfLive,
        isLive_modWin s w (fun x => x.unsuppress _) _ (fun _ => rfl) fun _ => rfl]
      split
      · obtain ⟨r, ht, hid, hst⟩ := raiseEvent_of_not_fenced
          (s.modWin w fun y => y.unsuppress [x.bit]) ⟨(windowOf w).1, (windowOf w).2, x.bit⟩ 0 hf
        exact ⟨r, congrArg State.raises ht, hid, hst⟩
      · rfl

end Sys2Proof.Machine

namespace Sys2Proof.Machine

/-! ## What FLT_SEL holds (R499, R507): no detector's own rule changes it -/

/-- FLT_SEL of every window. -/
def State.sels (s : State) : Vector Word 97 := s.windows.map FaultWindow.sel

section Sels
variable (s : State)

theorem sel_of_sels {s t : State} (h : t.sels = s.sels) (w : Fin 97) : (t.win w).sel = (s.win w).sel := by
  have hg : ∀ u : State, (u.win w).sel = u.sels[w] := fun u => by simp [State.sels, State.win]
  rw [hg, hg, h]

@[simp] theorem sels_modWin (k : Nat) (f : FaultWindow → FaultWindow) (h : ∀ x, (f x).sel = x.sel) : (s.modWin k f).sels = s.sels :=
  map_setIfInBounds_keeps s.windows k f FaultWindow.sel h

@[simp] theorem sels_setFld (f : Field) (i v : Nat) : (s.setFld f i v).sels = s.sels := (rfl)
@[simp] theorem sels_bump (f : Field) (i v : Nat) : (s.bump f i v).sels = s.sels := (rfl)
@[simp] theorem sels_stick (f : Field) (i : Nat) : (s.stick f i).sels = s.sels := (rfl)
@[simp] theorem sels_modTrig (n : Nat) (f : Trig → Trig) : (s.modTrig n f).sels = s.sels := (rfl)
@[simp] theorem sels_modRef (n : Nat) (f : RefInput → RefInput) : (s.modRef n f).sels = s.sels := (rfl)
@[simp] theorem sels_modAnc (n : Nat) (f : Anchor → Anchor) : (s.modAnc n f).sels = s.sels := (rfl)
@[simp] theorem sels_modStn (n : Nat) (f : Station → Station) : (s.modStn n f).sels = s.sels := (rfl)
@[simp] theorem sels_setStn (n : Nat) (x : Station) : (s.setStn n x).sels = s.sels := (rfl)
@[simp] theorem sels_modLane (n : Nat) (f : Lane → Lane) : (s.modLane n f).sels = s.sels := (rfl)
@[simp] theorem sels_later (l : List Later) : ({ s with later := l } : State).sels = s.sels := (rfl)
@[simp] theorem sels_settleAlign : s.settleAlign.sels = s.sels := (rfl)
@[simp] theorem sels_beginReload (u : Nat) : (s.beginReload u).sels = s.sels := by
  unfold State.beginReload; split <;> rfl
@[simp] theorem sels_raiseAs (f : Fid) (k : Nat) (a : Word) (x y : Bool) : (s.raiseAs f k a x y).sels = s.sels := by
  unfold State.raiseAs; split <;> rfl
@[simp] theorem sels_raiseEvent (f : Fid) (a : Word) : (s.raiseEvent f a).sels = s.sels := sels_raiseAs ..
@[simp] theorem sels_markRaise (f : Fid) (b : Bool) : (s.markRaise f b).sels = s.sels := (rfl)
@[simp] theorem sels_each (l : List Nat) (f : State → Nat → State) (h : ∀ s n, (f s n).sels = s.sels) : (s.each l f).sels = s.sels :=
  State.each_keeps State.sels f h s l

@[simp] theorem sels_beginLevel (f : Fid) (a : Word) : (s.beginLevel f a).sels = s.sels := by
  simp [State.beginLevel, apply_ite State.sels]

@[simp] theorem sels_endLevel (f : Fid) : (s.endLevel f).sels = s.sels := by simp [State.endLevel]

@[simp] theorem sels_lapseEntry (f : Fid) (k t : Nat) (w : Word) : (s.lapseEntry f k t w).sels = s.sels :=
  sels_modWin s _ _ fun _ => rfl

@[simp] theorem sels_beginLapse (f : Fid) (k : Nat) (w : Word) (e : LapseEnd) : (s.beginLapse f k w e).sels = s.sels := by
  unfold State.beginLapse
  split
  · rfl
  · exact sels_lapseEntry s ..

@[simp] theorem sels_lapseWith (f : Fid) (w : Word) (e : LapseEnd) : (s.lapseWith f w e).sels = s.sels := by
  simp only [State.lapseWith]
  split
  · rfl
  · split
    · rfl
    · simp

@[simp] theorem sels_postEvent (n : Nat) (e : Event) : (s.postEvent n e).sels = s.sels := by
  simp [State.postEvent, State.bumpEvDrop, apply_ite State.sels]

@[simp] theorem sels_postCoreEvent (c b : Nat) : (s.postCoreEvent c b).sels = s.sels := by
  have posted : (match (List.range 3).find? fun k => s.slot (s.core c).station k == some c with
      | some k => s.postEvent (s.core c).station ⟨b + k, s.now, 0⟩
      | none => s).sels = s.sels := by split <;> simp
  simp only [State.postCoreEvent]
  split
  · exact posted
  · exact posted
  · rfl

/-! ### The detectors that FLT_FORCE sets off -/

@[simp] theorem sels_trigStuck (n : Nat) : (s.trigStuck n).sels = s.sels := by
  simp [State.trigStuck, apply_ite State.sels]

@[simp] theorem sels_refDisqualify (r : Nat) (b : Bool) : (s.refDisqualify r b).sels = s.sels := by
  simp only [State.refDisqualify]
  split
  · simp
  · split <;> simp [apply_ite State.sels]

@[simp] theorem sels_ancInnerLoss (a : Nat) : (s.ancInnerLoss a).sels = s.sels := by
  simp [State.ancInnerLoss, apply_ite State.sels]

@[simp] theorem sels_ancOuterLoss (a : Nat) : (s.ancOuterLoss a).sels = s.sels := by
  simp only [State.ancOuterLoss]
  split
  · rfl
  · rw [apply_ite State.sels]
    split
    · exact (sels_later _ _).trans (by simp)
    · simp

@[simp] theorem sels_coreLoss (c : Nat) : (s.coreLoss c).sels = s.sels := by
  unfold State.coreLoss
  extract_lets x s1 conseq s2 s3 s4
  have h2 : s2.sels = s.sels := (sels_raiseEvent s1 _ _).trans (sels_bump ..)
  have h3 : s3.sels = s2.sels := by
    unfold s3
    split <;> simp
  have h4 : s4.sels = s.sels := (sels_postCoreEvent s3 c 91).trans (h3.trans h2)
  split
  · exact h4
  · exact (sels_later _ _).trans h4

@[simp] theorem sels_threadDown (n : Nat) : (s.threadDown n).sels = s.sels := by
  simp [State.threadDown, apply_ite State.sels]

@[simp] theorem sels_threadCheckFail (k : Nat) : (s.threadCheckFail k).sels = s.sels := by
  simp only [State.threadCheckFail]
  split
  · rfl
  · split <;> simp

@[simp] theorem sels_outShort (o : Nat) : (s.outShort o).sels = s.sels :=
  (sels_later _ _).trans (sels_beginLevel ..)

@[simp] theorem sels_retrain (n : Nat) (b : Bool) : (s.retrain n b).sels = s.sels := by
  simp [State.retrain, State.laneTo, State.dropAligned, apply_ite State.sels]

@[simp] theorem sels_signalLoss (n : Nat) : (s.signalLoss n).sels = s.sels := by
  unfold State.signalLoss
  split
  · simp
  · split <;> simp

@[simp] theorem sels_calAbandon (g : Nat) : (s.calAbandon g).sels = s.sels := by
  unfold State.calAbandon
  split
  · split <;> rfl
  · rfl

@[simp] theorem sels_engineCheck : s.engineCheck.sels = s.sels := by
  simp only [State.engineCheck, sels_raiseEvent]
  split <;> simp

@[simp] theorem sels_detect (f : Fid) : (s.detect f).sels = s.sels := by
  unfold State.detect
  split <;> simp [State.mgmtRestart, apply_ite State.sels]

theorem sels_forceOn (f : Fid) : (s.forceOn f).sels = s.sels := by
  simp [State.forceOn, apply_ite State.sels]

theorem sels_writeItem (c i k : Nat) (d : Word) : (s.writeItem c i k d).sels = s.sels := by
  unfold State.writeItem
  split <;> simp [State.writeForce, State.writeInj, sels_forceOn, apply_ite State.sels]

end Sels

end Sys2Proof.Machine

namespace Sys2Proof.Machine

/-! ## Writes of FLT_DATA (R505 to R507, R529) -/

section FltData
variable (s : State)

/-- FLT_SEL after a write of FLT_DATA: ARM is 0, and ITEM has gone on with AUTOINC. -/
def FaultWindow.disarm (x : FaultWindow) : FaultWindow := { x with sel := putBits x.sel 24 8 0 }.nextItem

def State.disarm (s : State) (w : Nat) : State := s.modWin w FaultWindow.disarm

/-- Going on to the next item changes FLT_SEL alone. -/
theorem nextItem_keeps {α : Type} (g : FaultWindow → α) (hg : ∀ (x : FaultWindow) v, g { x with sel := v } = g x) (x : FaultWindow) :
    g x.nextItem = g x := by
  unfold FaultWindow.nextItem
  split
  · exact hg ..
  · rfl

theorem disarm_keeps {α : Type} (g : FaultWindow → α) (hg : ∀ (x : FaultWindow) v, g { x with sel := v } = g x) (x : FaultWindow) :
    g x.disarm = g x := (nextItem_keeps g hg _).trans (hg ..)

theorem arm_disarm (x : FaultWindow) : getBits x.disarm.sel 24 8 = 0 := by
  have h0 : getBits (putBits x.sel 24 8 0) 24 8 = 0 := getBits_putBits_self _ _ _ _ (by decide)
  unfold FaultWindow.disarm FaultWindow.nextItem
  split
  · exact (getBits_putBits_other _ _ _ _ _ _ (by decide) (by decide)).trans h0
  · exact h0

/-- A write of FLT_DATA disarms the window, and then changes the item unless that is FLT_FORCE or FLT_INJ and ARM did not hold 0xA5. -/
theorem writeFlt_data (w : Fin 97) (d : Word) : s.writeFlt (windowOf w).1 (windowOf w).2 12 d =
    if ((s.win w).selItem = 2 ∨ (s.win w).selItem = 3) ∧ getBits (s.win w).sel 24 8 ≠ 0xA5 then (.state, s.disarm w)
    else (.ok, (s.disarm w).writeItem (windowOf w).1 (windowOf w).2 (s.win w).selItem d) := by
  simp only [State.writeFlt, State.writeFltData, windowIndex_windowOf]
  rfl

/-- An accepted write of FLT_DATA leaves what its item takes. -/
theorem portWrite_fltData (w : Fin 97) (d : Word) (h : s.serves = true)
    (ha : ¬(((s.win w).selItem = 2 ∨ (s.win w).selItem = 3) ∧ getBits (s.win w).sel 24 8 ≠ 0xA5)) :
    ∃ fl, s.portWrite (fltAddr w 12) d =
      { (s.disarm w).writeItem (windowOf w).1 (windowOf w).2 (s.win w).selItem d with
        fleet := fl, hwRel := s.now
        hspi := { ((s.disarm w).writeItem (windowOf w).1 (windowOf w).2 (s.win w).selItem d).hspi with lastw := 0 } } := by
  have hat := writeAt_window s w 3 d (writesRefused_of_serves s _ h)
  rw [show 4 * (3 : Fin 4).val = 12 from rfl, writeFlt_data, if_neg ha] at hat
  exact portWrite_of_writeAt s _ _ d (hostServes_of_serves s h) (not_held_of_serves s h) (stepOne_of_turn s (turn_of_serves s h)) hat

/-- A refused write of FLT_DATA leaves the window disarmed and the port's answer. -/
theorem portWrite_fltData_refused (w : Fin 97) (d : Word) (h : s.serves = true)
    (ha : ((s.win w).selItem = 2 ∨ (s.win w).selItem = 3) ∧ getBits (s.win w).sel 24 8 ≠ 0xA5) :
    ∃ rg sk hs, s.portWrite (fltAddr w 12) d = { s.disarm w with regs := rg, sticks := sk, hspi := hs } ∧
      ({ s.disarm w with regs := rg, sticks := sk, hspi := hs } : State).refusedWith .state := by
  have hat := writeAt_window s w 3 d (writesRefused_of_serves s _ h)
  rw [show 4 * (3 : Fin 4).val = 12 from rfl, writeFlt_data, if_pos ha] at hat
  have hw : s.hostWrite (fltAddr w 12) d = (.state, s.disarm w) := by simp [State.hostWrite, State.writeAddr, hat]
  have ht := portWrite_of_refusal s _ _ d .state h hw (by decide)
  have hr := refusedWith_of_refusal s _ _ d .state h hw (by decide)
  obtain ⟨rg, sk, he⟩ := hspiError_form ((s.disarm w).modHspi fun x => { x with lastw := WStatus.state.code }) (fltAddr w 12) WStatus.state.code
  rw [he] at ht
  exact ⟨rg, sk, _, ht, ht ▸ hr⟩

theorem win_disarm (w : Fin 97) : (s.disarm w).win w = (s.win w).disarm := State.win_modWin_self s w _ w.isLt

theorem sel_writeItem (w : Fin 97) (c i k : Nat) (d : Word) : getBits (((s.disarm w).writeItem c i k d).win w).sel 24 8 = 0 := by
  rw [sel_of_sels (sels_writeItem (s.disarm w) c i k d) w, win_disarm]
  exact arm_disarm _

/-- Only windows change as a window disarms: what is read of other state is as before. -/
theorem isLive_disarm (w : Fin 97) (f : Fid) : (s.disarm w).isLive f = s.isLive f :=
  isLive_modWin s w _ f (disarm_keeps _ fun _ _ => rfl) (disarm_keeps _ fun _ _ => rfl)

/-! ### Forcing and injection -/

theorem raiseAs_of_not_fenced (f : Fid) (k : Nat) (a : Word) (x y : Bool) (h : s.unitFenced f = false) :
    ∃ r : Raise, s.raiseAs f k a x y = { s with raises := s.raises ++ [r] } ∧ r.fid = f ∧ r.at_ = s.elapsed ∧ r.forced = x := by
  simp only [State.raiseAs, h]
  exact ⟨_, rfl, rfl, rfl, rfl⟩

/-- Marking the raises of a source at this tick marks the one raise of it that was just recorded. -/
theorem markRaise_last (f : Fid) (b : Bool) (r : Raise) (ho : ∀ r ∈ s.raises, r.at_ < s.elapsed) (hf : r.fid = f) (ha : r.at_ = s.elapsed) :
    (({ s with raises := s.raises ++ [r] } : State).markRaise f b).raises
      = s.raises ++ [if b then { r with injected := true } else { r with forced := true }] := by
  have hold : s.raises.map (fun r => if r.fid = f ∧ r.at_ = s.elapsed then
      (if b then { r with injected := true } else { r with forced := true }) else r) = s.raises :=
    (List.map_congr_left (g := id) fun r hr => if_neg fun e => by have := ho r hr; omega).trans (List.map_id _)
  simp only [State.markRaise, List.map_append, List.map_cons, List.map_nil, hf, ha, true_and, if_true]
  rw [hold]

/-- A bit of FLT_FORCE whose detector has no rule of its own, of a source that is not live, raises it once, marked (R505). -/
theorem forceOn_quiet (f : Fid) (hd : s.detect f = s) (hf : s.unitFenced f = false) (hu : bitOf (usedSources f.code) f.bit = true)
    (hl : s.isLive f = false) (ho : ∀ r ∈ s.raises, r.at_ < s.elapsed) :
    ∃ r : Raise, (s.forceOn f).raises = s.raises ++ [r] ∧ r.fid = f ∧ r.forced = true := by
  obtain ⟨r, ht, hid, hat, hfo⟩ := raiseAs_of_not_fenced s f s.now 0 true false hf
  have hn : ((s.raises.drop s.raises.length).any fun r => r.fid == f) = false := by simp
  refine ⟨{ r with forced := true }, ?_, hid, rfl⟩
  simp only [State.forceOn, hf, hu, hd, hl, hn, ht, Bool.not_true, Bool.or_false, Bool.false_eq_true, if_false]
  exact markRaise_last s f false r ho hid hat

/-- A word with one bit set names that bit alone. -/
theorem bitsOf_two_pow (b : Fin 32) : bitsOf (BitVec.ofNat 32 (2 ^ b.val)) 32 = [b.val] := by decide +revert

/-- FLT_FORCE from 0 to one bit, of a source whose detector has no rule of its own and that is not live: it raises, marked (R505). -/
theorem writeForce_single (w : Fin 97) (b : Fin 32) (hfo : (s.win w).force = 0)
    (hd : ∀ u : State, u.detect ⟨(windowOf w).1, (windowOf w).2, b.val⟩ = u)
    (hf : s.unitFenced ⟨(windowOf w).1, (windowOf w).2, b.val⟩ = false) (hu : bitOf (usedSources (windowOf w).1) b = true)
    (hl : s.isLive ⟨(windowOf w).1, (windowOf w).2, b.val⟩ = false) (ho : ∀ r ∈ s.raises, r.at_ < s.elapsed) :
    let t := s.writeForce (windowOf w).1 (windowOf w).2 (BitVec.ofNat 32 (2 ^ b.val))
    (t.win w).force = BitVec.ofNat 32 (2 ^ b.val) ∧ ∃ r : Raise, t.raises = s.raises ++ [r] ∧
      r.fid = ⟨(windowOf w).1, (windowOf w).2, b.val⟩ ∧ r.forced = true := by
  have hm : s.modWin w (fun x => { x with force := x.force &&& BitVec.ofNat 32 (2 ^ b.val) }) = s :=
    modWin_same s w _ (by
      rw [show (s.win w).force &&& BitVec.ofNat 32 (2 ^ b.val) = (s.win w).force by rw [hfo]; exact BitVec.zero_and])
  have hb : ([b.val].filter fun k => !bitOf (0 : Word) k) = [b.val] := by simp [bitOf]
  have ht : s.writeForce (windowOf w).1 (windowOf w).2 (BitVec.ofNat 32 (2 ^ b.val))
      = (s.forceOn ⟨(windowOf w).1, (windowOf w).2, b.val⟩).modWin w fun x => { x with force := BitVec.ofNat 32 (2 ^ b.val) } := by
    simp only [State.writeForce, windowIndex_windowOf, hm, hfo, bitsOf_two_pow, hb, State.each]
  intro t
  obtain ⟨r, hr, hid, hfr⟩ := forceOn_quiet s _ (hd s) hf hu hl ho
  have hw : t.win w = _ := (congrArg (fun u : State => u.win w) ht).trans (State.win_modWin_self _ w _ w.isLt)
  exact ⟨congrArg FaultWindow.force hw, r, (congrArg State.raises ht).trans hr, hid, hfr⟩

/-- FLT_INJ takes the injectable sources that a write names, while no unit of them is fenced (R506). -/
theorem writeInj_unfenced (w : Fin 97) (d : Word) (hf : ∀ b : Fin 32, s.unitFenced ⟨(windowOf w).1, (windowOf w).2, b.val⟩ = false) :
    s.writeInj (windowOf w).1 (windowOf w).2 d = s.modWin w fun x => { x with inj := d &&& injectable (windowOf w).1 } := by
  have all : ∀ (l : List Nat) (x : Word), (∀ b ∈ l, b < 32) →
      l.foldl (fun x b => if s.unitFenced ⟨(windowOf w).1, (windowOf w).2, b⟩ then setBit x b false else x) x = x := by
    intro l
    induction l with
    | nil => exact fun _ _ => rfl
    | cons b l ih =>
      intro x hl
      rw [List.foldl_cons, hf ⟨b, hl b (.head _)⟩]
      exact ih x fun c hc => hl c (.tail _ hc)
  simp only [State.writeInj, windowIndex_windowOf]
  rw [all _ _ fun b hb => ((mem_bitsOf _ _ _).1 hb).1]

/-- An injected check of a source without a rule of its own raises it, marked, and clears its bit (R506). -/
theorem injectedCheck_raises (w : Fin 97) (b : Fin 32) (es : List Nat) (k : Nat) (hb : bitOf (s.win w).inj b = true)
    (hc : (windowOf w).1 ∉ [0, 5, 10, 15, 16, 17]) (hf : s.unitFenced ⟨(windowOf w).1, (windowOf w).2, b.val⟩ = false)
    (hr : s.checkerRuns ⟨(windowOf w).1, (windowOf w).2, b.val⟩ = true) (ho : ∀ r ∈ s.raises, r.at_ < s.elapsed) :
    let t := s.injectedCheck ⟨(windowOf w).1, (windowOf w).2, b.val⟩ es k
    bitOf (t.win w).inj b = false ∧ ∃ r : Raise, t.raises = s.raises ++ [r] ∧
      r.fid = ⟨(windowOf w).1, (windowOf w).2, b.val⟩ ∧ r.injected = true := by
  have hraise : ∀ u : State, u.injectedFault ⟨(windowOf w).1, (windowOf w).2, b.val⟩ es k
      = u.raiseEvent ⟨(windowOf w).1, (windowOf w).2, b.val⟩ 0 := by
    intro u
    unfold State.injectedFault
    split <;> simp_all
  intro t
  obtain ⟨r, ht, hid, hat, -⟩ := raiseAs_of_not_fenced (s.modWin w fun x => { x with inj := setBit x.inj b false })
    ⟨(windowOf w).1, (windowOf w).2, b.val⟩ s.now 0 false false hf
  have hs : t = State.markRaise { s.modWin w fun x => { x with inj := setBit x.inj b false } with raises := s.raises ++ [r] }
      ⟨(windowOf w).1, (windowOf w).2, b.val⟩ true := by
    simp only [t, State.injectedCheck, windowIndex_windowOf, hb, hf, hr, hraise]
    exact congrArg (fun u : State => u.markRaise _ true) ht
  have hw : t.win w = { s.win w with inj := setBit (s.win w).inj b false } :=
    (congrArg (fun u : State => u.win w) hs).trans
      (State.win_modWin_self s w (fun x => { x with inj := setBit x.inj b false }) w.isLt)
  refine ⟨?_, { r with injected := true }, (congrArg State.raises hs).trans (markRaise_last s _ true r ho hid hat), hid, rfl⟩
  rw [hw]
  exact bitOf_setBit_self _ _ _ b.isLt

/-- An armed write of FLT_INJ. -/
theorem fltInjWrite_armed (w : Fin 97) (d : Word) (h : s.serves = true) (hi : (s.win w).selItem = 3)
    (ha : getBits (s.win w).sel 24 8 = 0xA5) (hf : ∀ b : Fin 32, s.unitFenced ⟨(windowOf w).1, (windowOf w).2, b.val⟩ = false) :
    completes (.fltInjWrite w d) s fun t => (t.win w).inj = d &&& injectable (windowOf w).1 ∧ t.raises = s.raises ∧ s.wrote t := by
  obtain ⟨fl, ht⟩ := portWrite_fltData s w d h fun e => e.2 ha
  have hw : (s.disarm w).writeItem (windowOf w).1 (windowOf w).2 (s.win w).selItem d =
      (s.disarm w).modWin w fun x => { x with inj := d &&& injectable (windowOf w).1 } := by
    rw [hi]
    exact writeInj_unfenced (s.disarm w) w d hf
  have hself := State.win_modWin_self (s.disarm w) w (fun x => { x with inj := d &&& injectable (windowOf w).1 }) w.isLt
  rw [hw] at ht
  exact ⟨_, (congrArg Host.Outcome.next (if_pos hi)).trans (congrArg _ ht), congrArg FaultWindow.inj hself, rfl, rfl, rfl⟩

end FltData

/-- Settles O45: FLT_DATA's rule armed and not armed, the raise that forcing and an injected check record, and the tally's read. -/
theorem faultsAreForcedAndRead : Obligations.FaultsAreForcedAndRead := by
  refine ⟨?_, ?_, ?_, ?_, ?_, ?_, ?_⟩
  · intro s w b h hi ha hfo hd hf hu hl ho
    obtain ⟨fl, ht⟩ := portWrite_fltData s w (BitVec.ofNat 32 (2 ^ b.val)) h fun e => e.2 ha
    have hfo' : ((s.disarm w).win w).force = 0 := by
      rw [win_disarm, disarm_keeps FaultWindow.force fun _ _ => rfl, hfo]
    obtain ⟨h1, r, h2, h3, h4⟩ := writeForce_single (s.disarm w) w b hfo' hd hf hu ((isLive_disarm s w _).trans hl) ho
    have hsel := sel_writeItem s w (windowOf w).1 (windowOf w).2 2 (BitVec.ofNat 32 (2 ^ b.val))
    refine ⟨_, (congrArg Host.Outcome.next (if_pos hi)).trans (congrArg _ ht), ?_⟩
    rw [hi]
    exact ⟨h1, ⟨rfl, rfl⟩, hsel, r, h2, h3, h4⟩
  · intro s w d h ha
    constructor <;> intro hi
    · obtain ⟨rg, sk, hs, ht, hr⟩ := portWrite_fltData_refused s w d h ⟨.inl hi, ha⟩
      refine ⟨_, (congrArg Host.Outcome.next (if_pos hi)).trans (congrArg _ ht), hr, ?_, rfl⟩
      exact (congrArg FaultWindow.force (win_disarm s w)).trans (disarm_keeps _ (fun _ _ => rfl) _)
    · obtain ⟨rg, sk, hs, ht, hr⟩ := portWrite_fltData_refused s w d h ⟨.inr hi, ha⟩
      refine ⟨_, (congrArg Host.Outcome.next (if_pos hi)).trans (congrArg _ ht), hr, ?_, rfl⟩
      exact (congrArg FaultWindow.inj (win_disarm s w)).trans (disarm_keeps _ (fun _ _ => rfl) _)
  · intro s w d h
    refine ⟨_, rfl, ?_⟩
    rw [show fltAddr w 12 = fltAddr w (4 * (3 : Fin 4)) from rfl, fltAddr_toNat]
    by_cases ha : ((s.win w).selItem = 2 ∨ (s.win w).selItem = 3) ∧ getBits (s.win w).sel 24 8 ≠ 0xA5
    · obtain ⟨rg, sk, hs, ht, -⟩ := portWrite_fltData_refused s w d h ha
      refine (congrArg (fun t : State => getBits (t.win w).sel 24 8) ht).trans ?_
      exact (congrArg (fun x : FaultWindow => getBits x.sel 24 8) (win_disarm s w)).trans (arm_disarm _)
    · obtain ⟨fl, ht⟩ := portWrite_fltData s w d h ha
      exact (congrArg (fun t : State => getBits (t.win w).sel 24 8) ht).trans (sel_writeItem s w _ _ _ d)
  · intro s w d h hi ha hf
    exact fltInjWrite_armed s w d h hi ha hf
  · intro s w b es k hr hb hc hf hrun ho
    exact ⟨_, congrArg Host.Outcome.next (if_pos hr), injectedCheck_raises s w b es k hb hc hf hrun ho⟩
  · intro s w b es k hb
    refine ⟨_, rfl, ?_⟩
    simp [State.injectedCheck, windowIndex_windowOf, hb]
  · exact fun s w i e hs h4 hi he => tallyRead_entry s w i e hs h4 hi he

end Sys2Proof.Machine

namespace Sys2Proof.Machine

/-! ## The reaction to a raise (R501, R508 to R523) -/

/-- A reading of the state that records of faults do not bear on: windows, raises and lapses. -/
structure RecordBlind {α : Type} (g : State → α) : Prop where
  windows : ∀ (s : State) k f, g (s.modWin k f) = g s
  raises : ∀ (s : State) rs, g { s with raises := rs } = g s
  lapses : ∀ (s : State) ls, g { s with lapses := ls } = g s

namespace RecordBlind
variable {α : Type} {g : State → α} (hg : RecordBlind g) (s : State)
include hg

theorem raiseAs (f : Fid) (k : Nat) (a : Word) (x y : Bool) : g (s.raiseAs f k a x y) = g s := by
  obtain ⟨rs, h⟩ := raiseAs_form s f k a x y
  exact (congrArg g h).trans (hg.raises s rs)

theorem beginLevel (f : Fid) (a : Word) : g (s.beginLevel f a) = g s := by
  unfold State.beginLevel
  extract_lets s'
  split
  · rfl
  · split
    · exact hg.windows ..
    · exact (hg.raiseAs ..).trans (hg.windows ..)

theorem openWindow (c i : Nat) (f : Fid) (l : List Fid) : g (s.openWindow c i f l) = g s := by
  have all : ∀ (n : Nat) (l : List Fid) (u : State), g (l.foldl (fun (s : State) x => s.suppress n f x) u) = g u := by
    intro n l
    induction l with
    | nil => exact fun _ => rfl
    | cons x l ih => exact fun u => (ih _).trans (hg.windows ..)
  exact all _ l s

theorem beginLapse (f : Fid) (k : Nat) (w : Word) (e : LapseEnd) : g (s.beginLapse f k w e) = g s := by
  unfold State.beginLapse
  split
  · rfl
  · exact (hg.lapses ..).trans (hg.windows ..)

theorem lapseWith (f : Fid) (w : Word) (e : LapseEnd) : g (s.lapseWith f w e) = g s := by
  unfold State.lapseWith
  extract_lets w'
  split
  · rfl
  · split
    · exact hg.raises ..
    · exact hg.beginLapse ..

theorem endLapses (p : Lapse → Bool) : g (s.endLapses p) = g s := endLapses_keeps s g p hg.windows hg.lapses

theorem raiseLapse (r : Raise) (w : Word) (e : LapseEnd) : g (s.raiseLapse r w e) = g s := by
  unfold State.raiseLapse
  extract_lets s'
  split
  · exact (hg.endLapses ..).trans (hg.beginLapse ..)
  · exact hg.beginLapse ..

/-- An event posted to a station changes its queue, the count of dropped events and the records of its overrun. -/
theorem postEvent (hs : ∀ (s : State) n x, g (s.setStn n x) = g s) (hb : ∀ (s : State) n, g (s.bumpEvDrop n) = g s) (n : Nat) (e : Event) :
    g (s.postEvent n e) = g s := by
  unfold State.postEvent
  extract_lets t
  split
  · rfl
  · split
    · exact (hb ..).trans (hs ..)
    · split
      · split
        · exact (hg.lapseWith ..).trans ((hg.raiseAs ..).trans (hb ..))
        · exact hb ..
      · exact hs ..

theorem postFault (hs : ∀ (s : State) n x, g (s.setStn n x) = g s) (hb : ∀ (s : State) n, g (s.bumpEvDrop n) = g s) (r : Raise) :
    g (s.postFault r) = g s := by
  unfold State.postFault
  extract_lets e
  split
  · exact hg.postEvent s hs hb ..
  · split
    · exact hg.postEvent s hs hb ..
    · rfl
  · rfl

end RecordBlind

theorem recordBlind_cores : RecordBlind State.cores := ⟨fun _ _ _ => rfl, fun _ _ => rfl, fun _ _ => rfl⟩
theorem recordBlind_outs : RecordBlind State.outs := ⟨fun _ _ _ => rfl, fun _ _ => rfl, fun _ _ => rfl⟩
theorem recordBlind_stations : RecordBlind State.stations := ⟨fun _ _ _ => rfl, fun _ _ => rfl, fun _ _ => rfl⟩

/-! ### One raise that is due -/

/-- The state with every raise taken from its list. -/
def State.unraised (s : State) : State := { s with raises := [] }

/-- With one raise, stamped before the present tick, the reaction is the reaction to it. -/
theorem faultReaction_single (s : State) (r : Raise) (h : s.raises = [r]) (ha : r.at_ < s.elapsed) :
    s.faultReaction = s.unraised.react r := by
  simp [State.faultReaction, State.unraised, h, ha, sortRaises, insertRaise]

/-- What is stamped at the present tick waits. -/
theorem faultReaction_waits (s : State) (h : ∀ r ∈ s.raises, s.elapsed ≤ r.at_) : s.faultReaction = s := by
  have h1 : s.raises.filter (fun r => decide (r.at_ < s.elapsed)) = [] :=
    List.filter_eq_nil_iff.2 fun r hr => by simpa using h r hr
  have h2 : s.raises.filter (fun r => !decide (r.at_ < s.elapsed)) = s.raises :=
    List.filter_eq_self.2 fun r hr => by simpa using h r hr
  simp only [State.faultReaction, h1, h2]
  rfl

/-- A raise that no consequence window suppresses is taken. -/
theorem react_of_unsuppressed (s : State) (r : Raise) (h : (s.win (windowIndex r.fid.code r.fid.inst)).suppresses r = none) :
    s.react r = s.takeFault r ((s.win (windowIndex r.fid.code r.fid.inst)).effective r) := by
  simp only [State.react, h]

theorem faultReaction_taken (s : State) (r : Raise) (h : s.raises = [r]) (ha : r.at_ < s.elapsed)
    (hs : (s.win (windowIndex r.fid.code r.fid.inst)).suppresses r = none) :
    s.faultReaction = s.unraised.takeFault r ((s.win (windowIndex r.fid.code r.fid.inst)).effective r) :=
  (faultReaction_single s r h ha).trans (react_of_unsuppressed s.unraised r hs)

/-- What a fault taken leaves before the part of its class: its event, its entry and bits, its grace timer, and the reset of its unit. -/
def State.enterFault (s : State) (r : Raise) (ecls : Nat) : State :=
  let wi := windowIndex r.fid.code r.fid.inst
  let s := if 1 ≤ ecls && !r.grace then s.postFault r else s
  let s := s.modWin wi fun w => (w.addEntry (r.entry ecls r.noSpare)).takes s.elapsed r.fid.bit ecls
  let timed := bitOf (s.win wi).grace r.fid.bit && r.cls == 1 && ecls == 1 && !bitOf (fixedSources r.fid.code) r.fid.bit
  let s := if timed then s.modWin wi fun w =>
      { w with graceTimers := w.graceTimers ++ [⟨r.fid.bit, s.elapsed + w.gtime, r⟩] } else s
  s.resetWindow r.fid

theorem takeFault_minor (s : State) (r : Raise) (e : Nat) (h : e ≤ 1) (hl : r.lapse = none) : s.takeFault r e = s.enterFault r e := by
  obtain rfl | rfl : e = 0 ∨ e = 1 := by omega
  all_goals simp only [State.takeFault, hl]; rfl

/-- A fault of class 2 fences its unit; the records of its lapse follow. -/
theorem takeFault_fences {α : Type} {g : State → α} (hg : RecordBlind g) (s : State) (r : Raise) (x : Fenced)
    (hx : (s.enterFault r 2).fenceUnit r.fid r.noSpare = some x) : g (s.takeFault r 2) = g x.after := by
  have ht : s.takeFault r 2 =
      (let u := if x.noSpare then x.after.modWin (windowIndex r.fid.code r.fid.inst) fun w => { w with tally := markNoSpare w.tally }
        else x.after
       match r.lapse with
       | some l => u.raiseLapse r (l.1 ||| x.stations) (if x.stations = 0 then l.2 else x.ends)
       | none => u.raiseLapse r x.stations x.ends) := by
    change (match (s.enterFault r 2).fenceUnit r.fid r.noSpare with | some x => _ | none => _) = _
    rw [hx] <;> rfl
  have hu : g (if x.noSpare then x.after.modWin (windowIndex r.fid.code r.fid.inst) fun w => { w with tally := markNoSpare w.tally }
      else x.after) = g x.after := by
    split
    · exact hg.windows ..
    · rfl
  rw [ht]
  extract_lets u
  split
  · exact (hg.raiseLapse ..).trans hu
  · exact (hg.raiseLapse ..).trans hu

end Sys2Proof.Machine

namespace Sys2Proof.Machine

/-! ### Fences of units (R509, Table 13.3) -/

/-- A unit that is not of block 0 has no reset of its own. -/
theorem resetWindow_of_unit (s : State) (f : Fid) (h : f.code ≠ 0) : s.resetWindow f = s := by
  have hn : f ≠ Src.glb_MGMT_CHECK ∧ f ≠ Src.glb_MGMT_WATCHDOG ∧ f ≠ Src.glb_LANECTL_CHECK :=
    ⟨fun e => h (e ▸ rfl), fun e => h (e ▸ rfl), fun e => h (e ▸ rfl)⟩
  simp [State.resetWindow, hn]

theorem RecordBlind.enterFault {α : Type} {g : State → α} (hg : RecordBlind g) (s : State) (r : Raise) (e : Nat)
    (hs : ∀ (s : State) n x, g (s.setStn n x) = g s) (hb : ∀ (s : State) n, g (s.bumpEvDrop n) = g s) (hc : r.fid.code ≠ 0) :
    g (s.enterFault r e) = g s := by
  unfold State.enterFault
  extract_lets wi s1 s2 timed s3
  have h1 : g s1 = g s := by
    unfold s1
    split
    · exact hg.postFault s hs hb r
    · rfl
  have h2 : g s2 = g s := (hg.windows ..).trans h1
  have h3 : g s3 = g s := by
    unfold s3
    split
    · exact (hg.windows ..).trans h2
    · exact h2
  rw [resetWindow_of_unit _ _ hc, h3]

/-! #### A core -/

/-- The role of a core and its fence bit. -/
def State.fenceOf (c : Nat) (s : State) : CoreRole × Bool := ((s.core c).role, bitOf (s.reg .CORE_FENCESUM 0) c)

theorem recordBlind_fenceOf (c : Nat) : RecordBlind (State.fenceOf c) := ⟨fun _ _ _ => rfl, fun _ _ => rfl, fun _ _ => rfl⟩

theorem fenceOf_bumpEvDrop (c : Nat) (s : State) (n : Nat) : (s.bumpEvDrop n).fenceOf c = s.fenceOf c := by
  have h : (s.bumpEvDrop n).reg .CORE_FENCESUM 0 = s.reg .CORE_FENCESUM 0 := by
    unfold State.bumpEvDrop
    split <;> exact reg_setFld_ne _ _ _ _ _ _ (by decide)
  exact congrArg (fun w => ((s.core c).role, bitOf w c)) h

/-- A change of another field of a core's record leaves every role. -/
theorem fenceOf_modCore (c k : Nat) (s : State) (f : Core → Core) (h : ∀ x, (f x).role = x.role) :
    (s.modCore k f).fenceOf c = s.fenceOf c := by
  have hr : ((s.modCore k f).core c).role = (s.core c).role := by
    by_cases e : k = c
    · subst e
      by_cases hk : k < 26
      · rw [State.core_modCore_self s k f hk, h]
      · simp [State.modCore, State.setCore, State.core, hk]
    · rw [State.core_modCore_other s k c f e]
  exact congrArg (fun r => (r, bitOf (s.reg .CORE_FENCESUM 0) c)) hr

theorem fenceOf_bringSpare (c d : Nat) (s : State) : (s.bringSpare d).2.fenceOf c = s.fenceOf c := by
  unfold State.bringSpare
  split
  · rfl
  · split
    · exact fenceOf_modCore c _ s _ fun _ => rfl
    · rfl

theorem fenceOf_dropPrep (c d : Nat) (s : State) : (s.dropPrep d).fenceOf c = s.fenceOf c := by
  refine State.each_keeps (State.fenceOf c) _ (fun s n => State.each_keeps (State.fenceOf c) _ (fun s k => ?_) _ _) _ _
  split
  · split
    · exact (State.each_keeps (State.fenceOf c) (fun s j => s.modSlot n j _) (fun _ _ => rfl) _ _)
    · rfl
  · rfl

theorem fenceOf_unsettle (c d : Nat) (s : State) : (s.unsettle d).fenceOf c = s.fenceOf c := by
  refine State.each_keeps (State.fenceOf c) _ (fun s n => State.each_keeps (State.fenceOf c) _ (fun s k => ?_) _ _) _ _
  split <;> rfl

theorem fenceOf_calAbandon (c d : Nat) (s : State) : (s.calAbandon d).fenceOf c = s.fenceOf c := by
  unfold State.calAbandon
  split
  · split <;> rfl
  · rfl

/-- A core that is fenced is FENCED and has its bit in CORE_FENCESUM. -/
theorem fenceOf_fenceCore (c : Fin 26) (s : State) : (s.fenceCore c).fenceOf c = (.fenced, true) := by
  unfold State.fenceCore
  extract_lets s1 s2 s3
  have h2 : bitOf (s2.reg .CORE_FENCESUM 0) c = true := by
    rw [State.reg_setReg_self]
    exact bitOf_setBit_self _ _ _ (by omega)
  have h4 : bitOf ((((s3.unsettle c).calAbandon c)).reg .CORE_FENCESUM 0) c = true :=
    (congrArg Prod.snd ((fenceOf_calAbandon c c _).trans (fenceOf_unsettle c c s3))).trans h2
  refine Prod.ext ?_ h4
  exact congrArg Core.role (State.core_modCore_self _ c _ c.isLt)

theorem fenceOf_fenceForCore (c : Fin 26) (s : State) (f : Fid) : (s.fenceForCore c f).after.fenceOf c = (.fenced, true) := by
  unfold State.fenceForCore
  extract_lets x st s1 served
  have hf : s1.fenceOf c = (.fenced, true) := fenceOf_fenceCore c _
  clear_value served s1
  split
  next bad u hu =>
  have hu' : u.fenceOf c = (.fenced, true) := by
    split at hu
    · split at hu
      · exact (congrArg (fun p : Bool × State => p.2.fenceOf c) hu).symm.trans ((fenceOf_bringSpare c _ s1).trans hf)
      · exact (congrArg (fun p : Bool × State => p.2.fenceOf c) hu).symm.trans hf
    · exact (congrArg (fun p : Bool × State => p.2.fenceOf c) hu).symm.trans hf
  extract_lets t
  change t.fenceOf c = _
  unfold t
  split
  · exact ((recordBlind_fenceOf c).beginLevel ..).trans ((fenceOf_dropPrep ..).trans hu')
  · exact hu'

/-! #### An output and a station -/

theorem out_of_outs {s t : State} (h : t.outs = s.outs) (o : Nat) : t.out o = s.out o := congrArg (fun v => v[o]?.getD default) h

theorem calAbandon_outs (s : State) (g : Nat) : (s.calAbandon g).outs = s.outs := by
  unfold State.calAbandon
  split
  · split <;> rfl
  · rfl

theorem calAbandon_cores (s : State) (g : Nat) : (s.calAbandon g).cores = s.cores := by
  unfold State.calAbandon
  split
  · split <;> rfl
  · rfl

/-- What a fence makes of an output's record. -/
def Output.fence (x : Output) : Output :=
  { x with domainOn := false, readyAt := none, burst := none, periodic := none, rbMiss := 0, rbPhaseRun := 0, fenced := true }

theorem modOut_modOut (s : State) (o : Fin 32) (f g : Output → Output) : (s.modOut o f).modOut o g = s.modOut o fun x => g (f x) := by
  have h := State.out_modOut_self s o f o.isLt
  change (s.modOut o f).setOut o (g ((s.modOut o f).out o)) = s.setOut o (g (f (s.out o)))
  rw [h]
  simp [State.modOut, State.setOut]

/-- The fence of an output changes its record alone among outputs and cores. -/
theorem fenceForOut_form (o : Fin 32) (s : State) (f : Fid) :
    (s.fenceForOut o f).after.outs = (s.modOut o Output.fence).outs ∧ (s.fenceForOut o f).after.cores = s.cores := by
  unfold State.fenceForOut
  extract_lets st fed u
  have ho : ((s.openWindow 6 o f fed).calAbandon (26 + o)).outs = s.outs := (calAbandon_outs ..).trans (recordBlind_outs.openWindow ..)
  have hu : u = ((s.openWindow 6 o f fed).calAbandon (26 + o)).modOut o Output.fence := modOut_modOut _ o _ _
  have hc : u.cores = s.cores := (congrArg State.cores hu).trans ((calAbandon_cores ..).trans (recordBlind_cores.openWindow ..))
  refine ⟨(congrArg State.outs hu).trans ?_, hc⟩
  exact congrArg (fun v : Vector Output 32 => v.setIfInBounds o (Output.fence (v[o.val]?.getD default))) ho

/-- An output that is fenced has its domain off; no core and no other output changes. -/
theorem fenceForOut_after (o : Fin 32) (s t : State) (f : Fid) (ht : t.outs = (s.fenceForOut o f).after.outs) :
    (t.out o).fenced = true ∧ (t.out o).domainOn = false ∧ ∀ p : Fin 32, p ≠ o → t.out p = s.out p := by
  have h := out_of_outs (ht.trans (fenceForOut_form o s f).1)
  have hself := State.out_modOut_self s o Output.fence o.isLt
  refine ⟨?_, ?_, fun p hp => ?_⟩
  · rw [h, hself]; rfl
  · rw [h, hself]; rfl
  · rw [h, State.out_modOut_other s o p Output.fence fun e => hp (Fin.ext e.symm)]

theorem not_running_stopStation (s : State) (n : Fin 8) (r : RunState) (hr : r = .stopped ∨ r = .exception) :
    ((s.stopStation n r).stn n).running = false := by
  rw [Station.running, (stn_stopStation (s := s) (n := n) r).1]
  obtain rfl | rfl := hr <;> rfl

/-- A station that is fenced does not run; no core and no output changes. -/
theorem fenceForStation_after (n : Fin 8) (s : State) :
    ((s.fenceForStation n).after.stn n).running = false ∧ (s.fenceForStation n).after.cores = s.cores ∧
      (s.fenceForStation n).after.outs = s.outs := by
  have ha : (s.fenceForStation n).after = if (s.stn n).running then
      s.stopStation n (if (s.stn n).endedAt.isSome then .exception else .stopped) else s := rfl
  rw [ha]
  split
  · exact ⟨not_running_stopStation s n _ (by split <;> simp), rfl, rfl⟩
  · next h => exact ⟨Bool.eq_false_iff.2 h, rfl, rfl⟩

/-! ### Grave faults (R523) -/

/-- A station that runs is stopped, and every other one is as it was. -/
theorem stops_running (s : State) (k : Fin 8) :
    ((s.each ((List.range 8).filter fun n => (s.stn n).running) fun s n => s.stopStation n .stopped).stn k).running = false := by
  have hone : ∀ (u : State) (m : Nat), m ≠ k.val → (u.stopStation m .stopped).stn k = u.stn k := fun u m h =>
    State.stn_modStn_other u m k _ h
  by_cases h : (s.stn k).running = true
  · obtain ⟨u, -, hu⟩ := State.each_once (p := fun u : State => u.stn k) hone s
      (l := (List.range 8).filter fun n => (s.stn n).running)
      (List.mem_filter.2 ⟨List.mem_range.2 k.isLt, h⟩) (List.nodup_range.filter _)
    exact (congrArg Station.running hu).trans (not_running_stopStation u k _ (.inl rfl))
  · have hn := State.each_of_not_mem (p := fun u : State => u.stn k) hone s
      (l := (List.range 8).filter fun n => (s.stn n).running) fun hm => h (List.mem_filter.1 hm).2
    exact (congrArg Station.running hn).trans (Bool.eq_false_iff.2 h)

theorem activeOff_stations (s : State) : s.activeOff.stations = s.stations := by
  have hcal : ∀ (s : State) g, (s.calAbandon g).stations = s.stations := fun s g => by
    unfold State.calAbandon
    split
    · split <;> rfl
    · rfl
  have hout := State.each_keeps State.stations State.outOff fun s o => hcal s (26 + o)
  have hcore := State.each_keeps State.stations State.coreOff fun s c => hcal s c
  have hlane := State.each_keeps State.stations State.laneOff fun s n => by
    unfold State.laneOff State.dropAligned
    split <;> rfl
  unfold State.activeOff
  extract_lets s1 s2 s3
  have h1 : s1.stations = s.stations := hout s _
  have h2 : s2.stations = s1.stations := hcore s1 _
  have h3 : s3.stations = s2.stations := hlane s2 _
  have h : s3.stations = s.stations := h3.trans (h2.trans h1)
  clear_value s3
  exact h

/-- After a grave fault the device is HALTED: gated, stopped, with no scheduled write. -/
theorem graveHalt_ends (s : State) :
    s.graveHalt.halted = true ∧ s.graveHalt.power = 5 ∧ s.graveHalt.allGated = true ∧ s.graveHalt.anyRunning = false ∧
      s.graveHalt.sched = [] := by
  have hh : s.graveHalt.halted = true := rfl
  refine ⟨hh, State.fld_setFld_self _ _ _ _ (by decide), allGated_of_halted _ hh, ?_, rfl⟩
  have hst : s.graveHalt.stations =
      (s.each ((List.range 8).filter fun n => (s.stn n).running) fun s n => s.stopStation n .stopped).stations := by
    have hcut : ∀ u : State, u.storeCut.stations = u.stations := fun u => by unfold State.storeCut; split <;> rfl
    unfold State.graveHalt
    extract_lets s1 s2 s3 s4 s5 s6
    have h2 : s2.stations = s1.stations := (hcut s1.activeOff).trans (activeOff_stations s1)
    have h3 : s3.stations = s2.stations := State.each_keeps State.stations
      (fun s a => s.modAnc a fun x => { x with state := .off, inner := false, outer := false, hasTick := false }) (fun _ _ => rfl) s2 _
    have h : s3.stations = s1.stations := h3.trans h2
    clear_value s3
    exact h
  rw [State.anyRunning, List.any_eq_false]
  intro k hk
  rw [stn_of_stations hst k, stops_running s ⟨k, List.mem_range.1 hk⟩]
  exact Bool.false_ne_true

end Sys2Proof.Machine

namespace Sys2Proof.Machine

/-! ### Faults of class 0 and 1 (R512, R513) -/

section
variable {α : Type} {g : State → α} (hw : ∀ (s : State) k f, g (s.modWin k f) = g s) (s : State)
include hw

/-- Opening a consequence window changes windows alone. -/
theorem openWindow_keeps (c i : Nat) (f : Fid) (l : List Fid) : g (s.openWindow c i f l) = g s := by
  have all : ∀ (n : Nat) (l : List Fid) (u : State), g (l.foldl (fun (s : State) x => s.suppress n f x) u) = g u := by
    intro n l
    induction l with
    | nil => exact fun _ => rfl
    | cons x l ih => exact fun u => (ih _).trans (hw ..)
  exact all _ l s

/-- With no mailbox command in progress, a unit's own reset changes windows alone. -/
theorem resetWindow_idle (f : Fid) (hb : s.mbx.busy = false) : g (s.resetWindow f) = g s := by
  unfold State.resetWindow
  split
  · extract_lets u
    have hu : u.mbx.busy = false := (congrArg Mailbox.busy (openWindow_keeps (g := State.mbx) (fun _ _ _ => rfl) s ..)).trans hb
    rw [if_neg (by simp [hu])]
    exact openWindow_keeps hw s ..
  · split
    · exact openWindow_keeps hw s ..
    · rfl

end

/-- Opening a consequence window changes of a window what suppresses its sources alone. -/
theorem win_openWindow_keeps {α : Type} (g : FaultWindow → α) (hg : ∀ (x : FaultWindow) l, g { x with supp := l } = g x) (s : State)
    (c i : Nat) (f : Fid) (l : List Fid) (k : Nat) : g ((s.openWindow c i f l).win k) = g (s.win k) := by
  have all : ∀ (n : Nat) (l : List Fid) (u : State), g ((l.foldl (fun (s : State) x => s.suppress n f x) u).win k) = g (u.win k) := by
    intro n l
    induction l with
    | nil => exact fun _ => rfl
    | cons x l ih => exact fun u => (ih _).trans (win_modWin_keeps u g _ _ _ fun w => hg w _)
  exact all _ l s

theorem win_resetWindow_idle {α : Type} (g : FaultWindow → α) (hg : ∀ (x : FaultWindow) l, g { x with supp := l } = g x) (s : State)
    (f : Fid) (hb : s.mbx.busy = false) (k : Nat) : g ((s.resetWindow f).win k) = g (s.win k) := by
  unfold State.resetWindow
  split
  · extract_lets u
    have hu : u.mbx.busy = false := (congrArg Mailbox.busy (openWindow_keeps (g := State.mbx) (fun _ _ _ => rfl) s ..)).trans hb
    rw [if_neg (by simp [hu])]
    exact win_openWindow_keeps g hg s ..
  · split
    · exact win_openWindow_keeps g hg s ..
    · rfl

theorem setEcls_keeps {α : Type} (g : FaultWindow → α) (h0 : ∀ (x : FaultWindow) v, g { x with ecls0 := v } = g x)
    (h1 : ∀ (x : FaultWindow) v, g { x with ecls1 := v } = g x) (x : FaultWindow) (b c : Nat) : g (x.setEcls b c) = g x := by
  unfold FaultWindow.setEcls
  split
  · exact h0 ..
  · exact h1 ..

/-- A raise of class 0, or of a unit that is neither a core nor a station, posts no event. -/
theorem postFault_none (s : State) (r : Raise) (h : r.fid.code ≠ 3 ∧ r.fid.code ≠ 4) : s.postFault r = s := by
  unfold State.postFault
  extract_lets e
  split
  · next h4 => exact absurd h4 h.2
  · next h3 => exact absurd h3 h.1
  · rfl

/-- The window of a fault that has been taken. -/
def FaultWindow.takeRaise (x : FaultWindow) (now : Nat) (r : Raise) (e : Nat) : FaultWindow :=
  (x.addEntry (r.entry e r.noSpare)).takes now r.fid.bit e

/-- A fault that posts no event and starts no timer leaves its entry and bits. -/
theorem enterFault_quiet (s : State) (r : Raise) (e : Nat) (hp : e = 0 ∨ (r.fid.code ≠ 3 ∧ r.fid.code ≠ 4))
    (hw : windowIndex r.fid.code r.fid.inst < 97) (hg : bitOf (s.win (windowIndex r.fid.code r.fid.inst)).grace r.fid.bit = false) :
    s.enterFault r e = (s.modWin (windowIndex r.fid.code r.fid.inst) fun x => x.takeRaise s.elapsed r e).resetWindow r.fid := by
  have h1 : (if 1 ≤ e && !r.grace then s.postFault r else s) = s := by
    rcases hp with rfl | h
    · rfl
    · rw [postFault_none s r h, ite_self]
  have h2 : ((s.modWin (windowIndex r.fid.code r.fid.inst) fun x => x.takeRaise s.elapsed r e).win
      (windowIndex r.fid.code r.fid.inst)).grace = (s.win (windowIndex r.fid.code r.fid.inst)).grace := by
    rw [State.win_modWin_self s _ _ hw]
    exact setEcls_keeps FaultWindow.grace (fun _ _ => rfl) (fun _ _ => rfl) _ _ _
  unfold State.enterFault
  extract_lets wi s1 s2 timed s3
  have hs1 : s1 = s := h1
  have hs2 : s2 = s.modWin wi fun x => x.takeRaise s.elapsed r e := by
    unfold s2
    rw [hs1]
    rfl
  have ht : timed = false := by
    unfold timed
    rw [hs2, h2, hg]
    rfl
  unfold s3
  rw [ht, hs2]
  rfl

/-- What the window of a fault that has been taken holds: its bits, its effective class, and its entry first. -/
theorem takeRaise_facts (x : FaultWindow) (now : Nat) (r : Raise) (e : Nat) (hb : r.fid.bit < 32) (he : e < 4) :
    bitOf (x.takeRaise now r e).stat r.fid.bit = true ∧ bitOf (x.takeRaise now r e).pend r.fid.bit = true ∧
      (x.takeRaise now r e).eclsOf r.fid.bit = e ∧
      (x.takeRaise now r e).tally.head? = some { r.entry e r.noSpare with seq := (x.newSeq + 1) % 256 } := by
  unfold FaultWindow.takeRaise FaultWindow.takes
  refine ⟨?_, ?_, eclsOf_setEcls_self _ _ _ hb he, ?_⟩
  · rw [setEcls_keeps FaultWindow.stat (fun _ _ => rfl) fun _ _ => rfl]
    exact bitOf_setBit_self _ _ _ hb
  · rw [setEcls_keeps FaultWindow.pend (fun _ _ => rfl) fun _ _ => rfl]
    exact bitOf_setBit_self _ _ _ hb
  · rw [setEcls_keeps FaultWindow.tally (fun _ _ => rfl) fun _ _ => rfl]
    rfl

/-- A raise that a consequence window suppresses leaves its entry alone (R518). -/
theorem faultReaction_suppressed (s : State) (r : Raise) (cause : Fid) (h : s.raises = [r]) (ha : r.at_ < s.elapsed) (hl : r.lapse = none)
    (hg : r.grace = false) (hs : (s.win (windowIndex r.fid.code r.fid.inst)).suppresses r = some cause) :
    s.faultReaction = s.unraised.modWin (windowIndex r.fid.code r.fid.inst) fun w => w.addEntry (r.consequential cause) := by
  have hs' : (s.unraised.win (windowIndex r.fid.code r.fid.inst)).suppresses r = some cause := hs
  rw [faultReaction_single s r h ha]
  simp only [State.react, hs', hg, hl]

/-- A fault of class 3 is grave, whatever its source. -/
theorem takeFault_grave (s : State) (r : Raise) : ∃ u : State, s.takeFault r 3 = u.graveHalt := ⟨_, rfl⟩

/-- Settles O43: the one raise that is due is taken or suppressed; then the part of its class. -/
theorem faultsReact : Obligations.FaultsReact := by
  refine ⟨?_, ?_, ?_, ?_, ?_, ?_, ?_⟩
  · intro s r hr h ha hl hw hb hs he hm hp hg
    refine ⟨_, congrArg Host.Outcome.next (if_pos hr), ?_⟩
    rw [faultReaction_taken s r h ha hs, takeFault_minor _ r _ he hl, enterFault_quiet s.unraised r _ hp hw hg]
    generalize he' : (s.win (windowIndex r.fid.code r.fid.inst)).effective r = e at he
    have hself := State.win_modWin_self s.unraised (windowIndex r.fid.code r.fid.inst) (fun x => x.takeRaise s.unraised.elapsed r e) hw
    have keep := fun {β : Type} (g : State → β) (hk : ∀ (s : State) k f, g (s.modWin k f) = g s) =>
      (resetWindow_idle hk (s.unraised.modWin (windowIndex r.fid.code r.fid.inst) fun x => x.takeRaise s.unraised.elapsed r e)
        r.fid hm).trans (hk _ _ _)
    have keepw := fun {β : Type} (g : FaultWindow → β) (hk : ∀ (x : FaultWindow) l, g { x with supp := l } = g x) =>
      (win_resetWindow_idle g hk (s.unraised.modWin (windowIndex r.fid.code r.fid.inst) fun x => x.takeRaise s.unraised.elapsed r e)
        r.fid hm (windowIndex r.fid.code r.fid.inst)).trans (congrArg g hself)
    obtain ⟨h1, h2, h3, h4⟩ := takeRaise_facts (s.win (windowIndex r.fid.code r.fid.inst)) s.unraised.elapsed r e hb (by omega)
    exact ⟨keep State.raises fun _ _ _ => rfl, keep State.cores fun _ _ _ => rfl, keep State.outs fun _ _ _ => rfl,
      keep State.stations fun _ _ _ => rfl, (keepw (fun x => bitOf x.stat r.fid.bit) fun _ _ => rfl).trans h1,
      (keepw (fun x => bitOf x.pend r.fid.bit) fun _ _ => rfl).trans h2, (keepw (fun x => x.eclsOf r.fid.bit) fun _ _ => rfl).trans h3,
      _, (keepw (fun x => x.tally.head?) fun _ _ => rfl).trans h4, rfl, rfl, rfl, rfl, rfl, rfl⟩
  · intro s r cause hr h ha hl hg hw hs
    refine ⟨_, congrArg Host.Outcome.next (if_pos hr), ?_⟩
    rw [faultReaction_suppressed s r cause h ha hl hg hs]
    have hself := State.win_modWin_self s.unraised (windowIndex r.fid.code r.fid.inst)
      (fun w => w.addEntry (r.consequential cause)) hw
    exact ⟨rfl, rfl, rfl, rfl, (congrArg FaultWindow.stat hself).trans rfl, _,
      (congrArg (fun x : FaultWindow => x.tally.head?) hself).trans rfl, rfl, rfl, rfl⟩
  · intro s h
    refine ⟨_, rfl, ?_⟩
    rw [faultReaction_waits s h, ite_self]
  · intro s r c hr h ha hc hi hrole hs he
    have hwi : windowIndex r.fid.code r.fid.inst = windowIndex 3 c := by rw [hc, hi]
    rw [← hwi] at hs he
    refine ⟨_, congrArg Host.Outcome.next (if_pos hr), ?_⟩
    have hpre := (recordBlind_fenceOf c).enterFault s.unraised r 2 (fun _ _ _ => rfl) (fenceOf_bumpEvDrop c) (by omega)
    have hrole' : ((s.unraised.enterFault r 2).core c).role ≠ .fenced := (congrArg Prod.fst hpre).trans_ne hrole
    have hx : (s.unraised.enterFault r 2).fenceUnit r.fid r.noSpare =
        some ((s.unraised.enterFault r 2).fenceForCore c r.fid) := by
      simp [State.fenceUnit, hc, hi, hrole']
    rw [faultReaction_taken s r h ha hs, he]
    have hf := (takeFault_fences (recordBlind_fenceOf c) _ r _ hx).trans (fenceOf_fenceForCore c _ r.fid)
    exact ⟨congrArg Prod.fst hf, congrArg Prod.snd hf⟩
  · intro s r o hr h ha hc hi hs he
    have hwi : windowIndex r.fid.code r.fid.inst = windowIndex 6 o := by rw [hc, hi]
    rw [← hwi] at hs he
    refine ⟨_, congrArg Host.Outcome.next (if_pos hr), ?_⟩
    have hx : (s.unraised.enterFault r 2).fenceUnit r.fid r.noSpare =
        some ((s.unraised.enterFault r 2).fenceForOut o r.fid) := by
      simp [State.fenceUnit, hc, hi]
    rw [faultReaction_taken s r h ha hs, he]
    have hcore := (takeFault_fences recordBlind_cores _ r _ hx).trans ((fenceForOut_form o _ r.fid).2.trans
      (recordBlind_cores.enterFault s.unraised r 2 (fun _ _ _ => rfl) (fun _ _ => rfl) (by omega)))
    obtain ⟨h1, h2, h3⟩ := fenceForOut_after o _ _ r.fid (takeFault_fences recordBlind_outs _ r _ hx)
    exact ⟨h1, h2, hcore, fun p hp => (h3 p hp).trans (out_of_outs (s := s)
      (recordBlind_outs.enterFault s.unraised r 2 (fun _ _ _ => rfl) (fun _ _ => rfl) (by omega)) p)⟩
  · intro s r n hr h ha hc hi hs he
    have hwi : windowIndex r.fid.code r.fid.inst = windowIndex 4 n := by rw [hc, hi]
    rw [← hwi] at hs he
    refine ⟨_, congrArg Host.Outcome.next (if_pos hr), ?_⟩
    have hx : (s.unraised.enterFault r 2).fenceUnit r.fid r.noSpare =
        some ((s.unraised.enterFault r 2).fenceForStation n) := by
      simp [State.fenceUnit, hc, hi]
    rw [faultReaction_taken s r h ha hs, he]
    obtain ⟨h1, h2, h3⟩ := fenceForStation_after n (s.unraised.enterFault r 2)
    exact ⟨(congrArg Station.running (stn_of_stations (takeFault_fences recordBlind_stations _ r _ hx) n)).trans h1,
      (takeFault_fences recordBlind_cores _ r _ hx).trans (h2.trans
        (recordBlind_cores.enterFault s.unraised r 2 (fun _ _ _ => rfl) (fun _ _ => rfl) (by omega))),
      (takeFault_fences recordBlind_outs _ r _ hx).trans (h3.trans
        (recordBlind_outs.enterFault s.unraised r 2 (fun _ _ _ => rfl) (fun _ _ => rfl) (by omega)))⟩
  · intro s r hr h ha hs he
    obtain ⟨u, hu⟩ := takeFault_grave s.unraised r
    refine ⟨_, congrArg Host.Outcome.next (if_pos hr), ?_⟩
    rw [faultReaction_taken s r h ha hs, he, hu]
    exact graveHalt_ends u

end Sys2Proof.Machine

namespace Sys2Proof.Machine

/-! ## The end of a mailbox command (R621, R623) -/

theorem fld_stick_other (s : State) (f g : Field) (i j : Nat) (h : g.lo + g.width ≤ 32)
    (hd : ¬(f.reg = g.reg ∧ i = j) ∨ g.lo + g.width ≤ f.lo ∨ f.lo + f.width ≤ g.lo) : (s.stick f i).fld g j = s.fld g j :=
  State.fld_setFld_other s f g i j 1 h hd

theorem fld_raiseEvent (s : State) (f : Fid) (a : Word) (g : Field) (i : Nat) : (s.raiseEvent f a).fld g i = s.fld g i :=
  raiseEvent_keeps (fun s => s.fld g i) s f a fun _ _ => rfl

/-- A mailbox command that has ended shows its status. -/
theorem mbxEnd_done (s : State) (st : Nat) (h : st < 32) : (s.mbxEnd st).mbxDone st := by
  unfold State.mbxEnd
  extract_lets m s0 s1 s2
  let a : State := s0.setFld Fields.MBX_STAT_BUSY 0 0
  let b : State := a.stick Fields.MBX_STAT_DONE 0
  have hbusy : s2.fld Fields.MBX_STAT_BUSY 0 = 0 := calc
    s2.fld Fields.MBX_STAT_BUSY 0 = s1.fld Fields.MBX_STAT_BUSY 0 := State.fld_setFld_other s1 _ _ _ _ _ (by decide) (by decide)
    _ = b.fld Fields.MBX_STAT_BUSY 0 := State.fld_setFld_other b _ _ _ _ _ (by decide) (by decide)
    _ = a.fld Fields.MBX_STAT_BUSY 0 := fld_stick_other a _ _ _ _ (by decide) (by decide)
    _ = 0 := State.fld_setFld_self s0 _ _ _ (by decide)
  have hdone : s2.fld Fields.MBX_STAT_DONE 0 = 1 := calc
    s2.fld Fields.MBX_STAT_DONE 0 = s1.fld Fields.MBX_STAT_DONE 0 := State.fld_setFld_other s1 _ _ _ _ _ (by decide) (by decide)
    _ = b.fld Fields.MBX_STAT_DONE 0 := State.fld_setFld_other b _ _ _ _ _ (by decide) (by decide)
    _ = 1 := State.fld_setFld_self a _ _ _ (by decide)
  have hst : s2.fld Fields.MBX_STAT_STATUS 0 = st := calc
    s2.fld Fields.MBX_STAT_STATUS 0 = s1.fld Fields.MBX_STAT_STATUS 0 := State.fld_setFld_other s1 _ _ _ _ _ (by decide) (by decide)
    _ = st % 2 ^ Fields.MBX_STAT_STATUS.width := State.fld_setFld_self b _ _ _ (by decide)
    _ = st := Nat.mod_eq_of_lt h
  have hb : s2.mbx.busy = false := rfl
  clear_value s2
  split
  · exact ⟨hb, hbusy, hdone, hst⟩
  · exact ⟨(raiseEvent_keeps (fun s => s.mbx.busy) _ _ _ fun _ _ => rfl).trans hb, (fld_raiseEvent ..).trans hbusy,
      (fld_raiseEvent ..).trans hdone, (fld_raiseEvent ..).trans hst⟩

/-- The end of a mailbox command with a status other than OK raises MAILBOX_ERR. -/
theorem mbxEnd_raises (s : State) (st : Nat) (h : st ≠ 0) : ∃ x : Raise, (s.mbxEnd st).raises = s.raises ++ [x] ∧
    x.fid = Src.port_MAILBOX_ERR ∧ x.at_ = s.elapsed := by
  unfold State.mbxEnd
  extract_lets m s0 s1 s2
  rw [if_neg h]
  exact ⟨_, rfl, rfl, rfl⟩

/-- What neither MBX_STAT nor a raise bears on, the end of a mailbox command leaves alone. -/
theorem mbxEnd_keeps {α : Type} (g : State → α) (hf : ∀ s f v, f.reg = .MBX_STAT → g (State.setFld s f 0 v) = g s)
    (hk : ∀ (s : State) l, g { s with sticks := l } = g s) (hr : ∀ (s : State) rs, g { s with raises := rs } = g s)
    (hm : ∀ (s : State) m, g { s with mbx := m } = g s) (s : State) (st : Nat) : g (s.mbxEnd st) = g s := by
  unfold State.mbxEnd
  extract_lets m s0 s1 s2
  have h0 : g s0 = g s := hm ..
  have h1 : g s1 = g s0 := (hf _ _ _ rfl).trans ((hk ..).trans ((hf _ _ _ rfl).trans (hf _ _ _ rfl)))
  have h2 : g s2 = g s := (hf _ _ _ rfl).trans (h1.trans h0)
  split
  · exact h2
  · exact (raiseEvent_keeps g _ _ _ hr).trans h2

/-- A level source that was not live raises as it becomes live. -/
theorem beginLevel_raises (s : State) (f : Fid) (a : Word) (hu : s.unitFenced f = false) (hl : s.isLive f = false) :
    ∃ r : Raise, s.beginLevel f a = { s.modWin (windowIndex f.code f.inst) (fun w => { w with live := setBit w.live f.bit true }) with
      raises := s.raises ++ [r] } ∧ r.fid = f ∧ r.stamp = s.now := by
  obtain ⟨r, hr, hid, hst⟩ := raiseEvent_of_not_fenced
    (s.modWin (windowIndex f.code f.inst) fun w => { w with live := setBit w.live f.bit true }) f a hu
  refine ⟨r, ?_, hid, hst⟩
  rw [State.beginLevel, if_neg (by simp [hu])]
  exact (if_neg (by simp [hl])).trans hr

/-! ## The checks of the processors (R496, R509, R531) -/

/-- The restart of the management processor records its raise and waits for its image. -/
theorem mgmtRestart_begins (s : State) (f : Fid) (h : s.mgmtRuns = true) (hf : s.unitFenced f = false) :
    ∃ r : Raise, s.mgmtRestart f = { s with raises := s.raises ++ [r], reloads := s.reloads ++ [0] } ∧ r.fid = f := by
  have hn : s.reloads.contains 0 = false := by
    simp only [State.mgmtRuns, Bool.and_eq_true, Bool.not_eq_true'] at h
    exact h.2
  obtain ⟨r, hr, hid, -⟩ := raiseEvent_of_not_fenced s f 0 hf
  refine ⟨r, ?_, hid⟩
  rw [State.mgmtRestart, hr]
  exact beginReload_begins hn

theorem reacts_of_mgmtRuns {s : State} (h : s.mgmtRuns = true) : s.reacts = true := by
  simp only [State.mgmtRuns, Bool.and_eq_true] at h
  exact h.1

/-- A fault of block 0 fences no unit: up to class 2 it leaves what its reset leaves. -/
theorem takeFault_global (s : State) (r : Raise) (e : Nat) (h : e ≤ 2) (hl : r.lapse = none) (hc : r.fid.code = 0) :
    s.takeFault r e = s.enterFault r e := by
  by_cases h1 : e ≤ 1
  · exact takeFault_minor s r e h1 hl
  · obtain rfl : e = 2 := by omega
    have hx : ∀ u : State, u.fenceUnit r.fid r.noSpare = none := fun u => by simp [State.fenceUnit, hc]
    change (match (s.enterFault r 2).fenceUnit r.fid r.noSpare with | some x => _ | none => _) = _
    rw [hx]
    simp only [hl] <;> rfl

/-- The reset of the management processor ends a mailbox command in progress with ABORTED, and what that raises is suppressed by the
consequence window of the check (R517, R531, R623). -/
theorem resetWindow_aborts (s : State) (f : Fid) (hf : f = Src.glb_MGMT_CHECK ∨ f = Src.glb_MGMT_WATCHDOG) (hb : s.mbx.busy = true)
    (hr : s.raises = []) :
    (s.resetWindow f).mbx.busy = false ∧ (s.resetWindow f).fld Fields.MBX_STAT_STATUS 0 = 18 ∧
      ∃ x : Raise, (s.resetWindow f).raises = [x] ∧ x.fid = Src.port_MAILBOX_ERR ∧
        ((s.resetWindow f).win (windowIndex 13 0)).suppresses x = some f := by
  have hu : s.resetWindow f = (s.openWindow 0 0 f [Src.fleet_RQ_TIMEOUT, Src.port_MAILBOX_ERR]).mbxEnd 18 := by
    have hb' : (s.openWindow 0 0 f [Src.fleet_RQ_TIMEOUT, Src.port_MAILBOX_ERR]).mbx.busy = true :=
      (congrArg Mailbox.busy (openWindow_keeps (g := State.mbx) (fun _ _ _ => rfl) s ..)).trans hb
    simp only [State.resetWindow, if_pos hf, hb', if_true]
  rw [hu]
  obtain ⟨h1, -, -, h4⟩ := mbxEnd_done (s.openWindow 0 0 f [Src.fleet_RQ_TIMEOUT, Src.port_MAILBOX_ERR]) 18 (by decide)
  obtain ⟨x, hx, hid, hat⟩ := mbxEnd_raises (s.openWindow 0 0 f [Src.fleet_RQ_TIMEOUT, Src.port_MAILBOX_ERR]) 18 (by decide)
  have hrs : (s.openWindow 0 0 f [Src.fleet_RQ_TIMEOUT, Src.port_MAILBOX_ERR]).raises = [] :=
    (openWindow_keeps (g := State.raises) (fun _ _ _ => rfl) s ..).trans hr
  have hel : x.at_ = s.elapsed := hat.trans (openWindow_keeps (g := State.elapsed) (fun _ _ _ => rfl) s ..)
  refine ⟨h1, h4, x, by rw [hx, hrs]; rfl, hid, ?_⟩
  rw [mbxEnd_keeps (fun s => s.win (windowIndex 13 0)) (fun _ _ _ _ => rfl) (fun _ _ => rfl) (fun _ _ => rfl) fun _ _ => rfl]
  have hw := State.win_modWin_self (s.suppress (s.elapsed + (s.win (windowIndex 0 0)).cwin) f Src.fleet_RQ_TIMEOUT) (windowIndex 13 0)
    (fun w => { w with supp := ⟨Src.port_MAILBOX_ERR.bit, s.elapsed, s.elapsed + (s.win (windowIndex 0 0)).cwin, f, none⟩ :: w.supp })
    (by decide)
  have hpos : 0 < (s.win (windowIndex 0 0)).cwin := by unfold FaultWindow.cwin usTicks; omega
  refine (congrArg (fun y : FaultWindow => y.suppresses x) hw).trans ?_
  simp [FaultWindow.suppresses, hid, hel, hpos]

/-! ## Store rows (R509, R320, Table 13.3) -/

/-- The profile words after a row that holds one profile was replaced: it reads VALID = 0. -/
def profsWithout (m : WMap) (p : Nat) : WMap := m.set (p * 8 + 5) (m.get (p * 8 + 5) &&& 0x7FFFFFFF#32)

theorem slice_profsWithout_other (m : WMap) (p q : Nat) (h : q ≠ p) : (profsWithout m p).slice (q * 8) 8 = m.slice (q * 8) 8 :=
  List.map_congr_left fun k hk => WMap.get_set_other m _ _ _ (by have := List.mem_range.1 hk; omega)

theorem valid_profsWithout (m : WMap) (p : Nat) : (profileOf ((profsWithout m p).slice (p * 8) 8)).valid = false := by
  have h : ((profsWithout m p).slice (p * 8) 8).getD 5 0 = m.get (p * 8 + 5) &&& 0x7FFFFFFF#32 :=
    (WMap.getD_slice _ _ 8 5 (by decide)).trans (WMap.get_set_self ..)
  change bitOf (((profsWithout m p).slice (p * 8) 8).getD 5 0) 31 = false
  rw [h, bitOf, BitVec.getLsbD_and]
  exact Bool.and_false _

/-- A spare row replaces a row of the profile store. -/
theorem eccUncorr_prof (s : State) (p : Nat) (h : 0 < s.spareRows[0]) :
    ∃ r : Raise, s.eccUncorr 0 [p] = { s with
      spareRows := s.spareRows.setIfInBounds 0 (s.spareRows[0] - 1), profs := profsWithout s.profs p, raises := s.raises ++ [r] } ∧
      r.fid = Src.prof_ECC_UNCORR := by
  have hl : (s.spareRows[0]?).getD 0 = s.spareRows[0] := by rw [Vector.getElem?_eq_getElem (by decide), Option.getD_some]
  obtain ⟨r, hr, hid, -⟩ := raiseEvent_of_not_fenced { s with
    spareRows := s.spareRows.setIfInBounds 0 (s.spareRows[0] - 1), profs := profsWithout s.profs p }
    Src.prof_ECC_UNCORR (BitVec.ofNat 32 (s.spareRows[0] - 1)) rfl
  refine ⟨r, ?_, hid⟩
  simp only [State.eccUncorr, hl, if_pos h]
  exact hr

/-- A spare row replaces a row of a program store, whose words are refilled. -/
theorem eccUncorr_pgm (s : State) (n : Fin 8) (es : List Nat) (h : 0 < s.spareRows[n.val + 1]) :
    ∃ r : Raise, s.eccUncorr (n.val + 1) es = { s with
      spareRows := s.spareRows.setIfInBounds (n.val + 1) (s.spareRows[n.val + 1] - 1)
      refills := (s.refills.filter fun r => decide (s.elapsed < r.2)) ++
        es.map fun e => (n.val * 16384 + e, s.elapsed + Config.refillTicks s.elapsed)
      raises := s.raises ++ [r] } ∧ r.fid = Src.pgm_ECC_UNCORR := by
  have hn := n.isLt
  have hl : (s.spareRows[n.val + 1]?).getD 0 = s.spareRows[n.val + 1] := by
    rw [Vector.getElem?_eq_getElem (by omega), Option.getD_some]
  have h0 : n.val + 1 ≠ 0 ∧ n.val + 1 ≠ 9 := by omega
  obtain ⟨r, hr, hid, -⟩ := raiseEvent_of_not_fenced { s with
    spareRows := s.spareRows.setIfInBounds (n.val + 1) (s.spareRows[n.val + 1] - 1)
    refills := (s.refills.filter fun r => decide (s.elapsed < r.2)) ++
      es.map fun e => (n.val * 16384 + e, s.elapsed + Config.refillTicks s.elapsed) }
    Src.pgm_ECC_UNCORR (BitVec.ofNat 32 (s.spareRows[n.val + 1] - 1)) rfl
  refine ⟨r, ?_, hid⟩
  simp only [State.eccUncorr, hl, if_pos h, h0.1, h0.2, if_false, or_self, Nat.add_sub_cancel]
  exact hr

/-- With no spare row left the row's words are fenced, and the raise says so. -/
theorem eccUncorr_fences (s : State) (n : Fin 8) (i : Nat) (h : s.spareRows[n.val + 1] = 0) (ho : ∀ r ∈ s.raises, r.at_ < s.elapsed) :
    ∃ r : Raise, s.eccUncorr (n.val + 1) [i] = { s with
      fencedEntries := s.fencedEntries ++ [(16, n.val * 16384 + i)], raises := s.raises ++ [r] } ∧ r.fid = Src.pgm_ECC_UNCORR ∧
      r.noSpare = true := by
  have hn := n.isLt
  have hl : (s.spareRows[n.val + 1]?).getD 0 = 0 := by rw [Vector.getElem?_eq_getElem (by omega), Option.getD_some, h]
  have h0 : n.val + 1 ≠ 0 ∧ n.val + 1 ≠ 9 := by omega
  obtain ⟨r, hr, hid, hat, -⟩ := raiseAs_of_not_fenced { s with fencedEntries := s.fencedEntries ++ [(16, n.val * 16384 + i)] }
    Src.pgm_ECC_UNCORR s.now 0 false false rfl
  have hold : s.raises.map (fun r => if r.fid = Src.pgm_ECC_UNCORR ∧ r.at_ = s.elapsed then { r with noSpare := true } else r) = s.raises :=
    (List.map_congr_left (g := id) fun r hr => if_neg fun e => by have := ho r hr; omega).trans (List.map_id _)
  refine ⟨{ r with noSpare := true }, ?_, hid, rfl⟩
  simp only [State.eccUncorr, hl, Nat.lt_irrefl, h0.1, h0.2, if_false, or_self, Nat.add_sub_cancel, List.map_cons, List.map_nil]
  rw [show State.raiseEvent { s with fencedEntries := s.fencedEntries ++ [(16, n.val * 16384 + i)] } Src.pgm_ECC_UNCORR 0 = _ from hr]
  have hlast : (if r.fid = Src.pgm_ECC_UNCORR ∧ r.at_ = s.elapsed then { r with noSpare := true } else r) = { r with noSpare := true } :=
    if_pos ⟨hid, hat⟩
  simp only [List.map_append, List.map_cons, List.map_nil, hold, hlast]

/-- A word of a program store waits for its refill after the row that holds it was replaced, and no other word does. -/
theorem refilling_row (s : State) (n : Fin 8) (es : List Nat) (i : BitVec 14) :
    State.refilling { s with refills := (s.refills.filter fun r => decide (s.elapsed < r.2)) ++
        (es.map fun e => (n.val * 16384 + e, s.elapsed + Config.refillTicks s.elapsed)) } n i
      = (s.refilling n i || (decide (i.toNat ∈ es) && decide (0 < Config.refillTicks s.elapsed))) := by
  have hnew : (es.map fun e => (n.val * 16384 + e, s.elapsed + Config.refillTicks s.elapsed)).any
      (fun r => r.1 == n.val * 16384 + i.toNat && decide (s.elapsed < r.2))
      = (decide (i.toNat ∈ es) && decide (0 < Config.refillTicks s.elapsed)) := by
    rw [Bool.eq_iff_iff]
    simp only [List.any_map, List.any_eq_true, Function.comp_apply, Bool.and_eq_true, beq_iff_eq, decide_eq_true_eq]
    constructor
    · rintro ⟨e, he, h1, h2⟩
      obtain rfl : e = i.toNat := by omega
      exact ⟨he, by omega⟩
    · rintro ⟨he, hp⟩
      exact ⟨i.toNat, he, rfl, by omega⟩
  have hold : (s.refills.filter fun r => decide (s.elapsed < r.2)).any
      (fun r => r.1 == n.val * 16384 + i.toNat && decide (s.elapsed < r.2)) = s.refilling n i := by
    rw [List.any_filter]
    refine congrArg (fun p => s.refills.any p) (funext fun r => ?_)
    cases decide (s.elapsed < r.2) <;> simp
  simp only [State.refilling, List.any_append, hnew] at hold ⊢
  rw [hold]

/-- A check of the management processor posts no event; its entry is made, and its reset ends the mailbox command. -/
theorem enterFault_aborts (s : State) (r : Raise) (e : Nat) (hf : r.fid = Src.glb_MGMT_CHECK ∨ r.fid = Src.glb_MGMT_WATCHDOG)
    (hc : r.fid.code = 0) (hb : s.mbx.busy = true) (hr : s.raises = []) :
    (s.enterFault r e).mbx.busy = false ∧ (s.enterFault r e).fld Fields.MBX_STAT_STATUS 0 = 18 ∧
      ∃ x : Raise, (s.enterFault r e).raises = [x] ∧ x.fid = Src.port_MAILBOX_ERR ∧
        ((s.enterFault r e).win (windowIndex 13 0)).suppresses x = some r.fid := by
  have h1 : (if 1 ≤ e && !r.grace then s.postFault r else s) = s := by rw [postFault_none s r (by omega), ite_self]
  unfold State.enterFault
  extract_lets wi s1 s2 timed s3
  have hs1 : s1 = s := h1
  have h3 : s3.mbx = s.mbx ∧ s3.raises = s.raises := by
    rw [← hs1]
    unfold s3
    split <;> exact ⟨rfl, rfl⟩
  exact resetWindow_aborts s3 r.fid hf (by rw [h3.1, hb]) (h3.2.trans hr)

/-- Settles O46: each check by its raise and its reload, the reaction by `resetWindow_aborts`, and a store row by its spare rows. -/
theorem processorsAndStoreRows : Obligations.ProcessorsAndStoreRows := by
  refine ⟨?_, ?_, ?_, ?_, ?_, ?_, ?_, ?_, ?_, ?_, ?_, ?_, ?_⟩
  · intro s h
    have hx : (s.reacts && s.mgmtRuns) = true := by simp [h, reacts_of_mgmtRuns h]
    constructor
    · obtain ⟨r, hr, hid⟩ := mgmtRestart_begins s Src.glb_MGMT_CHECK h rfl
      exact ⟨_, congrArg Host.Outcome.next ((if_pos hx).trans hr), rfl, rfl, rfl, r, rfl, hid⟩
    · obtain ⟨r, hr, hid⟩ := mgmtRestart_begins s Src.glb_MGMT_WATCHDOG h rfl
      exact ⟨_, congrArg Host.Outcome.next ((if_pos hx).trans hr), rfl, rfl, r, rfl, hid⟩
  · intro s r hr h ha hl hf hs he hb
    have hc : r.fid.code = 0 := by obtain e | e := hf <;> rw [e] <;> rfl
    have hi : r.fid.inst = 0 := by obtain e | e := hf <;> rw [e] <;> rfl
    have hwi : windowIndex r.fid.code r.fid.inst = 0 := by rw [hc, hi]; rfl
    rw [← hwi] at hs he
    refine ⟨_, congrArg Host.Outcome.next (if_pos hr), ?_⟩
    rw [faultReaction_taken s r h ha hs, takeFault_global _ r _ he hl hc]
    exact enterFault_aborts s.unraised r _ hf hc hb rfl
  · intro s u hr hu
    refine ⟨_, congrArg Host.Outcome.next (if_pos hr), ?_⟩
    rw [State.reloadDone, if_neg (by rw [hu]; decide)]
    extract_lets s1 s2
    split <;> exact ⟨rfl, rfl, rfl⟩
  · intro s u hu
    have h : s.reloadDone u = s := by rw [State.reloadDone, if_pos (by rw [hu]; rfl)]
    refine ⟨_, rfl, ?_⟩
    rw [h, ite_self]
  · intro s hup h1
    obtain ⟨r, hr, hid, -⟩ := raiseEvent_of_not_fenced s Src.glb_LANECTL_CHECK 0 rfl
    have hb : (s.raiseEvent Src.glb_LANECTL_CHECK 0).beginReload 1 = { s with raises := s.raises ++ [r], reloads := s.reloads ++ [1] } :=
      (congrArg (fun u : State => u.beginReload 1) hr).trans (beginReload_begins h1)
    exact completes_of_detector rfl hup hb ⟨rfl, r, rfl, hid⟩
  · intro s hr h3
    obtain ⟨r, hr', hid, -⟩ := raiseEvent_of_not_fenced s Src.bar_FW_CHECK 0 rfl
    have hb : (s.raiseEvent Src.bar_FW_CHECK 0).beginReload 3 = { s with raises := s.raises ++ [r], reloads := s.reloads ++ [3] } :=
      (congrArg (fun u : State => u.beginReload 3) hr').trans (beginReload_begins h3)
    exact ⟨_, congrArg Host.Outcome.next ((if_pos hr).trans hb), rfl, r, rfl, hid⟩
  · intro s hr hl
    obtain ⟨r, hb, hid, hst⟩ := beginLevel_raises s Src.glb_SUPPLY_UV 0 rfl hl
    have hw := State.win_modWin_self s 0 (fun w => { w with live := setBit w.live Src.glb_SUPPLY_UV.bit true }) (by decide)
    refine ⟨_, congrArg Host.Outcome.next ((if_pos hr).trans hb), ?_, r, rfl, hid, hst⟩
    have hlive : bitOf ((s.modWin 0 fun w => { w with live := setBit w.live Src.glb_SUPPLY_UV.bit true }).win 0).live Src.glb_SUPPLY_UV.bit
        = true := by
      rw [hw]
      exact bitOf_setBit_self _ _ _ (by decide)
    exact Bool.or_eq_true_iff.2 (.inl hlive)
  · intro s hr
    have hw := State.win_modWin_self s 0 (fun w => { w with live := setBit w.live Src.glb_SUPPLY_UV.bit false }) (by decide)
    refine ⟨_, congrArg Host.Outcome.next (if_pos hr), rfl, rfl, ?_⟩
    exact (congrArg (fun x : FaultWindow => bitOf x.live Src.glb_SUPPLY_UV.bit) hw).trans (bitOf_setBit_self _ _ _ (by decide))
  · intro s hr
    obtain ⟨r, hr', hid, hst⟩ := raiseEvent_of_not_fenced s Src.glb_CFG_PARITY 0 rfl
    exact ⟨_, congrArg Host.Outcome.next (if_pos hr), r, hr', hid, hst⟩
  · intro s hup
    obtain ⟨r, hr', hid, hst⟩ := raiseEvent_of_not_fenced s Src.glb_RELEASE_CHECK 0 rfl
    exact completes_of_detector rfl hup hr' ⟨r, rfl, hid, hst⟩
  · intro s p hr h
    obtain ⟨r, ht, hid⟩ := eccUncorr_prof s p h
    refine ⟨_, congrArg Host.Outcome.next ((if_pos hr).trans ht), ?_, by simp, rfl, fun q hq => ?_, r, rfl, hid⟩
    · exact valid_profsWithout s.profs p
    · exact congrArg profileOf (slice_profsWithout_other s.profs p q fun e => hq (Fin.ext e))
  · intro s n es hr h
    obtain ⟨r, ht, hid⟩ := eccUncorr_pgm s n es h
    have hre := refilling_row s n es
    refine ⟨_, congrArg Host.Outcome.next ((if_pos hr).trans ht), rfl, rfl, rfl, fun i hi hp => ?_, fun i hi => ?_, r, rfl, hid⟩
    · exact (hre i).trans (by simp [hi, hp])
    · exact (hre i).trans (by simp [hi])
  · intro s n i hr h ho
    obtain ⟨r, ht, hid, hns⟩ := eccUncorr_fences s n i h ho
    refine ⟨_, congrArg Host.Outcome.next ((if_pos hr).trans ht), ?_, r, rfl, hid, hns⟩
    simp [State.fencedEntry]

end Sys2Proof.Machine

namespace Sys2Proof.Machine

/-! ## What a start keeps (R530, R536, R537) -/

section Start
variable (s : State)

/-- What is cut of the store's writing does not depend on the pins. -/
theorem storeCut_pins (p : Pins) : (State.storeCut { s with pins := p }).flash = s.storeCut.flash := by
  unfold State.storeCut
  cases s.store.writing <;> rfl

/-- A register copied from another state reads there as it did; every other register is as it was. -/
theorem reg_copyReg (old : State) (r r' : RegName) (j : Nat) :
    (s.copyReg old r).reg r' j = if r = r' ∧ j < (regSpec r).count then old.reg r' j else s.reg r' j := by
  unfold State.copyReg
  by_cases h : r = r' ∧ j < (regSpec r).count
  · obtain ⟨rfl, hj⟩ := h
    obtain ⟨u, -, hu⟩ := State.each_once (p := fun u : State => u.reg r j) (f := fun s i => s.setReg r i (old.reg r i)) (k := j)
      (fun u m hm => State.reg_setReg_other u r m _ r j fun e => hm e.2) s (List.mem_range.2 hj) List.nodup_range
    rw [if_pos ⟨rfl, hj⟩]
    exact hu.trans (State.reg_setReg_self ..)
  · rw [if_neg h]
    by_cases e : r = r'
    · exact State.each_of_not_mem (p := fun u : State => u.reg r' j) (f := fun s i => s.setReg r i (old.reg r i)) (k := j)
        (fun u m hm => State.reg_setReg_other u r m _ r' j fun e => hm e.2) s fun hm => h ⟨e, List.mem_range.1 hm⟩
    · exact State.each_keeps (fun u : State => u.reg r' j) (fun s i => s.setReg r i (old.reg r i))
        (fun u i => State.reg_setReg_other u r i _ r' j fun x => e x.1) s _

/-- The registers of a list copied from another state read there as they did. -/
theorem reg_copyRegs (old : State) (l : List RegName) (r : RegName) (j : Nat) (hj : j < (regSpec r).count) :
    (l.foldl (fun s r => s.copyReg old r) s).reg r j = if r ∈ l then old.reg r j else s.reg r j := by
  induction l generalizing s with
  | nil => rfl
  | cons x l ih =>
    rw [List.foldl_cons, ih, reg_copyReg]
    by_cases h : r ∈ l
    · rw [if_pos h, if_pos (.tail _ h)]
    · rw [if_neg h]
      by_cases e : x = r
      · subst e
        rw [if_pos ⟨rfl, hj⟩, if_pos (.head _)]
      · rw [if_neg fun c => e c.1, if_neg fun c => (List.mem_cons.1 c).elim (fun c => e c.symm) h]

/-- A state with the registers of a list copied from another. -/
def State.copyRegs (s old : State) (l : List RegName) : State := l.foldl (fun s r => s.copyReg old r) s

/-- CORE_CFG.EN reads 1 for the cores that CORE_SPAREMAP names. -/
def State.enableSpares (s : State) : State :=
  s.each (List.range 26) fun s c => s.setFld Fields.CORE_CFG_EN c (bitOf (s.reg .CORE_SPAREMAP 0) c).toNat

theorem keepBarrow_eq (old : State) : s.keepBarrow old = { s.copyRegs old barrowRegs with bar := old.bar } := rfl

/-- What steps that move registers alone do for each number of a list, moves registers alone. -/
theorem each_regs_form (l : List Nat) (f : State → Nat → State) (h : ∀ u n, ∃ rg, f u n = { u with regs := rg }) :
    ∃ rg, s.each l f = { s with regs := rg } :=
  State.each_induct (fun u => ∃ rg, u = { s with regs := rg }) f
    (fun u n ⟨rg, hu⟩ => by
      obtain ⟨rg', he⟩ := h u n
      exact ⟨rg', by rw [he, hu]⟩) s l ⟨s.regs, rfl⟩

theorem copyRegs_form (old : State) (l : List RegName) : ∃ rg, s.copyRegs old l = { s with regs := rg } := by
  unfold State.copyRegs
  induction l generalizing s with
  | nil => exact ⟨s.regs, rfl⟩
  | cons r l ih =>
    obtain ⟨rg, h⟩ := each_regs_form s (List.range (regSpec r).count) (fun s i => s.setReg r i (old.reg r i)) fun u n => ⟨_, rfl⟩
    obtain ⟨rg', h'⟩ := ih { s with regs := rg }
    refine ⟨rg', ?_⟩
    rw [List.foldl_cons, State.copyReg, h, h']

/-- The registers after RESET_N, before the start writes its own. -/
def State.resetRegs (s old : State) : State :=
  ((s.copyRegs old keptRegs).enableSpares.setFld Fields.SEQ_THREADS_FENCED 0 (old.fld Fields.SEQ_THREADS_FENCED 0)).setFld
    Fields.MON_STAT_FENCED 0 (old.fld Fields.MON_STAT_FENCED 0)

theorem resetRegs_form (old : State) : ∃ rg, s.resetRegs old = { s with regs := rg } := by
  obtain ⟨rg, h⟩ := copyRegs_form s old keptRegs
  obtain ⟨rg', h'⟩ := each_regs_form (s.copyRegs old keptRegs) (List.range 26)
    (fun s c => s.setFld Fields.CORE_CFG_EN c (bitOf (s.reg .CORE_SPAREMAP 0) c).toNat) fun u n => ⟨_, rfl⟩
  refine ⟨(s.resetRegs old).regs, ?_⟩
  rw [State.resetRegs, State.enableSpares, h', h]
  rfl

/-- What RESET_N keeps beside registers and domain 112. -/
theorem keepReset_form (old : State) : s.keepReset old = { s with
    regs := (s.resetRegs old).regs
    windows := ((sortRaises old.raises).foldl State.settleRaise old).windows.mapIdx fun i w =>
      w.afterReset (if i = windowIndex 11 0 then w.live else 0)
    cores := Vector.ofFn fun c => old.coreAfterReset c.val
    outs := Vector.ofFn fun o => { Output.reset with fenced := (old.out o.val).fenced }
    anchors := Vector.ofFn fun a =>
      { Anchor.reset with
        tdcActive := (old.anc a.val).tdcActive, tdcSpare := (old.anc a.val).tdcSpare, spareIn := (old.anc a.val).spareIn }
    lanes := Vector.ofFn fun n => old.laneAfterReset n.val
    lng := { LaneGroup.reset with sliceFenced := old.lng.sliceFenced }
    cal := { Cal.reset with groups := Cal.reset.groups.zipWith (fun x g => { x with count := g.count }) old.cal.groups }
    spareRows := old.spareRows, fencedEntries := old.fencedEntries } := by
  obtain ⟨rg, h⟩ := resetRegs_form s old
  have hk : ∀ u : State, u = s.resetRegs old → u = { s with regs := (s.resetRegs old).regs } := fun u hu => by
    rw [hu, h]
  unfold State.keepReset
  extract_lets a b c d
  have hd : d = { s with regs := (s.resetRegs old).regs } := hk d rfl
  rw [hd]

theorem keepBarrow_form (old : State) : s.keepBarrow old = { s with regs := (s.copyRegs old barrowRegs).regs, bar := old.bar } := by
  obtain ⟨rg, h⟩ := copyRegs_form s old barrowRegs
  have hk : s.keepBarrow old = { s.copyRegs old barrowRegs with bar := old.bar } := rfl
  rw [hk, h]

theorem reg_keepBarrow (old : State) (r : RegName) (j : Nat) : (s.keepBarrow old).reg r j = (s.copyRegs old barrowRegs).reg r j := rfl

/-- A start of a kind, from what the device keeps. -/
def State.startKind (s : State) (k : Nat) : State :=
  ({ s with boot := Boot.reset k }.setFld Fields.STORE_START_KIND 0 k).setFld Fields.BAR_WAKECAUSE_KIND 0 k

theorem restart_power : s.restart 0 = s.powerOn.startKind 0 := by simp [State.restart, State.startKind]
theorem restart_wake : s.restart 1 = (s.powerOn.keepBarrow s).startKind 1 := by simp [State.restart, State.startKind]
theorem restart_reset : s.restart 2 = ((s.powerOn.keepBarrow s).keepReset s).startKind 2 := by simp [State.restart, State.startKind]

theorem reg_startKind (k : Nat) (r : RegName) (j : Nat) (h : r ≠ .STORE_START) (h' : r ≠ .BAR_WAKECAUSE) :
    (s.startKind k).reg r j = s.reg r j :=
  (reg_setFld_ne _ _ _ _ _ _ h').trans (reg_setFld_ne _ _ _ _ _ _ h)

theorem kind_startKind (k : Nat) (h : k < 4) : (s.startKind k).fld Fields.STORE_START_KIND 0 = k ∧
    (s.startKind k).fld Fields.BAR_WAKECAUSE_KIND 0 = k := by
  unfold State.startKind
  constructor
  · rw [State.fld_setFld_other _ _ _ _ _ _ (by decide) (by decide), State.fld_setFld_self _ _ _ _ (by decide)]
    exact Nat.mod_eq_of_lt h
  · exact (State.fld_setFld_self _ _ _ _ (by decide)).trans (Nat.mod_eq_of_lt h)

theorem stage_startKind (k : Nat) : (s.startKind k).startStage = s.startStage := by
  unfold State.startKind State.startStage
  rw [State.fld_setFld_other _ _ _ _ _ _ (by decide) (by decide), State.fld_setFld_other _ _ _ _ _ _ (by decide) (by decide)]
  rfl

theorem power_startKind (k : Nat) : (s.startKind k).power = s.power :=
  fld_of_reg (reg_startKind s k _ _ (by decide) (by decide))

theorem reg_enableSpares (r : RegName) (j : Nat) (h : r ≠ .CORE_CFG) : s.enableSpares.reg r j = s.reg r j :=
  State.each_keeps (fun u : State => u.reg r j)
    (fun s c => s.setFld Fields.CORE_CFG_EN c (bitOf (s.reg .CORE_SPAREMAP 0) c).toNat)
    (fun u _ => reg_setFld_ne u _ _ _ _ _ h) s _

theorem reg_keepReset (old : State) (r : RegName) (j : Nat) : (s.keepReset old).reg r j = (s.resetRegs old).reg r j := by
  rw [keepReset_form]
  generalize s.resetRegs old = u
  rfl

/-- A register that RESET_N's start does not write of itself reads what it read if it is kept, and its Reset value else. -/
theorem reg_resetBase (r : RegName) (j : Nat) (hj : j < (regSpec r).count) (h1 : r ≠ .CORE_CFG) (h2 : r ≠ .SEQ_THREADS) (h3 : r ≠ .MON_STAT) :
    ((s.powerOn.keepBarrow s).keepReset s).reg r j =
      if r ∈ keptRegs then s.reg r j else if r ∈ barrowRegs then s.reg r j else State.reset.reg r j := by
  rw [reg_keepReset, State.resetRegs, reg_setFld_ne _ _ _ _ _ _ h3, reg_setFld_ne _ _ _ _ _ _ h2, reg_enableSpares _ _ _ h1,
    State.copyRegs, reg_copyRegs _ _ _ _ _ hj, reg_keepBarrow, State.copyRegs, reg_copyRegs _ _ _ _ _ hj]
  rfl

/-- After RESET_N the cores that CORE_SPAREMAP names are enabled, and no other (R108). -/
theorem enabled_restart_reset (c : Fin 26) : (s.restart 2).flag Fields.CORE_CFG_EN c = bitOf (s.reg .CORE_SPAREMAP 0) c := by
  have hmap : ((s.powerOn.keepBarrow s).copyRegs s keptRegs).reg .CORE_SPAREMAP 0 = s.reg .CORE_SPAREMAP 0 :=
    (reg_copyRegs _ s keptRegs .CORE_SPAREMAP 0 (by decide)).trans (if_pos (by decide))
  obtain ⟨u, hu, hend⟩ := State.each_once (p := fun u : State => (u.reg .CORE_CFG c, u.reg .CORE_SPAREMAP 0)) (k := c.val)
    (f := fun s c => s.setFld Fields.CORE_CFG_EN c (bitOf (s.reg .CORE_SPAREMAP 0) c).toNat)
    (fun u m hm => Prod.ext (State.reg_setReg_other u _ m _ _ _ fun e => hm e.2) (reg_setFld_ne u _ _ _ _ _ (by decide)))
    ((s.powerOn.keepBarrow s).copyRegs s keptRegs) (List.mem_range.2 c.isLt) List.nodup_range
  have hreg : (s.restart 2).reg .CORE_CFG c =
      (u.setFld Fields.CORE_CFG_EN c (bitOf (u.reg .CORE_SPAREMAP 0) c).toNat).reg .CORE_CFG c := by
    rw [restart_reset, reg_startKind _ _ _ _ (by decide) (by decide), reg_keepReset, State.resetRegs,
      reg_setFld_ne _ _ _ _ _ _ (by decide), reg_setFld_ne _ _ _ _ _ _ (by decide)]
    exact congrArg Prod.fst hend
  have hsp : u.reg .CORE_SPAREMAP 0 = s.reg .CORE_SPAREMAP 0 := (congrArg Prod.snd hu).trans hmap
  rw [flag_of_reg hreg, hsp, State.flag, State.fld_setFld_self _ _ _ _ (by decide)]
  cases bitOf (s.reg .CORE_SPAREMAP 0) c <;> rfl

/-- What a power-on start begins with. -/
theorem power_start : (s.restart 0).power = 2 ∧ (s.restart 0).startStage = 0 ∧ (s.restart 0).fld Fields.STORE_START_KIND 0 = 0 ∧
    (s.restart 0).reg .BAR_WAKEEN 0 = State.reset.reg .BAR_WAKEEN 0 := by
  rw [restart_power]
  refine ⟨(power_startKind ..).trans ?_, (stage_startKind ..).trans ?_, (kind_startKind _ 0 (by decide)).1,
    reg_startKind _ _ _ _ (by decide) (by decide)⟩
  · change State.reset.power = 2
    decide
  · change State.reset.startStage = 0
    decide

/-- What RESET_N leaves beside registers, windows and units. -/
theorem reset_form : (s.restart 2).pins = s.pins ∧ (s.restart 2).flash = s.storeCut.flash ∧ (s.restart 2).otp = s.otp ∧
    (s.restart 2).bar = s.bar ∧ (s.restart 2).stations = State.reset.stations ∧
    (s.restart 2).outs = Vector.ofFn fun o : Fin 32 => { Output.reset with fenced := (s.out o.val).fenced } := by
  rw [restart_reset, keepReset_form, keepBarrow_form]
  generalize State.regs _ = rg
  exact ⟨rfl, rfl, rfl, rfl, rfl, rfl⟩

theorem reset_windows (hr : s.raises = []) : (s.restart 2).windows = s.windows.mapIdx fun i w =>
    w.afterReset (if i = windowIndex 11 0 then w.live else 0) := by
  rw [restart_reset, keepReset_form, hr]
  rfl

/-- What RESET_N begins with: the flash, OTP, domain 112 and the tallies as they were. -/
theorem reset_start (hr : s.raises = []) : (s.restart 2).pins = s.pins ∧ (s.restart 2).power = 2 ∧ (s.restart 2).startStage = 0 ∧
    (s.restart 2).fld Fields.STORE_START_KIND 0 = 2 ∧ (s.restart 2).flash = s.storeCut.flash ∧ (s.restart 2).otp = s.otp ∧
    (s.restart 2).bar = s.bar ∧ (s.restart 2).reg .BAR_WAKEEN 0 = s.reg .BAR_WAKEEN 0 ∧
    (s.restart 2).reg .CORE_FENCESUM 0 = s.reg .CORE_FENCESUM 0 ∧ (s.restart 2).reg .CORE_SPAREMAP 0 = s.reg .CORE_SPAREMAP 0 ∧
    (∀ c : Fin 26, (s.restart 2).flag Fields.CORE_CFG_EN c = bitOf (s.reg .CORE_SPAREMAP 0) c) ∧
    (s.restart 2).stations = State.reset.stations ∧ (∀ o : Fin 32, ((s.restart 2).out o).fenced = (s.out o).fenced) ∧
    ∀ w : Fin 97, ((s.restart 2).win w).tally = (s.win w).tally ∧ ((s.restart 2).win w).stat = (s.win w).stat ∧
      ((s.restart 2).win w).live = if w.val = windowIndex 11 0 then (s.win w).live else 0 := by
  have hk : ∀ r j, j < (regSpec r).count → r ∉ [.CORE_CFG, .SEQ_THREADS, .MON_STAT, .STORE_START, .BAR_WAKECAUSE] →
      (s.restart 2).reg r j =
        if r ∈ keptRegs then s.reg r j else if r ∈ barrowRegs then s.reg r j else State.reset.reg r j := by
    intro r j hj hn
    simp only [List.mem_cons, List.not_mem_nil, or_false, not_or] at hn
    obtain ⟨h1, h2, h3, h4, h5⟩ := hn
    rw [restart_reset, reg_startKind _ _ _ _ h4 h5, reg_resetBase s r j hj h1 h2 h3]
  have hstage : (s.restart 2).startStage = 0 := by
    rw [restart_reset, stage_startKind, State.startStage,
      fld_of_reg ((reg_resetBase s .STORE_START 0 (by decide) (by decide) (by decide) (by decide)).trans
        ((if_neg (by decide)).trans (if_neg (by decide))))]
    decide
  have hkind : (s.restart 2).fld Fields.STORE_START_KIND 0 = 2 := by
    rw [restart_reset]
    exact (kind_startKind _ 2 (by decide)).1
  have hpow : (s.restart 2).power = 2 := by
    rw [State.power, fld_of_reg ((hk .PWR_STATE 0 (by decide) (by decide)).trans ((if_neg (by decide)).trans (if_neg (by decide))))]
    decide
  have hwin := reset_windows s hr
  obtain ⟨h1, h2, h3, h4, h5, h6⟩ := reset_form s
  refine ⟨h1, hpow, hstage, hkind, h2, h3, h4, (hk _ _ (by decide) (by decide)).trans ((if_neg (by decide)).trans (if_pos (by decide))),
    (hk _ _ (by decide) (by decide)).trans (if_pos (by decide)), (hk _ _ (by decide) (by decide)).trans (if_pos (by decide)),
    enabled_restart_reset s, h5, fun o => ?_, fun w => ?_⟩
  · rw [State.out, h6, Vector.getElem?_eq_getElem o.isLt, Vector.getElem_ofFn]
    rfl
  · have hw : (s.restart 2).win w = (s.win w).afterReset (if w.val = windowIndex 11 0 then (s.win w).live else 0) := by
      rw [State.win, hwin, Vector.getElem?_eq_getElem w.isLt, Vector.getElem_mapIdx, State.win, Vector.getElem?_eq_getElem w.isLt]
      rfl
    rw [hw]
    exact ⟨rfl, rfl, rfl⟩

end Start

/-- Settles O47: what stays by what the model's starts keep, register by register for RESET_N. -/
theorem startsBegin : Obligations.StartsBegin := by
  refine ⟨?_, ?_, ?_, ?_, ?_, ?_, ?_, ?_, ?_, ?_⟩
  · intro s l m h
    obtain ⟨h1, h2, h3, -⟩ := power_start { s with pins := { s.pins with aon := true, porLow := l, testMode := m } }
    exact ⟨_, congrArg Host.Outcome.next (if_neg (by simp [h])), rfl, rfl, rfl, h1, h2, h3, rfl, storeCut_pins s _, rfl, rfl, rfl, rfl,
      rfl, rfl⟩
  · intro s l m h
    exact ⟨_, rfl, if_pos h⟩
  · intro s
    exact ⟨_, rfl, rfl, State.fld_setFld_self _ _ _ _ (by decide), rfl, rfl, rfl, rfl, rfl⟩
  · intro s hh ha
    obtain ⟨h1, h2, h3, h4⟩ := power_start { s with pins := { s.pins with porLow := true } }
    have hn : ¬(s.halted || !s.pins.aon) = true := by simp [hh, ha]
    exact ⟨_, congrArg Host.Outcome.next (if_neg hn), rfl, h1, h2, h3, storeCut_pins s _, rfl, rfl, h4⟩
  · intro s h
    exact ⟨_, rfl, if_pos (by simp [h])⟩
  · intro s hh ha hs hr
    have hd : s.drivesReset = false := by simp [State.drivesReset, hs]
    have hn : ¬(s.halted || !s.pins.aon || s.drivesReset) = true := by simp [hh, ha, hd]
    obtain ⟨h1, h2, h3, h4, h5, h6⟩ := reset_start { s with pins := { s.pins with resetLow := true } } hr
    exact ⟨_, congrArg Host.Outcome.next (if_neg hn), h1, h2, h3, h4, h5.trans (storeCut_pins s _), h6⟩
  · intro s h
    refine ⟨_, rfl, if_pos ?_⟩
    obtain h | ⟨h1, h2, h3⟩ := h
    · simp [h]
    · have hd : s.drivesReset = true := by simp [State.drivesReset, h1, h2, h3]
      exact Bool.or_eq_true_iff.2 (.inr hd)
  · exact fun s => ⟨_, rfl, rfl⟩
  · intro s
    exact ⟨_, if_neg (by simp), rfl⟩
  · intro s h
    exact if_pos (by simp [h])

end Sys2Proof.Machine

namespace Sys2Proof.Machine

/-! ## The slot table and starts of any kind (R583, R584, R590 to R595) -/

section Slot
variable (s : State)

/-- The entry in force is a matter of the slot table. -/
theorem entry_of_table {s t : State} (h : t.flash.table_ = s.flash.table_) : t.entry = s.entry := by
  unfold State.entry
  rw [h]

theorem entry_commitSlot (f : SlotEntry → SlotEntry) :
    (s.commitSlot f).entry = { f s.entry with seq := (s.entry.seq + 1) % 2 ^ 32 } := rfl

theorem table_storeCut : s.storeCut.flash.table_ = s.flash.table_ := by
  unfold State.storeCut
  cases s.store.writing <;> rfl

/-- What a start of a kind keeps, before its own marks. -/
def State.startBase (s : State) (k : Nat) : State :=
  if k = 1 then s.powerOn.keepBarrow s else if k = 2 then (s.powerOn.keepBarrow s).keepReset s else s.powerOn

theorem restart_startKind (k : Nat) : s.restart k = (s.startBase k).startKind k := rfl

/-- A register outside domain 112 and the kept ones reads its Reset value where a start begins. -/
theorem reg_startBase (k : Nat) (r : RegName) (j : Nat) (hj : j < (regSpec r).count)
    (h : r ∉ [.CORE_CFG, .SEQ_THREADS, .MON_STAT]) (hb : r ∉ barrowRegs) (hr : r ∉ keptRegs) :
    (s.startBase k).reg r j = State.reset.reg r j := by
  simp only [List.mem_cons, List.not_mem_nil, or_false, not_or] at h
  obtain ⟨h1, h2, h3⟩ := h
  unfold State.startBase
  split_ifs
  · rw [reg_keepBarrow, State.copyRegs, reg_copyRegs _ _ _ _ _ hj, if_neg hb]
    rfl
  · rw [reg_resetBase s r j hj h1 h2 h3, if_neg hr, if_neg hb]
  · rfl

theorem flash_startBase (k : Nat) : (s.startBase k).flash = s.storeCut.flash := by
  unfold State.startBase
  split_ifs
  · rw [keepBarrow_form]
    generalize State.regs _ = rg
    rfl
  · rw [keepReset_form, keepBarrow_form]
    generalize State.regs _ = rg
    rfl
  · rfl

/-- Every start begins in STANDBY at stage RESET, with the slot table as it was. -/
theorem power_restart (k : Nat) : (s.restart k).power = 2 := by
  rw [restart_startKind, power_startKind, State.power,
    fld_of_reg (reg_startBase s k .PWR_STATE 0 (by decide) (by decide) (by decide) (by decide))]
  decide

theorem stage_restart (k : Nat) : (s.restart k).startStage = 0 := by
  rw [restart_startKind, stage_startKind, State.startStage,
    fld_of_reg (reg_startBase s k .STORE_START 0 (by decide) (by decide) (by decide) (by decide))]
  decide

theorem flash_restart (k : Nat) : (s.restart k).flash = s.storeCut.flash := flash_startBase s k

theorem entry_restart (k : Nat) : (s.restart k).entry = s.entry :=
  entry_of_table ((congrArg Flash.table_ (flash_restart s k)).trans (table_storeCut s))

/-- What a copy's progress writes beside UPD_PROGRESS is nothing. -/
theorem noteProgress_keeps (c : Copy) : (∃ rg, s.noteProgress c = { s with regs := rg }) ∧ (s.noteProgress c).startStage = s.startStage :=
  ⟨⟨_, rfl⟩, (fld_of_reg (reg_setFld_ne _ _ _ _ _ _ (by decide))).trans (fld_of_reg (reg_setFld_ne _ _ _ _ _ _ (by decide)))⟩

/-- The entry that a finished reversion commits (R592). -/
def SlotEntry.reverted (e : SlotEntry) : SlotEntry := { e with state := .idle, trials := 0, actHash := e.fbHash, stValid := false }

/-- A reversion whose blocks are all written ends in IDLE, and a new start begins (R592, R594). -/
theorem finishCopy_revert (c : Copy) (h : c.revert = true) : (s.finishCopy c).startStage = 0 ∧ (s.finishCopy c).power = 2 ∧
    (s.finishCopy c).entry.state = .idle ∧ (s.finishCopy c).entry.trials = 0 := by
  have hm : ∀ (u : State) (f : Store → Store), (u.modStore f).startStage = u.startStage ∧ (u.modStore f).power = u.power ∧
      (u.modStore f).entry = u.entry := fun _ _ => ⟨rfl, rfl, rfl⟩
  have hf : s.finishCopy c = ((s.commitSlot SlotEntry.reverted).restart s.boot.kind).modStore fun x => { x with updEvents := [3] } := if_pos h
  have he := entry_restart (s.commitSlot SlotEntry.reverted) s.boot.kind
  rw [entry_commitSlot] at he
  obtain ⟨h1, h2, h3⟩ := hm ((s.commitSlot SlotEntry.reverted).restart s.boot.kind) fun x => { x with updEvents := [3] }
  rw [hf, h1, h2, h3, stage_restart, power_restart, he]
  exact ⟨rfl, rfl, rfl, rfl⟩

/-- A copy after one more of its blocks. -/
def Copy.next (c : Copy) : Copy := { c with block := c.block + 1 }

/-- A block of a copy is written to its slot and journalled. -/
def State.blockWritten (s : State) (c : Copy) : State :=
  s.modFlash fun f =>
    { f with journal := f.journal ++ [⟨c.op, c.block, s.entry.seq⟩]
             fallback := if c.phase = 1 then putBlock f.fallback c.block (s.copySource c) else f.fallback
             active := if c.phase = 1 then f.active else putBlock f.active c.block (s.copySource c) }

theorem copyBlockDone_more {c : Copy} (h : s.boot.copy = some c) (hb : c.block + 1 < c.blocks) :
    s.copyBlockDone = ((s.blockWritten c).noteProgress c.next).modBoot fun b => { b with copy := some c.next } := by
  unfold State.copyBlockDone
  rw [h]
  exact if_pos hb

theorem copyBlockDone_last {c : Copy} (h : s.boot.copy = some c) (hb : c.block + 1 = c.blocks) (hp : c.phase = 2) :
    s.copyBlockDone = ((s.blockWritten c).noteProgress c.next).finishCopy c.next := by
  unfold State.copyBlockDone
  rw [h]
  exact (if_neg (not_lt.2 hb.ge)).trans (if_neg fun h => absurd (hp.symm.trans h.1) (by decide))

end Slot

/-! ## UPD_CMD (R588, R595) -/

section UpdCmd
variable {s : State}

/-- What a write of UPD_CMD makes of the outcome of the one command it asks for. -/
def updAnswer (w : Word) (r : UStatus × State) : WRes :=
  match r.1 with
  | .ok => (.ok, r.2.plainWrite .UPD_CMD 0 w)
  | .busy => (.busy, r.2)
  | .range => (.range, r.2)
  | _ => (.state, r.2)

theorem writeUpd_abort : s.writeReg .UPD_CMD 0 (keyed 1) = updAnswer (keyed 1) s.updAbort := by
  have h0 : bitOf (keyed 1) 0 = true := by decide
  have h1 : bitOf (keyed 1) 1 = false := by decide
  have h2 : bitOf (keyed 1) 2 = false := by decide
  simp only [State.writeReg, State.writeUpd, State.writeUpdCmd, updAnswer, h0, h1, h2, if_true, Bool.false_eq_true, if_false]
  cases s.updAbort.1 <;> rfl

theorem writeUpd_confirm : s.writeReg .UPD_CMD 0 (keyed 2) = updAnswer (keyed 2) s.updConfirm := by
  have h0 : bitOf (keyed 2) 0 = false := by decide
  have h1 : bitOf (keyed 2) 1 = true := by decide
  have h2 : bitOf (keyed 2) 2 = false := by decide
  simp only [State.writeReg, State.writeUpd, State.writeUpdCmd, updAnswer, h0, h1, h2, if_true, Bool.false_eq_true, if_false]
  cases s.updConfirm.1 <;> rfl

theorem writeUpd_activate : s.writeReg .UPD_CMD 0 (keyed 4) = updAnswer (keyed 4) s.updActivate := by
  have h0 : bitOf (keyed 4) 0 = false := by decide
  have h1 : bitOf (keyed 4) 1 = false := by decide
  have h2 : bitOf (keyed 4) 2 = true := by decide
  simp only [State.writeReg, State.writeUpd, State.writeUpdCmd, updAnswer, h0, h1, h2, if_true, Bool.false_eq_true, if_false]
  cases s.updActivate.1 <;> rfl

/-- A command of UPD_CMD that commits an entry shows it, with RESULT 0 and LASTW OK. -/
theorem completes_of_updOk {c : Instr} {w : Word} {u : State} {P : State → Prop}
    (hx : exec c s = .next (s.portWrite (regAddr .UPD_CMD 0) w)) (h : s.serves = true)
    (hk : ((regSpec .UPD_CMD).wk && getBits w 24 8 != 0xA5) = false)
    (hw : s.writeReg .UPD_CMD 0 w = (.ok, (u.setFld Fields.UPD_STAT_RESULT 0 0).plainWrite .UPD_CMD 0 w))
    (hP : ∀ t : State, t.flash = u.flash → s.wrote t → (∀ r i, r ≠ .UPD_CMD → r ≠ .UPD_STAT → t.reg r i = u.reg r i) →
      t.fld Fields.UPD_STAT_RESULT 0 = 0 → P t) : completes c s P :=
  completes_of_write hx h rfl (by decide) hk hw fun _ _ => hP _ rfl ⟨rfl, rfl⟩
    (fun r i h1 h2 => (State.reg_setReg_other _ _ _ _ _ _ fun e => h1 e.1.symm).trans (reg_setFld_ne _ _ _ _ _ _ h2))
    ((fld_of_reg (State.reg_setReg_other _ _ _ _ _ _ fun e => by cases e.1)).trans (State.fld_setFld_self _ _ _ _ (by decide)))

/-- One that the update state does not allow is refused with STATE, and neither the flash nor OTP changes. -/
theorem completes_of_updState {c : Instr} {w : Word} {n : Nat} (hx : exec c s = .next (s.portWrite (regAddr .UPD_CMD 0) w))
    (h : s.serves = true) (hk : ((regSpec .UPD_CMD).wk && getBits w 24 8 != 0xA5) = false)
    (hw : s.writeReg .UPD_CMD 0 w = (.state, s.setFld Fields.UPD_STAT_RESULT 0 n)) :
    completes c s fun t => t.refusedWith .state ∧ t.flash = s.flash ∧ t.otp = s.otp :=
  completes_of_refusal hx h rfl (by decide) hk hw (by decide) (by decide) fun _ _ _ hr _ => ⟨hr, rfl, rfl⟩

/-- A host write that is refused as a whole answers STATE and changes the port's own marks alone. -/
theorem portWrite_writesRefused (s : State) (a : Nat) (w : Word) (h : s.hostServes = true) (ht : s.itsTurn = true)
    (hr : s.writesRefused a = true) : s.portWrite a w = (s.modHspi fun x => { x with lastw := WStatus.code .state }).hspiError a
      (WStatus.code .state) := by
  have hh : s.holdsWrites = false := by
    simp only [State.itsTurn, Bool.and_eq_true, Bool.not_eq_true'] at ht
    simp [State.holdsWrites, ht.1]
  simp [State.portWrite, h, hh, stepOne_of_turn s ht, State.hostWrite, State.writeAddr, State.writeAt, hr]

theorem downloadRefused_of_none (h : s.boot.recovery = 0) : s.downloadRefused = none := by
  rw [State.downloadRefused, h]
  rfl

theorem updActivate_arms (h : s.boot.recovery = 0) (he : s.entry.state = .verified) :
    s.updActivate = (s.commitSlot fun e => { e with state := .armed }).updResult .ok := by
  simp [State.updActivate, downloadRefused_of_none h, he, h]

/-- The confirmation of a trial changes nothing of the slot table but its entry. -/
theorem table_commitUpdate (s : State) (n : Nat) : (s.commitUpdate n).flash.table_ = s.flash.table_ := by
  have hk : ∀ u : State, u.storeKick.flash.table_ = u.flash.table_ := by
    intro u
    unfold State.storeKick
    split
    · rfl
    · split
      · rfl
      · split <;> rfl
  unfold State.commitUpdate
  split
  · rfl
  · exact hk _

theorem flash_raiseFloors (s : State) : s.raiseFloors.flash = s.flash := by
  unfold State.raiseFloors
  extract_lets new full u
  split
  · exact raiseEvent_keeps State.flash _ _ _ fun _ _ => rfl
  · rfl

end UpdCmd

/-- Settles O49: the copy block by block, the trial's end, and UPD_CMD's three commands by what each commits. -/
theorem updatesAdvance : Obligations.UpdatesAdvance := by
  refine ⟨?_, ?_, ?_, ?_, ?_, ?_, ?_, ?_⟩
  · intro s c hh hc hb
    refine ⟨_, congrArg Host.Outcome.next ((if_neg (by simp [hh])).trans (copyBlockDone_more s hc hb)), ?_⟩
    obtain ⟨⟨rg, hv⟩, hst⟩ := noteProgress_keeps (s.blockWritten c) c.next
    refine ⟨rfl, congrArg (·.flash.journal) hv, fun hp => ?_, fun hp => ?_, hst, entry_of_table (congrArg (·.flash.table_) hv)⟩
    · exact ⟨(congrArg (·.flash.active) hv).trans (if_pos hp), (congrArg (·.flash.fallback) hv).trans (if_pos hp)⟩
    · exact ⟨(congrArg (·.flash.fallback) hv).trans (if_neg hp), (congrArg (·.flash.active) hv).trans (if_neg hp)⟩
  · intro s c hh hc hr hp hb
    exact ⟨_, congrArg Host.Outcome.next ((if_neg (by simp [hh])).trans (copyBlockDone_last s hc hb hp)), finishCopy_revert _ _ hr⟩
  · intro s h
    refine ⟨_, rfl, ?_⟩
    unfold State.copyBlockDone
    rw [h]
    exact ite_self s
  · intro s k hup hd hn he
    refine ⟨fun hl => completes_of_detector rfl hup (t := s.restart 2) ?_ ⟨stage_restart s 2, ?_, entry_restart s 2⟩,
      fun hl => completes_of_detector rfl hup (t := s) ?_ rfl⟩
    · simp only [State.trialTimeout, hd]
      exact if_pos ⟨hn, he, hl⟩
    · rw [restart_reset]
      exact (kind_startKind _ 2 (by decide)).1
    · simp only [State.trialTimeout, hd]
      exact if_neg fun h => absurd h.2.2 (not_lt.2 hl)
  · intro s h he
    have hst : s.startStage = 6 := by
      simp only [State.serves, Bool.and_eq_true, beq_iff_eq] at h
      exact h.1.1.2
    have hn : ¬(s.entry.state ≠ .trial ∨ s.startStage ≠ 6) := by simp [he, hst]
    have hw : s.updConfirm = (((s.commitSlot fun e => { e with state := .idle, trials := 0 }).raiseFloors.commitUpdate 2).updResult .ok) :=
      if_neg hn
    refine completes_of_updOk rfl h (by decide) (u := (s.commitSlot fun e => { e with state := .idle, trials := 0 }).raiseFloors.commitUpdate 2)
      (by rw [writeUpd_confirm, hw]; rfl) fun t hf hwr _ hres => ?_
    have hent : t.entry = (s.commitSlot fun e => { e with state := .idle, trials := 0 }).entry := entry_of_table (by
      rw [hf, table_commitUpdate, flash_raiseFloors])
    rw [hent]
    exact ⟨rfl, rfl, hwr, hres⟩
  · intro s h he
    exact completes_of_updState (n := 4) rfl h (by decide) (by
      rw [writeUpd_confirm, State.updConfirm, if_pos (.inl he)]
      rfl)
  · intro s h hst ht
    have hr : s.writesRefused (regAddr .UPD_CMD 0) = true := by
      have hf : faultAt (regAddr .UPD_CMD 0) = none := by decide
      simp [State.writesRefused, hf, hst]
    have hf := hspiError_form (s.modHspi fun x => { x with lastw := WStatus.code .state }) (regAddr .UPD_CMD 0) (WStatus.code .state)
    refine ⟨_, congrArg Host.Outcome.next (portWrite_writesRefused s _ _ h ht hr), ⟨?_, hspiError_flag ..⟩, ?_, ?_⟩
    all_goals
      obtain ⟨rg, sk, he⟩ := hf
      rw [he]
      rfl
  · intro s h hb
    have hd := downloadRefused_of_none hb
    have hst : s.startStage = 6 := by
      simp only [State.serves, Bool.and_eq_true, beq_iff_eq] at h
      exact h.1.1.2
    refine ⟨fun he => ?_, fun he => ?_, fun he => ?_, fun he => ?_, fun he => ?_, fun he => ?_⟩
    · refine completes_of_updOk rfl h (by decide) (u := s.commitSlot fun e => { e with state := .armed })
        (by rw [writeUpd_activate, updActivate_arms hb he]; rfl) fun t hf hwr hreg _ => ?_
      exact ⟨entry_of_table (congrArg Flash.table_ hf), hwr, (fld_of_reg (hreg _ _ (by decide) (by decide))).trans hst⟩
    · obtain ⟨t, hx, hr, hfl, -⟩ := completes_of_updState (n := 4) (c := .updCmdActivate) rfl h (by decide) (by
        rw [writeUpd_activate, State.updActivate, hd]
        simp only [if_pos he]
        rfl)
      exact ⟨t, hx, hr, hfl⟩
    · refine completes_of_updOk rfl h (by decide) (u := s.commitSlot fun e => { e with state := .verified })
        (by rw [writeUpd_abort]; simp only [State.updAbort, hd, he]; rfl) fun t hf hwr _ _ => ?_
      exact ⟨congrArg SlotEntry.state (entry_of_table (congrArg Flash.table_ hf)), hwr⟩
    · refine completes_of_updOk rfl h (by decide) (u := s.commitSlot fun e => { e with state := .reverting })
        (by rw [writeUpd_abort]; simp only [State.updAbort, hd, he]; rfl) fun t hf hwr _ _ => ?_
      exact ⟨congrArg SlotEntry.state (entry_of_table (congrArg Flash.table_ hf)), hwr⟩
    · refine completes_of_updOk rfl h (by decide) (u := s.commitSlot fun e => { e with state := .idle, stValid := false })
        (by obtain he | he := he <;> (rw [writeUpd_abort]; simp only [State.updAbort, hd, he]; rfl)) fun t hf hwr _ _ => ?_
      have hent := entry_of_table (congrArg Flash.table_ hf)
      exact ⟨congrArg SlotEntry.state hent, congrArg SlotEntry.stValid hent, hwr⟩
    · obtain ⟨t, hx, hr, hfl, -⟩ := completes_of_updState (n := 4) (c := .updCmdAbort) rfl h (by decide) (by
        rw [writeUpd_abort]; simp only [State.updAbort, hd, he]; rfl)
      exact ⟨t, hx, hr, hfl⟩

end Sys2Proof.Machine

namespace Sys2Proof.Machine

/-! ## The ledger's commits (R550, R553, R555, R557, R562, R566) -/

section Ledger
variable (s : State)

/-- The settings that differ from the committed ones are no matter of the register file. -/
theorem dirtyItems_regs (rg : RegFile) : State.dirtyItems { s with regs := rg } = s.dirtyItems := rfl

theorem storeKick_idle (h : s.store.queue = []) : s.storeKick = s := by
  unfold State.storeKick
  rw [h]
  exact ite_self s

theorem storeKick_busy (h : s.store.writing.isSome = true) : s.storeKick = s := if_pos (by simp [h])

/-- The front commit starts to be written (R556). -/
theorem storeKick_starts (q : Queued) (hw : s.store.writing = none) (ho : s.store.readOnly = false) (hq : s.store.queue = [q])
    (hf : s.flash.fits (recordLength q.payload) = true) : (∃ n, s.storeKick.store = { s.store with
        queue := []
        writing := some ⟨q.kind, (s.reg .STORE_NEXTSEQ 0).toNat, s.setFmt, q.payload, .torn, s.flash.ringBlock, n⟩ }) ∧
      s.storeKick.flash = s.flash.advance (recordLength q.payload) ∧
      s.storeKick.reg .STORE_NEXTSEQ 0 = s.reg .STORE_NEXTSEQ 0 + 1 := by
  have hn : ¬(s.store.writing.isSome || s.store.readOnly) = true := by simp [hw, ho]
  have hfit : ¬(!s.flash.fits (recordLength q.payload)) = true := by simp [hf]
  have hfmt : ∀ v f, (({ s.setReg .STORE_NEXTSEQ 0 v with flash := f } : State).setFmt) = s.setFmt := fun v f =>
    fld_of_reg (State.reg_setReg_other s _ _ _ _ _ fun e => by cases e.1)
  have he : ∃ n, s.storeKick = { s.setReg .STORE_NEXTSEQ 0 (BitVec.ofNat 32 ((s.reg .STORE_NEXTSEQ 0).toNat + 1)) with
        flash := s.flash.advance (recordLength q.payload)
        store := { s.store with
          queue := []
          writing := some ⟨q.kind, (s.reg .STORE_NEXTSEQ 0).toNat, s.setFmt, q.payload, .torn, s.flash.ringBlock, n⟩ } } := by
    refine ⟨(s.flash.advance (recordLength q.payload)).ringBlock, ?_⟩
    unfold State.storeKick
    rw [if_neg hn, hq]
    refine (if_neg hfit).trans ?_
    rw [← hfmt]
    rfl
  obtain ⟨n, he⟩ := he
  rw [he]
  refine ⟨⟨n, rfl⟩, rfl, (State.reg_setReg_self s _ _ _).trans (BitVec.eq_of_toNat_eq ?_)⟩
  simp

/-- What neither the queue, the record being written, the write point nor STORE_NEXTSEQ bears on, the store's kick leaves alone. -/
theorem storeKick_keeps {α : Type} (g : State → α)
    (hg : ∀ (s : State) q w f v, g { s.setReg .STORE_NEXTSEQ 0 v with
      store := { s.store with queue := q, writing := w }, flash := s.flash.advance f } = g s) : g s.storeKick = g s := by
  unfold State.storeKick
  split
  · rfl
  · split
    · rfl
    · split
      · rfl
      · exact hg s _ _ _ _

/-- A command of STORE_CMD is complete with what its bit does, the port's own marks and the digest beside it. -/
theorem completes_of_storeCmd {c : Instr} {k : Nat} {u : State} {P : State → Prop}
    (hx : exec c s = .next (s.portWrite (regAddr .STORE_CMD 0) (keyed k))) (h : s.serves = true)
    (hk : ((regSpec .STORE_CMD).wk && getBits (keyed k) 24 8 != 0xA5) = false)
    (hu : (s.plainWrite .STORE_CMD 0 (keyed k)).writeStoreCmd (keyed k) = u)
    (hP : ∀ fl, P { u with fleet := fl, hwRel := s.now, hspi := { u.hspi with lastw := 0 } }) : completes c s P := by
  obtain ⟨fl, ht⟩ := portWrite_unsaved h (placed_of_command .STORE_CMD 0 (by decide) (by decide)) hk
    (show s.writeReg .STORE_CMD 0 (keyed k) = (.ok, u) from congrArg (Prod.mk WStatus.ok) hu) (by decide) (by decide)
  exact ⟨_, hx, ht ▸ hP fl⟩

theorem writeStoreCmd_save : s.writeStoreCmd (keyed 1) = s.storeSave := by
  have h0 : bitOf (keyed 1) 0 = true := by decide
  have h1 : bitOf (keyed 1) 1 = false := by decide
  simp [State.writeStoreCmd, h0, h1]

theorem writeStoreCmd_full : s.writeStoreCmd (keyed 2) = s.storeFull := by
  have h0 : bitOf (keyed 2) 0 = false := by decide
  have h1 : bitOf (keyed 2) 1 = true := by decide
  simp [State.writeStoreCmd, h0, h1]

theorem storeSave_readOnly (h : s.store.readOnly = true) : s.storeSave = s.setFld Fields.STORE_STAT_RESULT 0 1 := if_pos h

theorem storeSave_clean (h : s.store.readOnly = false) (hd : s.dirtyItems = []) :
    s.storeSave = s.setFld Fields.STORE_STAT_RESULT 0 2 := by
  simp [State.storeSave, h, hd]

/-- A SAVE with settings to commit queues them (R553, R557). -/
theorem storeSave_queues (h : s.store.readOnly = false) (hd : s.dirtyItems ≠ []) (hq : s.store.queue = []) :
    s.storeSave = ((s.setFld Fields.STORE_STAT_RESULT 0 0).modStore fun x =>
      { x with queue := [⟨1, itemWords s.dirtyItems⟩] }).storeKick := by
  have he : s.dirtyItems.isEmpty = false := by simpa using hd
  simp [State.storeSave, h, he, State.requestCommit, State.modStore, hq]

/-- STORE_STAT shows the result of the last command. -/
theorem fld_storeResult (v : Nat) (h : v < 4) : (s.setFld Fields.STORE_STAT_RESULT 0 v).fld Fields.STORE_STAT_RESULT 0 = v :=
  (State.fld_setFld_self s Fields.STORE_STAT_RESULT 0 v (by decide)).trans
    (Nat.mod_eq_of_lt (Nat.lt_of_lt_of_le h (by decide)))

/-- Items that become committed values change what is saved alone. -/
theorem commitItems_keeps {α : Type} (g : Store → α)
    (hg : ∀ (x : Store) a b c d e, g { x with saved := a, savedProfs := b, savedPgm := c, savedFlows := d, savedFaults := e } = g x)
    (x : Store) (l : List SetItem) : g (x.commitItems l) = g x := by
  induction l generalizing x with
  | nil => rfl
  | cons i l ih =>
    refine (ih (x.commitItem i)).trans ?_
    cases i with
    | reg a v =>
      simp only [Store.commitItem]
      split
      · exact hg x _ _ _ _ _
      · rfl
    | prof p ws => exact hg x _ _ _ _ _
    | block n b ws => exact hg x _ _ _ _ _
    | flow t f e => exact hg x _ _ _ _ _
    | fault c n k v => exact hg x _ _ _ _ _

/-- What a committed record does to the state is to change what is saved. -/
theorem takeRecord_form (r : Record) : ∃ x, s.takeRecord r = { s with store := x } ∧ x.queue = s.store.queue ∧
    x.writing = s.store.writing ∧ x.readOnly = s.store.readOnly ∧ x.fulling = s.store.fulling ∧ x.lastCommit = s.store.lastCommit := by
  have items : ∀ l, ∃ x, (s.modStore fun x => x.commitItems l) = { s with store := x } ∧ x.queue = s.store.queue ∧
      x.writing = s.store.writing ∧ x.readOnly = s.store.readOnly ∧ x.fulling = s.store.fulling ∧
      x.lastCommit = s.store.lastCommit := fun l =>
    ⟨_, rfl, commitItems_keeps Store.queue (fun _ _ _ _ _ _ => rfl) _ _, commitItems_keeps Store.writing (fun _ _ _ _ _ _ => rfl) _ _,
      commitItems_keeps Store.readOnly (fun _ _ _ _ _ _ => rfl) _ _, commitItems_keeps Store.fulling (fun _ _ _ _ _ _ => rfl) _ _,
      commitItems_keeps Store.lastCommit (fun _ _ _ _ _ _ => rfl) _ _⟩
  unfold State.takeRecord
  split
  · split
    · exact items _
    · exact ⟨s.store, rfl, rfl, rfl, rfl, rfl, rfl⟩
  · exact items _
  · exact ⟨s.store, rfl, rfl, rfl, rfl, rfl, rfl⟩

/-- The ledger with a record's COMMIT word programmed (R555). -/
def State.recordPut (s : State) (r : Record) : State :=
  (((s.modFlash fun f => { f with ring := f.ring ++ [{ r with commit := .whole }] }).modStore fun x => { x with writing := none }).bump
    Fields.STORE_COMMITS_COUNT 0 1).modStore fun x => { x with lastCommit := s.now }

/-- The same once the record's items are committed values, before anything else of the store moves. -/
def State.recordWhole (s : State) (r : Record) : State := (s.recordPut r).takeRecord { r with commit := .whole }

theorem recordCommitted_eq {r : Record} (h : s.store.writing = some r) : s.recordCommitted = (s.recordWhole r).storeKick.fullingDue := by
  unfold State.recordCommitted
  rw [h]
  rfl

theorem recordPut_facts (r : Record) : (s.recordPut r).flash = { s.flash with ring := s.flash.ring ++ [{ r with commit := .whole }] } ∧
    (s.recordPut r).store = { s.store with writing := none, lastCommit := s.now } ∧ (s.recordPut r).reg .STORE_CFG 0 = s.reg .STORE_CFG 0 ∧
    (s.recordPut r).fld Fields.STORE_COMMITS_COUNT 0 = satAdd (s.fld Fields.STORE_COMMITS_COUNT 0) Fields.STORE_COMMITS_COUNT.width 1 :=
  ⟨rfl, rfl, reg_setFld_ne _ _ _ _ _ _ (by decide), State.fld_bump_self _ Fields.STORE_COMMITS_COUNT 0 1 (by decide)⟩

/-- A record is committed, its count moves on, and nothing waits to be written (R555). -/
theorem recordWhole_facts (r : Record) (hq : s.store.queue = []) : ((s.recordWhole r).store.queue = [] ∧ (s.recordWhole r).store.writing = none ∧
    (s.recordWhole r).store.readOnly = s.store.readOnly ∧ (s.recordWhole r).store.fulling = s.store.fulling ∧
    (s.recordWhole r).store.lastCommit = s.now) ∧ (s.recordWhole r).flash.ring = s.flash.ring ++ [{ r with commit := .whole }] ∧
    (s.recordWhole r).flash.ringFree = s.flash.ringFree ∧ (s.recordWhole r).fullAt = s.fullAt ∧
    (s.recordWhole r).fld Fields.STORE_COMMITS_COUNT 0 = satAdd (s.fld Fields.STORE_COMMITS_COUNT 0) Fields.STORE_COMMITS_COUNT.width 1 := by
  obtain ⟨hflash, hstore, hcfg, hcnt⟩ := recordPut_facts s r
  obtain ⟨x, hx, h1, h2, h3, h4, h5⟩ := takeRecord_form (s.recordPut r) { r with commit := .whole }
  rw [hstore] at h1 h2 h3 h4 h5
  have hc : s.recordWhole r = { s.recordPut r with store := x } := hx
  rw [hc]
  generalize s.recordPut r = u at hflash hcfg hcnt
  refine ⟨⟨h1.trans hq, h2, h3, h4, h5⟩, congrArg Flash.ring hflash, ?_, ?_, hcnt⟩
  · rw [hflash]
    rfl
  · exact congrArg (fun w => min 64 (max 8 w)) (fld_of_reg hcfg)

/-- The flash as fulling begins: the base copy that is not in use is no longer valid, and its blocks are erased. -/
def Flash.unfolded (f : Flash) (useB : Bool) (p : List PoolBlock) : Flash :=
  if useB then { f with pool := p, baseA := { f.baseA with valid := false } }
  else { f with pool := p, baseB := { f.baseB with valid := false } }

/-- Fulling starts (R562). -/
theorem startFulling_starts (ho : s.store.readOnly = false) (hf : s.store.fulling = none) : ∃ p, s.startFulling =
    { s with store := { s.store with fulling := some s.newestSeq }, flash := s.flash.unfolded s.store.useB p } := by
  unfold State.startFulling
  rw [if_neg (by simp [ho, hf])]
  exact ⟨_, rfl⟩

theorem storeFull_readOnly (h : s.store.readOnly = true) : s.storeFull = s.setFld Fields.STORE_STAT_RESULT 0 1 := if_pos h

theorem newestSeq_regs (rg : RegFile) : State.newestSeq { s with regs := rg } = s.newestSeq := rfl

/-- FULL starts fulling and reports it. -/
theorem storeFull_starts (ho : s.store.readOnly = false) (hf : s.store.fulling = none) : ∃ p, s.storeFull =
    { s.setFld Fields.STORE_STAT_RESULT 0 0 with
      store := { s.store with fulling := some s.newestSeq }, flash := s.flash.unfolded s.store.useB p } := by
  obtain ⟨p, hs⟩ := startFulling_starts (s.setFld Fields.STORE_STAT_RESULT 0 0) ho hf
  have hu : s.storeFull = (s.setFld Fields.STORE_STAT_RESULT 0 0).startFulling :=
    (if_neg (by simp [ho])).trans (if_neg (by simp [hf]))
  have hn : (s.setFld Fields.STORE_STAT_RESULT 0 0).newestSeq = s.newestSeq := newestSeq_regs s _
  refine ⟨p, hu.trans (hs.trans ?_)⟩
  rw [hn]
  rfl

theorem unfolded_keeps (f : Flash) (useB : Bool) (p : List PoolBlock) : (f.unfolded useB p).ring = f.ring ∧
    (if useB then (f.unfolded useB p).baseB else (f.unfolded useB p).baseA) = (if useB then f.baseB else f.baseA) ∧
    (if useB then (f.unfolded useB p).baseA.valid = false else (f.unfolded useB p).baseB.valid = false) := by
  cases useB <;> exact ⟨rfl, rfl, rfl⟩

/-- The flash as fulling ends: the other base copy takes the folded one, and the ring is shortened. -/
def Flash.folded (f : Flash) (useB : Bool) (b : BaseCopy) (p : List PoolBlock) (keep : List Record) (hd : Nat) : Flash :=
  if useB then { f with pool := p, ring := keep, ringHead := hd, baseB := b }
  else { f with pool := p, ring := keep, ringHead := hd, baseA := b }

theorem folded_facts (f : Flash) (useB : Bool) (b : BaseCopy) (p : List PoolBlock) (keep : List Record) (hd : Nat) :
    (f.folded useB b p keep hd).ring = keep ∧
      (if useB then (f.folded useB b p keep hd).baseB else (f.folded useB b p keep hd).baseA) = b := by
  cases useB <;> exact ⟨rfl, rfl⟩

theorem fullingDone_eq {n : Nat} (h : s.store.fulling = some n) : ∃ p hd, s.fullingDone =
    ((State.bump { s with
      flash := s.flash.folded (!s.store.useB) (s.foldedBase n) p (s.flash.ring.dropWhile fun r => !newer r.seq n) hd
      store := { s.store with fulling := none, useB := !s.store.useB } } Fields.STORE_FULLCNT_COUNT 0 1).setReg .STORE_BASE 0
        (BitVec.ofNat 32 n)).storeKick := by
  unfold State.fullingDone
  rw [h]
  exact ⟨_, _, rfl⟩

/-- Fulling ends (R562): the folded base copy is in use, and the records it covers leave the ring. -/
theorem fullingDone_ends {n : Nat} (h : s.store.fulling = some n) : s.fullingDone.store.fulling = none ∧
    s.fullingDone.store.useB = (!s.store.useB) ∧ s.fullingDone.base = s.foldedBase n ∧
    s.fullingDone.reg .STORE_BASE 0 = BitVec.ofNat 32 n ∧
    s.fullingDone.flash.ring = s.flash.ring.dropWhile fun r => !newer r.seq n := by
  obtain ⟨p, hd, he⟩ := fullingDone_eq s h
  obtain ⟨hring, hbase⟩ := folded_facts s.flash (!s.store.useB) (s.foldedBase n) p (s.flash.ring.dropWhile fun r => !newer r.seq n) hd
  rw [he]
  refine ⟨storeKick_keeps _ (·.store.fulling) fun _ _ _ _ _ => rfl, storeKick_keeps _ (·.store.useB) fun _ _ _ _ _ => rfl,
    (storeKick_keeps _ State.base fun _ _ _ _ _ => rfl).trans hbase, ?_,
    (storeKick_keeps _ (·.flash.ring) fun _ _ _ _ _ => rfl).trans hring⟩
  exact (storeKick_reg _ _ _ (by decide)).trans (State.reg_setReg_self ..)

/-- The spare that is taken for a role is a spare. -/
theorem bestSpare_spare {f : Flash} {i : Nat} (h : f.bestSpare = some i) : (f.pool[i]?).map (·.role) = some .spare := by
  have hmem : ∀ (l : List (PoolBlock × Nat)) (m : PoolBlock × Nat),
      l.foldl (fun m x => if x.1.erases < m.1.erases then x else m) m ∈ m :: l := by
    intro l
    induction l with
    | nil => exact fun m => List.mem_cons_self
    | cons x l ih =>
      intro m
      rw [List.foldl_cons]
      have hx := ih (if x.1.erases < m.1.erases then x else m)
      rcases List.mem_cons.1 hx with he | hl
      · rw [he]
        split <;> simp
      · exact .tail _ (.tail _ hl)
  unfold Flash.bestSpare at h
  extract_lets spares at h
  cases hs : spares with
  | nil => simp [hs] at h
  | cons p rest =>
    obtain ⟨b, k⟩ := p
    simp only [hs, Option.some.injEq] at h
    have hin := hmem rest (b, k)
    rw [← hs] at hin
    generalize rest.foldl _ (b, k) = q at hin h
    obtain ⟨hq, hrole⟩ := List.mem_filter.1 hin
    obtain ⟨hlt, hget⟩ := List.mk_mem_zipIdx_iff_getElem?.1 (show (q.1, q.2) ∈ f.pool.zipIdx from hq) |> fun e => (⟨e, trivial⟩ : _ ∧ True)
    rw [← h, hlt]
    exact congrArg some (by simpa using hrole)

/-- A block that is no spare keeps its role when a spare takes one. -/
theorem fillRole_role {f g : Flash} {r : PoolRole} {i : Nat} {x : PoolRole} (h : f.fillRole r = some g)
    (hx : (f.pool[i]?).map (·.role) = some x) (hn : x ≠ .spare) : (g.pool[i]?).map (·.role) = some x := by
  unfold Flash.fillRole at h
  obtain ⟨k, hk, rfl⟩ := Option.map_eq_some_iff.1 h
  have hne : k ≠ i := by
    rintro rfl
    exact hn (Option.some.inj (hx.symm.trans (bestSpare_spare hk)))
  exact (congrArg (Option.map PoolBlock.role) (List.getElem?_modify_ne _ _ hne)).trans hx

/-- What the queued commits of SAVE, and of a calibration image, report as the ledger turns read-only (R566, R462). -/
def State.refuseSave (s : State) (b : Bool) : State := if b then s.setFld Fields.STORE_STAT_RESULT 0 1 else s
def State.refuseCal (s : State) (b : Bool) : State :=
  if b then (s.setFld Fields.CAL_IMGSTAT_RESULT 0 7).raiseEvent Src.cal_COMMIT_FAIL 0 else s

theorem turnReadOnly_eq : s.turnReadOnly = (((s.modStore fun x => { x with readOnly := true, fulling := none, queue := [] }).refuseSave
    (s.store.queue.any fun q => q.kind == 1)).refuseCal (s.store.queue.any fun q => q.kind == 2)).beginLevel Src.store_LEDGER_READONLY 0 := rfl

theorem refuseSave_keeps (b : Bool) : (s.refuseSave b).flash = s.flash ∧ (s.refuseSave b).raises = s.raises := by
  cases b <;> exact ⟨rfl, rfl⟩

theorem refuseCal_keeps (b : Bool) : (s.refuseCal b).flash = s.flash ∧ s.raises ⊆ (s.refuseCal b).raises := by
  cases b with
  | true =>
    simp only [State.refuseCal, if_true]
    exact ⟨raiseEvent_keeps State.flash _ _ _ fun _ _ => rfl, raises_subset_raiseEvent (s.setFld Fields.CAL_IMGSTAT_RESULT 0 7) _ _⟩
  | false => exact ⟨rfl, List.Subset.refl _⟩

theorem raises_subset_beginLevel (f : Fid) (a : Word) : s.raises ⊆ (s.beginLevel f a).raises := by
  unfold State.beginLevel
  extract_lets t
  split
  · exact List.Subset.refl _
  · split
    · exact List.Subset.refl _
    · exact raises_subset_raiseEvent t _ _

/-- The ledger that turns read-only raises, and changes nothing of the flash (R566). -/
theorem turnReadOnly_keeps : s.turnReadOnly.flash = s.flash ∧ s.raises ⊆ s.turnReadOnly.raises := by
  have hsave := refuseSave_keeps (s.modStore fun x => { x with readOnly := true, fulling := none, queue := [] })
    (s.store.queue.any fun q => q.kind == 1)
  have hcal := refuseCal_keeps ((s.modStore fun x => { x with readOnly := true, fulling := none, queue := [] }).refuseSave
    (s.store.queue.any fun q => q.kind == 1)) (s.store.queue.any fun q => q.kind == 2)
  rw [turnReadOnly_eq]
  constructor
  · exact (RecordBlind.beginLevel ⟨fun _ _ _ => rfl, fun _ _ => rfl, fun _ _ => rfl⟩ _ _ _).trans (hcal.1.trans hsave.1)
  · exact fun r hr => raises_subset_beginLevel _ _ _ (hcal.2 (hsave.2 ▸ hr))

/-- A pool block that fails is retired, and raises (R550). -/
theorem poolFails_retires {i : Nat} {b : PoolBlock} (hb : s.flash.pool[i]? = some b) (hr : b.role ≠ .retired) :
    ((s.poolFails i).flash.pool[i]?).map (·.role) = some .retired ∧
      ∃ r ∈ (s.poolFails i).raises, r.fid = Src.store_ERASE_FAIL ∧ r.stamp = s.now := by
  unfold State.poolFails
  rw [hb]
  obtain ⟨r, hu, hid, hst⟩ := raiseEvent_of_not_fenced
    (s.modFlash fun f => { f with pool := f.pool.modify i fun b => { b with role := .retired } }) Src.store_ERASE_FAIL 0 rfl
  have hret : ∀ u, u = State.raiseEvent (s.modFlash fun f => { f with pool := f.pool.modify i fun b => { b with role := .retired } })
      Src.store_ERASE_FAIL 0 → (u.flash.pool[i]?).map (·.role) = some .retired ∧ r ∈ u.raises := by
    rintro u rfl
    rw [hu]
    refine ⟨?_, by simp⟩
    exact (congrArg (Option.map _) ((List.getElem?_modify_eq ..).trans (congrArg _ hb))).trans rfl
  refine (fun h => ⟨h.1, r, h.2, hid, hst⟩ : _ ∧ _ → _) ?_
  simp only
  generalize hg : State.raiseEvent (s.modFlash _) _ _ = u
  obtain ⟨h1, h2⟩ := hret u hg.symm
  rw [if_neg (by simpa using hr)]
  split
  · exact ⟨h1, h2⟩
  · split
    · next hf => exact ⟨fillRole_role hf h1 (by decide), h2⟩
    · obtain ⟨hk, hs⟩ := turnReadOnly_keeps u
      exact ⟨hk ▸ h1, hs h2⟩

end Ledger

/-- Settles O50: SAVE and FULL by what STORE_CMD's rule does, the rest by what a committed record, fulling's end and a failed block do. -/
theorem ledgerCommits : Obligations.LedgerCommits := by
  refine ⟨?_, ?_, ?_, ?_, ?_, ?_, ?_, ?_, ?_, ?_, ?_, ?_⟩
  · intro s h ho hd hq hw hf
    let p : State := (s.plainWrite .STORE_CMD 0 (keyed 1)).setFld Fields.STORE_STAT_RESULT 0 0
    have hreg : ∀ r i, r ≠ .STORE_CMD → r ≠ .STORE_STAT → p.reg r i = s.reg r i := fun r i h1 h2 =>
      (reg_setFld_ne _ _ _ _ _ _ h2).trans (State.reg_setReg_other _ _ _ _ _ _ fun e => h1 e.1.symm)
    let q : State := p.modStore fun x => { x with queue := [⟨1, itemWords s.dirtyItems⟩] }
    have hu : (s.plainWrite .STORE_CMD 0 (keyed 1)).writeStoreCmd (keyed 1) = q.storeKick :=
      (writeStoreCmd_save _).trans (storeSave_queues (s.plainWrite .STORE_CMD 0 (keyed 1)) ho hd hq)
    have hreg' : ∀ r i, r ≠ .STORE_CMD → r ≠ .STORE_STAT → q.reg r i = s.reg r i := hreg
    obtain ⟨⟨n, hst⟩, hfl, hseq⟩ := storeKick_starts q ⟨1, itemWords s.dirtyItems⟩ hw ho rfl hf
    have hres : q.storeKick.fld Fields.STORE_STAT_RESULT 0 = 0 := (fld_of_reg (storeKick_reg q _ _ (by decide))).trans 
      ((State.modStore_at_fld _ _ _ _).trans (fld_storeResult _ 0 (by decide)))
    rw [show q.setFmt = s.setFmt from fld_of_reg (hreg' _ _ (by decide) (by decide)), hreg' _ _ (by decide) (by decide)] at hst
    rw [hreg' _ _ (by decide) (by decide)] at hseq
    have hring : q.storeKick.flash.ring = s.flash.ring := (congrArg Flash.ring hfl).trans rfl
    have hsaved : q.storeKick.store.saved = s.store.saved := (congrArg Store.saved hst).trans rfl
    exact completes_of_storeCmd s rfl h (by decide) hu fun fl => ⟨⟨rfl, rfl⟩, hres, congrArg Store.queue hst, hseq, hring, hsaved, _,
      congrArg Store.writing hst, rfl, rfl, rfl, rfl, rfl⟩
  · intro s h ho hd hq hw
    let q : State := ((s.plainWrite .STORE_CMD 0 (keyed 1)).setFld Fields.STORE_STAT_RESULT 0 0).modStore fun x =>
      { x with queue := [⟨1, itemWords s.dirtyItems⟩] }
    have hu : (s.plainWrite .STORE_CMD 0 (keyed 1)).writeStoreCmd (keyed 1) = q :=
      (writeStoreCmd_save _).trans ((storeSave_queues (s.plainWrite .STORE_CMD 0 (keyed 1)) ho hd hq).trans (storeKick_busy q hw))
    have hres : q.fld Fields.STORE_STAT_RESULT 0 = 0 := 
      (State.modStore_at_fld _ _ _ _).trans (fld_storeResult _ 0 (by decide))
    have hwr : q.store.writing = s.store.writing := rfl
    have hqu : q.store.queue = [⟨1, itemWords s.dirtyItems⟩] := rfl
    clear_value q
    exact completes_of_storeCmd s rfl h (by decide) hu fun fl => ⟨⟨rfl, rfl⟩, hres, hwr, hqu⟩
  · intro s h
    refine ⟨fun ho => ?_, fun ho hd => ?_⟩
    · have hres := fld_storeResult (s.plainWrite .STORE_CMD 0 (keyed 1)) 1 (by decide)
      exact completes_of_storeCmd s rfl h (by decide)
        ((writeStoreCmd_save _).trans (storeSave_readOnly (s.plainWrite .STORE_CMD 0 (keyed 1)) ho)) fun fl => ⟨hres, rfl, rfl⟩
    · have hres := fld_storeResult (s.plainWrite .STORE_CMD 0 (keyed 1)) 2 (by decide)
      exact completes_of_storeCmd s rfl h (by decide)
        ((writeStoreCmd_save _).trans (storeSave_clean (s.plainWrite .STORE_CMD 0 (keyed 1)) ho hd)) fun fl => ⟨hres, rfl, rfl⟩
  · intro s r hh hw hq hf
    obtain ⟨⟨h1, h2, h3, h4, h5⟩, hring, hfree, hat, hcnt⟩ := recordWhole_facts s r hq
    have he : s.recordCommitted = s.recordWhole r := by
      rw [recordCommitted_eq s hw, storeKick_idle _ h1, State.fullingDue, hfree, hat, if_neg (not_le.2 hf)]
    exact ⟨_, congrArg Host.Outcome.next ((if_neg (by simp [hh])).trans he), h2, hring, h5, h4, hcnt⟩
  · intro s r hh hw hq hful ho hf
    obtain ⟨⟨h1, h2, h3, h4, h5⟩, hring, hfree, hat, hcnt⟩ := recordWhole_facts s r hq
    obtain ⟨p, hs⟩ := startFulling_starts (s.recordWhole r) (h3.trans ho) (h4.trans hful)
    have he : s.recordCommitted = (s.recordWhole r).startFulling := by
      rw [recordCommitted_eq s hw, storeKick_idle _ h1, State.fullingDue, hfree, hat, if_pos hf]
    rw [hs] at he
    refine ⟨_, congrArg Host.Outcome.next ((if_neg (by simp [hh])).trans he), rfl, ?_⟩
    exact (unfolded_keeps _ _ p).1.trans hring
  · intro s h
    refine ⟨_, rfl, ?_⟩
    unfold State.recordCommitted
    rw [h]
    exact ite_self s
  · intro s h ho hful
    obtain ⟨b, hs⟩ := storeFull_starts (s.plainWrite .STORE_CMD 0 (keyed 2)) ho hful
    rw [show (s.plainWrite .STORE_CMD 0 (keyed 2)).newestSeq = s.newestSeq from newestSeq_regs s _] at hs
    obtain ⟨hring, hbase, hvalid⟩ := unfolded_keeps s.flash s.store.useB b
    have hres := fld_storeResult (s.plainWrite .STORE_CMD 0 (keyed 2)) 0 (by decide)
    exact completes_of_storeCmd s rfl h (by decide) ((writeStoreCmd_full _).trans hs) fun fl =>
      ⟨⟨rfl, rfl⟩, hres, rfl, hbase, hring, hvalid⟩
  · intro s h ho
    have hres := fld_storeResult (s.plainWrite .STORE_CMD 0 (keyed 2)) 1 (by decide)
    exact completes_of_storeCmd s rfl h (by decide)
      ((writeStoreCmd_full _).trans (storeFull_readOnly (s.plainWrite .STORE_CMD 0 (keyed 2)) ho)) fun fl => ⟨hres, rfl, rfl⟩
  · intro s n hh hf
    exact ⟨_, congrArg Host.Outcome.next (if_neg (by simp [hh])), fullingDone_ends s hf⟩
  · intro s h
    refine ⟨_, rfl, ?_⟩
    unfold State.fullingDone
    rw [h]
    exact ite_self s
  · intro s i b hh hc hb hr
    have he : s.eraseFail i.val = s.poolFails i.val := by
      rw [State.eraseFail, hc]
      rfl
    exact ⟨_, congrArg Host.Outcome.next ((if_neg (by simp [hh])).trans he), poolFails_retires s hb hr⟩
  · intro s i hh hc
    exact ⟨_, congrArg Host.Outcome.next ((if_neg (by simp [hh])).trans (if_pos hc)), rfl, rfl,
      State.fld_setFld_self _ _ _ _ (by decide)⟩

end Sys2Proof.Machine

namespace Sys2Proof.Machine

/-! ## Frames, sessions and their answers (R573 to R582) -/

section Plipo
variable {s : State} {l : List Byte} {r : PlipoReq} {x : Session}

/-- A frame that a row takes is answered. -/
theorem plipo_answers (c : PlipoCmd) (hm : s.mgmtRuns = true) (hs : s.svcServes = true) (hp : plipoParse l = some r) (hc : r.cmd = c.code) :
    (if s.mgmtRuns then s.plipo c (some l) else s) = s.plipoAnswer .svc r := by
  simp [hm, State.plipo, hs, State.plipoTake, hp, hc]

/-- Without a session a request of no OPEN and no AUTH, and OPEN itself, do not repeat an AUTH. -/
theorem repeatsAuth_of_cmd (s : State) (h : r.cmd ≠ 2) : s.repeatsAuth .svc r = false := by
  simp [State.repeatsAuth, h]

theorem repeatsAuth_of_seq (s : State) (h : r.seq ≠ 0) : s.repeatsAuth .svc r = false := by
  simp [State.repeatsAuth, h]

/-- What OPEN leaves and answers. -/
theorem plipoAnswer_open (h1 : r.cmd = 1) (h0 : r.seq = 0) {st : UStatus} {p : List Byte} {u : State}
    (ho : s.plipoOpen .svc r = (st, p, u)) : s.plipoAnswer .svc r = u.modSvc fun x => { x with resp := plipoFrame 1 st.code 0 p none } := by
  simp [State.plipoAnswer, repeatsAuth_of_cmd s (r := r) (by omega), h1, h0, ho, State.plipoSend]

/-- A request of OPEN or AUTH has SEQ 0. -/
theorem plipoAnswer_seq (h1 : r.cmd = 1 ∨ r.cmd = 2) (h0 : r.seq ≠ 0) :
    s.plipoAnswer .svc r = s.modSvc fun x => { x with resp := plipoFrame r.cmd 11 r.seq [] none } := by
  simp [State.plipoAnswer, repeatsAuth_of_seq s h0, h1, h0, State.plipoSend, UStatus.code]

/-- A session of the service port answers the requests that come by it. -/
theorem plipoAnswer_session (h1 : r.cmd ≠ 1) (h2 : r.cmd ≠ 2) (hx : s.svc.session = some x) (hl : x.lane = false) :
    s.plipoAnswer .svc r = s.plipoSession .svc x r := by
  simp [State.plipoAnswer, repeatsAuth_of_cmd s h2, h1, h2, State.sessionOf, hx, hl]

theorem plipoAnswer_noSession (h1 : r.cmd ≠ 1) (h2 : r.cmd ≠ 2) (hx : s.svc.session = none) :
    s.plipoAnswer .svc r = s.modSvc fun y => { y with resp := plipoFrame r.cmd 2 r.seq [] none } := by
  simp [State.plipoAnswer, repeatsAuth_of_cmd s h2, h1, h2, State.sessionOf, hx, State.plipoSend, UStatus.code]

/-- An accepted request acts on the state that its session has heard it in, and is answered under the session's key. -/
def State.replied (s : State) (x : Session) (r : PlipoReq) : State :=
  let res := (s.heard x r).plipoCommand r
  res.2.2.answered (plipoFrame r.cmd res.1.code r.seq res.2.1 (some x.key))

theorem plipoSession_accepts (hm : r.mac = some ((hmac x.key r.signed).take 16)) (hs : r.seq = (x.seq + 1) % 65536) (hn : r.seq ≠ x.seq) :
    s.plipoSession .svc x r = s.replied x r := by
  unfold State.plipoSession
  rw [if_neg (not_not.2 hm), if_neg hn, if_neg (not_not.2 hs)]
  rfl

/-- The rows of the commands within a session take their own frames. -/
theorem sessionRows_exec (s : State) (l : List Byte) : ∀ p ∈ sessionRows l, ∃ c : PlipoCmd, c.code = p.2 ∧ p.2 ≠ 1 ∧ p.2 ≠ 2 ∧
    exec p.1 s = .next (if s.mgmtRuns then s.plipo c (some l) else s) := by
  simp only [sessionRows, List.forall_mem_cons, List.not_mem_nil, false_implies, implies_true, and_true]
  exact ⟨⟨.close, rfl, by decide, by decide, rfl⟩, ⟨.status, rfl, by decide, by decide, rfl⟩, ⟨.read, rfl, by decide, by decide, rfl⟩,
    ⟨.write, rfl, by decide, by decide, rfl⟩, ⟨.updBegin, rfl, by decide, by decide, rfl⟩, ⟨.updData, rfl, by decide, by decide, rfl⟩,
    ⟨.updEnd, rfl, by decide, by decide, rfl⟩, ⟨.updActivate, rfl, by decide, by decide, rfl⟩,
    ⟨.updAbort, rfl, by decide, by decide, rfl⟩, ⟨.restart, rfl, by decide, by decide, rfl⟩⟩

/-- An accepted request completes with what its command answers, the session's state taking the answer. -/
theorem completes_of_accepted_request {p : Instr × Nat} {P : State → Prop} (h : s.accepted l r x p.2) (hp : p ∈ sessionRows l) {st : UStatus}
    {b : List Byte} {u : State} (hc : (s.heard x r).plipoCommand r = (st, b, u))
    (hP : P (u.answered (plipoFrame p.2 st.code r.seq b (some x.key)))) : completes p.1 s P := by
  obtain ⟨hm, hs, hparse, hcmd, hx, hl, hmac, hseq, hne⟩ := h
  obtain ⟨c, hcode, h1, h2, he⟩ := sessionRows_exec s l p hp
  refine ⟨_, he.trans (congrArg Host.Outcome.next ((plipo_answers c hm hs hparse (hcmd.trans hcode.symm)).trans
    ((plipoAnswer_session (hcmd.trans_ne h1) (hcmd.trans_ne h2) hx hl).trans (plipoSession_accepts hmac hseq hne)))), ?_⟩
  rw [State.replied, hc, hcmd]
  exact hP

end Plipo

/-! ## Sessions opened and ended (R576 to R580) -/

section Sessions
variable {s : State}

/-- A session that ends takes a download in progress with it. -/
theorem endSession_ends (s : State) : s.endSession.svc.session = none ∧ s.endSession.raises = s.raises ∧
    (s.svc.session.isSome = true → s.entry.state = .receiving → s.endSession.entry.state = .idle) := by
  have hdrop : ∀ u : State, u.dropReceiving.svc = u.svc ∧ u.dropReceiving.raises = u.raises ∧
      (u.entry.state = .receiving → u.dropReceiving.entry.state = .idle) := by
    intro u
    unfold State.dropReceiving
    split
    · exact ⟨rfl, rfl, fun _ => rfl⟩
    · next h => exact ⟨rfl, rfl, fun e => absurd e h⟩
  unfold State.endSession
  obtain ⟨h1, h2, h3⟩ := hdrop (s.modSvc fun x => { x with session := none })
  split
  · exact ⟨congrArg Svc.session h1, h2, fun _ => h3⟩
  · next h => exact ⟨by simpa using h, rfl, fun e => absurd e h⟩

/-- An AUTH that fails is counted and raises, and the fourth in a row refuses OPEN for a second (R577). -/
theorem authFails_counts (s : State) : (∃ a, s.authFails.raises = s.raises ++ [a] ∧ a.fid = Src.port_SVC_AUTH) ∧
    s.authFails.svc = if 4 ≤ s.svc.fails + 1 then { s.svc with fails := 0, lockUntil := some (s.elapsed + 500000000) }
      else { s.svc with fails := s.svc.fails + 1 } := by
  obtain ⟨a, ha, hid, -⟩ := raiseEvent_of_not_fenced s Src.port_SVC_AUTH 0 rfl
  unfold State.authFails
  rw [ha]
  exact ⟨⟨a, rfl, hid⟩, rfl⟩

/-- AUTH with a nonce given: a right proof opens a session, a wrong one fails (R577, R578). -/
theorem plipoAuth_opens {r : PlipoReq} {nd : List Byte} (hp : r.payload.length = 48) (hx : s.svc.session = none)
    (hn : s.svc.nonce = some nd)
    (hk : hmac s.keyBytes (asciiTag 0x50 0x4C 0x41 0x31 ++ s.serialBytes ++ nd ++ r.payload.take 16) = r.payload.drop 16) :
    s.plipoAuth .svc r = (.ok, hmac s.keyBytes (asciiTag 0x50 0x4C 0x41 0x32 ++ s.serialBytes ++ nd ++ r.payload.take 16),
      s.modSvc fun y => { y with
        nonce := none
        session := some ⟨hmac s.keyBytes (asciiTag 0x50 0x4C 0x4B 0x31 ++ nd ++ r.payload.take 16), false, 0, 0, s.elapsed⟩
        fails := 0 }) := by
  have he : s.sessionElsewhere .svc = false := by simp [State.sessionElsewhere, hx]
  unfold State.plipoAuth
  rw [if_neg (not_not.2 hp), if_neg (by simp [he]), hn]
  exact if_pos hk

theorem plipoAuth_fails {r : PlipoReq} {nd : List Byte} (hp : r.payload.length = 48) (hx : s.svc.session = none)
    (hn : s.svc.nonce = some nd)
    (hk : hmac s.keyBytes (asciiTag 0x50 0x4C 0x41 0x31 ++ s.serialBytes ++ nd ++ r.payload.take 16) ≠ r.payload.drop 16) :
    s.plipoAuth .svc r = (.auth, [], (s.modSvc fun y => { y with nonce := none }).authFails) := by
  have he : s.sessionElsewhere .svc = false := by simp [State.sessionElsewhere, hx]
  unfold State.plipoAuth
  rw [if_neg (not_not.2 hp), if_neg (by simp [he]), hn]
  exact if_neg hk

/-- What AUTH leaves and answers while no session is open. -/
theorem plipoAnswer_auth {r : PlipoReq} (h1 : r.cmd = 2) (h0 : r.seq = 0) (hx : s.svc.session = none) {st : UStatus} {p : List Byte}
    {u : State} (ho : s.plipoAuth .svc r = (st, p, u)) : s.plipoAnswer .svc r =
      (if st = .ok then u.modSvc fun y => { y with last := plipoFrame 2 st.code 0 p none } else u).modSvc fun x =>
        { x with resp := plipoFrame 2 st.code 0 p none } := by
  have hr : s.repeatsAuth .svc r = false := by simp [State.repeatsAuth, State.sessionOf, hx]
  simp [State.plipoAnswer, hr, h1, h0, ho, State.plipoSend]

theorem svc_restart_reset (s : State) : (s.restart 2).svc = { Svc.reset with drawn := s.svc.drawn } := by
  rw [restart_reset, keepReset_form, keepBarrow_form]
  generalize State.regs _ = rg
  rfl

end Sessions

/-- Settles O51: OPEN and AUTH by what they answer, the checks of a request in their order, and the session's and lockout's ends. -/
theorem sessionsAreOpenedAndAuthenticated : Obligations.SessionsAreOpenedAndAuthenticated := by
  refine ⟨?_, ?_, ?_, ?_, ?_, ?_, ?_, ?_, ?_, ?_, ?_, ?_⟩
  · intro s l hm hs hp
    obtain ⟨a, ha, hid, -⟩ := raiseEvent_of_not_fenced s Src.port_SVC_FRAME 0 rfl
    have he : (if s.mgmtRuns then s.plipo .open_ (some l) else s) = { s with raises := s.raises ++ [a] } := by
      rw [← ha]
      simp [hm, State.plipo, hs, State.plipoTake, hp]
    exact ⟨_, congrArg Host.Outcome.next he, rfl, rfl, a, rfl, hid⟩
  · intro s l r hm hs hp hc h0 hpl hx hk
    have ho : s.plipoOpen .svc r = (.ok, s.serialBytes ++ beBytes 16 (Config.nonce s.svc.drawn).toNat ++ beBytes 1 (s.power == 4).toNat
        ++ beBytes 1 s.entry.state.code, s.modSvc fun x =>
          { x with nonce := some (beBytes 16 (Config.nonce s.svc.drawn).toNat), drawn := x.drawn + 1 }) := by
      simp [State.plipoOpen, hpl, State.lockedOut, hk, State.sessionElsewhere, hx]
    exact ⟨_, congrArg Host.Outcome.next ((plipo_answers .open_ hm hs hp hc).trans (plipoAnswer_open hc h0 ho)), rfl⟩
  · intro s l r k hm hs hp hc h0 hpl hk hlt
    have ho : s.plipoOpen .svc r = (.busy, [], s) := by simp [State.plipoOpen, hpl, State.lockedOut, hk, hlt]
    exact ⟨_, congrArg Host.Outcome.next ((plipo_answers .open_ hm hs hp hc).trans (plipoAnswer_open hc h0 ho)), rfl, rfl⟩
  · intro s l nd r hm hs hp hc h0 hpl hx hn
    refine ⟨fun hk => ?_, fun hk => ?_⟩
    · exact ⟨_, congrArg Host.Outcome.next ((plipo_answers .auth hm hs hp hc).trans
        (plipoAnswer_auth hc h0 hx (plipoAuth_opens hpl hx hn hk))), rfl, rfl, rfl, rfl⟩
    · obtain ⟨⟨a, ha, hid⟩, hsvc⟩ := authFails_counts (s.modSvc fun y => { y with nonce := none })
      refine ⟨_, congrArg Host.Outcome.next ((plipo_answers .auth hm hs hp hc).trans
        (plipoAnswer_auth hc h0 hx (plipoAuth_fails hpl hx hn hk))), ?_⟩
      rw [if_neg (by decide)]
      generalize State.authFails _ = u at ha hsvc
      refine ⟨?_, ?_, rfl, ?_, a, ha, hid⟩
      · refine (congrArg Svc.nonce hsvc).trans ?_
        split <;> rfl
      · refine (congrArg Svc.session hsvc).trans ?_
        split <;> exact hx
      · by_cases hf : 4 ≤ s.svc.fails + 1
        · rw [if_pos (show 4 ≤ (s.modSvc fun y => { y with nonce := none }).svc.fails + 1 from hf)] at hsvc
          rw [if_pos hf]
          exact ⟨congrArg Svc.lockUntil hsvc, congrArg Svc.fails hsvc⟩
        · rw [if_neg (show ¬ 4 ≤ (s.modSvc fun y => { y with nonce := none }).svc.fails + 1 from hf)] at hsvc
          rw [if_neg hf]
          exact ⟨(congrArg Svc.lockUntil hsvc).trans rfl, congrArg Svc.fails hsvc⟩
  · intro s l r hm hs hp h0
    refine ⟨fun hc => ?_, fun hc => ?_⟩
    · refine ⟨_, congrArg Host.Outcome.next ((plipo_answers .open_ hm hs hp hc).trans (plipoAnswer_seq (.inl hc) h0)), ?_⟩
      rw [hc]
      rfl
    · refine ⟨_, congrArg Host.Outcome.next ((plipo_answers .auth hm hs hp hc).trans (plipoAnswer_seq (.inr hc) h0)), ?_⟩
      rw [hc]
      rfl
  · intro s l r x hm hs hp hc hpl hx hl hmac hseq hne
    have hcmd : (s.heard x r).plipoCommand r = (.ok, [], (s.heard x r).endSession) := by
      unfold State.plipoCommand
      rw [hc]
      exact if_pos hpl
    obtain ⟨h1, -, h3⟩ := endSession_ends (s.heard x r)
    exact completes_of_accepted_request (p := (.svcClose (some l), 0x03)) ⟨hm, hs, hp, hc, hx, hl, hmac, hseq, hne⟩ (.head _) hcmd
      ⟨h1, rfl, fun he => h3 rfl he⟩
  · intro s hs hr hn
    refine ⟨_, rfl, ?_⟩
    simp [State.svcRead, hs, hr, hn, State.modSvc]
  · intro s hs hr
    refine ⟨_, rfl, ?_⟩
    simp [State.svcRead, hs, hr, State.modSvc]
  · intro s hs hr hn
    have he : s.svcRead = State.restart (s.modSvc fun x => { x with miso := x.resp, resp := [] }) 2 := by
      simp [State.svcRead, hs, hr, hn, State.modSvc]
    refine ⟨_, congrArg Host.Outcome.next he, stage_restart _ 2, ?_, congrArg Svc.session (svc_restart_reset _)⟩
    rw [restart_startKind]
    exact (kind_startKind _ 2 (by decide)).1
  · intro s x hx
    refine ⟨fun ht => ?_, fun ht => ?_⟩
    · have he : s.sessionTimeout = s.endSession := by simp [State.sessionTimeout, hx, ht]
      exact ⟨_, congrArg Host.Outcome.next he, (endSession_ends s).1, (endSession_ends s).2.1⟩
    · exact ⟨_, rfl, by simp [State.sessionTimeout, hx, ht]⟩
  · intro s k hk
    refine ⟨fun ht => ⟨_, rfl, by simp [State.lockoutEnd, hk, ht, State.modSvc]⟩,
      fun ht => ⟨_, rfl, by simp [State.lockoutEnd, hk, ht]⟩⟩
  · intro s l r hm hs hp p hmem hc
    obtain ⟨c, hcode, h1, h2, he⟩ := sessionRows_exec s l p hmem
    have ha := he.trans (congrArg Host.Outcome.next (plipo_answers c hm hs hp (hc.trans hcode.symm)))
    have h1' := hc.trans_ne h1
    have h2' := hc.trans_ne h2
    refine ⟨fun hx => ?_, fun x hx hl => ⟨fun hmac => ?_, fun hmac hseq => ?_, fun hmac hne hseq => ?_⟩⟩
    · refine ⟨_, ha.trans (congrArg Host.Outcome.next (plipoAnswer_noSession h1' h2' hx)), ?_⟩
      rw [hc]
      rfl
    all_goals
      rw [plipoAnswer_session h1' h2' hx hl] at ha
      refine ⟨_, ha, ?_⟩
      rw [State.plipoSession]
    · rw [if_pos hmac, hc]
      exact ⟨rfl, rfl, rfl, State.fld_bump_self s _ _ _ (by decide)⟩
    · rw [if_neg (not_not.2 hmac), if_pos hseq]
      rfl
    · rw [if_neg (not_not.2 hmac), if_neg hne, if_pos hseq, hc]
      rfl

end Sys2Proof.Machine

namespace Sys2Proof.Machine

/-! ## Requests within a session (R582, R585 to R588) -/

section Requests
variable {s : State} {l : List Byte} {r : PlipoReq} {x : Session}

theorem cmd_of_accepted {c : Nat} (h : s.accepted l r x c) : r.cmd = c := h.2.2.2.1

/-- A host write of GLB_SCRATCH writes it. -/
theorem hostWrite_scratch (w : Word) (h : s.serves = true) : ∃ fl, s.hostWrite (regAddr .GLB_SCRATCH 0) w =
    (.ok, { s.setReg .GLB_SCRATCH 0 w with fleet := fl, hwRel := s.now }) := by
  have hp : placed .GLB_SCRATCH 0 = true := by decide +kernel
  have hw : s.writeReg .GLB_SCRATCH 0 w = (.ok, s.setReg .GLB_SCRATCH 0 w) := by
    have hm : (regSpec .GLB_SCRATCH).merge (s.stuckNow .GLB_SCRATCH 0) (s.reg .GLB_SCRATCH 0) w = w := by
      have hall : (0xFFFFFFFF#32) = BitVec.allOnes 32 := by decide
      simp only [RegSpec.merge, regSpec]
      simp
      rw [hall, BitVec.and_allOnes, BitVec.and_allOnes]
    exact congrArg (fun v => (WStatus.ok, s.setReg .GLB_SCRATCH 0 v)) hm
  have he : (s.setReg .GLB_SCRATCH 0 w).enterSaved .GLB_SCRATCH 0 w = s.setReg .GLB_SCRATCH 0 w := by
    have hm : (setMask .GLB_SCRATCH).isSome = false := by decide
    have hs : savedRegs.contains .GLB_SCRATCH = false := by decide
    simp only [State.enterSaved, hm, hs, Bool.false_eq_true, if_false]
  obtain ⟨fl, hn⟩ := noteSet_form (s.setReg .GLB_SCRATCH 0 w) s
  have ha := hostWrite_accepted h hp rfl hw
  rw [he, hn] at ha
  exact ⟨fl, ha⟩

/-- UPD_STAT.RESULT shows the outcome of an update command. -/
theorem fld_updStat (s : State) (st : UStatus) :
    (s.setFld Fields.UPD_STAT_RESULT 0 st.code).fld Fields.UPD_STAT_RESULT 0 = st.code := by
  have h : st.code % 2 ^ Fields.UPD_STAT_RESULT.width = st.code := by cases st <;> rfl
  exact (State.fld_setFld_self s _ 0 _ (by decide)).trans h

/-- A service-port command that ends with an update command answers its status. -/
theorem updRes_updResult (s : State) (st : UStatus) :
    updRes (s.updResult st) = (st, [], s.setFld Fields.UPD_STAT_RESULT 0 st.code) := rfl

/-- The service port after an answer is what it was before, with the answer. -/
theorem answered_svc {u v : State} (h : u.svc = v.svc) (b : List Byte) : (u.answered b).svc = (v.answered b).svc :=
  congrArg (fun x : Svc => { x with last := b, resp := b }) h

/-- The entry of a begun, and of a discarded or failed, download. -/
def SlotEntry.receive (delta : Bool) (e : SlotEntry) : SlotEntry := { e with state := .receiving, stValid := false, delta := delta }
def SlotEntry.discard (e : SlotEntry) : SlotEntry := { e with state := .idle, stValid := false }
def SlotEntry.verify (e : SlotEntry) : SlotEntry := { e with state := .verifying }
def SlotEntry.verified (hash : List Byte) (e : SlotEntry) : SlotEntry := { e with state := .verified, stValid := true, stHash := hash }

/-- A header that passes is staged, and RECEIVING committed (R585). -/
def State.headerStaged (s : State) (h : List Byte) : State :=
  { (s.modFlash fun f => { f with staging := h.take 512 }).commitSlot (SlotEntry.receive (decide (imgKind h = 2))) with
    boot := { s.boot with length := 512 } }

theorem updBegin_stages {h : List Byte} (hb : s.boot.recovery = 0) (he : s.entry.state = .idle) (hk : s.checkHeader h = .ok) :
    s.updBegin h = (s.headerStaged h).updResult .ok := by
  unfold State.updBegin
  rw [downloadRefused_of_none hb]
  refine (if_neg (not_not.2 he)).trans ?_
  rw [hk]
  rfl

theorem updBegin_refuses {h : List Byte} (hb : s.boot.recovery = 0) (he : s.entry.state = .idle) (hk : s.checkHeader h ≠ .ok) :
    s.updBegin h = s.updResult (s.checkHeader h) := by
  unfold State.updBegin
  rw [downloadRefused_of_none hb]
  refine (if_neg (not_not.2 he)).trans ?_
  generalize s.checkHeader h = st at hk
  cases st with
  | ok => exact absurd rfl hk
  | _ => rfl

theorem updData_joins {n : Nat} {d : List Byte} (hb : s.boot.recovery = 0) (he : s.entry.state = .receiving) (hn : n = s.boot.length)
    (hl : n + d.length ≤ imgLength s.flash.staging) (hd : d ≠ []) :
    s.updData n d = ({ s.modFlash fun f => { f with staging := f.staging ++ d } with boot := { s.boot with length := n + d.length } } :
      State).updResult .ok := by
  unfold State.updData
  rw [downloadRefused_of_none hb]
  refine (if_neg (not_not.2 he)).trans (if_neg ?_)
  rintro (h | h | h)
  · exact h hn
  · exact absurd hl (not_le.2 h)
  · exact hd h

theorem updData_range {n : Nat} {d : List Byte} (hb : s.boot.recovery = 0) (he : s.entry.state = .receiving) (hn : n ≠ s.boot.length) :
    s.updData n d = s.updResult .range := by
  unfold State.updData
  rw [downloadRefused_of_none hb]
  exact (if_neg (not_not.2 he)).trans (if_pos (.inl hn))

theorem verifyStaged_passes (h : s.checkStaged s.flash.staging = .ok) : s.verifyStaged = (.ok, s.commitSlot (SlotEntry.verified
    (headerHash (if imgKind s.flash.staging = 2 then s.flash.staging.drop 512 else s.flash.staging)))) := by
  unfold State.verifyStaged
  simp only [h]
  rfl

theorem verifyStaged_fails (h : s.checkStaged s.flash.staging ≠ .ok) : s.verifyStaged =
    (s.checkStaged s.flash.staging, (s.commitSlot SlotEntry.discard).raiseEvent Src.store_IMAGE_REJECT 0) := by
  unfold State.verifyStaged
  extract_lets img
  change s.checkStaged img ≠ .ok at h
  change _ = (s.checkStaged img, _)
  generalize s.checkStaged img = st at h
  cases st with
  | ok => exact absurd rfl h
  | _ => rfl

theorem updEnd_verifies (hb : s.boot.recovery = 0) (he : s.entry.state = .receiving) (hl : s.boot.length = imgLength s.flash.staging)
    {st : UStatus} {u : State} (hv : (s.commitSlot SlotEntry.verify).verifyStaged = (st, u)) : s.updEnd = u.updResult st := by
  have hn : ¬(s.entry.state ≠ .receiving ∨ s.boot.length ≠ imgLength s.flash.staging) := fun h => h.elim (· he) (· hl)
  have hc : (s.commitSlot fun e => { e with state := .verifying }) = s.commitSlot SlotEntry.verify := rfl
  simp only [State.updEnd, downloadRefused_of_none hb, if_neg hn, hc, hv]

theorem updEnd_refuses (hb : s.boot.recovery = 0) (h : s.entry.state ≠ .receiving ∨ s.boot.length ≠ imgLength s.flash.staging) :
    s.updEnd = s.updResult .state := by
  unfold State.updEnd
  rw [downloadRefused_of_none hb]
  exact if_pos h

theorem updAbort_discards (hb : s.boot.recovery = 0) (h : s.entry.state = .verified ∨ s.entry.state = .receiving) :
    s.updAbort = (s.commitSlot SlotEntry.discard).updResult .ok := by
  unfold State.updAbort
  rw [downloadRefused_of_none hb]
  obtain h | h := h <;> simp only [h] <;> rfl


theorem updAbort_disarms (hb : s.boot.recovery = 0) (h : s.entry.state = .armed) :
    s.updAbort = (s.commitSlot fun e => { e with state := .verified }).updResult .ok := by
  unfold State.updAbort
  rw [downloadRefused_of_none hb]
  simp only [h]

theorem updAbort_refuses (hb : s.boot.recovery = 0) (h : s.entry.state = .idle) : s.updAbort = s.updResult .state := by
  unfold State.updAbort
  rw [downloadRefused_of_none hb]
  simp only [h]

theorem updActivate_refuses (hb : s.boot.recovery = 0) (h : s.entry.state ≠ .verified) : s.updActivate = s.updResult .state := by
  unfold State.updActivate
  rw [downloadRefused_of_none hb]
  exact if_pos h

/-! ### What the commands of a download leave -/

/-- What UPD_BEGIN of a header that passes commits, and what it answers. -/
theorem updBegin_accepts (h : s.accepted l r x 0x20) (hlen : r.payload.length = 512) (hb : s.boot.recovery = 0)
    (he : s.entry.state = .idle) (hk : s.checkHeader r.payload = .ok) : completes (.updBegin (some l)) s fun t =>
      t.entry.state = .receiving ∧ t.flash.staging = r.payload ∧ t.boot.length = 512 ∧ t.flash.active = s.flash.active ∧
      t.fld Fields.UPD_STAT_RESULT 0 = 0 ∧ t.svc = ((s.heard x r).answered (plipoFrame 0x20 0 r.seq [] (some x.key))).svc := by
  have hcmd : (s.heard x r).plipoCommand r = updRes ((s.heard x r).updBegin r.payload) := by
    unfold State.plipoCommand
    rw [cmd_of_accepted h]
    exact if_pos hlen
  rw [updBegin_stages (s := s.heard x r) hb he hk, updRes_updResult] at hcmd
  have hres := fld_updStat ((s.heard x r).headerStaged r.payload) .ok
  have hstg : ((s.heard x r).headerStaged r.payload).flash.staging = r.payload := List.take_of_length_le hlen.le
  have hact : ((s.heard x r).headerStaged r.payload).flash.active = s.flash.active := rfl
  have hent : ((s.heard x r).headerStaged r.payload).entry.state = .receiving := rfl
  have hlg : ((s.heard x r).headerStaged r.payload).boot.length = 512 := rfl
  have hsvc : ((s.heard x r).headerStaged r.payload).svc = (s.heard x r).svc := rfl
  generalize (s.heard x r).headerStaged r.payload = u at hcmd hres hstg hact hent hlg hsvc
  exact completes_of_accepted_request (p := (.updBegin (some l), 0x20)) h (by simp [sessionRows]) hcmd
    ⟨hent, hstg, hlg, hact, hres, answered_svc hsvc _⟩

theorem updBegin_rejects (h : s.accepted l r x 0x20) (hlen : r.payload.length = 512) (hb : s.boot.recovery = 0)
    (he : s.entry.state = .idle) (hk : s.checkHeader r.payload ≠ .ok) : completes (.updBegin (some l)) s fun t =>
      t.flash = s.flash ∧ t.boot = s.boot ∧ t.fld Fields.UPD_STAT_RESULT 0 = (s.checkHeader r.payload).code ∧
      t.svc = ((s.heard x r).answered (plipoFrame 0x20 (s.checkHeader r.payload).code r.seq [] (some x.key))).svc := by
  have hcmd : (s.heard x r).plipoCommand r = updRes ((s.heard x r).updBegin r.payload) := by
    unfold State.plipoCommand
    rw [cmd_of_accepted h]
    exact if_pos hlen
  have hh : (s.heard x r).checkHeader r.payload = s.checkHeader r.payload := rfl
  rw [updBegin_refuses (s := s.heard x r) hb he hk, updRes_updResult, hh] at hcmd
  have hres := fld_updStat (s.heard x r) (s.checkHeader r.payload)
  generalize s.checkHeader r.payload = st at hcmd hres
  exact completes_of_accepted_request (p := (.updBegin (some l), 0x20)) h (by simp [sessionRows]) hcmd
    ⟨rfl, rfl, hres, answered_svc rfl _⟩

/-- What UPD_END makes of a whole image that passes its checks, and of one that does not. -/
theorem updEnd_accepts (h : s.accepted l r x 0x22) (hp : r.payload = []) (hb : s.boot.recovery = 0) (he : s.entry.state = .receiving)
    (hl : s.boot.length = imgLength s.flash.staging) (hk : s.checkStaged s.flash.staging = .ok) :
    completes (.updEnd (some l)) s fun t => t.entry.state = .verified ∧ t.entry.stValid = true ∧ t.raises = s.raises ∧
      t.entry.stHash = headerHash (if imgKind s.flash.staging = 2 then s.flash.staging.drop 512 else s.flash.staging) ∧
      t.svc = ((s.heard x r).answered (plipoFrame 0x22 0 r.seq [] (some x.key))).svc := by
  have hcmd : (s.heard x r).plipoCommand r = updRes (s.heard x r).updEnd := by
    unfold State.plipoCommand
    rw [cmd_of_accepted h]
    exact if_pos hp
  let hash := headerHash (if imgKind s.flash.staging = 2 then s.flash.staging.drop 512 else s.flash.staging)
  have hv : ((s.heard x r).commitSlot SlotEntry.verify).verifyStaged =
      (.ok, ((s.heard x r).commitSlot SlotEntry.verify).commitSlot (SlotEntry.verified hash)) := verifyStaged_passes hk
  rw [updEnd_verifies (s := s.heard x r) hb he hl hv, updRes_updResult] at hcmd
  have hent := entry_commitSlot ((s.heard x r).commitSlot SlotEntry.verify) (SlotEntry.verified hash)
  have hra : (((s.heard x r).commitSlot SlotEntry.verify).commitSlot (SlotEntry.verified hash)).raises = s.raises := rfl
  have hsvc : (((s.heard x r).commitSlot SlotEntry.verify).commitSlot (SlotEntry.verified hash)).svc = (s.heard x r).svc := rfl
  generalize ((s.heard x r).commitSlot SlotEntry.verify).commitSlot (SlotEntry.verified hash) = u at hcmd hent hra hsvc
  exact completes_of_accepted_request (p := (.updEnd (some l), 0x22)) h (by simp [sessionRows]) hcmd
    ⟨congrArg SlotEntry.state hent, congrArg SlotEntry.stValid hent, hra, congrArg SlotEntry.stHash hent, answered_svc hsvc _⟩

theorem updEnd_rejects (h : s.accepted l r x 0x22) (hp : r.payload = []) (hb : s.boot.recovery = 0) (he : s.entry.state = .receiving)
    (hl : s.boot.length = imgLength s.flash.staging) (hk : s.checkStaged s.flash.staging ≠ .ok) :
    completes (.updEnd (some l)) s fun t => t.entry.state = .idle ∧ t.entry.stValid = false ∧
      (∃ e : Raise, t.raises = s.raises ++ [e] ∧ e.fid = Src.store_IMAGE_REJECT) ∧
      t.svc = ((s.heard x r).answered (plipoFrame 0x22 (s.checkStaged s.flash.staging).code r.seq [] (some x.key))).svc := by
  have hcmd : (s.heard x r).plipoCommand r = updRes (s.heard x r).updEnd := by
    unfold State.plipoCommand
    rw [cmd_of_accepted h]
    exact if_pos hp
  let v : State := (s.heard x r).commitSlot SlotEntry.verify
  have hst : v.checkStaged v.flash.staging = s.checkStaged s.flash.staging := rfl
  obtain ⟨e, hr, hid, -⟩ := raiseEvent_of_not_fenced (v.commitSlot SlotEntry.discard) Src.store_IMAGE_REJECT 0 rfl
  rw [updEnd_verifies (s := s.heard x r) hb he hl (verifyStaged_fails (s := v) hk), updRes_updResult, hr, hst] at hcmd
  generalize s.checkStaged s.flash.staging = st at hcmd
  exact completes_of_accepted_request (p := (.updEnd (some l), 0x22)) h (by simp [sessionRows]) hcmd
    ⟨rfl, rfl, ⟨e, rfl, hid⟩, answered_svc rfl _⟩

/-- What UPD_ACTIVATE of a verified image commits. -/
theorem updActivate_accepts {b : Bool} (h : s.accepted l r x 0x23) (hp : r.payload = [BitVec.ofNat 8 b.toNat]) (hb : s.boot.recovery = 0) :
    (s.entry.state = .verified → completes (.updActivate (some l)) s fun t => t.entry.state = .armed ∧
      t.svc.restart = (b || s.svc.restart) ∧ t.svc.resp = plipoFrame 0x23 0 r.seq [] (some x.key) ∧ t.startStage = s.startStage) ∧
    (s.entry.state ≠ .verified → completes (.updActivate (some l)) s fun t => t.flash = s.flash ∧
      t.svc.restart = s.svc.restart ∧ t.svc.resp = plipoFrame 0x23 4 r.seq [] (some x.key)) := by
  have hf : field r.payload 0 1 = b.toNat := by
    rw [hp]
    cases b <;> decide
  have hlen : ¬(r.payload.length ≠ 1 ∨ 1 < field r.payload 0 1) := by
    rw [hf, hp]
    cases b <;> decide
  have hcmd : (s.heard x r).plipoCommand r = (s.heard x r).plipoActivate r := by
    unfold State.plipoCommand
    rw [cmd_of_accepted h]
    rfl
  unfold State.plipoActivate at hcmd
  rw [if_neg hlen, hf] at hcmd
  refine ⟨fun he => ?_, fun he => ?_⟩
  · rw [updActivate_arms (s := s.heard x r) hb he] at hcmd
    have hst : (State.setFld ((s.heard x r).commitSlot fun e => { e with state := .armed }) Fields.UPD_STAT_RESULT 0
        (UStatus.code .ok)).startStage = s.startStage := fld_of_reg (reg_setFld_ne _ _ _ _ _ _ (by decide))
    refine completes_of_accepted_request (p := (.updActivate (some l), 0x23)) h (by simp [sessionRows]) hcmd ?_
    cases b <;> exact ⟨rfl, rfl, rfl, hst⟩
  · rw [updActivate_refuses (s := s.heard x r) hb he] at hcmd
    exact completes_of_accepted_request (p := (.updActivate (some l), 0x23)) h (by simp [sessionRows]) hcmd ⟨rfl, rfl, rfl⟩

/-- What UPD_ABORT steps back from. -/
theorem updAbort_accepts (h : s.accepted l r x 0x24) (hp : r.payload = []) (hb : s.boot.recovery = 0) :
    ((s.entry.state = .verified ∨ s.entry.state = .receiving) → completes (.updAbort (some l)) s fun t => t.entry.state = .idle ∧
      t.entry.stValid = false ∧ t.svc.resp = plipoFrame 0x24 0 r.seq [] (some x.key)) ∧
    (s.entry.state = .armed → completes (.updAbort (some l)) s fun t => t.entry.state = .verified ∧
      t.svc.resp = plipoFrame 0x24 0 r.seq [] (some x.key)) ∧
    (s.entry.state = .idle → completes (.updAbort (some l)) s fun t => t.flash = s.flash ∧
      t.svc.resp = plipoFrame 0x24 4 r.seq [] (some x.key)) := by
  have hcmd : (s.heard x r).plipoCommand r = updRes (s.heard x r).updAbort := by
    unfold State.plipoCommand
    rw [cmd_of_accepted h]
    exact if_pos hp
  refine ⟨fun he => ?_, fun he => ?_, fun he => ?_⟩
  · rw [updAbort_discards (s := s.heard x r) hb he, updRes_updResult] at hcmd
    exact completes_of_accepted_request (p := (.updAbort (some l), 0x24)) h (by simp [sessionRows]) hcmd ⟨rfl, rfl, rfl⟩
  · rw [updAbort_disarms (s := s.heard x r) hb he, updRes_updResult] at hcmd
    exact completes_of_accepted_request (p := (.updAbort (some l), 0x24)) h (by simp [sessionRows]) hcmd ⟨rfl, rfl⟩
  · rw [updAbort_refuses (s := s.heard x r) hb he, updRes_updResult] at hcmd
    exact completes_of_accepted_request (p := (.updAbort (some l), 0x24)) h (by simp [sessionRows]) hcmd ⟨rfl, rfl⟩

end Requests

/-- Settles O52: each accepted request by what its command does to the state its session heard it in. -/
theorem sessionRequestsAreServed : Obligations.SessionRequestsAreServed := by
  refine ⟨?_, ?_, ?_, ?_, ?_, ?_⟩
  · intro s l r x h hp
    have hc : (s.heard x r).plipoCommand r = (.ok, (s.heard x r).statusBytes, s.heard x r) := by
      unfold State.plipoCommand
      rw [cmd_of_accepted h]
      exact if_pos hp
    exact completes_of_accepted_request (p := (.svcStatus (some l), 4)) h (by simp [sessionRows]) hc rfl
  · intro s l r x h hlen hn ha h4
    have hc : (s.heard x r).plipoCommand r = (.ok, beBytes 4 (s.reg .GLB_SCRATCH 0).toNat, s.heard x r) := by
      have hr : (s.heard x r).readAddr (regAddr .GLB_SCRATCH 0) = (.ok, s.reg .GLB_SCRATCH 0, s.heard x r) :=
        readAddr_placed (s.heard x r) .GLB_SCRATCH 0 (by decide +kernel) h4
      unfold State.plipoCommand
      rw [cmd_of_accepted h]
      simp [State.plipoRead, hlen, hn, ha, State.readMany, hr]
    exact completes_of_accepted_request (p := (.plipoRead (some l), 0x10)) h (by simp [sessionRows]) hc rfl
  · intro s l r x h hlen hn
    have hc : (s.heard x r).plipoCommand r = (.range, [], s.heard x r) := by
      unfold State.plipoCommand
      rw [cmd_of_accepted h]
      exact if_pos (.inr hn)
    exact completes_of_accepted_request (p := (.plipoRead (some l), 0x10)) h (by simp [sessionRows]) hc rfl
  · intro s l r x h hlen hs ha
    have hs' : (s.heard x r).serves = true := hs
    obtain ⟨fl, hw⟩ := hostWrite_scratch (s := s.heard x r) (BitVec.ofNat 32 (field r.payload 2 4)) hs'
    have h4 : s.power ≠ 4 := by
      simp only [State.serves, Bool.and_eq_true, bne_iff_ne] at hs
      exact hs.1.2
    have hn : ¬((s.heard x r).power = 4 ∨ field r.payload 0 2 = 0x2484) := by
      rw [ha]
      exact fun c => c.elim h4 (by decide)
    have hc : (s.heard x r).plipoCommand r = (.ok, [], { (s.heard x r).setReg .GLB_SCRATCH 0 (BitVec.ofNat 32 (field r.payload 2 4)) with
        fleet := fl, hwRel := s.now }) := by
      unfold State.plipoCommand
      rw [cmd_of_accepted h]
      refine (if_neg (not_not.2 hlen)).trans ((if_neg hn).trans ?_)
      rw [stepOne_of_turn _ (turn_of_serves _ hs'), ha, hw]
      rfl
    exact completes_of_accepted_request (p := (.plipoWrite (some l), 0x11)) h (by simp [sessionRows]) hc
      ⟨State.reg_setReg_self .., rfl, rfl, rfl, rfl⟩
  · intro s l r x h hlen hn
    have hc : (s.heard x r).plipoCommand r = (.state, [], s.heard x r) := by
      unfold State.plipoCommand
      rw [cmd_of_accepted h]
      exact (if_neg (not_not.2 hlen)).trans (if_pos hn)
    exact completes_of_accepted_request (p := (.plipoWrite (some l), 0x11)) h (by simp [sessionRows]) hc rfl
  · intro s l r x h hp
    have hc : (s.heard x r).plipoCommand r = (.ok, [], (s.heard x r).modSvc fun x => { x with restart := true }) := by
      unfold State.plipoCommand
      rw [cmd_of_accepted h]
      exact if_pos hp
    exact completes_of_accepted_request (p := (.restart (some l), 0x25)) h (by simp [sessionRows]) hc ⟨rfl, rfl, rfl, rfl⟩

/-- Settles O53: each download command by what it commits, on the state its session heard it in. -/
theorem imagesAreDownloaded : Obligations.ImagesAreDownloaded := by
  refine ⟨?_, ?_, ?_, ?_, ?_, ?_, ?_⟩
  · exact fun s l r x h hlen hb he => ⟨updBegin_accepts h hlen hb he, updBegin_rejects h hlen hb he⟩
  · intro s l r x h hlen hb he hn hl
    have hcmd : (s.heard x r).plipoCommand r = updRes ((s.heard x r).updData (field r.payload 0 4) (r.payload.drop 4)) := by
      unfold State.plipoCommand
      rw [cmd_of_accepted h]
      exact if_pos hlen
    have hd : r.payload.drop 4 ≠ [] := fun e => by
      have := congrArg List.length e
      rw [List.length_drop, List.length_nil] at this
      omega
    rw [updData_joins (s := s.heard x r) hb he hn (by rw [hn, List.length_drop]; exact hl) hd, updRes_updResult] at hcmd
    refine completes_of_accepted_request (p := (.updData (some l), 0x21)) h (by simp [sessionRows]) hcmd ⟨rfl, ?_, answered_svc rfl _⟩
    show field r.payload 0 4 + (r.payload.drop 4).length = _
    rw [hn, List.length_drop]
  · intro s l r x h hlen hb he hn
    have hcmd : (s.heard x r).plipoCommand r = updRes ((s.heard x r).updData (field r.payload 0 4) (r.payload.drop 4)) := by
      unfold State.plipoCommand
      rw [cmd_of_accepted h]
      exact if_pos hlen
    rw [updData_range (s := s.heard x r) hb he hn, updRes_updResult] at hcmd
    exact completes_of_accepted_request (p := (.updData (some l), 0x21)) h (by simp [sessionRows]) hcmd ⟨rfl, rfl, answered_svc rfl _⟩
  · exact fun s l r x h hp hb he hl => ⟨updEnd_accepts h hp hb he hl, updEnd_rejects h hp hb he hl⟩
  · intro s l r x h hp hb hn
    have hcmd : (s.heard x r).plipoCommand r = updRes (s.heard x r).updEnd := by
      unfold State.plipoCommand
      rw [cmd_of_accepted h]
      exact if_pos hp
    rw [updEnd_refuses (s := s.heard x r) hb hn, updRes_updResult] at hcmd
    exact completes_of_accepted_request (p := (.updEnd (some l), 0x22)) h (by simp [sessionRows]) hcmd ⟨rfl, rfl, answered_svc rfl _⟩
  · exact fun s l r x b h hp hb => updActivate_accepts h hp hb
  · exact fun s l r x h hp hb => updAbort_accepts h hp hb

end Sys2Proof.Machine

namespace Sys2Proof.Machine

/-! ## HSPI transactions (R607 to R612, R659) -/

section Hspi
variable {s : State} {l : List Byte}

/-- A WRITE transaction of the right length, with its CRC where one is due. -/
def State.wellSent (s : State) (l : List Byte) : Prop :=
  (field l 0 1 = 2 ∧ l.length = 7 ∧ s.crcRequired = false) ∨ (field l 0 1 = 0x82 ∧ l.length = 8 ∧ crc8 (l.take 7) = l.getD 7 0)

/-- What the checks of a WRITE make of the state once byte 0 of its answer is sent. -/
def State.writeChecked (u : State) (l : List Byte) : State :=
  if l.length ≠ (if field l 0 1 = 2 then 7 else 8) then u.hspiFrame
  else if (if field l 0 1 = 2 then u.crcRequired else crc8 (l.take 7) != l.getD 7 0) then u.hspiCrc.modHspi fun x => { x with lastw := 10 }
  else if 4 ≤ u.hspi.queue.length then (u.hspiError (field l 1 2) 1).modHspi fun x => { x with lastw := 1 }
  else u.modHspi fun x => { x with queue := x.queue ++ [⟨field l 1 2, BitVec.ofNat 32 (field l 3 4), u.elapsed⟩] }

theorem hspiWrite_checks (hs : s.hostServes = true) (ho : field l 0 1 = 2 ∨ field l 0 1 = 0x82) :
    s.hspiWrite l = (s.hspiSend l.length [s.lastByte]).writeChecked l := by
  have hk : knownOp (field l 0 1) = true := by obtain h | h := ho <;> rw [h] <;> rfl
  have hn : ¬(!s.hostServes || (knownOp (field l 0 1) && field l 0 1 != 0x02 && field l 0 1 != 0x82)) = true := by
    obtain h | h := ho <;> simp [hs, h]
  have hl : (!knownOp (field l 0 1) || decide (l.length ≠ (if field l 0 1 = 2 then 7 else 8))) = true ↔
      l.length ≠ (if field l 0 1 = 2 then 7 else 8) := by simp [hk]
  unfold State.hspiWrite State.writeChecked
  extract_lets op u
  rw [if_neg hn]
  exact (if_congr hl rfl rfl).trans rfl

theorem writeChecked_sent (u : State) (hw : u.wellSent l) : u.writeChecked l =
    if 4 ≤ u.hspi.queue.length then (u.hspiError (field l 1 2) 1).modHspi fun x => { x with lastw := 1 }
    else u.modHspi fun x => { x with queue := x.queue ++ [⟨field l 1 2, BitVec.ofNat 32 (field l 3 4), u.elapsed⟩] } := by
  obtain ⟨ho, hl, hc⟩ | ⟨ho, hl, hc⟩ := hw
  · simp only [State.writeChecked, ho, hl, hc, if_true, ne_eq, not_true, if_false, Bool.false_eq_true]
  · have h2 : ¬(0x82 : Nat) = 2 := by decide
    simp only [State.writeChecked, ho, hl, hc, if_neg h2, ne_eq, not_true, if_false, bne_self_eq_false, Bool.false_eq_true]

/-- A discarded transaction is counted, raises, and leaves the queue. -/
theorem hspiCrc_counts (u : State) : u.hspiCrc.hspi = u.hspi ∧ u.hspiCrc.flag Fields.HSPI_STAT_ERR 0 = true ∧
    u.hspiCrc.fld Fields.HSPI_CNT_CRCERR 0 = satAdd (u.fld Fields.HSPI_CNT_CRCERR 0) Fields.HSPI_CNT_CRCERR.width 1 ∧
    ∃ r : Raise, u.hspiCrc.raises = u.raises ++ [r] ∧ r.fid = Src.port_HSPI_CRC := by
  obtain ⟨r, hr, hid, -⟩ := raiseEvent_of_not_fenced u Src.port_HSPI_CRC 0 rfl
  unfold State.hspiCrc
  rw [hr]
  refine ⟨(hspiError_hspi ..).trans rfl, hspiError_flag .., ?_, r, (hspiError_raises ..).trans rfl, hid⟩
  exact (fld_of_reg (hspiError_reg _ _ _ _ _ (by decide))).trans (State.fld_bump_self _ Fields.HSPI_CNT_CRCERR 0 1 (by decide))

theorem hspiFrame_counts (u : State) : u.hspiFrame.hspi = u.hspi ∧
    u.hspiFrame.fld Fields.HSPI_CNT_FRAMEERR 0 = satAdd (u.fld Fields.HSPI_CNT_FRAMEERR 0) Fields.HSPI_CNT_FRAMEERR.width 1 ∧
    ∃ r : Raise, u.hspiFrame.raises = u.raises ++ [r] ∧ r.fid = Src.port_HSPI_FRAME := by
  obtain ⟨r, hr, hid, -⟩ := raiseEvent_of_not_fenced u Src.port_HSPI_FRAME 0 rfl
  unfold State.hspiFrame
  rw [hr]
  refine ⟨(hspiError_hspi ..).trans rfl, ?_, r, (hspiError_raises ..).trans rfl, hid⟩
  exact (fld_of_reg (hspiError_reg _ _ _ _ _ (by decide))).trans (State.fld_bump_self _ Fields.HSPI_CNT_FRAMEERR 0 1 (by decide))

/-- A host write that is accepted and released leaves what it leaves, with LASTW beside it. -/
theorem portWrite_of_accepted {u : State} {a : Nat} {w : Word} (h : s.serves = true) (hw : s.hostWrite a w = (.ok, u)) :
    s.portWrite a w = u.modHspi fun x => { x with lastw := 0 } := by
  simp only [State.portWrite, hostServes_of_serves s h, not_held_of_serves s h, stepOne_of_turn s (turn_of_serves s h), hw]
  rfl

/-- The oldest queued write is handled once two ticks lie behind it (R659). -/
theorem hspiHandled_writes {w : HspiWrite} {q : List HspiWrite} (h : s.serves = true) (hq : s.hspi.queue = w :: q)
    (ht : w.at_ + 2 ≤ s.elapsed) : s.hspiHandled = (s.modHspi fun x => { x with queue := q }).portWrite w.addr w.data := by
  unfold State.hspiHandled
  rw [hq]
  exact if_pos ⟨ht, not_held_of_serves s h⟩

theorem hspiHandled_waits (h : s.hspi.queue = [] ∨ ∃ w q, s.hspi.queue = w :: q ∧ s.elapsed < w.at_ + 2) : s.hspiHandled = s := by
  unfold State.hspiHandled
  obtain h | ⟨w, q, h, ht⟩ := h
  · rw [h]
  · rw [h]
    exact if_neg fun c => absurd c.1 (not_le.2 ht)

/-- What a READ without CRC takes its answer from: the word read once the queue is empty, and else the status PENDING. -/
def State.readAnswer (s : State) (a : Nat) (ready : Bool) : Nat × Word × State :=
  if ready && s.hspi.queue.isEmpty then
    ((s.readAddr a).1.code, (if (s.readAddr a).1 = .ok then (s.readAddr a).2.1 else 0), (s.readAddr a).2.2)
  else (14, 0, s)

theorem hspiRead_answers {ready : Bool} {st : Nat} {w : Word} {u : State} (hs : s.hostServes = true) (ho : field l 0 1 = 3)
    (hc : s.crcRequired = false) (hl : l.length = 8 + s.fld Fields.HSPI_CFG_DUMMY 0) (ha : s.readAnswer (field l 1 2) ready = (st, w, u)) :
    s.hspiRead l ready = State.hspiSend ({ u with readData := w }.modHspi fun x => { x with read := some (st, w) }) l.length
      ((s.lastByte :: List.replicate (3 + s.fld Fields.HSPI_CFG_DUMMY 0 - 1) 0xFF#8) ++ answerBytes false st w) := by
  have hn : ¬(!s.hostServes || !(field l 0 1 == 0x03 || field l 0 1 == 0x83)) = true := by simp [hs, ho]
  have hcrc : (field l 0 1 == 0x83) = false := by rw [ho]; rfl
  have hle : ¬ l.length ≤ 3 + 0 + s.fld Fields.HSPI_CFG_DUMMY 0 := by omega
  have hsz : l.length = 3 + 0 + s.fld Fields.HSPI_CFG_DUMMY 0 + 5 + 0 := by omega
  unfold State.hspiRead
  extract_lets op crc head size pre bad
  rw [if_neg hn]
  have hcrc' : crc = false := hcrc
  have hbad : bad = false := by
    show (if crc then _ else s.crcRequired) = false
    rw [hcrc', hc]
    rfl
  have hhead : head = 3 + s.fld Fields.HSPI_CFG_DUMMY 0 := by
    show 3 + crc.toNat + _ = _
    rw [hcrc']
    rfl
  have hsize : size = l.length := by
    show head + 5 + crc.toNat = _
    rw [hcrc', hhead, hl]
    show 3 + _ + 5 + 0 = _
    omega
  have hpre : pre = s.lastByte :: List.replicate (3 + s.fld Fields.HSPI_CFG_DUMMY 0 - 1) 0xFF#8 := by
    rw [← hhead]
  rw [if_neg (by simp [hbad]), if_neg (by omega)]
  rw [← hpre, ← hcrc']
  simp only [if_pos hsize.symm]
  unfold State.readAnswer at ha
  split_ifs at ha ⊢
  all_goals
    simp only [Prod.mk.injEq] at ha
    obtain ⟨rfl, rfl, rfl⟩ := ha
    rfl

/-- A REPEAT without CRC sends the last response again (R612). -/
theorem hspiRepeat_answers {st : Nat} {w : Word} (hs : s.hostServes = true) (ho : field l 0 1 = 0x0B) (hl : l.length = 6)
    (hr : s.hspi.read = some (st, w)) :
    s.hspiRepeat l = { s.hspiSend l.length ([s.lastByte] ++ answerBytes false st w) with readData := w } := by
  have hn : ¬(!s.hostServes || !(field l 0 1 == 0x0B || field l 0 1 == 0x8B)) = true := by simp [hs, ho]
  have hcrc : (field l 0 1 == 0x8B) = false := by rw [ho]; rfl
  unfold State.hspiRepeat
  extract_lets op crc
  have hcrc' : crc = false := hcrc
  rw [if_neg hn, hr, hcrc']
  refine (if_neg (by simp)).trans ((if_neg (by simp [hl])).trans ?_)
  rfl

/-- The bytes sent after the first ones, when the transaction takes just those. -/
theorem drop_miso_hspiSend (u : State) (pre post : List Byte) : ((u.hspiSend (pre.length + post.length) (pre ++ post)).hspi.miso).drop
    pre.length = post := by
  show ((pre ++ post ++ List.replicate (pre.length + post.length - (pre ++ post).length) 0xFF#8).take (pre.length + post.length)).drop
    pre.length = post
  rw [List.length_append, Nat.sub_self, List.replicate_zero, List.append_nil, ← List.length_append, List.take_length,
    List.drop_left]

end Hspi

/-- Settles O54: WRITE by its checks in their order, the handled write as a host write, READ and REPEAT by what they send. -/
theorem hspiTransactions : Obligations.HspiTransactions := by
  refine ⟨?_, ?_, ?_, ?_, ?_, ?_, ?_, ?_, ?_, ?_, ?_⟩
  · intro s l hs hq hw
    have he : s.hspiWrite l = (s.hspiSend l.length [s.lastByte]).modHspi fun x =>
        { x with queue := x.queue ++ [⟨field l 1 2, BitVec.ofNat 32 (field l 3 4), s.elapsed⟩] } := by
      rw [hspiWrite_checks hs (hw.imp And.left And.left), writeChecked_sent (s.hspiSend l.length [s.lastByte]) hw]
      exact if_neg (not_le.2 hq)
    exact ⟨_, congrArg Host.Outcome.next he, rfl, rfl, rfl⟩
  · intro s l hs ho hl hc
    have he : s.hspiWrite l = (s.hspiSend l.length [s.lastByte]).hspiCrc.modHspi fun x => { x with lastw := 10 } := by
      have h2 : ¬field l 0 1 = 2 := by rw [ho]; decide
      rw [hspiWrite_checks hs (.inr ho), State.writeChecked, if_neg h2, if_neg (not_not.2 hl), if_neg h2, if_pos (by simpa using hc)]
    obtain ⟨h1, h2, h3, h4⟩ := hspiCrc_counts (s.hspiSend l.length [s.lastByte])
    refine ⟨_, congrArg Host.Outcome.next he, (congrArg Hspi.queue h1).trans rfl, rfl, h2, h3, h4⟩
  · intro s l hs ho hl
    have he : s.hspiWrite l = (s.hspiSend l.length [s.lastByte]).hspiFrame := by
      rw [hspiWrite_checks hs (.inl ho), State.writeChecked, if_pos ho, if_pos hl]
    obtain ⟨h1, h2, h3⟩ := hspiFrame_counts (s.hspiSend l.length [s.lastByte])
    exact ⟨_, congrArg Host.Outcome.next he, (congrArg Hspi.queue h1).trans rfl, (congrArg Hspi.lastw h1).trans rfl, h2, h3⟩
  · intro s l hs hq hw
    have he : s.hspiWrite l = ((s.hspiSend l.length [s.lastByte]).hspiError (field l 1 2) 1).modHspi fun x => { x with lastw := 1 } := by
      rw [hspiWrite_checks hs (hw.imp And.left And.left), writeChecked_sent (s.hspiSend l.length [s.lastByte]) hw]
      exact if_pos hq
    have hh := hspiError_hspi (s.hspiSend l.length [s.lastByte]) (field l 1 2) 1
    exact ⟨_, congrArg Host.Outcome.next he, (congrArg Hspi.queue hh).trans rfl, rfl, hspiError_flag .., hspiError_raises ..⟩
  · intro s w q h hq ht ha
    have hs : (s.modHspi fun x => { x with queue := q }).serves = true := h
    obtain ⟨fl, hw⟩ := hostWrite_scratch (s := s.modHspi fun x => { x with queue := q }) w.data hs
    have he := (hspiHandled_writes h hq ht).trans (ha ▸ portWrite_of_accepted hs hw)
    exact ⟨_, congrArg Host.Outcome.next he, State.reg_setReg_self .., rfl, rfl, rfl⟩
  · intro s w q h hq ht ha
    have hs : (s.modHspi fun x => { x with queue := q }).serves = true := h
    have hw := hostWrite_outside (s.modHspi fun x => { x with queue := q }) w.addr w.data hs (.inl ha)
    have he := hspiHandled_writes h hq ht
    have hr := refusedWith_of_refusal _ _ w.addr w.data .range hs hw (by decide)
    rw [portWrite_of_refusal _ _ w.addr w.data .range hs hw (by decide)] at he hr
    exact ⟨_, congrArg Host.Outcome.next he, hr, congrArg Hspi.queue (hspiError_hspi ..), hspiError_raises ..⟩
  · exact fun s h => ⟨_, congrArg Host.Outcome.next (hspiHandled_waits h), rfl⟩
  · intro s l hs h4 ho hc hq ha hl
    have hr : s.readAddr (regAddr .GLB_SCRATCH 0) = (.ok, s.reg .GLB_SCRATCH 0, s) :=
      readAddr_placed s .GLB_SCRATCH 0 (by decide +kernel) h4
    have hans : s.readAnswer (field l 1 2) true = (0, s.reg .GLB_SCRATCH 0, s) := by
      simp [State.readAnswer, hq, ha, hr, WStatus.code]
    have he := hspiRead_answers hs ho hc hl hans
    refine ⟨_, congrArg Host.Outcome.next he, rfl, rfl, rfl, rfl, ?_⟩
    have hd := drop_miso_hspiSend
      ({ s with readData := s.reg .GLB_SCRATCH 0 }.modHspi fun x => { x with read := some (0, s.reg .GLB_SCRATCH 0) })
      (s.lastByte :: List.replicate (3 + s.fld Fields.HSPI_CFG_DUMMY 0 - 1) 0xFF#8) (answerBytes false 0 (s.reg .GLB_SCRATCH 0))
    have hpre : (s.lastByte :: List.replicate (3 + s.fld Fields.HSPI_CFG_DUMMY 0 - 1) 0xFF#8).length =
        3 + s.fld Fields.HSPI_CFG_DUMMY 0 := by
      rw [List.length_cons, List.length_replicate]
      omega
    have hpost : (answerBytes false 0 (s.reg .GLB_SCRATCH 0)).length = 5 := by simp [answerBytes]
    rw [hpre, hpost, show 3 + s.fld Fields.HSPI_CFG_DUMMY 0 + 5 = l.length by omega] at hd
    exact hd
  · intro s l hs ho hc hl
    have he := hspiRead_answers (ready := false) hs ho hc hl rfl
    exact ⟨_, congrArg Host.Outcome.next he, rfl, rfl, rfl⟩
  · intro s l st w hs ho hl hr
    have he := hspiRepeat_answers hs ho hl hr
    refine ⟨_, congrArg Host.Outcome.next he, rfl, rfl, rfl, rfl, ?_⟩
    have hd := drop_miso_hspiSend s [s.lastByte] (answerBytes false st w)
    have hpost : (answerBytes false st w).length = 5 := by simp [answerBytes]
    rw [hpost] at hd
    rw [hl]
    exact hd
  · intro s l b hs
    have hn : ∀ x : Bool, (!s.hostServes || x) = true := by simp [hs]
    exact ⟨⟨_, congrArg Host.Outcome.next (if_pos (hn _)), rfl⟩, ⟨_, congrArg Host.Outcome.next (if_pos (hn _)), rfl⟩,
      ⟨_, congrArg Host.Outcome.next (if_pos (hn _)), rfl⟩⟩

end Sys2Proof.Machine

namespace Sys2Proof.Machine

/-! ## The monitor converter (R469 to R481) -/

section Monitor
variable {s : State}

/-! ### What a slot that begins, thresholds and the groups' notes leave alone -/

/-- What a slot that begins bears on is the converter's slot and queue, and MON_STAT.QLEVEL. -/
theorem pickSlot_keeps {α : Type} (g : State → α)
    (hm : ∀ (s : State) sl u q, g { s with mon := { s.mon with slot := sl, use := u, queue := q } } = g s)
    (hf : ∀ (s : State) v, g (s.setFld Fields.MON_STAT_QLEVEL 0 v) = g s) (s : State) : g s.pickSlot = g s := by
  have hscan : ∀ i, g (s.pickScan i) = g s := fun i => hm s _ _ _
  unfold State.pickSlot
  extract_lets i give
  split
  · exact hm s _ _ _
  · split
    · exact hm s _ _ _
    · split
      · split
        · exact (hf ..).trans (hm s _ _ _)
        · exact hscan i
      · exact hscan i

theorem RecordBlind.calNote {α : Type} {g : State → α} (hg : RecordBlind g) (hc : ∀ (s : State) n f, g (s.modGrp n f) = g s)
    (s : State) (n : Nat) : g (s.calNote n) = g s := by
  unfold State.calNote
  extract_lets x due us s1 s2 s3
  have h1 : g s1 = g s := hc ..
  have h3 : g s3 = g s := (hc ..).trans h1
  split
  · exact (hc ..).trans ((hg.lapseWith ..).trans ((hg.beginLevel ..).trans h1))
  · split
    · split
      · exact (hg.endLapses ..).trans ((hg.windows ..).trans h3)
      · exact h3
    · exact h1

theorem RecordBlind.calRefresh {α : Type} {g : State → α} (hg : RecordBlind g) (hc : ∀ (s : State) n f, g (s.modGrp n f) = g s)
    (s : State) : g s.calRefresh = g s := by
  unfold State.calRefresh
  extract_lets s1 s2
  have h1 : g s1 = g s := State.each_keeps g _ (hg.calNote hc) s _
  have h2 : g s2 = g s := by
    unfold s2
    split
    · exact h1
    · exact (hg.windows ..).trans h1
  split
  · exact h2
  · exact (hg.windows ..).trans h2

theorem recordBlind_mon : RecordBlind State.mon := ⟨fun _ _ _ => rfl, fun _ _ => rfl, fun _ _ => rfl⟩
theorem mon_calRefresh (s : State) : s.calRefresh.mon = s.mon := recordBlind_mon.calRefresh (fun _ _ _ => rfl) s

theorem reg_calRefresh (s : State) (r : RegName) (i : Nat) : s.calRefresh.reg r i = s.reg r i :=
  reg_of_regs (regs_of_trims (trims_calRefresh s)) r i

/-- A threshold moves its own status, and events. -/
theorem threshold_keeps {α : Type} (g : State → α) (hg : RecordBlind g) (hs : ∀ (s : State) n x, g (s.setStn n x) = g s)
    (hr : ∀ (s : State) f i v, f.reg = .MON_THR_STAT ∨ f.reg = .SEQ_EVDROP → g (s.setFld f i v) = g s) (s : State) (a b n : Nat) :
    g (s.threshold a b n) = g s := by
  have hb : ∀ (s : State) n, g (s.bumpEvDrop n) = g s := fun s n => by
    unfold State.bumpEvDrop
    refine hr _ _ _ _ (.inr ?_)
    split <;> rfl
  unfold State.threshold
  extract_lets level hyst down s1
  have hfire : g (s1.each (List.range 8) fun s k => s.postEvent k ⟨72 + n, b, BitVec.ofNat 32 a⟩) = g s :=
    (State.each_keeps g _ (fun u k => hg.postEvent u hs hb k _) _ _).trans
      ((hr _ Fields.MON_THR_STAT_COUNT _ _ (.inl rfl)).trans (hr _ Fields.MON_THR_STAT_ARMED _ _ (.inl rfl)))
  have harm : g (s.setFld Fields.MON_THR_STAT_ARMED n 1) = g s := hr _ Fields.MON_THR_STAT_ARMED _ _ (.inl rfl)
  split
  · rw [apply_ite g, hfire, ite_self]
  · rw [apply_ite g, harm, ite_self]

theorem converted_keeps {α : Type} (g : State → α) (hg : RecordBlind g) (hs : ∀ (s : State) n x, g (s.setStn n x) = g s)
    (hr : ∀ (s : State) f i v, f.reg = .MON_THR_STAT ∨ f.reg = .SEQ_EVDROP → g (s.setFld f i v) = g s) (s : State) (ch a b : Nat) :
    g (s.converted ch a b) = g (s.modMon fun m => { m with latest := m.latest.setIfInBounds ch (some a) }) :=
  State.each_keeps g _ (fun u n => threshold_keeps g hg hs hr u a b n) _ _

/-- A raise of a source at an elapsed tick waits for its reaction. -/
def State.raisedAt (s : State) (f : Fid) (k : Nat) : Prop := (f, k) ∈ s.raises.map fun r => (r.fid, r.at_)

theorem raisedAt_append {s t : State} {f : Fid} {k : Nat} {l : List Raise} (h : s.raisedAt f k) (ht : t.raises = s.raises ++ l) :
    t.raisedAt f k := by
  rw [State.raisedAt, ht, List.map_append]
  exact List.mem_append_left _ h

theorem raisedAt_of_raises {s t : State} {f : Fid} {k : Nat} (h : s.raisedAt f k) (ht : t.raises = s.raises) : t.raisedAt f k := by
  rw [State.raisedAt, ht]
  exact h

theorem map_at_attachLapse (f : Fid) (k : Nat) (x : Word × LapseEnd) (l rs : List Raise) (h : attachLapse f k x l = some rs) :
    rs.map (fun r => (r.fid, r.at_)) = l.map fun r => (r.fid, r.at_) := by
  induction l generalizing rs with
  | nil => cases h
  | cons r l ih =>
    unfold attachLapse at h
    split at h
    · next rs' hl =>
      obtain rfl := Option.some.inj h
      rw [List.map_cons, List.map_cons, ih rs' hl]
    · split at h
      · obtain rfl := Option.some.inj h
        rfl
      · cases h

theorem raisedAt_lapseWith {s : State} {f : Fid} {k : Nat} (h : s.raisedAt f k) (f' : Fid) (w : Word) (e : LapseEnd) :
    (s.lapseWith f' w e).raisedAt f k := by
  unfold State.lapseWith
  extract_lets p
  split
  · exact h
  · split
    · next rs hrs =>
      rw [State.raisedAt, map_at_attachLapse _ _ _ _ _ hrs]
      exact h
    · unfold State.beginLapse
      split <;> exact h

theorem raisedAt_beginLevel {s : State} {f : Fid} {k : Nat} (h : s.raisedAt f k) (f' : Fid) (a : Word) : (s.beginLevel f' a).raisedAt f k :=
  List.map_subset _ (raises_subset_beginLevel s f' a) h

theorem raisedAt_calNote {s : State} {f : Fid} {k : Nat} (h : s.raisedAt f k) (n : Nat) : (s.calNote n).raisedAt f k := by
  unfold State.calNote
  extract_lets x due us s1 s2 s3
  split
  · exact raisedAt_lapseWith (raisedAt_beginLevel (s := s1) h _ _) _ _ _
  · split
    · split
      · exact raisedAt_of_raises (s := s3) h (endLapses_keeps _ State.raises _ (fun _ _ _ => rfl) fun _ _ => rfl)
      · exact h
    · exact h

theorem raisedAt_calRefresh {s : State} {f : Fid} {k : Nat} (h : s.raisedAt f k) : s.calRefresh.raisedAt f k := by
  unfold State.calRefresh
  extract_lets s1 s2
  have h1 : s1.raisedAt f k := State.each_induct (·.raisedAt f k) _ (fun u n hu => raisedAt_calNote hu n) s _ h
  clear_value s1
  have h2 : s2.raisedAt f k := by
    unfold s2
    split
    · exact h1
    · exact raisedAt_of_raises h1 rfl
  clear_value s2
  split
  · exact h2
  · exact raisedAt_of_raises h2 rfl

theorem exists_of_raisedAt {s : State} {f : Fid} {k : Nat} (h : s.raisedAt f k) : ∃ r ∈ s.raises, r.fid = f ∧ r.at_ = k := by
  obtain ⟨r, hr, he⟩ := List.mem_map.1 h
  obtain ⟨h1, h2⟩ := Prod.mk.inj he
  exact ⟨r, hr, h1, h2⟩

/-! ### Conversions that end (R472 to R476, R481) -/

/-- A slot's conversion has ended: the next slot begins, unless a mask is to be taken first. -/
def State.slotEnded (s : State) : State :=
  let s := s.modMon fun m => { m with slot := none, use := .none }
  if s.mon.maskDue then s else s.pickSlot

theorem slotBoundary_ends {i : Nat} (code : Nat) (hc : s.counting = true) (hn : s.now % 500 = 0) (hm : s.mon.maskDue = false)
    (hs : s.mon.slot = some i) (ht : 500 * (i + 1) ≤ s.now) (hf : s.flag Fields.MON_STAT_FENCED 0 = false) :
    s.slotBoundary code = (s.slotDone i code).slotEnded := by
  unfold State.slotBoundary
  rw [if_neg (by simp [hc, hn, hm]), hs]
  refine (if_neg (not_lt.2 ht)).trans ?_
  simp only [hf, Bool.false_eq_true, if_false]
  rfl

/-- What neither slots nor the queue bear on is at a slot's end what the conversion made of it. -/
theorem slotEnded_keeps {α : Type} (g : State → α) (u : State)
    (hm : ∀ (s : State) sl u q, g { s with mon := { s.mon with slot := sl, use := u, queue := q } } = g s)
    (hf : ∀ (s : State) v, g (s.setFld Fields.MON_STAT_QLEVEL 0 v) = g s) : g u.slotEnded = g u := by
  unfold State.slotEnded
  extract_lets v
  have hv : g v = g u := hm u none .none u.mon.queue
  split
  · exact hv
  · exact (pickSlot_keeps g hm hf v).trans hv

/-- A register that neither a slot nor a threshold shows. -/
theorem reg_slotEnded (u : State) (r : RegName) (j : Nat) (h : r ≠ .MON_STAT) : u.slotEnded.calRefresh.reg r j = u.reg r j :=
  (reg_calRefresh ..).trans (slotEnded_keeps (fun s => s.reg r j) u (fun _ _ _ _ => rfl) fun _ _ => reg_setFld_ne _ _ _ _ _ _ h)

theorem mon_slotEnded {α : Type} (g : Mon → α) (hg : ∀ (m : Mon) sl u q, g { m with slot := sl, use := u, queue := q } = g m) (u : State) :
    g u.slotEnded.calRefresh.mon = g u.mon :=
  (congrArg g (mon_calRefresh _)).trans (slotEnded_keeps (fun s => g s.mon) u (fun s => hg s.mon) fun _ _ => rfl)

theorem reg_converted (u : State) (ch a b : Nat) (r : RegName) (j : Nat) (h : r ≠ .MON_THR_STAT) (h' : r ≠ .SEQ_EVDROP) :
    (u.converted ch a b).reg r j = u.reg r j := by
  refine converted_keeps (fun s => s.reg r j) ⟨fun _ _ _ => rfl, fun _ _ => rfl, fun _ _ => rfl⟩ (fun _ _ _ => rfl) ?_ _ _ _ _
  rintro u f j v (e | e) <;> exact reg_setFld_ne _ _ _ _ _ _ (by rwa [e])

theorem mon_converted (u : State) (ch a b : Nat) :
    (u.converted ch a b).mon = { u.mon with latest := u.mon.latest.setIfInBounds ch (some a) } :=
  converted_keeps State.mon recordBlind_mon (fun _ _ _ => rfl) (fun _ _ _ _ _ => rfl) _ _ _ _

/-- What the conversion of a scan's entry leaves at the end of its slot (R472, R474, R476). -/
theorem scan_conversion (s : State) (code : BitVec 14) (i : Nat) (k : Fin 32) (ch : Fin 62) (hu : s.mon.use = .scan k ch) :
    ∀ t : State, t = (s.slotDone i code.toNat).slotEnded.calRefresh →
      t.fld Fields.MON_RES_A_VALUE k = code.toNat ∧ t.fld Fields.MON_RES_A_COUNT k = (s.fld Fields.MON_RES_A_COUNT k + 1) % 65536 ∧
      t.mon.stamps[k] = 500 * (i + 1) ∧ t.mon.latest[ch.val]? = some (some code.toNat) := by
  have hk : ¬ 32 ≤ k.val := not_le.2 k.isLt
  let u : State := s.scanConverted k code.toNat (500 * (i + 1))
  have hd : s.slotDone i code.toNat = u.converted ch code.toNat (500 * (i + 1)) := by
    have hch : ¬ 62 ≤ ch.val := not_le.2 ch.isLt
    simp only [State.slotDone, hu, if_neg hch]
    rfl
  have hureg : u.reg .MON_RES_A k = ((s.setFld Fields.MON_RES_A_VALUE k code.toNat).setFld Fields.MON_RES_A_COUNT k
      (s.fld Fields.MON_RES_A_COUNT k + 1)).reg .MON_RES_A k := by
    simp only [u, State.scanConverted, if_neg hk]
    rfl
  have hust : u.mon.stamps = s.mon.stamps.setIfInBounds k (500 * (i + 1)) := by
    simp only [u, State.scanConverted, if_neg hk]
    rfl
  clear_value u
  have hreg : (s.slotDone i code.toNat).slotEnded.calRefresh.reg .MON_RES_A k = u.reg .MON_RES_A k := by
    rw [reg_slotEnded _ _ _ (by decide), hd, reg_converted _ _ _ _ _ _ (by decide) (by decide)]
  have hst : (s.slotDone i code.toNat).slotEnded.calRefresh.mon.stamps = s.mon.stamps.setIfInBounds k (500 * (i + 1)) :=
    (mon_slotEnded Mon.stamps (fun _ _ _ _ => rfl) (s.slotDone i code.toNat)).trans (by rw [hd, mon_converted]; exact hust)
  have hl : (s.slotDone i code.toNat).slotEnded.calRefresh.mon.latest = u.mon.latest.setIfInBounds ch (some code.toNat) :=
    (mon_slotEnded Mon.latest (fun _ _ _ _ => rfl) (s.slotDone i code.toNat)).trans (by rw [hd, mon_converted])
  intro t ht
  rw [← ht] at hreg hst hl
  have hreg' := hreg.trans hureg
  refine ⟨?_, ?_, ?_, ?_⟩
  · rw [fld_of_reg hreg', State.fld_setFld_other _ _ _ _ _ _ (by decide) (.inr (.inr (by decide))),
      State.fld_setFld_self _ _ _ _ (by decide)]
    exact Nat.mod_eq_of_lt (lt_trans code.isLt (by decide))
  · rw [fld_of_reg hreg', State.fld_setFld_self _ _ _ _ (by decide)]
    rfl
  · simp [hst]
  · have hlt : ch.val < 64 := lt_trans ch.isLt (by decide)
    simp [hl, hlt]

/-- What the second failed check in a row leaves (R481). -/
theorem check_conversion (s : State) (code : BitVec 14) (i : Nat) (hf : s.flag Fields.MON_STAT_FENCED 0 = false)
    (hu : s.mon.use = .check 60) (h1 : s.mon.fails[0] = 1) (hc : code.toNat + 64 < 8000) :
    (s.slotDone i code.toNat).slotEnded.calRefresh.fld Fields.MON_CHECK_REF 0 = code.toNat ∧
      (s.slotDone i code.toNat).slotEnded.calRefresh.raisedAt Src.mon_ADC_CHECK s.elapsed := by
  have hbad : decide (64 < max code.toNat (checkCode 60) - min code.toNat (checkCode 60)) = true := by
    have h60 : checkCode 60 = 8000 := rfl
    rw [h60, decide_eq_true_eq]
    omega
  have hn : (s.mon.fails[60 - 60]?).getD 0 = 1 := by simp [h1]
  let a : State := (s.setFld Fields.MON_CHECK_REF 0 code.toNat).modMon fun m => { m with fails := m.fails.setIfInBounds (60 - 60) 2 }
  let b : State := a.bump Fields.MON_CNT_CHKFAIL 0 1
  have hd : s.slotDone i code.toNat = b.raiseEvent Src.mon_ADC_CHECK 0 := by
    simp only [State.slotDone, hu, State.checkConverted, hbad, if_true, Bool.not_true, Bool.false_eq_true, if_false]
    rw [show ((s.setFld Fields.MON_CHECK_REF 0 code.toNat).mon.fails[60 - 60]?).getD 0 = 1 from hn]
    rfl
  have hbf : b.unitFenced Src.mon_ADC_CHECK = false := by
    show b.flag Fields.MON_STAT_FENCED 0 = false
    exact (flag_of_reg ((reg_setFld_ne a _ _ _ _ _ (by decide)).trans (reg_setFld_ne s _ _ _ _ _ (by decide)))).trans hf
  have hbr : b.reg .MON_CHECK 0 = (s.setFld Fields.MON_CHECK_REF 0 code.toNat).reg .MON_CHECK 0 := reg_setFld_ne a _ _ _ _ _ (by decide)
  have hbe : b.elapsed = s.elapsed := rfl
  clear_value b
  constructor
  · have hreg : (s.slotDone i code.toNat).slotEnded.calRefresh.reg .MON_CHECK 0 =
        (s.setFld Fields.MON_CHECK_REF 0 code.toNat).reg .MON_CHECK 0 := by
      rw [reg_slotEnded _ _ _ (by decide), hd, raiseEvent_keeps (fun s => s.reg .MON_CHECK 0) b _ _ fun _ _ => rfl, hbr]
    refine (fld_of_reg (f := Fields.MON_CHECK_REF) hreg).trans ((State.fld_setFld_self s _ 0 _ (by decide)).trans ?_)
    exact Nat.mod_eq_of_lt code.isLt
  · have hra : (s.slotDone i code.toNat).raisedAt Src.mon_ADC_CHECK s.elapsed := by
      rw [hd, ← hbe, State.raisedAt, State.raiseEvent, State.raiseAs, if_neg (by simp [hbf])]
      simp
    refine raisedAt_calRefresh (raisedAt_of_raises hra ?_)
    exact slotEnded_keeps State.raises (s.slotDone i code.toNat) (fun _ _ _ _ => rfl) fun _ _ => rfl

/-! ### Reads, injections and masks (R471 to R477) -/

/-- A read by the host port of a register with no word of its own returns it, with the read's effect. -/
theorem portRead_stored (r : RegName) (i : Nat) (hp : placed r i = true) (h : s.hostServes = true) (h4 : s.power ≠ 4)
    (hw : s.readWord r i = s.reg r i) : s.portRead (regAddr r i) = { s.readEffect r i with readData := s.reg r i } := by
  simp only [State.portRead, h, readAddr_placed s r i hp h4, hw]
  rfl

theorem injCmd_bits (ch : BitVec 6) : getBits (cmdBit 31 ||| ch.setWidth 32) 0 6 = ch.toNat ∧
    bitOf (cmdBit 31 ||| ch.setWidth 32) 31 = true := by
  revert ch
  decide

/-- What a request that finds room leaves. -/
def State.injected (s : State) (ch : BitVec 6) : State :=
  State.setFld ((s.setFld Fields.MON_INJCMD_CH 0 ch.toNat).modMon fun m => { m with queue := m.queue ++ [⟨ch.toNat, none, s.now⟩] }).noteQueue
    Fields.MON_INJCMD_RESULT 0 0

theorem result_injected (s : State) (ch : BitVec 6) : (s.injected ch).fld Fields.MON_INJCMD_RESULT 0 = 0 :=
  State.fld_setFld_self _ _ 0 0 (by decide)

/-- A request that finds room joins the converter's queue (R477). -/
theorem writeInjCmd_queues (ch : BitVec 6) (hf : s.flag Fields.MON_STAT_FENCED 0 = false) (hq : s.mon.queue.length < 2) :
    s.writeReg .MON_INJCMD 0 (cmdBit 31 ||| ch.setWidth 32) = (.ok, s.injected ch) := by
  obtain ⟨h1, h2⟩ := injCmd_bits ch
  have hf' : (s.setFld Fields.MON_INJCMD_CH 0 ch.toNat).flag Fields.MON_STAT_FENCED 0 = false :=
    (flag_of_reg (reg_setFld_ne s _ _ _ _ _ (by decide))).trans hf
  have hq' : ¬ 2 ≤ (s.setFld Fields.MON_INJCMD_CH 0 ch.toNat).mon.queue.length := not_le.2 hq
  show s.writeInjCmd (cmdBit 31 ||| ch.setWidth 32) = _
  simp only [State.writeInjCmd, h1, h2, if_true, State.inject, hf', Bool.false_eq_true, if_false, if_neg hq']
  rfl

theorem queue_injected (s : State) (ch : BitVec 6) : (s.injected ch).mon.queue = s.mon.queue ++ [⟨ch.toNat, none, s.now⟩] := rfl

theorem inject_completes {s u : State} {ch : BitVec 6} {q : List MonReq} (h : s.serves = true)
    (hw : s.writeReg .MON_INJCMD 0 (cmdBit 31 ||| ch.setWidth 32) = (.ok, u)) (hq : u.mon.queue = q)
    (hr : u.fld Fields.MON_INJCMD_RESULT 0 = 0) :
    completes (.monInject ch) s fun t => t.mon.queue = q ∧ s.wrote t ∧ t.fld Fields.MON_INJCMD_RESULT 0 = 0 :=
  completes_of_write rfl h (by decide) (by decide) rfl hw fun _ _ => ⟨hq, ⟨rfl, rfl⟩, hr⟩

/-- A third request is refused, counted and raised (R477). -/
theorem writeInjCmd_refuses (ch : BitVec 6) (hf : s.flag Fields.MON_STAT_FENCED 0 = false) (hq : 2 ≤ s.mon.queue.length) :
    s.writeReg .MON_INJCMD 0 (cmdBit 31 ||| ch.setWidth 32) =
      (.full, (((s.setFld Fields.MON_INJCMD_CH 0 ch.toNat).bump Fields.MON_CNT_INJREF 0 1).raiseEvent Src.mon_INJ_REFUSED 0).setFld
        Fields.MON_INJCMD_RESULT 0 1) := by
  obtain ⟨h1, h2⟩ := injCmd_bits ch
  have hf' : (s.setFld Fields.MON_INJCMD_CH 0 ch.toNat).flag Fields.MON_STAT_FENCED 0 = false :=
    (flag_of_reg (reg_setFld_ne s _ _ _ _ _ (by decide))).trans hf
  have hq' : 2 ≤ (s.setFld Fields.MON_INJCMD_CH 0 ch.toNat).mon.queue.length := hq
  show s.writeInjCmd (cmdBit 31 ||| ch.setWidth 32) = _
  simp only [State.writeInjCmd, h1, h2, if_true, State.inject, hf', Bool.false_eq_true, if_false, if_pos hq']
  rfl

/-- The register of a half of the scan's mask. -/
def scanHalf (hi : Bool) : RegName := if hi then .MON_SCAN_HI else .MON_SCAN_LO

/-- Every result of the scan is cleared. -/
def State.clearResults (s : State) : State := s.each (List.range 32) fun s k => (s.setReg .MON_RES_A k 0).setReg .MON_RES_B k 0

theorem reg_clearResults (s : State) (r : RegName) (i : Nat) (ha : r ≠ .MON_RES_A) (hb : r ≠ .MON_RES_B) :
    s.clearResults.reg r i = s.reg r i :=
  State.each_keeps (fun w : State => w.reg r i) (fun s k => (s.setReg .MON_RES_A k 0).setReg .MON_RES_B k 0) (fun w k =>
    (State.reg_setReg_other _ _ _ _ _ _ fun e => hb e.1.symm).trans (State.reg_setReg_other _ _ _ _ _ _ fun e => ha e.1.symm)) s _

theorem result_clearResults (s : State) (k : Fin 32) : s.clearResults.reg .MON_RES_A k = 0 := by
  obtain ⟨w, -, hw⟩ := State.each_once (p := fun w : State => w.reg .MON_RES_A k) (k := k.val)
    (f := fun s k => (s.setReg .MON_RES_A k 0).setReg .MON_RES_B k 0) (fun w m hm =>
      (State.reg_setReg_other _ _ _ _ _ _ fun e => by cases e.1).trans (State.reg_setReg_other _ _ _ _ _ _ fun e => hm e.2))
    s (List.mem_range.2 k.isLt) List.nodup_range
  exact hw.trans ((State.reg_setReg_other _ _ _ _ _ _ fun e => by cases e.1).trans (State.reg_setReg_self ..))

/-- What a mask that takes effect leaves of the converter. -/
def Mon.withMask (x : Mon) (m : BitVec 64) : Mon :=
  { x with
    mask := m, next := 0, maskDue := false, stamps := Vector.replicate 32 0
    use := match x.use with | .scan _ ch => .scan 32 ch | u => u }

/-- The status of the scan as a mask takes effect. -/
def State.maskNoted (s : State) (n : Nat) : State := (s.setFld Fields.MON_STAT_MASKPEND 0 0).setFld Fields.MON_STAT_ENTRIES 0 n

theorem applyMask_eq (s : State) :
    s.applyMask = (s.maskNoted (scanList s.scanWritten).length).clearResults.modMon (Mon.withMask · s.scanWritten) := rfl

theorem pend_maskNoted (s : State) (n : Nat) : (s.maskNoted n).flag Fields.MON_STAT_MASKPEND 0 = false := by
  rw [State.flag, State.maskNoted, State.fld_setFld_other _ _ _ _ _ _ (by decide) (by decide),
    State.fld_setFld_self _ _ _ _ (by decide)]
  rfl

theorem reg_maskNoted (s : State) (n : Nat) (r : RegName) (i : Nat) (h : r ≠ .MON_STAT) : (s.maskNoted n).reg r i = s.reg r i :=
  (reg_setFld_ne _ _ _ _ _ _ h).trans (reg_setFld_ne _ _ _ _ _ _ h)

theorem reg_modMon (v : State) (g : Mon → Mon) (r : RegName) (i : Nat) : (v.modMon g).reg r i = v.reg r i := rfl

theorem reg_applyMask (s : State) (r : RegName) (i : Nat) (h : r ≠ .MON_STAT) (ha : r ≠ .MON_RES_A) (hb : r ≠ .MON_RES_B) :
    s.applyMask.reg r i = s.reg r i := by
  rw [applyMask_eq, reg_modMon, reg_clearResults _ _ _ ha hb, reg_maskNoted _ _ _ _ h]

theorem result_applyMask (s : State) (k : Fin 32) : s.applyMask.reg .MON_RES_A k = 0 := by
  rw [applyMask_eq, reg_modMon, result_clearResults]

theorem pend_applyMask (s : State) : s.applyMask.flag Fields.MON_STAT_MASKPEND 0 = false := by
  have h := (reg_modMon (s.maskNoted (scanList s.scanWritten).length).clearResults (Mon.withMask · s.scanWritten) .MON_STAT 0).trans
    (reg_clearResults _ .MON_STAT 0 (by decide) (by decide))
  rw [applyMask_eq, flag_of_reg (f := Fields.MON_STAT_MASKPEND) h, pend_maskNoted]

theorem mon_applyMask (s : State) : ∃ x : Mon, s.applyMask.mon = x.withMask s.scanWritten := by
  rw [applyMask_eq]
  exact ⟨_, rfl⟩

/-- A mask that takes effect clears the results (R473). -/
theorem applyMask_clears (s : State) : s.applyMask.mon.mask = s.scanWritten ∧ s.applyMask.mon.maskDue = false ∧
    s.applyMask.mon.stamps = Vector.replicate 32 0 := by
  obtain ⟨x, hx⟩ := mon_applyMask s
  rw [hx]
  exact ⟨rfl, rfl, rfl⟩

theorem reg_pickSlot (s : State) (r : RegName) (i : Nat) (h : r ≠ .MON_STAT) : s.pickSlot.reg r i = s.reg r i :=
  pickSlot_keeps (fun s => s.reg r i) (fun _ _ _ _ => rfl) (fun _ _ => reg_setFld_ne _ _ _ _ _ _ h) s

/-- A mask of more than 32 channels, one that takes effect at once, and one that waits (R471, R473). -/
theorem writeScan_refuses (hi : Bool) (w : Word) (h : 32 < (scanList (s.setReg (scanHalf hi) 0 w).scanWritten).length) :
    s.writeScan hi w = (.range, s) := if_pos h

theorem writeScan_applies (hi : Bool) (w : Word) (h : (scanList (s.setReg (scanHalf hi) 0 w).scanWritten).length ≤ 32)
    (hr : s.flag Fields.MON_CTL_RUN 0 = false) : s.writeScan hi w = (.ok, (s.setReg (scanHalf hi) 0 w).applyMask) :=
  (if_neg (not_lt.2 h)).trans (if_pos (by simp [hr]))

theorem writeScan_waits (hi : Bool) (w : Word) (h : (scanList (s.setReg (scanHalf hi) 0 w).scanWritten).length ≤ 32)
    (hr : s.flag Fields.MON_CTL_RUN 0 = true) (hm : scanList s.mon.mask ≠ []) :
    s.writeScan hi w = (.ok, (s.setReg (scanHalf hi) 0 w).setFld Fields.MON_STAT_MASKPEND 0 1) :=
  (if_neg (not_lt.2 h)).trans (if_neg (by simp [hr, hm]))

theorem exec_monScanWrite (s : State) (hi : Bool) (w : Word) :
    exec (.monScanWrite hi w) s = .next (s.portWrite (regAddr (scanHalf hi) 0) w) := by
  cases hi <;> rfl

theorem writeReg_scanHalf (s : State) (hi : Bool) (w : Word) : s.writeReg (scanHalf hi) 0 w = s.writeScan hi w := by
  cases hi <;> rfl

theorem scanHalf_facts (hi : Bool) : commandRegs.contains (scanHalf hi) = true ∧ 0 < (regSpec (scanHalf hi)).count ∧
    (regSpec (scanHalf hi)).wk = false ∧ scanHalf hi ≠ .MON_STAT ∧ scanHalf hi ≠ .MON_RES_A ∧ scanHalf hi ≠ .MON_RES_B := by
  cases hi <;> decide

theorem scanWritten_of_reg {t u : State} (h1 : t.reg .MON_SCAN_HI 0 = u.reg .MON_SCAN_HI 0) (h2 : t.reg .MON_SCAN_LO 0 = u.reg .MON_SCAN_LO 0) :
    t.scanWritten = u.scanWritten := by
  rw [State.scanWritten, h1, h2, State.scanWritten]

end Monitor

theorem monitor_scanConversion_stores :
    ∀ (s : State) (code : BitVec 14) (i : Nat) (k : Fin 32) (ch : Fin 62), s.up = true → s.counting = true → s.now % 500 = 0 →
    s.mon.maskDue = false → s.mon.slot = some i → 500 * (i + 1) ≤ s.now → s.flag Fields.MON_STAT_FENCED 0 = false →
    s.mon.use = .scan k ch →
    completes (.monConversion code) s fun t => t.fld Fields.MON_RES_A_VALUE k = code.toNat ∧
      t.fld Fields.MON_RES_A_COUNT k = (s.fld Fields.MON_RES_A_COUNT k + 1) % 65536 ∧ t.mon.stamps[k] = 500 * (i + 1) ∧
      t.mon.latest[ch.val]? = some (some code.toNat) := by
  intro s code i k ch hup hc hn hm hs ht hf hu
  exact completes_of_detector rfl hup (congrArg State.calRefresh (slotBoundary_ends code.toNat hc hn hm hs ht hf))
    (scan_conversion s code i k ch hu _ rfl)

theorem monitor_checkConversion_raises :
    ∀ (s : State) (code : BitVec 14) (i : Nat), s.up = true → s.counting = true → s.now % 500 = 0 → s.mon.maskDue = false →
    s.mon.slot = some i → 500 * (i + 1) ≤ s.now → s.flag Fields.MON_STAT_FENCED 0 = false → s.mon.use = .check 60 →
    s.mon.fails[0] = 1 → code.toNat + 64 < 8000 →
    completes (.monConversion code) s fun t => t.fld Fields.MON_CHECK_REF 0 = code.toNat ∧
      ∃ r ∈ t.raises, r.fid = Src.mon_ADC_CHECK ∧ r.at_ = s.elapsed := by
  intro s code i hup hc hn hm hs ht hf hu h1 hlt
  obtain ⟨h, hr⟩ := check_conversion s code i hf hu h1 hlt
  exact completes_of_detector rfl hup (congrArg State.calRefresh (slotBoundary_ends code.toNat hc hn hm hs ht hf))
    ⟨h, exists_of_raisedAt hr⟩

theorem monitor_resRead_latches :
    ∀ (s : State) (k : Fin 32), s.hostServes = true → s.power ≠ 4 →
    completes (.monResRead k) s fun t => t.readData = s.reg .MON_RES_A k ∧ t.reg .MON_RES_B k = loWord s.mon.stamps[k] ∧
      t.mon = s.mon ∧ t.reg .MON_RES_A k = s.reg .MON_RES_A k := by
  intro s k h h4
  have he := portRead_stored (s := s) .MON_RES_A k (placed_of_command _ _ (by decide) k.isLt) h h4 rfl
  refine ⟨_, congrArg Host.Outcome.next he, rfl, (State.reg_setReg_self ..).trans ?_, rfl,
    State.reg_setReg_other _ _ _ _ _ _ fun e => by cases e.1⟩
  simp

theorem monitor_injRead_latches :
    ∀ s : State, s.hostServes = true → s.power ≠ 4 →
    completes .monInjRead s fun t => t.readData = s.reg .MON_INJ_A 0 ∧ t.reg .MON_INJ_B 0 = loWord s.mon.injStamp ∧ t.mon = s.mon := by
  intro s h h4
  have he := portRead_stored (s := s) .MON_INJ_A 0 (placed_of_command _ _ (by decide) (by decide)) h h4 rfl
  exact ⟨_, congrArg Host.Outcome.next he, rfl, State.reg_setReg_self .., rfl⟩

theorem monitor_inject_queues :
    ∀ (s : State) (ch : BitVec 6), s.serves = true → s.flag Fields.MON_STAT_FENCED 0 = false → s.mon.queue.length < 2 →
    completes (.monInject ch) s fun t => t.mon.queue = s.mon.queue ++ [⟨ch.toNat, none, s.now⟩] ∧ s.wrote t ∧
      t.fld Fields.MON_INJCMD_RESULT 0 = 0 := by
  intro s ch h hf hq
  exact inject_completes h (writeInjCmd_queues ch hf hq) (queue_injected s ch) (result_injected s ch)

theorem monitor_inject_refuses :
    ∀ (s : State) (ch : BitVec 6), s.serves = true → s.flag Fields.MON_STAT_FENCED 0 = false → 2 ≤ s.mon.queue.length →
    completes (.monInject ch) s fun t => t.mon = s.mon ∧ t.refusedWith .full ∧ t.fld Fields.MON_INJCMD_RESULT 0 = 1 ∧
      t.fld Fields.MON_CNT_INJREF 0 = satAdd (s.fld Fields.MON_CNT_INJREF 0) Fields.MON_CNT_INJREF.width 1 ∧
      ∃ r : Raise, t.raises = s.raises ++ [r] ∧ r.fid = Src.mon_INJ_REFUSED := by
  intro s ch h hf hq
  let b : State := (s.setFld Fields.MON_INJCMD_CH 0 ch.toNat).bump Fields.MON_CNT_INJREF 0 1
  have hb : b.unitFenced Src.mon_INJ_REFUSED = false :=
    (flag_of_reg (f := Fields.MON_STAT_FENCED) ((reg_setFld_ne _ _ _ _ _ _ (by decide)).trans
      (reg_setFld_ne s _ _ _ _ _ (by decide)))).trans hf
  have hcnt : b.fld Fields.MON_CNT_INJREF 0 = satAdd (s.fld Fields.MON_CNT_INJREF 0) Fields.MON_CNT_INJREF.width 1 := by
    refine (State.fld_bump_self _ Fields.MON_CNT_INJREF 0 1 (by decide)).trans ?_
    rw [fld_of_reg (f := Fields.MON_CNT_INJREF) (reg_setFld_ne s _ _ _ _ _ (by decide))]
  obtain ⟨r, hr, hid, -⟩ := raiseEvent_of_not_fenced b Src.mon_INJ_REFUSED 0 hb
  have hw := writeInjCmd_refuses ch hf hq
  change _ = (WStatus.full, (b.raiseEvent Src.mon_INJ_REFUSED 0).setFld Fields.MON_INJCMD_RESULT 0 1) at hw
  rw [hr] at hw
  have hmon : b.mon = s.mon := rfl
  have hra : b.raises = s.raises := rfl
  clear_value b
  refine completes_of_refusal rfl h (by decide) (by decide) rfl hw (by decide) (by decide) fun rg sk hs href hreg => ?_
  refine ⟨hmon, href, ?_, ?_, r, congrArg (· ++ [r]) hra, hid⟩
  · exact (fld_of_reg (f := Fields.MON_INJCMD_RESULT) (hreg _ _ (by decide))).trans (State.fld_setFld_self _ _ 0 1 (by decide))
  · exact (fld_of_reg (f := Fields.MON_CNT_INJREF) ((hreg _ _ (by decide)).trans (reg_setFld_ne _ _ _ _ _ _ (by decide)))).trans hcnt

theorem monitor_scanWrite_refuses :
    ∀ (s : State) (hi : Bool) (w : Word), s.serves = true →
    32 < (scanList (s.setReg (if hi then .MON_SCAN_HI else .MON_SCAN_LO) 0 w).scanWritten).length →
    completes (.monScanWrite hi w) s fun t => t.refusedWith .range ∧ t.mon = s.mon ∧ t.scanWritten = s.scanWritten := by
  intro s hi w h hl
  obtain ⟨hc, hi0, hk, -⟩ := scanHalf_facts hi
  exact completes_of_refusal (exec_monScanWrite s hi w) h hc hi0 (by simp [hk])
    ((writeReg_scanHalf s hi w).trans (writeScan_refuses hi w hl)) (by decide) (by decide) fun rg sk hs href hreg =>
    ⟨href, rfl, scanWritten_of_reg (hreg _ _ (by decide)) (hreg _ _ (by decide))⟩

theorem scanWrite_completes {s u : State} {hi : Bool} {w : Word} (h : s.serves = true) (hw : s.writeReg (scanHalf hi) 0 w = (.ok, u))
    (hself : u.reg (scanHalf hi) 0 = w) (hmask : u.mon.mask = u.scanWritten) (hzero : ∀ k : Fin 32, u.reg .MON_RES_A k = 0) :
    completes (.monScanWrite hi w) s fun t => t.reg (scanHalf hi) 0 = w ∧ t.mon.mask = t.scanWritten ∧ s.wrote t ∧
      ∀ k : Fin 32, t.reg .MON_RES_A k = 0 := by
  obtain ⟨hc, hi0, hk, -⟩ := scanHalf_facts hi
  exact completes_of_write (exec_monScanWrite s hi w) h hc hi0 (by simp [hk]) hw fun _ _ => ⟨hself, hmask, ⟨rfl, rfl⟩, hzero⟩

theorem monitor_scanWrite_applies :
    ∀ (s : State) (hi : Bool) (w : Word), s.serves = true →
    (scanList (s.setReg (if hi then .MON_SCAN_HI else .MON_SCAN_LO) 0 w).scanWritten).length ≤ 32 →
    s.flag Fields.MON_CTL_RUN 0 = false →
    completes (.monScanWrite hi w) s fun t => t.reg (if hi then .MON_SCAN_HI else .MON_SCAN_LO) 0 = w ∧
      t.mon.mask = t.scanWritten ∧ s.wrote t ∧ ∀ k : Fin 32, t.reg .MON_RES_A k = 0 := by
  intro s hi w h hl hr
  obtain ⟨-, -, -, h1, h2, h3⟩ := scanHalf_facts hi
  obtain ⟨hmask, -⟩ := applyMask_clears (s.setReg (scanHalf hi) 0 w)
  have hreg := reg_applyMask (s.setReg (scanHalf hi) 0 w)
  have hsw : (s.setReg (scanHalf hi) 0 w).applyMask.scanWritten = (s.setReg (scanHalf hi) 0 w).scanWritten :=
    scanWritten_of_reg (hreg _ _ (by decide) (by decide) (by decide)) (hreg _ _ (by decide) (by decide) (by decide))
  exact scanWrite_completes h ((writeReg_scanHalf s hi w).trans (writeScan_applies hi w hl hr))
    ((hreg _ _ h1 h2 h3).trans (State.reg_setReg_self ..)) (hmask.trans hsw.symm) (result_applyMask _)

theorem monitor_scanWrite_waits :
    ∀ (s : State) (hi : Bool) (w : Word), s.serves = true →
    (scanList (s.setReg (if hi then .MON_SCAN_HI else .MON_SCAN_LO) 0 w).scanWritten).length ≤ 32 →
    s.flag Fields.MON_CTL_RUN 0 = true → scanList s.mon.mask ≠ [] →
    completes (.monScanWrite hi w) s fun t => t.reg (if hi then .MON_SCAN_HI else .MON_SCAN_LO) 0 = w ∧ t.mon = s.mon ∧
      t.flag Fields.MON_STAT_MASKPEND 0 = true ∧ s.wrote t := by
  intro s hi w h hl hr hm
  obtain ⟨hc, hi0, hk, h1, -⟩ := scanHalf_facts hi
  have hself : ((s.setReg (scanHalf hi) 0 w).setFld Fields.MON_STAT_MASKPEND 0 1).reg (scanHalf hi) 0 = w :=
    (reg_setFld_ne _ _ _ _ _ _ h1).trans (State.reg_setReg_self ..)
  have hpend : ((s.setReg (scanHalf hi) 0 w).setFld Fields.MON_STAT_MASKPEND 0 1).flag Fields.MON_STAT_MASKPEND 0 = true := by
    rw [State.flag, State.fld_setFld_self _ _ _ _ (by decide)]
    rfl
  exact completes_of_write (exec_monScanWrite s hi w) h hc hi0 (by simp [hk])
    ((writeReg_scanHalf s hi w).trans (writeScan_waits hi w hl hr hm)) fun fl st => ⟨hself, rfl, hpend, rfl, rfl⟩

/-- What the first slot of a scan takes leaves what a new mask left. -/
theorem pickSlot_keeps_mask (s : State) : s.pickSlot.mon.mask = s.mon.mask ∧ s.pickSlot.mon.maskDue = s.mon.maskDue ∧
    s.pickSlot.mon.stamps = s.mon.stamps :=
  ⟨pickSlot_keeps (fun s => s.mon.mask) (fun _ _ _ _ => rfl) (fun _ _ => rfl) s,
    pickSlot_keeps (fun s => s.mon.maskDue) (fun _ _ _ _ => rfl) (fun _ _ => rfl) s,
    pickSlot_keeps (fun s => s.mon.stamps) (fun _ _ _ _ => rfl) (fun _ _ => rfl) s⟩

theorem pend_pickSlot (s : State) : s.pickSlot.flag Fields.MON_STAT_MASKPEND 0 = s.flag Fields.MON_STAT_MASKPEND 0 :=
  pickSlot_keeps (fun s => s.flag Fields.MON_STAT_MASKPEND 0) (fun _ _ _ _ => rfl)
    (fun s v => congrArg (· == 1) (State.fld_setFld_other s Fields.MON_STAT_QLEVEL Fields.MON_STAT_MASKPEND 0 0 v (by decide) (by decide))) s

theorem monitor_scanApply_applies :
    ∀ s : State, s.up = true → s.mon.maskDue = true →
    completes .monScanApply s fun t => t.mon.mask = s.scanWritten ∧ t.mon.maskDue = false ∧
      t.flag Fields.MON_STAT_MASKPEND 0 = false ∧ ∀ k : Fin 32, t.reg .MON_RES_A k = 0 ∧ t.mon.stamps[k] = 0 := by
  intro s hup hd
  obtain ⟨hmask, hdue, hst⟩ := applyMask_clears s
  have hpend := pend_applyMask s
  have hzero := result_applyMask s
  have ht : s.maskBoundary = s.applyMask.pickSlot := if_pos hd
  generalize s.applyMask = u at ht hmask hdue hst hpend hzero
  obtain ⟨pmask, pdue, pst⟩ := pickSlot_keeps_mask u
  refine completes_of_detector rfl hup ht ⟨pmask.trans hmask, pdue.trans hdue, (pend_pickSlot u).trans hpend, fun k =>
    ⟨(reg_pickSlot u _ _ (by decide)).trans (hzero k), ?_⟩⟩
  simp [pst, hst]

theorem monitor_scanApply_idle :
    ∀ s : State, s.mon.maskDue = false → completes .monScanApply s fun t => t = s := by
  intro s hd
  have he : s.maskBoundary = s := if_neg (by simp [hd])
  refine ⟨_, rfl, ?_⟩
  rw [State.detector, he]
  exact ite_self s

/-- Settles O41: a conversion by what its slot's end leaves, requests and masks by what the registers' rules make of them. -/
theorem conversionsAndInjections : Obligations.ConversionsAndInjections :=
  ⟨monitor_scanConversion_stores, monitor_checkConversion_raises, monitor_resRead_latches, monitor_injRead_latches, monitor_inject_queues, monitor_inject_refuses, monitor_scanWrite_refuses, monitor_scanWrite_applies, monitor_scanWrite_waits, monitor_scanApply_applies, monitor_scanApply_idle⟩

end Sys2Proof.Machine

namespace Sys2Proof.Machine

/-! ## Power states (R488 to R491) -/

section Power
variable (s : State)

/-- A write of PWR_CMD asks for the target it names. -/
theorem writePwrCmd_target (n : Nat) (h : n < 4) : s.writeReg .PWR_CMD 0 (keyed n) =
    (fun x : WRes => if x.1 = .ok then (.ok, if x.2.power = 1 then x.2 else x.2.plainWrite .PWR_CMD 0 (keyed n)) else x)
      (s.pwrTarget n) := by
  have hn : getBits (keyed n) 0 2 = n := by
    interval_cases n <;> decide
  change s.writePwrCmd (keyed n) = _
  rw [State.writePwrCmd, hn]
  obtain ⟨st, u⟩ := s.pwrTarget n
  cases st <;> rfl

theorem writePwrCmd_ok {n : Nat} {u : State} (h : n < 4) (hu : s.pwrTarget n = (.ok, u)) (h1 : u.power ≠ 1) :
    s.writeReg .PWR_CMD 0 (keyed n) = (.ok, u.plainWrite .PWR_CMD 0 (keyed n)) := by
  rw [writePwrCmd_target s n h, hu]
  simp [h1]

theorem writePwrCmd_refused {n : Nat} {st : WStatus} {u : State} (h : n < 4) (hu : s.pwrTarget n = (st, u)) (hs : st ≠ .ok) :
    s.writeReg .PWR_CMD 0 (keyed n) = (st, u) := by
  rw [writePwrCmd_target s n h, hu]
  simp [hs]

theorem reg_plainWrite_other (r r' : RegName) (i j : Nat) (w : Word) (h : r ≠ r') : (s.plainWrite r i w).reg r' j = s.reg r' j :=
  State.reg_setReg_other _ _ _ _ _ _ fun e => h e.1

/-- The answer of a PWR_CMD, and what the power state reads. -/
theorem power_setResult (v : Nat) : (s.setFld Fields.PWR_STATE_RESULT 0 v).power = s.power :=
  State.fld_setFld_other _ _ _ _ _ _ (by decide) (by decide)

theorem pwrTarget_same {n : Nat} (h : s.power = n) (h3 : n = 2 ∨ n = 3) :
    s.pwrTarget n = (.range, s.setFld Fields.PWR_STATE_RESULT 0 2) := by
  exact (if_neg (by omega)).trans (if_pos (.inr h.symm))

theorem pwrTarget_active (h : s.power = 2) :
    s.pwrTarget 3 = (.ok, State.setFld { s with powering := true } Fields.PWR_STATE_RESULT 0 0) := by
  exact (if_neg (by omega)).trans (if_neg (by omega))

theorem pwrTarget_standby (h : s.power = 3) (hr : s.anyRunning = false) (hb : ∀ r : Fin 2, (s.rasCh r).bound = false) :
    s.pwrTarget 2 = (.ok, (s.activeOff.setFld Fields.PWR_STATE_STATE 0 2).setFld Fields.PWR_STATE_RESULT 0 0) := by
  have hany : ((List.range 2).any fun r => (s.rasCh r).bound) = false := by
    rw [List.any_eq_false]
    intro r hr'
    rw [hb ⟨r, List.mem_range.1 hr'⟩]
    exact Bool.false_ne_true
  refine (if_neg (by omega)).trans ((if_neg (by omega)).trans ?_)
  exact if_neg (by rw [hr, hany]; exact Bool.false_ne_true)

theorem pwrTarget_busy (h : s.power = 3) (hr : s.anyRunning = true) :
    s.pwrTarget 2 = (.busy, s.setFld Fields.PWR_STATE_RESULT 0 1) := by
  refine (if_neg (by omega)).trans ((if_neg (by omega)).trans ?_)
  exact if_pos (by rw [hr]; rfl)

theorem pwrTarget_dormant (h : s.power = 2 ∨ s.power = 3) (hr : s.anyRunning = false) (hb : s.storeBusy = false) :
    s.pwrTarget 1 = (.ok, s.enterDormant) := by
  refine (if_neg (by omega)).trans ((if_neg (by omega)).trans ?_)
  exact if_neg (by rw [hr, hb]; exact Bool.false_ne_true)

/-! ### What the domains of ACTIVE become -/

theorem domain_outOff (o : Fin 32) : ((s.outOff o).out o).domainOn = false := by
  rw [State.outOff, State.out_modOut_self _ _ _ o.isLt]

theorem out_outOff_other {o m : Nat} (h : m ≠ o) : (s.outOff m).out o = s.out o := by
  rw [State.outOff, State.out_modOut_other _ _ _ _ h, out_of_outs (calAbandon_outs s _)]

theorem core_calAbandon (g c : Nat) : (s.calAbandon g).core c = s.core c := congrArg (·[c]?.getD default) (calAbandon_cores s g)

theorem state_coreOff (c : Fin 26) (h : (s.core c).role ≠ .fenced) : ((s.coreOff c).core c).state = .off := by
  rw [State.coreOff, State.core_modCore_self _ _ _ c.isLt, core_calAbandon, if_neg (by simpa using h)]

theorem core_coreOff_other {c m : Nat} (h : m ≠ c) : (s.coreOff m).core c = s.core c := by
  rw [State.coreOff, State.core_modCore_other _ _ _ _ h, core_calAbandon]

theorem outs_coreOff (c : Nat) : (s.coreOff c).outs = s.outs := calAbandon_outs s c

theorem dropAligned_keeps {α : Type} (g : State → α) (n : Nat) (h : g (s.setFld Fields.LNG_TTSTAT_ALIGNED 0 0) = g s) :
    g (s.dropAligned n) = g s := by
  unfold State.dropAligned
  split
  · exact h
  · rfl

theorem state_laneOff (n : Fin 16) : ((s.laneOff n).lane n).state = .off := by
  rw [State.laneOff, State.endLevel_at_lane, State.endLevel_at_lane, State.lane_modLane_self _ _ _ n.isLt, lane_laneTo]

theorem lane_laneOff_other {n k : Nat} (h : k ≠ n) : (s.laneOff k).lane n = s.lane n := by
  rw [State.laneOff, State.endLevel_at_lane, State.endLevel_at_lane, State.lane_modLane_other _ _ _ _ h, State.laneTo,
    State.lane_modLane_other _ _ _ _ h]
  exact dropAligned_keeps s (fun u => u.lane n) k rfl

theorem outs_laneOff (n : Nat) : (s.laneOff n).outs = s.outs := by
  rw [State.laneOff, State.endLevel_outs, State.endLevel_outs, State.modLane_outs, State.laneTo, State.modLane_outs]
  exact dropAligned_keeps s State.outs n rfl

theorem cores_laneOff (n : Nat) : (s.laneOff n).cores = s.cores := by
  rw [State.laneOff, State.endLevel_cores, State.endLevel_cores, State.modLane_cores, State.laneTo, State.modLane_cores]
  exact dropAligned_keeps s State.cores n rfl

/-- The domains that only ACTIVE has on are off (R490). -/
theorem activeOff_off : (∀ o : Fin 32, (s.activeOff.out o).domainOn = false) ∧
    (∀ c : Fin 26, (s.core c).role ≠ .fenced → (s.activeOff.core c).state = .off) ∧
    ∀ n : Fin 16, (s.activeOff.lane n).state = .off := by
  unfold State.activeOff
  extract_lets u v w
  have hv : v.outs = u.outs := State.each_keeps State.outs State.coreOff outs_coreOff u _
  have hw : w.outs = v.outs := State.each_keeps State.outs State.laneOff outs_laneOff v _
  have hwc : w.cores = v.cores := State.each_keeps State.cores State.laneOff cores_laneOff v _
  have huc : u.cores = s.cores := State.each_keeps State.cores State.outOff (fun s o => calAbandon_cores s _) s _
  have ho : ∀ o : Fin 32, ∃ x : State, u.out o = (x.outOff o).out o := fun o =>
    have ⟨x, _, hx⟩ := State.each_once (p := fun u : State => u.out o) (f := State.outOff) (fun s m hm => out_outOff_other s hm) s
      (List.mem_range.2 o.isLt) List.nodup_range
    ⟨x, hx⟩
  have hc : ∀ c : Fin 26, ∃ x : State, x.core c = u.core c ∧ v.core c = (x.coreOff c).core c := fun c =>
    State.each_once (p := fun u : State => u.core c) (f := State.coreOff) (fun s m hm => core_coreOff_other s hm) u
      (List.mem_range.2 c.isLt) List.nodup_range
  have hl : ∀ n : Fin 16, ∃ x : State, w.lane n = (x.laneOff n).lane n := fun n =>
    have ⟨x, _, hx⟩ := State.each_once (p := fun u : State => u.lane n) (f := State.laneOff) (fun s m hm => lane_laneOff_other s hm) v
      (List.mem_range.2 n.isLt) List.nodup_range
    ⟨x, hx⟩
  clear_value w
  clear_value v
  clear_value u
  refine ⟨fun o => ?_, fun c hr => ?_, fun n => ?_⟩
  · obtain ⟨x, hx⟩ := ho o
    exact (congrArg Output.domainOn ((out_of_outs (hw.trans hv) o).trans hx)).trans (domain_outOff x o)
  · obtain ⟨x, hxu, hx⟩ := hc c
    have hxs : x.core c = s.core c := hxu.trans (congrArg (·[c.val]?.getD default) huc)
    have hwv : w.core c = v.core c := congrArg (·[c.val]?.getD default) hwc
    exact (congrArg Core.state (hwv.trans hx)).trans (state_coreOff x c (hxs ▸ hr))
  · obtain ⟨x, hx⟩ := hl n
    exact (congrArg Lane.state hx).trans (state_laneOff x n)

/-- What switching units on leaves, beside cores, outputs and lanes. -/
theorem activeOn_keeps {α : Type} (g : State → α) (hc : ∀ (s : State) c f, g (s.modCore c f) = g s)
    (ho : ∀ (s : State) o f, g (s.modOut o f) = g s) (hl : ∀ (s : State) n f, g (s.modLane n f) = g s) : g s.activeOn = g s := by
  unfold State.activeOn
  extract_lets u v
  have hlane : ∀ (s : State) n, g (s.laneOn_ n) = g s := fun s n => by
    unfold State.laneOn_
    split
    · rfl
    · exact (hl _ _ _).trans (hl _ _ _)
  exact ((State.each_keeps g State.laneOn_ hlane v _).trans
    (State.each_keeps g _ (fun s o => (ho _ _ _).trans (ho _ _ _)) u _)).trans (State.each_keeps g _ (fun s c => hc _ _ _) s _)

/-- An output that its enable bit turns on has its domain on. -/
theorem activeOn_out (o : Fin 32) (hen : s.flag Fields.OUT_CFG_EN o = true) (hf : (s.out o).fenced = false) :
    (s.activeOn.out o).domainOn = true := by
  unfold State.activeOn
  extract_lets u v
  have hlane : ∀ (s : State) n, (s.laneOn_ n).outs = s.outs := fun s n => by
    unfold State.laneOn_
    split <;> rfl
  have hu : u.out o = s.out o := out_of_outs (State.each_keeps State.outs _ (fun s c => State.modCore_outs ..) s _) o
  have hur : u.regs = s.regs := State.each_keeps State.regs _ (fun s c => State.modCore_regs ..) s _
  have hv : ∃ x : State, v.out o = ((x.modOut o fun y => { y with domainOn := true, readyAt := none, driveAt := x.elapsed }).outBoundary o).out o := by
    have hue : u.flag Fields.OUT_CFG_EN o = true := (flag_of_reg (f := Fields.OUT_CFG_EN) (congrArg (fun g => g.get .OUT_CFG o.val) hur)).trans hen
    obtain ⟨x, -, hx⟩ := State.each_once (p := fun u : State => u.out o)
      (f := fun s o => (s.modOut o fun x => { x with domainOn := true, readyAt := none, driveAt := s.elapsed }).outBoundary o)
      (l := (List.range 32).filter fun o => u.flag Fields.OUT_CFG_EN o && !(u.out o).fenced) (k := o.val)
      (fun s m hm => (State.out_modOut_other _ _ _ _ hm).trans (State.out_modOut_other _ _ _ _ hm)) u
      (List.mem_filter.2 ⟨List.mem_range.2 o.isLt, by rw [hue, hu, hf]; rfl⟩) (List.nodup_range.filter _)
    exact ⟨x, hx⟩
  have hw := out_of_outs (State.each_keeps State.outs State.laneOn_ hlane v ((List.range 16).filter fun n => v.flag Fields.LN_CFG_EN n)) o
  clear_value v
  obtain ⟨x, hx⟩ := hv
  rw [hw, hx, State.outBoundary, State.out_modOut_self _ _ _ o.isLt, State.out_modOut_self _ _ _ o.isLt]

end Power

/-! ## The barrow (R484 to R486) -/

section BarrowSamples
variable (s : State)

/-- The filtered value of an input, and when the barrow sampled. -/
def State.barTaken (s : State) (i : Nat) : Int × Bool × Nat := ((s.barIn i).y, s.bar.sampled, s.bar.periodFrom)

theorem barTaken_of_bar {s t : State} (h : t.bar = s.bar) (i : Nat) : t.barTaken i = s.barTaken i :=
  congrArg (fun b : Barrow => ((b.ins[i]?.getD default).y, b.sampled, b.periodFrom)) h

/-- An input whose alert is marked keeps its value. -/
theorem barTaken_alerted (i k : Nat) (v : Bool) :
    State.barTaken { s with bar := { s.bar with ins := s.bar.ins.setIfInBounds k { s.barIn k with alerted := v } } } i = s.barTaken i := by
  refine Prod.ext ?_ rfl
  change (((s.bar.ins.setIfInBounds k { s.barIn k with alerted := v })[i]?).getD default).y = (s.barIn i).y
  rw [Vector.getElem?_setIfInBounds]
  by_cases h : k = i
  · subst h
    by_cases hk : k < 20
    · simp [hk]
    · simp [hk, State.barIn]
  · rw [if_neg h]
    rfl

theorem bar_raiseAlert (i : Nat) : (s.raiseAlert i).bar = s.bar := by
  unfold State.raiseAlert
  split
  · exact RecordBlind.beginLevel ⟨fun _ _ _ => rfl, fun _ _ => rfl, fun _ _ => rfl⟩ s _ 0
  · exact raiseEvent_keeps State.bar s _ 0 fun _ _ => rfl

/-- The alerts of a sample leave the values and the time of the sample. -/
theorem barTaken_barAlerts (i : Nat) : s.barAlerts.barTaken i = s.barTaken i := by
  have hlevel : ∀ (u : State) (f : Bool) a, State.barTaken (if f then u else u.endLevel a) i = u.barTaken i := fun u f a => by
    split
    · rfl
    · exact barTaken_of_bar (State.endLevel_bar ..) i
  unfold State.barAlerts
  extract_lets u
  have hu : u.barTaken i = s.barTaken i := by
    refine State.each_keeps (fun u : State => u.barTaken i) _ (fun s k => ?_) s (List.range 20)
    extract_lets b put
    have hput : ∀ v, (put s v).barTaken i = s.barTaken i := fun v => barTaken_alerted s i k v
    split
    · exact hput false
    · split
      · exact (barTaken_of_bar (bar_raiseAlert ..) i).trans (hput true)
      · rfl
  clear_value u
  exact ((hlevel _ _ _).trans (hlevel _ _ _)).trans hu

/-- The inputs after a sample. -/
def State.barInputs (s : State) (an : List Int) (refs : BitVec 4) (xo : BitVec 2) (lanes : BitVec 16) (svc : Bool) : Vector BarIn 20 :=
  Vector.ofFn fun i => if i.val < 11 then s.barAnalogue i.val (an.getD i.val 0) else s.barDigital i.val
    (if i.val < 15 then refs.getLsbD (i.val - 11)
      else if i.val < 17 then xo.getLsbD (i.val - 15)
      else if i.val = 17 then lanes &&& BitVec.ofNat 16 (s.fld Fields.BAR_LANEMASK_MASK 0) != 0
      else if i.val = 18 then svc else s.barTimer)

/-- The barrow once it has sampled. -/
def State.barNoted (s : State) (ins : Vector BarIn 20) : State :=
  { s with bar := { s.bar with ins := ins, sampled := true, periodFrom := s.elapsed } }

/-- The inputs that hold their condition and are in a mask of the barrow. -/
def State.barOn (s : State) (r : RegName) : List Nat := (List.range 20).filter fun i => (s.barIn i).cond && bitOf (s.reg r 0) i

variable (an : List Int) (refs : BitVec 4) (xo : BitVec 2) (lanes : BitVec 16) (svc : Bool)

theorem barIn_barNoted (i : Fin 11) : (s.barNoted (s.barInputs an refs xo lanes svc)).barIn i = s.barAnalogue i (an.getD i 0) := by
  change ((s.barInputs an refs xo lanes svc)[i.val]?).getD default = _
  rw [Vector.getElem?_eq_getElem (by omega), State.barInputs, Vector.getElem_ofFn, if_pos i.isLt]
  rfl

/-- What the barrow does with a sample: in DORMANT it may start the device, else it alerts. -/
def State.barJudged (u : State) : State :=
  if u.power = 1 then
    if (u.barOn .BAR_WAKEEN).isEmpty || !((u.barOn .BAR_INHIB).filter fun i => decide (i ≤ 10)).isEmpty then u
    else (u.restart 1).setFld Fields.BAR_WAKECAUSE_INPUTS 0 ((u.barOn .BAR_WAKEEN).map (2 ^ ·)).sum
  else u.barAlerts

theorem barrowSample_eq : s.barrowSample an refs xo lanes svc =
    if !s.barSamples || decide (s.elapsed < s.bar.periodFrom + max 1 (s.fld Fields.BAR_CFG_PERIOD 0) * 450000) then s
    else (s.barNoted (s.barInputs an refs xo lanes svc)).barJudged := rfl

theorem barrowSample_early (h : s.elapsed < s.bar.periodFrom + max 1 (s.fld Fields.BAR_CFG_PERIOD 0) * 450000) :
    s.barrowSample an refs xo lanes svc = s := by
  rw [barrowSample_eq, if_pos (by simp [h])]

section Due
variable (hs : s.barSamples = true) (hd : s.bar.periodFrom + max 1 (s.fld Fields.BAR_CFG_PERIOD 0) * 450000 ≤ s.elapsed)
include hs hd

theorem barrowSample_due : s.barrowSample an refs xo lanes svc = (s.barNoted (s.barInputs an refs xo lanes svc)).barJudged := by
  rw [barrowSample_eq, if_neg (by simp [hs, hd])]

end Due

theorem barJudged_awake (h : s.power ≠ 1) : s.barJudged = s.barAlerts := if_neg h

theorem barJudged_wakes (h : s.power = 1) (hw : s.barOn .BAR_WAKEEN ≠ [])
    (hi : (s.barOn .BAR_INHIB).filter (fun i => decide (i ≤ 10)) = []) :
    s.barJudged = (s.restart 1).setFld Fields.BAR_WAKECAUSE_INPUTS 0 ((s.barOn .BAR_WAKEEN).map (2 ^ ·)).sum := by
  rw [State.barJudged, if_pos h, hi, if_neg (by simpa using hw)]

theorem barSamples_active (hs : s.barSamples = true) : (s.pins.aon && !s.reloads.contains 3) = true := by
  simp only [State.barSamples, Bool.and_eq_true] at hs
  obtain ⟨⟨⟨ha, -⟩, hr⟩, -⟩ := hs
  rw [ha, hr]
  rfl

theorem wake_bar : (s.restart 1).bar = s.bar ∧ (s.restart 1).boot.kind = 1 := by
  rw [restart_wake, keepBarrow_eq, State.startKind]
  simp only [State.setFld_bar, State.setFld_boot]
  exact ⟨trivial, rfl⟩

end BarrowSamples

end Sys2Proof.Machine

namespace Sys2Proof.Machine

/-! ## Commands of the power states -/

section PowerCommands
variable {s u : State} {c : Instr} {n : Nat} {P : State → Prop}

theorem keyed_unlocks (h : n < 4) : ((regSpec .PWR_CMD).wk && getBits (keyed n) 24 8 != 0xA5) = false := by
  interval_cases n <;> decide

/-- A PWR_CMD that is accepted leaves its target's state, with PWR_CMD stored. -/
theorem pwr_completes (hx : exec c s = .next (s.portWrite (regAddr .PWR_CMD 0) (keyed n))) (h : s.serves = true) (hn : n < 4)
    (hu : s.pwrTarget n = (.ok, u)) (h1 : u.power ≠ 1)
    (hP : ∀ rg fl st, (∀ r j, r ≠ .PWR_CMD → ({ u with regs := rg } : State).reg r j = u.reg r j) →
      P { u with regs := rg, fleet := fl, store := st, hwRel := s.now, hspi := { u.hspi with lastw := 0 } }) : completes c s P :=
  completes_of_write hx h (by decide) (by decide) (keyed_unlocks hn) (writePwrCmd_ok s hn hu h1) fun fl st =>
    hP (u.plainWrite .PWR_CMD 0 (keyed n)).regs fl st fun r j hr => reg_plainWrite_other u .PWR_CMD r 0 j _ hr.symm

/-- A PWR_CMD that is refused changes the answer alone. -/
theorem pwr_refused (hx : exec c s = .next (s.portWrite (regAddr .PWR_CMD 0) (keyed n))) (h : s.serves = true) (hn : n < 4)
    {st : WStatus} {v : Nat} (hu : s.pwrTarget n = (st, s.setFld Fields.PWR_STATE_RESULT 0 v)) (h1 : st ≠ .ok) (h2 : st ≠ .keyerr) :
    completes c s fun t => t.refusedWith st ∧ t.power = s.power ∧ t.powering = s.powering ∧ t.cores = s.cores ∧ t.outs = s.outs := by
  have hp := power_setResult s v
  have hk : (s.setFld Fields.PWR_STATE_RESULT 0 v).powering = s.powering ∧ (s.setFld Fields.PWR_STATE_RESULT 0 v).cores = s.cores ∧
    (s.setFld Fields.PWR_STATE_RESULT 0 v).outs = s.outs := ⟨rfl, rfl, rfl⟩
  have hw := writePwrCmd_refused s hn hu h1
  generalize s.setFld Fields.PWR_STATE_RESULT 0 v = u at hw hp hk
  exact completes_of_refusal hx h (by decide) (by decide) (keyed_unlocks hn) hw h1 h2 fun rg sk hs href hreg =>
    ⟨href, (fld_of_reg (f := Fields.PWR_STATE_STATE) (hreg .PWR_STATE 0 (by decide))).trans hp, hk⟩

end PowerCommands

theorem completes_imp {c : Instr} {s : State} {P Q : State → Prop} (h : completes c s P) (hi : ∀ t, P t → Q t) : completes c s Q :=
  have ⟨t, he, ht⟩ := h
  ⟨t, he, hi t ht⟩

/-- A state whose register is another's keeps that when another of the other's registers is copied to it. -/
theorem reg_copied {s u : State} {r : RegName} {i : Nat} (r' : RegName) (j : Nat) (h : u.reg r i = s.reg r i) :
    (u.setReg r' j (s.reg r' j)).reg r i = s.reg r i := by
  by_cases e : r' = r ∧ j = i
  · obtain ⟨rfl, rfl⟩ := e
    exact State.reg_setReg_self ..
  · exact (State.reg_setReg_other _ _ _ _ _ _ e).trans h

theorem reg_copied_foldl {s : State} {r : RegName} {i : Nat} (l : List RegName) (u : State) (h : u.reg r i = s.reg r i) :
    (l.foldl (fun u r' => u.setReg r' 0 (s.reg r' 0)) u).reg r i = s.reg r i := by
  induction l generalizing u with
  | nil => exact h
  | cons r' l ih => exact ih _ (reg_copied r' 0 h)

theorem copied_foldl {α : Type} (g : State → α) (hg : ∀ (u : State) r i w, g (u.setReg r i w) = g u) {s : State} (l : List RegName) (u : State) :
    g (l.foldl (fun u r' => u.setReg r' 0 (s.reg r' 0)) u) = g u := by
  induction l generalizing u with
  | nil => rfl
  | cons r' l ih => exact (ih _).trans (hg ..)

/-- What the device is in DORMANT before the barrow's registers are put back. -/
def State.dormantBase (s : State) : State :=
  { State.reset with
    pending := s.pending, elapsed := s.elapsed, flash := s.storeCut.flash, otp := s.otp, pins := s.pins
    bar := { s.bar with periodFrom := s.elapsed, dormantAt := s.elapsed } }

/-- The barrow's configuration registers. -/
def barrowCfg : List RegName := [.BAR_WAKEEN, .BAR_INHIB, .BAR_ALERTEN, .BAR_WAKECAUSE, .BAR_TIMER, .BAR_LANEMASK, .BAR_FWVER]

/-- A state with the barrow's configuration of another. -/
def State.withBarrow (u s : State) : State :=
  (barrowCfg.foldl (fun u r => u.setReg r 0 (s.reg r 0)) (u.setReg .BAR_CFG 0 (s.reg .BAR_CFG 0))).each (List.range 20)
    fun u i => (u.setReg .BAR_IN_CFG i (s.reg .BAR_IN_CFG i)).setReg .BAR_IN_STAT i (s.reg .BAR_IN_STAT i)

theorem enterDormant_eq (s : State) :
    s.enterDormant = ((s.dormantBase.withBarrow s).setFld Fields.PWR_STATE_STATE 0 1).setFld Fields.PWR_STATE_RESULT 0 0 := rfl

theorem reg_withBarrow (u s : State) : (u.withBarrow s).reg .BAR_CFG 0 = s.reg .BAR_CFG 0 :=
  (State.each_keeps (fun u : State => u.reg .BAR_CFG 0) _ (fun u i =>
    (State.reg_setReg_other _ _ _ _ _ _ fun e => by cases e.1).trans (State.reg_setReg_other _ _ _ _ _ _ fun e => by cases e.1)) _ _).trans
    (reg_copied_foldl barrowCfg _ (State.reg_setReg_self ..))

theorem withBarrow_keeps {α : Type} (g : State → α) (hg : ∀ (u : State) r i w, g (u.setReg r i w) = g u) (u s : State) :
    g (u.withBarrow s) = g u :=
  (State.each_keeps g _ (fun u i => (hg _ _ _ _).trans (hg _ _ _ _)) _ _).trans ((copied_foldl g hg barrowCfg _).trans (hg _ _ _ _))

theorem active_storeCut (s : State) : s.storeCut.flash.active = s.flash.active := by
  unfold State.storeCut
  split <;> rfl

theorem dormantBase_keeps (s : State) : s.dormantBase.bar.ins = s.bar.ins ∧ s.dormantBase.stations = State.reset.stations ∧
    s.dormantBase.profs = [] ∧ s.dormantBase.flash.active = s.flash.active := ⟨rfl, rfl, rfl, active_storeCut s⟩

/-- What PWR_DORMANT leaves: the barrow's domain, and the rest as reset. -/
theorem enterDormant_keeps (s : State) : s.enterDormant.power = 1 ∧ s.enterDormant.bar.ins = s.bar.ins ∧
    s.enterDormant.reg .BAR_CFG 0 = s.reg .BAR_CFG 0 ∧ s.enterDormant.stations = State.reset.stations ∧ s.enterDormant.profs = [] ∧
    s.enterDormant.flash.active = s.flash.active := by
  obtain ⟨hi, hs, hp, hf⟩ := dormantBase_keeps s
  have hcfg := reg_withBarrow s.dormantBase s
  have hins := (withBarrow_keeps (fun u => u.bar.ins) (fun _ _ _ _ => rfl) s.dormantBase s).trans hi
  have hst := (withBarrow_keeps State.stations (fun _ _ _ _ => rfl) s.dormantBase s).trans hs
  have hpr := (withBarrow_keeps State.profs (fun _ _ _ _ => rfl) s.dormantBase s).trans hp
  have hfl := (withBarrow_keeps (fun u => u.flash.active) (fun _ _ _ _ => rfl) s.dormantBase s).trans hf
  rw [enterDormant_eq]
  generalize s.dormantBase.withBarrow s = u at hcfg hins hst hpr hfl
  refine ⟨(power_setResult _ 0).trans (State.fld_setFld_self _ _ 0 1 (by decide)), hins, ?_, hst, hpr, hfl⟩
  exact ((reg_setFld_ne _ _ _ _ _ _ (by decide)).trans (reg_setFld_ne _ _ _ _ _ _ (by decide))).trans hcfg

theorem barNoted_facts (s : State) (ins : Vector BarIn 20) : (s.barNoted ins).power = s.power ∧ (s.barNoted ins).bar.sampled = true ∧
    (s.barNoted ins).bar.periodFrom = s.elapsed ∧ ∀ r i, (s.barNoted ins).reg r i = s.reg r i := ⟨rfl, rfl, rfl, fun _ _ => rfl⟩

theorem power_pwrActive_powers :
    ∀ s : State, s.serves = true → s.power = 2 → completes .pwrActive s fun t => t.powering = true ∧ t.power = 2 ∧ s.wrote t ∧
    t.fld Fields.PWR_STATE_RESULT 0 = 0 ∧ t.cores = s.cores ∧ t.outs = s.outs := by
  intro s h hp
  refine pwr_completes rfl h (by decide) (pwrTarget_active s hp) ?_ fun rg fl st hreg => ?_
  · rw [power_setResult]
    change s.power ≠ 1
    omega
  · refine ⟨rfl, ?_, ⟨rfl, rfl⟩, ?_, rfl, rfl⟩
    · exact (fld_of_reg (f := Fields.PWR_STATE_STATE) (hreg .PWR_STATE 0 (by decide))).trans ((power_setResult _ 0).trans hp)
    · exact (fld_of_reg (f := Fields.PWR_STATE_RESULT) (hreg .PWR_STATE 0 (by decide))).trans (State.fld_setFld_self _ _ 0 0 (by decide))

theorem power_pwrActive_refused :
    ∀ s : State, s.serves = true → s.power = 3 → completes .pwrActive s fun t => t.refusedWith .range ∧ t.power = 3 ∧
    t.powering = s.powering := by
  intro s h hp
  exact completes_imp (pwr_refused rfl h (by decide) (pwrTarget_same s hp (.inr rfl)) (by decide) (by decide))
    fun t ⟨href, hpow, hpg, _⟩ => ⟨href, hpow.trans hp, hpg⟩

theorem power_domainsReady_activates :
    ∀ s : State, s.halted = false → s.powering = true → s.power = 2 →
    completes .pwrDomainsReady s fun t => t.power = 3 ∧ t.powering = false ∧
      ∀ o : Fin 32, s.flag Fields.OUT_CFG_EN o = true → (s.out o).fenced = false → (t.out o).domainOn = true := by
  intro s hh hpg hp
  have ht : s.domainsReady = (State.setFld { s with powering := false } Fields.PWR_STATE_STATE 0 3).activeOn :=
    if_pos (by rw [hpg, hp]; rfl)
  have hpow : (State.setFld { s with powering := false } Fields.PWR_STATE_STATE 0 3).power = 3 :=
    State.fld_setFld_self _ _ 0 3 (by decide)
  have hen : ∀ o, (State.setFld { s with powering := false } Fields.PWR_STATE_STATE 0 3).flag Fields.OUT_CFG_EN o = s.flag Fields.OUT_CFG_EN o :=
    fun o => flag_of_reg (f := Fields.OUT_CFG_EN) (reg_setFld_ne _ _ _ _ _ _ (by decide))
  have hout : ∀ o, (State.setFld { s with powering := false } Fields.PWR_STATE_STATE 0 3).out o = s.out o := fun _ => rfl
  have hpow' : (State.setFld { s with powering := false } Fields.PWR_STATE_STATE 0 3).powering = false := rfl
  generalize State.setFld { s with powering := false } Fields.PWR_STATE_STATE 0 3 = u at ht hpow hen hout hpow'
  refine ⟨u.activeOn, ?_, ?_, ?_, fun o ho hf => ?_⟩
  · change Host.Outcome.next _ = _
    rw [hh, if_neg (by decide), ht]
  · exact (activeOn_keeps u State.power (fun _ _ _ => rfl) (fun _ _ _ => rfl) fun _ _ _ => rfl).trans hpow
  · exact (activeOn_keeps u State.powering (fun _ _ _ => rfl) (fun _ _ _ => rfl) fun _ _ _ => rfl).trans hpow'
  · exact activeOn_out u o ((hen o).trans ho) ((congrArg Output.fenced (hout o)).trans hf)

theorem power_domainsReady_idle :
    ∀ s : State, s.powering = false → completes .pwrDomainsReady s fun t => t = s := by
  intro s hpg
  refine ⟨s, ?_, rfl⟩
  have ht : s.domainsReady = s := if_neg (by simp [hpg])
  change Host.Outcome.next _ = _
  rw [ht, ite_self]

theorem power_pwrStandby_off :
    ∀ s : State, s.serves = true → s.power = 3 → s.anyRunning = false → (∀ r : Fin 2, (s.rasCh r).bound = false) →
    completes .pwrStandby s fun t => t.power = 2 ∧ s.wrote t ∧ (∀ o : Fin 32, (t.out o).domainOn = false) ∧
      (∀ c : Fin 26, (s.core c).role ≠ .fenced → (t.core c).state = .off) ∧ ∀ n : Fin 16, (t.lane n).state = .off := by
  intro s h hp hr hb
  obtain ⟨ho, hc, hl⟩ := activeOff_off s
  have hu := pwrTarget_standby s hp hr hb
  generalize s.activeOff = a at ho hc hl hu
  have hpow : ((a.setFld Fields.PWR_STATE_STATE 0 2).setFld Fields.PWR_STATE_RESULT 0 0).power = 2 :=
    (power_setResult _ 0).trans (State.fld_setFld_self _ _ 0 2 (by decide))
  refine pwr_completes rfl h (by decide) hu (by omega) fun rg fl st hreg => ⟨?_, ⟨rfl, rfl⟩, ho, hc, hl⟩
  exact (fld_of_reg (f := Fields.PWR_STATE_STATE) (hreg .PWR_STATE 0 (by decide))).trans hpow

theorem power_pwrStandby_busy :
    ∀ s : State, s.serves = true → s.power = 3 → s.anyRunning = true →
    completes .pwrStandby s fun t => t.refusedWith .busy ∧ t.power = 3 ∧ t.cores = s.cores ∧ t.outs = s.outs := by
  intro s h hp hr
  exact completes_imp (pwr_refused rfl h (by decide) (pwrTarget_busy s hp hr) (by decide) (by decide))
    fun t ⟨href, hpow, _, hc, ho⟩ => ⟨href, hpow.trans hp, hc, ho⟩

theorem power_pwrDormant_enters :
    ∀ s : State, s.serves = true → (s.power = 2 ∨ s.power = 3) → s.anyRunning = false → s.storeBusy = false →
    completes .pwrDormant s fun t => t.power = 1 ∧ t.bar.ins = s.bar.ins ∧ t.reg .BAR_CFG 0 = s.reg .BAR_CFG 0 ∧
      t.stations = State.reset.stations ∧ t.profs = [] ∧ t.flash.active = s.flash.active := by
  intro s h hp hr hb
  have hk := enterDormant_keeps s
  have hw : s.writeReg .PWR_CMD 0 (keyed 1) = (.ok, s.enterDormant) := by
    rw [writePwrCmd_target s 1 (by decide), pwrTarget_dormant s hp hr hb]
    simp [hk.1]
  generalize s.enterDormant = u at hk hw
  exact completes_of_write rfl h (by decide) (by decide) (keyed_unlocks (by decide)) hw fun fl st => hk

theorem power_barrowSample_filters :
    ∀ (s : State) (an : List Int) (refs : BitVec 4) (xo : BitVec 2) (lanes : BitVec 16) (svc : Bool), s.barSamples = true →
    s.power ≠ 1 → s.bar.periodFrom + max 1 (s.fld Fields.BAR_CFG_PERIOD 0) * 450000 ≤ s.elapsed →
    completes (.barrowSample an refs xo lanes svc) s fun t => t.bar.sampled = true ∧ t.bar.periodFrom = s.elapsed ∧
      ∀ i : Fin 11, (t.barIn i).y = if s.bar.sampled
        then (s.barIn i).y + (an.getD i 0 * 256 - (s.barIn i).y) / 2 ^ getBits (s.reg .BAR_IN_CFG i) 28 3
        else an.getD i 0 * 256 := by
  intro s an refs xo lanes svc hs h1 hd
  obtain ⟨hpow, hsam, hper, -⟩ := barNoted_facts s (s.barInputs an refs xo lanes svc)
  have hin := barIn_barNoted s an refs xo lanes svc
  have ht := barrowSample_due s an refs xo lanes svc hs hd
  generalize s.barNoted (s.barInputs an refs xo lanes svc) = u at ht hpow hsam hper hin
  have hb : ∀ i : Fin 11, (s.barrowSample an refs xo lanes svc).barTaken i =
      ((s.barAnalogue i (an.getD i 0)).y, true, s.elapsed) := fun i => by
    rw [ht, barJudged_awake u (hpow ▸ h1), barTaken_barAlerts, State.barTaken, hin i, hsam, hper]
  refine ⟨s.barrowSample an refs xo lanes svc, ?_, ?_, ?_, fun i => congrArg (·.1) (hb i)⟩
  · exact congrArg Host.Outcome.next (if_pos (barSamples_active s hs))
  · exact congrArg (·.2.1) (hb 0)
  · exact congrArg (·.2.2) (hb 0)

theorem power_barrowSample_starts :
    ∀ (s : State) (an : List Int) (refs : BitVec 4) (xo : BitVec 2) (lanes : BitVec 16) (svc : Bool) (i : Fin 11),
    s.barSamples = true → s.power = 1 → s.bar.periodFrom + max 1 (s.fld Fields.BAR_CFG_PERIOD 0) * 450000 ≤ s.elapsed →
    (s.barAnalogue i (an.getD i 0)).cond = true → bitOf (s.reg .BAR_WAKEEN 0) i = true →
    (∀ j : Fin 11, bitOf (s.reg .BAR_INHIB 0) j = false) →
    completes (.barrowSample an refs xo lanes svc) s fun t => t.power = 2 ∧ t.startStage = 0 ∧ t.boot.kind = 1 ∧
      t.fld Fields.BAR_WAKECAUSE_KIND 0 = 1 ∧ t.bar.sampled = true := by
  intro s an refs xo lanes svc i hs h1 hd hc hw hi
  obtain ⟨hpow, hsam, -, hreg⟩ := barNoted_facts s (s.barInputs an refs xo lanes svc)
  have hin := barIn_barNoted s an refs xo lanes svc
  have hdue := barrowSample_due s an refs xo lanes svc hs hd
  generalize s.barNoted (s.barInputs an refs xo lanes svc) = u at hdue hpow hsam hin hreg
  have hon : u.barOn .BAR_WAKEEN ≠ [] := by
    refine List.ne_nil_of_mem (a := i.val) (List.mem_filter.2 ⟨List.mem_range.2 (by omega), ?_⟩)
    rw [hin, hc, hreg]
    exact hw
  have hnone : (u.barOn .BAR_INHIB).filter (fun i => decide (i ≤ 10)) = [] := by
    rw [List.filter_eq_nil_iff]
    intro j hj hle
    have hb := (List.mem_filter.1 hj).2
    rw [Bool.and_eq_true, hreg] at hb
    exact Bool.false_ne_true ((hi ⟨j, Nat.lt_succ_of_le (of_decide_eq_true hle)⟩).symm.trans hb.2)
  have ht := hdue.trans (barJudged_wakes u (hpow.trans h1) hon hnone)
  obtain ⟨hbar, hkind⟩ := wake_bar u
  refine ⟨_, congrArg Host.Outcome.next ((if_pos (barSamples_active s hs)).trans ht), ?_, ?_, hkind, ?_, ?_⟩
  · exact (fld_of_reg (f := Fields.PWR_STATE_STATE) (reg_setFld_ne _ _ _ _ _ _ (by decide))).trans (power_restart u 1)
  · exact (fld_of_reg (f := Fields.STORE_START_STAGE) (reg_setFld_ne _ _ _ _ _ _ (by decide))).trans (stage_restart u 1)
  · rw [State.fld_setFld_other _ _ _ _ _ _ (by decide) (by decide), restart_wake]
    exact (kind_startKind _ 1 (by decide)).2
  · exact (congrArg Barrow.sampled hbar).trans hsam

theorem power_barrowSample_waits :
    ∀ (s : State) (an : List Int) (refs : BitVec 4) (xo : BitVec 2) (lanes : BitVec 16) (svc : Bool),
    s.elapsed < s.bar.periodFrom + max 1 (s.fld Fields.BAR_CFG_PERIOD 0) * 450000 →
    completes (.barrowSample an refs xo lanes svc) s fun t => t = s := by
  intro s an refs xo lanes svc h
  refine ⟨s, ?_, rfl⟩
  change Host.Outcome.next _ = _
  rw [barrowSample_early s an refs xo lanes svc h, ite_self]

/-- Settles O42: a command of the power states by what its target does, a sample by what the barrow makes of its inputs. -/
theorem powerAndTheBarrow : Obligations.PowerAndTheBarrow :=
  ⟨power_pwrActive_powers, power_pwrActive_refused, power_domainsReady_activates, power_domainsReady_idle, power_pwrStandby_off, power_pwrStandby_busy, power_pwrDormant_enters, power_barrowSample_filters, power_barrowSample_starts, power_barrowSample_waits⟩

end Sys2Proof.Machine

namespace Sys2Proof.Machine

/-! ## The host port's turn -/

section PortTurn
variable {s t u : State}

/-- What decides whether a host write is released at the present tick. -/
def State.portKey (s : State) : (Bool × Bool × Bool × Word × Word × Word) × List SyncDue × Count × List SchedWrite × List Change :=
  ((s.pins.aon, s.halted, s.stepped, s.reg .PWR_STATE 0, s.reg .STORE_START 0, s.reg .TIME_STATE 0), s.syncDue, s.count, s.sched,
    s.fleet.changes)

theorem serves_of_portKey (h : t.portKey = s.portKey) : t.serves = s.serves := by
  simp only [State.portKey, Prod.mk.injEq] at h
  obtain ⟨⟨haon, hhalt, hstep, hpow, hstart, htime⟩, hsync, hcount, hsched, hchg⟩ := h
  have hp : t.power = s.power := fld_of_reg (f := Fields.PWR_STATE_STATE) hpow
  have hst : t.startStage = s.startStage := fld_of_reg (f := Fields.STORE_START_STAGE) hstart
  have hts : t.timeSrc = s.timeSrc := fld_of_reg (f := Fields.TIME_STATE_SRC) htime
  have htc : t.cond = s.cond := fld_of_reg (f := Fields.TIME_STATE_COND) htime
  have hn : t.now = s.now := congrArg BitVec.toNat hcount
  have hd : t.dueWrites = s.dueWrites := by rw [State.dueWrites, State.dueWrites, hsched, hchg, hn]
  rw [State.serves, State.serves, State.hostServes, State.hostServes, State.itsTurn, State.itsTurn, State.counting, State.counting,
    haon, hhalt, hstep, hp, hst, hts, htc, hsync, hn, hd]

/-- What the store and the fleet block keep of a write, and when it was released, beside what its rule leaves. -/
structure State.savedAs (u v : State) (now : Nat) : Prop where
  form : ∃ fl st, v = { u with fleet := fl, store := st, hwRel := now }
  key : v.portKey = u.portKey

theorem changes_noteSet (s old : State) : (s.noteSet old).fleet.changes = s.fleet.changes := by
  unfold State.noteSet
  split <;> rfl

theorem changes_enterSaved (s : State) (r : RegName) (i : Nat) (w : Word) : (s.enterSaved r i w).fleet.changes = s.fleet.changes := by
  unfold State.enterSaved State.setEnter
  split
  · split <;> rfl
  · split <;> rfl

/-- An accepted write leaves what its rule leaves, saved. -/
theorem hostWrite_saved {r : RegName} {i : Nat} {w : Word} (h : s.serves = true) (hp : placed r i = true)
    (hk : ((regSpec r).wk && getBits w 24 8 != 0xA5) = false) (hw : s.writeReg r i w = (.ok, u)) :
    ∃ v, s.hostWrite (regAddr r i) w = (.ok, v) ∧ u.savedAs v s.now := by
  obtain ⟨fl, st, he⟩ := enterSaved_form u r i w
  obtain ⟨fl', hn⟩ := noteSet_form (u.enterSaved r i w) s
  have hc : fl'.changes = u.fleet.changes := calc
    fl'.changes = ((u.enterSaved r i w).noteSet s).fleet.changes := by rw [hn]
    _ = u.fleet.changes := (changes_noteSet ..).trans (changes_enterSaved ..)
  refine ⟨_, hostWrite_accepted h hp hk hw, ?_⟩
  rw [hn, he]
  exact ⟨⟨fl', st, rfl⟩, by rw [State.portKey, hc]; rfl⟩

end PortTurn

/-! ## The expert writes of a command (R622) -/

section ExpertWrites
variable {s t u : State} {r : RegName} {i : Nat} {w : Word} {l : List (Nat × Word)}

/-- The first of a command's writes is released, and the rest follow it. -/
theorem expertWrites_next (h : s.serves = true) (hp : placed r i = true) (hk : ((regSpec r).wk && getBits w 24 8 != 0xA5) = false)
    (hw : s.writeReg r i w = (.ok, u)) : ∃ v, s.expertWrites ((regAddr r i, w) :: l) = v.expertWrites l ∧ u.savedAs v s.now := by
  obtain ⟨v, hv, hs⟩ := hostWrite_saved h hp hk hw
  exact ⟨v, by rw [State.expertWrites, hv], hs⟩

theorem expertWrites_one (h : s.serves = true) (hp : placed r i = true) (hk : ((regSpec r).wk && getBits w 24 8 != 0xA5) = false)
    (hw : s.writeReg r i w = (.ok, u)) : ∃ v, s.expertWrites [(regAddr r i, w)] = (.ok, v) ∧ u.savedAs v s.now := by
  obtain ⟨v, hv, hs⟩ := expertWrites_next (l := []) h hp hk hw
  exact ⟨v, hv, hs⟩

/-- A write that is refused ends the writes of its command. -/
theorem expertWrites_refused {st : WStatus} (h : s.serves = true) (hp : placed r i = true)
    (hk : ((regSpec r).wk && getBits w 24 8 != 0xA5) = false) (hw : s.writeReg r i w = (st, u)) (h1 : st ≠ .ok) (h2 : st ≠ .keyerr) :
    s.expertWrites ((regAddr r i, w) :: l) = (st, u) := by
  have ha : s.writeAt (regAddr r i) w = (st, u) := by
    rw [writeAt_placed s r i w h hp hk, hw]
    cases st with
    | ok => exact absurd rfl h1
    | _ => rfl
  have hh : s.hostWrite (regAddr r i) w = (st, u) := by
    rw [State.hostWrite, State.writeAddr, ha]
    cases st with
    | ok => exact absurd rfl h1
    | keyerr => exact absurd rfl h2
    | _ => rfl
  rw [State.expertWrites, hh]
  cases st with
  | ok => exact absurd rfl h1
  | _ => rfl

end ExpertWrites

/-- The registers beside `commandRegs` that commands of the mailbox write are placed. -/
theorem mailboxRegs_placed : ([RegName.OUT_DRV, .OUT_SYSPULSE, .TIME_SYNCCFG_LO, .TIME_SYNCCFG_HI, .TIME_SYNCMASK, .TIME_PRESET_LO,
    .TIME_PRESET_HI, .MBX_CTL].all fun r => (List.range (regSpec r).count).all (placed r)) = true := by decide +kernel

theorem placed_of_mailbox (r : RegName) (i : Nat) (h : r ∈ [RegName.OUT_DRV, .OUT_SYSPULSE, .TIME_SYNCCFG_LO, .TIME_SYNCCFG_HI,
    .TIME_SYNCMASK, .TIME_PRESET_LO, .TIME_PRESET_HI, .MBX_CTL]) (hi : i < (regSpec r).count) : placed r i = true :=
  List.all_eq_true.1 (List.all_eq_true.1 mailboxRegs_placed r h) i (List.mem_range.2 hi)

/-! ## The end of a command (R621, R623) -/

section MailboxEnds
variable (s : State)

theorem setFld_form (f : Field) (i v : Nat) : ∃ rg, s.setFld f i v = { s with regs := rg } := ⟨_, rfl⟩

theorem stick_form (f : Field) (i : Nat) : ∃ rg sk, s.stick f i = { s with regs := rg, sticks := sk } := ⟨_, _, rfl⟩

/-- What the end of a command changes: MBX_STAT, the mailbox and, with a status, a raise. -/
theorem mbxEnd_form (st : Nat) : ∃ rg sk m rs, s.mbxEnd st = { s with regs := rg, sticks := sk, mbx := m, raises := rs } ∧
    ∀ r i, r ≠ .MBX_STAT → rg.get r i = s.reg r i := by
  have hreg : ∀ r i, r ≠ .MBX_STAT → (s.mbxEnd st).reg r i = s.reg r i := fun r i h =>
    mbxEnd_keeps (fun s => s.reg r i) (fun s f v hf => reg_setFld_ne _ _ _ _ _ _ (hf ▸ h)) (fun _ _ => rfl) (fun _ _ => rfl)
      (fun _ _ => rfl) s st
  have hform : ∃ rg sk m rs, s.mbxEnd st = { s with regs := rg, sticks := sk, mbx := m, raises := rs } := by
    unfold State.mbxEnd
    extract_lets m s0 s1 s2
    obtain ⟨r1, h1⟩ := setFld_form s0 Fields.MBX_STAT_BUSY 0 0
    obtain ⟨r2, k2, h2⟩ := stick_form { s0 with regs := r1 } Fields.MBX_STAT_DONE 0
    obtain ⟨r3, h3⟩ := setFld_form { s0 with regs := r2, sticks := k2 } Fields.MBX_STAT_STATUS 0 st
    have hs1 : s1 = { s0 with regs := r3, sticks := k2 } := by
      rw [← h3, ← h2, ← h1]
    obtain ⟨r4, h4⟩ := setFld_form { s0 with regs := r3, sticks := k2 } Fields.MBX_STAT_COUNT 0 (s1.fld Fields.MBX_STAT_COUNT 0 + 1)
    have hs2 : s2 = { s0 with regs := r4, sticks := k2 } := by
      rw [← h4, ← hs1]
    clear_value s2
    obtain rfl := hs2
    split
    · exact ⟨r4, k2, _, s.raises, rfl⟩
    · obtain ⟨rs, h⟩ := raiseAs_form { s0 with regs := r4, sticks := k2 } Src.port_MAILBOX_ERR s.now 0 false false
      exact ⟨r4, k2, _, rs, h⟩
  obtain ⟨rg, sk, m, rs, h⟩ := hform
  exact ⟨rg, sk, m, rs, h, fun r i hr => by rw [← hreg r i hr, h]; rfl⟩

theorem mbxEnd_ok_raises : (s.mbxEnd 0).raises = s.raises := by
  unfold State.mbxEnd
  extract_lets m s0 s1 s2
  rw [if_pos rfl]
  rfl

/-- Results take the places of the arguments from a word on. -/
theorem results_form (k : Nat) (l : List Word) : ∃ rg, s.results k l = { s with regs := rg } := by
  induction l generalizing s k with
  | nil => exact ⟨s.regs, rfl⟩
  | cons w l ih => exact ih (s.setReg .MBX_ARG k w) (k + 1)

theorem reg_results_other (k : Nat) (l : List Word) (r : RegName) (i : Nat) (h : r ≠ .MBX_ARG) :
    (s.results k l).reg r i = s.reg r i := by
  induction l generalizing s k with
  | nil => rfl
  | cons w l ih => exact (ih _ _).trans (State.reg_setReg_other _ _ _ _ _ _ fun e => h e.1.symm)

theorem arg_results_below (k j : Nat) (l : List Word) (h : j < k) : (s.results k l).reg .MBX_ARG j = s.reg .MBX_ARG j := by
  induction l generalizing s k with
  | nil => rfl
  | cons w l ih => exact (ih _ _ (by omega)).trans (State.reg_setReg_other _ _ _ _ _ _ fun e => by omega)

theorem arg_results (k j : Nat) (l : List Word) (h : j < l.length) : (s.results k l).reg .MBX_ARG (k + j) = l[j] := by
  induction l generalizing s k j with
  | nil => cases h
  | cons w l ih =>
    cases j with
    | zero => exact (arg_results_below (s.setReg .MBX_ARG k w) (k + 1) k l (by omega)).trans (State.reg_setReg_self ..)
    | succ j =>
      have := ih (s.setReg .MBX_ARG k w) (k + 1) j (by simpa using h)
      rw [show k + (j + 1) = k + 1 + j by omega]
      exact this

end MailboxEnds

/-! ## The commands of the mailbox -/

section Commands
variable {s u : State} {c : Instr} {n : Nat} {f : State → State} {ws : List (Nat × Word)} {res : State → List Word} {P : State → Prop}

/-- A command that ends with a status leaves MBX_STAT, and a raise with a status that is not OK. -/
theorem completes_of_mbxEnd (hx : exec c s = .next (s.mbxRun n f)) (hr : s.mbxRuns n 0 = true) {st : Nat} (hf : f s = u.mbxEnd st)
    (h32 : st < 32)
    (hP : ∀ rg sk m rs, ({ u with regs := rg, sticks := sk, mbx := m, raises := rs } : State).mbxDone st →
      (∀ r i, r ≠ .MBX_STAT → rg.get r i = u.reg r i) → (st = 0 → rs = u.raises) →
      (st ≠ 0 → ∃ r : Raise, rs = u.raises ++ [r] ∧ r.fid = Src.port_MAILBOX_ERR) →
      P { u with regs := rg, sticks := sk, mbx := m, raises := rs }) : completes c s P := by
  obtain ⟨rg, sk, m, rs, he, hreg⟩ := mbxEnd_form u st
  have hd := mbxEnd_done u st h32
  have h0 : st = 0 → (u.mbxEnd st).raises = u.raises := fun h => h ▸ mbxEnd_ok_raises u
  have h1 : st ≠ 0 → ∃ r : Raise, (u.mbxEnd st).raises = u.raises ++ [r] ∧ r.fid = Src.port_MAILBOX_ERR := fun h =>
    have ⟨x, hx, hid, _⟩ := mbxEnd_raises u st h
    ⟨x, hx, hid⟩
  rw [he] at hd h0 h1
  exact ⟨_, hx.trans (congrArg _ ((if_pos hr).trans (hf.trans he))), hP rg sk m rs hd hreg h0 h1⟩

theorem mbxDo_ok (hw : s.expertWrites ws = (.ok, u)) (h1 : u.power ≠ 1) : s.mbxDo ws res = (u.results 0 (res u)).mbxEnd 0 := by
  rw [State.mbxDo, hw]
  exact if_neg h1

theorem mbxDo_refused {st : WStatus} (hw : s.expertWrites ws = (st, u)) (h : st ≠ .ok) : s.mbxDo ws res = u.mbxEnd st.code := by
  rw [State.mbxDo, hw]
  cases st with
  | ok => exact absurd rfl h
  | _ => rfl

/-- A command whose writes are all released ends with OK and its results. -/
theorem completes_of_mbxDo (hx : exec c s = .next (s.mbxRun n f)) (hr : s.mbxRuns n 0 = true) (hf : f s = s.mbxDo ws res)
    (hw : s.expertWrites ws = (.ok, u)) (h1 : u.power ≠ 1)
    (hP : ∀ rg sk m, ({ u with regs := rg, sticks := sk, mbx := m } : State).mbxDone 0 →
      (∀ r i, r ≠ .MBX_STAT → r ≠ .MBX_ARG → rg.get r i = u.reg r i) →
      (∀ (j : Nat) (h : j < (res u).length), rg.get .MBX_ARG j = (res u)[j]) →
      P { u with regs := rg, sticks := sk, mbx := m }) : completes c s P := by
  obtain ⟨rg, hres⟩ := results_form u 0 (res u)
  have hother := reg_results_other u 0 (res u)
  have harg := arg_results u 0
  have hdo := hf.trans (mbxDo_ok (res := res) hw h1)
  rw [hres] at hdo hother
  refine completes_of_mbxEnd hx hr hdo (by decide) fun rg' sk m rs hd hreg h0 _ => ?_
  obtain rfl := h0 rfl
  refine hP rg' sk m hd (fun r i h h' => (hreg r i h).trans (hother r i h')) fun j hj => ?_
  have ha := harg j (res u) hj
  rw [hres, Nat.zero_add] at ha
  exact (hreg _ _ (by decide)).trans ha

end Commands

end Sys2Proof.Machine

namespace Sys2Proof.Machine

/-! ## Words that the mailbox writes -/

section Words

/-- A field that a register takes from a write is the word's. -/
theorem getBits_merge (sp : RegSpec) (fresh old w : Word) (lo width : Nat) (hs : sp.sticky = 0#32) (hc : sp.counts = [])
    (h : sp.rw.extractLsb' lo width = BitVec.allOnes width) : getBits (sp.merge fresh old w) lo width = getBits w lo width := by
  have hm : sp.merge fresh old w = old &&& ~~~sp.rw ||| w &&& sp.rw := by
    simp only [RegSpec.merge, hs, hc, List.foldl_nil, BitVec.and_zero, BitVec.zero_and, BitVec.not_zero, BitVec.and_allOnes]
  rw [hm, getBits, getBits]
  refine congrArg BitVec.toNat (BitVec.eq_of_getLsbD_eq fun i hi => ?_)
  have hb : sp.rw.getLsbD (lo + i) = true := by
    have := congrArg (·.getLsbD i) h
    simpa [BitVec.getLsbD_extractLsb', hi] using this
  have h32 : lo + i < 32 := BitVec.lt_of_getLsbD hb
  simp only [BitVec.getLsbD_extractLsb', hi, decide_true, Bool.true_and, BitVec.getLsbD_or, BitVec.getLsbD_and, BitVec.getLsbD_not,
    hb, h32, Bool.not_true, Bool.and_false, Bool.and_true, Bool.false_or]

theorem merge_all (sp : RegSpec) (fresh old w : Word) (hs : sp.sticky = 0#32) (hc : sp.counts = []) (h : sp.rw = BitVec.allOnes 32) :
    sp.merge fresh old w = w := by
  simp only [RegSpec.merge, hs, hc, h, List.foldl_nil, BitVec.and_zero, BitVec.zero_and, BitVec.not_zero, BitVec.and_allOnes,
    BitVec.not_allOnes, BitVec.zero_or]

theorem getBits_ofNat (v lo width : Nat) (h : lo + width ≤ 32) : getBits (BitVec.ofNat 32 v) lo width = v / 2 ^ lo % 2 ^ width := by
  rw [getBits, BitVec.extractLsb'_toNat, BitVec.toNat_ofNat, Nat.shiftRight_eq_div_pow, show 32 = lo + (32 - lo) by omega, Nat.pow_add,
    Nat.mod_mul_right_div_self, Nat.mod_mod_of_dvd _ (Nat.pow_dvd_pow 2 (by omega))]

end Words

/-! ## The registers of outputs that the mailbox writes -/

section OutputWrites
variable {s t : State} {o : Nat}

theorem portKey_setReg (s : State) (r : RegName) (i : Nat) (v : Word) (h1 : r ≠ .PWR_STATE) (h2 : r ≠ .STORE_START)
    (h3 : r ≠ .TIME_STATE) : (s.setReg r i v).portKey = s.portKey := by
  rw [State.portKey, State.reg_setReg_other _ _ _ _ _ _ fun e => h1 e.1, State.reg_setReg_other _ _ _ _ _ _ fun e => h2 e.1,
    State.reg_setReg_other _ _ _ _ _ _ fun e => h3 e.1]
  rfl

/-- Who owns an output lies with the stations, the raster channels and their masks. -/
theorem outOwned_of (hst : t.stations = s.stations) (hm : ∀ n, t.reg .STN_OUTMASK n = s.reg .STN_OUTMASK n) :
    t.outOwned o = s.outOwned o := by
  have ho : t.outOwner o = s.outOwner o := by simp only [State.outOwner, hm]
  have hg : ∀ n, t.guaranteedRun n = s.guaranteedRun n := fun n => by
    rw [State.guaranteedRun, State.guaranteedRun, stn_of_stations hst]
  rw [State.outOwned, State.outOwned, ho]
  cases s.outOwner o with
  | none => rfl
  | some n => exact hg n

theorem outTaken_of (hst : t.stations = s.stations) (hm : ∀ n, t.reg .STN_OUTMASK n = s.reg .STN_OUTMASK n) (hr : t.ras = s.ras)
    (hrm : ∀ n, t.reg .RAS_OUTMASK n = s.reg .RAS_OUTMASK n) : t.outTaken o = s.outTaken o := by
  have hc : ∀ n, t.rasCh n = s.rasCh n := fun n => congrArg (·[n]?.getD default) hr
  rw [State.outTaken, State.outTaken, outOwned_of hst hm]
  simp only [State.rasOfOut, hrm, hc]

theorem outOwned_of_not_taken (h : s.outTaken o = false) : s.outOwned o = false := (Bool.or_eq_false_iff.1 h).1

/-- OUT_DRV of an output that no guaranteed program has takes a level in its range (R345). -/
theorem writeDrv_ok {w : Word} (h : s.outOwned o = false) (ha : getBits w 0 8 ≤ 240) (hm : bitOf w 8 = false ∨ 8 ≤ o) :
    s.writeReg .OUT_DRV o w = (.ok, (s.setReg .OUT_DRV o (w &&& 0xFFFF03FF#32)).modOut o fun x => { x with amp := getBits w 0 8 }) := by
  have hr : s.writeReg .OUT_DRV o w = s.unless (s.outOwned o) .owned (s.writeDrv o w) := rfl
  have hn : ¬ (240 < getBits w 0 8 ∨ (bitOf w 8 ∧ o < 8)) := by
    rintro (hlt | ⟨hb, ho⟩)
    · omega
    · obtain h0 | h8 := hm
      · rw [h0] at hb
        exact Bool.false_ne_true hb
      · omega
  rw [hr, h]
  exact if_neg hn

theorem writeDrv_owned {w : Word} (h : s.outOwned o = true) : s.writeReg .OUT_DRV o w = (.owned, s) := by
  have hr : s.writeReg .OUT_DRV o w = s.unless (s.outOwned o) .owned (s.writeDrv o w) := rfl
  rw [hr, h]
  rfl

/-- A write that switches off an output that is already off stores what is stored. -/
theorem writeOutCfg_off (h : s.flag Fields.OUT_CFG_EN o = false) :
    s.writeOutCfg o (setBit (s.reg .OUT_CFG o) 31 false) = (.ok, s.hgated o) := by
  have hsrc : getBits (setBit (s.reg .OUT_CFG o) 31 false) 16 5 = s.fld Fields.OUT_CFG_SRC o :=
    getBits_putBits_other _ _ _ _ _ _ (by decide) (by decide)
  have hdsel : getBits (setBit (s.reg .OUT_CFG o) 31 false) 24 2 = s.fld Fields.OUT_CFG_DSEL o :=
    getBits_putBits_other _ _ _ _ _ _ (by decide) (by decide)
  have hen : bitOf (setBit (s.reg .OUT_CFG o) 31 false) 31 = false := bitOf_setBit_self _ _ _ (by decide)
  have hgate : bitOf (setBit (s.reg .OUT_CFG o) 31 false) 30 = bitOf (s.reg .OUT_CFG o) 30 :=
    bitOf_setBit_other _ _ _ _ (by decide) (by decide)
  simp only [State.writeOutCfg, hsrc, hen, hgate, hdsel, h, bne_self_eq_false, Bool.false_and, Bool.false_eq_true, if_false]
  change (WStatus.ok, State.selectDset (if s.fld Fields.OUT_CFG_SRC o != (s.hgated o).fld Fields.OUT_CFG_SRC o then _ else s.hgated o)
    o _) = _
  have hkept : (s.hgated o).fld Fields.OUT_CFG_SRC o = s.fld Fields.OUT_CFG_SRC o := fld_setHgate s o _ _ (by decide)
  rw [hkept]
  simp only [bne_self_eq_false, Bool.false_eq_true, if_false]
  exact congrArg _ (selectDset_same _ (fld_setHgate s o _ _ (by decide)).symm)

/-- What switching an output off leaves. -/
structure State.switchedOff (s u : State) (o : Nat) : Prop where
  key : u.portKey = s.portKey
  off : u.flag Fields.OUT_CFG_EN o = false
  others : ∀ p, p ≠ o → u.out p = s.out p ∧ u.reg .OUT_CFG p = s.reg .OUT_CFG p
  taken : ∀ p, u.outTaken p = s.outTaken p

theorem portKey_setOutCfg (s : State) (f : Field) (o v : Nat) (hf : f.reg = .OUT_CFG) : (s.setFld f o v).portKey = s.portKey :=
  portKey_setReg s f.reg o _ (hf ▸ by decide) (hf ▸ by decide) (hf ▸ by decide)

theorem reg_outEnable_other (n : Nat) (r : RegName) (i : Nat) (h : r ≠ .OUT_RBPHASE) : (s.outEnable n false).reg r i = s.reg r i := by
  change (State.setReg (s.modOut n _) .OUT_RBPHASE n _).reg r i = _
  exact State.reg_setReg_other _ _ _ _ _ _ fun e => h e.1.symm

/-- A write of OUT_CFG that clears EN switches the output off and leaves the others (R335). -/
theorem writeOutCfg_switchesOff (o : Fin 32) (h : s.outTaken o = false) :
    ∃ u, s.writeReg .OUT_CFG o (setBit (s.reg .OUT_CFG o) 31 false) = (.ok, u) ∧ s.switchedOff u o := by
  cases hen : s.flag Fields.OUT_CFG_EN o with
  | false =>
    have hreg : ∀ r i, r ≠ .OUT_CFG → (s.hgated o).reg r i = s.reg r i := fun r i hr => reg_setFld_ne _ _ _ _ _ _ hr
    refine ⟨s.hgated o, (writeReg_outCfg s o _ h).trans (writeOutCfg_off hen), portKey_setOutCfg _ _ _ _ rfl, ?_, fun p hp => ⟨rfl, ?_⟩,
      fun p => outTaken_of rfl (fun n => hreg _ _ (by decide)) rfl fun n => hreg _ _ (by decide)⟩
    · exact (flag_setFld_other s _ _ _ _ _ (by decide) (.inr (.inr (by decide)))).trans hen
    · exact State.reg_setReg_other _ _ _ _ _ _ fun e => hp e.2.symm
  | true =>
    have hw := (writeReg_outCfg s o _ h).trans (writeOutCfg_en s o false hen)
    have hoff := flag_en_stored s o false (bitOf (s.reg .OUT_CFG o) 30).toNat
    have hreg : ∀ r i, r ≠ .OUT_CFG → r ≠ .OUT_RBPHASE →
        (((s.setFld Fields.OUT_CFG_EN o false.toNat).outEnable o false).setFld Fields.OUT_CFG_HGATE o
          (bitOf (s.reg .OUT_CFG o) 30).toNat).reg r i = s.reg r i := fun r i hr hb =>
      (reg_setFld_ne _ _ _ _ _ _ hr).trans ((reg_outEnable_other o r i hb).trans (reg_setFld_ne _ _ _ _ _ _ hr))
    have hcfg : ∀ p : Nat, p ≠ o → (((s.setFld Fields.OUT_CFG_EN o false.toNat).outEnable o false).setFld Fields.OUT_CFG_HGATE o
          (bitOf (s.reg .OUT_CFG o) 30).toNat).reg .OUT_CFG p = s.reg .OUT_CFG p := fun p hp =>
      (State.reg_setReg_other _ _ _ _ _ _ fun e => hp e.2.symm).trans ((reg_outEnable ..).trans
        (State.reg_setReg_other _ _ _ _ _ _ fun e => hp e.2.symm))
    have hkey : (((s.setFld Fields.OUT_CFG_EN o false.toNat).outEnable o false).setFld Fields.OUT_CFG_HGATE o
          (bitOf (s.reg .OUT_CFG o) 30).toNat).portKey = s.portKey := by
      rw [portKey_setOutCfg _ _ _ _ rfl, outEnable_off, portKey_setReg _ _ _ _ (by decide) (by decide) (by decide)]
      exact portKey_setOutCfg s _ _ _ rfl
    have hout : ∀ p : Nat, p ≠ o → (((s.setFld Fields.OUT_CFG_EN o false.toNat).outEnable o false).setFld Fields.OUT_CFG_HGATE o
          (bitOf (s.reg .OUT_CFG o) 30).toNat).out p = s.out p := fun p hp => by
      rw [State.setFld_at_out, outEnable_off, State.setReg_at_out, State.out_modOut_other _ _ _ _ hp.symm, State.setFld_at_out]
    exact ⟨_, hw, hkey, hoff, fun p hp => ⟨hout p hp, hcfg p hp⟩, fun p =>
      outTaken_of rfl (fun n => hreg _ _ (by decide) (by decide)) rfl fun n => hreg _ _ (by decide) (by decide)⟩

end OutputWrites

end Sys2Proof.Machine

namespace Sys2Proof.Machine

/-! ## The mailbox's commands on outputs (R621 to R624) -/

section OutputCommands
variable {s : State}

/-- OUT_OFF switches off the outputs of a list, one after another. -/
theorem expertWrites_off (os : List (Fin 32)) (s : State) (hd : os.Nodup) (h : s.serves = true)
    (ht : ∀ o ∈ os, s.outTaken o = false) :
    ∃ v, s.expertWrites (os.map fun o : Fin 32 => (regAddr .OUT_CFG o, setBit (s.reg .OUT_CFG o) 31 false)) = (.ok, v) ∧
      v.portKey = s.portKey ∧ (∀ o ∈ os, v.flag Fields.OUT_CFG_EN o = false) ∧
      ∀ p : Fin 32, p ∉ os → v.out p = s.out p ∧ v.reg .OUT_CFG p = s.reg .OUT_CFG p := by
  induction os generalizing s with
  | nil => exact ⟨s, rfl, rfl, fun _ hm => absurd hm List.not_mem_nil, fun _ _ => ⟨rfl, rfl⟩⟩
  | cons o os ih =>
    obtain ⟨hno, hd⟩ := List.nodup_cons.1 hd
    obtain ⟨u, hw, hkey, hoff, hothers, htaken⟩ := writeOutCfg_switchesOff o (ht o List.mem_cons_self)
    obtain ⟨x, hx, ⟨fl, st, hform⟩, hsaved⟩ := expertWrites_next
      (l := os.map fun o : Fin 32 => (regAddr .OUT_CFG o, setBit (s.reg .OUT_CFG o) 31 false)) h
      (placed_of_command .OUT_CFG o (by decide) o.isLt) rfl hw
    have hreg : ∀ r i, x.reg r i = u.reg r i := fun r i => hform ▸ rfl
    have hout : ∀ p, x.out p = u.out p := fun p => hform ▸ rfl
    have hxt : ∀ p, x.outTaken p = u.outTaken p := fun p => hform ▸ rfl
    have hval : ∀ p ∈ os, x.reg .OUT_CFG p.val = s.reg .OUT_CFG p.val := fun p hp =>
      (hreg _ _).trans (hothers p fun e => hno (Fin.ext e ▸ hp)).2
    have hlist : (os.map fun p : Fin 32 => (regAddr .OUT_CFG p, setBit (s.reg .OUT_CFG p) 31 false)) =
        os.map fun p : Fin 32 => (regAddr .OUT_CFG p, setBit (x.reg .OUT_CFG p) 31 false) :=
      List.map_congr_left fun p hp => by rw [hval p hp]
    obtain ⟨v, hv, hvk, hvoff, hvo⟩ := ih x hd ((serves_of_portKey (hsaved.trans hkey)).trans h) fun p hp =>
      (hxt p).trans ((htaken p).trans (ht p (List.mem_cons_of_mem _ hp)))
    refine ⟨v, ?_, hvk.trans (hsaved.trans hkey), fun p hp => ?_, fun p hp => ?_⟩
    · rw [List.map_cons, hx, hlist, hv]
    · obtain rfl | hm := List.mem_cons.1 hp
      · exact (flag_of_reg (f := Fields.OUT_CFG_EN) (((hvo p hno).2).trans (hreg _ _))).trans hoff
      · exact hvoff p hm
    · obtain ⟨hne, hnot⟩ := List.ne_and_not_mem_of_not_mem_cons hp
      obtain ⟨h1, h2⟩ := hvo p hnot
      obtain ⟨h3, h4⟩ := hothers p fun e => hne (Fin.ext e)
      exact ⟨h1.trans ((hout p).trans h3), h2.trans ((hreg _ _).trans h4)⟩

/-- The outputs that a word names, as instances. -/
theorem bitsOf_map (w : Word) {α : Type} (f : Nat → α) :
    (bitsOf w 32).map f = ((List.finRange 32).filter fun o : Fin 32 => bitOf w o.val).map fun o : Fin 32 => f o.val := by
  have h : bitsOf w 32 = ((List.finRange 32).filter fun o : Fin 32 => bitOf w o.val).map Fin.val := by
    rw [bitsOf, ← List.map_coe_finRange_eq_range, List.filter_map]
    rfl
  rw [h, List.map_map]
  rfl

/-- A device that serves is not in DORMANT. -/
theorem power_of_serves (h : s.serves = true) : s.power ≠ 1 := by
  have := hostServes_of_serves s h
  simp only [State.hostServes, Bool.and_eq_true, bne_iff_ne, ne_eq] at this
  exact this.2

theorem not_halted_of_serves (h : s.serves = true) : s.halted = false := by
  simp only [State.serves, Bool.and_eq_true, Bool.not_eq_true'] at h
  obtain ⟨⟨⟨⟨-, hh⟩, -⟩, -⟩, -⟩ := h
  exact hh

theorem power_of_portKey {t : State} (h : t.portKey = s.portKey) : t.power = s.power := by
  simp only [State.portKey, Prod.mk.injEq] at h
  obtain ⟨⟨-, -, -, hpow, -, -⟩, -⟩ := h
  exact fld_of_reg (f := Fields.PWR_STATE_STATE) hpow

/-- The word of OUT_LEVEL: MODE, AMP and MINPER of its arguments. -/
def State.levelWord (s : State) (o : Nat) : Word :=
  s.withFields .OUT_DRV o [(Fields.OUT_DRV_MODE, (s.arg 1).toNat), (Fields.OUT_DRV_AMP, (s.arg 2).toNat),
    (Fields.OUT_DRV_MINPER, (s.arg 3).toNat)]

theorem levelWord_fields (o : Nat) (h1 : (s.arg 1).toNat ≤ 1) (h2 : (s.arg 2).toNat ≤ 240) (h3 : (s.arg 3).toNat ≤ 65535) :
    getBits (s.levelWord o) 0 8 = (s.arg 2).toNat ∧ getBits (s.levelWord o) 8 1 = (s.arg 1).toNat ∧
      getBits (s.levelWord o) 16 16 = (s.arg 3).toNat := by
  have hw : s.levelWord o = putBits (putBits (putBits (s.reg .OUT_DRV o) 8 1 (s.arg 1).toNat) 0 8 (s.arg 2).toNat) 16 16
    (s.arg 3).toNat := rfl
  rw [hw]
  refine ⟨?_, ?_, ?_⟩
  · rw [getBits_putBits_other _ _ _ _ _ _ (by decide) (by decide), getBits_putBits_self _ _ _ _ (by decide)]
    exact Nat.mod_eq_of_lt (by omega)
  · rw [getBits_putBits_other _ _ _ _ _ _ (by decide) (by decide), getBits_putBits_other _ _ _ _ _ _ (by decide) (by decide),
      getBits_putBits_self _ _ _ _ (by decide)]
    exact Nat.mod_eq_of_lt (by omega)
  · rw [getBits_putBits_self _ _ _ _ (by decide)]
    exact Nat.mod_eq_of_lt (by omega)

theorem mbxOutLevel_writes {o : Nat} (ho : o < 32) (h0 : (s.arg 0).toNat = o) (h1 : (s.arg 1).toNat ≤ 1) (h2 : (s.arg 2).toNat ≤ 240)
    (h3 : (s.arg 3).toNat ≤ 65535) : s.mbxOutLevel = s.mbxDo [(regAddr .OUT_DRV o, s.levelWord o)] fun _ => [] := by
  subst h0
  exact if_neg (show ¬ (32 ≤ (s.arg 0).toNat ∨ 1 < (s.arg 1).toNat ∨ 240 < (s.arg 2).toNat ∨ 65535 < (s.arg 3).toNat) by omega)

theorem mbxOutLevel_range (h : 32 ≤ (s.arg 0).toNat ∨ 1 < (s.arg 1).toNat ∨ 240 < (s.arg 2).toNat) : s.mbxOutLevel = s.mbxEnd 3 :=
  if_pos (show 32 ≤ (s.arg 0).toNat ∨ 1 < (s.arg 1).toNat ∨ 240 < (s.arg 2).toNat ∨ 65535 < (s.arg 3).toNat by omega)

/-- OUT_LEVEL of an output that no guaranteed program has stores its level. -/
theorem writeDrv_level {o : Fin 32} (hfree : s.outOwned o = false) (h1 : (s.arg 1).toNat ≤ 1) (h2 : (s.arg 2).toNat ≤ 240)
    (h3 : (s.arg 3).toNat ≤ 65535) (hm : (s.arg 1).toNat = 0 ∨ 8 ≤ o.val) :
    ∃ u, s.writeReg .OUT_DRV o (s.levelWord o) = (.ok, u) ∧ u.power = s.power ∧ u.fld Fields.OUT_DRV_MODE o = (s.arg 1).toNat ∧
      u.fld Fields.OUT_DRV_AMP o = (s.arg 2).toNat ∧ u.fld Fields.OUT_DRV_MINPER o = (s.arg 3).toNat ∧
      (u.out o).amp = (s.arg 2).toNat ∧ ∀ p : Fin 32, p ≠ o → u.out p = s.out p ∧ u.reg .OUT_DRV p = s.reg .OUT_DRV p := by
  obtain ⟨hamp, hmode, hper⟩ := levelWord_fields o.val h1 h2 h3
  have hbit : bitOf (s.levelWord o) 8 = false ∨ 8 ≤ o.val := hm.imp_left fun h => by
    rw [bitOf_eq_getBits, hmode, h]
    rfl
  have hw := writeDrv_ok hfree (by rw [hamp]; exact h2) hbit
  have hreg : ∀ u : State, (u.setReg .OUT_DRV o (s.levelWord o &&& 0xFFFF03FF#32)).reg .OUT_DRV o = s.levelWord o &&& 0xFFFF03FF#32 :=
    fun u => State.reg_setReg_self ..
  have hfld : ∀ f : Field, f.reg = .OUT_DRV → (0xFFFF03FF#32).extractLsb' f.lo f.width = BitVec.allOnes f.width →
      (s.setReg .OUT_DRV o (s.levelWord o &&& 0xFFFF03FF#32)).fld f o = getBits (s.levelWord o) f.lo f.width := fun f hf hin => by
    rw [State.fld, hf, hreg, getBits_and_of_within _ _ _ _ hin]
  refine ⟨_, hw, fld_of_reg (f := Fields.PWR_STATE_STATE) (State.reg_setReg_other s .OUT_DRV _ _ _ _ fun e => by cases e.1), (hfld Fields.OUT_DRV_MODE rfl (by decide)).trans hmode,
    (hfld Fields.OUT_DRV_AMP rfl (by decide)).trans hamp, (hfld Fields.OUT_DRV_MINPER rfl (by decide)).trans hper, ?_, fun p hp => ⟨?_, ?_⟩⟩
  · rw [State.out_modOut_self _ _ _ o.isLt]
    exact hamp
  · rw [State.out_modOut_other _ _ _ _ fun e => hp (Fin.ext e.symm)]
    rfl
  · exact State.reg_setReg_other _ _ _ _ _ _ fun e => hp (Fin.ext e.2.symm)

theorem setting_levels : ∀ i : Fin 18, (0xE0000000#32).getLsbD i = false := by decide

/-- A word without operations of OUT_SYSREF. -/
theorem sysrefBase_plain {n : Nat} (h : n < 2 ^ 18) : BitVec.ofNat 32 n &&& 0xE0000000#32 = 0#32 ∧ bitOf (BitVec.ofNat 32 n) 31 = false ∧
    bitOf (BitVec.ofNat 32 n) 30 = false ∧ bitOf (BitVec.ofNat 32 n) 29 = false := by
  have hb : ∀ i, 18 ≤ i → (BitVec.ofNat 32 n).getLsbD i = false := fun i hi => by
    rw [BitVec.getLsbD_ofNat, Nat.testBit_lt_two_pow (h.trans_le (Nat.pow_le_pow_right (by decide) hi)), Bool.and_false]
  refine ⟨BitVec.eq_of_getLsbD_eq fun i _ => ?_, hb 31 (by decide), hb 30 (by decide), hb 29 (by decide)⟩
  rw [BitVec.getLsbD_and, BitVec.getLsbD_zero]
  by_cases hi : i < 18
  · rw [setting_levels ⟨i, hi⟩, Bool.and_false]
  · rw [hb i (by omega), Bool.false_and]

/-- SMODE and COUNT as a word of OUT_SYSREF has them. -/
def State.sysrefStored (s : State) (o : Nat) (w : Word) : State :=
  if State.smode (s.setReg .OUT_SYSREF o (w &&& 0x000300FF#32)) o = 0 then
    (s.setReg .OUT_SYSREF o (w &&& 0x000300FF#32)).modOut o fun x => x.sysEnd o s.now
  else s.setReg .OUT_SYSREF o (w &&& 0x000300FF#32)

/-- A write of OUT_SYSREF without operations stores SMODE and COUNT (R343). -/
theorem writeSysref_stores {o : Nat} {n : Nat} (hfree : s.outOwned o = false) (hn : n < 2 ^ 18) :
    ∃ u, s.writeReg .OUT_SYSREF o (BitVec.ofNat 32 n) = (.ok, u) ∧
      u.regs = (s.setReg .OUT_SYSREF o (BitVec.ofNat 32 n &&& 0x000300FF#32)).regs ∧ u.raises = s.raises := by
  obtain ⟨hops, h31, h30, h29⟩ := sysrefBase_plain hn
  have hw : s.writeReg .OUT_SYSREF o (BitVec.ofNat 32 n) = s.writeSysref o (BitVec.ofNat 32 n) :=
    (if_neg (by rw [hfree]; exact Bool.false_ne_true)).trans (if_neg (by rw [hops]; simp))
  refine ⟨s.sysrefStored o (BitVec.ofNat 32 n), hw.trans ?_, ?_⟩
  · simp only [State.writeSysref, h31, h30, h29, Bool.false_eq_true, if_false]
    rfl
  · unfold State.sysrefStored
    split
    · exact ⟨rfl, rfl⟩
    · exact ⟨rfl, rfl⟩

/-- The words of SYSREF. -/
def State.syspulseWord (s : State) : Nat := (s.arg 3).toNat * 2 ^ 16 + (s.arg 2).toNat % 4096
def State.sysrefBase (s : State) : Nat := getBits (s.arg 1) 0 2 * 2 ^ 16 + getBits (s.arg 1) 2 8

theorem sysrefBase_lt : s.sysrefBase < 2 ^ 18 := by
  have h1 : getBits (s.arg 1) 0 2 < 4 := (BitVec.extractLsb' 0 2 (s.arg 1)).isLt
  have h2 : getBits (s.arg 1) 2 8 < 256 := (BitVec.extractLsb' 2 8 (s.arg 1)).isLt
  rw [State.sysrefBase]
  omega

theorem mbxSysref_writes {o : Nat} (ho : o < 32) (h0 : (s.arg 0).toNat = o) (h2 : 2 ≤ (s.arg 2).toNat) (h2' : (s.arg 2).toNat ≤ 4096)
    (h3 : (s.arg 3).toNat ≤ 65535) (h4 : (s.arg 4).toNat = 3) (ht : s.outTaken o = false) :
    s.mbxSysref = s.mbxDo [(regAddr .OUT_SYSPULSE o, BitVec.ofNat 32 s.syspulseWord), (regAddr .OUT_SYSREF o, BitVec.ofNat 32 s.sysrefBase)]
      fun _ => [] := by
  subst h0
  unfold State.mbxSysref
  extract_lets o v base op
  have hop : op = [] := if_pos h4
  rw [hop, if_neg (show ¬ (32 ≤ (s.arg 0).toNat ∨ (s.arg 2).toNat < 2 ∨ 4096 < (s.arg 2).toNat ∨ 65535 < (s.arg 3).toNat ∨
    3 < (s.arg 4).toNat) by omega), if_neg (by rw [ht]; exact Bool.false_ne_true)]
  rfl

/-- SYSREF's writes of an output that no guaranteed program has. -/
theorem expertWrites_sysref {o : Fin 32} (h : s.serves = true) (hfree : s.outOwned o = false) (h3 : (s.arg 3).toNat ≤ 65535) :
    ∃ v, s.expertWrites [(regAddr .OUT_SYSPULSE o, BitVec.ofNat 32 s.syspulseWord), (regAddr .OUT_SYSREF o, BitVec.ofNat 32 s.sysrefBase)] =
        (.ok, v) ∧ v.power = s.power ∧ v.raises = s.raises ∧ v.fld Fields.OUT_SYSPULSE_P o = (s.arg 2).toNat % 4096 ∧
      v.fld Fields.OUT_SYSPULSE_WIDTH o = (s.arg 3).toNat ∧ v.fld Fields.OUT_SYSREF_SMODE o = getBits (s.arg 1) 0 2 ∧
      v.fld Fields.OUT_SYSREF_COUNT o = getBits (s.arg 1) 2 8 := by
  have hw : s.writeReg .OUT_SYSPULSE o (BitVec.ofNat 32 s.syspulseWord) = (.ok, s.plainWrite .OUT_SYSPULSE o (BitVec.ofNat 32 s.syspulseWord)) :=
    if_neg (by rw [hfree]; exact Bool.false_ne_true)
  have hpk : (s.plainWrite .OUT_SYSPULSE o (BitVec.ofNat 32 s.syspulseWord)).portKey = s.portKey :=
    portKey_setReg _ _ _ _ (by decide) (by decide) (by decide)
  have hpother : ∀ r i, r ≠ .OUT_SYSPULSE → (s.plainWrite .OUT_SYSPULSE o (BitVec.ofNat 32 s.syspulseWord)).reg r i = s.reg r i :=
    fun r i hr => reg_plainWrite_other _ _ _ _ _ _ hr.symm
  have hpself : ∀ f : Field, f.reg = .OUT_SYSPULSE → (regSpec .OUT_SYSPULSE).rw.extractLsb' f.lo f.width = BitVec.allOnes f.width →
      (s.plainWrite .OUT_SYSPULSE o (BitVec.ofNat 32 s.syspulseWord)).fld f o = getBits (BitVec.ofNat 32 s.syspulseWord) f.lo f.width :=
    fun f hf hin => by
      rw [State.fld, hf, State.plainWrite, State.reg_setReg_self, getBits_merge _ _ _ _ _ _ rfl rfl hin]
  have hstn : (s.plainWrite .OUT_SYSPULSE o (BitVec.ofNat 32 s.syspulseWord)).outOwned o = s.outOwned o :=
    outOwned_of rfl fun n => hpother _ _ (by decide)
  have hra : (s.plainWrite .OUT_SYSPULSE o (BitVec.ofNat 32 s.syspulseWord)).raises = s.raises := rfl
  generalize s.plainWrite .OUT_SYSPULSE o (BitVec.ofNat 32 s.syspulseWord) = u at hw hpk hpother hpself hstn hra
  obtain ⟨x, hx, ⟨fl, st, hform⟩, hkey⟩ := expertWrites_next (l := [(regAddr .OUT_SYSREF o, BitVec.ofNat 32 s.sysrefBase)]) h
    (placed_of_mailbox .OUT_SYSPULSE o (by decide) o.isLt) rfl hw
  have hxo : x.outOwned o = false := by
    rw [show x.outOwned o = u.outOwned o from hform ▸ rfl, hstn, hfree]
  obtain ⟨y, hy, hyr, hyra⟩ := writeSysref_stores (o := o) hxo (sysrefBase_lt (s := s))
  obtain ⟨v, hv, ⟨fl', st', hform'⟩, hkey'⟩ := expertWrites_one ((serves_of_portKey (hkey.trans hpk)).trans h)
    (placed_of_command .OUT_SYSREF o (by decide) o.isLt) rfl hy
  have hreg : ∀ r i, v.reg r i = (x.setReg .OUT_SYSREF o (BitVec.ofNat 32 s.sysrefBase &&& 0x000300FF#32)).reg r i := fun r i => by
    rw [hform']
    exact congrArg (·.get r i) hyr
  have hother : ∀ r i, r ≠ .OUT_SYSREF → v.reg r i = u.reg r i := fun r i hr =>
    (hreg r i).trans ((State.reg_setReg_other _ _ _ _ _ _ fun e => hr e.1.symm).trans (hform ▸ rfl))
  have hself : ∀ f : Field, f.reg = .OUT_SYSREF → (0x000300FF#32).extractLsb' f.lo f.width = BitVec.allOnes f.width →
      v.fld f o = getBits (BitVec.ofNat 32 s.sysrefBase) f.lo f.width := fun f hf hin => by
    rw [State.fld, hf, hreg, State.reg_setReg_self, getBits_and_of_within _ _ _ _ hin]
  have h1 : getBits (s.arg 1) 0 2 < 4 := (BitVec.extractLsb' 0 2 (s.arg 1)).isLt
  have h2 : getBits (s.arg 1) 2 8 < 256 := (BitVec.extractLsb' 2 8 (s.arg 1)).isLt
  refine ⟨v, hx.trans hv, ?_, ?_, ?_, ?_, ?_, ?_⟩
  · exact fld_of_reg (f := Fields.PWR_STATE_STATE) ((hother _ _ (by decide)).trans (hpother _ _ (by decide)))
  · rw [hform']
    exact hyra.trans ((show x.raises = u.raises from hform ▸ rfl).trans hra)
  · rw [fld_of_reg (f := Fields.OUT_SYSPULSE_P) (hother _ _ (by decide)), hpself Fields.OUT_SYSPULSE_P rfl (by decide)]
    refine (getBits_ofNat _ 0 12 (by decide)).trans ?_
    rw [State.syspulseWord]
    omega
  · rw [fld_of_reg (f := Fields.OUT_SYSPULSE_WIDTH) (hother _ _ (by decide)), hpself Fields.OUT_SYSPULSE_WIDTH rfl (by decide)]
    refine (getBits_ofNat _ 16 16 (by decide)).trans ?_
    rw [State.syspulseWord]
    omega
  · refine (hself Fields.OUT_SYSREF_SMODE rfl (by decide)).trans ((getBits_ofNat _ 16 2 (by decide)).trans ?_)
    rw [State.sysrefBase]
    omega
  · refine (hself Fields.OUT_SYSREF_COUNT rfl (by decide)).trans ((getBits_ofNat _ 0 8 (by decide)).trans ?_)
    rw [State.sysrefBase]
    omega

/-! ### MBX_CTL -/

/-- The state a started command leaves. -/
def State.mbxStarted (s : State) (w : Word) : State :=
  { s.plainWrite .MBX_CTL 0 w with mbx := ⟨true, 0, 0⟩ }.setFld Fields.MBX_STAT_BUSY 0 1

theorem writeMbxCtl_starts {w : Word} (hb : s.mbx.busy = false) (h31 : bitOf w 31 = true) (h1 : 1 ≤ getBits w 0 8) (h15 : getBits w 0 8 ≤ 15) :
    s.writeReg .MBX_CTL 0 w = (.ok, s.mbxStarted w) := by
  change s.writeMbxCtl w = _
  simp only [State.writeMbxCtl, hb, h31, h1, h15, Bool.and_false, Bool.false_eq_true, if_false, Bool.not_true, and_self, if_true]
  rfl

theorem writeMbxCtl_reserved {w : Word} (hb : s.mbx.busy = false) (h31 : bitOf w 31 = true) (h : getBits w 0 8 = 0 ∨ 15 < getBits w 0 8) :
    s.writeReg .MBX_CTL 0 w = (.ok, (s.plainWrite .MBX_CTL 0 w).mbxEnd 3) := by
  change s.writeMbxCtl w = _
  simp only [State.writeMbxCtl, hb, h31, Bool.and_false, Bool.false_eq_true, if_false, Bool.not_true]
  exact if_neg (by omega)

theorem writeMbxCtl_busy {w : Word} (hb : s.mbx.busy = true) (h31 : bitOf w 31 = true) : s.writeReg .MBX_CTL 0 w = (.busy, s) := by
  change s.writeMbxCtl w = _
  exact if_pos (by rw [hb, h31]; rfl)

theorem mbxStarted_facts (w : Word) : (s.mbxStarted w).mbx = ⟨true, 0, 0⟩ ∧ (s.mbxStarted w).reloads = s.reloads ∧
    (s.mbxStarted w).halted = s.halted ∧ (s.mbxStarted w).portKey = s.portKey ∧
    (s.mbxStarted w).fld Fields.MBX_CTL_CMD 0 = getBits w 0 8 := by
  refine ⟨rfl, rfl, rfl, ?_, ?_⟩
  · exact (portKey_setReg _ _ _ _ (by decide) (by decide) (by decide)).trans
      (portKey_setReg s .MBX_CTL 0 _ (by decide) (by decide) (by decide))
  · refine (fld_of_reg (f := Fields.MBX_CTL_CMD) (reg_setFld_ne _ Fields.MBX_STAT_BUSY 0 1 _ 0 (by decide))).trans ?_
    change getBits ((s.plainWrite .MBX_CTL 0 w).reg .MBX_CTL 0) 0 8 = _
    rw [State.plainWrite, State.reg_setReg_self, getBits_merge _ _ _ _ _ _ rfl rfl (by decide)]

theorem hostAddr_mbxCtl : (BitVec.ofNat 16 (regAddr .MBX_CTL 0)).toNat = regAddr .MBX_CTL 0 := by decide

theorem exec_hostWrite_mbxCtl (w : Word) : exec (.hostWrite (BitVec.ofNat 16 (regAddr .MBX_CTL 0)) w) s =
    .next (s.portWrite (regAddr .MBX_CTL 0) w) := by
  rw [← hostAddr_mbxCtl]
  rfl

theorem placed_mbxCtl : placed .MBX_CTL 0 = true := placed_of_mailbox .MBX_CTL 0 (by decide) (by decide)

/-- A row of the mailbox does nothing while its command does not run. -/
theorem mbxRow_idle {p : Instr × Nat} (hp : p ∈ mbxRows) (h0 : s.mbxRuns p.2 0 = false) (h2 : s.mbxRuns p.2 2 = false) :
    exec p.1 s = .next s := by
  have hrun : ∀ n f, s.mbxRuns n 0 = false → s.mbxRun n f = s := fun n f h => if_neg (by rw [h]; exact Bool.false_ne_true)
  have hsweep : s.mbxRuns 9 0 = false → s.mbxRuns 9 2 = false → s.mbxSweep = s := fun h h' =>
    (if_neg (by rw [h']; exact Bool.false_ne_true)).trans (hrun 9 _ h)
  have hstart : s.mbxRuns 10 0 = false → s.mbxRuns 10 2 = false → s.mbxStationRun = s := fun h h' =>
    (if_neg (by rw [h']; exact Bool.false_ne_true)).trans (hrun 10 _ h)
  simp only [mbxRows, List.mem_cons, List.not_mem_nil, or_false] at hp
  obtain rfl | rfl | rfl | rfl | rfl | rfl | rfl | rfl | rfl | rfl | rfl | rfl | rfl | rfl | rfl := hp
  case inr.inr.inr.inr.inr.inr.inr.inr.inl => exact congrArg Host.Outcome.next (hsweep h0 h2)
  case inr.inr.inr.inr.inr.inr.inr.inr.inr.inl => exact congrArg Host.Outcome.next (hstart h0 h2)
  all_goals exact congrArg Host.Outcome.next (hrun _ _ h0)

theorem fld_of_get {u : State} {rg : RegFile} {f : Field} {i : Nat} (h : rg.get f.reg i = u.reg f.reg i) :
    getBits (rg.get f.reg i) f.lo f.width = u.fld f i := congrArg (getBits · f.lo f.width) h

theorem flag_of_get {u : State} {rg : RegFile} {f : Field} {i : Nat} (h : rg.get f.reg i = u.reg f.reg i) :
    (getBits (rg.get f.reg i) f.lo f.width == 1) = u.flag f i := congrArg (getBits · f.lo f.width == 1) h

end OutputCommands

/-! ### The clauses of O55 -/

theorem mailbox_go_starts :
    ∀ (s : State) (k : Fin 16), s.serves = true → s.mbx.busy = false → k.val ≠ 0 →
    completes (.hostWrite (BitVec.ofNat 16 (regAddr .MBX_CTL 0)) (BitVec.ofNat 32 (2 ^ 31 + k.val))) s fun t =>
      t.mbx = ⟨true, 0, 0⟩ ∧ t.mbxRuns k 0 = (!s.reloads.contains 0) ∧ s.wrote t := by
  intro s k h hb hk
  have hw : getBits (BitVec.ofNat 32 (2 ^ 31 + k.val)) 0 8 = k.val := (getBits_ofNat _ 0 8 (by decide)).trans (by omega)
  have h31 : bitOf (BitVec.ofNat 32 (2 ^ 31 + k.val)) 31 = true := by
    revert k
    decide
  obtain ⟨hmbx, hrel, hhalt, hkey, hcmd⟩ := mbxStarted_facts (s := s) (BitVec.ofNat 32 (2 ^ 31 + k.val))
  have hwr := writeMbxCtl_starts (s := s) hb h31 (by omega) (by omega)
  rw [hw] at hcmd
  generalize s.mbxStarted (BitVec.ofNat 32 (2 ^ 31 + k.val)) = u at hmbx hrel hhalt hkey hcmd hwr
  obtain ⟨v, hv, ⟨fl, st, hform⟩, hsaved⟩ := hostWrite_saved h placed_mbxCtl rfl hwr
  have hserve : v.serves = true := (serves_of_portKey (hsaved.trans hkey)).trans h
  have hvm : v.mbx = ⟨true, 0, 0⟩ := (show v.mbx = u.mbx from hform ▸ rfl).trans hmbx
  have hvr : v.reloads = s.reloads := (show v.reloads = u.reloads from hform ▸ rfl).trans hrel
  have hvc : v.fld Fields.MBX_CTL_CMD 0 = k.val := (show v.fld Fields.MBX_CTL_CMD 0 = u.fld Fields.MBX_CTL_CMD 0 from hform ▸ rfl).trans hcmd
  have hvw : v.hwRel = s.now := hform ▸ rfl
  refine ⟨_, (exec_hostWrite_mbxCtl _).trans (congrArg _ (portWrite_of_accepted h hv)), hvm, ?_, ⟨rfl, hvw⟩⟩
  change (v.mbx.busy && v.itsTurn && v.mbx.stage == 0 && v.fld Fields.MBX_CTL_CMD 0 == k.val && !v.reloads.contains 0 && !v.halted) = _
  rw [hvm, turn_of_serves v hserve, hvc, hvr, not_halted_of_serves hserve]
  simp

theorem mailbox_go_busy :
    ∀ (s : State) (w : Word), s.serves = true → s.mbx.busy = true → bitOf w 31 = true →
    completes (.hostWrite (BitVec.ofNat 16 (regAddr .MBX_CTL 0)) w) s fun t => t.refusedWith .busy ∧ t.mbx = s.mbx := by
  intro s w h hb h31
  have hp := portWrite_refused s s .MBX_CTL 0 w .busy h placed_mbxCtl rfl (writeMbxCtl_busy hb h31) (by decide) (by decide)
  have hmbx : ∀ (u : State) a k, (u.hspiError a k).mbx = u.mbx := fun u a k => by
    obtain ⟨rg, sk, he⟩ := hspiError_form u a k
    rw [he]
  refine ⟨_, (exec_hostWrite_mbxCtl w).trans (congrArg _ hp), ⟨?_, hspiError_flag ..⟩, hmbx _ _ _⟩
  rw [hspiError_hspi]
  rfl

theorem mailbox_go_reserved :
    ∀ (s : State) (w : Word), s.serves = true → s.mbx.busy = false → bitOf w 31 = true → (getBits w 0 8 = 0 ∨ 15 < getBits w 0 8) →
    completes (.hostWrite (BitVec.ofNat 16 (regAddr .MBX_CTL 0)) w) s fun t => t.mbxDone 3 ∧ s.wrote t := by
  intro s w h hb h31 hc
  have hd := mbxEnd_done (s.plainWrite .MBX_CTL 0 w) 3 (by decide)
  have hwr := writeMbxCtl_reserved (s := s) hb h31 hc
  generalize (s.plainWrite .MBX_CTL 0 w).mbxEnd 3 = u at hd hwr
  obtain ⟨fl, st, ht⟩ := portWrite_ok s u .MBX_CTL 0 w h placed_mbxCtl rfl hwr
  exact ⟨_, (exec_hostWrite_mbxCtl w).trans (congrArg _ ht), hd, rfl, rfl⟩

theorem mailbox_rows_idle :
    ∀ s : State, ∀ p ∈ mbxRows, s.mbxRuns p.2 0 = false → s.mbxRuns p.2 2 = false → completes p.1 s fun t => t = s := by
  intro s p hp h0 h2
  exact ⟨s, mbxRow_idle hp h0 h2, rfl⟩

theorem mailbox_info_returns :
    ∀ s : State, s.mbxRuns 1 0 = true → s.power ≠ 1 → completes .mbxInfo s fun t => t.mbxDone 0 ∧ t.raises = s.raises ∧
    t.reg .MBX_ARG 0 = s.readWord .GLB_ID 0 ∧ t.reg .MBX_ARG 1 = s.otp.serial.extractLsb' 0 32 ∧
    t.reg .MBX_ARG 2 = s.otp.serial.extractLsb' 32 32 ∧ t.reg .MBX_ARG 3 = s.readWord .UPD_ACTVER 0 ∧
    t.reg .MBX_ARG 4 = s.readWord .UPD_FW 0 ∧ t.cores = s.cores ∧ t.outs = s.outs := by
  intro s hr h1
  refine completes_of_mbxDo rfl hr rfl rfl h1 fun rg sk m hd hreg harg => ⟨hd, rfl, ?_⟩
  exact ⟨harg 0 (by simp), harg 1 (by simp), harg 2 (by simp), harg 3 (by simp), harg 4 (by simp), rfl, rfl⟩

theorem mailbox_outLevel_writes :
    ∀ (s : State) (o : Fin 32), s.serves = true → s.mbxRuns 5 0 = true → (s.arg 0).toNat = o.val → (s.arg 1).toNat ≤ 1 →
    (s.arg 2).toNat ≤ 240 → (s.arg 3).toNat ≤ 65535 →
    (s.outOwned o = false → ((s.arg 1).toNat = 0 ∨ 8 ≤ o.val) → completes .mbxOutLevel s fun t => t.mbxDone 0 ∧
      t.fld Fields.OUT_DRV_MODE o = (s.arg 1).toNat ∧ t.fld Fields.OUT_DRV_AMP o = (s.arg 2).toNat ∧
      t.fld Fields.OUT_DRV_MINPER o = (s.arg 3).toNat ∧ (t.out o).amp = (s.arg 2).toNat ∧ t.hwRel = s.now ∧
      ∀ p : Fin 32, p ≠ o → t.out p = s.out p ∧ t.reg .OUT_DRV p = s.reg .OUT_DRV p) ∧
    (s.outOwned o = true → completes .mbxOutLevel s fun t => t.mbxDone 2 ∧ t.outs = s.outs ∧ t.reg .OUT_DRV o = s.reg .OUT_DRV o ∧
      ∃ r : Raise, t.raises = s.raises ++ [r] ∧ r.fid = Src.port_MAILBOX_ERR) := by
  intro s o h hr h0 h1 h2 h3
  have hf := mbxOutLevel_writes o.isLt h0 h1 h2 h3
  refine ⟨fun hfree hm => ?_, fun howned => ?_⟩
  · obtain ⟨u, hw, hpow, hmode, hamp, hper, hout, hothers⟩ := writeDrv_level hfree h1 h2 h3 hm
    obtain ⟨v, hv, ⟨fl, st, hform⟩, -⟩ := expertWrites_one h (placed_of_mailbox .OUT_DRV o (by decide) o.isLt) rfl hw
    subst hform
    refine completes_of_mbxDo rfl hr hf hv (fun e => power_of_serves h (hpow.symm.trans e)) fun rg sk m hd hreg _ => ?_
    have hdrv : ∀ p, rg.get .OUT_DRV p = u.reg .OUT_DRV p := fun p => hreg _ _ (by decide) (by decide)
    exact ⟨hd, (fld_of_get (f := Fields.OUT_DRV_MODE) (hdrv o)).trans hmode, (fld_of_get (f := Fields.OUT_DRV_AMP) (hdrv o)).trans hamp,
      (fld_of_get (f := Fields.OUT_DRV_MINPER) (hdrv o)).trans hper, hout, rfl, fun p hp =>
      ⟨(hothers p hp).1, (hdrv p).trans (hothers p hp).2⟩⟩
  · have hw := expertWrites_refused (l := []) h (placed_of_mailbox .OUT_DRV o (by decide) o.isLt) rfl
      (writeDrv_owned (w := s.levelWord o) howned) (by decide) (by decide)
    refine completes_of_mbxEnd rfl hr (hf.trans (mbxDo_refused hw (by decide))) (by decide) fun rg sk m rs hd hreg _ hra => ?_
    exact ⟨hd, rfl, hreg _ _ (by decide), hra (by decide)⟩

theorem mailbox_outLevel_range :
    ∀ s : State, s.mbxRuns 5 0 = true → (32 ≤ (s.arg 0).toNat ∨ 1 < (s.arg 1).toNat ∨ 240 < (s.arg 2).toNat) →
    completes .mbxOutLevel s fun t => t.mbxDone 3 ∧ t.outs = s.outs ∧ (∀ o : Fin 32, t.reg .OUT_DRV o = s.reg .OUT_DRV o) ∧
      ∃ r : Raise, t.raises = s.raises ++ [r] ∧ r.fid = Src.port_MAILBOX_ERR := by
  intro s hr h
  exact completes_of_mbxEnd rfl hr (mbxOutLevel_range h) (by decide) fun rg sk m rs hd hreg _ hra =>
    ⟨hd, rfl, fun o => hreg _ _ (by decide), hra (by decide)⟩

theorem mailbox_outOff_writes :
    ∀ s : State, s.serves = true → s.mbxRuns 6 0 = true → (∀ o : Fin 32, bitOf (s.arg 0) o = true → s.outTaken o = false) →
    completes .mbxOutOff s fun t => t.mbxDone 0 ∧ ∀ o : Fin 32,
      (bitOf (s.arg 0) o = true → t.flag Fields.OUT_CFG_EN o = false) ∧
      (bitOf (s.arg 0) o = false → t.out o = s.out o ∧ t.reg .OUT_CFG o = s.reg .OUT_CFG o) := by
  intro s h hr ht
  have hfree : ∀ o ∈ (List.finRange 32).filter fun o : Fin 32 => bitOf (s.arg 0) o.val, s.outTaken o = false := fun o ho =>
    ht o (List.mem_filter.1 ho).2
  obtain ⟨v, hv, hkey, hoff, hothers⟩ := expertWrites_off _ s ((List.nodup_finRange 32).filter _) h hfree
  have hany : (bitsOf (s.arg 0) 32).any s.outTaken = false := by
    rw [List.any_eq_false]
    intro o ho
    obtain ⟨h32, hb⟩ := (mem_bitsOf _ _ _).1 ho
    rw [ht ⟨o, h32⟩ hb]
    exact Bool.false_ne_true
  have hf : s.mbxOutOff = s.mbxDo (((List.finRange 32).filter fun o : Fin 32 => bitOf (s.arg 0) o.val).map fun o : Fin 32 =>
      (regAddr .OUT_CFG o, setBit (s.reg .OUT_CFG o) 31 false)) fun _ => [] := by
    rw [← bitsOf_map (s.arg 0) fun o => (regAddr .OUT_CFG o, setBit (s.reg .OUT_CFG o) 31 false)]
    exact if_neg (by rw [hany]; exact Bool.false_ne_true)
  refine completes_of_mbxDo rfl hr hf hv (by rw [power_of_portKey hkey]; exact power_of_serves h) fun rg sk m hd hreg _ => ⟨hd, fun o => ?_⟩
  have hcfg : rg.get .OUT_CFG o = v.reg .OUT_CFG o := hreg _ _ (by decide) (by decide)
  refine ⟨fun hb => (flag_of_get (f := Fields.OUT_CFG_EN) hcfg).trans (hoff o ?_), fun hb => ?_⟩
  · exact List.mem_filter.2 ⟨List.mem_finRange o, hb⟩
  · obtain ⟨ho, hrg⟩ := hothers o fun hm => Bool.false_ne_true (hb.symm.trans (List.mem_filter.1 hm).2)
    exact ⟨ho, hcfg.trans hrg⟩

theorem mailbox_outOff_taken :
    ∀ (s : State) (o : Fin 32), s.mbxRuns 6 0 = true → bitOf (s.arg 0) o = true → s.outTaken o = true →
    completes .mbxOutOff s fun t => t.mbxDone 2 ∧ t.outs = s.outs ∧ ∀ p : Fin 32, t.reg .OUT_CFG p = s.reg .OUT_CFG p := by
  intro s o hr hb ht
  have hf : s.mbxOutOff = s.mbxEnd 2 :=
    if_pos (List.any_eq_true.2 ⟨o.val, (mem_bitsOf _ _ _).2 ⟨o.isLt, hb⟩, ht⟩)
  exact completes_of_mbxEnd rfl hr hf (by decide) fun rg sk m rs hd hreg _ _ => ⟨hd, rfl, fun p => hreg _ _ (by decide)⟩

theorem mailbox_sysref_writes :
    ∀ (s : State) (o : Fin 32), s.serves = true → s.mbxRuns 7 0 = true → (s.arg 0).toNat = o.val → 2 ≤ (s.arg 2).toNat →
    (s.arg 2).toNat ≤ 4096 → (s.arg 3).toNat ≤ 65535 → (s.arg 4).toNat = 3 → s.outTaken o = false →
    completes .mbxSysref s fun t => t.mbxDone 0 ∧ t.fld Fields.OUT_SYSPULSE_P o = (s.arg 2).toNat % 4096 ∧
      t.fld Fields.OUT_SYSPULSE_WIDTH o = (s.arg 3).toNat ∧ t.fld Fields.OUT_SYSREF_SMODE o = getBits (s.arg 1) 0 2 ∧
      t.fld Fields.OUT_SYSREF_COUNT o = getBits (s.arg 1) 2 8 ∧ t.raises = s.raises := by
  intro s o h hr h0 h2 h2' h3 h4 ht
  obtain ⟨v, hv, hpow, hra, hp, hw, hs, hc⟩ := expertWrites_sysref (o := o) h (outOwned_of_not_taken ht) h3
  refine completes_of_mbxDo rfl hr (mbxSysref_writes o.isLt h0 h2 h2' h3 h4 ht) hv (by rw [hpow]; exact power_of_serves h)
    fun rg sk m hd hreg _ => ?_
  have hreg' : ∀ r i, r ≠ .MBX_STAT → r ≠ .MBX_ARG → rg.get r i = v.reg r i := hreg
  exact ⟨hd, (fld_of_get (f := Fields.OUT_SYSPULSE_P) (hreg' _ _ (by decide) (by decide))).trans hp,
    (fld_of_get (f := Fields.OUT_SYSPULSE_WIDTH) (hreg' _ _ (by decide) (by decide))).trans hw,
    (fld_of_get (f := Fields.OUT_SYSREF_SMODE) (hreg' _ _ (by decide) (by decide))).trans hs,
    (fld_of_get (f := Fields.OUT_SYSREF_COUNT) (hreg' _ _ (by decide) (by decide))).trans hc, hra⟩

theorem mailbox_extest_acts :
    ∀ s : State, completes .extest s fun t => t = { s with pins := { s.pins with extest := true } } := by
  intro s
  exact ⟨_, rfl, rfl⟩

/-- Settles O55: a command of the mailbox by the writes it makes, which the host port's rules take, and by how it ends. -/
theorem mailboxServesOutputs : Obligations.MailboxServesOutputs :=
  ⟨mailbox_go_starts, mailbox_go_busy, mailbox_go_reserved, mailbox_rows_idle, mailbox_info_returns, mailbox_outLevel_writes, mailbox_outLevel_range, mailbox_outOff_writes, mailbox_outOff_taken, mailbox_sysref_writes, mailbox_extest_acts⟩

end Sys2Proof.Machine

namespace Sys2Proof.Machine

/-! ## OUT_PHASE (R626) -/

section Phase

theorem nearest_close {q : Rat} (h : 0 ≤ q) : |(nearest q : Rat) - q| ≤ 1 / 2 := by
  have hf : (0 : Int) ≤ (q + 1 / 2).floor := Rat.le_floor_iff.2 (by push_cast; linarith)
  have hn : ((nearest q : Nat) : Rat) = ((q + 1 / 2).floor : Rat) := by
    rw [nearest]
    exact_mod_cast Int.toNat_of_nonneg hf
  have h1 : (((q + 1 / 2).floor : Int) : Rat) ≤ q + 1 / 2 := Rat.floor_le _
  have h2 : q + 1 / 2 < (((q + 1 / 2).floor : Int) : Rat) + 1 := by exact_mod_cast Rat.lt_floor_add_one _
  rw [hn, abs_le]
  constructor <;> linarith

theorem nearest_lt {q : Rat} {n : Nat} (h : 0 ≤ q) (hq : q < n) : nearest q ≤ n := by
  have hc := nearest_close h
  have : ((nearest q : Nat) : Rat) < n + 1 := by
    have := (abs_le.1 hc).2
    linarith
  exact Nat.lt_succ_iff.1 (by exact_mod_cast this)

/-- Core half cycles of a delay, and the quarter picoseconds that are left (R626). -/
def phaseCoarse (f tau : Rat) : Nat := (2 * f * tau).floor.toNat
def phaseFine (f tau : Rat) : Nat := nearest ((tau - phaseCoarse f tau / (2 * f)) * 4000000000000)

/-- The delay that is realised lies within an eighth of a picosecond of the one asked for, and fits OUT_DELAY. -/
theorem phase_close {f tau : Rat} (hf : 7000000000 ≤ f) (ht : 0 ≤ tau) (hr : 2 * f * tau < 2048) :
    phaseCoarse f tau ≤ 2047 ∧ phaseFine f tau ≤ 286 ∧
      |(phaseCoarse f tau : Rat) / (2 * f) + (phaseFine f tau : Rat) / 4000000000000 - tau| ≤ 1 / 8000000000000 := by
  have hf0 : 0 < 2 * f := by linarith
  have h0 : 0 ≤ 2 * f * tau := by positivity
  have hfl : (0 : Int) ≤ (2 * f * tau).floor := Rat.le_floor_iff.2 (by exact_mod_cast h0)
  have hn : ((phaseCoarse f tau : Nat) : Rat) = ((2 * f * tau).floor : Rat) := by
    rw [phaseCoarse]
    exact_mod_cast Int.toNat_of_nonneg hfl
  have h1 : ((phaseCoarse f tau : Nat) : Rat) ≤ 2 * f * tau := hn ▸ Rat.floor_le _
  have h2 : 2 * f * tau < (phaseCoarse f tau : Nat) + 1 := hn ▸ (by exact_mod_cast Rat.lt_floor_add_one _)
  have hlow : (phaseCoarse f tau : Rat) / (2 * f) ≤ tau := by
    rw [div_le_iff₀ hf0]
    linarith
  have hhigh : tau - (phaseCoarse f tau : Rat) / (2 * f) < 1 / (2 * f) := by
    rw [sub_lt_iff_lt_add, ← add_div, lt_div_iff₀ hf0]
    linarith
  have hq0 : 0 ≤ (tau - (phaseCoarse f tau : Rat) / (2 * f)) * 4000000000000 := mul_nonneg (by linarith) (by norm_num)
  have hsmall : 1 / (2 * f) ≤ 1 / 14000000000 := one_div_le_one_div_of_le (by norm_num) (by linarith)
  refine ⟨?_, nearest_lt hq0 ?_, ?_⟩
  · have : ((phaseCoarse f tau : Nat) : Rat) < 2048 := lt_of_le_of_lt h1 hr
    exact Nat.lt_succ_iff.1 (by exact_mod_cast this)
  · push_cast
    linarith
  · have hc := abs_le.1 (nearest_close hq0)
    rw [← phaseFine] at hc
    rw [abs_le]
    constructor <;> linarith [hc.1, hc.2]

end Phase

section PhaseCommand
variable {s : State} {o : Fin 32}

/-- The delay that OUT_PHASE asks for. -/
def State.phaseTau (s : State) (o c : Nat) : Rat :=
  ((s.arg 1).toNat : Rat) / (2 ^ 32 * ((s.core c).applied.hz * s.mulOf o / s.divOf o))

/-- The word of OUT_DELAY for a core's half cycles and quarter picoseconds. -/
def delayWord (coarse fine : Nat) : Word := BitVec.ofNat 32 (coarse * 2 ^ 16 + fine)

theorem mbxOutPhase_unlocked {c : Nat} (h0 : (s.arg 0).toNat = o.val) (ht : s.outTaken o = false) (hs : s.srcOf o = some c)
    (hl : (s.core c).state ≠ .locked) : s.mbxOutPhase = s.mbxEnd 6 := by
  unfold State.mbxOutPhase
  rw [h0]
  simp only [hs, ht, Nat.not_le.2 o.isLt, Bool.false_eq_true, if_false, if_pos hl]

theorem mbxOutPhase_writes {c : Nat} (h0 : (s.arg 0).toNat = o.val) (ht : s.outTaken o = false) (hs : s.srcOf o = some c)
    (hl : (s.core c).state = .locked) (hc : phaseCoarse (s.core c).applied.hz (s.phaseTau o c) ≤ 2047) :
    ∃ w, s.mbxOutPhase = s.mbxDo [(regAddr .OUT_DELAY o, delayWord (phaseCoarse (s.core c).applied.hz (s.phaseTau o c))
        (phaseFine (s.core c).applied.hz (s.phaseTau o c)))] fun _ =>
      [BitVec.ofNat 32 (phaseCoarse (s.core c).applied.hz (s.phaseTau o c)),
        BitVec.ofNat 32 (phaseFine (s.core c).applied.hz (s.phaseTau o c)), w] := by
  unfold State.mbxOutPhase
  rw [h0]
  simp only [hs, ht, hl, Nat.not_le.2 o.isLt, Bool.false_eq_true, if_false, ne_eq, not_true_eq_false]
  exact ⟨_, if_neg (Nat.not_lt.2 hc)⟩

theorem phaseTau_nonneg {c : Nat} (hf : 7000000000 ≤ (s.core c).applied.hz) : 0 ≤ s.phaseTau o c := by
  have h : 0 ≤ (s.core c).applied.hz := by linarith
  unfold State.phaseTau
  positivity

/-- A write of OUT_DELAY stores its fields (R327). -/
theorem writeDelay_stores {a b : Nat} (hfree : s.outOwned o = false) (ha : a ≤ 2047) (hb : b ≤ 286) :
    ∃ u, s.writeReg .OUT_DELAY o (delayWord a b) = (.ok, u) ∧ u.raises = s.raises ∧ u.power = s.power ∧
      u.fld Fields.OUT_DELAY_COARSE o = a ∧ u.fld Fields.OUT_DELAY_FINE o = b := by
  have hfld : ∀ f : Field, f.reg = .OUT_DELAY → (regSpec .OUT_DELAY).rw.extractLsb' f.lo f.width = BitVec.allOnes f.width →
      (s.plainWrite .OUT_DELAY o (delayWord a b)).fld f o = getBits (delayWord a b) f.lo f.width := fun f hf hin => by
    rw [State.fld, hf, State.plainWrite, State.reg_setReg_self, getBits_merge _ _ _ _ _ _ rfl rfl hin]
  refine ⟨_, writeReg_delay s o _ hfree, rfl, ?_, ?_, ?_⟩
  · exact fld_of_reg (f := Fields.PWR_STATE_STATE) (reg_plainWrite_other s _ _ _ _ _ (by decide))
  · exact (hfld Fields.OUT_DELAY_COARSE rfl (by decide)).trans ((getBits_ofNat _ 16 11 (by decide)).trans (by omega))
  · exact (hfld Fields.OUT_DELAY_FINE rfl (by decide)).trans ((getBits_ofNat _ 0 10 (by decide)).trans (by omega))

end PhaseCommand

/-! ## SYNC_ARM (R177, R179) -/

section PlainWrites
variable {s : State}

/-- A register that a host write changes by its access codes alone, at its place. -/
structure PlainReg (r : RegName) : Prop where
  rule : ∀ (s : State) w, s.writeReg r 0 w = (.ok, s.plainWrite r 0 w)
  placed : placed r 0 = true
  keyless : (regSpec r).wk = false
  key : r ≠ .PWR_STATE ∧ r ≠ .STORE_START ∧ r ≠ .TIME_STATE
  whole : (regSpec r).sticky = 0#32 ∧ (regSpec r).counts = []

/-- What plain writes of a command leave, their words in place. -/
structure State.tookWords (s v : State) (ws : List (RegName × Word)) : Prop where
  form : ∃ rg fl st hw, v = { s with regs := rg, fleet := fl, store := st, hwRel := hw }
  key : v.portKey = s.portKey
  others : ∀ r i, (∀ p ∈ ws, p.1 ≠ r) → v.reg r i = s.reg r i
  taken : ∀ p ∈ ws, v.reg p.1 0 = (regSpec p.1).merge (s.stuckNow p.1 0) (s.reg p.1 0) p.2

/-- Plain writes of a command are released one after another, and the rest follow them. -/
theorem expertWrites_plain (ws : List (RegName × Word)) (l : List (Nat × Word)) (s : State) (h : s.serves = true)
    (hp : ∀ p ∈ ws, PlainReg p.1) (hd : (ws.map Prod.fst).Nodup) :
    ∃ v, s.expertWrites ((ws.map fun p => (regAddr p.1 0, p.2)) ++ l) = v.expertWrites l ∧ s.tookWords v ws := by
  induction ws generalizing s with
  | nil => exact ⟨s, rfl, ⟨s.regs, s.fleet, s.store, s.hwRel, rfl⟩, rfl, fun _ _ _ => rfl, fun _ hm => absurd hm List.not_mem_nil⟩
  | cons p ws ih =>
    obtain ⟨hno, hd⟩ := List.nodup_cons.1 hd
    obtain ⟨hrule, hplaced, hkeyless, ⟨h1, h2, h3⟩, -⟩ := hp p List.mem_cons_self
    obtain ⟨x, hx, ⟨fl, st, hform⟩, hkey⟩ := expertWrites_next (l := (ws.map fun p => (regAddr p.1 0, p.2)) ++ l) h hplaced
      (by rw [hkeyless]; rfl) (hrule s p.2)
    have hxk : x.portKey = s.portKey := hkey.trans (portKey_setReg _ _ _ _ h1 h2 h3)
    obtain ⟨v, hv, ⟨rg, fl', st', hw, hvf⟩, hvk, hvo, hvt⟩ := ih x ((serves_of_portKey hxk).trans h)
      (fun q hq => hp q (List.mem_cons_of_mem _ hq)) hd
    have hxr : ∀ r i, x.reg r i = (s.plainWrite p.1 0 p.2).reg r i := fun r i => hform ▸ rfl
    have hxs : ∀ r i, x.stuckNow r i = s.stuckNow r i := fun r i => hform ▸ rfl
    have hxother : ∀ r i, p.1 ≠ r → x.reg r i = s.reg r i := fun r i hr => (hxr r i).trans (reg_plainWrite_other s _ _ _ _ _ hr)
    refine ⟨v, hx.trans hv, ⟨rg, fl', st', hw, by rw [hvf, hform]; rfl⟩, hvk.trans hxk, fun r i hr => ?_, fun q hq => ?_⟩
    · exact (hvo r i fun q hq => hr q (List.mem_cons_of_mem _ hq)).trans (hxother r i (hr p List.mem_cons_self))
    · obtain rfl | hm := List.mem_cons.1 hq
      · rw [hvo q.1 0 fun y hy e => hno (e ▸ List.mem_map_of_mem hy), hxr, State.plainWrite, State.reg_setReg_self]
      · rw [hvt q hm, hxs, hxother q.1 0 fun e => hno (e ▸ List.mem_map_of_mem hm)]

/-- The registers of the arming window and the preset. -/
theorem plainReg_sync {r : RegName} (h : r ∈ [RegName.TIME_SYNCCFG_LO, .TIME_SYNCCFG_HI, .TIME_SYNCMASK, .TIME_PRESET_LO, .TIME_PRESET_HI]) :
    PlainReg r := by
  simp only [List.mem_cons, List.not_mem_nil, or_false] at h
  obtain rfl | rfl | rfl | rfl | rfl := h
  all_goals
    exact ⟨fun _ _ => rfl, placed_of_mailbox _ _ (by decide) (by decide), rfl, by decide, by decide⟩

end PlainWrites

section SyncArm
variable {s v : State}

/-- The words of SYNC_ARM before its command. -/
def State.syncWords (s : State) : List (RegName × Word) :=
  [(.TIME_SYNCCFG_LO, s.withFields .TIME_SYNCCFG_LO 0 [(Fields.TIME_SYNCCFG_LO_LATENCY, getBits (s.arg 1) 16 16)]),
    (.TIME_SYNCCFG_HI, s.withFields .TIME_SYNCCFG_HI 0 [(Fields.TIME_SYNCCFG_HI_WINDOW, getBits (s.arg 1) 0 16)]),
    (.TIME_SYNCMASK, s.arg 0)] ++ if bitOf (s.arg 2) 0 then [(.TIME_PRESET_LO, s.arg 3), (.TIME_PRESET_HI, s.arg 4)] else []

/-- ARM, with LOAD or without. -/
def armWord (load : Bool) : Word := if load then 0xC0000000#32 else 0x80000000#32

theorem mbxSyncArm_writes (hn : s.sync = none) (hl : bitOf (s.arg 2) 0 = true → s.loadArmed = false ∧ s.loadAllowed = true) :
    s.mbxSyncArm = s.mbxDo ((s.syncWords.map fun p => (regAddr p.1 0, p.2)) ++ [(regAddr .TIME_SYNCCMD 0, armWord (bitOf (s.arg 2) 0))])
      fun _ => [] := by
  have hok : (s.sync.isSome || (bitOf (s.arg 2) 0 && (s.loadArmed || !s.loadAllowed))) = false := by
    rw [hn]
    cases hb : bitOf (s.arg 2) 0 with
    | false => rfl
    | true =>
      obtain ⟨h1, h2⟩ := hl hb
      rw [h1, h2]
      rfl
  refine (if_neg (by rw [hok]; exact Bool.false_ne_true)).trans ?_
  rw [State.syncWords, armWord]
  cases bitOf (s.arg 2) 0 <;> rfl

/-- The registers of `syncWords`. -/
def syncRegs (load : Bool) : List RegName :=
  [.TIME_SYNCCFG_LO, .TIME_SYNCCFG_HI, .TIME_SYNCMASK] ++ if load then [.TIME_PRESET_LO, .TIME_PRESET_HI] else []

theorem fst_syncWords : s.syncWords.map Prod.fst = syncRegs (bitOf (s.arg 2) 0) := by
  rw [State.syncWords, syncRegs]
  cases bitOf (s.arg 2) 0 <;> rfl

theorem reg_syncWords {p : RegName × Word} (hp : p ∈ s.syncWords) : p.1 ∈ syncRegs true := by
  have hm : p.1 ∈ syncRegs (bitOf (s.arg 2) 0) := fst_syncWords ▸ List.mem_map_of_mem hp
  have hall : ∀ load, ∀ r ∈ syncRegs load, r ∈ syncRegs true := by decide
  exact hall _ _ hm

theorem plain_syncWords : ∀ p ∈ s.syncWords, PlainReg p.1 := fun _ hp => plainReg_sync (reg_syncWords hp)

theorem nodup_syncWords : (s.syncWords.map Prod.fst).Nodup := by
  have hall : ∀ load, (syncRegs load).Nodup := by decide
  rw [fst_syncWords]
  exact hall _

/-- A timeline load is admitted as before while outputs, cores, anchors and stations are what they were. -/
theorem loadAllowed_of_tookWords {ws : List (RegName × Word)} (h : s.tookWords v ws)
    (hw : ∀ r ∈ [RegName.OUT_CFG, .TIME_STATE, .ANC_COREMAP, .ANC_GLOBAL], ∀ p ∈ ws, p.1 ≠ r) : v.loadAllowed = s.loadAllowed := by
  obtain ⟨⟨rg, fl, st, k, hform⟩, -, hothers, -⟩ := h
  have hcfg : ∀ i, v.reg .OUT_CFG i = s.reg .OUT_CFG i := fun i => hothers _ _ (hw _ (by decide))
  have htime : v.cond = s.cond := fld_of_reg (f := Fields.TIME_STATE_COND) (hothers _ _ (hw _ (by decide)))
  have hmap : ∀ c, v.ancOf c = s.ancOf c := fun c => congrArg (fun w => (bitOf w c).toNat) (hothers _ _ (hw .ANC_COREMAP (by decide)))
  have hdual : v.flag Fields.ANC_GLOBAL_DUAL 0 = s.flag Fields.ANC_GLOBAL_DUAL 0 :=
    flag_of_reg (f := Fields.ANC_GLOBAL_DUAL) (hothers _ _ (hw _ (by decide)))
  have hen : ∀ o, v.flag Fields.OUT_CFG_EN o = s.flag Fields.OUT_CFG_EN o := fun o => flag_of_reg (f := Fields.OUT_CFG_EN) (hcfg o)
  have hgate : ∀ o, v.fld Fields.OUT_CFG_HGATE o = s.fld Fields.OUT_CFG_HGATE o := fun o => fld_of_reg (f := Fields.OUT_CFG_HGATE) (hcfg o)
  have hsrc : ∀ o, v.srcOf o = s.srcOf o := fun o => by
    rw [State.srcOf, State.srcOf, fld_of_reg (f := Fields.OUT_CFG_SRC) (hcfg o)]
  have hout : ∀ o, v.out o = s.out o := fun o => hform ▸ rfl
  have hcore : ∀ c, v.core c = s.core c := fun c => hform ▸ rfl
  have hanc : ∀ a, v.anc a = s.anc a := fun a => hform ▸ rfl
  have hprim : v.primary = s.primary := hform ▸ rfl
  have hhalt : v.halted = s.halted := hform ▸ rfl
  have hrun : v.anyRunning = s.anyRunning := hform ▸ rfl
  have hag : ∀ c, v.anchorGates c = s.anchorGates c := fun c => by
    simp only [State.anchorGates, State.roleless, htime, hmap, hanc, hdual, hprim]
  have hwhy : ∀ o, v.gateWhy o = s.gateWhy o := fun o => by
    simp only [State.gateWhy, hen, hgate, hsrc, hout, hcore, hag]
  simp only [State.loadAllowed, State.allGated, State.gated, hrun, hwhy, hhalt]

/-- ARM opens the window (R177). -/
theorem writeSyncCmd_arms (load : Bool) (hn : v.sync = none) (hl : load = true → v.loadArmed = false ∧ v.loadAllowed = true) :
    v.writeReg .TIME_SYNCCMD 0 (armWord load) = (.ok, v.openSync true load) := by
  have h29 : bitOf (armWord load) 29 = false := by cases load <;> decide
  have h31 : bitOf (armWord load) 31 = true := by cases load <;> decide
  have h30 : bitOf (armWord load) 30 = load := by cases load <;> decide
  have h2 : bitOf (armWord load) 2 = false := by cases load <;> decide
  change v.writeSyncCmd (armWord load) = _
  simp only [State.writeSyncCmd, h29, h31, h30, h2, hn, Bool.false_eq_true, if_false, Option.isSome_none, Bool.and_false, Bool.false_and,
    Bool.true_or, if_true]
  cases load with
  | false => rfl
  | true =>
    obtain ⟨h1, h3⟩ := hl rfl
    simp only [h1, h3, Bool.and_false, Bool.not_true, Bool.false_eq_true, if_false]

theorem mem_syncWords : (RegName.TIME_SYNCCFG_LO, putBits (s.reg .TIME_SYNCCFG_LO 0) 16 16 (getBits (s.arg 1) 16 16)) ∈ s.syncWords ∧
    (RegName.TIME_SYNCCFG_HI, putBits (s.reg .TIME_SYNCCFG_HI 0) 0 16 (getBits (s.arg 1) 0 16)) ∈ s.syncWords ∧
    (RegName.TIME_SYNCMASK, s.arg 0) ∈ s.syncWords ∧
    (bitOf (s.arg 2) 0 = true → (RegName.TIME_PRESET_LO, s.arg 3) ∈ s.syncWords ∧ (RegName.TIME_PRESET_HI, s.arg 4) ∈ s.syncWords) := by
  refine ⟨List.mem_append_left _ List.mem_cons_self, List.mem_append_left _ (List.mem_cons_of_mem _ List.mem_cons_self),
    List.mem_append_left _ (List.mem_cons_of_mem _ (List.mem_cons_of_mem _ List.mem_cons_self)), fun h => ?_⟩
  rw [State.syncWords, if_pos h]
  exact ⟨List.mem_append_right _ List.mem_cons_self, List.mem_append_right _ (List.mem_cons_of_mem _ List.mem_cons_self)⟩

/-- What SYNC_ARM's writes leave. -/
theorem expertWrites_syncArm (h : s.serves = true) (hn : s.sync = none)
    (hl : bitOf (s.arg 2) 0 = true → s.loadArmed = false ∧ s.loadAllowed = true) :
    ∃ z, s.expertWrites ((s.syncWords.map fun p => (regAddr p.1 0, p.2)) ++
        [(regAddr .TIME_SYNCCMD 0, armWord (bitOf (s.arg 2) 0))]) = (.ok, z) ∧ z.power = s.power ∧
      z.fld Fields.TIME_SYNCCFG_LO_LATENCY 0 = getBits (s.arg 1) 16 16 ∧ z.reg .TIME_SYNCMASK 0 = s.arg 0 ∧
      z.sync = some ⟨if getBits (s.arg 1) 0 16 = 0 then none else some (s.elapsed + 1000 * getBits (s.arg 1) 0 16), false, true,
        bitOf (s.arg 2) 0⟩ ∧
      (bitOf (s.arg 2) 0 = true → z.reg .TIME_PRESET_LO 0 = s.arg 3 ∧ z.reg .TIME_PRESET_HI 0 = s.arg 4) := by
  obtain ⟨v, hv, htook⟩ := expertWrites_plain s.syncWords [(regAddr .TIME_SYNCCMD 0, armWord (bitOf (s.arg 2) 0))] s h plain_syncWords
    nodup_syncWords
  have hallow := loadAllowed_of_tookWords htook fun r hr p hp e => by
    have hne : ∀ r ∈ [RegName.OUT_CFG, .TIME_STATE, .ANC_COREMAP, .ANC_GLOBAL], r ∉ syncRegs true := by decide
    exact hne r hr (e ▸ reg_syncWords hp)
  obtain ⟨⟨rg, fl, st, k, hform⟩, hkey, -, htaken⟩ := htook
  have hvs : v.sync = none := (show v.sync = s.sync from hform ▸ rfl).trans hn
  have hva : v.loadArmed = s.loadArmed := hform ▸ rfl
  have hve : v.elapsed = s.elapsed := hform ▸ rfl
  obtain ⟨hlo, hhi, hmask, hpre⟩ := mem_syncWords (s := s)
  have htk : ∀ r w, (r, w) ∈ s.syncWords → v.reg r 0 = (regSpec r).merge (s.stuckNow r 0) (s.reg r 0) w := fun r w hm => htaken (r, w) hm
  have hwin : v.fld Fields.TIME_SYNCCFG_HI_WINDOW 0 = getBits (s.arg 1) 0 16 := by
    rw [State.fld, show Fields.TIME_SYNCCFG_HI_WINDOW.reg = .TIME_SYNCCFG_HI from rfl, htk _ _ hhi, getBits_merge _ _ _ _ _ _ rfl rfl (by decide)]
    exact (getBits_putBits_self _ _ _ _ (by decide)).trans (Nat.mod_eq_of_lt (BitVec.extractLsb' 0 16 (s.arg 1)).isLt)
  have hlat : v.fld Fields.TIME_SYNCCFG_LO_LATENCY 0 = getBits (s.arg 1) 16 16 := by
    rw [State.fld, show Fields.TIME_SYNCCFG_LO_LATENCY.reg = .TIME_SYNCCFG_LO from rfl, htk _ _ hlo, getBits_merge _ _ _ _ _ _ rfl rfl (by decide)]
    exact (getBits_putBits_self _ _ _ _ (by decide)).trans (Nat.mod_eq_of_lt (BitVec.extractLsb' 16 16 (s.arg 1)).isLt)
  have hmsk : v.reg .TIME_SYNCMASK 0 = s.arg 0 := (htk _ _ hmask).trans (merge_all _ _ _ _ rfl rfl (by decide))
  have hprv : bitOf (s.arg 2) 0 = true → v.reg .TIME_PRESET_LO 0 = s.arg 3 ∧ v.reg .TIME_PRESET_HI 0 = s.arg 4 := fun hb =>
    ⟨(htk _ _ (hpre hb).1).trans (merge_all _ _ _ _ rfl rfl (by decide)), (htk _ _ (hpre hb).2).trans (merge_all _ _ _ _ rfl rfl (by decide))⟩
  have hw := writeSyncCmd_arms (v := v) (bitOf (s.arg 2) 0) hvs fun hb => by rw [hva, hallow]; exact hl hb
  obtain ⟨z, hz, ⟨fl', st', hzf⟩, -⟩ := expertWrites_one ((serves_of_portKey hkey).trans h)
    (placed_of_command .TIME_SYNCCMD 0 (by decide) (by decide)) rfl hw
  have hreg : ∀ r i, z.reg r i = v.reg r i := fun r i => hzf ▸ rfl
  refine ⟨z, hv.trans hz, ?_, (fld_of_reg (f := Fields.TIME_SYNCCFG_LO_LATENCY) (hreg _ _)).trans hlat, (hreg _ _).trans hmsk, ?_,
    fun hb => ⟨(hreg _ _).trans (hprv hb).1, (hreg _ _).trans (hprv hb).2⟩⟩
  · exact (fld_of_reg (f := Fields.PWR_STATE_STATE) (hreg _ _)).trans (power_of_portKey hkey)
  · have hzs : z.sync = some ⟨if v.fld Fields.TIME_SYNCCFG_HI_WINDOW 0 = 0 then none else
        some (v.elapsed + 1000 * v.fld Fields.TIME_SYNCCFG_HI_WINDOW 0), false, true, bitOf (s.arg 2) 0⟩ := hzf ▸ rfl
    rw [hzs, hwin, hve]

end SyncArm

/-! ## LANE_SET and STATION_STOP -/

section LaneSet
variable {s : State} {n : Fin 16}

/-- The word of LANE_SET. -/
def State.laneWord (s : State) (n : Nat) : Word :=
  s.withFields .LN_CFG n [(Fields.LN_CFG_ROLE, getBits (s.arg 1) 0 2), (Fields.LN_CFG_FEC, getBits (s.arg 1) 2 1),
    (Fields.LN_CFG_C0EN, getBits (s.arg 1) 3 8), (Fields.LN_CFG_EN, getBits (s.arg 1) 11 1)]

theorem laneWord_fields : getBits (s.laneWord n) 29 2 = getBits (s.arg 1) 0 2 ∧ getBits (s.laneWord n) 28 1 = getBits (s.arg 1) 2 1 ∧
    getBits (s.laneWord n) 16 8 = getBits (s.arg 1) 3 8 ∧ getBits (s.laneWord n) 31 1 = getBits (s.arg 1) 11 1 ∧
    getBits (s.laneWord n) 27 1 = getBits (s.reg .LN_CFG n) 27 1 := by
  have hw : s.laneWord n = putBits (putBits (putBits (putBits (s.reg .LN_CFG n) 29 2 (getBits (s.arg 1) 0 2)) 28 1 (getBits (s.arg 1) 2 1))
    16 8 (getBits (s.arg 1) 3 8)) 31 1 (getBits (s.arg 1) 11 1) := rfl
  have hlt : ∀ lo width, getBits (s.arg 1) lo width % 2 ^ width = getBits (s.arg 1) lo width := fun lo width =>
    Nat.mod_eq_of_lt (BitVec.extractLsb' lo width (s.arg 1)).isLt
  rw [hw]
  refine ⟨?_, ?_, ?_, ?_, ?_⟩
  · rw [getBits_putBits_other _ _ _ _ _ _ (by decide) (by decide), getBits_putBits_other _ _ _ _ _ _ (by decide) (by decide),
      getBits_putBits_other _ _ _ _ _ _ (by decide) (by decide), getBits_putBits_self _ _ _ _ (by decide), hlt]
  · rw [getBits_putBits_other _ _ _ _ _ _ (by decide) (by decide), getBits_putBits_other _ _ _ _ _ _ (by decide) (by decide),
      getBits_putBits_self _ _ _ _ (by decide), hlt]
  · rw [getBits_putBits_other _ _ _ _ _ _ (by decide) (by decide), getBits_putBits_self _ _ _ _ (by decide), hlt]
  · rw [getBits_putBits_self _ _ _ _ (by decide), hlt]
  · rw [getBits_putBits_other _ _ _ _ _ _ (by decide) (by decide), getBits_putBits_other _ _ _ _ _ _ (by decide) (by decide),
      getBits_putBits_other _ _ _ _ _ _ (by decide) (by decide), getBits_putBits_other _ _ _ _ _ _ (by decide) (by decide)]

theorem reg_laneOff (k : Nat) (r : RegName) (i : Nat) (h : r ≠ .LNG_TTSTAT) : (s.laneOff k).reg r i = s.reg r i := by
  rw [State.laneOff, State.endLevel_at_reg, State.endLevel_at_reg]
  exact dropAligned_keeps s (fun u => u.reg r i) k (reg_setFld_ne _ _ _ _ _ _ h)

theorem laneOn_keeps {α : Type} (g : State → α) (hg : ∀ (s : State) n f, g (s.modLane n f) = g s) (k : Nat) : g (s.laneOn_ k) = g s := by
  unfold State.laneOn_
  split
  · rfl
  · exact (hg _ _ _).trans (hg _ _ _)

/-- A write of LN_CFG that is not refused stores its word and turns at most the lane on or off (R372, R390). -/
theorem writeLaneCfg_stores (w : Word) (h3 : s.thirdUpstream n w = false) :
    ∃ u, s.writeReg .LN_CFG n w = (.ok, u) ∧ u.outs = s.outs ∧ u.power = s.power ∧ u.reg .LN_CFG n = w &&& 0xF8FF0000#32 := by
  have hself : (s.setReg .LN_CFG n (w &&& 0xF8FF0000#32)).reg .LN_CFG n = w &&& 0xF8FF0000#32 := State.reg_setReg_self ..
  have hpow : (s.setReg .LN_CFG n (w &&& 0xF8FF0000#32)).reg .PWR_STATE 0 = s.reg .PWR_STATE 0 :=
    State.reg_setReg_other _ _ _ _ _ _ fun e => by cases e.1
  have hout : (s.setReg .LN_CFG n (w &&& 0xF8FF0000#32)).outs = s.outs := rfl
  have hw : s.writeReg .LN_CFG n w = (if !(s.setReg .LN_CFG n (w &&& 0xF8FF0000#32)).active || bitOf w 31 == s.flag Fields.LN_CFG_EN n then
      (.ok, s.setReg .LN_CFG n (w &&& 0xF8FF0000#32))
    else (.ok, if s.flag Fields.LN_CFG_EN n then (s.setReg .LN_CFG n (w &&& 0xF8FF0000#32)).laneOff n
      else (s.setReg .LN_CFG n (w &&& 0xF8FF0000#32)).laneOn_ n)) :=
    (writeReg_laneCfg s n w).trans (if_neg (by rw [h3]; exact Bool.false_ne_true))
  rw [hw]
  generalize s.setReg .LN_CFG n (w &&& 0xF8FF0000#32) = u at hself hpow hout
  split
  · exact ⟨u, rfl, hout, fld_of_reg (f := Fields.PWR_STATE_STATE) hpow, hself⟩
  · split
    · exact ⟨_, rfl, (outs_laneOff u n).trans hout,
        fld_of_reg (f := Fields.PWR_STATE_STATE) ((reg_laneOff n _ _ (by decide)).trans hpow), (reg_laneOff n _ _ (by decide)).trans hself⟩
    · exact ⟨_, rfl, (laneOn_keeps State.outs (fun _ _ _ => rfl) n).trans hout,
        fld_of_reg (f := Fields.PWR_STATE_STATE) ((laneOn_keeps (fun u => u.reg .PWR_STATE 0) (fun _ _ _ => rfl) n).trans hpow),
        (laneOn_keeps (fun u => u.reg .LN_CFG n) (fun _ _ _ => rfl) n).trans hself⟩

end LaneSet

/-- STOP leaves the other stations, the cores, the power state and the tick alone, and the station stopped (R273). -/
theorem seqStop_facts (s : State) (n : Fin 8) : ((s.seqStop n).stn n).running = false ∧ (s.seqStop n).cores = s.cores ∧
    (s.seqStop n).now = s.now ∧ (s.seqStop n).power = s.power ∧ ∀ m : Fin 8, m ≠ n → (s.seqStop n).stn m = s.stn m := by
  cases hr : (s.stn n).running with
  | false =>
    rw [seqStop_idle hr]
    exact ⟨hr, rfl, rfl, rfl, fun _ _ => rfl⟩
  | true =>
    have hne : ∀ m : Fin 8, m ≠ n → n.val ≠ m.val := fun m hm e => hm (Fin.ext e.symm)
    obtain ⟨hrun, -⟩ := seqStop_stops hr
    refine ⟨?_, ?_⟩
    · rw [Station.running, hrun]
      split <;> rfl
    · unfold State.seqStop
      simp only [hr, Bool.not_true, Bool.false_eq_true, if_false]
      split
      · exact ⟨rfl, rfl, rfl, fun m hm => (State.stn_modStn_other _ _ _ _ (hne m hm)).trans (State.stn_modStn_other _ _ _ _ (hne m hm))⟩
      · exact ⟨rfl, rfl, rfl, fun m hm => State.stn_modStn_other _ _ _ _ (hne m hm)⟩

/-! ### The clauses of O57 -/

theorem mailbox_outPhase_writes :
    ∀ (s : State) (o : Fin 32) (c : Nat), s.serves = true → s.mbxRuns 4 0 = true → (s.arg 0).toNat = o.val → s.outTaken o = false →
    s.srcOf o = some c → (s.core c).state = .locked → 7000000000 ≤ (s.core c).applied.hz →
    2 * (s.core c).applied.hz * (((s.arg 1).toNat : Rat) / (2 ^ 32 * ((s.core c).applied.hz * s.mulOf o / s.divOf o))) < 2048 →
    completes .mbxOutPhase s fun t => t.mbxDone 0 ∧ t.raises = s.raises ∧
      t.fld Fields.OUT_DELAY_COARSE o = (t.reg .MBX_ARG 0).toNat ∧ t.fld Fields.OUT_DELAY_FINE o = (t.reg .MBX_ARG 1).toNat ∧
      |((t.reg .MBX_ARG 0).toNat : Rat) / (2 * (s.core c).applied.hz) + ((t.reg .MBX_ARG 1).toNat : Rat) / 4000000000000 -
        ((s.arg 1).toNat : Rat) / (2 ^ 32 * ((s.core c).applied.hz * s.mulOf o / s.divOf o))| ≤ 1 / 8000000000000 := by
  intro s o c h hr h0 ht hs hl hf hlt
  obtain ⟨hc, hfine, hclose⟩ := phase_close (tau := s.phaseTau o c) hf (phaseTau_nonneg hf) hlt
  obtain ⟨x, hx⟩ := mbxOutPhase_writes h0 ht hs hl hc
  obtain ⟨u, hw, hra, hpow, hcoarse, hfld⟩ := writeDelay_stores (s := s) (o := o) (outOwned_of_not_taken ht) hc hfine
  obtain ⟨v, hv, ⟨fl, st, hform⟩, -⟩ := expertWrites_one h (placed_of_command .OUT_DELAY o (by decide) o.isLt) rfl hw
  subst hform
  refine completes_of_mbxDo rfl hr hx hv (fun e => power_of_serves h (hpow.symm.trans e)) fun rg sk m hd hreg harg => ?_
  have h1 : (rg.get .MBX_ARG 0).toNat = phaseCoarse (s.core c).applied.hz (s.phaseTau o c) := by
    rw [harg 0 (by simp)]
    exact Nat.mod_eq_of_lt (by omega)
  have h2 : (rg.get .MBX_ARG 1).toNat = phaseFine (s.core c).applied.hz (s.phaseTau o c) := by
    rw [harg 1 (by simp)]
    exact Nat.mod_eq_of_lt (by omega)
  have hdelay : rg.get .OUT_DELAY o = u.reg .OUT_DELAY o := hreg _ _ (by decide) (by decide)
  refine ⟨hd, hra, ?_, ?_, ?_⟩
  · exact ((fld_of_get (f := Fields.OUT_DELAY_COARSE) hdelay).trans hcoarse).trans h1.symm
  · exact ((fld_of_get (f := Fields.OUT_DELAY_FINE) hdelay).trans hfld).trans h2.symm
  · change |((rg.get .MBX_ARG 0).toNat : Rat) / _ + ((rg.get .MBX_ARG 1).toNat : Rat) / _ - _| ≤ _
    rw [h1, h2]
    exact hclose

theorem mailbox_outPhase_unlocked :
    ∀ (s : State) (o : Fin 32) (c : Nat), s.mbxRuns 4 0 = true → (s.arg 0).toNat = o.val → s.outTaken o = false →
    s.srcOf o = some c → (s.core c).state ≠ .locked → completes .mbxOutPhase s fun t => t.mbxDone 6 ∧
      t.reg .OUT_DELAY o = s.reg .OUT_DELAY o := by
  intro s o c hr h0 ht hs hl
  exact completes_of_mbxEnd rfl hr (mbxOutPhase_unlocked h0 ht hs hl) (by decide) fun rg sk m rs hd hreg _ _ =>
    ⟨hd, hreg _ _ (by decide)⟩

theorem mailbox_syncArm_writes :
    ∀ s : State, s.serves = true → s.mbxRuns 8 0 = true → s.sync = none →
    (bitOf (s.arg 2) 0 = true → s.loadArmed = false ∧ s.loadAllowed = true) →
    completes .mbxSyncArm s fun t => t.mbxDone 0 ∧ t.fld Fields.TIME_SYNCCFG_LO_LATENCY 0 = getBits (s.arg 1) 16 16 ∧
      t.reg .TIME_SYNCMASK 0 &&& (regSpec .TIME_SYNCMASK).rw = s.arg 0 &&& (regSpec .TIME_SYNCMASK).rw ∧
      t.sync = some ⟨if getBits (s.arg 1) 0 16 = 0 then none else some (s.elapsed + 1000 * getBits (s.arg 1) 0 16), false, true,
        bitOf (s.arg 2) 0⟩ ∧
      (bitOf (s.arg 2) 0 = true → t.reg .TIME_PRESET_LO 0 = s.arg 3 ∧ t.reg .TIME_PRESET_HI 0 = s.arg 4) := by
  intro s h hr hn hl
  obtain ⟨z, hz, hpow, hlat, hmask, hsync, hpre⟩ := expertWrites_syncArm h hn hl
  refine completes_of_mbxDo rfl hr (mbxSyncArm_writes hn hl) hz (by rw [hpow]; exact power_of_serves h) fun rg sk m hd hreg _ => ?_
  have hreg' : ∀ r, r ≠ .MBX_STAT → r ≠ .MBX_ARG → rg.get r 0 = z.reg r 0 := fun r => hreg r 0
  refine ⟨hd, (fld_of_get (f := Fields.TIME_SYNCCFG_LO_LATENCY) (hreg' _ (by decide) (by decide))).trans hlat, ?_, hsync, fun hb =>
    ⟨(hreg' _ (by decide) (by decide)).trans (hpre hb).1, (hreg' _ (by decide) (by decide)).trans (hpre hb).2⟩⟩
  exact congrArg (· &&& (regSpec .TIME_SYNCMASK).rw) ((hreg' _ (by decide) (by decide)).trans hmask)

theorem mailbox_syncArm_busy :
    ∀ s : State, s.mbxRuns 8 0 = true → s.sync.isSome = true → completes .mbxSyncArm s fun t => t.mbxDone 1 ∧ t.sync = s.sync := by
  intro s hr hs
  have hf : s.mbxSyncArm = s.mbxEnd 1 := if_pos (by rw [hs]; rfl)
  exact completes_of_mbxEnd rfl hr hf (by decide) fun rg sk m rs hd _ _ _ => ⟨hd, rfl⟩

theorem mailbox_stationStop_stops :
    ∀ (s : State) (n : Fin 8), s.serves = true → s.mbxRuns 11 0 = true → (s.arg 0).toNat = n.val →
    completes .mbxStationStop s fun t => t.mbxDone 0 ∧ (t.stn n).running = false ∧ t.reg .MBX_ARG 0 = loWord s.now ∧
      t.reg .MBX_ARG 1 = hiWord s.now ∧ t.cores = s.cores ∧ ∀ m : Fin 8, m ≠ n → t.stn m = s.stn m := by
  intro s n h hr h0
  obtain ⟨hrun, hcores, hnow, hpow, hothers⟩ := seqStop_facts s n
  have hw : s.writeReg .SEQ_CTL n 2#32 = (.ok, s.seqStop n) := writeReg_stop
  have hf : s.mbxStationStop = s.mbxDo [(regAddr .SEQ_CTL n, 2#32)] fun s => [loWord s.now, hiWord s.now] := by
    unfold State.mbxStationStop
    rw [h0]
    exact if_neg (Nat.not_le.2 n.isLt)
  generalize s.seqStop n = u at hrun hcores hnow hpow hothers hw
  obtain ⟨v, hv, ⟨fl, st, hform⟩, -⟩ := expertWrites_one h (placed_of_command .SEQ_CTL n (by decide) n.isLt) rfl hw
  subst hform
  refine completes_of_mbxDo rfl hr hf hv (fun e => power_of_serves h (hpow.symm.trans e)) fun rg sk m hd hreg harg => ?_
  refine ⟨hd, hrun, ?_, ?_, hcores, hothers⟩
  · exact (harg 0 (by simp)).trans (congrArg loWord hnow)
  · exact (harg 1 (by simp)).trans (congrArg hiWord hnow)

theorem mailbox_stationStop_range :
    ∀ s : State, s.mbxRuns 11 0 = true → 8 ≤ (s.arg 0).toNat → completes .mbxStationStop s fun t => t.mbxDone 3 ∧
    t.stations = s.stations := by
  intro s hr h8
  exact completes_of_mbxEnd rfl hr (if_pos h8) (by decide) fun rg sk m rs hd _ _ _ => ⟨hd, rfl⟩

theorem mailbox_laneSet_writes :
    ∀ (s : State) (n : Fin 16), s.serves = true → s.mbxRuns 12 0 = true → (s.arg 0).toNat = n.val →
    (∀ w, s.thirdUpstream n w = false) →
    completes .mbxLaneSet s fun t => t.mbxDone 0 ∧ t.fld Fields.LN_CFG_ROLE n = getBits (s.arg 1) 0 2 ∧
      t.fld Fields.LN_CFG_FEC n = getBits (s.arg 1) 2 1 ∧ t.fld Fields.LN_CFG_C0EN n = getBits (s.arg 1) 3 8 ∧
      t.flag Fields.LN_CFG_EN n = bitOf (s.arg 1) 11 ∧
      t.flag Fields.LN_CFG_AUTOSTEER n = s.flag Fields.LN_CFG_AUTOSTEER n ∧ t.outs = s.outs := by
  intro s n h hr h0 h3
  obtain ⟨u, hw, houts, hpow, hcfg⟩ := writeLaneCfg_stores (s := s) (n := n) (s.laneWord n) (h3 _)
  have hf : s.mbxLaneSet = s.mbxDo [(regAddr .LN_CFG n, s.laneWord n)] fun _ => [] := by
    unfold State.mbxLaneSet
    rw [h0]
    exact if_neg (Nat.not_le.2 n.isLt)
  obtain ⟨v, hv, ⟨fl, st, hform⟩, -⟩ := expertWrites_one h (placed_of_command .LN_CFG n (by decide) n.isLt) rfl hw
  subst hform
  obtain ⟨hrole, hfec, hc0, hen, haut⟩ := laneWord_fields (s := s) (n := n)
  refine completes_of_mbxDo rfl hr hf hv (fun e => power_of_serves h (hpow.symm.trans e)) fun rg sk m hd hreg _ => ?_
  have hget : rg.get .LN_CFG n = s.laneWord n &&& 0xF8FF0000#32 := (hreg _ _ (by decide) (by decide)).trans hcfg
  have hfld : ∀ f : Field, f.reg = .LN_CFG → (0xF8FF0000#32).extractLsb' f.lo f.width = BitVec.allOnes f.width →
      getBits (rg.get f.reg n) f.lo f.width = getBits (s.laneWord n) f.lo f.width := fun f hf hin => by
    rw [hf, hget, getBits_and_of_within _ _ _ _ hin]
  refine ⟨hd, (hfld Fields.LN_CFG_ROLE rfl (by decide)).trans hrole, (hfld Fields.LN_CFG_FEC rfl (by decide)).trans hfec,
    (hfld Fields.LN_CFG_C0EN rfl (by decide)).trans hc0, ?_, ?_, houts⟩
  · rw [bitOf_eq_getBits, ← hen]
    exact congrArg (· == 1) (hfld Fields.LN_CFG_EN rfl (by decide))
  · exact congrArg (· == 1) ((hfld Fields.LN_CFG_AUTOSTEER rfl (by decide)).trans haut)

/-- Settles O57: each command by the words it writes, which the registers' rules take. -/
theorem mailboxServesPhaseAndLanes : Obligations.MailboxServesPhaseAndLanes :=
  ⟨mailbox_outPhase_writes, mailbox_outPhase_unlocked, mailbox_syncArm_writes, mailbox_syncArm_busy, mailbox_stationStop_stops, mailbox_stationStop_range, mailbox_laneSet_writes⟩

end Sys2Proof.Machine

namespace Sys2Proof.Machine

/-! ## ANCHOR_SET and OUT_FREQ (R624, R625) -/

section Frequencies
variable {s : State}

/-- The first number of a range that meets a condition. -/
theorem find_range_first {n p : Nat} {f : Nat → Bool} (hp : p < n) (h : f p = true) (hlt : ∀ q, q < p → f q = false) :
    (List.range n).find? f = some p := by
  rw [List.find?_range_eq_some]
  exact ⟨h, List.mem_range.2 hp, fun q hq => by rw [hlt q hq]; rfl⟩

/-- The least divider that places a frequency between 7 and 14 GHz (R625). -/
theorem leastDiv_spec {f d : Nat} (h : leastDiv 1 [f] = some d) : 1 ≤ d ∧ 7000000000000 ≤ f * d ∧ f * d ≤ 14000000000000 ∧
    ∀ e, 1 ≤ e → e < d → f * e < 7000000000000 := by
  have hp : ∀ e, ([f].all fun f => decide (7000000000000 * 1 ≤ f * e) && decide (f * e ≤ 14000000000000 * 1)) = true ↔
      7000000000000 ≤ f * e ∧ f * e ≤ 14000000000000 := fun e => by simp
  rw [leastDiv, List.find?_map, Option.map_eq_some_iff] at h
  obtain ⟨k, hk, rfl⟩ := h
  rw [List.find?_range_eq_some] at hk
  obtain ⟨hk, -, hlt⟩ := hk
  obtain ⟨h7, h14⟩ := (hp (k + 1)).1 hk
  refine ⟨Nat.le_add_left 1 k, h7, h14, fun e he hek => ?_⟩
  have hno : ¬ (7000000000000 ≤ f * e ∧ f * e ≤ 14000000000000) := fun hc => by
    have := hlt (e - 1) (by omega)
    rw [Function.comp_apply, Nat.sub_add_cancel he, (hp e).2 hc] at this
    exact Bool.false_ne_true this
  have hmono : f * e ≤ f * (k + 1) := Nat.mul_le_mul_left f hek.le
  omega

/-- The word of two bits of an argument. -/
theorem toNat_bitOf (w : Word) : (bitOf w 0).toNat = getBits w 0 1 := by
  have h : getBits w 0 1 < 2 := (BitVec.extractLsb' 0 1 w).isLt
  rw [bitOf_eq_getBits]
  interval_cases getBits w 0 1 <;> rfl

/-- The writes of ANCHOR_SET with a pre-divider `p`. -/
def State.anchorWrites (s : State) (a r p : Nat) : List (Nat × Word) :=
  [(regAddr .REF_CFG r, s.withFields .REF_CFG r [(Fields.REF_CFG_PREDIV, p), (Fields.REF_CFG_EN, 1)]),
   (regAddr .REF_RATIO_NUM r, BitVec.ofNat 32 (8000000000 * (p + 1) / Nat.gcd (8000000000 * (p + 1)) (s.arg 2).toNat)),
   (regAddr .REF_RATIO_DEN r, BitVec.ofNat 32 ((s.arg 2).toNat / Nat.gcd (8000000000 * (p + 1)) (s.arg 2).toNat)),
   (regAddr .ANC_INNER_N a, BitVec.ofNat 32 (8000000000 / (s.arg 1).toNat)),
   (regAddr .ANC_INNER_NUM a, BitVec.ofNat 32 (8000000000 % (s.arg 1).toNat / Nat.gcd (8000000000 % (s.arg 1).toNat) (s.arg 1).toNat)),
   (regAddr .ANC_INNER_DEN a, BitVec.ofNat 32 ((s.arg 1).toNat / Nat.gcd (8000000000 % (s.arg 1).toNat) (s.arg 1).toNat)),
   (regAddr .ANC_CFG a, s.withFields .ANC_CFG a
     [(Fields.ANC_CFG_REFSEL, r), (Fields.ANC_CFG_BW, getBits (s.arg 0) 4 5), (Fields.ANC_CFG_EN, 1)])]

/-- The results of ANCHOR_SET. -/
def State.anchorResults (s : State) (p : Nat) : List Word :=
  [BitVec.ofNat 32 (8000000000 / (s.arg 1).toNat),
   BitVec.ofNat 32 (8000000000 % (s.arg 1).toNat / Nat.gcd (8000000000 % (s.arg 1).toNat) (s.arg 1).toNat),
   BitVec.ofNat 32 ((s.arg 1).toNat / Nat.gcd (8000000000 % (s.arg 1).toNat) (s.arg 1).toNat), BitVec.ofNat 32 p,
   BitVec.ofNat 32 (8000000000 * (p + 1) / Nat.gcd (8000000000 * (p + 1)) (s.arg 2).toNat),
   BitVec.ofNat 32 ((s.arg 2).toNat / Nat.gcd (8000000000 * (p + 1)) (s.arg 2).toNat)]

theorem anchorResults_words (s : State) (p : Nat) (hl : 5 < (s.anchorResults p).length) :
    (s.anchorResults p)[0] = BitVec.ofNat 32 (8000000000 / (s.arg 1).toNat) ∧ (s.anchorResults p)[3] = BitVec.ofNat 32 p ∧
    (s.anchorResults p)[4] = BitVec.ofNat 32 (8000000000 * (p + 1) / Nat.gcd (8000000000 * (p + 1)) (s.arg 2).toNat) ∧
      (s.anchorResults p)[5] = BitVec.ofNat 32 ((s.arg 2).toNat / Nat.gcd (8000000000 * (p + 1)) (s.arg 2).toNat) := ⟨rfl, rfl, rfl, rfl⟩

section Anchor
variable {a r : Nat}

theorem mbxAnchorSet_writes {p : Nat} (ha : getBits (s.arg 0) 0 1 = a) (hr : getBits (s.arg 0) 1 3 = r) (h3 : r ≤ 3)
    (hoff : (s.anc a).state = .off ∨ (s.anc a).state = .failed) (hlo : 80000000 ≤ (s.arg 1).toNat) (hhi : (s.arg 1).toNat ≤ 160000000)
    (hden : (s.arg 1).toNat / Nat.gcd (8000000000 % (s.arg 1).toNat) (s.arg 1).toNat < 2 ^ 24) (hp : p < 64)
    (hfit : ratioMeets (s.arg 2).toNat (p + 1) = true) (hleast : ∀ q, q < p → ratioMeets (s.arg 2).toNat (q + 1) = false) :
    s.mbxAnchorSet = s.mbxDo (s.anchorWrites a r p) fun _ => s.anchorResults p := by
  have hfind := find_range_first (f := fun p => ratioMeets (s.arg 2).toNat (p + 1)) hp hfit hleast
  have hn : 50 ≤ 8000000000 / (s.arg 1).toNat ∧ 8000000000 / (s.arg 1).toNat ≤ 100 :=
    ⟨(Nat.le_div_iff_mul_le (by omega)).2 (by omega), Nat.div_le_of_le_mul (by omega)⟩
  have hst : (!((s.anc a).state == .off || (s.anc a).state == .failed)) = false := by
    obtain h | h := hoff <;> rw [h] <;> rfl
  unfold State.mbxAnchorSet
  dsimp only
  rw [toNat_bitOf, ha, hr, hfind]
  refine (if_neg (Nat.not_lt.2 h3)).trans ((if_neg ?_).trans ((if_neg ?_).trans rfl))
  · rw [hst]
    exact Bool.false_ne_true
  · omega

theorem mbxAnchorSet_state (h3 : getBits (s.arg 0) 1 3 ≤ 3) (h1 : (s.anc (getBits (s.arg 0) 0 1)).state ≠ .off)
    (h2 : (s.anc (getBits (s.arg 0) 0 1)).state ≠ .failed) : s.mbxAnchorSet = s.mbxEnd 6 := by
  unfold State.mbxAnchorSet
  dsimp only
  rw [toNat_bitOf]
  exact (if_neg (Nat.not_lt.2 h3)).trans (if_pos (by simp [h1, h2]))

theorem mbxAnchorSet_nofit (h3 : getBits (s.arg 0) 1 3 ≤ 3) (h1 : (s.anc (getBits (s.arg 0) 0 1)).state = .off)
    (hx : (s.arg 1).toNat ≤ 79000000) : s.mbxAnchorSet = s.mbxEnd 17 := by
  have hn : (s.arg 1).toNat = 0 ∨ 100 < 8000000000 / (s.arg 1).toNat := by
    by_cases h0 : (s.arg 1).toNat = 0
    · exact .inl h0
    · exact .inr ((Nat.le_div_iff_mul_le (Nat.pos_of_ne_zero h0)).2 (by omega))
  unfold State.mbxAnchorSet
  dsimp only
  rw [toNat_bitOf]
  exact (if_neg (Nat.not_lt.2 h3)).trans ((if_neg (by simp [h1])).trans (if_pos (by omega)))

end Anchor

/-- NUM/DEN of a reference stand as 8 GHz × p stands to its frequency, and fit their registers (R62). -/
theorem ratio_reduced {f p : Nat} (h : ratioMeets f p = true) :
    8000000000 * p / Nat.gcd (8000000000 * p) f < 2 ^ 32 ∧ f / Nat.gcd (8000000000 * p) f < 2 ^ 32 ∧
      8000000000 * p / Nat.gcd (8000000000 * p) f * f = f / Nat.gcd (8000000000 * p) f * (8000000000 * p) := by
  simp only [ratioMeets, Bool.and_eq_true, decide_eq_true_eq] at h
  obtain ⟨⟨-, h1⟩, h2⟩ := h
  refine ⟨h1, h2, ?_⟩
  have hd1 := Nat.gcd_dvd_left (8000000000 * p) f
  have hd2 := Nat.gcd_dvd_right (8000000000 * p) f
  rw [Nat.div_mul_right_comm hd1, Nat.div_mul_right_comm hd2, Nat.mul_comm]

/-! ### OUT_FREQ -/

section OutFreq
variable {o : Fin 32}

/-- The writes of OUT_FREQ with a divider and a core. -/
def State.freqWrites (s : State) (o d c : Nat) : List (Nat × Word) :=
  [(regAddr .OUT_DSET01 o, s.withFields .OUT_DSET01 o [(Fields.OUT_DSET01_D0, d), (Fields.OUT_DSET01_DBL0, 0)]),
   (regAddr .OUT_CFG o, s.withFields .OUT_CFG o [(Fields.OUT_CFG_EN, 1), (Fields.OUT_CFG_HGATE, 0), (Fields.OUT_CFG_DSEL, 0),
     (Fields.OUT_CFG_SRC, c)]),
   (regAddr .CORE_CFG c, s.withFields .CORE_CFG c [(Fields.CORE_CFG_EN, 1)]),
   (regAddr .CORE_NUM_LO c, BitVec.ofNat 32 (settingOf (s.arg64 1) d 1).num),
   (regAddr .CORE_DEN_LO c, BitVec.ofNat 32 (settingOf (s.arg64 1) d 1).den),
   (regAddr .CORE_FRAC_HI c, BitVec.ofNat 32
     ((settingOf (s.arg64 1) d 1).den / 2 ^ 32 * 2 ^ 16 + (settingOf (s.arg64 1) d 1).num / 2 ^ 32)),
   (regAddr .CORE_NBAND c, BitVec.ofNat 32 ((s.tableBand c (settingOf (s.arg64 1) d 1)).1 * 2 ^ 16 +
     (s.tableBand c (settingOf (s.arg64 1) d 1)).2 * 2 ^ 8 + (settingOf (s.arg64 1) d 1).n)),
   (regAddr .CORE_CMD c, 1#32)]

section
variable (h0 : (s.arg 0).toNat = o.val)
include h0

theorem mbxOutFreq_owned (hm : s.outMasked o = true) : s.mbxOutFreq = s.mbxEnd 2 := by
  unfold State.mbxOutFreq
  rw [h0]
  exact (if_neg (Nat.not_le.2 o.isLt)).trans (if_pos hm)

variable (hm : s.outMasked o = false) (hf : s.arg64 1 ≤ 1600000000000)
include hm hf

/-- OUT_FREQ at a frequency that no divider places (R625). -/
theorem mbxOutFreq_nofit (hd : leastDiv 1 [s.arg64 1] = none) : s.mbxOutFreq = s.mbxEnd 17 := by
  have hm1 : (if o.val ≤ 7 ∧ 14000000000000 < s.arg64 1 then 2 else 1) = 1 := if_neg (by omega)
  unfold State.mbxOutFreq
  dsimp only
  rw [h0, hm1, hd]
  exact (if_neg (Nat.not_le.2 o.isLt)).trans ((if_neg (by rw [hm]; exact Bool.false_ne_true)).trans
    (if_neg fun h => Nat.not_lt.2 hf h.2))

variable {d : Nat} (hd : leastDiv 1 [s.arg64 1] = some d) (hp : (s.minPeriod o + 2) * s.arg64 1 ≤ 2000000000000000)
include hd hp

theorem mbxOutFreq_nocore (hc : s.freqCore o = none) : s.mbxOutFreq = s.mbxEnd 16 := by
  have hm1 : (if o.val ≤ 7 ∧ 14000000000000 < s.arg64 1 then 2 else 1) = 1 := if_neg (by omega)
  unfold State.mbxOutFreq
  dsimp only
  rw [h0, hm1, hd, hc]
  exact (if_neg (Nat.not_le.2 o.isLt)).trans ((if_neg (by rw [hm]; exact Bool.false_ne_true)).trans
    ((if_neg fun h => Nat.not_lt.2 hf h.2).trans ((if_neg (by omega)).trans (if_neg (Nat.not_lt.2 hp)))))

/-- OUT_FREQ sets up a free core and its output (R625). -/
theorem mbxOutFreq_writes {c : Nat} (hc : s.freqCore o = some c) : s.mbxOutFreq = s.mbxDo (s.freqWrites o d c) fun u =>
    [BitVec.ofNat 32 c, BitVec.ofNat 32 d, BitVec.ofNat 32 (settingOf (s.arg64 1) d 1).n,
      BitVec.ofNat 32 (settingOf (s.arg64 1) d 1).num, BitVec.ofNat 32 (settingOf (s.arg64 1) d 1).den,
      BitVec.ofNat 32 ((settingOf (s.arg64 1) d 1).den / 2 ^ 32 * 2 ^ 16 + (settingOf (s.arg64 1) d 1).num / 2 ^ 32),
      loWord u.hwRel] := by
  have hm1 : (if o.val ≤ 7 ∧ 14000000000000 < s.arg64 1 then 2 else 1) = 1 := if_neg (by omega)
  unfold State.mbxOutFreq
  dsimp only
  rw [h0, hm1, hd, hc]
  exact (if_neg (Nat.not_le.2 o.isLt)).trans ((if_neg (by rw [hm]; exact Bool.false_ne_true)).trans
    ((if_neg fun h => Nat.not_lt.2 hf h.2).trans ((if_neg (by omega)).trans ((if_neg (Nat.not_lt.2 hp)).trans rfl))))

end

end OutFreq

end Frequencies

/-! ### The clauses of O56 -/

theorem mailbox_anchorSet_writes :
    ∀ (s : State) (a : Fin 2) (r : Fin 4) (p : Nat) (u : State), s.mbxRuns 2 0 = true → getBits (s.arg 0) 0 1 = a.val →
    getBits (s.arg 0) 1 3 = r.val → ((s.anc a).state = .off ∨ (s.anc a).state = .failed) →
    80000000 ≤ (s.arg 1).toNat → (s.arg 1).toNat ≤ 160000000 →
    (s.arg 1).toNat / Nat.gcd (8000000000 % (s.arg 1).toNat) (s.arg 1).toNat < 2 ^ 24 → p < 64 →
    ratioMeets (s.arg 2).toNat (p + 1) = true → (∀ q, q < p → ratioMeets (s.arg 2).toNat (q + 1) = false) →
    s.expertWrites
      [(regAddr .REF_CFG r, s.withFields .REF_CFG r [(Fields.REF_CFG_PREDIV, p), (Fields.REF_CFG_EN, 1)]),
       (regAddr .REF_RATIO_NUM r, BitVec.ofNat 32 (8000000000 * (p + 1) / Nat.gcd (8000000000 * (p + 1)) (s.arg 2).toNat)),
       (regAddr .REF_RATIO_DEN r, BitVec.ofNat 32 ((s.arg 2).toNat / Nat.gcd (8000000000 * (p + 1)) (s.arg 2).toNat)),
       (regAddr .ANC_INNER_N a, BitVec.ofNat 32 (8000000000 / (s.arg 1).toNat)),
       (regAddr .ANC_INNER_NUM a, BitVec.ofNat 32
         (8000000000 % (s.arg 1).toNat / Nat.gcd (8000000000 % (s.arg 1).toNat) (s.arg 1).toNat)),
       (regAddr .ANC_INNER_DEN a, BitVec.ofNat 32 ((s.arg 1).toNat / Nat.gcd (8000000000 % (s.arg 1).toNat) (s.arg 1).toNat)),
       (regAddr .ANC_CFG a, s.withFields .ANC_CFG a
         [(Fields.ANC_CFG_REFSEL, r), (Fields.ANC_CFG_BW, getBits (s.arg 0) 4 5), (Fields.ANC_CFG_EN, 1)])] = (.ok, u) →
    u.power ≠ 1 →
    completes .mbxAnchorSet s fun t => t.mbxDone 0 ∧ t.anchors = u.anchors ∧ t.refs = u.refs ∧
      t.reg .MBX_ARG 0 = BitVec.ofNat 32 (8000000000 / (s.arg 1).toNat) ∧ t.reg .MBX_ARG 3 = BitVec.ofNat 32 p ∧
      (t.reg .MBX_ARG 4).toNat * (s.arg 2).toNat = (t.reg .MBX_ARG 5).toNat * (8000000000 * (p + 1)) := by
  intro s a r p u hr ha href hoff hlo hhi hden hp hfit hleast hw h1
  obtain ⟨hnum, hden', hratio⟩ := ratio_reduced hfit
  have hf := mbxAnchorSet_writes ha href (Nat.lt_succ_iff.1 r.isLt) hoff hlo hhi hden hp hfit hleast
  refine completes_of_mbxDo rfl hr hf hw h1 fun rg sk m hd hreg harg => ?_
  have hl : (s.anchorResults p).length = 6 := rfl
  obtain ⟨e0, e3, e4, e5⟩ := anchorResults_words s p (by omega)
  refine ⟨hd, rfl, rfl, (harg 0 (by omega)).trans e0, (harg 3 (by omega)).trans e3, ?_⟩
  have h4 : (rg.get .MBX_ARG 4).toNat = 8000000000 * (p + 1) / Nat.gcd (8000000000 * (p + 1)) (s.arg 2).toNat := by
    rw [harg 4 (by omega), e4, BitVec.toNat_ofNat, Nat.mod_eq_of_lt hnum]
  have h5 : (rg.get .MBX_ARG 5).toNat = (s.arg 2).toNat / Nat.gcd (8000000000 * (p + 1)) (s.arg 2).toNat := by
    rw [harg 5 (by omega), e5, BitVec.toNat_ofNat, Nat.mod_eq_of_lt hden']
  change (rg.get .MBX_ARG 4).toNat * _ = (rg.get .MBX_ARG 5).toNat * _
  rw [h4, h5, hratio]

theorem mailbox_anchorSet_state :
    ∀ s : State, s.mbxRuns 2 0 = true → getBits (s.arg 0) 1 3 ≤ 3 → (s.anc (getBits (s.arg 0) 0 1)).state = .steered →
    completes .mbxAnchorSet s fun t => t.mbxDone 6 ∧ t.anchors = s.anchors ∧ t.refs = s.refs := by
  intro s hr h3 hst
  have hf := mbxAnchorSet_state h3 (by rw [hst]; decide) (by rw [hst]; decide)
  exact completes_of_mbxEnd rfl hr hf (by decide) fun rg sk m rs hd _ _ _ => ⟨hd, rfl, rfl⟩

theorem mailbox_anchorSet_nofit :
    ∀ s : State, s.mbxRuns 2 0 = true → getBits (s.arg 0) 1 3 ≤ 3 → (s.anc (getBits (s.arg 0) 0 1)).state = .off →
    (s.arg 1).toNat ≤ 79000000 → completes .mbxAnchorSet s fun t => t.mbxDone 17 ∧ t.anchors = s.anchors ∧ t.refs = s.refs := by
  intro s hr h3 hst hx
  exact completes_of_mbxEnd rfl hr (mbxAnchorSet_nofit h3 hst hx) (by decide) fun rg sk m rs hd _ _ _ => ⟨hd, rfl, rfl⟩

theorem mailbox_outFreq_writes :
    ∀ (s : State) (o : Fin 32) (d : Nat) (c : Nat) (u : State), s.mbxRuns 3 0 = true → (s.arg 0).toNat = o.val →
    s.outMasked o = false → s.arg64 1 ≤ 1600000000000 → leastDiv 1 [s.arg64 1] = some d →
    (s.minPeriod o + 2) * s.arg64 1 ≤ 2000000000000000 → s.freqCore o = some c →
    s.expertWrites
      [(regAddr .OUT_DSET01 o, s.withFields .OUT_DSET01 o [(Fields.OUT_DSET01_D0, d), (Fields.OUT_DSET01_DBL0, 0)]),
       (regAddr .OUT_CFG o, s.withFields .OUT_CFG o [(Fields.OUT_CFG_EN, 1), (Fields.OUT_CFG_HGATE, 0), (Fields.OUT_CFG_DSEL, 0),
         (Fields.OUT_CFG_SRC, c)]),
       (regAddr .CORE_CFG c, s.withFields .CORE_CFG c [(Fields.CORE_CFG_EN, 1)]),
       (regAddr .CORE_NUM_LO c, BitVec.ofNat 32 (settingOf (s.arg64 1) d 1).num),
       (regAddr .CORE_DEN_LO c, BitVec.ofNat 32 (settingOf (s.arg64 1) d 1).den),
       (regAddr .CORE_FRAC_HI c, BitVec.ofNat 32
         ((settingOf (s.arg64 1) d 1).den / 2 ^ 32 * 2 ^ 16 + (settingOf (s.arg64 1) d 1).num / 2 ^ 32)),
       (regAddr .CORE_NBAND c, BitVec.ofNat 32 ((s.tableBand c (settingOf (s.arg64 1) d 1)).1 * 2 ^ 16 +
         (s.tableBand c (settingOf (s.arg64 1) d 1)).2 * 2 ^ 8 + (settingOf (s.arg64 1) d 1).n)),
       (regAddr .CORE_CMD c, 1#32)] = (.ok, u) → u.power ≠ 1 →
    completes .mbxOutFreq s fun t => t.mbxDone 0 ∧ t.cores = u.cores ∧ t.outs = u.outs ∧
      t.reg .MBX_ARG 0 = BitVec.ofNat 32 c ∧ t.reg .MBX_ARG 1 = BitVec.ofNat 32 d ∧
      t.reg .MBX_ARG 2 = BitVec.ofNat 32 (settingOf (s.arg64 1) d 1).n ∧ t.reg .MBX_ARG 6 = loWord u.hwRel := by
  intro s o d c u hr h0 hm hf hd hp hc hw h1
  refine completes_of_mbxDo rfl hr (mbxOutFreq_writes h0 hm hf hd hp hc) hw h1 fun rg sk m hdone hreg harg => ?_
  exact ⟨hdone, rfl, rfl, harg 0 (by simp), harg 1 (by simp), harg 2 (by simp), harg 6 (by simp)⟩

theorem mailbox_outFreq_owned :
    ∀ (s : State) (o : Fin 32), s.mbxRuns 3 0 = true → (s.arg 0).toNat = o.val → s.outMasked o = true →
    completes .mbxOutFreq s fun t => t.mbxDone 2 ∧ t.cores = s.cores ∧ t.outs = s.outs := by
  intro s o hr h0 hm
  exact completes_of_mbxEnd rfl hr (mbxOutFreq_owned h0 hm) (by decide) fun rg sk m rs hd _ _ _ => ⟨hd, rfl, rfl⟩

theorem mailbox_outFreq_nofit :
    ∀ (s : State) (o : Fin 32), s.mbxRuns 3 0 = true → (s.arg 0).toNat = o.val → s.outMasked o = false →
    s.arg64 1 ≤ 1600000000000 → leastDiv 1 [s.arg64 1] = none →
    completes .mbxOutFreq s fun t => t.mbxDone 17 ∧ t.cores = s.cores ∧ t.outs = s.outs := by
  intro s o hr h0 hm hf hd
  exact completes_of_mbxEnd rfl hr (mbxOutFreq_nofit h0 hm hf hd) (by decide) fun rg sk m rs hd _ _ _ => ⟨hd, rfl, rfl⟩

theorem mailbox_outFreq_nocore :
    ∀ (s : State) (o : Fin 32) (d : Nat), s.mbxRuns 3 0 = true → (s.arg 0).toNat = o.val → s.outMasked o = false →
    s.arg64 1 ≤ 1600000000000 → leastDiv 1 [s.arg64 1] = some d → (s.minPeriod o + 2) * s.arg64 1 ≤ 2000000000000000 →
    s.freqCore o = none → completes .mbxOutFreq s fun t => t.mbxDone 16 ∧ t.cores = s.cores ∧ t.outs = s.outs := by
  intro s o d hr h0 hm hf hd hp hc
  exact completes_of_mbxEnd rfl hr (mbxOutFreq_nocore h0 hm hf hd hp hc) (by decide) fun rg sk m rs hd _ _ _ => ⟨hd, rfl, rfl⟩

theorem mailbox_leastDiv_least :
    ∀ (f d : Nat), leastDiv 1 [f] = some d → 1 ≤ d ∧ 7000000000000 ≤ f * d ∧ f * d ≤ 14000000000000 ∧
    ∀ e, 1 ≤ e → e < d → f * e < 7000000000000 := by
  intro f d h
  exact leastDiv_spec h

/-- Settles O56: the settings are the model's own, which the least pre-divider and divider meet, and the writes go to the host port. -/
theorem mailboxSetsFrequencies : Obligations.MailboxSetsFrequencies :=
  ⟨mailbox_anchorSet_writes, mailbox_anchorSet_state, mailbox_anchorSet_nofit, mailbox_outFreq_writes, mailbox_outFreq_owned, mailbox_outFreq_nofit, mailbox_outFreq_nocore, mailbox_leastDiv_least⟩

end Sys2Proof.Machine

namespace Sys2Proof.Machine

/-! ## Start stages RESET to LOAD (R539 to R545, R589, R594, R598) -/

section Stages
variable {s : State}

/-- The work of a start stage, by its number (R539). -/
def State.stageWork (s : State) (ok : Bool) : Nat → State
  | 0 => s.stageReset
  | 1 => s.stageFlash ok
  | 2 => s.stageImage ok
  | 3 => s.stageLoad ok
  | 4 => s.stageStore ok
  | 5 => s.stageRestore
  | _ => s

/-- A start stage of a device that is up and in STANDBY does its work. -/
theorem completes_of_stage {ok : Bool} {n : Nat} {P : State → Prop} (hh : s.halted = false) (hp : s.power = 2) (ha : s.pins.aon = true)
    (hs : s.startStage = n) (h : P (s.stageWork ok n)) : completes (.startStageDone ok) s P := by
  have he : s.stageDone ok = s.stageWork ok s.startStage := if_neg (by simp [hh, hp, ha])
  exact ⟨_, rfl, by rw [he, hs]; exact h⟩

/-- A stage of Table 14.1 that begins is the one that STORE_START reads, and KIND and SLOT stay. -/
theorem toStage_facts (s : State) {n : Nat} (h : n < 16) : (s.toStage n).startStage = n ∧
    (s.toStage n).fld Fields.STORE_START_KIND 0 = s.fld Fields.STORE_START_KIND 0 ∧
    (s.toStage n).fld Fields.STORE_START_SLOT 0 = s.fld Fields.STORE_START_SLOT 0 ∧
    (s.toStage n).fld Fields.STORE_START_SETSRC 0 = s.fld Fields.STORE_START_SETSRC 0 :=
  ⟨(State.fld_setFld_self s Fields.STORE_START_STAGE 0 n (by decide)).trans (Nat.mod_eq_of_lt h),
    State.fld_setFld_other s Fields.STORE_START_STAGE Fields.STORE_START_KIND 0 0 n (by decide) (by decide),
    State.fld_setFld_other s Fields.STORE_START_STAGE Fields.STORE_START_SLOT 0 0 n (by decide) (by decide),
    State.fld_setFld_other s Fields.STORE_START_STAGE Fields.STORE_START_SETSRC 0 0 n (by decide) (by decide)⟩

theorem reg_toStage (s : State) (n : Nat) {r : RegName} (h : r ≠ .STORE_START) (i : Nat) : (s.toStage n).reg r i = s.reg r i :=
  reg_setFld_ne s Fields.STORE_START_STAGE 0 n r i h

/-- RECOVERY is a power state; what it is entered for stands in the start's own state (R599). -/
theorem enterRecovery_facts (s : State) (k : Nat) : (s.enterRecovery k).power = 4 ∧ (s.enterRecovery k).boot.recovery = k ∧
    (s.enterRecovery k).startStage = s.startStage ∧
    (s.enterRecovery k).fld Fields.STORE_START_SLOT 0 = s.fld Fields.STORE_START_SLOT 0 :=
  ⟨State.fld_setFld_self _ Fields.PWR_STATE_STATE 0 4 (by decide), rfl,
    fld_of_reg (f := Fields.STORE_START_STAGE) (reg_setFld_ne _ Fields.PWR_STATE_STATE 0 4 .STORE_START 0 (by decide)),
    fld_of_reg (f := Fields.STORE_START_SLOT) (reg_setFld_ne _ Fields.PWR_STATE_STATE 0 4 .STORE_START 0 (by decide))⟩

/-- A flash of 64 MiB or more that answers is used in its mode, up to 512 MiB (R541). -/
theorem stageFlash_answers (ha : s.flash.answers = true) (hm : 64 ≤ s.flash.mib) : (s.stageFlash true).startStage = 2 ∧
    (s.stageFlash true).fld Fields.STORE_FLASH_SIZE 0 = min 512 s.flash.mib ∧
    (s.stageFlash true).fld Fields.STORE_FLASH_MODE 0 = if s.flash.octal then 2 else 1 := by
  have he : s.stageFlash true = ((s.setFld Fields.STORE_FLASH_MODE 0 (if s.flash.octal then 2 else 1)).setFld Fields.STORE_FLASH_SIZE 0
      (min 512 s.flash.mib)).toStage 2 := if_pos (by simp [ha, hm])
  have hsize : min 512 s.flash.mib < 2 ^ 16 := by omega
  have hmode : (if s.flash.octal then 2 else 1) < 2 ^ 4 := by cases s.flash.octal <;> decide
  generalize (if s.flash.octal then 2 else 1) = m at he hmode ⊢
  generalize min 512 s.flash.mib = n at he hsize ⊢
  rw [he]
  refine ⟨(toStage_facts _ (by decide)).1, (fld_of_reg (f := Fields.STORE_FLASH_SIZE) (reg_toStage _ 2 (by decide) 0)).trans ?_,
    (fld_of_reg (f := Fields.STORE_FLASH_MODE) (reg_toStage _ 2 (by decide) 0)).trans ?_⟩
  · exact (State.fld_setFld_self _ Fields.STORE_FLASH_SIZE 0 n (by decide)).trans (Nat.mod_eq_of_lt hsize)
  · exact (State.fld_setFld_other _ Fields.STORE_FLASH_SIZE Fields.STORE_FLASH_MODE 0 0 n (by decide) (by decide)).trans
      ((State.fld_setFld_self s Fields.STORE_FLASH_MODE 0 m (by decide)).trans (Nat.mod_eq_of_lt hmode))

/-- The image chosen is the one that runs, and stage LOAD follows. -/
theorem chooseImage_facts (s : State) (img : List Byte) (fb : Bool) : (s.chooseImage img fb).startStage = 3 ∧
    (s.chooseImage img fb).boot.image = img ∧ (s.chooseImage img fb).boot.fallbackRuns = fb ∧
    (s.chooseImage img fb).fld Fields.STORE_START_SLOT 0 = fb.toNat ∧ (s.chooseImage img fb).flash = s.flash ∧
    (s.chooseImage img fb).raises = s.raises := by
  obtain ⟨h1, -, h3, -⟩ := toStage_facts (((s.modBoot fun b => { b with image := img, fallbackRuns := fb }).setFld
    Fields.STORE_START_SLOT 0 fb.toNat)) (n := 3) (by decide)
  refine ⟨h1, rfl, rfl, h3.trans ((State.fld_setFld_self _ Fields.STORE_START_SLOT 0 fb.toNat (by decide)).trans ?_), rfl, rfl⟩
  cases fb <;> rfl

/-- UPD_ACTVER and UPD_ACTSVN are all that noting the active image writes. -/
theorem noteActive_keeps {α : Type} (g : State → α)
    (hg : ∀ (s : State) r i v, r = .UPD_ACTVER ∨ r = .UPD_ACTSVN01 ∨ r = .UPD_ACTSVN23 → g (s.setReg r i v) = g s) (s : State) :
    g s.noteActive = g s := by
  unfold State.noteActive
  extract_lets c u v
  exact (hg _ _ _ _ (.inr (.inr rfl))).trans ((hg _ _ _ _ (.inr (.inl rfl))).trans
    (State.each_keeps g _ (fun s n => hg _ _ _ _ (.inl rfl)) _ _))

/-- A field of a register that a write of another one leaves. -/
theorem fld_setReg_ne (s : State) {r : RegName} (i : Nat) (v : Word) (f : Field) (j : Nat) (h : r ≠ f.reg) :
    (s.setReg r i v).fld f j = s.fld f j := State.fld_setReg_other _ _ _ _ _ _ fun e => h e.1

/-- An image of the active slot that passes is the one that runs. -/
theorem activeRuns_facts (s : State) : ((s.chooseImage s.flash.active false).noteActive).startStage = 3 ∧
    ((s.chooseImage s.flash.active false).noteActive).boot.image = s.flash.active ∧
    ((s.chooseImage s.flash.active false).noteActive).boot.fallbackRuns = false ∧
    ((s.chooseImage s.flash.active false).noteActive).fld Fields.STORE_START_SLOT 0 = 0 ∧
    ((s.chooseImage s.flash.active false).noteActive).flash = s.flash := by
  obtain ⟨h1, h2, h3, h4, h5, -⟩ := chooseImage_facts s s.flash.active false
  generalize s.chooseImage s.flash.active false = u at *
  refine ⟨(noteActive_keeps State.startStage (fun s r i v h => ?_) u).trans h1, (noteActive_keeps (·.boot.image) (fun _ _ _ _ _ => rfl) u).trans h2,
    (noteActive_keeps (·.boot.fallbackRuns) (fun _ _ _ _ _ => rfl) u).trans h3,
    (noteActive_keeps (·.fld Fields.STORE_START_SLOT 0) (fun s r i v h => ?_) u).trans h4,
    (noteActive_keeps State.flash (fun _ _ _ _ _ => rfl) u).trans h5⟩ <;>
  exact fld_setReg_ne _ _ _ _ _ (by obtain rfl | rfl | rfl := h <;> decide)

/-- The store's events are no part of what the chosen fallback image leaves. -/
theorem fallbackRuns_facts (s : State) (f : Store → Store) :
    ((s.chooseImage s.flash.fallback true).modStore f).startStage = 3 ∧
    ((s.chooseImage s.flash.fallback true).modStore f).boot.image = s.flash.fallback ∧
    ((s.chooseImage s.flash.fallback true).modStore f).boot.fallbackRuns = true ∧
    ((s.chooseImage s.flash.fallback true).modStore f).fld Fields.STORE_START_SLOT 0 = 1 ∧
    ((s.chooseImage s.flash.fallback true).modStore f).flash = s.flash ∧
    ((s.chooseImage s.flash.fallback true).modStore f).raises = s.raises := chooseImage_facts s s.flash.fallback true

/-- The fallback image runs when it may start, and the rejection is raised (R598). -/
theorem chooseFallback_runs (hv : s.entry.fbValid = true) (hf : imageStarts s.otp s.flash.fallback = .ok) :
    s.chooseFallback.startStage = 3 ∧ s.chooseFallback.boot.image = s.flash.fallback ∧ s.chooseFallback.boot.fallbackRuns = true ∧
      s.chooseFallback.fld Fields.STORE_START_SLOT 0 = 1 ∧ s.chooseFallback.flash = s.flash ∧
      ∃ r : Raise, s.chooseFallback.raises = s.raises ++ [r] ∧ r.fid = Src.store_IMAGE_REJECT := by
  obtain ⟨r, hu, hid, -⟩ := raiseEvent_of_not_fenced s Src.store_IMAGE_REJECT 0 rfl
  have he : s.chooseFallback = (((s.raiseEvent Src.store_IMAGE_REJECT 0).chooseImage (s.raiseEvent Src.store_IMAGE_REJECT 0).flash.fallback
      true).modStore fun x => { x with updEvents := x.updEvents ++ [6] }) := by
    refine if_pos ?_
    rw [hu]
    simpa using ⟨hv, hf⟩
  obtain ⟨h1, h2, h3, h4, h5, h6⟩ := fallbackRuns_facts (s.raiseEvent Src.store_IMAGE_REJECT 0)
    fun x => { x with updEvents := x.updEvents ++ [6] }
  rw [← he, hu] at *
  exact ⟨h1, h2, h3, h4, h5, r, h6, hid⟩

/-- With no image in the fallback slot the device enters RECOVERY for want of one (R543). -/
theorem chooseFallback_none (hv : s.entry.fbValid = false) : s.chooseFallback.power = 4 ∧ s.chooseFallback.boot.recovery = 2 ∧
    s.chooseFallback.fld Fields.STORE_START_SLOT 0 = 2 ∧ s.chooseFallback.startStage = s.startStage := by
  obtain ⟨r, hu, -, -⟩ := raiseEvent_of_not_fenced s Src.store_IMAGE_REJECT 0 rfl
  have he : s.chooseFallback = ((s.raiseEvent Src.store_IMAGE_REJECT 0).setFld Fields.STORE_START_SLOT 0 2).enterRecovery 2 := by
    refine if_neg ?_
    rw [hu]
    have hn : ({ s with raises := s.raises ++ [r] } : State).entry.fbValid = false := hv
    simp [hn]
  obtain ⟨h1, h2, h3, h4⟩ := enterRecovery_facts ((s.raiseEvent Src.store_IMAGE_REJECT 0).setFld Fields.STORE_START_SLOT 0 2) 2
  rw [← he] at h1 h2 h3 h4
  refine ⟨h1, h2, h4.trans (State.fld_setFld_self _ Fields.STORE_START_SLOT 0 2 (by decide)), h3.trans ?_⟩
  rw [hu]
  exact State.fld_setFld_other _ Fields.STORE_START_SLOT Fields.STORE_START_STAGE 0 0 2 (by decide) (by decide)

/-- Stage IMAGE with IDLE in the slot table: the active image runs when it may start, and else another is sought. -/
theorem stageImage_idle (h : s.entry.state = .idle) : s.stageImage true =
    if imageStarts s.otp s.flash.active = .ok then (s.chooseImage s.flash.active false).noteActive else s.chooseFallback := by
  have hd : s.dropReceiving = s := if_neg (by rw [h]; decide)
  have hf : s.activeFails = s.chooseFallback := if_neg (by rw [h]; decide)
  unfold State.stageImage
  simp only [hd, h, hf, Bool.true_and, decide_eq_true_eq]

/-! ### Copies that stage IMAGE begins (R589, R590, R594) -/

/-- A journal without entries holds no block as done: the first block of an operation is the first to be written. -/
theorem firstOpen_empty (h : s.flash.journal = []) (op : Nat) {n : Nat} (hn : 0 < n) : s.firstOpen op n = some 0 := by
  obtain ⟨m, rfl⟩ := Nat.exists_eq_succ_of_ne_zero hn.ne'
  unfold State.firstOpen
  rw [List.range_succ_eq_map, List.find?_cons_of_pos]
  simp [State.journalled, h]

theorem firstOpen_none (op : Nat) : s.firstOpen op 0 = none := rfl

/-- The copy of an activation of `n1` blocks to the fallback slot and `n2` to the active one (R590). -/
def State.activationCopy (s : State) (noFb : Bool) (n1 n2 : Nat) : Copy :=
  match s.firstOpen 1 n1 with
  | some i => ⟨false, noFb, 1, i, n1, n2⟩
  | none => ⟨false, noFb, 2, (s.firstOpen 2 n2).getD n2, n1, n2⟩

theorem activationCopy_opens (hj : s.flash.journal = []) (b : Bool) (n1 : Nat) {n2 : Nat} (h : 0 < n2) :
    (s.activationCopy b n1 n2).block < (s.activationCopy b n1 n2).blocks := by
  unfold State.activationCopy
  rcases Nat.eq_zero_or_pos n1 with rfl | h1
  · rw [firstOpen_none, firstOpen_empty hj 2 h]
    exact h
  · rw [firstOpen_empty hj 1 h1]
    exact h1

theorem plannedCopy_activating (he : s.entry.state = .activating) : ∃ n1,
    s.plannedCopy = s.activationCopy s.entry.nofb n1 (slotBlocks (targetLength s.flash.staging)) :=
  ⟨_, if_neg (by rw [he]; decide)⟩

/-- The copy that an activation calls for begins before its last block. -/
theorem plannedCopy_opens (hj : s.flash.journal = []) (he : s.entry.state = .activating)
    (hb : 0 < slotBlocks (targetLength s.flash.staging)) : s.plannedCopy.block < s.plannedCopy.blocks := by
  obtain ⟨n1, hc⟩ := plannedCopy_activating he
  rw [hc]
  exact activationCopy_opens hj _ n1 hb

/-- The copy that a reversion calls for begins before its last block. -/
theorem plannedCopy_reverts (hj : s.flash.journal = []) (he : s.entry.state = .reverting)
    (hb : 0 < slotBlocks (imgLength s.flash.fallback)) : s.plannedCopy.block < s.plannedCopy.blocks := by
  unfold State.plannedCopy
  extract_lets e n second n1 n2
  have h3 : s.firstOpen 3 n = some 0 := firstOpen_empty hj 3 hb
  have hn : 0 < n := hb
  rw [if_pos (by rw [show e = s.entry from rfl, he]; decide)]
  clear_value n
  rw [h3]
  exact hn

/-- A copy that has a block to write is entered in RECOVERY. -/
theorem runCopy_begins (hj : s.flash.journal = []) (hc : s.plannedCopy.block < s.plannedCopy.blocks) : s.runCopy.entry = s.entry ∧
    s.runCopy.power = 4 ∧ s.runCopy.boot.recovery = 3 ∧ s.runCopy.boot.copy.isSome = true ∧ s.runCopy.flash.active = s.flash.active ∧
    s.runCopy.flash.fallback = s.flash.fallback ∧ s.runCopy.raises = s.raises := by
  have hs : (s.modFlash fun f => { f with journal := [] }) = s := by
    unfold State.modFlash
    rw [← hj]
  have hr : s.runCopy = ((s.enterRecovery 3).modBoot fun b => { b with copy := some s.plannedCopy }).noteProgress s.plannedCopy := by
    unfold State.runCopy
    simp only [hj, List.any_nil, Bool.false_eq_true, if_false, hs]
    exact if_neg (not_le.2 hc)
  have hp : s.runCopy.power = 4 := by
    rw [hr]
    exact (fld_of_reg (f := Fields.PWR_STATE_STATE) (reg_setFld_ne _ Fields.UPD_PROGRESS_TOTAL 0 _ .PWR_STATE 0 (by decide))).trans
      ((fld_of_reg (f := Fields.PWR_STATE_STATE) (reg_setFld_ne _ Fields.UPD_PROGRESS_DONE 0 _ .PWR_STATE 0 (by decide))).trans
        (enterRecovery_facts s 3).1)
  refine ⟨?_, hp, ?_, ?_, ?_, ?_, ?_⟩ <;> rw [hr] <;> rfl

/-- The slot table's entry as the copy of an armed image begins (R589). -/
def SlotEntry.activated (e : SlotEntry) : SlotEntry := { e with state := .activating, nofb := false, jblock := (e.jblock + 1) % 4 }

/-- The slot table's entry as a trial reverts (R594). -/
def SlotEntry.reverts (e : SlotEntry) : SlotEntry := { e with state := .reverting, jblock := (e.jblock + 1) % 4 }

theorem stageImage_armed (ok : Bool) (h : s.entry.state = .armed) : s.stageImage ok = (s.commitSlot SlotEntry.activated).runCopy := by
  have hd : s.dropReceiving = s := if_neg (by rw [h]; decide)
  unfold State.stageImage
  simp only [hd, h]
  rfl

theorem stageImage_trialEnds (ok : Bool) (h : s.entry.state = .trial) (ht : 3 ≤ s.entry.trials) (hv : s.entry.fbValid = true) :
    s.stageImage ok = ((s.raiseEvent Src.store_TRIAL_REVERT 0).commitSlot SlotEntry.reverts).runCopy := by
  have hd : s.dropReceiving = s := if_neg (by rw [h]; decide)
  obtain ⟨r, hu, -, -⟩ := raiseEvent_of_not_fenced s Src.store_TRIAL_REVERT 0 rfl
  have hent : (s.raiseEvent Src.store_TRIAL_REVERT 0).entry = s.entry := by rw [hu]; rfl
  have hf : (s.raiseEvent Src.store_TRIAL_REVERT 0).activeFails =
      ((s.raiseEvent Src.store_TRIAL_REVERT 0).commitSlot SlotEntry.reverts).runCopy := by
    generalize s.raiseEvent Src.store_TRIAL_REVERT 0 = u at hent
    exact (if_pos (by rw [hent, h])).trans (if_pos ((congrArg SlotEntry.fbValid hent).trans hv))
  unfold State.stageImage
  simp only [hd, h, ht, if_true, hf]

/-! ### Stage LOAD and the flash's timeout (R541, R544) -/

/-- A settings format is a number of 16 bits. -/
theorem imgSetfmt_lt (h : List Byte) : imgSetfmt h < 2 ^ 16 := by
  have hle : ((h.drop 12).take 2).length ≤ 2 := List.length_take_le ..
  unfold imgSetfmt field beNat
  generalize (h.drop 12).take 2 = l at hle ⊢
  rcases l with _ | ⟨a, _ | ⟨b, _ | ⟨c, l⟩⟩⟩
  · decide
  · simpa using a.isLt.trans (by decide)
  · have ha := a.isLt
    have hb := b.isLt
    simp only [List.foldl_cons, List.foldl_nil]
    omega
  · exact absurd hle (by simp only [List.length_cons]; omega)

theorem stageLoad_facts (s : State) : (s.stageLoad true).startStage = 4 ∧
    (s.stageLoad true).fld Fields.UPD_FW_SETFMT 0 = imgSetfmt s.boot.image ∧ (s.stageLoad true).bar.periodFrom = s.elapsed := by
  unfold State.stageLoad
  rw [if_neg (by decide)]
  extract_lets u v w
  have hu : u.fld Fields.UPD_FW_SETFMT 0 = imgSetfmt s.boot.image :=
    (State.fld_setFld_self s Fields.UPD_FW_SETFMT 0 _ (by decide)).trans (Nat.mod_eq_of_lt (imgSetfmt_lt _))
  have hv : v.fld Fields.UPD_FW_SETFMT 0 = u.fld Fields.UPD_FW_SETFMT 0 :=
    State.fld_setFld_other u Fields.UPD_FW_FBSETFMT Fields.UPD_FW_SETFMT 0 0 _ (by decide) (by decide)
  have hw : w.fld Fields.UPD_FW_SETFMT 0 = v.fld Fields.UPD_FW_SETFMT 0 := fld_setReg_ne _ _ _ _ _ (by decide)
  have he : w.elapsed = s.elapsed := rfl
  clear_value w
  refine ⟨(toStage_facts _ (by decide)).1, (fld_of_reg (f := Fields.UPD_FW_SETFMT) (reg_toStage _ 4 (by decide) 0)).trans ?_, he⟩
  exact hw.trans (hv.trans hu)

/-- A timeout of the flash raises; in stage FLASH the device enters RECOVERY besides. -/
theorem flashTimeout_raises (s : State) : ∃ r : Raise, r.fid = Src.store_FLASH_TIMEOUT ∧ s.flashTimeout =
    if s.startStage = 1 ∧ s.power = 2 then State.enterRecovery { s with raises := s.raises ++ [r] } 1
    else { s with raises := s.raises ++ [r] } := by
  obtain ⟨r, hu, hid, -⟩ := raiseEvent_of_not_fenced s Src.store_FLASH_TIMEOUT 0 rfl
  refine ⟨r, hid, ?_⟩
  unfold State.flashTimeout
  rw [hu]
  rfl

theorem completes_flashTimeout {P : State → Prop} (h : s.reacts = true) (hP : P s.flashTimeout) : completes .flashTimeout s P :=
  ⟨_, congrArg Host.Outcome.next (if_pos h), hP⟩

end Stages

/-! ### The clauses of O48 on the stages before STORE -/

theorem stages_reset :
    ∀ (s : State) (ok : Bool), s.halted = false → s.power = 2 → s.pins.aon = true → s.startStage = 0 →
    ((s.pins.porLow = false ∧ s.pins.resetLow = false ∧ s.pins.testMode = false) →
      completes (.startStageDone ok) s fun t => t.startStage = 1 ∧ t.flash = s.flash ∧ t.fld Fields.STORE_START_KIND 0 =
        s.fld Fields.STORE_START_KIND 0) ∧
    (s.pins.porLow = true → completes (.startStageDone ok) s fun t => t = s) := by
  intro s ok hh hp ha hs
  refine ⟨fun ⟨h1, h2, h3⟩ => completes_of_stage hh hp ha hs ?_, fun h1 => completes_of_stage hh hp ha hs ?_⟩
  · have he : s.stageReset = s.toStage 1 := (if_neg (by simp [h1, h2, h3])).trans (if_neg (by simp [h2]))
    obtain ⟨hst, hk, -⟩ := toStage_facts s (n := 1) (by decide)
    rw [State.stageWork, he]
    exact ⟨hst, rfl, hk⟩
  · exact if_pos (by simp [h1])

theorem stages_flash :
    ∀ s : State, s.halted = false → s.power = 2 → s.pins.aon = true → s.startStage = 1 →
    (s.flash.answers = true → 64 ≤ s.flash.mib → completes (.startStageDone true) s fun t => t.startStage = 2 ∧
      t.fld Fields.STORE_FLASH_SIZE 0 = min 512 s.flash.mib ∧ t.fld Fields.STORE_FLASH_MODE 0 = if s.flash.octal then 2 else 1) ∧
    (completes (.startStageDone false) s fun t => t.power = 4 ∧ t.boot.recovery = 1 ∧ t.startStage = 1) := by
  intro s hh hp ha hs
  refine ⟨fun h1 h2 => completes_of_stage hh hp ha hs (stageFlash_answers h1 h2), completes_of_stage hh hp ha hs ?_⟩
  obtain ⟨h1, h2, h3, -⟩ := enterRecovery_facts s 1
  exact ⟨h1, h2, h3.trans hs⟩

theorem stages_image :
    ∀ s : State, s.halted = false → s.power = 2 → s.pins.aon = true → s.startStage = 2 → s.entry.state = .idle →
    (imageStarts s.otp s.flash.active = .ok → completes (.startStageDone true) s fun t => t.startStage = 3 ∧
      t.boot.image = s.flash.active ∧ t.boot.fallbackRuns = false ∧ t.fld Fields.STORE_START_SLOT 0 = 0 ∧ t.flash = s.flash) ∧
    (imageStarts s.otp s.flash.active ≠ .ok → s.entry.fbValid = true → imageStarts s.otp s.flash.fallback = .ok →
      completes (.startStageDone true) s fun t => t.startStage = 3 ∧ t.boot.image = s.flash.fallback ∧ t.boot.fallbackRuns = true ∧
        t.fld Fields.STORE_START_SLOT 0 = 1 ∧ t.flash = s.flash ∧
        ∃ r : Raise, t.raises = s.raises ++ [r] ∧ r.fid = Src.store_IMAGE_REJECT) ∧
    (imageStarts s.otp s.flash.active ≠ .ok → s.entry.fbValid = false → completes (.startStageDone true) s fun t => t.power = 4 ∧
      t.boot.recovery = 2 ∧ t.fld Fields.STORE_START_SLOT 0 = 2 ∧ t.startStage = 2) := by
  intro s hh hp ha hs hi
  refine ⟨fun h1 => completes_of_stage hh hp ha hs ?_, fun h1 h2 h3 => completes_of_stage hh hp ha hs ?_,
    fun h1 h2 => completes_of_stage hh hp ha hs ?_⟩ <;> rw [State.stageWork, stageImage_idle hi]
  · rw [if_pos h1]
    exact activeRuns_facts s
  · rw [if_neg h1]
    exact chooseFallback_runs h2 h3
  · obtain ⟨c1, c2, c3, c4⟩ := chooseFallback_none h2
    rw [if_neg h1]
    exact ⟨c1, c2, c3, c4.trans hs⟩

theorem stages_copy :
    ∀ (s : State) (ok : Bool), s.halted = false → s.power = 2 → s.pins.aon = true → s.startStage = 2 → s.flash.journal = [] →
    (s.entry.state = .armed → 0 < slotBlocks (targetLength s.flash.staging) → completes (.startStageDone ok) s fun t =>
      t.entry.state = .activating ∧ t.power = 4 ∧ t.boot.recovery = 3 ∧ t.boot.copy.isSome = true ∧
      t.flash.active = s.flash.active ∧ t.flash.fallback = s.flash.fallback) ∧
    (s.entry.state = .trial → 3 ≤ s.entry.trials → s.entry.fbValid = true → 0 < slotBlocks (imgLength s.flash.fallback) →
      completes (.startStageDone ok) s fun t => t.entry.state = .reverting ∧ t.power = 4 ∧ t.boot.recovery = 3 ∧
        ∃ r : Raise, t.raises = s.raises ++ [r] ∧ r.fid = Src.store_TRIAL_REVERT) := by
  intro s ok hh hp ha hs hj
  refine ⟨fun h1 h2 => completes_of_stage hh hp ha hs ?_, fun h1 h2 h3 h4 => completes_of_stage hh hp ha hs ?_⟩
  · obtain ⟨c1, c2, c3, c4, c5, c6, -⟩ := runCopy_begins (s := s.commitSlot SlotEntry.activated) hj (plannedCopy_opens hj rfl h2)
    rw [State.stageWork, stageImage_armed ok h1, c1]
    exact ⟨rfl, c2, c3, c4, c5, c6⟩
  · obtain ⟨r, hu, hid, -⟩ := raiseEvent_of_not_fenced s Src.store_TRIAL_REVERT 0 rfl
    rw [State.stageWork, stageImage_trialEnds ok h1 h2 h3, hu]
    obtain ⟨c1, c2, c3, -, -, -, c7⟩ := runCopy_begins (s := State.commitSlot { s with raises := s.raises ++ [r] } SlotEntry.reverts) hj
      (plannedCopy_reverts hj rfl h4)
    rw [c1]
    exact ⟨rfl, c2, c3, r, c7, hid⟩

theorem stages_load :
    ∀ s : State, s.halted = false → s.power = 2 → s.pins.aon = true → s.startStage = 3 →
    completes (.startStageDone true) s fun t => t.startStage = 4 ∧ t.fld Fields.UPD_FW_SETFMT 0 = imgSetfmt s.boot.image ∧
      t.bar.periodFrom = s.elapsed := by
  intro s hh hp ha hs
  exact completes_of_stage hh hp ha hs (stageLoad_facts s)

theorem stages_flashTimeout_recovers :
    ∀ s : State, s.reacts = true → s.startStage = 1 → s.power = 2 → completes .flashTimeout s fun t => t.power = 4 ∧
    t.boot.recovery = 1 ∧ ∃ r : Raise, t.raises = s.raises ++ [r] ∧ r.fid = Src.store_FLASH_TIMEOUT := by
  intro s hr hs hp
  obtain ⟨r, hid, he⟩ := flashTimeout_raises s
  rw [if_pos ⟨hs, hp⟩] at he
  obtain ⟨h1, h2, -⟩ := enterRecovery_facts { s with raises := s.raises ++ [r] } 1
  exact completes_flashTimeout hr (he ▸ ⟨h1, h2, r, rfl, hid⟩)

theorem stages_flashTimeout_raises :
    ∀ s : State, s.reacts = true → s.startStage = 6 → completes .flashTimeout s fun t => t.regs = s.regs ∧
    ∃ r : Raise, t.raises = s.raises ++ [r] ∧ r.fid = Src.store_FLASH_TIMEOUT := by
  intro s hr hs
  obtain ⟨r, hid, he⟩ := flashTimeout_raises s
  rw [if_neg fun h => absurd (hs.symm.trans h.1) (by decide)] at he
  exact completes_flashTimeout hr (he ▸ ⟨rfl, r, rfl, hid⟩)

end Sys2Proof.Machine

namespace Sys2Proof.Machine

/-! ## Stage STORE (R548, R549, R559, R561) -/

section StoreStage

/-- The ledger that turns read-only stays on its base copy (R566). -/
theorem turnReadOnly_useB (s : State) : s.turnReadOnly.store.useB = s.store.useB := by
  have hsave : ∀ (u : State) b, (u.refuseSave b).store.useB = u.store.useB := fun _ b => by cases b <;> rfl
  have hcal : ∀ (u : State) b, (u.refuseCal b).store.useB = u.store.useB := fun u b => by
    cases b with
    | true =>
      exact raiseEvent_keeps (·.store.useB) (u.setFld Fields.CAL_IMGSTAT_RESULT 0 7) Src.cal_COMMIT_FAIL 0 fun _ _ => rfl
    | false => rfl
  have hlive : ∀ (u : State) f a, (u.beginLevel f a).store.useB = u.store.useB :=
    fun u f a => RecordBlind.beginLevel (g := fun u : State => u.store.useB) ⟨fun _ _ _ => rfl, fun _ _ => rfl, fun _ _ => rfl⟩ u f a
  rw [turnReadOnly_eq, hlive, hcal, hsave]
  rfl

/-- Filling the pool gives roles to blocks; of the rest only the ledger can turn read-only (R548). -/
theorem fillPool_keeps {α : Type} (g : State → α) (hp : ∀ (s : State) p, g { s with flash := { s.flash with pool := p } } = g s)
    (ht : ∀ s : State, g s.turnReadOnly = g s) (s : State) : g s.fillPool = g s := by
  unfold State.fillPool
  generalize poolRoles.filter _ = l
  induction l generalizing s with
  | nil => rfl
  | cons r l ih =>
    refine (ih _).trans ?_
    dsimp only
    cases hf : s.flash.fillRole r with
    | none =>
      dsimp only
      split
      · rfl
      · exact ht s
    | some f =>
      obtain ⟨k, -, rfl⟩ := Option.map_eq_some_iff.1 hf
      exact hp s _

/-- A getter of the flash that does not look at the pool's roles. -/
theorem fillPool_flash {α : Type} (g : Flash → α) (hp : ∀ (f : Flash) p, g { f with pool := p } = g f) (s : State) :
    g s.fillPool.flash = g s.flash :=
  fillPool_keeps (fun s => g s.flash) (fun s p => hp s.flash p) (fun s => congrArg g (turnReadOnly_keeps s).1) s

/-- The state in which the store's initialisation fills the pool (R549). -/
def State.storeEmptied (s : State) : State :=
  { s with
    flash := { s.flash with
      pool := poolInit poolRoles s.flash.pool, baseA := ⟨true, 0, []⟩, baseB := BaseCopy.none, ring := [], ringHead := 0
      ringBlock := 0, ringWord := 0 }
    store := { s.store with useB := false } }

theorem initStore_eq (s : State) : s.initStore =
    ((s.storeEmptied.fillPool.setReg .STORE_NEXTSEQ 0 1#32).setReg .STORE_BASE 0 0).setFld Fields.STORE_START_SETSRC 0 3 := rfl

/-- An initialised store holds no settings and no records. -/
theorem initStore_facts (s : State) : s.initStore.reg .STORE_NEXTSEQ 0 = 1 ∧ s.initStore.reg .STORE_BASE 0 = 0 ∧
    s.initStore.fld Fields.STORE_START_SETSRC 0 = 3 ∧ s.initStore.base = ⟨true, 0, []⟩ ∧ s.initStore.flash.ring = [] := by
  have hring : s.storeEmptied.fillPool.flash.ring = [] := fillPool_flash Flash.ring (fun _ _ => rfl) _
  have hbaseA : s.storeEmptied.fillPool.flash.baseA = ⟨true, 0, []⟩ := fillPool_flash Flash.baseA (fun _ _ => rfl) _
  have huse : s.storeEmptied.fillPool.store.useB = false := fillPool_keeps (·.store.useB) (fun _ _ => rfl) turnReadOnly_useB _
  rw [initStore_eq]
  generalize s.storeEmptied.fillPool = u at *
  refine ⟨?_, ?_, State.fld_setFld_self _ Fields.STORE_START_SETSRC 0 3 (by decide), ?_, hring⟩
  · rw [reg_setFld_ne _ _ _ _ _ _ (by decide), State.reg_setReg_other _ _ _ _ _ _ (by decide), State.reg_setReg_self]
    rfl
  · rw [reg_setFld_ne _ _ _ _ _ _ (by decide), State.reg_setReg_self]
  · have hb : u.base = ⟨true, 0, []⟩ := (if_neg (by simp [huse])).trans hbaseA
    exact hb

/-- The state in which stage STORE reads the base copies: the pool classified and filled, the torn records voided. -/
def State.storeRead (s : State) : State := ({ s with flash := s.flash.classify }.fillPool).voidTorn

/-- Voiding leaves no torn record. -/
theorem voidTorn_ring (s : State) : ∀ r ∈ s.voidTorn.flash.ring, r.commit ≠ .torn := by
  intro r hr
  have hr' : r ∈ s.flash.ring.map fun r => if r.commit == .torn then { r with commit := .void } else r := hr
  obtain ⟨x, -, rfl⟩ := List.mem_map.1 hr'
  split
  · exact fun h => nomatch h
  · rename_i h
    exact fun h' => h (beq_iff_eq.2 h')

theorem storeRead_bases (s : State) : s.storeRead.flash.baseA = s.flash.baseA ∧ s.storeRead.flash.baseB = s.flash.baseB :=
  ⟨fillPool_flash Flash.baseA (fun _ _ => rfl) _, fillPool_flash Flash.baseB (fun _ _ => rfl) _⟩

theorem useBase_facts (s : State) (b : Bool) : (s.useBase b).base = (if b then s.flash.baseB else s.flash.baseA) ∧
    (s.useBase b).flash = s.flash := ⟨rfl, rfl⟩

/-- With both base copies valid the newer one is in use (R561). -/
theorem stageStore_both {s : State} (hpool : (s.flash.pool.any fun b => b.role.serves) = true) (ha : s.flash.baseA.valid = true)
    (hb : s.flash.baseB.valid = true) : s.stageStore true =
      (s.storeRead.useBase (newer s.flash.baseB.lastSeq s.flash.baseA.lastSeq)).toStage 5 := by
  obtain ⟨hA, hB⟩ := storeRead_bases s
  unfold State.stageStore
  rw [if_neg (by simp [hpool])]
  change State.toStage (if _ then _ else if _ then s.storeRead.useBase (newer s.storeRead.flash.baseB.lastSeq
    s.storeRead.flash.baseA.lastSeq) else _) 5 = _
  rw [if_neg (by decide), if_pos, hA, hB]
  change (s.storeRead.flash.baseA.valid && s.storeRead.flash.baseB.valid) = true
  rw [hA, hB, ha, hb]
  rfl

theorem stageStore_empty {s : State} (ok : Bool) (hpool : (s.flash.pool.any fun b => b.role.serves) = false) :
    s.stageStore ok = s.initStore.toStage 5 := congrArg (State.toStage · 5) (if_pos (by simp [hpool]))

theorem toStage_keeps (s : State) (n : Nat) : (s.toStage n).base = s.base ∧ (s.toStage n).flash = s.flash := ⟨rfl, rfl⟩

end StoreStage

/-! ### The clauses of O48 on stage STORE -/

theorem stages_storeEmpty :
    ∀ (s : State) (ok : Bool), s.halted = false → s.power = 2 → s.pins.aon = true → s.startStage = 4 →
    (s.flash.pool.any (fun b => b.role.serves)) = false → completes (.startStageDone ok) s fun t => t.startStage = 5 ∧
      t.reg .STORE_NEXTSEQ 0 = 1 ∧ t.reg .STORE_BASE 0 = 0 ∧ t.fld Fields.STORE_START_SETSRC 0 = 3 ∧ t.base = ⟨true, 0, []⟩ ∧
      t.flash.ring = [] := by
  intro s ok hh hp ha hs hpool
  refine completes_of_stage hh hp ha hs ?_
  obtain ⟨h1, h2, h3, h4, h5⟩ := initStore_facts s
  rw [State.stageWork, stageStore_empty ok hpool]
  generalize s.initStore = u at *
  obtain ⟨hst, -, -, hsrc⟩ := toStage_facts u (n := 5) (by decide)
  obtain ⟨hbase, hflash⟩ := toStage_keeps u 5
  exact ⟨hst, (reg_toStage u 5 (by decide) 0).trans h1, (reg_toStage u 5 (by decide) 0).trans h2, hsrc.trans h3, hbase.trans h4,
    (congrArg Flash.ring hflash).trans h5⟩

theorem stages_storeBoth :
    ∀ s : State, s.halted = false → s.power = 2 → s.pins.aon = true → s.startStage = 4 →
    (s.flash.pool.any (fun b => b.role.serves)) = true → s.flash.baseA.valid = true → s.flash.baseB.valid = true →
    completes (.startStageDone true) s fun t => t.startStage = 5 ∧
      t.base = (if newer s.flash.baseB.lastSeq s.flash.baseA.lastSeq then s.flash.baseB else s.flash.baseA) ∧
      ∀ r ∈ t.flash.ring, r.commit ≠ .torn := by
  intro s hh hp ha hs hpool hA hB
  refine completes_of_stage hh hp ha hs ?_
  obtain ⟨hbA, hbB⟩ := storeRead_bases s
  have hring : ∀ r ∈ s.storeRead.flash.ring, r.commit ≠ .torn := voidTorn_ring _
  rw [State.stageWork, stageStore_both hpool hA hB]
  generalize s.storeRead = u at *
  obtain ⟨hbase, hflash⟩ := useBase_facts u (newer s.flash.baseB.lastSeq s.flash.baseA.lastSeq)
  generalize u.useBase _ = v at *
  obtain ⟨hb, hf⟩ := toStage_keeps v 5
  refine ⟨(toStage_facts v (by decide)).1, ?_, ?_⟩
  · rw [hb, hbase, hbA, hbB]
  · rw [hf, hflash]
    exact hring

end Sys2Proof.Machine

namespace Sys2Proof.Machine

/-! ## Stage RESTORE (R563, R564) -/

section Restore

/-- What of the state the last stage of a start rests on, besides STORE_START. -/
structure StartKey where
  replay : Word
  power : Word
  config : Word
  elapsed : Nat
  base : BaseCopy
  ring : List Record
  slots : Option SlotEntry
  saved : RegFile
  events : List Nat

def State.startKey (s : State) : StartKey :=
  ⟨s.reg .STORE_REPLAY 0, s.reg .PWR_STATE 0, s.reg .STORE_CFG 0, s.elapsed, s.base, s.flash.ring, s.flash.table_, s.store.saved,
    s.store.updEvents⟩

/-- The registers of which a start's last stage rests on what they hold. -/
def startRegs : List RegName := [.STORE_REPLAY, .PWR_STATE, .STORE_CFG]

theorem startKey_setReg (s : State) (r : RegName) (i : Nat) (v : Word) (h : r ∉ startRegs) : (s.setReg r i v).startKey = s.startKey := by
  have hr : ∀ r' ∈ startRegs, (s.setReg r i v).reg r' 0 = s.reg r' 0 := fun r' hm =>
    State.reg_setReg_other _ _ _ _ _ _ fun e => h (e.1 ▸ hm)
  unfold State.startKey
  rw [hr .STORE_REPLAY (by decide), hr .PWR_STATE (by decide), hr .STORE_CFG (by decide)]
  rfl

theorem startKey_setFld (s : State) (f : Field) (i v : Nat) (h : f.reg ∉ startRegs) : (s.setFld f i v).startKey = s.startKey :=
  startKey_setReg s _ _ _ h

/-- The saved registers that domain 112 or RESET_N keeps: a start may find them away from their Reset values (R563). -/
def restoredRegs : List RegName :=
  [.BAR_CFG, .BAR_WAKEEN, .BAR_INHIB, .BAR_ALERTEN, .BAR_TIMER, .BAR_LANEMASK, .BAR_IN_CFG, .CORE_SPAREMAP]

theorem restoredRegs_of_kept : ∀ r ∈ setRegs ++ savedRegs, (barrowRegs.contains r || keptRegs.contains r) = true → r ∈ restoredRegs := by
  decide

theorem heldEnable_restored : ∀ r ∈ restoredRegs, heldEnable r = none := by decide

theorem keptDefaults_restored (s : State) : ∀ c ∈ s.keptDefaults, c.2.1 ∈ restoredRegs := by
  intro c hc
  unfold State.keptDefaults at hc
  obtain ⟨⟨r, i⟩, hmem, hsome⟩ := List.mem_filterMap.1 hc
  obtain ⟨hsaved, hkept⟩ := List.mem_filter.1 hmem
  have hr : r ∈ setRegs ++ savedRegs := by
    obtain ⟨l, hl, hri⟩ := List.mem_flatten.1 hsaved
    obtain ⟨r', hr', rfl⟩ := List.mem_map.1 hl
    obtain ⟨k, -, hk⟩ := List.mem_map.1 hri
    have hrr : r' = r := congrArg Prod.fst hk
    exact hrr ▸ hr'
  have hc1 : c.2.1 = r := by
    simp only at hsome
    split at hsome
    · exact nomatch hsome
    · exact (congrArg (·.2.1) (Option.some.inj hsome)).symm
  exact hc1 ▸ restoredRegs_of_kept r hr hkept

theorem mem_insertByAddr {x c : Nat × RegName × Nat × Word} {l : List (Nat × RegName × Nat × Word)} (h : c ∈ insertByAddr x l) :
    c = x ∨ c ∈ l := by
  induction l with
  | nil => exact .inl (List.mem_singleton.1 h)
  | cons y l ih =>
    unfold insertByAddr at h
    split at h
    · exact List.mem_cons.1 h
    · rcases List.mem_cons.1 h with rfl | hl
      · exact .inr List.mem_cons_self
      · exact (ih hl).imp_right fun h => List.mem_cons_of_mem _ h

/-- Sorting by address brings in nothing. -/
theorem mem_sortedByAddr (l : List (Nat × RegName × Nat × Word)) : ∀ (acc : List (Nat × RegName × Nat × Word)) c,
    c ∈ l.foldl (fun l c => insertByAddr c l) acc → c ∈ acc ∨ c ∈ l := by
  induction l with
  | nil => exact fun _ _ h => .inl h
  | cons x l ih =>
    intro acc c h
    rcases ih _ c h with h | h
    · rcases mem_insertByAddr h with rfl | h
      · exact .inr List.mem_cons_self
      · exact .inl h
    · exact .inr (List.mem_cons_of_mem _ h)

theorem startKey_spareMap (s : State) (w : Word) : (s.writeSpareMap w).2.startKey = s.startKey := by
  have hcore : ∀ (u : State) c f, (u.modCore c f).startKey = u.startKey := fun _ _ _ => rfl
  unfold State.writeSpareMap
  extract_lets old u v
  have hu : u.startKey = s.startKey := startKey_setReg _ _ _ _ (by decide)
  have hv : v.startKey = u.startKey :=
    State.each_keeps State.startKey (fun s c => s.modCore c fun k => { k with role := .unassigned }) (fun _ _ => hcore _ _ _) _ _
  split_ifs
  · rfl
  · rfl
  · rfl
  · refine (State.each_keeps State.startKey _ (fun s c => ?_) _ _).trans (hv.trans hu)
    exact (hcore _ _ _).trans (startKey_setFld s Fields.CORE_CFG_EN c 1 (by decide))

theorem writeReg_restored (s : State) {r : RegName} (h : r ∈ restoredRegs) (i : Nat) (w : Word) :
    (s.writeReg r i w).2.startKey = s.startKey := by
  have hplain : ∀ r, r ∉ startRegs → (s.plain r i w).2.startKey = s.startKey := fun r h => startKey_setReg _ _ _ _ h
  simp only [restoredRegs, List.mem_cons, List.not_mem_nil, or_false] at h
  obtain rfl | rfl | rfl | rfl | rfl | rfl | rfl | rfl := h
  case inr.inr.inr.inr.inr.inr.inr => exact startKey_spareMap s w
  all_goals exact hplain _ (by decide)

/-- What a restored value leaves, accepted or counted as refused. -/
def WRes.restored (s : State) (p : WRes) : State :=
  match p with
  | (.ok, s') => s'
  | _ => s.bump Fields.STORE_START_REFUSED 0 1

theorem startKey_restored (s : State) (p : WRes) (h : p.2.startKey = s.startKey) : (WRes.restored s p).startKey = s.startKey := by
  have hb : (s.bump Fields.STORE_START_REFUSED 0 1).startKey = s.startKey := startKey_setFld _ _ _ _ (by decide)
  obtain ⟨st, u⟩ := p
  cases st
  case ok => exact h
  all_goals exact hb

theorem restoreReg_restored (s : State) {r : RegName} (h : r ∈ restoredRegs) (i : Nat) (w : Word) :
    (s.restoreReg r i w).startKey = s.startKey := startKey_restored s _ (writeReg_restored s h i w)

/-- The saved items of a fault window are written to the window alone. -/
theorem startKey_writeItem (s : State) (c i : Nat) {k : Nat} (h : k ∈ savedItems) (d : Word) :
    (s.writeItem c i k d).startKey = s.startKey := by
  simp only [savedItems, List.mem_cons, List.not_mem_nil, or_false] at h
  obtain rfl | rfl | rfl | rfl | rfl := h <;> rfl

/-- What each step of a list keeps, the whole keeps. -/
theorem each_keeps_mem {α : Type} (p : State → α) (f : State → Nat → State) {l : List Nat} (h : ∀ s, ∀ n ∈ l, p (f s n) = p s) (s : State) :
    p (s.each l f) = p s := by
  induction l generalizing s with
  | nil => rfl
  | cons n l ih => exact (ih (fun s m hm => h s m (List.mem_cons_of_mem _ hm)) _).trans (h s n List.mem_cons_self)

theorem foldl_keeps_mem {α β : Type} (p : State → α) (f : State → β → State) {l : List β} (h : ∀ s, ∀ x ∈ l, p (f s x) = p s) (s : State) :
    p (l.foldl f s) = p s :=
  List.foldlRecOn (motive := fun t => p t = p s) l f rfl fun t ht x hx => (h t x hx).trans ht

/-- With nothing committed, restoring the settings leaves what the rest of the start rests on. -/
theorem startKey_applySettings (s : State) (h1 : s.store.saved = []) (h2 : s.store.savedProfs = []) :
    s.applySettings.startKey = s.startKey := by
  have hregs : ∀ c ∈ s.keptDefaults.foldl (fun l c => insertByAddr c l) s.store.registers, c.2.1 ∈ restoredRegs := by
    intro c hc
    have hnil : s.store.registers = [] := by
      unfold Store.registers
      rw [h1]
      rfl
    rw [hnil] at hc
    exact keptDefaults_restored s c ((mem_sortedByAddr _ _ c hc).resolve_left List.not_mem_nil)
  unfold State.applySettings
  extract_lets x regs u1 u2 u3 u4 u5 u6 u7
  have hr : ∀ c ∈ regs, c.2.1 ∈ restoredRegs := hregs
  have e1 : u1.startKey = s.startKey := foldl_keeps_mem State.startKey _ (fun s c hc => restoreReg_restored s (hr c hc) _ _) s
  have e2 : u2.startKey = u1.startKey := by
    unfold u2
    rw [show x.savedProfs = [] from h2]
    rfl
  have e4 : u4.startKey = u2.startKey := rfl
  have e5 : u5.startKey = u4.startKey := State.each_keeps State.startKey _
    (fun s w => each_keeps_mem State.startKey _ (fun s k hk => startKey_writeItem s _ _ hk _) s) _ _
  have e6 : u6.startKey = u5.startKey := foldl_keeps_mem State.startKey _ (fun s c hc => by
    obtain ⟨a, r, i, w⟩ := c
    simp only [heldEnable_restored r (hr _ hc)]) u5
  have e7 : u7.startKey = u6.startKey := rfl
  clear_value u7
  exact (show (State.setChanged _).startKey = u7.startKey from rfl).trans (e7.trans (e6.trans (e5.trans (e4.trans (e2.trans e1)))))

/-- The committed settings of a store that holds none. -/
def Store.unset (x : Store) : Store := { x with saved := [], savedProfs := [], savedPgm := [], savedFlows := [], savedFaults := [] }

theorem replayed_empty {s : State} (hr : s.flash.ring = []) : s.replayed = 0 := by
  unfold State.replayed
  simp [Flash.wholeRecords, hr]

variable {s : State} (hb : s.base.sections = []) (hr : s.flash.ring = [])
include hb hr

theorem sourceFormat_empty : s.sourceFormat = s.setFmt := by
  unfold State.sourceFormat
  simp [Flash.wholeRecords, hb, hr]

theorem takeSettings_empty : s.takeSettings = { s with store := s.store.unset } := by
  have hs : s.settingsAt s.setFmt s.newestSeq = s.store.unset := by
    unfold State.settingsAt
    simp [Flash.wholeRecords, hb, hr, Store.unset]
  unfold State.takeSettings
  simp only [sourceFormat_empty hb hr, hs, if_true]

theorem newestBody_empty (k n : Nat) : s.newestBody k n = none := by
  unfold State.newestBody
  simp [Flash.wholeRecords, hb, hr]

theorem restoreCal_empty : s.restoreCal = s := by
  unfold State.restoreCal
  rw [newestBody_empty hb hr]

theorem restoreEpoch_empty : s.restoreEpoch = s := by
  unfold State.restoreEpoch
  rw [newestBody_empty hb hr]

end Restore

end Sys2Proof.Machine

namespace Sys2Proof.Machine

/-! ## DONE (R539) -/

section Done

/-- What DONE shows, and the slot table that its work goes by. -/
structure DoneKey where
  stage : Nat
  doneAt : Option Nat
  replay : Word
  power : Nat
  auto : Bool
  saved : RegFile
  slots : Option SlotEntry

def State.doneKey (s : State) : DoneKey :=
  ⟨s.startStage, s.boot.doneAt, s.reg .STORE_REPLAY 0, s.power, s.flag Fields.STORE_CFG_AUTOACTIVE 0, s.store.saved, s.flash.table_⟩

theorem doneKey_raiseEvent (s : State) (f : Fid) (a : Word) : (s.raiseEvent f a).doneKey = s.doneKey :=
  raiseEvent_keeps State.doneKey s f a fun _ _ => rfl

/-- The floors stand in OTP; raising them may raise FUSE_EXHAUSTED besides (R596, R597). -/
theorem raiseFloors_form (s : State) : ∃ o rs, s.raiseFloors = { s with otp := o, raises := rs } := by
  have hr : ∀ u : State, ∃ rs, u.raiseEvent Src.store_FUSE_EXHAUSTED 0 = { u with raises := rs } :=
    fun u => raiseAs_form u _ u.now 0 false false
  unfold State.raiseFloors
  extract_lets new full
  split
  · exact ⟨_, _, (hr _).choose_spec⟩
  · exact ⟨_, _, rfl⟩

theorem doneKey_raiseFloors (s : State) : s.raiseFloors.doneKey = s.doneKey ∧ s.raiseFloors.store = s.store := by
  obtain ⟨o, rs, h⟩ := raiseFloors_form s
  rw [h]
  exact ⟨rfl, rfl⟩

theorem doneKey_dropFolded (s : State) : s.dropFolded.doneKey = s.doneKey := rfl

theorem doneKey_fullingDue (s : State) : s.fullingDue.doneKey = s.doneKey := by
  have hs : s.startFulling.doneKey = s.doneKey := by
    by_cases h : (s.store.readOnly || s.store.fulling.isSome) = true
    · exact congrArg State.doneKey (if_pos h)
    · obtain ⟨h1, h2⟩ := Bool.or_eq_false_iff.1 (Bool.eq_false_iff.2 h)
      obtain ⟨p, hp⟩ := startFulling_starts s h1 (Option.not_isSome_iff_eq_none.1 (Bool.eq_false_iff.1 h2))
      have ht : (s.flash.unfolded s.store.useB p).table_ = s.flash.table_ := by
        cases s.store.useB <;> rfl
      rw [hp]
      exact congrArg (fun t => { s.doneKey with slots := t }) ht
  unfold State.fullingDue
  split
  · exact hs
  · rfl

/-- The stage and the tick at which the start is done. -/
def State.doneMarked (s : State) : State := (s.toStage 6).modBoot fun b => { b with doneAt := some s.elapsed }

theorem doneKey_doneMarked (s : State) : s.doneMarked.doneKey = { s.doneKey with stage := 6, doneAt := some s.elapsed } := by
  have h1 : s.doneMarked.startStage = 6 := (toStage_facts s (n := 6) (by decide)).1
  have h2 : s.doneMarked.reg .STORE_REPLAY 0 = s.reg .STORE_REPLAY 0 := reg_toStage s 6 (by decide) 0
  have h3 : s.doneMarked.power = s.power := fld_of_reg (f := Fields.PWR_STATE_STATE) (reg_toStage s 6 (by decide) 0)
  have h4 : s.doneMarked.flag Fields.STORE_CFG_AUTOACTIVE 0 = s.flag Fields.STORE_CFG_AUTOACTIVE 0 :=
    flag_of_reg (f := Fields.STORE_CFG_AUTOACTIVE) (reg_toStage s 6 (by decide) 0)
  rw [State.doneKey, h1, h2, h3, h4]
  rfl

theorem entry_of_noSlots {s : State} (h : s.flash.table_ = none) : s.entry.state = .idle := by
  unfold State.entry
  rw [h]
  rfl

/-- Without a slot table, events and the automatic step to ACTIVE, DONE does not go beyond its own marks. -/
theorem doneKey_startDone {s : State} (hs : s.flash.table_ = none) (he : s.store.updEvents = [])
    (ha : s.flag Fields.STORE_CFG_AUTOACTIVE 0 = false) :
    s.startDone.doneKey = { s.doneKey with stage := 6, doneAt := some s.elapsed } := by
  unfold State.startDone
  extract_lets u1 trial u2 u3 events u4 u5 u6 u7
  have hidle : ∀ {u : State}, u.doneKey = u1.doneKey → u.entry.state = .idle := fun h =>
    entry_of_noSlots ((congrArg DoneKey.slots h).trans hs)
  have k2 : u2.doneKey = u1.doneKey := by
    unfold u2
    split
    · exact doneKey_raiseEvent _ _ _
    · rfl
  have v2 : u2.store.updEvents = [] := by
    unfold u2
    split
    · exact (raiseEvent_keeps (·.store.updEvents) u1 _ _ fun _ _ => rfl).trans he
    · exact he
  have k3 : u3.doneKey = u1.doneKey := by
    unfold u3
    split
    · exact k2
    · exact (doneKey_raiseFloors u2).1.trans k2
  have v3 : u3.store.updEvents = [] := by
    unfold u3
    split
    · exact v2
    · exact (congrArg Store.updEvents (doneKey_raiseFloors u2).2).trans v2
  have hnone : events = [] := by
    have ht : trial = false := decide_eq_false fun h => nomatch (hidle rfl).symm.trans h
    unfold events
    rw [v3, ht]
    rfl
  have k4 : u4.doneKey = u1.doneKey := by
    unfold u4
    rw [hnone]
    exact (show (State.modStore u3 _).doneKey = u3.doneKey from rfl).trans k3
  have k5 : u5.doneKey = u1.doneKey := by
    unfold u5
    rw [if_neg (by rw [hidle k4]; decide)]
    exact k4
  have k7 : u7.doneKey = u1.doneKey := (doneKey_fullingDue u6).trans ((doneKey_dropFolded u5).trans k5)
  have hk : u1.doneKey = { s.doneKey with stage := 6, doneAt := some s.elapsed } := doneKey_doneMarked s
  rw [if_neg, k7, hk]
  rw [show u7.flag Fields.STORE_CFG_AUTOACTIVE 0 = u7.doneKey.auto from rfl, k7, hk]
  exact Bool.eq_false_iff.1 ha

end Done

/-- The state in which stage RESTORE counts no records and takes no settings. -/
def State.restoring (s : State) : State := { s.setReg .STORE_REPLAY 0 0 with store := s.store.unset }

/-- A store without settings and records restores nothing (R563). -/
theorem stageRestore_empty {s : State} (hb : s.base.sections = []) (hr : s.flash.ring = []) :
    s.stageRestore = s.restoring.applySettings.startDone := by
  have h1 : s.setReg .STORE_REPLAY 0 (BitVec.ofNat 32 s.replayed) = s.setReg .STORE_REPLAY 0 0 := by
    rw [replayed_empty hr]
    rfl
  have h2 : (s.setReg .STORE_REPLAY 0 0).takeSettings = s.restoring := takeSettings_empty (s := s.setReg .STORE_REPLAY 0 0) hb hr
  have hk : s.restoring.applySettings.startKey = s.restoring.startKey := startKey_applySettings _ rfl rfl
  unfold State.stageRestore
  rw [h1]
  dsimp only
  rw [h2]
  have hbase : s.restoring.applySettings.base.sections = [] := (congrArg (·.base.sections) hk).trans hb
  have hring : s.restoring.applySettings.flash.ring = [] := (congrArg StartKey.ring hk).trans hr
  generalize s.restoring.applySettings = u at *
  rw [restoreCal_empty hbase hring, restoreEpoch_empty hbase hring]

/-- What the start rests on as stage RESTORE restores nothing, seen as what DONE shows. -/
theorem restored_facts (s : State) : s.restoring.applySettings.reg .STORE_REPLAY 0 = 0 ∧
    s.restoring.applySettings.power = s.power ∧ s.restoring.applySettings.elapsed = s.elapsed ∧
    s.restoring.applySettings.flag Fields.STORE_CFG_AUTOACTIVE 0 = s.flag Fields.STORE_CFG_AUTOACTIVE 0 ∧
    s.restoring.applySettings.flash.table_ = s.flash.table_ ∧ s.restoring.applySettings.store.saved = [] ∧
    s.restoring.applySettings.store.updEvents = s.store.updEvents := by
  have hk : s.restoring.applySettings.startKey = s.restoring.startKey := startKey_applySettings _ rfl rfl
  have hreplay : s.restoring.reg .STORE_REPLAY 0 = 0 := State.reg_setReg_self s .STORE_REPLAY 0 0
  have hpower : s.restoring.reg .PWR_STATE 0 = s.reg .PWR_STATE 0 :=
    State.reg_setReg_other s .STORE_REPLAY 0 0 .PWR_STATE 0 (by decide)
  have hconfig : s.restoring.reg .STORE_CFG 0 = s.reg .STORE_CFG 0 :=
    State.reg_setReg_other s .STORE_REPLAY 0 0 .STORE_CFG 0 (by decide)
  have hel : s.restoring.elapsed = s.elapsed := rfl
  have htab : s.restoring.flash.table_ = s.flash.table_ := rfl
  have hsav : s.restoring.store.saved = [] := rfl
  have hev : s.restoring.store.updEvents = s.store.updEvents := rfl
  generalize s.restoring = u at *
  generalize u.applySettings = v at *
  exact ⟨(congrArg StartKey.replay hk).trans hreplay,
    fld_of_reg (f := Fields.PWR_STATE_STATE) ((congrArg StartKey.power hk).trans hpower), (congrArg StartKey.elapsed hk).trans hel,
    flag_of_reg (f := Fields.STORE_CFG_AUTOACTIVE) ((congrArg StartKey.config hk).trans hconfig),
    (congrArg StartKey.slots hk).trans htab, (congrArg StartKey.saved hk).trans hsav, (congrArg StartKey.events hk).trans hev⟩

/-! ### The clause of O48 on stage RESTORE -/

theorem stages_restoreEmpty :
    ∀ (s : State) (ok : Bool), s.halted = false → s.power = 2 → s.pins.aon = true → s.startStage = 5 → s.base.sections = [] →
    s.flash.ring = [] → s.flash.ringHead = s.flash.ringBlock → s.flash.ringWord = 0 → s.flash.table_ = none →
    s.store.updEvents = [] → s.flag Fields.STORE_CFG_AUTOACTIVE 0 = false →
    completes (.startStageDone ok) s fun t => t.startStage = 6 ∧ t.boot.doneAt = some s.elapsed ∧ t.reg .STORE_REPLAY 0 = 0 ∧
      t.power = 2 ∧ t.store.saved = [] := by
  intro s ok hh hp ha hs hb hr _ _ ht he hauto
  refine completes_of_stage hh hp ha hs ?_
  obtain ⟨hreplay, hpower, helapsed, hcfg, hslots, hsaved, hevents⟩ := restored_facts s
  rw [State.stageWork, stageRestore_empty hb hr]
  generalize s.restoring.applySettings = u at *
  have hk := doneKey_startDone (hslots.trans ht) (hevents.trans he) (hcfg.trans hauto)
  generalize u.startDone = v at *
  exact ⟨congrArg DoneKey.stage hk, (congrArg DoneKey.doneAt hk).trans (congrArg some helapsed), (congrArg DoneKey.replay hk).trans hreplay,
    (congrArg DoneKey.power hk).trans (hpower.trans hp), (congrArg DoneKey.saved hk).trans hsaved⟩

/-- Settles O48: each stage by the state its work leaves, the copies by the first block that the journal leaves open. -/
theorem startStagesFollow : Obligations.StartStagesFollow :=
  ⟨stages_reset, stages_flash, stages_image, stages_copy, stages_load, stages_storeEmpty, stages_storeBoth, stages_restoreEmpty,
    stages_flashTimeout_recovers, stages_flashTimeout_raises⟩

end Sys2Proof.Machine
